-- ==== Sys2Proof/Word.lean ====
section
/-! DEFINITION. The word types of the GN-E96: the byte that memory, frames and records are made of. Registers, positions
and times are counted as natural numbers below a power of two (their wrapping is in Machine/Bits.lean). -/

namespace Sys2Proof

/-- A byte of memory, of a frame or of a record. -/
abbrev Byte := BitVec 8

/-- The 64-bit payload of a barrier frame (R271). -/
abbrev Payload := BitVec 64

end Sys2Proof
end

