-- ==== Sys2Proof/Machine/Payload.lean ====
section
/-! DEFINITION. The data that a command brings from outside: what stands on a pin, in a frame, in a packet, in a request or
in an instruction of a Churn. A command carries what the spec lets arrive from outside the module and nothing that the
module itself holds. Numbers are natural numbers; `Instr.wf` (WellFormed.lean) bounds them by their fields' widths. -/

namespace Sys2Proof

/-- An edge of an encoder's A/B inputs, or a quarter-period transition of a sin/cos channel (R227, R229). -/
inductive EdgeKind where
  | up | down | illegal
deriving DecidableEq, Repr

/-- What ENCODER_SIGNAL_LOSS reports: a differential input below 200 mV for 1 µs, a lost sine or cosine, or a signal
frequency above 500 kHz (R227, R229, FCODE 3). -/
inductive LossKind where
  | signal | overspeed
deriving DecidableEq, Repr

/-- The port class by which a request arrives (R356). [DESIGN CHOICE, log 7] -/
inductive Port where
  | h | c | m | z
deriving DecidableEq, Repr

/-- Who writes a register: the host through PCIe, or Milkhouse firmware on its own bus (R372). [DESIGN CHOICE, log 7] -/
inductive Source where
  | host | firmware
deriving DecidableEq, Repr

/-- A 16-byte verdict record (R249). `resv` is byte 7. -/
structure VerdictRec where
  partid : Nat
  verdict : Nat
  lane : Nat
  member : Nat
  resv : Nat
  aux : Nat
deriving DecidableEq, Repr

/-- What a stream packet carries (R62, R97, R65): an image header with the low 16 bits of its Y-offset field, a whole
line of raw sample codes (NEXP rows, channels interleaved), or part of a line. -/
inductive StreamContent where
  | header (gen : Nat)
  | line (samples : List Nat)
  | piece
deriving DecidableEq, Repr

/-- What the camera's acknowledgement says (R60, R61): done with the data read, an error code, or a wait extension in ms. -/
inductive CtrlAck where
  | done (data : List Byte)
  | nack (code : Nat)
  | wait (ms : Nat)
deriving DecidableEq, Repr

/-- Where an uncorrectable error strikes in the Separator window (R267). -/
inductive SepStrike where
  | part (id : Nat)
  | fire (id out : Nat)
  | log (idx : Nat)
  | free (ofs : Nat)
deriving DecidableEq, Repr

/-- A recipe image as Deisk builds it: what R162, R180, R156, R203, R189 and R310 say the recipe records; `replay` is the address of the
descriptor of its replay build (R223, R310). -/
structure RecipeImage where
  build : Nat
  vatKiB : Nat
  spill : Nat
  skimRates : List Nat
  counters : List Nat
  standing : List Nat
  replay : Nat
  weightLen : Nat
deriving DecidableEq, Repr

/-- Operand formats of the matrix array (R107); `mx…` are the MX element formats (R106), `u16` is the map format that no
matrix instruction may name (R134). -/
inductive OpFmt where
  | int4 | int8 | e4m3 | e5m2 | bf16 | fp16 | fp32 | fp64
  | mxE4m3 | mxE5m2 | mxFp4 | mxInt8 | u16
deriving DecidableEq, Repr

/-- A matrix instruction: one output tile over `k` reduction elements (R108 to R115). `first` starts a fresh
accumulation, `last` converts the accumulators into the readout latches; addresses are bytes of local store. `total` is the length
of the whole accumulation, over whose scales the pre-scan of R111 runs (0: this instruction is all of it), and `part` names the output
tile of a divided reduction of which the readout is a partial sum (R125). [DESIGN CHOICE, log 125] -/
structure MatrixOp where
  fa : OpFmt
  fb : OpFmt
  signedA : Bool
  signedB : Bool
  k : Nat
  aBase : Nat
  aPitch : Nat
  bBase : Nat
  bPitch : Nat
  aScale : Nat
  bScale : Nat
  first : Bool
  last : Bool
  readInt : Bool
  total : Nat := 0
  part : Option Nat := none
deriving DecidableEq, Repr

/-- A map descriptor (R133, R134). -/
structure MapDesc where
  base : Nat
  expBase : Nat
  rowPitch : Nat
  planePitch : Nat
  w : Nat
  c : Nat
  ringRows : Nat
  fmt : Nat
  layout : Nat
  skim : Nat
  ring : Bool
  resv : Nat
  sPlanePitch : Nat
  h : Nat
deriving DecidableEq, Repr

/-- What the augmentation kernel does with one sample (R303): the operation list in local store and its length, the sample's index,
the epoch, the map that holds the sample, and the sign of its integers. [DESIGN CHOICE, log 133] -/
structure AugOp where
  list : Nat
  count : Nat
  sample : Nat
  epoch : Nat
  map : MapDesc
  signed : Bool := false
deriving DecidableEq, Repr

/-- Vector operations (R123). The `x…` forms are those whose accuracy the spec bounds but does not fix; `tid` gives each lane its
thread index (R120), `combine` the combined partial sums of an output (R125 to R127); `augment` stands for the library kernel of
R303. -/
inductive VOp where
  | fadd | fmul | ffma | fmin | fmax | fdiv | fsqrt
  | xrecip | xrsqrt | xexp2 | xlog2 | xsin | xcos
  | dadd | dmul | dfma | ddiv | dsqrt
  | hfma16 | hfmaBf
  | iadd | isub | imul | iand | ior | ixor | iaddSat | isubSat | imulSat
  | load | store | latch | tid | combine
  | augment (a : AugOp)
deriving DecidableEq, Repr

/-- A vector instruction for one gang (R120 to R123): `gang` and `regs` give the gang's registers, `mask` the lanes that
take part; `a`, `b`, `c` and `d` are register numbers of the thread, `imm` a local store offset for load and store, the row
(bits 6 to 0) and the word (bit 7) of a readout latch, or the row (bits 6 to 0) and the output tile of a sum to combine. `thread` is the
index of the gang's first thread, `sums` the partial sums that a combination waits for. [DESIGN CHOICE, log 125] -/
structure VectorOp where
  op : VOp
  gang : Nat
  regs : Nat
  mask : Nat
  d : Nat
  a : Nat
  b : Nat
  c : Nat
  imm : Nat
  thread : Nat := 0
  sums : Nat := 0
deriving DecidableEq, Repr

/-- A gang that arrives at a barrier (R122): its number and the index of its first thread. -/
structure GangAt where
  gang : Nat
  thread : Nat := 0
deriving DecidableEq, Repr

/-- A rounding mode of R117. -/
inductive Rounding where
  | rne | rz | rs
deriving DecidableEq, Repr

/-- A conversion target (R118). -/
inductive CvtFmt where
  | e4m3 | e5m2 | e2m1 | fp16 | bf16 | fp32 | int4 | int8 | int32 | uint4 | uint8
deriving DecidableEq, Repr

/-- A narrowing conversion of `n` values of format `src` (FP32 when `wide` is false, FP64 when true) at local store `src`
into format `target` at `dst` (R117, R118); thread, address and element index key the RS bits. [DESIGN CHOICE, log 125] -/
structure ConvertOp where
  target : CvtFmt
  mode : Rounding
  wide : Bool
  n : Nat
  src : Nat
  dst : Nat
  thread : Nat
  addr : Nat
deriving DecidableEq, Repr

/-- Quantising 32 FP32 values at `src` into one MX block: elements at `dst`, the scale byte at `scale` (R119).
[DESIGN CHOICE, log 125] -/
structure MxOp where
  fmt : OpFmt
  mode : Rounding
  src : Nat
  dst : Nat
  scale : Nat
  thread : Nat
  addr : Nat
deriving DecidableEq, Repr

/-- A butterfly (R124) of a transform of `size` points: its values are elements `index`, `index + stride` and so on; `reverse` reads
them at digit-reversed places; data, twiddle and result addresses in local store; `wide` for FP64 complex values.
[DESIGN CHOICE, log 125] -/
structure BflyOp where
  size : Nat
  src : Nat
  twiddle : Nat
  dst : Nat
  index : Nat := 0
  stride : Nat
  reverse : Bool := false
  wide : Bool
deriving DecidableEq, Repr

/-- A window descriptor (R138). -/
structure WinDesc where
  kh : Nat
  kw : Nat
  sh : Nat
  sw : Nat
  dh : Nat
  dw : Nat
  pt : Nat
  pb : Nat
  pl : Nat
  pr : Nat
  padMode : Nat
  vroll : Bool
  op : Nat
  resv : Nat
  padVal : Nat
  groups : Nat
  cout : Nat
deriving DecidableEq, Repr

/-- A convolution or pooling instruction (R138 to R141, R144, R148): the maps in local store, that of the weights among them, the
window, the segment edges that a rolling band passes, the output rows and columns computed, the operand and result signs and the
readout of R107 and R113, and the rounding mode of the results with the instruction address that keys RS (R117).
[DESIGN CHOICE, log 125] -/
structure WindowOp where
  src : MapDesc
  dst : MapDesc
  win : WinDesc
  wmap : MapDesc
  segStart : Nat
  segRows : Nat
  y0 : Nat
  y1 : Nat
  x0 : Nat
  x1 : Nat
  c0 : Nat
  c1 : Nat
  signedA : Bool
  signedB : Bool
  readInt : Bool
  signedD : Bool := true
  mode : Rounding := .rne
  addr : Nat := 0
deriving DecidableEq, Repr

/-- A DMA transfer (R135 to R137, R151 to R155): row `row`, plane `plane` of a map between local store and the map's
home; `ls` is the local store address of the row, `lsScale` that of the scales of an MX row. `toMem` writes the map. `walkError` is
the level at which the table walk meets an uncorrectable error, if any (R167). [DESIGN CHOICE, log 125] -/
structure DmaOp where
  map : MapDesc
  toMem : Bool
  plane : Nat
  row : Nat
  ls : Nat
  lsScale : Nat := 0
  walkError : Option Nat
deriving DecidableEq, Repr

/-- What a memory access meets (R172 to R177): nothing, a corrected word (`lpddr` says which memory corrected it), resends
that end well, or an uncorrectable error, of a word or sector when `ecc`, else of a block on its way. -/
inductive MemEvent where
  | clean
  | corrected (lpddr : Bool)
  | resent (times : Nat)
  | uncorrectable (ecc : Bool)
deriving DecidableEq, Repr

/-- The common header of a Zanyx frame (R318). -/
structure ZHdr where
  seq : Nat
  ack : Nat
  nak : Bool
  rxup : Bool
  src : Nat
  dst : Nat
  bc : Bool
deriving DecidableEq, Repr

/-- A POS payload (R319). `speed` and `accel` are the 64-bit two's complement words; `flags` bits DIR, STOP, SPDV, DOZE,
FLT. -/
structure PosFrame where
  pos : Nat
  speed : Nat
  time : Nat
  flags : Nat
  bseq : Nat
  accel : Nat
deriving DecidableEq, Repr

/-- A PART payload (R319, R328). -/
structure PartFrame where
  partid : Nat
  lane : Nat
  slot : Nat
  close : Bool
  start : Nat
  fin : Nat
deriving DecidableEq, Repr

/-- A MARK payload (R319, R329). -/
structure MarkFrame where
  start : Nat
  fin : Nat
  lanes : Nat
  code : Nat
  ident : Nat
deriving DecidableEq, Repr

/-- A HELLO payload (R319): number, role, TSYNC and the state of each recipe slot. -/
structure HelloFrame where
  member : Nat
  role : Nat
  tsync : Bool
  slots : List Nat
deriving DecidableEq, Repr

/-- A dictionary request with the header of R362. `resv` is zero exactly when every reserved and response-only field of
the request is zero; `src` is the source address and port, or the mailbox; `udpLen` is the UDP payload length. -/
structure DictReq where
  magic : Nat
  version : Nat
  op : Nat
  reqid : Nat
  index : Nat
  sub : Nat
  member : Nat
  offset : Nat
  length : Nat
  flags : Nat
  resv : Nat
  data : List Byte
  src : Nat
deriving DecidableEq, Repr

/-- Why a datagram is malformed (R361): dropped without an answer, or answered BADREQ for its header. -/
inductive Malformed where
  | short | misaddressed | lengthMismatch | queueFull (port : Nat)
  | badHeader (port : Port) (req : DictReq)
deriving DecidableEq, Repr

/-- A PTP event message (R345): received or sent, port, type, sequence ID and bytes; the servo's reported
offset in ns where the message completes a measurement. -/
structure PtpMsg where
  tx : Bool
  port : Nat
  msgType : Nat
  seqId : Nat
  bytes : List Byte
  offset : Option Int
deriving DecidableEq, Repr

/-- The content of a library sample as its decoder delivers it (R295, R307): planes of rows of samples, or a syntax error
found on the way. HEVC decoding itself is ITU-T H.265. [DESIGN CHOICE, log 76] -/
inductive HevcResult where
  | ok (w h : Nat) (elemBytes : Nat) (nctu : Nat) (planes : List (List (List Nat)))
  | syntaxError
deriving DecidableEq, Repr

/-- One sample of a validation run (R310): its library index and the candidate's program verdict. -/
structure ValSample where
  index : Nat
  verdict : Nat
deriving DecidableEq, Repr

/-- A trace record (R421). -/
structure TraceRec where
  src : Nat
  kind : Nat
  data : Nat
deriving DecidableEq, Repr

/-- The cause of a Churn block reset (R208, code 0x0052). -/
inductive ChurnFault where
  | memory | hang | parity | request
deriving DecidableEq, Repr

/-- The maintenance activities (R418), in the order of R419. -/
inductive Activity where
  | T | O | F | L | D | C | X | S
deriving DecidableEq, Repr

/-- The sensors as read (R404): 32 temperatures in 1/16 °C, 16 voltages in mV, 4 currents in mA, 2 tachometers in rpm. -/
structure Sensors where
  temps : List Int
  volts : List Nat
  amps : List Nat
  tach0 : Nat
  tach1 : Nat
deriving DecidableEq, Repr

end Sys2Proof
end

