-- ==== Sys2Proof/Syntax.lean ====
section
/-! DEFINITION. The commands that the GN-E96 takes: one constructor for each row of spec/opcode_table.json, in the table's
order. -/

namespace Sys2Proof

/-- The commands and events of the opcode table. Each docstring is the row's rule and what the row says. -/
inductive Instr where
  /-- R227: A valid quadrature or quarter-period transition on an encoder channel changes its count; an illegal transition changes nothing and is a fault. -/
  | encoderEdge (ch : Fin 4) (kind : EdgeKind)
  /-- R228: A rising Z edge latches the channel position into ENC_ZPOS, sets ZSEEN and checks the distance against ZPER. -/
  | zEdge (ch : Fin 4)
  /-- R229: A sin/cos converter sample updates the fine phase and amplitude and checks the amplitude window; `phase` is the converter's interpolated phase in 1/4,096 of a period. -/
  | sincosSample (ch : Fin 4) (sine cosine : Int) (phase : Nat)
  /-- R230: The BiSS-C PERIOD timer expires and a new MA clock cycle starts. -/
  | bissCycleStart (ch : Fin 4)
  /-- R231: A completed BiSS-C cycle is CRC-checked and its signed raw difference is added to the position, or the cycle is discarded or raises a fault. -/
  | bissCycleComplete (ch : Fin 4) (raw : Nat) (nE nW : Bool) (crc : Nat)
  /-- R233: A confirmed channel fault sets FAULT and FCODE, stops generators fed by the channel, resynchronises their contexts and, for the line master, opens a fault interval. -/
  | encoderFault (ch : Fin 4)
  /-- R227: A differential input stays below 200 mV for 1 µs, which is signal loss. -/
  | encoderSignalLoss (ch : Fin 4) (kind : LossKind)
  /-- R235: A write of 1 to FAULT, or to OD 0x4200+n:0C, clears the fault if its cause is gone, closes the fault interval and resumes the stopped generators. -/
  | encFaultClear (ch : Fin 4)
  /-- R14: A write to OD 0x4000:01 changes the line master without a position jump when ARM is 0 and the part table is empty, otherwise it is refused as busy. -/
  | lineMasterChange (port : Port) (value : Nat)
  /-- R17: Every 4,000 periods of the XCLK count the E96 samples the line-master position and runs the per-tick work of the logger, scheduler and Separator. -/
  | estimateTick
  /-- R34: The line-master position reaches a part's deadline, and a part whose verdict is still NONE receives FAULT or LATE. -/
  | deadlineReached (part : Nat)
  /-- R28: A part's detector reaches the maximum part length, so the part closes at start plus maximum length with OVERLONG; `stamp` is the aligned stamp of the presence kernel's line, or is not read for a field-input lane. -/
  | partMaxLength (lane : Fin 64) (stamp : Nat)
  /-- R162: A recipe is loaded into a slot after the Vat-fit, policy, output-set and counter checks, and the slot reaches READY or stays EMPTY. -/
  | recipeLoad (port : Port) (slot : Fin 8) (image : RecipeImage)
  /-- R38: A write of the target slot to OD 0x3000:02 sets the pending switch at the effective switch position if the slot is READY. -/
  | recipeSwitch (port : Port) (slot : Nat)
  /-- R266: A write to SEP_CTL.ARM through OD 0x4600:03 takes effect at the next estimate tick, enabling firing or removing uncommitted entries. -/
  | sepArmWrite (port : Port) (value : Bool)
  /-- R265: A write to SEP_LSTOP.RELEASE or OD 0x4600:02 releases the line stop if the queue, the overflow list and the field die allow it. -/
  | lineStopRelease
  /-- R249: The VCOMMIT command delivers 1 to 256 verdict records to the Separator without interruption. -/
  | vcommit (job : Nat)
  /-- R250: The Separator accepts one verdict record, checks it and merges it by rank into VERD and PVERD, or discards and counts it. -/
  | verdictRecord (record : VerdictRec)
  /-- R267: An uncorrectable error in a part-table, fire-queue or log entry discards the entry, sets MEMERR, records a Tally event and drives the line stop. -/
  | separatorMemoryError (what : SepStrike)
  /-- R47: XCLK runs again after a wake and each compare generator issues every hit it passed while stopped, 2 XCLK cycles apart. -/
  | xclkStart
  /-- R241: The source position reaches the next compare value, so the generator issues a hit stamped with it, advances by SPACE and may set DONE or OVF. -/
  | compareHit (g : Fin 8)
  /-- R240: A write of ARM = 1 loads the next compare value from START or the first grid point after the position. -/
  | cgArm (g : Fin 8)
  /-- R243: A write of ARM = 0 stops the generator after any hit in the same cycle, and queued hits are still issued. -/
  | cgDisarm (g : Fin 8)
  /-- R245: DELAY XCLK cycles after a hit the trigger output is driven to its active level. -/
  | triggerDelayExpiry (t : Fin 8)
  /-- R245: WIDTH XCLK cycles after the active edge the trigger output returns to its inactive level. -/
  | triggerWidthExpiry (t : Fin 8)
  /-- R71: A CoaXPress trigger packet is sent early by the uplink latency, at the hit, or as soon as the uplink is free, with its fine delay. -/
  | uplinkTriggerSend (link : Fin 24)
  /-- R54: A link detects a device and firmware performs discovery, sets the rate and checks the group's connection IDs. -/
  | linkDeviceDetect (link : Fin 24) (maxRate : Nat) (connId : Nat)
  /-- R56: Loss of receiver lock sets LOCKLOSS, raises the link interrupt and ends an outstanding control request with LINKDOWN. -/
  | lockLoss (link : Fin 24)
  /-- R57: Every 10 µs CXP_LNK_EQ and CXP_LNK_EYE are updated with the adapted state and margins. -/
  | eqUpdate (link : Fin 24) (dfe ctle vert horz : Nat)
  /-- R58: PWR_EN = 1 runs power-over-coax detection and closes the switch or sets PWR_FLT. -/
  | pocxpDetect (link : Fin 24) (found : Bool)
  /-- R58: Link current above 0.65 A for 100 µs opens the switch, sets PWR_FLT and records a Tally event. -/
  | pocxpOvercurrent (link : Fin 24)
  /-- R431: VPOC below 20.0 V opens every power-over-coax switch and sets PWR_FLT on enabled links. -/
  | vpocLow
  /-- R61: A proxy read request of 4 to 256 bytes joins the link's control queue, or is refused with BADLEN. -/
  | proxyRead (link : Fin 24) (source : Source) (addr len : Nat)
  /-- R61: A proxy write request of 4 to 256 bytes joins the link's control queue, or is refused with BADLEN. -/
  | proxyWrite (link : Fin 24) (source : Source) (addr len : Nat) (data : List Byte)
  /-- R61: The camera's acknowledgement ends the request with DONE or NACK. -/
  | proxyAck (link : Fin 24) (ack : CtrlAck)
  /-- R61: No acknowledgement arrives within CXP_PRX_TMO or the granted wait extension, and the request ends with TIMEOUT. -/
  | proxyTimeout (link : Fin 24)
  /-- R62: A stream packet is routed to the enabled context of its master link and stream ID, or is discarded and counted, or breaks the block on a CRC failure. -/
  | streamPacket (link : Fin 24) (stream : Nat) (crcOk : Bool) (content : StreamContent)
  /-- R72: The stop timeout of a context that owes data expires. -/
  | stopTimeout (ctx : Fin 64)
  /-- R64: A write of ITK_CTX_CMD.COMMIT checks and stages the context configuration or refuses it with CMTERR and ERRCODE. -/
  | ctxCommit (ctx : Fin 64)
  /-- R72: A write of ITK_CTX_CMD.RESYNC breaks the block and resynchronises the context. -/
  | ctxResync (ctx : Fin 64)
  /-- R100: A write of ITK_PP_CMD.COMMIT checks and stages the pipeline fields or refuses them with ERR. -/
  | ppCommit (ctx : Fin 64)
  /-- R98: A write of ITK_PP_GENSW with ARM = 1 arms a bank switch, replacing any pending one. -/
  | bankSwitchArm (ctx : Fin 64) (gen : Nat) (bank : Bool)
  /-- R77: The line-master position passes interval end plus offset plus budget, so the member is declared absent and the parts receive UNKNOWN_INPUT. -/
  | fusionAbsence (fus : Fin 16) (k : Fin 8)
  /-- R82: A free pipe takes the ready slot whose first line was staged earliest and replays its halo. -/
  | slotDispatch (pipe : Fin 5)
  /-- R94: A pipe finishes a slot and drains, freeing its raw-ring lines. -/
  | slotComplete (pipe : Fin 5) (memErr : Bool)
  /-- R108: A matrix instruction accumulates one output tile on the array and converts it into the readout latches. -/
  | matrixInstruction (chn : Fin 16) (op : MatrixOp)
  /-- R123: A vector instruction executes on the 64 lanes for the issuing gang under IEEE 754 rules. -/
  | vectorInstruction (chn : Fin 16) (op : VectorOp)
  /-- R118: A narrowing conversion rounds under RNE, RZ or RS and saturates or maps special values. -/
  | convertInstruction (chn : Fin 16) (op : ConvertOp)
  /-- R119: Thirty-two values are quantised into one MX block with a computed scale. -/
  | mxQuantise (chn : Fin 16) (op : MxOp)
  /-- R124: A radix-4 complex butterfly reads four values and three twiddles and writes four results. -/
  | bfly4 (chn : Fin 16) (op : BflyOp)
  /-- R124: A radix-2 complex butterfly stage. -/
  | bfly2 (chn : Fin 16) (op : BflyOp)
  /-- R122: A group barrier makes the group's earlier stores visible to its later loads. -/
  | groupBarrier (chn : Fin 16) (gang : GangAt)
  /-- R141: A convolution instruction runs the window over the input map as output-stationary tiles. -/
  | convolution (chn : Fin 16) (op : WindowOp)
  /-- R148: A pooling instruction computes maximum or average pooling on the vector side. -/
  | pooling (chn : Fin 16) (op : WindowOp)
  /-- R136: The DMA engine moves data between local store and Vat, LPDDR or host memory, converting layout and applying Skim. -/
  | dmaTransfer (chn : Fin 16) (op : DmaOp) (event : MemEvent)
  /-- R172: A receiver finds a CRC-24 mismatch on a 128-byte block and the sender sends the block again; `attempt` is the number of this resend, from 1; a failure after the fourth is uncorrectable. -/
  | blockCrcResend (source dpa attempt : Nat)
  /-- R176: The background scrub reads one Vat line, corrects it and writes it back. -/
  | scrubAccess (event : MemEvent)
  /-- R178: The controller refreshes one LPDDR5X bank. -/
  | lpddrRefresh (channel bank : Nat)
  /-- R166: A write of MMU_INV_CMD.GO starts an invalidation of one page, one ASID or everything and clears DONE. -/
  | mmuInvalidate (scope asid : Nat)
  /-- R166: An invalidation completes and MMU_INV_STAT.DONE reads 1. -/
  | invalidateDone
  /-- R167: A write of MMU_FAULTQ_POP removes the oldest fault record. -/
  | faultqPop
  /-- R129: A Churn gates its clock after 64 idle CCLK cycles. -/
  | churnClockGate (chn : Fin 16)
  /-- R129: A Churn without a resident context power-gates after PGIDLE µs idle. -/
  | churnPowerGate (chn : Fin 16)
  /-- R129: A Churn completes its 10 µs power-up and can take a piece. -/
  | churnPowerUpDone (chn : Fin 16)
  /-- R188: A write to JOB_Qn_TAIL makes new descriptor entries available to the scheduler. -/
  | queueTailWrite (source : Source) (queue : Fin 9) (tail : Nat)
  /-- R188: The scheduler takes the entry at HEAD into the job table when room exists and advances HEAD. -/
  | jobAdmit
  /-- R184: The LAYER command runs one layer or fused group for one band step as pieces on Churns. -/
  | layer (job : Nat)
  /-- R184: The KERNEL command launches a vector kernel divided into pieces. -/
  | kernel (job : Nat)
  /-- R184: The WAIT command holds the job until the sync counter reaches BASE plus i times STEP. -/
  | wait (job : Nat)
  /-- R201: A waited-on counter reaches its value and the job continues. -/
  | waitSatisfied (job : Nat)
  /-- R184: The SIGNAL command adds ADD to a sync counter. -/
  | signal (job : Nat)
  /-- R184: The SCRESET command sets a sync counter to 0. -/
  | scReset (job : Nat)
  /-- R192: The SPAN command reads START and END and fixes the iteration's span and deadline, reporting held faults against it. -/
  | span (job : Nat)
  /-- R187: A job iteration ends, its CSC is signalled and a completion record is written or dropped. -/
  | iterationEnd (job : Nat)
  /-- R191: A ready piece is dispatched to a free Churn in deadline order, inspection before teach. -/
  | pieceDispatch
  /-- R126: In fast mode a Churn with no ready piece takes the upper half of a running LAYER piece's untouched remainder. The victim's untouched remainder is `[k0, k1)`, and `pair` the formats of its operands (R107). -/
  | takeover (taker : Fin 16) (victim : Fin 16) (k0 k1 : Nat) (pair : OpFmt × OpFmt)
  /-- R193: A context's slice expires and it yields or begins a new slice. -/
  | sliceEnd (chn : Fin 16)
  /-- R198: A victim reaches its cheap point and saves only its live ranges and control region. The live ranges of the save region, offset and length, as Deisk lists them (R198). -/
  | cheapPointReached (chn : Fin 16) (ranges : List (Nat × Nat))
  /-- R199: A save writes its VALID word last and the Churn becomes free. -/
  | saveComplete (chn : Fin 16) (writeFails : Bool)
  /-- R199: A saved context is restored on a Churn and continues from its saved instruction. -/
  | restoreComplete (chn : Fin 16) (readFails : Bool)
  /-- R205: JOB_CMD RESUME makes a fault-suspended context ready again. -/
  | jobResume
  /-- R190: JOB_CMD ABORT ends a job at once, discarding its contexts and reporting a fault for its span. -/
  | jobAbort
  /-- R190: JOB_CMD STOP ends a job after its current iteration with STATUS STOPPED. -/
  | jobStop
  /-- R208: A sequencer retires no instruction for 1,000,000 CCLK cycles while a context is ready. -/
  | sequencerHang (chn : Fin 16)
  /-- R208: A Churn is block-reset behind its wrapper, its work redispatched and its self-test run. -/
  | churnBlockReset (chn : Fin 16) (cause : ChurnFault)
  /-- R204: A SYN_OP write with OP 1 adds SYN_VAL to a counter. -/
  | synSignalAdd (sc : Nat)
  /-- R204: A SYN_OP write with OP 2 resets a counter to 0. -/
  | synReset (sc : Nat)
  /-- R204: A write to SYN_RDIDX latches the counter's 64-bit value into SYN_RDVAL. -/
  | synRdidxLatch (sc : Nat)
  /-- R219: A write to GLB_MODE.FIXED is accepted when no job is admitted and no context is held, starting every Churn before the mode reads 1. -/
  | fixedModeWrite (port : Port) (value : Bool)
  /-- R128: A write of OD 0x3001:01 sets GLB_MODE.REPRO for jobs dispatched afterwards. -/
  | reproModeWrite (port : Port) (value : Bool)
  /-- R272: Every 400 periods of the XCLK count the logic side sends a TICK, REG or STATE frame across the barrier. -/
  | outboundFrameSlot
  /-- R278: A committed tick enters the barrier queue once its lead is at most 20 ms and a place is free. -/
  | tickEnqueue
  /-- R280: The field die receives a STATE frame and enters or leaves the safe state or takes the line-stop level. -/
  | stateFrame (payload : Payload)
  /-- R276: The field die receives a TICK frame and stores the tick, ignores a copy, or handles it as late. -/
  | tickFrame (payload : Payload)
  /-- R273: The field die receives a REG frame and performs the register write or read. -/
  | regFrame (payload : Payload)
  /-- R273: The logic side receives a STATUS frame with input levels, diagnostics and safe, late and restart flags. -/
  | inboundStatusFrame (payload : Payload)
  /-- R273: The logic side receives a READ frame answering a field-die register read. -/
  | inboundReadFrame (payload : Payload)
  /-- R276: The field timer reaches a held tick's edge and drives the enabled outputs in its mask to its level. -/
  | tickEdge
  /-- R279: No good outbound frame has arrived for FIO_SAFE_TMO. -/
  | safeTimeout
  /-- R279: L+ falls below 18.0 V and the field die enters the safe state. -/
  | fieldSupplyLow
  /-- R282: L+ falls below 12.0 V and the field die stops with every output off. -/
  | fieldSupplyLoss
  /-- R282: L+ rises above 14.0 V after a loss and the field die restarts at reset values in the safe state. -/
  | fieldSupplyReturn
  /-- R283: A field input's level change is accepted after DEB further samples at the new level. -/
  | inputChangeAccepted (input : Fin 16) (level : Bool)
  /-- R285: An input current below 0.35 mA for 1 ms declares the input broken, sets its flag, raises the interrupt and marks an open part. -/
  | wireBreak (input : Fin 16)
  /-- R285: An input at 0.45 mA or more for 1 ms ends a declared break; `level` is the level the input's current reads under R283. -/
  | wireBreakClear (input : Fin 16) (level : Bool)
  /-- R286: An output above 0.7 A for 50 µs is switched off and its short-circuit bit set. -/
  | outputShortCircuit (out : Fin 32)
  /-- R286: An on output below 5 mA for 1 ms sets its open-load bit. -/
  | outputOpenLoad (out : Fin 32)
  /-- R428: An output group above 3.0 A for 10 ms or a switch above 150 °C switches off the group's on outputs. -/
  | groupOvercurrent (group : Fin 4)
  /-- R375: A write of IND_DATA performs a write at ADDR in the selected space. -/
  | indDataWrite (value : Nat)
  /-- R375: A read of IND_DATA performs a read at ADDR and holds the completion until data arrives. -/
  | indDataRead
  /-- R375: An indirect target does not answer within 40 µs, the read returns all ones and TMO is set. -/
  | indTimeout
  /-- R294: A write of TCH_LIB_RSV reserves n index entries and raises TCH_LIB_CNT, or sets FAIL. -/
  | libReserve (n : Nat)
  /-- R306: The decoder takes a batch request from its queue, checks it and starts decoding or refuses it. -/
  | batchRequest (queue : Fin 2)
  /-- R307: One library sample finishes decoding into its slot, or is found corrupt and zeroed; `hevc` is read for a sample with SRC 2 only. -/
  | sampleDecodeDone (slot : Nat) (hevc : HevcResult)
  /-- R308: All slots of a batch are done, so the slot table, the record and the SC signal are written. -/
  | batchComplete
  /-- R309: A 10 µs LPDDR5X cap window ends and the paused decoder may continue. -/
  | decoderCapWindow
  /-- R310: A write of 1 to OD 0x7100:04 checks the slots and the image and runs the replay build over held-out samples. -/
  | validationStart (port : Port) (value : Nat)
  /-- R310: The validation run ends and the image is accepted into the target slot or rejected. -/
  | validationComplete (samples : List ValSample)
  /-- R324: Every 1 µs in Run and Ready the manager sends a POS frame. -/
  | posSend
  /-- R326: A worker receives a POS frame, updates its herd position and forwards a new BSEQ. -/
  | pos (port : Fin 4) (hdr : ZHdr) (frame : PosFrame)
  /-- R325: Every 10 µs a member sends a TIME frame to its neighbour. -/
  | timeSend
  /-- R325: A member receives a TIME frame and steers its device time, setting TSYNC after 16 frames; `error` is the offset that the exchange measures against upstream, in 0.25 ns. -/
  | time (port : Fin 4) (hdr : ZHdr) (peer echo : Nat) (error : Int)
  /-- R328: A worker receives a PART frame and writes the part's entry into its Separator window. -/
  | part (port : Fin 4) (hdr : ZHdr) (frame : PartFrame)
  /-- R329: The manager receives a VERD frame and checks and merges its verdict records. -/
  | verd (port : Fin 4) (hdr : ZHdr) (records : List VerdictRec)
  /-- R329: The manager receives a MARK frame and applies UNKNOWN_INPUT or a work fault over its interval and lanes. -/
  | mark (port : Fin 4) (hdr : ZHdr) (frame : MarkFrame)
  /-- R328: The manager receives a PRES frame and opens or closes a part at its position. -/
  | pres (port : Fin 4) (hdr : ZHdr) (pos : Nat) (lane : Fin 64) (present : Bool)
  /-- R332: A worker receives a relayed dictionary request and answers under class Z rights, or the manager receives the answer. -/
  | dict (port : Fin 4) (hdr : ZHdr) (req : DictReq) (response : Bool)
  /-- R320: A BULK frame writes one block into the bulk window and may signal a sync counter. -/
  | bulk (port : Fin 4) (hdr : ZHdr) (dpa sc : Nat) (sig : Bool) (block : List Byte)
  /-- R314: The manager receives a worker's HELLO and admits it or sets CFGERR. -/
  | hello (port : Fin 4) (hdr : ZHdr) (frame : HelloFrame)
  /-- R319: Every 100 µs a worker sends a HELLO frame. -/
  | helloSend
  /-- R331: A worker receives a SWITCH frame and applies the effective switch position. -/
  | switch (port : Fin 4) (hdr : ZHdr) (slot pos : Nat)
  /-- R321: 1,024 consecutive good frames set RXUP on a port. -/
  | zanyxLinkUp (port : Fin 4)
  /-- R322: A NAK or a CRC or sequence gap makes the sender resend every frame after ACK. -/
  | zanyxNak (port : Fin 4) (ack : Nat)
  /-- R322: A sequenced frame without acknowledgement after 0.8 µs is resent. -/
  | replayTimeout (port : Fin 4)
  /-- R333: A port goes down after a fourth failed replay or unannounced idle and traffic moves to the other ring route. -/
  | zanyxPortDown (port : Fin 4)
  /-- R323: A direction idle for IDLE µs sends an IDLE frame with SLP and enters electrical idle. -/
  | zanyxSleep (port : Fin 4)
  /-- R323: A frame waits to be sent and the sleeping direction wakes. -/
  | zanyxWake (port : Fin 4)
  /-- R327: A worker receives no good POS for 4 µs and acts as on a line-master fault. -/
  | poslost
  /-- R334: The manager has no route to or no HELLO for 1 ms from a worker and marks its lanes' parts UNKNOWN_INPUT. -/
  | workerLost (member : Fin 64)
  /-- R332: No answer arrives within 10 ms and the manager answers UNREACHABLE. -/
  | dictRelayTimeout (reqid : Nat)
  /-- R340: A write of the high word of TIM_STEP applies a step to device time or refuses it. -/
  | timeStep (source : Source) (step : Int)
  /-- R338: A write of TIM_RATE sets the rate offset of device time. -/
  | timeRateWrite (source : Source) (rate : Int)
  /-- R339: A read of TIM_NS latches TIM_WRAP of the same instant. -/
  | timNsRead
  /-- R345: A PTP event message is received or sent and stamped, feeding the servo or the host event ring. -/
  | ptpMessage (msg : PtpMsg)
  /-- R346: A write of TIM_TXQ_POP removes the oldest transmit stamp. -/
  | txqPop (source : Source)
  /-- R349: The announce receipt timeout expires and the clock enters holdover. -/
  | announceTimeout
  /-- R348: A write of OD 0x6000:07 passes servo ownership to the host or back to firmware. -/
  | servoHandover (port : Port) (value : Bool)
  /-- R350: Enabling a time-triggered output checks WIDTH, PERIOD and START or refuses with CFGERR. -/
  | ttoEnable (port : Port) (t : Fin 8)
  /-- R351: Device time reaches a time-triggered output's edge and the output is driven, or a passed edge is skipped. -/
  | ttoEdge (t : Fin 8)
  /-- R363: The READ operation returns an entry's value after the checks of R357. -/
  | dictRead (port : Port) (req : DictReq)
  /-- R363: The WRITE operation checks and applies a value, storing class N entries in NVM. -/
  | dictWrite (port : Port) (req : DictReq) (nvmFails : Bool)
  /-- R363: The INFO operation returns an entry's type, class, rights, length and default. -/
  | dictInfo (port : Port) (req : DictReq)
  /-- R363: The READSEG operation returns a segment of a value from OFFSET. -/
  | dictReadseg (port : Port) (req : DictReq)
  /-- R366: The WRITESEG operation adds a segment to a DOMAIN sequence and applies the whole value on LAST. -/
  | dictWriteseg (port : Port) (req : DictReq) (nvmFails : Bool)
  /-- R366: A sequence that receives no segment for 1 s is abandoned. -/
  | segmentSequenceTimeout (index sub : Nat)
  /-- R365: 10 ms after an answer, the stored response of a request is dropped. -/
  | responseCacheExpiry (src reqid : Nat)
  /-- R367: A write of MLK_MBX_DB submits the mailbox request, or sets DBERR while busy. -/
  | mbxDoorbell
  /-- R374: A write of OBS_SNAP.GO copies positions, estimates, time and counters at one XCLK cycle into holding registers. -/
  | snapshot
  /-- R378: A write of GLB_IRQ_ACK resends each named vector that is still pending. -/
  | irqAck (bits : Nat)
  /-- R376: The background check votes every RWV field, rewriting a differing copy or resetting a field without majority. -/
  | voteCheck
  /-- R372: A write to a register without a row of its own changes only the fields its source owns. -/
  | registerWrite (source : Source) (addr bytes value : Nat)
  /-- R381: RST_N is held low for 1 µs and a warm reset entry begins. -/
  | rstNLow
  /-- R381: RST_N still low at 10 ms escalates the reset to a cold reset. -/
  | coldResetEscalation
  /-- R381: RST_N is released and the start sequence begins once the entry sequence is complete. The measured low time of the last level, in µs (R392). -/
  | rstNRelease (lowTime : Nat)
  /-- R382: VSTBY above 3.1 V for 1 ms releases POR and a cold start runs. -/
  | por
  /-- R431: VSTBY below 3.0 V stops the always-on domain and the E96 behaves as in Off. -/
  | vstbyLoss
  /-- R382: VIN12 below 10.2 V for 10 µs is a loss of the main input and the E96 enters Off. -/
  | vin12Loss
  /-- R382: VIN12 above 10.8 V for 10 ms after Off leads to a cold start. -/
  | vin12Return
  /-- R383: PERST# or a hot reset block-resets the PCIe core alone. -/
  | pcieReset
  /-- R384: A start stage completes and the next one begins; `storeFails` says that the failed-start count could not be stored (R389). -/
  | startStageComplete (storeFails : Bool)
  /-- R390: A write of 1 to OD 0x9001:01 after stage 8 confirms the start and stores the count 0. -/
  | startConfirm (port : Port)
  /-- R390: STARTTMO seconds pass without confirmation and the E96 enters HALTED. -/
  | startTimeout
  /-- R391: Port M writes 0 to OD 0x9001:02 and the next reset starts normally. -/
  | failstartClear (port : Port) (value : Nat)
  /-- R394: A write of GO to RCP_BRST or RCP_BRST_MLK block-resets the named block, or sets BRSTERR. -/
  | blockReset (source : Source) (block : Nat)
  /-- R397: The idle conditions have held for RDYIDLE µs and the E96 passes from Run to Ready. -/
  | readyEntry
  /-- R397: DOZEIDLE ms in Ready passes the E96 to Doze when allowed. -/
  | dozeEntry
  /-- R396: A demand in Ready or Doze starts the needed domains and returns the E96 to Run. -/
  | demand
  /-- R398: OD 0x9000:01 = 1 stops standing jobs, sends SAFE frames and powers domains down, or is refused or abandoned. -/
  | enterStandby (port : Port)
  /-- R399: OD 0x9000:01 = 2 resumes counting, applies the dictionary, releases the safe state and raises vector 12. -/
  | leaveStandby (port : Port)
  /-- R398: OD 0x9000:01 = 3 enters Off under the same conditions as Standby. -/
  | enterOff (port : Port)
  /-- R360: A write of 1 to OD 0x1010:01 sets class N entries to defaults at the next cold reset or POR. -/
  | restoreDefaults (port : Port)
  /-- R404: Every 1 ms Milkhouse reads every temperature, voltage and current sensor. -/
  | sensorRead (sensors : Sensors)
  /-- R407: A tachometer below 300 rpm for 2 s at 20 % duty or more declares the fan failed. -/
  | fanFailed (fan : Fin 2)
  /-- R409: A queued event is written to the next erased Tally slot with MARK programmed last. -/
  | tallyWrite
  /-- R411: A write of 1 to OD 0xA100:04 from port M erases the Tally and writes a CLEARED record. -/
  | tallyClear (port : Port)
  /-- R410: Every 6 minutes the operating-hour count is stored in NVM. -/
  | operatingHoursStore
  /-- R388: An option-byte rewrite writes the two copies one at a time. -/
  | optionRewrite
  /-- R417: A firmware bank write programs and reads back the inactive bank and then requests the TRYBANK rewrite. -/
  | firmwareBankWrite (readbackOk : Bool)
  /-- R419: A write to OD 0xA300:01 requests a maintenance activity, which runs or is queued. -/
  | maintenanceRequest (port : Port) (activity : Activity)
  /-- R418: The period of a periodic maintenance activity expires and the activity is requested. -/
  | maintenanceDue (activity : Activity)
  /-- R419: A maintenance activity ends and the queued activities that conflicted with it start. -/
  | maintenanceEnd (activity : Activity)
  /-- R420: An idle-Churn self-test ends, returning the Churn to service or holding it isolated. -/
  | selfTestDone (chn : Fin 16) (pass : Bool) (testStep : Nat)
  /-- R422: A source hands a trace record to its FIFO and the buffer stores it, or drops it. -/
  | traceRecord (record : TraceRec)
  /-- R46: A CoaXPress receiver detects signal after a loss of signal or lock and locks again, setting CXP_LNK_STAT.LOCK. -/
  | linkLock (link : Fin 24)
  /-- R352: An Ethernet port loses its link, clearing ETH_STAT.LINK and setting LINKDOWN. -/
  | ethLinkLoss (port : Fin 3)
  /-- R352: An Ethernet port gains its link and ETH_STAT.LINK reads 1. -/
  | ethLinkUp (port : Fin 3)
  /-- R361: A datagram that is short, misaddressed, inconsistent in length, or arrives at a full queue is dropped and counted in OD 0x1001:02, or a request with a bad header is answered BADREQ. -/
  | malformedDatagram (what : Malformed)
  /-- R271: A barrier frame fails its CRC or carries KIND 3 and is discarded and counted, breaking the run of good frames and being reported in STATUS bit 9 or FIO_CRC_CNT. -/
  | barrierFrameCrcFail (inbound : Bool)
  /-- R174: A host read or write through BAR2 or BAR4 reaches Vat or LPDDR5X, returning all ones or dropping the write on an uncorrectable error. -/
  | hostApertureAccess (bar2 : Bool) (ofs : Nat) (write : Option (List Byte)) (len : Nat) (event : MemEvent)
  /-- R350: WIDTH ns after its active edge a time-triggered output returns to its inactive level. -/
  | ttoWidthExpiry (t : Fin 8)
  /-- R231: A BiSS-C slave's start bit is missing for 20 µs, which is a channel fault with FCODE 7. -/
  | bissStartBitTimeout (ch : Fin 4)
  /-- R323: A Zanyx port receives an IDLE frame, taking its ACK and, when SLP is 1, freezing its adaptation as the direction enters electrical idle. -/
  | idleFrame (port : Fin 4) (hdr : ZHdr) (slp : Bool)
  /-- R319: A Zanyx frame of type 10 to 15 is discarded and counted in ZXL_BAD_CNT; one with LEN 17 to 31 or a wrong CRC is discarded as a CRC failure (R318, R322). -/
  | zanyxBadFrame (port : Fin 4) (typ len : Nat) (crcOk : Bool)
  /-- R349: A PTP general message such as Announce is received, feeding the best-master algorithm and ending holdover when a master is selected again; `master` is the port whose master the best-master algorithm selects after this message, if any. -/
  | ptpGeneralMessage (msg : PtpMsg) (master : Option Nat)
  /-- R280: L+ has been at 19.2 V or above for 10 ms after a drop below 18.0 V, so the field die again allows release of the safe state. -/
  | fieldSupplyRestored
  /-- R436: The PCIe endpoint begins link training within 20 ms of the later of the release of PERST# and the end of start stage 3. -/
  | pcieLinkTraining
deriving DecidableEq, Repr

end Sys2Proof
end

