-- ==== Sys2Proof/Decode.lean ====
section
/-! DEFINITION. The commands as words. The opcode table gives no row any bits: a command arrives as a frame, a packet, a
register access or a pin event, and no word spells one. -/

namespace Sys2Proof

/-- The command that a word of the table's bits spells: none, for the table gives no row bits. [DESIGN CHOICE, log 8] -/
def decodeTableWord (_nbits _w : Nat) : Option Instr := none

end Sys2Proof
end

