-- ==== Sys2Proof/Config.lean ====
section
/-! DEFINITION. What the spec leaves open, as constants without a body: nothing in Lean can evaluate them or prove a value
of them, so a statement that mentions one holds whatever the hardware does there. `n` is the free-value counter of the
state (`Dev.free`), which a step that uses a free value advances. -/

namespace Sys2Proof

/-- The free value of use `n` of the free-value counter: any number (the user reduces it to its width).
[DESIGN CHOICE, log 5] -/
opaque Config.freeNat (n : Nat) : Nat

/-- A byte of host memory as the host holds it when the E96 reads it (R157, R160: host memory is the host's).
[DESIGN CHOICE, log 51] -/
opaque Config.hostByte (n addr : Nat) : Byte

/-- A byte that the device's own programs or engines leave where the spec fixes no encoding (Epoth strips, R290).
[DESIGN CHOICE, log 74] -/
opaque Config.epothByte (n ofs : Nat) : Byte

/-- Whether the capture engine writes a stamp table where a line pitch would do (R298: both are strips of the same sample).
[DESIGN CHOICE, log 74] -/
opaque Config.stampTable : Bool

/-- The result of a vector operation of which the spec bounds the accuracy and not the value (R123): operation number and
operand bits. [DESIGN CHOICE, log 67] -/
opaque Config.approx (op bits : Nat) : Nat

/-- The 16 random bits of RS rounding that a word of the keyed generator gives (R117 and R302 do not say which).
[DESIGN CHOICE, log 69] -/
opaque Config.rsBits (word : Nat) : Nat

/-- Which of the two products of a complex multiplication a butterfly rounds by itself (R123 fixes a multiply by FMA and not its
order). [DESIGN CHOICE, log 69] -/
opaque Config.bflyOrder : Bool

/-- SHA-384 of a byte string, as a number (R414). [DESIGN CHOICE, log 10] -/
opaque Config.sha384 (bytes : List Byte) : Nat

/-- Whether an ECDSA P-384 signature over a digest verifies against the module's public key (R414). [DESIGN CHOICE, log 10] -/
opaque Config.ecdsaVerifies (digest : Nat) (signature : List Byte) : Bool

/-- Whether the public key of the module matches its fuses (R414). [DESIGN CHOICE, log 10] -/
opaque Config.keyGood : Bool

/-- `GLB_PCIID` (R3: fixed, and not given). [DESIGN CHOICE, log 10] -/
opaque Config.pciId : Nat

/-- The values that manufacture writes into NVM and the spec does not give: the serial number, the order code, the first
MAC address of port `p` (R369, R353). [DESIGN CHOICE, log 10] -/
opaque Config.serialNumber : List Byte
opaque Config.orderCode : Nat
opaque Config.macAddress (p : Nat) : Nat

/-- The bytes of firmware bank `k` as delivered (R414; the spec does not give them). [DESIGN CHOICE, log 10] -/
opaque Config.bankImage (k : Nat) : List Byte

/-- Whether an access uses a translation that a cache holds, where the tables may have changed since (R166: either), at use `n` of the
free-value counter, of an address. [DEDUCED, log 50] -/
opaque Config.useCached (n va : Nat) : Bool

/-- Whether the host has enabled bus mastering (R165), at use `n` of the free-value counter: the bit stands in the PCIe configuration
space, which the spec does not describe. [DESIGN CHOICE, log 51] -/
opaque Config.busMaster (n : Nat) : Bool

/-- The input map, the output map and the outputs that the program of a command joins to one of its window descriptors. -/
structure WindowUse where
  src : Nat
  dst : Nat
  y0 : Nat
  y1 : Nat
  x0 : Nat
  x1 : Nat
  c0 : Nat
  c1 : Nat
deriving DecidableEq, Repr, Inhabited

/-- What the program of a command, whose encoding the spec does not give, joins to window `k` of its argument block, at use `n` of the
free-value counter (R143, R144). [DEDUCED, log 53] -/
opaque Config.windowUse (n k : Nat) : WindowUse

/-- The port, ETH_A for 0 or ETH_B for 1, by which the requests of a source of class C arrive (R356 gives both the same class). -/
opaque Config.ethPort (src : Nat) : Nat

/-- Byte `k` of a Zanyx payload, or of the part of it, whose layout R319 does not give, for the numbers that it carries.
[DEDUCED, log 135] -/
opaque Config.payloadByte (content : List Nat) (k : Nat) : Nat

/-- The fixed barrier delay of R274, in field timer ticks. [DESIGN CHOICE, log 10] -/
opaque Config.barrierDelay : Nat

/-- The error of the field timer's own rate, in ticks, at XCLK count `now` after the latest good frame at `since`; the user keeps it
within R274's bound. [DESIGN CHOICE, log 132] -/
opaque Config.fieldDrift (since now : Nat) : Int

end Sys2Proof
end

