-- ==== Sys2Proof/Machine/Bits.lean ====
section
/-! DEFINITION. Numbers below a power of two: wrapping, signed views, saturation, bit fields, little-endian bytes, integer
square root and the CRCs of the spec. Everything recurses on a list or on fuel, so that the kernel can evaluate it. -/

namespace Sys2Proof.Machine

/-- `n` modulo 2^`w`. -/
def wrap (w n : Nat) : Nat := n % 2 ^ w

/-- The signed value of the low `w` bits of `n` (two's complement, R6). -/
def sgn (w n : Nat) : Int :=
  if n % 2 ^ w < 2 ^ (w - 1) then (n % 2 ^ w : Nat) else (n % 2 ^ w : Nat) - (2 ^ w : Nat)

/-- The `w`-bit two's complement word of `z`. -/
def unsgn (w : Nat) (z : Int) : Nat := (z % (2 ^ w : Nat)).toNat

/-- Whether `z` fits a signed `w`-bit word. -/
def fitsS (w : Nat) (z : Int) : Bool := decide (-(2 ^ (w - 1) : Nat) ≤ z ∧ z < (2 ^ (w - 1) : Nat))

/-- The signed 64-bit difference `a − b` of two position stamps (R15). -/
def sdiff (a b : Nat) : Int := sgn 64 (a + (2 ^ 64 - b % 2 ^ 64))

/-- `a` lies after `b` (R15). [DEDUCED, log 11] -/
def after (a b : Nat) : Bool := decide (0 < sdiff a b)

/-- `a` lies at or after `b` (R15). [DEDUCED, log 11] -/
def atOrAfter (a b : Nat) : Bool := decide (0 ≤ sdiff a b)

/-- A stamp moved by a signed amount. -/
def moveBy (p : Nat) (d : Int) : Nat := unsgn 64 (p + d)

/-- One ct as a Q48.16 value (R6). -/
def oneCt : Nat := 65536

/-- `n` counts as a Q48.16 distance. -/
def cts (n : Nat) : Nat := n * 65536

/-- `n + 1`, staying at the maximum of `w` bits (R373). -/
def satSucc (w n : Nat) : Nat := if n + 1 < 2 ^ w then n + 1 else 2 ^ w - 1

/-- `n + k`, staying at the maximum of `w` bits. -/
def satAdd (w n k : Nat) : Nat := if n + k < 2 ^ w then n + k else 2 ^ w - 1

/-- Bits `[lo + w - 1 : lo]` of `n`. -/
def bits (n lo w : Nat) : Nat := n / 2 ^ lo % 2 ^ w

/-- `n` with bits `[lo + w - 1 : lo]` replaced by `v`. -/
def setBits (n lo w v : Nat) : Nat := n - bits n lo w * 2 ^ lo + v % 2 ^ w * 2 ^ lo

/-- Bit `k` of `n`. -/
def bit (n k : Nat) : Bool := n.testBit k

/-- A mask with bit `k` set. -/
def oneBit (k : Nat) : Nat := 2 ^ k

/-- `n` without the bits of `m`. -/
def clearBits (n m : Nat) : Nat := n - (n &&& m)

/-- The numbers below `n`, ascending. -/
def upTo : Nat → List Nat
  | 0 => []
  | n + 1 => upTo n ++ [n]

/-- `n` numbers from `a` on. -/
def rangeFrom (a : Nat) : Nat → List Nat
  | 0 => []
  | n + 1 => a :: rangeFrom (a + 1) n

/-- The bits set in `mask`, below `w`, ascending. -/
def bitsSet (w mask : Nat) : List Nat := (rangeFrom 0 w).filter fun k => bit mask k

/-- How many of the low `w` bits of `mask` are set. -/
def popCount (w mask : Nat) : Nat := (bitsSet w mask).length

/-- The mask with the bits of a list set. -/
def maskOf (l : List Nat) : Nat := l.foldl (fun m k => m ||| oneBit k) 0

/-- The `len` little-endian bytes of `n` (R355). -/
def leBytes (n : Nat) : Nat → List Byte
  | 0 => []
  | len + 1 => BitVec.ofNat 8 n :: leBytes (n / 256) len

/-- The number that little-endian bytes spell. -/
def ofLe : List Byte → Nat
  | [] => 0
  | b :: bs => b.toNat + 256 * ofLe bs

/-- Bytes `[ofs, ofs + len)` of a byte string, as a little-endian number; bytes past its end count as zero. -/
def leAt (bs : List Byte) (ofs len : Nat) : Nat := ofLe ((bs.drop ofs).take len)

/-- A byte string cut or zero-filled to `n` bytes. -/
def padTo (n : Nat) (bs : List Byte) : List Byte := bs.take n ++ List.replicate (n - bs.length) 0

/-- The bytes of `old` with `new` written at offset `ofs`. -/
def spliceBytes (old : List Byte) (ofs : Nat) (new : List Byte) : List Byte :=
  padTo ofs (old.take ofs) ++ new ++ old.drop (ofs + new.length)

/-- The largest `r` with `r² ≤ n`, by `k` rounds of binary refinement from bit `k - 1` down. -/
def isqrtFrom (n : Nat) : Nat → Nat → Nat
  | 0, r => r
  | k + 1, r => let c := r + 2 ^ k; if c * c ≤ n then isqrtFrom n k c else isqrtFrom n k r

/-- The integer square root of `n`. [DEDUCED, log 23] -/
def isqrt (n : Nat) : Nat := isqrtFrom n (Nat.log2 n / 2 + 1) 0

/-- Division rounded to the nearest integer, ties upward (R259). -/
def divNearest (a b : Nat) : Nat := (2 * a + b) / (2 * b)

/-- Division of integers rounded toward zero (R19, R237). -/
def divToZero (a : Int) (b : Nat) : Int := if 0 ≤ a then a / b else -((-a) / b)

/-- The bits of a byte, most significant first. -/
def msbBits (b : Byte) : List Bool := (rangeFrom 0 8).map fun k => b.toNat.testBit (7 - k)

/-- The low `w` bits of `n`, most significant first. -/
def bitsMsb (w n : Nat) : List Bool := (rangeFrom 0 w).map fun k => n.testBit (w - 1 - k)

/-- One step of a CRC taken most significant bit first: width, polynomial, register, next bit. -/
def crcStep (w poly r : Nat) (b : Bool) : Nat :=
  let top := r.testBit (w - 1) != b
  let s := wrap w (2 * r)
  if top then s ^^^ poly else s

/-- The CRC-16 of the barrier frames: polynomial 0x1021, initial value 0xFFFF, most significant bit first, no reflection
and no inversion (R271). [PRESUMED, log 68] -/
def crc16 (w n : Nat) : Nat := (bitsMsb w n).foldl (crcStep 16 0x1021) 0xFFFF

/-- The CRC-6 of a BiSS-C cycle over the position, nE and nW: polynomial x⁶ + x + 1, inverted (R230). -/
def crc6 (bs : List Bool) : Nat := 63 - bs.foldl (crcStep 6 0x03) 0

/-- The CRC-24 of a 128-byte block: polynomial 0x86_4CFB, initial value 0xFF_FFFF, most significant bit first (R172).
[PRESUMED, log 68] -/
def crc24 (bs : List Byte) : Nat := (bs.flatMap msbBits).foldl (crcStep 24 0x864CFB) 0xFFFFFF

/-- One bit of a reflected CRC-32 register. -/
def crc32Bit (r : Nat) : Nat := if r % 2 = 1 then (r / 2) ^^^ 0xEDB88320 else r / 2

/-- One byte into a reflected CRC-32 register. -/
def crc32Byte (r : Nat) (b : Byte) : Nat :=
  (fun x => crc32Bit (crc32Bit (crc32Bit (crc32Bit (crc32Bit (crc32Bit (crc32Bit (crc32Bit x))))))))
    (r ^^^ b.toNat)

/-- CRC-32 (R300). [PRESUMED, log 68] -/
def crc32 (bs : List Byte) : Nat := (bs.foldl crc32Byte 0xFFFFFFFF) ^^^ 0xFFFFFFFF

/-- Insert into a list that ascends by `key`, before the entries with an equal key. -/
def insertBy {α : Type} (key : α → Int) (a : α) : List α → List α
  | [] => [a]
  | b :: l => if key a ≤ key b then a :: b :: l else b :: insertBy key a l

/-- The list in ascending order of `key`, equal keys in their order in the list. -/
def sortBy {α : Type} (key : α → Int) : List α → List α
  | [] => []
  | a :: l => insertBy key a (sortBy key l)

/-- Apply `f` `n` times. -/
def iter {α : Type} (f : α → α) : Nat → α → α
  | 0, a => a
  | n + 1, a => iter f n (f a)

/-- Replace entry `k` of a list by its image; nothing where there is none. -/
def modifyAt {α : Type} (f : α → α) : Nat → List α → List α
  | _, [] => []
  | 0, a :: l => f a :: l
  | k + 1, a :: l => a :: modifyAt f k l

end Sys2Proof.Machine
end

