-- ==== Sys2Proof/Machine/Float.lean ====
section
/-! DEFINITION. Number formats and arithmetic (R104 to R106, R116 to R118, R123, R302): values are decoded exactly, computed
exactly as integers scaled by powers of two, and rounded once. -/

namespace Sys2Proof.Machine

open Sys2Proof

/-! ### Formats (R104) -/

/-- A floating-point format: width, precision with the hidden bit, exponents of the least and largest normal numbers, bias,
whether it has infinities, the significand of its largest finite number, the canonical NaN (R116). -/
structure FloatFmt where
  w : Nat
  p : Nat
  emin : Int
  emax : Int
  bias : Nat
  hasInf : Bool
  maxM : Nat
  nan : Nat
deriving DecidableEq, Repr

def fE4m3 : FloatFmt := { w := 8, p := 4, emin := -6, emax := 8, bias := 7, hasInf := false, maxM := 14, nan := 0x7F }
def fE5m2 : FloatFmt := { w := 8, p := 3, emin := -14, emax := 15, bias := 15, hasInf := true, maxM := 7, nan := 0x7F }
def fE2m1 : FloatFmt := { w := 4, p := 2, emin := 0, emax := 2, bias := 1, hasInf := false, maxM := 3, nan := 0 }
def fFp16 : FloatFmt :=
  { w := 16, p := 11, emin := -14, emax := 15, bias := 15, hasInf := true, maxM := 2047, nan := 0x7E00 }
def fBf16 : FloatFmt :=
  { w := 16, p := 8, emin := -126, emax := 127, bias := 127, hasInf := true, maxM := 255, nan := 0x7FC0 }
def fFp32 : FloatFmt :=
  { w := 32, p := 24, emin := -126, emax := 127, bias := 127, hasInf := true, maxM := 16777215, nan := 0x7FC00000 }
def fFp64 : FloatFmt :=
  { w := 64, p := 53, emin := -1022, emax := 1023, bias := 1023, hasInf := true, maxM := 9007199254740991,
    nan := 0x7FF8000000000000 }

/-- A value: NaN, an infinity, or sign, integer and power of two. -/
inductive FVal where
  | nan
  | inf (neg : Bool)
  | fin (neg : Bool) (m : Nat) (e : Int)
deriving DecidableEq, Repr

def FVal.isNan : FVal → Bool
  | .nan => true
  | _ => false

def FVal.neg : FVal → FVal
  | .nan => .nan
  | .inf s => .inf !s
  | .fin s m e => .fin (!s) m e

/-- The value of a code. -/
def FloatFmt.decode (f : FloatFmt) (n : Nat) : FVal :=
  let s := bit n (f.w - 1)
  let x := bits n (f.p - 1) (f.w - f.p)
  let m := bits n 0 (f.p - 1)
  let top := 2 ^ (f.w - f.p) - 1
  if f.hasInf ∧ x = top then (if m = 0 then .inf s else .nan)
  else if f.w = 8 ∧ !f.hasInf ∧ x = top ∧ m = 7 then .nan
  else if x = 0 then .fin s m (f.emin - (f.p - 1 : Nat))
  else .fin s (2 ^ (f.p - 1) + m) ((x : Int) - f.bias - (f.p - 1 : Nat))

/-- The code of a signed significand at a quantum exponent. -/
def FloatFmt.pack (f : FloatFmt) (neg : Bool) (m : Nat) (q : Int) : Nat :=
  let s := if neg then 2 ^ (f.w - 1) else 0
  if m < 2 ^ (f.p - 1) then s + m
  else s + (q + (f.p - 1 : Nat) + f.bias).toNat * 2 ^ (f.p - 1) + (m - 2 ^ (f.p - 1))

/-- The code of an infinity. -/
def FloatFmt.infCode (f : FloatFmt) (neg : Bool) : Nat :=
  (if neg then 2 ^ (f.w - 1) else 0) + (2 ^ (f.w - f.p) - 1) * 2 ^ (f.p - 1)

/-- The code of the largest finite number. -/
def FloatFmt.maxCode (f : FloatFmt) (neg : Bool) : Nat := f.pack neg f.maxM (f.emax - (f.p - 1 : Nat))

/-! ### Rounding (R117) -/

/-- `m × 2^e` in units of 2^q, rounded; `rs` are the 16 random bits of RS. -/
def roundUnits (mode : Rounding) (rs m : Nat) (e q : Int) : Nat :=
  if q ≤ e then m * 2 ^ (e - q).toNat
  else
    let d := 2 ^ (q - e).toNat
    match mode with
    | .rz => m / d
    | .rne =>
      let r := m % d
      let u := m / d
      if d < 2 * r ∨ (2 * r = d ∧ u % 2 = 1) then u + 1 else u
    | .rs => (m * 65536 / d + rs % 65536) / 65536

/-- The quantum exponent of a finite value in a format. -/
def FloatFmt.quantum (f : FloatFmt) (m : Nat) (e : Int) : Int :=
  max ((Nat.log2 m : Int) + e) f.emin - (f.p - 1 : Nat)

/-- The significand and quantum exponent of a rounded value, normalised. -/
def FloatFmt.roundFin (f : FloatFmt) (mode : Rounding) (rs m : Nat) (e : Int) : Nat × Int :=
  let q := f.quantum m e
  let u := roundUnits mode rs m e q
  if u < 2 ^ f.p then (u, q) else (u / 2, q + 1)

/-- The normalised pair lies beyond the largest finite number. -/
def FloatFmt.over (f : FloatFmt) (r : Nat × Int) : Bool :=
  decide (f.emax < r.2 + (f.p - 1 : Nat)) || (decide (r.2 + (f.p - 1 : Nat) = f.emax) && decide (f.maxM < r.1))

/-- Flags of `CHNn_EXC` by bit (R131). -/
def excNvin : Nat := 1
def excInv : Nat := 2
def excOvf : Nat := 4
def excSat : Nat := 8
def excCvtnan : Nat := 16
def excSclnan : Nat := 32
def excTrunc : Nat := 64
def excKlim : Nat := 128

/-- A value in an IEEE format under round-to-nearest-even, with its flags: overflow gives infinity. -/
def FloatFmt.rne (f : FloatFmt) (v : FVal) : Nat × Nat :=
  match v with
  | .nan => (f.nan, 0)
  | .inf s => (f.infCode s, 0)
  | .fin s m e =>
    if m = 0 then (f.pack s 0 0, 0)
    else
      let r := f.roundFin .rne 0 m e
      if f.over r then (f.infCode s, excOvf) else (f.pack s r.1 r.2, 0)

/-! ### Exact operations -/

/-- The exact sum of two values; a sum of zero is +0 unless both are −0. -/
def FVal.add (a b : FVal) : FVal :=
  match a, b with
  | .nan, _ | _, .nan => .nan
  | .inf s, .inf t => if s = t then .inf s else .nan
  | .inf s, _ => .inf s
  | _, .inf t => .inf t
  | .fin s m e, .fin t n g =>
    let q := min e g
    let x : Int := (m * 2 ^ (e - q).toNat : Nat)
    let y : Int := (n * 2 ^ (g - q).toNat : Nat)
    let z := (if s then -x else x) + (if t then -y else y)
    if z = 0 then .fin (s && t) 0 q else .fin (decide (z < 0)) z.natAbs q

/-- The exact product. -/
def FVal.mul (a b : FVal) : FVal :=
  match a, b with
  | .nan, _ | _, .nan => .nan
  | .inf s, .inf t => .inf (s != t)
  | .inf s, .fin t n _ => if n = 0 then .nan else .inf (s != t)
  | .fin s m _, .inf t => if m = 0 then .nan else .inf (s != t)
  | .fin s m e, .fin t n g => .fin (s != t) (m * n) (e + g)

/-- A quotient with enough bits to be rounded once to any format: its last bit says whether it is inexact. -/
def FVal.div (a b : FVal) : FVal :=
  match a, b with
  | .nan, _ | _, .nan => .nan
  | .inf _, .inf _ => .nan
  | .inf s, .fin t _ _ => .inf (s != t)
  | .fin s _ _, .inf t => .fin (s != t) 0 0
  | .fin s m e, .fin t n g =>
    if n = 0 then (if m = 0 then .nan else .inf (s != t))
    else
      let k := 128 + Nat.log2 n
      let x := m * 2 ^ k
      .fin (s != t) (2 * (x / n) + (if x % n = 0 then 0 else 1)) (e - g - k - 1)

/-- A square root in the same form. -/
def FVal.sqrt (a : FVal) : FVal :=
  match a with
  | .nan => .nan
  | .inf s => if s then .nan else .inf false
  | .fin s m e =>
    if m = 0 then .fin s 0 0
    else if s then .nan
    else
      let (n, g) := if e % 2 = 0 then (m, e) else (2 * m, e - 1)
      let x := n * 2 ^ 256
      let r := isqrt x
      .fin false (2 * r + (if r * r = x then 0 else 1)) (g / 2 - 129)

/-- ⌊v / 2^k⌋ of a finite value. -/
def floorUnits (v : FVal) (k : Int) : Int :=
  match v with
  | .fin s m e =>
    let z : Int := if s then -(m : Int) else m
    if k ≤ e then z * 2 ^ (e - k).toNat else z / 2 ^ (k - e).toNat
  | _ => 0

/-- A signed number of units of 2^e. -/
def FVal.units (z : Int) (e : Int) : FVal := .fin (decide (z < 0)) z.natAbs e

/-- `a` is below `b` in the order of numbers, −0 below +0. -/
def FVal.lt (a b : FVal) : Bool :=
  match a, b with
  | .nan, _ | _, .nan => false
  | .inf s, .inf t => s && !t
  | .inf s, _ => s
  | _, .inf t => !t
  | .fin s m e, .fin t n g =>
    let q := min e g
    let x : Int := (m * 2 ^ (e - q).toNat : Nat)
    let y : Int := (n * 2 ^ (g - q).toNat : Nat)
    let x := if s then -x else x
    let y := if t then -y else y
    decide (x < y) || (decide (x = y) && s && !t)

/-- minimumNumber and maximumNumber (R123). -/
def FVal.minNum (a b : FVal) : FVal := if a.isNan then b else if b.isNan then a else if b.lt a then b else a
def FVal.maxNum (a b : FVal) : FVal := if a.isNan then b else if b.isNan then a else if a.lt b then b else a

/-- The flags of an operation on some operands with a result (R116): a NaN operand, or a NaN from operands that are none. -/
def nanFlags (ops : List FVal) (r : FVal) : Nat :=
  if ops.any FVal.isNan then excNvin else if r.isNan then excInv else 0

/-- An operation in an IEEE format: the code of its result, and its flags. -/
def FloatFmt.op (f : FloatFmt) (ops : List FVal) (r : FVal) : Nat × Nat :=
  let x := f.rne r
  (x.1, x.2 ||| nanFlags ops r)

/-- Sum of two codes. -/
def FloatFmt.addC (f : FloatFmt) (a b : Nat) : Nat × Nat :=
  f.op [f.decode a, f.decode b] ((f.decode a).add (f.decode b))

/-- Product of two codes. -/
def FloatFmt.mulC (f : FloatFmt) (a b : Nat) : Nat × Nat :=
  f.op [f.decode a, f.decode b] ((f.decode a).mul (f.decode b))

/-- Fused a × b + c. -/
def FloatFmt.fmaC (f : FloatFmt) (a b c : Nat) : Nat × Nat :=
  f.op [f.decode a, f.decode b, f.decode c] (((f.decode a).mul (f.decode b)).add (f.decode c))

/-- Quotient of two codes. -/
def FloatFmt.divC (f : FloatFmt) (a b : Nat) : Nat × Nat :=
  f.op [f.decode a, f.decode b] ((f.decode a).div (f.decode b))

/-- Square root of a code. -/
def FloatFmt.sqrtC (f : FloatFmt) (a : Nat) : Nat × Nat := f.op [f.decode a] (f.decode a).sqrt

/-! ### Narrowing conversions (R117, R118) -/

/-- To a format that saturates: FP8, FP4 and FP16. -/
def FloatFmt.saturate (f : FloatFmt) (mode : Rounding) (rs : Nat) (v : FVal) : Nat × Nat :=
  match v with
  | .nan => if f.w = 4 then (0, excNvin ||| excCvtnan) else (f.nan, excNvin)
  | .inf s => (if f.hasInf then f.infCode s else f.maxCode s, 0)
  | .fin s m e =>
    if m = 0 then (f.pack s 0 0, 0)
    else
      let top := f.emax - (f.p - 1 : Nat)
      let q := min e top
      if f.maxM * 2 ^ (top - q).toNat < m * 2 ^ (e - q).toNat then (f.maxCode s, excSat)
      else
        let r := f.roundFin mode rs m e
        if f.over r then (f.maxCode s, excSat) else (f.pack s r.1 r.2, 0)

/-- To BF16 or FP32: overflow is that of IEEE 754. -/
def FloatFmt.narrow (f : FloatFmt) (mode : Rounding) (rs : Nat) (v : FVal) : Nat × Nat :=
  match v with
  | .nan => (f.nan, excNvin)
  | .inf s => (f.infCode s, 0)
  | .fin s m e =>
    if m = 0 then (f.pack s 0 0, 0)
    else
      let r := f.roundFin mode rs m e
      if !f.over r then (f.pack s r.1 r.2, 0)
      else if mode = .rz then (f.maxCode s, 0)
      else (f.infCode s, excOvf)

/-- The least and the greatest integer of `w` bits, signed or unsigned (R104). -/
def intRange (signed : Bool) (w : Nat) : Int × Int := if signed then (-(2 ^ (w - 1)), 2 ^ (w - 1) - 1) else (0, 2 ^ w - 1)

/-- To a signed or unsigned integer of `w` bits. -/
def toIntCode (signed : Bool) (w : Nat) (mode : Rounding) (rs : Nat) (v : FVal) : Nat × Nat :=
  let (lo, hi) := intRange signed w
  match v with
  | .nan => (0, excNvin ||| excCvtnan)
  | .inf s => (unsgn w (if s then lo else hi), excSat)
  | .fin s m e =>
    let u : Int := (roundUnits mode rs m e 0 : Nat)
    let z := if s then -u else u
    if lo ≤ z ∧ z ≤ hi then (unsgn w z, 0) else (unsgn w (if s then lo else hi), excSat)

/-- A narrowing conversion. -/
def narrowTo (t : CvtFmt) (mode : Rounding) (rs : Nat) (v : FVal) : Nat × Nat :=
  match t with
  | .e4m3 => fE4m3.saturate mode rs v
  | .e5m2 => fE5m2.saturate mode rs v
  | .e2m1 => fE2m1.saturate mode rs v
  | .fp16 => fFp16.saturate mode rs v
  | .bf16 => fBf16.narrow mode rs v
  | .fp32 => fFp32.narrow mode rs v
  | .int4 => toIntCode true 4 mode rs v
  | .int8 => toIntCode true 8 mode rs v
  | .int32 => toIntCode true 32 mode rs v
  | .uint4 => toIntCode false 4 mode rs v
  | .uint8 => toIntCode false 8 mode rs v

/-- The bits of a conversion target. -/
def cvtBits : CvtFmt → Nat
  | .e4m3 | .e5m2 | .int8 | .uint8 => 8
  | .e2m1 | .int4 | .uint4 => 4
  | .fp16 | .bf16 => 16
  | .fp32 | .int32 => 32

/-! ### The keyed generator (R302) -/

/-- One round of Philox-4×32. [PRESUMED, log 68] -/
def philoxRound (k0 k1 : Nat) (c : Nat × Nat × Nat × Nat) : Nat × Nat × Nat × Nat :=
  let (a, b, x, y) := c
  let p := 0xD2511F53 * a
  let q := 0xCD9E8D57 * x
  ((q / 2 ^ 32) ^^^ b ^^^ k0, q % 2 ^ 32, (p / 2 ^ 32) ^^^ y ^^^ k1, p % 2 ^ 32)

/-- `n` rounds, the key advancing after each. -/
def philoxRounds : Nat → Nat → Nat → Nat × Nat × Nat × Nat → Nat × Nat × Nat × Nat
  | 0, _, _, c => c
  | n + 1, k0, k1, c =>
    philoxRounds n (wrap 32 (k0 + 0x9E3779B9)) (wrap 32 (k1 + 0xBB67AE85)) (philoxRound k0 k1 c)

/-- Philox-4×32 with 10 rounds, keyed by a 64-bit seed. -/
def philox (seed a b c d : Nat) : Nat × Nat × Nat × Nat :=
  philoxRounds 10 (wrap 32 seed) (wrap 32 (seed / 2 ^ 32)) (wrap 32 a, wrap 32 b, wrap 32 c, wrap 32 d)

/-- The random bits of RS for an element (R117). [DESIGN CHOICE, log 69] -/
def rsOf (seed thread addr elem : Nat) : Nat := Config.rsBits (philox seed thread addr elem 0x52530000).1 % 65536

end Sys2Proof.Machine
end

