-- ==== Sys2Proof/Machine/Approx.lean ====
section
/-! DEFINITION. The elementary functions of the vector side (R123): exp2, log2, sine and cosine in fixed point to far more bits than
FP32 has, and the results that lie within a number of units in the last place of an exact value. The series are written out from the
functions' definitions. -/

namespace Sys2Proof.Machine

open Sys2Proof

/-! ### Results within a bound -/

/-- The magnitude code `c` lies within `k` units in the last place of `m × 2^e`, whose unit is 2^q. -/
def FloatFmt.within (f : FloatFmt) (k m : Nat) (e q : Int) (c : Nat) : Bool :=
  decide (c < f.infCode false) &&
    match (f.decode c).add (.fin true m e) with
    | .fin _ d g => !(FVal.fin false k q).lt (.fin false d g)
    | _ => false

/-- A result within `k` units in the last place of an exact value; which one is left open: `pick` chooses. An overflow is that of
round-to-nearest-even. -/
def FloatFmt.near (f : FloatFmt) (k : Nat) (v : FVal) (pick : Nat) : Nat × Nat :=
  match v with
  | .fin s m e =>
    if m = 0 ∨ (f.rne v).2 ≠ 0 then f.rne v
    else
      let t := f.roundFin .rz 0 m e
      let c := f.pack false t.1 t.2
      let l := (rangeFrom (c - k) (2 * k + 2)).filter fun c => f.within k m e (f.quantum m e) c
      let r := l.getD (pick % max 1 l.length) c
      (if s then r + 2 ^ (f.w - 1) else r, 0)
  | v => f.rne v

/-! ### Fixed point -/

/-- Fraction bits. -/
def fxBits : Nat := 256

/-- One. -/
def fxOne : Nat := 2 ^ 256

/-- The natural logarithm of 2, in fixed point. -/
def fxLn2 : Int := 80260960185991308862233904206310070533990667611589946606122867505419956976171

/-- π, in fixed point. -/
def fxPi : Int := 363771576891766324280234942777729862653393377328392429958772151117938894466185

/-- A product. -/
def fxMul (a b : Int) : Int := a * b / fxOne

/-- A finite value in fixed point, rounded down. -/
def fxOf (v : FVal) : Int := floorUnits v (-256)

/-- `n` terms of a power series: the term of index `k` is the one before times `y` and divided by the product of its next
`step` indices, `t` is the present term. -/
def fxSeries (y : Int) (step : Nat) : Nat → Nat → Int → Int
  | 0, _, _ => 0
  | n + 1, k, t =>
    let d : Int := if step = 1 then (k + 1 : Nat) else ((k + 1) * (k + 2) : Nat)
    t + fxSeries y step n (k + step) (fxMul t y / d)

/-- e^y for y in [0, 1). -/
def fxExp (y : Int) : Int := fxSeries y 1 64 0 fxOne

/-- The sine of `r` in [0, 2π). -/
def fxSin (r : Int) : Int := fxSeries (-fxMul r r) 2 48 1 r

/-- The cosine of `r` in [0, 2π). -/
def fxCos (r : Int) : Int := fxSeries (-fxMul r r) 2 48 0 fxOne

/-- `n` terms z^(2i + 1) / (2i + 1) from index `k` on; `t` is the present power. -/
def fxAtanh (zz : Int) : Nat → Nat → Int → Int
  | 0, _, _ => 0
  | n + 1, k, t => t / (2 * k + 1 : Nat) + fxAtanh zz n (k + 1) (fxMul t zz)

/-- The natural logarithm of `y` in [1, 2): 2 artanh ((y − 1) / (y + 1)). -/
def fxLn (y : Int) : Int :=
  let z := (y - fxOne) * fxOne / (y + fxOne)
  2 * fxAtanh (fxMul z z) 96 0 z

/-! ### The functions -/

/-- 2^v of a finite value below 2^10 in magnitude; smaller ones give less than every FP32 number. -/
def exp2Val (v : FVal) : FVal :=
  if v.lt (.fin true 1024 0) then .fin false 1 (-1100)
  else
    let z := fxOf v
    FVal.units (fxExp (fxMul (z % fxOne) fxLn2)) (z / fxOne - 256)

/-- log₂ of a positive finite value. -/
def log2Val (m : Nat) (e : Int) : FVal :=
  let l := Nat.log2 m
  let y : Int := (m * 2 ^ 256 / 2 ^ l : Nat)
  FVal.units (((l : Int) + e) * fxOne + fxLn y * fxOne / fxLn2) (-256)

/-- The sine of a finite value, in radians. -/
def sinVal (v : FVal) : FVal := FVal.units (fxSin (fxOf v % (2 * fxPi))) (-256)

/-- The cosine of a finite value, in radians. -/
def cosVal (v : FVal) : FVal := FVal.units (fxCos (fxOf v % (2 * fxPi))) (-256)

end Sys2Proof.Machine
end

