-- ==== Sys2Proof/Machine/Fields.lean ====
section
/-! DEFINITION. The register fields of the GN-E96: one constructor of `Field` for each field of the register
tables (R21, R78, R101, R131, R181, R210, R224, R247, R269, R288, R311, R336, R352, R379, R402, R424), and `Field.desc`,
the row of the table: where it stands, its access, reset value, survival class and owner. -/

namespace Sys2Proof.Machine

/-- The Access column (00_scope, Register conventions). -/
inductive Access where
  | rw | ro | w1c | wo | rwv
deriving DecidableEq, Repr

/-- The Survives column (R8): the mildest event that clears the field; `none` for a field that holds nothing. -/
inductive Survives where
  | block | warm | cold | never | none
deriving DecidableEq, Repr

/-- The owner of a field (R372). `servo` is whoever owns the PTP servo (R348). -/
inductive Owner where
  | host | fw | hw | servo
deriving DecidableEq, Repr

/-- One row of a register table. Instance `i` of the field lies in the 32-bit (or 64-bit) register at
`base + stride * (i / sub) + substride * (i % sub)`, bits `[lo + width - 1 : lo]`. `die` marks the field-die
registers of R288, which are not in BAR0. -/
structure FieldDesc where
  base : Nat
  stride : Nat
  count : Nat
  lo : Nat
  width : Nat
  access : Access
  reset : Nat
  survives : Survives
  owner : Owner
  sub : Nat := 1
  substride : Nat := 0
  die : Bool := false
deriving DecidableEq, Repr

/-- The register fields, named register first, then field, as the spec names them. -/
inductive Field where
  -- R21
  | ENC_MSTAT_MASTER
  | ENC_MSTAT_LOGV
  | ENC_MSTAT_DIRCHG
  | ENC_MSTAT_SPDV
  | ENC_MSTAT_STOP
  | ENC_MSTAT_DIR
  | ENC_SPEED
  | ENC_ACCEL
  | ENC_LOG_WR_SEQ
  | ENC_LOG_WR_IDX
  -- R78
  | CXP_LNK_CTL_UPTRIG
  | CXP_LNK_CTL_EXT_IDX
  | CXP_LNK_CTL_MASTER
  | CXP_LNK_CTL_RATE
  | CXP_LNK_CTL_RATE_FIX
  | CXP_LNK_CTL_EQ_FREEZE
  | CXP_LNK_CTL_PWR_EN
  | CXP_LNK_CTL_EN
  | CXP_LNK_STAT_RATE_ACT
  | CXP_LNK_STAT_CFGERR
  | CXP_LNK_STAT_UNMAPPED
  | CXP_LNK_STAT_CRCERR
  | CXP_LNK_STAT_PWR_ON
  | CXP_LNK_STAT_PWR_FLT
  | CXP_LNK_STAT_LOCKLOSS
  | CXP_LNK_STAT_LOCK
  | CXP_LNK_EQ_DFE
  | CXP_LNK_EQ_CTLE
  | CXP_LNK_EYE_VERT
  | CXP_LNK_EYE_HORZ
  | CXP_LNK_UPLAT
  | CXP_PRX_ADDR
  | CXP_PRX_CMD_OP
  | CXP_PRX_CMD_LEN
  | CXP_PRX_STAT_CODE
  | CXP_PRX_STAT_ST
  | CXP_PRX_TMO
  | ITK_CTX_CFG0_BLKLEN
  | ITK_CTX_CFG0_WIDTH
  | ITK_CTX_CFG1_FMT
  | ITK_CTX_CFG1_EN
  | ITK_CTX_CFG1_CG
  | ITK_CTX_CFG1_STREAM
  | ITK_CTX_CFG1_LINK
  | ITK_CTX_TMO
  | ITK_CTX_AGE
  | ITK_CTX_OFS
  | ITK_CTX_LANES
  | ITK_CTX_CMD_RESYNC
  | ITK_CTX_CMD_COMMIT
  | ITK_CTX_STAT_ERRCODE
  | ITK_CTX_STAT_GAPOPEN
  | ITK_CTX_STAT_CMTERR
  | ITK_CTX_STAT_BROKEN
  | ITK_CTX_STAT_PEND
  | ITK_CTX_STAT_STATE
  | ITK_CTX_GAP_START
  | ITK_CTX_GAP_END
  | ITK_FUS_MEM
  | ITK_FUS_BUDGET
  | ITK_FUS_CTL_EN
  | ITK_FUS_CTL_SC
  | ITK_FUS_STAT_ABSENT
  | ITK_FUS_STAT_CMTERR
  -- R101
  | ITK_PP_CTL_PIPES
  | ITK_PP_CTL_LEVELS
  | ITK_PP_CTL_SHIFT
  | ITK_PP_CTL_OUTFMT
  | ITK_PP_CTL_SCHED
  | ITK_PP_CTL_BYP
  | ITK_PP_STRIPE_RUNMAX
  | ITK_PP_STRIPE_STRIPEW
  | ITK_PP_RING
  | ITK_PP_MERGE_SAT
  | ITK_PP_MERGE_NEXP
  | ITK_PP_RATIO_RATIO2
  | ITK_PP_RATIO_RATIO1
  | ITK_PP_COLOUR_CFA
  | ITK_PP_COLOUR_DB
  | ITK_PP_COLOUR_DG
  | ITK_PP_COLOUR_DR
  | ITK_PP_RSMP_WOUT
  | ITK_PP_RSMP_HSCALE
  | ITK_PP_HOFS
  | ITK_PP_VPITCH
  | ITK_PP_LUT0
  | ITK_PP_LUT1
  | ITK_PP_FLT0
  | ITK_PP_FLT1
  | ITK_PP_DEF
  | ITK_PP_NDEF
  | ITK_PP_OBUF
  | ITK_PP_OBUFCFG_NBUF
  | ITK_PP_OBUFCFG_SIZE
  | ITK_PP_SYNC_RELSC
  | ITK_PP_SYNC_SC
  | ITK_PP_STATS_NSLOT
  | ITK_PP_STATS_HSHIFT
  | ITK_PP_STATS_EN
  | ITK_PP_STBASE
  | ITK_PP_RECBASE
  | ITK_PP_GENSW_ARM
  | ITK_PP_GENSW_BANK
  | ITK_PP_GENSW_GEN
  | ITK_PP_GEN_ACTIVE
  | ITK_PP_GEN_LAST
  | ITK_PP_HALO_VBELOW
  | ITK_PP_HALO_VABOVE
  | ITK_PP_CMD_COMMIT
  | ITK_PP_STAT_OVERRUN
  | ITK_PP_STAT_PEND
  | ITK_PP_STAT_CMTERR
  | ITK_PP_STAT_ERR
  | ITK_PP_NEED
  | ITK_PP_OLMAX
  | ITK_PP_BLKSEQ
  | ITK_PIPE_STAT_REPLAY
  | ITK_PIPE_STAT_DRAIN
  | ITK_PIPE_STAT_BUSY
  | ITK_PIPE_STAT_CTX
  | ITK_PIPE_SWCNT
  | ITK_PIPE_OVH
  -- R131
  | CHN_CAP_LSMIB
  | CHN_CAP_NROW
  | CHN_CAP_NCOL
  | CHN_CAP_LANES
  | CHN_STAT_ISO
  | CHN_STAT_MODE
  | CHN_STAT_BUSY
  | CHN_STAT_PWR
  | CHN_EXC_KLIM
  | CHN_EXC_TRUNC
  | CHN_EXC_SCLNAN
  | CHN_EXC_CVTNAN
  | CHN_EXC_SAT
  | CHN_EXC_OVF
  | CHN_EXC_INV
  | CHN_EXC_NVIN
  | CHN_PWRCTL_NOPG
  | CHN_PWRCTL_NOCG
  | CHN_PWRCTL_PGIDLE
  | CHN_ERR_COUNT
  | CHN_ERR_CODE
  -- R181
  | MEM_PART0_SLOTS
  | MEM_PART0_INTAKE
  | MEM_PART1_PROG
  | MEM_BAR4_BASE
  | MEM_ECC_STAT_CRCUE
  | MEM_ECC_STAT_RESEND
  | MEM_ECC_STAT_LUE
  | MEM_ECC_STAT_LCE
  | MEM_ECC_STAT_VUE
  | MEM_ECC_STAT_VCE
  | MEM_VCE_CNT
  | MEM_VUE_CNT
  | MEM_LCE_CNT
  | MEM_LUE_CNT
  | MEM_RESEND_CNT
  | MEM_UE_ADDR
  | MEM_UE_SRC
  | MEM_SCRUB
  | MMU_CTL_EN
  | MMU_ROOT_ADDR
  | MMU_ROOT_V
  | MMU_INV_ADDR
  | MMU_INV_CMD_GO
  | MMU_INV_CMD_ASID
  | MMU_INV_CMD_SCOPE
  | MMU_INV_STAT_DONE
  | MMU_FAULTQ_CNT_OVF
  | MMU_FAULTQ_CNT
  | MMU_FAULTQ_POP
  -- R210
  | JOB_CTL_MARGIN
  | JOB_CTL_SLICE
  | JOB_STAT_RECOV
  | JOB_STAT_ADMITTED
  | JOB_CMDID_JOBID
  | JOB_CMD_RES
  | JOB_CMD_OP
  | JOB_CQ_BASE_ADDR
  | JOB_CQ_CTL_EN
  | JOB_CQ_CTL_ASID
  | JOB_CQ_CTL_LOG2
  | JOB_CQ_HEAD
  | JOB_CQ_TAIL
  | JOB_CQ_STAT_CFGERR
  | JOB_CQ_STAT_OVF
  | JOB_CQ_LOST
  | JOB_Q_BASE_ADDR
  | JOB_Q_CTL_EN
  | JOB_Q_CTL_ASID
  | JOB_Q_CTL_VEC
  | JOB_Q_CTL_LOG2
  | JOB_Q_TAIL
  | JOB_Q_HEAD
  | JOB_Q_STAT_CFGERR
  | JOB_Q_STAT_EMPTY
  | JOB_CHN_JOB
  | JOB_CHN_ST_VALID
  | JOB_CHN_ST_KIND
  | JOB_CHN_ST_PIECE
  | JOB_SLOT_JOB
  | JOB_SLOT_ST_PIECE
  | JOB_SLOT_ST_CHN
  | JOB_SLOT_ST_RECOV
  | JOB_SLOT_ST_CHEAP
  | JOB_SLOT_ST_FLT
  | JOB_SLOT_ST_STATE
  | SYN_VAL
  | SYN_OP
  | SYN_OP_SC
  | SYN_RDIDX_SC
  | SYN_RDVAL
  -- R224
  | GLB_DET_STAT_THROT
  | GLB_DET_STAT_FIXDIST
  | GLB_DET_STAT_SPLIT
  | GLB_DET_STAT_FIXED
  -- R247
  | ENC_EST_CFG
  | ENC_CFG_EN
  | ENC_CFG_TYPE
  | ENC_CFG_INV
  | ENC_CFG_ZEN
  | ENC_CFG_INTERP
  | ENC_CFG_FLTN
  | ENC_STAT_FAULT
  | ENC_STAT_FCODE
  | ENC_STAT_FLTOPEN
  | ENC_STAT_ZSEEN
  | ENC_STAT_WARN
  | ENC_STAT_DIRCHG
  | ENC_STAT_DIR
  | ENC_STAT_COARSE
  | ENC_POS
  | ENC_POS_SNAP
  | ENC_ZPOS
  | ENC_ZPER
  | ENC_WIN_AMAX
  | ENC_WIN_AMIN
  | ENC_AMP_AMINSEEN
  | ENC_AMP
  | ENC_BISS_LEN
  | ENC_BISS_MAF
  | ENC_BISS_PERIOD
  | ENC_MAXSTEP
  | ENC_BISS_RAW
  | ENC_GUARD
  | ENC_FLT_START
  | ENC_FLT_END
  | ENC_ERRCNT_COUNT
  | ENC_CG_CTL_ARM
  | ENC_CG_CTL_CONTINUOUS
  | ENC_CG_CTL_REV
  | ENC_CG_CTL_SRC
  | ENC_CG_STAT_CFGERR
  | ENC_CG_STAT_OVF
  | ENC_CG_STAT_FSTOP
  | ENC_CG_STAT_DONE
  | ENC_CG_STAT_RUN
  | ENC_CG_START
  | ENC_CG_SPACE
  | ENC_CG_COUNT
  | ENC_CG_NEXT
  | ENC_CG_ISSUED
  | ENC_CG_SKIP
  | ENC_TRG_CFG_EN
  | ENC_TRG_CFG_POL
  | ENC_TRG_CFG_CG
  | ENC_TRG_CFG_WIDTH
  | ENC_TRG_DLY_DELAY
  | ENC_TRG_CNT
  -- R269
  | SEP_CTL_ARM
  | SEP_STAT_MEMERR
  | SEP_STAT_QFULL
  | SEP_STAT_OVFLIST
  | SEP_STAT_MISS
  | SEP_STAT_LSTOP
  | SEP_STAT_ARMED
  | SEP_FIREQ_LVL
  | SEP_PARTS_OVFL
  | SEP_PARTS_INTABLE
  | SEP_LSTOP_EN
  | SEP_LSTOP_RELEASE
  | SEP_LSTOP_POL
  | SEP_LSTOP_OUT
  | SEP_VLOG_WR_WRAPS
  | SEP_VLOG_WR_IDX
  | SEP_MISS_CNT
  | SEP_LATEREC_CNT
  | SEP_BADREC_CNT
  | SEP_QFULL_CNT
  | SEP_LATEOFF_CNT
  | SEP_FIREQ_MAX
  | SEP_OUT_OFS
  | SEP_OUT_DWELL
  | SEP_OUT_LAT
  | SEP_OUT_CFG_MINGAP
  | SEP_OUT_CFG_EN
  | SEP_OUT_CFG_DMODE
  | SEP_OUT_MAXON
  | SEP_OUT_ST_LATEOFF
  | SEP_OUT_ST_MAXON
  | SEP_OUT_ST_PEND
  | SEP_OUT_ST_ON
  | SEP_POLICY
  | SEP_SETA
  | SEP_SETB
  -- R288
  | FIO_LNK_STAT_FSUP
  | FIO_LNK_STAT_RESTART
  | FIO_LNK_STAT_VOTERR
  | FIO_LNK_STAT_LATE
  | FIO_LNK_STAT_CRCERR
  | FIO_LNK_STAT_SAFE
  | FIO_CRC_CNT
  | FIO_LATE_CNT
  | FIO_SAFE_CNT
  | FLD_SAFE_TMO
  | FLD_OUT_EN
  | FLD_IN
  | FLD_WB
  | FLD_SC
  | FLD_OL
  | FLD_LVL
  | FLD_STAT_FSUP
  | FLD_STAT_SAFE
  | FLD_STAT_VOTERR
  | FLD_SAFE
  | FLD_INCFG_WBEN
  | FLD_INCFG_DEB
  -- R311
  | TCH_LIB_BASE
  | TCH_LIB_SIZE
  | TCH_LIB_MAX
  | TCH_LIB_CNT
  | TCH_LIB_RSV
  | TCH_LIB_RSVIDX_FAIL
  | TCH_LIB_RSVIDX_IDX
  | TCH_STAT_CAPLOST
  | TCH_STAT_CAPMISS
  | TCH_STAT_LIBFULL
  | TCH_STAT_CAPON
  | TCH_CAP_CNT
  | TCH_CAPMISS_CNT
  | TCH_CAPLOST_CNT
  | DEC_CORRUPT_CNT
  | DEC_SKIP_CNT
  | TCH_RING_BASE
  | TCH_RING_SIZE
  | TCH_RING_WR
  | TCH_CAP_CTL_EN
  | TCH_CAP_CTL_ALL
  | TCH_CAP_CTL_CTX
  | TCH_CAP_MARGIN
  | TCH_CAP_RATE_HOLDN
  | TCH_CAP_RATE
  | TCH_CAP_MASK
  | DEC_Q_BASE_ADDR
  | DEC_Q_CTL_EN
  | DEC_Q_CTL_ASID
  | DEC_Q_CTL_VEC
  | DEC_Q_CTL_LOG2
  | DEC_Q_TAIL
  | DEC_Q_HEAD
  | DEC_Q_STAT_CFGERR
  | DEC_Q_STAT_EMPTY
  | DEC_BUDGET
  | DEC_BWCAP
  | DEC_STRM_ST_BUSY
  | DEC_STRM_ST_LAST
  -- R336
  | HRD_CTL_TOPO
  | HRD_CTL_MEMBER
  | HRD_CTL_ROLE
  | HRD_STAT_POSLOST
  | HRD_STAT_TSYNC
  | HRD_STAT_INSERV
  | HRD_STAT_CFGERR
  | HRD_STAT_MLOST
  | HRD_INSERV
  | HRD_TERR
  | HRD_HOPS
  | HRD_LOST_CNT
  | HRD_POSLOST_CNT
  | ZXL_CRC_CNT
  | ZXL_REPLAY_CNT
  | ZXL_DOWN_CNT
  | ZXL_BAD_CNT
  | HRD_BULK_BASE_ADDR
  | HRD_BULK_SIZE_MIB
  | ZXL_CTL_EN
  | ZXL_CTL_NOSLEEP
  | ZXL_CTL_EQ_FREEZE
  | ZXL_CTL_IDLE
  | ZXL_STAT_DOWN
  | ZXL_STAT_TXSLEEP
  | ZXL_STAT_RXSLEEP
  | ZXL_STAT_PEERUP
  | ZXL_STAT_RXUP
  | ZXL_STAT_LOCK
  | ZXL_STAT_UP
  | ZXL_EQA_DFE1
  | ZXL_EQA_CTLE
  | ZXL_EQB_DFE2
  | ZXL_EYE_VERT
  | ZXL_EYE_HORZ
  -- R352
  | TIM_CTL_HOSTSERVO
  | TIM_CTL_OVR
  | TIM_CTL_PTPMODE
  | TIM_STAT_SGEN
  | TIM_STAT_STEPREF
  | TIM_STAT_HOLD
  | TIM_STAT_LOCKED
  | TIM_STAT_TSET
  | TIM_STAT_STEPPED
  | TIM_NS
  | TIM_WRAP
  | TIM_RATE
  | TIM_STEP
  | TIM_STEPMAX
  | TIM_TXQ0_SEQID
  | TIM_TXQ0_MSGTYPE
  | TIM_TXQ0_PORT
  | TIM_TXQ0_SGEN
  | TIM_TXQ0_VALID
  | TIM_TXQ1_NS
  | TIM_TXQ2_FRAC
  | TIM_TXQ2_WRAP
  | TIM_TXQ_STAT_OVF
  | TIM_TXQ_STAT_COUNT
  | TIM_TXQ_POP
  | TIM_TXQ_LOST_COUNT
  | TIM_TTO_CTL_EN
  | TIM_TTO_CTL_POL
  | TIM_TTO_START
  | TIM_TTO_PERIOD
  | TIM_TTO_WIDTH
  | TIM_TTO_STAT_CFGERR
  | TIM_TTO_STAT_MISSED
  | TIM_TTO_SKIP_COUNT
  | ETH_CTL_EN
  | ETH_CTL_SPEED
  | ETH_CTL_FEC
  | ETH_STAT_LINKDOWN
  | ETH_STAT_LINK
  | ETH_RXERR_CNT
  | ETH_PTP_CNT
  -- R379
  | GLB_ID
  | GLB_PCIID
  | GLB_MODE_FIXED
  | GLB_MODE_REPRO
  | GLB_ERR_STAT_VOTFAIL
  | GLB_ERR_STAT_VOTERR
  | GLB_ERR_STAT_OWNERR
  | GLB_VOTE_CNT
  | GLB_OWNERR_CNT
  | GLB_IRQ_STAT
  | GLB_IRQ_EN
  | GLB_IRQ_ACK
  | MLK_MBX_DB_RING
  | MLK_MBX_STAT_DBERR
  | MLK_MBX_STAT_DONE
  | MLK_MBX_STAT_BUSY
  | MLK_MBX_EVT_WR_IDX
  | MLK_MBX_EVT_LOST_COUNT
  | OBS_SNAP_GO
  | OBS_SNAP_BUSY
  | OBS_SNAP_SEQ
  | OBS_SNAP_TIME
  | OBS_SNAP_SPEED
  | OBS_SNAP_ACCEL
  | OBS_CNT_SNAP
  | IND_ADDR_SPACE
  | IND_ADDR_AUTOINC
  | IND_ADDR
  | IND_DATA
  | IND_STAT_DENIED
  | IND_STAT_BADSPACE
  | IND_STAT_TMO
  | IND_STAT_BUSY
  -- R402
  | RCP_STATE_STAGE
  | RCP_STATE
  | RCP_CAUSE_LOWTIME
  | RCP_CAUSE_STAGE
  | RCP_CAUSE
  | RCP_FAILSTART_CONFIRMED
  | RCP_FAILSTART_LIMIT
  | RCP_FAILSTART_COUNT
  | RCP_CONFIRM_GO
  | RCP_CTL_DOZEEN
  | RCP_CTL_RETAIN
  | RCP_CTL_RDYIDLE
  | RCP_DOZE_DOZEIDLE
  | RCP_CMD_OP
  | RCP_STAT_NVMERR
  | RCP_STAT_OBERR
  | RCP_STAT_OBFIX
  | RCP_STAT_BRSTERR
  | RCP_STAT_STBYABT
  | RCP_STAT_OBSRC
  | RCP_BRST_GO
  | RCP_BRST_BUSY
  | RCP_BRST_BLOCK
  | RCP_BRST_CNT
  | RCP_BRST_MLK_GO
  | RCP_BRST_MLK_BUSY
  | RCP_BRST_MLK_BLOCK
  -- R424
  | MLK_STAT_RECOV
  | MLK_STAT_TRIAL
  | MLK_STAT_BANK
  | MLK_FW
  | MLK_ROLLBACK
  | MLK_FAN
  | MLK_TACH_TACH1
  | MLK_TACH_TACH0
  | MLK_TEMP
  | MLK_VMON
  | MLK_IMON
  | MLK_MNT_ST_RUNS
  | MLK_MNT_ST
  | TLY_STAT_DAMAGED
  | TLY_STAT_QOVF
  | TLY_STAT_FULL
  | TLY_USED
  | TLY_DROP_CNT
  | TLY_PCYC
  | TLY_OPHR
  | OBS_TRC_CTL_EN
  | OBS_TRC_CTL_MODE
  | OBS_TRC_CTL_SRCX
  | OBS_TRC_CTL_CHNMASK
  | OBS_TRC_STOP_POST
  | OBS_TRC_STOP_STOPCODE
  | OBS_TRC_STAT_STOPPED
  | OBS_TRC_STAT_WRAPPED
  | OBS_TRC_WR_IDX
  | OBS_TRC_PAGE
  | OBS_TRC_DROP_COUNT
  | OBS_SEL
deriving DecidableEq, Repr

/-- The register tables, one arm per field. -/
def Field.desc : Field → FieldDesc
  | .ENC_MSTAT_MASTER => { base := 0x740000, stride := 0x0, count := 1, lo := 6, width := 2, access := .ro, reset := 0, survives := .cold, owner := .hw }
  | .ENC_MSTAT_LOGV => { base := 0x740000, stride := 0x0, count := 1, lo := 5, width := 1, access := .ro, reset := 0, survives := .warm, owner := .hw }
  | .ENC_MSTAT_DIRCHG => { base := 0x740000, stride := 0x0, count := 1, lo := 4, width := 1, access := .w1c, reset := 0, survives := .warm, owner := .host }
  | .ENC_MSTAT_SPDV => { base := 0x740000, stride := 0x0, count := 1, lo := 3, width := 1, access := .ro, reset := 0, survives := .warm, owner := .hw }
  | .ENC_MSTAT_STOP => { base := 0x740000, stride := 0x0, count := 1, lo := 2, width := 1, access := .ro, reset := 1, survives := .warm, owner := .hw }
  | .ENC_MSTAT_DIR => { base := 0x740000, stride := 0x0, count := 1, lo := 1, width := 1, access := .ro, reset := 0, survives := .cold, owner := .hw }
  | .ENC_SPEED => { base := 0x740008, stride := 0x0, count := 1, lo := 0, width := 64, access := .ro, reset := 0, survives := .warm, owner := .hw }
  | .ENC_ACCEL => { base := 0x740010, stride := 0x0, count := 1, lo := 0, width := 64, access := .ro, reset := 0, survives := .warm, owner := .hw }
  | .ENC_LOG_WR_SEQ => { base := 0x740018, stride := 0x0, count := 1, lo := 16, width := 16, access := .ro, reset := 0, survives := .warm, owner := .hw }
  | .ENC_LOG_WR_IDX => { base := 0x740018, stride := 0x0, count := 1, lo := 0, width := 16, access := .ro, reset := 0, survives := .warm, owner := .hw }
  | .CXP_LNK_CTL_UPTRIG => { base := 0x200000, stride := 0x400, count := 24, lo := 16, width := 1, access := .rw, reset := 0, survives := .warm, owner := .fw }
  | .CXP_LNK_CTL_EXT_IDX => { base := 0x200000, stride := 0x400, count := 24, lo := 13, width := 3, access := .rw, reset := 0, survives := .warm, owner := .fw }
  | .CXP_LNK_CTL_MASTER => { base := 0x200000, stride := 0x400, count := 24, lo := 8, width := 5, access := .rw, reset := 0, survives := .warm, owner := .fw }
  | .CXP_LNK_CTL_RATE => { base := 0x200000, stride := 0x400, count := 24, lo := 4, width := 4, access := .rw, reset := 0, survives := .warm, owner := .fw }
  | .CXP_LNK_CTL_RATE_FIX => { base := 0x200000, stride := 0x400, count := 24, lo := 3, width := 1, access := .rw, reset := 0, survives := .warm, owner := .fw }
  | .CXP_LNK_CTL_EQ_FREEZE => { base := 0x200000, stride := 0x400, count := 24, lo := 2, width := 1, access := .rw, reset := 0, survives := .warm, owner := .fw }
  | .CXP_LNK_CTL_PWR_EN => { base := 0x200000, stride := 0x400, count := 24, lo := 1, width := 1, access := .rw, reset := 0, survives := .cold, owner := .fw }
  | .CXP_LNK_CTL_EN => { base := 0x200000, stride := 0x400, count := 24, lo := 0, width := 1, access := .rw, reset := 0, survives := .warm, owner := .fw }
  | .CXP_LNK_STAT_RATE_ACT => { base := 0x200004, stride := 0x400, count := 24, lo := 8, width := 3, access := .ro, reset := 0, survives := .warm, owner := .hw }
  | .CXP_LNK_STAT_CFGERR => { base := 0x200004, stride := 0x400, count := 24, lo := 7, width := 1, access := .w1c, reset := 0, survives := .warm, owner := .host }
  | .CXP_LNK_STAT_UNMAPPED => { base := 0x200004, stride := 0x400, count := 24, lo := 6, width := 1, access := .w1c, reset := 0, survives := .warm, owner := .host }
  | .CXP_LNK_STAT_CRCERR => { base := 0x200004, stride := 0x400, count := 24, lo := 5, width := 1, access := .w1c, reset := 0, survives := .warm, owner := .host }
  | .CXP_LNK_STAT_PWR_ON => { base := 0x200004, stride := 0x400, count := 24, lo := 4, width := 1, access := .ro, reset := 0, survives := .cold, owner := .hw }
  | .CXP_LNK_STAT_PWR_FLT => { base := 0x200004, stride := 0x400, count := 24, lo := 3, width := 1, access := .w1c, reset := 0, survives := .cold, owner := .host }
  | .CXP_LNK_STAT_LOCKLOSS => { base := 0x200004, stride := 0x400, count := 24, lo := 2, width := 1, access := .w1c, reset := 0, survives := .warm, owner := .host }
  | .CXP_LNK_STAT_LOCK => { base := 0x200004, stride := 0x400, count := 24, lo := 0, width := 1, access := .ro, reset := 0, survives := .warm, owner := .hw }
  | .CXP_LNK_EQ_DFE => { base := 0x200008, stride := 0x400, count := 24, lo := 4, width := 25, access := .ro, reset := 0, survives := .warm, owner := .hw }
  | .CXP_LNK_EQ_CTLE => { base := 0x200008, stride := 0x400, count := 24, lo := 0, width := 4, access := .ro, reset := 0, survives := .warm, owner := .hw }
  | .CXP_LNK_EYE_VERT => { base := 0x20000C, stride := 0x400, count := 24, lo := 8, width := 8, access := .ro, reset := 0, survives := .warm, owner := .hw }
  | .CXP_LNK_EYE_HORZ => { base := 0x20000C, stride := 0x400, count := 24, lo := 0, width := 8, access := .ro, reset := 0, survives := .warm, owner := .hw }
  | .CXP_LNK_UPLAT => { base := 0x200010, stride := 0x400, count := 24, lo := 0, width := 16, access := .rw, reset := 0, survives := .warm, owner := .fw }
  | .CXP_PRX_ADDR => { base := 0x200020, stride := 0x400, count := 24, lo := 0, width := 32, access := .rw, reset := 0, survives := .warm, owner := .host }
  | .CXP_PRX_CMD_OP => { base := 0x200024, stride := 0x400, count := 24, lo := 16, width := 2, access := .wo, reset := 0, survives := .none, owner := .host }
  | .CXP_PRX_CMD_LEN => { base := 0x200024, stride := 0x400, count := 24, lo := 0, width := 9, access := .rw, reset := 0, survives := .warm, owner := .host }
  | .CXP_PRX_STAT_CODE => { base := 0x200028, stride := 0x400, count := 24, lo := 16, width := 16, access := .ro, reset := 0, survives := .warm, owner := .hw }
  | .CXP_PRX_STAT_ST => { base := 0x200028, stride := 0x400, count := 24, lo := 0, width := 3, access := .ro, reset := 0, survives := .warm, owner := .hw }
  | .CXP_PRX_TMO => { base := 0x20002C, stride := 0x400, count := 24, lo := 0, width := 16, access := .rw, reset := 200, survives := .warm, owner := .host }
  | .ITK_CTX_CFG0_BLKLEN => { base := 0x210000, stride := 0x100, count := 64, lo := 16, width := 13, access := .rw, reset := 256, survives := .warm, owner := .fw }
  | .ITK_CTX_CFG0_WIDTH => { base := 0x210000, stride := 0x100, count := 64, lo := 0, width := 16, access := .rw, reset := 0, survives := .warm, owner := .fw }
  | .ITK_CTX_CFG1_FMT => { base := 0x210004, stride := 0x100, count := 64, lo := 17, width := 4, access := .rw, reset := 0, survives := .warm, owner := .fw }
  | .ITK_CTX_CFG1_EN => { base := 0x210004, stride := 0x100, count := 64, lo := 16, width := 1, access := .rw, reset := 0, survives := .warm, owner := .fw }
  | .ITK_CTX_CFG1_CG => { base := 0x210004, stride := 0x100, count := 64, lo := 13, width := 3, access := .rw, reset := 0, survives := .warm, owner := .fw }
  | .ITK_CTX_CFG1_STREAM => { base := 0x210004, stride := 0x100, count := 64, lo := 5, width := 8, access := .rw, reset := 0, survives := .warm, owner := .fw }
  | .ITK_CTX_CFG1_LINK => { base := 0x210004, stride := 0x100, count := 64, lo := 0, width := 5, access := .rw, reset := 0, survives := .warm, owner := .fw }
  | .ITK_CTX_TMO => { base := 0x210008, stride := 0x100, count := 64, lo := 0, width := 24, access := .rw, reset := 20000, survives := .warm, owner := .fw }
  | .ITK_CTX_AGE => { base := 0x21000C, stride := 0x100, count := 64, lo := 0, width := 16, access := .rw, reset := 100, survives := .warm, owner := .fw }
  | .ITK_CTX_OFS => { base := 0x210010, stride := 0x100, count := 64, lo := 0, width := 32, access := .rw, reset := 0, survives := .warm, owner := .fw }
  | .ITK_CTX_LANES => { base := 0x210018, stride := 0x100, count := 64, lo := 0, width := 64, access := .rw, reset := 1, survives := .warm, owner := .fw }
  | .ITK_CTX_CMD_RESYNC => { base := 0x210020, stride := 0x100, count := 64, lo := 1, width := 1, access := .wo, reset := 0, survives := .none, owner := .host }
  | .ITK_CTX_CMD_COMMIT => { base := 0x210020, stride := 0x100, count := 64, lo := 0, width := 1, access := .wo, reset := 0, survives := .none, owner := .host }
  | .ITK_CTX_STAT_ERRCODE => { base := 0x210024, stride := 0x100, count := 64, lo := 8, width := 4, access := .ro, reset := 0, survives := .warm, owner := .hw }
  | .ITK_CTX_STAT_GAPOPEN => { base := 0x210024, stride := 0x100, count := 64, lo := 6, width := 1, access := .ro, reset := 0, survives := .warm, owner := .hw }
  | .ITK_CTX_STAT_CMTERR => { base := 0x210024, stride := 0x100, count := 64, lo := 5, width := 1, access := .w1c, reset := 0, survives := .warm, owner := .host }
  | .ITK_CTX_STAT_BROKEN => { base := 0x210024, stride := 0x100, count := 64, lo := 4, width := 1, access := .w1c, reset := 0, survives := .warm, owner := .host }
  | .ITK_CTX_STAT_PEND => { base := 0x210024, stride := 0x100, count := 64, lo := 3, width := 1, access := .ro, reset := 0, survives := .warm, owner := .hw }
  | .ITK_CTX_STAT_STATE => { base := 0x210024, stride := 0x100, count := 64, lo := 0, width := 2, access := .ro, reset := 0, survives := .warm, owner := .hw }
  | .ITK_CTX_GAP_START => { base := 0x210028, stride := 0x100, count := 64, lo := 0, width := 64, access := .ro, reset := 0, survives := .warm, owner := .hw }
  | .ITK_CTX_GAP_END => { base := 0x210030, stride := 0x100, count := 64, lo := 0, width := 64, access := .ro, reset := 0, survives := .warm, owner := .hw }
  | .ITK_FUS_MEM => { base := 0x220000, stride := 0x40, count := 16, lo := 0, width := 64, access := .rw, reset := 0, survives := .warm, owner := .fw }
  | .ITK_FUS_BUDGET => { base := 0x220008, stride := 0x40, count := 16, lo := 0, width := 32, access := .rw, reset := 0, survives := .warm, owner := .fw }
  | .ITK_FUS_CTL_EN => { base := 0x22000C, stride := 0x40, count := 16, lo := 16, width := 1, access := .rw, reset := 0, survives := .warm, owner := .fw }
  | .ITK_FUS_CTL_SC => { base := 0x22000C, stride := 0x40, count := 16, lo := 0, width := 14, access := .rw, reset := 0, survives := .warm, owner := .fw }
  | .ITK_FUS_STAT_ABSENT => { base := 0x220010, stride := 0x40, count := 16, lo := 8, width := 8, access := .ro, reset := 0, survives := .warm, owner := .hw }
  | .ITK_FUS_STAT_CMTERR => { base := 0x220010, stride := 0x40, count := 16, lo := 0, width := 1, access := .w1c, reset := 0, survives := .warm, owner := .host }
  | .ITK_PP_CTL_PIPES => { base := 0x230000, stride := 0x100, count := 64, lo := 24, width := 5, access := .rw, reset := 31, survives := .warm, owner := .fw }
  | .ITK_PP_CTL_LEVELS => { base := 0x230000, stride := 0x100, count := 64, lo := 20, width := 2, access := .rw, reset := 0, survives := .warm, owner := .fw }
  | .ITK_PP_CTL_SHIFT => { base := 0x230000, stride := 0x100, count := 64, lo := 16, width := 4, access := .rw, reset := 8, survives := .warm, owner := .fw }
  | .ITK_PP_CTL_OUTFMT => { base := 0x230000, stride := 0x100, count := 64, lo := 12, width := 2, access := .rw, reset := 1, survives := .warm, owner := .fw }
  | .ITK_PP_CTL_SCHED => { base := 0x230000, stride := 0x100, count := 64, lo := 8, width := 2, access := .rw, reset := 0, survives := .warm, owner := .fw }
  | .ITK_PP_CTL_BYP => { base := 0x230000, stride := 0x100, count := 64, lo := 0, width := 6, access := .rw, reset := 63, survives := .warm, owner := .fw }
  | .ITK_PP_STRIPE_RUNMAX => { base := 0x230004, stride := 0x100, count := 64, lo := 16, width := 10, access := .rw, reset := 64, survives := .warm, owner := .fw }
  | .ITK_PP_STRIPE_STRIPEW => { base := 0x230004, stride := 0x100, count := 64, lo := 0, width := 14, access := .rw, reset := 2048, survives := .warm, owner := .fw }
  | .ITK_PP_RING => { base := 0x230008, stride := 0x100, count := 64, lo := 0, width := 11, access := .rw, reset := 320, survives := .warm, owner := .fw }
  | .ITK_PP_MERGE_SAT => { base := 0x23000C, stride := 0x100, count := 64, lo := 16, width := 16, access := .rw, reset := 65520, survives := .warm, owner := .fw }
  | .ITK_PP_MERGE_NEXP => { base := 0x23000C, stride := 0x100, count := 64, lo := 0, width := 2, access := .rw, reset := 1, survives := .warm, owner := .fw }
  | .ITK_PP_RATIO_RATIO2 => { base := 0x230010, stride := 0x100, count := 64, lo := 16, width := 16, access := .rw, reset := 256, survives := .warm, owner := .fw }
  | .ITK_PP_RATIO_RATIO1 => { base := 0x230010, stride := 0x100, count := 64, lo := 0, width := 16, access := .rw, reset := 256, survives := .warm, owner := .fw }
  | .ITK_PP_COLOUR_CFA => { base := 0x230014, stride := 0x100, count := 64, lo := 16, width := 2, access := .rw, reset := 0, survives := .warm, owner := .fw }
  | .ITK_PP_COLOUR_DB => { base := 0x230014, stride := 0x100, count := 64, lo := 10, width := 5, access := .rw, reset := 0, survives := .warm, owner := .fw }
  | .ITK_PP_COLOUR_DG => { base := 0x230014, stride := 0x100, count := 64, lo := 5, width := 5, access := .rw, reset := 0, survives := .warm, owner := .fw }
  | .ITK_PP_COLOUR_DR => { base := 0x230014, stride := 0x100, count := 64, lo := 0, width := 5, access := .rw, reset := 0, survives := .warm, owner := .fw }
  | .ITK_PP_RSMP_WOUT => { base := 0x230018, stride := 0x100, count := 64, lo := 16, width := 16, access := .rw, reset := 0, survives := .warm, owner := .fw }
  | .ITK_PP_RSMP_HSCALE => { base := 0x230018, stride := 0x100, count := 64, lo := 0, width := 16, access := .rw, reset := 16384, survives := .warm, owner := .fw }
  | .ITK_PP_HOFS => { base := 0x23001C, stride := 0x100, count := 64, lo := 0, width := 32, access := .rw, reset := 0, survives := .warm, owner := .fw }
  | .ITK_PP_VPITCH => { base := 0x230020, stride := 0x100, count := 64, lo := 0, width := 32, access := .rw, reset := 0, survives := .warm, owner := .fw }
  | .ITK_PP_LUT0 => { base := 0x230024, stride := 0x100, count := 64, lo := 0, width := 24, access := .rw, reset := 0, survives := .warm, owner := .fw }
  | .ITK_PP_LUT1 => { base := 0x230028, stride := 0x100, count := 64, lo := 0, width := 24, access := .rw, reset := 0, survives := .warm, owner := .fw }
  | .ITK_PP_FLT0 => { base := 0x23002C, stride := 0x100, count := 64, lo := 0, width := 24, access := .rw, reset := 0, survives := .warm, owner := .fw }
  | .ITK_PP_FLT1 => { base := 0x230030, stride := 0x100, count := 64, lo := 0, width := 24, access := .rw, reset := 0, survives := .warm, owner := .fw }
  | .ITK_PP_DEF => { base := 0x230034, stride := 0x100, count := 64, lo := 0, width := 24, access := .rw, reset := 0, survives := .warm, owner := .fw }
  | .ITK_PP_NDEF => { base := 0x230038, stride := 0x100, count := 64, lo := 0, width := 11, access := .rw, reset := 0, survives := .warm, owner := .fw }
  | .ITK_PP_OBUF => { base := 0x23003C, stride := 0x100, count := 64, lo := 0, width := 24, access := .rw, reset := 0, survives := .warm, owner := .fw }
  | .ITK_PP_OBUFCFG_NBUF => { base := 0x230040, stride := 0x100, count := 64, lo := 20, width := 7, access := .rw, reset := 2, survives := .warm, owner := .fw }
  | .ITK_PP_OBUFCFG_SIZE => { base := 0x230040, stride := 0x100, count := 64, lo := 0, width := 20, access := .rw, reset := 0, survives := .warm, owner := .fw }
  | .ITK_PP_SYNC_RELSC => { base := 0x230044, stride := 0x100, count := 64, lo := 16, width := 14, access := .rw, reset := 0, survives := .warm, owner := .fw }
  | .ITK_PP_SYNC_SC => { base := 0x230044, stride := 0x100, count := 64, lo := 0, width := 14, access := .rw, reset := 0, survives := .warm, owner := .fw }
  | .ITK_PP_STATS_NSLOT => { base := 0x230048, stride := 0x100, count := 64, lo := 8, width := 8, access := .rw, reset := 16, survives := .warm, owner := .fw }
  | .ITK_PP_STATS_HSHIFT => { base := 0x230048, stride := 0x100, count := 64, lo := 1, width := 5, access := .rw, reset := 16, survives := .warm, owner := .fw }
  | .ITK_PP_STATS_EN => { base := 0x230048, stride := 0x100, count := 64, lo := 0, width := 1, access := .rw, reset := 0, survives := .warm, owner := .fw }
  | .ITK_PP_STBASE => { base := 0x23004C, stride := 0x100, count := 64, lo := 0, width := 24, access := .rw, reset := 0, survives := .warm, owner := .fw }
  | .ITK_PP_RECBASE => { base := 0x230050, stride := 0x100, count := 64, lo := 0, width := 24, access := .rw, reset := 0, survives := .warm, owner := .fw }
  | .ITK_PP_GENSW_ARM => { base := 0x230054, stride := 0x100, count := 64, lo := 17, width := 1, access := .rw, reset := 0, survives := .warm, owner := .fw }
  | .ITK_PP_GENSW_BANK => { base := 0x230054, stride := 0x100, count := 64, lo := 16, width := 1, access := .rw, reset := 0, survives := .warm, owner := .fw }
  | .ITK_PP_GENSW_GEN => { base := 0x230054, stride := 0x100, count := 64, lo := 0, width := 16, access := .rw, reset := 0, survives := .warm, owner := .fw }
  | .ITK_PP_GEN_ACTIVE => { base := 0x230058, stride := 0x100, count := 64, lo := 16, width := 1, access := .ro, reset := 0, survives := .warm, owner := .hw }
  | .ITK_PP_GEN_LAST => { base := 0x230058, stride := 0x100, count := 64, lo := 0, width := 16, access := .ro, reset := 0, survives := .warm, owner := .hw }
  | .ITK_PP_HALO_VBELOW => { base := 0x23005C, stride := 0x100, count := 64, lo := 4, width := 4, access := .ro, reset := 0, survives := .warm, owner := .hw }
  | .ITK_PP_HALO_VABOVE => { base := 0x23005C, stride := 0x100, count := 64, lo := 0, width := 4, access := .ro, reset := 0, survives := .warm, owner := .hw }
  | .ITK_PP_CMD_COMMIT => { base := 0x230060, stride := 0x100, count := 64, lo := 0, width := 1, access := .wo, reset := 0, survives := .none, owner := .host }
  | .ITK_PP_STAT_OVERRUN => { base := 0x230064, stride := 0x100, count := 64, lo := 6, width := 1, access := .w1c, reset := 0, survives := .warm, owner := .host }
  | .ITK_PP_STAT_PEND => { base := 0x230064, stride := 0x100, count := 64, lo := 5, width := 1, access := .ro, reset := 0, survives := .warm, owner := .hw }
  | .ITK_PP_STAT_CMTERR => { base := 0x230064, stride := 0x100, count := 64, lo := 4, width := 1, access := .w1c, reset := 0, survives := .warm, owner := .host }
  | .ITK_PP_STAT_ERR => { base := 0x230064, stride := 0x100, count := 64, lo := 0, width := 4, access := .ro, reset := 0, survives := .warm, owner := .hw }
  | .ITK_PP_NEED => { base := 0x230068, stride := 0x100, count := 64, lo := 0, width := 20, access := .ro, reset := 0, survives := .warm, owner := .hw }
  | .ITK_PP_OLMAX => { base := 0x23006C, stride := 0x100, count := 64, lo := 0, width := 14, access := .rw, reset := 0, survives := .warm, owner := .fw }
  | .ITK_PP_BLKSEQ => { base := 0x230070, stride := 0x100, count := 64, lo := 0, width := 32, access := .ro, reset := 0, survives := .warm, owner := .hw }
  | .ITK_PIPE_STAT_REPLAY => { base := 0x240000, stride := 0x40, count := 5, lo := 9, width := 1, access := .ro, reset := 0, survives := .warm, owner := .hw }
  | .ITK_PIPE_STAT_DRAIN => { base := 0x240000, stride := 0x40, count := 5, lo := 8, width := 1, access := .ro, reset := 0, survives := .warm, owner := .hw }
  | .ITK_PIPE_STAT_BUSY => { base := 0x240000, stride := 0x40, count := 5, lo := 7, width := 1, access := .ro, reset := 0, survives := .warm, owner := .hw }
  | .ITK_PIPE_STAT_CTX => { base := 0x240000, stride := 0x40, count := 5, lo := 0, width := 6, access := .ro, reset := 0, survives := .warm, owner := .hw }
  | .ITK_PIPE_SWCNT => { base := 0x240004, stride := 0x40, count := 5, lo := 0, width := 32, access := .ro, reset := 0, survives := .warm, owner := .hw }
  | .ITK_PIPE_OVH => { base := 0x240008, stride := 0x40, count := 5, lo := 0, width := 32, access := .ro, reset := 0, survives := .warm, owner := .hw }
  | .CHN_CAP_LSMIB => { base := 0x400000, stride := 0x10000, count := 16, lo := 24, width := 8, access := .ro, reset := 2, survives := .never, owner := .hw }
  | .CHN_CAP_NROW => { base := 0x400000, stride := 0x10000, count := 16, lo := 16, width := 8, access := .ro, reset := 128, survives := .never, owner := .hw }
  | .CHN_CAP_NCOL => { base := 0x400000, stride := 0x10000, count := 16, lo := 8, width := 8, access := .ro, reset := 64, survives := .never, owner := .hw }
  | .CHN_CAP_LANES => { base := 0x400000, stride := 0x10000, count := 16, lo := 0, width := 8, access := .ro, reset := 64, survives := .never, owner := .hw }
  | .CHN_STAT_ISO => { base := 0x400004, stride := 0x10000, count := 16, lo := 4, width := 1, access := .ro, reset := 0, survives := .warm, owner := .hw }
  | .CHN_STAT_MODE => { base := 0x400004, stride := 0x10000, count := 16, lo := 3, width := 1, access := .ro, reset := 0, survives := .block, owner := .hw }
  | .CHN_STAT_BUSY => { base := 0x400004, stride := 0x10000, count := 16, lo := 2, width := 1, access := .ro, reset := 0, survives := .block, owner := .hw }
  | .CHN_STAT_PWR => { base := 0x400004, stride := 0x10000, count := 16, lo := 0, width := 2, access := .ro, reset := 0, survives := .block, owner := .hw }
  | .CHN_EXC_KLIM => { base := 0x400008, stride := 0x10000, count := 16, lo := 7, width := 1, access := .w1c, reset := 0, survives := .block, owner := .host }
  | .CHN_EXC_TRUNC => { base := 0x400008, stride := 0x10000, count := 16, lo := 6, width := 1, access := .w1c, reset := 0, survives := .block, owner := .host }
  | .CHN_EXC_SCLNAN => { base := 0x400008, stride := 0x10000, count := 16, lo := 5, width := 1, access := .w1c, reset := 0, survives := .block, owner := .host }
  | .CHN_EXC_CVTNAN => { base := 0x400008, stride := 0x10000, count := 16, lo := 4, width := 1, access := .w1c, reset := 0, survives := .block, owner := .host }
  | .CHN_EXC_SAT => { base := 0x400008, stride := 0x10000, count := 16, lo := 3, width := 1, access := .w1c, reset := 0, survives := .block, owner := .host }
  | .CHN_EXC_OVF => { base := 0x400008, stride := 0x10000, count := 16, lo := 2, width := 1, access := .w1c, reset := 0, survives := .block, owner := .host }
  | .CHN_EXC_INV => { base := 0x400008, stride := 0x10000, count := 16, lo := 1, width := 1, access := .w1c, reset := 0, survives := .block, owner := .host }
  | .CHN_EXC_NVIN => { base := 0x400008, stride := 0x10000, count := 16, lo := 0, width := 1, access := .w1c, reset := 0, survives := .block, owner := .host }
  | .CHN_PWRCTL_NOPG => { base := 0x40000C, stride := 0x10000, count := 16, lo := 17, width := 1, access := .rw, reset := 0, survives := .warm, owner := .fw }
  | .CHN_PWRCTL_NOCG => { base := 0x40000C, stride := 0x10000, count := 16, lo := 16, width := 1, access := .rw, reset := 0, survives := .warm, owner := .fw }
  | .CHN_PWRCTL_PGIDLE => { base := 0x40000C, stride := 0x10000, count := 16, lo := 0, width := 16, access := .rw, reset := 50, survives := .warm, owner := .fw }
  | .CHN_ERR_COUNT => { base := 0x400010, stride := 0x10000, count := 16, lo := 8, width := 8, access := .ro, reset := 0, survives := .block, owner := .hw }
  | .CHN_ERR_CODE => { base := 0x400010, stride := 0x10000, count := 16, lo := 0, width := 8, access := .ro, reset := 0, survives := .block, owner := .hw }
  | .MEM_PART0_SLOTS => { base := 0x600000, stride := 0x0, count := 1, lo := 16, width := 6, access := .ro, reset := 16, survives := .warm, owner := .hw }
  | .MEM_PART0_INTAKE => { base := 0x600000, stride := 0x0, count := 1, lo := 0, width := 9, access := .ro, reset := 64, survives := .warm, owner := .hw }
  | .MEM_PART1_PROG => { base := 0x600004, stride := 0x0, count := 1, lo := 0, width := 19, access := .ro, reset := 243712, survives := .warm, owner := .hw }
  | .MEM_BAR4_BASE => { base := 0x600010, stride := 0x0, count := 1, lo := 0, width := 5, access := .rw, reset := 0, survives := .cold, owner := .host }
  | .MEM_ECC_STAT_CRCUE => { base := 0x600020, stride := 0x0, count := 1, lo := 5, width := 1, access := .w1c, reset := 0, survives := .warm, owner := .host }
  | .MEM_ECC_STAT_RESEND => { base := 0x600020, stride := 0x0, count := 1, lo := 4, width := 1, access := .w1c, reset := 0, survives := .warm, owner := .host }
  | .MEM_ECC_STAT_LUE => { base := 0x600020, stride := 0x0, count := 1, lo := 3, width := 1, access := .w1c, reset := 0, survives := .warm, owner := .host }
  | .MEM_ECC_STAT_LCE => { base := 0x600020, stride := 0x0, count := 1, lo := 2, width := 1, access := .w1c, reset := 0, survives := .warm, owner := .host }
  | .MEM_ECC_STAT_VUE => { base := 0x600020, stride := 0x0, count := 1, lo := 1, width := 1, access := .w1c, reset := 0, survives := .warm, owner := .host }
  | .MEM_ECC_STAT_VCE => { base := 0x600020, stride := 0x0, count := 1, lo := 0, width := 1, access := .w1c, reset := 0, survives := .warm, owner := .host }
  | .MEM_VCE_CNT => { base := 0x600024, stride := 0x0, count := 1, lo := 0, width := 32, access := .ro, reset := 0, survives := .warm, owner := .hw }
  | .MEM_VUE_CNT => { base := 0x600028, stride := 0x0, count := 1, lo := 0, width := 32, access := .ro, reset := 0, survives := .warm, owner := .hw }
  | .MEM_LCE_CNT => { base := 0x60002C, stride := 0x0, count := 1, lo := 0, width := 32, access := .ro, reset := 0, survives := .warm, owner := .hw }
  | .MEM_LUE_CNT => { base := 0x600030, stride := 0x0, count := 1, lo := 0, width := 32, access := .ro, reset := 0, survives := .warm, owner := .hw }
  | .MEM_RESEND_CNT => { base := 0x600034, stride := 0x0, count := 1, lo := 0, width := 32, access := .ro, reset := 0, survives := .warm, owner := .hw }
  | .MEM_UE_ADDR => { base := 0x600040, stride := 0x0, count := 1, lo := 0, width := 64, access := .ro, reset := 0, survives := .warm, owner := .hw }
  | .MEM_UE_SRC => { base := 0x600048, stride := 0x0, count := 1, lo := 0, width := 8, access := .ro, reset := 0, survives := .warm, owner := .hw }
  | .MEM_SCRUB => { base := 0x600050, stride := 0x0, count := 1, lo := 0, width := 16, access := .rw, reset := 60, survives := .warm, owner := .fw }
  | .MMU_CTL_EN => { base := 0x680000, stride := 0x0, count := 1, lo := 0, width := 1, access := .rw, reset := 0, survives := .warm, owner := .host }
  | .MMU_ROOT_ADDR => { base := 0x680010, stride := 0x8, count := 16, lo := 12, width := 40, access := .rw, reset := 0, survives := .warm, owner := .host }
  | .MMU_ROOT_V => { base := 0x680010, stride := 0x8, count := 16, lo := 0, width := 1, access := .rw, reset := 0, survives := .warm, owner := .host }
  | .MMU_INV_ADDR => { base := 0x680100, stride := 0x0, count := 1, lo := 12, width := 36, access := .rw, reset := 0, survives := .warm, owner := .host }
  | .MMU_INV_CMD_GO => { base := 0x680108, stride := 0x0, count := 1, lo := 31, width := 1, access := .wo, reset := 0, survives := .none, owner := .host }
  | .MMU_INV_CMD_ASID => { base := 0x680108, stride := 0x0, count := 1, lo := 16, width := 4, access := .rw, reset := 0, survives := .warm, owner := .host }
  | .MMU_INV_CMD_SCOPE => { base := 0x680108, stride := 0x0, count := 1, lo := 0, width := 2, access := .rw, reset := 0, survives := .warm, owner := .host }
  | .MMU_INV_STAT_DONE => { base := 0x68010C, stride := 0x0, count := 1, lo := 0, width := 1, access := .ro, reset := 1, survives := .warm, owner := .hw }
  | .MMU_FAULTQ_CNT_OVF => { base := 0x680220, stride := 0x0, count := 1, lo := 8, width := 1, access := .w1c, reset := 0, survives := .warm, owner := .host }
  | .MMU_FAULTQ_CNT => { base := 0x680220, stride := 0x0, count := 1, lo := 0, width := 7, access := .ro, reset := 0, survives := .warm, owner := .hw }
  | .MMU_FAULTQ_POP => { base := 0x680224, stride := 0x0, count := 1, lo := 0, width := 1, access := .wo, reset := 0, survives := .none, owner := .host }
  | .JOB_CTL_MARGIN => { base := 0x500000, stride := 0x0, count := 1, lo := 16, width := 16, access := .rw, reset := 50, survives := .warm, owner := .fw }
  | .JOB_CTL_SLICE => { base := 0x500000, stride := 0x0, count := 1, lo := 0, width := 16, access := .rw, reset := 100, survives := .warm, owner := .fw }
  | .JOB_STAT_RECOV => { base := 0x500004, stride := 0x0, count := 1, lo := 16, width := 1, access := .ro, reset := 0, survives := .warm, owner := .hw }
  | .JOB_STAT_ADMITTED => { base := 0x500004, stride := 0x0, count := 1, lo := 0, width := 9, access := .ro, reset := 0, survives := .warm, owner := .hw }
  | .JOB_CMDID_JOBID => { base := 0x500008, stride := 0x0, count := 1, lo := 0, width := 32, access := .rw, reset := 0, survives := .warm, owner := .host }
  | .JOB_CMD_RES => { base := 0x50000C, stride := 0x0, count := 1, lo := 8, width := 2, access := .ro, reset := 0, survives := .warm, owner := .hw }
  | .JOB_CMD_OP => { base := 0x50000C, stride := 0x0, count := 1, lo := 0, width := 2, access := .wo, reset := 0, survives := .none, owner := .host }
  | .JOB_CQ_BASE_ADDR => { base := 0x500010, stride := 0x0, count := 1, lo := 7, width := 57, access := .rw, reset := 0, survives := .warm, owner := .host }
  | .JOB_CQ_CTL_EN => { base := 0x500018, stride := 0x0, count := 1, lo := 31, width := 1, access := .rw, reset := 0, survives := .warm, owner := .host }
  | .JOB_CQ_CTL_ASID => { base := 0x500018, stride := 0x0, count := 1, lo := 16, width := 4, access := .rw, reset := 0, survives := .warm, owner := .host }
  | .JOB_CQ_CTL_LOG2 => { base := 0x500018, stride := 0x0, count := 1, lo := 0, width := 5, access := .rw, reset := 0, survives := .warm, owner := .host }
  | .JOB_CQ_HEAD => { base := 0x50001C, stride := 0x0, count := 1, lo := 0, width := 16, access := .rw, reset := 0, survives := .warm, owner := .host }
  | .JOB_CQ_TAIL => { base := 0x500020, stride := 0x0, count := 1, lo := 0, width := 16, access := .ro, reset := 0, survives := .warm, owner := .hw }
  | .JOB_CQ_STAT_CFGERR => { base := 0x500024, stride := 0x0, count := 1, lo := 1, width := 1, access := .w1c, reset := 0, survives := .warm, owner := .host }
  | .JOB_CQ_STAT_OVF => { base := 0x500024, stride := 0x0, count := 1, lo := 0, width := 1, access := .w1c, reset := 0, survives := .warm, owner := .host }
  | .JOB_CQ_LOST => { base := 0x500028, stride := 0x0, count := 1, lo := 0, width := 32, access := .ro, reset := 0, survives := .warm, owner := .hw }
  | .JOB_Q_BASE_ADDR => { base := 0x500100, stride := 0x20, count := 9, lo := 3, width := 61, access := .rw, reset := 0, survives := .warm, owner := .host }
  | .JOB_Q_CTL_EN => { base := 0x500108, stride := 0x20, count := 9, lo := 31, width := 1, access := .rw, reset := 0, survives := .warm, owner := .host }
  | .JOB_Q_CTL_ASID => { base := 0x500108, stride := 0x20, count := 9, lo := 16, width := 4, access := .rw, reset := 0, survives := .warm, owner := .host }
  | .JOB_Q_CTL_VEC => { base := 0x500108, stride := 0x20, count := 9, lo := 8, width := 6, access := .rw, reset := 0, survives := .warm, owner := .host }
  | .JOB_Q_CTL_LOG2 => { base := 0x500108, stride := 0x20, count := 9, lo := 0, width := 5, access := .rw, reset := 0, survives := .warm, owner := .host }
  | .JOB_Q_TAIL => { base := 0x50010C, stride := 0x20, count := 9, lo := 0, width := 16, access := .rw, reset := 0, survives := .warm, owner := .host }
  | .JOB_Q_HEAD => { base := 0x500110, stride := 0x20, count := 9, lo := 0, width := 16, access := .ro, reset := 0, survives := .warm, owner := .hw }
  | .JOB_Q_STAT_CFGERR => { base := 0x500114, stride := 0x20, count := 9, lo := 1, width := 1, access := .w1c, reset := 0, survives := .warm, owner := .host }
  | .JOB_Q_STAT_EMPTY => { base := 0x500114, stride := 0x20, count := 9, lo := 0, width := 1, access := .ro, reset := 1, survives := .warm, owner := .hw }
  | .JOB_CHN_JOB => { base := 0x500400, stride := 0x8, count := 16, lo := 0, width := 32, access := .ro, reset := 0, survives := .block, owner := .hw }
  | .JOB_CHN_ST_VALID => { base := 0x500404, stride := 0x8, count := 16, lo := 31, width := 1, access := .ro, reset := 0, survives := .block, owner := .hw }
  | .JOB_CHN_ST_KIND => { base := 0x500404, stride := 0x8, count := 16, lo := 24, width := 2, access := .ro, reset := 0, survives := .block, owner := .hw }
  | .JOB_CHN_ST_PIECE => { base := 0x500404, stride := 0x8, count := 16, lo := 0, width := 16, access := .ro, reset := 0, survives := .block, owner := .hw }
  | .JOB_SLOT_JOB => { base := 0x500500, stride := 0x8, count := 41, lo := 0, width := 32, access := .ro, reset := 0, survives := .warm, owner := .hw }
  | .JOB_SLOT_ST_PIECE => { base := 0x500504, stride := 0x8, count := 41, lo := 16, width := 16, access := .ro, reset := 0, survives := .warm, owner := .hw }
  | .JOB_SLOT_ST_CHN => { base := 0x500504, stride := 0x8, count := 41, lo := 8, width := 5, access := .ro, reset := 0, survives := .warm, owner := .hw }
  | .JOB_SLOT_ST_RECOV => { base := 0x500504, stride := 0x8, count := 41, lo := 5, width := 1, access := .ro, reset := 0, survives := .warm, owner := .hw }
  | .JOB_SLOT_ST_CHEAP => { base := 0x500504, stride := 0x8, count := 41, lo := 4, width := 1, access := .ro, reset := 0, survives := .warm, owner := .hw }
  | .JOB_SLOT_ST_FLT => { base := 0x500504, stride := 0x8, count := 41, lo := 3, width := 1, access := .ro, reset := 0, survives := .warm, owner := .hw }
  | .JOB_SLOT_ST_STATE => { base := 0x500504, stride := 0x8, count := 41, lo := 0, width := 3, access := .ro, reset := 0, survives := .warm, owner := .hw }
  | .SYN_VAL => { base := 0x580000, stride := 0x0, count := 1, lo := 0, width := 64, access := .rw, reset := 0, survives := .warm, owner := .host }
  | .SYN_OP => { base := 0x580008, stride := 0x0, count := 1, lo := 30, width := 2, access := .wo, reset := 0, survives := .none, owner := .host }
  | .SYN_OP_SC => { base := 0x580008, stride := 0x0, count := 1, lo := 0, width := 14, access := .wo, reset := 0, survives := .none, owner := .host }
  | .SYN_RDIDX_SC => { base := 0x580010, stride := 0x0, count := 1, lo := 0, width := 14, access := .rw, reset := 0, survives := .warm, owner := .host }
  | .SYN_RDVAL => { base := 0x580014, stride := 0x0, count := 1, lo := 0, width := 64, access := .ro, reset := 0, survives := .warm, owner := .hw }
  | .GLB_DET_STAT_THROT => { base := 0x40, stride := 0x0, count := 1, lo := 3, width := 1, access := .w1c, reset := 0, survives := .warm, owner := .host }
  | .GLB_DET_STAT_FIXDIST => { base := 0x40, stride := 0x0, count := 1, lo := 2, width := 1, access := .w1c, reset := 0, survives := .warm, owner := .host }
  | .GLB_DET_STAT_SPLIT => { base := 0x40, stride := 0x0, count := 1, lo := 1, width := 1, access := .w1c, reset := 0, survives := .warm, owner := .host }
  | .GLB_DET_STAT_FIXED => { base := 0x40, stride := 0x0, count := 1, lo := 0, width := 1, access := .ro, reset := 0, survives := .cold, owner := .hw }
  | .ENC_EST_CFG => { base := 0x74001C, stride := 0x0, count := 1, lo := 0, width := 3, access := .rw, reset := 2, survives := .cold, owner := .fw }
  | .ENC_CFG_EN => { base := 0x740100, stride := 0x80, count := 4, lo := 31, width := 1, access := .rw, reset := 0, survives := .cold, owner := .fw }
  | .ENC_CFG_TYPE => { base := 0x740100, stride := 0x80, count := 4, lo := 28, width := 3, access := .rw, reset := 0, survives := .cold, owner := .fw }
  | .ENC_CFG_INV => { base := 0x740100, stride := 0x80, count := 4, lo := 27, width := 1, access := .rw, reset := 0, survives := .cold, owner := .fw }
  | .ENC_CFG_ZEN => { base := 0x740100, stride := 0x80, count := 4, lo := 26, width := 1, access := .rw, reset := 0, survives := .cold, owner := .fw }
  | .ENC_CFG_INTERP => { base := 0x740100, stride := 0x80, count := 4, lo := 16, width := 4, access := .rw, reset := 12, survives := .cold, owner := .fw }
  | .ENC_CFG_FLTN => { base := 0x740100, stride := 0x80, count := 4, lo := 0, width := 8, access := .rw, reset := 4, survives := .cold, owner := .fw }
  | .ENC_STAT_FAULT => { base := 0x740104, stride := 0x80, count := 4, lo := 31, width := 1, access := .w1c, reset := 0, survives := .cold, owner := .host }
  | .ENC_STAT_FCODE => { base := 0x740104, stride := 0x80, count := 4, lo := 28, width := 3, access := .ro, reset := 0, survives := .cold, owner := .hw }
  | .ENC_STAT_FLTOPEN => { base := 0x740104, stride := 0x80, count := 4, lo := 5, width := 1, access := .ro, reset := 0, survives := .cold, owner := .hw }
  | .ENC_STAT_ZSEEN => { base := 0x740104, stride := 0x80, count := 4, lo := 4, width := 1, access := .w1c, reset := 0, survives := .cold, owner := .host }
  | .ENC_STAT_WARN => { base := 0x740104, stride := 0x80, count := 4, lo := 3, width := 1, access := .ro, reset := 0, survives := .cold, owner := .hw }
  | .ENC_STAT_DIRCHG => { base := 0x740104, stride := 0x80, count := 4, lo := 2, width := 1, access := .w1c, reset := 0, survives := .cold, owner := .host }
  | .ENC_STAT_DIR => { base := 0x740104, stride := 0x80, count := 4, lo := 1, width := 1, access := .ro, reset := 0, survives := .cold, owner := .hw }
  | .ENC_STAT_COARSE => { base := 0x740104, stride := 0x80, count := 4, lo := 0, width := 1, access := .ro, reset := 0, survives := .cold, owner := .hw }
  | .ENC_POS => { base := 0x740108, stride := 0x80, count := 4, lo := 0, width := 64, access := .ro, reset := 0, survives := .cold, owner := .hw }
  | .ENC_POS_SNAP => { base := 0x740110, stride := 0x80, count := 4, lo := 0, width := 64, access := .ro, reset := 0, survives := .warm, owner := .hw }
  | .ENC_ZPOS => { base := 0x740118, stride := 0x80, count := 4, lo := 0, width := 64, access := .ro, reset := 0, survives := .cold, owner := .hw }
  | .ENC_ZPER => { base := 0x740120, stride := 0x80, count := 4, lo := 0, width := 32, access := .rw, reset := 0, survives := .cold, owner := .fw }
  | .ENC_WIN_AMAX => { base := 0x740124, stride := 0x80, count := 4, lo := 16, width := 16, access := .rw, reset := 650, survives := .cold, owner := .fw }
  | .ENC_WIN_AMIN => { base := 0x740124, stride := 0x80, count := 4, lo := 0, width := 16, access := .rw, reset := 250, survives := .cold, owner := .fw }
  | .ENC_AMP_AMINSEEN => { base := 0x740128, stride := 0x80, count := 4, lo := 16, width := 16, access := .ro, reset := 65535, survives := .cold, owner := .hw }
  | .ENC_AMP => { base := 0x740128, stride := 0x80, count := 4, lo := 0, width := 16, access := .ro, reset := 0, survives := .cold, owner := .hw }
  | .ENC_BISS_LEN => { base := 0x74012C, stride := 0x80, count := 4, lo := 24, width := 7, access := .rw, reset := 32, survives := .cold, owner := .fw }
  | .ENC_BISS_MAF => { base := 0x74012C, stride := 0x80, count := 4, lo := 16, width := 7, access := .rw, reset := 100, survives := .cold, owner := .fw }
  | .ENC_BISS_PERIOD => { base := 0x74012C, stride := 0x80, count := 4, lo := 0, width := 12, access := .rw, reset := 10, survives := .cold, owner := .fw }
  | .ENC_MAXSTEP => { base := 0x740130, stride := 0x80, count := 4, lo := 0, width := 32, access := .rw, reset := 65536, survives := .cold, owner := .fw }
  | .ENC_BISS_RAW => { base := 0x740134, stride := 0x80, count := 4, lo := 0, width := 64, access := .ro, reset := 0, survives := .cold, owner := .hw }
  | .ENC_GUARD => { base := 0x74013C, stride := 0x80, count := 4, lo := 0, width := 32, access := .rw, reset := 64, survives := .cold, owner := .fw }
  | .ENC_FLT_START => { base := 0x740140, stride := 0x80, count := 4, lo := 0, width := 64, access := .ro, reset := 0, survives := .cold, owner := .hw }
  | .ENC_FLT_END => { base := 0x740148, stride := 0x80, count := 4, lo := 0, width := 64, access := .ro, reset := 0, survives := .cold, owner := .hw }
  | .ENC_ERRCNT_COUNT => { base := 0x740150, stride := 0x80, count := 4, lo := 0, width := 32, access := .ro, reset := 0, survives := .cold, owner := .hw }
  | .ENC_CG_CTL_ARM => { base := 0x740400, stride := 0x40, count := 8, lo := 31, width := 1, access := .rw, reset := 0, survives := .warm, owner := .fw }
  | .ENC_CG_CTL_CONTINUOUS => { base := 0x740400, stride := 0x40, count := 8, lo := 30, width := 1, access := .rw, reset := 0, survives := .warm, owner := .fw }
  | .ENC_CG_CTL_REV => { base := 0x740400, stride := 0x40, count := 8, lo := 29, width := 1, access := .rw, reset := 0, survives := .warm, owner := .fw }
  | .ENC_CG_CTL_SRC => { base := 0x740400, stride := 0x40, count := 8, lo := 0, width := 3, access := .rw, reset := 4, survives := .warm, owner := .fw }
  | .ENC_CG_STAT_CFGERR => { base := 0x740404, stride := 0x40, count := 8, lo := 4, width := 1, access := .w1c, reset := 0, survives := .warm, owner := .host }
  | .ENC_CG_STAT_OVF => { base := 0x740404, stride := 0x40, count := 8, lo := 3, width := 1, access := .w1c, reset := 0, survives := .warm, owner := .host }
  | .ENC_CG_STAT_FSTOP => { base := 0x740404, stride := 0x40, count := 8, lo := 2, width := 1, access := .ro, reset := 0, survives := .warm, owner := .hw }
  | .ENC_CG_STAT_DONE => { base := 0x740404, stride := 0x40, count := 8, lo := 1, width := 1, access := .ro, reset := 0, survives := .warm, owner := .hw }
  | .ENC_CG_STAT_RUN => { base := 0x740404, stride := 0x40, count := 8, lo := 0, width := 1, access := .ro, reset := 0, survives := .warm, owner := .hw }
  | .ENC_CG_START => { base := 0x740408, stride := 0x40, count := 8, lo := 0, width := 64, access := .rw, reset := 0, survives := .warm, owner := .fw }
  | .ENC_CG_SPACE => { base := 0x740410, stride := 0x40, count := 8, lo := 0, width := 32, access := .rw, reset := 65536, survives := .warm, owner := .fw }
  | .ENC_CG_COUNT => { base := 0x740414, stride := 0x40, count := 8, lo := 0, width := 32, access := .rw, reset := 0, survives := .warm, owner := .fw }
  | .ENC_CG_NEXT => { base := 0x740418, stride := 0x40, count := 8, lo := 0, width := 64, access := .ro, reset := 0, survives := .warm, owner := .hw }
  | .ENC_CG_ISSUED => { base := 0x740420, stride := 0x40, count := 8, lo := 0, width := 32, access := .ro, reset := 0, survives := .warm, owner := .hw }
  | .ENC_CG_SKIP => { base := 0x740424, stride := 0x40, count := 8, lo := 0, width := 32, access := .ro, reset := 0, survives := .warm, owner := .hw }
  | .ENC_TRG_CFG_EN => { base := 0x740600, stride := 0x10, count := 8, lo := 31, width := 1, access := .rw, reset := 0, survives := .warm, owner := .fw }
  | .ENC_TRG_CFG_POL => { base := 0x740600, stride := 0x10, count := 8, lo := 30, width := 1, access := .rw, reset := 0, survives := .warm, owner := .fw }
  | .ENC_TRG_CFG_CG => { base := 0x740600, stride := 0x10, count := 8, lo := 16, width := 3, access := .rw, reset := 0, survives := .warm, owner := .fw }
  | .ENC_TRG_CFG_WIDTH => { base := 0x740600, stride := 0x10, count := 8, lo := 0, width := 16, access := .rw, reset := 40, survives := .warm, owner := .fw }
  | .ENC_TRG_DLY_DELAY => { base := 0x740604, stride := 0x10, count := 8, lo := 0, width := 16, access := .rw, reset := 0, survives := .warm, owner := .fw }
  | .ENC_TRG_CNT => { base := 0x740608, stride := 0x10, count := 8, lo := 0, width := 32, access := .ro, reset := 0, survives := .warm, owner := .hw }
  | .SEP_CTL_ARM => { base := 0x700000, stride := 0x0, count := 1, lo := 0, width := 1, access := .rw, reset := 0, survives := .warm, owner := .fw }
  | .SEP_STAT_MEMERR => { base := 0x700004, stride := 0x0, count := 1, lo := 5, width := 1, access := .w1c, reset := 0, survives := .warm, owner := .host }
  | .SEP_STAT_QFULL => { base := 0x700004, stride := 0x0, count := 1, lo := 4, width := 1, access := .w1c, reset := 0, survives := .warm, owner := .host }
  | .SEP_STAT_OVFLIST => { base := 0x700004, stride := 0x0, count := 1, lo := 3, width := 1, access := .w1c, reset := 0, survives := .warm, owner := .host }
  | .SEP_STAT_MISS => { base := 0x700004, stride := 0x0, count := 1, lo := 2, width := 1, access := .w1c, reset := 0, survives := .warm, owner := .host }
  | .SEP_STAT_LSTOP => { base := 0x700004, stride := 0x0, count := 1, lo := 1, width := 1, access := .ro, reset := 0, survives := .warm, owner := .hw }
  | .SEP_STAT_ARMED => { base := 0x700004, stride := 0x0, count := 1, lo := 0, width := 1, access := .ro, reset := 0, survives := .warm, owner := .hw }
  | .SEP_FIREQ_LVL => { base := 0x700008, stride := 0x0, count := 1, lo := 0, width := 17, access := .ro, reset := 0, survives := .warm, owner := .hw }
  | .SEP_PARTS_OVFL => { base := 0x70000C, stride := 0x0, count := 1, lo := 16, width := 9, access := .ro, reset := 0, survives := .warm, owner := .hw }
  | .SEP_PARTS_INTABLE => { base := 0x70000C, stride := 0x0, count := 1, lo := 0, width := 15, access := .ro, reset := 0, survives := .warm, owner := .hw }
  | .SEP_LSTOP_EN => { base := 0x700010, stride := 0x0, count := 1, lo := 31, width := 1, access := .rw, reset := 0, survives := .cold, owner := .fw }
  | .SEP_LSTOP_RELEASE => { base := 0x700010, stride := 0x0, count := 1, lo := 16, width := 1, access := .wo, reset := 0, survives := .none, owner := .host }
  | .SEP_LSTOP_POL => { base := 0x700010, stride := 0x0, count := 1, lo := 8, width := 1, access := .rw, reset := 1, survives := .cold, owner := .fw }
  | .SEP_LSTOP_OUT => { base := 0x700010, stride := 0x0, count := 1, lo := 0, width := 5, access := .rw, reset := 31, survives := .cold, owner := .fw }
  | .SEP_VLOG_WR_WRAPS => { base := 0x700014, stride := 0x0, count := 1, lo := 14, width := 18, access := .ro, reset := 0, survives := .warm, owner := .hw }
  | .SEP_VLOG_WR_IDX => { base := 0x700014, stride := 0x0, count := 1, lo := 0, width := 14, access := .ro, reset := 0, survives := .warm, owner := .hw }
  | .SEP_MISS_CNT => { base := 0x700018, stride := 0x0, count := 1, lo := 0, width := 32, access := .ro, reset := 0, survives := .warm, owner := .hw }
  | .SEP_LATEREC_CNT => { base := 0x70001C, stride := 0x0, count := 1, lo := 0, width := 32, access := .ro, reset := 0, survives := .warm, owner := .hw }
  | .SEP_BADREC_CNT => { base := 0x700020, stride := 0x0, count := 1, lo := 0, width := 32, access := .ro, reset := 0, survives := .warm, owner := .hw }
  | .SEP_QFULL_CNT => { base := 0x700024, stride := 0x0, count := 1, lo := 0, width := 32, access := .ro, reset := 0, survives := .warm, owner := .hw }
  | .SEP_LATEOFF_CNT => { base := 0x70002C, stride := 0x0, count := 1, lo := 0, width := 32, access := .ro, reset := 0, survives := .warm, owner := .hw }
  | .SEP_FIREQ_MAX => { base := 0x700028, stride := 0x0, count := 1, lo := 0, width := 17, access := .w1c, reset := 0, survives := .warm, owner := .host }
  | .SEP_OUT_OFS => { base := 0x700100, stride := 0x20, count := 32, lo := 0, width := 32, access := .rw, reset := 0, survives := .warm, owner := .fw }
  | .SEP_OUT_DWELL => { base := 0x700104, stride := 0x20, count := 32, lo := 0, width := 32, access := .rw, reset := 0, survives := .warm, owner := .fw }
  | .SEP_OUT_LAT => { base := 0x700108, stride := 0x20, count := 32, lo := 0, width := 16, access := .rw, reset := 0, survives := .warm, owner := .fw }
  | .SEP_OUT_CFG_MINGAP => { base := 0x70010C, stride := 0x20, count := 32, lo := 16, width := 16, access := .rw, reset := 0, survives := .warm, owner := .fw }
  | .SEP_OUT_CFG_EN => { base := 0x70010C, stride := 0x20, count := 32, lo := 4, width := 1, access := .rw, reset := 0, survives := .warm, owner := .fw }
  | .SEP_OUT_CFG_DMODE => { base := 0x70010C, stride := 0x20, count := 32, lo := 0, width := 2, access := .rw, reset := 0, survives := .warm, owner := .fw }
  | .SEP_OUT_MAXON => { base := 0x700110, stride := 0x20, count := 32, lo := 0, width := 16, access := .rw, reset := 1000, survives := .warm, owner := .fw }
  | .SEP_OUT_ST_LATEOFF => { base := 0x700114, stride := 0x20, count := 32, lo := 3, width := 1, access := .w1c, reset := 0, survives := .warm, owner := .host }
  | .SEP_OUT_ST_MAXON => { base := 0x700114, stride := 0x20, count := 32, lo := 2, width := 1, access := .w1c, reset := 0, survives := .warm, owner := .host }
  | .SEP_OUT_ST_PEND => { base := 0x700114, stride := 0x20, count := 32, lo := 1, width := 1, access := .ro, reset := 0, survives := .warm, owner := .hw }
  | .SEP_OUT_ST_ON => { base := 0x700114, stride := 0x20, count := 32, lo := 0, width := 1, access := .ro, reset := 0, survives := .warm, owner := .hw }
  | .SEP_POLICY => { base := 0x700600, stride := 0x4, count := 128, lo := 0, width := 32, access := .rw, reset := 1431655765, survives := .warm, owner := .fw }
  | .SEP_SETA => { base := 0x700800, stride := 0x8, count := 512, lo := 0, width := 32, access := .rw, reset := 0, survives := .warm, owner := .fw }
  | .SEP_SETB => { base := 0x700804, stride := 0x8, count := 512, lo := 0, width := 32, access := .rw, reset := 0, survives := .warm, owner := .fw }
  | .FIO_LNK_STAT_FSUP => { base := 0x780000, stride := 0x0, count := 1, lo := 5, width := 1, access := .ro, reset := 0, survives := .warm, owner := .hw }
  | .FIO_LNK_STAT_RESTART => { base := 0x780000, stride := 0x0, count := 1, lo := 4, width := 1, access := .w1c, reset := 0, survives := .warm, owner := .host }
  | .FIO_LNK_STAT_VOTERR => { base := 0x780000, stride := 0x0, count := 1, lo := 3, width := 1, access := .w1c, reset := 0, survives := .warm, owner := .host }
  | .FIO_LNK_STAT_LATE => { base := 0x780000, stride := 0x0, count := 1, lo := 2, width := 1, access := .w1c, reset := 0, survives := .warm, owner := .host }
  | .FIO_LNK_STAT_CRCERR => { base := 0x780000, stride := 0x0, count := 1, lo := 1, width := 1, access := .w1c, reset := 0, survives := .warm, owner := .host }
  | .FIO_LNK_STAT_SAFE => { base := 0x780000, stride := 0x0, count := 1, lo := 0, width := 1, access := .ro, reset := 1, survives := .warm, owner := .hw }
  | .FIO_CRC_CNT => { base := 0x780004, stride := 0x0, count := 1, lo := 0, width := 32, access := .ro, reset := 0, survives := .warm, owner := .hw }
  | .FIO_LATE_CNT => { base := 0x780008, stride := 0x0, count := 1, lo := 0, width := 32, access := .ro, reset := 0, survives := .warm, owner := .hw }
  | .FIO_SAFE_CNT => { base := 0x78000C, stride := 0x0, count := 1, lo := 0, width := 32, access := .ro, reset := 0, survives := .warm, owner := .hw }
  | .FLD_SAFE_TMO => { base := 0x0, stride := 0x0, count := 1, lo := 0, width := 17, access := .rwv, reset := 1000, survives := .cold, owner := .fw, die := true }
  | .FLD_OUT_EN => { base := 0x4, stride := 0x0, count := 1, lo := 0, width := 32, access := .rwv, reset := 0, survives := .cold, owner := .fw, die := true }
  | .FLD_IN => { base := 0x8, stride := 0x0, count := 1, lo := 0, width := 16, access := .ro, reset := 0, survives := .cold, owner := .hw, die := true }
  | .FLD_WB => { base := 0xC, stride := 0x0, count := 1, lo := 0, width := 16, access := .w1c, reset := 0, survives := .cold, owner := .host, die := true }
  | .FLD_SC => { base := 0x10, stride := 0x0, count := 1, lo := 0, width := 32, access := .w1c, reset := 0, survives := .cold, owner := .host, die := true }
  | .FLD_OL => { base := 0x14, stride := 0x0, count := 1, lo := 0, width := 32, access := .w1c, reset := 0, survives := .cold, owner := .host, die := true }
  | .FLD_LVL => { base := 0x18, stride := 0x0, count := 1, lo := 0, width := 32, access := .ro, reset := 0, survives := .cold, owner := .hw, die := true }
  | .FLD_STAT_FSUP => { base := 0x1C, stride := 0x0, count := 1, lo := 2, width := 1, access := .ro, reset := 0, survives := .cold, owner := .hw, die := true }
  | .FLD_STAT_SAFE => { base := 0x1C, stride := 0x0, count := 1, lo := 1, width := 1, access := .ro, reset := 1, survives := .cold, owner := .hw, die := true }
  | .FLD_STAT_VOTERR => { base := 0x1C, stride := 0x0, count := 1, lo := 0, width := 1, access := .w1c, reset := 0, survives := .cold, owner := .host, die := true }
  | .FLD_SAFE => { base := 0x40, stride := 0x4, count := 32, lo := 0, width := 2, access := .rwv, reset := 0, survives := .cold, owner := .fw, die := true }
  | .FLD_INCFG_WBEN => { base := 0x100, stride := 0x4, count := 16, lo := 15, width := 1, access := .rw, reset := 0, survives := .cold, owner := .fw, die := true }
  | .FLD_INCFG_DEB => { base := 0x100, stride := 0x4, count := 16, lo := 0, width := 8, access := .rw, reset := 10, survives := .cold, owner := .fw, die := true }
  | .TCH_LIB_BASE => { base := 0xA00000, stride := 0x0, count := 1, lo := 7, width := 45, access := .rw, reset := 0, survives := .cold, owner := .fw }
  | .TCH_LIB_SIZE => { base := 0xA00008, stride := 0x0, count := 1, lo := 0, width := 16, access := .rw, reset := 0, survives := .cold, owner := .fw }
  | .TCH_LIB_MAX => { base := 0xA0000C, stride := 0x0, count := 1, lo := 0, width := 25, access := .rw, reset := 0, survives := .cold, owner := .fw }
  | .TCH_LIB_CNT => { base := 0xA00010, stride := 0x0, count := 1, lo := 0, width := 25, access := .ro, reset := 0, survives := .cold, owner := .hw }
  | .TCH_LIB_RSV => { base := 0xA00014, stride := 0x0, count := 1, lo := 0, width := 16, access := .wo, reset := 0, survives := .none, owner := .host }
  | .TCH_LIB_RSVIDX_FAIL => { base := 0xA00018, stride := 0x0, count := 1, lo := 31, width := 1, access := .ro, reset := 0, survives := .cold, owner := .hw }
  | .TCH_LIB_RSVIDX_IDX => { base := 0xA00018, stride := 0x0, count := 1, lo := 0, width := 25, access := .ro, reset := 0, survives := .cold, owner := .hw }
  | .TCH_STAT_CAPLOST => { base := 0xA0001C, stride := 0x0, count := 1, lo := 3, width := 1, access := .w1c, reset := 0, survives := .warm, owner := .host }
  | .TCH_STAT_CAPMISS => { base := 0xA0001C, stride := 0x0, count := 1, lo := 2, width := 1, access := .w1c, reset := 0, survives := .warm, owner := .host }
  | .TCH_STAT_LIBFULL => { base := 0xA0001C, stride := 0x0, count := 1, lo := 1, width := 1, access := .w1c, reset := 0, survives := .cold, owner := .host }
  | .TCH_STAT_CAPON => { base := 0xA0001C, stride := 0x0, count := 1, lo := 0, width := 1, access := .ro, reset := 0, survives := .warm, owner := .hw }
  | .TCH_CAP_CNT => { base := 0xA00020, stride := 0x0, count := 1, lo := 0, width := 32, access := .ro, reset := 0, survives := .warm, owner := .hw }
  | .TCH_CAPMISS_CNT => { base := 0xA00024, stride := 0x0, count := 1, lo := 0, width := 32, access := .ro, reset := 0, survives := .warm, owner := .hw }
  | .TCH_CAPLOST_CNT => { base := 0xA00028, stride := 0x0, count := 1, lo := 0, width := 32, access := .ro, reset := 0, survives := .warm, owner := .hw }
  | .DEC_CORRUPT_CNT => { base := 0xA80048, stride := 0x0, count := 1, lo := 0, width := 32, access := .ro, reset := 0, survives := .warm, owner := .hw }
  | .DEC_SKIP_CNT => { base := 0xA8004C, stride := 0x0, count := 1, lo := 0, width := 32, access := .ro, reset := 0, survives := .warm, owner := .hw }
  | .TCH_RING_BASE => { base := 0xA00030, stride := 0x0, count := 1, lo := 12, width := 40, access := .rw, reset := 0, survives := .cold, owner := .fw }
  | .TCH_RING_SIZE => { base := 0xA00038, stride := 0x0, count := 1, lo := 0, width := 16, access := .rw, reset := 0, survives := .cold, owner := .fw }
  | .TCH_RING_WR => { base := 0xA0003C, stride := 0x0, count := 1, lo := 0, width := 32, access := .ro, reset := 0, survives := .warm, owner := .hw }
  | .TCH_CAP_CTL_EN => { base := 0xA00100, stride := 0x40, count := 8, lo := 31, width := 1, access := .rw, reset := 0, survives := .warm, owner := .fw }
  | .TCH_CAP_CTL_ALL => { base := 0xA00100, stride := 0x40, count := 8, lo := 30, width := 1, access := .rw, reset := 0, survives := .warm, owner := .fw }
  | .TCH_CAP_CTL_CTX => { base := 0xA00100, stride := 0x40, count := 8, lo := 8, width := 6, access := .rw, reset := 0, survives := .warm, owner := .fw }
  | .TCH_CAP_MARGIN => { base := 0xA00104, stride := 0x40, count := 8, lo := 0, width := 32, access := .rw, reset := 0, survives := .warm, owner := .fw }
  | .TCH_CAP_RATE_HOLDN => { base := 0xA00108, stride := 0x40, count := 8, lo := 16, width := 16, access := .rw, reset := 0, survives := .warm, owner := .fw }
  | .TCH_CAP_RATE => { base := 0xA00108, stride := 0x40, count := 8, lo := 0, width := 16, access := .rw, reset := 1, survives := .warm, owner := .fw }
  | .TCH_CAP_MASK => { base := 0xA00120, stride := 0x40, count := 64, lo := 0, width := 32, access := .rw, reset := 0, survives := .warm, owner := .fw, sub := 8, substride := 4 }
  | .DEC_Q_BASE_ADDR => { base := 0xA80000, stride := 0x20, count := 2, lo := 6, width := 58, access := .rw, reset := 0, survives := .warm, owner := .host }
  | .DEC_Q_CTL_EN => { base := 0xA80008, stride := 0x20, count := 2, lo := 31, width := 1, access := .rw, reset := 0, survives := .warm, owner := .host }
  | .DEC_Q_CTL_ASID => { base := 0xA80008, stride := 0x20, count := 2, lo := 16, width := 4, access := .rw, reset := 0, survives := .warm, owner := .host }
  | .DEC_Q_CTL_VEC => { base := 0xA80008, stride := 0x20, count := 2, lo := 8, width := 6, access := .rw, reset := 0, survives := .warm, owner := .host }
  | .DEC_Q_CTL_LOG2 => { base := 0xA80008, stride := 0x20, count := 2, lo := 0, width := 5, access := .rw, reset := 0, survives := .warm, owner := .host }
  | .DEC_Q_TAIL => { base := 0xA8000C, stride := 0x20, count := 2, lo := 0, width := 16, access := .rw, reset := 0, survives := .warm, owner := .host }
  | .DEC_Q_HEAD => { base := 0xA80010, stride := 0x20, count := 2, lo := 0, width := 16, access := .ro, reset := 0, survives := .warm, owner := .hw }
  | .DEC_Q_STAT_CFGERR => { base := 0xA80014, stride := 0x20, count := 2, lo := 1, width := 1, access := .w1c, reset := 0, survives := .warm, owner := .host }
  | .DEC_Q_STAT_EMPTY => { base := 0xA80014, stride := 0x20, count := 2, lo := 0, width := 1, access := .ro, reset := 1, survives := .warm, owner := .hw }
  | .DEC_BUDGET => { base := 0xA80040, stride := 0x0, count := 1, lo := 0, width := 16, access := .rw, reset := 64, survives := .warm, owner := .fw }
  | .DEC_BWCAP => { base := 0xA80044, stride := 0x0, count := 1, lo := 0, width := 8, access := .rw, reset := 20, survives := .warm, owner := .fw }
  | .DEC_STRM_ST_BUSY => { base := 0xA80100, stride := 0x4, count := 16, lo := 31, width := 1, access := .ro, reset := 0, survives := .warm, owner := .hw }
  | .DEC_STRM_ST_LAST => { base := 0xA80100, stride := 0x4, count := 16, lo := 0, width := 8, access := .ro, reset := 0, survives := .warm, owner := .hw }
  | .HRD_CTL_TOPO => { base := 0x900000, stride := 0x0, count := 1, lo := 16, width := 2, access := .rw, reset := 0, survives := .cold, owner := .fw }
  | .HRD_CTL_MEMBER => { base := 0x900000, stride := 0x0, count := 1, lo := 8, width := 6, access := .rw, reset := 0, survives := .cold, owner := .fw }
  | .HRD_CTL_ROLE => { base := 0x900000, stride := 0x0, count := 1, lo := 0, width := 2, access := .rw, reset := 0, survives := .cold, owner := .fw }
  | .HRD_STAT_POSLOST => { base := 0x900004, stride := 0x0, count := 1, lo := 31, width := 1, access := .ro, reset := 0, survives := .warm, owner := .hw }
  | .HRD_STAT_TSYNC => { base := 0x900004, stride := 0x0, count := 1, lo := 30, width := 1, access := .ro, reset := 0, survives := .warm, owner := .hw }
  | .HRD_STAT_INSERV => { base := 0x900004, stride := 0x0, count := 1, lo := 29, width := 1, access := .ro, reset := 0, survives := .warm, owner := .hw }
  | .HRD_STAT_CFGERR => { base := 0x900004, stride := 0x0, count := 1, lo := 8, width := 1, access := .w1c, reset := 0, survives := .warm, owner := .host }
  | .HRD_STAT_MLOST => { base := 0x900004, stride := 0x0, count := 1, lo := 4, width := 1, access := .w1c, reset := 0, survives := .warm, owner := .host }
  | .HRD_INSERV => { base := 0x900008, stride := 0x0, count := 1, lo := 0, width := 64, access := .ro, reset := 0, survives := .warm, owner := .hw }
  | .HRD_TERR => { base := 0x900010, stride := 0x0, count := 1, lo := 0, width := 16, access := .ro, reset := 0, survives := .warm, owner := .hw }
  | .HRD_HOPS => { base := 0x900014, stride := 0x0, count := 1, lo := 0, width := 6, access := .ro, reset := 0, survives := .warm, owner := .hw }
  | .HRD_LOST_CNT => { base := 0x900018, stride := 0x0, count := 1, lo := 0, width := 32, access := .ro, reset := 0, survives := .warm, owner := .hw }
  | .HRD_POSLOST_CNT => { base := 0x90001C, stride := 0x0, count := 1, lo := 0, width := 32, access := .ro, reset := 0, survives := .warm, owner := .hw }
  | .ZXL_CRC_CNT => { base := 0x900120, stride := 0x40, count := 4, lo := 0, width := 32, access := .ro, reset := 0, survives := .warm, owner := .hw }
  | .ZXL_REPLAY_CNT => { base := 0x900124, stride := 0x40, count := 4, lo := 0, width := 32, access := .ro, reset := 0, survives := .warm, owner := .hw }
  | .ZXL_DOWN_CNT => { base := 0x900128, stride := 0x40, count := 4, lo := 0, width := 32, access := .ro, reset := 0, survives := .warm, owner := .hw }
  | .ZXL_BAD_CNT => { base := 0x90012C, stride := 0x40, count := 4, lo := 0, width := 32, access := .ro, reset := 0, survives := .warm, owner := .hw }
  | .HRD_BULK_BASE_ADDR => { base := 0x900020, stride := 0x0, count := 1, lo := 12, width := 40, access := .rw, reset := 0, survives := .cold, owner := .fw }
  | .HRD_BULK_SIZE_MIB => { base := 0x900028, stride := 0x0, count := 1, lo := 0, width := 16, access := .rw, reset := 0, survives := .cold, owner := .fw }
  | .ZXL_CTL_EN => { base := 0x900100, stride := 0x40, count := 4, lo := 31, width := 1, access := .rw, reset := 0, survives := .cold, owner := .fw }
  | .ZXL_CTL_NOSLEEP => { base := 0x900100, stride := 0x40, count := 4, lo := 17, width := 1, access := .rw, reset := 0, survives := .warm, owner := .fw }
  | .ZXL_CTL_EQ_FREEZE => { base := 0x900100, stride := 0x40, count := 4, lo := 16, width := 1, access := .rw, reset := 0, survives := .warm, owner := .fw }
  | .ZXL_CTL_IDLE => { base := 0x900100, stride := 0x40, count := 4, lo := 0, width := 16, access := .rw, reset := 50, survives := .warm, owner := .fw }
  | .ZXL_STAT_DOWN => { base := 0x900104, stride := 0x40, count := 4, lo := 9, width := 1, access := .w1c, reset := 0, survives := .warm, owner := .host }
  | .ZXL_STAT_TXSLEEP => { base := 0x900104, stride := 0x40, count := 4, lo := 5, width := 1, access := .ro, reset := 0, survives := .warm, owner := .hw }
  | .ZXL_STAT_RXSLEEP => { base := 0x900104, stride := 0x40, count := 4, lo := 4, width := 1, access := .ro, reset := 0, survives := .warm, owner := .hw }
  | .ZXL_STAT_PEERUP => { base := 0x900104, stride := 0x40, count := 4, lo := 3, width := 1, access := .ro, reset := 0, survives := .warm, owner := .hw }
  | .ZXL_STAT_RXUP => { base := 0x900104, stride := 0x40, count := 4, lo := 2, width := 1, access := .ro, reset := 0, survives := .warm, owner := .hw }
  | .ZXL_STAT_LOCK => { base := 0x900104, stride := 0x40, count := 4, lo := 1, width := 1, access := .ro, reset := 0, survives := .warm, owner := .hw }
  | .ZXL_STAT_UP => { base := 0x900104, stride := 0x40, count := 4, lo := 0, width := 1, access := .ro, reset := 0, survives := .warm, owner := .hw }
  | .ZXL_EQA_DFE1 => { base := 0x900108, stride := 0x40, count := 8, lo := 4, width := 25, access := .ro, reset := 0, survives := .warm, owner := .hw, sub := 2, substride := 8 }
  | .ZXL_EQA_CTLE => { base := 0x900108, stride := 0x40, count := 8, lo := 0, width := 4, access := .ro, reset := 0, survives := .warm, owner := .hw, sub := 2, substride := 8 }
  | .ZXL_EQB_DFE2 => { base := 0x90010C, stride := 0x40, count := 8, lo := 0, width := 28, access := .ro, reset := 0, survives := .warm, owner := .hw, sub := 2, substride := 8 }
  | .ZXL_EYE_VERT => { base := 0x900118, stride := 0x40, count := 8, lo := 8, width := 8, access := .ro, reset := 0, survives := .warm, owner := .hw, sub := 2, substride := 4 }
  | .ZXL_EYE_HORZ => { base := 0x900118, stride := 0x40, count := 8, lo := 0, width := 8, access := .ro, reset := 0, survives := .warm, owner := .hw, sub := 2, substride := 4 }
  | .TIM_CTL_HOSTSERVO => { base := 0x800000, stride := 0x0, count := 1, lo := 31, width := 1, access := .rw, reset := 0, survives := .warm, owner := .fw }
  | .TIM_CTL_OVR => { base := 0x800000, stride := 0x0, count := 1, lo := 16, width := 1, access := .rw, reset := 0, survives := .warm, owner := .fw }
  | .TIM_CTL_PTPMODE => { base := 0x800000, stride := 0x0, count := 1, lo := 0, width := 2, access := .rw, reset := 1, survives := .cold, owner := .fw }
  | .TIM_STAT_SGEN => { base := 0x800004, stride := 0x0, count := 1, lo := 6, width := 2, access := .ro, reset := 0, survives := .cold, owner := .hw }
  | .TIM_STAT_STEPREF => { base := 0x800004, stride := 0x0, count := 1, lo := 4, width := 1, access := .w1c, reset := 0, survives := .cold, owner := .host }
  | .TIM_STAT_HOLD => { base := 0x800004, stride := 0x0, count := 1, lo := 3, width := 1, access := .ro, reset := 0, survives := .cold, owner := .hw }
  | .TIM_STAT_LOCKED => { base := 0x800004, stride := 0x0, count := 1, lo := 2, width := 1, access := .ro, reset := 0, survives := .cold, owner := .hw }
  | .TIM_STAT_TSET => { base := 0x800004, stride := 0x0, count := 1, lo := 1, width := 1, access := .ro, reset := 0, survives := .cold, owner := .hw }
  | .TIM_STAT_STEPPED => { base := 0x800004, stride := 0x0, count := 1, lo := 0, width := 1, access := .w1c, reset := 0, survives := .cold, owner := .host }
  | .TIM_NS => { base := 0x800008, stride := 0x0, count := 1, lo := 0, width := 32, access := .ro, reset := 0, survives := .cold, owner := .hw }
  | .TIM_WRAP => { base := 0x80000C, stride := 0x0, count := 1, lo := 0, width := 8, access := .ro, reset := 0, survives := .cold, owner := .hw }
  | .TIM_RATE => { base := 0x800010, stride := 0x0, count := 1, lo := 0, width := 32, access := .rw, reset := 0, survives := .cold, owner := .servo }
  | .TIM_STEP => { base := 0x800014, stride := 0x0, count := 1, lo := 0, width := 64, access := .wo, reset := 0, survives := .none, owner := .servo }
  | .TIM_STEPMAX => { base := 0x80001C, stride := 0x0, count := 1, lo := 0, width := 32, access := .rw, reset := 1000000, survives := .cold, owner := .fw }
  | .TIM_TXQ0_SEQID => { base := 0x800020, stride := 0x0, count := 1, lo := 16, width := 16, access := .ro, reset := 0, survives := .cold, owner := .hw }
  | .TIM_TXQ0_MSGTYPE => { base := 0x800020, stride := 0x0, count := 1, lo := 12, width := 4, access := .ro, reset := 0, survives := .cold, owner := .hw }
  | .TIM_TXQ0_PORT => { base := 0x800020, stride := 0x0, count := 1, lo := 8, width := 1, access := .ro, reset := 0, survives := .cold, owner := .hw }
  | .TIM_TXQ0_SGEN => { base := 0x800020, stride := 0x0, count := 1, lo := 1, width := 2, access := .ro, reset := 0, survives := .cold, owner := .hw }
  | .TIM_TXQ0_VALID => { base := 0x800020, stride := 0x0, count := 1, lo := 0, width := 1, access := .ro, reset := 0, survives := .cold, owner := .hw }
  | .TIM_TXQ1_NS => { base := 0x800024, stride := 0x0, count := 1, lo := 0, width := 32, access := .ro, reset := 0, survives := .cold, owner := .hw }
  | .TIM_TXQ2_FRAC => { base := 0x800028, stride := 0x0, count := 1, lo := 8, width := 8, access := .ro, reset := 0, survives := .cold, owner := .hw }
  | .TIM_TXQ2_WRAP => { base := 0x800028, stride := 0x0, count := 1, lo := 0, width := 8, access := .ro, reset := 0, survives := .cold, owner := .hw }
  | .TIM_TXQ_STAT_OVF => { base := 0x80002C, stride := 0x0, count := 1, lo := 8, width := 1, access := .w1c, reset := 0, survives := .cold, owner := .host }
  | .TIM_TXQ_STAT_COUNT => { base := 0x80002C, stride := 0x0, count := 1, lo := 0, width := 5, access := .ro, reset := 0, survives := .cold, owner := .hw }
  | .TIM_TXQ_POP => { base := 0x800030, stride := 0x0, count := 1, lo := 0, width := 1, access := .wo, reset := 0, survives := .none, owner := .servo }
  | .TIM_TXQ_LOST_COUNT => { base := 0x800034, stride := 0x0, count := 1, lo := 0, width := 32, access := .ro, reset := 0, survives := .cold, owner := .hw }
  | .TIM_TTO_CTL_EN => { base := 0x800100, stride := 0x20, count := 8, lo := 31, width := 1, access := .rw, reset := 0, survives := .warm, owner := .fw }
  | .TIM_TTO_CTL_POL => { base := 0x800100, stride := 0x20, count := 8, lo := 30, width := 1, access := .rw, reset := 0, survives := .warm, owner := .fw }
  | .TIM_TTO_START => { base := 0x800104, stride := 0x20, count := 8, lo := 0, width := 40, access := .rw, reset := 0, survives := .warm, owner := .fw }
  | .TIM_TTO_PERIOD => { base := 0x80010C, stride := 0x20, count := 8, lo := 0, width := 32, access := .rw, reset := 0, survives := .warm, owner := .fw }
  | .TIM_TTO_WIDTH => { base := 0x800110, stride := 0x20, count := 8, lo := 0, width := 32, access := .rw, reset := 100, survives := .warm, owner := .fw }
  | .TIM_TTO_STAT_CFGERR => { base := 0x800114, stride := 0x20, count := 8, lo := 1, width := 1, access := .w1c, reset := 0, survives := .warm, owner := .host }
  | .TIM_TTO_STAT_MISSED => { base := 0x800114, stride := 0x20, count := 8, lo := 0, width := 1, access := .w1c, reset := 0, survives := .warm, owner := .host }
  | .TIM_TTO_SKIP_COUNT => { base := 0x800118, stride := 0x20, count := 8, lo := 0, width := 32, access := .ro, reset := 0, survives := .warm, owner := .hw }
  | .ETH_CTL_EN => { base := 0x880000, stride := 0x100, count := 3, lo := 31, width := 1, access := .rw, reset := 1, survives := .cold, owner := .fw }
  | .ETH_CTL_SPEED => { base := 0x880000, stride := 0x100, count := 3, lo := 4, width := 2, access := .rw, reset := 1, survives := .cold, owner := .fw }
  | .ETH_CTL_FEC => { base := 0x880000, stride := 0x100, count := 3, lo := 0, width := 2, access := .rw, reset := 0, survives := .cold, owner := .fw }
  | .ETH_STAT_LINKDOWN => { base := 0x880004, stride := 0x100, count := 3, lo := 1, width := 1, access := .w1c, reset := 0, survives := .warm, owner := .host }
  | .ETH_STAT_LINK => { base := 0x880004, stride := 0x100, count := 3, lo := 0, width := 1, access := .ro, reset := 0, survives := .warm, owner := .hw }
  | .ETH_RXERR_CNT => { base := 0x880008, stride := 0x100, count := 3, lo := 0, width := 32, access := .ro, reset := 0, survives := .warm, owner := .hw }
  | .ETH_PTP_CNT => { base := 0x88000C, stride := 0x100, count := 3, lo := 0, width := 32, access := .ro, reset := 0, survives := .warm, owner := .hw }
  | .GLB_ID => { base := 0x0, stride := 0x0, count := 1, lo := 0, width := 32, access := .ro, reset := 1318453409, survives := .never, owner := .hw }
  | .GLB_PCIID => { base := 0x4, stride := 0x0, count := 1, lo := 0, width := 32, access := .ro, reset := 0, survives := .never, owner := .hw }
  | .GLB_MODE_FIXED => { base := 0x10, stride := 0x0, count := 1, lo := 1, width := 1, access := .rwv, reset := 0, survives := .cold, owner := .fw }
  | .GLB_MODE_REPRO => { base := 0x10, stride := 0x0, count := 1, lo := 0, width := 1, access := .rwv, reset := 0, survives := .cold, owner := .fw }
  | .GLB_ERR_STAT_VOTFAIL => { base := 0x20, stride := 0x0, count := 1, lo := 2, width := 1, access := .w1c, reset := 0, survives := .warm, owner := .host }
  | .GLB_ERR_STAT_VOTERR => { base := 0x20, stride := 0x0, count := 1, lo := 1, width := 1, access := .w1c, reset := 0, survives := .warm, owner := .host }
  | .GLB_ERR_STAT_OWNERR => { base := 0x20, stride := 0x0, count := 1, lo := 0, width := 1, access := .w1c, reset := 0, survives := .warm, owner := .host }
  | .GLB_VOTE_CNT => { base := 0x24, stride := 0x0, count := 1, lo := 0, width := 32, access := .ro, reset := 0, survives := .warm, owner := .hw }
  | .GLB_OWNERR_CNT => { base := 0x28, stride := 0x0, count := 1, lo := 0, width := 32, access := .ro, reset := 0, survives := .warm, owner := .hw }
  | .GLB_IRQ_STAT => { base := 0x80, stride := 0x0, count := 1, lo := 0, width := 16, access := .ro, reset := 0, survives := .warm, owner := .hw }
  | .GLB_IRQ_EN => { base := 0x84, stride := 0x0, count := 1, lo := 0, width := 16, access := .rw, reset := 0, survives := .warm, owner := .host }
  | .GLB_IRQ_ACK => { base := 0x88, stride := 0x0, count := 1, lo := 0, width := 16, access := .wo, reset := 0, survives := .none, owner := .host }
  | .MLK_MBX_DB_RING => { base := 0xB01F00, stride := 0x0, count := 1, lo := 0, width := 1, access := .wo, reset := 0, survives := .none, owner := .host }
  | .MLK_MBX_STAT_DBERR => { base := 0xB01F04, stride := 0x0, count := 1, lo := 2, width := 1, access := .w1c, reset := 0, survives := .warm, owner := .host }
  | .MLK_MBX_STAT_DONE => { base := 0xB01F04, stride := 0x0, count := 1, lo := 1, width := 1, access := .w1c, reset := 0, survives := .warm, owner := .host }
  | .MLK_MBX_STAT_BUSY => { base := 0xB01F04, stride := 0x0, count := 1, lo := 0, width := 1, access := .ro, reset := 0, survives := .warm, owner := .hw }
  | .MLK_MBX_EVT_WR_IDX => { base := 0xB01F08, stride := 0x0, count := 1, lo := 0, width := 4, access := .ro, reset := 0, survives := .warm, owner := .hw }
  | .MLK_MBX_EVT_LOST_COUNT => { base := 0xB01F0C, stride := 0x0, count := 1, lo := 0, width := 32, access := .ro, reset := 0, survives := .warm, owner := .hw }
  | .OBS_SNAP_GO => { base := 0xB20000, stride := 0x0, count := 1, lo := 31, width := 1, access := .wo, reset := 0, survives := .none, owner := .host }
  | .OBS_SNAP_BUSY => { base := 0xB20000, stride := 0x0, count := 1, lo := 16, width := 1, access := .ro, reset := 0, survives := .warm, owner := .hw }
  | .OBS_SNAP_SEQ => { base := 0xB20000, stride := 0x0, count := 1, lo := 0, width := 16, access := .ro, reset := 0, survives := .warm, owner := .hw }
  | .OBS_SNAP_TIME => { base := 0xB20008, stride := 0x0, count := 1, lo := 0, width := 40, access := .ro, reset := 0, survives := .warm, owner := .hw }
  | .OBS_SNAP_SPEED => { base := 0xB20010, stride := 0x0, count := 1, lo := 0, width := 64, access := .ro, reset := 0, survives := .warm, owner := .hw }
  | .OBS_SNAP_ACCEL => { base := 0xB20018, stride := 0x0, count := 1, lo := 0, width := 64, access := .ro, reset := 0, survives := .warm, owner := .hw }
  | .OBS_CNT_SNAP => { base := 0xB21000, stride := 0x8, count := 1024, lo := 0, width := 64, access := .ro, reset := 0, survives := .warm, owner := .hw }
  | .IND_ADDR_SPACE => { base := 0xC00000, stride := 0x0, count := 1, lo := 28, width := 4, access := .rw, reset := 0, survives := .warm, owner := .host }
  | .IND_ADDR_AUTOINC => { base := 0xC00000, stride := 0x0, count := 1, lo := 24, width := 1, access := .rw, reset := 0, survives := .warm, owner := .host }
  | .IND_ADDR => { base := 0xC00000, stride := 0x0, count := 1, lo := 2, width := 22, access := .rw, reset := 0, survives := .warm, owner := .host }
  | .IND_DATA => { base := 0xC00004, stride := 0x0, count := 1, lo := 0, width := 32, access := .rw, reset := 0, survives := .warm, owner := .host }
  | .IND_STAT_DENIED => { base := 0xC00008, stride := 0x0, count := 1, lo := 3, width := 1, access := .w1c, reset := 0, survives := .warm, owner := .host }
  | .IND_STAT_BADSPACE => { base := 0xC00008, stride := 0x0, count := 1, lo := 2, width := 1, access := .w1c, reset := 0, survives := .warm, owner := .host }
  | .IND_STAT_TMO => { base := 0xC00008, stride := 0x0, count := 1, lo := 1, width := 1, access := .w1c, reset := 0, survives := .warm, owner := .host }
  | .IND_STAT_BUSY => { base := 0xC00008, stride := 0x0, count := 1, lo := 0, width := 1, access := .ro, reset := 0, survives := .warm, owner := .hw }
  | .RCP_STATE_STAGE => { base := 0x100000, stride := 0x0, count := 1, lo := 8, width := 4, access := .ro, reset := 1, survives := .warm, owner := .hw }
  | .RCP_STATE => { base := 0x100000, stride := 0x0, count := 1, lo := 0, width := 4, access := .ro, reset := 0, survives := .warm, owner := .hw }
  | .RCP_CAUSE_LOWTIME => { base := 0x100004, stride := 0x0, count := 1, lo := 16, width := 16, access := .ro, reset := 0, survives := .warm, owner := .hw }
  | .RCP_CAUSE_STAGE => { base := 0x100004, stride := 0x0, count := 1, lo := 8, width := 4, access := .ro, reset := 0, survives := .warm, owner := .hw }
  | .RCP_CAUSE => { base := 0x100004, stride := 0x0, count := 1, lo := 0, width := 3, access := .ro, reset := 1, survives := .warm, owner := .hw }
  | .RCP_FAILSTART_CONFIRMED => { base := 0x100008, stride := 0x0, count := 1, lo := 16, width := 1, access := .ro, reset := 0, survives := .warm, owner := .hw }
  | .RCP_FAILSTART_LIMIT => { base := 0x100008, stride := 0x0, count := 1, lo := 8, width := 4, access := .ro, reset := 3, survives := .never, owner := .hw }
  | .RCP_FAILSTART_COUNT => { base := 0x100008, stride := 0x0, count := 1, lo := 0, width := 4, access := .ro, reset := 0, survives := .never, owner := .hw }
  | .RCP_CONFIRM_GO => { base := 0x10000C, stride := 0x0, count := 1, lo := 0, width := 1, access := .wo, reset := 0, survives := .none, owner := .fw }
  | .RCP_CTL_DOZEEN => { base := 0x100010, stride := 0x0, count := 1, lo := 31, width := 1, access := .rw, reset := 1, survives := .warm, owner := .fw }
  | .RCP_CTL_RETAIN => { base := 0x100010, stride := 0x0, count := 1, lo := 30, width := 1, access := .rw, reset := 0, survives := .warm, owner := .fw }
  | .RCP_CTL_RDYIDLE => { base := 0x100010, stride := 0x0, count := 1, lo := 0, width := 16, access := .rw, reset := 100, survives := .warm, owner := .fw }
  | .RCP_DOZE_DOZEIDLE => { base := 0x100014, stride := 0x0, count := 1, lo := 0, width := 16, access := .rw, reset := 5000, survives := .warm, owner := .fw }
  | .RCP_CMD_OP => { base := 0x100018, stride := 0x0, count := 1, lo := 0, width := 2, access := .wo, reset := 0, survives := .none, owner := .fw }
  | .RCP_STAT_NVMERR => { base := 0x10001C, stride := 0x0, count := 1, lo := 5, width := 1, access := .w1c, reset := 0, survives := .warm, owner := .host }
  | .RCP_STAT_OBERR => { base := 0x10001C, stride := 0x0, count := 1, lo := 4, width := 1, access := .w1c, reset := 0, survives := .warm, owner := .host }
  | .RCP_STAT_OBFIX => { base := 0x10001C, stride := 0x0, count := 1, lo := 3, width := 1, access := .w1c, reset := 0, survives := .warm, owner := .host }
  | .RCP_STAT_BRSTERR => { base := 0x10001C, stride := 0x0, count := 1, lo := 2, width := 1, access := .w1c, reset := 0, survives := .warm, owner := .host }
  | .RCP_STAT_STBYABT => { base := 0x10001C, stride := 0x0, count := 1, lo := 1, width := 1, access := .w1c, reset := 0, survives := .warm, owner := .host }
  | .RCP_STAT_OBSRC => { base := 0x10001C, stride := 0x0, count := 1, lo := 0, width := 1, access := .ro, reset := 0, survives := .warm, owner := .hw }
  | .RCP_BRST_GO => { base := 0x100020, stride := 0x0, count := 1, lo := 31, width := 1, access := .wo, reset := 0, survives := .none, owner := .host }
  | .RCP_BRST_BUSY => { base := 0x100020, stride := 0x0, count := 1, lo := 30, width := 1, access := .ro, reset := 0, survives := .warm, owner := .hw }
  | .RCP_BRST_BLOCK => { base := 0x100020, stride := 0x0, count := 1, lo := 0, width := 8, access := .rw, reset := 0, survives := .warm, owner := .host }
  | .RCP_BRST_CNT => { base := 0x100024, stride := 0x0, count := 1, lo := 0, width := 32, access := .ro, reset := 0, survives := .warm, owner := .hw }
  | .RCP_BRST_MLK_GO => { base := 0x100028, stride := 0x0, count := 1, lo := 31, width := 1, access := .wo, reset := 0, survives := .none, owner := .fw }
  | .RCP_BRST_MLK_BUSY => { base := 0x100028, stride := 0x0, count := 1, lo := 30, width := 1, access := .ro, reset := 0, survives := .warm, owner := .hw }
  | .RCP_BRST_MLK_BLOCK => { base := 0x100028, stride := 0x0, count := 1, lo := 0, width := 8, access := .rw, reset := 0, survives := .warm, owner := .fw }
  | .MLK_STAT_RECOV => { base := 0xB00000, stride := 0x0, count := 1, lo := 2, width := 1, access := .ro, reset := 0, survives := .warm, owner := .hw }
  | .MLK_STAT_TRIAL => { base := 0xB00000, stride := 0x0, count := 1, lo := 1, width := 1, access := .ro, reset := 0, survives := .warm, owner := .hw }
  | .MLK_STAT_BANK => { base := 0xB00000, stride := 0x0, count := 1, lo := 0, width := 1, access := .ro, reset := 0, survives := .warm, owner := .hw }
  | .MLK_FW => { base := 0xB00004, stride := 0x0, count := 1, lo := 0, width := 32, access := .ro, reset := 0, survives := .warm, owner := .hw }
  | .MLK_ROLLBACK => { base := 0xB00008, stride := 0x0, count := 1, lo := 0, width := 32, access := .ro, reset := 0, survives := .never, owner := .hw }
  | .MLK_FAN => { base := 0xB0000C, stride := 0x0, count := 1, lo := 0, width := 8, access := .rw, reset := 100, survives := .warm, owner := .fw }
  | .MLK_TACH_TACH1 => { base := 0xB00010, stride := 0x0, count := 1, lo := 16, width := 16, access := .ro, reset := 0, survives := .warm, owner := .hw }
  | .MLK_TACH_TACH0 => { base := 0xB00010, stride := 0x0, count := 1, lo := 0, width := 16, access := .ro, reset := 0, survives := .warm, owner := .hw }
  | .MLK_TEMP => { base := 0xB00100, stride := 0x4, count := 32, lo := 0, width := 16, access := .ro, reset := 0, survives := .warm, owner := .hw }
  | .MLK_VMON => { base := 0xB00200, stride := 0x4, count := 16, lo := 0, width := 16, access := .ro, reset := 0, survives := .warm, owner := .hw }
  | .MLK_IMON => { base := 0xB00240, stride := 0x4, count := 4, lo := 0, width := 16, access := .ro, reset := 0, survives := .warm, owner := .hw }
  | .MLK_MNT_ST_RUNS => { base := 0xB00400, stride := 0x4, count := 8, lo := 16, width := 16, access := .ro, reset := 0, survives := .warm, owner := .hw }
  | .MLK_MNT_ST => { base := 0xB00400, stride := 0x4, count := 8, lo := 0, width := 3, access := .ro, reset := 0, survives := .warm, owner := .hw }
  | .TLY_STAT_DAMAGED => { base := 0xB10000, stride := 0x0, count := 1, lo := 2, width := 1, access := .w1c, reset := 0, survives := .warm, owner := .host }
  | .TLY_STAT_QOVF => { base := 0xB10000, stride := 0x0, count := 1, lo := 1, width := 1, access := .w1c, reset := 0, survives := .warm, owner := .host }
  | .TLY_STAT_FULL => { base := 0xB10000, stride := 0x0, count := 1, lo := 0, width := 1, access := .ro, reset := 0, survives := .never, owner := .hw }
  | .TLY_USED => { base := 0xB10004, stride := 0x0, count := 1, lo := 0, width := 15, access := .ro, reset := 0, survives := .never, owner := .hw }
  | .TLY_DROP_CNT => { base := 0xB10008, stride := 0x0, count := 1, lo := 0, width := 32, access := .ro, reset := 0, survives := .never, owner := .hw }
  | .TLY_PCYC => { base := 0xB1000C, stride := 0x0, count := 1, lo := 0, width := 32, access := .ro, reset := 0, survives := .never, owner := .hw }
  | .TLY_OPHR => { base := 0xB10010, stride := 0x0, count := 1, lo := 0, width := 32, access := .ro, reset := 0, survives := .never, owner := .hw }
  | .OBS_TRC_CTL_EN => { base := 0xB20040, stride := 0x0, count := 1, lo := 31, width := 1, access := .rw, reset := 0, survives := .cold, owner := .host }
  | .OBS_TRC_CTL_MODE => { base := 0xB20040, stride := 0x0, count := 1, lo := 24, width := 1, access := .rw, reset := 0, survives := .cold, owner := .host }
  | .OBS_TRC_CTL_SRCX => { base := 0xB20040, stride := 0x0, count := 1, lo := 16, width := 4, access := .rw, reset := 0, survives := .cold, owner := .host }
  | .OBS_TRC_CTL_CHNMASK => { base := 0xB20040, stride := 0x0, count := 1, lo := 0, width := 16, access := .rw, reset := 0, survives := .cold, owner := .host }
  | .OBS_TRC_STOP_POST => { base := 0xB20044, stride := 0x0, count := 1, lo := 16, width := 16, access := .rw, reset := 0, survives := .cold, owner := .host }
  | .OBS_TRC_STOP_STOPCODE => { base := 0xB20044, stride := 0x0, count := 1, lo := 0, width := 16, access := .rw, reset := 0, survives := .cold, owner := .host }
  | .OBS_TRC_STAT_STOPPED => { base := 0xB20048, stride := 0x0, count := 1, lo := 1, width := 1, access := .w1c, reset := 0, survives := .cold, owner := .host }
  | .OBS_TRC_STAT_WRAPPED => { base := 0xB20048, stride := 0x0, count := 1, lo := 0, width := 1, access := .w1c, reset := 0, survives := .cold, owner := .host }
  | .OBS_TRC_WR_IDX => { base := 0xB2004C, stride := 0x0, count := 1, lo := 0, width := 19, access := .ro, reset := 0, survives := .cold, owner := .hw }
  | .OBS_TRC_PAGE => { base := 0xB20050, stride := 0x0, count := 1, lo := 0, width := 11, access := .rw, reset := 0, survives := .cold, owner := .host }
  | .OBS_TRC_DROP_COUNT => { base := 0xB20054, stride := 0x0, count := 1, lo := 0, width := 32, access := .ro, reset := 0, survives := .cold, owner := .hw }
  | .OBS_SEL => { base := 0xB24000, stride := 0x4, count := 768, lo := 0, width := 16, access := .rw, reset := 0, survives := .warm, owner := .fw }

/-- Every field, in table order: what a sweep over the registers (a reset, a write, the vote check) runs through. -/
def Field.list0 : List Field := [.ENC_MSTAT_MASTER, .ENC_MSTAT_LOGV, .ENC_MSTAT_DIRCHG, .ENC_MSTAT_SPDV, .ENC_MSTAT_STOP, .ENC_MSTAT_DIR, .ENC_SPEED, .ENC_ACCEL, .ENC_LOG_WR_SEQ, .ENC_LOG_WR_IDX, .CXP_LNK_CTL_UPTRIG, .CXP_LNK_CTL_EXT_IDX, .CXP_LNK_CTL_MASTER, .CXP_LNK_CTL_RATE, .CXP_LNK_CTL_RATE_FIX, .CXP_LNK_CTL_EQ_FREEZE, .CXP_LNK_CTL_PWR_EN, .CXP_LNK_CTL_EN, .CXP_LNK_STAT_RATE_ACT, .CXP_LNK_STAT_CFGERR, .CXP_LNK_STAT_UNMAPPED, .CXP_LNK_STAT_CRCERR, .CXP_LNK_STAT_PWR_ON, .CXP_LNK_STAT_PWR_FLT, .CXP_LNK_STAT_LOCKLOSS, .CXP_LNK_STAT_LOCK, .CXP_LNK_EQ_DFE, .CXP_LNK_EQ_CTLE, .CXP_LNK_EYE_VERT, .CXP_LNK_EYE_HORZ, .CXP_LNK_UPLAT, .CXP_PRX_ADDR, .CXP_PRX_CMD_OP, .CXP_PRX_CMD_LEN, .CXP_PRX_STAT_CODE, .CXP_PRX_STAT_ST, .CXP_PRX_TMO, .ITK_CTX_CFG0_BLKLEN, .ITK_CTX_CFG0_WIDTH, .ITK_CTX_CFG1_FMT, .ITK_CTX_CFG1_EN, .ITK_CTX_CFG1_CG, .ITK_CTX_CFG1_STREAM, .ITK_CTX_CFG1_LINK, .ITK_CTX_TMO]
def Field.list1 : List Field := [.ITK_CTX_AGE, .ITK_CTX_OFS, .ITK_CTX_LANES, .ITK_CTX_CMD_RESYNC, .ITK_CTX_CMD_COMMIT, .ITK_CTX_STAT_ERRCODE, .ITK_CTX_STAT_GAPOPEN, .ITK_CTX_STAT_CMTERR, .ITK_CTX_STAT_BROKEN, .ITK_CTX_STAT_PEND, .ITK_CTX_STAT_STATE, .ITK_CTX_GAP_START, .ITK_CTX_GAP_END, .ITK_FUS_MEM, .ITK_FUS_BUDGET, .ITK_FUS_CTL_EN, .ITK_FUS_CTL_SC, .ITK_FUS_STAT_ABSENT, .ITK_FUS_STAT_CMTERR, .ITK_PP_CTL_PIPES, .ITK_PP_CTL_LEVELS, .ITK_PP_CTL_SHIFT, .ITK_PP_CTL_OUTFMT, .ITK_PP_CTL_SCHED, .ITK_PP_CTL_BYP, .ITK_PP_STRIPE_RUNMAX, .ITK_PP_STRIPE_STRIPEW, .ITK_PP_RING, .ITK_PP_MERGE_SAT, .ITK_PP_MERGE_NEXP, .ITK_PP_RATIO_RATIO2, .ITK_PP_RATIO_RATIO1, .ITK_PP_COLOUR_CFA, .ITK_PP_COLOUR_DB, .ITK_PP_COLOUR_DG, .ITK_PP_COLOUR_DR, .ITK_PP_RSMP_WOUT, .ITK_PP_RSMP_HSCALE, .ITK_PP_HOFS, .ITK_PP_VPITCH, .ITK_PP_LUT0, .ITK_PP_LUT1, .ITK_PP_FLT0, .ITK_PP_FLT1, .ITK_PP_DEF]
def Field.list2 : List Field := [.ITK_PP_NDEF, .ITK_PP_OBUF, .ITK_PP_OBUFCFG_NBUF, .ITK_PP_OBUFCFG_SIZE, .ITK_PP_SYNC_RELSC, .ITK_PP_SYNC_SC, .ITK_PP_STATS_NSLOT, .ITK_PP_STATS_HSHIFT, .ITK_PP_STATS_EN, .ITK_PP_STBASE, .ITK_PP_RECBASE, .ITK_PP_GENSW_ARM, .ITK_PP_GENSW_BANK, .ITK_PP_GENSW_GEN, .ITK_PP_GEN_ACTIVE, .ITK_PP_GEN_LAST, .ITK_PP_HALO_VBELOW, .ITK_PP_HALO_VABOVE, .ITK_PP_CMD_COMMIT, .ITK_PP_STAT_OVERRUN, .ITK_PP_STAT_PEND, .ITK_PP_STAT_CMTERR, .ITK_PP_STAT_ERR, .ITK_PP_NEED, .ITK_PP_OLMAX, .ITK_PP_BLKSEQ, .ITK_PIPE_STAT_REPLAY, .ITK_PIPE_STAT_DRAIN, .ITK_PIPE_STAT_BUSY, .ITK_PIPE_STAT_CTX, .ITK_PIPE_SWCNT, .ITK_PIPE_OVH, .CHN_CAP_LSMIB, .CHN_CAP_NROW, .CHN_CAP_NCOL, .CHN_CAP_LANES, .CHN_STAT_ISO, .CHN_STAT_MODE, .CHN_STAT_BUSY, .CHN_STAT_PWR, .CHN_EXC_KLIM, .CHN_EXC_TRUNC, .CHN_EXC_SCLNAN, .CHN_EXC_CVTNAN, .CHN_EXC_SAT]
def Field.list3 : List Field := [.CHN_EXC_OVF, .CHN_EXC_INV, .CHN_EXC_NVIN, .CHN_PWRCTL_NOPG, .CHN_PWRCTL_NOCG, .CHN_PWRCTL_PGIDLE, .CHN_ERR_COUNT, .CHN_ERR_CODE, .MEM_PART0_SLOTS, .MEM_PART0_INTAKE, .MEM_PART1_PROG, .MEM_BAR4_BASE, .MEM_ECC_STAT_CRCUE, .MEM_ECC_STAT_RESEND, .MEM_ECC_STAT_LUE, .MEM_ECC_STAT_LCE, .MEM_ECC_STAT_VUE, .MEM_ECC_STAT_VCE, .MEM_VCE_CNT, .MEM_VUE_CNT, .MEM_LCE_CNT, .MEM_LUE_CNT, .MEM_RESEND_CNT, .MEM_UE_ADDR, .MEM_UE_SRC, .MEM_SCRUB, .MMU_CTL_EN, .MMU_ROOT_ADDR, .MMU_ROOT_V, .MMU_INV_ADDR, .MMU_INV_CMD_GO, .MMU_INV_CMD_ASID, .MMU_INV_CMD_SCOPE, .MMU_INV_STAT_DONE, .MMU_FAULTQ_CNT_OVF, .MMU_FAULTQ_CNT, .MMU_FAULTQ_POP, .JOB_CTL_MARGIN, .JOB_CTL_SLICE, .JOB_STAT_RECOV, .JOB_STAT_ADMITTED, .JOB_CMDID_JOBID, .JOB_CMD_RES, .JOB_CMD_OP, .JOB_CQ_BASE_ADDR]
def Field.list4 : List Field := [.JOB_CQ_CTL_EN, .JOB_CQ_CTL_ASID, .JOB_CQ_CTL_LOG2, .JOB_CQ_HEAD, .JOB_CQ_TAIL, .JOB_CQ_STAT_CFGERR, .JOB_CQ_STAT_OVF, .JOB_CQ_LOST, .JOB_Q_BASE_ADDR, .JOB_Q_CTL_EN, .JOB_Q_CTL_ASID, .JOB_Q_CTL_VEC, .JOB_Q_CTL_LOG2, .JOB_Q_TAIL, .JOB_Q_HEAD, .JOB_Q_STAT_CFGERR, .JOB_Q_STAT_EMPTY, .JOB_CHN_JOB, .JOB_CHN_ST_VALID, .JOB_CHN_ST_KIND, .JOB_CHN_ST_PIECE, .JOB_SLOT_JOB, .JOB_SLOT_ST_PIECE, .JOB_SLOT_ST_CHN, .JOB_SLOT_ST_RECOV, .JOB_SLOT_ST_CHEAP, .JOB_SLOT_ST_FLT, .JOB_SLOT_ST_STATE, .SYN_VAL, .SYN_OP, .SYN_OP_SC, .SYN_RDIDX_SC, .SYN_RDVAL, .GLB_DET_STAT_THROT, .GLB_DET_STAT_FIXDIST, .GLB_DET_STAT_SPLIT, .GLB_DET_STAT_FIXED, .ENC_EST_CFG, .ENC_CFG_EN, .ENC_CFG_TYPE, .ENC_CFG_INV, .ENC_CFG_ZEN, .ENC_CFG_INTERP, .ENC_CFG_FLTN, .ENC_STAT_FAULT]
def Field.list5 : List Field := [.ENC_STAT_FCODE, .ENC_STAT_FLTOPEN, .ENC_STAT_ZSEEN, .ENC_STAT_WARN, .ENC_STAT_DIRCHG, .ENC_STAT_DIR, .ENC_STAT_COARSE, .ENC_POS, .ENC_POS_SNAP, .ENC_ZPOS, .ENC_ZPER, .ENC_WIN_AMAX, .ENC_WIN_AMIN, .ENC_AMP_AMINSEEN, .ENC_AMP, .ENC_BISS_LEN, .ENC_BISS_MAF, .ENC_BISS_PERIOD, .ENC_MAXSTEP, .ENC_BISS_RAW, .ENC_GUARD, .ENC_FLT_START, .ENC_FLT_END, .ENC_ERRCNT_COUNT, .ENC_CG_CTL_ARM, .ENC_CG_CTL_CONTINUOUS, .ENC_CG_CTL_REV, .ENC_CG_CTL_SRC, .ENC_CG_STAT_CFGERR, .ENC_CG_STAT_OVF, .ENC_CG_STAT_FSTOP, .ENC_CG_STAT_DONE, .ENC_CG_STAT_RUN, .ENC_CG_START, .ENC_CG_SPACE, .ENC_CG_COUNT, .ENC_CG_NEXT, .ENC_CG_ISSUED, .ENC_CG_SKIP, .ENC_TRG_CFG_EN, .ENC_TRG_CFG_POL, .ENC_TRG_CFG_CG, .ENC_TRG_CFG_WIDTH, .ENC_TRG_DLY_DELAY, .ENC_TRG_CNT]
def Field.list6 : List Field := [.SEP_CTL_ARM, .SEP_STAT_MEMERR, .SEP_STAT_QFULL, .SEP_STAT_OVFLIST, .SEP_STAT_MISS, .SEP_STAT_LSTOP, .SEP_STAT_ARMED, .SEP_FIREQ_LVL, .SEP_PARTS_OVFL, .SEP_PARTS_INTABLE, .SEP_LSTOP_EN, .SEP_LSTOP_RELEASE, .SEP_LSTOP_POL, .SEP_LSTOP_OUT, .SEP_VLOG_WR_WRAPS, .SEP_VLOG_WR_IDX, .SEP_MISS_CNT, .SEP_LATEREC_CNT, .SEP_BADREC_CNT, .SEP_QFULL_CNT, .SEP_LATEOFF_CNT, .SEP_FIREQ_MAX, .SEP_OUT_OFS, .SEP_OUT_DWELL, .SEP_OUT_LAT, .SEP_OUT_CFG_MINGAP, .SEP_OUT_CFG_EN, .SEP_OUT_CFG_DMODE, .SEP_OUT_MAXON, .SEP_OUT_ST_LATEOFF, .SEP_OUT_ST_MAXON, .SEP_OUT_ST_PEND, .SEP_OUT_ST_ON, .SEP_POLICY, .SEP_SETA, .SEP_SETB, .FIO_LNK_STAT_FSUP, .FIO_LNK_STAT_RESTART, .FIO_LNK_STAT_VOTERR, .FIO_LNK_STAT_LATE, .FIO_LNK_STAT_CRCERR, .FIO_LNK_STAT_SAFE, .FIO_CRC_CNT, .FIO_LATE_CNT, .FIO_SAFE_CNT]
def Field.list7 : List Field := [.FLD_SAFE_TMO, .FLD_OUT_EN, .FLD_IN, .FLD_WB, .FLD_SC, .FLD_OL, .FLD_LVL, .FLD_STAT_FSUP, .FLD_STAT_SAFE, .FLD_STAT_VOTERR, .FLD_SAFE, .FLD_INCFG_WBEN, .FLD_INCFG_DEB, .TCH_LIB_BASE, .TCH_LIB_SIZE, .TCH_LIB_MAX, .TCH_LIB_CNT, .TCH_LIB_RSV, .TCH_LIB_RSVIDX_FAIL, .TCH_LIB_RSVIDX_IDX, .TCH_STAT_CAPLOST, .TCH_STAT_CAPMISS, .TCH_STAT_LIBFULL, .TCH_STAT_CAPON, .TCH_CAP_CNT, .TCH_CAPMISS_CNT, .TCH_CAPLOST_CNT, .DEC_CORRUPT_CNT, .DEC_SKIP_CNT, .TCH_RING_BASE, .TCH_RING_SIZE, .TCH_RING_WR, .TCH_CAP_CTL_EN, .TCH_CAP_CTL_ALL, .TCH_CAP_CTL_CTX, .TCH_CAP_MARGIN, .TCH_CAP_RATE_HOLDN, .TCH_CAP_RATE, .TCH_CAP_MASK, .DEC_Q_BASE_ADDR, .DEC_Q_CTL_EN, .DEC_Q_CTL_ASID, .DEC_Q_CTL_VEC, .DEC_Q_CTL_LOG2, .DEC_Q_TAIL]
def Field.list8 : List Field := [.DEC_Q_HEAD, .DEC_Q_STAT_CFGERR, .DEC_Q_STAT_EMPTY, .DEC_BUDGET, .DEC_BWCAP, .DEC_STRM_ST_BUSY, .DEC_STRM_ST_LAST, .HRD_CTL_TOPO, .HRD_CTL_MEMBER, .HRD_CTL_ROLE, .HRD_STAT_POSLOST, .HRD_STAT_TSYNC, .HRD_STAT_INSERV, .HRD_STAT_CFGERR, .HRD_STAT_MLOST, .HRD_INSERV, .HRD_TERR, .HRD_HOPS, .HRD_LOST_CNT, .HRD_POSLOST_CNT, .ZXL_CRC_CNT, .ZXL_REPLAY_CNT, .ZXL_DOWN_CNT, .ZXL_BAD_CNT, .HRD_BULK_BASE_ADDR, .HRD_BULK_SIZE_MIB, .ZXL_CTL_EN, .ZXL_CTL_NOSLEEP, .ZXL_CTL_EQ_FREEZE, .ZXL_CTL_IDLE, .ZXL_STAT_DOWN, .ZXL_STAT_TXSLEEP, .ZXL_STAT_RXSLEEP, .ZXL_STAT_PEERUP, .ZXL_STAT_RXUP, .ZXL_STAT_LOCK, .ZXL_STAT_UP, .ZXL_EQA_DFE1, .ZXL_EQA_CTLE, .ZXL_EQB_DFE2, .ZXL_EYE_VERT, .ZXL_EYE_HORZ, .TIM_CTL_HOSTSERVO, .TIM_CTL_OVR, .TIM_CTL_PTPMODE]
def Field.list9 : List Field := [.TIM_STAT_SGEN, .TIM_STAT_STEPREF, .TIM_STAT_HOLD, .TIM_STAT_LOCKED, .TIM_STAT_TSET, .TIM_STAT_STEPPED, .TIM_NS, .TIM_WRAP, .TIM_RATE, .TIM_STEP, .TIM_STEPMAX, .TIM_TXQ0_SEQID, .TIM_TXQ0_MSGTYPE, .TIM_TXQ0_PORT, .TIM_TXQ0_SGEN, .TIM_TXQ0_VALID, .TIM_TXQ1_NS, .TIM_TXQ2_FRAC, .TIM_TXQ2_WRAP, .TIM_TXQ_STAT_OVF, .TIM_TXQ_STAT_COUNT, .TIM_TXQ_POP, .TIM_TXQ_LOST_COUNT, .TIM_TTO_CTL_EN, .TIM_TTO_CTL_POL, .TIM_TTO_START, .TIM_TTO_PERIOD, .TIM_TTO_WIDTH, .TIM_TTO_STAT_CFGERR, .TIM_TTO_STAT_MISSED, .TIM_TTO_SKIP_COUNT, .ETH_CTL_EN, .ETH_CTL_SPEED, .ETH_CTL_FEC, .ETH_STAT_LINKDOWN, .ETH_STAT_LINK, .ETH_RXERR_CNT, .ETH_PTP_CNT, .GLB_ID, .GLB_PCIID, .GLB_MODE_FIXED, .GLB_MODE_REPRO, .GLB_ERR_STAT_VOTFAIL, .GLB_ERR_STAT_VOTERR, .GLB_ERR_STAT_OWNERR]
def Field.list10 : List Field := [.GLB_VOTE_CNT, .GLB_OWNERR_CNT, .GLB_IRQ_STAT, .GLB_IRQ_EN, .GLB_IRQ_ACK, .MLK_MBX_DB_RING, .MLK_MBX_STAT_DBERR, .MLK_MBX_STAT_DONE, .MLK_MBX_STAT_BUSY, .MLK_MBX_EVT_WR_IDX, .MLK_MBX_EVT_LOST_COUNT, .OBS_SNAP_GO, .OBS_SNAP_BUSY, .OBS_SNAP_SEQ, .OBS_SNAP_TIME, .OBS_SNAP_SPEED, .OBS_SNAP_ACCEL, .OBS_CNT_SNAP, .IND_ADDR_SPACE, .IND_ADDR_AUTOINC, .IND_ADDR, .IND_DATA, .IND_STAT_DENIED, .IND_STAT_BADSPACE, .IND_STAT_TMO, .IND_STAT_BUSY, .RCP_STATE_STAGE, .RCP_STATE, .RCP_CAUSE_LOWTIME, .RCP_CAUSE_STAGE, .RCP_CAUSE, .RCP_FAILSTART_CONFIRMED, .RCP_FAILSTART_LIMIT, .RCP_FAILSTART_COUNT, .RCP_CONFIRM_GO, .RCP_CTL_DOZEEN, .RCP_CTL_RETAIN, .RCP_CTL_RDYIDLE, .RCP_DOZE_DOZEIDLE, .RCP_CMD_OP, .RCP_STAT_NVMERR, .RCP_STAT_OBERR, .RCP_STAT_OBFIX, .RCP_STAT_BRSTERR, .RCP_STAT_STBYABT]
def Field.list11 : List Field := [.RCP_STAT_OBSRC, .RCP_BRST_GO, .RCP_BRST_BUSY, .RCP_BRST_BLOCK, .RCP_BRST_CNT, .RCP_BRST_MLK_GO, .RCP_BRST_MLK_BUSY, .RCP_BRST_MLK_BLOCK, .MLK_STAT_RECOV, .MLK_STAT_TRIAL, .MLK_STAT_BANK, .MLK_FW, .MLK_ROLLBACK, .MLK_FAN, .MLK_TACH_TACH1, .MLK_TACH_TACH0, .MLK_TEMP, .MLK_VMON, .MLK_IMON, .MLK_MNT_ST_RUNS, .MLK_MNT_ST, .TLY_STAT_DAMAGED, .TLY_STAT_QOVF, .TLY_STAT_FULL, .TLY_USED, .TLY_DROP_CNT, .TLY_PCYC, .TLY_OPHR, .OBS_TRC_CTL_EN, .OBS_TRC_CTL_MODE, .OBS_TRC_CTL_SRCX, .OBS_TRC_CTL_CHNMASK, .OBS_TRC_STOP_POST, .OBS_TRC_STOP_STOPCODE, .OBS_TRC_STAT_STOPPED, .OBS_TRC_STAT_WRAPPED, .OBS_TRC_WR_IDX, .OBS_TRC_PAGE, .OBS_TRC_DROP_COUNT, .OBS_SEL]

def Field.all : List Field :=
  Field.list0 ++ Field.list1 ++ Field.list2 ++ Field.list3 ++ Field.list4 ++ Field.list5 ++ Field.list6 ++ Field.list7 ++ Field.list8 ++ Field.list9 ++ Field.list10 ++ Field.list11

/-- The reset value of instance `i` of a field: the table's value, and the two rows whose value depends on the
instance: `MASTER` resets to *n* (R78), `SEP_POLICY[n]` to 0x5555_5554 for `n & 15 = 0` (R269). [DESIGN CHOICE, log 4] -/
def Field.resetAt (f : Field) (i : Nat) : Nat :=
  match f with
  | .CXP_LNK_CTL_MASTER => i
  | .SEP_POLICY => if i % 16 = 0 then 0x55555554 else 0x55555555
  | f => f.desc.reset

/-- The BAR0 offset (or the field-die address) of the register that holds instance `i`. -/
def FieldDesc.addr (d : FieldDesc) (i : Nat) : Nat :=
  d.base + d.stride * (i / d.sub) + d.substride * (i % d.sub)

/-- The owner of instance `i` (R210: queue 8 is firmware's; R311: decode queue 1 is firmware's). -/
def Field.ownerAt (f : Field) (i : Nat) : Owner :=
  match f with
  | .JOB_Q_BASE_ADDR | .JOB_Q_CTL_EN | .JOB_Q_CTL_ASID | .JOB_Q_CTL_VEC | .JOB_Q_CTL_LOG2 | .JOB_Q_TAIL =>
    if i = 8 then .fw else .host
  | .DEC_Q_BASE_ADDR | .DEC_Q_CTL_EN | .DEC_Q_CTL_ASID | .DEC_Q_CTL_VEC | .DEC_Q_CTL_LOG2 | .DEC_Q_TAIL =>
    if i = 1 then .fw else .host
  | f => f.desc.owner

end Sys2Proof.Machine
end

