-- ==== Sys2Proof/Machine/Tab.lean ====
section
/-! DEFINITION. Sparse data by key: a list of (key, value) pairs in one canonical form, keys strictly rising and no entry
equal to what an unlisted key reads as, so that equal contents are equal data. Registers, memory, dictionary values and
counters are held so. -/

namespace Sys2Proof.Machine

/-- Entries by key. -/
abbrev Tab (α : Type) := List (Nat × α)

/-- The entry listed under a key. -/
def tabFind? {α : Type} : Tab α → Nat → Option α
  | [], _ => none
  | (k, v) :: t, n => if k = n then some v else tabFind? t n

/-- List `a` under key `n`, in place of what was there. -/
def tabPut {α : Type} : Tab α → Nat → α → Tab α
  | [], n, a => [(n, a)]
  | (k, v) :: t, n, a =>
    if n < k then (n, a) :: (k, v) :: t
    else if n = k then (n, a) :: t
    else (k, v) :: tabPut t n a

/-- Take the entry under key `n` out. -/
def tabDrop {α : Type} (t : Tab α) (n : Nat) : Tab α := t.filter fun p => p.1 ≠ n

/-- Take every entry out whose key `p` selects. -/
def tabClear {α : Type} (t : Tab α) (p : Nat → Bool) : Tab α := t.filter fun e => !(p e.1)

/-- What key `n` reads as; `d` gives what an unlisted key reads as. -/
def tabGet {α : Type} (d : Nat → α) (t : Tab α) (n : Nat) : α := (tabFind? t n).getD (d n)

/-- Write `a` under key `n`: an entry equal to what the unlisted key reads as is not listed. -/
def tabSet {α : Type} [DecidableEq α] (d : Nat → α) (t : Tab α) (n : Nat) (a : α) : Tab α :=
  if a = d n then tabDrop t n else tabPut t n a

/-- The canonical form: keys strictly rising, no entry that says nothing. -/
abbrev tabWf {α : Type} (d : Nat → α) (t : Tab α) : Prop :=
  t.Pairwise (fun a b => a.1 < b.1) ∧ ∀ e ∈ t, e.2 ≠ d e.1

/-- Keys strictly rising, for a table whose unlisted keys hold nothing. -/
abbrev tabSorted {α : Type} (t : Tab α) : Prop := t.Pairwise (fun a b => a.1 < b.1)

end Sys2Proof.Machine
end

