-- ==== Sys2Proof/Machine/Records.lean ====
section
/-! DEFINITION. The records that the state is built from: what each unit of the GN-E96 holds beside its register fields. -/

namespace Sys2Proof.Machine

open Sys2Proof

/-- A value of a dictionary entry (R355): a number for BOOL, U8, U16, U32, U64, I32 and POS (the bits), bytes for STR and
DOMAIN. -/
inductive OdVal where
  | num (n : Nat)
  | bytes (b : List Byte)
deriving DecidableEq, Repr

/-- A class N entry as NVM holds it: two copies, and whether each copy's CRC passes (R358, R359). -/
structure NvmEntry where
  a : OdVal
  aOk : Bool
  b : OdVal
  bOk : Bool
deriving DecidableEq, Repr

/-! ### Encoders and triggers (R226 to R246) -/

/-- A channel beside its registers: the extreme position for the hysteresis (R18, R238), the previous Z edge (R228), the
previous BiSS-C word and the cycle in progress (R231), consecutive CRC failures and samples out of the window, the sin/cos
phase of the present position in 1/4,096 of a period and that of the latest converter sample, the fault cause detected and not yet
applied (R233), whether the cause persists (R235), whether a sine or cosine is lost and whether the signal is too fast (R229), and
whether the next BiSS-C cycle is the first after a wake (R232). -/
structure Encoder where
  ext : Nat := 0
  zPrev : Option Nat := none
  biss : Option Nat := none
  bissOpen : Bool := false
  crcRun : Nat := 0
  outRun : Nat := 0
  phase : Option Nat := none
  sampled : Option Nat := none
  detected : Nat := 0
  present : Bool := false
  lost : Bool := false
  fast : Bool := false
  woken : Bool := false
deriving DecidableEq, Repr

/-- Nothing is known of the channel's earlier samples: after an enable, a change of type, or Standby (R226, R399). -/
def Encoder.fresh (e : Encoder) : Encoder :=
  { e with phase := none, sampled := none, biss := none, bissOpen := false, crcRun := 0, outRun := 0, zPrev := none }

/-- A compare generator beside its registers: the queued hits (R241), the XCLK period from which the next hit may be issued,
and the hits since it was armed, which `COUNT` bounds. -/
structure Generator where
  queue : List Nat := []
  free : Nat := 0
  hits : Nat := 0
deriving DecidableEq, Repr

/-- A trigger output: the XCLK periods at which delayed hits fall due, and whether the pulse is under way (R245). -/
structure Trigger where
  due : List Nat := []
  active : Bool := false
deriving DecidableEq, Repr

/-- The speed estimator (R237): ticks since the restart; the positions of the latest ticks, newest first and the oldest of them at
first the position at the restart; their speeds; and the position at the latest tick (R20), none before the first. -/
structure Estimator where
  k : Nat := 0
  ps : List Nat := [0]
  vs : List Int := []
  tickPos : Option Nat := none
deriving DecidableEq, Repr

/-! ### Parts, marks and recipes (R24 to R41) -/

/-- Where a mark on an interval comes from. [DEDUCED, log 57] -/
inductive MarkSource where
  | encoder (ch : Nat) | gap (ctx : Nat) | lost (ctx seq : Nat) | absence (fus : Nat) | memErr (ctx : Nat)
  | member (m : Nat) | remote (m ident : Nat) | position | work
deriving DecidableEq, Repr

/-- An interval of position on some lanes whose parts receive a device code (R73, R77, R95, R96, R234, R329, R334);
`fin` is none while the end is unbounded, `ident` is the identifier
under which a worker has sent it (R329). -/
structure Mark where
  source : MarkSource
  start : Nat
  fin : Option Nat
  lanes : Nat
  code : Nat
  ident : Nat := 0
deriving DecidableEq, Repr

/-- A part (R24 to R34, R252, R268). -/
structure Part where
  id : Nat
  lane : Nat
  start : Nat
  fin : Option Nat := none
  slot : Nat
  verd : Nat := 0xFF
  pverd : Nat := 0xFF
  aux : Nat := 0
  recs : Nat := 0
  flags : Nat := 0
  fireMask : Nat := 0
  missMask : Nat := 0
  removed : Nat := 0
  ovf : Bool := false
  workFault : Bool := false
  dead : Bool := false
deriving DecidableEq, Repr

/-- A lane: its open part, whether it waits for absence after OVERLONG or after a start (R28), and the presence last seen. -/
structure Lane where
  openPart : Option Nat := none
  blocked : Bool := false
  present : Bool := false
deriving DecidableEq, Repr

/-- A recipe slot (R37): 0 EMPTY, 1 LOADING, 2 READY, 3 ACTIVE; the deadline offset and maximum length with which it was
loaded, its image, whether its standing jobs have been posted (R189), and the DPA of the weight image whose weights it has in place of
its own (R310). -/
structure RecipeSlot where
  st : Nat := 0
  d : Nat := 0
  maxLen : Nat := 0
  image : Option RecipeImage := none
  posted : Bool := false
  weights : Option Nat := none
deriving DecidableEq, Repr

/-! ### The Separator (R255 to R268) -/

/-- A fire-queue entry (R256, R264): its part and output, the positions of ON and OFF (equal in DMODE 1, where the OFF is a
time), its dwell form, its run, the part whose entry's OFF was withheld for its ON (R262), and the committed edges (XCLK counts) of
its ON and of its run's OFF. -/
structure Fire where
  part : Nat
  out : Nat
  onPos : Nat
  offPos : Nat
  mode : Nat
  dwell : Nat
  run : Nat
  behind : Option Nat := none
  onEdge : Option Nat := none
  offEdge : Option Nat := none
  fired : Bool := false
deriving DecidableEq, Repr

/-! ### Barrier and field die (R271 to R286) -/

/-- A tick: edge (XCLK count), level and output mask (R272). -/
structure Tick where
  edge : Nat
  level : Bool
  mask : Nat
deriving DecidableEq, Repr

/-- The logic side of the barrier: the tick queue with the copies still to send, ticks that wait for room, edges sent and
not yet passed, the frame sequence, frames since the last STATE, register frames to send, whether every STATE frame carries
SAFE and whether a SAFE frame explains the safe state, RELEASE, and whether it goes in every STATE frame (R280), whether initial input levels are still to be taken (R284), the
levels, wire-break, short-circuit and open-load bits last seen, and the register reads that wait for an answer. -/
structure Barrier where
  queue : List (Tick × Nat) := []
  waiting : List Tick := []
  sent : List Nat := []
  seq : Nat := 0
  sinceState : Nat := 0
  regs : List Nat := []
  safeAlways : Bool := false
  safeSent : Bool := true
  release : Bool := false
  releaseNow : Bool := false
  init : Bool := true
  levels : Nat := 0
  broken : Nat := 0
  short : Nat := 0
  openLoad : Nat := 0
  readPending : List Nat := []
deriving DecidableEq, Repr

/-- The field die beside its registers: by how many ticks its timer is ahead of the XCLK count, and the XCLK count at the latest good
frame (R274), ticks held, ticks that have reached their edges lately, the tick last handled as late, good frames in a row, what the
next STATUS frame reports, the hold of R280 after a drop of the supply, input levels under R283, broken inputs, the line-stop output
and level of the latest STATE frame, the diagnostic group, an answer to a read, the sequence number of its frames.
[DEDUCED, log 108] -/
structure FieldDie where
  powered : Bool := true
  skew : Int := 0
  goodAt : Nat := 0
  held : List Tick := []
  fired : List Tick := []
  lastLate : Option Tick := none
  good : Nat := 0
  late : Bool := false
  restarted : Bool := true
  crcBad : Bool := false
  voted : Bool := false
  lowLatch : Bool := false
  raw : Nat := 0
  broken : Nat := 0
  stop : Option (Nat × Bool) := none
  group : Nat := 0
  answer : Option (Nat × Nat) := none
  seq : Nat := 0
deriving DecidableEq, Repr

/-! ### Camera intake and pipes (R60 to R99) -/

/-- A control request on a link (R60, R61): by the proxy registers or the dictionary. -/
structure ProxyReq where
  source : Source
  write : Bool
  addr : Nat
  len : Nat
  data : List Byte
deriving DecidableEq, Repr

/-- A link beside its registers: the control queue, the group out of service, the connection ID found, the triggers whose
hit has passed and whose packet waits, with the XCLK count of the hit, the compare values whose packet left early, when the
last packet left (R71), whether a new `PWR_EN` edge is needed (R58), and whether its receive direction sleeps (R46). -/
structure Link where
  requests : List ProxyReq := []
  out : Bool := false
  connId : Option Nat := none
  triggers : List (Nat × Nat) := []
  early : List Nat := []
  lastSent : Option Nat := none
  pwrLatch : Bool := false
  asleep : Bool := false
deriving DecidableEq, Repr

/-- A stamp in a stamp queue: compare position and device time of the hit in ns (R63). -/
structure Stamp where
  pos : Nat
  time : Nat
deriving DecidableEq, Repr

/-- A line in the raw ring: aligned stamp, generation, parity since the image header (R87), active bank (R98), lost (R95), its
place in the order of staging (R82), its samples (NEXP rows, components interleaved), and, once a slot has processed it, its
stage-4 values and the count of its all-saturated pixels (R99). [DESIGN CHOICE, log 130] -/
structure RawLine where
  stamp : Nat := 0
  gen : Nat := 0
  odd : Bool := false
  bank : Nat := 0
  lost : Bool := false
  staged : Nat := 0
  samples : List Nat := []
  stats : Option (List Nat × Nat) := none
deriving DecidableEq, Repr

/-- A block (R66, R73, R81, R95, R96): sequence number, its number since the enable, interval, the committed settings in
force, lines, halo lines of its predecessor, flags (`recErr`: the write of its record met an error), for each stripe the first
line of no slot yet, and the slots that are on a pipe, by stripe and first line. -/
structure Block where
  seq : Nat
  number : Nat
  start : Nat
  fin : Nat := 0
  cfg : Tab Nat
  pp : Tab Nat
  space : Nat
  lines : List RawLine := []
  halo : List RawLine := []
  fresh : Bool := false
  closed : Bool := false
  broken : Bool := false
  noBuf : Bool := false
  memErr : Bool := false
  recErr : Bool := false
  next : List Nat := [0]
  running : List (Nat × Nat) := []
deriving DecidableEq, Repr

/-- A stream context beside its registers: the committed configuration and stage settings in force, and the ones that take
effect with the next block (R64, R100); the stamp queue; the last aligned stamp written since the enable; whether the next
block has no predecessor; the block being filled; closed blocks that pipes still work on, oldest first; whether RESYNC
awaits an image header; a packet partly received; the generation of the latest image header; the parity of the next line;
blocks since the enable and in all; the last lines of the latest block and their width, format and exposures; statistics records
since the enable (R99). -/
structure StreamCtx where
  cfg : Tab Nat := []
  nextCfg : Option (Tab Nat) := none
  pp : Tab Nat := []
  nextPp : Option (Tab Nat) := none
  stamps : List Stamp := []
  last : Option Nat := none
  fresh : Bool := true
  block : Option Block := none
  closing : List Block := []
  noHeader : Bool := false
  partRecv : Bool := false
  gen : Nat := 0
  odd : Bool := false
  blocks : Nat := 0
  seqNext : Nat := 0
  halo : List RawLine := []
  shape : Nat × Nat × Nat := (0, 0, 0)
  stats : Nat := 0
deriving DecidableEq, Repr

/-- A slot on a pipe (R81): context, block sequence number, stripe, lines `[a, e)`, the XCLK count at its start, and the ICLK
cycles of its halo lines (R94). -/
structure PipeSlot where
  ctx : Nat
  seq : Nat
  stripe : Nat
  a : Nat
  e : Nat
  since : Nat
  halo : Nat
deriving DecidableEq, Repr

/-- An interval of a fusion context (R76), with the members (reference first), budget and sync counter in force when it opened, and
the mask of members declared absent from it (R77). -/
structure FusInterval where
  start : Nat
  fin : Nat
  members : List Nat
  budget : Nat
  sc : Nat
  absent : Nat := 0
deriving DecidableEq, Repr

/-- What a stream context has answered with (R76): a closed block, or a gap, whose end is none while it is open. -/
structure Delivery where
  ctx : Nat
  start : Nat
  fin : Option Nat
  gap : Bool
deriving DecidableEq, Repr

/-- A fusion context: in service; members (reference first), budget and sync counter in force; intervals that wait; answers of
their members. -/
structure Fusion where
  inService : Bool := false
  members : List Nat := []
  budget : Nat := 0
  sc : Nat := 0
  intervals : List FusInterval := []
  delivered : List Delivery := []
deriving DecidableEq, Repr

/-! ### The MMU (R166) -/

/-- A translation that a cache holds: of a Churn, or of the MMU itself (none); the address space, the address by pages of its size, and
the level and the entry at which its walk ended. -/
structure Cached where
  chn : Option Nat
  asid : Nat
  page : Nat
  level : Nat
  entry : Nat
deriving DecidableEq, Repr

/-! ### Churns, jobs and save slots (R104 to R132, R183 to R209) -/

/-- A command of a job (R184). -/
inductive Command where
  | layer (pieces code args cpgap : Nat)
  | kernel (regs group pieces code args threads cpgap : Nat)
  | wait (sc base step : Nat)
  | signal (sc add : Nat)
  | scReset (sc : Nat)
  | span (startAt finAt dofs : Nat)
  | vcommit (addr count : Nat)
deriving DecidableEq, Repr

/-- Where a piece of the current command stands. -/
inductive PieceSt where
  | ready | running (chn : Nat) | saved (slot : Nat) | done
deriving DecidableEq, Repr

/-- A piece, or a part of one by takeover: index, state, whether its wait for a slot has been counted (R196), the reduction steps
of its remainder, [k0, K), once a takeover has divided it (R126), whether it waits because its Churn has failed, and the Churn that
is then kept for it (R209). -/
structure Piece where
  index : Nat
  st : PieceSt
  deferred : Bool := false
  range : Option (Nat × Nat) := none
  failed : Bool := false
  target : Option Nat := none
deriving DecidableEq, Repr

/-- A partial sum of an output tile (R125): the piece's index and its place in the list of the job's pieces, whether it travels as
64-bit integers or as FP32 codes, and its values by cell. -/
structure PartialSum where
  tile : Nat
  piece : Nat
  place : Nat
  ints : Bool
  vals : Tab Int
deriving DecidableEq, Repr

/-- An admitted job (R183, R188, R190, R192): what its descriptor and commands say, its place in the order of admission, the
iteration and command it stands at, the pieces of the current command, the span and deadline offset, the deadline key, the CCLK
cycles since the SPAN with a piece running (R194), what the iteration's completion record will say, and the partial sums that have
arrived, in order of arrival (R125). -/
structure Job where
  seq : Nat
  id : Nat
  queue : Nat
  teach : Bool
  continuous : Bool
  iterRec : Bool
  asid : Nat
  slot : Nat
  csc : Option Nat
  iters : Nat
  seed : Nat
  est : Nat
  lanes : Nat
  cmds : List Command
  repro : Option Bool := none
  iter : Nat := 0
  pc : Nat := 0
  begun : Bool := false
  started : Bool := false
  pieces : List Piece := []
  span : Option (Nat × Nat × Nat) := none
  key : Option Int := none
  ran : Nat := 0
  sampledAt : Nat := 0
  heldFault : Bool := false
  faulted : Bool := false
  anyFault : Bool := false
  stop : Bool := false
  abort : Bool := false
  exc : Nat := 0
  preempt : Nat := 0
  overrun : Nat := 0
  cycles : Nat := 0
  shorten : Nat := 0
  split : Bool := false
  partials : List PartialSum := []
deriving DecidableEq, Repr

/-- The context resident on a Churn: its job (by order of admission), the place of its piece in the job's list, kind (1 LAYER,
2 KERNEL, 3 VCOMMIT), the start and length of its slice (XCLK periods), whether and since when it waits for a cheap point, since when a
slice has overrun, the save slot being written (and whether as a cheap-point save of some ranges) or restored from, a
translation fault met during a save, and since when its cycles are counted. -/
structure Resident where
  job : Nat
  piece : Nat
  kind : Nat
  sliceAt : Nat
  sliceLen : Nat := 0
  cheapWait : Option Nat := none
  overAt : Option Nat := none
  saving : Option Nat := none
  cheap : Option (List (Nat × Nat)) := none
  restoring : Option Nat := none
  fault : Option (List Byte) := none
  since : Nat := 0
deriving DecidableEq, Repr

/-- A Churn beside its local store (memory) and its registers: accumulators (96 bits), sticky bits and MX anchors by cell
(64 i + j), the reduction elements accumulated in the tile, readout latches by cell, the register file (physical register r
of lane l at 8,192 l + r), barrier arrivals by gang, and the resident context (R108 to R113, R120 to R122). -/
structure Churn where
  acc : Tab Nat := []
  sticky : Tab Nat := []
  anchor : Tab Int := []
  reduced : Nat := 0
  latch : Tab Nat := []
  rf : Tab Nat := []
  barrier : List Nat := []
  ctx : Option Resident := none
deriving DecidableEq, Repr

/-- What a save slot keeps of its context beside the bytes in the save area (R197, R205): the sequencer's state, and a
record that found the fault queue full (R167). -/
structure Saved where
  res : Resident
  reduced : Nat := 0
  latch : Tab Nat := []
  barrier : List Nat := []
  record : Option (List Byte) := none
deriving DecidableEq, Repr

/-! ### Teach (R290 to R310) -/

/-- A capture rule's counts since it was enabled (R290). -/
structure Rule where
  selected : Nat := 0
  taken : Nat := 0
deriving DecidableEq, Repr

/-- A closed block as the capture ring has it (R291): context, interval, settings, and the offset and length of its copy; the
length is 0 where the ring has no copy of it, or no longer has one. -/
structure RingCopy where
  ctx : Nat
  start : Nat
  fin : Nat
  ofs : Nat
  len : Nat
  cfg : Tab Nat
  pp : Tab Nat
deriving DecidableEq, Repr

/-- A batch under way (R305 to R308): queue, request bytes, slots still to decode, those of them whose sample has met an uncorrectable
memory error (R296); slots decoded, with status and slot-table entry. -/
structure Batch where
  queue : Nat
  req : List Byte
  left : List Nat
  struck : List Nat := []
  results : List (Nat × Nat × List Byte) := []
deriving DecidableEq, Repr

/-! ### Herd and Zanyx link (R313 to R335) -/

/-- What a Zanyx frame carries (R319). -/
inductive ZPayload where
  | idle (slp : Bool)
  | pos (f : PosFrame)
  | time (peer echo : Nat)
  | part (f : PartFrame)
  | verd (records : List VerdictRec)
  | mark (f : MarkFrame)
  | pres (pos lane : Nat) (present : Bool)
  | dict (req : DictReq) (response : Bool)
  | bulk (dpa sc : Nat) (sig : Bool) (block : List Byte)
  | hello (f : HelloFrame)
  | switch (slot pos : Nat)
deriving DecidableEq, Repr

/-- A frame: originator, destination, broadcast, payload. -/
structure ZFrame where
  src : Nat
  dst : Nat
  bc : Bool
  load : ZPayload
deriving DecidableEq, Repr

/-- A Zanyx port beside its registers: sequence numbers, the frames held in the replay buffer with their resends, frames
that wait, whether the next frame carries NAK, the device time of the latest TIME received, which the next TIME sent echoes, and
TIME frames since the port came up (R321, R322, R325). -/
structure ZPort where
  txSeq : Nat := 0
  rxSeq : Nat := 4095
  replay : List (Nat × Nat × ZFrame) := []
  waiting : List ZFrame := []
  nak : Bool := false
  echo : Nat := 0
  times : Nat := 0
deriving DecidableEq, Repr

/-- A herd member as the manager knows it (R314, R316, R334): the port and slots of its latest HELLO. -/
structure Member where
  port : Nat
  slots : List Nat
deriving DecidableEq, Repr

/-- The herd side of a module: members known, the latest POS, the herd position that may not decrease, the latest broadcast
sequence number seen, good POS frames since the loss, DOZE announced, the sequence number and the mark identifier to use next,
relayed requests. -/
structure Herd where
  members : Tab Member := []
  pos : Option PosFrame := none
  floor : Nat := 0
  seen : Option Nat := none
  goodPos : Nat := 0
  dozing : Bool := false
  bseq : Nat := 0
  relays : List (Nat × DictReq × Port) := []
  markId : Nat := 0
deriving DecidableEq, Repr

/-! ### Time (R338 to R351) -/

/-- A transmit stamp (R346). -/
structure TxStamp where
  seqId : Nat
  msgType : Nat
  port : Nat
  sgen : Nat
  time : Nat
  frac : Nat
deriving DecidableEq, Repr

/-- A time-triggered output (R350): the full device time of its next edge, if any, and whether its pulse is under way. -/
structure Tto where
  next : Option Nat := none
  active : Bool := false
deriving DecidableEq, Repr

/-- The time base beside its registers: the transmit stamps, the latest offset from the master in ns, and the parent port: the one
whose master the best-master algorithm selects. -/
structure TimeBase where
  txq : List TxStamp := []
  offset : Int := 0
  parent : Option Nat := none
deriving DecidableEq, Repr

/-! ### Dictionary service (R354 to R367) -/

/-- A response (R362, R364). -/
structure DictResp where
  op : Nat
  reqid : Nat
  index : Nat
  sub : Nat
  member : Nat
  offset : Nat
  flags : Nat
  status : Nat
  trx : Nat
  ttx : Nat
  data : List Byte
deriving DecidableEq, Repr

/-- A stored response (R365), with the port of its request and the request. -/
structure CacheEntry where
  src : Nat
  reqid : Nat
  port : Port
  req : DictReq
  resp : DictResp
deriving DecidableEq, Repr

/-- A WRITESEG sequence (R366): entry, source, bytes received. -/
structure Sequence where
  key : Nat
  port : Port
  src : Nat
  data : List Byte
deriving DecidableEq, Repr

/-- The dictionary service: stored responses, open sequences, the requests that wait for the end of a relay with their stamps of
receipt and whether their NVM store will fail (R365), event ring entries posted, whether a restore of defaults waits for
the next cold reset (R360), the field-die write of `IND_DATA` in progress (R375), the status of the latest write. -/
structure Service where
  cache : List CacheEntry := []
  seqs : List Sequence := []
  waiting : List (Nat × Port × DictReq × Bool) := []
  evtCount : Nat := 0
  restore : Bool := false
  ind : Option Nat := none
  lastStatus : Nat := 0
deriving DecidableEq, Repr

/-! ### Power, option bytes and Milkhouse (R380 to R425) -/

/-- The power state, and the states that `RCP_STATE` does not show (R390, R396): the entry of a reset, HALTED and Off. -/
inductive Power where
  | start | run | ready | doze | standby | recovery | resetting | halted | off
deriving DecidableEq, Repr

/-- An option-byte copy (R387, R415). -/
structure OptionCopy where
  good : Bool := true
  seq : Nat := 0
  failLim : Nat := 3
  startTmo : Nat := 30
  confMode : Nat := 0
  retain : Nat := 0
  active : Nat := 0
  tryBank : Nat := 0xFF
  rollback : Nat := 0
deriving DecidableEq, Repr

/-- A change of the option bytes that waits for its rewrite (R388). -/
structure OptionEdit where
  failLim : Option Nat := none
  startTmo : Option Nat := none
  confMode : Option Nat := none
  retain : Option Nat := none
  active : Option Nat := none
  tryBank : Option Nat := none
  rollback : Option Nat := none
  forUpdate : Bool := false
deriving DecidableEq, Repr

/-- The reset in progress or the latest one (R381): whether it is cold already, the stage in progress when it arrived, the low
time of RST_N, the slots to reload (R401), whether its start is a warm one, the failed-start count read at stage 2 (R389), whether a
trial bank runs (R415), whether the standby input is absent (R431), and whether every start leads to Recovery (R391). -/
structure ResetInfo where
  cold : Bool := false
  stage : Nat := 0
  lowTime : Nat := 0
  reload : List Nat := []
  warm : Bool := false
  failedStarts : Nat := 0
  trial : Bool := false
  unpowered : Bool := false
  recovery : Bool := false
deriving DecidableEq, Repr

/-- An event in the Tally queue (R408, R409), as it stood when it occurred. -/
structure TallyEvent where
  code : Nat
  flags : Nat
  pcyc : Nat
  ophr : Nat
  opms : Nat
  time : Nat
  partid : Nat
  unit : Nat
  v0 : Nat
  v1 : Nat
  v2 : Nat
deriving DecidableEq, Repr

/-- Milkhouse beside its registers: the Tally queue, the Tally region of NVM by slot (64 bytes, erased where unlisted),
a clear under way with the counts before it, the two banks, an image that is being written, option edits that wait, the two
option copies and the one in use since stage 1, CCLK in kHz and the ms that the junction has been cool, operating time in XCLK
periods and as stored, the fans that have failed, the update status, the Churns that a failed self-test holds. -/
structure Milkhouse where
  queue : List TallyEvent := []
  tally : Tab (List Byte) := []
  clearing : Option (Nat × Nat) := none
  bank0 : List Byte := []
  bank1 : List Byte := []
  image : Option (List Byte) := none
  edits : List OptionEdit := []
  optA : OptionCopy := {}
  optB : OptionCopy := {}
  opt : OptionCopy := {}
  cclk : Nat := 1500000
  cool : Nat := 0
  opTime : Nat := 0
  opStored : Nat := 0
  fanFail : Nat := 0
  updStatus : Nat := 0
  tests : Nat := 0
deriving DecidableEq, Repr

/-- The trace buffer (R421, R422): records by index with their device time, the records that wait in the FIFOs in order of
arrival, the records dropped and not yet reported by source, and the records still to take after the stop event. -/
structure Trace where
  buffer : Tab (Nat × TraceRec) := []
  fifos : List (Nat × TraceRec) := []
  owed : Tab Nat := []
  post : Option Nat := none
deriving DecidableEq, Repr

/-- What the module sends or drives, newest first: MSI-X messages, dictionary responses, camera control requests and
trigger packets, barrier frames, Zanyx frames with their bytes on the wire, power switches, read completions, writes to host memory. -/
inductive Out where
  | msix (vector : Nat)
  | response (port : Port) (resp : DictResp)
  | control (link : Nat) (req : ProxyReq)
  | trigger (link stamp delay : Nat)
  | outbound (payload crc : Nat)
  | inbound (payload crc : Nat)
  | zanyx (port seq ack : Nat) (nak rxup : Bool) (frame : ZFrame) (wire : List Byte)
  | powerSwitch (link : Nat) (closed : Bool)
  | barRead (data : List Byte)
  | hostWrite (addr : Nat) (data : List Byte)
  | indRead (data : Nat)
deriving DecidableEq, Repr

end Sys2Proof.Machine
end

