-- ==== Sys2Proof/Machine/State.lean ====
section
/-! DEFINITION. The state of the GN-E96: everything the module holds (`Dev`), and the queue of commands that wait for it. -/

namespace Sys2Proof.Machine

open Sys2Proof

/-- The module. `regs` holds every register field by `Field.key`, unlisted where it has its reset value; `voteB` and `voteC`
are the second and third copies of the voted fields (R376). `od` holds the dictionary values that no register mirrors, by
index × 256 + subindex, unlisted where the entry has its default (R354), `nvm` the class N store (R358). `mem` is Vat, local
stores and LPDDR5X by device physical address (R157), `bar` the byte windows of BAR0. `sync` are the sync counters (R201),
`counters` the observation counters (R423). `posted` are the
jobs that firmware has posted to queue 8, descriptor address and recipe slot, 8 for none (R189), `scrubLine` the Vat line that scrub
reads next (R176), `libUsed` the bytes of the library store in use (R292), `capUsed` the bytes that capture and the decoder have
moved in the present 10 µs (R309), `lastDec` the decode queue served last, `validating` the source and target slot of a validation run
(R310), `fixing`
whether fixed-schedule mode waits for every Churn to run (R219), `runHit` whether the present fixed-schedule run has been disturbed
(R225), `tlb` what the translation caches hold, newest first, and `invals` the scope, address space and page of the invalidations that
have begun (R166), `pcieUp` whether the PCIe link has trained (R436), `tickAt` and
`slotAt` the XCLK counts of the latest estimate tick and of the latest outbound frame (R17, R271), `slotPast` the slots that were
current before and the positions from which each was, newest first (R39), `pipesOn` the mask of the pipes whose clock has started
(R46), `lineSeq` the lines staged so far (R82). `free` counts the free values used: it is the model's own. -/
structure Dev where
  regs : Tab Nat := []
  voteB : Tab Nat := []
  voteC : Tab Nat := []
  od : Tab OdVal := []
  nvm : Tab NvmEntry := []
  mem : List Host.Cell := []
  bar : List Host.Cell := []
  sync : Tab Nat := []
  counters : Tab Nat := []
  free : Nat := 0
  power : Power := .start
  rst : ResetInfo := {}
  xclk : Nat := 0
  tickAt : Nat := 0
  slotAt : Nat := 0
  timeU : Nat := 0
  xclkOn : Bool := true
  tb : TimeBase := {}
  ttos : Tab Tto := []
  encs : Tab Encoder := []
  gens : Tab Generator := []
  trgs : Tab Trigger := []
  est : Estimator := {}
  lmOffset : Nat := 0
  peak : Nat := 0
  marks : List Mark := []
  lanes : Tab Lane := []
  parts : List Part := []
  nextId : Nat := 0
  lostIds : Option (Nat × Nat) := none
  slots : Tab RecipeSlot := []
  slotNow : Option Nat := none
  slotFrom : Nat := 0
  slotPast : List (Nat × Nat) := []
  slotNext : Option (Nat × Nat) := none
  fires : List Fire := []
  nextRun : Nat := 0
  barrier : Barrier := {}
  die : FieldDie := {}
  links : Tab Link := []
  ctxs : Tab StreamCtx := []
  pipes : Tab PipeSlot := []
  pipesOn : Nat := 0
  lineSeq : Nat := 0
  fusions : Tab Fusion := []
  churns : Tab Churn := []
  jobs : List Job := []
  jobSeq : Nat := 0
  lastQueue : Nat := 8
  lastTeach : Nat := 0
  saves : Tab Saved := []
  saveSeq : Nat := 0
  fixing : Bool := false
  runHit : Bool := false
  faultq : List (List Byte) := []
  posted : List (Nat × Nat) := []
  tlb : List Cached := []
  invals : List (Nat × Nat × Nat) := []
  scrubLine : Nat := 0
  pcieUp : Bool := false
  rules : Tab Rule := []
  ring : List RingCopy := []
  libUsed : Nat := 0
  batch : Option Batch := none
  lastDec : Nat := 1
  capUsed : Nat := 0
  validating : Option (Nat × Nat) := none
  herd : Herd := {}
  zports : Tab ZPort := []
  svc : Service := {}
  mlk : Milkhouse := {}
  trace : Trace := {}
  out : List Out := []
deriving DecidableEq, Repr

/-- The state: the module and the commands that wait for it, first in, first out. -/
structure State extends Dev where
  pending : List Instr := []
deriving DecidableEq, Repr

/-- Why a step stops with a fault: never. The spec gives every command that can arrive an effect, and a command whose operands no
wire can carry changes nothing (`State.run`). -/
inductive Fault
deriving DecidableEq, Repr

/-- Why a step refuses a command. -/
inductive Refusal where
  /-- Raised by `exec` for a command that has no meaning yet. Safe: nothing is claimed of it. -/
  | notModelled (mnemonic : String)
deriving DecidableEq, Repr

/-- The module right after POR (R8, R382, R384): every field at its reset value, stage 1 of the start sequence, nothing in
Vat, NVM at its defaults, the firmware banks as delivered, and no command waiting. [DESIGN CHOICE, log 4] -/
def State.reset : State :=
  { mlk := { bank0 := Config.bankImage 0, bank1 := Config.bankImage 1 } }

end Sys2Proof.Machine
end

