-- ==== Sys2Proof/Machine/Ops.lean ====
section
/-! DEFINITION. The named operations over the state: register fields, memory, counters, sync counters, free values, device
time, the line-master position, the Tally queue. Every read and write of a register field goes through `Dev.rd` and
`Dev.wr`, every access to memory through `Dev.byteAt` and `Dev.putByte`. -/

namespace Sys2Proof.Machine

open Sys2Proof

/-! ### Register fields -/

/-- The key of instance `i` of a field in `Dev.regs`. -/
def Field.key (f : Field) (i : Nat) : Nat := f.ctorIdx * 1024 + i

/-- The fields that are stored three times and voted on (Access RWV, R376). -/
def Field.voted (f : Field) : Bool :=
  match f with
  | .GLB_MODE_FIXED | .GLB_MODE_REPRO | .FLD_SAFE_TMO | .FLD_OUT_EN | .FLD_SAFE => true
  | _ => false

/-- The majority of three copies; the reset value `r` where all three differ (R376). [DEDUCED, log 102] -/
def majority (a b c r : Nat) : Nat := if a = b then a else if a = c then a else if b = c then b else r

/-- The value of a field, within its width. -/
def Dev.rd (s : Dev) (f : Field) (i : Nat := 0) : Nat :=
  let d := fun _ : Nat => f.resetAt i
  wrap f.desc.width (if f.voted then
      majority (tabGet d s.regs (f.key i)) (tabGet d s.voteB (f.key i)) (tabGet d s.voteC (f.key i)) (f.resetAt i)
    else tabGet d s.regs (f.key i))

/-- Write a field: the value is cut to the field's width; a voted field takes it in all three copies (R376). -/
def Dev.wr (s : Dev) (f : Field) (i : Nat) (v : Nat) : Dev :=
  let d := fun _ : Nat => f.resetAt i
  let x := wrap f.desc.width v
  if f.voted then
    { s with
      regs := tabSet d s.regs (f.key i) x
      voteB := tabSet d s.voteB (f.key i) x
      voteC := tabSet d s.voteC (f.key i) x }
  else { s with regs := tabSet d s.regs (f.key i) x }

/-- A field read as a flag. -/
def Dev.flag (s : Dev) (f : Field) (i : Nat := 0) : Bool := s.rd f i != 0

/-- Write a flag. -/
def Dev.setFlag (s : Dev) (f : Field) (i : Nat) (b : Bool) : Dev := s.wr f i b.toNat

/-- Add one to a counter that stays at its maximum (R373). -/
def Dev.count (s : Dev) (f : Field) (i : Nat := 0) : Dev := s.wr f i (satSucc f.desc.width (s.rd f i))

/-- Add one to a counter that wraps. -/
def Dev.countMod (s : Dev) (f : Field) (i : Nat := 0) : Dev := s.wr f i (s.rd f i + 1)

/-- Or bits into a field. -/
def Dev.orBits (s : Dev) (f : Field) (i : Nat) (m : Nat) : Dev := s.wr f i (s.rd f i ||| m)

/-! ### Memory (R157) -/

def vatSize : Nat := 0x18000000
def lsBase : Nat := 0x20000000
def lsSize : Nat := 0x200000
def lpddrBase : Nat := 0x1000000000
def lpddrSize : Nat := 0x780000000

/-- The DPA lies in Vat. -/
def inVat (a : Nat) : Bool := decide (a < vatSize)
/-- The DPA lies in a local store. -/
def inLs (a : Nat) : Bool := decide (lsBase ≤ a ∧ a < lsBase + 16 * lsSize)
/-- The DPA lies in the usable part of the LPDDR5X. -/
def inLpddr (a : Nat) : Bool := decide (lpddrBase ≤ a ∧ a < lpddrBase + lpddrSize)
/-- The DPA exists (R157). -/
def dpaOk (a : Nat) : Bool := inVat a || inLs a || inLpddr a
/-- `len` bytes from `a` lie wholly in one range of R157. -/
def spanOk (a len : Nat) : Bool :=
  decide (a + len ≤ vatSize) || (decide (lsBase ≤ a) && decide (a + len ≤ lsBase + 16 * lsSize)) ||
    (decide (lpddrBase ≤ a) && decide (a + len ≤ lpddrBase + lpddrSize))

/-- What a byte of memory that nothing has written reads as. [DESIGN CHOICE, log 4] -/
def memUnlisted : Nat → Byte := fun _ => 0

/-- The byte at a DPA. -/
def Dev.byteAt (s : Dev) (a : Nat) : Byte := tabGet memUnlisted s.mem a

/-- Write the byte at a DPA; a DPA that does not exist keeps nothing (R157). -/
def Dev.putByte (s : Dev) (a : Nat) (b : Byte) : Dev :=
  if dpaOk a then { s with mem := tabSet memUnlisted s.mem a b } else s

/-- `len` bytes from `a` on. -/
def Dev.bytesAt (s : Dev) (a len : Nat) : List Byte := (rangeFrom a len).map fun k => s.byteAt k

/-- Write bytes from `a` on. -/
def Dev.putBytes (s : Dev) (a : Nat) : List Byte → Dev
  | [] => s
  | b :: bs => (s.putByte a b).putBytes (a + 1) bs

/-- The little-endian number of `len` bytes at `a`. -/
def Dev.leRead (s : Dev) (a len : Nat) : Nat := ofLe (s.bytesAt a len)

/-- Write a little-endian number of `len` bytes at `a`. -/
def Dev.leWrite (s : Dev) (a len v : Nat) : Dev := s.putBytes a (leBytes v len)

/-- Zero `len` bytes from `a` on. -/
def Dev.zeroBytes (s : Dev) (a len : Nat) : Dev :=
  { s with mem := tabClear s.mem fun k => decide (a ≤ k ∧ k < a + len) }

/-- The cells of memory in `[a, a + n)`. -/
def Dev.cellsIn (s : Dev) (a n : Nat) : List Host.Cell := s.mem.filter fun c => decide (a ≤ c.1 ∧ c.1 < a + n)

/-- Copy `n` bytes from `a` to `b`. [DESIGN CHOICE, log 4] -/
def Dev.copyBytes (s : Dev) (a b n : Nat) : Dev :=
  (s.cellsIn a n).foldl (fun (d : Dev) (c : Host.Cell) => d.putByte (c.1 - a + b) c.2) (s.zeroBytes b n)

/-- The byte of a BAR0 buffer window. -/
def Dev.barByte (s : Dev) (a : Nat) : Byte := tabGet memUnlisted s.bar a

/-- Write a byte of a BAR0 buffer window. -/
def Dev.putBar (s : Dev) (a : Nat) (b : Byte) : Dev := { s with bar := tabSet memUnlisted s.bar a b }

/-- Write bytes of a BAR0 buffer window. -/
def Dev.putBars (s : Dev) (a : Nat) : List Byte → Dev
  | [] => s
  | b :: bs => (s.putBar a b).putBars (a + 1) bs

/-- Bytes of a BAR0 buffer window. -/
def Dev.barBytes (s : Dev) (a len : Nat) : List Byte := (rangeFrom a len).map fun k => s.barByte k

/-! ### The Vat partition (R157, R161, R168) -/

/-- The position–time log: the first MiB of the system window. -/
def logBase : Nat := 0
/-- The Separator window: 4,096 KiB after the log. -/
def sepBase : Nat := 0x100000
/-- The fault area: 4,224 KiB after the Separator window. -/
def faultArea : Nat := 0x500000
/-- A save slot's size. -/
def saveSize : Nat := 0x420000
/-- The intake window's base. -/
def intakeBase : Nat := 0x1000000
/-- The intake window's size in bytes. -/
def Dev.intakeSize (s : Dev) : Nat := s.rd .MEM_PART0_INTAKE * 0x100000
/-- The number of save slots in force. -/
def Dev.slotCount (s : Dev) : Nat := s.rd .MEM_PART0_SLOTS
/-- The base of save slot `k`; `k` = 40 is the fault area. -/
def Dev.saveBase (s : Dev) (k : Nat) : Nat :=
  if k = 40 then faultArea else intakeBase + s.intakeSize + k * saveSize

/-! ### Tables -/

def Dev.enc (s : Dev) (ch : Nat) : Encoder := tabGet (fun _ => {}) s.encs ch
def Dev.setEnc (s : Dev) (ch : Nat) (e : Encoder) : Dev := { s with encs := tabSet (fun _ => {}) s.encs ch e }
def Dev.gen (s : Dev) (g : Nat) : Generator := tabGet (fun _ => {}) s.gens g
def Dev.setGen (s : Dev) (g : Nat) (e : Generator) : Dev := { s with gens := tabSet (fun _ => {}) s.gens g e }
def Dev.trg (s : Dev) (t : Nat) : Trigger := tabGet (fun _ => {}) s.trgs t
def Dev.setTrg (s : Dev) (t : Nat) (e : Trigger) : Dev := { s with trgs := tabSet (fun _ => {}) s.trgs t e }
def Dev.lane (s : Dev) (l : Nat) : Lane := tabGet (fun _ => {}) s.lanes l
def Dev.setLane (s : Dev) (l : Nat) (e : Lane) : Dev := { s with lanes := tabSet (fun _ => {}) s.lanes l e }
def Dev.slot (s : Dev) (k : Nat) : RecipeSlot := tabGet (fun _ => {}) s.slots k
def Dev.setSlot (s : Dev) (k : Nat) (e : RecipeSlot) : Dev := { s with slots := tabSet (fun _ => {}) s.slots k e }
def Dev.link (s : Dev) (n : Nat) : Link := tabGet (fun _ => {}) s.links n
def Dev.setLink (s : Dev) (n : Nat) (e : Link) : Dev := { s with links := tabSet (fun _ => {}) s.links n e }
def Dev.ctx (s : Dev) (c : Nat) : StreamCtx := tabGet (fun _ => {}) s.ctxs c
def Dev.setCtx (s : Dev) (c : Nat) (e : StreamCtx) : Dev := { s with ctxs := tabSet (fun _ => {}) s.ctxs c e }
def Dev.fusion (s : Dev) (f : Nat) : Fusion := tabGet (fun _ => {}) s.fusions f
def Dev.setFusion (s : Dev) (f : Nat) (e : Fusion) : Dev := { s with fusions := tabSet (fun _ => {}) s.fusions f e }
def Dev.churn (s : Dev) (n : Nat) : Churn := tabGet (fun _ => {}) s.churns n
def Dev.setChurn (s : Dev) (n : Nat) (e : Churn) : Dev := { s with churns := tabSet (fun _ => {}) s.churns n e }
def Dev.zport (s : Dev) (p : Nat) : ZPort := tabGet (fun _ => {}) s.zports p
def Dev.setZport (s : Dev) (p : Nat) (e : ZPort) : Dev := { s with zports := tabSet (fun _ => {}) s.zports p e }
def Dev.tto (s : Dev) (t : Nat) : Tto := tabGet (fun _ => {}) s.ttos t
def Dev.setTto (s : Dev) (t : Nat) (e : Tto) : Dev := { s with ttos := tabSet (fun _ => {}) s.ttos t e }
def Dev.rule (s : Dev) (r : Nat) : Rule := tabGet (fun _ => {}) s.rules r
def Dev.setRule (s : Dev) (r : Nat) (e : Rule) : Dev := { s with rules := tabSet (fun _ => {}) s.rules r e }

/-! ### Outputs, counters, sync counters, free values -/

/-- Send something: newest first. -/
def Dev.send (s : Dev) (o : Out) : Dev := { s with out := o :: s.out }

/-- An observation counter (R423). -/
def Dev.counter (s : Dev) (k : Nat) : Nat := tabGet (fun _ => 0) s.counters k

/-- Add `n` to observation counter `k`, modulo 2^64 (R423). -/
def Dev.observe (s : Dev) (k : Nat) (n : Nat := 1) : Dev :=
  { s with counters := tabSet (fun _ => 0) s.counters k (wrap 64 (s.counter k + n)) }

/-- A sync counter (R201). -/
def Dev.sc (s : Dev) (k : Nat) : Nat := tabGet (fun _ => 0) s.sync k

/-- Signal-add: modulo 2^64 (R201). -/
def Dev.scAdd (s : Dev) (k n : Nat) : Dev :=
  { s with sync := tabSet (fun _ => 0) s.sync k (wrap 64 (s.sc k + n)) }

/-- Reset a sync counter (R201). -/
def Dev.scZero (s : Dev) (k : Nat) : Dev := { s with sync := tabDrop s.sync k }

/-- The free value of width `w` that the next use of one takes. [DESIGN CHOICE, log 5] -/
def Dev.freeValue (s : Dev) (w : Nat) : Nat := wrap w (Config.freeNat s.free)

/-- A free value has been used. [DESIGN CHOICE, log 5] -/
def Dev.useFree (s : Dev) : Dev := { s with free := s.free + 1 }

/-- Store an exact result in a signed field of `w` bits of a 64-bit register; a result that does not fit is a free value
(the spec states none), sign-extended as the register is (R21). -/
def Dev.putSigned (s : Dev) (f : Field) (i w : Nat) (z : Int) : Dev :=
  if fitsS w z then s.wr f i (unsgn 64 z) else (s.wr f i (unsgn 64 (sgn w (s.freeValue w)))).useFree

/-! ### Dictionary values (the table itself is in Machine/OdTable.lean) -/

def odKey (index sub : Nat) : Nat := index * 256 + sub

/-- The number stored for an entry, `d` where none is stored. -/
def Dev.odNum (s : Dev) (index sub d : Nat) : Nat :=
  match tabFind? s.od (odKey index sub) with
  | some (.num n) => n
  | _ => d

/-- The bytes stored for an entry. -/
def Dev.odBytes (s : Dev) (index sub : Nat) : List Byte :=
  match tabFind? s.od (odKey index sub) with
  | some (.bytes b) => b
  | _ => []

/-- Store the number of an entry in force. -/
def Dev.setOd (s : Dev) (index sub n : Nat) : Dev := { s with od := tabPut s.od (odKey index sub) (.num n) }

/-- Store the bytes of an entry in force. -/
def Dev.setOdBytes (s : Dev) (index sub : Nat) (b : List Byte) : Dev :=
  { s with od := tabPut s.od (odKey index sub) (.bytes b) }

/-- Add one to a counting entry of class V. -/
def Dev.countOd (s : Dev) (index sub w : Nat) : Dev := s.setOd index sub (wrap w (s.odNum index sub 0 + 1))

/-! ### Power -/

/-- Inspection may run: Run, Ready or Doze (R396). -/
def Dev.live (s : Dev) : Bool := s.power == .run || s.power == .ready || s.power == .doze

/-- The encoder front ends count: every state but Standby and Off (R16, R232). -/
def Dev.counting (s : Dev) : Bool := s.power != .standby && s.power != .off

/-- Milkhouse firmware runs (R391, R396): not in Off, HALTED or the entry of a reset. -/
def Dev.firmware (s : Dev) : Bool := s.power != .off && s.power != .halted && s.power != .resetting && s.power != .start

/-! ### Device time (R338) -/

/-- A nanosecond of device time in the units of `Dev.timeU`. -/
def nsUnits : Nat := 2048000000000

/-- Full device time in ns, 64 bits. -/
def Dev.fullNs (s : Dev) : Nat := wrap 64 (s.timeU / nsUnits)

/-- Device time reduced to 40 bits. -/
def Dev.ns40 (s : Dev) : Nat := wrap 40 s.fullNs

/-- The signed rate in force, in 1/1,024 ppb. -/
def Dev.rate (s : Dev) : Int := sgn 32 (s.rd .TIM_RATE)

/-- The units that one XCLK period (2.5 ns) adds to device time at the rate in force. -/
def Dev.periodUnits (s : Dev) : Nat := (5 * (1024000000000 + s.rate)).toNat

/-- Full device time at an XCLK count, at the rate in force: before the present time for a hit that was issued meanwhile (R63). -/
def Dev.fullNsAt (s : Dev) (at_ : Nat) : Nat :=
  unsgn 64 (((s.timeU : Int) + ((at_ : Int) - (s.xclk : Int)) * (s.periodUnits : Nat)) / (nsUnits : Nat))

/-! ### The line master (R13 to R16, R315, R326) -/

def Dev.worker (s : Dev) : Bool := s.rd .HRD_CTL_ROLE == 2
def Dev.manager (s : Dev) : Bool := s.rd .HRD_CTL_ROLE == 1
def Dev.master (s : Dev) : Nat := s.rd .ENC_MSTAT_MASTER

/-- A worker's herd position: the latest POS carried on by its speed, never moving back while the line runs forward
(R326). -/
def Dev.herdPos (s : Dev) : Nat :=
  match s.herd.pos with
  | none => 0
  | some f =>
    if s.herd.dozing then s.herd.floor
    else
      let dt : Int := sgn 40 (s.ns40 + (2 ^ 40 - wrap 40 f.time))
      let p := moveBy f.pos (divToZero (sgn 64 f.speed * dt) 1000000000)
      if !(bit f.flags 0) && after s.herd.floor p then s.herd.floor else p

/-- The line-master position: the channel's position plus the difference kept at a change of line master (R14), or a
worker's herd position (R315). -/
def Dev.lmPos (s : Dev) : Nat :=
  if s.worker then s.herdPos else wrap 64 (s.rd .ENC_POS s.master + s.lmOffset)

/-- The direction flag shows reverse (R18). -/
def Dev.reverse (s : Dev) : Bool := s.flag .ENC_MSTAT_DIR

/-- The line counts as standing: stopped, or speed not valid (R19, R20). -/
def Dev.standing (s : Dev) : Bool := s.flag .ENC_MSTAT_STOP || !s.flag .ENC_MSTAT_SPDV

/-- A BiSS-C channel is the line master, so XCLK runs (R232, R397). [DEDUCED, log 18 and 114] -/
def Dev.bissMaster (s : Dev) : Bool := !s.worker && s.rd .ENC_CFG_TYPE s.master == 2

/-- The speed estimate, signed Q32.16 ct/s. -/
def Dev.speed (s : Dev) : Int := sgn 64 (s.rd .ENC_SPEED)
/-- The acceleration estimate, signed Q32.16 ct/s². -/
def Dev.accel (s : Dev) : Int := sgn 64 (s.rd .ENC_ACCEL)

/-- The stopped flag follows the speed estimate and the threshold of OD 0x4000:03 (R19). -/
def Dev.noteStop (s : Dev) : Dev :=
  s.setFlag .ENC_MSTAT_STOP 0 (decide (s.speed.natAbs ≤ 65536 * s.odNum 0x4000 3 100))

/-- The line-master position at the latest estimate tick (R20), the present one before the first. -/
def Dev.tickPos (s : Dev) : Nat := s.est.tickPos.getD s.lmPos

/-- The position of a generator's source: a channel, or the line master (R239). -/
def Dev.srcPos (s : Dev) (g : Nat) : Nat :=
  if s.rd .ENC_CG_CTL_SRC g = 4 then s.lmPos else s.rd .ENC_POS (s.rd .ENC_CG_CTL_SRC g)

/-! ### The Tally queue (R408 to R412, R423) -/

/-- XCLK periods in a millisecond and in an hour. -/
def periodsPerMs : Nat := 400000
def periodsPerHour : Nat := 1440000000000

/-- The event record of R408 as the state stands. [DEDUCED, log 123] -/
def Dev.tallyRecord (s : Dev) (code unit partid v0 v1 v2 : Nat) : TallyEvent :=
  { code := code
    flags := (s.flag .TIM_STAT_TSET).toNat + 2 * (s.power == .recovery).toNat
    pcyc := s.rd .TLY_PCYC
    ophr := wrap 32 (s.mlk.opTime / periodsPerHour)
    opms := s.mlk.opTime % periodsPerHour / periodsPerMs
    time := s.ns40
    partid := partid
    unit := unit
    v0 := wrap 64 v0
    v1 := wrap 64 v1
    v2 := wrap 64 v2 }

/-- The observation counters that select a Tally code count it (R423). -/
def Dev.observeCode (s : Dev) (code : Nat) : Dev :=
  if code = 0 then s
  else s.regs.foldl
    (fun d e => if e.1 / 1024 = Field.OBS_SEL.ctorIdx ∧ e.2 = code then d.observe (256 + e.1 % 1024) else d) s

/-- Stop trace capture: what waits in the FIFOs is not taken (R422). -/
def Dev.haltTrace (s : Dev) : Dev :=
  let s := s.setFlag .OBS_TRC_STAT_STOPPED 0 true
  { s with trace := { s.trace with post := none, fifos := [], owed := [] } }

/-- A Tally event of the stop code stops capture after `POST` further records (R422). -/
def Dev.traceTrigger (s : Dev) (code : Nat) : Dev :=
  if code ≠ 0 ∧ s.rd .OBS_TRC_STOP_STOPCODE = code ∧ s.flag .OBS_TRC_CTL_EN ∧ !s.flag .OBS_TRC_STAT_STOPPED then
    if s.rd .OBS_TRC_STOP_POST = 0 then s.haltTrace
    else { s with trace := { s.trace with post := some (s.rd .OBS_TRC_STOP_POST) } }
  else s

/-! ### Trace records (R421, R422) -/

/-- A source is selected for tracing: Churns by CHNMASK, then the scheduler, the Separator, the intake and Milkhouse by SRCX. -/
def Dev.traced (s : Dev) (src : Nat) : Bool :=
  if src < 16 then bit (s.rd .OBS_TRC_CTL_CHNMASK) src
  else decide (src < 20) && bit (s.rd .OBS_TRC_CTL_SRCX) (src - 16)

/-- Capture runs. -/
def Dev.tracing (s : Dev) : Bool := s.flag .OBS_TRC_CTL_EN && !s.flag .OBS_TRC_STAT_STOPPED

/-- The records of a source that wait in its FIFO. -/
def Trace.waiting (t : Trace) (src : Nat) : Nat := (t.fifos.filter fun e => e.2.src == src).length

/-- A selected source hands a record to its FIFO; one that finds the 16 places taken is dropped and counted (R422).
[DEDUCED, log 116] -/
def Dev.traceRecord (s : Dev) (r : TraceRec) : Dev :=
  if !s.tracing || !s.traced r.src then s
  else if s.trace.waiting r.src < 16 then
    { s with trace := { s.trace with fifos := s.trace.fifos ++ [(s.ns40, r)] } }
  else
    let n := tabGet (fun _ => 0) s.trace.owed r.src
    ({ s with trace := { s.trace with owed := tabPut s.trace.owed r.src (n + 1) } }).count .OBS_TRC_DROP_COUNT

/-- The machine hands over a record of its own (R421). -/
def Dev.traceNote (s : Dev) (src kind data : Nat) : Dev := s.traceRecord { src := src, kind := kind, data := wrap 64 data }

/-- The scheduler hands over an admission or a refusal; what stands in the Churn field of such a record is open (R421). -/
def Dev.traceAdmit (s : Dev) (kind id : Nat) : Dev :=
  if s.tracing && s.traced 16 then s.useFree.traceNote 16 kind (id % 2 ^ 32 + 2 ^ 32 * s.freeValue 8) else s

/-- An event joins the Tally queue; one that finds the queue full is dropped and counted (R409, R411). [DEDUCED, log 123] -/
def Dev.tally (s : Dev) (code : Nat) (unit : Nat := 0xFF) (partid : Nat := 0xFFFFFFFF) (v0 : Nat := 0) (v1 : Nat := 0) :
    Dev :=
  let s := ((s.observeCode code).traceNote 19 1 code).traceTrigger code
  if s.mlk.queue.length < 64 then
    { s with mlk := { s.mlk with queue := s.mlk.queue ++ [s.tallyRecord code unit partid v0 v1 0] } }
  else (s.setFlag .TLY_STAT_QOVF 0 true).count .TLY_DROP_CNT

end Sys2Proof.Machine
end

