-- ==== Sys2Proof/WellFormed.lean ====
section
/-! DEFINITION. Which commands can arrive: every operand in the range that its field, its frame or its pin gives it. A
command that fails `Instr.wf` cannot be sent, and its step changes nothing. Operands that the module itself checks
(a slot number out of range, a length it refuses) are not bounded here beyond the width in which they arrive. -/

namespace Sys2Proof

/-- `n` fits `w` bits. -/
def fitsU (w n : Nat) : Bool := decide (n < 2 ^ w)

def VerdictRec.wf (r : VerdictRec) : Bool :=
  fitsU 32 r.partid && fitsU 8 r.verdict && fitsU 8 r.lane && fitsU 8 r.member && fitsU 8 r.resv && fitsU 64 r.aux

def ZHdr.wf (h : ZHdr) : Bool := fitsU 12 h.seq && fitsU 12 h.ack && fitsU 6 h.src && fitsU 6 h.dst

def PosFrame.wf (f : PosFrame) : Bool :=
  fitsU 64 f.pos && fitsU 64 f.speed && fitsU 40 f.time && fitsU 8 f.flags && fitsU 16 f.bseq && fitsU 64 f.accel

def PartFrame.wf (f : PartFrame) : Bool :=
  fitsU 32 f.partid && fitsU 6 f.lane && fitsU 3 f.slot && fitsU 64 f.start && fitsU 64 f.fin

def MarkFrame.wf (f : MarkFrame) : Bool :=
  fitsU 64 f.start && fitsU 64 f.fin && fitsU 64 f.lanes && fitsU 8 f.code && fitsU 16 f.ident

def HelloFrame.wf (f : HelloFrame) : Bool :=
  fitsU 6 f.member && fitsU 2 f.role && decide (f.slots.length = 8) && f.slots.all fun n => fitsU 2 n

def DictReq.wf (r : DictReq) : Bool :=
  fitsU 16 r.magic && fitsU 8 r.version && fitsU 8 r.op && fitsU 32 r.reqid && fitsU 16 r.index && fitsU 8 r.sub &&
    fitsU 8 r.member && fitsU 32 r.offset && fitsU 32 r.length && fitsU 32 r.flags && decide (r.data.length ≤ 1400)

/-- The datagram's length agrees with its LENGTH field (R361, R363): a READSEG names the bytes wanted and carries none. -/
def DictReq.whole (r : DictReq) : Bool := if r.op = 4 then r.data.isEmpty else r.length == r.data.length

def RecipeImage.wf (i : RecipeImage) : Bool :=
  fitsU 32 i.build && fitsU 20 i.vatKiB && i.counters.all (fitsU 14) && fitsU 64 i.weightLen

def PtpMsg.wf (m : PtpMsg) : Bool := decide (m.port < 3) && fitsU 4 m.msgType && fitsU 16 m.seqId

def MapDesc.wf (m : MapDesc) : Bool :=
  fitsU 64 m.base && fitsU 64 m.expBase && fitsU 32 m.rowPitch && fitsU 32 m.planePitch && fitsU 32 m.sPlanePitch &&
    fitsU 16 m.w && fitsU 16 m.c && fitsU 32 m.h && fitsU 16 m.ringRows && fitsU 8 m.fmt && fitsU 8 m.layout

def Sensors.wf (x : Sensors) : Bool :=
  decide (x.temps.length = 32) && decide (x.volts.length = 16) && decide (x.amps.length = 4)

/-- The command can arrive. [DESIGN CHOICE, log 2] -/
def Instr.wf : Instr → Bool
  | .sincosSample _ a b p => decide (-2048 ≤ a ∧ a < 2048 ∧ -2048 ≤ b ∧ b < 2048) && decide (p < 4096)
  | .bissCycleComplete _ raw _ _ crc => fitsU 64 raw && fitsU 6 crc
  | .lineMasterChange _ v => fitsU 8 v
  | .deadlineReached p => fitsU 32 p
  | .partMaxLength _ p => fitsU 64 p
  | .recipeLoad _ _ i => i.wf
  | .recipeSwitch _ k => fitsU 8 k
  | .verdictRecord r => r.wf
  | .linkDeviceDetect _ r c => fitsU 4 r && fitsU 32 c
  | .eqUpdate _ a b c d => fitsU 25 a && fitsU 4 b && fitsU 8 c && fitsU 8 d
  | .proxyRead _ _ a n => fitsU 32 a && fitsU 16 n
  | .proxyWrite _ _ a n d => fitsU 32 a && fitsU 16 n && decide (d.length = n)
  | .proxyAck _ (.wait ms) => fitsU 16 ms
  | .proxyAck _ (.nack c) => fitsU 16 c
  | .proxyAck _ (.done d) => decide (d.length ≤ 256)
  | .streamPacket _ k _ c => fitsU 8 k &&
      (match c with
        | .header g => fitsU 16 g
        | .line l => l.all (fitsU 16)
        | .piece => true)
  | .bankSwitchArm _ g _ => fitsU 16 g
  | .matrixInstruction _ _ => true
  | .groupBarrier _ g => decide (g.gang < 256)
  | .dmaTransfer _ o _ => o.map.wf && decide (o.walkError.getD 0 < 5)
  | .convolution _ o => o.src.wf && o.dst.wf && o.wmap.wf
  | .pooling _ o => o.src.wf && o.dst.wf
  | .blockCrcResend src a n => fitsU 5 src && fitsU 37 a && decide (1 ≤ n)
  | .lpddrRefresh c _ => decide (c < 16)
  | .mmuInvalidate sc a => fitsU 2 sc && fitsU 4 a
  | .queueTailWrite _ _ t => fitsU 16 t
  | .synSignalAdd k => fitsU 14 k
  | .synReset k => fitsU 14 k
  | .synRdidxLatch k => fitsU 14 k
  | .libReserve n => fitsU 32 n
  | .batchRequest _ => true
  | .sampleDecodeDone k _ => fitsU 16 k
  | .validationStart _ v => fitsU 8 v
  | .validationComplete l => l.all fun x => fitsU 8 x.verdict
  | .pos _ h f => h.wf && f.wf
  | .time _ h a b _ => h.wf && fitsU 40 a && fitsU 40 b
  | .part _ h f => h.wf && f.wf
  | .verd _ h l => h.wf && (l.all VerdictRec.wf) && decide (1 ≤ l.length ∧ l.length ≤ 16)
  | .mark _ h f => h.wf && f.wf
  | .pres _ h p _ _ => h.wf && fitsU 64 p
  | .dict _ h r _ => h.wf && r.wf
  | .bulk _ h a k _ b => h.wf && fitsU 37 a && fitsU 14 k && decide (b.length = 128)
  | .hello _ h f => h.wf && f.wf
  | .switch _ h k p => h.wf && fitsU 3 k && fitsU 64 p
  | .idleFrame _ h _ => h.wf
  | .zanyxNak _ a => fitsU 12 a
  | .zanyxBadFrame _ k n ok => decide (k < 16 ∧ n < 32) && (decide (10 ≤ k) || decide (16 < n) || !ok)
  | .dictRelayTimeout r => fitsU 32 r
  | .timeStep _ z => decide (-(2 ^ 63) ≤ z ∧ z < 2 ^ 63)
  | .timeRateWrite _ z => decide (-(2 ^ 31) ≤ z ∧ z < 2 ^ 31)
  | .ptpMessage m => m.wf
  | .ptpGeneralMessage m p => m.wf && (match p with
      | some k => decide (k < 3)
      | none => true)
  | .dictRead _ r => r.wf && r.op == 1 && r.whole
  | .dictWrite _ r _ => r.wf && r.op == 2 && r.whole
  | .dictInfo _ r => r.wf && r.op == 3 && r.whole
  | .dictReadseg _ r => r.wf && r.op == 4 && r.whole
  | .dictWriteseg _ r _ => r.wf && r.op == 5 && r.whole
  | .segmentSequenceTimeout i k => fitsU 16 i && fitsU 8 k
  | .malformedDatagram (.badHeader _ r) => r.wf
  | .malformedDatagram (.queueFull p) => decide (p < 3)
  | .indDataWrite v => fitsU 32 v
  | .irqAck b => fitsU 32 b
  | .registerWrite _ a n v => fitsU 24 a && fitsU (8 * n) v
  | .failstartClear _ v => fitsU 8 v
  | .blockReset _ b => fitsU 8 b
  | .sensorRead x => x.wf
  | .selfTestDone _ _ k => fitsU 8 k
  | .traceRecord r => fitsU 8 r.src && fitsU 8 r.kind && fitsU 64 r.data
  | .stateFrame _ => true
  | .hostApertureAccess b2 a w n _ => decide (a + n ≤ if b2 then 2 ^ 29 else 2 ^ 30) && (match w with
      | some b => decide (b.length = n)
      | none => true)
  | .cheapPointReached _ l => l.all (fun e => decide (e.1 + e.2 ≤ 0x400000)) && decide ((l.map fun e => e.2).sum ≤ 65536)
  | .vectorInstruction _ o => decide (o.gang < 256) && fitsU 64 o.mask && fitsU 16 o.regs && fitsU 8 o.d && fitsU 8 o.a && fitsU 8 o.b &&
      fitsU 8 o.c && fitsU 32 o.imm
  | .takeover _ _ a b _ => decide (a ≤ b)
  | .encoderEdge _ _ | .zEdge _ | .bissCycleStart _ | .encoderFault _ | .encoderSignalLoss _ _ | .encFaultClear _
  | .estimateTick | .sepArmWrite _ _ | .lineStopRelease | .vcommit _ | .separatorMemoryError _ | .xclkStart
  | .compareHit _ | .cgArm _ | .cgDisarm _ | .triggerDelayExpiry _ | .triggerWidthExpiry _ | .uplinkTriggerSend _
  | .lockLoss _ | .pocxpDetect _ _ | .pocxpOvercurrent _ | .vpocLow | .proxyTimeout _ | .stopTimeout _ | .ctxCommit _
  | .ctxResync _ | .ppCommit _ | .fusionAbsence _ _ | .slotDispatch _ | .slotComplete _ _ | .convertInstruction _ _
  | .mxQuantise _ _ | .bfly4 _ _ | .bfly2 _ _ | .scrubAccess _ | .invalidateDone | .faultqPop | .churnClockGate _
  | .churnPowerGate _ | .churnPowerUpDone _ | .jobAdmit | .layer _ | .kernel _ | .wait _ | .waitSatisfied _ | .signal _
  | .scReset _ | .span _ | .iterationEnd _ | .pieceDispatch | .sliceEnd _ | .saveComplete _ _
  | .restoreComplete _ _ | .jobResume | .jobAbort | .jobStop | .sequencerHang _ | .churnBlockReset _ _
  | .fixedModeWrite _ _ | .reproModeWrite _ _ | .outboundFrameSlot | .tickEnqueue | .tickFrame _ | .regFrame _
  | .inboundStatusFrame _ | .inboundReadFrame _ | .tickEdge | .safeTimeout | .fieldSupplyLow | .fieldSupplyLoss
  | .fieldSupplyReturn | .inputChangeAccepted _ _ | .wireBreak _ | .wireBreakClear _ _ | .outputShortCircuit _
  | .outputOpenLoad _ | .groupOvercurrent _ | .indDataRead | .indTimeout | .batchComplete | .decoderCapWindow | .posSend
  | .timeSend | .helloSend | .zanyxLinkUp _ | .replayTimeout _ | .zanyxPortDown _ | .zanyxSleep _ | .zanyxWake _
  | .poslost | .workerLost _ | .timNsRead | .txqPop _ | .announceTimeout | .servoHandover _ _ | .ttoEnable _ _
  | .ttoEdge _ | .responseCacheExpiry _ _ | .mbxDoorbell | .snapshot | .voteCheck | .rstNLow | .coldResetEscalation
  | .rstNRelease _ | .por | .vstbyLoss | .vin12Loss | .vin12Return | .pcieReset | .startStageComplete _
  | .startConfirm _ | .startTimeout | .readyEntry | .dozeEntry | .demand | .enterStandby _ | .leaveStandby _
  | .enterOff _ | .restoreDefaults _ | .fanFailed _ | .tallyWrite | .tallyClear _ | .operatingHoursStore
  | .optionRewrite | .firmwareBankWrite _ | .maintenanceRequest _ _ | .maintenanceDue _ | .maintenanceEnd _
  | .linkLock _ | .ethLinkLoss _ | .ethLinkUp _ | .malformedDatagram .short | .malformedDatagram .misaddressed
  | .malformedDatagram .lengthMismatch | .barrierFrameCrcFail _ | .ttoWidthExpiry _ | .bissStartBitTimeout _
  | .fieldSupplyRestored | .pcieLinkTraining => true

end Sys2Proof
end

