-- ==== Sys2Proof/Machine/Flags.lean ====
section
/-! DEFINITION. The interrupt flags (R377, R378): which status bits make which MSI-X vector pending, and the messages that a
command's effect sends. -/

namespace Sys2Proof.Machine

open Sys2Proof

/-- Some instance below `n` of a flag is set. -/
def Dev.anyFlag (s : Dev) (f : Field) : Nat → Bool
  | 0 => false
  | n + 1 => s.flag f n || s.anyFlag f n

/-- A cause bit of vector `v` is set (the table of R377; the groups are the fields that the cited rules name). -/
def Dev.cause (s : Dev) (v : Nat) : Bool :=
  match v with
  | 0 => s.flag .MEM_ECC_STAT_CRCUE || s.flag .MEM_ECC_STAT_LUE || s.flag .MEM_ECC_STAT_VUE || s.flag .GLB_ERR_STAT_VOTFAIL
  | 1 => !s.faultq.isEmpty || s.flag .MMU_FAULTQ_CNT_OVF
  | 2 => s.flag .SEP_STAT_MEMERR || s.flag .SEP_STAT_QFULL || s.flag .SEP_STAT_OVFLIST || s.flag .SEP_STAT_MISS ||
      s.flag .SEP_STAT_LSTOP
  | 3 => s.anyFlag .ENC_STAT_FAULT 4 || s.anyFlag .ENC_STAT_DIRCHG 4
  | 4 => s.flag .ENC_MSTAT_DIRCHG
  | 5 => s.anyFlag .CXP_LNK_STAT_LOCKLOSS 24 || s.anyFlag .ITK_CTX_STAT_BROKEN 64
  | 6 => s.rd .FLD_WB != 0 || s.rd .FLD_SC != 0 || s.rd .FLD_OL != 0 || s.flag .FIO_LNK_STAT_RESTART ||
      s.flag .FIO_LNK_STAT_VOTERR || s.flag .FIO_LNK_STAT_LATE || s.flag .FIO_LNK_STAT_CRCERR
  | 7 => s.flag .TIM_STAT_STEPREF || s.flag .TIM_STAT_STEPPED || s.flag .TIM_TXQ_STAT_OVF ||
      s.anyFlag .TIM_TTO_STAT_CFGERR 8 || s.anyFlag .TIM_TTO_STAT_MISSED 8
  | 8 => s.flag .HRD_STAT_CFGERR || s.flag .HRD_STAT_MLOST || s.anyFlag .ZXL_STAT_DOWN 4
  | 9 => s.flag .TCH_STAT_CAPLOST || s.flag .TCH_STAT_CAPMISS || s.flag .TCH_STAT_LIBFULL
  | 10 => s.flag .MLK_MBX_STAT_DONE
  | 11 => s.flag .TLY_STAT_DAMAGED || s.flag .TLY_STAT_QOVF
  | 12 => s.flag .RCP_STAT_NVMERR || s.flag .RCP_STAT_OBERR || s.flag .RCP_STAT_OBFIX || s.flag .RCP_STAT_BRSTERR ||
      s.flag .RCP_STAT_STBYABT
  | 14 => s.flag .OBS_TRC_STAT_STOPPED || s.flag .OBS_TRC_STAT_WRAPPED
  | _ => false

/-- Vector `v` is enabled. -/
def Dev.irqEnabled (s : Dev) (v : Nat) : Bool := bit (s.rd .GLB_IRQ_EN) v

/-- Vector `v` is pending (R378). -/
def Dev.irqPending (s : Dev) (v : Nat) : Bool := s.irqEnabled v && s.cause v

/-- Send the message of a vector from 0 to 15 for an event that has no status bit, if the vector is enabled (R377).
[DEDUCED, log 104] -/
def Dev.raiseVec (s : Dev) (v : Nat) : Dev := if s.irqEnabled v then s.send (.msix v) else s

/-- Send the message of every vector that has become pending since `before` (R378). [DEDUCED, log 104] -/
def Dev.notify (s before : Dev) : Dev :=
  (rangeFrom 0 16).foldl (fun d v => if s.irqPending v && !before.irqPending v then d.send (.msix v) else d) s

/-- A command that can arrive has its effect on the module, with the messages it gives rise to; the queue of commands is
left alone. Of one that cannot, nothing arrives: the module stays as it is. [DESIGN CHOICE, log 2] -/
def State.run (s : State) (c : Instr) (f : Dev → Dev) : Host.Outcome State Fault Refusal :=
  .next (if c.wf then { s with toDev := (f s.toDev).notify s.toDev } else s)

end Sys2Proof.Machine
end

