-- ==== Sys2Proof/Machine/Link.lean ====
section
/-! DEFINITION. Sending over the Zanyx link (R317 to R323, R333): sequence numbers, the replay buffer, the ports a frame
leaves by. -/

namespace Sys2Proof.Machine

open Sys2Proof

/-- The payload length of a frame, in bytes (R319). -/
def ZPayload.size : ZPayload → Nat
  | .idle _ => 0
  | .pos _ => 32
  | .time _ _ => 16
  | .part _ => 32
  | .verd rs => 16 * rs.length
  | .mark _ => 32
  | .pres _ _ _ => 16
  | .dict r _ => 16 * min 16 ((48 + r.data.length + 15) / 16)
  | .bulk _ _ _ _ => 144
  | .hello _ => 16
  | .switch _ _ => 16

/-- The bytes of a frame: header, payload, trailer (R318). -/
def ZFrame.size (f : ZFrame) : Nat := 16 + f.load.size

/-- Whether frames of this kind carry a sequence number (the Seq. column of R319). -/
def ZPayload.sequenced : ZPayload → Bool
  | .idle _ | .pos _ | .time _ _ => false
  | _ => true

/-- The bytes held in a port's replay buffer. -/
def ZPort.held (p : ZPort) : Nat := (p.replay.map fun e => e.2.2.size).foldl (· + ·) 0

/-! ### Bits on the wire (R318, R319) -/

/-- `n` bytes of a payload whose layout R319 does not give. [DEDUCED, log 135] -/
def looseBytes (content : List Nat) (n : Nat) : List Byte :=
  (rangeFrom 0 n).map fun k => BitVec.ofNat 8 (Config.payloadByte content k)

/-- The 16 bytes of a verdict record (R249). -/
def verdictBytes (r : VerdictRec) : List Byte :=
  leBytes r.partid 4 ++ leBytes r.verdict 1 ++ leBytes r.lane 1 ++ leBytes r.member 1 ++ leBytes r.resv 1 ++ leBytes r.aux 8

/-- The header and the data of a dictionary message (R362). -/
def dictBytes (r : DictReq) : List Byte :=
  leBytes r.magic 2 ++ leBytes r.version 1 ++ leBytes r.op 1 ++ leBytes r.reqid 4 ++ leBytes r.index 2 ++ leBytes r.sub 1 ++
    leBytes r.member 1 ++ leBytes r.offset 4 ++ leBytes r.length 4 ++ leBytes r.flags 1 ++ leBytes r.resv 1 ++ leBytes 0 26 ++ r.data

/-- The payload of a frame, padded with zeros to whole units of 16 bytes (R319); of a dictionary message that needs more than one frame,
the first. [DEDUCED, log 135] -/
def ZPayload.bytes : ZPayload → List Byte
  | .idle _ => []
  | .pos f => leBytes f.pos 8 ++ leBytes f.speed 8 ++ leBytes f.time 5 ++ leBytes f.flags 1 ++ leBytes f.bseq 2 ++ leBytes f.accel 8
  | .time t e => looseBytes [t, e] 16
  | .part f =>
    leBytes f.partid 4 ++ leBytes f.lane 1 ++ leBytes f.slot 1 ++ leBytes f.close.toNat 2 ++ leBytes f.start 8 ++
      leBytes (if f.close then f.fin else 2 ^ 64 - 1) 8 ++ leBytes 0 8
  | .verd l => l.flatMap verdictBytes
  | .mark f =>
    leBytes f.start 8 ++ leBytes f.fin 8 ++ leBytes f.lanes 8 ++ leBytes f.code 2 ++ leBytes f.ident 2 ++ leBytes 0 4
  | .pres p l on => leBytes p 8 ++ leBytes l 1 ++ leBytes on.toNat 7
  | .dict r _ => padTo (16 * min 16 ((48 + r.data.length + 15) / 16)) ((dictBytes r).take 256)
  | .bulk d sc sig b => leBytes d 8 ++ leBytes (sc % 2 ^ 14 + 2 ^ 15 * sig.toNat) 8 ++ padTo 128 (b.take 128)
  | .hello f => leBytes 1 1 ++ looseBytes ([f.member, f.role, f.tsync.toNat] ++ f.slots) 15
  | .switch k p => leBytes 2 1 ++ looseBytes [k, p] 15

/-- The type of a frame (R319). -/
def ZPayload.typ : ZPayload → Nat
  | .idle _ => 0 | .pos _ => 1 | .time _ _ => 2 | .part _ => 3 | .verd _ => 4 | .mark _ => 5 | .pres _ _ _ => 6
  | .dict _ _ => 7 | .bulk _ _ _ _ => 8 | .hello _ => 9 | .switch _ _ => 9

/-- The header of a frame (R318). -/
def ZFrame.head (f : ZFrame) (seq ack : Nat) (nak rxup : Bool) : Nat :=
  let slp := match f.load with
    | .idle b => b
    | _ => false
  f.load.typ * 2 ^ 60 + seq % 4096 * 2 ^ 48 + ack % 4096 * 2 ^ 36 + nak.toNat * 2 ^ 35 + rxup.toNat * 2 ^ 34 + f.src % 64 * 2 ^ 28 +
    f.dst % 64 * 2 ^ 22 + f.bc.toNat * 2 ^ 21 + f.load.bytes.length / 16 % 32 * 2 ^ 16 + slp.toNat * 2 ^ 15

/-- A frame as it goes over the wire: header, payload, and a trailer with their CRC-32 (R318). [DEDUCED, log 135] -/
def ZFrame.wire (f : ZFrame) (seq ack : Nat) (nak rxup : Bool) : List Byte :=
  let b := leBytes (f.head seq ack nak rxup) 8 ++ f.load.bytes
  b ++ leBytes (crc32 b) 4 ++ leBytes 0 4

/-! ### Sending (R319, R321, R322) -/

/-- A frame leaves by a port, with the acknowledgement of what has arrived there, the NAK that is owed and `RXUP` (R318,
R322). -/
def Dev.emit (s : Dev) (p seq : Nat) (f : ZFrame) : Dev :=
  let q := s.zport p
  let up := s.flag .ZXL_STAT_RXUP p
  (s.setZport p { q with nak := false }).send (.zanyx p seq q.rxSeq q.nak up f (f.wire seq q.rxSeq q.nak up))

/-- The priority of a frame (R319). -/
def ZPayload.priority : ZPayload → Nat
  | .pos _ | .time _ _ => 1
  | .dict _ _ => 3
  | .idle _ => 4
  | .bulk _ _ _ _ => 5
  | _ => 2

/-- A frame must wait: its direction sleeps, or it is sequenced and the port is down, the 64 KiB replay buffer has no room for
it, or one of its priority or a higher one waits already (R319, R321 to R323). [DEDUCED, log 78] -/
def Dev.mustWait (s : Dev) (p : Nat) (f : ZFrame) : Bool :=
  let q := s.zport p
  s.flag .ZXL_STAT_TXSLEEP p ||
    (f.load.sequenced && (!s.flag .ZXL_STAT_UP p || decide (65536 < q.held + f.size) ||
      q.waiting.any fun g => decide (g.load.priority ≤ f.load.priority)))

/-- Send a frame on a port, or let it wait: a sequenced one takes the next number and is kept for replay. Only an up port sends
frames other than IDLE (R321). [DEDUCED, log 78] -/
def Dev.zSend (s : Dev) (p : Nat) (f : ZFrame) : Dev :=
  let q := s.zport p
  if s.mustWait p f then s.setZport p { q with waiting := q.waiting ++ [f] }
  else if f.load.sequenced then
    (s.setZport p { q with txSeq := (q.txSeq + 1) % 4096, replay := q.replay ++ [(q.txSeq, 0, f)] }).emit p q.txSeq f
  else if s.flag .ZXL_STAT_UP p || f.load.priority == 4 then s.emit p 0 f
  else s

/-- The port toward the manager: ZP0, or ZP1 of a ring whose ZP0 is down (R317, R333). [DEDUCED, log 78] -/
def Dev.upstream (s : Dev) : Nat :=
  if s.rd .HRD_CTL_TOPO = 1 ∧ !s.flag .ZXL_STAT_UP 0 ∧ s.flag .ZXL_STAT_UP 1 then 1 else 0

/-- The port that leads to a member: upstream for the manager, the port on which its HELLO frames arrive for a member beyond
this one, upstream for any other member seen from a worker (R317). -/
def Dev.routeTo (s : Dev) (m : Nat) : Option Nat :=
  match tabFind? s.herd.members m with
  | some e => some e.port
  | none => if s.worker then some s.upstream else none

/-- This module's member number: 0 on the manager and on a standalone module (R314). -/
def Dev.memberNo (s : Dev) : Nat := if s.worker then s.rd .HRD_CTL_MEMBER else 0

/-- Send to every enabled port but one. -/
def Dev.zBroadcast (s : Dev) (except : Option Nat) (f : ZFrame) : Dev :=
  (rangeFrom 0 4).foldl
    (fun d p => if d.flag .ZXL_CTL_EN p && except != some p then d.zSend p f else d) s

/-- The manager sends a payload to every member. -/
def Dev.toAll (s : Dev) (l : ZPayload) : Dev :=
  s.zBroadcast none { src := s.memberNo, dst := 0, bc := true, load := l }

/-- A worker sends a payload to the manager. -/
def Dev.toManager (s : Dev) (l : ZPayload) : Dev :=
  s.zSend s.upstream { src := s.memberNo, dst := 0, bc := false, load := l }

end Sys2Proof.Machine
end

