-- ==== Sys2Proof/Machine/Parts.lean ====
section
/-! DEFINITION. Parts and verdicts (R24 to R41, R249 to R252): ranks, intervals and marks, opening and closing parts, the
deadline, merging verdict records, recipe switching. -/

namespace Sys2Proof.Machine

open Sys2Proof

/-! ### Verdict codes (R31) -/

/-- One more than the rank of a code; 0 for NONE, which every code replaces. -/
def rankOf (code : Nat) : Nat :=
  if code = 0xFF then 0
  else if code = 0xE1 then 225
  else if code = 0xE2 then 226
  else if code = 0xE0 then 227
  else if code = 0xE4 then 228
  else if code = 0xE3 then 229
  else code + 1

/-- The code kept of two: the one of higher rank (R31). -/
def mergeCode (old new : Nat) : Nat := if rankOf old < rankOf new then new else old

/-! ### The part table -/

/-- Change the part with an identifier. -/
def Dev.updPart (s : Dev) (id : Nat) (f : Part → Part) : Dev :=
  { s with parts := s.parts.map fun p => if p.id = id then f p else p }

/-- The part with an identifier, in the table or in the overflow list. -/
def Dev.part? (s : Dev) (id : Nat) : Option Part := s.parts.find? fun p => p.id == id

/-- Parts in the table. -/
def Dev.inTable (s : Dev) : Nat := (s.parts.filter fun p => !p.ovf).length
/-- Parts in the overflow list. -/
def Dev.inOverflow (s : Dev) : Nat := (s.parts.filter fun p => p.ovf).length

/-- The deadline of a closed part: end + *D* (R34). -/
def Dev.deadline (s : Dev) (p : Part) : Option Nat := p.fin.map fun e => wrap 64 (e + cts (s.slot p.slot).d)

/-- The line-master position has reached the deadline, now or before (R34). -/
def Dev.pastDeadline (s : Dev) (p : Part) : Bool :=
  p.dead || (match s.deadline p with
    | some d => atOrAfter s.lmPos d
    | none => false)

/-- A part's interval intersects [a, b); an open part and an open interval have no end yet (R73, R234). [DEDUCED, log 34] -/
def Part.meets (p : Part) (a : Nat) (b : Option Nat) : Bool :=
  (match b with
    | some e => after e p.start
    | none => true) &&
  (match p.fin with
    | some e => after e a
    | none => true)

/-- Merge a device code into a part (R33, R251). -/
def Part.take (p : Part) (code : Nat) : Part := { p with verd := mergeCode p.verd code }

/-- What a mark does to a part it meets: its code by rank; for a fault in work, the part receives FAULT only if it misses
its deadline (R192, R329). -/
def Part.marked (p : Part) (code : Nat) : Part :=
  if code = 0xE2 then { p with workFault := true } else p.take code

/-- Apply an interval's code to every part that it meets on its lanes. -/
def Dev.applyMark (s : Dev) (lanes a : Nat) (b : Option Nat) (code : Nat) : Dev :=
  { s with parts := s.parts.map fun p => if bit lanes p.lane && p.meets a b then p.marked code else p }

/-- The codes of every mark that meets a part (R73, R234, R329). -/
def Dev.marksOn (s : Dev) (p : Part) : Part :=
  s.marks.foldl (fun q m => if bit m.lanes q.lane && q.meets m.start m.fin then q.marked m.code else q) p

/-- Open a mark: it reaches the parts in flight at once and stays for those that open later. A worker sends it to the
manager, which applies it (R329). [DEDUCED, log 34] -/
def Dev.openMark (s : Dev) (m : Mark) : Dev :=
  let id := s.herd.markId
  let s := { s with marks := { m with ident := id } :: s.marks }
  if s.worker then
    let s := { s with herd := { s.herd with markId := wrap 16 (id + 1) } }
    s.toManager (.mark { start := m.start, fin := m.fin.getD (2 ^ 64 - 1), lanes := m.lanes, code := m.code, ident := id })
  else s.applyMark m.lanes m.start m.fin m.code

/-- Close the open marks of a source at a position (R74, R235). -/
def Dev.closeMark (s : Dev) (src : MarkSource) (fin : Nat) : Dev :=
  let opened : List Mark := s.marks.filter fun (m : Mark) => m.source == src && m.fin.isNone
  let s := { s with marks := s.marks.map fun (m : Mark) => if m.source == src && m.fin.isNone then { m with fin := some fin } else m }
  if s.worker then
    opened.foldl (fun (d : Dev) (m : Mark) =>
      d.toManager (.mark { start := m.start, fin := fin, lanes := m.lanes, code := m.code, ident := m.ident })) s
  else s

/-! ### Recipe slots and switching (R37 to R40) -/

/-- A slot becomes ACTIVE; firmware then posts its standing jobs to queue 8 (R189). -/
def Dev.activate (s : Dev) (k : Nat) : Dev :=
  let jobs := match (s.slot k).image with
    | some i => i.standing
    | none => []
  let s := if (s.slot k).st = 3 then s
    else { s.wr .JOB_Q_TAIL 8 (s.rd .JOB_Q_TAIL 8 + jobs.length) with posted := s.posted ++ jobs.map fun a => (a, k) }
  s.setSlot k { s.slot k with st := 3, posted := true }

/-- Firmware stops the standing jobs of a slot: those not yet admitted leave the queue, the others end with their iteration
(R189, R190). -/
def Dev.stopStanding (s : Dev) (k : Nat) : Dev :=
  let gone := (s.posted.filter fun e => e.2 == k).length
  { s.wr .JOB_Q_TAIL 8 (s.rd .JOB_Q_TAIL 8 + 65536 - gone % 65536) with
    posted := s.posted.filter fun e => e.2 != k
    jobs := s.jobs.map fun (j : Job) => if j.queue = 8 ∧ j.slot = k ∧ !j.teach then { j with stop := true } else j }

/-- The position from which a slot was superseded as the current one, none for the current slot and one that never was. -/
def Dev.slotUntil (s : Dev) (k : Nat) : Option Nat :=
  if s.slotNow = some k then none
  else
    let past := s.slotPast.takeWhile fun e => e.1 != k
    if past.length = s.slotPast.length then none
    else some (match past.getLast? with
      | some e => e.2
      | none => s.slotFrom)

/-- A slot that is no longer current returns to READY once its last part has left the table (R39): not before the line master has
come to the position from which another slot is current, since parts may still start before it. [DEDUCED, log 21] -/
def Dev.retire (s : Dev) (k : Nat) : Dev :=
  if (s.slot k).st = 3 ∧ s.slotNow ≠ some k ∧ !(s.parts.any fun p => p.slot == k) ∧
      (s.slotUntil k).all (fun p => atOrAfter s.lmPos p) then
    (s.setSlot k { s.slot k with st := 2, posted := false }).stopStanding k
  else s

/-- Every slot that may return to READY does (R39). -/
def Dev.retireSlots (s : Dev) : Dev := (upTo 8).foldl (fun d k => d.retire k) s

/-- A slot is loaded afresh: no part can start under what it held. -/
def Dev.forgetSlot (s : Dev) (k : Nat) : Dev := { s with slotPast := s.slotPast.filter fun e => e.1 != k }

/-- The pending switch takes effect (R39). -/
def Dev.takeSwitch (s : Dev) : Dev :=
  match s.slotNext with
  | none => s
  | some (k, pos) =>
    let past := match s.slotNow with
      | some o => (o, s.slotFrom) :: s.slotPast
      | none => s.slotPast
    let s := { s with slotPast := past, slotNow := some k, slotFrom := pos, slotNext := none }
    (s.activate k).retireSlots

/-- The pending switch takes effect once the line master has reached its position. [DEDUCED, log 21] -/
def Dev.switchIfReached (s : Dev) : Dev :=
  match s.slotNext with
  | some (_, pos) => if atOrAfter s.lmPos pos then s.takeSwitch else s
  | none => s

/-- The first part start at or past the pending position brings the switch into effect (R40). [DEDUCED, log 21] -/
def Dev.switchFor (s : Dev) (start : Nat) : Dev :=
  let s := s.switchIfReached
  match s.slotNext with
  | some (_, pos) => if atOrAfter start pos then s.takeSwitch else s
  | none => s

/-- The slot under which a part with this start runs (R39): the latest that was current from the start or before it; none for a
start before the first switch. [DEDUCED, log 21] -/
def Dev.slotFor (s : Dev) (start : Nat) : Option Nat :=
  match s.slotNow with
  | none => none
  | some k =>
    if !after s.slotFrom start then some k
    else (s.slotPast.find? fun e => !after e.2 start).map fun e => e.1

/-! ### Opening and closing parts (R26 to R29) -/

/-- The next identifier: 0xFFFF_FFFF is never assigned (R27). -/
def nextPartId (n : Nat) : Nat := if n ≥ 0xFFFFFFFE then 0 else n + 1

/-- The number of lanes (R24). -/
def Dev.laneCount (s : Dev) : Nat := s.odNum 0x4001 1 1

/-- Drive the line-stop output until it is released (R265). -/
def Dev.driveStop (s : Dev) : Dev := s.setFlag .SEP_STAT_LSTOP 0 true

/-- The part-detect input of a lane, if it has one (R25). -/
def Dev.detectInput (s : Dev) (l : Nat) : Option Nat :=
  if s.odNum (0x4010 + l) 1 0 = 1 then some (s.odNum (0x4010 + l) 2 0) else none

/-- The barrier offset of a lane, in ct (R25). -/
def Dev.laneOffset (s : Dev) (l : Nat) : Int := sgn 32 (s.odNum (0x4010 + l) 3 0)

/-- The manager tells its workers of a part's open or close (R328); none for a part of the overflow list. -/
def Dev.announce (s : Dev) (p : Part) (close : Bool) : Dev :=
  if s.manager && !p.ovf then
    s.toAll (.part { partid := p.id, lane := p.lane, slot := p.slot, close := close, start := p.start,
                     fin := p.fin.getD (2 ^ 64 - 1) })
  else s

/-- A part enters the table, or the overflow list when the table is full; when both are full it is not tracked (R29).
[DEDUCED, log 20] -/
def Dev.trackPart (s : Dev) (l start k : Nat) : Dev :=
  let full := decide (16384 ≤ s.inTable)
  if full && decide (256 ≤ s.inOverflow) then
    ((s.setFlag .SEP_STAT_OVFLIST 0 true).driveStop).tally 0x0040 l 0xFFFFFFFF start
  else
    let p := s.marksOn { id := s.nextId, lane := l, start := start, slot := k, ovf := full,
                         flags := if full then 16 else 0 }
    let s := { s with parts := s.parts ++ [p], nextId := nextPartId s.nextId }
    let s := s.setLane l { s.lane l with openPart := some p.id }
    let s := if full then s.tally 0x0040 l p.id start else s
    s.announce p false

/-- A part opens on a lane at a position (R26): not while the line reverses, not while the lane waits for absence (R28) or
its part-detect input is broken (R285), and only under a recipe slot. [DEDUCED, log 20] -/
def Dev.openPart (s : Dev) (l start : Nat) (broken : Bool) : Dev :=
  if s.reverse || broken || (s.lane l).blocked || (s.lane l).openPart.isSome || decide (s.laneCount ≤ l) then s
  else
    let s := s.switchFor start
    match s.slotFor start with
    | none => s
    | some k => s.trackPart l start k

/-- The open part of a lane closes at a position, with a device code if one is given; a part of the overflow list receives
OVERLONG (R28, R29). Whether a fault in work meets the part is judged anew, now that its end is known (R192). -/
def Dev.closePart (s : Dev) (l fin : Nat) (code : Option Nat) : Dev :=
  match (s.lane l).openPart with
  | none => s
  | some id =>
    let s := s.setLane l { s.lane l with openPart := none }
    let s := s.updPart id fun p =>
      let p := { p with fin := some fin, workFault := false }
      let p := match code with
        | some c => p.take c
        | none => p
      s.marksOn (if p.ovf then p.take 0xE4 else p)
    match s.part? id with
    | some p => s.announce p true
    | none => s

/-- Presence changes on a lane at a position: a rise opens a part, a fall closes the open one and ends the wait for absence
(R26, R28). [DESIGN CHOICE, log 31] -/
def Dev.presence (s : Dev) (l pos : Nat) (on broken : Bool) : Dev :=
  let s := s.setLane l { s.lane l with present := on }
  if on then s.openPart l pos broken
  else
    let s := s.closePart l pos none
    s.setLane l { s.lane l with blocked := false }

/-- The open part of a lane has reached the maximum length: it closes at start + maximum with OVERLONG, and the lane waits
for absence (R28). -/
def Dev.overlong (s : Dev) (l : Nat) (p : Part) : Dev :=
  let s := s.closePart l (wrap 64 (p.start + cts (s.slot p.slot).maxLen)) (some 0xE4)
  s.setLane l { s.lane l with blocked := true }

/-! ### Deadlines and verdict records -/

/-- The deadline of a part is reached: NONE becomes FAULT if the part's work met a fault, else LATE (R34). -/
def Part.expire (p : Part) : Part :=
  { p with dead := true, verd := if p.verd = 0xFF then (if p.workFault then 0xE2 else 0xE1) else p.verd }

/-- A program record merged into its part (R31, R32, R252). -/
def Part.merge (p : Part) (verdict aux : Nat) : Part :=
  let p := { p with recs := satSucc 16 p.recs }
  if 0xE0 ≤ verdict then p.take 0xE2
  else
    let p := p.take verdict
    if rankOf p.pverd < rankOf verdict then { p with pverd := verdict, aux := aux } else p

/-- A verdict record is accepted, discarded as bad or as late, or merged (R32, R34, R249, R250). [DEDUCED, log 19] -/
def Dev.takeRecord (s : Dev) (r : VerdictRec) : Dev :=
  match s.part? r.partid with
  | none => s.observe 146
  | some p =>
    if r.partid = 0xFFFFFFFF ∨ p.ovf ∨ p.lane ≠ r.lane ∨ r.resv ≠ 0 then s.observe 146
    else if s.pastDeadline p then s.observe 144
    else if r.verdict = 0xFF then s
    else
      let s := s.updPart r.partid fun p => p.merge r.verdict r.aux
      if 0xE0 ≤ r.verdict then s.tally 0x0042 r.member r.partid r.verdict else s

/-- The scheduler reports a fault in the work of every part that a span meets on some lanes, those that open later among them; a worker
reports it to the manager (R192, R329). [DEDUCED, log 57] -/
def Dev.reportFault (s : Dev) (lanes a b : Nat) : Dev :=
  s.openMark { source := .work, start := a, fin := some b, lanes := lanes, code := 0xE2 }

end Sys2Proof.Machine
end

