-- ==== Sys2Proof/Machine/Memory.lean ====
section
/-! DEFINITION. What an access to Vat or LPDDR5X meets (R172 to R177, R221): corrected words, resends, uncorrectable errors. -/

namespace Sys2Proof.Machine

open Sys2Proof

/-- Something disturbs a fixed-schedule run (R221), which is counted once (R225): a run lasts as long as `GLB_MODE.FIXED` is 1.
[DEDUCED, log 64] -/
def Dev.disturb (s : Dev) : Dev :=
  if !s.flag .GLB_MODE_FIXED then s
  else
    let s := s.setFlag .GLB_DET_STAT_FIXDIST 0 true
    if s.runHit then s else { s.countOd 0x3001 3 32 with runHit := true }

/-- A single-bit error is corrected on a read of Vat or of LPDDR5X (R175, R177). [DEDUCED, log 29] -/
def Dev.corrected (s : Dev) (lpddr : Bool) : Dev :=
  if lpddr then (s.setFlag .MEM_ECC_STAT_LCE 0 true).count .MEM_LCE_CNT
  else ((s.setFlag .MEM_ECC_STAT_VCE 0 true).count .MEM_VCE_CNT).disturb

/-- A block is sent again `n` times (R172, R173). [DEDUCED, log 29] -/
def Dev.resent (s : Dev) (n : Nat) : Dev :=
  ((s.setFlag .MEM_ECC_STAT_RESEND 0 true).wr .MEM_RESEND_CNT 0 (satAdd 32 (s.rd .MEM_RESEND_CNT) n)).disturb

/-- An uncorrectable error at a DPA for a requester: the latest one is kept, the flag set and a Tally event recorded; an
error of a word or a sector is counted for its memory (R174, R175, R177). [DEDUCED, log 29] -/
def Dev.uncorrectable (s : Dev) (a src : Nat) (ecc : Bool) : Dev :=
  let s := if !ecc then s
    else if inLpddr a then (s.setFlag .MEM_ECC_STAT_LUE 0 true).count .MEM_LUE_CNT
    else (s.setFlag .MEM_ECC_STAT_VUE 0 true).count .MEM_VUE_CNT
  let s := (s.wr .MEM_UE_ADDR 0 a).wr .MEM_UE_SRC 0 src
  (s.setFlag .MEM_ECC_STAT_CRCUE 0 true).tally 0x0050 src 0xFFFFFFFF a

/-- What an access at `a` by requester `src` meets: a block that is uncorrectable has been sent again four times (R173, R174).
[DEDUCED, log 29] -/
def Dev.meet (s : Dev) (e : MemEvent) (a src : Nat) : Dev :=
  match e with
  | .clean => s
  | .corrected l => s.corrected l
  | .resent n => s.resent (min n 4)
  | .uncorrectable ecc => (if ecc then s else s.resent 4).uncorrectable a src ecc

/-- The access completes. -/
def MemEvent.ok : MemEvent → Bool
  | .uncorrectable _ => false
  | _ => true

end Sys2Proof.Machine
end

