-- ==== Sys2Proof/Machine/Mmu.lean ====
section
/-! DEFINITION. Device virtual addresses (R157, R160, R163 to R168, R179): the table walk, the translation caches, reads and writes
through them, and the fault queue. -/

namespace Sys2Proof.Machine

open Sys2Proof

/-! ### The walk (R164, R165) -/

/-- What a record of R167 says of a translation fault: address, access (0 read, 1 write, 2 fetch), type, level, entry; and the
DPA of the entry. -/
structure XFault where
  va : Nat
  acc : Nat
  type : Nat
  level : Nat
  entry : Nat
  place : Nat
deriving DecidableEq, Repr

/-- The end of a walk: an address in the host's memory or a DPA, with the level and the entry that gave it, or a fault. -/
inductive Walk where
  | page (host : Bool) (addr : Nat) (leaf : Option (Nat × Nat))
  | fault (f : XFault)
deriving DecidableEq, Repr

/-- The lowest address bit that level `l` does not translate; level 4 is a 64 KiB table. -/
def levelShift (l : Nat) : Nat := if l = 4 then 16 else 39 - 9 * l

/-- The index of an address in a table of level `l`. -/
def levelIndex (l va : Nat) : Nat := if l = 4 then bits va 16 5 else bits va (levelShift l) 9

/-- A table of `n` bytes at `a` lies in Vat or LPDDR5X. -/
def tableOk (a n : Nat) : Bool := (inVat a && inVat (a + n - 1)) || (inLpddr a && inLpddr (a + n - 1))

/-- The fault type of a table pointer of level `l`, 0 for none (R165). -/
def pointerFault (l e : Nat) : Nat :=
  if bits e 52 12 ≠ 0 ∨ bits e 7 5 ≠ 0 then 4
  else if e % 4 = 1 then
    if 3 ≤ l then 5 else if tableOk (bits e 12 40 * 4096) 4096 then 0 else 6
  else
    if l ≠ 2 then 5 else if tableOk (bits e 12 40 * 4096) 256 then 0 else 6

/-- The fault type of a page of level `l` for an access, 0 for none (R165). -/
def pageFault (l e acc : Nat) : Nat :=
  let base := bits e 12 40 * 4096
  let size := 2 ^ levelShift l
  if bits e 52 12 ≠ 0 ∨ bits e 7 5 ≠ 0 ∨ bit e 4 then 4
  else if l < 2 then 5
  else if 2 ≤ bits e 2 2 then 7
  else if base % size ≠ 0 then 6
  else if bits e 2 2 = 0 ∧ !spanOk base size then 6
  else if acc = 1 ∧ !bit e 5 then 2
  else if acc = 2 ∧ !bit e 6 then 3
  else 0

/-- An access through the page that entry `e` of level `l` maps; `place` is the DPA of the entry (R165). -/
def leafEnd (va acc l e place : Nat) : Walk :=
  let t := pageFault l e acc
  if t ≠ 0 then .fault { va := va, acc := acc, type := t, level := l, entry := e, place := place }
  else .page (bits e 2 2 == 1) (bits e 12 40 * 4096 + va % 2 ^ levelShift l) (some (l, e))

/-- Walk from the table at `table` of level `l`; `bad` is a level at whose entry an uncorrectable error strikes.
[DEDUCED, log 50] -/
def Dev.walkFrom (s : Dev) (va acc : Nat) (bad : Option Nat) : Nat → Nat → Nat → Walk
  | 0, _, _ => .fault { va := va, acc := acc, type := 5, level := 3, entry := 0, place := 0 }
  | n + 1, l, table =>
    let place := table + 8 * levelIndex l va
    let e := s.leRead place 8
    let stop := fun (t e : Nat) => Walk.fault { va := va, acc := acc, type := t, level := l, entry := e, place := place }
    if bad = some l then stop 8 0
    else if e % 4 = 0 then stop 1 e
    else if e % 4 = 2 then leafEnd va acc l e place
    else
      let t := pointerFault l e
      if t ≠ 0 then stop t e else s.walkFrom va acc bad n (if e % 4 = 3 then 4 else l + 1) (bits e 12 40 * 4096)

/-- The walk from the root of an address space: a fault where the root is not valid. -/
def Dev.walk (s : Dev) (asid va acc : Nat) (bad : Option Nat) : Walk :=
  if !s.flag .MMU_ROOT_V asid then .fault { va := va, acc := acc, type := 1, level := 0xFF, entry := 0, place := 0 }
  else s.walkFrom va acc bad 5 0 (s.rd .MMU_ROOT_ADDR asid * 4096)

/-- A cached translation serves an access: of the Churn's own cache, or of the MMU's. -/
def Cached.serves (e : Cached) (me : Option Nat) (asid va : Nat) : Bool :=
  (e.chn == me || e.chn.isNone) && e.asid == asid && e.page == va / 2 ^ levelShift e.level

/-- Translate an address of an address space for a Churn, or for another user of the MMU. In fixed-schedule mode addresses pass
unchanged, and nothing is cached (R179); while translation is off every access faults. An access for which a cache holds a translation
uses that or walks (R166). [DEDUCED, log 50] -/
def Dev.translate (s : Dev) (me : Option Nat) (asid va acc : Nat) (bad : Option Nat) : Walk :=
  let va := wrap 48 va
  if s.flag .GLB_MODE_FIXED then .page false va none
  else if !s.flag .MMU_CTL_EN then .fault { va := va, acc := acc, type := 1, level := 0xFF, entry := 0, place := 0 }
  else match s.tlb.find? fun e => e.serves me asid va with
    | some e => if Config.useCached s.free va then leafEnd va acc e.level e.entry 0 else s.walk asid va acc bad
    | none => s.walk asid va acc bad

/-- A cache of `n` entries takes a translation, in the place of the oldest when it is full (R166). -/
def cachePut (l : List Cached) (e : Cached) (n : Nat) : List Cached :=
  let own := l.filter fun x => x.chn == e.chn && x != e
  (e :: own).take n ++ l.filter fun x => x.chn != e.chn

/-- The caches keep the translation of an access: the MMU's 1,024 entries, and the 64 of the Churn (R166). -/
def Dev.keepPage (s : Dev) (me : Option Nat) (asid va acc : Nat) : Dev :=
  match s.translate me asid va acc none with
  | .page _ _ (some (l, e)) =>
    let c : Cached := { chn := none, asid := asid, page := wrap 48 va / 2 ^ levelShift l, level := l, entry := e }
    let shared := cachePut s.tlb c 1024
    { s with tlb := if me.isSome then cachePut shared { c with chn := me } 64 else shared }
  | _ => s

/-- The caches keep the translations of `n` bytes from an address, page by page. -/
def Dev.keepPages (s : Dev) (me : Option Nat) (asid acc : Nat) : Nat → Nat → Nat → Dev
  | 0, _, _ => s
  | f + 1, va, n =>
    if n = 0 then s
    else
      let k := min n (4096 - va % 4096)
      (s.keepPage me asid va acc).keepPages me asid acc f (va + k) (n - k)

/-- An access of `n` bytes has been translated. -/
def Dev.touch (s : Dev) (me : Option Nat) (asid acc va n : Nat) : Dev := s.keepPages me asid acc (n / 4096 + 2) va n

/-- The translations that an invalidation removes: of one page, of one address space, or all (R166). -/
def Cached.hit (e : Cached) (i : Nat × Nat × Nat) : Bool :=
  let (scope, asid, page) := i
  scope == 2 || (e.asid == asid && (scope == 1 || e.page == page * 4096 / 2 ^ levelShift e.level))

/-! ### Access through the walk -/

/-- The end of an access: its result, a translation fault, or an error response. -/
inductive VRes (α : Type) where
  | ok (a : α)
  | fault (f : XFault)
  | error
deriving DecidableEq, Repr

/-- The spans of memory, of host memory where `true`, that `n` bytes from an address translate to, page by page. -/
def Dev.vspans (s : Dev) (me : Option Nat) (asid acc : Nat) (bad : Option Nat) : Nat → Nat → Nat → VRes (List (Bool × Nat × Nat))
  | 0, _, _ => .ok []
  | f + 1, va, n =>
    if n = 0 then .ok []
    else
      let k := min n (4096 - va % 4096)
      match s.translate me asid va acc bad with
      | .fault x => .fault x
      | .page host a _ =>
        match s.vspans me asid acc bad f (va + k) (n - k) with
        | .ok l => .ok ((host, a, k) :: l)
        | .fault x => .fault x
        | .error => .error

/-- A span can be reached: host memory while the link is up and bus mastering enabled (R165), a DPA that exists (R157), LPDDR5X outside fixed-schedule
mode (R179), the local store of another Churn while that one is powered and not isolated (R160). [DESIGN CHOICE, log 51] -/
def Dev.reachable (s : Dev) (me : Option Nat) (e : Bool × Nat × Nat) : Bool :=
  let (host, a, n) := e
  if host then s.pcieUp && Config.busMaster s.free
  else if !spanOk a n then false
  else if inLpddr a then !s.flag .GLB_MODE_FIXED
  else if inLs a then
    let m := (a - lsBase) / lsSize
    me == some m || (decide (2 ≤ s.rd .CHN_STAT_PWR m) && !s.flag .CHN_STAT_ISO m)
  else true

/-- The bytes of spans. -/
def Dev.spanBytes (s : Dev) (l : List (Bool × Nat × Nat)) : List Byte :=
  l.flatMap fun e => if e.1 then (rangeFrom e.2.1 e.2.2).map fun a => Config.hostByte s.free a else s.bytesAt e.2.1 e.2.2

/-- Read `n` bytes at a device virtual address. -/
def Dev.vread (s : Dev) (me : Option Nat) (asid va n : Nat) (bad : Option Nat := none) : VRes (List Byte) :=
  match s.vspans me asid 0 bad (n / 4096 + 2) va n with
  | .ok l => if l.all fun e => s.reachable me e then .ok (s.spanBytes l) else .error
  | .fault x => .fault x
  | .error => .error

/-- Write bytes to spans. [DESIGN CHOICE, log 51] -/
def Dev.putSpans (s : Dev) : List (Bool × Nat × Nat) → List Byte → Dev
  | [], _ => s
  | (host, a, n) :: l, bs =>
    (if host then s.send (.hostWrite a (bs.take n)) else s.putBytes a (bs.take n)).putSpans l (bs.drop n)

/-- Write bytes at a device virtual address. -/
def Dev.vwrite (s : Dev) (me : Option Nat) (asid va : Nat) (bs : List Byte) (bad : Option Nat := none) : VRes Dev :=
  match s.vspans me asid 1 bad (bs.length / 4096 + 2) va bs.length with
  | .ok l => if l.all fun e => s.reachable me e then .ok ((s.putSpans l bs).touch me asid 1 va bs.length) else .error
  | .fault x => .fault x
  | .error => .error

/-! ### The fault queue (R167) -/

/-- The 32-byte record of a fault. -/
def XFault.record (f : XFault) (job asid src : Nat) : List Byte :=
  leBytes f.va 8 ++ leBytes job 4 ++ leBytes asid 1 ++ leBytes src 1 ++ leBytes f.acc 1 ++ leBytes f.type 1 ++
    leBytes f.level 1 ++ leBytes 0 7 ++ leBytes f.entry 8

/-- An entry that could not be read is an uncorrectable error of the table walk (R174). -/
def Dev.walkError (s : Dev) (f : XFault) : Dev := if f.type = 8 then s.uncorrectable f.place 21 true else s

/-- The queue has room for a record. -/
def Dev.faultRoom (s : Dev) : Bool := decide (s.faultq.length < 64)

/-- Post a record, or note that it could not be posted. -/
def Dev.postFault (s : Dev) (r : List Byte) : Dev :=
  if s.faultRoom then { s with faultq := s.faultq ++ [r] } else s.setFlag .MMU_FAULTQ_CNT_OVF 0 true

end Sys2Proof.Machine
end

