-- ==== Sys2Proof/Machine/Operands.lean ====
section
/-! DEFINITION. The forms in which commands and memory carry their operands: statuses of the dictionary (R364), rights of a
port class (R356), records of verdicts (R249) in memory, and the class N store (R358). -/

namespace Sys2Proof.Machine

open Sys2Proof

/-! ### Statuses and rights -/

def stOk : Nat := 0
def stBadReq : Nat := 1
def stNoEntry : Nat := 2
def stDenied : Nat := 3
def stType : Nat := 4
def stRange : Nat := 5
def stBusy : Nat := 6
def stParam : Nat := 7
def stNvm : Nat := 8
def stUnreach : Nat := 9
def stSeq : Nat := 10

/-- The rights of an entry: read and write for H, C, M and Z, two bits each as INFO shows them (R363). -/
abbrev Rights := Nat

/-- The rights `H rw, C rw, M r, Z r`. -/
def rwRwRR : Rights := 0b01011111
/-- The rights `H rw, C rw, M rw, Z r`. -/
def rwRwRwR : Rights := 0b01111111
/-- The rights `H rw, C rw, M rw, Z —`. -/
def rwRwRwNo : Rights := 0b00111111

/-- The rights `H rw, C r, M r, Z —`. -/
def rwRRNo : Rights := 0b00010111

/-- The place of a port class in the rights. -/
def Port.pos : Port → Nat
  | .h => 0
  | .c => 1
  | .m => 2
  | .z => 3

/-- The port class may read. -/
def mayRead (r : Rights) (p : Port) : Bool := bit r (2 * Port.pos p)
/-- The port class may write. -/
def mayWrite (r : Rights) (p : Port) : Bool := bit r (2 * Port.pos p + 1)

/-- The status that the latest write of an entry of its own row ended with. -/
def Dev.status (s : Dev) (n : Nat) : Dev := { s with svc := { s.svc with lastStatus := n } }

/-! ### Ownership of registers (R372) -/

/-- A write that falls only in fields of another owner, or an access that BAR0 does not accept (R371). -/
def Dev.countOwnerError (s : Dev) : Dev := s.count .GLB_OWNERR_CNT

/-- A write whose every bit falls in fields of another owner. [DEDUCED, log 100] -/
def Dev.ownerError (s : Dev) : Dev := (s.setFlag .GLB_ERR_STAT_OWNERR 0 true).countOwnerError

/-! ### Map and window descriptors (R133 to R138, R143) -/

/-- The map descriptor that 64 bytes spell. -/
def mapOf (b : List Byte) : MapDesc :=
  let o := leAt b 31 1
  { base := leAt b 0 8, expBase := leAt b 8 8, rowPitch := leAt b 16 4, planePitch := leAt b 20 4, w := leAt b 24 2,
    c := leAt b 26 2, ringRows := leAt b 28 2, fmt := leAt b 30 1, layout := bits o 0 2, skim := bits o 2 2, ring := bit o 4,
    resv := bits o 5 3 + 8 * leAt b 40 24, sPlanePitch := leAt b 32 4, h := leAt b 36 4 }

/-- The window descriptor that 32 bytes spell. -/
def winOf (b : List Byte) : WinDesc :=
  let o := leAt b 10 1
  { kh := leAt b 0 1, kw := leAt b 1 1, sh := leAt b 2 1, sw := leAt b 3 1, dh := leAt b 4 1, dw := leAt b 5 1,
    pt := leAt b 6 1, pb := leAt b 7 1, pl := leAt b 8 1, pr := leAt b 9 1, padMode := bits o 0 2, vroll := bit o 2,
    op := bits o 3 2, resv := bits o 5 3 + 8 * leAt b 11 1 + 2048 * leAt b 20 12, padVal := leAt b 12 4,
    groups := leAt b 16 2, cout := leAt b 18 2 }

/-- The bits of an element of a map format (R134). -/
def fmtBits (fmt : Nat) : Nat := ([8, 4, 8, 8, 16, 16, 32, 32, 64, 16, 8, 8, 4, 8] : List Nat).getD fmt 8

/-- The format is an MX format. -/
def fmtMx (fmt : Nat) : Bool := decide (10 ≤ fmt ∧ fmt ≤ 13)

/-- The rate of a Skim code. -/
def skimRate (k : Nat) : Nat := if k = 0 then 0 else 6 + 2 * k

/-- The bytes of a stored row (R135). -/
def mapRowSize (m : MapDesc) : Nat :=
  if m.skim ≠ 0 then (m.w + 31) / 32 * (4 * skimRate m.skim)
  else if m.layout = 1 then (m.w * m.c * fmtBits m.fmt + 7) / 8
  else (m.w * fmtBits m.fmt + 7) / 8

/-- The least of some error codes, 0 for none. [DEDUCED, log 53] -/
def leastCode (l : List (Bool × Nat)) : Nat :=
  ((l.filter fun e => e.1).map fun e => e.2).foldl (fun m c => if m = 0 ∨ c < m then c else m) 0

/-- The window error of a map descriptor, 0 for none (R133, R134, R143). -/
def mapError (m : MapDesc) : Nat :=
  let side := m.skim != 0 || fmtMx m.fmt
  let bad := m.base % 128 != 0 || (side && m.expBase % 128 != 0) || m.rowPitch % 128 != 0 || m.rowPitch == 0 ||
    decide (m.rowPitch < mapRowSize m) || (m.layout == 0 && (m.planePitch % 128 != 0 || m.planePitch == 0)) ||
    m.w == 0 || decide (32768 < m.w) || m.c == 0 || (m.ring && m.ringRows == 0) || decide (13 < m.fmt) ||
    decide (1 < m.layout) || m.resv != 0 || m.sPlanePitch % 128 != 0 || (!m.ring && m.h == 0)
  leastCode [(m.skim != 0 && (!(m.fmt == 4 || m.fmt == 5) || m.layout == 1), 6), (fmtMx m.fmt && m.c % 32 != 0, 7), (bad, 9)]

/-- A value lies in a range of R138. -/
def inRange (lo hi n : Nat) : Bool := decide (lo ≤ n ∧ n ≤ hi)

/-- The window error of a window descriptor by itself, 0 for none (R138, R143). -/
def winError (d : WinDesc) : Nat :=
  let sizes := inRange 1 16 d.kh && inRange 1 16 d.kw && inRange 1 8 d.sh && inRange 1 8 d.sw && inRange 1 16 d.dh &&
    inRange 1 16 d.dw
  leastCode [(!sizes, 1), (d.groups == 0 || d.cout == 0 || d.cout % d.groups != 0, 4),
    (d.op == 3 || (d.op != 0 && (d.padMode != 0 || d.groups != 1)), 8)]

/-- The number of outputs in one direction, before the test that there is one (R139). -/
def outCount (n before after_ k d s : Nat) : Int :=
  ((n : Int) + before + after_ - ((k - 1) * d : Nat) - 1) / (max 1 s : Nat) + 1

/-- The vertical extent of an input: the segment's for a rolling band; a ring without one has no last row, since H is ignored
(R133, R144). -/
def inRows (src : MapDesc) (win : WinDesc) (segRows : Nat) : Nat :=
  if win.vroll then segRows else if src.ring then 2 ^ 32 else src.h

/-- The outputs that a window computes: rows, columns and channels, each from its first to its end. -/
structure OutRange where
  y0 : Nat := 0
  y1 : Nat := 0
  x0 : Nat := 0
  x1 : Nat := 0
  c0 : Nat := 0
  c1 : Nat := 0
deriving DecidableEq, Repr

/-- The window error of a window over an input and an output map, 0 for none (R143, R144). -/
def windowCode (src dst : MapDesc) (w : WinDesc) (r : OutRange) : Nat :=
  let hout := outCount src.h w.pt w.pb w.kh w.dh w.sh
  let wout := outCount src.w w.pl w.pr w.kw w.dw w.sw
  let tall := !w.vroll && !src.ring
  let mirror := w.padMode == 2 && (decide (src.w ≤ w.pl) || decide (src.w ≤ w.pr) ||
    (tall && (decide (src.h ≤ w.pt) || decide (src.h ≤ w.pb))))
  let pool := w.op != 0
  let e := leastCode
    [ (decide (wout < 1) || (tall && decide (hout < 1)), 2), (mirror, 3),
      (!pool && (w.groups == 0 || src.c % max 1 w.groups != 0), 4), (w.padMode == 1 && fmtMx src.fmt, 5),
      (pool && w.cout != src.c, 8),
      (w.vroll && (!src.ring || decide (src.ringRows < (w.kh - 1) * w.dh + (r.y1 - r.y0) * w.sh)), 9),
      (decide (wout < r.x1) || decide (dst.w < r.x1) || decide (w.cout < r.c1) || decide (dst.c < r.c1) ||
        (tall && decide (hout < r.y1)) || (!dst.ring && decide (dst.h < r.y1)), 10) ]
  leastCode ([winError w, mapError src, mapError dst, e].map fun c => (c != 0, c))

/-! ### Operand pairs of a divided layer (R107, R126) -/

/-- The least reduction elements of a part of a divided remainder: 128 × *s*, *s* being the reduction steps of a CCLK cycle for the pair;
none for a pair that is not supported. [DEDUCED, log 63] -/
def leastPart (fa fb : OpFmt) : Option Nat :=
  match fa, fb with
  | .int4, .int4 | .mxFp4, .mxFp4 => some 256
  | .int8, .int8 | .int8, .int4 | .e4m3, .e4m3 | .e4m3, .e5m2 | .e5m2, .e4m3 | .e5m2, .e5m2 | .mxE4m3, .mxE4m3 |
    .mxE4m3, .mxE5m2 | .mxE5m2, .mxE4m3 | .mxE5m2, .mxE5m2 | .mxE4m3, .mxFp4 | .mxE5m2, .mxFp4 | .mxInt8, .mxInt8 => some 128
  | .bf16, .bf16 | .fp16, .fp16 => some 64
  | .fp32, .fp32 => some 8
  | .fp64, .fp64 => some 1
  | _, _ => none

/-! ### Class N entries (R358) -/

/-- The value that NVM holds for an entry: the first copy whose CRC passes (R359). -/
def NvmEntry.value? (e : NvmEntry) : Option OdVal := if e.aOk then some e.a else if e.bOk then some e.b else none

/-- The value that NVM holds under a key; `d` is what it holds for an entry that nothing has written since manufacture. -/
def Dev.nvmValue (s : Dev) (key : Nat) (d : OdVal) : Option OdVal :=
  match tabFind? s.nvm key with
  | some e => e.value?
  | none => some d

/-- Store a class N value in both copies; a value that is stored already is not written again. Stores are counted in
OD 0x1001:03. -/
def Dev.storeNvm (s : Dev) (key : Nat) (d v : OdVal) : Dev :=
  if s.nvmValue key d = some v then s
  else { s with nvm := tabPut s.nvm key { a := v, aOk := true, b := v, bOk := true } }.countOd 0x1001 3 32

/-- A class N number of an entry with default `d` comes into force and is stored. -/
def Dev.storeN (s : Dev) (index sub d n : Nat) : Dev :=
  (s.setOd index sub n).storeNvm (odKey index sub) (.num d) (.num n)

/-! ### Where the dictionary is served (R390, R391, R396, R416) -/

/-- An Ethernet port answers IP traffic: it is enabled, and has an address (R353). [DEDUCED, log 90] -/
def Dev.ipOn (s : Dev) (p : Nat) : Bool := s.flag .ETH_CTL_EN p && s.odNum (0x6100 + p) 4 0 != 0

/-- A path by which requests of a port class arrive is there (R353, R356, R361). [DEDUCED, log 90] -/
def Dev.pathOn (s : Dev) (p : Port) : Bool :=
  match p with
  | .c => s.ipOn 0 || s.ipOn 1
  | .m => s.ipOn 2
  | _ => true

/-- The dictionary service answers requests of a port class: from start stage 5 on, on H and M in Standby, on M in
Recovery. [DEDUCED, log 90] -/
def Dev.answers (s : Dev) (p : Port) : Bool :=
  s.pathOn p && match s.power with
    | .off | .halted | .resetting => false
    | .start => decide (5 ≤ s.rd .RCP_STATE_STAGE) && p != .z
    | .standby => p == .h || p == .m
    | .recovery => p == .m
    | _ => true

/-- The Ethernet port by which a request arrives. -/
def ethPortOf (p : Port) (src : Nat) : Option Nat :=
  match p with
  | .c => some (Config.ethPort src % 2)
  | .m => some 2
  | _ => none

/-- The requests that wait and have arrived by an Ethernet port (R361). -/
def Dev.queuedBy (s : Dev) (e : Nat) : List (Nat × Port × DictReq × Bool) :=
  s.svc.waiting.filter fun (x : Nat × Port × DictReq × Bool) => ethPortOf x.2.1 x.2.2.1.src == some e

/-- The entries that the recovery program serves (R416). -/
def recoveryEntry (index sub : Nat) : Bool :=
  index == 0x9001 || index == 0x6102 || (index == 0x1000 && sub == 6) || (decide (0xA000 ≤ index) && decide (index < 0xB000))

/-- A write of an entry of its own row arrives by a port: it is lost where no service answers, and NOENTRY where Recovery does
not serve the entry. [DEDUCED, log 90] -/
def Dev.served (s : Dev) (p : Port) (index sub : Nat) (f : Dev → Dev) : Dev :=
  if !s.answers p then s
  else if s.power == .recovery && !recoveryEntry index sub then s.status stNoEntry
  else f s

/-! ### Verdict records in memory (R249) -/

/-- The verdict record that 16 bytes spell. -/
def verdictOf (b : List Byte) : VerdictRec :=
  { partid := leAt b 0 4, verdict := leAt b 4 1, lane := leAt b 5 1, member := leAt b 6 1, resv := leAt b 7 1,
    aux := leAt b 8 8 }

/-- `n` verdict records at a DPA. -/
def Dev.verdictsAt (s : Dev) (a n : Nat) : List VerdictRec :=
  (upTo n).map fun i => verdictOf (s.bytesAt (a + 16 * i) 16)

end Sys2Proof.Machine
end

