-- ==== Sys2Proof/Machine/Scheduler.lean ====
section
/-! DEFINITION. The scheduler (R125 to R132, R183 to R209): jobs, pieces and Churns, sync counters, save slots, deadline keys,
faults in a job's work, completion records. -/

namespace Sys2Proof.Machine

open Sys2Proof

/-! ### Jobs -/

/-- The earliest admitted job with an identifier. [DEDUCED, log 62] -/
def Dev.jobById (s : Dev) (id : Nat) : Option Job := s.jobs.find? fun (j : Job) => j.id == id

/-- The job with a place in the order of admission. -/
def Dev.job? (s : Dev) (seq : Nat) : Option Job := s.jobs.find? fun (j : Job) => j.seq == seq

/-- Change a job. -/
def Dev.updJob (s : Dev) (seq : Nat) (f : Job → Job) : Dev :=
  { s with jobs := s.jobs.map fun (j : Job) => if j.seq = seq then f j else j }

/-- The command a job stands at: none where the job is stopped before its first iteration has begun (R190). -/
def Job.cmd? (j : Job) : Option Command := if j.stop && !j.begun then none else j.cmds[j.pc]?

/-- The kind of a command's contexts (R210): 1 LAYER, 2 KERNEL, 3 VCOMMIT. -/
def Command.kind : Command → Nat
  | .layer .. => 1
  | .kernel .. => 2
  | .vcommit .. => 3
  | _ => 0

/-- `CPGAP` of a command (R184). -/
def Command.cpgap : Command → Nat
  | .layer _ _ _ g => g
  | .kernel _ _ _ _ _ _ g => g
  | _ => 0

/-- `CPGAP` of the command a job stands at. -/
def Job.gap (j : Job) : Nat := match j.cmd? with
  | some c => c.cpgap
  | none => 0

/-- CCLK cycles in a number of XCLK periods at the present rate. [DESIGN CHOICE, log 124] -/
def Dev.cclkCycles (s : Dev) (n : Nat) : Nat := n * s.mlk.cclk / 400000

/-- Some piece of a job runs on a Churn. -/
def Job.runs (j : Job) : Bool := j.pieces.any fun p => match p.st with
  | .running _ => true
  | _ => false

/-- A job's running time is counted up to now (R194). -/
def Job.sample (j : Job) (now cycles : Nat) : Job :=
  { j with ran := if j.runs then j.ran + cycles else j.ran, sampledAt := now }

/-- Count a job's running time up to now. -/
def Dev.sampleJob (s : Dev) (seq : Nat) : Dev :=
  s.updJob seq fun j => j.sample s.xclk (s.cclkCycles (s.xclk - j.sampledAt))

/-- A piece takes a new state. -/
def Dev.setPiece (s : Dev) (seq i : Nat) (st : PieceSt) : Dev :=
  (s.sampleJob seq).updJob seq fun j => { j with pieces := modifyAt (fun (p : Piece) => { p with st := st }) i j.pieces }

/-- A job goes on to its next command. -/
def Job.next (j : Job) : Job := { j with pc := j.pc + 1, begun := true, started := false, pieces := [] }

/-! ### Faults in work (R192) -/

/-- A context of a job's iteration meets a fault: it is reported against the iteration's span, or held until the SPAN
executes; a teach job's is reported against no part. -/
def Dev.jobFault (s : Dev) (seq : Nat) : Dev :=
  match s.job? seq with
  | none => s
  | some j =>
    let s := s.updJob seq fun j => { j with faulted := true, anyFault := true, heldFault := j.span.isNone && !j.teach }
    match j.span with
    | some (a, b, _) => if j.teach then s else s.reportFault j.lanes a b
    | none => s

/-! ### Save slots (R161, R196, R197, R205) -/

/-- The recovery slot: the highest-numbered (R196). -/
def Dev.recoverySlot (s : Dev) : Nat := s.slotCount - 1

/-- Whether the recovery slot is in use. -/
def Dev.noteRecovery (s : Dev) : Dev :=
  s.setFlag .JOB_STAT_RECOV 0 (let st := s.rd .JOB_SLOT_ST_STATE s.recoverySlot; decide (1 ≤ st ∧ st ≤ 3))

/-- The lowest-numbered free slot but the recovery slot. -/
def Dev.freeSlot (s : Dev) : Option Nat := (upTo s.recoverySlot).find? fun k => s.rd .JOB_SLOT_ST_STATE k == 0

/-- A slot is taken for a save. -/
def Dev.holdSlot (s : Dev) (k job piece chn : Nat) (cheap : Bool) : Dev :=
  let s := (s.wr .JOB_SLOT_JOB k job).wr .JOB_SLOT_ST_PIECE k piece
  let s := (s.wr .JOB_SLOT_ST_CHN k chn).setFlag .JOB_SLOT_ST_CHEAP k cheap
  let s := (s.setFlag .JOB_SLOT_ST_FLT k false).setFlag .JOB_SLOT_ST_RECOV k (k == s.recoverySlot)
  (s.wr .JOB_SLOT_ST_STATE k 1).noteRecovery

/-- A slot takes a state and holds no context. -/
def Dev.emptySlot (s : Dev) (k st : Nat) : Dev :=
  let s := (s.wr .JOB_SLOT_JOB k 0).wr .JOB_SLOT_ST_PIECE k 0
  let s := (s.wr .JOB_SLOT_ST_CHN k 0).setFlag .JOB_SLOT_ST_CHEAP k false
  let s := (s.setFlag .JOB_SLOT_ST_FLT k false).setFlag .JOB_SLOT_ST_RECOV k false
  { (s.wr .JOB_SLOT_ST_STATE k st).noteRecovery with saves := tabDrop s.saves k }

/-- A slot is freed. -/
def Dev.releaseSlot (s : Dev) (k : Nat) : Dev := s.emptySlot k 0

/-! ### Contexts on Churns (R129, R191) -/

/-- The context resident on a Churn. -/
def Dev.resident (s : Dev) (n : Nat) : Option Resident := (s.churn n).ctx

/-- Change the resident context of a Churn. -/
def Dev.setResident (s : Dev) (n : Nat) (r : Option Resident) : Dev := s.setChurn n { s.churn n with ctx := r }

/-- The context of a Churn is counted in its job's cycles and in its observation counter up to now (R187, R423). -/
def Dev.settle (s : Dev) (n : Nat) : Dev :=
  match s.resident n with
  | none => s
  | some r =>
    let n' := s.cclkCycles (s.xclk - r.since)
    ((s.updJob r.job fun j => { j with cycles := j.cycles + n' }).observe (112 + n) n').setResident n
      (some { r with since := s.xclk })

/-- A Churn hands over a trace record of its context: 2 start, 3 end, 4 save (R421). -/
def Dev.traceContext (s : Dev) (n kind : Nat) : Dev :=
  s.traceNote n kind (s.rd .JOB_CHN_JOB n + 2 ^ 32 * s.rd .JOB_CHN_ST_PIECE n)

/-- The scheduler hands over that it pre-empts the context of a Churn (R421). -/
def Dev.tracePreempt (s : Dev) (n : Nat) : Dev := s.traceNote 16 3 (s.rd .JOB_CHN_JOB n + 2 ^ 32 * n)

/-- A Churn loses its context. -/
def Dev.vacate (s : Dev) (n : Nat) : Dev :=
  let s := if (s.resident n).isSome then s.traceContext n 3 else s
  let s := (s.settle n).setResident n none
  let s := (s.setFlag .CHN_STAT_BUSY n false).setFlag .CHN_STAT_MODE n false
  let s := (s.wr .JOB_CHN_JOB n 0).setFlag .JOB_CHN_ST_VALID n false
  (s.wr .JOB_CHN_ST_KIND n 0).wr .JOB_CHN_ST_PIECE n 0

/-- A Churn is free: no context is resident, and it is not held behind its isolation wrapper. -/
def Dev.churnFree (s : Dev) (n : Nat) : Bool := (s.resident n).isNone && !s.flag .CHN_STAT_ISO n

/-- A free Churn whose clock runs or is gated. -/
def Dev.churnReady (s : Dev) (n : Nat) : Bool := s.churnFree n && decide (2 ≤ s.rd .CHN_STAT_PWR n)

/-- Some Churn is free (R191). -/
def Dev.anyFree (s : Dev) : Bool := (upTo 16).any fun n => s.churnFree n

/-- The job's context on a Churn is in the course of a save, or waits for its cheap point. -/
def Resident.leaving (r : Resident) : Bool := r.saving.isSome || r.cheapWait.isSome

/-- Every context and save of a job is discarded. -/
def Dev.discard (s : Dev) (j : Job) : Dev :=
  j.pieces.foldl (fun (d : Dev) (p : Piece) => match p.st with
    | .running n =>
      let d := match d.resident n with
        | some r =>
          let d := match r.saving with
            | some k => d.releaseSlot k
            | none => d
          match r.restoring with
          | some k => d.releaseSlot k
          | none => d
        | none => d
      d.vacate n
    | .saved k => d.releaseSlot k
    | _ => d) s

/-! ### Completion records (R187) -/

/-- The 32 bytes of a completion record. -/
def completionBytes (id iter status queue cmdidx icode wcode rcode chn exc preempt overrun cycles : Nat) : List Byte :=
  leBytes id 4 ++ leBytes iter 4 ++ leBytes status 1 ++ leBytes queue 1 ++ leBytes cmdidx 2 ++ leBytes icode 1 ++
    leBytes wcode 1 ++ leBytes rcode 1 ++ leBytes chn 1 ++ leBytes exc 1 ++ leBytes 0 1 ++ leBytes preempt 2 ++
    leBytes overrun 2 ++ leBytes 0 2 ++ leBytes cycles 8

/-- A record is dropped: no message is sent for it. -/
def Dev.dropRecord (s : Dev) : Dev := (s.count .JOB_CQ_LOST).setFlag .JOB_CQ_STAT_OVF 0 true

/-- The completion ring has room. A ring of 2^16 entries holds one less, since `HEAD` and `TAIL` are equal when it is empty.
[DEDUCED, log 54] -/
def Dev.ringRoom (s : Dev) : Bool :=
  s.flag .JOB_CQ_CTL_EN &&
    decide ((s.rd .JOB_CQ_TAIL + 65536 - s.rd .JOB_CQ_HEAD) % 65536 < min 65535 (2 ^ s.rd .JOB_CQ_CTL_LOG2))

/-- Write a record to the completion ring, with the message of its queue's vector. [DEDUCED, log 54] -/
def Dev.writeRecord (s : Dev) (queue : Nat) (b : List Byte) : Dev :=
  if !s.ringRoom then s.dropRecord
  else
    let place := s.rd .JOB_CQ_BASE_ADDR * 128 + 32 * (s.rd .JOB_CQ_TAIL % 2 ^ s.rd .JOB_CQ_CTL_LOG2)
    match s.vwrite none (s.rd .JOB_CQ_CTL_ASID) place b with
    | .ok d =>
      let d := d.countMod .JOB_CQ_TAIL
      if 16 ≤ d.rd .JOB_Q_CTL_VEC queue then d.send (.msix (d.rd .JOB_Q_CTL_VEC queue)) else d
    | _ => s.dropRecord

/-- The record of a job as it stands. -/
def Job.record (j : Job) (status cmdidx icode chn : Nat) : List Byte :=
  completionBytes j.id (wrap 32 j.iter) status j.queue cmdidx icode 0 0 chn j.exc j.preempt j.overrun (wrap 64 j.cycles)

/-- An iteration of a job ends: its completion counter is signalled (R183), whatever becomes of the record (R187). -/
def Dev.signalEnd (s : Dev) (j : Job) : Dev :=
  match j.csc with
  | some k => s.scAdd k 1
  | none => s

/-- An iteration of the job has begun, or all its commands are done. -/
def Job.inIteration (j : Job) : Bool := j.begun || decide (j.cmds.length ≤ j.pc)

/-- A job ends, and with it the iteration that has begun: its record is written, its contexts and saves are gone, and it leaves the
job table. -/
def Dev.endJob (s : Dev) (seq status cmdidx icode chn : Nat) : Dev :=
  match s.job? seq with
  | none => s
  | some j =>
    let s := s.discard j
    let s := if j.inIteration then s.signalEnd j else s
    let s := match s.job? seq with
      | some j => s.writeRecord j.queue (j.record status cmdidx icode chn)
      | none => s
    { s with jobs := s.jobs.filter fun (k : Job) => k.seq != seq }

/-- An instruction error (R132): the job stops at the failing instruction; the Churn stays in service. [DEDUCED, log 70] -/
def Dev.instrError (s : Dev) (n code : Nat) : Dev :=
  let s := (s.wr .CHN_ERR_CODE n code).count .CHN_ERR_COUNT n
  match s.resident n with
  | none => s
  | some r => match s.job? r.job with
    | none => s
    | some j => (s.jobFault j.seq).endJob j.seq 2 j.pc code n

/-- The flags of `CHN_EXC`, by bit. [DESIGN CHOICE, log 60] -/
def excFields : List (Field × Nat) :=
  [(.CHN_EXC_NVIN, 0), (.CHN_EXC_INV, 1), (.CHN_EXC_OVF, 2), (.CHN_EXC_SAT, 3), (.CHN_EXC_CVTNAN, 4), (.CHN_EXC_SCLNAN, 5),
    (.CHN_EXC_TRUNC, 6), (.CHN_EXC_KLIM, 7)]

/-- `CHN_EXC` of a Churn as one number. -/
def Dev.excOf (s : Dev) (n : Nat) : Nat := excFields.foldl (fun m e => if s.flag e.1 n then m ||| oneBit e.2 else m) 0

/-- Flags of `CHN_EXC` are set. -/
def Dev.setExc (s : Dev) (n mask : Nat) : Dev :=
  excFields.foldl (fun (d : Dev) e => if bit mask e.2 then d.setFlag e.1 n true else d) s

/-- The flags of a Churn are raised, for the register and for the job's record (R116, R187). -/
def Dev.raiseExc (s : Dev) (n mask : Nat) : Dev :=
  let s := s.setExc n mask
  match s.resident n with
  | none => s
  | some r => s.updJob r.job fun j => { j with exc := j.exc ||| mask }

/-- An access of a Churn ends with an error response (R174): a fault in the job's work. -/
def Dev.churnError (s : Dev) (n : Nat) : Dev :=
  match s.resident n with
  | none => s
  | some r => s.jobFault r.job

/-! ### The bytes of a save (R130, R197, R198) -/

/-- Write a table to memory, `w` bytes for each key. -/
def Dev.putTab (s : Dev) (t : Tab Nat) (base w : Nat) : Dev :=
  t.foldl (fun (d : Dev) e => d.leWrite (base + w * e.1) w e.2) s

/-- The table that the cells from `base` on spell, `w` bytes for each key. -/
def tabOf (cells : List Host.Cell) (base w : Nat) : Tab Nat :=
  cells.foldl (fun t c =>
    let k := (c.1 - base) / w
    tabPut t k ((tabFind? t k).getD 0 + c.2.toNat * 256 ^ ((c.1 - base) % w))) []

/-- The sticky bits as one number, three bits for each cell. -/
def packSticky (t : Tab Nat) : Nat := t.foldl (fun n e => n + e.2 % 8 * 8 ^ e.1) 0

/-- The sticky bits that cells from `base` on spell. -/
def unpackSticky (cells : List Host.Cell) (base : Nat) : Tab Nat :=
  cells.foldl (fun t c => (bitsSet 8 c.2.toNat).foldl (fun t k =>
    let g := 8 * (c.1 - base) + k
    tabPut t (g / 3) ((tabFind? t (g / 3)).getD 0 ||| oneBit (g % 3))) t) []

/-- The base of a Churn's local store. -/
def lsOf (n : Nat) : Nat := lsBase + n * lsSize

/-- Byte `k` of a Churn's register file as a slot lays it out. -/
def Churn.rfByte (c : Churn) (k : Nat) : Byte := BitVec.ofNat 8 ((tabFind? c.rf (k / 4)).getD 0 / 256 ^ (k % 4))

/-- The control region: the spec does not lay its bytes out, so they are free. [DESIGN CHOICE, log 60] -/
def Dev.putControl (s : Dev) (base : Nat) : Dev :=
  let s := (s.leWrite (base + 0x418000) 0x1C00 (s.freeValue (8 * 0x1C00))).useFree
  s

/-- The bytes of a full save. [DESIGN CHOICE, log 60] -/
def Dev.fullSave (s : Dev) (n base : Nat) : Dev :=
  let c := s.churn n
  let s := (s.zeroBytes base saveSize).copyBytes (lsOf n) base lsSize
  let s := (s.putTab c.rf (base + 0x200000) 4).putTab c.acc (base + 0x400000) 12
  let s := s.putControl base
  let s := s.leWrite (base + 0x419C00) 3072 (packSticky c.sticky)
  let s := s.putTab (c.anchor.map fun e => (e.1, unsgn 16 e.2)) (base + 0x41A800) 2
  s.leWrite (base + 0x41E800) 16 (s.excOf n + s.rd .CHN_ERR_CODE n * 2 ^ 32 + s.rd .CHN_ERR_COUNT n * 2 ^ 64)

/-- The bytes of a cheap-point save: live ranges of local store and register file, and the control region.
[DESIGN CHOICE, log 60] -/
def Dev.cheapSave (s : Dev) (n base : Nat) (ranges : List (Nat × Nat)) : Dev :=
  let c := s.churn n
  let put := fun (d : Dev) (e : Nat × Nat) => d.putBytes (base + e.1)
    ((rangeFrom e.1 e.2).map fun k => if k < 0x200000 then d.byteAt (lsOf n + k) else c.rfByte (k - 0x200000))
  (ranges.foldl put s).putControl base

/-- The VALID word of a slot. -/
def validWord (cheap : Bool) (seq : Nat) : Nat := 2 ^ 31 + (if cheap then 2 ^ 30 else 0) + wrap 30 seq

/-- A full save is read back; the flags of `CHN_EXC` join those that the Churn shows. [DESIGN CHOICE, log 60] -/
def Dev.fullRestore (s : Dev) (n base : Nat) (v : Saved) : Dev :=
  let s := (s.copyBytes base (lsOf n) lsSize).setExc n (s.leRead (base + 0x41E800) 1)
  let anchors := (tabOf (s.cellsIn (base + 0x41A800) 0x4000) (base + 0x41A800) 2).map fun e => (e.1, sgn 16 e.2)
  s.setChurn n { s.churn n with
    rf := tabOf (s.cellsIn (base + 0x200000) 0x200000) (base + 0x200000) 4
    acc := tabOf (s.cellsIn (base + 0x400000) 0x18000) (base + 0x400000) 12
    sticky := unpackSticky (s.cellsIn (base + 0x419C00) 0xC00) (base + 0x419C00)
    anchor := anchors
    reduced := v.reduced
    latch := v.latch
    barrier := v.barrier }

/-- A cheap-point save is read back: every other byte of local store and register file reads zero (R198). -/
def Dev.cheapRestore (s : Dev) (n base : Nat) (v : Saved) (ranges : List (Nat × Nat)) : Dev :=
  let s := s.zeroBytes (lsOf n) lsSize
  let inLsPart := ranges.filter fun e => decide (e.1 < 0x200000)
  let s := inLsPart.foldl (fun (d : Dev) e =>
    d.putBytes (lsOf n + e.1) (d.bytesAt (base + e.1) (min e.2 (0x200000 - e.1)))) s
  let regs := ranges.flatMap fun e =>
    s.cellsIn (base + max e.1 0x200000) (e.1 + e.2 - max e.1 0x200000)
  s.setChurn n { s.churn n with
    rf := tabOf regs (base + 0x200000) 4
    acc := []
    sticky := []
    anchor := []
    reduced := 0
    latch := v.latch
    barrier := v.barrier }

/-! ### Saving and restoring (R130, R196 to R199, R205 to R207) -/

/-- A save of a Churn's context into a slot begins. [DEDUCED, log 59] -/
def Dev.beginSave (s : Dev) (n k : Nat) (cheap : Option (List (Nat × Nat))) : Dev :=
  match s.resident n with
  | none => s
  | some r =>
    let index := match s.job? r.job with
      | some j => (j.pieces.getD r.piece { index := 0, st := .ready }).index
      | none => 0
    let s := s.holdSlot k (s.rd .JOB_CHN_JOB n) index n cheap.isSome
    let s := (s.zeroBytes (s.saveBase k + 0x41FFFC) 4).traceContext n 4
    s.setResident n (some { r with saving := some k, cheap := cheap, cheapWait := none })

/-- A record is attached to a saved context: it is posted, or kept with the context while the queue is full (R167, R205). -/
def Dev.attachFault (s : Dev) (k : Nat) (e : List Byte) : Dev :=
  let s := s.setFlag .JOB_SLOT_ST_FLT k true
  if s.faultRoom then s.postFault e
  else
    let s := s.postFault e
    match tabFind? s.saves k with
    | some v => { s with saves := tabPut s.saves k { v with record := some e } }
    | none => s

/-- The save on a Churn is complete: its VALID word is written last, and the Churn is free. -/
def Dev.finishSave (s : Dev) (n : Nat) : Dev :=
  match s.resident n with
  | none => s
  | some r => match r.saving with
    | none => s
    | some k =>
      let base := s.saveBase k
      let c := s.churn n
      let s := match r.cheap with
        | some l => s.cheapSave n base l
        | none => s.fullSave n base
      let s := s.leWrite (base + 0x41FFFC) 4 (validWord r.cheap.isSome s.saveSeq)
      let v : Saved := { res := { r with saving := none }, reduced := c.reduced, latch := c.latch, barrier := c.barrier }
      let s := { s with saveSeq := s.saveSeq + 1, saves := tabPut s.saves k v }
      let s := (s.wr .JOB_SLOT_ST_STATE k 2).noteRecovery
      let s := (s.countOd 0x3030 (if r.cheap.isSome then 4 else 3) 64).observe (128 + n)
      let s := s.vacate n
      let s := (s.setPiece r.job r.piece (.saved k)).updJob r.job fun j => { j with preempt := satSucc 16 j.preempt }
      match r.fault with
      | some e => s.attachFault k e
      | none => s

/-- A slot for a context that a translation fault suspends (R205). -/
def Dev.faultSlot (s : Dev) : Option Nat :=
  match s.freeSlot with
  | some k => some k
  | none => if s.rd .JOB_SLOT_ST_STATE 40 = 0 then some 40 else none

/-- A translation fault of a Churn's context (R167, R205, R206): the context is saved in full with the fault attached; without
a place for it the job ends with NOSLOT. During a save the save goes on and carries the fault. -/
def Dev.suspendFor (s : Dev) (n : Nat) (x : XFault) : Dev :=
  match s.resident n with
  | none => s
  | some r => match s.job? r.job with
    | none => s
    | some j =>
      let entry := x.record j.id j.asid n
      let s := s.setResident n (some { r with fault := some entry })
      if r.saving.isSome then s
      else match s.faultSlot with
        | some k => (s.beginSave n k none).finishSave n
        | none => (s.jobFault j.seq).endJob j.seq 5 0xFFFF 0 0xFF

/-- The XCLK periods of a slice (R193), `shorten` periods less for a wait that a command which cannot be interrupted has cost
(R195). -/
def Dev.sliceOf (s : Dev) (shorten : Nat) : Nat := 400 * s.rd .JOB_CTL_SLICE - shorten

/-- A piece that is placed on a Churn waits for nothing any more (R196, R209). -/
def Piece.placed (p : Piece) : Piece := { p with deferred := false, failed := false, target := none }

/-- A translation fault of an access of a Churn; an entry that could not be read is an uncorrectable error of the walk (R174). -/
def Dev.suspend (s : Dev) (n : Nat) (x : XFault) : Dev := (s.walkError x).suspendFor n x

/-- `CODE` of a command (R184). -/
def Command.code? : Command → Option Nat
  | .layer _ c _ _ => some c
  | .kernel _ _ _ c _ _ _ => some c
  | _ => none

/-- The sequencer of a Churn fetches the first instruction of its context's program (R163, R165): a fault suspends the context, an
address that answers with an error is a fault in the job's work. [DEDUCED, log 50] -/
def Dev.fetchCode (s : Dev) (n : Nat) : Dev :=
  match (s.resident n).bind fun r => s.job? r.job with
  | none => s
  | some j => match j.cmd?.bind Command.code? with
    | none => s
    | some a => match s.vspans (some n) j.asid 2 none 1 a 1 with
      | .ok l => if l.all fun e => s.reachable (some n) e then s.touch (some n) j.asid 2 a 1 else s.churnError n
      | .fault x => s.suspend n x
      | .error => s.churnError n

/-- A context starts on a Churn: a piece from its beginning, or a saved context whose restore begins (R191, R199). -/
def Dev.place (s : Dev) (n : Nat) (j : Job) (i : Nat) (p : Piece) : Dev :=
  let repro := j.repro.getD (s.flag .GLB_MODE_REPRO)
  let kind := match j.cmd? with
    | some c => c.kind
    | none => 0
  let s := s.updJob j.seq fun k =>
    { k with repro := some repro, shorten := 0, pieces := modifyAt Piece.placed i k.pieces }
  let s := ((s.wr .CHN_STAT_PWR n 3).setFlag .CHN_STAT_BUSY n true).setFlag .CHN_STAT_MODE n repro
  let s := (s.wr .JOB_CHN_JOB n j.id).setFlag .JOB_CHN_ST_VALID n true
  let s := (s.wr .JOB_CHN_ST_KIND n kind).wr .JOB_CHN_ST_PIECE n p.index
  let restoring := match p.st with
    | .saved k => some k
    | _ => none
  let s := match restoring with
    | some k => (s.wr .JOB_SLOT_ST_STATE k 3).noteRecovery
    | none => s.setChurn n { s.churn n with barrier := [], reduced := 0 }
  let s := (s.setPiece j.seq i (.running n)).traceContext n 2
  s.setResident n (some { job := j.seq, piece := i, kind := kind, sliceAt := s.xclk, sliceLen := s.sliceOf j.shorten,
                          restoring := restoring, since := s.xclk })

/-- A context is placed on a Churn; one that starts from its beginning fetches its first instruction. -/
def Dev.startOn (s : Dev) (n : Nat) (j : Job) (i : Nat) (p : Piece) : Dev :=
  let s := s.place n j i p
  if p.st == .ready then s.fetchCode n else s

/-! ### The order of dispatch (R191, R192, R35) -/

/-- Jobs are ordered by time: the line runs forward, and neither stands nor reverses (R35). [DEDUCED, log 65] -/
def Dev.byTime (s : Dev) : Bool := !s.standing && !s.reverse && decide (0 < s.speed)

/-- The deadline key of a span: the distance to its deadline from the latest estimate tick. By time it would be this divided by
the one speed, which orders the same. [DEDUCED, log 65] -/
def Dev.keyOf (s : Dev) (fin dofs : Nat) : Int := sdiff (wrap 64 (fin + cts dofs)) s.tickPos

/-- The keys of every iteration are computed anew (R192). [DEDUCED, log 65] -/
def Dev.refreshKeys (s : Dev) : Dev :=
  { s with jobs := s.jobs.map fun (j : Job) => match j.span with
      | some (_, b, d) => { j with key := some (s.keyOf b d) }
      | none => j }

/-- A piece may be dispatched: it is ready, or its context is saved and no fault holds it. -/
def Dev.pieceReady (s : Dev) (p : Piece) : Bool :=
  match p.st with
  | .ready => true
  | .saved k => s.rd .JOB_SLOT_ST_STATE k == 2 && !s.flag .JOB_SLOT_ST_FLT k
  | _ => false

/-- The pieces of a job that may be dispatched, by index, with their places in its list. -/
def Dev.readyOf (s : Dev) (j : Job) : List (Nat × Piece) :=
  sortBy (fun (e : Nat × Piece) => (e.2.index : Int))
    ((j.pieces.zipIdx.filter fun e => s.pieceReady e.1).map fun e => (e.2, e.1))

/-- Inspection jobs by deadline key, those without a deadline last, ties in order of admission. -/
def Dev.inspectionOrder (s : Dev) : List Job :=
  let l := s.jobs.filter fun (j : Job) => !j.teach
  sortBy (fun (j : Job) => j.key.getD 0) (l.filter fun (j : Job) => j.key.isSome) ++ l.filter fun (j : Job) => j.key.isNone

/-- Teach jobs in turn, after the job served last. -/
def Dev.teachOrder (s : Dev) : List Job :=
  let l := s.jobs.filter fun (j : Job) => j.teach
  (l.filter fun (j : Job) => decide (s.lastTeach < j.seq)) ++ l.filter fun (j : Job) => decide (j.seq ≤ s.lastTeach)

/-- The pieces of jobs that may be dispatched, in order. -/
def Dev.readyIn (s : Dev) (l : List Job) : List (Job × Nat × Piece) :=
  l.flatMap fun (j : Job) => (s.readyOf j).map fun e => (j, e)

/-- Inspection pieces that may be dispatched. -/
def Dev.readyInspection (s : Dev) : List (Job × Nat × Piece) := s.readyIn s.inspectionOrder

/-- Teach pieces that may be dispatched; the first is the next in turn. -/
def Dev.readyTeach (s : Dev) : List (Job × Nat × Piece) := s.readyIn s.teachOrder

/-- Every piece that may be dispatched, in order. -/
def Dev.readyAll (s : Dev) : List (Job × Nat × Piece) := s.readyInspection ++ s.readyTeach

/-! ### Pre-emption (R193, R194, R196) -/

/-- The teach contexts that run, by the start of their slices. -/
def Dev.victims (s : Dev) : List (Nat × Resident) :=
  sortBy (fun (e : Nat × Resident) => (e.2.sliceAt : Int))
    ((upTo 16).filterMap fun n => match s.resident n with
      | some r =>
        let teach := match s.job? r.job with
          | some j => j.teach
          | none => false
        if teach && !r.leaving && r.restoring.isNone then some (n, r) else none
      | none => none)

/-- Contexts that are making way. -/
def Dev.makingWay (s : Dev) : Nat := ((upTo 16).filter fun n => match s.resident n with
  | some r => r.leaving
  | none => false).length

/-- Churns that are powering up for a piece (R191). -/
def Dev.poweringUp (s : Dev) : Nat := ((upTo 16).filter fun n => s.churnFree n && s.rd .CHN_STAT_PWR n == 1).length

/-- A cheap point with `gap` cycles may be waited for: the slack of the waiting job suffices (R194). -/
def Dev.slackAllows (s : Dev) (j : Job) (gap : Nat) : Bool :=
  match j.key with
  | none => true
  | some key =>
    let ran := (j.sample s.xclk (s.cclkCycles (s.xclk - j.sampledAt))).ran
    !s.byTime || decide (s.speed * ((j.est - ran + gap + 300 + 1500 * s.rd .JOB_CTL_MARGIN : Nat) : Int) ≤ key * 1500000000)

/-- A piece that waits for want of a slot is counted once (R196). -/
def Dev.deferPiece (s : Dev) (c : Job × Nat × Piece) : Dev :=
  if c.2.2.deferred then s
  else (s.updJob c.1.seq fun j =>
    { j with pieces := modifyAt (fun (p : Piece) => { p with deferred := true }) c.2.1 j.pieces }).countOd 0x3030 6 64

/-- A Churn is kept for the piece of a failed context (R209). -/
def Dev.kept (s : Dev) (n : Nat) : Bool := s.jobs.any fun (j : Job) => j.pieces.any fun p => p.target == some n

/-- A piece may go to a Churn: a free one that runs or is clock-gated, and is not kept for another piece; the piece of a failed
context that has a Churn kept for it goes to that one (R191, R209). -/
def Dev.takesPiece (s : Dev) (n : Nat) (p : Piece) : Bool :=
  s.churnReady n && (match p.target with
    | some t => t == n
    | none => !s.kept n)

/-- The first piece in order that a Churn can take, with the lowest-numbered such Churn. -/
def Dev.nextPlacement (s : Dev) : Option ((Job × Nat × Piece) × Nat) :=
  s.readyAll.findSome? fun c => ((upTo 16).find? fun n => s.takesPiece n c.2.2).map fun n => (c, n)

/-- Save a context in full now, for a waiting piece, if a slot is free. -/
def Dev.saveFor (s : Dev) (n : Nat) (c : Job × Nat × Piece) : Dev :=
  match s.freeSlot with
  | some k => (s.tracePreempt n).beginSave n k none
  | none => s.deferPiece c

/-- For want of a save slot pieces go on waiting, each of which would pre-empt a context of its own; every one is counted (R196). -/
def Dev.deferAll (s : Dev) (l : List (Job × Nat × Piece)) : Dev :=
  (l.take s.victims.length).foldl (fun (d : Dev) c => d.deferPiece c) s

/-- A ready inspection piece without a free Churn pre-empts the teach context whose slice began earliest (R194). -/
def Dev.preemptFor (s : Dev) (c : Job × Nat × Piece) : Dev :=
  match s.victims with
  | [] => s
  | (n, r) :: _ =>
      let gap := match s.job? r.job with
        | some j => j.gap
        | none => 0
      if gap ≠ 0 ∧ s.slackAllows c.1 gap then (s.tracePreempt n).setResident n (some { r with cheapWait := some s.xclk })
      else s.saveFor n c

/-- A context that has found no cheap point within `CPGAP` cycles is saved in full (R194). [DEDUCED, log 59] -/
def Dev.expireCheap (s : Dev) : Dev :=
  (upTo 16).foldl (fun (d : Dev) n => match d.resident n with
    | some r => match r.cheapWait, d.job? r.job with
      | some t, some j =>
        if j.gap < d.cclkCycles (d.xclk - t) then match d.freeSlot with
          | some k => d.beginSave n k none
          | none => d.setResident n (some { r with cheapWait := none })
        else d
      | _, _ => d
    | none => d) s

/-! ### Block reset of a Churn (R208, R209) -/

/-- The state of a Churn's store, registers and array is lost (R129). [DEDUCED, log 66] -/
def Dev.loseChurn (s : Dev) (n : Nat) : Dev :=
  let c := s.churn n
  { (s.zeroBytes (lsOf n) lsSize).setChurn n { ctx := c.ctx } with tlb := s.tlb.filter fun e => e.chn != some n }

/-- The fields of a Churn that a block reset clears. -/
def chnBlockFields : List Field :=
  [.CHN_STAT_MODE, .CHN_STAT_BUSY, .CHN_STAT_PWR, .CHN_EXC_KLIM, .CHN_EXC_TRUNC, .CHN_EXC_SCLNAN, .CHN_EXC_CVTNAN,
    .CHN_EXC_SAT, .CHN_EXC_OVF, .CHN_EXC_INV, .CHN_EXC_NVIN, .CHN_ERR_COUNT, .CHN_ERR_CODE, .JOB_CHN_JOB, .JOB_CHN_ST_VALID,
    .JOB_CHN_ST_KIND, .JOB_CHN_ST_PIECE]

/-- What becomes of the context of a Churn that is block-reset: back to its save if one is complete and not yet restored, else
from the start of its command. [DEDUCED, log 66] -/
def Dev.returnContext (s : Dev) (n : Nat) (r : Resident) : Dev :=
  let s := (s.vacate n).updJob r.job fun j =>
    { j with pieces := modifyAt (fun (p : Piece) => { p with failed := true, target := none }) r.piece j.pieces
             partials := if r.restoring.isSome then j.partials else j.partials.filter fun p => p.place != r.piece }
  match r.restoring with
  | some k => ((s.wr .JOB_SLOT_ST_STATE k 2).noteRecovery).setPiece r.job r.piece (.saved k)
  | none =>
    let s := match r.saving with
      | some k => s.releaseSlot k
      | none => s
    s.setPiece r.job r.piece .ready

/-- The first ready inspection piece of a failed context for which no Churn is kept yet. -/
def Dev.failedPiece (s : Dev) : Option (Job × Nat × Piece) :=
  s.readyInspection.find? fun c => c.2.2.failed && c.2.2.target.isNone

/-- A Churn is kept for a piece. -/
def Dev.keepChurn (s : Dev) (c : Job × Nat × Piece) (n : Nat) : Dev :=
  s.updJob c.1.seq fun j =>
    { j with pieces := modifyAt (fun (p : Piece) => { p with target := some n }) c.2.1 j.pieces }

/-- The Churn for the work of a failed one is chosen (R209): a free one, or that of a teach context, which makes way into the recovery
slot. Where neither can be had the piece waits, and the choice is made as soon as one can. [DEDUCED, log 66] -/
def Dev.recoverWork (s : Dev) : Dev :=
  if s.flag .GLB_MODE_FIXED then s
  else match s.failedPiece with
    | none => s
    | some c =>
      match (upTo 16).find? fun n => s.churnReady n && !s.kept n with
      | some n => s.keepChurn c n
      | none =>
        if s.anyFree || s.rd .JOB_SLOT_ST_STATE s.recoverySlot != 0 then s
        else match s.victims with
          | (n, _) :: _ => (s.beginSave n s.recoverySlot none).keepChurn c n
          | [] => s

/-- Every Churn in service runs. [DEDUCED, log 64] -/
def Dev.allRun (s : Dev) : Bool := (upTo 16).all fun n => s.flag .CHN_STAT_ISO n || s.rd .CHN_STAT_PWR n == 3

/-- Fixed-schedule mode reads 1 once every Churn runs (R219); a run begins, which nothing has disturbed yet (R225).
[DEDUCED, log 64] -/
def Dev.enterFixed (s : Dev) : Dev :=
  if s.fixing && s.allRun then
    { (s.setFlag .GLB_MODE_FIXED 0 true).setFlag .GLB_DET_STAT_FIXED 0 true with fixing := false, runHit := false }
  else s

/-- No Churn is kept that is itself out of service. -/
def Dev.freeKept (s : Dev) (n : Nat) : Dev :=
  { s with jobs := s.jobs.map fun (j : Job) =>
      { j with pieces := j.pieces.map fun p => if p.target = some n then { p with target := none } else p } }

/-- A Churn is block-reset behind its isolation wrapper; `cause` is the code of Tally event 0x0052. [DEDUCED, log 61 and 66] -/
def Dev.resetChurn (s : Dev) (n cause : Nat) : Dev :=
  let before := s.resident n
  let s := match before with
    | some r => (s.jobFault r.job).returnContext n r
    | none => s
  let s := (s.loseChurn n).setFlag .CHN_STAT_ISO n true
  let s := chnBlockFields.foldl (fun (d : Dev) f => d.wr f n (f.resetAt n)) s
  let s := ((s.countOd 0x3030 7 32).tally 0x0052 n 0xFFFFFFFF cause).disturb
  (((s.raiseVec 13).freeKept n).enterFixed).recoverWork

/-! ### Sync counters (R201) -/

/-- The value that a WAIT waits for in an iteration. -/
def waitTarget (base step iter : Nat) : Nat := wrap 64 (base + iter * step)

end Sys2Proof.Machine
end

