-- ==== Sys2Proof/Machine/Matrix.lean ====
section
/-! DEFINITION. The matrix array (R104 to R116, R132): operand formats, exact accumulation, floating-point accumulation,
readout, one output tile. -/

namespace Sys2Proof.Machine

open Sys2Proof

/-! ### Operands in local store -/

/-- The bits of an element of an operand format. -/
def opBits : OpFmt → Nat
  | .int4 | .mxFp4 => 4
  | .int8 | .e4m3 | .e5m2 | .mxE4m3 | .mxE5m2 | .mxInt8 => 8
  | .bf16 | .fp16 | .u16 => 16
  | .fp32 => 32
  | .fp64 => 64

/-- The operand format is an MX format. -/
def opMx : OpFmt → Bool
  | .mxE4m3 | .mxE5m2 | .mxFp4 | .mxInt8 => true
  | _ => false

/-- The operand format is INT4 or INT8. -/
def opInt : OpFmt → Bool
  | .int4 | .int8 => true
  | _ => false

/-- Element `i` of an array of `w`-bit elements in a Churn's local store; two 4-bit elements share a byte, the lower index in
bits [3:0] (R106, R135). -/
def Dev.lsElem (s : Dev) (n base w i : Nat) : Nat :=
  if w = 4 then bits (s.byteAt (lsOf n + base + i / 2)).toNat (4 * (i % 2)) 4
  else s.leRead (lsOf n + base + i * (w / 8)) (w / 8)

/-- Write element `i` of an array of `w`-bit elements. -/
def Dev.putElem (s : Dev) (n base w i v : Nat) : Dev :=
  if w = 4 then
    let a := lsOf n + base + i / 2
    s.putByte a (BitVec.ofNat 8 (setBits (s.byteAt a).toNat (4 * (i % 2)) 4 v))
  else s.leWrite (lsOf n + base + i * (w / 8)) (w / 8) v

/-- The bytes of `k` elements of `w` bits. -/
def elemBytes (w k : Nat) : Nat := (w * k + 7) / 8

/-- The value of an operand's code; integers are signed or unsigned as the instruction says (R104, R107). -/
def elemVal (f : OpFmt) (signed : Bool) (c : Nat) : FVal :=
  let int := fun (w : Nat) => if signed then FVal.fin (decide (sgn w c < 0)) (sgn w c).natAbs 0 else FVal.fin false c 0
  match f with
  | .int4 => int 4
  | .int8 => int 8
  | .mxInt8 => .fin (decide (sgn 8 c < 0)) (sgn 8 c).natAbs (-6)
  | .e4m3 | .mxE4m3 => fE4m3.decode c
  | .e5m2 | .mxE5m2 => fE5m2.decode c
  | .mxFp4 => fE2m1.decode c
  | .bf16 => fBf16.decode c
  | .fp16 => fFp16.decode c
  | .fp32 => fFp32.decode c
  | .fp64 => fFp64.decode c
  | .u16 => .fin false c 0

/-- The exponent of an operand format's smallest step. -/
def unitExp : OpFmt → Int
  | .e4m3 | .mxE4m3 => -9
  | .e5m2 | .mxE5m2 => -16
  | .mxFp4 => -1
  | .mxInt8 => -6
  | _ => 0

/-! ### Operand pairs (R107) -/

/-- How a pair of operand formats is accumulated. -/
inductive PairKind where
  | exact | mx | half | single (f : FloatFmt)
deriving DecidableEq, Repr

/-- The operand is a plain FP8 format. -/
def opFp8 : OpFmt → Bool
  | .e4m3 | .e5m2 => true
  | _ => false

/-- The operand is an MXFP8 format. -/
def opMx8 : OpFmt → Bool
  | .mxE4m3 | .mxE5m2 => true
  | _ => false

/-- The pairs of R107. -/
def pairKind (a b : OpFmt) : Option PairKind :=
  if (opInt a && a == b) || (a == .int8 && b == .int4) || (opFp8 a && opFp8 b) then some .exact
  else if (opMx8 a && (opMx8 b || b == .mxFp4)) || (a == .mxFp4 && b == .mxFp4) || (a == .mxInt8 && b == .mxInt8) then some .mx
  else if (a == .bf16 && b == .bf16) || (a == .fp16 && b == .fp16) then some .half
  else if a == .fp32 && b == .fp32 then some (.single fFp32)
  else if a == .fp64 && b == .fp64 then some (.single fFp64)
  else none

/-- *G* of R111. -/
def mxG (a b : OpFmt) : Int :=
  match a, b with
  | .mxE4m3, .mxE4m3 => 35
  | .mxE4m3, .mxE5m2 | .mxE5m2, .mxE4m3 => 42
  | .mxE5m2, .mxE5m2 => 49
  | .mxE4m3, .mxFp4 | .mxFp4, .mxE4m3 => 29
  | .mxE5m2, .mxFp4 | .mxFp4, .mxE5m2 => 36
  | .mxFp4, .mxFp4 => 23
  | _, _ => 20

/-! ### One cell -/

/-- What a cell holds and has raised: accumulator (an integer for exact pairs, the code of a number otherwise), sticky bits *N*,
*P*, *Q* in bits 0 to 2, anchor, flags. -/
structure Cell where
  acc : Int := 0
  sticky : Nat := 0
  anchor : Int := 0
  flags : Nat := 0
deriving DecidableEq, Repr

/-- An exact product joins a sum (R110, R112): the sum counts in units of the two formats' smallest steps. -/
def Cell.product (c : Cell) (ua ub : Int) (a b : FVal) : Cell :=
  match a, b with
  | .nan, _ | _, .nan => { c with sticky := c.sticky ||| 1, flags := c.flags ||| excNvin }
  | .fin s m e, .fin t n g =>
    let z : Int := (m * 2 ^ (e - ua).toNat * (n * 2 ^ (g - ub).toNat) : Nat)
    { c with acc := if s != t then c.acc - z else c.acc + z }
  | a, b => match a.mul b with
    | .nan => { c with sticky := c.sticky ||| 1, flags := c.flags ||| excInv }
    | .inf neg => { c with sticky := c.sticky ||| (if neg then 4 else 2) }
    | .fin _ _ _ => c

/-- Exact accumulation of INT and FP8 pairs (R110). -/
def Cell.exact (c : Cell) (ua ub : Int) (l : List (FVal × FVal)) : Cell := l.foldl (fun c e => c.product ua ub e.1 e.2) c

/-- A contribution aligned to the anchor, rounded toward negative infinity (R111). -/
def Cell.align (c : Cell) (z : Int) (e : Int) : Cell :=
  if c.anchor ≤ e then { c with acc := c.acc + z * 2 ^ (e - c.anchor).toNat }
  else
    let d : Int := 2 ^ (c.anchor - e).toNat
    { c with acc := c.acc + z / d, flags := c.flags ||| (if z % d = 0 then 0 else excTrunc) }

/-- One MX block: its 32 products are summed exactly, scaled and aligned. [DEDUCED, log 70] -/
def Cell.block (c : Cell) (ua ub : Int) (xa xb : Nat) (l : List (FVal × FVal)) : Cell :=
  let c := if xa = 255 ∨ xb = 255 then { c with sticky := c.sticky ||| 1, flags := c.flags ||| excSclnan ||| excNvin } else c
  let sum := Cell.exact { sticky := c.sticky, flags := c.flags } ua ub l
  Cell.align { c with sticky := sum.sticky, flags := sum.flags } sum.acc (ua + ub + (xa : Int) + xb - 254)

/-- The anchor that the pre-scan of a reduction gives a cell: by the largest combined exponent of its blocks (R111). -/
def mxAnchor (fa fb : OpFmt) (scales : List (Nat × Nat)) : Int :=
  scales.foldl (fun m e => max m ((e.1 : Int) + e.2 - 254)) (-254) + mxG fa fb - 94

/-- The lists of adjacent sums of a list of FP32 codes. -/
def addPairs : List Nat → List (Nat × Nat)
  | a :: b :: l => fFp32.addC a b :: addPairs l
  | [a] => [(a, 0)]
  | [] => []

/-- A flag set but for a NaN operand, which is a flag of the instruction's own operands only. -/
def ownFlags (n : Nat) : Nat := clearBits n excNvin

/-- The balanced tree over a list of FP32 codes, by levels: sum and flags (R114). -/
def treeSum : Nat → List Nat → Nat → Nat × Nat
  | 0, l, fl => (l.getD 0 0, fl)
  | n + 1, l, fl =>
    let r := addPairs l
    treeSum n (r.map fun e => e.1) (r.foldl (fun f e => f ||| ownFlags e.2) fl)

/-- BF16 and FP16 (R114): rounded products, chunks of 16 in a balanced tree, chunk sums in ascending order. -/
def Cell.halfChunks (c : Cell) : Nat → List (FVal × FVal) → Cell
  | 0, _ => c
  | n + 1, l =>
    let ps := ((l.take 16).map fun e => fFp32.op [e.1, e.2] (e.1.mul e.2))
    let fl := ps.foldl (fun f e => f ||| e.2) c.flags
    let t := treeSum 4 ((ps.map fun e => e.1) ++ List.replicate (16 - ps.length) 0) fl
    let x := fFp32.addC c.acc.toNat t.1
    Cell.halfChunks { c with acc := x.1, flags := t.2 ||| ownFlags x.2 } n (l.drop 16)

/-- FP32 and FP64 (R115): a fused multiply-add per step in ascending order. -/
def Cell.fused (c : Cell) (f : FloatFmt) (l : List (FVal × FVal)) : Cell :=
  l.foldl (fun c e =>
    let acc := f.decode c.acc.toNat
    let r := (e.1.mul e.2).add acc
    let x := f.rne r
    let fl := if e.1.isNan || e.2.isNan then excNvin else if r.isNan && !acc.isNan then excInv else 0
    { c with acc := x.1, flags := c.flags ||| x.2 ||| fl }) c

/-! ### Readout (R112, R113) -/

/-- The value of an exact accumulator whose least bit weighs 2^a. -/
def Cell.value (c : Cell) (a : Int) : FVal :=
  if bit c.sticky 0 ∨ (bit c.sticky 1 ∧ bit c.sticky 2) then .nan
  else if bit c.sticky 1 then .inf false
  else if bit c.sticky 2 then .inf true
  else .fin (decide (c.acc < 0)) c.acc.natAbs a

/-- The latch of an exact accumulator, and the flags of its conversion. -/
def Cell.readExact (c : Cell) (a : Int) (asInt : Bool) : Nat × Nat :=
  if asInt then
    (if fitsS 32 c.acc then (unsgn 32 c.acc, 0) else (if c.acc < 0 then 0x80000000 else 0x7FFFFFFF, excSat))
  else
    let r := fFp32.rne (c.value a)
    (r.1, r.2 ||| (if !bit c.sticky 0 ∧ bit c.sticky 1 ∧ bit c.sticky 2 then excInv else 0))

/-- The cell after a reduction of `l`, with the scales of its blocks for MX; the cell has its anchor. -/
def Cell.reduce (c : Cell) (kind : PairKind) (fa fb : OpFmt) (l : List (FVal × FVal)) (scales : List (Nat × Nat)) : Cell :=
  let ua := unitExp fa
  let ub := unitExp fb
  match kind with
  | .exact => c.exact ua ub l
  | .half => c.halfChunks ((l.length + 15) / 16) l
  | .single f => c.fused f l
  | .mx => scales.zipIdx.foldl (fun c e => c.block ua ub e.1.1 e.1.2 ((l.drop (32 * e.2)).take 32)) c

/-- The readout of a cell and its flags. [DEDUCED, log 70] -/
def Cell.read (c : Cell) (kind : PairKind) (fa fb : OpFmt) (asInt : Bool) : Nat × Nat :=
  match kind with
  | .exact => c.readExact (unitExp fa + unitExp fb) asInt
  | .mx => c.readExact c.anchor false
  | .half | .single _ => (c.acc.toNat, 0)

/-! ### MATRIX_INSTRUCTION (R106 to R115) -/

/-- A cell as the Churn holds it: exact accumulators are 96-bit two's complement. -/
def Churn.cell (u : Churn) (k : Nat) (kind : PairKind) : Cell :=
  let n := (tabFind? u.acc k).getD 0
  { acc := match kind with
      | .exact | .mx => sgn 96 n
      | _ => n
    sticky := (tabFind? u.sticky k).getD 0
    anchor := (tabFind? u.anchor k).getD 0 }

/-- Pairs of elements of row `i` of A and column `j` of B. -/
def Dev.operands (s : Dev) (n : Nat) (op : MatrixOp) (i j : Nat) : List (FVal × FVal) :=
  (upTo op.k).map fun k =>
    (elemVal op.fa op.signedA (s.lsElem n (op.aBase + i * op.aPitch) (opBits op.fa) k),
      elemVal op.fb op.signedB (s.lsElem n (op.bBase + j * op.bPitch) (opBits op.fb) k))

/-- The blocks of the whole accumulation that an instruction belongs to: those that the pre-scan reads (R111). -/
def mxBlocks (op : MatrixOp) : Nat := (if op.total = 0 then op.k else op.total) / 32

/-- The scale codes of `n` blocks from block `b0` on, of row `i` of A and column `j` of B; the arrays hold the scales of the whole
accumulation row by row. -/
def Dev.scalesOf (s : Dev) (n : Nat) (op : MatrixOp) (i j b0 count : Nat) : List (Nat × Nat) :=
  (rangeFrom b0 count).map fun b =>
    ((s.byteAt (lsOf n + op.aScale + i * mxBlocks op + b)).toNat, (s.byteAt (lsOf n + op.bScale + j * mxBlocks op + b)).toNat)

/-- Cell (i, j) before the instruction: as the Churn holds it, or fresh, with the anchor of the pre-scan for MX operands. -/
def Dev.cellBefore (s : Dev) (n : Nat) (op : MatrixOp) (kind : PairKind) (k : Nat) : Cell :=
  if !op.first then (s.churn n).cell k kind
  else { anchor := if kind = .mx then mxAnchor op.fa op.fb (s.scalesOf n op (k / 64) (k % 64) 0 (mxBlocks op)) else 0 }

/-- Cell (i, j) after the instruction; `reduced` elements are accumulated already. -/
def Dev.cellAfter (s : Dev) (n : Nat) (op : MatrixOp) (kind : PairKind) (reduced k : Nat) : Cell :=
  let i := k / 64
  let j := k % 64
  (s.cellBefore n op kind k).reduce kind op.fa op.fb (s.operands n op i j)
    (if kind = .mx then s.scalesOf n op i j (reduced / 32) (op.k / 32) else [])

/-- Entries for the keys below `n` that are not zero. -/
def tabBuild (n : Nat) (f : Nat → Nat) : Tab Nat := (rangeFrom 0 n).filterMap fun k => if f k = 0 then none else some (k, f k)

/-- The same for signed values. -/
def tabBuildInt (n : Nat) (f : Nat → Int) : Tab Int :=
  (rangeFrom 0 n).filterMap fun k => if f k = 0 then none else some (k, f k)

/-- An accumulator as the Churn holds it. -/
def Cell.stored (c : Cell) (kind : PairKind) : Nat :=
  match kind with
  | .exact | .mx => unsgn 96 c.acc
  | _ => c.acc.toNat

/-- Every operand address lies in local store. -/
def matrixFits (op : MatrixOp) : Bool :=
  decide (op.aBase + 127 * op.aPitch + elemBytes (opBits op.fa) op.k ≤ lsSize) &&
    decide (op.bBase + 63 * op.bPitch + elemBytes (opBits op.fb) op.k ≤ lsSize) &&
    (!opMx op.fa || (decide (op.aScale + 128 * mxBlocks op ≤ lsSize) && decide (op.bScale + 64 * mxBlocks op ≤ lsSize)))

/-- The instruction error of a matrix instruction, 0 for none; `reduced` elements are accumulated already (R106, R107, R109,
R113, R132). [DEDUCED, log 70] -/
def matrixError (op : MatrixOp) (reduced : Nat) : Nat :=
  leastCode
    [ (op.k == 0 || decide (131072 < reduced + op.k), 1),
      ((pairKind op.fa op.fb).isNone || (op.readInt && !(opInt op.fa && opInt op.fb)), 2),
      (!matrixFits op, 3),
      (opMx op.fa && op.k % 32 != 0, 5) ]

/-- What a cell sends as its part of a partial sum: the exact integer of an INT32 readout, else an FP32 code (R125). -/
def Cell.partialVal (c : Cell) (kind : PairKind) (fa fb : OpFmt) (asInt : Bool) : Int :=
  if asInt then c.acc
  else match kind with
    | .single f => ((fFp32.rne (f.decode c.acc.toNat)).1 : Int)
    | _ => ((c.read kind fa fb false).1 : Int)

/-- A partial sum of the job on a Churn arrives; one that the same part of the piece sends again takes the place of the first.
[DEDUCED, log 63] -/
def Dev.sendPartial (s : Dev) (n tile : Nat) (ints : Bool) (vals : Tab Int) : Dev :=
  match s.resident n with
  | none => s
  | some r => s.updJob r.job fun j =>
    let index := (j.pieces.getD r.piece { index := 0, st := .ready }).index
    let rest := j.partials.filter fun p => !(p.tile == tile && p.place == r.piece)
    { j with partials := rest ++ [{ tile := tile, piece := index, place := r.piece, ints := ints, vals := vals }] }

/-- Some tile after a matrix instruction whose pair is `kind`: its cells, and with a readout its latches, of 32 bits each: of an
FP64 result the low word. -/
def Dev.runMatrix (s : Dev) (n : Nat) (op : MatrixOp) (kind : PairKind) (reduced : Nat) : Dev :=
  let cell := s.cellAfter n op kind reduced
  let read := fun k => (cell k).read kind op.fa op.fb op.readInt
  let u := s.churn n
  let flags := (upTo 8192).foldl (fun f k => f ||| (cell k).flags ||| (if op.last then (read k).2 else 0)) 0
  let u := { u with
    acc := tabBuild 8192 fun k => (cell k).stored kind
    sticky := tabBuild 8192 fun k => (cell k).sticky
    anchor := tabBuildInt 8192 fun k => (cell k).anchor
    reduced := reduced + op.k
    latch := if op.last then tabBuild 8192 (fun k => wrap 32 (read k).1) else u.latch }
  let s := (s.setChurn n u).raiseExc n flags
  match op.part with
  | some tile =>
    if op.last then s.sendPartial n tile op.readInt (tabBuildInt 8192 fun k => (cell k).partialVal kind op.fa op.fb op.readInt)
    else s
  | none => s

/-- MATRIX_INSTRUCTION. -/
def Dev.matrixInstruction (s : Dev) (n : Nat) (op : MatrixOp) : Dev :=
  let reduced := if op.first then 0 else (s.churn n).reduced
  let e := matrixError op reduced
  if e = 1 then (s.raiseExc n excKlim).instrError n 1
  else if e ≠ 0 then s.instrError n e
  else match pairKind op.fa op.fb with
    | some kind => s.runMatrix n op kind reduced
    | none => s

def execMatrixInstruction (chn : Fin 16) (op : MatrixOp) (s : State) : Host.Outcome State Fault Refusal :=
  s.run (.matrixInstruction chn op) fun d => d.matrixInstruction chn op

end Sys2Proof.Machine
end

