-- ==== Sys2Proof/Machine/Vector.lean ====
section
/-! DEFINITION. The vector side (R117 to R124): vector instructions for a gang, narrowing conversions, MX quantisation,
butterflies, group barriers. -/

namespace Sys2Proof.Machine

open Sys2Proof

/-! ### Registers (R120, R121) -/

/-- The place of a thread's register in the register file: lane, gang, register, with `regs` registers a thread. -/
def regKey (lane gang regs r : Nat) : Nat := 8192 * lane + gang * regs + r

/-- A register of a thread. -/
def Churn.reg (u : Churn) (k : Nat) : Nat := (tabFind? u.rf k).getD 0

/-- Write a register of a thread. -/
def Churn.setReg (u : Churn) (k v : Nat) : Churn := { u with rf := tabSet (fun _ => 0) u.rf k (wrap 32 v) }

/-- Gangs that a Churn keeps resident with `regs` registers a thread (R121). -/
def residentGangs (regs : Nat) : Nat := min 256 (8192 / max 1 regs)

/-! ### Scalar operations (R123) -/

/-- A value lies beyond ±2^16. -/
def beyond16 (v : FVal) : Bool :=
  match v with
  | .inf _ => true
  | .fin _ m e => (FVal.fin false 65536 0).lt (.fin false m e)
  | .nan => false

/-- The operations of which the spec bounds the accuracy and not the value: their special cases, else a result within the bound.
[DESIGN CHOICE, log 67] -/
def approxOp (op : VOp) (a : Nat) : Nat × Nat :=
  let v := fFp32.decode a
  let pick := Config.approx op.ctorIdx a
  let recip := fun (d : FVal) => let r := fFp32.op [v] ((FVal.fin false 1 0).div d)
    if r.2 ≠ 0 then r else fFp32.near 1 ((FVal.fin false 1 0).div d) pick
  match op, v with
  | _, .nan => (fFp32.nan, excNvin)
  | .xrecip, _ => recip v
  | .xrsqrt, _ => recip v.sqrt
  | .xexp2, .inf s => (if s then 0 else fFp32.infCode false, 0)
  | .xexp2, .fin _ _ _ => if v.lt (.fin false 128 0) then fFp32.near 1 (exp2Val v) pick else (fFp32.infCode false, excOvf)
  | .xlog2, .inf s => if s then (fFp32.nan, excInv) else (fFp32.infCode false, 0)
  | .xlog2, .fin s m e =>
    if m = 0 then (fFp32.infCode true, 0) else if s then (fFp32.nan, excInv) else fFp32.near 1 (log2Val m e) pick
  | .xsin, _ => if beyond16 v then (fFp32.nan, excInv) else fFp32.near 2 (sinVal v) pick
  | _, _ => if beyond16 v then (fFp32.nan, excInv) else fFp32.near 2 (cosVal v) pick

/-- Minimum or maximum number of two codes; a NaN operand raises its flag. -/
def pickNum (f : FVal → FVal → FVal) (a b : Nat) : Nat × Nat :=
  let x := fFp32.decode a
  let y := fFp32.decode b
  ((fFp32.rne (f x y)).1, if x.isNan || y.isNan then excNvin else 0)

/-- Clamp to INT32. -/
def satInt (z : Int) : Nat := if fitsS 32 z then unsgn 32 z else if z < 0 then 0x80000000 else 0x7FFFFFFF

/-- A packed pair of 16-bit fused multiply-adds. -/
def pairFma (f : FloatFmt) (a b c : Nat) : Nat × Nat :=
  let lo := f.fmaC (bits a 0 16) (bits b 0 16) (bits c 0 16)
  let hi := f.fmaC (bits a 16 16) (bits b 16 16) (bits c 16 16)
  (lo.1 + hi.1 * 65536, lo.2 ||| hi.2)

/-- A 32-bit operation: result and flags; none for the others. -/
def op32 (op : VOp) (a b c : Nat) : Option (Nat × Nat) :=
  match op with
  | .fadd => some (fFp32.addC a b)
  | .fmul => some (fFp32.mulC a b)
  | .ffma => some (fFp32.fmaC a b c)
  | .fmin => some (pickNum FVal.minNum a b)
  | .fmax => some (pickNum FVal.maxNum a b)
  | .fdiv => some (fFp32.divC a b)
  | .fsqrt => some (fFp32.sqrtC a)
  | .xrecip | .xrsqrt | .xexp2 | .xlog2 | .xsin | .xcos => some (approxOp op a)
  | .hfma16 => some (pairFma fFp16 a b c)
  | .hfmaBf => some (pairFma fBf16 a b c)
  | .iadd => some (wrap 32 (a + b), 0)
  | .isub => some (unsgn 32 ((a : Int) - b), 0)
  | .imul => some (wrap 32 (a * b), 0)
  | .iand => some (a &&& b, 0)
  | .ior => some (a ||| b, 0)
  | .ixor => some (a ^^^ b, 0)
  | .iaddSat => some (satInt (sgn 32 a + sgn 32 b), 0)
  | .isubSat => some (satInt (sgn 32 a - sgn 32 b), 0)
  | .imulSat => some (satInt (sgn 32 a * sgn 32 b), 0)
  | _ => none

/-- An FP64 operation: result and flags; none for the others. -/
def op64 (op : VOp) (a b c : Nat) : Option (Nat × Nat) :=
  match op with
  | .dadd => some (fFp64.addC a b)
  | .dmul => some (fFp64.mulC a b)
  | .dfma => some (fFp64.fmaC a b c)
  | .ddiv => some (fFp64.divC a b)
  | .dsqrt => some (fFp64.sqrtC a)
  | _ => none

/-! ### VECTOR_INSTRUCTION (R120 to R123) -/

/-- The operation works on register pairs. -/
def wideOp : VOp → Bool
  | .dadd | .dmul | .dfma | .ddiv | .dsqrt => true
  | _ => false

/-- What one lane does. -/
structure LaneOut where
  regs : List (Nat × Nat) := []
  store : Option (Nat × Nat) := none
  flags : Nat := 0
deriving DecidableEq, Repr

/-- The command that the context on a Churn runs. -/
def Dev.commandOn (s : Dev) (n : Nat) : Option Command :=
  (s.resident n).bind fun r => (s.job? r.job).bind fun j => j.cmd?

/-- The threads of the launch that runs on a Churn (R120); none where no launch does. -/
def Dev.threadsOn (s : Dev) (n : Nat) : Option Nat :=
  match s.commandOn n with
  | some (.kernel _ _ _ _ _ t _) => some t
  | _ => none

/-- The registers of a thread: those that the launched kernel declares; where no launch runs, those of the instruction (R121). -/
def Dev.regsOn (s : Dev) (n : Nat) (op : VectorOp) : Nat :=
  match s.commandOn n with
  | some (.kernel r _ _ _ _ _ _) => 8 * r
  | _ => op.regs

/-- The local store offset of a load or store of a lane. -/
def laneAddr (u : Churn) (op : VectorOp) (regs l : Nat) : Nat := u.reg (regKey l op.gang regs op.a) + op.imm

/-- The partial sums of an output tile that have arrived at the job on a Churn (R125). -/
def Dev.partialsOn (s : Dev) (n tile : Nat) : List PartialSum :=
  match (s.resident n).bind fun r => s.job? r.job with
  | some j => j.partials.filter fun p => p.tile == tile
  | none => []

/-- Some partial sums combined for a cell (R125 to R127): integers exactly, saturated after the last addition; FP32 codes in order of
arrival, or in reproducible mode in a balanced tree over their piece indices. [DEDUCED, log 63] -/
def combineSums (repro : Bool) (l : List PartialSum) (k : Nat) : Nat × Nat :=
  let val := fun (p : PartialSum) => (tabFind? p.vals k).getD 0
  if l.all fun p => p.ints then
    let z := (l.map val).foldl (· + ·) 0
    (satInt z, if fitsS 32 z then 0 else excSat)
  else if repro then
    treeSum l.length ((sortBy (fun (p : PartialSum) => (p.piece : Int)) l).map fun p => (val p).toNat) 0
  else match l with
    | [] => (0, 0)
    | p :: t => t.foldl (fun a p => let x := fFp32.addC a.1 (val p).toNat; (x.1, a.2 ||| ownFlags x.2)) ((val p).toNat, 0)

/-- What lane `l` does. -/
def Dev.laneOut (s : Dev) (n : Nat) (op : VectorOp) (l : Nat) : LaneOut :=
  let u := s.churn n
  let regs := s.regsOn n op
  let k := fun r => regKey l op.gang regs r
  let x := fun r => u.reg (k r)
  let w := fun r => u.reg (k r) + u.reg (k (r + 1)) * 2 ^ 32
  let cell := 64 * (op.imm % 128) + l
  match op.op with
  | .load => { regs := [(k op.d, s.leRead (lsOf n + laneAddr u op regs l) 4)] }
  | .store => { store := some (laneAddr u op regs l, x op.b) }
  | .latch =>
    { regs := [(k op.d, if bit op.imm 7 then wrap 32 ((tabFind? u.acc cell).getD 0 / 2 ^ 32) else (tabFind? u.latch cell).getD 0)] }
  | .tid => { regs := [(k op.d, wrap 32 (op.thread + l))] }
  | .combine =>
    let r := combineSums (s.flag .CHN_STAT_MODE n) (s.partialsOn n (op.imm / 128)) cell
    { regs := [(k op.d, r.1)], flags := r.2 }
  | o => match op32 o (x op.a) (x op.b) (x op.c) with
    | some r => { regs := [(k op.d, r.1)], flags := r.2 }
    | none => match op64 o (w op.a) (w op.b) (w op.c) with
      | some r => { regs := [(k op.d, wrap 32 r.1), (k (op.d + 1), r.1 / 2 ^ 32)], flags := r.2 }
      | none => {}

/-- The lanes that take part: those of the mask whose threads the launch has (R120). -/
def Dev.activeLanes (s : Dev) (n : Nat) (op : VectorOp) : List Nat :=
  (bitsSet 64 op.mask).filter fun l => match s.threadsOn n with
    | some t => decide (op.thread + l < t)
    | none => true

/-- The registers that an instruction names lie within the thread's `regs`. [DEDUCED, log 72] -/
def vectorRegsOk (op : VectorOp) (regs : Nat) : Bool :=
  let extra := if wideOp op.op then 1 else 0
  let used := match op.op with
    | .load => [op.d, op.a]
    | .latch | .tid | .combine => [op.d]
    | .store => [op.a, op.b]
    | .augment _ => []
    | _ => [op.d, op.a, op.b, op.c]
  used.all fun r => decide (r + extra < regs)

/-- The instruction error of a vector instruction, 0 for none (R121, R132). [DEDUCED, log 72] -/
def Dev.vectorError (s : Dev) (n : Nat) (op : VectorOp) : Nat :=
  let u := s.churn n
  let regs := s.regsOn n op
  let mem := match op.op with
    | .load | .store => (s.activeLanes n op).any fun l => decide (lsSize < laneAddr u op regs l + 4)
    | _ => false
  leastCode
    [ (mem, 3),
      (!inRange 8 256 regs || regs % 8 != 0 || decide (residentGangs regs ≤ op.gang) || !vectorRegsOk op regs, 4) ]

/-- The gang may issue: it does not wait at a barrier (R122), and the partial sums that it combines have all arrived (R127). -/
def Dev.gangReady (s : Dev) (n : Nat) (op : VectorOp) : Bool :=
  !(s.churn n).barrier.contains op.gang &&
    (op.op != .combine || decide (op.sums ≤ (s.partialsOn n (op.imm / 128)).length))

/-- The lanes of a gang act: every lane's registers are written, then the stores in ascending order of lanes. -/
def Dev.runLanes (s : Dev) (n : Nat) (op : VectorOp) : Dev :=
  let outs := (s.activeLanes n op).map fun l => s.laneOut n op l
  let u := outs.foldl (fun (u : Churn) o => o.regs.foldl (fun (u : Churn) e => u.setReg e.1 e.2) u) (s.churn n)
  let s := outs.foldl (fun (d : Dev) o => match o.store with
    | some (a, v) => d.leWrite (lsOf n + a) 4 v
    | none => d) (s.setChurn n u)
  s.raiseExc n (outs.foldl (fun f o => f ||| o.flags) 0)

/-! ### CONVERT_INSTRUCTION and MX_QUANTISE (R117 to R119) -/

/-- The seed of the job whose context a Churn holds (R117). -/
def Dev.seedOf (s : Dev) (n : Nat) : Nat :=
  match (s.resident n).bind fun r => s.job? r.job with
  | some j => j.seed
  | none => 0

/-- Write `w`-bit elements from `base` on. -/
def Dev.putElems (s : Dev) (n base w : Nat) (l : List Nat) : Dev :=
  l.zipIdx.foldl (fun (d : Dev) e => d.putElem n base w e.2 e.1) s

/-- The result of each element of a conversion, with its flags. -/
def Dev.converted (s : Dev) (n : Nat) (op : ConvertOp) : List (Nat × Nat) :=
  (upTo op.n).map fun i =>
    let v := if op.wide then fFp64.decode (s.lsElem n op.src 64 i) else fFp32.decode (s.lsElem n op.src 32 i)
    narrowTo op.target op.mode (rsOf (s.seedOf n) op.thread op.addr i) v

/-- CONVERT_INSTRUCTION. -/
def Dev.convertInstruction (s : Dev) (n : Nat) (op : ConvertOp) : Dev :=
  let from_ := elemBytes (if op.wide then 64 else 32) op.n
  if lsSize < op.src + from_ ∨ lsSize < op.dst + elemBytes (cvtBits op.target) op.n then s.instrError n 3
  else
    let l := s.converted n op
    (s.putElems n op.dst (cvtBits op.target) (l.map fun e => e.1)).raiseExc n (l.foldl (fun f e => f ||| e.2) 0)

def execConvertInstruction (chn : Fin 16) (op : ConvertOp) (s : State) : Host.Outcome State Fault Refusal :=
  s.run (.convertInstruction chn op) fun d => d.convertInstruction chn op

/-- *e*max of an MX element format (R119). -/
def mxEmax : OpFmt → Int
  | .mxE4m3 => 8
  | .mxE5m2 => 15
  | .mxFp4 => 2
  | _ => 0

/-- ⌊log₂ |v|⌋ of a value that is not zero; above every exponent for an infinity. -/
def floorLog2 (v : FVal) : Int :=
  match v with
  | .fin _ m e => (Nat.log2 m : Int) + e
  | _ => 1024

/-- The value is zero. -/
def isZero : FVal → Bool
  | .fin _ m _ => m == 0
  | _ => false

/-- The scale code of a block (R119). -/
def mxScale (f : OpFmt) (l : List FVal) : Nat :=
  if l.any FVal.isNan then 255
  else
    let l := l.filter fun v => !isZero v
    match l with
    | [] => 0
    | v :: l =>
      let x := l.foldl (fun m v => max m (floorLog2 v)) (floorLog2 v) - mxEmax f + 127
      (max 0 (min 254 x)).toNat

/-- A value times a power of two. -/
def scaled (v : FVal) (k : Int) : FVal :=
  match v with
  | .fin s m e => .fin s m (e + k)
  | v => v

/-- An element of an MX block, with its flags. -/
def mxElem (f : OpFmt) (mode : Rounding) (rs : Nat) (v : FVal) : Nat × Nat :=
  match f with
  | .mxE5m2 => fE5m2.saturate mode rs v
  | .mxFp4 => fE2m1.saturate mode rs v
  | .mxInt8 => toIntCode true 8 mode rs (scaled v 6)
  | _ => fE4m3.saturate mode rs v

/-- MX_QUANTISE: the scale byte, and 32 elements. -/
def Dev.mxQuantise (s : Dev) (n : Nat) (op : MxOp) : Dev :=
  let e := leastCode [(!opMx op.fmt, 2),
    (decide (lsSize < op.src + 128) || decide (lsSize < op.dst + elemBytes (opBits op.fmt) 32) || decide (lsSize ≤ op.scale), 3)]
  if e ≠ 0 then s.instrError n e
  else
    let vs := (upTo 32).map fun i => fFp32.decode (s.lsElem n op.src 32 i)
    let x := mxScale op.fmt vs
    let seed := s.seedOf n
    let l := vs.zipIdx.map fun e => mxElem op.fmt op.mode (rsOf seed op.thread op.addr e.2) (scaled e.1 (127 - (x : Int)))
    let s := s.putElems n op.dst (opBits op.fmt) (l.map fun e => e.1)
    (s.putByte (lsOf n + op.scale) (BitVec.ofNat 8 x)).raiseExc n (l.foldl (fun f e => f ||| e.2) 0)

def execMxQuantise (chn : Fin 16) (op : MxOp) (s : State) : Host.Outcome State Fault Refusal :=
  s.run (.mxQuantise chn op) fun d => d.mxQuantise chn op

/-! ### BFLY4 and BFLY2 (R124) -/

/-- A complex number as two codes, and the flags raised so far. -/
structure Cplx where
  re : Nat
  im : Nat
  fl : Nat := 0
deriving DecidableEq, Repr

/-- The code with its sign changed. -/
def FloatFmt.negC (f : FloatFmt) (a : Nat) : Nat := a ^^^ 2 ^ (f.w - 1)

/-- Sum of complex numbers, each addition rounded. -/
def Cplx.add (f : FloatFmt) (a b : Cplx) : Cplx :=
  let x := f.addC a.re b.re
  let y := f.addC a.im b.im
  { re := x.1, im := y.1, fl := a.fl ||| b.fl ||| ownFlags x.2 ||| ownFlags y.2 }

/-- The opposite. -/
def Cplx.opp (f : FloatFmt) (a : Cplx) : Cplx := { a with re := f.negC a.re, im := f.negC a.im }

/-- −i times a number. -/
def Cplx.turn (f : FloatFmt) (a : Cplx) : Cplx := { a with re := a.im, im := f.negC a.re }

/-- x × p + y × q with one product rounded by itself and the other in the fused addition. [DESIGN CHOICE, log 69] -/
def FloatFmt.dot (f : FloatFmt) (x p y q : Nat) : Nat × Nat :=
  let (x, p, y, q) := if Config.bflyOrder then (x, p, y, q) else (y, q, x, p)
  let a := f.mulC x p
  let b := f.fmaC y q a.1
  (b.1, ownFlags a.2 ||| ownFlags b.2)

/-- The multiplication by a twiddle. -/
def Cplx.mul (f : FloatFmt) (a w : Cplx) : Cplx :=
  let x := f.dot a.re w.re (f.negC a.im) w.im
  let y := f.dot a.re w.im a.im w.re
  { re := x.1, im := y.1, fl := a.fl ||| w.fl ||| x.2 ||| y.2 }

/-- The format of a butterfly. -/
def bflyFmt (wide : Bool) : FloatFmt := if wide then fFp64 else fFp32

/-- The complex number at a local store offset, with the flag of a NaN. -/
def Dev.cplxAt (s : Dev) (n a : Nat) (wide : Bool) : Cplx :=
  let f := bflyFmt wide
  let b := f.w / 8
  let re := s.leRead (lsOf n + a) b
  let im := s.leRead (lsOf n + a + b) b
  { re := re, im := im, fl := if (f.decode re).isNan || (f.decode im).isNan then excNvin else 0 }

/-- Write a complex number. -/
def Dev.putCplx (s : Dev) (n a : Nat) (wide : Bool) (z : Cplx) : Dev :=
  let b := (bflyFmt wide).w / 8
  (s.leWrite (lsOf n + a) b z.re).leWrite (lsOf n + a + b) b z.im

/-- The sizes of the butterfly instructions: 4^n or 2 × 4^n, at most 65,536 points. -/
def bflySize (n : Nat) : Bool := ([4, 16, 64, 256, 1024, 4096, 16384, 65536, 2, 8, 32, 128, 512, 2048, 8192, 32768] : List Nat).contains n

/-- The `d` base-4 digits of `i` in reverse. -/
def reverse4 : Nat → Nat → Nat
  | 0, _ => 0
  | d + 1, i => i % 4 * 4 ^ d + reverse4 d (i / 4)

/-- The digits of a size 4^n; none for another size. -/
def digits4 (size : Nat) : Option Nat := (upTo 9).find? fun d => 4 ^ d == size

/-- Bytes of a complex value. -/
def bflyBytes (op : BflyOp) : Nat := (bflyFmt op.wide).w / 4

/-- The place of value `q` in an array of the transform. -/
def bflyPlace (op : BflyOp) (q : Nat) : Nat := op.index + q * op.stride

/-- The place from which value `q` is read: the address generator reverses the digits of a size 4^n (R124). -/
def bflyReadPlace (op : BflyOp) (q : Nat) : Nat :=
  match op.reverse, digits4 op.size with
  | true, some d => reverse4 d (bflyPlace op q)
  | _, _ => bflyPlace op q

/-- The local store offset from which value `q` is read, and that to which result `q` is written. -/
def bflyFrom (op : BflyOp) (q : Nat) : Nat := op.src + bflyReadPlace op q * bflyBytes op
def bflyTo (op : BflyOp) (q : Nat) : Nat := op.dst + bflyPlace op q * bflyBytes op

/-- The instruction error of a butterfly of `k` values and `t` twiddles, 0 for none. -/
def bflyError (op : BflyOp) (k t : Nat) : Nat :=
  let outside := (upTo k).any fun q => decide (lsSize < bflyFrom op q + bflyBytes op) || decide (lsSize < bflyTo op q + bflyBytes op)
  leastCode [(outside || decide (lsSize < op.twiddle + t * bflyBytes op), 3), (!bflySize op.size, 6)]

/-- The results are written, with the flags of all. -/
def Dev.putCplxs (s : Dev) (n : Nat) (op : BflyOp) (l : List Cplx) : Dev :=
  (l.zipIdx.foldl (fun (d : Dev) e => d.putCplx n (bflyTo op e.2) op.wide e.1) s).raiseExc n (l.foldl (fun f z => f ||| z.fl) 0)

/-- Value `q` of a butterfly, and twiddle `q`. -/
def Dev.bflyIn (s : Dev) (n : Nat) (op : BflyOp) (q : Nat) : Cplx := s.cplxAt n (bflyFrom op q) op.wide
def Dev.twiddle (s : Dev) (n : Nat) (op : BflyOp) (q : Nat) : Cplx := s.cplxAt n (op.twiddle + q * bflyBytes op) op.wide

/-- BFLY4: three twiddle multiplications, then the radix-4 sums. -/
def Dev.bfly4 (s : Dev) (n : Nat) (op : BflyOp) : Dev :=
  let e := bflyError op 4 3
  if e ≠ 0 then s.instrError n e
  else
    let f := bflyFmt op.wide
    let x := s.bflyIn n op
    let w := s.twiddle n op
    let a := x 0
    let t1 := (x 1).mul f (w 0)
    let t2 := (x 2).mul f (w 1)
    let t3 := (x 3).mul f (w 2)
    let p := Cplx.add f a t2
    let q := Cplx.add f a (t2.opp f)
    let r := Cplx.add f t1 t3
    let d := (Cplx.add f t1 (t3.opp f)).turn f
    s.putCplxs n op [Cplx.add f p r, Cplx.add f q d, Cplx.add f p (r.opp f), Cplx.add f q (d.opp f)]

def execBfly4 (chn : Fin 16) (op : BflyOp) (s : State) : Host.Outcome State Fault Refusal :=
  s.run (.bfly4 chn op) fun d => d.bfly4 chn op

/-- BFLY2: one twiddle multiplication, sum and difference. -/
def Dev.bfly2 (s : Dev) (n : Nat) (op : BflyOp) : Dev :=
  let e := bflyError op 2 1
  if e ≠ 0 then s.instrError n e
  else
    let f := bflyFmt op.wide
    let a := s.bflyIn n op 0
    let t := (s.bflyIn n op 1).mul f (s.twiddle n op 0)
    s.putCplxs n op [Cplx.add f a t, Cplx.add f a (t.opp f)]

def execBfly2 (chn : Fin 16) (op : BflyOp) (s : State) : Host.Outcome State Fault Refusal :=
  s.run (.bfly2 chn op) fun d => d.bfly2 chn op

/-! ### GROUP_BARRIER (R122) -/

/-- Gangs in a group of the kernel that runs on a Churn. -/
def Dev.groupSize (s : Dev) (n : Nat) : Nat :=
  match s.commandOn n with
  | some (.kernel _ g _ _ _ _ _) => max 1 g
  | _ => 1

/-- The gangs of the group of a gang whose first thread is `thread`: the last group of a launch may have fewer than `GROUP`. -/
def Dev.groupOn (s : Dev) (n gang thread : Nat) : List Nat :=
  let g := s.groupSize n
  let base := gang / g * g
  (rangeFrom base g).filter fun k => k == gang || match s.threadsOn n with
    | some t => decide (thread + 64 * k < t + 64 * gang)
    | none => true

/-- A gang arrives at its group's barrier and waits there; when every gang of the group has arrived they go on. Stores take effect at
once, so they are visible to every later load. [DEDUCED, log 72] -/
def Dev.groupBarrier (s : Dev) (n gang thread : Nat) : Dev :=
  let u := s.churn n
  let l := if u.barrier.contains gang then u.barrier else gang :: u.barrier
  let group := s.groupOn n gang thread
  let l := if group.all fun k => l.contains k then l.filter fun k => !group.contains k else l
  s.setChurn n { u with barrier := l }

def execGroupBarrier (chn : Fin 16) (gang : GangAt) (s : State) : Host.Outcome State Fault Refusal :=
  s.run (.groupBarrier chn gang) fun d => d.groupBarrier chn gang.gang gang.thread

end Sys2Proof.Machine
end

