-- ==== Sys2Proof/Machine/Window.lean ====
section
/-! DEFINITION. Window operators (R133 to R149): convolution on the array, pooling on the vector side, over maps in local
store. -/

namespace Sys2Proof.Machine

open Sys2Proof

/-! ### Maps in local store (R134 to R137) -/

/-- The operand format of a map format; INT32 maps feed no matrix instruction. -/
def mapFmt (fmt : Nat) : Option OpFmt :=
  match fmt with
  | 0 => some .int8
  | 1 => some .int4
  | 2 => some .e4m3
  | 3 => some .e5m2
  | 4 => some .fp16
  | 5 => some .bf16
  | 6 => some .fp32
  | 8 => some .fp64
  | 9 => some .u16
  | 10 => some .mxE4m3
  | 11 => some .mxE5m2
  | 12 => some .mxFp4
  | 13 => some .mxInt8
  | _ => none

/-- The stored row of a row (R133). -/
def storedRow (m : MapDesc) (y : Nat) : Nat := if m.ring then y % max 1 m.ringRows else y

/-- The offset of a row of a plane of a map. -/
def rowBase (m : MapDesc) (c y : Nat) : Nat := m.base + c * m.planePitch + storedRow m y * m.rowPitch

/-- The code of an element of a map. -/
def Dev.mapElem (s : Dev) (n : Nat) (m : MapDesc) (c y x : Nat) : Nat := s.lsElem n (rowBase m c y) (fmtBits m.fmt) x

/-- The scale code of a channel group of an MX map (R137). -/
def Dev.mapScale (s : Dev) (n : Nat) (m : MapDesc) (j y x : Nat) : Nat :=
  (s.byteAt (lsOf n + m.expBase + j * m.sPlanePitch + storedRow m y * ((m.w + 127) / 128 * 128) + x)).toNat

/-- The map lies wholly in local store. -/
def mapFits (m : MapDesc) : Bool :=
  let rows := if m.ring then m.ringRows else m.h
  decide (m.base + (m.c - 1) * m.planePitch + (rows - 1) * m.rowPitch + elemBytes (fmtBits m.fmt) m.w ≤ lsSize) &&
    (!fmtMx m.fmt || decide (m.expBase + (m.c / 32 - 1) * m.sPlanePitch + rows * ((m.w + 127) / 128 * 128) ≤ lsSize))

/-! ### Taps (R139, R140, R144) -/

/-- An input coordinate under the padding: a coordinate of the input, or none where a padding value stands (R140).
[DEDUCED, log 71] -/
def padCoord (mode n : Nat) (u : Int) : Option Nat :=
  if 0 ≤ u ∧ u < n then some u.toNat
  else
    let last : Int := (n : Int) - 1
    match mode with
    | 2 => some (max 0 (min last (if u < 0 then -u else 2 * last - u))).toNat
    | 3 => some (max 0 (min last u)).toNat
    | _ => none

/-- The outputs of an instruction, as a range. -/
def windowRange (op : WindowOp) : OutRange := { y0 := op.y0, y1 := op.y1, x0 := op.x0, x1 := op.x1, c0 := op.c0, c1 := op.c1 }

/-- The window error of an instruction, 0 for none. -/
def opCode (op : WindowOp) : Nat := windowCode op.src op.dst op.win (windowRange op)

/-- The rows that an instruction's input has. -/
def windowRows (op : WindowOp) : Nat := inRows op.src op.win op.segRows

/-- The row of the stream that stands at row `y` of the input: a rolling band counts from its segment's start. -/
def streamRow (op : WindowOp) (y : Nat) : Nat := if op.win.vroll then op.segStart + y else y

/-- The input row and column of a tap. -/
def tapAt (op : WindowOp) (y x i j : Nat) : Int × Int :=
  ((y * op.win.sh : Nat) - (op.win.pt : Int) + (i * op.win.dh : Nat), (x * op.win.sw : Nat) - (op.win.pl : Int) + (j * op.win.dw : Nat))

/-- The code and scale code of channel `c` at a tap. [DEDUCED, log 71] -/
def Dev.tap (s : Dev) (n : Nat) (op : WindowOp) (c : Nat) (t : Int × Int) : Nat × Nat :=
  match padCoord op.win.padMode (windowRows op) t.1, padCoord op.win.padMode op.src.w t.2 with
  | some y, some x =>
    (s.mapElem n op.src c (streamRow op y) x, if fmtMx op.src.fmt then s.mapScale n op.src (c / 32) (streamRow op y) x else 0)
  | _, _ => (if op.win.padMode = 1 then wrap (fmtBits op.src.fmt) op.win.padVal else 0, 0)

/-! ### Results -/

/-- A value in a map format that is no MX format, with the flags of the conversion (R117, R118). U16 is a conversion target of no
rule: it saturates as the unsigned integers do. [DEDUCED, log 71] -/
def toMapFmt (fmt : Nat) (signed : Bool) (mode : Rounding) (rs : Nat) (v : FVal) : Nat × Nat :=
  match fmt with
  | 0 => toIntCode signed 8 mode rs v
  | 1 => toIntCode signed 4 mode rs v
  | 2 => fE4m3.saturate mode rs v
  | 3 => fE5m2.saturate mode rs v
  | 4 => fFp16.saturate mode rs v
  | 5 => fBf16.narrow mode rs v
  | 6 => fFp32.narrow mode rs v
  | 7 => toIntCode true 32 mode rs v
  | 8 => fFp64.rne v
  | _ => toIntCode false 16 mode rs v

/-- The outputs of an instruction: channel, row, column. [DEDUCED, log 71] -/
def outputsOf (r : OutRange) : List (Nat × Nat × Nat) :=
  (rangeFrom r.c0 (r.c1 - r.c0)).flatMap fun o => (rangeFrom r.y0 (r.y1 - r.y0)).flatMap fun y =>
    (rangeFrom r.x0 (r.x1 - r.x0)).map fun x => (o, y, x)

/-- How results are written to a map: the map, the sign of its integers, the rounding mode, and the seed and instruction address
that key RS. -/
structure Sink where
  map : MapDesc
  signed : Bool
  mode : Rounding
  seed : Nat
  addr : Nat
deriving DecidableEq, Repr

/-- The random bits of an output: its thread is its place in the map (R117, R148). -/
def Sink.rs (k : Sink) (o y x : Nat) : Nat := rsOf k.seed ((o * k.map.h + y) * k.map.w + x) k.addr 0

/-- Write one element of a map that is no MX map. -/
def Dev.putOutput (s : Dev) (n : Nat) (k : Sink) (o y x : Nat) (v : FVal) : Dev × Nat :=
  let c := toMapFmt k.map.fmt k.signed k.mode (k.rs o y x) v
  (s.putElem n (rowBase k.map o y) (fmtBits k.map.fmt) x c.1, c.2)

/-- Write the channels `[a, e)` of one block of an MX map at a place: the scale of those channels' values, and the elements
(R119, R137). -/
def Dev.putMxBlock (s : Dev) (n : Nat) (k : Sink) (a e y x : Nat) (val : Nat → FVal) : Dev × Nat :=
  let f := (mapFmt k.map.fmt).getD .mxInt8
  let vs := (rangeFrom a (e - a)).map fun o => (o, val o)
  let scale := mxScale f (vs.map fun v => v.2)
  let place := lsOf n + k.map.expBase + a / 32 * k.map.sPlanePitch + storedRow k.map y * ((k.map.w + 127) / 128 * 128) + x
  vs.foldl (fun (d : Dev × Nat) v =>
    let c := mxElem f k.mode (k.rs v.1 y x) (scaled v.2 (127 - (scale : Int)))
    (d.1.putElem n (rowBase k.map v.1 y) (fmtBits k.map.fmt) x c.1, d.2 ||| c.2))
    (s.putByte place (BitVec.ofNat 8 scale), 0)

/-- Write results to a map, and raise the flags of their conversion and `fl`. -/
def Dev.putOutputs (s : Dev) (n : Nat) (k : Sink) (r : OutRange) (val : Nat → Nat → Nat → FVal) (fl : Nat) : Dev :=
  let d := if fmtMx k.map.fmt then
      (rangeFrom (r.c0 / 32) ((r.c1 + 31) / 32 - r.c0 / 32)).foldl (fun (d : Dev × Nat) j =>
        (outputsOf { r with c0 := 0, c1 := 1 }).foldl (fun (d : Dev × Nat) q =>
          let x := d.1.putMxBlock n k (max r.c0 (32 * j)) (min r.c1 (32 * j + 32)) q.2.1 q.2.2 fun o => val o q.2.1 q.2.2
          (x.1, d.2 ||| x.2)) d) (s, 0)
    else (outputsOf r).foldl (fun (d : Dev × Nat) q =>
      let x := d.1.putOutput n k q.1 q.2.1 q.2.2 (val q.1 q.2.1 q.2.2)
      (x.1, d.2 ||| x.2)) (s, 0)
  d.1.raiseExc n (fl ||| ownFlags d.2)

/-- Where the results of an instruction go. -/
def Dev.sinkOf (s : Dev) (n : Nat) (op : WindowOp) : Sink :=
  { map := op.dst, signed := op.signedD, mode := op.mode, seed := s.seedOf n, addr := op.addr }

/-! ### CONVOLUTION (R141, R149) -/

/-- Groups in a span (R149). -/
def spanGroups (w : WinDesc) : Nat := max 1 (64 / max 1 (w.cout / max 1 w.groups))

/-- Input channels of a group. -/
def groupIn (op : WindowOp) : Nat := op.src.c / max 1 op.win.groups

/-- Input channels of the reduction span: all of them for one group. -/
def spanIn (op : WindowOp) : Nat := if op.win.groups = 1 then op.src.c else spanGroups op.win * groupIn op

/-- The first input channel of the span of an output channel. -/
def spanFirst (op : WindowOp) (o : Nat) : Nat :=
  if op.win.groups = 1 then 0 else o / max 1 (op.win.cout / max 1 op.win.groups) / spanGroups op.win * spanIn op

/-- The reduction length. -/
def windowK (op : WindowOp) : Nat := op.win.kh * op.win.kw * spanIn op

/-- The taps of the reduction, in the order of R141: kernel row, kernel column, channel of the span innermost. -/
def reduction (op : WindowOp) : List (Nat × Nat × Nat) :=
  (upTo op.win.kh).flatMap fun i => (upTo op.win.kw).flatMap fun j => (upTo (spanIn op)).map fun c => (i, j, c)

/-- The code and scale code of a step of the reduction for an output; channels past the map's are zero. -/
def Dev.convTap (s : Dev) (n : Nat) (op : WindowOp) (o y x : Nat) (t : Nat × Nat × Nat) : Nat × Nat :=
  let c := spanFirst op o + t.2.2
  if op.src.c ≤ c then (0, 0) else s.tap n op c (tapAt op y x t.1 t.2.1)

/-- The weight of an output at a step of the reduction, and its scale code: the weight map holds span channel c of output o at kernel
row i and column j as element (c, o × KH + i, j). -/
def Dev.weight (s : Dev) (n : Nat) (op : WindowOp) (o : Nat) (t : Nat × Nat × Nat) : Nat × Nat :=
  let y := o * op.win.kh + t.1
  (s.mapElem n op.wmap t.2.2 y t.2.1, if fmtMx op.wmap.fmt then s.mapScale n op.wmap (t.2.2 / 32) y t.2.1 else 0)

/-- The operand formats of a convolution, and how their products are accumulated. -/
def windowPair (op : WindowOp) : Option (OpFmt × OpFmt × PairKind) :=
  (mapFmt op.src.fmt).bind fun a => (mapFmt op.wmap.fmt).bind fun b => (pairKind a b).map fun k => (a, b, k)

/-- One output of a convolution: the cell after its reduction. -/
def Dev.convCell (s : Dev) (n : Nat) (op : WindowOp) (f : OpFmt × OpFmt × PairKind) (o y x : Nat) : Cell :=
  let (fa, fb, kind) := f
  let l := (reduction op).map fun t => (s.convTap n op o y x t, s.weight n op o t)
  let scales := if kind = .mx then
      (upTo (windowK op / 32)).map fun q => let e := l.getD (32 * q) ((0, 0), (0, 0)); (e.1.2, e.2.2)
    else []
  Cell.reduce { anchor := if kind = .mx then mxAnchor fa fb scales else 0 } kind fa fb
    (l.map fun e => (elemVal fa op.signedA e.1.1, elemVal fb op.signedB e.2.1)) scales

/-- The value of a readout. -/
def readoutVal (kind : PairKind) (asInt : Bool) (code : Nat) : FVal :=
  if asInt then FVal.units (sgn 32 code) 0
  else match kind with
    | .single f => f.decode code
    | _ => fFp32.decode code

/-- The readout of a cell of a convolution, with its flags. -/
def windowReadout (op : WindowOp) (f : OpFmt × OpFmt × PairKind) (c : Cell) : Nat × Nat := c.read f.2.2 f.1 f.2.1 op.readInt

/-- The result of one output of a convolution, before its conversion. -/
def Dev.convVal (s : Dev) (n : Nat) (op : WindowOp) (f : OpFmt × OpFmt × PairKind) (o y x : Nat) : FVal :=
  readoutVal f.2.2 op.readInt (windowReadout op f (s.convCell n op f o y x)).1

/-- The cell of the array that an output occupies in its tile: 128 consecutive pixels in raster order by 64 consecutive channels. -/
def OutRange.cell (r : OutRange) (o y x : Nat) : Nat :=
  64 * (((y - r.y0) * (r.x1 - r.x0) + (x - r.x0)) % 128) + (o - r.c0) % 64

/-- The array after a convolution: every cell has its latest output's accumulator and readout (R108, R141). -/
def Churn.takeTiles (u : Churn) (op : WindowOp) (f : OpFmt × OpFmt × PairKind) (l : List ((Nat × Nat × Nat) × Cell)) : Churn :=
  let u := l.foldl (fun (u : Churn) e =>
    let k := (windowRange op).cell e.1.1 e.1.2.1 e.1.2.2
    { u with
      acc := tabSet (fun _ => 0) u.acc k (e.2.stored f.2.2), sticky := tabSet (fun _ => 0) u.sticky k e.2.sticky
      anchor := tabSet (fun _ => 0) u.anchor k e.2.anchor
      latch := tabSet (fun _ => 0) u.latch k (wrap 32 (windowReadout op f e.2).1) }) u
  { u with reduced := windowK op }

/-- The instruction error of a convolution, 0 for none. -/
def convError (op : WindowOp) : Nat :=
  let k := windowK op
  let fa := (mapFmt op.src.fmt).getD .u16
  let fb := (mapFmt op.wmap.fmt).getD .u16
  let whole := decide (spanIn op ≤ op.wmap.c) && decide (op.c1 * op.win.kh ≤ op.wmap.h) && decide (op.win.kw ≤ op.wmap.w) &&
    !op.wmap.ring && op.wmap.layout == 0
  leastCode
    [ (k == 0 || decide (131072 < k), 1), ((windowPair op).isNone || (op.readInt && !(opInt fa && opInt fb)), 2),
      (!mapFits op.src || !mapFits op.dst || !mapFits op.wmap, 3),
      (opCode op != 0 || mapError op.wmap != 0 || !whole || op.src.layout != 0 || op.dst.layout != 0 || op.win.op != 0, 4),
      (opMx fa && spanIn op % 32 != 0, 5) ]

/-- CONVOLUTION. -/
def Dev.convolution (s : Dev) (n : Nat) (op : WindowOp) : Dev :=
  let e := convError op
  if e = 1 then (s.raiseExc n excKlim).instrError n 1
  else if e ≠ 0 then s.instrError n e
  else match windowPair op with
    | none => s.instrError n 2
    | some f =>
      let l := (outputsOf (windowRange op)).map fun q => (q, s.convCell n op f q.1 q.2.1 q.2.2)
      let fl := l.foldl (fun a e => a ||| e.2.flags ||| (windowReadout op f e.2).2) 0
      (s.setChurn n ((s.churn n).takeTiles op f l)).putOutputs n (s.sinkOf n op) (windowRange op) (s.convVal n op f) fl

def execConvolution (chn : Fin 16) (op : WindowOp) (s : State) : Host.Outcome State Fault Refusal :=
  s.run (.convolution chn op) fun d => d.convolution chn op

/-! ### POOLING (R148) -/

/-- The value of an element of a map. -/
def elemOf (fmt : Nat) (signed : Bool) (code scale : Nat) : FVal :=
  if fmt = 7 then .fin (decide (sgn 32 code < 0)) (sgn 32 code).natAbs 0
  else
    let v := elemVal ((mapFmt fmt).getD .int8) signed code
    if fmtMx fmt then (if scale = 255 then .nan else scaled v ((scale : Int) - 127)) else v

/-- The values of the taps inside the input, in ascending order of kernel row and column. -/
def Dev.poolTaps (s : Dev) (n : Nat) (op : WindowOp) (c y x : Nat) : List FVal :=
  let taps := (upTo op.win.kh).flatMap fun i => (upTo op.win.kw).map fun j => tapAt op y x i j
  (taps.filter fun t => decide (0 ≤ t.1 ∧ t.1 < ((windowRows op) : Int) ∧ 0 ≤ t.2 ∧ t.2 < (op.src.w : Int))).map fun t =>
    let e := s.tap n op c t
    elemOf op.src.fmt op.signedA e.1 e.2

/-- The map format holds integers. -/
def fmtInt (fmt : Nat) : Bool := fmt == 0 || fmt == 1 || fmt == 7 || fmt == 9

/-- The signed integer that a value is. -/
def intOf : FVal → Int
  | .fin s m e => if s then -((m * 2 ^ e.toNat : Nat) : Int) else (m * 2 ^ e.toNat : Nat)
  | _ => 0

/-- Division rounded to nearest, ties to even. -/
def divEven (a : Int) (b : Nat) : Int :=
  let q := a / b
  let r := a % b
  if 2 * r > b ∨ (2 * r = b ∧ q % 2 = 1) then q + 1 else q

/-- The result of pooling some taps as a value, with the flags raised (R148). -/
def poolValue (op : WindowOp) (l : List FVal) : FVal × Nat :=
  let nv := if l.any FVal.isNan then excNvin else 0
  match l with
  | [] => (.fin false 0 0, 0)
  | v :: t =>
    if op.win.op = 1 then (t.foldl FVal.maxNum v, nv)
    else if fmtInt op.src.fmt then
      let z := divEven (l.foldl (fun a v => a + intOf v) 0) l.length
      (.fin (decide (z < 0)) z.natAbs 0, 0)
    else
      let r := t.foldl (fun a v =>
        let x := fFp32.addC a.1 (fFp32.rne v).1
        (x.1, a.2 ||| ownFlags x.2)) (fFp32.rne v)
      let d := fFp32.op [fFp32.decode r.1] ((fFp32.decode r.1).div (.fin false l.length 0))
      (fFp32.decode d.1, r.2 ||| ownFlags d.2 ||| nv)

/-- The instruction error of pooling, 0 for none. -/
def poolError (op : WindowOp) : Nat :=
  leastCode
    [ (!mapFits op.src || !mapFits op.dst, 3),
      (opCode op != 0 || op.src.layout != 0 || op.dst.layout != 0 || op.win.op == 0, 4) ]

/-- The result of one output of pooling, with its flags. -/
def Dev.poolOut (s : Dev) (n : Nat) (op : WindowOp) (c y x : Nat) : FVal × Nat := poolValue op (s.poolTaps n op c y x)

/-- POOLING. -/
def Dev.pooling (s : Dev) (n : Nat) (op : WindowOp) : Dev :=
  let e := poolError op
  if e ≠ 0 then s.instrError n e
  else
    let fl := (outputsOf (windowRange op)).foldl (fun a q => a ||| (s.poolOut n op q.1 q.2.1 q.2.2).2) 0
    s.putOutputs n (s.sinkOf n op) (windowRange op) (fun o y x => (s.poolOut n op o y x).1) fl

def execPooling (chn : Fin 16) (op : WindowOp) (s : State) : Host.Outcome State Fault Refusal :=
  s.run (.pooling chn op) fun d => d.pooling chn op

end Sys2Proof.Machine
end

