-- ==== Sys2Proof/Machine/Augment.lean ====
section
/-! DEFINITION. The augmentation kernel (R302, R303, R132): what it does with one sample in local store; and the vector instruction,
of which it is one operation. -/

namespace Sys2Proof.Machine

open Sys2Proof

/-! ### Draws (R302) -/

/-- The output words of a draw: of operation `op`, draw index `draw`. -/
def Dev.drawWords (s : Dev) (n : Nat) (a : AugOp) (op draw : Nat) : Nat × Nat :=
  let w := philox (s.seedOf n) a.sample a.epoch (op * 2 ^ 24 + draw) 0x54434800
  (w.1, w.2.1)

/-- The uniform number of an output word. -/
def uniform (w : Nat) : FVal := .fin false (w / 256) (-24)

/-! ### Operations (R303) -/

/-- An entry of the operation list: the code, and three FP32 parameters. -/
structure AugEntry where
  code : Nat
  p0 : FVal
  p1 : FVal
  p2 : FVal
deriving DecidableEq, Repr

/-- Entry `i` of the operation list: the code in byte 0, the parameters from byte 4 on. [DESIGN CHOICE, log 133] -/
def Dev.augEntry (s : Dev) (n : Nat) (a : AugOp) (i : Nat) : AugEntry :=
  let base := lsOf n + a.list + 16 * i
  let p := fun k => fFp32.decode (s.leRead (base + 4 + 4 * k) 4)
  { code := s.leRead base 1, p0 := p 0, p1 := p 1, p2 := p 2 }

/-- A sample in work: the value of a channel at a row and column. -/
abbrev AugImage := Nat → Nat → Nat → FVal

/-- A coordinate under edge repeat. -/
def edge (n : Nat) (u : Int) : Nat := (max 0 (min ((n : Int) - 1) u)).toNat

/-- The floor of a value, 0 where it has none. -/
def floorVal (v : FVal) : Int := floorUnits v 0

/-- SHIFT: ⌊u (2a + 1)⌋ − a. -/
def shiftBy (u a : FVal) : Int := floorVal (u.mul ((a.mul (.fin false 2 0)).add (.fin false 1 0))) - floorVal a

/-- From `a` to `b` at a uniform number. -/
def between (u a b : FVal) : FVal := a.add (u.mul (b.add a.neg))

/-- The place in a row of `n` that column `x` of a row scaled by `s` about its centre shows. [DESIGN CHOICE, log 133] -/
def scalePlace (s : FVal) (n x : Nat) : FVal :=
  let half := FVal.fin false (n - 1) (-1)
  half.add (((FVal.fin false x 0).add half.neg).div s)

/-- SCALE: bilinear interpolation at the scaled places. -/
def scaleAt (v : AugImage) (h w : Nat) (s : FVal) (c y x : Nat) : FVal :=
  let py := scalePlace s h y
  let px := scalePlace s w x
  let fy := py.add (FVal.units (-floorVal py) 0)
  let fx := px.add (FVal.units (-floorVal px) 0)
  let at_ := fun (dy dx : Int) => v c (edge h (floorVal py + dy)) (edge w (floorVal px + dx))
  between fy (between fx (at_ 0 0) (at_ 0 1)) (between fx (at_ 1 0) (at_ 1 1))

/-- The FP32 value of an operation on FP32 codes. -/
def fp32Of (r : Nat × Nat) : FVal := fFp32.decode r.1

/-- The code of a value rounded to FP32. -/
def fp32Code (v : FVal) : Nat := (fFp32.rne v).1

/-- NOISE of a pixel: σ × √(−2 ln u′) × cos(2π u₁), each step an FP32 operation of R123. [DESIGN CHOICE, log 133] -/
def noise (sigma : FVal) (w : Nat × Nat) : FVal :=
  let l := (approxOp .xlog2 (fp32Code (.fin false (w.1 / 256 + 1) (-24)))).1
  let minus2ln2 := fp32Code (FVal.units (-2 * fxLn2) (-256))
  let twoPi := fp32Code (FVal.units (2 * fxPi) (-256))
  let r := (fFp32.sqrtC (fFp32.mulC minus2ln2 l).1).1
  let c := (approxOp .xcos (fFp32.mulC twoPi (fp32Code (uniform w.2))).1).1
  fp32Of (fFp32.mulC (fFp32.mulC (fp32Code sigma) r).1 c)

/-- What one operation makes of a sample of `h` rows of `w`. [DESIGN CHOICE, log 133] -/
def Dev.augStep (s : Dev) (n : Nat) (a : AugOp) (i : Nat) (e : AugEntry) (h w : Nat) (v : AugImage) : AugImage :=
  let d := s.drawWords n a i 0
  let u0 := uniform d.1
  let u1 := uniform d.2
  match e.code with
  | 1 => if u0.lt e.p0 then fun c y x => v c y (w - 1 - x) else v
  | 2 => if u0.lt e.p0 then fun c y x => v c (h - 1 - y) x else v
  | 3 => fun c y x => v c (edge h (y - shiftBy u1 e.p1)) (edge w (x - shiftBy u0 e.p0))
  | 4 => scaleAt v h w (between u0 e.p0 e.p1)
  | 5 => fun c y x =>
    ((v c y x).mul (between u0 e.p0 e.p1)).add (e.p2.mul ((u1.mul (.fin false 2 0)).add (.fin true 1 0)))
  | 6 => fun c y x => (v c y x).add (noise e.p0 (s.drawWords n a i (y * w + x + 1)))
  | 7 =>
    let x0 := floorVal (u0.mul ((FVal.fin false (w + 1) 0).add e.p0.neg))
    let y0 := floorVal (u1.mul ((FVal.fin false (h + 1) 0).add e.p1.neg))
    fun c y x =>
      if x0 ≤ x ∧ (x : Int) < x0 + floorVal e.p0 ∧ y0 ≤ y ∧ (y : Int) < y0 + floorVal e.p1 then .fin false 0 0 else v c y x
  | _ => v

/-- The value that an operation's result has in the map: rounded to nearest even and saturated, a BF16 or FP32 one too (R303). -/
def augRound (fmt : Nat) (signed : Bool) (v : FVal) : Nat :=
  match fmt with
  | 5 => (fBf16.saturate .rne 0 v).1
  | 6 => (fFp32.saturate .rne 0 v).1
  | 8 => (fFp64.saturate .rne 0 v).1
  | f => (toMapFmt f signed .rne 0 v).1

/-- The outputs of a whole sample. -/
def augRange (a : AugOp) : OutRange := { y1 := a.map.h, x1 := a.map.w, c1 := a.map.c }

/-- The sample that local store holds. -/
def Dev.sampleIn (s : Dev) (n : Nat) (a : AugOp) : AugImage := fun c y x =>
  elemOf a.map.fmt a.signed (s.mapElem n a.map c y x) (if fmtMx a.map.fmt then s.mapScale n a.map (c / 32) y x else 0)

/-- A sample is written, and with it the rounding of the operation that made it. A step that yields no finite value, as a scale of
zero does, has no stated result: it is free. [DESIGN CHOICE, log 133] -/
def Dev.putSample (s : Dev) (n : Nat) (a : AugOp) (v : AugImage) : Dev :=
  if fmtMx a.map.fmt then
    s.putOutputs n { map := a.map, signed := a.signed, mode := .rne, seed := 0, addr := 0 } (augRange a) v 0
  else
    let w := fmtBits a.map.fmt
    let t := (outputsOf (augRange a)).zipIdx.foldl (fun (d : Dev) q =>
      let c := match v q.1.1 q.1.2.1 q.1.2.2 with
        | .fin g m e => augRound a.map.fmt a.signed (.fin g m e)
        | _ => wrap w (Config.freeNat (s.free + q.2))
      d.putElem n (rowBase a.map q.1.1 q.1.2.1) w q.1.2.2 c) s
    { t with free := s.free + a.map.c * a.map.h * a.map.w }

/-- The operation list passes the kernel's check: up to 16 entries, and no code of 8 to 255 (R303). -/
def Dev.augListOk (s : Dev) (n : Nat) (a : AugOp) : Bool :=
  decide (a.count ≤ 16) && (upTo a.count).all fun i => decide ((s.augEntry n a i).code < 8)

/-- The instruction error of the augmentation of a sample, 0 for none. -/
def Dev.augError (s : Dev) (n : Nat) (a : AugOp) : Nat :=
  leastCode [(decide (lsSize < a.list + 16 * a.count) || !mapFits a.map, 3),
    (mapError a.map != 0 || a.map.ring || a.map.layout != 0 || a.map.skim != 0, 4), (!s.augListOk n a, 7)]

/-- The augmentation of one sample: the operations in list order; the list is checked before anything is done. -/
def Dev.augment (s : Dev) (n : Nat) (a : AugOp) : Dev :=
  let e := s.augError n a
  if e ≠ 0 then s.instrError n e
  else
    (upTo a.count).foldl (fun (d : Dev) i =>
      let entry := s.augEntry n a i
      if entry.code = 0 then d else d.putSample n a (d.augStep n a i entry a.map.h a.map.w (d.sampleIn n a))) s

/-! ### VECTOR_INSTRUCTION (R120 to R123, R132, R303) -/

/-- VECTOR_INSTRUCTION: a gang that is not ready issues nothing. [DEDUCED, log 72] -/
def Dev.vectorInstruction (s : Dev) (n : Nat) (op : VectorOp) : Dev :=
  if !s.gangReady n op then s
  else
    let e := s.vectorError n op
    if e ≠ 0 then s.instrError n e
    else match op.op with
      | .augment a => s.augment n a
      | _ => s.runLanes n op

def execVectorInstruction (chn : Fin 16) (op : VectorOp) (s : State) : Host.Outcome State Fault Refusal :=
  s.run (.vectorInstruction chn op) fun d => d.vectorInstruction chn op

end Sys2Proof.Machine
end

