-- ==== Sys2Proof/Machine/CoaXPress.lean ====
section
/-! DEFINITION. The CoaXPress links (R46, R54 to R61, R431): discovery, link groups, lock, equalisation, power over coax and the
camera register proxy. -/

namespace Sys2Proof.Machine

open Sys2Proof

/-! ### Discovery and groups (R54, R55) -/

/-- The links of the group of a master link. [DEDUCED, log 41] -/
def Dev.groupOf (s : Dev) (m : Nat) : List Nat := (upTo 24).filter fun n => s.rd .CXP_LNK_CTL_MASTER n == m

/-- The position that a link must have: the master's is 0 (R55). -/
def Dev.placed (s : Dev) (m n : Nat) : Bool := (n == m) == (s.rd .CXP_LNK_CTL_EXT_IDX n == 0)

/-- A connection ID read on a link of the group differs from the link's position, or the group is not one (R55).
[DEDUCED, log 41] -/
def Dev.groupBad (s : Dev) (m : Nat) : Bool :=
  let g := s.groupOf m
  decide (8 < g.length) || decide (¬ (g.map fun n => s.rd .CXP_LNK_CTL_EXT_IDX n).Nodup) ||
    g.any fun n => !s.placed m n || (match (s.link n).connId with
      | some c => c != s.rd .CXP_LNK_CTL_EXT_IDX n
      | none => false)

/-- Check the group of a link: one that fails is kept out of service (R55). [DEDUCED, log 41] -/
def Dev.checkGroup (s : Dev) (n : Nat) : Dev :=
  let m := s.rd .CXP_LNK_CTL_MASTER n
  let g := s.groupOf m
  if s.groupBad m then
    (g.foldl (fun (d : Dev) k => (d.setLink k { d.link k with out := true }).setFlag .CXP_LNK_STAT_CFGERR k true) s).tally
      0x0030 n
  else g.foldl (fun (d : Dev) k => d.setLink k { d.link k with out := false }) s

/-- The rate of a link: the highest that both support, or the fixed one; none where the camera lacks the fixed rate (R54). -/
def Dev.chooseRate (s : Dev) (n maxRate : Nat) : Option Nat :=
  if s.flag .CXP_LNK_CTL_RATE_FIX n then
    if s.rd .CXP_LNK_CTL_RATE n ≤ maxRate then some (s.rd .CXP_LNK_CTL_RATE n) else none
  else some (min maxRate 6)

/-- LINK_DEVICE_DETECT (R54, R55): firmware discovers the device of an enabled link. -/
def Dev.linkDeviceDetect (s : Dev) (n maxRate connId : Nat) : Dev :=
  if !s.flag .CXP_LNK_CTL_EN n || !s.firmware then s
  else
    let s := match s.chooseRate n maxRate with
      | some r => s.wr .CXP_LNK_STAT_RATE_ACT n r
      | none => ((s.wr .CXP_LNK_STAT_RATE_ACT n 0).setFlag .CXP_LNK_STAT_CFGERR n true).tally 0x0030 n
    (s.setLink n { s.link n with connId := some connId }).checkGroup n

def execLinkDeviceDetect (link : Fin 24) (maxRate connId : Nat) (s : State) : Host.Outcome State Fault Refusal :=
  s.run (.linkDeviceDetect link maxRate connId) fun d => d.linkDeviceDetect link maxRate connId

/-! ### The control channel (R60, R61) -/

/-- The data window of link `n` in BAR0 (R78). -/
def proxyWindow (n : Nat) : Nat := 0x200100 + 0x400 * n

/-- Set the status of the requests of a source on a link. -/
def Dev.proxyStatus (s : Dev) (n : Nat) (source : Source) (st : Nat) : Dev :=
  match source with
  | .host => s.wr .CXP_PRX_STAT_ST n st
  | .firmware => s.setOd (0x2180 + n) 5 st

/-- The request at the head of a link's queue goes out. -/
def Dev.sendControl (s : Dev) (n : Nat) : Dev :=
  match (s.link n).requests with
  | r :: _ => s.send (.control n r)
  | [] => s

/-- A request joins its link's queue and goes out if the link serves no other. -/
def Dev.queueControl (s : Dev) (n : Nat) (r : ProxyReq) : Dev :=
  let idle := (s.link n).requests.isEmpty
  let s := s.setLink n { s.link n with requests := (s.link n).requests ++ [r] }
  if idle then s.sendControl n else s

/-- The length of a request is one that R60 allows. -/
def proxyLenOk (len : Nat) : Bool := decide (4 ≤ len ∧ len ≤ 256) && len % 4 == 0

/-- The source's address, length and data stand in its registers or its dictionary entries. -/
def Dev.proxyOperands (s : Dev) (n : Nat) (r : ProxyReq) : Dev :=
  match r.source with
  | .host =>
    let s := (s.wr .CXP_PRX_ADDR n r.addr).wr .CXP_PRX_CMD_LEN n r.len
    if r.write then s.putBars (proxyWindow n) (r.data.take 256) else s
  | .firmware =>
    let s := ((s.setOd (0x2180 + n) 1 r.addr).setOd (0x2180 + n) 3 r.len).setOd (0x2180 + n) 4 (if r.write then 2 else 1)
    if r.write then s.setOdBytes (0x2180 + n) 2 (r.data.take 256) else s

/-- A request of 4 to 256 bytes is queued; any other length ends with BADLEN and is not sent (R60). -/
def Dev.request (s : Dev) (n : Nat) (r : ProxyReq) : Dev :=
  let s := s.proxyOperands n r
  if proxyLenOk r.len then (s.proxyStatus n r.source 1).queueControl n r else s.proxyStatus n r.source 5

def execProxyRead (link : Fin 24) (source : Source) (addr len : Nat) (s : State) : Host.Outcome State Fault Refusal :=
  s.run (.proxyRead link source addr len) fun d =>
    d.request link { source := source, write := false, addr := addr, len := len, data := [] }

def execProxyWrite (link : Fin 24) (source : Source) (addr len : Nat) (data : List Byte) (s : State) :
    Host.Outcome State Fault Refusal :=
  s.run (.proxyWrite link source addr len data) fun d =>
    d.request link { source := source, write := true, addr := addr, len := len, data := data }

/-- The request being served ends with a status, and the next one goes out (R61). -/
def Dev.endRequest (s : Dev) (n st : Nat) : Dev :=
  match (s.link n).requests with
  | [] => s
  | r :: rest => ((s.proxyStatus n r.source st).setLink n { s.link n with requests := rest }).sendControl n

/-- The data of a completed read: in the proxy's window, or in OD 0x2180+*n*:02. -/
def Dev.readData (s : Dev) (n : Nat) (data : List Byte) : Dev :=
  match (s.link n).requests with
  | [] => s
  | r :: _ =>
    if r.write then s
    else
      match r.source with
      | .host => s.putBars (proxyWindow n) (padTo r.len data)
      | .firmware => s.setOdBytes (0x2180 + n) 2 (padTo r.len data)

/-- The camera's error code of a request of the host stands in `CXP_PRX_STAT.CODE`. [DEDUCED, log 44] -/
def Dev.nackCode (s : Dev) (n code : Nat) : Dev :=
  match (s.link n).requests with
  | r :: _ => if r.source = .host then s.wr .CXP_PRX_STAT_CODE n code else s
  | [] => s

/-- PROXY_ACK (R61): done, refused by the camera, or a wait extension, which lengthens the wait and nothing else.
[DEDUCED, log 44] -/
def Dev.proxyAck (s : Dev) (n : Nat) (a : CtrlAck) : Dev :=
  match a with
  | .done data => (s.readData n data).endRequest n 0
  | .nack code => (s.nackCode n code).endRequest n 2
  | .wait _ => s

def execProxyAck (link : Fin 24) (ack : CtrlAck) (s : State) : Host.Outcome State Fault Refusal :=
  s.run (.proxyAck link ack) fun d => d.proxyAck link ack

def execProxyTimeout (link : Fin 24) (s : State) : Host.Outcome State Fault Refusal :=
  s.run (.proxyTimeout link) fun d => d.endRequest link 3

/-! ### Lock and equalisation (R46, R56, R57) -/

/-- LINK_LOCK (R46): the receiver of an enabled link locks. -/
def Dev.linkLock (s : Dev) (n : Nat) : Dev :=
  if s.flag .CXP_LNK_CTL_EN n && s.live then
    (s.setFlag .CXP_LNK_STAT_LOCK n true).setLink n { s.link n with asleep := false }
  else s

def execLinkLock (link : Fin 24) (s : State) : Host.Outcome State Fault Refusal :=
  s.run (.linkLock link) fun d => d.linkLock link

/-- LOCK_LOSS (R56): LOCKLOSS is set, which raises vector 5, and the outstanding request ends with LINKDOWN. -/
def Dev.lockLoss (s : Dev) (n : Nat) : Dev :=
  if s.flag .CXP_LNK_STAT_LOCK n then
    ((s.setFlag .CXP_LNK_STAT_LOCK n false).setFlag .CXP_LNK_STAT_LOCKLOSS n true).endRequest n 4
  else s

def execLockLoss (link : Fin 24) (s : State) : Host.Outcome State Fault Refusal :=
  s.run (.lockLoss link) fun d => d.lockLoss link

/-- EQ_UPDATE (R57): while the link is locked the margins are reported, and the adapted state unless `EQ_FREEZE` holds it.
[DEDUCED, log 45] -/
def Dev.eqUpdate (s : Dev) (n dfe ctle vert horz : Nat) : Dev :=
  if !s.flag .CXP_LNK_STAT_LOCK n then s
  else
    let s := if s.flag .CXP_LNK_CTL_EQ_FREEZE n then s
      else (s.wr .CXP_LNK_EQ_DFE n dfe).wr .CXP_LNK_EQ_CTLE n ctle
    (s.wr .CXP_LNK_EYE_VERT n vert).wr .CXP_LNK_EYE_HORZ n horz

def execEqUpdate (link : Fin 24) (dfe ctle vert horz : Nat) (s : State) : Host.Outcome State Fault Refusal :=
  s.run (.eqUpdate link dfe ctle vert horz) fun d => d.eqUpdate link dfe ctle vert horz

/-! ### Power over coax (R58, R59, R431) -/

/-- A link's power switch opens or closes. -/
def Dev.powerSwitch (s : Dev) (n : Nat) (closed : Bool) : Dev :=
  if s.flag .CXP_LNK_STAT_PWR_ON n = closed then s
  else (s.setFlag .CXP_LNK_STAT_PWR_ON n closed).send (.powerSwitch n closed)

/-- A fault opens the switch until `PWR_EN` is written 0 and then 1. [DEDUCED, log 42] -/
def Dev.powerFault (s : Dev) (n : Nat) : Dev :=
  let s := (s.powerSwitch n false).setFlag .CXP_LNK_STAT_PWR_FLT n true
  (s.setLink n { s.link n with pwrLatch := true }).tally 0x0031 n

/-- POCXP_DETECT (R58): with `PWR_EN` 1 the switch closes on a powered device; without one `PWR_FLT` is set.
[DEDUCED, log 43] -/
def Dev.pocxpDetect (s : Dev) (n : Nat) (found : Bool) : Dev :=
  if !s.flag .CXP_LNK_CTL_PWR_EN n || s.flag .CXP_LNK_STAT_PWR_ON n || (s.link n).pwrLatch || s.power == .off then s
  else if found then s.powerSwitch n true
  else s.setFlag .CXP_LNK_STAT_PWR_FLT n true

def execPocxpDetect (link : Fin 24) (found : Bool) (s : State) : Host.Outcome State Fault Refusal :=
  s.run (.pocxpDetect link found) fun d => d.pocxpDetect link found

/-- POCXP_OVERCURRENT (R58): a closed switch opens. -/
def Dev.pocxpOvercurrent (s : Dev) (n : Nat) : Dev := if s.flag .CXP_LNK_STAT_PWR_ON n then s.powerFault n else s

def execPocxpOvercurrent (link : Fin 24) (s : State) : Host.Outcome State Fault Refusal :=
  s.run (.pocxpOvercurrent link) fun d => d.pocxpOvercurrent link

/-- VPOC_LOW (R431): every switch opens, and each link with `PWR_EN` 1 faults as on an overcurrent. [DEDUCED, log 42] -/
def Dev.vpocLow (s : Dev) : Dev :=
  (upTo 24).foldl (fun (d : Dev) n =>
    if d.flag .CXP_LNK_CTL_PWR_EN n then d.powerFault n else d.powerSwitch n false) s

def execVpocLow (s : State) : Host.Outcome State Fault Refusal := s.run .vpocLow fun d => d.vpocLow

/-- `PWR_EN` is written: 0 opens the switch and ends the wait of a fault (R58). -/
def Dev.writePwrEn (s : Dev) (n : Nat) (on : Bool) : Dev :=
  let s := s.setFlag .CXP_LNK_CTL_PWR_EN n on
  if on then s else (s.powerSwitch n false).setLink n { s.link n with pwrLatch := false }

end Sys2Proof.Machine
end

