-- ==== Sys2Proof/Machine/Dma.lean ====
section
/-! DEFINITION. The DMA engine of a Churn (R133 to R137, R151 to R155, R160, R163 to R167, R174): one row of a plane of a map,
between local store and its home, with layout conversion and the Skim codec. -/

namespace Sys2Proof.Machine

open Sys2Proof

/-! ### The Skim codec (R152, R153) -/

/-- A block as the encoder writes it: exponent code, 32 codes, the flags of a non-finite block. -/
structure SkimBlock where
  x : Nat
  codes : List Nat
  flags : Nat := 0
deriving DecidableEq, Repr

/-- Encode a block at rate `b`. -/
def skimEncode (b : Nat) (l : List FVal) : SkimBlock :=
  let zeros := List.replicate 32 0
  if l.any fun v => match v with
      | .fin _ _ _ => false
      | _ => true then
    { x := 255, codes := zeros, flags := if l.any FVal.isNan then excNvin else excInv }
  else
    match l.filter fun v => !isZero v with
    | [] => { x := 0, codes := zeros }
    | v :: t =>
      let e := t.foldl (fun m v => max m (floorLog2 v)) (floorLog2 v)
      if e < -126 then { x := 0, codes := zeros }
      else { x := (e + 127).toNat, codes := l.map fun v => unsgn b (floorUnits v (e - b + 2)) }

/-- Decode an element of a block into a format: a value beyond the largest of the format is the largest (R118, R154).
[DEDUCED, log 134] -/
def skimDecode (f : FloatFmt) (b x q : Nat) : Nat :=
  if x = 255 then f.nan
  else if x = 0 then 0
  else
    let z := 2 * sgn b q + 1
    (f.saturate .rne 0 (FVal.units z ((x : Int) - 127 - b + 1))).1

/-- The bytes of a block's codes. -/
def skimBytes (b : Nat) (codes : List Nat) : List Byte :=
  leBytes (codes.zipIdx.foldl (fun n e => n + e.1 * 2 ^ (b * e.2)) 0) (4 * b)

/-- The format of a map that Skim may code. -/
def skimFmt (fmt : Nat) : FloatFmt := if fmt = 4 then fFp16 else fBf16

/-- Blocks in a row. -/
def skimBlocks (m : MapDesc) : Nat := (m.w + 31) / 32

/-! ### Where a row lies (R133, R135, R137) -/

/-- The element row of a plane of a map, in device virtual addresses. [DEDUCED, log 134] -/
def elementSpan (op : DmaOp) : Nat × Nat :=
  let m := op.map
  (m.base + storedRow m op.row * m.rowPitch + op.plane * m.planePitch,
    if m.skim ≠ 0 then skimBlocks m * 4 * skimRate m.skim else elemBytes (fmtBits m.fmt) m.w)

/-- The bytes beside the elements of a row: a Skim row's exponents, an MX row's scales. -/
def sideBytes (m : MapDesc) : Nat := if m.skim ≠ 0 then skimBlocks m else if fmtMx m.fmt then m.w else 0

/-- The exponents of a Skim row, or the scales of an MX row (R137). -/
def sideSpan (op : DmaOp) : Nat × Nat :=
  let m := op.map
  let (plane, pitch) := if m.skim ≠ 0 then (op.plane, (m.w + 4095) / 4096 * 128) else (op.plane / 32, (m.w + 127) / 128 * 128)
  (m.expBase + plane * m.sPlanePitch + storedRow m op.row * pitch, sideBytes m)

/-- The spans of device virtual addresses of a row of a plane. -/
def dmaSpans (op : DmaOp) : List (Nat × Nat) :=
  let m := op.map
  let w := fmtBits m.fmt
  if m.layout = 1 then
    (upTo m.w).map fun x => (m.base + storedRow m op.row * m.rowPitch + (x * m.c + op.plane) * w / 8, max 1 (w / 8))
  else elementSpan op :: (if sideBytes m = 0 then [] else [sideSpan op])

/-- Translate some spans; the first fault ends it. -/
def Dev.translateAll (s : Dev) (me : Option Nat) (asid acc : Nat) (bad : Option Nat) : List (Nat × Nat) → VRes (List (Bool × Nat × Nat))
  | [] => .ok []
  | (va, k) :: l =>
    match s.vspans me asid acc bad (k / 4096 + 2) va k with
    | .ok x => (match s.translateAll me asid acc bad l with
      | .ok y => .ok (x ++ y)
      | e => e)
    | e => e

/-! ### DMA_TRANSFER -/

/-- The bytes that a row occupies in local store. -/
def dmaRow (op : DmaOp) : Nat := elemBytes (fmtBits op.map.fmt) op.map.w

/-- The codes of a row as local store holds it. -/
def Dev.lsRow (s : Dev) (n : Nat) (op : DmaOp) : List Nat := (upTo op.map.w).map fun x => s.lsElem n op.ls (fmtBits op.map.fmt) x

/-- The blocks of a row for the encoder; the last is completed with +0. -/
def skimRow (m : MapDesc) (l : List Nat) : List SkimBlock :=
  (upTo (skimBlocks m)).map fun k =>
    let b := ((l.drop (32 * k)).take 32).map fun c => (skimFmt m.fmt).decode c
    skimEncode (skimRate m.skim) (b ++ List.replicate (32 - b.length) (.fin false 0 0))

/-- The codes of a row that its stored bytes spell. -/
def dmaDecode (op : DmaOp) (b : List Byte) : List Nat :=
  let m := op.map
  let w := fmtBits m.fmt
  (upTo m.w).map fun x =>
    if m.layout = 1 then
      (if w = 4 then bits (leAt b x 1) (4 * ((x * m.c + op.plane) % 2)) 4 else leAt b (x * (w / 8)) (w / 8))
    else if m.skim = 0 then (if w = 4 then bits (leAt b (x / 2) 1) (4 * (x % 2)) 4 else leAt b (x * (w / 8)) (w / 8))
    else
      let r := skimRate m.skim
      let block := leAt b (x / 32 * 4 * r) (4 * r)
      skimDecode (skimFmt m.fmt) r (leAt b (skimBlocks m * 4 * r + x / 32) 1) (bits block (r * (x % 32)) r)

/-- The byte of a 4-bit element `x` of an interleaved row: the other element of the byte belongs to the row where the map has one
channel, and stays as it stands where not. -/
def nibbleByte (op : DmaOp) (l : List Nat) (old x : Nat) : Nat :=
  let k := x * op.map.c + op.plane
  let b := setBits old (4 * (k % 2)) 4 (l.getD x 0)
  let o := if x % 2 = 0 then x + 1 else x - 1
  if op.map.c = 1 ∧ o < l.length then setBits b (4 * (1 - k % 2)) 4 (l.getD o 0) else b

/-- The bytes of a row as it is stored; `old` are the bytes that stand there, `side` the scales of an MX row. -/
def dmaEncode (op : DmaOp) (l : List Nat) (old side : List Byte) : List Byte :=
  let m := op.map
  let w := fmtBits m.fmt
  if m.layout = 1 then
    (if w = 4 then
      (upTo l.length).map fun x => BitVec.ofNat 8 (nibbleByte op l (leAt old x 1) x)
    else l.flatMap fun c => leBytes c (w / 8))
  else if m.skim = 0 then
    (if w = 4 then (upTo (dmaRow op)).map fun k => BitVec.ofNat 8 (l.getD (2 * k) 0 + 16 * l.getD (2 * k + 1) 0)
    else l.flatMap fun c => leBytes c (w / 8)) ++ side
  else
    let bs := skimRow m l
    (bs.flatMap fun b => skimBytes (skimRate m.skim) b.codes) ++ bs.map fun b => BitVec.ofNat 8 b.x

/-- Non-finite blocks are counted, and their flags raised (R153, R155). -/
def Dev.noteSkim (s : Dev) (n : Nat) (op : DmaOp) (l : List Nat) : Dev :=
  if op.map.skim = 0 then s
  else
    let bad := (skimRow op.map l).filter fun b => b.x == 255
    (bad.foldl (fun (d : Dev) _ => d.countOd 0x3002 2 64) s).raiseExc n (bad.foldl (fun f b => f ||| b.flags) 0)

/-- A span of host memory is read. -/
def anyHost (l : List (Bool × Nat × Nat)) : Bool := l.any fun e => e.1

/-- The transfer of a row whose addresses are translated. -/
def Dev.moveRow (s : Dev) (n : Nat) (op : DmaOp) (l : List (Bool × Nat × Nat)) : Dev :=
  let old := s.spanBytes l
  let s' := if anyHost l then s.useFree else s
  let scales := if fmtMx op.map.fmt && op.map.layout == 0 then sideBytes op.map else 0
  if op.toMem then
    let row := s.lsRow n op
    (s'.putSpans l (dmaEncode op row old (s.bytesAt (lsOf n + op.lsScale) scales))).noteSkim n op row
  else
    let s' := s'.putElems n op.ls (fmtBits op.map.fmt) (dmaDecode op old)
    if scales = 0 then s' else s'.putBytes (lsOf n + op.lsScale) ((old.drop (dmaRow op)).take scales)

/-- The address space of the job whose context a Churn holds (R163). -/
def Dev.asidOn (s : Dev) (n : Nat) : Nat :=
  match (s.resident n).bind fun r => s.job? r.job with
  | some j => j.asid
  | none => 0

/-- The caches keep the translations of a row. -/
def Dev.touchAll (s : Dev) (n : Nat) (op : DmaOp) : Dev :=
  (dmaSpans op).foldl (fun (d : Dev) e => d.touch (some n) (d.asidOn n) (if op.toMem then 1 else 0) e.1 e.2) s

/-- DMA_TRANSFER: a translation fault suspends the context; an uncorrectable error, or an address that answers with an error,
moves nothing and is a fault in the job's work. -/
def Dev.dmaTransfer (s : Dev) (n : Nat) (op : DmaOp) (event : MemEvent) : Dev :=
  if mapError op.map ≠ 0 then s.instrError n 4
  else if lsSize < op.ls + dmaRow op ∨ (fmtMx op.map.fmt ∧ op.map.layout = 0 ∧ lsSize < op.lsScale + sideBytes op.map) then
    s.instrError n 3
  else match s.translateAll (some n) (s.asidOn n) (if op.toMem then 1 else 0) op.walkError (dmaSpans op) with
    | .fault x => s.suspend n x
    | .error => s.churnError n
    | .ok l =>
      let s := s.touchAll n op
      if !l.all fun e => s.reachable (some n) e then s.churnError n
      else
        let a := match l with
          | e :: _ => e.2.1
          | [] => 0
        let s := s.meet event a n
        if MemEvent.ok event then s.moveRow n op l else s.churnError n

def execDmaTransfer (chn : Fin 16) (op : DmaOp) (event : MemEvent) (s : State) : Host.Outcome State Fault Refusal :=
  s.run (.dmaTransfer chn op event) fun d => d.dmaTransfer chn op event

end Sys2Proof.Machine
end

