-- ==== Sys2Proof/Machine/Fires.lean ====
section
/-! DEFINITION. The Separator's work at an estimate tick (R29, R253 to R268, R275): creating and removing fire-queue entries,
runs, prediction and commit, misses, forced OFFs, parts that leave, and the verdict log; and what happens when a committed
edge passes. Edges are XCLK counts. -/

namespace Sys2Proof.Machine

open Sys2Proof

/-! ### Selection (R36, R253) -/

/-- The action that a slot's policy gives a code: bit 0 set A, bit 1 set B; codes above 0xE4 are never applied (R36). -/
def Dev.policyOf (s : Dev) (slot code : Nat) : Nat :=
  if 0xE4 < code then 0 else bits (s.rd .SEP_POLICY (16 * slot + code / 16)) (2 * (code % 16)) 2

/-- The outputs that a slot's sets give an action on a lane. -/
def Dev.outputsOf (s : Dev) (slot lane act : Nat) : Nat :=
  (if bit act 0 then s.rd .SEP_SETA (64 * slot + lane) else 0) |||
    (if bit act 1 then s.rd .SEP_SETB (64 * slot + lane) else 0)

/-- The outputs that a part's verdict selects. -/
def Dev.selected (s : Dev) (p : Part) : Nat := s.outputsOf p.slot p.lane (s.policyOf p.slot p.verd)

/-- The entries of a part. -/
def Dev.entriesOf (s : Dev) (id : Nat) : List Fire := s.fires.filter fun f => f.part == id

/-- The outputs on which a part has an entry. -/
def Dev.entryMask (s : Dev) (id : Nat) : Nat := maskOf ((s.entriesOf id).map fun f => f.out)

/-! ### Runs (R262) -/

/-- The position intervals of two entries overlap or touch. -/
def Fire.touches (f g : Fire) : Bool := !after f.onPos g.offPos && !after g.onPos f.offPos

/-- Two entries are the same. -/
def Fire.same (f g : Fire) : Bool := f.part == g.part && f.out == g.out

/-- Join run `b` to run `a`. -/
def Dev.joinRuns (s : Dev) (a b : Nat) : Dev :=
  { s with fires := s.fires.map fun f => if f.run = b then { f with run := a } else f }

/-- Every entry of a run takes a committed OFF edge. -/
def Dev.setRunOff (s : Dev) (r edge : Nat) : Dev :=
  { s with fires := s.fires.map fun f => if f.run = r then { f with offEdge := some edge } else f }

/-- The entries of a run. -/
def Dev.runOf (s : Dev) (r : Nat) : List Fire := s.fires.filter fun f => f.run == r

/-- A new entry joins every run of its output that it overlaps or touches and whose OFF is not committed, or forms one of
its own. -/
def Dev.addFire (s : Dev) (f : Fire) : Dev :=
  let near : List Fire := s.fires.filter fun (g : Fire) => g.out == f.out && g.offEdge.isNone && f.touches g
  match near with
  | [] => { s with fires := s.fires ++ [{ f with run := s.nextRun }], nextRun := s.nextRun + 1 }
  | g :: rest =>
    let s := rest.foldl (fun (d : Dev) (h : Fire) => d.joinRuns g.run h.run) s
    { s with fires := s.fires ++ [{ f with run := g.run }] }

/-- Two entries of an output are joined by themselves: their intervals overlap or touch, or the OFF of one was withheld for the ON of
the other. -/
def Fire.joined (f g : Fire) : Bool := f.touches g || f.behind == some g.part || g.behind == some f.part

/-- The entries of `all` that hang together with those of `got`. -/
def component (all got : List Fire) : Nat → List Fire
  | 0 => got
  | n + 1 => component all (got ++ all.filter fun f => !(got.any fun g => f.same g) && got.any fun g => f.joined g) n

/-- The entries of `all` in groups that hang together. -/
def components (all : List Fire) : Nat → List (List Fire)
  | 0 => []
  | n + 1 =>
    match all with
    | [] => []
    | f :: _ =>
      let c := component all [f] all.length
      c :: components (all.filter fun g => !(c.any fun h => g.same h)) n

/-- Some entries of a run form a run of their own. -/
def Dev.ownRun (s : Dev) (l : List Fire) : Dev :=
  { s with
    fires := s.fires.map fun (g : Fire) => if l.any fun h => g.same h then { g with run := s.nextRun } else g
    nextRun := s.nextRun + 1 }

/-- Take an entry out. While its run's OFF is not committed, the run is formed again from the entries that remain: it is split where
its join rested on the entry (R262). [DEDUCED, log 24] -/
def Dev.dropFire (s : Dev) (f : Fire) : Dev :=
  let s := { s with fires := s.fires.filter fun (g : Fire) => !(f.same g) }
  if f.offEdge.isSome then s
  else
    let rest := s.runOf f.run
    ((components rest rest.length).drop 1).foldl (fun (d : Dev) l => d.ownRun l) s

/-! ### Misses (R260, R261) -/

/-- An ON is missed: recorded, counted, and marked in its part. [DEDUCED, log 25] -/
def Dev.missOn (s : Dev) (f : Fire) : Dev :=
  let s := (s.setFlag .SEP_STAT_MISS 0 true).observe 145
  let s := s.tally 0x0043 f.out f.part f.onPos
  s.updPart f.part fun p => { p with missMask := p.missMask ||| oneBit f.out }

/-! ### Creating entries (R256 to R258) -/

/-- The entry of a part on an output. [DEDUCED, log 24] -/
def Dev.newFire (s : Dev) (p : Part) (o : Nat) : Fire :=
  let mode := s.rd .SEP_OUT_CFG_DMODE o
  let dwell := s.rd .SEP_OUT_DWELL o
  let on := wrap 64 (p.start + cts (s.rd .SEP_OUT_OFS o))
  let off := if mode = 0 then wrap 64 (on + cts dwell)
    else if mode = 2 then moveBy on (sdiff (p.fin.getD p.start) p.start + (cts dwell : Nat))
    else on
  { part := p.id, out := o, onPos := on, offPos := off, mode := mode, dwell := dwell, run := 0 }

/-! ### Prediction (R259) -/

/-- Ticks of 2.5 ns in a microsecond. -/
def usTicks (n : Nat) : Nat := 400 * n

/-- The time from a position until the line master reaches another, at the estimates of the latest tick, in 2.5 ns of device time, as
an exact fraction; none if the line stops before it, or never comes there at a steady speed. The square root is taken to 64 binary
places. [DEDUCED, log 23] -/
def Dev.timeFrom (s : Dev) (p pos : Nat) : Option (Int × Nat) :=
  let d := sdiff pos p
  if d ≤ 0 then some (0, 1)
  else
    let q := s.speed * s.speed + 2 * s.accel * d
    if q < 0 then none
    else
      let den := s.speed * 2 ^ 64 + (isqrt (q.toNat * 2 ^ 128) : Nat)
      let num := 800000000 * d * 2 ^ 64
      if den = 0 then none else some (if 0 < den then num else -num, den.natAbs)

/-- The time until the line master reaches a position (R259). [DEDUCED, log 23] -/
def Dev.timeTo (s : Dev) (pos : Nat) : Option (Int × Nat) := s.timeFrom s.lmPos pos

/-- The lead of a positional event on an output: the time until its position, less the output's latency (R256).
[DEDUCED, log 23] -/
def Dev.leadOf (s : Dev) (pos o : Nat) : Option (Int × Nat) :=
  (s.timeTo pos).map fun t => (t.1 - (usTicks (s.rd .SEP_OUT_LAT o) * t.2 : Nat), t.2)

/-- A lead lies below `n` ticks. -/
def leadBelow (l : Int × Nat) (n : Nat) : Bool := decide (l.1 < (n * l.2 : Nat))
/-- A lead lies above `n` ticks. -/
def leadAbove (l : Int × Nat) (n : Nat) : Bool := decide ((n * l.2 : Nat) < l.1)

/-- One plus the rate offset in force is this over 1,024 × 10^9. -/
def Dev.rateNum (s : Dev) : Nat := (1024000000000 + s.rate).toNat

/-- A lead converted to field timer ticks with the rate in force and rounded to the nearest, ties upward (R259, R342).
[DEDUCED, log 23] -/
def Dev.edgeOf (s : Dev) (l : Int × Nat) : Nat := s.xclk + divNearest (l.1.toNat * 1024000000000) (l.2 * s.rateNum)

/-- The lead, in device time, of a committed edge. -/
def Dev.leadOfEdge (s : Dev) (e : Nat) : Int × Nat :=
  (((e : Int) - (s.xclk : Int)) * (s.rateNum : Nat), 1024000000000)

/-- Device-time ticks converted to field timer ticks. -/
def Dev.fieldTicks (s : Dev) (n : Nat) : Nat := divNearest (n * 1024000000000) s.rateNum

/-! ### The barrier queue (R275, R278) -/

/-- Merge a tick into a list of ticks that have not been sent. -/
def mergeTick (t : Tick) : List Tick → List Tick
  | [] => [t]
  | u :: l => if u.edge = t.edge ∧ u.level = t.level then { u with mask := u.mask ||| t.mask } :: l else u :: mergeTick t l

/-- Ticks of the queue none of whose copies has been sent. -/
def Barrier.unsent (b : Barrier) : List Tick := (b.queue.filter fun e => e.2 == 2).map fun e => e.1

/-- A tick with this edge and level waits unsent in the queue. -/
def Barrier.hasUnsent (b : Barrier) (e : Nat) (level : Bool) : Bool :=
  b.unsent.any fun u => u.edge == e && u.level == level

/-- Move waiting ticks whose lead is at most 20 ms into the queue of 64, in edge order (R275, R278). -/
def Dev.fillQueue (s : Dev) : Dev :=
  let w := sortBy (fun (t : Tick) => (t.edge : Int)) s.barrier.waiting
  let near := w.filter fun t => decide (t.edge ≤ s.xclk + usTicks 20000)
  let room := 64 - s.barrier.queue.length
  let go := near.take room
  { s with barrier := { s.barrier with
      queue := sortBy (fun (e : Tick × Nat) => (e.1.edge : Int)) (s.barrier.queue ++ go.map fun t => (t, 2))
      waiting := near.drop room ++ w.filter fun t => decide (s.xclk + usTicks 20000 < t.edge) } }

/-- Queue a committed tick for the barrier: it merges with an unsent one of equal edge and level. -/
def Dev.commitTick (s : Dev) (edge : Nat) (level : Bool) (o : Nat) : Dev :=
  let s := s.traceNote 17 1 (wrap 40 edge + 2 ^ 40 * o + 2 ^ 45 * level.toNat)
  let t : Tick := { edge := edge, level := level, mask := oneBit o }
  if s.barrier.hasUnsent edge level then
    { s with barrier := { s.barrier with
        queue := s.barrier.queue.map fun (e : Tick × Nat) =>
          if e.2 = 2 ∧ e.1.edge = edge ∧ e.1.level = level then ({ e.1 with mask := e.1.mask ||| oneBit o }, 2) else e } }
  else ({ s with barrier := { s.barrier with waiting := mergeTick t s.barrier.waiting } }).fillQueue

/-! ### Commit (R259 to R263) -/

/-- Commit the OFF of a run. -/
def Dev.commitOff (s : Dev) (r o edge : Nat) : Dev := (s.setRunOff r edge).commitTick edge false o

/-- An OFF is committed late. -/
def Dev.lateOff (s : Dev) (o : Nat) : Dev := (s.observe 148).setFlag .SEP_OUT_ST_LATEOFF o true

/-- The earliest committed ON edge of a run. -/
def firstOn (l : List Fire) : Option Nat :=
  l.foldl (fun m f => match m, f.onEdge with
    | none, e => e
    | some a, some b => some (min a b)
    | m, none => m) none

/-- The latest ON edge plus dwell of a run in DMODE 1 (R256). [DEDUCED, log 24] -/
def Dev.timedOff (s : Dev) (l : List Fire) : Nat :=
  l.foldl (fun m f => match f.onEdge with
    | some e => max m (e + s.fieldTicks (usTicks f.dwell))
    | none => m) 0

/-- The first position of a run. -/
def runOnPos (l : List Fire) (d : Nat) : Nat := l.foldl (fun m f => if after m f.onPos then f.onPos else m) d

/-- The next run on an output after a position, by its first ON: its number and the position. -/
def Dev.nextRunAfter (s : Dev) (o r pos : Nat) : Option (Nat × Nat) :=
  s.fires.foldl (fun m f =>
    if f.out = o ∧ f.run ≠ r ∧ after f.onPos pos then
      match m with
      | none => some (f.run, f.onPos)
      | some (_, q) => if after q f.onPos then some (f.run, f.onPos) else m
    else m) none

/-- The later run that joins a run whose OFF would fall at a lead: its ON edge falls at most MINGAP after it (R262). -/
def Dev.joiner (s : Dev) (o r pos : Nat) (off : Int × Nat) : Option Nat :=
  match s.nextRunAfter o r pos with
  | none => none
  | some (n, q) =>
    let on := match firstOn (s.runOf n) with
      | some e => some (s.leadOfEdge e)
      | none => s.leadOf q o
    match on with
    | none => none
    | some l =>
      if l.1 * (off.2 : Int) ≤ off.1 * (l.2 : Int) + (usTicks (s.rd .SEP_OUT_CFG_MINGAP o) * off.2 * l.2 : Nat) then some n
      else none

/-- The first entry of a run by its ON, and the last by its OFF. -/
def firstEntry (l : List Fire) : Option Fire :=
  l.foldl (fun (m : Option Fire) f => match m with
    | some g => if after g.onPos f.onPos then some f else m
    | none => some f) none

def lastEntry (l : List Fire) : Option Fire :=
  l.foldl (fun (m : Option Fire) f => match m with
    | some g => if after f.offPos g.offPos then some f else m
    | none => some f) none

/-- Note that the first entry of a run is joined to the OFF of the last one of another (R262). -/
def Dev.noteBehind (s : Dev) (r n : Nat) : Dev :=
  match lastEntry (s.runOf r), firstEntry (s.runOf n) with
  | some a, some b =>
    { s with fires := s.fires.map fun (g : Fire) => if b.same g then { g with behind := some a.part } else g }
  | _, _ => s

/-- Join a later run to a run, whose OFF is withheld; a committed OFF of the later one becomes the OFF of both. -/
def Dev.withhold (s : Dev) (r n : Nat) : Dev :=
  let off := (s.runOf n).foldl (fun (m : Option Nat) (f : Fire) => if f.offEdge.isSome then f.offEdge else m) none
  let s := (s.noteBehind r n).joinRuns r n
  match off with
  | some e => s.setRunOff r e
  | none => s

/-- The run of an entry in DMODE 1 whose last ON has been committed: its OFF is committed with it, or withheld for a later
run that qualifies (R259, R262). [DEDUCED, log 24] -/
def Dev.closeTimedRun (s : Dev) (f : Fire) : Dev :=
  let l := s.runOf f.run
  if l.any fun (g : Fire) => g.onEdge.isNone then s
  else
    let off := s.timedOff l
    match s.joiner f.out f.run (runOnPos l f.onPos) (s.leadOfEdge off) with
    | some n => s.withhold f.run n
    | none => s.commitOff f.run f.out off

/-- The latest committed OFF edge, at or after a lead, of the runs on the output that an entry overlaps or touches (R262);
in DMODE 1, of every run on the output. -/
def Dev.blockedBy (s : Dev) (f : Fire) (l : Int × Nat) : Option Nat :=
  s.fires.foldl (fun m g =>
    match g.offEdge with
    | some c =>
      if g.out = f.out ∧ g.run ≠ f.run ∧ (f.mode = 1 ∨ f.touches g) ∧
          l.1 * ((s.leadOfEdge c).2 : Int) ≤ (s.leadOfEdge c).1 * (l.2 : Int) ∧ s.xclk < c then
        some (max c (m.getD 0))
      else m
    | none => m) none

/-- Evaluate an uncommitted ON. [DEDUCED, log 25] -/
def Dev.evalOn (s : Dev) (f : Fire) : Dev :=
  match s.leadOf f.onPos f.out with
  | none => s
  | some l =>
    if leadAbove l (usTicks 50) then s
    else if leadBelow l (usTicks 5) then (s.missOn f).dropFire f
    else
      let edge := match s.blockedBy f l with
        | some c => c + 1
        | none => s.edgeOf l
      let s := { s with fires := s.fires.map fun (g : Fire) => if f.same g then { g with onEdge := some edge } else g }
      let s := s.commitTick edge true f.out
      if f.mode = 1 then s.closeTimedRun f else s

/-- Evaluate the OFF of an entry: nothing unless it is the last OFF of its run. -/
def Dev.evalOff (s : Dev) (f : Fire) : Dev :=
  let run := s.runOf f.run
  if f.mode = 1 || f.offEdge.isSome || (run.any fun (g : Fire) => after g.offPos f.offPos) then s
  else
    match s.leadOf f.offPos f.out with
    | none => s
    | some l =>
      if leadAbove l (usTicks 50) then s
      else
        let late := leadBelow l (usTicks 5)
        let l : Int × Nat := if late then ((usTicks 5 : Nat), 1) else l
        let s := if late then s.lateOff f.out else s
        match s.joiner f.out f.run (runOnPos run f.onPos) l with
        | some n => s.withhold f.run n
        | none => s.commitOff f.run f.out (s.edgeOf l)

/-- Evaluate one uncommitted positional event of the list made at the start of the tick, if it is still there. -/
def Dev.evalEvent (s : Dev) (ev : Fire × Bool) : Dev :=
  match s.fires.find? fun g => ev.1.same g with
  | none => s
  | some f => if ev.2 then (if f.onEdge.isNone then s.evalOn f else s) else s.evalOff f

/-- The uncommitted positional events in ascending position, an ON before an OFF (R259). -/
def Dev.events (s : Dev) : List (Fire × Bool) :=
  let ons := (s.fires.filter fun f => f.onEdge.isNone).map fun f => (f, true)
  let offs := (s.fires.filter fun f => f.offEdge.isNone && f.mode != 1).map fun f => (f, false)
  sortBy (fun e => sdiff (if e.2 then e.1.onPos else e.1.offPos) s.lmPos) (ons ++ offs)

/-- The runs whose forced OFF falls due: number, output and edge (R263). -/
def Dev.forcedRuns (s : Dev) : List (Nat × Nat × Nat) :=
  s.fires.foldl (fun acc f =>
    if acc.any fun e => e.1 == f.run then acc
    else
      match firstOn (s.runOf f.run) with
      | none => acc
      | some on =>
        let e := on + s.fieldTicks (usTicks (1000 * s.rd .SEP_OUT_MAXON f.out))
        let own := match f.offEdge with
          | some c => decide (c ≤ e)
          | none => false
        if own || decide (s.xclk + s.fieldTicks (usTicks 50) < e) then acc else acc ++ [(f.run, f.out, e)]) []

/-- Commit a forced OFF: every entry of the run then counts as complete at it; one whose ON was never committed is marked
in MISSMASK (R263). -/
def Dev.forceOff (s : Dev) (r : Nat × Nat × Nat) : Dev :=
  let run := s.runOf r.1
  let e := max r.2.2 (s.xclk + 1)
  let s := s.commitOff r.1 r.2.1 e
  let s := (s.setFlag .SEP_OUT_ST_MAXON r.2.1 true).tally 0x0045 r.2.1
    (match run with
      | f :: _ => f.part
      | [] => 0xFFFFFFFF)
  run.foldl (fun (d : Dev) (f : Fire) =>
    let d := d.updPart f.part fun p =>
      { p with flags := p.flags ||| 4, missMask := if f.onEdge.isNone then p.missMask ||| oneBit f.out else p.missMask }
    if f.onEdge.isNone then { d with fires := d.fires.filter fun (g : Fire) => !(f.same g) } else d) s

/-- The released OFFs in DMODE 1: runs whose every ON is committed and whose OFF was withheld (R259, R262). -/
def Dev.releasedRuns (s : Dev) : List (Nat × Nat) :=
  s.fires.foldl (fun acc f =>
    if f.mode = 1 ∧ f.offEdge.isNone ∧ !(acc.any fun e => e.1 == f.run) ∧ (s.runOf f.run).all fun g => g.onEdge.isSome then
      acc ++ [(f.run, f.out)]
    else acc) []

/-- Commit a released OFF, at least 5 µs ahead. -/
def Dev.releaseOff (s : Dev) (r : Nat × Nat) : Dev :=
  let off := s.timedOff (s.runOf r.1)
  let soonest := s.xclk + s.fieldTicks (usTicks 5)
  if off < soonest then (s.lateOff r.2).commitOff r.1 r.2 soonest else s.commitOff r.1 r.2 off

/-- Clearing ARM removes every entry whose ON is not committed and marks its part (R266). -/
def Dev.disarmEntries (s : Dev) : Dev :=
  (s.fires.filter fun (f : Fire) => f.onEdge.isNone).foldl (fun (d : Dev) (f : Fire) =>
    (d.updPart f.part fun p => { p with flags := p.flags ||| 2, removed := p.removed ||| oneBit f.out }).dropFire f) s

/-- A part whose entries do not fit: recorded and counted once, and its outputs missed once their commit point has passed (R50, R258,
R260). [DEDUCED, log 25] -/
def Dev.queueFull (s : Dev) (p : Part) (want : Nat) : Dev :=
  let s := (s.setFlag .SEP_STAT_QFULL 0 true).driveStop
  let s := if bit p.flags 0 then s
    else ((s.observe 147).tally 0x0044 p.lane p.id s.fires.length).updPart p.id fun q => { q with flags := q.flags ||| 1 }
  if s.standing || s.reverse then s
  else
    (bitsSet 32 want).foldl (fun d o =>
      match d.leadOf (d.newFire p o).onPos o with
      | some l =>
        if leadBelow l (usTicks 5) then d.missOn (d.newFire p o) else d
      | none => d) s

/-- Bring the entries of one closed part into line with its verdict (R257, R258). -/
def Dev.alignPart (s : Dev) (id : Nat) : Dev :=
  match s.part? id with
  | none => s
  | some p =>
    if p.fin.isNone then s
    else
      let sel := s.selected p
      let s := ((s.entriesOf id).filter fun (f : Fire) => f.onEdge.isNone && !bit sel f.out).foldl
        (fun (d : Dev) (f : Fire) => d.dropFire f) s
      let have_ := s.entryMask id ||| p.fireMask ||| p.missMask
      let want := clearBits sel have_
      if want = 0 then s
      else if 65536 < s.fires.length + popCount 32 want then s.queueFull p want
      else
        let s := (bitsSet 32 want).foldl (fun (d : Dev) o => d.addFire (d.newFire p o)) s
        s.updPart id fun q => { q with removed := clearBits q.removed want }

/-- Evaluate and commit (R259). -/
def Dev.evaluate (s : Dev) : Dev :=
  let s := s.forcedRuns.foldl (fun d r => d.forceOff r) s
  let s := s.releasedRuns.foldl (fun d r => d.releaseOff r) s
  if s.standing || s.reverse then s else s.events.foldl (fun d e => d.evalEvent e) s

/-- The fire queue's highest level (R264). -/
def Dev.noteLevel (s : Dev) : Dev := s.wr .SEP_FIREQ_MAX 0 (max (s.rd .SEP_FIREQ_MAX) s.fires.length)

/-- The Separator's creation and evaluation at a tick, under the ARM in force from this tick (R257 to R266). -/
def Dev.fireTick (s : Dev) : Dev :=
  let arm := s.flag .SEP_CTL_ARM
  let s := s.setFlag .SEP_STAT_ARMED 0 arm
  let s := if arm then ((s.parts.map fun (p : Part) => p.id).foldl (fun (d : Dev) id => d.alignPart id) s).noteLevel
    else s.disarmEntries
  s.evaluate

/-! ### When a committed edge passes (R261, R264, R278) -/

/-- The ON edge of an entry has passed: it fired, or it is missed because the field die reports the safe state or because
its tick has not been sent (R261, R278). -/
def Dev.passOn (s : Dev) (f : Fire) (e : Nat) : Dev :=
  let s := { s with fires := s.fires.map fun (g : Fire) => if f.same g then { g with fired := true } else g }
  if s.flag .FIO_LNK_STAT_SAFE then s.missOn f
  else if (s.barrier.hasUnsent e true || (s.barrier.waiting.any fun (t : Tick) => t.edge == e && t.level)) then
    s.updPart f.part fun p => { p with missMask := p.missMask ||| oneBit f.out }
  else s.updPart f.part fun p => { p with fireMask := p.fireMask ||| oneBit f.out }

/-- Every edge at or before the XCLK count passes; entries whose run's OFF edge has passed are complete (R264). -/
def Dev.passEdges (s : Dev) : Dev :=
  let due : List Fire := s.fires.filter fun (f : Fire) => !f.fired && (match f.onEdge with
    | some e => decide (e ≤ s.xclk)
    | none => false)
  let s := due.foldl (fun (d : Dev) (f : Fire) => d.passOn f (f.onEdge.getD 0)) s
  { s with
    fires := s.fires.filter fun (f : Fire) => match f.offEdge with
      | some e => decide (s.xclk < e)
      | none => true
    barrier := { s.barrier with sent := s.barrier.sent.filter fun e => decide (s.xclk < e) } }

/-! ### Parts that leave (R29, R268) -/

/-- A part may leave at this tick. -/
def Dev.mayLeave (s : Dev) (p : Part) : Bool :=
  let sel := s.selected p
  s.pastDeadline p && (s.entriesOf p.id).isEmpty &&
    (!s.flag .SEP_STAT_ARMED || clearBits sel (p.fireMask ||| p.missMask ||| p.removed) == 0)

/-- The 64-byte verdict log entry of a leaving part (R268). -/
def Dev.verdictEntry (s : Dev) (p : Part) : List Byte :=
  leBytes p.id 4 ++ leBytes p.verd 1 ++ leBytes p.pverd 1 ++ leBytes p.lane 1 ++ leBytes p.slot 1 ++ leBytes p.start 8 ++
    leBytes (p.fin.getD 0) 8 ++ leBytes ((s.deadline p).getD 0) 8 ++ leBytes p.aux 8 ++ leBytes p.fireMask 4 ++
    leBytes p.missMask 4 ++ leBytes p.recs 2 ++ leBytes (p.flags % 32) 1 ++ leBytes 0 5 ++ leBytes s.ns40 5 ++ leBytes 0 3

/-- Write a verdict log entry and advance `SEP_VLOG_WR` (R268). -/
def Dev.logVerdict (s : Dev) (p : Part) : Dev :=
  let i := s.rd .SEP_VLOG_WR_IDX
  let s := s.putBytes (sepBase + 0x300000 + 64 * i) (s.verdictEntry p)
  let s := s.wr .SEP_VLOG_WR_IDX 0 (i + 1)
  if i = 16383 then s.countMod .SEP_VLOG_WR_WRAPS else s

/-- One part leaves: its log entry is written and its slot may return to READY (R29, R39). -/
def Dev.leavePart (s : Dev) (p : Part) : Dev :=
  let s := s.logVerdict p
  let s := { s with parts := s.parts.filter fun (q : Part) => q.id != p.id }
  s.retire p.slot

/-- The parts that leave at this tick. -/
def Dev.leavers (s : Dev) : List Part := s.parts.filter fun p => s.mayLeave p

end Sys2Proof.Machine
end

