-- ==== Sys2Proof/Machine/Settings.lean ====
section
/-! DEFINITION. The committed settings of a stream context and its pipeline (R64, R80, R84, R88, R91 to R93, R100): what is
staged, what is refused, what follows from the settings in force, and the shape of a block. -/

namespace Sys2Proof.Machine

open Sys2Proof

/-! ### Settings (R64, R100) -/

/-- The fields that a context commit stages. -/
def ctxFields : List Field :=
  [.ITK_CTX_CFG0_BLKLEN, .ITK_CTX_CFG0_WIDTH, .ITK_CTX_CFG1_FMT, .ITK_CTX_CFG1_EN, .ITK_CTX_CFG1_CG,
    .ITK_CTX_CFG1_STREAM, .ITK_CTX_CFG1_LINK, .ITK_CTX_TMO, .ITK_CTX_AGE, .ITK_CTX_OFS, .ITK_CTX_LANES]

/-- The fields that a pipeline commit stages: the settings of R101, less the bank switch. -/
def ppFields : List Field :=
  [.ITK_PP_CTL_PIPES, .ITK_PP_CTL_LEVELS, .ITK_PP_CTL_SHIFT, .ITK_PP_CTL_OUTFMT, .ITK_PP_CTL_SCHED, .ITK_PP_CTL_BYP,
    .ITK_PP_STRIPE_RUNMAX, .ITK_PP_STRIPE_STRIPEW, .ITK_PP_RING, .ITK_PP_MERGE_SAT, .ITK_PP_MERGE_NEXP,
    .ITK_PP_RATIO_RATIO2, .ITK_PP_RATIO_RATIO1, .ITK_PP_COLOUR_CFA, .ITK_PP_COLOUR_DB, .ITK_PP_COLOUR_DG,
    .ITK_PP_COLOUR_DR, .ITK_PP_RSMP_WOUT, .ITK_PP_RSMP_HSCALE, .ITK_PP_HOFS, .ITK_PP_VPITCH, .ITK_PP_LUT0, .ITK_PP_LUT1,
    .ITK_PP_FLT0, .ITK_PP_FLT1, .ITK_PP_DEF, .ITK_PP_NDEF, .ITK_PP_OBUF, .ITK_PP_OBUFCFG_NBUF, .ITK_PP_OBUFCFG_SIZE,
    .ITK_PP_SYNC_RELSC, .ITK_PP_SYNC_SC, .ITK_PP_STATS_NSLOT, .ITK_PP_STATS_HSHIFT, .ITK_PP_STATS_EN, .ITK_PP_STBASE,
    .ITK_PP_RECBASE, .ITK_PP_OLMAX]

/-- A value of a table of settings; a field that was never committed has its reset value. -/
def setting (t : Tab Nat) (f : Field) : Nat := tabGet (fun _ => f.resetAt 0) t f.ctorIdx

/-- The staged values of some fields, as a table of settings. -/
def Dev.staged (s : Dev) (fs : List Field) (c : Nat) : Tab Nat :=
  fs.foldl (fun t f => tabSet (fun _ => f.resetAt 0) t f.ctorIdx (s.rd f c)) []

/-- Pixel formats (R64). -/
inductive PixelKind where
  | mono | rgb | bayer
deriving DecidableEq, Repr

/-- The kind of a format code. -/
def pixelKind (fmt : Nat) : PixelKind := if fmt ≤ 4 then .mono else if fmt ≤ 7 then .rgb else .bayer

/-- Bits per sample of a format code (R64). -/
def pixelBits (fmt : Nat) : Nat := ([8, 10, 12, 14, 16, 8, 10, 12, 8, 10, 12] : List Nat).getD fmt 8

/-- Components per pixel (R80). -/
def PixelKind.comps : PixelKind → Nat
  | .rgb => 3
  | _ => 1

/-- A stage is active: its bypass bit is 0 (R84). -/
def stageOn (pp : Tab Nat) (stage : Nat) : Bool := !bit (setting pp .ITK_PP_CTL_BYP) (stage - 1)

/-- The row delays of red, green and blue (R89). -/
def rowDelays (pp : Tab Nat) : List Int :=
  [sgn 5 (setting pp .ITK_PP_COLOUR_DR), sgn 5 (setting pp .ITK_PP_COLOUR_DG), sgn 5 (setting pp .ITK_PP_COLOUR_DB)]

/-- *V*_above of settings and a format (R93). -/
def haloAbove (k : PixelKind) (pp : Tab Nat) : Nat :=
  if !stageOn pp 5 then 0
  else match k with
    | .rgb => ((rowDelays pp).foldl (fun m d => max m (-d)) 0).toNat
    | .bayer => 1
    | .mono => 0

/-- *V*_below (R93). -/
def haloBelow (k : PixelKind) (pp : Tab Nat) : Nat :=
  (if !stageOn pp 5 then 0
    else match k with
      | .rgb => ((rowDelays pp).foldl (fun m d => max m d) 0).toNat
      | .bayer => 1
      | .mono => 0) + (if stageOn pp 6 then 1 else 0)

/-- Rounded-up division. -/
def ceilDiv (a b : Nat) : Nat := (a + b - 1) / b

/-- Output channels of a format (R84, R89). -/
def outChannels (k : PixelKind) (pp : Tab Nat) : Nat :=
  match k with
  | .rgb => 3
  | .bayer => if stageOn pp 5 then 3 else 1
  | .mono => 1

/-- Samples of a ring line: `NEXP` rows of `WIDTH` pixels (R80). -/
def lineSamples (cfg pp : Tab Nat) : Nat :=
  setting cfg .ITK_CTX_CFG0_WIDTH * setting pp .ITK_PP_MERGE_NEXP * (pixelKind (setting cfg .ITK_CTX_CFG1_FMT)).comps

/-- Width, format and exposures of a block's lines. -/
def blockShape (cfg pp : Tab Nat) : Nat × Nat × Nat :=
  (setting cfg .ITK_CTX_CFG0_WIDTH, setting cfg .ITK_CTX_CFG1_FMT, setting pp .ITK_PP_MERGE_NEXP)

/-- Output width at level 0. -/
def outWidth (cfg pp : Tab Nat) : Nat :=
  if stageOn pp 6 then setting pp .ITK_PP_RSMP_WOUT else setting cfg .ITK_CTX_CFG0_WIDTH

/-- The lines for which the plane offsets are computed (R92). -/
def planeLines (cfg pp : Tab Nat) : Nat :=
  if stageOn pp 6 then setting pp .ITK_PP_OLMAX else setting cfg .ITK_CTX_CFG0_BLKLEN

/-- Bytes per output value (R92). -/
def outBytes (pp : Tab Nat) : Nat := if setting pp .ITK_PP_CTL_OUTFMT = 0 then 1 else 2

/-- Width (or line count) at level `n`: halved and rounded up at each level (R91). -/
def halved (w : Nat) : Nat → Nat
  | 0 => w
  | n + 1 => ceilDiv (halved w n) 2

/-- Row pitch at level `n`, in bytes (R92). -/
def rowPitchAt (cfg pp : Tab Nat) (n : Nat) : Nat := 128 * ceilDiv (halved (outWidth cfg pp) n * outBytes pp) 128

/-- Bytes of one plane at level `n`. -/
def planeBytes (cfg pp : Tab Nat) (n : Nat) : Nat := rowPitchAt cfg pp n * halved (planeLines cfg pp) n

/-- Offset of channel `ch` of level `n` in a buffer: level by level, and within a level channel by channel (R92). -/
def planeOffset (cfg pp : Tab Nat) (n ch : Nat) : Nat :=
  let k := outChannels (pixelKind (setting cfg .ITK_CTX_CFG1_FMT)) pp
  (upTo n).foldl (fun a l => a + k * planeBytes cfg pp l) 0 + ch * planeBytes cfg pp n

/-- The buffer size that settings require, in 4 KiB units (`ITK_PP_NEED`, R92). -/
def bufferNeed (cfg pp : Tab Nat) : Nat := ceilDiv (planeOffset cfg pp (setting pp .ITK_PP_CTL_LEVELS + 1) 0) 4096

/-- The latest committed configuration of a context. -/
def StreamCtx.committed (x : StreamCtx) : Tab Nat := x.nextCfg.getD x.cfg

/-- The blocks of a context that the pipes may work on, oldest first. -/
def StreamCtx.work (x : StreamCtx) : List Block := x.closing ++ x.block.toList

/-- Change the blocks in work of a context. -/
def StreamCtx.mapWork (x : StreamCtx) (f : Block → Block) : StreamCtx :=
  { x with closing := x.closing.map f, block := x.block.map f }

/-- A context is enabled by its committed configuration. -/
def Dev.ctxEnabled (s : Dev) (c : Nat) : Bool := setting (s.ctx c).cfg .ITK_CTX_CFG1_EN == 1

/-- The reason for which a context commit is refused; 0 for none (R64). [DEDUCED, log 32] -/
def Dev.ctxCheck (s : Dev) (c : Nat) (t : Tab Nat) : Nat :=
  let g := setting t
  let others := (upTo 64).filter fun d => d != c && s.ctxEnabled d
  let same := others.filter fun d => setting (s.ctx d).cfg .ITK_CTX_CFG1_LINK == g .ITK_CTX_CFG1_LINK
  if g .ITK_CTX_CFG0_WIDTH = 0 ∨ 32768 < g .ITK_CTX_CFG0_WIDTH then 1
  else if g .ITK_CTX_CFG0_BLKLEN = 0 ∨ 4096 < g .ITK_CTX_CFG0_BLKLEN then 2
  else if g .ITK_CTX_TMO = 0 then 3
  else if g .ITK_CTX_AGE = 0 then 4
  else if same.any fun d => setting (s.ctx d).cfg .ITK_CTX_CFG1_STREAM == g .ITK_CTX_CFG1_STREAM then 5
  else if 24 ≤ g .ITK_CTX_CFG1_LINK ∨ s.rd .CXP_LNK_CTL_MASTER (g .ITK_CTX_CFG1_LINK) ≠ g .ITK_CTX_CFG1_LINK then 6
  else if 10 < g .ITK_CTX_CFG1_FMT then 7
  else if same.any fun d => setting (s.ctx d).cfg .ITK_CTX_CFG1_CG != g .ITK_CTX_CFG1_CG then 8
  else if g .ITK_CTX_LANES = 0 then 9
  else 0

/-- The defect list that settings name, read from the intake window (R88, R102). -/
def Dev.defects (s : Dev) (pp : Tab Nat) : List Nat :=
  (upTo (setting pp .ITK_PP_NDEF)).map fun i => s.leRead (intakeBase + 128 * setting pp .ITK_PP_DEF + 2 * i) 2

/-- A list rises strictly. -/
def rising : List Nat → Bool
  | a :: b :: l => decide (a < b) && rising (b :: l)
  | _ => true

/-- The defect list keeps the limits of R88. -/
def defectsOk (k : PixelKind) (width : Nat) (l : List Nat) : Bool :=
  rising l && (l.all fun x => decide (x < width)) &&
    (match k with
      | .bayer => l.all fun x => !(l.contains (x + 2))
      | _ => l.all fun x => !(l.contains (x + 1) && l.contains (x + 2) && l.contains (x + 3)))

/-- An area of `n` bytes at a base in 128-byte units lies inside the intake window; an empty area lies nowhere (R100). -/
def Dev.areaOk (s : Dev) (base n : Nat) : Bool := n == 0 || decide (128 * base + n ≤ s.intakeSize)

/-- The reason for which a pipeline commit is refused; 0 for none (R84, R100). [DEDUCED, log 32] -/
def Dev.ppCheck (s : Dev) (cfg pp : Tab Nat) : Nat :=
  let g := setting pp
  let k := pixelKind (setting cfg .ITK_CTX_CFG1_FMT)
  let width := setting cfg .ITK_CTX_CFG0_WIDTH
  let v := haloAbove k pp + haloBelow k pp
  let runmax := g .ITK_PP_STRIPE_RUNMAX
  let ringMin := if g .ITK_PP_CTL_SCHED = 0 then setting cfg .ITK_CTX_CFG0_BLKLEN + v else runmax + v + 8
  let nexp := g .ITK_PP_MERGE_NEXP
  let flat := width * 4 * (match k with
    | .mono => 1
    | .rgb => 3
    | .bayer => 2)
  if g .ITK_PP_CTL_SCHED = 1 ∧
      (g .ITK_PP_STRIPE_STRIPEW < 256 ∨ 8192 < g .ITK_PP_STRIPE_STRIPEW ∨ g .ITK_PP_STRIPE_STRIPEW % 64 ≠ 0) then 1
  else if runmax < 8 ∨ 1016 < runmax ∨ runmax % 8 ≠ 0 then 2
  else if 1024 < g .ITK_PP_RING ∨ g .ITK_PP_RING < max 16 ringMin then 3
  else if nexp = 0 ∨ 3 < nexp ∨ ((1 < nexp ∨ stageOn pp 2) ∧ k ≠ .mono) ∨ g .ITK_PP_RATIO_RATIO1 < 0x100 ∨
      g .ITK_PP_RATIO_RATIO2 < 0x100 then 4
  else if (stageOn pp 5 ∧ k = .mono) ∨ (rowDelays pp).any (fun d => decide (d < -8 ∨ 8 < d)) then 5
  else if stageOn pp 6 ∧ (g .ITK_PP_RSMP_HSCALE < 0x1000 ∨ g .ITK_PP_RSMP_WOUT = 0 ∨ 32768 < g .ITK_PP_RSMP_WOUT ∨
      g .ITK_PP_VPITCH = 0 ∨ g .ITK_PP_OLMAX = 0 ∨ 8192 < g .ITK_PP_OLMAX) then 6
  else if 1024 < g .ITK_PP_NDEF ∨ !defectsOk k width (s.defects pp) then 7
  else if g .ITK_PP_OBUFCFG_NBUF < 2 ∨ 64 < g .ITK_PP_OBUFCFG_NBUF ∨ g .ITK_PP_OBUFCFG_SIZE < bufferNeed cfg pp then 8
  else if g .ITK_PP_STATS_EN = 1 ∧
      (g .ITK_PP_STATS_NSLOT < 4 ∨ 64 < g .ITK_PP_STATS_NSLOT ∨ 16 < g .ITK_PP_STATS_HSHIFT) then 9
  else if 2 ≤ g .ITK_PP_CTL_SCHED ∨ g .ITK_PP_CTL_PIPES = 0 then 10
  else if s.areaOk (g .ITK_PP_LUT0) 8192 && s.areaOk (g .ITK_PP_LUT1) 8192 && s.areaOk (g .ITK_PP_FLT0) flat &&
      s.areaOk (g .ITK_PP_FLT1) flat && s.areaOk (g .ITK_PP_DEF) (2 * g .ITK_PP_NDEF) &&
      s.areaOk (g .ITK_PP_OBUF) (g .ITK_PP_OBUFCFG_NBUF * g .ITK_PP_OBUFCFG_SIZE * 4096) &&
      s.areaOk (g .ITK_PP_STBASE) (if g .ITK_PP_STATS_EN = 1 then 8192 * g .ITK_PP_STATS_NSLOT else 0) &&
      s.areaOk (g .ITK_PP_RECBASE) 16384 then 0
  else 11

/-! ### Blocks (R66, R81, R93, R95) -/

/-- Stripes of a block (R81). -/
def stripes (cfg pp : Tab Nat) : Nat :=
  if setting pp .ITK_PP_CTL_SCHED = 1 then max 1 (ceilDiv (outWidth cfg pp) (max 1 (setting pp .ITK_PP_STRIPE_STRIPEW))) else 1

/-- The format kind of a block. -/
def Block.kind (b : Block) : PixelKind := pixelKind (setting b.cfg .ITK_CTX_CFG1_FMT)
def Block.above (b : Block) : Nat := haloAbove b.kind b.pp
def Block.below (b : Block) : Nat := haloBelow b.kind b.pp

/-- The stamp of line `i` of a block, counted from its first line; before the block and after its end lines follow at the compare
spacing. [DEDUCED, log 35] -/
def Block.stampOf (b : Block) (i : Int) : Nat :=
  match b.lines[i.toNat]? with
  | some l => if i < 0 then moveBy b.start (i * b.space) else l.stamp
  | none => moveBy b.fin ((i - b.lines.length) * b.space)

/-- The lost span of a block: from V_below lines before its first lost line to V_above lines after its last (R95).
[DEDUCED, log 35] -/
def Block.lostSpan (b : Block) : Option (Nat × Nat) :=
  let idx := (upTo b.lines.length).filter fun i => b.lines[i]?.any fun l => l.lost
  match idx.head?, idx.getLast? with
  | some i, some j => some (b.stampOf ((i : Int) - b.below), b.stampOf (j + b.above + 1))
  | _, _ => none

end Sys2Proof.Machine
end

