-- ==== Sys2Proof/Machine/Stages.lean ====
section
/-! DEFINITION. The stages of the pipe (R83 to R93): every output sample as a function of the lines of its block, the settings in
force and the tables in the intake window. Free values number the samples of which the spec states no value. -/

namespace Sys2Proof.Machine

open Sys2Proof

/-- The largest U24 value. -/
def maxU24 : Nat := 2 ^ 24 - 1

/-- A quotient by 2^`n`, rounded: half of the last kept unit is added (R84). -/
def roundShift (v n : Nat) : Nat := if n = 0 then v else (v + 2 ^ (n - 1)) / 2 ^ n

def Block.width (b : Block) : Nat := setting b.cfg .ITK_CTX_CFG0_WIDTH
def Block.on (b : Block) (stage : Nat) : Bool := stageOn b.pp stage

/-- Components per pixel that enter the stages (R80). -/
def Block.comps (b : Block) : Nat := b.kind.comps

/-- Line `i` of a block as the pipe reads it: halo lines before its first line, copies of the first line where there are none,
copies of the last line after it (R93). -/
def Block.lineAt (b : Block) (i : Int) : Option RawLine :=
  if i < 0 then
    if b.halo.isEmpty then b.lines.head?
    else b.halo[(b.halo.length + i : Int).toNat]?
  else if i < b.lines.length then b.lines[i.toNat]? else b.lines.getLast?

/-- The raw code of component `c` of column `x` of exposure `e` of a line; a lost line is a line of zeros (R95). -/
def Block.raw (b : Block) (l : RawLine) (e x c : Nat) : Nat :=
  l.samples.getD ((e * b.width + x) * b.comps + c) 0

/-- The base of a table area, in the intake window (R168). -/
def Block.area (b : Block) (f : Field) : Nat := intakeBase + 128 * setting b.pp f

/-! ### Stages 1 to 4 (R85 to R88) -/

/-- Stage 1 (R85). [DEDUCED, log 40] -/
def Dev.stage1 (s : Dev) (b : Block) (l : RawLine) (e x c : Nat) : Nat :=
  let v := wrap 16 (b.raw l e x c * 2 ^ (16 - pixelBits (setting b.cfg .ITK_CTX_CFG1_FMT)))
  if !b.on 1 then v
  else
    let base := b.area (if l.bank = 0 then .ITK_PP_LUT0 else .ITK_PP_LUT1)
    let i := v / 16
    let t0 : Int := s.leRead (base + 2 * i) 2
    let t1 : Int := s.leRead (base + 2 * min (i + 1) 4095) 2
    (t0 + ((t1 - t0) * (v % 16 : Nat) + 8) / 16).toNat

/-- The exposure that stage 2 takes, and whether every exposure is saturated (R86). [DEDUCED, log 40] -/
def Dev.exposure (s : Dev) (b : Block) (l : RawLine) (x : Nat) : Nat × Bool :=
  let nexp := setting b.pp .ITK_PP_MERGE_NEXP
  match (upTo nexp).find? fun e => decide (s.stage1 b l e x 0 < setting b.pp .ITK_PP_MERGE_SAT) with
  | some e => (e, false)
  | none => (nexp - 1, true)

/-- Stage 2 applies: it is not bypassed, and the format is one of Mono (R84). -/
def Block.merges (b : Block) : Bool := b.on 2 && b.kind == .mono

/-- Stage 2 (R86). [DEDUCED, log 40] -/
def Dev.stage2 (s : Dev) (b : Block) (l : RawLine) (x c : Nat) : Nat :=
  if !b.merges then s.stage1 b l 0 x c
  else
    let e := (s.exposure b l x).1
    let ratio := if e = 0 then 256
      else if e = 1 then setting b.pp .ITK_PP_RATIO_RATIO1 else setting b.pp .ITK_PP_RATIO_RATIO2
    min maxU24 (roundShift (s.stage1 b l e x c * ratio) 8)

/-- The place of a column's entry in the flat table (R87). -/
def Block.flatIndex (b : Block) (l : RawLine) (x c : Nat) : Nat :=
  match b.kind with
  | .mono => x
  | .rgb => 3 * x + c
  | .bayer => 2 * x + l.odd.toNat

/-- Stage 3 (R87). -/
def Dev.stage3 (s : Dev) (b : Block) (l : RawLine) (x c : Nat) : Nat :=
  let v := s.stage2 b l x c
  if !b.on 3 then v
  else
    let base := b.area (if l.bank = 0 then .ITK_PP_FLT0 else .ITK_PP_FLT1)
    let w := s.leRead (base + 4 * b.flatIndex l x c) 4
    min maxU24 (roundShift ((v - w % 65536) * (w / 65536)) 14)

/-- The nearest column at a distance that is not listed, going left. -/
def leftGood (bad : List Nat) (step : Nat) : Nat → Nat → Option Nat
  | 0, _ => none
  | n + 1, x => if x < step then none else if bad.contains (x - step) then leftGood bad step n (x - step) else some (x - step)

/-- The nearest column at a distance that is not listed, going right. -/
def rightGood (bad : List Nat) (step width : Nat) : Nat → Nat → Option Nat
  | 0, _ => none
  | n + 1, x =>
    if width ≤ x + step then none else if bad.contains (x + step) then rightGood bad step width n (x + step) else some (x + step)

/-- Stage 4 (R88). A listed column without any good neighbour has no stated value. [DESIGN CHOICE, log 38] -/
def Dev.stage4 (s : Dev) (b : Block) (l : RawLine) (x c : Nat) : Nat :=
  let bad := s.defects b.pp
  if !b.on 4 || !bad.contains x then s.stage3 b l x c
  else
    let step := if b.kind = .bayer then 2 else 1
    match leftGood bad step b.width x, rightGood bad step b.width b.width x with
    | some i, some j => roundShift (s.stage3 b l i c + s.stage3 b l j c) 1
    | some i, none => s.stage3 b l i c
    | none, some j => s.stage3 b l j c
    | none, none => wrap 24 (Config.freeNat (s.free + 3 * x + c))

/-! ### Stage 5 (R89) -/

/-- Stage 4 at a line and column by the edge rules: lines by R93, columns by edge repeat. [DEDUCED, log 40] -/
def Dev.pixel (s : Dev) (b : Block) (j x : Int) (c : Nat) : Nat :=
  match b.lineAt j with
  | none => 0
  | some l => s.stage4 b l (min (x.toNat) (b.width - 1)) c

/-- The colour of a place of the mosaic: 0 red, 1 green, 2 blue, by the parities of line and column (R89). [DEDUCED, log 40] -/
def cfaColour (cfa row col : Nat) : Nat :=
  let r := (row + cfa / 2) % 2
  let c := (col + cfa % 2) % 2
  if r = 0 then (if c = 0 then 0 else 1) else (if c = 0 then 1 else 2)

/-- The offsets in the 3 × 3 window, row and column, at the distance that holds the nearest samples of a missing colour. -/
def windowOfs : List (Int × Int) := [(0, -1), (0, 1), (-1, 0), (1, 0), (-1, -1), (-1, 1), (1, -1), (1, 1)]

/-- The mean of 2 or 4 values, rounded. -/
def meanOf (l : List Nat) : Nat := (2 * l.foldl (· + ·) 0 + l.length) / (2 * max 1 l.length)

/-- Bilinear interpolation (R89): the colour `ch` at a place; a place outside the line has the colour of its position.
[DEDUCED, log 40] -/
def Dev.demosaic (s : Dev) (b : Block) (j : Int) (x ch : Nat) : Nat :=
  let cfa := setting b.pp .ITK_PP_COLOUR_CFA
  let row := match b.lineAt j with
    | some l => l.odd.toNat
    | none => 0
  let colourAt := fun (o : Int × Int) => cfaColour cfa (row + 2 + o.1).toNat ((x : Int) + 2 + o.2).toNat
  if colourAt (0, 0) = ch then s.pixel b j x 0
  else
    let near := (windowOfs.take 4).filter fun o => colourAt o == ch
    let far := (windowOfs.drop 4).filter fun o => colourAt o == ch
    let place := if near.isEmpty then far else near
    meanOf (place.map fun o => s.pixel b (j + o.1) (x + o.2) 0)

/-- Output channels of a block. -/
def Block.channels (b : Block) : Nat := outChannels b.kind b.pp

/-- Stage 5 (R89). -/
def Dev.stage5 (s : Dev) (b : Block) (j : Int) (x ch : Nat) : Nat :=
  match b.kind with
  | .mono => s.pixel b j x 0
  | .rgb => if b.on 5 then s.pixel b (j + (rowDelays b.pp).getD ch 0) x ch else s.pixel b j x ch
  | .bayer => if b.on 5 then s.demosaic b j x ch else s.pixel b j x 0

/-! ### Stage 6 (R90) -/

/-- Linear interpolation by 1/256ths, rounded. -/
def lerp256 (u v f : Nat) : Nat := (u * (256 - f) + v * f + 128) / 256

/-- The input position of an output column, signed, in 1/65,536 column. -/
def Block.columnPos (b : Block) (x : Nat) : Int :=
  sgn 32 (setting b.pp .ITK_PP_HOFS) + (4 * x * setting b.pp .ITK_PP_RSMP_HSCALE : Nat)

/-- The horizontal part of stage 6. [DEDUCED, log 40] -/
def Dev.stage6row (s : Dev) (b : Block) (j : Int) (x ch : Nat) : Nat :=
  let p := b.columnPos x
  let i := p / 65536
  let at' := fun (k : Int) => s.stage5 b j (min k.toNat (b.width - 1)) ch
  lerp256 (at' i) (at' (i + 1)) ((p % 65536).toNat / 256)

/-- The stamp of line `j`; the end of the block after its last line (R66). -/
def Block.stampAt (b : Block) (j : Nat) : Nat := match b.lines[j]? with
  | some l => l.stamp
  | none => b.fin

/-- The distance from the block's start to its first output position, a multiple of `VPITCH` (R90). -/
def Block.firstOut (b : Block) : Nat :=
  let vp := max 1 (setting b.pp .ITK_PP_VPITCH)
  (vp - b.start % vp) % vp

/-- Level-0 output lines whose place is decided by input lines `[0, e)`, before the limit of `OLMAX`. -/
def Block.positions (b : Block) (e : Nat) : Nat :=
  if !b.on 6 then e
  else
    let vp := max 1 (setting b.pp .ITK_PP_VPITCH)
    let d := wrap 64 (b.stampAt e + 2 ^ 64 - b.start)
    if e = 0 ∨ d ≤ b.firstOut then 0 else ceilDiv (d - b.firstOut) vp

/-- Level-0 output lines that input lines `[0, e)` yield. -/
def Block.outLines (b : Block) (e : Nat) : Nat :=
  if b.on 6 then min (b.positions e) (setting b.pp .ITK_PP_OLMAX) else e

/-- The stamp of output line `o`. -/
def Block.outStamp (b : Block) (o : Nat) : Nat :=
  if b.on 6 then wrap 64 (b.start + b.firstOut + o * setting b.pp .ITK_PP_VPITCH) else b.stampAt o

/-- Stage 6 (R90): output line `o` between the lines whose stamps bracket its position. [DEDUCED, log 40] -/
def Dev.stage6 (s : Dev) (b : Block) (o x ch : Nat) : Nat :=
  if !b.on 6 then s.stage5 b o x ch
  else
    let d := fun (p : Nat) => wrap 64 (p + 2 ^ 64 - b.start)
    let p := d (b.outStamp o)
    let j := (((upTo b.lines.length).filter fun j => decide (d (b.stampAt j) ≤ p)).getLast?).getD 0
    let span := d (b.stampAt (j + 1)) - d (b.stampAt j)
    let w := (p - d (b.stampAt j)) * 256 / max 1 span
    if w = 0 then s.stage6row b j x ch
    else lerp256 (s.stage6row b j x ch) (s.stage6row b (j + 1) x ch) w

/-! ### Stages 7 and 8 (R91, R92) -/

/-- Stage 7 (R91): a value of level `n` of a plane of `w` by `h`. -/
def pyramid (get : Nat → Nat → Nat) (w h : Nat) : Nat → Nat → Nat → Nat
  | 0, r, x => get r x
  | n + 1, r, x =>
    let r1 := min (2 * r + 1) (halved h n - 1)
    let x1 := min (2 * x + 1) (halved w n - 1)
    let g := pyramid get w h n
    (g (2 * r) (2 * x) + g (2 * r) x1 + g r1 (2 * x) + g r1 x1 + 2) / 4

/-- Stage 8 (R92). -/
def planar (pp : Tab Nat) (v : Nat) : Nat :=
  let sh := setting pp .ITK_PP_CTL_SHIFT
  match setting pp .ITK_PP_CTL_OUTFMT with
  | 0 => min 255 (roundShift v sh)
  | 1 => min 65535 (roundShift v sh)
  | 2 => (fFp16.saturate .rne 0 (.fin false v (-(sh : Int)))).1
  | _ => (fBf16.narrow .rne 0 (.fin false v (-(sh : Int)))).1

end Sys2Proof.Machine
end

