-- ==== Sys2Proof/Machine/Capture.lean ====
section
/-! DEFINITION. The capture engine (R290 to R294): ring copies of closed blocks, and library samples of parts as Epoth strips
(R298, R299). -/

namespace Sys2Proof.Machine

open Sys2Proof

/-! ### The ring (R291) -/

/-- The rules that are enabled and name a context (R290). -/
def Dev.rulesOf (s : Dev) (c : Nat) : List Nat :=
  (upTo 8).filter fun r => s.flag .TCH_CAP_CTL_EN r && s.rd .TCH_CAP_CTL_CTX r == c

def Dev.ringBase (s : Dev) : Nat := s.rd .TCH_RING_BASE * 4096
def Dev.ringBytes (s : Dev) : Nat := s.rd .TCH_RING_SIZE * 0x100000

/-- The output buffer of a block of a context, in the intake window: base and size (R92, R95). [DEDUCED, log 35] -/
def Block.buffer (b : Block) : Nat × Nat :=
  let size := 4096 * setting b.pp .ITK_PP_OBUFCFG_SIZE
  let nbuf := max 1 (setting b.pp .ITK_PP_OBUFCFG_NBUF)
  (intakeBase + 128 * setting b.pp .ITK_PP_OBUF + b.number % nbuf * size, size)

/-- Copies that a new copy at `[ofs, ofs + len)` overwrites are gone. -/
def RingCopy.under (e : RingCopy) (ofs len : Nat) : RingCopy :=
  if e.ofs < ofs + len ∧ ofs < e.ofs + e.len then { e with len := 0 } else e

/-- A copy of the block is lost (R291). [DEDUCED, log 73] -/
def Dev.loseCopy (s : Dev) : Dev := (s.count .TCH_CAPLOST_CNT).setFlag .TCH_STAT_CAPLOST 0 true

/-- The bytes that capture moves count in the present window of the cap (R309). [DEDUCED, log 73] -/
def Dev.useCap (s : Dev) (n : Nat) : Dev := { s with capUsed := s.capUsed + n }

/-- A closed block is copied into the ring on its sync signal, for every rule at once; a copy that does not fit before the
ring's end begins at its start, and one that the ring or the LPDDR5X cannot take is lost. [DEDUCED, log 73] -/
def Dev.captureBlock (s : Dev) (c : Nat) (b : Block) (record : List Byte) : Dev :=
  let (buf, size) := b.buffer
  let len := 64 + size
  let entry : RingCopy := { ctx := c, start := b.start, fin := b.fin, ofs := 0, len := 0, cfg := b.cfg, pp := b.pp }
  if (s.rulesOf c).isEmpty || s.ringBytes == 0 then { s with ring := s.ring ++ [entry] }
  else if s.ringBytes < len || s.flag .GLB_MODE_FIXED then { s.loseCopy with ring := s.ring ++ [entry] }
  else
    let ofs := if s.rd .TCH_RING_WR + len ≤ s.ringBytes then s.rd .TCH_RING_WR else 0
    let s := (s.putBytes (s.ringBase + ofs) record).copyBytes buf (s.ringBase + ofs + 64) size
    let next := ceilDiv (ofs + len) 4096 * 4096
    let s := (s.wr .TCH_RING_WR 0 (if s.ringBytes ≤ next then 0 else next)).useCap len
    { s with ring := (s.ring.map fun (e : RingCopy) => e.under ofs len) ++ [{ entry with ofs := ofs, len := len }] }

/-! ### Samples (R292, R293, R298, R299) -/

/-- The output shape of a copy: width, channels and bytes per value. -/
def RingCopy.shape (e : RingCopy) : Nat × Nat × Nat :=
  (outWidth e.cfg e.pp, outChannels (pixelKind (setting e.cfg .ITK_CTX_CFG1_FMT)) e.pp, outBytes e.pp)

/-- The block record of a copy. -/
def Dev.copyRecord (s : Dev) (e : RingCopy) : List Byte := s.bytesAt (s.ringBase + e.ofs) 64

/-- Level-0 lines of a copy, and the stamps that its record gives them. [DESIGN CHOICE, log 74] -/
def Dev.copyStamps (s : Dev) (e : RingCopy) : List Nat :=
  let r := s.copyRecord e
  (upTo (leAt r 34 2 % 16384)).map fun i => wrap 64 (leAt r 16 8 + i * leAt r 24 4)

/-- The level-0 lines of a channel of a copy. -/
def Dev.copyPlane (s : Dev) (e : RingCopy) (ch : Nat) : List Byte :=
  let (w, _, n) := e.shape
  let base := s.ringBase + e.ofs + 64 + planeOffset e.cfg e.pp 0 ch
  (upTo (s.copyStamps e).length).flatMap fun i => s.bytesAt (base + i * rowPitchAt e.cfg e.pp 0) (w * n)

/-- Bytes padded with zeros to a multiple of 8. -/
def pad8 (b : List Byte) : List Byte := b ++ List.replicate ((8 - b.length % 8) % 8) 0

/-- The stamps of lines rise by one pitch that a strip header can hold. -/
def evenPitch (l : List Nat) : Option Nat :=
  match l with
  | a :: b :: _ =>
    let p := wrap 64 (b + 2 ^ 64 - a)
    if 0 < p ∧ p < 2 ^ 32 ∧ (l.zipIdx.all fun e => e.1 == wrap 64 (a + e.2 * p)) then some p else none
  | _ => none

/-- The body of a strip after its header: planes, block records, stamp table. The spec states no content for copies of different
shapes in one strip: it is free then. -/
def Dev.stripBody (s : Dev) (cs : List RingCopy) (table : Bool) : List Byte :=
  let shape := match cs with
    | e :: _ => e.shape
    | [] => (0, 0, 0)
  let stamps := cs.flatMap fun (e : RingCopy) => s.copyStamps e
  let planes := if cs.all fun (e : RingCopy) => e.shape == shape then
      (upTo shape.2.1).flatMap fun ch => pad8 (cs.flatMap fun (e : RingCopy) => s.copyPlane e ch)
    else
      let n := ceilDiv (stamps.length * shape.1 * shape.2.2) 8 * 8
      (upTo (n * shape.2.1)).map fun k => Config.epothByte s.free k
  let records := cs.flatMap fun (e : RingCopy) => s.copyRecord e
  pad8 (planes ++ records ++ (if table then stamps.flatMap fun p => leBytes p 8 else []))

/-- The Epoth strip of a sample (R298): CODING 0; evenly spaced lines may be written with a pitch or with a stamp table.
[DESIGN CHOICE, log 74] -/
def Dev.strip (s : Dev) (p : Part) (c : Nat) (cs : List RingCopy) : List Byte :=
  let stamps := cs.flatMap fun (e : RingCopy) => s.copyStamps e
  let pitch := if Config.stampTable then 0 else (evenPitch stamps).getD 0
  let body := s.stripBody cs (pitch == 0)
  let shape := match cs with
    | e :: _ => e.shape
    | [] => (0, 0, 0)
  let gen := match cs with
    | e :: _ => leAt (s.copyRecord e) 38 2
    | [] => 0
  let head := leBytes (64 + body.length) 4 ++ leBytes p.id 4 ++ leBytes (stamps.headD 0) 8 ++ leBytes pitch 4 ++
    leBytes shape.1 2 ++ leBytes gen 2 ++ leBytes stamps.length 4 ++ leBytes shape.2.1 1 ++ leBytes (shape.2.2 - 1) 1 ++
    leBytes 0 2 ++ leBytes cs.length 4 ++ leBytes c 1 ++ leBytes p.pverd 1 ++ leBytes 0 18 ++ leBytes (crc32 body) 4
  head ++ leBytes (crc32 head) 4 ++ body

def Dev.libBase (s : Dev) : Nat := s.rd .TCH_LIB_BASE * 128
/-- The store follows the index (R293). -/
def Dev.storeBase (s : Dev) : Nat := s.libBase + 32 * s.rd .TCH_LIB_MAX
def Dev.libEnd (s : Dev) : Nat := s.libBase + s.rd .TCH_LIB_SIZE * 0x100000

/-- The index entry of a capture (R293). -/
def captureEntry (loc len : Nat) (p : Part) (held : Bool) (c : Nat) : List Byte :=
  leBytes loc 8 ++ leBytes len 4 ++ leBytes p.pverd 1 ++ leBytes 0 1 ++ leBytes (1 + 2 * held.toNat) 1 ++ leBytes c 1 ++
    leBytes p.id 4 ++ leBytes 0 4 ++ leBytes p.start 8

/-- A sample is written into the store and its entry appended; without room, capture of samples stops (R292).
[DEDUCED, log 75] -/
def Dev.storeSample (s : Dev) (r c : Nat) (p : Part) (cs : List RingCopy) : Dev :=
  let strip := s.strip p c cs
  let n := s.rd .TCH_LIB_CNT
  let loc := s.storeBase + s.libUsed
  if s.rd .TCH_LIB_SIZE = 0 ∨ s.rd .TCH_LIB_MAX ≤ n ∨ s.libEnd < loc + strip.length then
    (s.setFlag .TCH_STAT_LIBFULL 0 true).tally 0x0071 0xFF 0xFFFFFFFF n
  else
    let taken := (s.rule r).taken + 1
    let holdn := s.rd .TCH_CAP_RATE_HOLDN r
    let held := holdn != 0 && taken % holdn == 0
    let s := (s.setRule r { s.rule r with taken := taken }).putBytes loc strip
    let s := (s.putBytes (s.libBase + 32 * n) (captureEntry loc strip.length p held c)).useCap (strip.length + 32)
    let s := (s.wr .TCH_LIB_CNT 0 (n + 1)).count .TCH_CAP_CNT
    { s with libUsed := s.libUsed + strip.length, free := s.free + 1 }

/-- A copy meets an interval. -/
def RingCopy.meets (e : RingCopy) (a b : Nat) : Bool := after b e.start && after e.fin a

/-- A block of the interval has no copy in the ring: it was not copied, or it is still in work. -/
def Dev.uncopied (s : Dev) (c a b : Nat) : Bool :=
  (s.ring.any fun (e : RingCopy) => e.ctx == c && e.len == 0 && e.meets a b) ||
    (s.ctx c).work.any fun (k : Block) => after b k.start && (!k.closed || after k.fin a)

/-- A rule takes the sample of a part, or misses it (R292), as it does while fixed-schedule mode closes the LPDDR5X (R179). -/
def Dev.takeSample (s : Dev) (r : Nat) (p : Part) : Dev :=
  let c := s.rd .TCH_CAP_CTL_CTX r
  let m := cts (s.rd .TCH_CAP_MARGIN r)
  let a := wrap 64 (p.start + 2 ^ 64 - m)
  let b := wrap 64 (p.fin.getD p.start + m)
  let cs := s.ring.filter fun (e : RingCopy) => e.ctx == c && e.meets a b
  if s.flag .GLB_MODE_FIXED || s.uncopied c a b || (cs.flatMap fun (e : RingCopy) => s.copyStamps e).isEmpty then
    (s.count .TCH_CAPMISS_CNT).setFlag .TCH_STAT_CAPMISS 0 true
  else s.storeSample r c p cs

/-- A rule selects a part that leaves the table (R290). -/
def Dev.ruleSelects (s : Dev) (r : Nat) (p : Part) : Bool :=
  s.flag .TCH_CAP_CTL_EN r && !s.flag .TCH_CAP_CTL_ALL r &&
    bit (setting (s.ctx (s.rd .TCH_CAP_CTL_CTX r)).cfg .ITK_CTX_LANES) p.lane &&
    bit (s.rd .TCH_CAP_MASK (8 * r + p.verd / 32)) (p.verd % 32)

/-- A part leaves the table: each rule that selects it takes 1 in RATE of the parts it selects; capture of samples has stopped
while LIBFULL is 1. -/
def Dev.capturePart (s : Dev) (p : Part) : Dev :=
  (upTo 8).foldl (fun (d : Dev) r =>
    if !d.ruleSelects r p then d
    else
      let k := (d.rule r).selected
      let d := d.setRule r { d.rule r with selected := k + 1 }
      if k % max 1 (d.rd .TCH_CAP_RATE r) ≠ 0 ∨ d.flag .TCH_STAT_LIBFULL then d else d.takeSample r p) s

end Sys2Proof.Machine
end

