-- ==== Sys2Proof/Machine/Blocks.lean ====
section
/-! DEFINITION. What a pipe writes of a block (R81, R92, R95, R96, R99): the output of a slot, the statistics records, the block
record with the signal of its sync counter, and which blocks are complete. -/

namespace Sys2Proof.Machine

open Sys2Proof

/-! ### The output of a slot (R81, R91, R92) -/

/-- The output columns of a stripe: first and end (R81). -/
def Block.columns (b : Block) (stripe : Nat) : Nat × Nat :=
  let w := outWidth b.cfg b.pp
  if setting b.pp .ITK_PP_CTL_SCHED = 1 then
    let sw := setting b.pp .ITK_PP_STRIPE_STRIPEW
    (stripe * sw, min w ((stripe + 1) * sw))
  else (0, w)

/-- The input columns that a stripe's output columns read (R90, R94). -/
def Block.inputColumns (b : Block) (stripe : Nat) : Nat :=
  let (x0, x1) := b.columns stripe
  if !b.on 6 then x1 - x0
  else
    let clip := fun (p : Int) => min p.toNat (b.width - 1)
    clip (b.columnPos (x1 - 1) / 65536 + 1) + 1 - clip (b.columnPos x0 / 65536)

/-- The rows of level `n` that level-0 lines `[o0, o1)` complete; `last` when no further line follows. -/
def levelRows (n o0 o1 : Nat) (last : Bool) : List Nat :=
  let r1 := if last then ceilDiv o1 (2 ^ n) else o1 / 2 ^ n
  rangeFrom (o0 / 2 ^ n) (r1 - o0 / 2 ^ n)

/-- The values that a slot writes: address and value, for lines `[a, e)` of a stripe. -/
def Dev.slotWrites (s : Dev) (b : Block) (stripe a e : Nat) : List (Nat × Nat) :=
  let o0 := b.outLines a
  let o1 := b.outLines e
  let w := outWidth b.cfg b.pp
  let (x0, x1) := b.columns stripe
  let last := (b.closed && e == b.lines.length) || (b.on 6 && o1 == setting b.pp .ITK_PP_OLMAX)
  (upTo (setting b.pp .ITK_PP_CTL_LEVELS + 1)).flatMap fun n =>
    (upTo b.channels).flatMap fun ch =>
      (levelRows n o0 o1 last).flatMap fun r =>
        (rangeFrom (x0 / 2 ^ n) (ceilDiv x1 (2 ^ n) - x0 / 2 ^ n)).map fun x =>
          (b.buffer.1 + planeOffset b.cfg b.pp n ch + r * rowPitchAt b.cfg b.pp n + x * outBytes b.pp,
            planar b.pp (pyramid (fun o x => s.stage6 b o x ch) w o1 n r x))

/-- The output of a slot is written; a block without its buffer writes none (R95). The tables are read as they stood before.
[DESIGN CHOICE, log 39] -/
def Dev.writeSlot (s : Dev) (b : Block) (stripe a e : Nat) : Dev :=
  if b.noBuf then s
  else
    let n := outBytes b.pp
    { ((s.slotWrites b stripe a e).foldl (fun (d : Dev) p => d.leWrite p.1 n p.2) s) with
      free := s.free + 3 * b.width }

/-! ### Statistics (R99) -/

/-- Runs of consecutive lines of one generation: first line and count. -/
def genRuns : List RawLine → Nat → List (Nat × Nat × Nat)
  | [], _ => []
  | l :: ls, i =>
    match genRuns ls (i + 1) with
    | (g, f, n) :: rest => if g = l.gen then (g, i, n + 1) :: rest else (l.gen, i, 1) :: (g, f, n) :: rest
    | [] => [(l.gen, i, 1)]

/-- The runs as records hold them: further runs join the fourth. -/
def mergedRuns (l : List (Nat × Nat × Nat)) : List (Nat × Nat × Nat) :=
  match l with
  | a :: b :: c :: d :: e => [a, b, c, (d.1, d.2.1, d.2.2 + (e.map fun x => x.2.2).foldl (· + ·) 0)]
  | l => l

/-- What the statistics take of a line: its stage-4 values, components interleaved, and the pixels whose every exposure is
saturated (R86, R99). -/
def Dev.lineStats (s : Dev) (b : Block) (l : RawLine) : List Nat × Nat :=
  l.stats.getD
    ((upTo b.width).flatMap fun x => (upTo b.comps).map fun c => s.stage4 b l x c,
      if b.merges then ((upTo b.width).filter fun x => (s.exposure b l x).2).length else 0)

/-- The lines `[a, e)` of a block have been processed: their statistics are those of the tables as they stand (R99). -/
def Dev.countLines (s : Dev) (b : Block) (a e : Nat) : Block :=
  if setting b.pp .ITK_PP_STATS_EN = 0 then b
  else
    { b with lines := b.lines.zipIdx.map fun (x : RawLine × Nat) =>
        if a ≤ x.2 ∧ x.2 < e then { x.1 with stats := some (s.lineStats b x.1) } else x.1 }

/-- The stage-4 values of a component over lines, column range `[x0, x1)`. -/
def Dev.statValues (s : Dev) (b : Block) (ls : List RawLine) (c x0 x1 : Nat) : List Nat :=
  ls.flatMap fun l => (rangeFrom x0 (x1 - x0)).map fun x => (s.lineStats b l).1.getD (x * b.comps + c) 0

/-- A histogram: 256 bins. -/
def histogram (shift : Nat) (vs : List Nat) : List Nat :=
  (upTo 256).map fun k => (vs.filter fun v => min 255 (v / 2 ^ shift) == k).length

/-- A rounded mean. -/
def meanRounded (vs : List Nat) : Nat := (2 * vs.foldl (· + ·) 0 + vs.length) / (2 * max 1 vs.length)

/-- The part of a statistics record for channel `c`: histogram and band means. [DEDUCED, log 40] -/
def Dev.statChannel (s : Dev) (b : Block) (ls : List RawLine) (c : Nat) : List Byte :=
  let h := histogram (setting b.pp .ITK_PP_STATS_HSHIFT) (s.statValues b ls c 0 b.width)
  let m := (upTo 256).map fun k =>
    if 128 * k < b.width then meanRounded (s.statValues b ls c (128 * k) (min b.width (128 * k + 128))) else 0
  (h ++ m).flatMap fun v => leBytes v 4

/-- Raw codes of a component at the format's maximum. [DEDUCED, log 40] -/
def Block.saturated (b : Block) (ls : List RawLine) (c : Nat) : Nat :=
  let top := 2 ^ pixelBits (setting b.cfg .ITK_CTX_CFG1_FMT) - 1
  ((ls.flatMap fun l => (upTo (setting b.pp .ITK_PP_MERGE_NEXP)).flatMap fun e =>
    (upTo b.width).map fun x => b.raw l e x c).filter fun v => v == top).length

/-- Pixels whose every exposure is saturated (R86). -/
def Dev.allSaturated (s : Dev) (b : Block) (ls : List RawLine) : Nat :=
  (ls.map fun l => (s.lineStats b l).2).foldl (· + ·) 0

/-- A statistics record: 6,224 bytes of its 8 KiB slot. -/
def Dev.statRecord (s : Dev) (b : Block) (run : Nat × Nat × Nat) (last merged : Bool) : List Byte :=
  let (g, f, n) := run
  let ls := (b.lines.drop f).take n
  let chans := (upTo 3).flatMap fun c => if c < b.comps then s.statChannel b ls c else leBytes 0 2048
  leBytes (b.stampAt f) 8 ++ leBytes (b.stampAt (f + n)) 8 ++ leBytes b.seq 4 ++ leBytes g 2 ++ leBytes f 2 ++ leBytes n 2 ++
    leBytes b.comps 1 ++ leBytes (ceilDiv b.width 128 - 1) 1 ++ leBytes (last.toNat + 2 * merged.toNat) 4 ++ leBytes 0 32 ++
    chans ++ ((upTo 3).flatMap fun c => leBytes (if c < b.comps then b.saturated ls c else 0) 4) ++
    leBytes (s.allSaturated b ls) 4

/-- The statistics of a block are enabled and there are lines to count. -/
def Block.statRuns (b : Block) : List (Nat × Nat × Nat) :=
  if setting b.pp .ITK_PP_STATS_EN = 1 then mergedRuns (genRuns b.lines 0) else []

/-- The statistics records of a block are written to the next slots of the context's ring. -/
def Dev.writeStats (s : Dev) (c : Nat) (b : Block) : Dev :=
  let runs := b.statRuns
  let merged := decide (4 < (genRuns b.lines 0).length)
  let s := runs.zipIdx.foldl (fun (d : Dev) (r : (Nat × Nat × Nat) × Nat) =>
    let slot := ((d.ctx c).stats) % max 1 (setting b.pp .ITK_PP_STATS_NSLOT)
    let d := d.putBytes (b.area .ITK_PP_STBASE + 8192 * slot)
      (s.statRecord b r.1 (r.2 + 1 == runs.length) (merged && r.2 == 3))
    d.setCtx c { d.ctx c with stats := (d.ctx c).stats + 1 }) s
  s

/-! ### The block record (R96) -/

/-- The 64 bytes of a block record; what the spec states for no line, or no output line, is free where there is none. -/
def Dev.blockRecord (s : Dev) (c : Nat) (b : Block) : List Byte :=
  let n := b.lines.length
  let outs := if b.noBuf then 0 else b.outLines n
  let clip := !b.noBuf && b.on 6 && decide (setting b.pp .ITK_PP_OLMAX < b.positions n)
  let ostart := if b.positions n = 0 then s.freeValue 64 else b.outStamp 0
  let pitch := if b.on 6 then setting b.pp .ITK_PP_VPITCH else b.space
  let gens := genRuns b.lines 0
  let lost := b.lostSpan
  let flags := b.broken.toNat + 2 * lost.isSome.toNat + 4 * b.fresh.toNat +
    8 * (decide (0 < b.below) && decide (0 < n)).toNat + 16 * (decide (1 < gens.length)).toNat +
    32 * (decide (4 < gens.length) && !b.statRuns.isEmpty).toNat + 64 * b.statRuns.length + 512 * b.memErr.toNat
  let gen := match b.lines with
    | l :: _ => l.gen
    | [] => wrap 16 (Config.freeNat (s.free + 1))
  let (l0, l1) := lost.getD (0, 0)
  leBytes b.start 8 ++ leBytes b.fin 8 ++ leBytes ostart 8 ++ leBytes pitch 4 ++ leBytes b.seq 4 ++ leBytes n 2 ++
    leBytes (outs + 16384 * clip.toNat) 2 ++ leBytes (c + 64 * flags) 2 ++ leBytes gen 2 ++
    leBytes l0 8 ++ leBytes l1 8 ++
    leBytes (b.number % max 1 (setting b.pp .ITK_PP_OBUFCFG_NBUF)) 2 ++ leBytes 0 6

/-- The pipes are done with a block: closed, no slot of it on a pipe, every line of every stripe processed. -/
def Block.done (b : Block) : Bool :=
  b.closed && b.running.isEmpty && b.next.all fun n => decide (b.lines.length ≤ n)

/-- Where the record of block number `seq` lies (R96). -/
def recordAt (pp : Tab Nat) (seq : Nat) : Nat := intakeBase + 128 * setting pp .ITK_PP_RECBASE + 64 * (seq % 256)

/-- A block is complete (R96): statistics, record, then the signal; its parts receive UNKNOWN_INPUT for a memory error, that of
its record too; the capture engine copies it (R291). -/
def Dev.completeBlock (s : Dev) (c : Nat) (b : Block) : Dev :=
  let s := s.writeStats c b
  let record := s.blockRecord c b
  let s := { s.putBytes (recordAt b.pp b.seq) record with free := s.free + 2 }
  let s := s.scAdd (setting b.pp .ITK_PP_SYNC_SC) 1
  let s := if b.memErr || b.recErr then s.openMark
      { source := .memErr c, start := b.start, fin := some b.fin, lanes := setting b.cfg .ITK_CTX_LANES, code := 0xE0 }
    else s
  s.captureBlock c b record

/-- The oldest closed block of a context, if the pipes are done with it, is complete. -/
def Dev.finishHead (s : Dev) (c : Nat) : Dev :=
  match (s.ctx c).closing with
  | b :: l => if b.done then (s.setCtx c { s.ctx c with closing := l }).completeBlock c b else s
  | [] => s

/-- The closed blocks of a context that the pipes are done with are complete, in their order. -/
def Dev.finishBlocks (s : Dev) (c : Nat) : Dev := iter (fun (d : Dev) => d.finishHead c) (s.ctx c).closing.length s

end Sys2Proof.Machine
end

