-- ==== Sys2Proof/Machine/Intake.lean ====
section
/-! DEFINITION. Stream intake (R62 to R77, R95, R97, R98, R100): stamps, lines, blocks,
breaks and gaps, and fusion contexts. The commands are at the end of the file. -/

namespace Sys2Proof.Machine

open Sys2Proof

/-! ### Waking (R46) -/

/-- A Churn is power-gated and not held (R129). -/
def Dev.gated (s : Dev) (n : Nat) : Bool :=
  s.rd .CHN_STAT_PWR n == 0 && !s.flag .CHN_STAT_ISO n

/-- A Churn begins its power-up when a block opens whose sync counter a job waits on: the lowest power-gated Churn (R46). -/
def Dev.wakeFor (s : Dev) (sc : Nat) : Dev :=
  let waits := s.jobs.any fun j => match j.cmds[j.pc]? with
    | some (.wait k _ _) => k == sc
    | _ => false
  match (upTo 16).find? fun n => s.gated n with
  | some n => if waits then s.wr .CHN_STAT_PWR n 1 else s
  | none => s

/-! ### Fusion contexts (R76, R77) -/

/-- The members that a fusion context's registers name: valid entries, in order. [DEDUCED, log 36] -/
def Dev.fusMembers (s : Dev) (f : Nat) : List Nat :=
  ((upTo 8).filter fun k => bit (s.rd .ITK_FUS_MEM f) (8 * k + 7)).map fun k => bits (s.rd .ITK_FUS_MEM f) (8 * k) 6

/-- The staged settings of a fusion context may be taken (R77). -/
def Dev.fusOk (s : Dev) (f : Nat) : Bool :=
  let m := s.fusMembers f
  s.rd .ITK_FUS_BUDGET f != 0 && decide (2 ≤ m.length) && m.all fun c => s.ctxEnabled c

/-- The open gaps of members that a fusion context has no note of: a gap that was open when the context entered service answers
too (R76). [DEDUCED, log 36] -/
def Dev.openGaps (s : Dev) (u : Fusion) (members : List Nat) : List Delivery :=
  (members.filter fun c => s.flag .ITK_CTX_STAT_GAPOPEN c &&
    !u.delivered.any fun d => d.ctx == c && d.gap && d.fin.isNone).map fun c =>
      { ctx := c, start := s.rd .ITK_CTX_GAP_START c, fin := none, gap := true }

/-- Take the staged settings of a fusion context, or refuse them with CMTERR (R77). -/
def Dev.fusCommit (s : Dev) (f : Nat) : Dev :=
  if s.fusOk f then
    let u := s.fusion f
    let m := s.fusMembers f
    s.setFusion f { u with
      inService := true, members := m, budget := s.rd .ITK_FUS_BUDGET f, sc := s.rd .ITK_FUS_CTL_SC f
      delivered := u.delivered ++ s.openGaps u m }
  else s.setFlag .ITK_FUS_STAT_CMTERR f true

/-- A fusion context waits for a block start of its reference before it takes what is staged (R64, R79): it is in service, and its
reference is enabled. -/
def Dev.fusWaits (s : Dev) (f : Nat) : Bool :=
  (s.fusion f).inService && (s.fusion f).members.head?.any fun c => s.ctxEnabled c

/-- The settings of a fusion context have been written and have passed their checks: they are staged, or taken at once where no
block start will take them (R64, R79). [DEDUCED, log 36] -/
def Dev.fusStage (s : Dev) (f : Nat) : Dev :=
  if s.fusWaits f then s
  else if s.flag .ITK_FUS_CTL_EN f then s.fusCommit f
  else s.setFusion f {}

/-- How far answers that ascend by their start reach from a position without a hole; none without a bound. -/
def reach : List (Nat × Option Nat) → Nat → Option Nat
  | [], p => some p
  | (a, fin) :: l, p =>
    if after a p then some p
    else match fin with
      | none => none
      | some e => reach l (if after e p then e else p)

/-- A member has answered for every position of an interval (R76). -/
def answered (ds : List Delivery) (a e : Nat) : Bool :=
  let l := sortBy (fun d => sdiff d.1 a) (ds.map fun d => (d.start, d.fin))
  match reach l a with
  | none => true
  | some p => atOrAfter p e

/-- A member had a gap somewhere in an interval. -/
def gapIn (ds : List Delivery) (a e : Nat) : Bool :=
  ds.any fun d => d.gap && after e d.start && (match d.fin with
    | none => true
    | some x => after x a)

/-- The answers of stream context `c`. -/
def Fusion.answers (u : Fusion) (c : Nat) : List Delivery := u.delivered.filter fun d => d.ctx == c

/-- The members of an interval, with their places. -/
def FusInterval.places (v : FusInterval) : List (Nat × Nat) := v.members.zipIdx

/-- Every member but the reference has answered for an interval or is declared absent from it. -/
def Fusion.complete (u : Fusion) (v : FusInterval) : Bool :=
  (v.places.drop 1).all fun m => bit v.absent m.2 || answered (u.answers m.1) v.start v.fin

/-- The absent mask of a complete interval (R76). [DEDUCED, log 36] -/
def Fusion.absentMask (u : Fusion) (v : FusInterval) : Nat :=
  maskOf ((v.places.filter fun m => bit v.absent m.2 || gapIn (u.answers m.1) v.start v.fin).map fun m => m.2)

/-- Complete intervals signal the sync counter and leave their absent mask (R76). [DEDUCED, log 36] -/
def Dev.fusSettle (s : Dev) (f : Nat) : Dev :=
  let u := s.fusion f
  let done := u.intervals.filter fun v => u.complete v
  let s := s.setFusion f { u with intervals := u.intervals.filter fun v => !u.complete v }
  done.foldl (fun d v => (d.wr .ITK_FUS_STAT_ABSENT f (u.absentMask v)).scAdd v.sc 1) s

/-- A fusion context takes note of what a stream context delivers: it or an interval that waits names it as a member. -/
def Fusion.names (u : Fusion) (c : Nat) : Bool :=
  u.inService && (u.members.contains c || u.intervals.any fun v => v.members.contains c)

/-- Tell every fusion context that names context `c` what it has delivered; a closed block of the reference is a new interval
(R76). [DEDUCED, log 36] -/
def Dev.fusNotify (s : Dev) (c start : Nat) (fin : Option Nat) (gap : Bool) : Dev :=
  (upTo 16).foldl (fun d f =>
    let u := d.fusion f
    if !u.names c then d
    else
      let u := { u with delivered := u.delivered ++ [{ ctx := c, start := start, fin := fin, gap := gap }] }
      let u := match fin with
        | some e =>
          if u.members.head? = some c ∧ !gap then
            { u with intervals := u.intervals ++
                [{ start := start, fin := e, members := u.members, budget := u.budget, sc := u.sc }] }
          else u
        | none => u
      (d.setFusion f u).fusSettle f) s

/-- An open gap of a context ends at a position, in every fusion context. -/
def Dev.fusCloseGap (s : Dev) (c fin : Nat) : Dev :=
  (upTo 16).foldl (fun d f =>
    let u := d.fusion f
    d.setFusion f { u with delivered := u.delivered.map fun e =>
      if e.ctx = c ∧ e.gap ∧ e.fin.isNone then { e with fin := some fin } else e }) s

/-! ### Blocks (R66, R73, R95) -/

/-- A trigger stamp aligned by the offset of a configuration (R66). -/
def alignedBy (cfg : Tab Nat) (stamp : Nat) : Nat := moveBy stamp (-(sgn 32 (setting cfg .ITK_CTX_OFS) * 65536))

/-- A trigger stamp aligned by the context's offset (R66). -/
def Dev.aligned (s : Dev) (c stamp : Nat) : Nat := alignedBy (s.ctx c).cfg stamp

/-- The stamp of a line, aligned by the configuration that its block has: the latest committed one where the line opens the block
(R64). -/
def Dev.lineStamp (s : Dev) (c stamp : Nat) : Nat :=
  let x := s.ctx c
  alignedBy (if x.block.isNone then x.committed else x.cfg) stamp

/-- The compare spacing of the context's generator, in Q48.16 ct. -/
def Dev.spacing (s : Dev) (c : Nat) : Nat := s.rd .ENC_CG_SPACE (setting (s.ctx c).cfg .ITK_CTX_CFG1_CG)

/-- The end of the interval of the lines written so far (R66). -/
def Dev.linesEnd (s : Dev) (c : Nat) : Option Nat := (s.ctx c).last.map fun p => wrap 64 (p + s.spacing c)

/-- The committed stage settings come into force (R100). -/
def Dev.takePp (s : Dev) (c : Nat) : Dev :=
  let x := s.ctx c
  match x.nextPp with
  | none => s
  | some pp => (s.setCtx c { x with pp := pp, nextPp := none }).setFlag .ITK_PP_STAT_PEND c false

/-- The committed configuration comes into force: an enable starts the context, a disable stops it (R64). [DEDUCED, log 33] -/
def Dev.takeCfg (s : Dev) (c : Nat) : Dev :=
  let x := s.ctx c
  match x.nextCfg with
  | none => s
  | some cfg =>
    let was := setting x.cfg .ITK_CTX_CFG1_EN == 1
    let now := setting cfg .ITK_CTX_CFG1_EN == 1
    let x := { x with cfg := cfg, nextCfg := none }
    let x := if now && !was then
        { x with stamps := [], last := none, fresh := true, block := none, noHeader := false, partRecv := false,
                 blocks := 0, halo := [], stats := 0 }
      else if was && !now then { x with stamps := [], block := none, partRecv := false }
      else x
    let s := (s.setCtx c x).setFlag .ITK_CTX_STAT_PEND c false
    if now && !was then s.wr .ITK_CTX_STAT_STATE c 1 else if was && !now then s.wr .ITK_CTX_STAT_STATE c 0 else s

/-- What has been committed takes effect. -/
def Dev.takeCommits (s : Dev) (c : Nat) : Dev := (s.takeCfg c).takePp c

/-- Fusion contexts whose reference is `c` take their staged settings at its block start (R64, R79). -/
def Dev.fusRefresh (s : Dev) (c : Nat) : Dev :=
  (upTo 16).foldl (fun d f =>
    let u := d.fusion f
    if u.inService && u.members.head? == some c then
      if d.flag .ITK_FUS_CTL_EN f then d.fusCommit f else d.setFusion f {}
    else d) s

/-- The samples of a line whose contents the spec does not state, as free values. [DESIGN CHOICE, log 38] -/
def freeSamples (free n w : Nat) : List Nat := (upTo n).map fun i => wrap w (Config.freeNat (free + i))

/-- The halo lines that a new block reads (R93): the last lines of its predecessor; where width, format or exposures have
changed in between, the spec does not say what the old samples read as, and they are free values. [DESIGN CHOICE, log 38] -/
def StreamCtx.haloFor (x : StreamCtx) (free : Nat) : List RawLine :=
  let kind := pixelKind (setting x.cfg .ITK_CTX_CFG1_FMT)
  let l := x.halo.drop (x.halo.length - haloAbove kind x.pp)
  if x.fresh then []
  else if x.shape = blockShape x.cfg x.pp then l
  else
    let n := lineSamples x.cfg x.pp
    l.zipIdx.map fun (e : RawLine × Nat) =>
      { e.1 with samples := freeSamples (free + e.2 * n) n (pixelBits (setting x.cfg .ITK_CTX_CFG1_FMT)) }

/-- A block opens at an aligned stamp. Its output buffer is checked once (R95). [DEDUCED, log 35] -/
def Dev.openBlock (s : Dev) (c start : Nat) : Dev :=
  let x := s.ctx c
  let nbuf := max 1 (setting x.pp .ITK_PP_OBUFCFG_NBUF)
  let free := decide (x.blocks < nbuf) || decide (x.blocks + 1 ≤ s.sc (setting x.pp .ITK_PP_SYNC_RELSC) + nbuf)
  let b : Block :=
    { seq := x.seqNext, number := x.blocks, start := start, cfg := x.cfg, pp := x.pp, space := s.spacing c,
      halo := x.haloFor s.free, fresh := x.fresh, noBuf := !free,
      next := List.replicate (stripes x.cfg x.pp) 0 }
  let s := s.setCtx c { x with
    block := some b, blocks := x.blocks + 1, seqNext := wrap 32 (x.seqNext + 1), fresh := false
    shape := blockShape x.cfg x.pp }
  let s := { s with free := s.free + 8 * lineSamples x.cfg x.pp }
  (s.fusRefresh c).wakeFor (setting x.pp .ITK_PP_SYNC_SC)

/-- The context's block closes: it waits for the pipes, BLKSEQ shows it, its lost span marks parts, and fusion contexts learn
of it (R73, R76, R95, R101). -/
def Dev.closeBlock (s : Dev) (c fin : Nat) (broken : Bool) : Dev :=
  let x := s.ctx c
  match x.block with
  | none => s
  | some b =>
    let b := { b with closed := true, broken := broken, fin := fin }
    let tail := b.halo ++ b.lines
    let s := s.setCtx c { x with
      block := none, closing := x.closing ++ [b], fresh := broken
      halo := if broken then [] else tail.drop (tail.length - 8) }
    let s := (s.wr .ITK_PP_BLKSEQ c b.seq).traceNote 18 1 (b.seq + 2 ^ 32 * c)
    let s := if broken then s.setFlag .ITK_CTX_STAT_BROKEN c true else s
    let lanes := setting b.cfg .ITK_CTX_LANES
    let s := match b.lostSpan with
      | none => s
      | some (a, e) =>
        (s.openMark { source := .lost c b.seq, start := a, fin := some e, lanes := lanes, code := 0xE0 }).tally
          0x0033 c 0xFFFFFFFF a e
    (s.fusNotify c b.start fin false).finishBlocks c

/-- A gap opens at a position (R73, R75). -/
def Dev.openGap (s : Dev) (c start : Nat) : Dev :=
  let s := ((s.wr .ITK_CTX_GAP_START c start).wr .ITK_CTX_GAP_END c (2 ^ 64 - 1)).setFlag .ITK_CTX_STAT_GAPOPEN c true
  let s := s.openMark
    { source := .gap c, start := start, fin := none, lanes := setting (s.ctx c).cfg .ITK_CTX_LANES, code := 0xE0 }
  s.fusNotify c start none true

/-- The open gap closes at a position and is recorded (R74, R75). [DEDUCED, log 37] -/
def Dev.closeGap (s : Dev) (c fin : Nat) : Dev :=
  if !s.flag .ITK_CTX_STAT_GAPOPEN c then s
  else
    let s := (s.wr .ITK_CTX_GAP_END c fin).setFlag .ITK_CTX_STAT_GAPOPEN c false
    let s := (s.closeMark (.gap c) fin).fusCloseGap c fin
    let s := (upTo 16).foldl (fun d f => d.fusSettle f) s
    s.tally 0x0032 c 0xFFFFFFFF (s.rd .ITK_CTX_GAP_START c) fin

/-- The block of a running context closes BROKEN; a break between two blocks leaves a block without lines (R73, R96). -/
def Dev.closeBroken (s : Dev) (c start : Nat) : Dev :=
  match (s.ctx c).block with
  | none => (s.openBlock c start).closeBlock c start true
  | some b => if b.lines.isEmpty then s.closeBlock c b.start true else s.closeBlock c ((s.linesEnd c).getD start) true

/-- Where a gap starts if the context owes no line (R73). -/
def Dev.gapFallback (s : Dev) (c : Nat) : Nat := (s.linesEnd c).getD (s.aligned c s.lmPos)

/-- The aligned stamp of the oldest owed line, or where R73 lets the gap start without one. [DEDUCED, log 34] -/
def Dev.owedStart (s : Dev) (c : Nat) : Nat :=
  match (s.ctx c).stamps with
  | p :: _ => s.aligned c p.pos
  | [] => s.gapFallback c

/-- A running context breaks: the block closes BROKEN, a gap opens, the stamp queue is flushed, and the context enters RESYNC,
where it discards all data until the next image header (R73, R74). [DEDUCED, log 34] -/
def Dev.breakBlock (s : Dev) (c start : Nat) : Dev :=
  let s := s.closeBroken c start
  let s := s.setCtx c { s.ctx c with stamps := [], noHeader := true, partRecv := false }
  (s.wr .ITK_CTX_STAT_STATE c 2).openGap c start

/-- `RESYNC`: it breaks a running context; in RESYNC no new gap opens, the queue is flushed and a header is awaited again
(R72, R74). -/
def Dev.resync (s : Dev) (c : Nat) : Dev :=
  if s.rd .ITK_CTX_STAT_STATE c = 1 then s.breakBlock c (s.owedStart c)
  else if s.rd .ITK_CTX_STAT_STATE c = 2 then s.setCtx c { s.ctx c with stamps := [], noHeader := true }
  else s

/-! ### Stamps (R63, R65, R72, R74) -/

/-- A stamp is older than the context's age limit. -/
def Dev.staleStamp (s : Dev) (c : Nat) (p : Stamp) : Bool :=
  decide (p.time + 1000 * setting (s.ctx c).cfg .ITK_CTX_AGE < s.fullNs)

/-- Discard the stale stamps at the head of the queue. [DEDUCED, log 37] -/
def Dev.pruneStamps (s : Dev) (c : Nat) : Dev :=
  s.setCtx c { s.ctx c with stamps := (s.ctx c).stamps.dropWhile fun p => s.staleStamp c p }

/-- The stamp of a hit joins a context's queue, with the device time of the hit (R63). -/
def Dev.pushStamp (s : Dev) (c pos time : Nat) : Dev :=
  let p : Stamp := { pos := pos, time := time }
  if s.rd .ITK_CTX_STAT_STATE c = 2 then
    let s := s.pruneStamps c
    let q := (s.ctx c).stamps
    s.setCtx c { s.ctx c with stamps := (if 256 ≤ q.length then q.drop 1 else q) ++ [p] }
  else if 256 ≤ (s.ctx c).stamps.length then s.breakBlock c (s.owedStart c)
  else s.setCtx c { s.ctx c with stamps := (s.ctx c).stamps ++ [p] }

/-- The contexts in service that name a generator (R63). -/
def Dev.ctxsOf (s : Dev) (g : Nat) : List Nat :=
  (upTo 64).filter fun c => s.ctxEnabled c && setting (s.ctx c).cfg .ITK_CTX_CFG1_CG == g

/-- The context owes data: a stamp without its line, or a packet partly received (R72). -/
def Dev.owes (s : Dev) (c : Nat) : Bool := !(s.ctx c).stamps.isEmpty || (s.ctx c).partRecv

/-! ### Lines (R65 to R67, R95, R97, R98) -/

/-- The first line that a slot on a pipe or still to come processes. -/
def Block.firstHeld (b : Block) : Nat := (b.next ++ b.running.map fun r => r.2).foldl min b.lines.length

/-- Ring lines of a block that are not free: not lost, and still to be read by some slot as a line or as a halo line (R80). -/
def Block.ringLines (b : Block) : Nat := ((b.lines.drop (b.firstHeld - b.above)).filter fun l => !l.lost).length

/-- Ring lines of a context that are not free: those of its blocks, and the halo lines that its oldest block still reads or its next
block will. -/
def StreamCtx.ringUsed (x : StreamCtx) : Nat :=
  let bs := x.work
  let old := match bs with
    | b :: _ => if b.firstHeld = 0 then b.halo else []
    | [] => x.halo.drop (x.halo.length - haloAbove (pixelKind (setting x.cfg .ITK_CTX_CFG1_FMT)) x.pp)
  (bs.map Block.ringLines).foldl (· + ·) 0 + (old.filter fun l => !l.lost).length

/-- An armed bank switch takes place at the first line whose generation is at or after GEN (R98). -/
def Dev.bankFor (s : Dev) (c gen : Nat) : Dev :=
  if s.flag .ITK_PP_GENSW_ARM c ∧ 0 ≤ sgn 16 (gen + 65536 - s.rd .ITK_PP_GENSW_GEN c) then
    (s.wr .ITK_PP_GEN_ACTIVE c (s.rd .ITK_PP_GENSW_BANK c)).setFlag .ITK_PP_GENSW_ARM c false
  else s

/-- The samples of a line as the ring line holds them: a line that brings fewer than the settings say leaves the others as free
values, one that brings more loses the excess. [DESIGN CHOICE, log 38] -/
def fitLine (cfg pp : Tab Nat) (free : Nat) (l : List Nat) : List Nat :=
  let n := lineSamples cfg pp
  let w := pixelBits (setting cfg .ITK_CTX_CFG1_FMT)
  (l.take n).map (wrap w) ++ freeSamples free (n - l.length) w

/-- The pipes to which a context is assigned start when it receives a line (R46). [DESIGN CHOICE, log 129] -/
def Dev.startPipes (s : Dev) (c : Nat) : Dev := { s with pipesOn := s.pipesOn ||| setting (s.ctx c).pp .ITK_PP_CTL_PIPES }

/-- Write a line to the raw ring of the open block, lost where it finds no free line or no buffer; the last line of the block
closes it (R66, R95). The samples are held as data: the spec names no address of the ring. [DESIGN CHOICE, log 131] -/
def Dev.writeLine (s : Dev) (c al : Nat) (odd : Bool) (samples : List Nat) : Dev :=
  let gen := (s.ctx c).gen
  let s := ((s.bankFor c gen).wr .ITK_PP_GEN_LAST c gen).startPipes c
  let x := s.ctx c
  match x.block with
  | none => s
  | some b =>
    let lost := b.noBuf || decide (setting b.pp .ITK_PP_RING ≤ x.ringUsed)
    let s := if lost then s.setFlag .ITK_PP_STAT_OVERRUN c true else s
    let l : RawLine :=
      { stamp := al, gen := gen, odd := odd, bank := s.rd .ITK_PP_GEN_ACTIVE c, lost := lost, staged := s.lineSeq,
        samples := if lost then [] else fitLine b.cfg b.pp s.free samples }
    let s := { s with free := s.free + lineSamples b.cfg b.pp, lineSeq := s.lineSeq + 1 }
    let b := { b with lines := b.lines ++ [l] }
    let s := s.setCtx c { x with block := some b, last := some al }
    if b.lines.length < setting b.cfg .ITK_CTX_CFG0_BLKLEN then s
    else s.closeBlock c (wrap 64 (al + b.space)) false

/-- A line with its stamp: it is discarded and counted unless its aligned stamp lies after the last one written (R67), and then
no block starts and no commit takes effect (R64); the first line after a header in RESYNC ends the gap and opens a fresh block
(R74). [DEDUCED, log 37] -/
def Dev.placeLine (s : Dev) (c stamp : Nat) (odd : Bool) (samples : List Nat) : Dev :=
  let al := s.lineStamp c stamp
  if (s.ctx c).last.any fun p => !after al p then s.observe c
  else
    let s := if (s.ctx c).block.isNone then s.takeCommits c else s
    if !s.ctxEnabled c then s
    else
      let s := s.closeGap c al
      let s := s.wr .ITK_CTX_STAT_STATE c 1
      let s := if (s.ctx c).block.isNone then s.openBlock c al else s
      s.writeLine c al odd samples

/-- The oldest stamp that is not stale leaves the queue: what was stale first, what is taken (R65). -/
def Dev.takeStamp (s : Dev) (c : Nat) : Option Nat × Option Nat :=
  let q := (s.ctx c).stamps
  let stale := match q with
    | p :: _ => if s.staleStamp c p then some p.pos else none
    | [] => none
  (stale, (q.dropWhile fun p => s.staleStamp c p).head?.map fun p => p.pos)

/-- A line arrives whole and undamaged (R63, R65, R74). It counts for the parity of lines whether it is kept or not (R87).
[DEDUCED, log 37] -/
def Dev.lineArrives (s : Dev) (c : Nat) (samples : List Nat) : Dev :=
  let (stale, taken) := s.takeStamp c
  let odd := (s.ctx c).odd
  let s := s.pruneStamps c
  let s := s.setCtx c { s.ctx c with stamps := (s.ctx c).stamps.drop 1, partRecv := false, odd := !odd }
  match taken with
  | none =>
    let s := s.observe c
    if s.rd .ITK_CTX_STAT_STATE c = 1 then
      s.breakBlock c (match stale with
        | some p => s.aligned c p
        | none => s.gapFallback c)
    else s
  | some p =>
    if s.rd .ITK_CTX_STAT_STATE c = 1 ∧ stale.isSome then
      let a := s.aligned c (stale.getD 0)
      let s := (s.closeBroken c a).openGap c a
      (s.closeGap c (s.lineStamp c p)).placeLine c p odd samples
    else s.placeLine c p odd samples

/-- The enabled context of a master link and stream ID (R62). -/
def Dev.routeStream (s : Dev) (m stream : Nat) : Option Nat :=
  (upTo 64).find? fun c => s.ctxEnabled c && setting (s.ctx c).cfg .ITK_CTX_CFG1_LINK == m &&
    setting (s.ctx c).cfg .ITK_CTX_CFG1_STREAM == stream

/-- What a packet does in its context. -/
def Dev.packetIn (s : Dev) (c : Nat) (crcOk : Bool) (content : StreamContent) : Dev :=
  let running := s.rd .ITK_CTX_STAT_STATE c == 1
  match content with
  | .header g => if crcOk then s.setCtx c { s.ctx c with gen := wrap 16 g, noHeader := false, odd := false } else s
  | .piece =>
    if !crcOk then (if running then s.breakBlock c (s.owedStart c) else s)
    else if running then s.setCtx c { s.ctx c with partRecv := true }
    else s
  | .line samples =>
    if !crcOk then (if running then s.breakBlock c (s.owedStart c) else s)
    else if !running && (s.ctx c).noHeader then s
    else s.lineArrives c samples

/-! ### The commands -/

/-- STREAM_PACKET (R62): routed to its context, or discarded, counted and flagged. Nothing is received on a link that is off
or out of service (R55); a receive direction that sleeps wakes (R46). -/
def Dev.streamPacket (s : Dev) (link stream : Nat) (crcOk : Bool) (content : StreamContent) : Dev :=
  if !s.live || !s.flag .CXP_LNK_CTL_EN link || (s.link link).out then s
  else
    let s := s.setLink link { s.link link with asleep := false }
    let s := if crcOk then s else s.setFlag .CXP_LNK_STAT_CRCERR link true
    match s.routeStream (s.rd .CXP_LNK_CTL_MASTER link) stream with
    | none => (s.setFlag .CXP_LNK_STAT_UNMAPPED link true).observe (88 + link)
    | some c => s.packetIn c crcOk content

def execStreamPacket (link : Fin 24) (stream : Nat) (crcOk : Bool) (content : StreamContent) (s : State) :
    Host.Outcome State Fault Refusal :=
  s.run (.streamPacket link stream crcOk content) fun d => d.streamPacket link stream crcOk content

/-- STOP_TIMEOUT (R72): a running context that owes data breaks. -/
def Dev.stopTimeout (s : Dev) (c : Nat) : Dev :=
  if s.rd .ITK_CTX_STAT_STATE c = 1 ∧ s.owes c then s.breakBlock c (s.owedStart c) else s

def execStopTimeout (ctx : Fin 64) (s : State) : Host.Outcome State Fault Refusal :=
  s.run (.stopTimeout ctx) fun d => d.stopTimeout ctx

/-- HALO and NEED report the latest committed settings (R92, R93). [DEDUCED, log 32] -/
def Dev.reportNeed (s : Dev) (c : Nat) : Dev :=
  let x := s.ctx c
  let cfg := x.committed
  let pp := x.nextPp.getD x.pp
  let k := pixelKind (setting cfg .ITK_CTX_CFG1_FMT)
  ((s.wr .ITK_PP_HALO_VABOVE c (haloAbove k pp)).wr .ITK_PP_HALO_VBELOW c (haloBelow k pp)).wr .ITK_PP_NEED c
    (bufferNeed cfg pp)

/-- CTX_COMMIT (R64): checks the staged fields; an accepted commit of a disabled context takes effect at once.
[DEDUCED, log 32] -/
def Dev.ctxCommit (s : Dev) (c : Nat) : Dev :=
  let t := s.staged ctxFields c
  let e := s.ctxCheck c t
  if e ≠ 0 then (s.setFlag .ITK_CTX_STAT_CMTERR c true).wr .ITK_CTX_STAT_ERRCODE c e
  else
    let s := ((s.setCtx c { s.ctx c with nextCfg := some t }).setFlag .ITK_CTX_STAT_PEND c true).reportNeed c
    if s.ctxEnabled c then s else s.takeCfg c

def execCtxCommit (ctx : Fin 64) (s : State) : Host.Outcome State Fault Refusal :=
  s.run (.ctxCommit ctx) fun d => d.ctxCommit ctx

def execCtxResync (ctx : Fin 64) (s : State) : Host.Outcome State Fault Refusal :=
  s.run (.ctxResync ctx) fun d => d.resync ctx

/-- PP_COMMIT (R100): checks the staged pipeline fields against the context's latest committed configuration.
[DEDUCED, log 32] -/
def Dev.ppCommit (s : Dev) (c : Nat) : Dev :=
  let pp := s.staged ppFields c
  let cfg := (s.ctx c).committed
  let e := s.ppCheck cfg pp
  if e ≠ 0 then (s.setFlag .ITK_PP_STAT_CMTERR c true).wr .ITK_PP_STAT_ERR c e
  else
    let s := ((s.setCtx c { s.ctx c with nextPp := some pp }).setFlag .ITK_PP_STAT_PEND c true).reportNeed c
    if s.ctxEnabled c then s else s.takePp c

def execPpCommit (ctx : Fin 64) (s : State) : Host.Outcome State Fault Refusal :=
  s.run (.ppCommit ctx) fun d => d.ppCommit ctx

/-- BANK_SWITCH_ARM (R98): arms a switch in place of any pending one. -/
def Dev.armBank (s : Dev) (c gen : Nat) (bank : Bool) : Dev :=
  ((s.wr .ITK_PP_GENSW_GEN c gen).setFlag .ITK_PP_GENSW_BANK c bank).setFlag .ITK_PP_GENSW_ARM c true

def execBankSwitchArm (ctx : Fin 64) (gen : Nat) (bank : Bool) (s : State) : Host.Outcome State Fault Refusal :=
  s.run (.bankSwitchArm ctx gen bank) fun d => d.armBank ctx gen bank

/-- The position at which member `c` of an interval is declared absent from it (R77). -/
def Dev.absentFrom (s : Dev) (c : Nat) (v : FusInterval) : Nat :=
  moveBy (wrap 64 (v.fin + cts v.budget)) (sgn 32 (setting (s.ctx c).cfg .ITK_CTX_OFS) * 65536)

/-- Member `k` of an interval is to be declared absent from it: it is not the reference, it has not answered, and the wait has run
out (R77). -/
def Dev.absenceDue (s : Dev) (u : Fusion) (k : Nat) (v : FusInterval) : Bool :=
  k != 0 && v.members[k]?.any fun c =>
    !bit v.absent k && !answered (u.answers c) v.start v.fin && atOrAfter s.lmPos (s.absentFrom c v)

/-- FUSION_ABSENCE (R77): a member that has not answered for an interval whose wait has run out is declared absent from it, and
parts on the reference's lanes that meet the interval receive UNKNOWN_INPUT. [DEDUCED, log 36] -/
def Dev.fusionAbsence (s : Dev) (f k : Nat) : Dev :=
  let u := s.fusion f
  let late := u.intervals.filter fun v => s.absenceDue u k v
  let t := s.setFusion f { u with
    intervals := u.intervals.map fun (v : FusInterval) =>
      if s.absenceDue u k v then { v with absent := v.absent ||| oneBit k } else v }
  let t := late.foldl (fun (d : Dev) (v : FusInterval) =>
    d.openMark { source := .absence f, start := v.start, fin := some v.fin,
                 lanes := setting (s.ctx (v.members.headD 0)).cfg .ITK_CTX_LANES, code := 0xE0 }) t
  t.fusSettle f

def execFusionAbsence (fus : Fin 16) (k : Fin 8) (s : State) : Host.Outcome State Fault Refusal :=
  s.run (.fusionAbsence fus k) fun d => d.fusionAbsence fus k

end Sys2Proof.Machine
end

