-- ==== Sys2Proof/Machine/Encoders.lean ====
section
/-! DEFINITION. Encoder channels, the line master's direction, compare generators, trigger outputs and uplink triggers (R13 to
R20, R47, R63, R68 to R71, R226 to R246). The commands follow the operations of each unit. -/

namespace Sys2Proof.Machine

open Sys2Proof

/-! ### Motion and direction (R18, R226, R238) -/

/-- The channel counts: enabled, its front end powered (R226, R232). -/
def Dev.chOn (s : Dev) (ch : Nat) : Bool := s.counting && s.flag .ENC_CFG_EN ch

/-- The direction hysteresis, in Q48.16 ct (OD 0x4000:02). -/
def Dev.hysteresis (s : Dev) : Nat := cts (s.odNum 0x4000 2 4)

/-- The line-master position that a channel position stands for. -/
def Dev.asMaster (s : Dev) (p : Nat) : Nat := wrap 64 (p + s.lmOffset)

/-- The line master's direction flag changes: `ENC_MSTAT`, the direction interrupt, the Tally and, on a reversal, the peak (R18, R41).
-/
def Dev.masterTurn (s : Dev) (ch : Nat) (rev : Bool) (peak : Nat) : Dev :=
  let s := (s.setFlag .ENC_MSTAT_DIR 0 rev).setFlag .ENC_MSTAT_DIRCHG 0 true
  let s := if rev then { s with peak := peak } else s
  s.tally 0x0020 ch 0xFFFFFFFF s.lmPos rev.toNat

/-- A channel's direction flag changes; the line master's is that of the machine (R238). -/
def Dev.turn (s : Dev) (ch : Nat) (rev : Bool) (ext : Nat) : Dev :=
  let s := (s.setFlag .ENC_STAT_DIR ch rev).setFlag .ENC_STAT_DIRCHG ch true
  if s.master ≠ ch ∨ s.worker then s else s.masterTurn ch rev (s.asMaster ext)

/-- The direction flag of a channel after its position or the hysteresis has changed: it changes once the position lies at least the hysteresis
back from the extreme reached in the present direction (R18). -/
def Dev.direction (s : Dev) (ch : Nat) : Dev :=
  let p := s.rd .ENC_POS ch
  let e := s.enc ch
  let h : Int := (s.hysteresis : Nat)
  if s.flag .ENC_STAT_DIR ch then
    if after e.ext p then s.setEnc ch { e with ext := p }
    else if h ≤ sdiff p e.ext then (s.setEnc ch { e with ext := p }).turn ch false e.ext
    else s
  else
    if after p e.ext then s.setEnc ch { e with ext := p }
    else if h ≤ sdiff e.ext p then (s.setEnc ch { e with ext := p }).turn ch true e.ext
    else s

/-- The channel moves by a number of counts, in the sense of `INV` (R226). -/
def Dev.moveEnc (s : Dev) (ch : Nat) (n : Int) : Dev :=
  let n := if s.flag .ENC_CFG_INV ch then -n else n
  (s.wr .ENC_POS ch (moveBy (s.rd .ENC_POS ch) (n * 65536))).direction ch

/-- A fault is detected: the first cause is kept until ENCODER_FAULT applies it; `stays` says that the cause persists until a
good transition, sample or cycle shows otherwise (R233, R235). -/
def Dev.detect (s : Dev) (ch cause : Nat) (stays : Bool) : Dev :=
  let e := s.enc ch
  s.setEnc ch { e with detected := if e.detected = 0 then cause else e.detected, present := e.present || stays }

/-! ### The channel types (R227 to R231) -/

/-- Counts per quarter period of a sin/cos channel. -/
def Dev.quarter (s : Dev) (ch : Nat) : Nat := 2 ^ (s.rd .ENC_CFG_INTERP ch - 2)

/-- ENCODER_EDGE (R227, R229): a valid transition moves an incremental channel by one count and a sin/cos channel by a quarter
period; an illegal one is a fault of an incremental channel and moves nothing. -/
def Dev.encoderEdge (s : Dev) (ch : Nat) (kind : EdgeKind) : Dev :=
  let type := s.rd .ENC_CFG_TYPE ch
  if !s.chOn ch || 2 ≤ type then s
  else
    match kind with
    | .illegal => if type = 0 then (s.count .ENC_ERRCNT_COUNT ch).detect ch 2 false else s
    | .up | .down =>
      let up := kind == .up
      if type = 0 then (s.setEnc ch { s.enc ch with present := false }).moveEnc ch (if up then 1 else -1)
      else
        let e := s.enc ch
        let s := s.setEnc ch { e with phase := e.phase.map fun f => if up then (f + 1024) % 4096 else (f + 3072) % 4096 }
        s.moveEnc ch (if up then (s.quarter ch : Nat) else -(s.quarter ch : Nat))

def execEncoderEdge (ch : Fin 4) (kind : EdgeKind) (s : State) : Host.Outcome State Fault Refusal :=
  s.run (.encoderEdge ch kind) fun d => d.encoderEdge ch kind

/-- Z_EDGE (R228). -/
def Dev.zEdge (s : Dev) (ch : Nat) : Dev :=
  if !s.chOn ch || !s.flag .ENC_CFG_ZEN ch || s.rd .ENC_CFG_TYPE ch == 2 then s
  else
    let p := s.rd .ENC_POS ch
    let prev := (s.enc ch).zPrev
    let per := s.rd .ENC_ZPER ch
    let s := (s.wr .ENC_ZPOS ch p).setFlag .ENC_STAT_ZSEEN ch true
    let s := s.setEnc ch { s.enc ch with zPrev := some p }
    match prev with
    | some q => if per ≠ 0 ∧ (sdiff p q).natAbs ≠ cts per then s.detect ch 4 false else s
    | none => s

def execZEdge (ch : Fin 4) (s : State) : Host.Outcome State Fault Refusal :=
  s.run (.zEdge ch) fun d => d.zEdge ch

/-- The fine count of a phase in 1/4,096 of a period (R229). -/
def Dev.fineCount (s : Dev) (ch phase : Nat) : Nat := phase * 2 ^ s.rd .ENC_CFG_INTERP ch / 4096

/-- The position follows a good converter sample: the first one gives the held value, counted in the sense of `INV`, its fine part;
later ones add the fine difference, taken the short way round (R226, R229). -/
def Dev.finePhase (s : Dev) (ch phase : Nat) : Dev :=
  let e := s.enc ch
  let s := s.setEnc ch { e with phase := some phase }
  match e.phase with
  | none =>
    let q := cts (s.quarter ch)
    let neg := fun (p : Nat) => if s.flag .ENC_CFG_INV ch then wrap 64 (2 ^ 64 - p) else p
    let p := neg (s.rd .ENC_POS ch)
    (s.wr .ENC_POS ch (neg (wrap 64 (p - p % q + cts (s.fineCount ch (phase % 1024)))))).direction ch
  | some f =>
    s.moveEnc ch (sgn (s.rd .ENC_CFG_INTERP ch)
      (s.fineCount ch phase + 2 ^ s.rd .ENC_CFG_INTERP ch - s.fineCount ch f))

/-- Two consecutive converter samples, 40 ns apart, lie at most the fiftieth part of a period apart, which 500 kHz makes (R229).
[DEDUCED, log 128] -/
def slowEnough (before : Option Nat) (phase : Nat) : Bool :=
  match before with
  | some f => decide ((sgn 12 (phase + 4096 - f)).natAbs * 50 ≤ 4096)
  | none => false

/-- What a converter sample says of the channel's faults: samples out of the window in a row; an amplitude cause ends with a sample in
it, a lost signal with one in it that has both parts, overspeed with two samples near each other. [DEDUCED, log 128] -/
def Encoder.sample (e : Encoder) (out : Bool) (sine cosine : Int) (phase : Nat) : Encoder :=
  { e with
    sampled := some phase
    outRun := if out then e.outRun + 1 else 0
    present := e.present && out
    lost := e.lost && (out || sine == 0 || cosine == 0)
    fast := e.fast && !slowEnough e.sampled phase }

/-- SINCOS_SAMPLE (R229): amplitude in mV and its window; a sample out of the window moves nothing, nor does any while the channel
counts coarsely and its cause persists; the first good sample after it brings full interpolation back. [DEDUCED, log 128] -/
def Dev.sincosSample (s : Dev) (ch : Nat) (sine cosine : Int) (phase : Nat) : Dev :=
  if !s.chOn ch || s.rd .ENC_CFG_TYPE ch != 1 then s
  else
    let amp := isqrt (sine * sine + cosine * cosine).toNat
    let s := (s.wr .ENC_AMP ch amp).wr .ENC_AMP_AMINSEEN ch (min amp (s.rd .ENC_AMP_AMINSEEN ch))
    let out := decide (amp < s.rd .ENC_WIN_AMIN ch ∨ s.rd .ENC_WIN_AMAX ch < amp)
    let e := (s.enc ch).sample out sine cosine phase
    let s := s.setEnc ch e
    if out then (if s.rd .ENC_CFG_FLTN ch ≤ e.outRun then s.detect ch 1 true else s)
    else if s.flag .ENC_STAT_COARSE ch && (e.lost || e.fast) then s
    else (s.setFlag .ENC_STAT_COARSE ch false).finePhase ch phase

def execSincosSample (ch : Fin 4) (sine cosine : Int) (phase : Nat) (s : State) : Host.Outcome State Fault Refusal :=
  s.run (.sincosSample ch sine cosine phase) fun d => d.sincosSample ch sine cosine phase

/-- BISS_CYCLE_START (R230). -/
def Dev.bissCycleStart (s : Dev) (ch : Nat) : Dev :=
  if !s.chOn ch || s.rd .ENC_CFG_TYPE ch != 2 || (s.enc ch).bissOpen then s
  else s.setEnc ch { s.enc ch with bissOpen := true }

def execBissCycleStart (ch : Fin 4) (s : State) : Host.Outcome State Fault Refusal :=
  s.run (.bissCycleStart ch) fun d => d.bissCycleStart ch

/-- The CRC-6 that a BiSS-C cycle should carry (R230). -/
def bissCrc (len raw : Nat) (nE nW : Bool) : Nat := crc6 (bitsMsb len raw ++ [nE, nW])

/-- A good cycle: the raw value is shown, and the signed difference modulo 2^`LEN` is added, unless it is above the limit,
which is `MAXSTEP`, or half the range for the first cycle after a wake (R231, R232). [DEDUCED, log 18] -/
def Dev.bissGood (s : Dev) (ch raw : Nat) : Dev :=
  let e := s.enc ch
  let len := s.rd .ENC_BISS_LEN ch
  let s := (s.wr .ENC_BISS_RAW ch raw).setEnc ch { e with biss := some raw, woken := false }
  match e.biss with
  | none => s
  | some q =>
    let d := sgn len (unsgn len ((raw : Int) - (q : Int)))
    let bad := if e.woken then decide (2 ^ (len - 1) ≤ d.natAbs) else decide (s.rd .ENC_MAXSTEP ch < d.natAbs)
    if bad then s.detect ch 7 false else s.moveEnc ch d

/-- BISS_CYCLE_COMPLETE (R230, R231). -/
def Dev.bissCycleComplete (s : Dev) (ch raw : Nat) (nE nW : Bool) (crc : Nat) : Dev :=
  if !s.chOn ch || s.rd .ENC_CFG_TYPE ch != 2 || !(s.enc ch).bissOpen then s
  else
    let len := s.rd .ENC_BISS_LEN ch
    let raw := wrap len raw
    let s := s.setEnc ch { s.enc ch with bissOpen := false }
    if crc ≠ bissCrc len raw nE nW then
      let n := (s.enc ch).crcRun + 1
      let s := (s.count .ENC_ERRCNT_COUNT ch).setEnc ch { s.enc ch with crcRun := n }
      if 3 ≤ n then s.detect ch 5 true else s
    else
      let s := s.setEnc ch { s.enc ch with crcRun := 0, present := !nE }
      let s := s.setFlag .ENC_STAT_WARN ch !nW
      if !nE then s.detect ch 6 true else s.bissGood ch raw

def execBissCycleComplete (ch : Fin 4) (raw : Nat) (nE nW : Bool) (crc : Nat) (s : State) :
    Host.Outcome State Fault Refusal :=
  s.run (.bissCycleComplete ch raw nE nW crc) fun d => d.bissCycleComplete ch raw nE nW crc

/-- BISS_START_BIT_TIMEOUT (R231). -/
def Dev.bissStartBitTimeout (s : Dev) (ch : Nat) : Dev :=
  if !s.chOn ch || s.rd .ENC_CFG_TYPE ch != 2 || !(s.enc ch).bissOpen then s
  else (s.setEnc ch { s.enc ch with bissOpen := false }).detect ch 7 true

def execBissStartBitTimeout (ch : Fin 4) (s : State) : Host.Outcome State Fault Refusal :=
  s.run (.bissStartBitTimeout ch) fun d => d.bissStartBitTimeout ch

/-- ENCODER_SIGNAL_LOSS (R227, R229): signal loss on any type, overspeed on a sin/cos channel. -/
def Dev.encoderSignalLoss (s : Dev) (ch : Nat) (kind : LossKind) : Dev :=
  if !s.chOn ch || (kind == .overspeed && s.rd .ENC_CFG_TYPE ch != 1) then s
  else if s.rd .ENC_CFG_TYPE ch = 1 then
    let e := s.enc ch
    (s.setEnc ch { e with lost := e.lost || kind != .overspeed, fast := e.fast || kind == .overspeed }).detect ch 3 false
  else s.detect ch 3 true

def execEncoderSignalLoss (ch : Fin 4) (kind : LossKind) (s : State) : Host.Outcome State Fault Refusal :=
  s.run (.encoderSignalLoss ch kind) fun d => d.encoderSignalLoss ch kind

/-! ### Compare generators (R239 to R243) -/

/-- The channel that a generator follows; none on a worker whose generator follows the line master. -/
def Dev.srcChannel (s : Dev) (g : Nat) : Option Nat :=
  if s.rd .ENC_CG_CTL_SRC g = 4 then (if s.worker then none else some s.master) else some (s.rd .ENC_CG_CTL_SRC g)

/-- The first value of the grid from `c` on that lies after a position (R235, R240). [DEDUCED, log 11] -/
def gridAfter (c space pos : Nat) : Nat :=
  if after c pos then c else wrap 64 (c + ((-sdiff c pos).toNat / max 1 space + 1) * space)

/-- The grid values from `c` on that do not lie after a position. -/
def gridPassed (c space pos : Nat) : Nat := if after c pos then 0 else (-sdiff c pos).toNat / max 1 space + 1

/-- The grid values below `c`, down to the first of the grid, that a position has fallen behind (R242). -/
def gridFallen (start c space pos : Nat) : Nat :=
  if after c pos then min ((sdiff c pos - 1).toNat / max 1 space) ((sdiff c start).toNat / max 1 space) else 0

/-- CG_ARM (R240): loads the next compare value; a generator that is to issue no hit is done at once. -/
def Dev.cgArm (s : Dev) (g : Nat) : Dev :=
  let c := gridAfter (s.rd .ENC_CG_START g) (s.rd .ENC_CG_SPACE g) (s.srcPos g)
  let none_ := !s.flag .ENC_CG_CTL_CONTINUOUS g && s.rd .ENC_CG_COUNT g == 0
  let s := (s.setFlag .ENC_CG_CTL_ARM g true).wr .ENC_CG_NEXT g c
  let s := (s.setFlag .ENC_CG_STAT_DONE g none_).setFlag .ENC_CG_STAT_RUN g !none_
  (s.setFlag .ENC_CG_STAT_FSTOP g false).setGen g { s.gen g with hits := 0 }

def execCgArm (g : Fin 8) (s : State) : Host.Outcome State Fault Refusal := s.run (.cgArm g) fun d => d.cgArm g

/-- CG_DISARM (R243): the generator stops; queued hits are still issued. -/
def Dev.cgDisarm (s : Dev) (g : Nat) : Dev :=
  ((s.setFlag .ENC_CG_CTL_ARM g false).setFlag .ENC_CG_STAT_RUN g false).setFlag .ENC_CG_STAT_FSTOP g false

def execCgDisarm (g : Fin 8) (s : State) : Host.Outcome State Fault Refusal :=
  s.run (.cgDisarm g) fun d => d.cgDisarm g

/-! ### What a hit starts (R63, R69, R245) -/

/-- A hit starts the delay of every trigger output that follows the generator (R245). One that is still active is driven inactive,
and its new pulse starts a cycle later (R246). -/
def Dev.startTriggers (s : Dev) (g at_ : Nat) : Dev :=
  (upTo 8).foldl (fun d t =>
    if d.flag .ENC_TRG_CFG_EN t && d.rd .ENC_TRG_CFG_CG t == g then
      let q := d.trg t
      d.setTrg t { active := false, due := q.due ++ [at_ + d.rd .ENC_TRG_DLY_DELAY t + q.active.toNat] }
    else d) s

/-- The generator of a link's group: the one that the enabled contexts on it name (R64, R69). -/
def Dev.groupGen (s : Dev) (m : Nat) : Option Nat :=
  ((upTo 64).find? fun c => s.ctxEnabled c && setting (s.ctx c).cfg .ITK_CTX_CFG1_LINK == m).map fun c =>
    setting (s.ctx c).cfg .ITK_CTX_CFG1_CG

/-- The link sends trigger packets: the master of its group, enabled, in service, `UPTRIG` set (R69). [DEDUCED, log 16] -/
def Dev.sendsTriggers (s : Dev) (m : Nat) : Bool :=
  s.flag .CXP_LNK_CTL_EN m && s.flag .CXP_LNK_CTL_UPTRIG m && s.rd .CXP_LNK_CTL_MASTER m == m && !(s.link m).out

/-- A hit asks the uplinks of its groups for a packet, unless the packet for this compare value has left early (R69). -/
def Dev.askUplinks (s : Dev) (g stamp at_ : Nat) : Dev :=
  (upTo 24).foldl (fun d m =>
    if d.sendsTriggers m && d.groupGen m == some g then
      let k := d.link m
      if k.early.contains stamp then d.setLink m { k with early := k.early.erase stamp }
      else d.setLink m { k with triggers := k.triggers ++ [(stamp, at_)] }
    else d) s

/-- The receive directions of the groups that a generator serves wake on its hit (R46). [DESIGN CHOICE, log 129] -/
def Dev.wakeLinks (s : Dev) (g : Nat) : Dev :=
  (upTo 24).foldl (fun (d : Dev) n =>
    if (d.link n).asleep && d.groupGen (d.rd .CXP_LNK_CTL_MASTER n) == some g then d.setLink n { d.link n with asleep := false }
    else d) s

/-- A hit is issued (R241): counted, and sent to the trigger outputs, the stamp queues, under its own device time (R63), and the
uplinks; sleeping receive directions wake (R46). [DEDUCED, log 15] -/
def Dev.issueHit (s : Dev) (g stamp at_ : Nat) : Dev :=
  let s := ((s.countMod .ENC_CG_ISSUED g).startTriggers g at_).wakeLinks g
  let s := (s.ctxsOf g).foldl (fun (d : Dev) c => d.pushStamp c stamp (s.fullNsAt at_)) s
  s.askUplinks g stamp at_

/-- A hit that falls due: issued at once, queued behind an earlier one, or dropped where the queue of 16 is full (R241).
[DEDUCED, log 15] -/
def Dev.offerHit (s : Dev) (g stamp : Nat) : Dev :=
  let q := s.gen g
  if q.queue.isEmpty && decide (q.free ≤ s.xclk) then
    (s.setGen g { q with free := s.xclk + 2 }).issueHit g stamp s.xclk
  else if 16 ≤ q.queue.length then
    ((s.setFlag .ENC_CG_STAT_OVF g true).observe (149 + g)).tally 0x0022 g 0xFFFFFFFF stamp
  else s.setGen g { q with queue := q.queue ++ [stamp] }

/-- A crossing of the grid takes place: the next value moves, and `COUNT` hits end the run (R241, R242). [DEDUCED, log 15] -/
def Dev.crossing (s : Dev) (g next : Nat) : Dev :=
  let n := (s.gen g).hits + 1
  let s := (s.wr .ENC_CG_NEXT g next).setGen g { s.gen g with hits := n }
  if !s.flag .ENC_CG_CTL_CONTINUOUS g && decide (s.rd .ENC_CG_COUNT g ≤ n) then
    (s.setFlag .ENC_CG_STAT_DONE g true).setFlag .ENC_CG_STAT_RUN g false
  else s

/-- The crossing that has fallen due on a generator: its stamp and the next compare value. The source has reached that value, or, with
`REV`, has fallen behind the grid point below it (R241, R242). [DEDUCED, log 15] -/
def Dev.crossingDue (s : Dev) (g : Nat) : Option (Nat × Nat) :=
  let c := s.rd .ENC_CG_NEXT g
  let space := s.rd .ENC_CG_SPACE g
  let below := wrap 64 (c + 2 ^ 64 - space)
  let p := s.srcPos g
  if atOrAfter p c then some (c, wrap 64 (c + space))
  else if s.flag .ENC_CG_CTL_REV g && after below p && c != s.rd .ENC_CG_START g then some (below, below)
  else none

/-- The crossings that lie between the next compare value of a generator and its source. [DEDUCED, log 15] -/
def Dev.crossingsLeft (s : Dev) (g : Nat) : Nat :=
  let c := s.rd .ENC_CG_NEXT g
  let p := s.srcPos g
  gridPassed c (s.rd .ENC_CG_SPACE g) p +
    if s.flag .ENC_CG_CTL_REV g then gridFallen (s.rd .ENC_CG_START g) c (s.rd .ENC_CG_SPACE g) p else 0

/-- COMPARE_HIT (R241, R242): a crossing is issued. A generator stopped by a fault skips it and counts it (R234). -/
def Dev.compareHit (s : Dev) (g : Nat) : Dev :=
  if !s.live || !s.xclkOn then s
  else match s.crossingDue g with
    | none => s
    | some (stamp, next) =>
      if s.flag .ENC_CG_STAT_FSTOP g then (s.wr .ENC_CG_NEXT g next).count .ENC_CG_SKIP g
      else if s.flag .ENC_CG_STAT_RUN g then (s.crossing g next).offerHit g stamp
      else s

def execCompareHit (g : Fin 8) (s : State) : Host.Outcome State Fault Refusal :=
  s.run (.compareHit g) fun d => d.compareHit g

/-- Issue the queued hits of a generator whose turn has come, 2 XCLK cycles apart, on at most `n` of them. [DEDUCED, log 15] -/
def Dev.drainHits (s : Dev) (g : Nat) : Nat → Dev
  | 0 => s
  | n + 1 =>
    let q := s.gen g
    match q.queue with
    | h :: t =>
      if q.free ≤ s.xclk then
        ((s.setGen g { q with queue := t, free := q.free + 2 }).issueHit g h q.free).drainHits g n
      else s
    | [] => s

/-- The hits that a generator passed while XCLK was stopped, in either direction with `REV`: issued in order, 2 XCLK cycles apart, not
through the queue and none of them dropped (R47). The `n` bounds them. [DEDUCED, log 15] -/
def Dev.passedHits (s : Dev) (g at_ : Nat) : Nat → Dev
  | 0 => s
  | n + 1 =>
    if s.flag .ENC_CG_STAT_RUN g && !s.flag .ENC_CG_STAT_FSTOP g then
      match s.crossingDue g with
      | some (stamp, next) =>
        let s := (s.crossing g next).issueHit g stamp at_
        (s.setGen g { s.gen g with free := at_ + 2 }).passedHits g (at_ + 2) n
      | none => s
    else s

/-- Every generator issues the hits that it has passed while XCLK was stopped (R47). [DEDUCED, log 15] -/
def Dev.issuePassed (s : Dev) : Dev := (upTo 8).foldl (fun d g => d.passedHits g d.xclk (d.crossingsLeft g)) s

/-- XCLK_START (R47, R232): XCLK runs; every generator issues the hits that it has passed; a BiSS-C channel that is not the line
master is read again. -/
def Dev.xclkStart (s : Dev) : Dev :=
  if s.xclkOn || !s.live then s
  else
    let s := { s with xclkOn := true }
    let s := (upTo 4).foldl (fun d ch =>
      if d.rd .ENC_CFG_TYPE ch = 2 ∧ d.master ≠ ch then d.setEnc ch { d.enc ch with woken := true } else d) s
    s.issuePassed

/-- A BiSS-C channel has become the line master: XCLK runs (R232). -/
def Dev.clockMaster (s : Dev) : Dev := if s.bissMaster then s.xclkStart else s

def execXclkStart (s : State) : Host.Outcome State Fault Refusal := s.run .xclkStart fun d => d.xclkStart

/-! ### Trigger outputs (R245, R246) -/

/-- The trigger output may be driven: enabled, in Run, Ready or Doze (R245). -/
def Dev.trgOn (s : Dev) (t : Nat) : Bool := s.live && s.flag .ENC_TRG_CFG_EN t

/-- The level of a trigger pin: active low with `POL` (R245). [DEDUCED, log 17] -/
def Dev.trgPin (s : Dev) (t : Nat) : Bool := ((s.trg t).active && s.trgOn t) != s.flag .ENC_TRG_CFG_POL t

/-- TRIGGER_DELAY_EXPIRY (R245, R246): an active edge. An output that is still active, because a pulse of an earlier hit began in the
meantime, is inactive for a cycle first, and the edge is then due. [DEDUCED, log 17] -/
def Dev.triggerDelayExpiry (s : Dev) (t : Nat) : Dev :=
  match (s.trg t).due with
  | [] => s
  | e :: rest =>
    if !s.trgOn t then s.setTrg t { due := rest, active := false }
    else if (s.trg t).active then s.setTrg t { due := (e + 1) :: rest, active := false }
    else (s.setTrg t { due := rest, active := true }).countMod .ENC_TRG_CNT t

def execTriggerDelayExpiry (t : Fin 8) (s : State) : Host.Outcome State Fault Refusal :=
  s.run (.triggerDelayExpiry t) fun d => d.triggerDelayExpiry t

/-- TRIGGER_WIDTH_EXPIRY (R245). [DEDUCED, log 17] -/
def Dev.triggerWidthExpiry (s : Dev) (t : Nat) : Dev := s.setTrg t { s.trg t with active := false }

def execTriggerWidthExpiry (t : Fin 8) (s : State) : Host.Outcome State Fault Refusal :=
  s.run (.triggerWidthExpiry t) fun d => d.triggerWidthExpiry t

/-! ### Uplink triggers (R69 to R71) -/

/-- The XCLK periods between two packets on a group: 1.0 µs at 41.67 Mb/s, 2.0 µs at 20.83 Mb/s (R71). -/
def Dev.uplinkGap (s : Dev) (m : Nat) : Nat := if 5 ≤ s.rd .CXP_LNK_STAT_RATE_ACT m then 400 else 800

/-- When the uplink is free. -/
def Dev.uplinkFree (s : Dev) (m : Nat) : Nat := match (s.link m).lastSent with
  | some x => x + s.uplinkGap m
  | none => 0

/-- A packet leaves: its stamp, its fine delay, and the XCLK count at which it fell due; one that fell due before the uplink was
free is counted (R71). -/
def Dev.sendTrigger (s : Dev) (m stamp delay due : Nat) : Dev :=
  let s := if due < s.uplinkFree m then s.observe (64 + m) else s
  (s.setLink m { s.link m with lastSent := some s.xclk }).send (.trigger m stamp delay)

/-- The early branch of R69 holds: speed valid, not stopped, forward, at least 1,000 ct/s. [DEDUCED, log 16] -/
def Dev.early (s : Dev) : Bool := !s.standing && !s.reverse && decide (1000 * 65536 ≤ s.speed)

/-- The time until the line master reaches a position, by the position, speed and acceleration at the latest estimate tick, less the
time that has passed since (R69). [DEDUCED, log 16] -/
def Dev.timeSinceTick (s : Dev) (c : Nat) : Option (Int × Nat) :=
  (s.timeFrom s.tickPos c).map fun t => (max 0 (t.1 - ((s.xclk - s.tickAt) * t.2 : Nat)), t.2)

/-- UPLINK_TRIGGER_SEND (R69, R71): the oldest trigger whose hit has passed goes first; otherwise the next compare value goes
early once the time to it is within the uplink latency. [DEDUCED, log 16] -/
def Dev.uplinkTriggerSend (s : Dev) (m : Nat) : Dev :=
  if !s.live || !s.sendsTriggers m || decide (s.xclk < s.uplinkFree m) then s
  else
    match (s.link m).triggers with
    | (stamp, at_) :: rest => (s.setLink m { s.link m with triggers := rest }).sendTrigger m stamp 0 at_
    | [] =>
      match s.groupGen m with
      | none => s
      | some g =>
        let c := s.rd .ENC_CG_NEXT g
        let lat := s.rd .CXP_LNK_UPLAT m
        if !s.early || !s.flag .ENC_CG_STAT_RUN g || s.flag .ENC_CG_STAT_FSTOP g || (s.link m).early.contains c then s
        else
          match s.timeSinceTick c with
          | none => s
          | some (num, den) =>
            let fine := (2 * lat * den - 5 * num.toNat) / (5 * den)
            if 2 * lat * den < 5 * num.toNat then s
            else
              (s.setLink m { s.link m with early := (s.link m).early ++ [c] }).sendTrigger m c fine (s.xclk - fine)

def execUplinkTriggerSend (link : Fin 24) (s : State) : Host.Outcome State Fault Refusal :=
  s.run (.uplinkTriggerSend link) fun d => d.uplinkTriggerSend link

/-! ### Faults (R233 to R235) -/

/-- Every lane. -/
def allLanes : Nat := 2 ^ 64 - 1

/-- A fault stops the generators whose source is the channel (none: a worker's herd position, R327), and resynchronises the
contexts that name one (R234). -/
def Dev.stopGenerators (s : Dev) (src : Option Nat) : Dev :=
  (upTo 8).foldl (fun d g =>
    if d.srcChannel g = src ∧ d.flag .ENC_CG_STAT_RUN g then
      let d := (d.setFlag .ENC_CG_STAT_FSTOP g true).setFlag .ENC_CG_STAT_RUN g false
      (d.ctxsOf g).foldl (fun (x : Dev) c => x.resync c) d
    else d) s

/-- A fault of the line master opens a fault interval, unless one is open (R234). -/
def Dev.openFault (s : Dev) (ch : Nat) : Dev :=
  if s.worker || s.master != ch || s.flag .ENC_STAT_FLTOPEN ch then s
  else
    let a := moveBy s.lmPos (-(cts (s.rd .ENC_GUARD ch) : Nat))
    let s := (s.wr .ENC_FLT_START ch a).wr .ENC_FLT_END ch (2 ^ 64 - 1)
    (s.setFlag .ENC_STAT_FLTOPEN ch true).openMark
      { source := .encoder ch, start := a, fin := none, lanes := allLanes, code := 0xE0 }

/-- ENCODER_FAULT (R233, R234): applies the detected cause. -/
def Dev.encoderFault (s : Dev) (ch : Nat) : Dev :=
  let cause := (s.enc ch).detected
  if cause = 0 then s
  else
    let s := s.setEnc ch { s.enc ch with detected := 0 }
    let s := if s.flag .ENC_STAT_FAULT ch then s else s.wr .ENC_STAT_FCODE ch cause
    let s := s.setFlag .ENC_STAT_FAULT ch true
    let e := s.enc ch
    let s := if s.rd .ENC_CFG_TYPE ch = 1 ∧ (cause = 1 ∨ cause = 3) ∧ (e.present ∨ e.lost ∨ e.fast) then
        s.setFlag .ENC_STAT_COARSE ch true
      else s
    let s := s.tally 0x0021 ch 0xFFFFFFFF cause s.lmPos
    (s.stopGenerators (some ch)).openFault ch

def execEncoderFault (ch : Fin 4) (s : State) : Host.Outcome State Fault Refusal :=
  s.run (.encoderFault ch) fun d => d.encoderFault ch

/-- The open fault interval of a channel closes at the line-master position (R235). -/
def Dev.closeFault (s : Dev) (ch : Nat) : Dev :=
  if !s.flag .ENC_STAT_FLTOPEN ch then s
  else
    let p := s.lmPos
    ((s.wr .ENC_FLT_END ch p).setFlag .ENC_STAT_FLTOPEN ch false).closeMark (.encoder ch) p

/-- The generators that a fault stopped resume at the first point of their grid after their source, be it behind the compare value at
which they stopped; the points passed meanwhile count as skipped (R234, R235). -/
def Dev.resumeGenerators (s : Dev) (src : Option Nat) : Dev :=
  (upTo 8).foldl (fun d g =>
    if d.srcChannel g = src ∧ d.flag .ENC_CG_STAT_FSTOP g then
      let d := d.wr .ENC_CG_SKIP g (satAdd 32 (d.rd .ENC_CG_SKIP g) (d.crossingsLeft g))
      let d := d.wr .ENC_CG_NEXT g (gridAfter (d.rd .ENC_CG_START g) (d.rd .ENC_CG_SPACE g) (d.srcPos g))
      (d.setFlag .ENC_CG_STAT_FSTOP g false).setFlag .ENC_CG_STAT_RUN g true
    else d) s

/-- ENC_FAULT_CLEAR (R235): clears only a fault whose cause is gone. -/
def Dev.encFaultClear (s : Dev) (ch : Nat) : Dev :=
  let e := s.enc ch
  if !s.flag .ENC_STAT_FAULT ch || e.present || e.lost || e.fast then s
  else
    let s := (s.setFlag .ENC_STAT_FAULT ch false).wr .ENC_STAT_FCODE ch 0
    let s := (s.wr .ENC_AMP_AMINSEEN ch 0xFFFF).setFlag .ENC_STAT_COARSE ch false
    (s.closeFault ch).resumeGenerators (some ch)

def execEncFaultClear (ch : Fin 4) (s : State) : Host.Outcome State Fault Refusal :=
  s.run (.encFaultClear ch) fun d => d.encFaultClear ch

/-! ### The line master (R13, R14, R20) -/

/-- The estimator starts again: the speed is not valid, the estimates read zero, and the stopped flag follows (R19, R20). -/
def Dev.restartEstimator (s : Dev) : Dev :=
  let s := { s with est := { ps := [s.lmPos], tickPos := s.est.tickPos } }
  (((s.setFlag .ENC_MSTAT_SPDV 0 false).wr .ENC_SPEED 0 0).wr .ENC_ACCEL 0 0).noteStop

/-- The status of a write of the line master: out of range, busy while firing is armed or parts are in flight (R13, R14). -/
def Dev.masterStatus (s : Dev) (port : Port) (v : Nat) : Nat :=
  if !mayWrite rwRwRR port then stDenied
  else if 3 < v then stRange
  else if v ≠ s.master ∧ (s.flag .SEP_CTL_ARM ∨ !s.parts.isEmpty) then stBusy
  else stOk

/-- The direction flag of the new line master's channel is the machine's: a difference is a change of the flag (R18, R238).
[DEDUCED, log 12] -/
def Dev.adoptDir (s : Dev) (v : Nat) : Dev :=
  let rev := s.flag .ENC_STAT_DIR v
  if s.flag .ENC_MSTAT_DIR = rev then s else s.masterTurn v rev (s.asMaster (s.enc v).ext)

/-- A channel becomes the line master: the position goes on from the difference kept at the change (R14). A worker, whose line master is
the herd position, ignores it (R315). [DEDUCED, log 12] -/
def Dev.takeMaster (s : Dev) (v : Nat) : Dev :=
  if v = s.master ∨ s.worker then s
  else
    let p := wrap 64 (s.rd .ENC_POS s.master + s.lmOffset)
    let s := { s.wr .ENC_MSTAT_MASTER 0 v with lmOffset := wrap 64 (p + 2 ^ 64 - s.rd .ENC_POS v) }
    (s.adoptDir v).restartEstimator.clockMaster

/-- LINE_MASTER_CHANGE (R13, R14): a write of OD 0x4000:01. [DEDUCED, log 12] -/
def Dev.lineMasterChange (s : Dev) (port : Port) (v : Nat) : Dev :=
  let st := s.masterStatus port v
  if st = stOk then ((s.takeMaster v).storeN 0x4000 1 0 v).status st else s.status st

def execLineMasterChange (port : Port) (value : Nat) (s : State) : Host.Outcome State Fault Refusal :=
  s.run (.lineMasterChange port value) fun d => d.served port 0x4000 1 fun d => d.lineMasterChange port value

end Sys2Proof.Machine
end

