-- ==== Sys2Proof/Machine/Trace.lean ====
section
/-! DEFINITION. The trace buffer (R421, R422): records pass from their source's FIFO into the buffer as time passes. -/

namespace Sys2Proof.Machine

open Sys2Proof

/-- The records of the buffer. -/
def traceSize : Nat := 524288

/-- The buffer stores a record: it wraps with MODE 0, and capture stops when it is full with MODE 1; capture also stops with the
last of the POST records (R422). -/
def Dev.storeTrace (s : Dev) (e : Nat × TraceRec) : Dev :=
  let i := s.rd .OBS_TRC_WR_IDX
  let post := s.trace.post
  let s := { s with trace := { s.trace with buffer := tabPut s.trace.buffer i e, post := post.map fun n => n - 1 } }
  let s := s.wr .OBS_TRC_WR_IDX 0 ((i + 1) % traceSize)
  let full := i + 1 == traceSize
  let s := if full && !s.flag .OBS_TRC_CTL_MODE then s.setFlag .OBS_TRC_STAT_WRAPPED 0 true else s
  if (full && s.flag .OBS_TRC_CTL_MODE) || post == some 1 then s.haltTrace else s

/-- A drop record follows once a FIFO has room (R422). [DEDUCED, log 116] -/
def Trace.report (t : Trace) (src time : Nat) : Trace :=
  match tabFind? t.owed src with
  | none => t
  | some n =>
    { t with owed := tabDrop t.owed src, fifos := t.fifos ++ [(time, { src := 0xFF, kind := 1, data := n })] }

/-- The buffer takes the oldest record that waits: one trace clock cycle. [DEDUCED, log 116] -/
def Dev.traceCycle (s : Dev) : Dev :=
  if !s.tracing then s
  else
    match s.trace.fifos with
    | [] => s
    | e :: rest => ({ s with trace := { s.trace with fifos := rest }.report e.2.src s.ns40 }).storeTrace e

/-- Trace clock cycles (600 MHz) pass with `n` periods of 2.5 ns. [DEDUCED, log 116] -/
def Dev.drainTrace (s : Dev) (n : Nat) : Dev := iter Dev.traceCycle (min (3 * n / 2) s.trace.fifos.length) s

/-- TRACE_RECORD (R422): a source hands over a record that is not one of those the machine hands over itself. -/
def execTraceRecord (record : TraceRec) (s : State) : Host.Outcome State Fault Refusal :=
  s.run (.traceRecord record) fun d => d.traceRecord record

end Sys2Proof.Machine
end

