-- ==== Sys2Proof/Machine/Clock.lean ====
section
/-! DEFINITION. The passing of time (R7, R274, R338, R410): what happens by itself as periods of the XCLK count pass. -/

namespace Sys2Proof.Machine

open Sys2Proof

/-- The hits that wait in the queues of the generators are issued as their turn comes (R241). -/
def Dev.drainAll (s : Dev) : Dev := (upTo 8).foldl (fun (d : Dev) g => d.drainHits g (d.gen g).queue.length) s

/-- `n` periods of the XCLK count pass: the count, device time and the operating time go on, queued hits are issued, committed
edges pass, and the trace buffer takes the records that wait; in a state without estimate ticks none of them is missed. Nothing passes
in Off. [DESIGN CHOICE, log 3 and 124] -/
def Dev.advance (s : Dev) (n : Nat) : Dev :=
  if s.power == .off then s
  else
    let s := { s with xclk := s.xclk + n, timeU := s.timeU + n * s.periodUnits
                      tickAt := if s.live then s.tickAt else s.xclk + n - (s.xclk + n) % 4000
                      mlk := { s.mlk with opTime := s.mlk.opTime + n } }
    s.drainAll.passEdges.drainTrace n

/-- Time passes to the first multiple of `m` periods of the XCLK count after `last`, the one served latest: none if that is the present
count, otherwise up to the next multiple. [DESIGN CHOICE, log 3] -/
def Dev.advanceTo (s : Dev) (m last : Nat) : Dev :=
  if s.xclk % m = 0 ∧ last < s.xclk then s else s.advance (m - s.xclk % m)

end Sys2Proof.Machine
end

