-- ==== Sys2Proof/Machine/FieldIo.lean ====
section
/-! DEFINITION. The isolated field side (R271 to R286, R428): the frames of the barrier, the ticks, the safe state, the field
supply, the inputs and the outputs. -/

namespace Sys2Proof.Machine

open Sys2Proof

/-! ### Outbound frames (R271, R272, R275, R278, R281) -/

/-- The logic side runs and takes frames. [DEDUCED, log 47] -/
def Dev.logicOn (s : Dev) : Bool := s.live || s.power == .recovery || s.power == .start

/-- The logic side sends frames: in Run, Ready and Doze, throughout Recovery, and from stage 7 of a start. [DEDUCED, log 47] -/
def Dev.framesOn (s : Dev) : Bool :=
  s.live || s.power == .recovery || (s.power == .start && decide (7 ≤ s.rd .RCP_STATE_STAGE))

/-- The level of the line-stop output (R265): 0 while it is not enabled. [DEDUCED, log 27] -/
def Dev.stopLevel (s : Dev) : Bool :=
  s.flag .SEP_LSTOP_EN && (s.flag .SEP_STAT_LSTOP != s.flag .SEP_LSTOP_POL)

/-- A payload: KIND, SEQ and the bits below. -/
def payload (kind seq low : Nat) : Nat := kind * 2 ^ 62 + seq % 16 * 2 ^ 58 + low % 2 ^ 58

/-- A frame goes out under the next sequence number, followed by its CRC-16 (R271). -/
def Dev.sendFrame (s : Dev) (kind low : Nat) : Dev :=
  let p := payload kind s.barrier.seq low
  { s.send (.outbound p (crc16 64 p)) with
    barrier := { s.barrier with
      seq := (s.barrier.seq + 1) % 16, sinceState := if kind = 0 then 0 else s.barrier.sinceState + 1 } }

/-- A STATE frame. RELEASE is sent once no register write is waiting, and in every STATE frame after an entry into the safe state that
nothing explains (R280). [DEDUCED, log 46] -/
def Dev.sendState (s : Dev) (safe : Bool) : Dev :=
  let release := !safe && (s.barrier.releaseNow || (s.barrier.release && s.barrier.regs.isEmpty))
  let s := s.sendFrame 0 (s.stopLevel.toNat * 2 ^ 57 + s.rd .SEP_LSTOP_OUT * 2 ^ 52 + safe.toNat * 2 ^ 51 +
    release.toNat * 2 ^ 50)
  if safe then { s with barrier := { s.barrier with safeSent := true } } else s

/-- The next multiple of 400 periods, at which an outbound frame starts (R271). -/
def Dev.frameSlot (s : Dev) : Dev :=
  let s := s.advanceTo 400 s.slotAt
  { s with slotAt := s.xclk }

/-- Eight STATE frames with SAFE, one in each frame slot, before the logic side stops sending frames (R281).
[DEDUCED, log 46] -/
def Dev.safeBurst (s : Dev) : Dev := iter (fun (d : Dev) => d.frameSlot.sendState true) 8 s

/-- The tick whose first copy has gone: its second follows in the next frame (R275). -/
def Dev.secondCopy (s : Dev) : Option (Tick × Nat) := s.barrier.queue.find? fun e => e.2 == 1

/-- The tick that goes next, the first of the queue, while fewer than 256 ticks are outstanding (R275, R278) and both of its frames come
before the STATE frame that is due (R272). [DEDUCED, log 46] -/
def Dev.nextTick (s : Dev) : Option (Tick × Nat) :=
  if s.barrier.sent.length < 256 ∧ s.barrier.sinceState ≤ 5 then s.barrier.queue.head? else none

/-- One copy of a tick goes out. [DEDUCED, log 46] -/
def Dev.sendTick (s : Dev) (e : Tick × Nat) : Dev :=
  let t := e.1
  let s := s.sendFrame 1 (t.level.toNat * 2 ^ 57 + t.mask % 2 ^ 32 * 2 ^ 25 + t.edge % 2 ^ 24 * 2)
  let rest := s.barrier.queue.filter fun u => !(u == e)
  if e.2 = 2 then
    { s with barrier := { s.barrier with
        queue := (t, 1) :: rest, sent := if s.xclk < t.edge then t.edge :: s.barrier.sent else s.barrier.sent } }
  else ({ s with barrier := { s.barrier with queue := rest } }).fillQueue

/-- A waiting register frame goes out. [DEDUCED, log 46] -/
def Dev.sendReg (s : Dev) : Dev :=
  match s.barrier.regs with
  | [] => s
  | r :: l =>
    let s := s.sendFrame 2 r
    { s with barrier := { s.barrier with regs := l } }

/-- The frame of a slot: the second copy of a tick at once, a STATE frame at least once in every 8 and when nothing waits, a TICK frame
before a REG frame. [DEDUCED, log 46] -/
def Dev.sendNext (s : Dev) : Dev :=
  if s.barrier.safeAlways then s.sendState true
  else match s.secondCopy with
    | some e => s.sendTick e
    | none =>
      if 7 ≤ s.barrier.sinceState then s.sendState false
      else match s.nextTick with
        | some e => s.sendTick e
        | none => if s.barrier.regs.isEmpty then s.sendState false else s.sendReg

/-- OUTBOUND_FRAME_SLOT (R271, R272): the XCLK count reaches the next multiple of 400, and a frame goes out. -/
def Dev.outboundFrameSlot (s : Dev) : Dev :=
  let s := s.frameSlot
  if s.framesOn then s.sendNext else s

def execOutboundFrameSlot (s : State) : Host.Outcome State Fault Refusal :=
  s.run .outboundFrameSlot fun d => d.outboundFrameSlot

def execTickEnqueue (s : State) : Host.Outcome State Fault Refusal := s.run .tickEnqueue fun d => d.fillQueue

/-! ### Register frames (R273, R289) -/

/-- The payload bits of a REG frame. -/
def regFrameBits (addr data : Nat) (read : Bool) : Nat := addr % 2 ^ 16 * 2 ^ 42 + data % 2 ^ 32 * 2 ^ 10 + read.toNat * 2 ^ 9

/-- A register frame waits to be sent. [DEDUCED, log 49] -/
def Dev.queueReg (s : Dev) (addr data : Nat) (read : Bool) : Dev :=
  { s with barrier := { s.barrier with regs := s.barrier.regs ++ [regFrameBits addr data read] } }

/-- The value of `FIO_IN_CFG` for an input, from the dictionary. -/
def Dev.inputConfig (s : Dev) (i : Nat) : Nat := s.odNum (0x5200 + i) 2 0 * 2 ^ 15 + s.odNum (0x5200 + i) 1 10

/-- Firmware writes the field configuration from the dictionary (R282, R289). [DEDUCED, log 49] -/
def Dev.writeFieldConfig (s : Dev) : Dev :=
  let s := (s.queueReg 0 (s.odNum 0x5000 1 1000) false).queueReg 4 (s.odNum 0x5000 2 0) false
  let s := (upTo 32).foldl (fun (d : Dev) n => d.queueReg (0x40 + 4 * n) (d.odNum (0x5100 + n) 1 0) false) s
  (upTo 16).foldl (fun (d : Dev) i => d.queueReg (0x100 + 4 * i) (d.inputConfig i) false) s

/-! ### The outputs of the field die (R276, R279, R286) -/

def Dev.setDie (s : Dev) (e : FieldDie) : Dev := { s with die := e }

/-- The line-stop output as the latest STATE frame named it. [DEDUCED, log 27] -/
def Dev.stopMask (s : Dev) : Nat :=
  match s.die.stop with
  | some (o, _) => oneBit o
  | none => 0

/-- Outputs that may be on: enabled and not held off by protection. [DEDUCED, log 48] -/
def Dev.canDrive (s : Dev) (m : Nat) : Nat := clearBits (m &&& s.rd .FLD_OUT_EN) (s.rd .FLD_SC)

/-- Ticks switch outputs of a mask on and off, never the line-stop output. -/
def Dev.driveMask (s : Dev) (on off : Nat) : Dev :=
  let on := clearBits on s.stopMask
  let off := clearBits off s.stopMask
  s.wr .FLD_LVL 0 (clearBits (s.rd .FLD_LVL) off ||| s.canDrive on)

/-- The line-stop output takes the level of the latest STATE frame. [DEDUCED, log 27] -/
def Dev.driveStopOutput (s : Dev) : Dev :=
  match s.die.stop with
  | none => s
  | some (o, l) =>
    s.wr .FLD_LVL 0 (clearBits (s.rd .FLD_LVL) (oneBit o) ||| (if l then s.canDrive (oneBit o) else 0))

/-- Each enabled output takes its safe setting: 0 off, 1 on, 2 the level that it has (R279). -/
def Dev.safeLevels (s : Dev) : Dev :=
  let lvl := s.rd .FLD_LVL
  let on := maskOf ((upTo 32).filter fun n =>
    s.rd .FLD_SAFE n == 1 || (s.rd .FLD_SAFE n == 2 && bit lvl n))
  s.wr .FLD_LVL 0 (s.canDrive on)

/-- SAFE_STATE_ENTRY (R279): every held tick is discarded, and the outputs take their safe settings. -/
def Dev.enterSafe (s : Dev) : Dev :=
  if s.flag .FLD_STAT_SAFE || !s.die.powered then s
  else ((s.setDie { s.die with held := [] }).setFlag .FLD_STAT_SAFE 0 true).safeLevels

/-- The field die leaves the safe state: every output off, the line-stop output at its level (R280). -/
def Dev.leaveSafe (s : Dev) : Dev := ((s.setFlag .FLD_STAT_SAFE 0 false).wr .FLD_LVL 0 0).driveStopOutput

/-! ### Frames at the field die (R273, R276, R280) -/

/-- The KIND of a payload. -/
def kindOf (p : Payload) : Nat := bits p.toNat 62 2

/-- The error that the field timer has grown since the latest good frame: at most one tick in 1 ms (R274).
[DESIGN CHOICE, log 132] -/
def Dev.drift (s : Dev) : Int :=
  let b : Int := ((s.xclk - s.die.goodAt) / 400000 : Nat)
  if b = 0 then 0 else max (-b) (min b (Config.fieldDrift s.die.goodAt s.xclk))

/-- The field timer (R274). [DESIGN CHOICE, log 132] -/
def Dev.fieldTimer (s : Dev) : Nat := (s.xclk + s.die.skew + s.drift).toNat

/-- One step of a timer that is ahead by `z` ticks toward the frame's XCLK multiple plus the barrier delay (R274). A timer that is not
within half a frame of it, as after the XCLK count has begun anew, takes it over. [DESIGN CHOICE, log 132] -/
def timerStep (z : Int) : Int := if z < -200 ∨ 200 < z then 0 else if 0 < z then z - 1 else if z < 0 then z + 1 else 0

/-- A good frame has arrived: it is counted, and the timer steps. [DESIGN CHOICE, log 132] -/
def Dev.goodFrame (s : Dev) : Dev :=
  s.setDie { s.die with good := s.die.good + 1, skew := timerStep (s.die.skew + s.drift), goodAt := s.xclk }

/-- A frame that the field die discards ends the run of good frames, and is reported in the next STATUS frame (R271, R273). -/
def Dev.badFrame (s : Dev) : Dev := if s.die.powered then s.setDie { s.die with good := 0, crcBad := true } else s

/-- A STATE frame at the field die (R280). -/
def Dev.takeState (s : Dev) (n : Nat) : Dev :=
  let ready := decide (16 ≤ s.die.good) && !s.die.lowLatch
  let s := s.goodFrame
  let s := s.setDie { s.die with stop := some (bits n 52 5, bit n 57) }
  if bit n 51 then s.enterSafe
  else if s.flag .FLD_STAT_SAFE then (if bit n 50 && ready then s.leaveSafe else s)
  else s.driveStopOutput

/-- A frame of KIND `k` at the field die: KIND 3 counts as a CRC failure (R272), and a frame of another kind than the command's is none
of its frames. [DEDUCED, log 48] -/
def Dev.atDie (s : Dev) (p : Payload) (k : Nat) (f : Dev → Nat → Dev) : Dev :=
  if kindOf p = 3 then s.badFrame
  else if !s.die.powered || kindOf p ≠ k then s
  else f s p.toNat

/-- STATE_FRAME (R280). -/
def Dev.stateFrame (s : Dev) (p : Payload) : Dev := s.atDie p 0 Dev.takeState

def execStateFrame (payload : Payload) (s : State) : Host.Outcome State Fault Refusal :=
  s.run (.stateFrame payload) fun d => d.stateFrame payload

/-- The tick of a payload: the edge with those low 24 bits nearest to the field timer (R276). -/
def Dev.tickOf (s : Dev) (n : Nat) : Tick :=
  let t := s.fieldTimer
  { edge := (t + sgn 24 (bits n 1 24 + 2 ^ 24 - t % 2 ^ 24)).toNat, level := bit n 57, mask := bits n 25 32 }

/-- A tick that the field die has handled or holds: a copy of it changes nothing (R276). -/
def FieldDie.knows (e : FieldDie) (t : Tick) : Bool := e.held.contains t || e.fired.contains t || e.lastLate == some t

/-- A TICK frame at the field die (R276): a tick is held; a copy changes nothing; a late ON is discarded and a late OFF applied at once;
in the safe state a tick is discarded. -/
def Dev.takeTick (s : Dev) (n : Nat) : Dev :=
  let s := s.goodFrame
  let t := s.tickOf n
  if s.flag .FLD_STAT_SAFE || s.die.knows t then s
  else if t.edge ≤ s.fieldTimer then
    let s := s.setDie { s.die with late := true, lastLate := some t }
    if t.level then s else s.driveMask 0 t.mask
  else if s.die.held.length < 256 then s.setDie { s.die with held := s.die.held ++ [t] }
  else s

/-- TICK_FRAME (R276). -/
def Dev.tickFrame (s : Dev) (p : Payload) : Dev := s.atDie p 1 Dev.takeTick

def execTickFrame (payload : Payload) (s : State) : Host.Outcome State Fault Refusal :=
  s.run (.tickFrame payload) fun d => d.tickFrame payload

/-- Field supply below 18.0 V (R288). No command says that the supply, once low, has come back above 18.0 V but has not been at 19.2 V for
10 ms: what the bit reads until then is free. [DEDUCED, log 108] -/
def Dev.supplyLow (s : Dev) : Nat := if s.flag .FLD_STAT_FSUP then s.freeValue 1 else 0

/-- A field-die register as read (R288). -/
def Dev.dieRead (s : Dev) (a : Nat) : Nat :=
  match a with
  | 0x00 => s.rd .FLD_SAFE_TMO
  | 0x04 => s.rd .FLD_OUT_EN
  | 0x08 => s.rd .FLD_IN
  | 0x0C => s.rd .FLD_WB
  | 0x10 => s.rd .FLD_SC
  | 0x14 => s.rd .FLD_OL
  | 0x18 => s.rd .FLD_LVL
  | 0x1C => s.rd .FLD_STAT_VOTERR + 2 * s.rd .FLD_STAT_SAFE + 4 * s.supplyLow
  | a =>
    if a % 4 ≠ 0 then 0
    else if 0x40 ≤ a ∧ a < 0xC0 then s.rd .FLD_SAFE ((a - 0x40) / 4)
    else if 0x100 ≤ a ∧ a < 0x140 then
      s.rd .FLD_INCFG_DEB ((a - 0x100) / 4) + 2 ^ 15 * s.rd .FLD_INCFG_WBEN ((a - 0x100) / 4)
    else 0

/-- Outputs after a change of their settings: a disabled output is off in every state. -/
def Dev.resettle (s : Dev) : Dev :=
  if s.flag .FLD_STAT_SAFE then s.safeLevels else s.wr .FLD_LVL 0 (s.canDrive (s.rd .FLD_LVL))

/-- Write the settings of an input; clearing WBEN ends a declared break, and the input reads its level (R285). -/
def Dev.writeInputCfg (s : Dev) (i v : Nat) : Dev :=
  let s := (s.wr .FLD_INCFG_DEB i (v % 256)).setFlag .FLD_INCFG_WBEN i (bit v 15)
  if bit v 15 || !bit s.die.broken i then s
  else
    let s := s.setDie { s.die with broken := clearBits s.die.broken (oneBit i) }
    s.wr .FLD_IN 0 (clearBits (s.rd .FLD_IN) (oneBit i) ||| (s.die.raw &&& oneBit i))

/-- Write a field-die register; a value outside its range changes nothing (R288), reserved bits are ignored (R9). -/
def Dev.dieWrite (s : Dev) (a v : Nat) : Dev :=
  match a with
  | 0x00 => let t := v % 2 ^ 17; if 20 ≤ t ∧ t ≤ 100000 then s.wr .FLD_SAFE_TMO 0 t else s
  | 0x04 => (s.wr .FLD_OUT_EN 0 v).resettle
  | 0x0C => s.wr .FLD_WB 0 (clearBits (s.rd .FLD_WB) v ||| s.die.broken)
  | 0x10 => s.wr .FLD_SC 0 (clearBits (s.rd .FLD_SC) v)
  | 0x14 => s.wr .FLD_OL 0 (clearBits (s.rd .FLD_OL) v)
  | 0x1C => if bit v 0 then s.setFlag .FLD_STAT_VOTERR 0 false else s
  | a =>
    if a % 4 ≠ 0 then s
    else if 0x40 ≤ a ∧ a < 0xC0 then (if v % 4 = 3 then s else (s.wr .FLD_SAFE ((a - 0x40) / 4) (v % 4)).resettle)
    else if 0x100 ≤ a ∧ a < 0x140 then s.writeInputCfg ((a - 0x100) / 4) v
    else s

/-- A REG frame at the field die (R273): a write is performed; a read is answered in the next inbound frame. -/
def Dev.takeReg (s : Dev) (n : Nat) : Dev :=
  let s := s.goodFrame
  let a := bits n 42 16
  if bit n 9 then
    let s' := if a = 0x1C then s.useFree else s
    s'.setDie { s'.die with answer := some (a, s.dieRead a) }
  else s.dieWrite a (bits n 10 32)

/-- REG_FRAME (R273). -/
def Dev.regFrame (s : Dev) (p : Payload) : Dev := s.atDie p 2 Dev.takeReg

def execRegFrame (payload : Payload) (s : State) : Host.Outcome State Fault Refusal :=
  s.run (.regFrame payload) fun d => d.regFrame payload

/-! ### Held ticks (R276) -/

/-- The earliest edge held. -/
def firstEdge (l : List Tick) : Option Nat :=
  l.foldl (fun m t => match m with
    | none => some t.edge
    | some e => some (min e t.edge)) none

/-- The masks of the held ticks of an edge and level. -/
def edgeMask (l : List Tick) (e : Nat) (level : Bool) : Nat :=
  l.foldl (fun m t => if t.edge = e ∧ t.level = level then m ||| t.mask else m) 0

/-- The field timer reaches an edge: an OFF prevails over an ON of the same tick, and an OFF followed by an ON on the next tick
leaves the output on. -/
def Dev.fireEdge (s : Dev) (e : Nat) : Dev :=
  let h := s.die.held
  let off := edgeMask h e false
  let on := clearBits (edgeMask h e true) off
  let (gone, held) := h.partition fun t => t.edge == e
  let s := s.setDie { s.die with held := held, fired := (gone ++ s.die.fired).take 256 }
  s.driveMask on (clearBits off (edgeMask h (e + 1) true))

/-- The field timer comes to an edge: time passes, in Off on the field die alone (R274, R282). [DESIGN CHOICE, log 3] -/
def Dev.timerTo (s : Dev) (e : Nat) : Dev :=
  let n := e - s.fieldTimer
  if s.power == .off then s.setDie { s.die with skew := s.die.skew + n } else s.advance n

/-- TICK_EDGE (R276): the field timer comes to the earliest edge held, and its ticks drive their outputs. -/
def Dev.tickEdge (s : Dev) : Dev :=
  match firstEdge s.die.held with
  | none => s
  | some e => if s.die.powered then (s.timerTo e).fireEdge e else s

def execTickEdge (s : State) : Host.Outcome State Fault Refusal := s.run .tickEdge fun d => d.tickEdge

/-! ### The safe state and the supply (R279, R280, R282) -/

/-- SAFE_TIMEOUT (R279): no good frame for `FIO_SAFE_TMO`. -/
def Dev.safeTimeout (s : Dev) : Dev :=
  if s.die.powered then (s.setDie { s.die with good := 0 }).enterSafe else s

def execSafeTimeout (s : State) : Host.Outcome State Fault Refusal := s.run .safeTimeout fun d => d.safeTimeout

/-- FIELD_SUPPLY_LOW (R279, R280): L+ is below 18.0 V. -/
def Dev.fieldSupplyLow (s : Dev) : Dev :=
  if s.die.powered then ((s.setDie { s.die with lowLatch := true }).setFlag .FLD_STAT_FSUP 0 true).enterSafe else s

def execFieldSupplyLow (s : State) : Host.Outcome State Fault Refusal := s.run .fieldSupplyLow fun d => d.fieldSupplyLow

/-- FIELD_SUPPLY_LOSS (R282): the field die stops, with every output off. -/
def Dev.fieldSupplyLoss (s : Dev) : Dev :=
  if s.die.powered then (s.setDie { s.die with powered := false, held := [], answer := none }).wr .FLD_LVL 0 0 else s

def execFieldSupplyLoss (s : State) : Host.Outcome State Fault Refusal :=
  s.run .fieldSupplyLoss fun d => d.fieldSupplyLoss

/-- The registers of the field die return to their reset values. [DEDUCED, log 108] -/
def Dev.resetDieFields (s : Dev) : Dev :=
  (Field.all.filter fun f => f.desc.die).foldl
    (fun (d : Dev) f => (upTo f.desc.count).foldl (fun (e : Dev) i => e.wr f i (f.resetAt i)) d) s

/-- FIELD_SUPPLY_RETURN (R282): the field die starts at its reset values, every output off, in the safe state; L+ is still to
reach 19.2 V. -/
def Dev.fieldSupplyReturn (s : Dev) : Dev :=
  if s.die.powered then s
  else (s.setDie { lowLatch := true }).resetDieFields.setFlag .FLD_STAT_FSUP 0 true

def execFieldSupplyReturn (s : State) : Host.Outcome State Fault Refusal :=
  s.run .fieldSupplyReturn fun d => d.fieldSupplyReturn

/-- FIELD_SUPPLY_RESTORED (R280): L+ has been at 19.2 V or above for 10 ms. -/
def Dev.fieldSupplyRestored (s : Dev) : Dev :=
  if s.die.powered then (s.setDie { s.die with lowLatch := false }).setFlag .FLD_STAT_FSUP 0 false else s

def execFieldSupplyRestored (s : State) : Host.Outcome State Fault Refusal :=
  s.run .fieldSupplyRestored fun d => d.fieldSupplyRestored

/-! ### Inputs (R283 to R285) -/

/-- The lanes whose part-detect input is `i` (R25). -/
def Dev.lanesOf (s : Dev) (i : Nat) : List Nat := (upTo s.laneCount).filter fun l => s.detectInput l == some i

/-- The level that an input reads at a current in µA (R283): on from 2.0 mA, off below 1.5 mA, between the two the level before.
[DESIGN CHOICE, log 30] -/
def inputReads (before : Bool) (current : Nat) : Bool :=
  if 2000 ≤ current then true else if current < 1500 then false else before

/-- The levels that an input reads at successive samples of 1 MHz. -/
def inputSamples : Bool → List Nat → List Bool
  | _, [] => []
  | before, i :: l => inputReads before i :: inputSamples (inputReads before i) l

/-- The first of some samples is at a new level, and `deb` further ones at that level follow: the change is accepted (R283).
[DESIGN CHOICE, log 30] -/
def changeAccepted (old : Bool) (deb : Nat) (l : List Bool) : Bool :=
  decide (deb < l.length) && (l.take (deb + 1)).all fun b => b != old

/-- INPUT_CHANGE_ACCEPTED (R283): an input takes a level; a broken one goes on reading off. The command stands for the samples that
`changeAccepted` accepts. -/
def Dev.inputChange (s : Dev) (i : Nat) (level : Bool) : Dev :=
  if !s.die.powered then s
  else
    let s := s.setDie { s.die with raw := setBits s.die.raw i 1 level.toNat }
    if bit s.die.broken i then s else s.wr .FLD_IN 0 (setBits (s.rd .FLD_IN) i 1 level.toNat)

def execInputChangeAccepted (input : Fin 16) (level : Bool) (s : State) : Host.Outcome State Fault Refusal :=
  s.run (.inputChangeAccepted input level) fun d => d.inputChange input level

/-- The logic side learns of a broken input: a Tally event, and the part open on each of its lanes receives UNKNOWN_INPUT
(R285). A worker detects no parts (R315). -/
def Dev.noteBreak (s : Dev) (i : Nat) : Dev :=
  let s := { s with barrier := { s.barrier with broken := s.barrier.broken ||| oneBit i } }
  let s := s.tally 0x0061 i
  if s.worker then s
  else (s.lanesOf i).foldl (fun (d : Dev) l => match (d.lane l).openPart with
    | some id => d.updPart id fun p => p.take 0xE0
    | none => d) s

/-- WIRE_BREAK (R285): an input whose check is on is declared broken and reads off. -/
def Dev.wireBreak (s : Dev) (i : Nat) : Dev :=
  if !s.die.powered || !s.flag .FLD_INCFG_WBEN i || bit s.die.broken i then s
  else
    let s := s.setDie { s.die with broken := s.die.broken ||| oneBit i }
    let s := (s.orBits .FLD_WB 0 (oneBit i)).wr .FLD_IN 0 (clearBits (s.rd .FLD_IN) (oneBit i))
    if s.logicOn then s.noteBreak i else s

def execWireBreak (input : Fin 16) (s : State) : Host.Outcome State Fault Refusal :=
  s.run (.wireBreak input) fun d => d.wireBreak input

/-- WIRE_BREAK_CLEAR (R285): a declared break ends, and the input reads its level. -/
def Dev.wireBreakClear (s : Dev) (i : Nat) (level : Bool) : Dev :=
  if !s.die.powered || !bit s.die.broken i then s
  else
    let s := s.setDie { s.die with broken := clearBits s.die.broken (oneBit i), raw := setBits s.die.raw i 1 level.toNat }
    s.wr .FLD_IN 0 (setBits (s.rd .FLD_IN) i 1 level.toNat)

def execWireBreakClear (input : Fin 16) (level : Bool) (s : State) : Host.Outcome State Fault Refusal :=
  s.run (.wireBreakClear input level) fun d => d.wireBreakClear input level

/-- The position of an accepted change of an input: the line master now, less the travel in (DEB + 1.5) µs, rounded to the
nearest 1/65,536 ct (R284). [DESIGN CHOICE, log 30] -/
def Dev.changePos (s : Dev) (i : Nat) : Nat :=
  moveBy s.lmPos (-((2 * (s.speed * (2 * s.rd .FLD_INCFG_DEB i + 3 : Nat)) + 2000000) / 4000000))

/-- A level change on an input is a presence change on its lanes, at its position plus the barrier offset (R25, R26).
[DESIGN CHOICE, log 30] -/
def Dev.inputMoves (s : Dev) (i : Nat) (level : Bool) : Dev :=
  if s.worker then s
  else
    let pos := s.changePos i
    (s.lanesOf i).foldl (fun (d : Dev) l =>
      d.presence l (moveBy pos (d.laneOffset l * 65536)) level (bit d.die.broken i)) s

/-! ### Outputs (R286, R428) -/

/-- A short circuit is recorded once while the bit stays set. -/
def Dev.noteOutput (s : Dev) (o kind : Nat) : Dev := s.tally 0x0062 o 0xFFFFFFFF kind

/-- An output that is on is switched off by protection. -/
def Dev.protect (s : Dev) (o : Nat) : Dev :=
  if !s.die.powered || !bit (s.rd .FLD_LVL) o then s
  else
    let s := (s.wr .FLD_LVL 0 (clearBits (s.rd .FLD_LVL) (oneBit o))).orBits .FLD_SC 0 (oneBit o)
    if s.logicOn && !bit s.barrier.short o then
      ({ s with barrier := { s.barrier with short := s.barrier.short ||| oneBit o } }).noteOutput o 1
    else s

def execOutputShortCircuit (out : Fin 32) (s : State) : Host.Outcome State Fault Refusal :=
  s.run (.outputShortCircuit out) fun d => d.protect out

/-- OUTPUT_OPEN_LOAD (R286): the bit of an output that is on is set, and the output stays on. -/
def Dev.openLoad (s : Dev) (o : Nat) : Dev :=
  if !s.die.powered || !bit (s.rd .FLD_LVL) o then s
  else
    let s := s.orBits .FLD_OL 0 (oneBit o)
    if s.logicOn && !bit s.barrier.openLoad o then
      ({ s with barrier := { s.barrier with openLoad := s.barrier.openLoad ||| oneBit o } }).noteOutput o 2
    else s

def execOutputOpenLoad (out : Fin 32) (s : State) : Host.Outcome State Fault Refusal :=
  s.run (.outputOpenLoad out) fun d => d.openLoad out

/-- GROUP_OVERCURRENT (R428): every output of the group that is on is switched off. -/
def Dev.groupOvercurrent (s : Dev) (g : Nat) : Dev := (rangeFrom (8 * g) 8).foldl (fun (d : Dev) o => d.protect o) s

def execGroupOvercurrent (group : Fin 4) (s : State) : Host.Outcome State Fault Refusal :=
  s.run (.groupOvercurrent group) fun d => d.groupOvercurrent group

/-! ### Inbound frames (R273, R276, R280, R284) -/

/-- The safe flag of a STATUS frame: an entry that no SAFE frame explains is recorded, stops the line and is answered with
RELEASE (R280). -/
def Dev.noteSafe (s : Dev) (safe : Bool) : Dev :=
  let was := s.flag .FIO_LNK_STAT_SAFE
  let s := s.setFlag .FIO_LNK_STAT_SAFE 0 safe
  if safe && !was then
    let s := s.count .FIO_SAFE_CNT
    if s.barrier.safeSent then s
    else
      let s := (s.tally 0x0063 0xFF 0xFFFFFFFF (s.rd .FIO_SAFE_CNT)).driveStop
      { s with barrier := { s.barrier with release := true, releaseNow := true } }
  else if !safe && was then { s with barrier := { s.barrier with release := false, releaseNow := false, safeSent := false } }
  else s

/-- The late flag of a STATUS frame: counted and recorded once; a late ON is a miss of its parts (R276, R278).
[DEDUCED, log 48] -/
def Dev.noteLate (s : Dev) : Dev :=
  let s := (s.setFlag .FIO_LNK_STAT_LATE 0 true).count .FIO_LATE_CNT
  match s.die.lastLate with
  | none => s.useFree.tally 0x0060 0xFF 0xFFFFFFFF (s.freeValue 64)
  | some t =>
    let s := s.tally 0x0060 0xFF 0xFFFFFFFF t.edge
    if t.level then
      (s.fires.filter fun (f : Fire) => f.onEdge == some t.edge && bit t.mask f.out).foldl (fun (d : Dev) (f : Fire) =>
        d.updPart f.part fun p =>
          { p with missMask := p.missMask ||| oneBit f.out, fireMask := clearBits p.fireMask (oneBit f.out) }) s
    else s

/-- The short-circuit and open-load bits of the frame's group: a bit that was not seen is recorded. [DEDUCED, log 48] -/
def Dev.noteGroup (s : Dev) (g dg : Nat) : Dev :=
  (upTo 4).foldl (fun (d : Dev) k =>
    let o := 4 * g + k
    let sc := bit dg (2 * k)
    let ol := bit dg (2 * k + 1)
    let newSc := sc && !bit d.barrier.short o
    let newOl := ol && !bit d.barrier.openLoad o
    let d := { d with barrier := { d.barrier with
      short := setBits d.barrier.short o 1 sc.toNat, openLoad := setBits d.barrier.openLoad o 1 ol.toNat } }
    let d := if newSc then d.noteOutput o 1 else d
    if newOl then d.noteOutput o 2 else d) s

/-- The initial level of a lane's part-detect input: no change of presence follows from it, and one that reads absent ends the lane's
wait for absence (R28, R284). [DEDUCED, log 20] -/
def Dev.initialLevel (s : Dev) (l : Nat) (on : Bool) : Dev :=
  s.setLane l { s.lane l with present := on, blocked := (s.lane l).blocked && on }

/-- The input levels of a STATUS frame: initial levels after a reset or a restart, else presence changes (R284). -/
def Dev.noteLevels (s : Dev) (levels : Nat) : Dev :=
  let old := s.barrier.levels
  let init := s.barrier.init
  let s := { s with barrier := { s.barrier with levels := levels, init := false } }
  if init then
    (upTo s.laneCount).foldl (fun (d : Dev) l => match d.detectInput l with
      | some i => d.initialLevel l (bit levels i)
      | none => d) s
  else ((upTo 16).filter fun i => bit old i != bit levels i).foldl (fun (d : Dev) i => d.inputMoves i (bit levels i)) s

/-- The wire-break flags of a STATUS frame: one that was not seen is a break that has been declared. [DEDUCED, log 48] -/
def Dev.noteBreaks (s : Dev) (wb : Nat) : Dev :=
  let s := (bitsSet 16 (clearBits wb s.barrier.broken)).foldl (fun (d : Dev) i => d.noteBreak i) s
  { s with barrier := { s.barrier with broken := wb } }

/-- The flags of a STATUS frame that set bits of `FIO_LNK_STAT`: a restart makes firmware write the configuration and release
the safe state (R282); a failed outbound frame is counted (R276). -/
def Dev.noteFlags (s : Dev) (n : Nat) : Dev :=
  let s := s.setFlag .FIO_LNK_STAT_FSUP 0 (bit n 12)
  let s := if bit n 11 then
      let s := (s.setFlag .FIO_LNK_STAT_RESTART 0 true).writeFieldConfig
      { s with barrier := { s.barrier with init := true, release := true } }
    else s
  let s := if bit n 10 then s.setFlag .FIO_LNK_STAT_VOTERR 0 true else s
  if bit n 9 then (s.setFlag .FIO_LNK_STAT_CRCERR 0 true).count .FIO_CRC_CNT else s

/-- The short-circuit and open-load bits of the outputs of the diagnostic group. -/
def Dev.groupBits (s : Dev) : Nat :=
  (upTo 4).foldl (fun n k =>
    let o := 4 * s.die.group + k
    n + (bit (s.rd .FLD_SC) o).toNat * 4 ^ k + (bit (s.rd .FLD_OL) o).toNat * 2 * 4 ^ k) 0

/-- The payload of the STATUS frame that the field die sends (R273). [DEDUCED, log 48] -/
def Dev.statusPayload (s : Dev) : Nat :=
  payload 0 s.die.seq (s.rd .FLD_IN * 2 ^ 42 + s.rd .FLD_WB * 2 ^ 26 + s.die.group * 2 ^ 23 + s.groupBits * 2 ^ 15 +
    s.rd .FLD_STAT_SAFE * 2 ^ 14 + s.die.late.toNat * 2 ^ 13 + s.supplyLow * 2 ^ 12 + s.die.restarted.toNat * 2 ^ 11 +
    s.die.voted.toNat * 2 ^ 10 + s.die.crcBad.toNat * 2 ^ 9)

/-- The payload of the READ frame with which the field die answers a read (R273). -/
def Dev.readPayload (s : Dev) (a : Nat × Nat) : Nat := payload 1 s.die.seq (a.1 % 2 ^ 16 * 2 ^ 42 + a.2 % 2 ^ 32 * 2 ^ 10)

/-- The field die sends its inbound frame with its CRC-16: a STATUS frame, after which what it had to report has been reported, or the
answer to a read. [DEDUCED, log 48] -/
def Dev.dieSends (s : Dev) (read : Bool) : Dev :=
  let e := { s.die with seq := (s.die.seq + 1) % 16 }
  if read then
    match s.die.answer with
    | some a => (s.send (.inbound (s.readPayload a) (crc16 64 (s.readPayload a)))).setDie { e with answer := none }
    | none => s
  else
    (s.send (.inbound s.statusPayload (crc16 64 s.statusPayload))).setDie
      { e with late := false, restarted := false, crcBad := false, voted := false, group := (e.group + 1) % 8 }

/-- A frame that the logic side discards is counted (R271, R272). -/
def Dev.countBad (s : Dev) : Dev :=
  if s.logicOn && s.die.powered then (s.setFlag .FIO_LNK_STAT_CRCERR 0 true).count .FIO_CRC_CNT else s

/-- A frame of KIND `k` at the logic side, while the field die has power (R282) and the logic side takes frames.
[DEDUCED, log 48] -/
def Dev.atLogic (s : Dev) (p : Payload) (k : Nat) (f : Dev → Nat → Dev) : Dev :=
  if kindOf p = 3 then s.countBad
  else if !s.logicOn || !s.die.powered || kindOf p ≠ k then s
  else f (s.dieSends (k == 1)) p.toNat

/-- A STATUS frame at the logic side. -/
def Dev.takeStatus (s : Dev) (n : Nat) : Dev :=
  let s := s.noteFlags n
  let s := s.noteBreaks (bits n 26 16)
  let s := s.noteLevels (bits n 42 16)
  let s := s.noteGroup (bits n 23 3) (bits n 15 8)
  let s := s.noteSafe (bit n 14)
  if bit n 13 then s.noteLate else s

/-- INBOUND_STATUS_FRAME (R273). [DEDUCED, log 48] -/
def Dev.inboundStatus (s : Dev) (p : Payload) : Dev := s.atLogic p 0 Dev.takeStatus

def execInboundStatusFrame (payload : Payload) (s : State) : Host.Outcome State Fault Refusal :=
  s.run (.inboundStatusFrame payload) fun d => d.inboundStatus payload

/-- A READ frame at the logic side: the answer to the oldest register read completes it (R375). -/
def Dev.takeRead (s : Dev) (n : Nat) : Dev :=
  match s.barrier.readPending with
  | [] => s
  | a :: l =>
    if a = bits n 42 16 then
      ({ s with barrier := { s.barrier with readPending := l } }).send (.indRead (bits n 10 32))
    else s

/-- INBOUND_READ_FRAME (R273, R375). -/
def Dev.inboundRead (s : Dev) (p : Payload) : Dev := s.atLogic p 1 Dev.takeRead

def execInboundReadFrame (payload : Payload) (s : State) : Host.Outcome State Fault Refusal :=
  s.run (.inboundReadFrame payload) fun d => d.inboundRead payload

/-- BARRIER_FRAME_CRC_FAIL (R271): an inbound frame is counted at once; an outbound one ends the run of good frames and is
reported in the next STATUS frame. -/
def Dev.crcFail (s : Dev) (inbound : Bool) : Dev := if inbound then s.countBad else s.badFrame

def execBarrierFrameCrcFail (inbound : Bool) (s : State) : Host.Outcome State Fault Refusal :=
  s.run (.barrierFrameCrcFail inbound) fun d => d.crcFail inbound

end Sys2Proof.Machine
end

