-- ==== Sys2Proof/Machine/Separator.lean ====
section
/-! DEFINITION. The commands of parts, recipes and the Separator (R28, R34, R37 to R40, R162, R249 to R253, R265 to R267). -/

namespace Sys2Proof.Machine

open Sys2Proof

/-! ### Parts (R28, R34) -/

/-- DEADLINE_REACHED (R34): a part whose deadline the line master has reached receives FAULT or LATE if it has no verdict. -/
def Dev.deadlineReached (s : Dev) (id : Nat) : Dev :=
  match s.part? id with
  | none => s
  | some p => if !p.dead && s.pastDeadline p then s.updPart id Part.expire else s

def execDeadlineReached (part : Nat) (s : State) : Host.Outcome State Fault Refusal :=
  s.run (.deadlineReached part) fun d => d.deadlineReached part

/-- The position at which a lane's detector stands (R28): the line master plus the barrier offset for a field input that reads
present, the aligned stamp of the kernel's line otherwise. -/
def Dev.detectorAt (s : Dev) (l stamp : Nat) : Option Nat :=
  match s.detectInput l with
  | some _ => if (s.lane l).present then some (moveBy s.lmPos (s.laneOffset l * 65536)) else none
  | none => some stamp

/-- The detector of a lane's open part has reached the maximum part length (R28). -/
def Dev.tooLong (s : Dev) (l stamp : Nat) (p : Part) : Bool :=
  match s.detectorAt l stamp with
  | some q => atOrAfter q (wrap 64 (p.start + cts (s.slot p.slot).maxLen))
  | none => false

/-- PART_MAX_LENGTH (R28). -/
def Dev.partMaxLength (s : Dev) (l stamp : Nat) : Dev :=
  match (s.lane l).openPart.bind s.part? with
  | none => s
  | some p => if s.tooLong l stamp p then s.overlong l p else s

def execPartMaxLength (lane : Fin 64) (stamp : Nat) (s : State) : Host.Outcome State Fault Refusal :=
  s.run (.partMaxLength lane stamp) fun d => d.partMaxLength lane stamp

/-! ### Recipe slots (R36 to R40, R156, R162, R203, R253) -/

/-- A slot's policy can select a set: some code that parts can end with maps to it (R36). -/
def Dev.policySelects (s : Dev) (k act : Nat) : Bool := (rangeFrom 0 0xE5).any fun c => bit (s.policyOf k c) act

/-- The outputs that are enabled. -/
def Dev.outputsEnabled (s : Dev) : Nat := maskOf ((rangeFrom 0 32).filter fun o => s.flag .SEP_OUT_CFG_EN o)

/-- The output sets of a slot pass the check of R253 for the lanes below `n`. -/
def Dev.setsOk (s : Dev) (k n : Nat) : Bool :=
  let a := s.policySelects k 0
  let b := s.policySelects k 1
  let ok := s.outputsEnabled
  let stop := oneBit (s.rd .SEP_LSTOP_OUT)
  let good := fun (m : Nat) (used : Bool) => !(used && m == 0) && clearBits m ok == 0 && m &&& stop == 0
  (rangeFrom 0 n).all fun l => good (s.rd .SEP_SETA (64 * k + l)) a && good (s.rd .SEP_SETB (64 * k + l)) b

/-- The slots in some of the states EMPTY, LOADING, READY, ACTIVE. -/
def Dev.slotsIn (s : Dev) (p : Nat → Bool) : List Nat := (rangeFrom 0 8).filter fun k => p (s.slot k).st

/-- A slot's Vat total in KiB (R162). -/
def RecipeSlot.vatKiB (r : RecipeSlot) : Nat :=
  match r.image with
  | some i => i.vatKiB
  | none => 0

/-- The Vat totals of the loaded slots but one, the new total and the teach allotment fit the program region (R162). -/
def Dev.recipeFits (s : Dev) (k total : Nat) : Bool :=
  let others := (s.slotsIn fun st => st != 0).filter fun j => j != k
  let sum := (others.map fun j => (s.slot j).vatKiB).foldl (· + ·) 0
  decide (sum + total + 1024 * s.odNum 0x3020 3 0 ≤ s.rd .MEM_PART1_PROG)

/-- A recipe's Skim rates are rates of R152 and at or above OD 0x3002:01 (R156). -/
def Dev.skimOk (s : Dev) (rates : List Nat) : Bool :=
  let low := s.odNum 0x3002 1 0
  rates.all fun r => r == 0 || ((r == 8 || r == 10 || r == 12) && low != 16 && decide (low ≤ r))

/-- A recipe's counters overlap those of no other READY or ACTIVE slot (R203). -/
def Dev.countersFree (s : Dev) (k : Nat) (cs : List Nat) : Bool :=
  ((s.slotsIn fun st => decide (2 ≤ st)).filter fun j => j != k).all fun j =>
    match (s.slot j).image with
    | some i => i.counters.all fun c => !cs.contains c
    | none => true

/-- The status of a recipe load. [DEDUCED, log 22] -/
def Dev.loadStatus (s : Dev) (k : Nat) (i : RecipeImage) : Nat :=
  if (s.slot k).st = 3 then stBusy
  else if s.odNum (0x3010 + k) 2 0 = 0 ∨ s.odNum (0x3010 + k) 3 0 = 0 then stParam
  else if !s.skimOk i.skimRates || !s.recipeFits k i.vatKiB || !s.countersFree k i.counters then stParam
  else if !s.setsOk k s.laneCount then stParam
  else stOk

/-- The slot as loaded: READY. -/
def Dev.loadedSlot (s : Dev) (k : Nat) (i : RecipeImage) : RecipeSlot :=
  { st := 2, d := s.odNum (0x3010 + k) 2 0, maxLen := s.odNum (0x3010 + k) 3 0, image := some i }

/-- RECIPE_LOAD (R37, R162): the checks of R34, R28, R156, R162, R203 and R253; the slot passes LOADING and ends READY.
[DEDUCED, log 22] -/
def Dev.recipeLoad (s : Dev) (k : Nat) (i : RecipeImage) : Dev :=
  let st := s.loadStatus k i
  if st = stOk then ((s.forgetSlot k).setSlot k (s.loadedSlot k i)).status st else s.status st

def execRecipeLoad (port : Port) (slot : Fin 8) (image : RecipeImage) (s : State) : Host.Outcome State Fault Refusal :=
  s.run (.recipeLoad port slot image) fun d => d.served port 0x3010 1 fun d => d.recipeLoad slot image

/-- The slot is READY on every member in service, as their latest HELLO reported (R331). -/
def Dev.readyOnMembers (s : Dev) (k : Nat) : Bool :=
  (bitsSet 64 (s.rd .HRD_INSERV)).all fun m =>
    match tabFind? s.herd.members m with
    | some e => e.slots[k]? == some 2 || m == 0
    | none => m == 0

/-- The status of a switch command (R38, R331). [DEDUCED, log 21] -/
def Dev.switchStatus (s : Dev) (port : Port) (k : Nat) : Nat :=
  if !mayWrite rwRwRR port then stDenied
  else if 7 < k then stRange
  else if (s.slot k).st ≠ 2 then stBusy
  else if s.manager && !s.readyOnMembers k then stBusy
  else stOk

/-- The effective switch position: the commanded one, or the line master's if that lies ahead of it (R38). -/
def Dev.effective (s : Dev) (pos : Nat) : Nat := if after s.lmPos pos then s.lmPos else pos

/-- A switch to a slot at an effective position becomes the pending one, in place of any other that has not taken effect yet (R40).
[DEDUCED, log 21] -/
def Dev.commandSwitch (s : Dev) (k pos : Nat) : Dev :=
  ({ s.switchIfReached with slotNext := some (k, pos) }.setOd 0x3000 4 pos).switchIfReached

/-- RECIPE_SWITCH (R38): a write of OD 0x3000:02; the manager tells its workers (R331). -/
def Dev.recipeSwitch (s : Dev) (port : Port) (k : Nat) : Dev :=
  let st := s.switchStatus port k
  if st = stOk then
    let pos := s.effective (s.odNum 0x3000 3 0)
    let s := (s.setOd 0x3000 2 k).commandSwitch k pos
    (if s.manager then s.toAll (.switch k pos) else s).status st
  else s.status st

def execRecipeSwitch (port : Port) (slot : Nat) (s : State) : Host.Outcome State Fault Refusal :=
  s.run (.recipeSwitch port slot) fun d => d.served port 0x3000 2 fun d => d.recipeSwitch port slot

/-! ### Arming and line stop (R265, R266) -/

/-- The status of a write of OD 0x4600:03: a worker creates no firings (R315), and in Standby ARM is 0 (R400).
[DEDUCED, log 28 and 105] -/
def Dev.armStatus (s : Dev) (port : Port) (v : Bool) : Nat :=
  if !mayWrite rwRwRR port then stDenied else if (s.worker || s.power == .standby) && v then stBusy else stOk

/-- SEP_ARM_WRITE (R266): the register takes the value; the next estimate tick follows it. [DEDUCED, log 28] -/
def Dev.sepArmWrite (s : Dev) (port : Port) (v : Bool) : Dev :=
  let st := s.armStatus port v
  if st = stOk then (s.setFlag .SEP_CTL_ARM 0 v).status st else s.status st

def execSepArmWrite (port : Port) (value : Bool) (s : State) : Host.Outcome State Fault Refusal :=
  s.run (.sepArmWrite port value) fun d => d.served port 0x4600 3 fun d => d.sepArmWrite port value

/-- The line stop may be released (R265). -/
def Dev.mayRelease (s : Dev) : Bool :=
  decide (s.fires.length ≤ 64512) && decide (s.inOverflow < 256) && !s.flag .FIO_LNK_STAT_SAFE

/-- LINE_STOP_RELEASE (R265). -/
def Dev.releaseStop (s : Dev) : Dev := if s.mayRelease then s.setFlag .SEP_STAT_LSTOP 0 false else s

def execLineStopRelease (s : State) : Host.Outcome State Fault Refusal :=
  s.run .lineStopRelease fun d => d.releaseStop

/-! ### Verdict records (R249, R250, R329) -/

/-- The Separator takes a record; a worker sends it to the manager under its member number (R329). -/
def Dev.deliver (s : Dev) (r : VerdictRec) : Dev :=
  if s.worker then s.toManager (.verd [{ r with member := s.memberNo }]) else s.takeRecord r

def execVerdictRecord (record : VerdictRec) (s : State) : Host.Outcome State Fault Refusal :=
  s.run (.verdictRecord record) fun d => d.deliver record

/-- Records in groups of at most 16, as VERD frames carry them (R319). -/
def groups16 (l : List VerdictRec) : Nat → List (List VerdictRec)
  | 0 => []
  | n + 1 => if l.isEmpty then [] else l.take 16 :: groups16 (l.drop 16) n

/-- A VCOMMIT delivers its records in order (R249); a worker's leave as VERD frames (R329). -/
def Dev.deliverAll (s : Dev) (l : List VerdictRec) : Dev :=
  if s.worker then
    (groups16 (l.map fun (r : VerdictRec) => { r with member := s.memberNo }) 16).foldl
      (fun (d : Dev) g => d.toManager (.verd g)) s
  else l.foldl (fun (d : Dev) r => d.takeRecord r) s

/-! ### Memory errors in the window (R267) -/

/-- An entry at a window offset is struck: `SEP_STAT` and the Tally, with its part's identifier, or all ones for an entry that is free or
whose identifier cannot be read (R267). -/
def Dev.noteStruck (s : Dev) (ofs id : Nat) : Dev := (s.setFlag .SEP_STAT_MEMERR 0 true).tally 0x0046 0xFF id ofs

/-- The identifier of a struck entry as far as it can be read: which is open, so a free value decides (R267).
[DESIGN CHOICE, log 26] -/
def Dev.struckId (s : Dev) (id : Nat) : Nat := if s.freeValue 1 = 1 then 0xFFFFFFFF else id

/-- A part-table entry is lost: the part's tracking ends, and its entries whose ON is not committed go with it.
[DESIGN CHOICE, log 26] -/
def Dev.losePart (s : Dev) (p : Part) : Dev :=
  let s := ((s.entriesOf p.id).filter fun (f : Fire) => f.onEdge.isNone).foldl
    (fun (d : Dev) (f : Fire) => d.dropFire f) s
  let s := if (s.lane p.lane).openPart = some p.id then s.setLane p.lane { s.lane p.lane with openPart := none } else s
  ({ s with parts := s.parts.filter fun (q : Part) => q.id != p.id }).retire p.slot

/-- A fire-queue entry is lost: an OFF is committed 5 µs ahead if its ON was and its run's OFF was not; its part's log entry
shows the error, and the output as missed if its ON had not fired. [DESIGN CHOICE, log 26] -/
def Dev.loseFire (s : Dev) (f : Fire) : Dev :=
  let s := if f.onEdge.isSome && f.offEdge.isNone then
      (s.lateOff f.out).commitOff f.run f.out (s.xclk + s.fieldTicks (usTicks 5))
    else s
  let f := { f with offEdge := if f.onEdge.isSome then some 0 else none }
  (s.dropFire f).updPart f.part fun p =>
    { p with flags := p.flags ||| 8, missMask := if f.fired then p.missMask else p.missMask ||| oneBit f.out }

/-- Verdict-log entry `i` has been written. -/
def Dev.logWritten (s : Dev) (i : Nat) : Bool :=
  s.flag .SEP_VLOG_WR_WRAPS || decide (i < s.rd .SEP_VLOG_WR_IDX)

/-- A part-table entry is struck (R267). -/
def Dev.strikePart (s : Dev) (ofs : Nat) (p : Part) : Dev :=
  ((s.useFree.noteStruck ofs (s.struckId p.id)).losePart p).driveStop

/-- A fire-queue entry is struck (R267). -/
def Dev.strikeFire (s : Dev) (ofs : Nat) (f : Fire) : Dev :=
  ((s.useFree.noteStruck ofs (s.struckId f.part)).loseFire f).driveStop

/-- A free entry of the part table or the fire queue is struck (R267). -/
def Dev.strikeFree (s : Dev) (ofs : Nat) : Dev := (s.noteStruck ofs 0xFFFFFFFF).driveStop

/-- Verdict-log entry `i` is struck: a written one shows it, if it can still be written, which is open (R267). -/
def Dev.strikeLog (s : Dev) (i : Nat) : Dev :=
  let a := sepBase + 0x300000 + 64 * i
  if s.logWritten i then
    let t := s.useFree.noteStruck (0x300000 + 64 * i) (s.struckId (s.leRead a 4))
    if t.freeValue 1 = 1 then t.useFree.putByte (a + 50) (s.byteAt (a + 50) ||| 8) else t.useFree
  else s.noteStruck (0x300000 + 64 * i) 0xFFFFFFFF

/-- The entry at a window offset is struck. Where the Separator has placed a part or a fire-queue entry is its own choice, so which
one stands there, if any, is a free value (R267). [DESIGN CHOICE, log 26] -/
def Dev.strikeAt (s : Dev) (ofs : Nat) : Dev :=
  let t := s.useFree
  if ofs < 0x100000 then
    match (s.parts.filter fun (p : Part) => !p.ovf)[s.freeValue 14]? with
    | some p => t.strikePart (ofs - ofs % 64) p
    | none => t.strikeFree (ofs - ofs % 64)
  else if ofs < 0x300000 then
    match s.fires[s.freeValue 16]? with
    | some f => t.strikeFire (ofs - ofs % 32) f
    | none => t.strikeFree (ofs - ofs % 32)
  else if ofs < 0x400000 then s.strikeLog ((ofs - 0x300000) / 64)
  else s

/-- Every entry of a 128-byte block of the window is struck: two parts, four fire-queue entries or two log entries (R172, R267). -/
def Dev.strikeBlock (s : Dev) (ofs : Nat) : Dev :=
  let b := ofs - ofs % 128
  let size := if 0x100000 ≤ ofs ∧ ofs < 0x300000 then 32 else 64
  (upTo (128 / size)).foldl (fun (d : Dev) k => d.strikeAt (b + size * k)) s

/-- SEPARATOR_MEMORY_ERROR (R267): an uncorrectable error of the window, met by requester 18. Where the Separator has placed a part or
a fire-queue entry is its own choice, so the offset of that entry is a free value. [DESIGN CHOICE, log 26] -/
def Dev.separatorMemoryError (s : Dev) (what : SepStrike) : Dev :=
  let hit := fun (d : Dev) (ofs : Nat) => d.uncorrectable (sepBase + ofs) 18 true
  match what with
  | .part id =>
    (match (s.parts.filter fun (p : Part) => !p.ovf).find? fun p => p.id == id with
    | none => s
    | some p => let ofs := 64 * s.freeValue 14
      (hit s.useFree ofs).strikePart ofs p)
  | .fire id o =>
    (match s.fires.find? fun f => f.part == id && f.out == o with
    | none => s
    | some f => let ofs := 0x100000 + 32 * s.freeValue 16
      (hit s.useFree ofs).strikeFire ofs f)
  | .log i => (hit s (0x300000 + 64 * (i % 16384))).strikeLog (i % 16384)
  | .free ofs => (hit s (ofs % 0x300000)).strikeFree (ofs % 0x300000)

def execSeparatorMemoryError (what : SepStrike) (s : State) : Host.Outcome State Fault Refusal :=
  s.run (.separatorMemoryError what) fun d => d.separatorMemoryError what

end Sys2Proof.Machine
end

