-- ==== Sys2Proof/Machine/Time.lean ====
section
/-! DEFINITION. The time base, PTP and the Ethernet ports (R338 to R352): steps and rates, stamps, the servo, time-triggered
outputs. -/

namespace Sys2Proof.Machine

open Sys2Proof

/-! ### Steps and rates (R338, R340, R341) -/

/-- The servo owner (R348). -/
def Dev.servoOwner (s : Dev) : Source := if s.flag .TIM_CTL_HOSTSERVO then .host else .firmware

/-- The largest rate offset, in 1/1,024 ppb (R338). -/
def rateLimit : Int := 512000000

/-- Device time moved by an offset in the units of `Dev.timeU`, modulo 2^64 ns. -/
def Dev.moveUnits (s : Dev) (u : Int) : Dev :=
  { s with timeU := (((s.timeU : Int) + u) % (2 ^ 64 * nsUnits : Nat)).toNat }

/-- The first `START + k × PERIOD` at or after a time, and the periods before it (R351). -/
def ttoFrom (start period now : Nat) : Nat × Nat :=
  if now ≤ start then (start, 0)
  else
    let k := (now - start + period - 1) / period
    (start + k * period, k)

/-- The edges of a time-triggered output that device time has passed without reaching are not issued: a single pulse is missed,
a periodic output goes on at a later edge and counts the periods skipped (R351). [DEDUCED, log 86] -/
def Dev.skipEdges (s : Dev) (t : Nat) : Dev :=
  match (s.tto t).next with
  | none => s
  | some e =>
    if s.fullNs ≤ e then s
    else if s.rd .TIM_TTO_PERIOD t = 0 then
      (s.setTto t { s.tto t with next := none }).setFlag .TIM_TTO_STAT_MISSED t true
    else
      let (e, k) := ttoFrom e (s.rd .TIM_TTO_PERIOD t) s.fullNs
      (s.setTto t { s.tto t with next := some e }).wr .TIM_TTO_SKIP_COUNT t (satAdd 32 (s.rd .TIM_TTO_SKIP_COUNT t) k)

/-- A step is applied: device time moves, the step generation advances, edges that a forward step passes are skipped (R340,
R351). [DEDUCED, log 86] -/
def Dev.acceptStep (s : Dev) (step : Int) : Dev :=
  let s := ((s.moveUnits (step * (nsUnits : Nat))).countMod .TIM_STAT_SGEN).setFlag .TIM_STAT_STEPPED 0 true
  let s := s.setFlag .TIM_STAT_TSET 0 true
  (rangeFrom 0 8).foldl (fun (d : Dev) t => d.skipEdges t) s

/-- The E96 accepts a step: the first one since device time was reset, one within the threshold, or any with the override
(R340). -/
def Dev.stepAllowed (s : Dev) (step : Int) : Bool :=
  !s.flag .TIM_STAT_TSET || s.flag .TIM_CTL_OVR || decide (step.natAbs ≤ s.rd .TIM_STEPMAX)

/-- A step is refused; the Milkhouse servo then slews at the rate limit (R340, R341). -/
def Dev.refuseStep (s : Dev) (step : Int) : Dev :=
  let s := (s.setFlag .TIM_STAT_STEPREF 0 true).tally 0x0070 0xFF 0xFFFFFFFF (unsgn 64 step)
  if s.servoOwner == .firmware then s.wr .TIM_RATE 0 (unsgn 32 (if 0 ≤ step then rateLimit else -rateLimit)) else s

/-- The override holds for the one step that it enables (R341). [DEDUCED, log 86] -/
def Dev.clearOverride (s : Dev) : Dev := (s.setFlag .TIM_CTL_OVR 0 false).setOd 0x6000 6 0

/-- TIME_STEP (R340). -/
def Dev.timeStep (s : Dev) (src : Source) (step : Int) : Dev :=
  if src ≠ s.servoOwner then s.ownerError
  else if s.stepAllowed step then (s.acceptStep step).clearOverride
  else s.refuseStep step

def execTimeStep (source : Source) (step : Int) (s : State) : Host.Outcome State Fault Refusal :=
  s.run (.timeStep source step) fun d => d.timeStep source step

/-- TIME_RATE_WRITE (R338): a rate beyond ±500 ppm is ignored. -/
def Dev.timeRateWrite (s : Dev) (src : Source) (rate : Int) : Dev :=
  if src ≠ s.servoOwner then s.ownerError
  else if -rateLimit ≤ rate ∧ rate ≤ rateLimit then s.wr .TIM_RATE 0 (unsgn 32 rate)
  else s

def execTimeRateWrite (source : Source) (rate : Int) (s : State) : Host.Outcome State Fault Refusal :=
  s.run (.timeRateWrite source rate) fun d => d.timeRateWrite source rate

/-- `TIM_WRAP` of this instant is latched (R339). -/
def Dev.latchWrap (s : Dev) : Dev := s.wr .TIM_WRAP 0 (s.ns40 / 2 ^ 32)

/-- TIM_NS_READ (R339). -/
def Dev.timNsRead (s : Dev) : Dev := s.latchWrap.send (.barRead (leBytes s.ns40 4))

def execTimNsRead (s : State) : Host.Outcome State Fault Refusal := s.run .timNsRead fun d => d.timNsRead

/-! ### Ethernet ports (R352) -/

/-- ETH_A and ETH_B run in every state in which inspection may run and during a start, ETH_M also in Standby and Recovery (R391,
R396). -/
def Dev.ethOn (s : Dev) (p : Nat) : Bool :=
  s.flag .ETH_CTL_EN p && (s.live || s.power == .start || (p == 2 && (s.power == .standby || s.power == .recovery)))

/-- ETH_LINK_LOSS. -/
def Dev.ethLinkLoss (s : Dev) (p : Nat) : Dev :=
  if s.flag .ETH_STAT_LINK p then (s.setFlag .ETH_STAT_LINK p false).setFlag .ETH_STAT_LINKDOWN p true else s

def execEthLinkLoss (port : Fin 3) (s : State) : Host.Outcome State Fault Refusal :=
  s.run (.ethLinkLoss port) fun d => d.ethLinkLoss port

/-- ETH_LINK_UP. -/
def Dev.ethLinkUp (s : Dev) (p : Nat) : Dev := if s.ethOn p then s.setFlag .ETH_STAT_LINK p true else s

def execEthLinkUp (port : Fin 3) (s : State) : Host.Outcome State Fault Refusal :=
  s.run (.ethLinkUp port) fun d => d.ethLinkUp port

/-! ### PTP (R344 to R349, R367) -/

/-- The clock of the module uses an Ethernet port (R344, `PTPMODE`); a worker runs no servo (R325). -/
def Dev.ptpPort (s : Dev) (p : Nat) : Bool := !s.worker && bit (s.rd .TIM_CTL_PTPMODE) p

/-- The accuracy of a stamp in ns (R345): ±4 at 25GBASE-R, ±8 at 10GBASE-R. [DESIGN CHOICE, log 87] -/
def Dev.stampError (s : Dev) (p : Nat) : Nat := if s.rd .ETH_CTL_SPEED p = 1 then 4 else 8

/-- The correction of a stamp, in 0.1 ns: ingress or egress, by speed and FEC (R345). -/
def Dev.stampCorrection (s : Dev) (p : Nat) (tx : Bool) : Int :=
  match s.rd .ETH_CTL_SPEED p, s.rd .ETH_CTL_FEC p, tx with
  | 1, 2, false => -2124
  | 1, 2, true => 968
  | 1, 1, false => -1180
  | 1, 1, true => 642
  | 1, _, false => -416
  | 1, _, true => 352
  | _, _, false => -960
  | _, _, true => 816

/-- A stamp of an event message, in 1/256 ns: device time at the MAC and the correction, which refer it to the connector, within the
accuracy (R345). -/
def Dev.stamp256 (s : Dev) (p : Nat) (tx : Bool) : Int :=
  let e := 256 * s.stampError p
  ((s.timeU * 256 / nsUnits : Nat) : Int) + s.stampCorrection p tx * 256 / 10 + (s.freeValue 32 % (2 * e + 1) : Nat) - (e : Nat)

/-- A transmit stamp joins the queue of 16, or is dropped (R346). -/
def Dev.pushStampTx (s : Dev) (t : TxStamp) : Dev :=
  if s.tb.txq.length < 16 then { s with tb := { s.tb with txq := s.tb.txq ++ [t] } }
  else (s.setFlag .TIM_TXQ_STAT_OVF 0 true).count .TIM_TXQ_LOST_COUNT

/-- The address of entry `e` of the event ring. -/
def evtBase (e : Nat) : Nat := 0xB02000 + 256 * e

/-- Firmware posts a received event message to the host's event ring (R367); past 16 entries since the host took the servo the
oldest is overwritten. [DESIGN CHOICE, log 87] -/
def Dev.postEvent (s : Dev) (m : PtpMsg) (stamp : Nat) : Dev :=
  let i := s.rd .MLK_MBX_EVT_WR_IDX
  let msg := m.bytes.take 240
  let entry := leBytes msg.length 2 ++ leBytes m.port 1 ++ leBytes 0 1 ++ leBytes (stamp / 256) 8 ++ leBytes stamp 1 ++
    leBytes (s.rd .TIM_STAT_SGEN) 1 ++ leBytes 0 2 ++ padTo 240 msg
  let s := (s.putBars (evtBase i) entry).wr .MLK_MBX_EVT_WR_IDX 0 (i + 1)
  let s := if 16 ≤ s.svc.evtCount then s.count .MLK_MBX_EVT_LOST_COUNT else s
  { s with svc := { s.svc with evtCount := s.svc.evtCount + 1 } }.raiseVec 10

/-- The firmware servo reports an offset from the master: it is locked while that is within 100 ns (R348). [DEDUCED, log 88] -/
def Dev.reportOffset (s : Dev) (o : Int) : Dev :=
  { s.setFlag .TIM_STAT_LOCKED 0 (decide (-100 ≤ o ∧ o ≤ 100)) with tb := { s.tb with offset := o } }

/-- A received event message feeds the firmware servo, or the host's event ring (R345, R348). -/
def Dev.receiveEvent (s : Dev) (m : PtpMsg) (stamp : Nat) : Dev :=
  if !s.ptpPort m.port then s
  else if s.flag .TIM_CTL_HOSTSERVO then s.postEvent m stamp
  else
    match m.offset with
    | some o => s.reportOffset o
    | none => s

/-- PTP_MESSAGE (R345, R346): an event message on ETH_A or ETH_B is stamped and counted. -/
def Dev.ptpMessage (s : Dev) (m : PtpMsg) : Dev :=
  if 2 ≤ m.port ∨ 4 ≤ m.msgType ∨ !s.ethOn m.port ∨ !s.flag .ETH_STAT_LINK m.port then s
  else
    let stamp := unsgn 72 (s.stamp256 m.port m.tx)
    let s := s.useFree.count .ETH_PTP_CNT m.port
    if m.tx then
      s.pushStampTx { seqId := m.seqId, msgType := m.msgType, port := m.port, sgen := s.rd .TIM_STAT_SGEN,
                      time := wrap 40 (stamp / 256), frac := stamp % 256 }
    else s.receiveEvent m stamp

def execPtpMessage (msg : PtpMsg) (s : State) : Host.Outcome State Fault Refusal :=
  s.run (.ptpMessage msg) fun d => d.ptpMessage msg

/-- PTP_GENERAL_MESSAGE (R344, R349): a master that the best-master algorithm selects ends holdover. -/
def Dev.ptpGeneralMessage (s : Dev) (m : PtpMsg) (master : Option Nat) : Dev :=
  if !s.ptpPort m.port || !s.ethOn m.port || !s.flag .ETH_STAT_LINK m.port || m.tx then s
  else
    match master with
    | none => s
    | some p =>
      if s.ptpPort p then { s.setFlag .TIM_STAT_HOLD 0 false with tb := { s.tb with parent := some p } } else s

def execPtpGeneralMessage (msg : PtpMsg) (master : Option Nat) (s : State) : Host.Outcome State Fault Refusal :=
  s.run (.ptpGeneralMessage msg master) fun d => d.ptpGeneralMessage msg master

/-- TXQ_POP (R346). -/
def Dev.txqPop (s : Dev) (src : Source) : Dev :=
  if src ≠ s.servoOwner then s.ownerError else { s with tb := { s.tb with txq := s.tb.txq.drop 1 } }

def execTxqPop (source : Source) (s : State) : Host.Outcome State Fault Refusal :=
  s.run (.txqPop source) fun d => d.txqPop source

/-- ANNOUNCE_TIMEOUT (R349): holdover; the rate stays, and no offset is reported. [DEDUCED, log 88] -/
def Dev.announceTimeout (s : Dev) : Dev :=
  if s.tb.parent.isNone then s
  else
    { (s.setFlag .TIM_STAT_HOLD 0 true).setFlag .TIM_STAT_LOCKED 0 false with tb := { s.tb with parent := none } }

def execAnnounceTimeout (s : State) : Host.Outcome State Fault Refusal :=
  s.run .announceTimeout fun d => d.announceTimeout

/-- The servo changes hands; the rate stays in force (R348). -/
def Dev.handServo (s : Dev) (v : Bool) : Dev :=
  { s.setFlag .TIM_CTL_HOSTSERVO 0 v with svc := { s.svc with evtCount := 0 } }

/-- SERVO_HANDOVER (R348): a write of OD 0x6000:07. -/
def Dev.servoHandover (s : Dev) (port : Port) (v : Bool) : Dev :=
  if !mayWrite rwRRNo port then s.status stDenied else (s.handServo v).status stOk

def execServoHandover (port : Port) (value : Bool) (s : State) : Host.Outcome State Fault Refusal :=
  s.run (.servoHandover port value) fun d => d.served port 0x6000 7 fun d => d.servoHandover port value

/-! ### Time-triggered outputs (R350, R351) -/

/-- The enable of an output is refused (R350). [DEDUCED, log 89] -/
def Dev.ttoBad (s : Dev) (t : Nat) : Bool :=
  let w := s.rd .TIM_TTO_WIDTH t
  let p := s.rd .TIM_TTO_PERIOD t
  w == 0 || (p != 0 && decide (p ≤ w)) || decide ((2 ^ 39 : Int) ≤ sdiff (s.odNum (0x6200 + t) 2 0) s.fullNs)

/-- The output is enabled: its first edge is at START; edges that have passed are skipped (R351). [DEDUCED, log 89] -/
def Dev.startTto (s : Dev) (t : Nat) : Dev :=
  ((s.setFlag .TIM_TTO_CTL_EN t true).setTto t { s.tto t with next := some (s.odNum (0x6200 + t) 2 0) }).skipEdges t

/-- The output is disabled. -/
def Dev.stopTto (s : Dev) (t : Nat) : Dev := (s.setFlag .TIM_TTO_CTL_EN t false).setTto t {}

/-- TTO_ENABLE (R350): a write of 1 to OD 0x6200+t:01. -/
def Dev.ttoEnable (s : Dev) (port : Port) (t : Nat) : Dev :=
  if !mayWrite rwRwRR port then s.status stDenied
  else if s.ttoBad t then (s.setFlag .TIM_TTO_STAT_CFGERR t true).status stRange
  else (s.startTto t).status stOk

def execTtoEnable (port : Port) (t : Fin 8) (s : State) : Host.Outcome State Fault Refusal :=
  s.run (.ttoEnable port t) fun d => d.served port 0x6200 1 fun d => d.ttoEnable port t

/-- The output may be driven (R351). -/
def Dev.ttoOn (s : Dev) (t : Nat) : Bool := s.live && s.flag .TIM_TTO_CTL_EN t

/-- The pin of an output: active low with `POL`. -/
def Dev.ttoPin (s : Dev) (t : Nat) : Bool := ((s.tto t).active && s.ttoOn t) != s.flag .TIM_TTO_CTL_POL t

/-- Time passes until device time is at `e` ns. [DESIGN CHOICE, log 3] -/
def Dev.reachNs (s : Dev) (e : Nat) : Dev :=
  let gap := e * nsUnits - s.timeU
  s.advance ((gap + s.periodUnits - 1) / max 1 s.periodUnits)

/-- TTO_EDGE (R350, R351): device time reaches the next edge; the output is driven active, and a periodic one goes on. -/
def Dev.ttoEdge (s : Dev) (t : Nat) : Dev :=
  match (s.tto t).next with
  | none => s
  | some e =>
    if !s.ttoOn t then s
    else
      let p := s.rd .TIM_TTO_PERIOD t
      (s.reachNs e).setTto t { next := if p = 0 then none else some (e + p), active := true }

def execTtoEdge (t : Fin 8) (s : State) : Host.Outcome State Fault Refusal := s.run (.ttoEdge t) fun d => d.ttoEdge t

/-- TTO_WIDTH_EXPIRY (R350). -/
def Dev.ttoWidthExpiry (s : Dev) (t : Nat) : Dev := s.setTto t { s.tto t with active := false }

def execTtoWidthExpiry (t : Fin 8) (s : State) : Host.Outcome State Fault Refusal :=
  s.run (.ttoWidthExpiry t) fun d => d.ttoWidthExpiry t

end Sys2Proof.Machine
end

