-- ==== Sys2Proof/Machine/Herd.lean ====
section
/-! DEFINITION. Herds and the Zanyx link (R313 to R335): what the link does with every frame, ports that come up, sleep and go
down, and the meaning of each frame type. A worker's dictionary answers are in Machine/Service.lean. -/

namespace Sys2Proof.Machine

open Sys2Proof

/-! ### The link (R318 to R323, R333) -/

/-- The port works: enabled, and its domain runs (R395, R396). [DEDUCED, log 78] -/
def Dev.portOn (s : Dev) (p : Nat) : Bool := (s.live || s.power == .start) && s.flag .ZXL_CTL_EN p

/-- The frames that wait on a port are sent, the highest priority first (R319). -/
def Dev.flushPort (s : Dev) (p : Nat) : Dev :=
  let q := s.zport p
  (sortBy (fun (f : ZFrame) => (f.load.priority : Int)) q.waiting).foldl (fun (d : Dev) f => d.zSend p f)
    (s.setZport p { q with waiting := [] })

/-- A port comes up; its `UP` bit is set and what waits is sent. How many hops lead to the manager the spec leaves to the
link (R336). [DEDUCED, log 78] -/
def Dev.portUp (s : Dev) (p : Nat) : Dev :=
  let s := s.setFlag .ZXL_STAT_UP p true
  let s := if s.worker && p == s.upstream then (s.wr .HRD_HOPS 0 (s.freeValue 6)).useFree else s
  s.flushPort p

/-- The flags of a port that is down and in blind bring-up (R321). -/
def Dev.clearPort (s : Dev) (p : Nat) : Dev :=
  let s := ((s.setFlag .ZXL_STAT_UP p false).setFlag .ZXL_STAT_RXUP p false).setFlag .ZXL_STAT_LOCK p false
  ((s.setFlag .ZXL_STAT_PEERUP p false).setFlag .ZXL_STAT_TXSLEEP p false).setFlag .ZXL_STAT_RXSLEEP p false

/-- The routes that led over a port: in a ring they move to the other ring port, elsewhere they are lost (R333).
[DEDUCED, log 79] -/
def Dev.reroute (s : Dev) (p : Nat) (ring : Bool) : Dev :=
  let ms := if ring then s.herd.members.map fun (e : Nat × Member) => if e.2.port = p then (e.1, { e.2 with port := 1 - p }) else e
    else s.herd.members.filter fun e => e.2.port != p
  { s with herd := { s.herd with members := ms } }

/-- A port goes down (R321, R322, R333): its unacknowledged frames leave by the other ring port, or wait for the port to come up
again; a worker that loses its upstream port is no longer steered. -/
def Dev.portDown (s : Dev) (p : Nat) : Dev :=
  let q := s.zport p
  let up := s.upstream
  let ring := decide (s.rd .HRD_CTL_TOPO = 1 ∧ p < 2)
  let held := (q.replay.map fun e => e.2.2) ++ q.waiting.filter fun f => f.load.sequenced
  let s := ((s.clearPort p).setFlag .ZXL_STAT_DOWN p true).count .ZXL_DOWN_CNT p
  let s := (s.setZport p { waiting := if ring then [] else held }).reroute p ring
  let s := if ring then held.foldl (fun (d : Dev) f => d.zSend (1 - p) f) s else s
  if s.worker && p == up then
    (s.setFlag .HRD_STAT_TSYNC 0 false).setFlag .HRD_STAT_INSERV 0 (ring && s.flag .HRD_STAT_INSERV)
  else s

/-- Resend the first `n` frames of a port's replay buffer; one that has failed four replays takes the port down (R322).
[DEDUCED, log 79] -/
def Dev.replay (s : Dev) (p n : Nat) : Dev :=
  let q := s.zport p
  let again := q.replay.take n
  if again.any fun e => decide (4 ≤ e.2.1) then s.portDown p
  else
    let s := s.setZport p { q with replay := (again.map fun e => (e.1, e.2.1 + 1, e.2.2)) ++ q.replay.drop n }
    again.foldl (fun (d : Dev) e => (d.count .ZXL_REPLAY_CNT p).emit p e.1 e.2.2) s

/-- The frames up to an acknowledged one leave the replay buffer. -/
def ackReplay (l : List (Nat × Nat × ZFrame)) (ack : Nat) : List (Nat × Nat × ZFrame) :=
  match l.findIdx? fun e => e.1 == ack with
  | some i => l.drop (i + 1)
  | none => l

/-- An acknowledgement arrives on a port, with a NAK or without. [DEDUCED, log 79] -/
def Dev.takeAck (s : Dev) (p ack : Nat) (nak : Bool) : Dev :=
  let q := s.zport p
  let q := { q with replay := ackReplay q.replay ack }
  let s := s.setZport p q
  if nak then s.replay p q.replay.length else if s.flag .ZXL_STAT_UP p then s.flushPort p else s

/-- The peer's `RXUP` brings the port up, or takes it down (R321). [DEDUCED, log 78] -/
def Dev.takeRxup (s : Dev) (p : Nat) (rxup : Bool) : Dev :=
  let s := s.setFlag .ZXL_STAT_PEERUP p rxup
  if s.flag .ZXL_STAT_UP p then (if rxup then s else s.portDown p)
  else if rxup && s.flag .ZXL_STAT_RXUP p then s.portUp p
  else s

/-- What the header of every good frame does. -/
def Dev.header (s : Dev) (p : Nat) (h : ZHdr) : Dev :=
  let s := (s.setFlag .ZXL_STAT_RXSLEEP p false).takeRxup p h.rxup
  s.takeAck p h.ack h.nak

/-- The receiver asks for a resend, by an IDLE frame with NAK (R322). [DEDUCED, log 79] -/
def Dev.sendNak (s : Dev) (p : Nat) : Dev :=
  (s.setZport p { s.zport p with nak := true }).zSend p { src := s.memberNo, dst := 0, bc := false, load := .idle false }

/-- The sequence check (R322): the frame is next, and is acknowledged; or it is one that has arrived before; or frames are
missing before it. The Bool says whether the frame is taken. -/
def Dev.takeSeq (s : Dev) (p seq : Nat) : Dev × Bool :=
  let q := s.zport p
  let d := (seq + 4096 - q.rxSeq) % 4096
  if d = 1 then
    ((s.setZport p { q with rxSeq := seq }).zSend p { src := s.memberNo, dst := 0, bc := false, load := .idle false }, true)
  else if d = 0 ∨ 2048 ≤ d then (s, false)
  else (s.sendNak p, false)

/-- A frame that is not for this member, or is for every member, goes on (R319): toward its destination, or to every port but
the one it came by. -/
def Dev.forward (s : Dev) (p : Nat) (h : ZHdr) (l : ZPayload) : Dev :=
  let f : ZFrame := { src := h.src, dst := h.dst, bc := h.bc, load := l }
  if h.bc then s.zBroadcast (some p) f
  else
    match s.routeTo h.dst with
    | some r => if r = p then s else s.zSend r f
    | none => s

/-- A frame other than IDLE and TIME arrives on a port: only an up port takes it, a sequenced one in order; it is handled here, or
forwarded, or, broadcast, both. A frame that has come back to its sender is dropped. -/
def Dev.arrive (s : Dev) (p : Nat) (h : ZHdr) (l : ZPayload) (act : Dev → Dev) : Dev :=
  if !s.portOn p then s
  else
    let s := s.header p h
    if !s.flag .ZXL_STAT_UP p then s
    else
      let (s, good) := if l.sequenced then s.takeSeq p h.seq else (s, true)
      if !good || h.src == s.memberNo then s
      else if h.bc then act (s.forward p h l)
      else if h.dst = s.memberNo then act s
      else s.forward p h l

/-- ZANYX_LINK_UP (R321). -/
def Dev.zanyxLinkUp (s : Dev) (p : Nat) : Dev :=
  if !s.portOn p || s.flag .ZXL_STAT_RXUP p then s
  else
    let s := (s.setFlag .ZXL_STAT_LOCK p true).setFlag .ZXL_STAT_RXUP p true
    if s.flag .ZXL_STAT_PEERUP p then s.portUp p else s

def execZanyxLinkUp (port : Fin 4) (s : State) : Host.Outcome State Fault Refusal :=
  s.run (.zanyxLinkUp port) fun d => d.zanyxLinkUp port

/-- ZANYX_NAK (R322). -/
def Dev.zanyxNak (s : Dev) (p ack : Nat) : Dev := if s.flag .ZXL_STAT_UP p then s.takeAck p ack true else s

def execZanyxNak (port : Fin 4) (ack : Nat) (s : State) : Host.Outcome State Fault Refusal :=
  s.run (.zanyxNak port ack) fun d => d.zanyxNak port ack

/-- REPLAY_TIMEOUT (R322): the oldest unacknowledged frame is sent again. -/
def Dev.replayTimeout (s : Dev) (p : Nat) : Dev := if s.flag .ZXL_STAT_UP p then s.replay p 1 else s

def execReplayTimeout (port : Fin 4) (s : State) : Host.Outcome State Fault Refusal :=
  s.run (.replayTimeout port) fun d => d.replayTimeout port

/-- ZANYX_PORT_DOWN (R322, R323, R333). -/
def Dev.zanyxPortDown (s : Dev) (p : Nat) : Dev := if s.flag .ZXL_STAT_LOCK p then s.portDown p else s

def execZanyxPortDown (port : Fin 4) (s : State) : Host.Outcome State Fault Refusal :=
  s.run (.zanyxPortDown port) fun d => d.zanyxPortDown port

/-- The manager sends POS frames (R324). -/
def Dev.sendsPos (s : Dev) : Bool := s.manager && (s.power == .run || s.power == .ready)

/-- ZANYX_SLEEP (R323): not with `NOSLEEP`, nor while a frame waits, nor from a manager that sends POS frames. -/
def Dev.zanyxSleep (s : Dev) (p : Nat) : Dev :=
  if !s.flag .ZXL_STAT_UP p || s.flag .ZXL_CTL_NOSLEEP p || s.flag .ZXL_STAT_TXSLEEP p || s.sendsPos ||
      !(s.zport p).waiting.isEmpty then s
  else (s.emit p 0 { src := s.memberNo, dst := 0, bc := false, load := .idle true }).setFlag .ZXL_STAT_TXSLEEP p true

def execZanyxSleep (port : Fin 4) (s : State) : Host.Outcome State Fault Refusal :=
  s.run (.zanyxSleep port) fun d => d.zanyxSleep port

/-- ZANYX_WAKE (R323): a frame waits, and the direction sleeps no longer. -/
def Dev.zanyxWake (s : Dev) (p : Nat) : Dev :=
  if s.flag .ZXL_STAT_TXSLEEP p && !(s.zport p).waiting.isEmpty then
    (s.setFlag .ZXL_STAT_TXSLEEP p false).flushPort p
  else s

def execZanyxWake (port : Fin 4) (s : State) : Host.Outcome State Fault Refusal :=
  s.run (.zanyxWake port) fun d => d.zanyxWake port

/-- IDLE_FRAME (R319, R321, R323). -/
def Dev.idleFrame (s : Dev) (p : Nat) (h : ZHdr) (slp : Bool) : Dev :=
  if !s.portOn p then s
  else
    let s := s.header p h
    if slp && s.flag .ZXL_STAT_UP p then s.setFlag .ZXL_STAT_RXSLEEP p true else s

def execIdleFrame (port : Fin 4) (hdr : ZHdr) (slp : Bool) (s : State) : Host.Outcome State Fault Refusal :=
  s.run (.idleFrame port hdr slp) fun d => d.idleFrame port hdr slp

/-- ZANYX_BAD_FRAME (R318, R319, R322): a CRC failure is counted and answered with NAK, a type without a meaning is counted.
[DEDUCED, log 79] -/
def Dev.zanyxBadFrame (s : Dev) (p len : Nat) (crcOk : Bool) : Dev :=
  if !s.portOn p then s
  else if !crcOk || decide (16 < len) then
    let s := s.count .ZXL_CRC_CNT p
    if s.flag .ZXL_STAT_UP p then s.sendNak p else s
  else s.count .ZXL_BAD_CNT p

def execZanyxBadFrame (port : Fin 4) (typ len : Nat) (crcOk : Bool) (s : State) : Host.Outcome State Fault Refusal :=
  s.run (.zanyxBadFrame port typ len crcOk) fun d => d.zanyxBadFrame port len crcOk

/-! ### Position (R324, R326, R327) -/

/-- The POS frame of the manager as it stands. -/
def Dev.posFrame (s : Dev) (doze : Bool) : PosFrame :=
  { pos := s.lmPos, speed := s.rd .ENC_SPEED, time := s.ns40, accel := s.rd .ENC_ACCEL, bseq := s.herd.bseq
    flags := s.rd .ENC_MSTAT_DIR + 2 * s.rd .ENC_MSTAT_STOP + 4 * s.rd .ENC_MSTAT_SPDV + 8 * doze.toNat +
      16 * s.rd .ENC_STAT_FLTOPEN s.master }

/-- The manager sends a POS frame with the next `BSEQ`. -/
def Dev.sendPos (s : Dev) (doze : Bool) : Dev :=
  let f := s.posFrame doze
  { s with herd := { s.herd with bseq := wrap 16 (s.herd.bseq + 1) } }.toAll (.pos f)

/-- POS_SEND (R324). -/
def Dev.posSend (s : Dev) : Dev := if s.sendsPos then s.sendPos false else s

def execPosSend (s : State) : Host.Outcome State Fault Refusal := s.run .posSend fun d => d.posSend

/-- A worker takes the line master's state from a POS frame. -/
def Dev.takeLine (s : Dev) (f : PosFrame) : Dev :=
  let rev := bit f.flags 0
  let turned := rev != s.reverse
  let s := ((s.setFlag .ENC_MSTAT_DIR 0 rev).setFlag .ENC_MSTAT_STOP 0 (bit f.flags 1)).setFlag .ENC_MSTAT_SPDV 0 (bit f.flags 2)
  let s := (s.wr .ENC_SPEED 0 f.speed).wr .ENC_ACCEL 0 f.accel
  if turned then (s.setFlag .ENC_MSTAT_DIRCHG 0 true).tally 0x0020 0xFF 0xFFFFFFFF s.lmPos rev.toNat else s

/-- The herd position follows a POS frame; it does not decrease while the line runs forward (R326). [DEDUCED, log 82] -/
def Dev.takePos (s : Dev) (f : PosFrame) : Dev :=
  let low := match s.herd.pos with
    | some _ => s.herdPos
    | none => f.pos
  let s := { s with herd := { s.herd with pos := some f, floor := low, dozing := false } }
  if bit f.flags 3 then { s with herd := { s.herd with floor := s.herdPos, dozing := true } } else s

/-- 16 good POS frames end the loss of position: the interval closes and the generators resume (R235, R327). -/
def Dev.posFound (s : Dev) : Dev :=
  if !s.flag .HRD_STAT_POSLOST then s
  else
    let n := s.herd.goodPos + 1
    let s := { s with herd := { s.herd with goodPos := n } }
    if n < 16 then s
    else ((s.setFlag .HRD_STAT_POSLOST 0 false).closeMark .position s.lmPos).resumeGenerators none

/-- A worker acts on a POS frame; the first after a DOZE brings the compare generators the hits they have passed (R47). -/
def Dev.followPos (s : Dev) (f : PosFrame) : Dev :=
  let woke := s.herd.dozing && !bit f.flags 3
  let s := ((s.takePos f).takeLine f).posFound
  if woke then s.issuePassed else s

/-- A `BSEQ` that this member has seen: the latest, or one before it (R324). [DEDUCED, log 82] -/
def Dev.seenPos (s : Dev) (bseq : Nat) : Bool :=
  match s.herd.seen with
  | some x => decide (32768 ≤ (bseq + 65536 - x) % 65536 ∨ bseq = x)
  | none => false

/-- A POS frame that is new to a worker is taken and forwarded (R324, R326). [DEDUCED, log 82] -/
def Dev.pos (s : Dev) (p : Nat) (h : ZHdr) (f : PosFrame) : Dev :=
  if s.worker && s.seenPos f.bseq then s.arrive p { h with bc := false, dst := s.memberNo } (.pos f) id
  else s.arrive p h (.pos f) fun d =>
    if d.worker then { d with herd := { d.herd with seen := some f.bseq } }.followPos f else d

def execPos (port : Fin 4) (hdr : ZHdr) (frame : PosFrame) (s : State) : Host.Outcome State Fault Refusal :=
  s.run (.pos port hdr frame) fun d => d.pos port hdr frame

/-- POSLOST (R234, R327): 4 µs without a good POS frame; they end a run of good ones, too. -/
def Dev.poslost (s : Dev) : Dev :=
  if !s.live || !s.worker || s.herd.dozing then s
  else if s.flag .HRD_STAT_POSLOST then { s with herd := { s.herd with goodPos := 0 } }
  else
    let s := (s.setFlag .HRD_STAT_POSLOST 0 true).count .HRD_POSLOST_CNT
    let s := { s with herd := { s.herd with goodPos := 0, seen := none } }
    let a := moveBy s.lmPos (-(cts (s.rd .ENC_GUARD s.master) : Nat))
    (s.stopGenerators none).openMark { source := .position, start := a, fin := none, lanes := allLanes, code := 0xE0 }

def execPoslost (s : State) : Host.Outcome State Fault Refusal := s.run .poslost fun d => d.poslost

/-! ### Time (R325) -/

/-- TIME_SEND (R325): on every up port, device time and the echo of the latest TIME received there. -/
def Dev.timeSend (s : Dev) : Dev :=
  (rangeFrom 0 4).foldl (fun (d : Dev) p =>
    if d.portOn p && d.flag .ZXL_STAT_UP p then
      d.zSend p { src := d.memberNo, dst := 0, bc := false, load := .time d.ns40 (d.zport p).echo }
    else d) s

def execTimeSend (s : State) : Host.Outcome State Fault Refusal := s.run .timeSend fun d => d.timeSend

/-- Units of `Dev.timeU` in 0.25 ns. -/
def quarterNs : Nat := 512000000000

/-- A worker takes a measured offset as a step: the first since its device time was reset, or one above the threshold (R349). -/
def Dev.stepsBy (s : Dev) (error : Int) : Bool :=
  !s.flag .TIM_STAT_TSET || decide (4 * s.rd .TIM_STEPMAX < error.natAbs)

/-- Device time is steered by a measured offset: what remains of it is a free value within 2 ns (R325). An offset that comes from
a step is a step of the worker's own, which its threshold does not refuse (R349). -/
def Dev.steer (s : Dev) (error : Int) : Dev :=
  let rest : Int := (s.freeValue 32 % 17 : Nat) - (8 : Nat)
  let step := s.stepsBy error
  let s := (s.moveUnits ((rest - error) * (quarterNs : Nat))).useFree
  if step then s.acceptStep 0 else s

/-- The latest time error against upstream; one that its field cannot hold shows as a free value (R336). [DEDUCED, log 82] -/
def Dev.showError (s : Dev) (error : Int) : Dev :=
  if fitsS 16 error then s.wr .HRD_TERR 0 (unsgn 16 error) else (s.wr .HRD_TERR 0 (s.freeValue 16)).useFree

/-- TIME (R325): never forwarded; a worker follows the frames of its upstream neighbour. -/
def Dev.timeFrame (s : Dev) (p : Nat) (h : ZHdr) (peer : Nat) (error : Int) : Dev :=
  if !s.portOn p then s
  else
    let s := s.header p h
    if !s.flag .ZXL_STAT_UP p then s
    else
      let q := s.zport p
      let s := s.setZport p { q with echo := peer, times := q.times + 1 }
      if s.worker && p == s.upstream then
        let s := (s.steer error).showError error
        if 16 ≤ q.times + 1 then s.setFlag .HRD_STAT_TSYNC 0 true else s
      else s

def execTime (port : Fin 4) (hdr : ZHdr) (peer echo : Nat) (error : Int) (s : State) :
    Host.Outcome State Fault Refusal :=
  s.run (.time port hdr peer echo error) fun d => d.timeFrame port hdr peer error

/-! ### Parts, verdicts, marks (R328, R329) -/

/-- The Separator window entry of a PART frame: the format of R268 with VERD 0xFF; while the part is open END is all ones and
its deadline, which R328 does not give, a free value. [DEDUCED, log 83] -/
def Dev.partEntry (s : Dev) (f : PartFrame) : List Byte :=
  let fin := if f.close then f.fin else 2 ^ 64 - 1
  let e := s.verdictEntry { id := f.partid, lane := f.lane, start := f.start, fin := some fin, slot := f.slot }
  if f.close then e else spliceBytes e 24 (leBytes (s.freeValue 64) 8)

/-- A worker writes a PART frame into its Separator window (R328). [DEDUCED, log 83] -/
def Dev.writePart (s : Dev) (f : PartFrame) : Dev :=
  if s.worker then (s.putBytes (sepBase + 0x200000 + 64 * (f.partid % 32768)) (s.partEntry f)).useFree else s

/-- PART (R328). -/
def Dev.partFrame (s : Dev) (p : Nat) (h : ZHdr) (f : PartFrame) : Dev := s.arrive p h (.part f) fun d => d.writePart f

def execPart (port : Fin 4) (hdr : ZHdr) (frame : PartFrame) (s : State) : Host.Outcome State Fault Refusal :=
  s.run (.part port hdr frame) fun d => d.partFrame port hdr frame

/-- The manager merges the records of a VERD frame, in order (R250, R329). -/
def Dev.takeVerd (s : Dev) (l : List VerdictRec) : Dev :=
  if s.manager then l.foldl (fun (d : Dev) r => d.takeRecord r) s else s

/-- VERD (R329). -/
def Dev.verd (s : Dev) (p : Nat) (h : ZHdr) (l : List VerdictRec) : Dev := s.arrive p h (.verd l) fun d => d.takeVerd l

def execVerd (port : Fin 4) (hdr : ZHdr) (records : List VerdictRec) (s : State) : Host.Outcome State Fault Refusal :=
  s.run (.verd port hdr records) fun d => d.verd port hdr records

/-- The manager applies a MARK frame of a member (R73, R192, R329): UNKNOWN_INPUT or a fault in work reaches the parts in flight and
stays for those that open later, until a frame with the same identifier closes it. [DEDUCED, log 83] -/
def Dev.takeMark (s : Dev) (src : Nat) (f : MarkFrame) : Dev :=
  let isOpen := f.fin == 2 ^ 64 - 1
  let src := MarkSource.remote src f.ident
  if !s.manager then s
  else if !(f.code = 0xE0 ∨ f.code = 0xE2) then s
  else if isOpen then s.openMark { source := src, start := f.start, fin := none, lanes := f.lanes, code := f.code }
  else if s.marks.any fun m => m.source == src && m.fin.isNone then s.closeMark src f.fin
  else s.openMark { source := src, start := f.start, fin := some f.fin, lanes := f.lanes, code := f.code }

/-- MARK (R329). -/
def Dev.markFrame (s : Dev) (p : Nat) (h : ZHdr) (f : MarkFrame) : Dev := s.arrive p h (.mark f) fun d => d.takeMark h.src f

def execMark (port : Fin 4) (hdr : ZHdr) (frame : MarkFrame) (s : State) : Host.Outcome State Fault Refusal :=
  s.run (.mark port hdr frame) fun d => d.markFrame port hdr frame

/-- The module's own presence kernel finds a lane occupied or free from a line's position on (R25, R26): a part opens or closes
here, or a worker reports the change to its manager (R328). [DESIGN CHOICE, log 31] -/
def Dev.ownPresence (s : Dev) (pos lane : Nat) (on : Bool) : Dev :=
  if !s.live || (s.detectInput lane).isSome then s
  else if !s.worker then s.presence lane pos on false
  else if (s.lane lane).present == on then s
  else (s.setLane lane { s.lane lane with present := on }).toManager (.pres pos lane on)

/-- The manager opens or closes a part on a worker's PRES frame, on a lane whose part source is the presence kernel (R25, R328). -/
def Dev.remotePresence (s : Dev) (pos lane : Nat) (on : Bool) : Dev :=
  if s.manager && (s.detectInput lane).isNone then s.presence lane pos on false else s

/-- PRES (R328): the manager opens or closes a part. With the module's own number as its source the row is no frame of the link
but the report of the module's own presence kernel. [DESIGN CHOICE, log 31] -/
def Dev.presFrame (s : Dev) (p : Nat) (h : ZHdr) (pos lane : Nat) (on : Bool) : Dev :=
  if h.src = s.memberNo then s.ownPresence pos lane on
  else s.arrive p h (.pres pos lane on) fun d => d.remotePresence pos lane on

def execPres (port : Fin 4) (hdr : ZHdr) (pos : Nat) (lane : Fin 64) (present : Bool) (s : State) :
    Host.Outcome State Fault Refusal :=
  s.run (.pres port hdr pos lane present) fun d => d.presFrame port hdr pos lane present

/-! ### BULK (R170, R320) -/

/-- A block of 128 bytes lies within the bulk window (R320). -/
def Dev.inBulk (s : Dev) (dpa : Nat) : Bool :=
  let base := s.rd .HRD_BULK_BASE_ADDR * 4096
  decide (base ≤ dpa ∧ dpa + 128 ≤ base + s.rd .HRD_BULK_SIZE_MIB * 0x100000)

/-- A BULK write lands, and signals; outside the window it is discarded and counted (R320). -/
def Dev.takeBulk (s : Dev) (p dpa sc : Nat) (sig : Bool) (block : List Byte) : Dev :=
  if !s.inBulk dpa then s.count .ZXL_BAD_CNT p
  else
    let s := if s.reachable none (false, dpa, 128) then s.putBytes dpa block else s
    if sig then s.scAdd sc 1 else s

/-- BULK (R320). -/
def Dev.bulkFrame (s : Dev) (p : Nat) (h : ZHdr) (dpa sc : Nat) (sig : Bool) (block : List Byte) : Dev :=
  s.arrive p h (.bulk dpa sc sig block) fun d => d.takeBulk p dpa sc sig block

def execBulk (port : Fin 4) (hdr : ZHdr) (dpa sc : Nat) (sig : Bool) (block : List Byte) (s : State) :
    Host.Outcome State Fault Refusal :=
  s.run (.bulk port hdr dpa sc sig block) fun d => d.bulkFrame port hdr dpa sc sig block

/-! ### Members (R314, R331, R334) -/

/-- Member `m` is in service. -/
def Dev.inService (s : Dev) (m : Nat) : Bool := bit (s.rd .HRD_INSERV) m

/-- What a member knows of another from its HELLO: the port, and the slots. -/
def Dev.noteMember (s : Dev) (m p : Nat) (slots : List Nat) : Dev :=
  { s with herd := { s.herd with members := tabPut s.herd.members m { port := p, slots := slots } } }

/-- The manager may enrol the module that a HELLO describes (R314). [DEDUCED, log 80] -/
def Dev.admissible (s : Dev) (f : HelloFrame) : Bool :=
  s.odNum (0x8100 + f.member) 2 0 == 1 && decide (f.member ≠ 0) && f.role == 2 && !s.inService f.member

/-- A HELLO comes from the member in service under its number: by the same port, or in a ring by either. [DEDUCED, log 80] -/
def Dev.knownMember (s : Dev) (p : Nat) (f : HelloFrame) : Bool :=
  s.inService f.member && f.role == 2 && (match tabFind? s.herd.members f.member with
    | some e => e.port == p || s.rd .HRD_CTL_TOPO == 1
    | none => true)

/-- An admitted worker receives the switch state in force (R331). -/
def Dev.tellSwitch (s : Dev) (m : Nat) : Dev :=
  let send (d : Dev) (k pos : Nat) : Dev :=
    match d.routeTo m with
    | some r => d.zSend r { src := 0, dst := m, bc := false, load := .switch k pos }
    | none => d
  let s := match s.slotNow with
    | some k => send s k s.slotFrom
    | none => s
  match s.slotNext with
  | some (k, pos) => send s k pos
  | none => s

/-- The manager admits a worker; the marking of R334 ends. -/
def Dev.enrol (s : Dev) (m : Nat) : Dev :=
  ((s.orBits .HRD_INSERV 0 (oneBit m)).closeMark (.member m) s.lmPos).tellSwitch m

/-- The manager takes a HELLO: of a member in service, of a worker that it may enrol, or of a module that it does not admit (R314).
[DEDUCED, log 80] -/
def Dev.takeHello (s : Dev) (p : Nat) (f : HelloFrame) : Dev :=
  if !s.manager then s
  else if s.knownMember p f then s.noteMember f.member p f.slots
  else if s.admissible f then (s.noteMember f.member p f.slots).enrol f.member
  else (s.setFlag .HRD_STAT_CFGERR 0 true).tally 0x0080 f.member

/-- HELLO (R314, R317, R319): a worker on the way learns the route and forwards the frame. -/
def Dev.hello (s : Dev) (p : Nat) (h : ZHdr) (f : HelloFrame) : Dev :=
  let s := if s.worker && s.portOn p && s.flag .ZXL_STAT_UP p && h.src != s.memberNo then s.noteMember h.src p f.slots else s
  s.arrive p h (.hello f) fun d => d.takeHello p f

def execHello (port : Fin 4) (hdr : ZHdr) (frame : HelloFrame) (s : State) : Host.Outcome State Fault Refusal :=
  s.run (.hello port hdr frame) fun d => d.hello port hdr frame

/-- HELLO_SEND (R319). -/
def Dev.helloSend (s : Dev) : Dev :=
  if s.worker && s.live then
    s.toManager (.hello { member := s.memberNo, role := 2, tsync := s.flag .HRD_STAT_TSYNC
                          slots := (rangeFrom 0 8).map fun k => (s.slot k).st })
  else s

def execHelloSend (s : State) : Host.Outcome State Fault Refusal := s.run .helloSend fun d => d.helloSend

/-- A worker applies a switch of the manager to a slot that it has loaded (R39, R40, R331); a repeat changes nothing.
[DEDUCED, log 81] -/
def Dev.takeSwitchFrame (s : Dev) (k pos : Nat) : Dev :=
  if !s.worker then s
  else
    let s := s.setFlag .HRD_STAT_INSERV 0 true
    if (s.slotNow = some k ∧ s.slotFrom = pos) ∨ s.slotNext = some (k, pos) ∨ (s.slot k).st < 2 then s
    else s.commandSwitch k pos

/-- SWITCH (R331). [DEDUCED, log 81] -/
def Dev.switchFrame (s : Dev) (p : Nat) (h : ZHdr) (k pos : Nat) : Dev :=
  s.arrive p h (.switch k pos) fun d => d.takeSwitchFrame k pos

def execSwitch (port : Fin 4) (hdr : ZHdr) (slot pos : Nat) (s : State) : Host.Outcome State Fault Refusal :=
  s.run (.switch port hdr slot pos) fun d => d.switchFrame port hdr slot pos

/-- The lanes that a member images (R316). -/
def Dev.lanesOfMember (s : Dev) (m : Nat) : Nat := s.odNum (0x8100 + m) 1 0

/-- WORKER_LOST (R334): parts whose deadline is still to come receive UNKNOWN_INPUT, and so do those that open until the worker
is admitted again. -/
def Dev.workerLost (s : Dev) (m : Nat) : Dev :=
  if !s.manager || !s.inService m then s
  else
    let lanes := s.lanesOfMember m
    let mark : Mark := { source := .member m, start := s.lmPos, fin := none, lanes := lanes, code := 0xE0 }
    let s := (s.wr .HRD_INSERV 0 (clearBits (s.rd .HRD_INSERV) (oneBit m))).setFlag .HRD_STAT_MLOST 0 true
    let s := (s.count .HRD_LOST_CNT).tally 0x0081 m 0xFFFFFFFF s.lmPos
    let now := s
    { s with
      marks := mark :: s.marks
      parts := s.parts.map fun p => if bit lanes p.lane && !now.pastDeadline p then p.take 0xE0 else p }

def execWorkerLost (member : Fin 64) (s : State) : Host.Outcome State Fault Refusal :=
  s.run (.workerLost member) fun d => d.workerLost member

end Sys2Proof.Machine
end

