-- ==== Sys2Proof/Machine/Maintenance.lean ====
section
/-! DEFINITION. The maintenance sequencer of Milkhouse (R418, R419). -/

namespace Sys2Proof.Machine

open Sys2Proof

/-- The place of an activity in the order of R419. -/
def activityNo : Activity → Nat
  | .T => 0 | .O => 1 | .F => 2 | .L => 3 | .D => 4 | .C => 5 | .X => 6 | .S => 7

/-- The activities in the order of R419. -/
def activities : List Activity := [.T, .O, .F, .L, .D, .C, .X, .S]

/-- The status of an activity: 0 IDLE, 1 QUEUED, 2 RUNNING, 3 FAILED. -/
def Dev.mntSt (s : Dev) (a : Activity) : Nat := s.rd .MLK_MNT_ST (activityNo a)

/-- Set the status of an activity. -/
def Dev.setMnt (s : Dev) (a : Activity) (st : Nat) : Dev := s.wr .MLK_MNT_ST (activityNo a) st

/-- The activities that an activity may not overlap: the Q cells of R419. [DEDUCED, log 120] -/
def conflicts : Activity → List Activity
  | .O => [.F]
  | .F => [.O]
  | .L => [.C]
  | .D => [.C]
  | .C => [.L, .D]
  | _ => []

/-- The power state lets an activity run: only T, O, F and C run in Recovery and Standby (R419). -/
def Dev.mntPower (s : Dev) (a : Activity) : Bool :=
  s.firmware && ((s.power != .recovery && s.power != .standby) || a == .T || a == .O || a == .F || a == .C)

/-- An activity may start now; in fixed-schedule mode none does (R219). [DEDUCED, log 120] -/
def Dev.mayStart (s : Dev) (a : Activity) : Bool :=
  s.mntPower a && !s.flag .GLB_MODE_FIXED && (conflicts a).all fun b => s.mntSt b != 2

/-- A request: an activity that runs or is queued is joined, else it starts or is queued (R419). -/
def Dev.requestMnt (s : Dev) (a : Activity) : Dev :=
  if s.mntSt a = 1 ∨ s.mntSt a = 2 then s else s.setMnt a (if s.mayStart a then 2 else 1)

/-- The queued activities that may start now start, in the order of R419. [DEDUCED, log 120] -/
def Dev.startQueued (s : Dev) : Dev :=
  activities.foldl (fun (d : Dev) a => if d.mntSt a = 1 && d.mayStart a then d.setMnt a 2 else d) s

/-- An activity ends, by itself or failed; the queued ones that conflicted with it start. [DEDUCED, log 120] -/
def Dev.endMnt (s : Dev) (a : Activity) (failed : Bool) : Dev :=
  let s := s.countMod .MLK_MNT_ST_RUNS (activityNo a)
  (s.setMnt a (if failed then 3 else 0)).startQueued

end Sys2Proof.Machine
end

