-- ==== Sys2Proof/Machine/Jobs.lean ====
section
/-! DEFINITION. The commands of jobs, the scheduler and the sync counters (R126 to R129, R183 to R209, R219). -/

namespace Sys2Proof.Machine

open Sys2Proof

/-! ### Queues and admission (R183 to R189) -/

/-- QUEUE_TAIL_WRITE (R188, R210): queues 0 to 7 are the host's, queue 8 is firmware's. [DEDUCED, log 54 and 55] -/
def Dev.queueTailWrite (s : Dev) (source : Source) (q tail : Nat) : Dev :=
  if (source == .host) == decide (q < 8) then s.wr .JOB_Q_TAIL q tail else s.ownerError

def execQueueTailWrite (source : Source) (queue : Fin 9) (tail : Nat) (s : State) : Host.Outcome State Fault Refusal :=
  s.run (.queueTailWrite source queue tail) fun d => d.queueTailWrite source queue tail

/-- The refusal code of a descriptor, 0 for none (R183, R186). [DEDUCED, log 53] -/
def Dev.descriptorCode (s : Dev) (d : List Byte) : Nat :=
  let f := leAt d 4 1
  let inspection := !bit f 0
  let lanes := leAt d 40 8
  let slot := (s.slot (leAt d 6 1)).st
  leastCode
    [ (leAt d 0 4 == 0xFFFFFFFF || bits f 3 5 != 0 || bits (leAt d 5 1) 4 4 != 0 || leAt d 7 1 != 0 || bit (leAt d 18 2) 14 ||
        leAt d 36 4 != 0 || leAt d 48 16 != 0, 1),
      (leAt d 16 2 == 0 || decide (4096 < leAt d 16 2) || leAt d 8 8 % 32 != 0, 2),
      (leAt d 20 4 == 0 && !bit f 1, 3),
      (inspection && (leAt d 32 4 == 0 || lanes == 0 || decide (2 ^ s.laneCount ≤ lanes)), 4),
      (inspection && !(slot == 2 || slot == 3), 5) ]

/-- The command that 32 bytes spell (R184); none where no operation has the code. -/
def commandOf (b : List Byte) : Option Command :=
  let sc := leAt b 4 2
  match leAt b 0 1 with
  | 1 => some (.layer (leAt b 4 2) (leAt b 8 8) (leAt b 16 8) (leAt b 28 4))
  | 2 => some (.kernel (leAt b 2 1) (leAt b 3 1) (leAt b 4 2) (leAt b 8 8) (leAt b 16 8) (leAt b 24 5) (leAt b 29 3))
  | 3 => some (.wait sc (leAt b 8 8) (leAt b 16 8))
  | 4 => some (.signal sc (leAt b 8 8))
  | 5 => some (.scReset sc)
  | 6 => some (.span (leAt b 8 8) (leAt b 16 8) (leAt b 24 4))
  | 7 => some (.vcommit (leAt b 8 8) (leAt b 16 2))
  | _ => none

/-- The refusal code of a command by itself, 0 for none (R184 to R186). -/
def commandCode (teach : Bool) (b : List Byte) : Nat :=
  let reserved := if leAt b 0 1 = 2 then leAt b 1 1 != 0 else leAt b 1 3 != 0
  match commandOf b with
  | none => leastCode [(reserved, 1), (true, 6)]
  | some (.layer p code args _) =>
    leastCode [(reserved, 1), (code % 128 != 0 || args % 128 != 0, 2), (!inRange 1 1024 p, 7)]
  | some (.kernel r g p code args n _) =>
    leastCode [(reserved, 1), (code % 128 != 0 || args % 128 != 0, 2), (!inRange 1 1024 p, 7),
      (!inRange 1 (2 ^ 32) n || !inRange 1 32 r || !inRange 1 16 g, 8)]
  | some (.wait k _ _) => leastCode [(reserved, 1), (decide (16383 < k), 10)]
  | some (.signal k a) => leastCode [(reserved, 1), (decide (16383 < k) || a == 0, 10)]
  | some (.scReset k) => leastCode [(reserved, 1), (decide (16383 < k), 10)]
  | some (.span _ _ _) => leastCode [(reserved, 1)]
  | some (.vcommit _ n) => leastCode [(reserved, 1), (!inRange 1 256 n, 11), (teach, 14)]

/-- The first window error among `n` descriptors of `w` bytes from an address on, and whether a translation fault keeps one from being
read. -/
def Dev.firstError (s : Dev) (asid w : Nat) (err : Nat → List Byte → Nat) : Nat → Nat → Nat → Nat × Bool
  | 0, _, _ => (0, false)
  | n + 1, k, va =>
    let rest := s.firstError asid w err n (k + 1) (va + w)
    match s.vread none asid va w with
    | .ok b => (if err k b ≠ 0 then err k b else rest.1, rest.2)
    | _ => (rest.1, true)

/-- The map descriptors of an argument block that can be read, by place. -/
def Dev.mapAt (s : Dev) (asid args k : Nat) : MapDesc :=
  match s.vread none asid (args + 128 + 64 * k) 64 with
  | .ok b => mapOf b
  | _ => mapOf []

/-- The window error of window `k` of an argument block: of the descriptor by itself, or over the maps that the program joins to it. -/
def Dev.windowError (s : Dev) (asid args nmap k : Nat) (b : List Byte) : Nat :=
  let u := Config.windowUse s.free k
  if nmap = 0 then winError (winOf b)
  else windowCode (s.mapAt asid args (u.src % nmap)) (s.mapAt asid args (u.dst % nmap)) (winOf b)
    { y0 := u.y0, y1 := u.y1, x0 := u.x0, x1 := u.x1, c0 := u.c0, c1 := u.c1 }

/-- The refusal code, the lowest of those that apply, and the window error of an argument block (R185, R186).
[DEDUCED, log 53] -/
def Dev.argumentCode (s : Dev) (asid args : Nat) : Nat × Nat :=
  match s.vread none asid args 128 with
  | .ok h =>
    let nmap := leAt h 0 2
    let nwin := leAt h 2 2
    let n := leAt h 4 4
    let free := args + 128 + 64 * nmap + 32 * nwin
    let maps := s.firstError asid 64 (fun _ b => mapError (mapOf b)) nmap 0 (args + 128)
    let wins := s.firstError asid 32 (s.windowError asid args nmap) nwin 0 (args + 128 + 64 * nmap)
    let e := if maps.1 ≠ 0 then maps.1 else wins.1
    let lost := match s.vread none asid free (min n 65535) with
      | .ok _ => false
      | _ => true
    let code := leastCode [(decide (65535 < n) || leAt h 8 120 != 0, 1), (e != 0, 9), (decide (64 < nmap) || decide (16 < nwin), 12),
      (maps.2 || wins.2 || lost, 13)]
    (code, if code = 9 then e else 0)
  | _ => (13, 0)

/-- `ARGS` of a command (R184). -/
def Command.args? : Command → Option Nat
  | .layer _ _ a _ => some a
  | .kernel _ _ _ _ a _ _ => some a
  | _ => none

/-- The refusal code and window error of a command together with its argument block: the lowest of its codes.
[DEDUCED, log 53] -/
def Dev.itemCode (s : Dev) (teach : Bool) (asid : Nat) (b : List Byte) : Nat × Nat :=
  let own := commandCode teach b
  let arg := match (commandOf b).bind Command.args? with
    | some args => if args % 128 = 0 then s.argumentCode asid args else (0, 0)
    | none => (0, 0)
  if own ≠ 0 ∧ (arg.1 = 0 ∨ own < arg.1) then (own, 0) else arg

/-- The outcome of the check of a command list (R186): its commands, or the place, code and window error of the first that
fails. -/
def Dev.readCommands (s : Dev) (teach : Bool) (asid : Nat) : Nat → Nat → Nat → Except (Nat × Nat × Nat) (List Command)
  | 0, _, _ => .ok []
  | n + 1, i, va =>
    match s.vread none asid va 32 with
    | .ok b =>
      let e := s.itemCode teach asid b
      if e.1 ≠ 0 then .error (i, e.1, e.2)
      else match commandOf b, s.readCommands teach asid n (i + 1) (va + 32) with
        | some c, .ok l => .ok (c :: l)
        | none, _ => .error (i, 6, 0)
        | _, .error e => .error e
    | _ => .error (i, 13, 0)

/-- The job of a descriptor. -/
def Dev.jobOf (s : Dev) (q : Nat) (d : List Byte) (cmds : List Command) : Job :=
  let f := leAt d 4 1
  let csc := leAt d 18 2
  { seq := s.jobSeq + 1, id := leAt d 0 4, queue := q, teach := bit f 0, continuous := bit f 1, iterRec := bit f 2,
    asid := bits (leAt d 5 1) 0 4, slot := leAt d 6 1, csc := if bit csc 15 then some (bits csc 0 14) else none,
    iters := leAt d 20 4, seed := leAt d 24 8, est := leAt d 32 4, lanes := leAt d 40 8, cmds := cmds, sampledAt := s.xclk }

/-- A job is refused: none of its commands runs (R186). -/
def Dev.refuseJob (s : Dev) (q id cmdidx rcode wcode : Nat) : Dev :=
  ((s.countOd 0x3030 8 32).traceAdmit 2 id).writeRecord q (completionBytes id 0 1 q cmdidx 0 wcode rcode 0xFF 0 0 0 0)

/-- The scheduler has read the argument block of a command. -/
def Dev.touchArgs (s : Dev) (asid : Nat) (c : Command) : Dev :=
  match c.args? with
  | none => s
  | some a => match s.vread none asid a 128 with
    | .ok h => s.touch none asid 0 a (128 + 64 * leAt h 0 2 + 32 * leAt h 2 2 + min (leAt h 4 4) 65535)
    | _ => s

/-- A descriptor is checked with its commands and argument blocks, and its job enters the job table or is refused. -/
def Dev.takeDescriptor (s : Dev) (q asid va : Nat) : Dev :=
  match s.vread none asid va 64 with
  | .ok d =>
    let code := s.descriptorCode d
    if code ≠ 0 then s.refuseJob q (leAt d 0 4) 0xFFFF code 0
    else
      let asid' := bits (leAt d 5 1) 0 4
      let read := s.readCommands (bit (leAt d 4 1) 0) asid' (leAt d 16 2) 0 (leAt d 8 8)
      let s := ((s.touch none asid 0 va 64).touch none asid' 0 (leAt d 8 8) (32 * leAt d 16 2)).useFree
      match read with
      | .error (i, c, w) => s.refuseJob q (leAt d 0 4) i c w
      | .ok cmds =>
        let s := cmds.foldl (fun (d : Dev) c => d.touchArgs asid' c) s
        { s with jobs := s.jobs ++ [s.jobOf q d cmds], jobSeq := s.jobSeq + 1 }.traceAdmit 1 (leAt d 0 4)
  | _ => (s.refuseJob q (s.freeValue 32) 0xFFFF 13 0).useFree

/-- A queue holds an entry that the scheduler may take. -/
def Dev.queueReady (s : Dev) (q : Nat) : Bool :=
  (q == 8 && !s.posted.isEmpty) || (s.flag .JOB_Q_CTL_EN q && s.rd .JOB_Q_HEAD q != s.rd .JOB_Q_TAIL q)

/-- The queue to serve: in turn, after the one served last; in fixed-schedule mode queue 0 alone (R188, R200). -/
def Dev.nextQueue (s : Dev) : Option Nat :=
  let order := if s.flag .GLB_MODE_FIXED then [0] else (upTo 9).map fun i => (s.lastQueue + 1 + i) % 9
  order.find? fun q => s.queueReady q

/-- The entry at HEAD of a queue is taken; standing jobs that firmware has posted come first on queue 8 (R189). -/
def Dev.takeEntry (s : Dev) (q : Nat) : Dev :=
  let asid := s.rd .JOB_Q_CTL_ASID q
  let head := s.rd .JOB_Q_HEAD q
  let s := { s.countMod .JOB_Q_HEAD q with lastQueue := q }
  match q == 8, s.posted with
  | true, (va, _) :: rest => { s with posted := rest }.takeDescriptor q asid va
  | _, _ =>
    let place := s.rd .JOB_Q_BASE_ADDR q * 8 + 8 * (head % 2 ^ s.rd .JOB_Q_CTL_LOG2 q)
    match s.vread none asid place 8 with
    | .ok e => (s.touch none asid 0 place 8).takeDescriptor q asid (ofLe e)
    | _ => (s.refuseJob q (s.freeValue 32) 0xFFFF 13 0).useFree

/-- JOB_ADMIT (R188): one entry, while the job table has room. -/
def Dev.jobAdmit (s : Dev) : Dev :=
  if !s.live || s.fixing || decide (256 ≤ s.jobs.length) then s
  else match s.nextQueue with
    | some q => s.takeEntry q
    | none => s

def execJobAdmit (s : State) : Host.Outcome State Fault Refusal := s.run .jobAdmit fun d => d.jobAdmit

/-! ### Commands of the scheduler (R184, R192, R201) -/

/-- SIGNAL: the job goes on once the counter is signalled. -/
def Dev.signalCmd (s : Dev) (id : Nat) : Dev :=
  match s.jobById id with
  | none => s
  | some j => match j.cmd? with
    | some (.signal k a) => (s.scAdd k a).updJob j.seq Job.next
    | _ => s

def execSignal (job : Nat) (s : State) : Host.Outcome State Fault Refusal := s.run (.signal job) fun d => d.signalCmd job

/-- SCRESET. -/
def Dev.scResetCmd (s : Dev) (id : Nat) : Dev :=
  match s.jobById id with
  | none => s
  | some j => match j.cmd? with
    | some (.scReset k) => (s.scZero k).updJob j.seq Job.next
    | _ => s

def execScReset (job : Nat) (s : State) : Host.Outcome State Fault Refusal := s.run (.scReset job) fun d => d.scResetCmd job

/-- A WAIT ends once its counter is at least BASE + i × STEP modulo 2^64, compared unsigned; until then the job is held. -/
def Dev.waitCmd (s : Dev) (id : Nat) : Dev :=
  match s.jobById id with
  | none => s
  | some j => match j.cmd? with
    | some (.wait k base step) =>
      if waitTarget base step j.iter ≤ s.sc k then s.updJob j.seq Job.next
      else s.updJob j.seq fun j => { j with begun := true }
    | _ => s

def execWait (job : Nat) (s : State) : Host.Outcome State Fault Refusal := s.run (.wait job) fun d => d.waitCmd job

/-- WAIT_SATISFIED (R201): a job that has begun to wait goes on. -/
def Dev.waitSatisfied (s : Dev) (id : Nat) : Dev :=
  match s.jobById id with
  | none => s
  | some j => match j.cmd? with
    | some (.wait k base step) =>
      if j.begun ∧ waitTarget base step j.iter ≤ s.sc k then s.updJob j.seq Job.next else s
    | _ => s

def execWaitSatisfied (job : Nat) (s : State) : Host.Outcome State Fault Refusal :=
  s.run (.waitSatisfied job) fun d => d.waitSatisfied job

/-- A span is fixed (R192): the deadline key, and a fault that was held. [DEDUCED, log 57] -/
def Dev.fixSpan (s : Dev) (j : Job) (a b dofs : Nat) : Dev :=
  let s := s.updJob j.seq fun j =>
    { j with span := some (a, b, dofs), key := some (s.keyOf b dofs), ran := 0, sampledAt := s.xclk, heldFault := false }
  if j.heldFault then s.reportFault j.lanes a b else s

/-- SPAN: START and END are read; a teach job's fix no span. Positions that cannot be read end the job with FAULT.
[DEDUCED, log 57] -/
def Dev.spanCmd (s : Dev) (id : Nat) : Dev :=
  match s.jobById id with
  | none => s
  | some j => match j.cmd? with
    | some (.span a b dofs) =>
      (match s.vread none j.asid a 8, s.vread none j.asid b 8 with
      | .ok x, .ok y =>
        let s := (s.touch none j.asid 0 a 8).touch none j.asid 0 b 8
        let s := if j.teach then s else s.fixSpan j (ofLe x) (ofLe y) dofs
        (s.useFree).updJob j.seq Job.next
      | _, _ => s.endJob j.seq 4 j.pc 0 0xFF)
    | _ => s

def execSpan (job : Nat) (s : State) : Host.Outcome State Fault Refusal := s.run (.span job) fun d => d.spanCmd job

/-! ### Commands that run on Churns (R125 to R127, R184, R190, R249) -/

/-- The pieces of a command become ready; the partial sums of an earlier layer are of no further use to another. -/
def Job.start (j : Job) (n : Nat) : Job :=
  let layer := match j.cmd? with
    | some c => c.kind == 1
    | none => false
  { j with begun := true, started := true, pieces := (upTo n).map fun i => { index := i, st := .ready }
           partials := if layer then [] else j.partials }

/-- A context that runs its command to the end leaves its Churn. [DEDUCED, log 56] -/
def Dev.finishPieces (s : Dev) (j : Job) : Dev :=
  j.pieces.zipIdx.foldl (fun (d : Dev) e => match e.1.st with
    | .running n =>
      (match d.resident n with
      | some r => if r.saving.isSome || r.restoring.isSome then d else (d.vacate n).setPiece j.seq e.2 .done
      | none => d)
    | _ => d) s

/-- A layer that a takeover has divided has been combined in fast mode (R218, R225). -/
def Dev.noteSplit (s : Dev) (j : Job) : Dev :=
  if j.split ∧ j.repro ≠ some true then
    ((s.setFlag .GLB_DET_STAT_SPLIT 0 true).countOd 0x3001 2 64).updJob j.seq fun j => { j with split := false }
  else s

/-- The contexts of the present command end; when every piece is done the job goes on. -/
def Dev.completeCmd (s : Dev) (j : Job) : Dev :=
  let s := s.finishPieces j
  match s.job? j.seq with
  | some j => if j.pieces.all fun p => p.st == .done then (s.noteSplit j).updJob j.seq Job.next else s
  | none => s

/-- A command of some pieces: its pieces become ready, and later those that run end. [DEDUCED, log 56] -/
def Dev.pieceCmd (s : Dev) (j : Job) (n : Nat) : Dev :=
  if j.started then s.completeCmd j else s.updJob j.seq fun j => j.start n

/-- LAYER (R184). [DEDUCED, log 56] -/
def Dev.layerCmd (s : Dev) (id : Nat) : Dev :=
  match s.jobById id with
  | none => s
  | some j => match j.cmd? with
    | some (.layer n _ _ _) => s.pieceCmd j n
    | _ => s

def execLayer (job : Nat) (s : State) : Host.Outcome State Fault Refusal := s.run (.layer job) fun d => d.layerCmd job

/-- KERNEL (R184). [DEDUCED, log 56] -/
def Dev.kernelCmd (s : Dev) (id : Nat) : Dev :=
  match s.jobById id with
  | none => s
  | some j => match j.cmd? with
    | some (.kernel _ _ n _ _ _ _) => s.pieceCmd j n
    | _ => s

def execKernel (job : Nat) (s : State) : Host.Outcome State Fault Refusal := s.run (.kernel job) fun d => d.kernelCmd job

/-- A job ends at once: its contexts are discarded, its saves released, and a fault is reported for its span (R190). -/
def Dev.abortNow (s : Dev) (seq : Nat) : Dev := (s.jobFault seq).endJob seq 3 0xFFFF 0 0xFF

/-- A slice that ended inside a VCOMMIT shortens the job's next slice by the wait (R195). [DEDUCED, log 59] -/
def Dev.noteWait (s : Dev) (r : Resident) : Dev :=
  match r.overAt with
  | some t => s.updJob r.job fun j => { j with shorten := s.xclk - t }
  | none => s

/-- The Churn on which a piece runs. -/
def Job.churnOf (j : Job) (i : Nat) : Option Nat :=
  match j.pieces[i]? with
  | some p => (match p.st with
    | .running n => some n
    | _ => none)
  | none => none

/-- VCOMMIT (R184, R249): its one context delivers its records without interruption. A translation fault suspends it; a job
that was aborted meanwhile ends with it. [DEDUCED, log 56] -/
def Dev.vcommit (s : Dev) (id : Nat) : Dev :=
  match s.jobById id with
  | none => s
  | some j => match j.cmd? with
    | some (.vcommit a n) =>
      if !j.started then s.updJob j.seq fun j => j.start 1
      else (match (j.churnOf 0).bind fun n => (s.resident n).map fun r => (n, r) with
        | none => s
        | some (chn, r) =>
          if r.restoring.isSome then s
          else (match s.vread (some chn) j.asid a (16 * n) with
            | .ok b =>
              let s := (s.touch (some chn) j.asid 0 a (16 * n)).deliverAll ((upTo n).map fun i => verdictOf ((b.drop (16 * i)).take 16))
              let s := ((s.useFree).noteWait r).completeCmd j
              if j.abort then s.abortNow j.seq else s
            | .fault x => s.suspend chn x
            | .error =>
              let s := ((s.churnError chn).noteWait r).completeCmd j
              if j.abort then s.abortNow j.seq else s))
    | _ => s

def execVcommit (job : Nat) (s : State) : Host.Outcome State Fault Refusal := s.run (.vcommit job) fun d => d.vcommit job

/-! ### The end of an iteration (R187, R190) -/

/-- The job as it begins its next iteration. -/
def Job.restart (j : Job) : Job :=
  { j with iter := j.iter + 1, pc := 0, started := false, pieces := [], span := none, key := none, ran := 0,
           partials := [], heldFault := false, faulted := false, exc := 0, preempt := 0, overrun := 0, cycles := 0 }

/-- The iteration is the job's last. -/
def Job.last (j : Job) : Bool := j.stop || (!j.continuous && decide (j.iters ≤ j.iter + 1))

/-- The status with which an iteration ends: STOPPED, FAULT or DONE. -/
def Job.status (j : Job) : Nat :=
  if j.stop then 6 else if (if j.iterRec then j.faulted else j.anyFault) then 4 else 0

/-- ITERATION_END (R187): the completion counter is signalled, and a record written after every iteration or when the job ends.
A job that is stopped before its first iteration ends without one. -/
def Dev.iterationEnd (s : Dev) (id : Nat) : Dev :=
  match s.jobById id with
  | none => s
  | some j =>
    if j.stop ∧ !j.inIteration then s.endJob j.seq 6 0xFFFF 0 0xFF
    else if j.pc < j.cmds.length then s
    else
      if j.last then s.endJob j.seq j.status 0xFFFF 0 0xFF
      else
        let s := s.signalEnd j
        let s := if j.iterRec then s.writeRecord j.queue (j.record j.status 0xFFFF 0 0xFF) else s
        s.updJob j.seq Job.restart

def execIterationEnd (job : Nat) (s : State) : Host.Outcome State Fault Refusal :=
  s.run (.iterationEnd job) fun d => d.iterationEnd job

/-! ### Dispatch, slices, takeover (R126, R191 to R195, R200) -/

/-- In fixed-schedule mode piece k runs on CHN(k mod 16), jobs and pieces in order (R200); a Churn that has come back from a block
reset powers up for its piece (R129, R219). -/
def Dev.dispatchFixed (s : Dev) : Dev :=
  let l := s.readyIn s.jobs
  match l.find? fun c => s.churnReady (c.2.2.index % 16) with
  | some (j, i, p) => s.startOn (p.index % 16) j i p
  | none =>
    match l.find? fun c => s.churnFree (c.2.2.index % 16) && s.rd .CHN_STAT_PWR (c.2.2.index % 16) == 0 with
    | some (_, _, p) => s.wr .CHN_STAT_PWR (p.index % 16) 1
    | none => s

/-- A piece that is placed on a Churn; a teach piece uses up its job's turn. -/
def Dev.dispatchOn (s : Dev) (n : Nat) (c : Job × Nat × Piece) : Dev :=
  let s := if c.1.teach then { s with lastTeach := c.1.seq } else s
  s.startOn n c.1 c.2.1 c.2.2

/-- PIECE_DISPATCH (R191): the first piece in order that can goes to the lowest-numbered free Churn that runs or is clock-gated; else a
power-gated Churn powers up for one; else an inspection piece pre-empts a teach context, or waits for a save slot. -/
def Dev.pieceDispatch (s : Dev) : Dev :=
  if !s.live || s.fixing then s
  else if s.flag .GLB_MODE_FIXED then s.dispatchFixed
  else
    let s := s.expireCheap.recoverWork
    match s.nextPlacement with
    | some (c, n) => s.dispatchOn n c
    | none =>
      if s.readyAll.length ≤ s.poweringUp then s
      else match (upTo 16).find? fun n => s.churnFree n && s.rd .CHN_STAT_PWR n == 0 with
        | some n => s.wr .CHN_STAT_PWR n 1
        | none =>
          match s.readyInspection.drop (s.poweringUp + s.makingWay) with
          | [] => s
          | c :: l => if s.freeSlot.isNone then s.deferAll (c :: l) else s.preemptFor c

def execPieceDispatch (s : State) : Host.Outcome State Fault Refusal := s.run .pieceDispatch fun d => d.pieceDispatch

/-- The split point of a remainder (R126): its midpoint, rounded down to a multiple of 32 reduction elements.
[DEDUCED, log 63] -/
def splitPoint (k0 k1 : Nat) : Nat := (k0 + k1) / 2 / 32 * 32

/-- A takeover divides a remainder only where each part holds at least `least` reduction elements. [DEDUCED, log 63] -/
def mayDivide (k0 k1 least : Nat) : Bool :=
  decide (k0 + least ≤ splitPoint k0 k1) && decide (splitPoint k0 k1 + least ≤ k1)

/-- A part of a divided piece, by its place in the job's list, keeps a range of the remainder. -/
def Dev.keepPart (s : Dev) (seq i a b : Nat) : Dev :=
  s.updJob seq fun j =>
    { j with split := true, pieces := modifyAt (fun (p : Piece) => { p with range := some (a, b) }) i j.pieces }

/-- TAKEOVER (R126): in fast mode a free Churn without a ready piece takes the upper part of the untouched remainder of a running LAYER
piece, whose operands have the formats `pair`; the running Churn keeps the lower part. A part of a divided piece may be divided again. In
fixed-schedule mode piece k runs on CHN(k mod 16) alone (R200). [DEDUCED, log 63] -/
def Dev.takeover (s : Dev) (t v k0 k1 : Nat) (pair : OpFmt × OpFmt) : Dev :=
  match s.resident v, leastPart pair.1 pair.2 with
  | some r, some least => (match s.job? r.job with
    | none => s
    | some j =>
      let p := j.pieces.getD r.piece { index := 0, st := .ready }
      let lo := match p.range with
        | some (a, _) => max a k0
        | none => k0
      let hi := match p.range with
        | some (_, b) => min b k1
        | none => k1
      if r.kind ≠ 1 ∨ r.saving.isSome ∨ r.restoring.isSome ∨ j.repro ≠ some false ∨ s.flag .GLB_MODE_FIXED ∨ !s.churnReady t ∨
          s.kept t ∨ s.readyAll ≠ [] ∨ !mayDivide lo hi least then s
      else
        let upper : Piece := { index := p.index, st := .ready, range := some (splitPoint lo hi, hi) }
        let s := (s.keepPart j.seq r.piece lo (splitPoint lo hi)).updJob j.seq fun j => { j with pieces := j.pieces ++ [upper] }
        match s.job? j.seq with
        | some j => s.startOn t j (j.pieces.length - 1) upper
        | none => s)
  | _, _ => s

def execTakeover (taker victim : Fin 16) (k0 k1 : Nat) (pair : OpFmt × OpFmt) (s : State) :
    Host.Outcome State Fault Refusal :=
  s.run (.takeover taker victim k0 k1 pair) fun d => d.takeover taker victim k0 k1 pair

/-- The waiting piece to which a context yields at the end of its slice (R193). -/
def Dev.yieldsTo (s : Dev) (j : Job) : Option (Job × Nat × Piece) :=
  if s.anyFree then none
  else if j.teach then s.readyTeach.head?
  else match s.readyInspection with
    | c :: _ => (match c.1.key, j.key with
      | some a, some b => if a < b then some c else none
      | some _, none => some c
      | _, _ => none)
    | [] => none

/-- A slice that ends inside a VCOMMIT waits for it, and counts one overrun (R195). [DEDUCED, log 59] -/
def Dev.overrun (s : Dev) (n : Nat) (r : Resident) : Dev :=
  let s := s.updJob r.job fun j => { j with overrun := satSucc 16 j.overrun }
  (s.countOd 0x3030 5 64).setResident n (some { r with overAt := some s.xclk, sliceAt := s.xclk, sliceLen := s.sliceOf 0 })

/-- SLICE_END (R193, R195): the context yields, or begins a new slice. [DEDUCED, log 59] -/
def Dev.sliceEnd (s : Dev) (n : Nat) : Dev :=
  match s.resident n with
  | none => s
  | some r => match s.job? r.job with
    | none => s
    | some j =>
      if s.flag .GLB_MODE_FIXED ∨ r.leaving ∨ r.restoring.isSome then s
      else if r.kind = 3 then s.overrun n r
      else
        let s := (s.updJob j.seq fun j => { j with shorten := 0 }).setResident n
          (some { r with sliceAt := s.xclk, sliceLen := s.sliceOf j.shorten })
        match s.yieldsTo j with
        | some c => s.saveFor n c
        | none => s

def execSliceEnd (chn : Fin 16) (s : State) : Host.Outcome State Fault Refusal := s.run (.sliceEnd chn) fun d => d.sliceEnd chn

/-- CHEAP_POINT_REACHED (R194, R198): a context that waits for it saves its live ranges. -/
def Dev.cheapPointReached (s : Dev) (n : Nat) (ranges : List (Nat × Nat)) : Dev :=
  match s.resident n with
  | none => s
  | some r =>
    if r.cheapWait.isNone then s
    else match s.freeSlot with
      | some k => s.beginSave n k (some ranges)
      | none => s.setResident n (some { r with cheapWait := none })

def execCheapPointReached (chn : Fin 16) (ranges : List (Nat × Nat)) (s : State) : Host.Outcome State Fault Refusal :=
  s.run (.cheapPointReached chn ranges) fun d => d.cheapPointReached chn ranges

/-! ### Saves and restores (R196 to R199, R205 to R207) -/

/-- A write of a slot meets an uncorrectable error (R206): the slot is BAD until the next warm reset, and the same save starts again
into the fault area, or the context is discarded and its piece restarts. -/
def Dev.badSlot (s : Dev) (n k : Nat) (r : Resident) : Dev :=
  let s := s.uncorrectable (s.saveBase k) n true
  let s := (s.tally 0x0051 k 0xFFFFFFFF (s.rd .JOB_CHN_JOB n)).emptySlot k 4
  let s := s.setResident n (some { r with saving := none })
  if k ≠ 40 ∧ s.rd .JOB_SLOT_ST_STATE 40 = 0 then s.beginSave n 40 r.cheap
  else (s.vacate n).setPiece r.job r.piece .ready

/-- SAVE_COMPLETE (R199, R206). [DESIGN CHOICE, log 60] -/
def Dev.saveComplete (s : Dev) (n : Nat) (fails : Bool) : Dev :=
  match s.resident n with
  | none => s
  | some r => match r.saving with
    | none => s
    | some k => if fails then s.badSlot n k r else s.finishSave n

def execSaveComplete (chn : Fin 16) (writeFails : Bool) (s : State) : Host.Outcome State Fault Refusal :=
  s.run (.saveComplete chn writeFails) fun d => d.saveComplete chn writeFails

/-- A saved context is read back onto a Churn and its slot freed; a fetch that had faulted is repeated (R205). -/
def Dev.readBack (s : Dev) (n k : Nat) (r : Resident) : Dev :=
  match tabFind? s.saves k with
  | none => s
  | some v =>
    let s := match v.res.cheap with
      | some l => s.cheapRestore n (s.saveBase k) v l
      | none => s.fullRestore n (s.saveBase k) v
    let s := (s.releaseSlot k).setResident n (some { r with restoring := none, sliceAt := s.xclk, sliceLen := s.sliceOf 0 })
    if v.res.fault.any fun b => leAt b 14 1 == 2 then s.fetchCode n else s

/-- RESTORE_COMPLETE (R199, R207): the context goes on from its saved instruction; an uncorrectable error discards the save, and
the piece restarts. -/
def Dev.restoreComplete (s : Dev) (n : Nat) (fails : Bool) : Dev :=
  match s.resident n with
  | none => s
  | some r => match r.restoring with
    | none => s
    | some k =>
      if fails then
        let s := (s.uncorrectable (s.saveBase k) n true).jobFault r.job
        ((s.releaseSlot k).vacate n).setPiece r.job r.piece .ready
      else s.readBack n k r

def execRestoreComplete (chn : Fin 16) (readFails : Bool) (s : State) : Host.Outcome State Fault Refusal :=
  s.run (.restoreComplete chn readFails) fun d => d.restoreComplete chn readFails

/-! ### Commands to jobs (R190, R205, R210) -/

/-- The slots that hold contexts of a job with a fault attached. -/
def Dev.faultedSlots (s : Dev) (j : Job) : List Nat :=
  (j.pieces.filterMap fun p => match p.st with
    | .saved k => some k
    | _ => none).filter fun k => s.flag .JOB_SLOT_ST_FLT k

/-- A command ends with a result: 0 accepted, 1 no such job, 2 not valid in the job's state. -/
def Dev.jobResult (s : Dev) (n : Nat) : Dev := s.wr .JOB_CMD_RES 0 n

/-- The job that a command names. -/
def Dev.named (s : Dev) : Option Job := s.jobById (s.rd .JOB_CMDID_JOBID)

/-- RESUME (R205): the contexts that wait for it are ready again. -/
def Dev.jobResume (s : Dev) : Dev :=
  match s.named with
  | none => s.jobResult 1
  | some j =>
    let l := s.faultedSlots j
    if l.isEmpty then s.jobResult 2
    else (l.foldl (fun (d : Dev) k => d.setFlag .JOB_SLOT_ST_FLT k false) s).jobResult 0

def execJobResume (s : State) : Host.Outcome State Fault Refusal := s.run .jobResume fun d => d.jobResume

/-- The job has a context in a VCOMMIT. -/
def Dev.inVcommit (s : Dev) (j : Job) : Bool :=
  j.pieces.any fun p => match p.st with
    | .running n => (match s.resident n with
      | some r => r.kind == 3 && r.restoring.isNone
      | none => false)
    | _ => false

/-- ABORT (R190): at once, or when the VCOMMIT that the job is in ends. -/
def Dev.jobAbort (s : Dev) : Dev :=
  match s.named with
  | none => s.jobResult 1
  | some j =>
    if s.inVcommit j then (s.updJob j.seq fun j => { j with abort := true }).jobResult 0
    else (s.abortNow j.seq).jobResult 0

def execJobAbort (s : State) : Host.Outcome State Fault Refusal := s.run .jobAbort fun d => d.jobAbort

/-- STOP (R190): the job ends after its current iteration, or at once if its first has not begun. [DEDUCED, log 58] -/
def Dev.jobStop (s : Dev) : Dev :=
  match s.named with
  | none => s.jobResult 1
  | some j =>
    let s := s.updJob j.seq fun j => { j with stop := true }
    let s := if j.begun then s else s.endJob j.seq 6 0xFFFF 0 0xFF
    s.jobResult 0

def execJobStop (s : State) : Host.Outcome State Fault Refusal := s.run .jobStop fun d => d.jobStop

/-! ### Churn faults and power (R129, R208) -/

/-- The cause code of Tally event 0x0052. -/
def causeCode : ChurnFault → Nat
  | .memory => 1
  | .hang => 2
  | .parity => 3
  | .request => 4

/-- SEQUENCER_HANG (R208): a Churn on which a context is ready is block-reset. [DEDUCED, log 66] -/
def Dev.sequencerHang (s : Dev) (n : Nat) : Dev := if (s.resident n).isSome then s.resetChurn n 2 else s

def execSequencerHang (chn : Fin 16) (s : State) : Host.Outcome State Fault Refusal :=
  s.run (.sequencerHang chn) fun d => d.sequencerHang chn

def execChurnBlockReset (chn : Fin 16) (cause : ChurnFault) (s : State) : Host.Outcome State Fault Refusal :=
  s.run (.churnBlockReset chn cause) fun d => d.resetChurn chn (causeCode cause)

/-- CHURN_CLOCK_GATE (R129): an idle Churn, unless NOCG forbids it or the mode is fixed-schedule (R219). -/
def Dev.churnClockGate (s : Dev) (n : Nat) : Dev :=
  if s.churnFree n && s.rd .CHN_STAT_PWR n == 3 && !s.flag .CHN_PWRCTL_NOCG n && !s.flag .GLB_MODE_FIXED && !s.fixing then
    s.wr .CHN_STAT_PWR n 2
  else s

def execChurnClockGate (chn : Fin 16) (s : State) : Host.Outcome State Fault Refusal :=
  s.run (.churnClockGate chn) fun d => d.churnClockGate chn

/-- CHURN_POWER_GATE (R129, R200): store, registers and array state are lost. [DEDUCED, log 61] -/
def Dev.churnPowerGate (s : Dev) (n : Nat) : Dev :=
  if s.churnReady n && !s.flag .CHN_PWRCTL_NOPG n && !s.flag .GLB_MODE_FIXED && !s.fixing then
    (s.wr .CHN_STAT_PWR n 0).loseChurn n
  else s

def execChurnPowerGate (chn : Fin 16) (s : State) : Host.Outcome State Fault Refusal :=
  s.run (.churnPowerGate chn) fun d => d.churnPowerGate chn

/-- CHURN_POWER_UP_DONE (R129): the Churn runs and can take a piece. -/
def Dev.churnPowerUpDone (s : Dev) (n : Nat) : Dev :=
  if s.rd .CHN_STAT_PWR n = 1 then (s.wr .CHN_STAT_PWR n 3).enterFixed else s

def execChurnPowerUpDone (chn : Fin 16) (s : State) : Host.Outcome State Fault Refusal :=
  s.run (.churnPowerUpDone chn) fun d => d.churnPowerUpDone chn

/-! ### Modes (R128, R219) -/

/-- The rights of OD 0x3001:04. -/
def rwNoRwNo : Rights := 0b00110011

/-- Every Churn starts: clock-gated ones run, power-gated ones power up. -/
def Dev.startChurns (s : Dev) : Dev :=
  (upTo 16).foldl (fun (d : Dev) n =>
    if d.flag .CHN_STAT_ISO n then d
    else if d.rd .CHN_STAT_PWR n = 2 then d.wr .CHN_STAT_PWR n 3
    else if d.rd .CHN_STAT_PWR n = 0 then d.wr .CHN_STAT_PWR n 1
    else d) s

/-- A write of OD 0x3001:04 (R219): a change is accepted only while no job is admitted and no Churn holds a context; the maintenance
activities that the mode has held start when it ends (R419). [DEDUCED, log 64] -/
def Dev.fixedModeWrite (s : Dev) (port : Port) (value : Bool) : Dev :=
  if !mayWrite rwNoRwNo port then s.status stDenied
  else if value == (s.flag .GLB_MODE_FIXED || s.fixing) then s.status stOk
  else if !s.jobs.isEmpty || (upTo 16).any fun n => (s.resident n).isSome then s.status stBusy
  else if value then ({ s.startChurns with fixing := true }.enterFixed).status stOk
  else
    { (s.setFlag .GLB_MODE_FIXED 0 false).setFlag .GLB_DET_STAT_FIXED 0 false with fixing := false, runHit := false }.startQueued.status stOk

def execFixedModeWrite (port : Port) (value : Bool) (s : State) : Host.Outcome State Fault Refusal :=
  s.run (.fixedModeWrite port value) fun d => d.served port 0x3001 4 fun d => d.fixedModeWrite port value

/-- A write of OD 0x3001:01 (R128): jobs dispatched from now on use the mode. -/
def Dev.reproModeWrite (s : Dev) (port : Port) (value : Bool) : Dev :=
  if !mayWrite rwRwRR port then s.status stDenied
  else ((s.storeN 0x3001 1 0 value.toNat).setFlag .GLB_MODE_REPRO 0 value).status stOk

def execReproModeWrite (port : Port) (value : Bool) (s : State) : Host.Outcome State Fault Refusal :=
  s.run (.reproModeWrite port value) fun d => d.served port 0x3001 1 fun d => d.reproModeWrite port value

/-! ### Sync counters from the host (R204) -/

/-- SYN_SIGNAL_ADD: `SYN_VAL` is added. -/
def execSynSignalAdd (sc : Nat) (s : State) : Host.Outcome State Fault Refusal :=
  s.run (.synSignalAdd sc) fun d => d.scAdd sc (d.rd .SYN_VAL)

/-- SYN_RESET. -/
def execSynReset (sc : Nat) (s : State) : Host.Outcome State Fault Refusal := s.run (.synReset sc) fun d => d.scZero sc

/-- SYN_RDIDX: the whole value is latched at one instant. -/
def Dev.synRdidxLatch (s : Dev) (sc : Nat) : Dev := (s.wr .SYN_RDIDX_SC 0 sc).wr .SYN_RDVAL 0 (s.sc sc)

def execSynRdidxLatch (sc : Nat) (s : State) : Host.Outcome State Fault Refusal :=
  s.run (.synRdidxLatch sc) fun d => d.synRdidxLatch sc

end Sys2Proof.Machine
end

