-- ==== Sys2Proof/Machine/Pipeline.lean ====
section
/-! DEFINITION. The five pipes (R81, R82, R94, R96): which slot a free pipe takes, and what happens when it has finished one. -/

namespace Sys2Proof.Machine

open Sys2Proof

/-- A slot that may be dispatched: when its first line was staged, context, stripe, block and end line. -/
structure ReadySlot where
  staged : Nat
  ctx : Nat
  stripe : Nat
  block : Block
  e : Nat
deriving DecidableEq, Repr

/-- The end of the slot that begins at line `a` of a block, if it may be dispatched (R81). -/
def Block.slotEnd (b : Block) (a : Nat) : Option Nat :=
  let n := b.lines.length
  if n ≤ a then none
  else if setting b.pp .ITK_PP_CTL_SCHED = 1 then
    let most := setting b.pp .ITK_PP_STRIPE_RUNMAX
    if b.closed then some (a + min most (n - a))
    else
      let staged := n - a - b.below
      if 8 ≤ staged then some (a + min most (staged / 8 * 8)) else none
  else if a ≠ 0 then none
  else if b.closed then some n
  else if 1 + b.below ≤ n then some (setting b.cfg .ITK_CTX_CFG0_BLKLEN)
  else none

/-- The slots of a block that may be dispatched: the next one of each stripe, whatever runs already. -/
def Block.readySlots (b : Block) (c : Nat) : List ReadySlot :=
  b.next.zipIdx.filterMap fun (x : Nat × Nat) =>
    (b.slotEnd x.1).map fun e =>
      { staged := (b.lines.getD x.1 {}).staged, ctx := c, stripe := x.2, block := b, e := e }

/-- The slots that are ready for a pipe (R82). -/
def Dev.readySlots (s : Dev) (p : Nat) : List ReadySlot :=
  (upTo 64).flatMap fun c => (s.ctx c).work.flatMap fun (b : Block) =>
    if bit (setting b.pp .ITK_PP_CTL_PIPES) p then b.readySlots c else []

/-- The slot that a pipe takes: the one whose first line was staged earliest, then the lower context, then the lower stripe.
[DESIGN CHOICE, log 39] -/
def Dev.choice (s : Dev) (p : Nat) : Option ReadySlot :=
  let l := sortBy (fun (r : ReadySlot) => (r.stripe : Int)) (s.readySlots p)
  (sortBy (fun (r : ReadySlot) => (r.staged : Int)) (sortBy (fun (r : ReadySlot) => (r.ctx : Int)) l)).head?

/-- Change the block of a context with a sequence number. -/
def Dev.updBlock (s : Dev) (c seq : Nat) (f : Block → Block) : Dev :=
  s.setCtx c ((s.ctx c).mapWork fun b => if b.seq = seq then f b else b)

/-- The ICLK cycles of `n` lines of a slot in a pipe (R94). -/
def Block.lineCycles (b : Block) (stripe n : Nat) : Nat := ceilDiv (n * (b.inputColumns stripe + 8) * b.comps) 4

/-- The cycles of a slot that are not useful: drain, halo and lookahead (R94). -/
def Block.overhead (b : Block) (stripe n : Nat) : Nat :=
  250 + b.lineCycles stripe (n + b.above + b.below) - n * b.inputColumns stripe * b.comps / 4

/-- A pipe is free, and its clock has started (R46). -/
def Dev.pipeFree (s : Dev) (p : Nat) : Bool := bit s.pipesOn p && (tabFind? s.pipes p).isNone

/-- SLOT_DISPATCH (R82): a free pipe takes a slot; one that has none to take stays free. [DESIGN CHOICE, log 39] -/
def Dev.slotDispatch (s : Dev) (p : Nat) : Dev :=
  match s.pipeFree p, s.choice p with
  | true, some r =>
    let b := r.block
    let a := b.next.getD r.stripe 0
    let s := s.updBlock r.ctx b.seq fun b =>
      { b with next := modifyAt (fun _ => r.e) r.stripe b.next, running := b.running ++ [(r.stripe, a)] }
    let s := ((s.wr .ITK_PIPE_STAT_CTX p r.ctx).setFlag .ITK_PIPE_STAT_BUSY p true).countMod .ITK_PIPE_SWCNT p
    let t : PipeSlot := { ctx := r.ctx, seq := b.seq, stripe := r.stripe, a := a, e := r.e, since := s.xclk,
                          halo := b.lineCycles r.stripe b.above }
    { s with pipes := tabPut s.pipes p t }
  | _, _ => s

def execSlotDispatch (pipe : Fin 5) (s : State) : Host.Outcome State Fault Refusal :=
  s.run (.slotDispatch pipe) fun d => d.slotDispatch pipe

/-- The ICLK cycles since a pipe took its slot, 5 in 2 periods of XCLK. -/
def Dev.pipeCycles (s : Dev) (t : PipeSlot) : Nat := (s.xclk - t.since) * 5 / 2

/-- The end line of a slot: a BLOCK slot that began before its block closed ends where the block does (R81). -/
def PipeSlot.last (t : PipeSlot) (b : Block) : Nat := if b.closed then min t.e b.lines.length else t.e

/-- The slot on a pipe can be complete: its lines are staged, and those of a BLOCK slot up to the end of the block. -/
def PipeSlot.staged (t : PipeSlot) (b : Block) : Bool :=
  b.closed || (setting b.pp .ITK_PP_CTL_SCHED == 1 && decide (t.e ≤ b.lines.length))

/-- An uncorrectable error of a slot's accesses to the intake window (R174): where it lies, and whether it is one of a word or of a
block on its way, is open. -/
def Dev.slotError (s : Dev) : Dev :=
  let a := intakeBase + s.freeValue 37 % max 1 s.intakeSize
  ((s.useFree).useFree).uncorrectable a 17 ((s.useFree).freeValue 1 == 1)

/-- SLOT_COMPLETE (R94, R96): the output of the slot is written, its ring lines are free of it, its overhead counts by the lines that
it had, and the pipe is free; an uncorrectable error on the way belongs to the slot's block, at an address that is not stated.
[DESIGN CHOICE, log 39] -/
def Dev.slotComplete (s : Dev) (p : Nat) (memErr : Bool) : Dev :=
  match tabFind? s.pipes p with
  | none => s
  | some t =>
    match (s.ctx t.ctx).work.find? fun (b : Block) => b.seq == t.seq with
    | none => { s.setFlag .ITK_PIPE_STAT_BUSY p false with pipes := tabDrop s.pipes p }
    | some b =>
      if !t.staged b then s
      else
        let e := t.last b
        let s := s.writeSlot b t.stripe t.a e
        let s := if memErr then s.slotError else s
        let s := s.wr .ITK_PIPE_OVH p (s.rd .ITK_PIPE_OVH p + b.overhead t.stripe (e - t.a))
        let s := s.updBlock t.ctx t.seq fun b =>
          { s.countLines b t.a e with running := b.running.erase (t.stripe, t.a), memErr := b.memErr || memErr }
        let s := { s.setFlag .ITK_PIPE_STAT_BUSY p false with pipes := tabDrop s.pipes p }
        s.finishBlocks t.ctx

def execSlotComplete (pipe : Fin 5) (memErr : Bool) (s : State) : Host.Outcome State Fault Refusal :=
  s.run (.slotComplete pipe memErr) fun d => d.slotComplete pipe memErr

end Sys2Proof.Machine
end

