-- ==== Sys2Proof/Machine/MemoryCmds.lean ====
section
/-! DEFINITION. The commands of the memory system (R157, R166, R167, R172 to R178): block resends, refresh, invalidation,
the fault queue and the host's apertures. -/

namespace Sys2Proof.Machine

open Sys2Proof

/-! ### Resends (R172 to R174) -/

/-- The block's output buffer holds a DPA. -/
def Block.holds (b : Block) (a : Nat) : Bool := let (base, size) := b.buffer; decide (base ≤ a ∧ a < base + size)

/-- The statistics ring of a block holds a DPA. -/
def Block.countsAt (b : Block) (a : Nat) : Bool :=
  let base := b.area .ITK_PP_STBASE
  setting b.pp .ITK_PP_STATS_EN == 1 && decide (base ≤ a ∧ a < base + 8192 * setting b.pp .ITK_PP_STATS_NSLOT)

/-- A DPA lies in the record of block number `seq` of settings. -/
def recordHolds (pp : Tab Nat) (seq a : Nat) : Bool := decide (recordAt pp seq ≤ a ∧ a < recordAt pp seq + 64)

/-- The record of a block that has left the pipes could not be written: the parts of its interval receive UNKNOWN_INPUT (R96). -/
def Dev.recordLost (s : Dev) (c a : Nat) : Dev :=
  let x := s.ctx c
  let base := intakeBase + 128 * setting x.pp .ITK_PP_RECBASE
  if base ≤ a ∧ a < base + 16384 then
    let r := base + (a - base) / 64 * 64
    s.openMark { source := .memErr c, start := s.leRead r 8, fin := some (s.leRead (r + 8) 8),
                 lanes := setting x.cfg .ITK_CTX_LANES, code := 0xE0 }
  else s

/-- What an uncorrectable error at a DPA of the intake window does to the blocks of a context: a block whose output buffer holds it,
or the oldest one where the statistics ring does, has MEMERR; an error of a record marks the parts of its block (R96, R174).
Answers none where the context has no such area there. -/
def Dev.ctxError (s : Dev) (c a : Nat) : Option Dev :=
  let x := s.ctx c
  let put := fun (f : Block → Block) => some (s.setCtx c (x.mapWork f))
  if x.work.any fun b => b.holds a then put fun b => if b.holds a then { b with memErr := true } else b
  else match x.work.find? fun b => b.countsAt a with
    | some o => put fun b => if b.seq = o.seq then { b with memErr := true } else b
    | none =>
      if x.work.any fun b => recordHolds b.pp b.seq a then
        put fun b => if recordHolds b.pp b.seq a then { b with recErr := true } else b
      else
        let base := intakeBase + 128 * setting x.pp .ITK_PP_RECBASE
        if s.ctxEnabled c ∧ base ≤ a ∧ a < base + 16384 then some (s.recordLost c a) else none

/-- The blocks in work of all contexts, by context and sequence number. -/
def Dev.blocksInWork (s : Dev) : List (Nat × Nat) :=
  (upTo 64).flatMap fun c => (s.ctx c).work.map fun (b : Block) => (c, b.seq)

/-- An uncorrectable error of the intake at a DPA (R96, R174). Where no area of a context holds it, it may be one of a raw ring,
whose place the spec does not give: a free value says of which block in work it is, if of any. [DESIGN CHOICE, log 131] -/
def Dev.intakeError (s : Dev) (a : Nat) : Dev :=
  match (upTo 64).findSome? fun c => s.ctxError c a with
  | some t => t
  | none =>
    let l := s.blocksInWork
    match l[s.freeValue 16 % (l.length + 1)]? with
    | some e => s.useFree.updBlock e.1 e.2 fun b => { b with memErr := true }
    | none => s.useFree

/-- An uncorrectable block of the Separator (R267): every entry in it is struck. -/
def Dev.separatorBlock (s : Dev) (a : Nat) : Dev :=
  if sepBase ≤ a ∧ a < sepBase + 0x400000 then s.strikeBlock (a - sepBase) else s

/-- A sample that the decoder reads or writes is struck: which of those under way is free (R296, R307: any order, up to 16 at once).
[DEDUCED, log 29] -/
def Dev.strikeSample (s : Dev) : Dev :=
  match s.batch with
  | none => s
  | some b => match b.left[s.freeValue 16 % max 1 b.left.length]? with
    | none => s
    | some k => { s.useFree with batch := some { b with struck := k :: b.struck } }

/-- The users of the MMU whose access may be under way: Churns with a context, and the decoder (16) with a batch. -/
def Dev.walkers (s : Dev) : List Nat :=
  ((upTo 16).filter fun n => (s.resident n).isSome) ++ (if s.batch.isSome then [16] else [])

/-- A table walk meets an entry that it cannot read (R167): fault type 8. For which user, at which address, access and level is
free. [DEDUCED, log 29] -/
def Dev.walkLost (s : Dev) (a : Nat) : Dev :=
  let l := s.walkers
  let f := fun (k w : Nat) => wrap w (Config.freeNat (s.free + k))
  let x : XFault := { va := f 1 48, acc := f 2 2 % 3, type := 8, level := f 3 3 % 5, entry := 0, place := a }
  let t := { s with free := s.free + 4 }
  match l[f 0 16 % max 1 l.length]? with
  | none => s
  | some n =>
    if n < 16 then t.suspendFor n x
    else (t.strikeSample).postFault (x.record 0xFFFFFFFF (match s.batch with
      | some b => leAt b.req 27 1 % 16
      | none => 0) 16)

/-- What an uncorrectable block does to its requester (R174). A host read has all ones and a host write is dropped, which the
host sees and the module does not keep. [DEDUCED, log 29] -/
def Dev.blockLost (s : Dev) (src a : Nat) : Dev :=
  let s := s.uncorrectable a src false
  if src < 16 then s.churnError src
  else if src = 16 then s.strikeSample
  else if src = 17 then s.intakeError a
  else if src = 18 then s.separatorBlock a
  else if src = 21 then s.walkLost a
  else s

/-- BLOCK_CRC_RESEND (R172 to R174): resends 1 to 4 are counted; a block that fails after the fourth is uncorrectable. -/
def Dev.blockCrcResend (s : Dev) (src a attempt : Nat) : Dev :=
  if attempt ≤ 4 then s.resent 1 else s.blockLost src a

def execBlockCrcResend (source dpa attempt : Nat) (s : State) : Host.Outcome State Fault Refusal :=
  s.run (.blockCrcResend source dpa attempt) fun d => d.blockCrcResend source dpa attempt

/-! ### Refresh (R178) -/

/-- LPDDR_REFRESH (R178): a refresh delays requests and changes nothing else. -/
def execLpddrRefresh (channel bank : Nat) (s : State) : Host.Outcome State Fault Refusal :=
  s.run (.lpddrRefresh channel bank) fun d => d

/-! ### Invalidation and the fault queue (R166, R167) -/

/-- MMU_INVALIDATE (R166): DONE reads 0 until the invalidation of the page at `MMU_INV_ADDR`, of an address space or of everything
completes; scope 3 is ignored. [DEDUCED, log 50] -/
def Dev.mmuInvalidate (s : Dev) (scope asid : Nat) : Dev :=
  let s := (s.wr .MMU_INV_CMD_SCOPE 0 scope).wr .MMU_INV_CMD_ASID 0 asid
  if scope = 3 then s
  else { s.setFlag .MMU_INV_STAT_DONE 0 false with invals := s.invals ++ [(scope, asid, s.rd .MMU_INV_ADDR)] }

def execMmuInvalidate (scope asid : Nat) (s : State) : Host.Outcome State Fault Refusal :=
  s.run (.mmuInvalidate scope asid) fun d => d.mmuInvalidate scope asid

/-- INVALIDATE_DONE (R166): the invalidations that have begun are complete, and no cache holds what they name. -/
def Dev.invalidateDone (s : Dev) : Dev :=
  { s.setFlag .MMU_INV_STAT_DONE 0 true with tlb := s.tlb.filter fun e => !s.invals.any fun i => e.hit i, invals := [] }

def execInvalidateDone (s : State) : Host.Outcome State Fault Refusal := s.run .invalidateDone fun d => d.invalidateDone

/-- The lowest save slot whose context keeps a record that found the queue full is posted now. -/
def Dev.postAttached (s : Dev) : Dev :=
  match (upTo 41).find? fun k => match tabFind? s.saves k with
    | some v => v.record.isSome
    | none => false with
  | none => s
  | some k => match tabFind? s.saves k with
    | some v => match v.record with
      | some r => { s with faultq := s.faultq ++ [r], saves := tabPut s.saves k { v with record := none } }
      | none => s
    | none => s

/-- FAULTQ_POP (R167): the oldest record is removed; nothing where there is none. -/
def Dev.faultqPop (s : Dev) : Dev :=
  match s.faultq with
  | [] => s
  | _ :: l => { s with faultq := l }.postAttached

def execFaultqPop (s : State) : Host.Outcome State Fault Refusal := s.run .faultqPop fun d => d.faultqPop

/-! ### The host's apertures (R157, R174) -/

/-- The DPA that an aperture offset reaches; none above Vat in BAR2, which reads zero and ignores writes. [DEDUCED, log 52] -/
def Dev.apertureDpa (s : Dev) (bar2 : Bool) (ofs : Nat) : Option Nat :=
  if bar2 then (if ofs < vatSize then some ofs else none)
  else if ofs < 2 ^ 30 then some (lpddrBase + s.rd .MEM_BAR4_BASE * 2 ^ 30 + ofs) else none

/-- A byte that the host reads through an aperture. [DEDUCED, log 52] -/
def Dev.apertureByte (s : Dev) (bar2 : Bool) (ofs : Nat) : Byte :=
  match s.apertureDpa bar2 ofs with
  | some a => s.byteAt a
  | none => 0

/-- Write bytes through an aperture. [DEDUCED, log 52] -/
def Dev.aperturePut (s : Dev) (bar2 : Bool) (ofs : Nat) : List Byte → Dev
  | [] => s
  | b :: bs =>
    (match s.apertureDpa bar2 ofs with
      | some a => s.putByte a b
      | none => s).aperturePut bar2 (ofs + 1) bs

/-- HOST_APERTURE_ACCESS (R157, R174): nothing arrives while the PCIe link is down; an access that fails, and every access to
LPDDR5X in fixed-schedule mode (R179), reads all ones or is dropped. -/
def Dev.hostAperture (s : Dev) (bar2 : Bool) (ofs : Nat) (write : Option (List Byte)) (len : Nat) (e : MemEvent) : Dev :=
  if !s.pcieUp then s
  else
    let reaches := (s.apertureDpa bar2 ofs).isSome
    let s := if reaches then s.meet e ((s.apertureDpa bar2 ofs).getD 0) 19 else s
    let ok := !reaches || (MemEvent.ok e && !(!bar2 && s.flag .GLB_MODE_FIXED))
    match write with
    | some bs => if ok then s.aperturePut bar2 ofs bs else s
    | none =>
      s.send (.barRead (if ok then (rangeFrom ofs len).map fun k => s.apertureByte bar2 k else List.replicate len 0xFF))

def execHostApertureAccess (bar2 : Bool) (ofs : Nat) (write : Option (List Byte)) (len : Nat) (event : MemEvent)
    (s : State) : Host.Outcome State Fault Refusal :=
  s.run (.hostApertureAccess bar2 ofs write len event) fun d => d.hostAperture bar2 ofs write len event

end Sys2Proof.Machine
end

