-- ==== Sys2Proof/Machine/OdTable.lean ====
section
/-! DEFINITION. The object dictionary as a table (R354 to R358, R368): every entry with its type, class, rights, default, range
and the register fields that hold it. -/

namespace Sys2Proof.Machine

open Sys2Proof

/-- An entry: type code and class as INFO shows them (R363), rights, default, smallest and largest value of a number,
permitted lengths of a string, and the register fields that take the value when it comes into force: field, lowest bit in the
value, width. -/
structure OdEntry where
  typ : Nat
  cls : Nat
  rights : Rights
  dflt : Nat := 0
  lo : Nat := 0
  hi : Nat := 0
  len : Nat × Nat := (0, 0)
  mirror : List (Field × Nat × Nat) := []
deriving DecidableEq, Repr

/-- Entries by subindex, for `count` indices from `base` on. -/
structure OdGroup where
  base : Nat
  count : Nat
  subs : List (Nat × OdEntry)
deriving DecidableEq, Repr

/-- `H r, C r, M r, Z r`. -/
def rRRR : Rights := 0b01010101
/-- `H r, C r, M r, Z —`. -/
def rRRNo : Rights := 0b00010101
/-- `H rw, C rw, M r, Z —`. -/
def rwRwRNo : Rights := 0b00011111
/-- `H rw, C r, M rw, Z r`. -/
def rwRRwR : Rights := 0b01110111
/-- `H —, C —, M rw, Z —`. -/
def noNoRwNo : Rights := 0b00110000
/-- `H w, C —, M w, Z —`. -/
def wNoWNo : Rights := 0b00100010
/-- `H r, C r, M rw, Z r`. -/
def rRRwR : Rights := 0b01110101

/-! ### The index map (R368) -/

/-- Identity (R369). -/
def od1000 : OdGroup := { base := 0x1000, count := 1, subs := [
  (1, { typ := 8, cls := 0, rights := rRRR, len := (0, 255) }),
  (2, { typ := 8, cls := 0, rights := rRRR, len := (0, 255) }),
  (3, { typ := 4, cls := 0, rights := rRRR, dflt := 0x4e9600a1, hi := 0xffffffff }),
  (4, { typ := 8, cls := 0, rights := rRRR, len := (0, 255) }),
  (5, { typ := 2, cls := 0, rights := rRRR, hi := 255 }),
  (6, { typ := 4, cls := 2, rights := rRRR, hi := 0xffffffff })] }

/-- Communication (R369). -/
def od1001 : OdGroup := { base := 0x1001, count := 1, subs := [
  (1, { typ := 3, cls := 0, rights := rwRRwR, dflt := 20118, lo := 1024, hi := 65535 }),
  (2, { typ := 4, cls := 2, rights := rRRR, hi := 0xffffffff }),
  (3, { typ := 4, cls := 0, rights := rRRR, hi := 0xffffffff }),
  (4, { typ := 2, cls := 2, rights := rRRR, hi := 255 })] }

/-- Restore of defaults (R360). -/
def od1010 : OdGroup := { base := 0x1010, count := 1, subs := [
  (1, { typ := 1, cls := 2, rights := noNoRwNo, hi := 1 })] }

/-- Links (R79). -/
def od2100 : OdGroup := { base := 0x2100, count := 24, subs := [
  (1, { typ := 1, cls := 0, rights := rwRwRR, hi := 1, mirror := [(.CXP_LNK_CTL_EN, 0, 1)] }),
  (2, { typ := 1, cls := 0, rights := rwRwRR, hi := 1 }),
  (3, { typ := 2, cls := 0, rights := rwRwRR, dflt := 255, hi := 255 }),
  (4, { typ := 2, cls := 0, rights := rwRwRR, hi := 23, mirror := [(.CXP_LNK_CTL_MASTER, 0, 5)] }),
  (5, { typ := 2, cls := 0, rights := rwRwRR, hi := 7, mirror := [(.CXP_LNK_CTL_EXT_IDX, 0, 3)] }),
  (6, { typ := 3, cls := 0, rights := rwRwRR, hi := 65535, mirror := [(.CXP_LNK_UPLAT, 0, 16)] })] }

/-- Camera register access (R61). -/
def od2180 : OdGroup := { base := 0x2180, count := 24, subs := [
  (1, { typ := 4, cls := 2, rights := rwRwRwNo, hi := 0xffffffff }),
  (2, { typ := 9, cls := 2, rights := rwRwRwNo, len := (4, 256) }),
  (3, { typ := 3, cls := 2, rights := rwRwRwNo, hi := 65535 }),
  (4, { typ := 2, cls := 2, rights := rwRwRwNo, hi := 2 }),
  (5, { typ := 2, cls := 2, rights := rRRNo, hi := 255 })] }

/-- Stream contexts (R79). -/
def od2200 : OdGroup := { base := 0x2200, count := 64, subs := [
  (1, { typ := 2, cls := 0, rights := rwRwRR, hi := 23, mirror := [(.ITK_CTX_CFG1_LINK, 0, 5)] }),
  (2, { typ := 2, cls := 0, rights := rwRwRR, hi := 255, mirror := [(.ITK_CTX_CFG1_STREAM, 0, 8)] }),
  (3, { typ := 3, cls := 0, rights := rwRwRR, lo := 1, hi := 65535, mirror := [(.ITK_CTX_CFG0_WIDTH, 0, 16)] }),
  (4, { typ := 3, cls := 0, rights := rwRwRR, dflt := 256, lo := 1, hi := 8191, mirror :=
    [(.ITK_CTX_CFG0_BLKLEN, 0, 13)] }),
  (5, { typ := 4, cls := 0, rights := rwRwRR, dflt := 20000, lo := 1, hi := 0xffffff, mirror :=
    [(.ITK_CTX_TMO, 0, 24)] }),
  (6, { typ := 3, cls := 0, rights := rwRwRR, dflt := 100, lo := 1, hi := 65535, mirror := [(.ITK_CTX_AGE, 0, 16)] }),
  (7, { typ := 6, cls := 0, rights := rwRwRR, hi := 0xffffffff, mirror := [(.ITK_CTX_OFS, 0, 32)] }),
  (8, { typ := 2, cls := 0, rights := rwRwRR, hi := 7, mirror := [(.ITK_CTX_CFG1_CG, 0, 3)] }),
  (9, { typ := 5, cls := 0, rights := rwRwRR, dflt := 1, lo := 1, hi := 0xffffffffffffffff, mirror :=
    [(.ITK_CTX_LANES, 0, 64)] }),
  (10, { typ := 2, cls := 0, rights := rwRwRR, hi := 15, mirror := [(.ITK_CTX_CFG1_FMT, 0, 4)] }),
  (11, { typ := 1, cls := 0, rights := rwRwRR, hi := 1 })] }

/-- Fusion contexts (R79). -/
def od2300 : OdGroup := { base := 0x2300, count := 16, subs := [
  (1, { typ := 9, cls := 0, rights := rwRwRR, len := (2, 8) }),
  (2, { typ := 4, cls := 0, rights := rwRwRR, lo := 1, hi := 0xffffffff, mirror := [(.ITK_FUS_BUDGET, 0, 32)] }),
  (3, { typ := 3, cls := 0, rights := rwRwRR, hi := 16383, mirror := [(.ITK_FUS_CTL_SC, 0, 14)] }),
  (4, { typ := 1, cls := 0, rights := rwRwRR, hi := 1 })] }

/-- Pipeline settings (R102). -/
def od2400 : OdGroup := { base := 0x2400, count := 64, subs := [
  (1, { typ := 2, cls := 0, rights := rwRwRR, dflt := 63, hi := 63, mirror := [(.ITK_PP_CTL_BYP, 0, 6)] }),
  (2, { typ := 2, cls := 0, rights := rwRwRR, hi := 3, mirror := [(.ITK_PP_CTL_SCHED, 0, 2)] }),
  (3, { typ := 3, cls := 0, rights := rwRwRR, dflt := 2048, hi := 16383, mirror :=
    [(.ITK_PP_STRIPE_STRIPEW, 0, 14)] }),
  (4, { typ := 3, cls := 0, rights := rwRwRR, dflt := 64, lo := 1, hi := 1023, mirror :=
    [(.ITK_PP_STRIPE_RUNMAX, 0, 10)] }),
  (5, { typ := 3, cls := 0, rights := rwRwRR, dflt := 320, lo := 1, hi := 2047, mirror := [(.ITK_PP_RING, 0, 11)] }),
  (6, { typ := 2, cls := 0, rights := rwRwRR, dflt := 31, lo := 1, hi := 31, mirror := [(.ITK_PP_CTL_PIPES, 0, 5)] }),
  (7, { typ := 4, cls := 0, rights := rwRwRR, dflt := 0xfff00001, hi := 0xffffffff, mirror :=
    [(.ITK_PP_MERGE_NEXP, 0, 2), (.ITK_PP_MERGE_SAT, 16, 16)] }),
  (8, { typ := 4, cls := 0, rights := rwRwRR, dflt := 0x1000100, hi := 0xffffffff, mirror :=
    [(.ITK_PP_RATIO_RATIO1, 0, 16), (.ITK_PP_RATIO_RATIO2, 16, 16)] }),
  (9, { typ := 4, cls := 0, rights := rwRwRR, hi := 0xffffffff, mirror :=
    [(.ITK_PP_COLOUR_DR, 0, 5), (.ITK_PP_COLOUR_DG, 5, 5), (.ITK_PP_COLOUR_DB, 10, 5), (.ITK_PP_COLOUR_CFA, 16, 2)] }),
  (10, { typ := 4, cls := 0, rights := rwRwRR, dflt := 16384, hi := 0xffffffff, mirror :=
    [(.ITK_PP_RSMP_HSCALE, 0, 16), (.ITK_PP_RSMP_WOUT, 16, 16)] }),
  (11, { typ := 6, cls := 0, rights := rwRwRR, hi := 0xffffffff, mirror := [(.ITK_PP_HOFS, 0, 32)] }),
  (12, { typ := 4, cls := 0, rights := rwRwRR, hi := 0xffffffff, mirror := [(.ITK_PP_VPITCH, 0, 32)] }),
  (13, { typ := 2, cls := 0, rights := rwRwRR, hi := 3, mirror := [(.ITK_PP_CTL_LEVELS, 0, 2)] }),
  (14, { typ := 2, cls := 0, rights := rwRwRR, dflt := 129, hi := 255, mirror :=
    [(.ITK_PP_CTL_OUTFMT, 0, 2), (.ITK_PP_CTL_SHIFT, 4, 4)] }),
  (15, { typ := 2, cls := 0, rights := rwRwRR, dflt := 2, lo := 1, hi := 127, mirror :=
    [(.ITK_PP_OBUFCFG_NBUF, 0, 7)] }),
  (16, { typ := 4, cls := 0, rights := rwRwRR, hi := 0xffffffff, mirror :=
    [(.ITK_PP_SYNC_SC, 0, 14), (.ITK_PP_SYNC_RELSC, 16, 14)] }),
  (17, { typ := 3, cls := 0, rights := rwRwRR, dflt := 4128, hi := 65535, mirror :=
    [(.ITK_PP_STATS_EN, 0, 1), (.ITK_PP_STATS_HSHIFT, 1, 5), (.ITK_PP_STATS_NSLOT, 8, 8)] }),
  (18, { typ := 3, cls := 0, rights := rwRwRR, hi := 16383, mirror := [(.ITK_PP_OLMAX, 0, 14)] }),
  (19, { typ := 4, cls := 2, rights := rwRwRR, hi := 0xffffffff })] }

/-- Stage tables (R102). -/
def od2500 : OdGroup := { base := 0x2500, count := 64, subs := [
  (1, { typ := 9, cls := 1, rights := rwRwRR, len := (8192, 8192) }),
  (2, { typ := 9, cls := 1, rights := rwRwRR, len := (0, 4194304) }),
  (3, { typ := 9, cls := 1, rights := rwRwRR, len := (0, 2048) })] }

/-- Recipe switch (R38). -/
def od3000 : OdGroup := { base := 0x3000, count := 1, subs := [
  (2, { typ := 2, cls := 2, rights := rwRwRR, hi := 255 }),
  (3, { typ := 7, cls := 2, rights := rwRwRR, hi := 0xffffffffffffffff }),
  (4, { typ := 7, cls := 2, rights := rRRR, hi := 0xffffffffffffffff })] }

/-- Modes of determinism (R128, R225, R379). -/
def od3001 : OdGroup := { base := 0x3001, count := 1, subs := [
  (1, { typ := 1, cls := 0, rights := rwRwRR, hi := 1 }),
  (2, { typ := 5, cls := 2, rights := rRRR, hi := 0xffffffffffffffff }),
  (3, { typ := 4, cls := 2, rights := rRRR, hi := 0xffffffff }),
  (4, { typ := 1, cls := 2, rights := rwNoRwNo, hi := 1 })] }

/-- Skim (R156). -/
def od3002 : OdGroup := { base := 0x3002, count := 1, subs := [
  (1, { typ := 2, cls := 0, rights := rwRwRR, hi := 255 }),
  (2, { typ := 5, cls := 2, rights := rRRR, hi := 0xffffffffffffffff })] }

/-- Recipe slots (R37, R182). -/
def od3010 : OdGroup := { base := 0x3010, count := 8, subs := [
  (1, { typ := 2, cls := 2, rights := rRRR, hi := 255 }),
  (2, { typ := 4, cls := 0, rights := rwRwRR, hi := 0xffffffff }),
  (3, { typ := 4, cls := 0, rights := rwRwRR, hi := 0xffffffff }),
  (4, { typ := 4, cls := 2, rights := rRRR, hi := 0xffffffff }),
  (5, { typ := 4, cls := 2, rights := rRRR, hi := 0xffffffff })] }

/-- Memory (R182). -/
def od3020 : OdGroup := { base := 0x3020, count := 1, subs := [
  (1, { typ := 3, cls := 0, rights := rwRwRR, dflt := 64, hi := 256 }),
  (2, { typ := 2, cls := 0, rights := rwRwRR, dflt := 16, lo := 16, hi := 40 }),
  (3, { typ := 3, cls := 0, rights := rwRwRR, hi := 65535 }),
  (4, { typ := 3, cls := 0, rights := rwRwRR, dflt := 60, hi := 65535, mirror := [(.MEM_SCRUB, 0, 16)] })] }

/-- Memory errors (R182). -/
def od3021 : OdGroup := { base := 0x3021, count := 1, subs := [
  (1, { typ := 4, cls := 2, rights := rRRR, hi := 0xffffffff }),
  (2, { typ := 4, cls := 2, rights := rRRR, hi := 0xffffffff }),
  (3, { typ := 4, cls := 2, rights := rRRR, hi := 0xffffffff }),
  (4, { typ := 4, cls := 2, rights := rRRR, hi := 0xffffffff }),
  (5, { typ := 4, cls := 2, rights := rRRR, hi := 0xffffffff })] }

/-- Scheduler (R211). -/
def od3030 : OdGroup := { base := 0x3030, count := 1, subs := [
  (1, { typ := 3, cls := 0, rights := rwRwRR, dflt := 100, lo := 10, hi := 10000, mirror :=
    [(.JOB_CTL_SLICE, 0, 16)] }),
  (2, { typ := 3, cls := 0, rights := rwRwRR, dflt := 50, hi := 65535, mirror := [(.JOB_CTL_MARGIN, 0, 16)] }),
  (3, { typ := 5, cls := 2, rights := rRRR, hi := 0xffffffffffffffff }),
  (4, { typ := 5, cls := 2, rights := rRRR, hi := 0xffffffffffffffff }),
  (5, { typ := 5, cls := 2, rights := rRRR, hi := 0xffffffffffffffff }),
  (6, { typ := 5, cls := 2, rights := rRRR, hi := 0xffffffffffffffff }),
  (7, { typ := 4, cls := 2, rights := rRRR, hi := 0xffffffff }),
  (8, { typ := 4, cls := 2, rights := rRRR, hi := 0xffffffff })] }

/-- Line master (R13, R18 to R20, R248). -/
def od4000 : OdGroup := { base := 0x4000, count := 1, subs := [
  (1, { typ := 2, cls := 0, rights := rwRwRR, hi := 255 }),
  (2, { typ := 3, cls := 0, rights := rwRwRR, dflt := 4, lo := 1, hi := 65535 }),
  (3, { typ := 4, cls := 0, rights := rwRwRR, dflt := 100, hi := 0xffffffff }),
  (4, { typ := 7, cls := 2, rights := rRRR, hi := 0xffffffffffffffff }),
  (5, { typ := 6, cls := 2, rights := rRRR, hi := 0xffffffff }),
  (6, { typ := 6, cls := 2, rights := rRRR, hi := 0xffffffff }),
  (7, { typ := 2, cls := 2, rights := rRRR, hi := 255 }),
  (8, { typ := 2, cls := 0, rights := rwRwRR, dflt := 4, hi := 255 })] }

/-- Lanes (R24). -/
def od4001 : OdGroup := { base := 0x4001, count := 1, subs := [
  (1, { typ := 2, cls := 0, rights := rwRwRR, dflt := 1, lo := 1, hi := 64 })] }

/-- Part detection (R25). -/
def od4010 : OdGroup := { base := 0x4010, count := 64, subs := [
  (1, { typ := 2, cls := 0, rights := rwRwRR, hi := 1 }),
  (2, { typ := 2, cls := 0, rights := rwRwRR, hi := 15 }),
  (3, { typ := 6, cls := 0, rights := rwRwRR, hi := 0xffffffff })] }

/-- Ejection (R36, R270). -/
def od4100 : OdGroup := { base := 0x4100, count := 8, subs := [
  (1, { typ := 9, cls := 0, rights := rwRwRR, len := (64, 64) }),
  (2, { typ := 9, cls := 0, rights := rwRwRR, len := (512, 512) })] }

/-- Encoders (R248). -/
def od4200 : OdGroup := { base := 0x4200, count := 4, subs := [
  (1, { typ := 2, cls := 0, rights := rwRwRR, hi := 2, mirror := [(.ENC_CFG_TYPE, 0, 3)] }),
  (2, { typ := 1, cls := 0, rights := rwRwRR, hi := 1, mirror := [(.ENC_CFG_EN, 0, 1)] }),
  (3, { typ := 1, cls := 0, rights := rwRwRR, hi := 1, mirror := [(.ENC_CFG_INV, 0, 1)] }),
  (4, { typ := 2, cls := 0, rights := rwRwRR, dflt := 12, lo := 2, hi := 12, mirror := [(.ENC_CFG_INTERP, 0, 4)] }),
  (5, { typ := 4, cls := 0, rights := rwRwRR, dflt := 0x28a00fa, hi := 0xffffffff, mirror :=
    [(.ENC_WIN_AMIN, 0, 16), (.ENC_WIN_AMAX, 16, 16)] }),
  (6, { typ := 2, cls := 0, rights := rwRwRR, dflt := 4, lo := 1, hi := 255, mirror := [(.ENC_CFG_FLTN, 0, 8)] }),
  (7, { typ := 4, cls := 0, rights := rwRwRR, hi := 0xffffffff, mirror :=
    [(.ENC_ZPER, 0, 31), (.ENC_CFG_ZEN, 31, 1)] }),
  (8, { typ := 4, cls := 0, rights := rwRwRR, dflt := 0x2064000a, hi := 0xffffffff, mirror :=
    [(.ENC_BISS_PERIOD, 0, 12), (.ENC_BISS_MAF, 16, 7), (.ENC_BISS_LEN, 24, 7)] }),
  (9, { typ := 4, cls := 0, rights := rwRwRR, dflt := 65536, lo := 1, hi := 0xffffffff, mirror :=
    [(.ENC_MAXSTEP, 0, 32)] }),
  (10, { typ := 4, cls := 0, rights := rwRwRR, dflt := 64, hi := 0xffffffff, mirror := [(.ENC_GUARD, 0, 32)] }),
  (11, { typ := 7, cls := 2, rights := rRRR, hi := 0xffffffffffffffff }),
  (12, { typ := 2, cls := 2, rights := rwRwRR, hi := 255 })] }

/-- Compare generators (R248). -/
def od4300 : OdGroup := { base := 0x4300, count := 8, subs := [
  (1, { typ := 2, cls := 0, rights := rwRwRR, dflt := 4, hi := 4, mirror := [(.ENC_CG_CTL_SRC, 0, 3)] }),
  (2, { typ := 7, cls := 0, rights := rwRwRR, hi := 0xffffffffffffffff, mirror := [(.ENC_CG_START, 0, 64)] }),
  (3, { typ := 4, cls := 0, rights := rwRwRR, dflt := 65536, lo := 65536, hi := 0xffffffff, mirror :=
    [(.ENC_CG_SPACE, 0, 32)] }),
  (4, { typ := 4, cls := 0, rights := rwRwRR, hi := 0xffffffff, mirror := [(.ENC_CG_COUNT, 0, 32)] }),
  (5, { typ := 1, cls := 0, rights := rwRwRR, hi := 1, mirror := [(.ENC_CG_CTL_CONTINUOUS, 0, 1)] }),
  (6, { typ := 1, cls := 0, rights := rwRwRR, hi := 1, mirror := [(.ENC_CG_CTL_REV, 0, 1)] }),
  (7, { typ := 1, cls := 2, rights := rwRwRR, hi := 1 }),
  (8, { typ := 4, cls := 2, rights := rRRR, hi := 0xffffffff })] }

/-- Trigger outputs (R248). -/
def od4400 : OdGroup := { base := 0x4400, count := 8, subs := [
  (1, { typ := 1, cls := 0, rights := rwRwRR, hi := 1, mirror := [(.ENC_TRG_CFG_EN, 0, 1)] }),
  (2, { typ := 2, cls := 0, rights := rwRwRR, hi := 7, mirror := [(.ENC_TRG_CFG_CG, 0, 3)] }),
  (3, { typ := 1, cls := 0, rights := rwRwRR, hi := 1, mirror := [(.ENC_TRG_CFG_POL, 0, 1)] }),
  (4, { typ := 3, cls := 0, rights := rwRwRR, dflt := 40, lo := 1, hi := 65535, mirror :=
    [(.ENC_TRG_CFG_WIDTH, 0, 16)] }),
  (5, { typ := 3, cls := 0, rights := rwRwRR, hi := 65535, mirror := [(.ENC_TRG_DLY_DELAY, 0, 16)] })] }

/-- Ejector outputs (R270). -/
def od4500 : OdGroup := { base := 0x4500, count := 32, subs := [
  (1, { typ := 1, cls := 0, rights := rwRwRR, hi := 1, mirror := [(.SEP_OUT_CFG_EN, 0, 1)] }),
  (2, { typ := 4, cls := 0, rights := rwRwRR, hi := 0xffffffff, mirror := [(.SEP_OUT_OFS, 0, 32)] }),
  (3, { typ := 2, cls := 0, rights := rwRwRR, hi := 2, mirror := [(.SEP_OUT_CFG_DMODE, 0, 2)] }),
  (4, { typ := 4, cls := 0, rights := rwRwRR, hi := 0xffffffff, mirror := [(.SEP_OUT_DWELL, 0, 32)] }),
  (5, { typ := 3, cls := 0, rights := rwRwRR, hi := 65535, mirror := [(.SEP_OUT_LAT, 0, 16)] }),
  (6, { typ := 3, cls := 0, rights := rwRwRR, hi := 65535, mirror := [(.SEP_OUT_CFG_MINGAP, 0, 16)] }),
  (7, { typ := 3, cls := 0, rights := rwRwRR, dflt := 1000, lo := 1, hi := 65535, mirror :=
    [(.SEP_OUT_MAXON, 0, 16)] })] }

/-- The Separator (R270). -/
def od4600 : OdGroup := { base := 0x4600, count := 1, subs := [
  (1, { typ := 3, cls := 0, rights := rwRwRR, dflt := 287, hi := 65535, mirror :=
    [(.SEP_LSTOP_OUT, 0, 5), (.SEP_LSTOP_POL, 8, 1), (.SEP_LSTOP_EN, 15, 1)] }),
  (2, { typ := 1, cls := 2, rights := rwRwRwNo, hi := 1 }),
  (3, { typ := 1, cls := 2, rights := rwRwRR, hi := 1 }),
  (4, { typ := 4, cls := 2, rights := rRRR, hi := 0xffffffff }),
  (5, { typ := 4, cls := 2, rights := rRRR, hi := 0xffffffff }),
  (16, { typ := 4, cls := 2, rights := rRRR, hi := 0xffffffff }),
  (17, { typ := 4, cls := 2, rights := rRRR, hi := 0xffffffff }),
  (18, { typ := 4, cls := 2, rights := rRRR, hi := 0xffffffff }),
  (19, { typ := 4, cls := 2, rights := rRRR, hi := 0xffffffff }),
  (20, { typ := 4, cls := 2, rights := rRRR, hi := 0xffffffff })] }

/-- Field side (R289). -/
def od5000 : OdGroup := { base := 0x5000, count := 1, subs := [
  (1, { typ := 4, cls := 0, rights := rwRwRR, dflt := 1000, lo := 20, hi := 100000 }),
  (2, { typ := 4, cls := 0, rights := rwRwRR, hi := 0xffffffff }),
  (3, { typ := 3, cls := 2, rights := rRRR, hi := 65535 }),
  (4, { typ := 3, cls := 2, rights := rRRR, hi := 65535 }),
  (5, { typ := 4, cls := 2, rights := rwRwRR, hi := 0xffffffff }),
  (6, { typ := 4, cls := 2, rights := rwRwRR, hi := 0xffffffff })] }

/-- Safe states (R289). -/
def od5100 : OdGroup := { base := 0x5100, count := 32, subs := [
  (1, { typ := 2, cls := 0, rights := rwRwRwR, hi := 2 })] }

/-- Field inputs (R289). -/
def od5200 : OdGroup := { base := 0x5200, count := 16, subs := [
  (1, { typ := 2, cls := 0, rights := rwRwRR, dflt := 10, hi := 255 }),
  (2, { typ := 1, cls := 0, rights := rwRwRR, hi := 1 })] }

/-- Time (R353). -/
def od6000 : OdGroup := { base := 0x6000, count := 1, subs := [
  (1, { typ := 2, cls := 0, rights := rwRwRwR, dflt := 1, hi := 3, mirror := [(.TIM_CTL_PTPMODE, 0, 2)] }),
  (2, { typ := 2, cls := 0, rights := rwRwRwR, hi := 127 }),
  (3, { typ := 2, cls := 0, rights := rwRwRwR, hi := 1 }),
  (4, { typ := 2, cls := 0, rights := rwRwRwR, hi := 2 }),
  (5, { typ := 4, cls := 0, rights := rwRwRwR, dflt := 0xf4240, hi := 0xffffffff, mirror := [(.TIM_STEPMAX, 0, 32)] }),
  (6, { typ := 1, cls := 2, rights := rwRwRwNo, hi := 1, mirror := [(.TIM_CTL_OVR, 0, 1)] }),
  (7, { typ := 1, cls := 2, rights := rwRRNo, hi := 1 }),
  (8, { typ := 5, cls := 2, rights := rRRR, hi := 0xffffffffffffffff }),
  (9, { typ := 2, cls := 2, rights := rRRR, hi := 255 }),
  (10, { typ := 6, cls := 2, rights := rRRR, hi := 0xffffffff }),
  (11, { typ := 1, cls := 0, rights := rwRwRwR, dflt := 1, hi := 1 }),
  (12, { typ := 2, cls := 0, rights := rwRwRwR, dflt := 128, hi := 255 }),
  (13, { typ := 2, cls := 0, rights := rwRwRwR, dflt := 128, hi := 255 })] }

/-- Ethernet ports (R353). -/
def od6100 : OdGroup := { base := 0x6100, count := 3, subs := [
  (1, { typ := 1, cls := 0, rights := rwRRwR, dflt := 1, hi := 1, mirror := [(.ETH_CTL_EN, 0, 1)] }),
  (2, { typ := 2, cls := 0, rights := rwRRwR, dflt := 1, hi := 2, mirror := [(.ETH_CTL_SPEED, 0, 2)] }),
  (3, { typ := 2, cls := 0, rights := rwRRwR, hi := 2, mirror := [(.ETH_CTL_FEC, 0, 2)] }),
  (4, { typ := 4, cls := 0, rights := rwRRwR, hi := 0xffffffff }),
  (5, { typ := 4, cls := 0, rights := rwRRwR, hi := 0xffffffff }),
  (6, { typ := 4, cls := 0, rights := rwRRwR, hi := 0xffffffff }),
  (7, { typ := 5, cls := 0, rights := rRRR, hi := 0xffffffffffffffff })] }

/-- Time-triggered outputs (R353). -/
def od6200 : OdGroup := { base := 0x6200, count := 8, subs := [
  (1, { typ := 1, cls := 2, rights := rwRwRR, hi := 1 }),
  (2, { typ := 5, cls := 2, rights := rwRwRR, hi := 0xffffffffffffffff, mirror := [(.TIM_TTO_START, 0, 40)] }),
  (3, { typ := 4, cls := 0, rights := rwRwRR, hi := 0xffffffff, mirror := [(.TIM_TTO_PERIOD, 0, 32)] }),
  (4, { typ := 4, cls := 0, rights := rwRwRR, dflt := 100, lo := 1, hi := 0xffffffff, mirror :=
    [(.TIM_TTO_WIDTH, 0, 32)] }),
  (5, { typ := 1, cls := 0, rights := rwRwRR, hi := 1, mirror := [(.TIM_TTO_CTL_POL, 0, 1)] })] }

/-- The library (R312). -/
def od7000 : OdGroup := { base := 0x7000, count := 1, subs := [
  (1, { typ := 5, cls := 0, rights := rwRwRR, hi := 0xffffffffffffffff, mirror := [(.TCH_LIB_BASE, 7, 45)] }),
  (2, { typ := 3, cls := 0, rights := rwRwRR, hi := 65535, mirror := [(.TCH_LIB_SIZE, 0, 16)] }),
  (3, { typ := 4, cls := 0, rights := rwRwRR, hi := 0x1000000, mirror := [(.TCH_LIB_MAX, 0, 25)] }),
  (4, { typ := 5, cls := 0, rights := rwRwRR, hi := 0xffffffffffffffff, mirror := [(.TCH_RING_BASE, 12, 40)] }),
  (5, { typ := 3, cls := 0, rights := rwRwRR, hi := 65535, mirror := [(.TCH_RING_SIZE, 0, 16)] }),
  (6, { typ := 3, cls := 0, rights := rwRwRR, dflt := 64, lo := 1, hi := 4096, mirror := [(.DEC_BUDGET, 0, 16)] }),
  (7, { typ := 2, cls := 0, rights := rwRwRR, dflt := 20, hi := 255, mirror := [(.DEC_BWCAP, 0, 8)] }),
  (8, { typ := 4, cls := 2, rights := rRRR, hi := 0xffffffff })] }

/-- Capture rules (R312). -/
def od7010 : OdGroup := { base := 0x7010, count := 8, subs := [
  (1, { typ := 2, cls := 0, rights := rwRwRR, hi := 63, mirror := [(.TCH_CAP_CTL_CTX, 0, 6)] }),
  (2, { typ := 1, cls := 0, rights := rwRwRR, hi := 1, mirror := [(.TCH_CAP_CTL_ALL, 0, 1)] }),
  (3, { typ := 9, cls := 0, rights := rwRwRR, len := (32, 32) }),
  (4, { typ := 4, cls := 0, rights := rwRwRR, hi := 0xffffffff, mirror := [(.TCH_CAP_MARGIN, 0, 32)] }),
  (5, { typ := 3, cls := 0, rights := rwRwRR, dflt := 1, lo := 1, hi := 65535, mirror := [(.TCH_CAP_RATE, 0, 16)] }),
  (6, { typ := 3, cls := 0, rights := rwRwRR, hi := 65535, mirror := [(.TCH_CAP_RATE_HOLDN, 0, 16)] }),
  (7, { typ := 1, cls := 0, rights := rwRwRR, hi := 1, mirror := [(.TCH_CAP_CTL_EN, 0, 1)] })] }

/-- Validation (R312). -/
def od7100 : OdGroup := { base := 0x7100, count := 1, subs := [
  (1, { typ := 2, cls := 2, rights := rwRwRR, hi := 7 }),
  (2, { typ := 2, cls := 2, rights := rwRwRR, hi := 7 }),
  (3, { typ := 5, cls := 2, rights := rwRwRR, hi := 0xffffffffffffffff }),
  (4, { typ := 2, cls := 2, rights := rwRwRR, hi := 1 }),
  (5, { typ := 2, cls := 2, rights := rRRR, hi := 255 }),
  (6, { typ := 4, cls := 2, rights := rRRR, hi := 0xffffffff }),
  (7, { typ := 4, cls := 2, rights := rRRR, hi := 0xffffffff }),
  (8, { typ := 4, cls := 2, rights := rRRR, hi := 0xffffffff }),
  (9, { typ := 3, cls := 0, rights := rwRwRR, dflt := 64880, hi := 65535 }),
  (10, { typ := 4, cls := 0, rights := rwRwRR, hi := 0xffffffff })] }

/-- The herd (R337). -/
def od8000 : OdGroup := { base := 0x8000, count := 1, subs := [
  (1, { typ := 2, cls := 0, rights := rwRwRwR, hi := 2 }),
  (2, { typ := 2, cls := 0, rights := rwRwRwR, dflt := 1, lo := 1, hi := 63 }),
  (3, { typ := 2, cls := 0, rights := rwRwRR, hi := 2 }),
  (4, { typ := 5, cls := 2, rights := rRRR, hi := 0xffffffffffffffff }),
  (5, { typ := 4, cls := 2, rights := rRRR, hi := 0xffffffff })] }

/-- The bulk window (R337). -/
def od8010 : OdGroup := { base := 0x8010, count := 1, subs := [
  (1, { typ := 5, cls := 0, rights := rwRwRR, hi := 0xffffffffffffffff, mirror := [(.HRD_BULK_BASE_ADDR, 12, 40)] }),
  (2, { typ := 3, cls := 0, rights := rwRwRR, hi := 65535, mirror := [(.HRD_BULK_SIZE_MIB, 0, 16)] })] }

/-- Members (R337). -/
def od8100 : OdGroup := { base := 0x8100, count := 64, subs := [
  (1, { typ := 5, cls := 0, rights := rwRwRNo, hi := 0xffffffffffffffff }),
  (2, { typ := 1, cls := 0, rights := rwRwRNo, hi := 1 })] }

/-- Zanyx ports (R337). -/
def od8200 : OdGroup := { base := 0x8200, count := 4, subs := [
  (1, { typ := 1, cls := 0, rights := rwRwRR, hi := 1, mirror := [(.ZXL_CTL_EN, 0, 1)] }),
  (2, { typ := 3, cls := 0, rights := rwRwRR, dflt := 50, lo := 1, hi := 65535, mirror := [(.ZXL_CTL_IDLE, 0, 16)] }),
  (3, { typ := 1, cls := 0, rights := rwRwRR, hi := 1, mirror := [(.ZXL_CTL_EQ_FREEZE, 0, 1)] }),
  (4, { typ := 1, cls := 0, rights := rwRwRR, hi := 1, mirror := [(.ZXL_CTL_NOSLEEP, 0, 1)] })] }

/-- Power (R403). -/
def od9000 : OdGroup := { base := 0x9000, count := 1, subs := [
  (1, { typ := 2, cls := 2, rights := rwRwRwR, lo := 1, hi := 3 }),
  (2, { typ := 1, cls := 0, rights := rwRwRwR, hi := 1, mirror := [(.RCP_CTL_RETAIN, 0, 1)] }),
  (3, { typ := 3, cls := 0, rights := rwRwRR, dflt := 100, hi := 65535, mirror := [(.RCP_CTL_RDYIDLE, 0, 16)] }),
  (4, { typ := 3, cls := 0, rights := rwRwRR, dflt := 5000, lo := 1, hi := 65535, mirror :=
    [(.RCP_DOZE_DOZEIDLE, 0, 16)] }),
  (5, { typ := 1, cls := 0, rights := rwRwRR, dflt := 1, hi := 1, mirror := [(.RCP_CTL_DOZEEN, 0, 1)] }),
  (6, { typ := 4, cls := 2, rights := rRRR, hi := 0xffffffff })] }

/-- Failed starts (R403). -/
def od9001 : OdGroup := { base := 0x9001, count := 1, subs := [
  (1, { typ := 1, cls := 2, rights := rwRwRwNo, hi := 1 }),
  (2, { typ := 2, cls := 0, rights := rRRwR, hi := 0 }),
  (3, { typ := 2, cls := 0, rights := rRRwR, dflt := 3, lo := 1, hi := 15 }),
  (4, { typ := 2, cls := 0, rights := rRRwR, dflt := 30, lo := 5, hi := 255 }),
  (5, { typ := 2, cls := 0, rights := rRRwR, hi := 1 })] }

/-- Sensors (R425). -/
def odA000 : OdGroup := { base := 0xA000, count := 1, subs := [
  (1, { typ := 9, cls := 2, rights := rRRR, len := (64, 64) }),
  (2, { typ := 9, cls := 2, rights := rRRR, len := (40, 40) }),
  (3, { typ := 2, cls := 0, rights := rwRwRwR, dflt := 30, hi := 100 }),
  (4, { typ := 2, cls := 0, rights := rwRwRwR, dflt := 2, hi := 2 }),
  (5, { typ := 4, cls := 2, rights := rRRR, dflt := 0x16e360, hi := 0xffffffff })] }

/-- The Tally (R425). -/
def odA100 : OdGroup := { base := 0xA100, count := 1, subs := [
  (1, { typ := 3, cls := 2, rights := rRRR, hi := 65535 }),
  (2, { typ := 1, cls := 2, rights := rRRR, hi := 1 }),
  (3, { typ := 4, cls := 2, rights := rRRR, hi := 0xffffffff }),
  (4, { typ := 1, cls := 2, rights := noNoRwNo, hi := 1 }),
  (5, { typ := 9, cls := 2, rights := rRRR, len := (1048576, 1048576) })] }

/-- Firmware (R425). -/
def odA200 : OdGroup := { base := 0xA200, count := 1, subs := [
  (1, { typ := 9, cls := 2, rights := wNoWNo, len := (257, 4194304) }),
  (2, { typ := 2, cls := 2, rights := rRRR, hi := 255 }),
  (3, { typ := 9, cls := 2, rights := rRRR, len := (16, 16) }),
  (4, { typ := 4, cls := 2, rights := rRRR, hi := 0xffffffff })] }

/-- Maintenance (R425). -/
def odA300 : OdGroup := { base := 0xA300, count := 1, subs := [
  (1, { typ := 2, cls := 2, rights := wNoWNo, hi := 7 }),
  (2, { typ := 9, cls := 2, rights := rRRR, len := (32, 32) })] }

/-- Observation (R425). -/
def odA400 : OdGroup := { base := 0xA400, count := 1, subs := [
  (1, { typ := 9, cls := 0, rights := rwRRwR, len := (1536, 1536) })] }

/-- The groups of the dictionary, ascending. -/
def odGroups : List OdGroup :=
  [od1000, od1001, od1010, od2100, od2180, od2200, od2300, od2400, od2500, od3000, od3001, od3002, od3010,
    od3020, od3021, od3030, od4000, od4001, od4010, od4100, od4200, od4300, od4400, od4500, od4600, od5000,
    od5100, od5200, od6000, od6100, od6200, od7000, od7010, od7100, od8000, od8010, od8100, od8200, od9000,
    od9001, odA000, odA100, odA200, odA300, odA400]

/-- The group of an index. -/
def odGroup? (index : Nat) : Option OdGroup := odGroups.find? fun g => decide (g.base ≤ index ∧ index < g.base + g.count)

/-- The entry of a subindex. -/
def OdGroup.entry? (g : OdGroup) (sub : Nat) : Option OdEntry := tabFind? g.subs sub

/-- The highest subindex present in a group. -/
def OdGroup.top (g : OdGroup) : Nat := (g.subs.map fun e => e.1).foldl max 0

/-- Subindex 0 of every index (R354). -/
def odSub0 : OdEntry := { typ := 2, cls := 2, rights := rRRR, hi := 255 }

/-- The entry of an index and subindex; none is NOENTRY (R354, R368). -/
def odEntry? (index sub : Nat) : Option OdEntry :=
  match odGroup? index with
  | none => none
  | some g => if sub = 0 then some odSub0 else g.entry? sub

/-- The place of an index in its group: the link, context, slot, channel, output, port or member that it stands for. -/
def odPlace (index : Nat) : Nat :=
  match odGroup? index with
  | some g => index - g.base
  | none => 0

/-- The base of the group of an index. -/
def odBase (index : Nat) : Nat :=
  match odGroup? index with
  | some g => g.base
  | none => 0

/-! ### Values (R355) -/

/-- The bytes of a number of a type; none for a string. -/
def typSize (typ : Nat) : Option Nat :=
  match typ with
  | 1 | 2 => some 1
  | 3 => some 2
  | 4 | 6 => some 4
  | 5 | 7 => some 8
  | _ => none

/-- The ASCII bytes of a text. -/
def asciiBytes (t : List Nat) : List Byte := t.map fun n => BitVec.ofNat 8 n

/-- "Stasuzu" and "GN-E96" (R369). -/
def vendorName : List Byte := asciiBytes [0x53, 0x74, 0x61, 0x73, 0x75, 0x7A, 0x75]
def deviceName : List Byte := asciiBytes [0x47, 0x4E, 0x2D, 0x45, 0x39, 0x36]

/-- The default ejection policy: 0b00 for GOOD, 0b01 for every other code (R36). -/
def defaultPolicy : List Byte := BitVec.ofNat 8 0x54 :: List.replicate 63 (BitVec.ofNat 8 0x55)

/-- The default of an entry; of an empty DOMAIN no bytes (R354; R369 for what manufacture writes). -/
def odDefault (index sub : Nat) (e : OdEntry) : OdVal :=
  if e.typ = 8 ∨ e.typ = 9 then
    if index = 0x1000 then .bytes (if sub = 1 then vendorName else if sub = 2 then deviceName else Config.serialNumber)
    else if odBase index = 0x4100 ∧ sub = 1 then .bytes defaultPolicy
    else if odBase index = 0x4100 ∨ index = 0xA400 ∨ odBase index = 0x7010 then .bytes (List.replicate e.len.1 0)
    else .bytes []
  else if index = 0x1000 ∧ sub = 5 then .num (Config.orderCode % 2)
  else if odBase index = 0x2100 ∧ sub = 4 then .num (odPlace index)
  else if index = 0x6102 ∧ sub = 2 then .num 2
  else if odBase index = 0x6100 ∧ sub = 7 then .num (wrap 64 (Config.macAddress (odPlace index)))
  else .num e.dflt

/-- The value that bytes spell for an entry; none where their number does not fit the type (R355, R363). -/
def odDecode (e : OdEntry) (b : List Byte) : Option OdVal :=
  match typSize e.typ with
  | some n => if b.length = n then some (.num (ofLe b)) else none
  | none => if e.len.1 ≤ b.length ∧ b.length ≤ e.len.2 then some (.bytes b) else none

/-- The bytes of a value of an entry. -/
def odEncode (e : OdEntry) (v : OdVal) : List Byte :=
  match v with
  | .num n => leBytes n ((typSize e.typ).getD 0)
  | .bytes b => b

/-- A number lies in the range of its entry. -/
def OdEntry.inRange (e : OdEntry) (v : OdVal) : Bool :=
  match v with
  | .num n => decide (e.lo ≤ n ∧ n ≤ e.hi)
  | .bytes _ => true

end Sys2Proof.Machine
end

