-- ==== Sys2Proof/Machine/Milkhouse.lean ====
section
/-! DEFINITION. Milkhouse (R386 to R420): scrub, the Tally, the option bytes, the firmware banks and the
update path, fans and self-tests. -/

namespace Sys2Proof.Machine

open Sys2Proof

/-! ### Scrub (R176) -/

/-- The lines of Vat: 128 bytes each. -/
def vatLines : Nat := 3145728

/-- SCRUB_ACCESS (R176, R418): scrub goes on continuously, so the activity starts or is queued where it was idle; while it runs, the next
line is read. A period of 0 stops scrub. [DEDUCED, log 29] -/
def Dev.scrubAccess (s : Dev) (e : MemEvent) : Dev :=
  let s := if s.rd .MEM_SCRUB = 0 then s else s.requestMnt .S
  if s.rd .MEM_SCRUB = 0 ∨ s.mntSt .S ≠ 2 ∨ !s.mntPower .S ∨ s.flag .GLB_MODE_FIXED then s
  else
    let s := match e with
      | .corrected _ => s.corrected false
      | e => s.meet e (128 * s.scrubLine) 20
    { s with scrubLine := (s.scrubLine + 1) % vatLines }

def execScrubAccess (event : MemEvent) (s : State) : Host.Outcome State Fault Refusal :=
  s.run (.scrubAccess event) fun d => d.scrubAccess event

/-! ### The Tally (R408 to R413) -/

/-- The severity of a code (R412). -/
def severity (code : Nat) : Nat :=
  if (0x40 ≤ code ∧ code ≤ 0x5F) ∨ code = 0xA1 then 2 else if 0x20 ≤ code then 1 else 0

/-- Bytes 0 to 55 of the record of an event (R408). [DEDUCED, log 123] -/
def TallyEvent.body (e : TallyEvent) : List Byte :=
  leBytes e.code 2 ++ leBytes (severity e.code) 1 ++ leBytes e.flags 1 ++ leBytes e.pcyc 4 ++ leBytes e.ophr 4 ++
    leBytes e.opms 4 ++ leBytes e.time 5 ++ leBytes 0 3 ++ leBytes e.partid 4 ++ leBytes e.unit 1 ++ leBytes 0 3 ++
    leBytes e.v0 8 ++ leBytes e.v1 8 ++ leBytes e.v2 8

/-- The 64 bytes of a valid record: body, CRC, three erased bytes, MARK (R408). -/
def TallyEvent.bytes (e : TallyEvent) : List Byte :=
  e.body ++ leBytes (crc32 e.body) 4 ++ [0xFF, 0xFF, 0xFF, 0xA5]

/-- The MARK of a slot: 0xFF where it is erased. -/
def Dev.tallyMark (s : Dev) (k : Nat) : Nat :=
  match tabFind? s.mlk.tally k with
  | some b => leAt b 63 1
  | none => 0xFF

/-- Byte `a` of the Tally region: an erased byte reads 0xFF (R413). -/
def Dev.tallyByte (s : Dev) (a : Nat) : Byte :=
  match tabFind? s.mlk.tally (a / 64) with
  | some b => b.getD (a % 64) 0xFF
  | none => 0xFF

/-- The valid records. -/
def Dev.tallyValid (s : Dev) : Nat := (s.mlk.tally.filter fun e => leAt e.2 63 1 == 0xA5).length

/-- The first key from `n` on that a table whose keys rise from there does not list. -/
def firstGap {α : Type} : Tab α → Nat → Nat
  | [], n => n
  | (k, _) :: t, n => if k = n then firstGap t (n + 1) else if k < n then firstGap t n else n

/-- The first slot that is erased (R409). -/
def Dev.erasedSlot (s : Dev) : Nat := firstGap s.mlk.tally 0

/-- `TLY_USED` and `FULL` follow the region. -/
def Dev.noteTally (s : Dev) : Dev :=
  (s.wr .TLY_USED 0 s.mlk.tally.length).setFlag .TLY_STAT_FULL 0 (tabFind? s.mlk.tally 16383).isSome

/-- A record is programmed into a slot. -/
def Dev.putTally (s : Dev) (k : Nat) (e : TallyEvent) : Dev :=
  { s with mlk := { s.mlk with tally := tabPut s.mlk.tally k e.bytes } }.noteTally

/-- The event at the head of the queue has been dealt with. -/
def Dev.popTally (s : Dev) : Dev := { s with mlk := { s.mlk with queue := s.mlk.queue.drop 1 } }

/-- An event goes into the next erased slot; the first that finds slots 0 to 16,382 taken becomes the FULL record in slot 16,383,
and every further one is counted (R411). -/
def Dev.writeEvent (s : Dev) (e : TallyEvent) : Dev :=
  if s.erasedSlot < 16383 then s.putTally s.erasedSlot e
  else if !s.flag .TLY_STAT_FULL then
    s.putTally 16383 { e with code := 1, partid := 0xFFFFFFFF, unit := 0xFF, v0 := e.code, v1 := 0, v2 := 0 }
  else s.count .TLY_DROP_CNT

/-- TALLY_WRITE (R409, R411, R419): the head of the queue is written, MARK last. Events wait while the region is erased, and in
fixed-schedule mode. [DEDUCED, log 117] -/
def Dev.tallyWrite (s : Dev) : Dev :=
  match s.mlk.queue with
  | [] => s
  | e :: _ =>
    if s.mlk.clearing.isSome then s
    else if !s.mayStart .T then s.setMnt .T 1
    else (s.writeEvent e).popTally.endMnt .T false

def execTallyWrite (s : State) : Host.Outcome State Fault Refusal := s.run .tallyWrite fun d => d.tallyWrite

/-- A clear of the Tally begins: what the CLEARED record will say is kept (R411). [DEDUCED, log 117] -/
def Dev.beginClear (s : Dev) : Dev :=
  if s.mlk.clearing.isSome then s
  else { s with mlk := { s.mlk with clearing := some (s.tallyValid, s.rd .TLY_DROP_CNT) } }.requestMnt .T

/-- The region is erased, and the first record after the clear is CLEARED (R411). [DEDUCED, log 117] -/
def Dev.finishClear (s : Dev) : Dev :=
  match s.mlk.clearing with
  | none => s
  | some (n, d) =>
    let e := s.tallyRecord 2 0xFF 0xFFFFFFFF n d 0
    let s := { s with mlk := { s.mlk with tally := [], clearing := none } }
    (s.wr .TLY_DROP_CNT 0 0).putTally 0 e

/-- TALLY_CLEAR (R411): a write of 1 to OD 0xA100:04. -/
def Dev.tallyClear (s : Dev) (port : Port) : Dev :=
  if !mayWrite noNoRwNo port then s.status stDenied else s.beginClear.status stOk

def execTallyClear (port : Port) (s : State) : Host.Outcome State Fault Refusal :=
  s.run (.tallyClear port) fun d => d.served port 0xA100 4 fun d => d.tallyClear port

/-- A reset falls into the erase: the slots erased by then, from the end of the region on, stay erased; how many is open (R411).
[DEDUCED, log 117] -/
def Dev.tearClear (s : Dev) : Dev :=
  if s.mlk.clearing.isNone then s
  else
    let k := s.freeValue 15
    { s.useFree with mlk := { s.mlk with tally := s.mlk.tally.filter fun e => decide (e.1 < k) } }.noteTally

/-- At stage 4, slots that hold programmed bytes without a valid MARK are voided (R409). [DEDUCED, log 117] -/
def Dev.voidTorn (s : Dev) : Dev :=
  let fix := fun (e : Nat × List Byte) => if leAt e.2 63 1 = 0xA5 then e else (e.1, spliceBytes e.2 63 [0])
  { s with mlk := { s.mlk with tally := s.mlk.tally.map fix } }.noteTally

/-- The slots whose record is valid and fails its CRC, among those that a read of `n` bytes from `a` on touches (R409). -/
def Dev.tallyDamaged (s : Dev) (a n : Nat) : Bool :=
  s.mlk.tally.any fun e => decide (64 * e.1 < a + n ∧ a < 64 * e.1 + 64) && leAt e.2 63 1 == 0xA5 &&
    leAt e.2 56 4 != crc32 (e.2.take 56)

/-- OPERATING_HOURS_STORE (R410). -/
def Dev.storeHours (s : Dev) : Dev :=
  if !s.firmware then s
  else
    let s := { s with mlk := { s.mlk with opStored := s.mlk.opTime } }
    s.wr .TLY_OPHR 0 (s.mlk.opTime / periodsPerHour)

def execOperatingHoursStore (s : State) : Host.Outcome State Fault Refusal :=
  s.run .operatingHoursStore fun d => d.storeHours

/-! ### Option bytes (R386 to R388) -/

/-- A copy's fields lie in their ranges (R386, R387, R415). -/
def OptionCopy.usable (o : OptionCopy) : Bool :=
  o.good && decide (1 ≤ o.failLim ∧ o.failLim ≤ 15) && decide (5 ≤ o.startTmo ∧ o.startTmo ≤ 255) &&
    decide (o.confMode ≤ 1 ∧ o.retain ≤ 1 ∧ o.active ≤ 1) && (o.tryBank == 0xFF || decide (o.tryBank ≤ 1)) &&
    o.tryBank != o.active

/-- Copy A is the newer of two good ones, by signed 32-bit difference (R386). -/
def Dev.optNewerA (s : Dev) : Bool := decide (0 ≤ sgn 32 (s.mlk.optA.seq + 2 ^ 32 - s.mlk.optB.seq % 2 ^ 32))

/-- The copy that stage 1 selects, and whether it is B (R386). [DEDUCED, log 118] -/
def Dev.optSelect (s : Dev) : Option (OptionCopy × Bool) :=
  let a := s.mlk.optA
  let b := s.mlk.optB
  match a.usable, b.usable with
  | true, true => if s.optNewerA then some (a, false) else some (b, true)
  | true, false => some (a, false)
  | false, true => some (b, true)
  | false, false => none

/-- An edit of the option bytes. [DEDUCED, log 118] -/
def OptionCopy.edit (o : OptionCopy) (e : OptionEdit) : OptionCopy :=
  { o with
    failLim := e.failLim.getD o.failLim
    startTmo := e.startTmo.getD o.startTmo
    confMode := e.confMode.getD o.confMode
    retain := e.retain.getD o.retain
    active := e.active.getD o.active
    tryBank := e.tryBank.getD o.tryBank
    rollback := e.rollback.getD o.rollback }

/-- The newest content, with the edits that wait. -/
def Dev.optLatest (s : Dev) : OptionCopy :=
  s.mlk.edits.foldl OptionCopy.edit (match s.optSelect with
    | some (o, _) => o
    | none => {})

/-- A rewrite of the option bytes is requested (R388, R419). [DEDUCED, log 118] -/
def Dev.requestEdit (s : Dev) (e : OptionEdit) : Dev :=
  { s with mlk := { s.mlk with edits := s.mlk.edits ++ [e] } }.requestMnt .O

/-- Store the failed-start count in NVM (R389 to R391). -/
def Dev.storeCount (s : Dev) (n : Nat) : Dev := s.wr .RCP_FAILSTART_COUNT 0 n

/-- The count 0 is stored, and the next reset starts normally (R391). -/
def Dev.leaveRecovery (s : Dev) : Dev := { s.storeCount 0 with rst := { s.rst with recovery := false } }

/-- An update ends with the rewrite that sets TRYBANK; in Recovery it also stores the count 0 (R417). [DEDUCED, log 119] -/
def Dev.updateDone (s : Dev) : Dev :=
  let s := { s with mlk := { s.mlk with updStatus := 2 } }
  if s.power == .recovery then s.leaveRecovery else s

/-- Both copies take the edited content, the one with the lower SEQ first, under the higher SEQ plus 1 (R388).
[DEDUCED, log 118] -/
def Dev.rewriteOptions (s : Dev) (e : OptionEdit) : Dev :=
  let now := match s.optSelect with
    | some (o, _) => o
    | none => {}
  let o := { now.edit e with good := true, seq := wrap 32 (now.seq + 1) }
  { s with mlk := { s.mlk with optA := o, optB := o } }

/-- OPTION_REWRITE (R388): the running rewrite ends; further edits that wait are requested again. -/
def Dev.optionRewrite (s : Dev) : Dev :=
  match s.mlk.edits with
  | [] => s
  | e :: rest =>
    if s.mntSt .O ≠ 2 then s
    else
      let s := { s.rewriteOptions e with mlk := { (s.rewriteOptions e).mlk with edits := rest } }
      let s := if e.forUpdate then s.updateDone else s
      let s := s.endMnt .O false
      if rest.isEmpty then s else s.requestMnt .O

def execOptionRewrite (s : State) : Host.Outcome State Fault Refusal := s.run .optionRewrite fun d => d.optionRewrite

/-! ### Firmware banks and the update path (R414 to R417) -/

/-- The bytes of a bank. -/
def Dev.bank (s : Dev) (k : Nat) : List Byte := if k = 0 then s.mlk.bank0 else s.mlk.bank1

/-- Set the bytes of a bank. -/
def Dev.setBank (s : Dev) (k : Nat) (b : List Byte) : Dev :=
  if k = 0 then { s with mlk := { s.mlk with bank0 := b } } else { s with mlk := { s.mlk with bank1 := b } }

/-- The length of the code of an image. -/
def imageLen (b : List Byte) : Nat := leAt b 16 4
/-- The firmware version of an image. -/
def imageVersion (b : List Byte) : Nat := leAt b 8 4
/-- The security version of an image. -/
def imageSecurity (b : List Byte) : Nat := leAt b 12 4

/-- The number that big-endian bytes spell. -/
def ofBe (b : List Byte) : Nat := b.foldl (fun n x => 256 * n + x.toNat) 0

/-- Header, length and digest of an image (R414). -/
def imageSound (b : List Byte) : Bool :=
  let len := imageLen b
  b.take 4 == [0x47, 0x4E, 0x46, 0x57] && leAt b 4 4 == 1 && decide (1 ≤ len ∧ len ≤ 4194048) && decide (leAt b 20 4 < len) &&
    leAt b 24 8 == 0 && leAt b 176 80 == 0 && decide (256 + len ≤ b.length) &&
    Config.sha384 ((b.drop 256).take len) == ofBe ((b.drop 32).take 48)

/-- The signature of an image verifies against the module's key (R414). -/
def imageSigned (b : List Byte) : Bool := Config.keyGood && Config.ecdsaVerifies (Config.sha384 (b.take 80)) ((b.drop 80).take 96)

/-- The status that the check of an image ends with, 2 for one that passes (R414, R417). -/
def Dev.imageStatus (s : Dev) (b : List Byte) : Nat :=
  if !imageSound b then 3 else if !imageSigned b then 4 else if imageSecurity b < s.rd .MLK_ROLLBACK then 5 else 2

/-- A bank passes (R414). -/
def Dev.passes (s : Dev) (k : Nat) : Bool := s.imageStatus (s.bank k) == 2

/-- The last segment of an image has arrived (R417). An upload whose length is not that of its header is BADIMAGE.
[DEDUCED, log 119] -/
def Dev.takeImage (s : Dev) (b : List Byte) : Dev :=
  let st := if b.length = 256 + imageLen b then s.imageStatus b else 3
  if st = 2 then { s with mlk := { s.mlk with image := some b, updStatus := 1 } }.requestMnt .F
  else { s with mlk := { s.mlk with updStatus := st } }

/-- `n` bytes of which nothing is known. [DEDUCED, log 119] -/
def freeBytes (free n : Nat) : List Byte := (rangeFrom 0 n).map fun i => BitVec.ofNat 8 (Config.freeNat (free + i))

/-- FIRMWARE_BANK_WRITE (R417): the bank other than ACTIVE is written and read back; a good readback requests the rewrite that
sets TRYBANK. What a bank holds after a mismatch is open. [DEDUCED, log 119] -/
def Dev.bankWrite (s : Dev) (ok : Bool) : Dev :=
  match s.mlk.image with
  | none => s
  | some b =>
    if s.mntSt .F ≠ 2 then s
    else
      let k := 1 - s.optLatest.active
      let s := { s with mlk := { s.mlk with image := none } }
      if ok then
        let s := (s.setBank k b).tally 0x0013 k 0xFFFFFFFF (imageVersion b) (imageSecurity b)
        (s.endMnt .F false).requestEdit { tryBank := some k, forUpdate := true }
      else
        let s := { s.setBank k (freeBytes s.free b.length) with free := s.free + b.length }
        let s := { s with mlk := { s.mlk with updStatus := 6 } }
        (s.tally 0x00A3 2 0xFFFFFFFF 6).endMnt .F true

def execFirmwareBankWrite (readbackOk : Bool) (s : State) : Host.Outcome State Fault Refusal :=
  s.run (.firmwareBankWrite readbackOk) fun d => d.bankWrite readbackOk

/-! ### Requests of maintenance (R419) -/

/-- MAINTENANCE_REQUEST (R419): a write of OD 0xA300:01. -/
def Dev.maintenanceRequest (s : Dev) (port : Port) (a : Activity) : Dev :=
  if !mayWrite wNoWNo port then s.status stDenied else (s.requestMnt a).status stOk

def execMaintenanceRequest (port : Port) (activity : Activity) (s : State) : Host.Outcome State Fault Refusal :=
  s.run (.maintenanceRequest port activity) fun d => d.served port 0xA300 1 fun d => d.maintenanceRequest port activity

/-- Activities that R418 starts by themselves: the periodic ones. -/
def periodic : Activity → Bool
  | .L | .D | .C | .X | .S => true
  | _ => false

/-- MAINTENANCE_DUE (R418): the period of an activity has expired. -/
def Dev.maintenanceDue (s : Dev) (a : Activity) : Dev := if s.firmware && periodic a then s.requestMnt a else s

def execMaintenanceDue (activity : Activity) (s : State) : Host.Outcome State Fault Refusal :=
  s.run (.maintenanceDue activity) fun d => d.maintenanceDue activity

/-- MAINTENANCE_END (R419): a running activity ends; a Tally write ends with what it was for, an option-byte rewrite with its
copies written, and a firmware bank write that has an image ends with its own command. [DEDUCED, log 120] -/
def Dev.maintenanceEnd (s : Dev) (a : Activity) : Dev :=
  if s.mntSt a ≠ 2 then s
  else
    match a with
    | .T => s.finishClear.endMnt .T false
    | .O => if s.mlk.edits.isEmpty then s.endMnt .O false else s.optionRewrite
    | .F => if s.mlk.image.isSome then s else s.endMnt .F false
    | a => s.endMnt a false

def execMaintenanceEnd (activity : Activity) (s : State) : Host.Outcome State Fault Refusal :=
  s.run (.maintenanceEnd activity) fun d => d.maintenanceEnd activity

/-- SELF_TEST_DONE (R208, R415, R420): a Churn that passes returns to service; one that fails is held until the next warm reset.
The test of a Churn that has been dispatched to meanwhile has stopped. [DEDUCED, log 121] -/
def Dev.selfTestDone (s : Dev) (n : Nat) (pass : Bool) (testStep : Nat) : Dev :=
  if (s.resident n).isSome then s
  else if pass then (if bit s.mlk.tests n then s else s.setFlag .CHN_STAT_ISO n false)
  else
    let s := { s.setFlag .CHN_STAT_ISO n true with mlk := { s.mlk with tests := s.mlk.tests ||| oneBit n } }
    (s.tally 0x0053 n 0xFFFFFFFF testStep).raiseVec 13

def execSelfTestDone (chn : Fin 16) (pass : Bool) (testStep : Nat) (s : State) : Host.Outcome State Fault Refusal :=
  s.run (.selfTestDone chn pass testStep) fun d => d.selfTestDone chn pass testStep

/-! ### Fans (R407) -/

/-- The fans fitted. [DESIGN CHOICE, log 122] -/
def Dev.fansFitted (s : Dev) : Nat := s.odNum 0xA000 4 2

/-- FAN_FAILED (R407): a fan that is fitted turns too slowly for 2 s at 20 % duty or more. [DESIGN CHOICE, log 122] -/
def Dev.fanFailed (s : Dev) (k : Nat) : Dev :=
  if !s.firmware || decide (s.fansFitted ≤ k) || decide (s.rd .MLK_FAN < 20) || bit s.mlk.fanFail k then s
  else
    let s := { s with mlk := { s.mlk with fanFail := s.mlk.fanFail ||| oneBit k } }
    (s.tally 0x00A2 k 0xFFFFFFFF (s.rd .MLK_FAN)).raiseVec 11

def execFanFailed (fan : Fin 2) (s : State) : Host.Outcome State Fault Refusal :=
  s.run (.fanFailed fan) fun d => d.fanFailed fan

/-- The duty of the fans at the temperature of sensor 31, in 1/16 °C: the lowest duty up to 30 °C, 100 % from 95 °C, and between
them on a line; which of the two neighbouring percents is taken is open (R407, R433). [DESIGN CHOICE, log 122] -/
def Dev.fanDuty (s : Dev) (t : Int) : Nat :=
  let lo := s.odNum 0xA000 3 30
  if s.fansFitted = 0 then 0
  else if t ≤ 480 then lo
  else if 1520 ≤ t then 100
  else
    let x := (100 - lo) * (t - 480).toNat
    lo + x / 1040 + (if x % 1040 = 0 then 0 else s.freeValue 1)

end Sys2Proof.Machine
end

