-- ==== Sys2Proof/Machine/Epoth.lean ====
section
/-! DEFINITION. Decoding an Epoth strip (R296, R298 to R301), and the order of an epoch (R304). -/

namespace Sys2Proof.Machine

open Sys2Proof

/-- A decoded sample: width, lines, bytes per element, planes of rows. -/
structure Sample where
  w : Nat
  h : Nat
  eb : Nat
  planes : List (List (List Nat))
deriving DecidableEq, Repr

/-- The number of `n` bits, most significant first, and the bits after them. -/
def takeBits : Nat → List Bool → Option (Nat × List Bool)
  | 0, l => some (0, l)
  | _ + 1, [] => none
  | n + 1, b :: l => (takeBits n l).map fun r => (b.toNat * 2 ^ n + r.1, r.2)

/-- A run of one-bits and the zero bit after it; more than 31 are an error. -/
def unary : List Bool → Nat → Option (Nat × List Bool)
  | [], _ => none
  | false :: l, q => some (q, l)
  | true :: l, q => if 31 ≤ q then none else unary l (q + 1)

/-- `n` Rice codes of parameter `k`. -/
def riceCodes (k : Nat) : Nat → List Bool → Option (List (Bool × Nat) × List Bool)
  | 0, l => some ([], l)
  | n + 1, l =>
    match unary l 0 with
    | none => none
    | some (q, l) => match takeBits k l with
      | none => none
      | some (m, l) => (riceCodes k n l).map fun r => ((false, q * 2 ^ k + m) :: r.1, r.2)

/-- `n` raw samples of `b` bits. -/
def rawCodes (b : Nat) : Nat → List Bool → Option (List (Bool × Nat) × List Bool)
  | 0, l => some ([], l)
  | n + 1, l =>
    match takeBits b l with
    | none => none
    | some (v, l) => (rawCodes b n l).map fun r => ((true, v) :: r.1, r.2)

/-- `n` groups of a lossless line: whether a code is a raw sample, and its value. -/
def losslessGroups (b : Nat) : Nat → List Bool → Option (List (Bool × Nat) × List Bool)
  | 0, l => some ([], l)
  | n + 1, l =>
    match takeBits 4 l with
    | none => none
    | some (k, l) =>
      match if k = 15 then rawCodes b 32 l else riceCodes k 32 l with
      | none => none
      | some (g, l) => (losslessGroups b n l).map fun r => (g ++ r.1, r.2)

/-- The residual of a zigzag code. -/
def unzigzag (m : Nat) : Int := if m % 2 = 0 then (m / 2 : Nat) else -((m + 1) / 2 : Nat)

/-- The samples of a lossless line, from the prediction for its first one. -/
def losslessSamples (b : Nat) : Nat → List (Bool × Nat) → List Nat
  | _, [] => []
  | pred, (raw, v) :: l =>
    let x := if raw then v else unsgn b (pred + unzigzag v)
    x :: losslessSamples b x l

/-- A lossless line of `w` samples: its samples and the bytes it takes; none where it is corrupt (R301). -/
def losslessLine (b w above : Nat) (bytes : List Byte) : Option (List Nat × Nat) :=
  let count := leAt bytes 0 4
  if bytes.length < 4 + count then none
  else
    match losslessGroups b (ceilDiv w 32) ((bytes.drop 4).take count |>.flatMap msbBits) with
    | none => none
    | some (g, rest) =>
      if 8 ≤ rest.length ∨ rest.any (fun x => x) then none
      else some ((losslessSamples b above g).take w, 4 + count)

/-- The lines of a lossless plane, and the bytes after them. -/
def losslessPlane (b w : Nat) : Nat → Nat → List Byte → Option (List (List Nat) × Nat)
  | 0, _, _ => some ([], 0)
  | n + 1, above, bytes =>
    match losslessLine b w above bytes with
    | none => none
    | some (l, k) => (losslessPlane b w n (l.headD 0) (bytes.drop k)).map fun r => (l :: r.1, k + r.2)

/-- A group of a fixed-rate line. -/
def fixedGroup (rate b : Nat) (bytes : List Byte) : List Nat :=
  let sh := leAt bytes 0 1
  let num := leAt bytes 1 (4 * rate)
  (upTo 32).map fun i => wrap b (bits num (i * rate) rate * 2 ^ sh + if sh = 0 then 0 else 2 ^ (sh - 1))

/-- A line of a raw or fixed-rate plane. -/
def plainLine (coding rate eb w : Nat) (bytes : List Byte) : List Nat :=
  if coding = 0 then (upTo w).map fun i => leAt bytes (i * eb) eb
  else ((upTo (ceilDiv w 32)).flatMap fun g => fixedGroup rate (8 * eb) (bytes.drop (g * (1 + 4 * rate)))).take w

/-- The bytes of a coded line: exact for raw and fixed-rate, the least for lossless (R301). -/
def lineSize (coding rate eb w : Nat) : Nat :=
  if coding = 0 then w * eb
  else if coding = 2 then ceilDiv w 32 * (1 + 4 * rate)
  else 4 + ceilDiv (ceilDiv w 32 * 36) 8

/-- The planes of a strip and the offset after them; none where they are corrupt. -/
def stripPlanes (coding rate eb w h : Nat) : Nat → List Byte → Option (List (List (List Nat)) × Nat)
  | 0, _ => some ([], 0)
  | n + 1, bytes =>
    let plane := if coding = 1 then losslessPlane (8 * eb) w h 0 bytes
      else
        let k := lineSize coding rate eb w
        some ((upTo h).map fun i => plainLine coding rate eb w (bytes.drop (i * k)), h * k)
    match plane with
    | none => none
    | some (p, k) =>
      let k := ceilDiv k 8 * 8
      (stripPlanes coding rate eb w h n (bytes.drop k)).map fun r => (p :: r.1, k + r.2)

/-- The header of a strip says what a strip may say (R296, R298). -/
def stripHeaderOk (b : List Byte) (len : Nat) : Bool :=
  let rate := leAt b 31 1
  let coding := leAt b 30 1
  let sfmt := leAt b 29 1
  leAt b 60 4 == crc32 (b.take 60) && decide (leAt b 0 4 ≤ len) && leAt b 0 4 % 8 == 0 &&
    decide (1 ≤ leAt b 20 2 ∧ leAt b 20 2 ≤ 32768) && decide (1 ≤ leAt b 24 4 ∧ leAt b 24 4 ≤ 1048576) &&
    decide (1 ≤ leAt b 28 1 ∧ leAt b 28 1 ≤ 8) && decide (sfmt ≤ 1) && decide (coding ≤ 2) &&
    (if coding = 2 then decide (4 ≤ rate ∧ rate ≤ if sfmt = 0 then 7 else 15) else rate == 0) && decide (leAt b 32 4 ≤ 4096)

/-- The bytes of the records and the stamp table of a strip. -/
def stripTables (b : List Byte) : Nat := 64 * leAt b 32 4 + if leAt b 16 4 = 0 then 8 * leAt b 24 4 else 0

/-- The sample of a strip of which `len` bytes are there; none where it is corrupt (R296, R301). -/
def decodeStrip (b : List Byte) (len budget : Nat) : Option Sample :=
  let striplen := leAt b 0 4
  let w := leAt b 20 2
  let h := leAt b 24 4
  let np := leAt b 28 1
  let eb := leAt b 29 1 + 1
  let coding := leAt b 30 1
  let rate := leAt b 31 1
  let least := 64 + np * (ceilDiv (h * lineSize coding rate eb w) 8 * 8) + stripTables b
  if len < 64 ∨ !stripHeaderOk b len then none
  else if (if coding = 1 then decide (striplen < least) else least != striplen) then none
  else if budget < w * h * np * eb then none
  else if leAt b 56 4 ≠ crc32 ((b.take striplen).drop 64) then none
  else
    match stripPlanes coding rate eb w h np ((b.take striplen).drop 64) with
    | none => none
    | some (planes, used) =>
      if striplen < 64 + used + stripTables b then none else some { w := w, h := h, eb := eb, planes := planes }

/-- The header of an Epoth file of `len` bytes is sound (R297). A file is imported by the host, strip by strip: no command of the module
reads its header. [DESIGN CHOICE, log 74] -/
def fileHeaderOk (b : List Byte) (len : Nat) : Bool :=
  decide (64 ≤ b.length) && b.take 4 == [0x45, 0x50, 0x54, 0x48] && leAt b 4 2 == 1 && leAt b 6 2 == 64 &&
    decide (1 ≤ leAt b 8 4 ∧ leAt b 8 4 ≤ 16777216) && leAt b 12 4 == 0 && leAt b 16 8 == len && leAt b 40 20 == 0 &&
    leAt b 60 4 == crc32 (b.take 60)

/-! ### The order of an epoch (R304) -/

/-- ⌈log₂ n⌉. -/
def ceilLog2 (n : Nat) : Nat := if n ≤ 1 then 0 else Nat.log2 (n - 1) + 1

/-- One pass of the Feistel network on [0, 4^h). -/
def feistel (seed epoch h x : Nat) : Nat :=
  let step := fun (p : Nat × Nat) r => (p.2, p.1 ^^^ ((philox seed p.2 epoch r 0x53485546).1 % 2 ^ h))
  let p := (upTo 4).foldl step (x / 2 ^ h, x % 2 ^ h)
  p.1 * 2 ^ h + p.2

/-- Cycle-walking: passes until the value lies below `n`. -/
def walkBelow (seed epoch h n : Nat) : Nat → Nat → Nat
  | 0, x => x
  | f + 1, x =>
    let y := feistel seed epoch h x
    if y < n then y else walkBelow seed epoch h n f y

/-- π(i) of an epoch over `n` entries. -/
def epochOrder (seed epoch n i : Nat) : Nat :=
  let h := max 1 (ceilDiv (ceilLog2 n) 2)
  walkBelow seed epoch h n (4 ^ h) i

end Sys2Proof.Machine
end

