-- ==== Sys2Proof/Machine/Teach.lean ====
section
/-! DEFINITION. Teaching (R293 to R310): the library, the batch decoder and validation. -/

namespace Sys2Proof.Machine

open Sys2Proof

/-! ### The library (R293, R294) -/

/-- LIB_RESERVE (R294): `TCH_LIB_RSV` reserves entries, or sets FAIL; 0 is ignored. -/
def Dev.libReserve (s : Dev) (n : Nat) : Dev :=
  let n := wrap 16 n
  let c := s.rd .TCH_LIB_CNT
  if n = 0 then s
  else if s.rd .TCH_LIB_MAX < c + n then s.setFlag .TCH_LIB_RSVIDX_FAIL 0 true
  else ((s.setFlag .TCH_LIB_RSVIDX_FAIL 0 false).wr .TCH_LIB_RSVIDX_IDX 0 c).wr .TCH_LIB_CNT 0 (c + n)

def execLibReserve (n : Nat) (s : State) : Host.Outcome State Fault Refusal := s.run (.libReserve n) fun d => d.libReserve n

/-- The bytes of a library entry. -/
def Dev.libEntry (s : Dev) (i : Nat) : List Byte := s.bytesAt (s.libBase + 32 * i) 32

/-! ### Batches (R305 to R308) -/

/-- A translation fault of the teach decoder is posted (R167). -/
def Dev.decoderFault (s : Dev) (x : XFault) (asid : Nat) : Dev := (s.walkError x).postFault (x.record 0xFFFFFFFF asid 16)

def reqAsid (r : List Byte) : Nat := leAt r 27 1 % 16
def reqB (r : List Byte) : Nat := leAt r 24 2
def reqN (r : List Byte) : Nat := leAt r 20 4
def reqW (r : List Byte) : Nat := leAt r 28 2
def reqH (r : List Byte) : Nat := leAt r 30 2
def reqBytes (r : List Byte) : Nat := leAt r 40 1 + 1
def reqPlanes (r : List Byte) : Nat := leAt r 41 1

/-- The row pitch of the batch buffer, and the bytes of one slot's area. -/
def reqPitch (r : List Byte) : Nat := ceilDiv (reqW r * reqBytes r) 128 * 128
def reqArea (r : List Byte) : Nat := reqPlanes r * reqH r * reqPitch r

/-- The refusal code of a request, 0 for none, less its translation faults (R306). -/
def Dev.requestCode (s : Dev) (r : List Byte) : Nat :=
  leastCode
    [ (reqB r == 0 || reqN r == 0 || decide (16777216 < reqN r) || reqW r == 0 || decide (32768 < reqW r) || reqH r == 0 ||
        reqPlanes r == 0 || decide (8 < reqPlanes r), 1),
      (decide (ceilDiv (reqN r) (max 1 (reqB r)) ≤ leAt r 12 4), 2),
      (decide (s.rd .TCH_LIB_CNT < leAt r 16 4 + reqN r), 3),
      (decide (2 < leAt r 26 1) || decide (1 < leAt r 40 1) || leAt r 44 4 != 0, 4) ]

/-- The translation fault of a span that is to be written. -/
def Dev.writeFault (s : Dev) (asid va n : Nat) : Option XFault :=
  match s.vspans none asid 1 none (n / 4096 + 2) va n with
  | .fault x => some x
  | _ => none

/-- The batch record is written, its counter signalled and its vector sent; a record that cannot be written signals nothing. -/
def Dev.batchRecord (s : Dev) (q : Nat) (r : List Byte) (valid corrupt excluded status code : Nat) : Dev :=
  let bytes := leBytes (leAt r 8 4) 4 ++ leBytes (leAt r 12 4) 4 ++ leBytes (reqB r) 2 ++ leBytes valid 2 ++ leBytes corrupt 2 ++
    leBytes excluded 2 ++ leBytes status 1 ++ leBytes code 1 ++ leBytes 0 14
  match s.vwrite none (reqAsid r) (leAt r 56 8) bytes with
  | .ok d =>
    let sc := leAt r 42 2
    let d := if bit sc 15 then d.scAdd (sc % 16384) 1 else d
    if 16 ≤ d.rd .DEC_Q_CTL_VEC q then d.send (.msix (d.rd .DEC_Q_CTL_VEC q)) else d
  | .fault x => s.decoderFault x (reqAsid r)
  | .error => s

/-- A request is refused, or its batch begins. [DEDUCED, log 75] -/
def Dev.takeRequest (s : Dev) (q : Nat) (r : List Byte) : Dev :=
  let code := s.requestCode r
  if code ≠ 0 then s.batchRecord q r 0 0 0 2 code
  else
    let asid := reqAsid r
    let fault := match s.writeFault asid (leAt r 48 8) (16 * reqB r) with
      | some x => some x
      | none => s.writeFault asid (leAt r 56 8) 32
    match fault with
    | some x => s.decoderFault x asid
    | none => { s with batch := some { queue := q, req := r, left := upTo (reqB r) } }

/-- A decode queue holds a request. [DEDUCED, log 75] -/
def Dev.decReady (s : Dev) (q : Nat) : Bool := s.flag .DEC_Q_CTL_EN q && s.rd .DEC_Q_HEAD q != s.rd .DEC_Q_TAIL q

/-- BATCH_REQUEST (R305, R306): while no batch is under way, the request at HEAD is taken; non-empty queues are served in turn.
[DEDUCED, log 75] -/
def Dev.batchRequest (s : Dev) (q : Nat) : Dev :=
  if s.batch.isSome || !s.decReady q || (s.lastDec == q && s.decReady (1 - q)) then s
  else
    let va := s.rd .DEC_Q_BASE_ADDR q * 64 + 64 * (s.rd .DEC_Q_HEAD q % 2 ^ s.rd .DEC_Q_CTL_LOG2 q)
    let asid := s.rd .DEC_Q_CTL_ASID q
    let s := { s.countMod .DEC_Q_HEAD q with lastDec := q }
    match s.vread none asid va 64 with
    | .ok r => (s.useFree.touch none asid 0 va 64).takeRequest q r
    | .fault x => s.decoderFault x asid
    | .error => s

def execBatchRequest (queue : Fin 2) (s : State) : Host.Outcome State Fault Refusal :=
  s.run (.batchRequest queue) fun d => d.batchRequest queue

/-- What decoding a library entry gives: the sample; or that it is not valid, not selected, or corrupt. -/
inductive Decoded where
  | ok (x : Sample)
  | invalid | excluded | corrupt
deriving DecidableEq, Repr

/-- The output budget of a sample, in bytes. -/
def Dev.budget (s : Dev) : Nat := s.rd .DEC_BUDGET * 0x100000

/-- An HEVC sample under the checks of R296: the bytes that its pictures need, and the budget. [DESIGN CHOICE, log 76] -/
def Dev.hevcSample (s : Dev) (e : List Byte) (h : HevcResult) : Option Sample :=
  match h with
  | .syntaxError => none
  | .ok w h eb nctu planes =>
    if leAt e 8 4 < (leAt e 20 4 + 1) * (16 + ceilDiv nctu 256) ∨ 2 * s.budget < 3 * w * h * eb ∨ 8192 < w ∨ 8192 < h then none
    else some { w := w, h := h, eb := eb, planes := planes }

/-- A library entry is decoded (R293, R296, R307). -/
def Dev.decodeEntry (s : Dev) (sel i : Nat) (h : HevcResult) : Decoded :=
  let e := s.libEntry i
  let flags := leAt e 14 1
  let len := leAt e 8 4
  let src := leAt e 13 1
  if s.flag .GLB_MODE_FIXED then .corrupt
  else if !bit flags 0 then .invalid
  else if (sel == 1 && bit flags 1) || (sel == 2 && !bit flags 1) then .excluded
  else if len = 0 ∨ 2 < src then .corrupt
  else
    let x := if src = 2 then s.hevcSample e h
      else decodeStrip (s.bytesAt (leAt e 0 8) (min len (max 64 (s.leRead (leAt e 0 8) 4)))) len s.budget
    match x with
    | some x => .ok x
    | none => .corrupt

/-- An element of a plane as it is written: 0 beyond the sample; a value of another size than the buffer's has no stated result. -/
def Sample.elem (x : Sample) (eb free p y c : Nat) : Nat :=
  match (((x.planes[p]?).getD [])[y]?).getD [] with
  | row => if row.length ≤ c then 0 else if x.eb = eb then row.getD c 0 else wrap (8 * eb) (Config.freeNat (free + c))

/-- The bytes of a slot's area (R307). -/
def slotBytes (r : List Byte) (free : Nat) (x : Option Sample) : List Byte :=
  (upTo (reqPlanes r)).flatMap fun p => (upTo (reqH r)).flatMap fun y =>
    let row := match x with
      | some x => (upTo (reqW r)).flatMap fun c =>
        leBytes (x.elem (reqBytes r) (free + (p * reqH r + y) * reqW r) p y c) (reqBytes r)
      | none => []
    padTo (reqPitch r) row

/-- A slot-table entry (R307). -/
def slotEntry (i weight status w h : Nat) : List Byte :=
  leBytes i 4 ++ leBytes weight 4 ++ leBytes status 1 ++ leBytes 0 3 ++ leBytes w 2 ++ leBytes (min h 65535) 2

/-- A slot ends with a status: its area is written, and its lane, which is the decoder's own choice, shows the status; index of a
padding slot and sizes of a slot without a sample are not stated. -/
def Dev.endSlot (s : Dev) (b : Batch) (k i status : Nat) (x : Option Sample) : Dev :=
  let r := b.req
  let f := fun (n w : Nat) => wrap w (Config.freeNat (s.free + n))
  let area := slotBytes r (s.free + 4) x
  let done := fun (d : Dev) (st : Nat) (x : Option Sample) =>
    let i := if st = 3 then f 0 32 else i
    let entry := match x with
      | some x => slotEntry i 0x3F800000 st x.w x.h
      | none => slotEntry i 0 st (f 1 16) (f 2 16)
    let d := (d.wr .DEC_STRM_ST_LAST (f 3 4) st).useCap area.length
    { d with
      batch := some { b with left := b.left.filter fun j => j != k, results := b.results ++ [(k, st, entry)] }
      free := d.free + 4 + area.length }
  match s.vwrite none (reqAsid r) (leAt r 32 8 + k * reqArea r) area with
  | .ok d => done d status x
  | .fault e => done ((s.decoderFault e (reqAsid r)).count .DEC_CORRUPT_CNT) 1 none
  | .error => done (s.count .DEC_CORRUPT_CNT) 1 none

/-- A slot of a batch is decoded (R307); a sample that has met an uncorrectable memory error is corrupt (R296), as every one is while
fixed-schedule mode closes the LPDDR5X (R179). -/
def Dev.decodeSlot (s : Dev) (b : Batch) (k : Nat) (h : HevcResult) : Dev :=
  let r := b.req
  let p := leAt r 12 4 * reqB r + k
  if reqN r ≤ p then s.endSlot b k 0 3 none
  else
    let i := leAt r 16 4 + epochOrder (leAt r 0 8) (leAt r 8 4) (reqN r) p
    match s.decodeEntry (leAt r 26 1) i h with
    | .ok x =>
      if b.struck.contains k then (s.count .DEC_CORRUPT_CNT).endSlot b k i 1 none else s.endSlot b k i 0 (some x)
    | .excluded => s.endSlot b k i 2 none
    | .invalid => s.endSlot b k i 1 none
    | .corrupt => (s.count .DEC_CORRUPT_CNT).endSlot b k i 1 none

/-- SAMPLE_DECODE_DONE (R307): one slot of the batch under way; the decoder is paused once the cap of the present 10 µs is reached,
and always with a cap of 0 (R309). -/
def Dev.sampleDecodeDone (s : Dev) (k : Nat) (h : HevcResult) : Dev :=
  match s.batch with
  | none => s
  | some b => if !b.left.contains k || decide (s.rd .DEC_BWCAP * 10000 ≤ s.capUsed) then s else s.decodeSlot b k h

def execSampleDecodeDone (slot : Nat) (hevc : HevcResult) (s : State) : Host.Outcome State Fault Refusal :=
  s.run (.sampleDecodeDone slot hevc) fun d => d.sampleDecodeDone slot hevc

/-- Slots of a batch that ended with a status. -/
def Batch.count (b : Batch) (st : Nat) : Nat := (b.results.filter fun e => e.2.1 == st).length

/-- BATCH_COMPLETE (R308): slot table, record, signal; a batch with only corrupt slots and none that is good is skipped. -/
def Dev.batchComplete (s : Dev) : Dev :=
  match s.batch with
  | none => s
  | some b =>
    if !b.left.isEmpty then s
    else
      let r := b.req
      let table := (sortBy (fun (e : Nat × Nat × List Byte) => (e.1 : Int)) b.results).flatMap fun e => e.2.2
      let s := { s with batch := none }
      let s := match s.vwrite none (reqAsid r) (leAt r 48 8) table with
        | .ok d => d
        | .fault x => s.decoderFault x (reqAsid r)
        | .error => s
      let valid := b.count 0
      let corrupt := b.count 1
      let skipped := valid == 0 && corrupt != 0
      let s := if skipped then (s.count .DEC_SKIP_CNT).tally 0x0072 0xFF 0xFFFFFFFF (leAt r 8 4) (leAt r 12 4) else s
      s.batchRecord b.queue r valid corrupt (b.count 2) skipped.toNat 0

def execBatchComplete (s : State) : Host.Outcome State Fault Refusal := s.run .batchComplete fun d => d.batchComplete

/-- DECODER_CAP_WINDOW (R309): a new 10 µs begins. -/
def execDecoderCapWindow (s : State) : Host.Outcome State Fault Refusal :=
  s.run .decoderCapWindow fun d => { d with capUsed := 0 }

/-! ### Validation (R310) -/

/-- The held-out entries over which validation runs the replay build. -/
def Dev.heldOut (s : Dev) : List Nat :=
  if s.flag .GLB_MODE_FIXED then []
  else (upTo (s.rd .TCH_LIB_CNT)).filter fun i =>
    let e := s.libEntry i
    bit (leAt e 14 1) 0 && bit (leAt e 14 1) 1 && leAt e 12 1 != 0xFF && leAt e 13 1 != 2 && s.leRead (leAt e 0 8 + 32) 4 != 0

/-- The weight image matches the source slot, and its CRC passes. -/
def Dev.imageOk (s : Dev) (k : Nat) : Bool :=
  let a := s.odNum 0x7100 3 0
  match (s.slot k).image with
  | none => false
  | some i => !s.flag .GLB_MODE_FIXED && s.leRead a 8 == i.build && s.leRead (a + 8) 8 == i.weightLen &&
      s.leRead (a + 16) 4 == crc32 (s.bytesAt (a + 64) i.weightLen)

/-- The status with which the checks of a validation end: 1 RUNNING where it may run. -/
def Dev.validationCheck (s : Dev) (k t : Nat) : Nat :=
  if !((s.slot k).st == 2 || (s.slot k).st == 3) || (s.slot t).st != 0 then 5
  else if !s.imageOk k then 4
  else if !s.recipeFits t (s.slot k).vatKiB then 6
  else if s.heldOut.isEmpty then 7
  else 1

/-- Firmware runs the replay build of a slot as a teach job, which enters queue 8 (R189, R310). -/
def Dev.runReplay (s : Dev) (k t : Nat) : Dev :=
  let job := match (s.slot k).image with
    | some i => i.replay
    | none => 0
  let s := s.countMod .JOB_Q_TAIL 8
  { s.setOd 0x7100 4 1 with validating := some (k, t), posted := s.posted ++ [(job, 8)] }

/-- VALIDATION_START (R310): a write of OD 0x7100:04. [DEDUCED, log 77] -/
def Dev.validationStart (s : Dev) (port : Port) (v : Nat) : Dev :=
  if !mayWrite rwRwRR port then s.status stDenied
  else if v ≠ 1 then s.status stRange
  else if s.validating.isSome then s.status stBusy
  else
    let k := s.odNum 0x7100 1 0
    let t := s.odNum 0x7100 2 0
    let st := s.validationCheck k t
    let s := (s.setOd 0x7100 5 st).status stOk
    if st = 1 then s.runReplay k t else s

def execValidationStart (port : Port) (value : Nat) (s : State) : Host.Outcome State Fault Refusal :=
  s.run (.validationStart port value) fun d => d.served port 0x7100 4 fun d => d.validationStart port value

/-- The label of a library entry. -/
def Dev.labelOf (s : Dev) (i : Nat) : Nat := leAt (s.libEntry i) 12 1

/-- Samples whose program verdict is their label, and samples that are passed although their label is not GOOD.
[DEDUCED, log 77] -/
def Dev.agreements (s : Dev) (l : List ValSample) : Nat := (l.filter fun x => x.verdict == s.labelOf x.index).length
def Dev.falsePasses (s : Dev) (l : List ValSample) : Nat :=
  (l.filter fun x => s.labelOf x.index != 0 && x.verdict == 0).length

/-- The image is accepted. [DEDUCED, log 77] -/
def Dev.accepts (s : Dev) (l : List ValSample) : Bool :=
  decide (l.length * s.odNum 0x7100 9 64880 ≤ s.agreements l * 65536) && decide (s.falsePasses l ≤ s.odNum 0x7100 10 0)

/-- VALIDATION_COMPLETE (R310): the run over the held-out entries ends; an accepted image makes the target slot a copy of the source
slot with the new weights. A target that is no longer EMPTY is a bad slot. [DEDUCED, log 77] -/
def Dev.validationComplete (s : Dev) (l : List ValSample) : Dev :=
  match s.validating with
  | none => s
  | some (k, t) =>
    if s.flag .GLB_MODE_FIXED ∨ l.map (fun x => x.index) ≠ s.heldOut then s
    else
      let ok := s.accepts l
      let st := if !ok then 3 else if (s.slot t).st ≠ 0 then 5 else 2
      let s := ((s.setOd 0x7100 6 l.length).setOd 0x7100 7 (s.agreements l)).setOd 0x7100 8 (s.falsePasses l)
      let s := { (s.setOd 0x7100 4 0).setOd 0x7100 5 st with validating := none }
      if st = 2 then s.setSlot t { s.slot k with st := 2, posted := false, weights := some (s.odNum 0x7100 3 0) } else s

def execValidationComplete (samples : List ValSample) (s : State) : Host.Outcome State Fault Refusal :=
  s.run (.validationComplete samples) fun d => d.validationComplete samples

end Sys2Proof.Machine
end

