-- ==== Sys2Proof/Machine/OdView.lean ====
section
/-! DEFINITION. What the entries of the dictionary read as (R354, R355): the entries that show a register or a state, and the
ones that hold a value of their own. -/

namespace Sys2Proof.Machine

open Sys2Proof

/-- A flag as a number. -/
def Dev.flagNum (s : Dev) (f : Field) (i : Nat := 0) : Nat := (s.flag f i).toNat

/-- A counter of the Separator: an observation counter cut to 32 bits at its maximum (R423). -/
def Dev.counter32 (s : Dev) (k : Nat) : Nat := min (s.counter k) 0xFFFFFFFF

/-- The field-die bits that the dictionary shows: as the die has them, or as last seen while it has no power (R289).
[DESIGN CHOICE, log 9; DEDUCED, log 49 and 97] -/
def Dev.fieldView (s : Dev) (sub : Nat) : Nat :=
  match sub with
  | 3 => if s.die.powered then s.rd .FLD_IN else s.barrier.levels
  | 4 => if s.die.powered then s.rd .FLD_WB else s.barrier.broken
  | 5 => if s.die.powered then s.rd .FLD_SC else s.barrier.short
  | _ => if s.die.powered then s.rd .FLD_OL else s.barrier.openLoad

/-- `RCP_STATE.STATE` of a power state (R402). -/
def powerCode : Power → Nat
  | .run => 1 | .ready => 2 | .doze => 3 | .standby => 4 | .recovery => 5 | _ => 0

/-- `RCP_CAUSE` as a word (R402). -/
def Dev.causeWord (s : Dev) : Nat :=
  s.rd .RCP_CAUSE + 2 ^ 8 * s.rd .RCP_CAUSE_STAGE + 2 ^ 16 * s.rd .RCP_CAUSE_LOWTIME

/-- An estimate in whole counts, rounded toward zero (R20). -/
def wholeCt (z : Int) : Nat := unsgn 32 (divToZero z 65536)

/-- Registers of one field each, by group and subindex. -/
def viewFields : List (Nat × Nat × Field) :=
  [(0x1000, 6, .MLK_FW), (0x3001, 4, .GLB_MODE_FIXED), (0x3021, 1, .MEM_VCE_CNT), (0x3021, 2, .MEM_VUE_CNT),
    (0x3021, 3, .MEM_LCE_CNT), (0x3021, 4, .MEM_LUE_CNT), (0x3021, 5, .MEM_RESEND_CNT), (0x4200, 11, .ENC_POS),
    (0x4200, 12, .ENC_STAT_FCODE), (0x4300, 7, .ENC_CG_CTL_ARM), (0x4300, 8, .ENC_CG_ISSUED), (0x4600, 3, .SEP_CTL_ARM),
    (0x6000, 6, .TIM_CTL_OVR), (0x6000, 7, .TIM_CTL_HOSTSERVO), (0x6200, 1, .TIM_TTO_CTL_EN), (0x7000, 8, .TCH_LIB_CNT),
    (0x8000, 4, .HRD_INSERV), (0x8000, 5, .HRD_LOST_CNT), (0x9001, 2, .RCP_FAILSTART_COUNT), (0xA100, 1, .TLY_USED),
    (0xA100, 2, .TLY_STAT_FULL), (0xA100, 3, .TLY_DROP_CNT), (0xA200, 4, .MLK_ROLLBACK)]

/-- The field that an entry shows. -/
def viewField? (base sub : Nat) : Option Field :=
  (viewFields.find? fun e => e.1 == base && e.2.1 == sub).map fun e => e.2.2

/-- Entries that show a state of other kinds, for place `n` of their group. [DESIGN CHOICE, log 9; DEDUCED, log 97] -/
def Dev.viewState (s : Dev) (base n sub : Nat) : Option Nat :=
  match base with
  | 0x2180 => if sub = 4 then some (if s.odNum (0x2180 + n) 5 0 = 1 then s.odNum (0x2180 + n) 4 0 else 0) else none
  | 0x2400 =>
    if sub = 19 then
      some (s.rd .ITK_PP_GENSW_GEN n + 2 ^ 16 * s.flagNum .ITK_PP_GENSW_BANK n + 2 ^ 17 * s.flagNum .ITK_PP_GENSW_ARM n)
    else none
  | 0x3010 =>
    if sub = 1 then some (s.slot n).st
    else if sub = 4 then some (s.slot n).vatKiB
    else if sub = 5 then some (match (s.slot n).image with
      | some i => wrap 32 i.spill
      | none => 0)
    else none
  | 0x4000 =>
    if sub = 4 then some (s.est.tickPos.getD 0)
    else if sub = 5 then some (wholeCt s.speed)
    else if sub = 6 then some (wholeCt s.accel)
    else if sub = 7 then some (s.flagNum .ENC_MSTAT_DIR + 2 * s.flagNum .ENC_MSTAT_STOP + 4 * s.flagNum .ENC_MSTAT_SPDV)
    else none
  | 0x4600 =>
    if sub = 2 then some 0
    else if sub = 4 then some s.inTable
    else if sub = 5 then some s.fires.length
    else if sub = 0x10 then some (s.counter32 145)
    else if sub = 0x11 then some (s.counter32 144)
    else if 0x12 ≤ sub ∧ sub ≤ 0x14 then some (s.counter32 (146 + (sub - 0x12)))
    else none
  | 0x5000 => if 3 ≤ sub then some (s.fieldView sub) else none
  | 0x6000 =>
    if sub = 8 then some s.fullNs
    else if sub = 9 then
      some (s.flagNum .TIM_STAT_LOCKED + 2 * s.flagNum .TIM_STAT_HOLD + 4 * s.flagNum .TIM_STAT_TSET)
    else if sub = 10 then
      some (if fitsS 32 s.tb.offset then unsgn 32 s.tb.offset else s.freeValue 32)
    else none
  | 0x9000 => if sub = 1 then some (powerCode s.power) else if sub = 6 then some s.causeWord else none
  | 0x9001 =>
    if sub = 1 then some 0
    else if sub = 3 then some s.optLatest.failLim
    else if sub = 4 then some s.optLatest.startTmo
    else if sub = 5 then some s.optLatest.confMode
    else none
  | 0xA000 => if sub = 5 then some s.mlk.cclk else none
  | 0xA100 => if sub = 4 then some 0 else none
  | 0xA200 => if sub = 2 then some s.mlk.updStatus else none
  | _ => none

/-- The versions of a bank, zero for one that does not pass (R425). -/
def Dev.bankVersions (s : Dev) (k : Nat) : List Byte :=
  if s.passes k then leBytes (imageVersion (s.bank k)) 4 ++ leBytes (imageSecurity (s.bank k)) 4 else List.replicate 8 0

/-- Byte strings that show a state (R425). [DESIGN CHOICE, log 9] -/
def Dev.viewBytes (s : Dev) (base sub : Nat) : Option (List Byte) :=
  match base with
  | 0xA000 =>
    if sub = 1 then some ((upTo 32).flatMap fun n => leBytes (s.rd .MLK_TEMP n) 2)
    else if sub = 2 then
      some (((upTo 16).flatMap fun n => leBytes (s.rd .MLK_VMON n) 2) ++ (upTo 4).flatMap fun n => leBytes (s.rd .MLK_IMON n) 2)
    else none
  | 0xA200 => if sub = 3 then some (s.bankVersions 0 ++ s.bankVersions 1) else none
  | 0xA300 =>
    if sub = 2 then
      some ((upTo 8).flatMap fun a => leBytes (s.rd .MLK_MNT_ST a + 2 ^ 16 * s.rd .MLK_MNT_ST_RUNS a) 4)
    else none
  | _ => none

/-- The value of an entry: what it shows, or the value stored for it, or its default. [DEDUCED, log 97] -/
def Dev.odValue (s : Dev) (index sub : Nat) (e : OdEntry) : OdVal :=
  let base := odBase index
  let n := odPlace index
  if sub = 0 then .num (match odGroup? index with
    | some g => g.top
    | none => 0)
  else
    match viewField? base sub with
    | some f => .num (s.rd f n)
    | none =>
      match s.viewState base n sub with
      | some v => .num v
      | none =>
        match s.viewBytes base sub with
        | some b => .bytes b
        | none => (tabFind? s.od (odKey index sub)).getD (odDefault index sub e)

/-- The length of the value of an entry, in bytes; the Tally's is that of its region. -/
def Dev.odLength (s : Dev) (index sub : Nat) (e : OdEntry) : Nat :=
  if index = 0xA100 ∧ sub = 5 then 1048576 else (odEncode e (s.odValue index sub e)).length

/-- `n` bytes of the value of an entry from `ofs` on, as far as it goes (R363). -/
def Dev.odPart (s : Dev) (index sub : Nat) (e : OdEntry) (ofs n : Nat) : List Byte :=
  if index = 0xA100 ∧ sub = 5 then (rangeFrom ofs (min n (1048576 - ofs))).map fun a => s.tallyByte a
  else ((odEncode e (s.odValue index sub e)).drop ofs).take n

end Sys2Proof.Machine
end

