-- ==== Sys2Proof/Machine/OdApply.lean ====
section
/-! DEFINITION. How the values of dictionary entries come into force in the registers that firmware owns (R79, R102, R248, R270,
R289, R312, R337, R353, R359, R403, R425): at a start, and on each write. -/

namespace Sys2Proof.Machine

open Sys2Proof

/-! ### Numbers -/

/-- The register fields of an entry take its value, at place `n` of its group. -/
def Dev.mirror (s : Dev) (e : OdEntry) (n v : Nat) : Dev :=
  e.mirror.foldl (fun (d : Dev) m => d.wr m.1 n (bits v m.2.1 m.2.2)) s

/-- The rate of a link: fixed, or negotiated for 0xFF (R54, R79). -/
def Dev.applyRate (s : Dev) (n v : Nat) : Dev :=
  if v = 0xFF then s.setFlag .CXP_LNK_CTL_RATE_FIX n false
  else (s.setFlag .CXP_LNK_CTL_RATE_FIX n true).wr .CXP_LNK_CTL_RATE n v

/-- A channel starts afresh after an enable or a change of type: nothing is known of its previous samples. -/
def Dev.freshEnc (s : Dev) (ch : Nat) : Dev := s.setEnc ch (s.enc ch).fresh

/-- The type or the enable of a channel. -/
def Dev.applyEncoder (s : Dev) (e : OdEntry) (ch sub v : Nat) : Dev :=
  let was := (s.rd .ENC_CFG_TYPE ch, s.flag .ENC_CFG_EN ch)
  let s := s.mirror e ch v
  if (sub = 1 ∧ was.1 ≠ v) ∨ (sub = 2 ∧ v = 1 ∧ !was.2) then (s.freshEnc ch).clockMaster else s

/-- A trigger output that is disabled is inactive and expects no pulse (R245). -/
def Dev.applyTrigger (s : Dev) (e : OdEntry) (t sub v : Nat) : Dev :=
  let s := s.mirror e t v
  if sub = 1 ∧ v = 0 then s.setTrg t {} else s

/-- A capture rule that is enabled counts from its first selected part (R290). -/
def Dev.applyRule (s : Dev) (e : OdEntry) (r sub v : Nat) : Dev :=
  let was := s.flag .TCH_CAP_CTL_EN r
  let s := s.mirror e r v
  if sub = 7 ∧ v = 1 ∧ !was then s.setRule r {} else s

/-- An Ethernet port that is disabled has no link. -/
def Dev.applyEthernet (s : Dev) (e : OdEntry) (p sub v : Nat) : Dev :=
  let s := if sub = 1 ∧ v = 0 then s.ethLinkLoss p else s
  s.mirror e p v

/-- A Zanyx port; a standalone module keeps its ports disabled (R313). -/
def Dev.applyZanyx (s : Dev) (e : OdEntry) (p sub v : Nat) : Dev :=
  if sub = 1 ∧ (v = 0 ∨ s.rd .HRD_CTL_ROLE = 0) then
    (if s.flag .ZXL_STAT_LOCK p then s.portDown p else s).setFlag .ZXL_CTL_EN p false
  else s.mirror e p v

/-- An entry of the line master: the master, the hysteresis, which every channel's flag follows (R18, R238), the stop threshold, which
the stopped flag follows (R19), or the estimator's window. -/
def Dev.applyMaster (s : Dev) (sub v : Nat) : Dev :=
  match sub with
  | 1 => s.takeMaster v
  | 2 => (upTo 4).foldl (fun (d : Dev) ch => d.direction ch) (s.setOd 0x4000 2 v)
  | 3 => (s.setOd 0x4000 3 v).noteStop
  | 8 => s.wr .ENC_EST_CFG 0 (Nat.log2 v)
  | _ => s

/-- The value of an entry reaches its registers. Entries that firmware holds for itself reach none. -/
def Dev.applyNum (s : Dev) (index sub : Nat) (e : OdEntry) (v : Nat) : Dev :=
  let n := odPlace index
  match odBase index with
  | 0x2100 => if sub = 2 then s.writePwrEn n (v == 1) else if sub = 3 then s.applyRate n v else s.mirror e n v
  | 0x3001 => if sub = 1 then s.setFlag .GLB_MODE_REPRO 0 (v == 1) else s
  | 0x4000 => s.applyMaster sub v
  | 0x4200 => s.applyEncoder e n sub v
  | 0x4400 => s.applyTrigger e n sub v
  | 0x6100 => s.applyEthernet e n sub v
  | 0x7010 => s.applyRule e n sub v
  | 0x8200 => s.applyZanyx e n sub v
  | _ => s.mirror e n v

/-- A write of an entry of the field side reaches the field die by REG frames (R289). [DEDUCED, log 49] -/
def Dev.applyField (s : Dev) (index sub v : Nat) : Dev :=
  let n := odPlace index
  match odBase index with
  | 0x5000 =>
    let a : List Nat := [0, 0x00, 0x04, 0, 0, 0x10, 0x14]
    s.queueReg (a.getD sub 0) v false
  | 0x5100 => s.queueReg (0x40 + 4 * n) v false
  | 0x5200 =>
    let c := if sub = 1 then v + 2 ^ 15 * s.odNum index 2 0 else s.odNum index 1 10 + 2 ^ 15 * v
    s.queueReg (0x100 + 4 * n) c false
  | _ => s

/-! ### Byte strings -/

/-- 32-bit words of a byte string. -/
def words32 (b : List Byte) (n : Nat) : List (Nat × Nat) := (upTo n).map fun k => (k, leAt b (4 * k) 4)

/-- The members of a fusion context: eight bytes, bit 7 set for a member (R77, R79). -/
def fusWord (b : List Byte) : Nat := ofLe ((b.take 8).map fun x => x ||| 0x80)

/-- The bank of a context that is not active (R98). -/
def Dev.idleBank (s : Dev) (c : Nat) : Nat := 1 - s.rd .ITK_PP_GEN_ACTIVE c

/-- The base of the area of a stage table, in 128-byte units: the inactive bank of a linearisation or flat table, or the defect
list (R98, R102). -/
def Dev.tableBase (s : Dev) (c sub : Nat) : Nat :=
  match sub, s.idleBank c with
  | 1, 0 => s.rd .ITK_PP_LUT0 c
  | 1, _ => s.rd .ITK_PP_LUT1 c
  | 2, 0 => s.rd .ITK_PP_FLT0 c
  | 2, _ => s.rd .ITK_PP_FLT1 c
  | _, _ => s.rd .ITK_PP_DEF c

/-- A stage table is loaded into its area of the intake window (R102). -/
def Dev.loadTable (s : Dev) (c sub : Nat) (b : List Byte) : Dev :=
  let s := s.putBytes (intakeBase + 128 * s.tableBase c sub) b
  if sub = 3 then s.wr .ITK_PP_NDEF c (b.length / 2) else s

/-- A byte string reaches its registers or its memory. -/
def Dev.applyBytes (s : Dev) (index sub : Nat) (b : List Byte) : Dev :=
  let n := odPlace index
  match odBase index with
  | 0x2300 => s.wr .ITK_FUS_MEM n (fusWord b)
  | 0x2500 => if s.areaOk (s.tableBase n sub) b.length then s.loadTable n sub b else s
  | 0x4100 =>
    if sub = 1 then (words32 b 16).foldl (fun (d : Dev) w => d.wr .SEP_POLICY (16 * n + w.1) w.2) s
    else
      (words32 b 128).foldl
        (fun (d : Dev) w => d.wr (if w.1 % 2 = 0 then .SEP_SETA else .SEP_SETB) (64 * n + w.1 / 2) w.2) s
  | 0x7010 => (words32 b 8).foldl (fun (d : Dev) w => d.wr .TCH_CAP_MASK (8 * n + w.1) w.2) s
  | 0xA400 => (upTo 768).foldl (fun (d : Dev) k => d.wr .OBS_SEL k (leAt b (2 * k) 2)) s
  | _ => s

/-! ### Enabling contexts (R64, R77, R100, R102) -/

/-- A context is enabled: its checks are made, and a failing one sets the flags of the refused commit; 0 for success. -/
def Dev.enableCode (s : Dev) (c : Nat) : Nat × Nat :=
  let t := s.setFlag .ITK_CTX_CFG1_EN c true
  let cfg := t.staged ctxFields c
  (t.ctxCheck c cfg, t.ppCheck cfg (t.staged ppFields c))

/-- The flags of a refused commit. -/
def Dev.noteRefused (s : Dev) (c : Nat) (code : Nat × Nat) : Dev :=
  if code.1 ≠ 0 then (s.setFlag .ITK_CTX_STAT_CMTERR c true).wr .ITK_CTX_STAT_ERRCODE c code.1
  else (s.setFlag .ITK_PP_STAT_CMTERR c true).wr .ITK_PP_STAT_ERR c code.2

/-- The settings of a context and of its stages are committed, then the enable (R64). [DEDUCED, log 33] -/
def Dev.enableCtx (s : Dev) (c : Nat) : Dev :=
  let s := ((s.setFlag .ITK_CTX_CFG1_EN c false).ctxCommit c).ppCommit c
  (s.setFlag .ITK_CTX_CFG1_EN c true).ctxCommit c

/-- Enable a context if its checks pass. [DEDUCED, log 33] -/
def Dev.tryEnable (s : Dev) (c : Nat) : Dev :=
  let code := s.enableCode c
  if code = (0, 0) then s.enableCtx c else s.noteRefused c code

/-- Disable a context. -/
def Dev.disableCtx (s : Dev) (c : Nat) : Dev := (s.setFlag .ITK_CTX_CFG1_EN c false).ctxCommit c

/-- The context is enabled, by its latest committed settings. -/
def Dev.ctxIsOn (s : Dev) (c : Nat) : Bool := setting (s.ctx c).committed .ITK_CTX_CFG1_EN == 1

/-! ### Applying the dictionary at a start (R161, R313, R359) -/

/-- `MEM_PART0` and `MEM_PART1` of an intake window of `i` MiB and `n` save slots (R157, R161). -/
def progKiB (i n : Nat) : Nat := (384 - 16 - i) * 1024 - n * 4224

/-- The partition takes the dictionary's values. [DEDUCED, log 99] -/
def Dev.applyPartition (s : Dev) : Dev :=
  let i := s.odNum 0x3020 1 64
  let n := s.odNum 0x3020 2 16
  ((s.wr .MEM_PART0_INTAKE 0 i).wr .MEM_PART0_SLOTS 0 n).wr .MEM_PART1_PROG 0 (progKiB i n)

/-- The role, member number and topology take the dictionary's values. [DEDUCED, log 99] -/
def Dev.applyRole (s : Dev) : Dev :=
  ((s.wr .HRD_CTL_ROLE 0 (s.odNum 0x8000 1 0)).wr .HRD_CTL_MEMBER 0 (s.odNum 0x8000 2 1)).wr .HRD_CTL_TOPO 0
    (s.odNum 0x8000 3 0)

/-- A stored entry is applied. Enables of contexts follow when every entry has been applied; the partition, the role and the
entries of the field side are applied by themselves. [DEDUCED, log 99] -/
def Dev.applyStored (s : Dev) (key : Nat) (v : OdVal) : Dev :=
  let index := key / 256
  let sub := key % 256
  let late := (odBase index == 0x2200 && sub == 11) || (odBase index == 0x2300 && sub == 4)
  match odEntry? index sub with
  | none => s
  | some e =>
    if e.cls = 2 || late then s
    else
      match v with
      | .num n => s.applyNum index sub e n
      | .bytes b => s.applyBytes index sub b

/-- Enable the contexts and fusion contexts that the dictionary enables. [DEDUCED, log 99] -/
def Dev.enableStored (s : Dev) : Dev :=
  let s := (upTo 64).foldl (fun (d : Dev) c => if d.odNum (0x2200 + c) 11 0 = 1 then d.tryEnable c else d) s
  (upTo 16).foldl
    (fun (d : Dev) f =>
      if d.odNum (0x2300 + f) 4 0 ≠ 1 then d
      else if d.fusOk f then (d.setFlag .ITK_FUS_CTL_EN f true).fusCommit f
      else d.setFlag .ITK_FUS_STAT_CMTERR f true) s

/-- Firmware applies the entries in ascending order of index (R359); ETH_M runs at its own speed (R353). [DEDUCED, log 99] -/
def Dev.applyDictionary (s : Dev) : Dev :=
  let s := s.wr .ETH_CTL_SPEED 2 2
  (s.od.foldl (fun (d : Dev) e => d.applyStored e.1 e.2) s).enableStored

/-- The entries that a cold reset with a pending restore leaves as they are (R360). [DEDUCED, log 98] -/
def restoreExempt (key : Nat) : Bool := key == 0x100101 || decide (0x610201 ≤ key ∧ key ≤ 0x610206)

/-- The class of the entry under a key. -/
def keyClass (key : Nat) : Nat :=
  match odEntry? (key / 256) (key % 256) with
  | some e => e.cls
  | none => 2

/-- A pending restore takes every class N entry to its default, in NVM and in force (R360). [DEDUCED, log 98] -/
def Dev.restoreNow (s : Dev) : Dev :=
  if !s.svc.restore then s
  else
    { s with
      nvm := s.nvm.filter fun e => restoreExempt e.1
      od := s.od.filter fun e => keyClass e.1 != 0 || restoreExempt e.1
      svc := { s.svc with restore := false } }

/-- An entry is loaded from NVM: the first copy whose CRC passes, a failed copy rewritten; the default where both fail (R359).
[DEDUCED, log 98] -/
def Dev.loadN (s : Dev) (key : Nat) (x : NvmEntry) : Dev :=
  match x.value? with
  | some v =>
    { s with od := tabPut s.od key v, nvm := tabPut s.nvm key { a := v, aOk := true, b := v, bOk := true } }
  | none =>
    let d := match odEntry? (key / 256) (key % 256) with
      | some e => odDefault (key / 256) (key % 256) e
      | none => .num 0
    let s := { s with
      od := tabPut s.od key d, nvm := tabPut s.nvm key { a := d, aOk := true, b := d, bOk := true } }
    ((s.countOd 0x1001 3 32).setOd 0x1001 4 (s.odNum 0x1001 4 0 ||| 1)).tally 0x0011 0xFF 0xFFFFFFFF key

/-- Every class N entry is loaded from NVM (R359). [DEDUCED, log 98] -/
def Dev.loadNvm (s : Dev) : Dev := s.nvm.foldl (fun (d : Dev) e => d.loadN e.1 e.2) s

end Sys2Proof.Machine
end

