-- ==== Sys2Proof/Machine/Power.lean ====
section
/-! DEFINITION. Resets, the start sequence, power states, block resets and sensors (R380 to R407, R415, R431, R436). -/

namespace Sys2Proof.Machine

open Sys2Proof

/-! ### What a reset or a power state clears (R8, R400) -/

/-- The field that a key of `Dev.regs` stands for. -/
def keyField? (key : Nat) : Option Field := Field.all[key / 1024]?

/-- A field outlives a warm reset, or with `cold` a cold reset or POR (R8). -/
def Field.outlives (f : Field) (cold : Bool) : Bool :=
  match f.desc.survives with
  | .never => true
  | .cold => !cold
  | _ => false

/-- A register field outlives a reset. -/
def keyOutlives (cold : Bool) (key : Nat) : Bool :=
  match keyField? key with
  | some f => f.outlives cold
  | none => false

/-- Set the power state and `RCP_STATE`. -/
def Dev.setPower (s : Dev) (p : Power) : Dev := { s with power := p }.wr .RCP_STATE 0 (powerCode p)

/-- The fields `p` selects keep their values, the others return to their reset values. [DEDUCED, log 112] -/
def Dev.keepFields (s : Dev) (p : Nat → Bool) : Dev :=
  let gone := fun (k : Nat) => !p k
  { s with regs := tabClear s.regs gone, voteB := tabClear s.voteB gone, voteC := tabClear s.voteC gone }

/-- The dictionary values of the classes that `p` selects stay, the others return to their defaults (R11, R400). -/
def Dev.keepOd (s : Dev) (p : Nat → Bool) : Dev := { s with od := s.od.filter fun e => p (keyClass e.1) }

/-- Vat and the local stores lose their contents; with `lpddr`, the LPDDR5X keeps its own (R400). [DESIGN CHOICE, log 4] -/
def Dev.keepMem (s : Dev) (vat lpddr : Bool) : Dev :=
  { s with mem := s.mem.filter fun e => (vat && inVat e.1) || (lpddr && inLpddr e.1) }

/-- A slot whose image is kept and which is to be reloaded: EMPTY until then (R401). -/
def RecipeSlot.unloaded (r : RecipeSlot) : RecipeSlot := { r with st := 0, posted := false }

/-- The slots that a warm start reloads: those that are READY or ACTIVE, and those that an interrupted start had still to
reload. [DEDUCED, log 107] -/
def Dev.slotsToReload (s : Dev) : List Nat :=
  (upTo 8).filter fun k => decide (2 ≤ (s.slot k).st) || s.rst.reload.contains k

/-- The Tally record at the head of the queue may be under way: how many of its bytes are programmed is open, none among the answers
(R408, R409). [DEDUCED, log 117] -/
def Dev.tearRecord (s : Dev) : Dev :=
  match s.mlk.queue with
  | [] => s
  | e :: _ =>
    let n := s.freeValue 6
    let k := s.erasedSlot
    let t := s.useFree
    if t.mlk.clearing.isSome || !t.mayStart .T || decide (16383 ≤ k) || n == 0 then t
    else { t with mlk := { t.mlk with tally := tabPut t.mlk.tally k (e.bytes.take n ++ List.replicate (64 - n) 0xFF) } }.noteTally

/-- A rewrite of the option bytes may be under way: at any point one copy is good, with the old values or the new ones (R388).
[DEDUCED, log 118] -/
def Dev.tearOptions (s : Dev) : Dev :=
  match s.mlk.edits, s.optSelect with
  | e :: _, some (now, b) =>
    if s.mntSt .O ≠ 2 then s
    else
      let new := (s.rewriteOptions e).mlk.optA
      let n := s.freeValue 2
      let first := if n = 0 then (if b then s.mlk.optA else s.mlk.optB) else if n = 1 then { new with good := false } else new
      let last := if n = 3 then { now with good := false } else now
      { s.useFree with mlk := { s.mlk with optA := if b then first else last, optB := if b then last else first } }
  | _, _ => s

/-- A bank write may be under way: the bank other than ACTIVE holds what it held, or nothing known (R417).
[DEDUCED, log 119] -/
def Dev.tearBank (s : Dev) : Dev :=
  match s.mlk.image with
  | none => s
  | some b =>
    if s.mntSt .F ≠ 2 ∨ s.freeValue 1 = 0 then s.useFree
    else { s.setBank (1 - s.optLatest.active) (freeBytes (s.free + 1) b.length) with free := s.free + 1 + b.length }

/-- A reset or a loss of power falls into the work of Milkhouse in its NVM. -/
def Dev.tear (s : Dev) : Dev := s.tearClear.tearRecord.tearOptions.tearBank

/-- What every reset and power state that stops the fast domains takes down: parts, fires, jobs, contexts, links, generators, the
herd and the barrier (R400). -/
def Dev.dropWork (s : Dev) : Dev :=
  { s with
    sync := [], gens := [], trgs := [], est := { ps := [s.lmPos] }, marks := [], lanes := [], parts := [], fires := [], nextRun := 0
    barrier := {}, ctxs := [], pipes := [], pipesOn := 0, lineSeq := 0, fusions := [], churns := [], jobs := [], jobSeq := 0, lastQueue := 8, lastTeach := 0
    saves := [], saveSeq := 0, fixing := false, runHit := false, faultq := [], posted := [], tlb := [], invals := [], scrubLine := 0, rules := [], ring := [], batch := none
    lastDec := 1, capUsed := 0, validating := none, herd := {}, zports := [], bar := []
    links := s.links.map fun e => (e.1, { pwrLatch := e.2.pwrLatch }) }

/-- A warm reset clears what R400 names; the slots that were READY or ACTIVE wait to be reloaded (R401). -/
def Dev.clearWarm (s : Dev) : Dev :=
  let reload := s.slotsToReload
  let s := s.tear.dropWork
  let s := (s.keepFields (keyOutlives false)).keepOd fun c => c != 2
  let s := s.keepMem false true
  { s with
    counters := [], ttos := [], pcieUp := false, slotNow := none, slotPast := [], slotFrom := 0, slotNext := none
    slots := s.slots.map fun e => (e.1, e.2.unloaded)
    rst := { s.rst with reload := reload, trial := false }
    svc := { restore := s.svc.restore }
    tb := { s.tb with offset := 0 }
    mlk := { s.mlk with edits := [], image := none, cclk := 1500000, cool := 0, fanFail := 0, updStatus := 0, tests := 0 } }

/-- A register field of the field die. [DEDUCED, log 108] -/
def keyOnDie (key : Nat) : Bool :=
  match keyField? key with
  | some f => f.desc.die
  | none => false

/-- The field die after a cold reset or a cold start of the logic side: the fields that its registers do not keep are at their reset
values (R288), and what it held is gone; it goes on with its timer (R282). [DEDUCED, log 108] -/
def FieldDie.cleared (e : FieldDie) : FieldDie := { e with held := [], fired := [], stop := none, group := 0, answer := none }

/-- A cold reset clears the rest: positions, device time, the part-identifier counter, LPDDR5X, the class W entries, the Tally
queue; a pending restore of defaults takes effect (R360, R381, R400). With `off` the main input is gone: the field die, which the field
supply powers, keeps all it has (R282, R382). [DEDUCED, log 108] -/
def Dev.clearCold (s : Dev) (off : Bool := false) : Dev :=
  let s := s.clearWarm
  let e := { s.die with skew := s.die.skew + s.xclk, goodAt := 0 }
  let s := ((s.keepFields fun k => keyOutlives true k || (off && keyOnDie k)).keepOd fun c => c == 0).keepMem false false
  let s := { s with
    encs := [], lmOffset := 0, peak := 0, nextId := 0, lostIds := none, slots := [], links := [], libUsed := 0, trace := {}
    tb := {}, timeU := 0, xclk := 0, tickAt := 0, slotAt := 0, est := {}
    rst := { s.rst with reload := [] }
    mlk := { s.mlk with queue := [], clearing := none } }
  (s.setDie (if off then e else e.cleared)).restoreNow

/-- A cold start ends Off: the fields of the field die return to their reset values while it has power (R288, R400).
[DEDUCED, log 108] -/
def Dev.coldDie (s : Dev) : Dev := if s.die.powered then (s.setDie s.die.cleared).resetDieFields else s

/-! ### RST_N (R380 to R385, R392) -/

/-- The parts that a warm reset loses, first and last (R30). -/
def Dev.lostParts (s : Dev) : Option (Nat × Nat) :=
  match s.parts.head?, s.parts.getLast? with
  | some a, some b => some (a.id, b.id)
  | _, _ => s.lostIds

/-- The logic side sends SAFE frames before it stops (R281). -/
def Dev.sendSafe (s : Dev) : Dev := if s.framesOn then s.safeBurst else s

/-- The stage of the start sequence in progress, 0 for none. [DEDUCED, log 106] -/
def Dev.stageNow (s : Dev) : Nat := if s.power == .start then s.rd .RCP_STATE_STAGE else 0

/-- Capture stops on entry to a reset (R422). -/
def Dev.stopCapture (s : Dev) : Dev := if s.tracing then s.haltTrace else s

/-- The entry of a warm reset (R381). [DEDUCED, log 107] -/
def Dev.enterWarm (s : Dev) : Dev :=
  let stage := s.stageNow
  let lost := s.lostParts
  let s := { s.sendSafe.stopCapture.clearWarm with lostIds := lost }
  { s with power := .resetting, rst := { s.rst with stage := stage, cold := false, warm := true } }

/-- RST_N_LOW (R381, R385): RST_N has been low for 1 µs. In Off it ends Off and leads to a cold start; a reset whose start sequence
has not begun is joined. [DEDUCED, log 106] -/
def Dev.rstNLow (s : Dev) : Dev :=
  if s.power == .resetting || s.rst.unpowered then s
  else if s.power == .off then { s.coldDie with power := .resetting, rst := { s.rst with stage := 0, cold := true, warm := false } }
  else s.enterWarm

def execRstNLow (s : State) : Host.Outcome State Fault Refusal := s.run .rstNLow fun d => d.rstNLow

/-- COLD_RESET_ESCALATION (R381): RST_N is still low at 10 ms. -/
def Dev.escalate (s : Dev) : Dev :=
  if s.power == .resetting && !s.rst.cold then
    let s := s.clearCold
    { s with rst := { s.rst with cold := true, warm := false } }
  else s

def execColdResetEscalation (s : State) : Host.Outcome State Fault Refusal :=
  s.run .coldResetEscalation fun d => d.escalate

/-- A start begins at stage 1, and `RCP_CAUSE` says why (R384, R392). -/
def Dev.beginStart (s : Dev) (cause stage lowTime : Nat) : Dev :=
  let s := (s.setPower .start).wr .RCP_STATE_STAGE 0 1
  let s := ((s.wr .RCP_CAUSE 0 cause).wr .RCP_CAUSE_STAGE 0 stage).wr .RCP_CAUSE_LOWTIME 0 (min lowTime 65535)
  { s with rst := { s.rst with lowTime := lowTime } }

/-- RST_N_RELEASE (R381, R392): a level of 10 ms or more makes the reset a cold one; one below 1 µs changes nothing.
[DEDUCED, log 106] -/
def Dev.rstNRelease (s : Dev) (lowTime : Nat) : Dev :=
  if s.power != .resetting || lowTime == 0 then s
  else
    let s := if 10000 ≤ lowTime then s.escalate else s
    s.beginStart (if s.rst.cold then 4 else 3) s.rst.stage lowTime

def execRstNRelease (lowTime : Nat) (s : State) : Host.Outcome State Fault Refusal :=
  s.run (.rstNRelease lowTime) fun d => d.rstNRelease lowTime

/-! ### Supplies (R382, R383, R410, R431, R436) -/

/-- `RCP_CAUSE` holds the most recent reset, in Off too (R400). -/
def Dev.keepCause (s before : Dev) : Dev :=
  ((s.wr .RCP_CAUSE 0 (before.rd .RCP_CAUSE)).wr .RCP_CAUSE_STAGE 0 (before.rd .RCP_CAUSE_STAGE)).wr .RCP_CAUSE_LOWTIME 0
    (before.rd .RCP_CAUSE_LOWTIME)

/-- The E96 is in Off (R396, R400). [DEDUCED, log 106] -/
def Dev.goOff (s : Dev) : Dev :=
  if s.power == .off then s
  else
    let s := { (s.clearCold true).keepCause s with power := .off }
    { s with rst := { s.rst with stage := 0, cold := true, warm := false } }

/-- A power cycle is counted, and the operating time goes on from its stored value (R410). -/
def Dev.countCycle (s : Dev) : Dev := { s.countMod .TLY_PCYC with mlk := { s.mlk with opTime := s.mlk.opStored } }

/-- POR (R382, R400, R410). -/
def Dev.por (s : Dev) : Dev :=
  let s := { s.clearCold.countCycle with rst := { recovery := s.rst.recovery } }
  s.beginStart 1 0 0

def execPor (s : State) : Host.Outcome State Fault Refusal := s.run .por fun d => d.por

/-- VSTBY_LOSS (R431): as in Off, without SAFE frames; only POR ends it. [DEDUCED, log 106] -/
def Dev.vstbyLoss (s : Dev) : Dev :=
  let s := s.goOff
  { s with rst := { s.rst with unpowered := true } }

def execVstbyLoss (s : State) : Host.Outcome State Fault Refusal := s.run .vstbyLoss fun d => d.vstbyLoss

def execVin12Loss (s : State) : Host.Outcome State Fault Refusal := s.run .vin12Loss fun d => d.goOff

/-- VIN12_RETURN (R382): a cold start ends Off. [DEDUCED, log 106] -/
def Dev.vin12Return (s : Dev) : Dev :=
  if s.power != .off || s.rst.unpowered then s else s.coldDie.countCycle.beginStart 2 0 0

def execVin12Return (s : State) : Host.Outcome State Fault Refusal := s.run .vin12Return fun d => d.vin12Return

/-- The BAR0 bytes of the MSI-X table (R370): 64 vectors of 16 bytes. [PRESUMED, log 127] -/
def msixTable (a : Nat) : Bool := decide (0xFF0000 ≤ a ∧ a < 0xFF0400)

/-- PCIE_RESET (R383): the PCIe core alone is reset with its MSI-X table, and its link is down until it trains again.
[DEDUCED, log 113; PRESUMED, log 127] -/
def Dev.pcieReset (s : Dev) : Dev := { s with pcieUp := false, bar := s.bar.filter fun c => !msixTable c.1 }

def execPcieReset (s : State) : Host.Outcome State Fault Refusal := s.run .pcieReset fun d => d.pcieReset

/-- PCIE_LINK_TRAINING (R436): after stage 3, and not in Recovery (R391). -/
def Dev.pcieTrain (s : Dev) : Dev :=
  let held := s.power == .recovery || s.power == .off || s.power == .halted || s.power == .resetting ||
    (s.power == .start && decide (s.rd .RCP_STATE_STAGE ≤ 3))
  if held then s else { s with pcieUp := true }

def execPcieLinkTraining (s : State) : Host.Outcome State Fault Refusal := s.run .pcieLinkTraining fun d => d.pcieTrain

/-! ### Ready, Doze and demand (R396, R397) -/

/-- XCLK does not stop while a BiSS-C channel is the line master or a context owes data (R72, R232). [DEDUCED, log 114] -/
def Dev.holdsXclk (s : Dev) : Bool := s.bissMaster || (upTo 64).any fun c => s.owes c

/-- A pipe has a slot, or a block in work that it may take one of. -/
def Dev.pipeHolds (s : Dev) (p : Nat) : Bool :=
  (tabFind? s.pipes p).isSome ||
    (upTo 64).any fun c => (s.ctx c).work.any fun b => bit (setting b.pp .ITK_PP_CTL_PIPES) p

/-- The locked receive directions go to sleep, and the pipes that have no work (R46). [DESIGN CHOICE, log 129] -/
def Dev.quiet (s : Dev) : Dev :=
  (upTo 24).foldl (fun (d : Dev) n =>
    if d.flag .CXP_LNK_STAT_LOCK n then d.setLink n { d.link n with asleep := true } else d)
    { s with pipesOn := s.pipesOn &&& maskOf ((upTo 5).filter fun p => s.pipeHolds p) }

/-- The E96 is in Ready: XCLK is gated unless something holds it, and the receive directions and pipes sleep.
[DEDUCED, log 114] -/
def Dev.toReady (s : Dev) : Dev := { s.quiet.setPower .ready with xclkOn := s.holdsXclk }

/-- The idle conditions of R397 hold. [DEDUCED, log 114] -/
def Dev.idle (s : Dev) : Bool :=
  s.parts.isEmpty && s.fires.isEmpty && ((upTo 16).all fun n => (s.resident n).isNone) &&
    ((upTo 64).all fun c => !s.owes c) && activities.all fun a => s.mntSt a != 2

/-- READY_ENTRY (R397). [DEDUCED, log 114] -/
def Dev.readyEntry (s : Dev) : Dev := if s.power == .run && s.idle then s.toReady else s

def execReadyEntry (s : State) : Host.Outcome State Fault Refusal := s.run .readyEntry fun d => d.readyEntry

/-- DOZE_ENTRY (R324, R397): a manager announces Doze to its workers first. [DEDUCED, log 114] -/
def Dev.dozeEntry (s : Dev) : Dev :=
  if s.power == .ready && s.flag .RCP_CTL_DOZEEN && !s.holdsXclk then
    { (if s.manager then s.sendPos true else s).setPower .doze with xclkOn := false }
  else s

def execDozeEntry (s : State) : Host.Outcome State Fault Refusal := s.run .dozeEntry fun d => d.dozeEntry

/-- DEMAND (R396). [DEDUCED, log 114] -/
def Dev.demand (s : Dev) : Dev := if s.power == .ready || s.power == .doze then s.setPower .run else s

def execDemand (s : State) : Host.Outcome State Fault Refusal := s.run .demand fun d => d.demand

/-! ### The start sequence (R384 to R391, R401, R415) -/

/-- Recovery (R391, R416): SAFE frames throughout, no bank runs, the PCIe endpoint is held in reset; every start leads here until the
count 0 is stored from Recovery. -/
def Dev.enterRecovery (s : Dev) : Dev :=
  let s := (s.setPower .recovery).setFlag .MLK_STAT_RECOV 0 true
  { s.wr .MLK_FW 0 0 with
    pcieUp := false, barrier := { s.barrier with safeAlways := true }, rst := { s.rst with recovery := true } }

/-- HALTED (R390): SAFE frames; every domain but the always-on domain, the time base and the encoder front ends is held in
reset. [DEDUCED, log 109] -/
def Dev.halt (s : Dev) : Dev := { s.sendSafe.stopCapture.clearWarm with power := .halted }

/-- The next stage begins. -/
def Dev.toStage (s : Dev) (k : Nat) : Dev := s.wr .RCP_STATE_STAGE 0 k

/-- Stage 1 (R386): an option-byte copy is selected. -/
def Dev.startStage1 (s : Dev) : Dev :=
  match s.optSelect with
  | none => (s.setFlag .RCP_STAT_OBERR 0 true).enterRecovery
  | some (o, b) =>
    let s := { s with mlk := { s.mlk with opt := o } }
    let s := ((s.setFlag .RCP_STAT_OBSRC 0 b).wr .RCP_FAILSTART_LIMIT 0 o.failLim).wr .MLK_ROLLBACK 0 o.rollback
    let both := s.mlk.optA.usable && s.mlk.optB.usable
    (if both then s else s.setFlag .RCP_STAT_OBFIX 0 true).toStage 2

/-- Stage 2 (R389, R391): the failed-start count is read, checked and stored plus 1. -/
def Dev.startStage2 (s : Dev) (storeFails : Bool) : Dev :=
  let c := s.rd .RCP_FAILSTART_COUNT
  let s := { s with rst := { s.rst with failedStarts := c } }
  if s.rd .RCP_FAILSTART_LIMIT ≤ c ∨ s.rst.recovery then s.enterRecovery
  else if storeFails then (s.setFlag .RCP_STAT_NVMERR 0 true).enterRecovery
  else (s.storeCount (min (c + 1) 15)).toStage 3

/-- The copy that stage 1 did not select is rewritten from the one that it did (R386). -/
def Dev.fixOptions (s : Dev) : Dev :=
  if !s.flag .RCP_STAT_OBFIX then s
  else
    let b := s.flag .RCP_STAT_OBSRC
    let s := { s with mlk := { s.mlk with optA := s.mlk.opt, optB := s.mlk.opt } }
    s.tally 0x0012 (if b then 0 else 1) 0xFFFFFFFF s.mlk.opt.seq

/-- Tally code 0x0014 for a bank (R412, R415). -/
def Dev.noteBank (s : Dev) (k : Nat) : Dev := s.tally 0x0014 k 0xFFFFFFFF (s.imageStatus (s.bank k))

/-- The event of a start (R412). [DEDUCED, log 119] -/
def Dev.noteStart (s : Dev) (bank : Nat) : Dev := s.tally 0x0010 bank 0xFFFFFFFF s.causeWord s.rst.failedStarts

/-- A bank runs (R415). -/
def Dev.runBank (s : Dev) (k : Nat) (trial : Bool) : Dev :=
  let s := ((s.wr .MLK_STAT_BANK 0 k).setFlag .MLK_STAT_TRIAL 0 trial).wr .MLK_FW 0 (imageVersion (s.bank k))
  ({ s with rst := { s.rst with trial := trial } }.noteStart k).toStage 5

/-- BANK_SELECT (R415). -/
def Dev.selectBank (s : Dev) : Dev :=
  let t := s.mlk.opt.tryBank
  let a := s.mlk.opt.active
  if t ≠ 0xFF ∧ s.rst.failedStarts = 0 ∧ s.passes t then s.runBank t true
  else
    let s := if t ≠ 0xFF then (s.requestEdit { tryBank := some 0xFF }).noteBank t else s
    if s.passes a then s.runBank a false
    else if s.passes (1 - a) then (s.noteBank a).runBank (1 - a) false
    else (s.noteStart 0xFF).enterRecovery

/-- The parts lost at a warm reset are recorded (R30). [DEDUCED, log 107] -/
def Dev.noteLost (s : Dev) : Dev :=
  match s.lostIds with
  | none => s
  | some (a, b) => { s.tally 0x0041 0xFF 0xFFFFFFFF a b with lostIds := none }

/-- Stage 4 (R409, R411, R415): torn Tally records are voided, an interrupted clear starts again, a bank is selected. -/
def Dev.startStage4 (s : Dev) : Dev :=
  let s := s.voidTorn.fixOptions.noteLost
  let s := if s.mlk.clearing.isSome then s.requestMnt .T else s
  s.selectBank

/-- The recipe slots that a warm start reloads end READY (R401). [DEDUCED, log 107] -/
def Dev.reloadSlots (s : Dev) : Dev :=
  let s := s.rst.reload.foldl (fun (d : Dev) k => d.setSlot k { d.slot k with st := 2 }) s
  { s with rst := { s.rst with reload := [] } }

/-- The field configuration is written, and RELEASE follows (R280). [DEDUCED, log 47] -/
def Dev.releaseField (s : Dev) : Dev :=
  let s := s.writeFieldConfig
  { s with barrier := { s.barrier with release := true } }

/-- A start is confirmed: the count 0 is stored, and a trial bank becomes the active one (R390, R415). -/
def Dev.confirm (s : Dev) : Dev :=
  let s := (s.storeCount 0).setFlag .RCP_FAILSTART_CONFIRMED 0 true
  if !s.rst.trial then s
  else
    let k := s.rd .MLK_STAT_BANK
    let low := max s.mlk.opt.rollback (imageSecurity (s.bank k))
    { s with rst := { s.rst with trial := false } }.requestEdit
      { active := some k, tryBank := some 0xFF, rollback := some low }

/-- Stage 7 (R161, R280, R313, R359, R401), and stage 8 with it: the E96 is Ready, and the start is confirmed with CONFMODE 0.
[DEDUCED, log 110] -/
def Dev.startStage7 (s : Dev) : Dev :=
  let s := s.loadNvm.applyPartition.applyRole.applyDictionary
  let s := (s.reloadSlots.releaseField.toStage 8).toReady
  if s.mlk.opt.confMode = 0 then s.confirm else s

/-- START_STAGE_COMPLETE (R384). [DEDUCED, log 110] -/
def Dev.stageComplete (s : Dev) (storeFails : Bool) : Dev :=
  if s.power != .start then s
  else
    match s.rd .RCP_STATE_STAGE with
    | 1 => s.startStage1
    | 2 => s.startStage2 storeFails
    | 3 => s.toStage 4
    | 4 => s.startStage4
    | 5 => s.toStage 6
    | 6 => s.toStage 7
    | _ => s.startStage7

def execStartStageComplete (storeFails : Bool) (s : State) : Host.Outcome State Fault Refusal :=
  s.run (.startStageComplete storeFails) fun d => d.stageComplete storeFails

/-- Stage 8 has been reached since the latest reset. [DEDUCED, log 110] -/
def Dev.started (s : Dev) : Bool := s.live || s.power == .standby

/-- START_CONFIRM (R390): a write of 1 to OD 0x9001:01. -/
def Dev.startConfirm (s : Dev) (port : Port) : Dev :=
  if !mayWrite rwRwRwNo port then s.status stDenied
  else if !s.started then s.status stBusy
  else (if s.flag .RCP_FAILSTART_CONFIRMED then s else s.confirm).status stOk

def execStartConfirm (port : Port) (s : State) : Host.Outcome State Fault Refusal :=
  s.run (.startConfirm port) fun d => d.served port 0x9001 1 fun d => d.startConfirm port

/-- START_TIMEOUT (R390). [DEDUCED, log 109] -/
def Dev.startTimeout (s : Dev) : Dev :=
  if (s.power == .start || s.started) && !s.flag .RCP_FAILSTART_CONFIRMED then s.halt else s

def execStartTimeout (s : State) : Host.Outcome State Fault Refusal := s.run .startTimeout fun d => d.startTimeout

/-- FAILSTART_CLEAR (R391, R403): a write of OD 0x9001:02; only 0 may be written. -/
def Dev.failstartClear (s : Dev) (port : Port) (v : Nat) : Dev :=
  if !mayWrite rRRwR port then s.status stDenied
  else if v ≠ 0 then s.status stRange
  else s.leaveRecovery.status stOk

def execFailstartClear (port : Port) (value : Nat) (s : State) : Host.Outcome State Fault Refusal :=
  s.run (.failstartClear port value) fun d => d.served port 0x9001 2 fun d => d.failstartClear port value

/-! ### Block reset (R393, R394) -/

/-- The requester may reset a block. [DEDUCED, log 113] -/
def ownsBlock (source : Source) (block : Nat) : Bool :=
  match source with
  | .host => decide (block ≤ 16)
  | .firmware => (decide (32 ≤ block) && decide (block ≤ 35)) || block == 40 || block == 41

/-- The requests that wait from an Ethernet port are dropped and counted (R393). -/
def Dev.dropQueued (s : Dev) (e : Nat) : Dev :=
  let n := (s.queuedBy e).length
  let s := { s with svc := { s.svc with waiting := s.svc.waiting.filter fun (x : Nat × Port × DictReq × Bool) => ethPortOf x.2.1 x.2.2.1.src != some e } }
  iter (fun (d : Dev) => d.countOd 0x1001 2 32) n s

/-- A block is reset: a Churn as R208 says, the decoder decodes its samples again (R307), a Zanyx port goes down (R321), an Ethernet
port's link goes down and up and its queued requests are lost. A power-gated Churn is left as it is.
[DEDUCED, log 61 and 113] -/
def Dev.resetBlock (s : Dev) (b : Nat) : Dev :=
  if b < 16 then (if s.rd .CHN_STAT_PWR b = 0 then s else (s.resetChurn b 4).count .RCP_BRST_CNT)
  else
    let s := s.count .RCP_BRST_CNT
    if b = 16 then s
    else if b ≤ 35 then (if s.flag .ZXL_STAT_LOCK (b - 32) then s.portDown (b - 32) else s)
    else
      let s := s.dropQueued (b - 40)
      if s.flag .ETH_STAT_LINK (b - 40) then (s.ethLinkLoss (b - 40)).ethLinkUp (b - 40) else s

/-- BLOCK_RESET (R393, R394). [DEDUCED, log 113] -/
def Dev.blockReset (s : Dev) (source : Source) (block : Nat) : Dev :=
  if s.power == .off || s.power == .halted || s.power == .resetting then s
  else
    let s := s.wr (if source = .host then .RCP_BRST_BLOCK else .RCP_BRST_MLK_BLOCK) 0 block
    if ownsBlock source block then s.resetBlock block else s.setFlag .RCP_STAT_BRSTERR 0 true

def execBlockReset (source : Source) (block : Nat) (s : State) : Host.Outcome State Fault Refusal :=
  s.run (.blockReset source block) fun d => d.blockReset source block

/-! ### Standby and Off (R398, R399) -/

/-- A command to enter Standby or Off is not refused. -/
def Dev.maySleep (s : Dev) : Bool :=
  (s.power == .ready || s.power == .doze) && !s.flag .SEP_CTL_ARM && s.parts.isEmpty && s.flag .ENC_MSTAT_STOP &&
    s.jobs.all fun j => j.queue == 8 && !j.teach && s.slotNow == some j.slot

/-- The blocks that run on in Standby: global registers, the always-on domain, the time base and Milkhouse, by BAR0 offset.
[DEDUCED, log 105 and 112] -/
def runsInStandby (a : Nat) : Bool :=
  decide (a < 0x200000) || (decide (0x800000 ≤ a) && decide (a < 0x880000)) || (decide (0xB00000 ≤ a) && decide (a < 0xC00000))

/-- The partition in force, which no change of the power state changes (R161). -/
def partField (f : Field) : Bool := f == .MEM_PART0_SLOTS || f == .MEM_PART0_INTAKE || f == .MEM_PART1_PROG

/-- A register field keeps its value in Standby: not a host-owned one; of the others, one of a block that runs on, one that a warm
reset keeps, the partition, or one of the field die (R400). [DEDUCED, log 105 and 112] -/
def keyInStandby (key : Nat) : Bool :=
  match keyField? key with
  | none => false
  | some f => f.desc.die || partField f || (f.ownerAt (key % 1024) != .host && (runsInStandby f.desc.base || f.outlives false))

/-- Standby (R396, R400): the fast domains are down, positions held, Vat kept if retention is set. [DESIGN CHOICE, log 111] -/
def Dev.goStandby (s : Dev) : Dev :=
  let keep := s.flag .RCP_CTL_RETAIN
  let reload := if keep then [] else s.slotsToReload
  let s := (s.dropWork.keepFields keyInStandby).keepMem keep true
  let s := ((s.setFlag .SEP_CTL_ARM 0 false).setPower .standby)
  let s := { s with xclkOn := false, rst := { s.rst with reload := reload }, slotNext := none }
  let s := (upTo 4).foldl (fun (d : Dev) ch => d.freshEnc ch) s
  if keep then { s with slots := s.slots.map fun e => (e.1, { e.2 with posted := false }) }
  else
    { s with slotNow := none, slotPast := [], slots := s.slots.map fun e => (e.1, e.2.unloaded) }

/-- The standing jobs of the ACTIVE slot are stopped (R398). -/
def Dev.stopActive (s : Dev) : Dev :=
  match s.slotNow with
  | none => s
  | some k => (s.setSlot k { s.slot k with posted := false }).stopStanding k

/-- The standing jobs of the ACTIVE slot are posted again (R398, R399). [DEDUCED, log 112] -/
def Dev.repost (s : Dev) : Dev :=
  match s.slotNow with
  | none => s
  | some k => s.activate k

/-- An entry is abandoned: Ready again, the standing jobs reposted (R398). [DESIGN CHOICE, log 111] -/
def Dev.abandon (s : Dev) : Dev := (s.repost.toReady).setFlag .RCP_STAT_STBYABT 0 true

/-- An accepted entry of Standby or Off. Whether a demand arrives, or the line moves, before the encoder front ends are powered down
is open: it is a free value, and the entry is then abandoned (R398). [DEDUCED, log 105 and 112] -/
def Dev.sleep (s : Dev) (enter : Dev → Dev) : Dev :=
  let gone := s.freeValue 1
  let s := s.useFree.stopActive
  if gone = 1 then s.abandon else enter s.sendSafe

/-- ENTER_STANDBY (R398): a write of 1 to OD 0x9000:01. [DESIGN CHOICE, log 111] -/
def Dev.enterStandby (s : Dev) (port : Port) : Dev :=
  if !mayWrite rwRwRwR port then s.status stDenied
  else if !s.maySleep then s.status stBusy
  else (s.sleep Dev.goStandby).status stOk

def execEnterStandby (port : Port) (s : State) : Host.Outcome State Fault Refusal :=
  s.run (.enterStandby port) fun d => d.served port 0x9000 1 fun d => d.enterStandby port

/-- ENTER_OFF (R398): a write of 3 to OD 0x9000:01. [DESIGN CHOICE, log 111] -/
def Dev.enterOff (s : Dev) (port : Port) : Dev :=
  if !mayWrite rwRwRwR port then s.status stDenied
  else if !s.maySleep then s.status stBusy
  else (s.sleep Dev.goOff).status stOk

def execEnterOff (port : Port) (s : State) : Host.Outcome State Fault Refusal :=
  s.run (.enterOff port) fun d => d.served port 0x9000 1 fun d => d.enterOff port

/-- Standby is left (R399): the dictionary is applied, jobs reposted or recipes reloaded, the safe state released, vector 12
raised. [DEDUCED, log 112] -/
def Dev.wakeUp (s : Dev) : Dev :=
  let s := (s.loadNvm.setPower .ready).applyDictionary
  (s.reloadSlots.repost.releaseField.toReady.startQueued).raiseVec 12

/-- LEAVE_STANDBY (R399): a write of 2 to OD 0x9000:01; in any other state it is BUSY. -/
def Dev.leaveStandby (s : Dev) (port : Port) : Dev :=
  if !mayWrite rwRwRwR port then s.status stDenied
  else if s.power != .standby then s.status stBusy
  else s.wakeUp.status stOk

def execLeaveStandby (port : Port) (s : State) : Host.Outcome State Fault Refusal :=
  s.run (.leaveStandby port) fun d => d.served port 0x9000 1 fun d => d.leaveStandby port

/-- RESTORE_DEFAULTS (R360): a write of 1 to OD 0x1010:01. -/
def Dev.restoreDefaults (s : Dev) (port : Port) : Dev :=
  if !mayWrite noNoRwNo port then s.status stDenied
  else { s with svc := { s.svc with restore := true } }.status stOk

def execRestoreDefaults (port : Port) (s : State) : Host.Outcome State Fault Refusal :=
  s.run (.restoreDefaults port) fun d => d.served port 0x1010 1 fun d => d.restoreDefaults port

/-! ### Sensors, throttling and shutdown (R404 to R407, R433) -/

/-- The sensor registers take a reading; they hold the last one while sensors are calibrated (R418). -/
def Dev.readSensors (s : Dev) (x : Sensors) : Dev :=
  if s.mntSt .C = 2 then s
  else
    let temp := fun (n : Nat) => unsgn 16 (x.temps.getD n 0)
    let s := (upTo 32).foldl (fun (d : Dev) n => d.wr .MLK_TEMP n (temp n)) s
    let s := (upTo 16).foldl (fun (d : Dev) n => d.wr .MLK_VMON n (x.volts.getD n 0)) s
    let s := (upTo 4).foldl (fun (d : Dev) n => d.wr .MLK_IMON n (x.amps.getD n 0)) s
    let s := (s.wr .MLK_TACH_TACH0 0 x.tach0).wr .MLK_TACH_TACH1 0 x.tach1
    let ok := maskOf ((upTo 2).filter fun k => decide (300 ≤ if k = 0 then x.tach0 else x.tach1))
    { s with mlk := { s.mlk with fanFail := clearBits s.mlk.fanFail ok } }

/-- A temperature, in 1/16 °C. -/
def Dev.temp (s : Dev) (n : Nat) : Int := sgn 16 (s.rd .MLK_TEMP n)

/-- The hottest of sensors 0 to 29 (R405). [DEDUCED, log 115] -/
def Dev.hottest (s : Dev) : Nat := (rangeFrom 1 29).foldl (fun m n => if s.temp m < s.temp n then n else m) 0

/-- The 12 V input power, in µW (R405, R430). [DEDUCED, log 115] -/
def Dev.inputPower (s : Dev) : Nat := s.rd .MLK_VMON 0 * s.rd .MLK_IMON 0

/-- CCLK changes: what has run so far is counted at the old rate (R405). [DEDUCED, log 115] -/
def Dev.setCclk (s : Dev) (khz : Nat) : Dev :=
  let s := (upTo 16).foldl (fun (d : Dev) n => d.settle n) s
  let s := (s.jobs.map fun (j : Job) => j.seq).foldl (fun (d : Dev) q => d.sampleJob q) s
  let s := { s with mlk := { s.mlk with cclk := khz, cool := 0 } }
  ((s.setFlag .GLB_DET_STAT_THROT 0 true).tally 0x00A0 s.hottest 0xFFFFFFFF khz (unsgn 64 (s.temp s.hottest))).disturb

/-- The milliseconds that the junction and the input power have been low. -/
def Dev.setCool (s : Dev) (n : Nat) : Dev := { s with mlk := { s.mlk with cool := n } }

/-- THROTTLE_STEP (R405): one step down while hot, one step up after 10 ms of cool. [DEDUCED, log 115] -/
def Dev.throttle (s : Dev) : Dev :=
  let t := s.temp s.hottest
  if 1680 ≤ t ∨ 210000000 < s.inputPower then
    if 750000 < s.mlk.cclk then s.setCclk (s.mlk.cclk - 93750) else s.setCool 0
  else if t ≤ 1632 ∧ s.inputPower < 200000000 then
    if 10 ≤ s.mlk.cool + 1 ∧ s.mlk.cclk < 1500000 then s.setCclk (s.mlk.cclk + 93750)
    else s.setCool (min (s.mlk.cool + 1) 9)
  else s.setCool 0

/-- SHUTDOWN (R406). [DEDUCED, log 115] -/
def Dev.shutdown (s : Dev) : Dev :=
  ((s.tally 0x00A1 s.hottest 0xFFFFFFFF (unsgn 64 (s.temp s.hottest))).sendSafe).goOff

/-- SENSOR_READ (R404 to R407). -/
def Dev.sensorRead (s : Dev) (x : Sensors) : Dev :=
  if !s.firmware then s
  else
    let s := s.readSensors x
    if 1840 ≤ s.temp s.hottest then s.shutdown
    else
      let s := s.throttle
      (s.wr .MLK_FAN 0 (s.fanDuty (s.temp 31))).useFree

def execSensorRead (sensors : Sensors) (s : State) : Host.Outcome State Fault Refusal :=
  s.run (.sensorRead sensors) fun d => d.sensorRead sensors

end Sys2Proof.Machine
end

