-- ==== Sys2Proof/Machine/OdWrite.lean ====
section
/-! DEFINITION. Writes of dictionary entries (R357, step 7, and R358): the entry's own range, busy and parameter rules, what the
write does, and the store of a class N value. The latest write's status stands in `Service.lastStatus`. -/

namespace Sys2Proof.Machine

open Sys2Proof

/-! ### Rules of single entries -/

/-- The Separator is armed, or parts are in flight. -/
def Dev.separating (s : Dev) : Bool := s.flag .SEP_CTL_ARM || !s.parts.isEmpty

/-- A slot that is READY or ACTIVE meets every lane below `n` with checked sets (R24). -/
def Dev.lanesOk (s : Dev) (n : Nat) : Bool := (s.slotsIn fun st => decide (2 ≤ st)).all fun k => s.setsOk k n

/-- Values that the type admits and R182, R61, R156, R247, R311, R336, R352 do not. [DEDUCED, log 96] -/
def Dev.numRange (s : Dev) (index sub v : Nat) : Bool :=
  let n := odPlace index
  match odBase index with
  | 0x2100 => sub != 3 || decide (v ≤ 6) || v == 0xFF
  | 0x2180 => sub != 4 || v != 0
  | 0x2400 =>
    let resampling := !bit (s.odNum index 1 63) 5
    if sub = 3 then !(v == 0 && s.odNum index 2 0 == 1)
    else if sub = 7 then v % 4 != 0
    else if sub = 10 then !(v / 2 ^ 16 == 0 && resampling)
    else if sub = 12 ∨ sub = 18 then !(v == 0 && resampling)
    else true
  | 0x3002 => v == 0 || v == 8 || v == 10 || v == 12 || v == 16
  | 0x3020 =>
    if sub = 1 then decide (32768 ≤ progKiB v (s.odNum index 2 16))
    else if sub = 2 then decide (32768 ≤ progKiB (s.odNum index 1 64) v)
    else true
  | 0x4000 => sub != 8 || ([1, 2, 4, 8, 16, 32, 64] : List Nat).contains v
  | 0x4200 =>
    if sub = 5 then decide (bits v 0 16 < bits v 16 16)
    else if sub = 8 then inRange 8 64 (bits v 24 7) && inRange 1 100 (bits v 16 7) && bits v 0 12 != 0
    else if sub = 12 then v == 1
    else true
  | 0x6100 => sub != 2 || (if n = 2 then v == 2 else decide (v ≤ 1))
  | 0x7000 =>
    if sub = 1 then v % 128 == 0 && (v == 0 || inLpddr v)
    else if sub = 4 then v % 4096 == 0 && decide (v < 2 ^ 52)
    else true
  | 0x8010 => sub != 1 || (v % 4096 == 0 && decide (v < 2 ^ 52))
  | _ => true

/-- Writes that the state of the module blocks (R24, R236, R243, R255, R265). [DEDUCED, log 96] -/
def Dev.numBusy (s : Dev) (index sub v : Nat) : Bool :=
  let n := odPlace index
  match odBase index with
  | 0x4001 => s.separating && v != s.laneCount
  | 0x4200 =>
    let was := match sub with
      | 1 => s.rd .ENC_CFG_TYPE n
      | 2 => s.rd .ENC_CFG_EN n
      | 3 => s.rd .ENC_CFG_INV n
      | _ => s.rd .ENC_CFG_INTERP n
    decide (sub ≤ 4) && n == s.master && s.separating && v != was
  | 0x4300 => decide (sub ≤ 6) && s.flag .ENC_CG_CTL_ARM n
  | 0x4500 => s.flag .SEP_CTL_ARM
  | 0x4600 => sub == 1 && s.flag .SEP_CTL_ARM
  | _ => false

/-- The parameter rules of an output (R255): `en`, `f`, `mode` and `dwell` are its settings after the write. -/
def Dev.outputOk (s : Dev) (n sub en f mode dwell : Nat) : Bool :=
  let named := (s.slotsIn fun st => decide (2 ≤ st)).any fun k =>
    (upTo 64).any fun l => bit (s.rd .SEP_SETA (64 * k + l)) n || bit (s.rd .SEP_SETB (64 * k + l)) n
  if en = 1 then f != 0 && (mode == 2 || dwell != 0) && (sub != 1 || s.rd .SEP_LSTOP_OUT != n)
  else !(sub == 1 && s.flag .SEP_OUT_CFG_EN n && named)

/-- Values that do not fit the other settings (R24, R255). [DEDUCED, log 96] -/
def Dev.numParam (s : Dev) (index sub v : Nat) : Bool :=
  let n := odPlace index
  match odBase index with
  | 0x4001 => s.lanesOk v
  | 0x4500 =>
    let pick := fun (k : Nat) (f : Field) => if sub = k then v else s.rd f n
    s.outputOk n sub (pick 1 .SEP_OUT_CFG_EN) (pick 2 .SEP_OUT_OFS) (pick 3 .SEP_OUT_CFG_DMODE) (pick 4 .SEP_OUT_DWELL)
  | _ => true

/-! ### Entries that stage or commit settings (R64, R77, R100, R102) -/

/-- A setting of an enabled context is committed, or refused with a parameter error and left as it was. -/
def Dev.writeSetting (s : Dev) (c : Nat) (t : Dev) (pp : Bool) : Dev :=
  let cfg := t.staged ctxFields c
  let code := (if pp then 0 else t.ctxCheck c cfg, t.ppCheck cfg (t.staged ppFields c))
  if code ≠ (0, 0) then (s.noteRefused c code).status stParam
  else (if pp then t.ppCommit c else t.ctxCommit c).status stOk

/-- A write of OD 0x2200 + *c* or OD 0x2400 + *c*. -/
def Dev.writeCtx (s : Dev) (index sub : Nat) (e : OdEntry) (v : Nat) : Dev :=
  let c := odPlace index
  if odBase index = 0x2200 ∧ sub = 11 then
    if v = 0 then (if s.ctxIsOn c then s.disableCtx c else s).status stOk
    else if s.ctxIsOn c then s.status stOk
    else
      let code := s.enableCode c
      if code = (0, 0) then (s.enableCtx c).status stOk else (s.noteRefused c code).status stParam
  else if s.ctxIsOn c then s.writeSetting c (s.mirror e c v) (odBase index == 0x2400)
  else (s.mirror e c v).status stOk

/-- A fusion context stages settings, or refuses them and keeps its own (R64, R77, R79). -/
def Dev.writeFusion (s : Dev) (f : Nat) (t : Dev) : Dev :=
  if !t.flag .ITK_FUS_CTL_EN f ∨ t.fusOk f then (t.fusStage f).status stOk
  else (s.setFlag .ITK_FUS_STAT_CMTERR f true).status stParam

/-- A write of a number of OD 0x2300 + *f*. -/
def Dev.writeFus (s : Dev) (index sub : Nat) (e : OdEntry) (v : Nat) : Dev :=
  let f := odPlace index
  if sub = 4 then
    if v = 0 then s.writeFusion f (s.setFlag .ITK_FUS_CTL_EN f false)
    else s.writeFusion f (s.setFlag .ITK_FUS_CTL_EN f true)
  else s.writeFusion f (s.mirror e f v)

/-- The group that a link leaves and the one that it joins are checked (R54, R55). -/
def Dev.regroup (s : Dev) (n : Nat) (t : Dev) : Dev :=
  let old := s.rd .CXP_LNK_CTL_MASTER n
  let t := if t.rd .CXP_LNK_CTL_MASTER old = old then t.checkGroup old else t
  t.checkGroup n

/-! ### Entries that command something -/

/-- A write of the option bytes through OD 0x9001:03 to :05 (R388, R403). -/
def Dev.writeOption (s : Dev) (sub v : Nat) : Dev :=
  (s.requestEdit (if sub = 3 then { failLim := some v }
    else if sub = 4 then { startTmo := some v }
    else { confMode := some v })).status stOk

/-- A camera register access through OD 0x2180 + *n*:04 (R61). [DEDUCED, log 44 and 96] -/
def Dev.cameraAccess (s : Dev) (n v : Nat) : Dev :=
  (s.request n { source := .firmware, write := v == 2, addr := s.odNum (0x2180 + n) 1 0, len := s.odNum (0x2180 + n) 3 0,
                 data := s.odBytes (0x2180 + n) 2 }).status stOk

/-- A write of 1 releases the line stop, or is busy (R265, R270). -/
def Dev.writeRelease (s : Dev) (v : Nat) : Dev :=
  if v = 0 then s.status stOk else if s.mayRelease then s.releaseStop.status stOk else s.status stBusy

/-- A write of OD 0x4300 + *g*:07 (R240, R243); XCLK stands still in Standby, where ARM is 0 (R400). -/
def Dev.writeCgArm (s : Dev) (g v : Nat) : Dev :=
  if v = 0 then (s.cgDisarm g).status stOk
  else if s.power == .standby then s.status stBusy
  else (s.cgArm g).status stOk

/-- A write of the bank switch; `ARM` = 0 arms nothing and withdraws nothing (R98). -/
def Dev.writeBank (s : Dev) (c v : Nat) : Dev := (if bit v 17 then s.armBank c (bits v 0 16) (bit v 16) else s).status stOk

/-- A write of OD 0x9000:01 (R398, R399). -/
def Dev.writePower (s : Dev) (port : Port) (v : Nat) : Dev :=
  if v = 1 then s.enterStandby port else if v = 2 then s.leaveStandby port else s.enterOff port

/-- Entries whose write is a command: what it does, for place `n` of their group. -/
def Dev.odCommand (s : Dev) (port : Port) (base n sub v : Nat) : Option Dev :=
  match base with
  | 0x1010 => some (if v = 1 then s.restoreDefaults port else s.status stOk)
  | 0x2180 => if sub = 4 then some (s.cameraAccess n v) else none
  | 0x2400 => if sub = 19 then some (s.writeBank n v) else none
  | 0x3000 => if sub = 2 then some (s.recipeSwitch port v) else none
  | 0x3001 => if sub = 1 then some (s.reproModeWrite port (v == 1)) else some (s.fixedModeWrite port (v == 1))
  | 0x4000 => if sub = 1 then some (s.lineMasterChange port v) else none
  | 0x4200 => if sub = 12 then some ((s.encFaultClear n).status stOk) else none
  | 0x4300 => if sub = 7 then some (s.writeCgArm n v) else none
  | 0x4600 =>
    if sub = 2 then some (s.writeRelease v) else if sub = 3 then some (s.sepArmWrite port (v == 1)) else none
  | 0x5000 => if 5 ≤ sub then some ((s.applyField 0x5000 sub v).status stOk) else none
  | 0x6000 => if sub = 7 then some (s.servoHandover port (v == 1)) else none
  | 0x6200 =>
    if sub = 1 then some (if v = 1 then s.ttoEnable port n else (s.stopTto n).status stOk) else none
  | 0x7100 => if sub = 4 then some (s.validationStart port v) else none
  | 0x9000 => if sub = 1 then some (s.writePower port v) else none
  | 0x9001 =>
    if sub = 1 then some (if v = 1 then s.startConfirm port else s.status stOk)
    else if sub = 2 then some (s.failstartClear port v)
    else some (s.writeOption sub v)
  | 0xA100 => some (if v = 1 then s.tallyClear port else s.status stOk)
  | 0xA300 => some (s.maintenanceRequest port (activities.getD v .T))
  | _ => none

/-! ### The effect of a write -/

/-- A number comes into force in the registers that hold it. -/
def Dev.putNum (s : Dev) (index sub : Nat) (e : OdEntry) (v : Nat) : Dev :=
  let n := odPlace index
  match odBase index with
  | 0x2100 =>
    let t := s.applyNum index sub e v
    (if sub = 4 ∨ sub = 5 then s.regroup n t else t).status stOk
  | 0x2200 | 0x2400 => s.writeCtx index sub e v
  | 0x2300 => s.writeFus index sub e v
  | 0x5000 | 0x5100 | 0x5200 => (s.applyField index sub v).status stOk
  | _ => (s.applyNum index sub e v).status stOk

/-- A write of a number (R357, step 7). -/
def Dev.writeNum (s : Dev) (port : Port) (index sub : Nat) (e : OdEntry) (v : Nat) : Dev :=
  if !(e.inRange (.num v) && s.numRange index sub v) then s.status stRange
  else if s.numBusy index sub v then s.status stBusy
  else if !s.numParam index sub v then s.status stParam
  else match s.odCommand port (odBase index) (odPlace index) sub v with
    | some t => t
    | none => s.putNum index sub e v

/-- The bytes of a flat table: 4 for each column and component (R86, R102). -/
def Dev.flatBytes (s : Dev) (c : Nat) : Nat :=
  4 * s.rd .ITK_CTX_CFG0_WIDTH c * (match pixelKind (s.rd .ITK_CTX_CFG1_FMT c) with
    | .mono => 1
    | .rgb => 3
    | .bayer => 2)

/-- A write of a stage table (R102). -/
def Dev.writeTable (s : Dev) (c sub : Nat) (b : List Byte) : Dev :=
  let fits := match sub with
    | 1 => b.length == 8192
    | 2 => b.length == s.flatBytes c
    | _ => b.length % 2 == 0
  if !fits then s.status stType
  else if !s.areaOk (s.tableBase c sub) b.length then s.status stParam
  else
    let t := s.loadTable c sub b
    if sub = 3 ∧ s.ctxIsOn c then s.writeSetting c t true else t.status stOk

/-- A write of a policy or of output sets: BUSY for a slot that is ACTIVE (R254). -/
def Dev.writeSlotTable (s : Dev) (index sub : Nat) (b : List Byte) : Dev :=
  if (s.slot (odPlace index)).st = 3 then s.status stBusy else (s.applyBytes index sub b).status stOk

/-- A write of a byte string (R357, step 7). -/
def Dev.writeBytes (s : Dev) (index sub : Nat) (b : List Byte) : Dev :=
  match odBase index with
  | 0x2300 =>
    if b.all fun x => decide (x.toNat < 64) then s.writeFusion (odPlace index) (s.applyBytes index sub b) else s.status stRange
  | 0x2500 => s.writeTable (odPlace index) sub b
  | 0x4100 => s.writeSlotTable index sub b
  | 0xA200 => (s.takeImage b).status stOk
  | _ => (s.applyBytes index sub b).status stOk

/-- The effect of a write, with its status. -/
def Dev.odEffect (s : Dev) (port : Port) (index sub : Nat) (e : OdEntry) (v : OdVal) : Dev :=
  match v with
  | .num n => s.writeNum port index sub e n
  | .bytes b => s.writeBytes index sub b

/-! ### Storing (R358) -/

/-- The class V entries that hold the value written to them. -/
def keptV : List (Nat × Nat) :=
  [(0x2180, 1), (0x2180, 2), (0x2180, 3), (0x3000, 3), (0x6000, 6), (0x6200, 2), (0x7100, 1), (0x7100, 2), (0x7100, 3)]

/-- Store a value in force. -/
def Dev.putOd (s : Dev) (index sub : Nat) (v : OdVal) : Dev := { s with od := tabPut s.od (odKey index sub) v }

/-- The entry is stored with the class N entries: those of OD 0x9001 have places of their own in NVM (R387, R389). -/
def storedN (index : Nat) (e : OdEntry) : Bool := e.cls == 0 && index != 0x9001

/-- A write that has taken effect leaves its value in force, and a class N value in NVM. [DESIGN CHOICE, log 95] -/
def Dev.keepValue (s : Dev) (index sub : Nat) (e : OdEntry) (v : OdVal) : Dev :=
  if storedN index e then (s.putOd index sub v).storeNvm (odKey index sub) (odDefault index sub e) v
  else if e.cls = 1 || keptV.contains (odBase index, sub) then s.putOd index sub v
  else s

/-- The write makes a store in NVM. [DESIGN CHOICE, log 95] -/
def Dev.makesStore (s : Dev) (index sub : Nat) (e : OdEntry) (v : OdVal) : Bool :=
  (storedN index e && s.nvmValue (odKey index sub) (odDefault index sub e) != some v) ||
    (index == 0x9001 && sub == 2 && s.rd .RCP_FAILSTART_COUNT != 0)

/-- A write that has passed the checks up to the segment sequence: the entry's rules, the effect and the store (R357, R358).
[DEDUCED, log 96] -/
def Dev.odWrite (s : Dev) (port : Port) (index sub : Nat) (e : OdEntry) (v : OdVal) (nvmFails : Bool) : Dev :=
  let t := s.odEffect port index sub e v
  if t.svc.lastStatus ≠ stOk then t
  else if nvmFails && s.makesStore index sub e v then s.status stNvm
  else t.keepValue index sub e v

end Sys2Proof.Machine
end

