-- ==== Sys2Proof/Machine/Service.lean ====
section
/-! DEFINITION. The dictionary service (R357, R361 to R367, R332): the checks of a request in their order, the operations,
relays, repeats, sequences of segments, the mailbox. -/

namespace Sys2Proof.Machine

open Sys2Proof

/-! ### Answers (R362, R364) -/

/-- What an answer says: status, flags, data. -/
structure Reply where
  status : Nat
  flags : Nat := 0
  data : List Byte := []
deriving DecidableEq, Repr

/-- The 48-byte header of a response, and its data. -/
def DictResp.bytes (r : DictResp) : List Byte :=
  leBytes 0x4E47 2 ++ leBytes 1 1 ++ leBytes r.op 1 ++ leBytes r.reqid 4 ++ leBytes r.index 2 ++ leBytes r.sub 1 ++
    leBytes r.member 1 ++ leBytes r.offset 4 ++ leBytes r.data.length 4 ++ leBytes r.flags 1 ++ leBytes r.status 1 ++
    leBytes 0 2 ++ leBytes r.trx 8 ++ leBytes r.ttx 8 ++ leBytes 0 8 ++ r.data

/-- The response to a request received at device time `trx`; it is handed over at a free time, each stamp within 5 µs (R347).
[DESIGN CHOICE, log 94] -/
def Dev.response (s : Dev) (r : DictReq) (trx : Nat) (a : Reply) : DictResp :=
  { op := wrap 8 (r.op + 0x80), reqid := r.reqid, index := r.index, sub := r.sub, member := r.member, offset := r.offset
    flags := a.flags, status := a.status, trx := trx, ttx := wrap 64 (max trx s.fullNs + s.freeValue 32 % 20005001), data := a.data }

/-- A response leaves by the port of its request; the mailbox has it in `MLK_MBX_RSP` (R367). [DESIGN CHOICE, log 94] -/
def Dev.hand (s : Dev) (p : Port) (r : DictReq) (x : DictResp) : Dev :=
  match p with
  | .z => s.toManager (.dict { r with op := x.op, flags := x.flags, resv := x.status, length := x.data.length, data := x.data } true)
  | .h =>
    if s.answers .h then
      (((s.send (.response .h x)).putBars 0xB01800 x.bytes).setFlag .MLK_MBX_STAT_DONE 0 true).setFlag .MLK_MBX_STAT_BUSY 0 false
    else s.send (.response .h x)
  | p => s.send (.response p x)

/-- The source of a request (R365, R366): the mailbox, or an address and port; a relayed request is the manager's.
[DEDUCED, log 91] -/
def sourceOf (p : Port) (src : Nat) : Nat :=
  match p with
  | .h => 0
  | .z => 2 * src + 1
  | _ => 2 * src + 2

/-- Keep the response for repeats (R365). [DEDUCED, log 91] -/
def Dev.remember (s : Dev) (p : Port) (r : DictReq) (x : DictResp) : Dev :=
  if !s.answers p then s
  else
    let other := s.svc.cache.filter fun e => !(sourceOf e.port e.src == sourceOf p r.src && e.reqid == r.reqid)
    { s with svc := { s.svc with cache := { src := r.src, reqid := r.reqid, port := p, req := r, resp := x } :: other } }

/-- A request ends with an answer. -/
def Dev.answer (s : Dev) (p : Port) (r : DictReq) (trx : Nat) (a : Reply) : Dev :=
  let x := s.response r trx a
  (s.useFree.hand p r x).remember p r x

/-- The stored response of a repeat: the same request from the same source, or over Zanyx the same request identifier
(R332, R365). [DEDUCED, log 91] -/
def Dev.repeated (s : Dev) (p : Port) (r : DictReq) : Option CacheEntry :=
  s.svc.cache.find? fun e =>
    sourceOf e.port e.src == sourceOf p r.src && e.reqid == r.reqid && (p == .z || e.req == r)

/-! ### The checks and the operations (R357, R363) -/

/-- The header has the form of R362. [DEDUCED, log 92] -/
def headerOk (r : DictReq) : Bool :=
  r.magic == 0x4E47 && r.version == 1 && decide (1 ≤ r.op ∧ r.op ≤ 5) && r.resv == 0 && decide (r.flags ≤ 1) &&
    (r.offset == 0 || decide (4 ≤ r.op)) && (r.op != 4 || decide (1 ≤ r.length ∧ r.length ≤ 1400))

/-- INFO: type, class, rights, lengths and default of an entry. -/
def Dev.infoBytes (s : Dev) (index sub : Nat) (e : OdEntry) : List Byte :=
  let dflt := match odDefault index sub e with
    | .num n => n
    | .bytes _ => 0
  leBytes e.typ 1 ++ leBytes e.cls 1 ++ leBytes e.rights 1 ++ leBytes 0 1 ++ leBytes (s.odLength index sub e) 4 ++
    leBytes dflt 8 ++ leBytes ((typSize e.typ).getD e.len.2) 4 ++ leBytes 0 4

/-- What a read leaves: the offset from the master takes a free value where it does not fit its type (R352), a damaged Tally
record is noted (R413). -/
def Dev.readsEntry (s : Dev) (index sub ofs n : Nat) : Dev :=
  if index = 0x6000 ∧ sub = 10 ∧ !fitsS 32 s.tb.offset then s.useFree
  else if index = 0xA100 ∧ sub = 5 ∧ s.tallyDamaged ofs n then s.setFlag .TLY_STAT_DAMAGED 0 true
  else s

/-- READ. -/
def Dev.opRead (s : Dev) (r : DictReq) (e : OdEntry) : Dev × Reply :=
  if e.typ = 9 then (s, { status := stType })
  else (s.readsEntry r.index r.sub 0 0, { status := stOk, data := odEncode e (s.odValue r.index r.sub e) })

/-- WRITE. [DEDUCED, log 92; DESIGN CHOICE, log 95] -/
def Dev.opWrite (s : Dev) (p : Port) (r : DictReq) (e : OdEntry) (nvmFails : Bool) : Dev × Reply :=
  match if e.typ = 9 then none else odDecode e r.data with
  | none => (s, { status := stType })
  | some v =>
    let t := s.odWrite p r.index r.sub e v nvmFails
    (t, { status := t.svc.lastStatus })

/-- READSEG. [DEDUCED, log 92] -/
def Dev.opReadseg (s : Dev) (r : DictReq) (e : OdEntry) : Dev × Reply :=
  let len := s.odLength r.index r.sub e
  if len < r.offset then (s, { status := stRange })
  else
    let last := decide (len ≤ r.offset + r.length)
    (s.readsEntry r.index r.sub r.offset r.length, { status := stOk, flags := last.toNat, data := s.odPart r.index r.sub e r.offset r.length })

/-- A segment follows on what has been received of its sequence, or opens a new one (R366). [DEDUCED, log 92] -/
def segmentFits (r : DictReq) (own : Option Sequence) : Bool :=
  if r.offset = 0 then !r.data.isEmpty || bit r.flags 0
  else match own with
    | some q => r.offset == q.data.length && !r.data.isEmpty
    | none => false

/-- WRITESEG (R366): a firmware image is not taken while one is written (R417). [DEDUCED, log 92] -/
def Dev.opWriteseg (s : Dev) (p : Port) (r : DictReq) (e : OdEntry) (nvmFails : Bool) : Dev × Reply :=
  let key := odKey r.index r.sub
  let same := fun (q : Sequence) => sourceOf q.port q.src == sourceOf p r.src
  let now := s.svc.seqs.find? fun q => q.key == key
  if e.typ ≠ 9 then (s, { status := stType })
  else if now.any fun q => !same q then (s, { status := stBusy })
  else if !segmentFits r now then (s, { status := stSeq })
  else if r.index = 0xA200 ∧ r.offset = 0 ∧ s.mlk.updStatus = 1 then (s, { status := stBusy })
  else
    let old := if r.offset = 0 then [] else match now with
      | some q => q.data
      | none => []
    let data := old ++ r.data
    let rest := s.svc.seqs.filter fun q => q.key != key
    if !bit r.flags 0 then
      ({ s with svc := { s.svc with seqs := { key := key, port := p, src := r.src, data := data } :: rest } }, { status := stOk })
    else
      let s := { s with svc := { s.svc with seqs := rest } }
      match odDecode e data with
      | none => (s, { status := stType })
      | some v =>
        let t := s.odWrite p r.index r.sub e v nvmFails
        (t, { status := t.svc.lastStatus })

/-- The checks from the existence of the entry on, and the operation (R357, R416). [DESIGN CHOICE, log 95] -/
def Dev.serveHere (s : Dev) (p : Port) (r : DictReq) (nvmFails : Bool) : Dev × Reply :=
  match odEntry? r.index r.sub with
  | none => (s, { status := stNoEntry })
  | some e =>
    if s.power == .recovery && !recoveryEntry r.index r.sub then (s, { status := stNoEntry })
    else if r.op = 2 ∨ r.op = 5 then
      if !mayWrite e.rights p then (s, { status := stDenied })
      else if r.op = 2 then s.opWrite p r e nvmFails
      else s.opWriteseg p r e nvmFails
    else if !mayRead e.rights p then (s, { status := stDenied })
    else if r.op = 1 then s.opRead r e
    else if r.op = 3 then (s, { status := stOk, data := s.infoBytes r.index r.sub e })
    else s.opReadseg r e

/-! ### Routing (R332, R362) -/

/-- The request names this module. [DEDUCED, log 84] -/
def Dev.isLocal (s : Dev) (r : DictReq) : Bool := r.member == 0xFF || r.member == s.memberNo

/-- A manager passes a request on as a DICT frame and waits for the answer. [DEDUCED, log 85] -/
def Dev.relay (s : Dev) (p : Port) (r : DictReq) (trx q : Nat) : Dev :=
  ({ s with herd := { s.herd with relays := s.herd.relays ++ [(trx, r, p)] } }).zSend q
    { src := s.memberNo, dst := r.member, bc := false, load := .dict r false }

/-- Serve one request (R357, R365): a repeat gets the stored response, or over Zanyx none. [DEDUCED, log 84] -/
def Dev.serve (s : Dev) (trx : Nat) (p : Port) (r : DictReq) (nvmFails : Bool) : Dev :=
  if !s.answers p then s
  else match s.repeated p r with
    | some e => if p == .z then s else s.hand p r e.resp
    | none =>
      if !headerOk r then s.answer p r trx { status := stBadReq }
      else if s.isLocal r then
        let (t, a) := s.serveHere p r nvmFails
        t.answer p r trx a
      else
        match if s.manager && p != .z then s.routeTo r.member else none with
        | some q => s.relay p r trx q
        | none => s.answer p r trx { status := stUnreach }

/-- A request is served, or waits while an answer from a member is outstanding: requests are served one at a time. -/
def Dev.take (s : Dev) (e : Nat × Port × DictReq × Bool) : Dev :=
  if s.herd.relays.isEmpty then s.serve e.1 e.2.1 e.2.2.1 e.2.2.2
  else { s with svc := { s.svc with waiting := s.svc.waiting ++ [e] } }

/-- The requests that wait are taken in order of arrival, and `l` after them. [DEDUCED, log 93] -/
def Dev.takeAll (s : Dev) (l : List (Nat × Port × DictReq × Bool)) : Dev :=
  (s.svc.waiting ++ l).foldl (fun (d : Dev) e => d.take e) { s with svc := { s.svc with waiting := [] } }

/-- A mailbox request is outstanding. [DEDUCED, log 93] -/
def Dev.mailboxTaken (s : Dev) : Bool :=
  (s.herd.relays.any fun e => e.2.2 == .h) || s.svc.waiting.any fun e => e.2.1 == .h

/-- The queue of 32 requests of the Ethernet port by which a request arrives is full (R361). -/
def Dev.queueFull32 (s : Dev) (p : Port) (r : DictReq) : Bool :=
  match ethPortOf p r.src with
  | some e => decide (32 ≤ (s.queuedBy e).length)
  | none => false

/-- A request arrives; its stamp of receipt lies within 5 µs after (R347). The mailbox holds one request at a time (R367), an Ethernet
port 32, and a request that finds them taken is dropped and counted (R361). [DEDUCED, log 93] -/
def Dev.arrival (s : Dev) (p : Port) (r : DictReq) (nvmFails : Bool) : Dev :=
  if !s.answers p then s
  else if p == .h && s.mailboxTaken then s.setFlag .MLK_MBX_STAT_DBERR 0 true
  else if s.queueFull32 p r then s.countOd 0x1001 2 32
  else
    let trx := wrap 64 (s.fullNs + s.freeValue 32 % 5001)
    let s := if p == .h then s.setFlag .MLK_MBX_STAT_BUSY 0 true else s
    s.useFree.takeAll [(trx, p, r, nvmFails)]

/-! ### The commands -/

def execDictRead (port : Port) (req : DictReq) (s : State) : Host.Outcome State Fault Refusal :=
  s.run (.dictRead port req) fun d => d.arrival port req false

def execDictWrite (port : Port) (req : DictReq) (nvmFails : Bool) (s : State) : Host.Outcome State Fault Refusal :=
  s.run (.dictWrite port req nvmFails) fun d => d.arrival port req nvmFails

def execDictInfo (port : Port) (req : DictReq) (s : State) : Host.Outcome State Fault Refusal :=
  s.run (.dictInfo port req) fun d => d.arrival port req false

def execDictReadseg (port : Port) (req : DictReq) (s : State) : Host.Outcome State Fault Refusal :=
  s.run (.dictReadseg port req) fun d => d.arrival port req false

def execDictWriteseg (port : Port) (req : DictReq) (nvmFails : Bool) (s : State) : Host.Outcome State Fault Refusal :=
  s.run (.dictWriteseg port req nvmFails) fun d => d.arrival port req nvmFails

/-- The relay that waits for an answer under a request identifier. -/
def Dev.relayOf (s : Dev) (reqid : Nat) : Option (Nat × DictReq × Port) := s.herd.relays.find? fun e => e.2.1.reqid == reqid

/-- A relay ends with an answer, and the requests that wait are served. -/
def Dev.endRelay (s : Dev) (e : Nat × DictReq × Port) (a : Reply) : Dev :=
  let s := { s with herd := { s.herd with relays := s.herd.relays.filter fun x => !(x == e) } }
  let s := if s.answers e.2.2 then s.answer e.2.2 e.2.1 e.1 a else s
  s.takeAll []

/-- A member's answer reaches the manager. [DEDUCED, log 85] -/
def Dev.relayAnswer (s : Dev) (x : DictReq) : Dev :=
  match s.relayOf x.reqid with
  | some e => if e.2.1.member = x.member then s.endRelay e { status := x.resv, flags := x.flags, data := x.data } else s
  | none => s

/-- DICT (R332): a worker serves the request as class Z, the manager takes an answer. [DEDUCED, log 85] -/
def Dev.dictFrame (s : Dev) (p : Nat) (h : ZHdr) (r : DictReq) (isResponse : Bool) : Dev :=
  s.arrive p h (.dict r isResponse) fun d =>
    if isResponse then (if d.manager then d.relayAnswer r else d)
    else if d.worker then d.useFree.arrival .z r (bit (d.freeValue 1) 0)
    else d

def execDict (port : Fin 4) (hdr : ZHdr) (req : DictReq) (response : Bool) (s : State) :
    Host.Outcome State Fault Refusal :=
  s.run (.dict port hdr req response) fun d => d.dictFrame port hdr req response

/-- DICT_RELAY_TIMEOUT (R332). -/
def Dev.dictRelayTimeout (s : Dev) (reqid : Nat) : Dev :=
  match s.relayOf reqid with
  | some e => s.endRelay e { status := stUnreach }
  | none => s

def execDictRelayTimeout (reqid : Nat) (s : State) : Host.Outcome State Fault Refusal :=
  s.run (.dictRelayTimeout reqid) fun d => d.dictRelayTimeout reqid

/-- SEGMENT_SEQUENCE_TIMEOUT (R366): a sequence without a segment for 1 s is abandoned. -/
def Dev.dropSequence (s : Dev) (index sub : Nat) : Dev :=
  { s with svc := { s.svc with seqs := s.svc.seqs.filter fun q => q.key != odKey index sub } }

def execSegmentSequenceTimeout (index sub : Nat) (s : State) : Host.Outcome State Fault Refusal :=
  s.run (.segmentSequenceTimeout index sub) fun d => d.dropSequence index sub

/-- RESPONSE_CACHE_EXPIRY (R365). -/
def Dev.forget (s : Dev) (src reqid : Nat) : Dev :=
  { s with svc := { s.svc with cache := s.svc.cache.filter fun e => !(e.src == src && e.reqid == reqid) } }

def execResponseCacheExpiry (src reqid : Nat) (s : State) : Host.Outcome State Fault Refusal :=
  s.run (.responseCacheExpiry src reqid) fun d => d.forget src reqid

/-- MBX_DOORBELL (R367): the request is submitted; while one is in progress the doorbell is ignored. [DEDUCED, log 93] -/
def Dev.doorbell (s : Dev) : Dev :=
  if s.flag .MLK_MBX_STAT_BUSY then s.setFlag .MLK_MBX_STAT_DBERR 0 true else s.setFlag .MLK_MBX_STAT_BUSY 0 true

def execMbxDoorbell (s : State) : Host.Outcome State Fault Refusal := s.run .mbxDoorbell fun d => d.doorbell

/-- MALFORMED_DATAGRAM (R361, R364): dropped and counted, or answered BADREQ for its header. -/
def Dev.malformed (s : Dev) (w : Malformed) : Dev :=
  match w with
  | .badHeader p r => if headerOk r then s else s.arrival p r false
  | _ => if s.answers .m then s.countOd 0x1001 2 32 else s

def execMalformedDatagram (what : Malformed) (s : State) : Host.Outcome State Fault Refusal :=
  s.run (.malformedDatagram what) fun d => d.malformed what

end Sys2Proof.Machine
end

