-- ==== Sys2Proof/Machine/Registers.lean ====
section
/-! DEFINITION. BAR0 (R371 to R379): writes of registers, word by word, by the owner of each field; the snapshot, the indirect
pair, the acknowledgement of interrupts and the vote of fields that are stored three times. -/

namespace Sys2Proof.Machine

open Sys2Proof

/-! ### Where the fields lie -/

/-- The instance of a field whose register begins at a BAR0 offset. -/
def FieldDesc.at? (d : FieldDesc) (a : Nat) : Option Nat :=
  let off := a - d.base
  let q := if d.stride = 0 then 0 else off / d.stride
  let r := if d.stride = 0 then off else off % d.stride
  let j := if d.substride = 0 then 0 else r / d.substride
  let i := q * d.sub + j
  if d.base ≤ a ∧ i < d.count ∧ j < d.sub ∧ d.addr i = a then some i else none

/-- The part of a field that lies in the word at a BAR0 offset: `n` bits from bit `ofs` of the field's instance, at bit `lo` of
the word. -/
structure Slice where
  field : Field
  inst : Nat
  ofs : Nat
  lo : Nat
  n : Nat
deriving DecidableEq, Repr

/-- The part of a field in a word; a field wider than its word goes on in the next one. -/
def sliceAt (a : Nat) (f : Field) : Option Slice :=
  let d := f.desc
  if d.die then none
  else match d.at? a with
    | some i => some { field := f, inst := i, ofs := 0, lo := d.lo, n := min d.width (32 - d.lo) }
    | none =>
      if a < 4 ∨ d.lo + d.width ≤ 32 then none
      else match d.at? (a - 4) with
        | some i => some { field := f, inst := i, ofs := 32 - d.lo, lo := 0, n := d.lo + d.width - 32 }
        | none => none

/-- The parts of fields in a word. -/
def slicesAt (a : Nat) : List Slice := Field.all.filterMap (sliceAt a)

/-- The source of a write owns an instance of a field (R372); `servo` is whoever owns the PTP servo (R348).
[DEDUCED, log 100] -/
def Dev.owns (s : Dev) (src : Source) (f : Field) (i : Nat) : Bool :=
  match f.ownerAt i with
  | .host => src == .host
  | .fw => src == .firmware
  | .servo => src == s.servoOwner
  | .hw => false

/-! ### Acknowledgement, snapshot, vote (R374, R376, R378) -/

/-- IRQ_ACK (R378): the named vectors that are still pending send their messages again. [DEDUCED, log 104] -/
def Dev.irqAck (s : Dev) (v : Nat) : Dev :=
  (upTo 16).foldl (fun (d : Dev) k => if bit v k && d.irqPending k then d.send (.msix k) else d) s

def execIrqAck (bits : Nat) (s : State) : Host.Outcome State Fault Refusal := s.run (.irqAck bits) fun d => d.irqAck bits

/-- The observation counters are copied. [DEDUCED, log 103] -/
def Dev.snapCounters (s : Dev) : Dev :=
  let s := { s with regs := tabClear s.regs fun k => k / 1024 == Field.OBS_CNT_SNAP.ctorIdx }
  (s.counters.filter fun e => decide (e.1 < 1024)).foldr (fun e (d : Dev) => d.wr .OBS_CNT_SNAP e.1 e.2) s

/-- SNAPSHOT (R374): the copies are complete when the command is. [DEDUCED, log 103] -/
def Dev.snapshot (s : Dev) : Dev :=
  let s := (upTo 16).foldl (fun (d : Dev) n => d.settle n) s
  let s := (upTo 4).foldl (fun (d : Dev) n => d.wr .ENC_POS_SNAP n (d.rd .ENC_POS n)) s
  let s := (s.wr .OBS_SNAP_SPEED 0 (s.rd .ENC_SPEED)).wr .OBS_SNAP_ACCEL 0 (s.rd .ENC_ACCEL)
  ((s.wr .OBS_SNAP_TIME 0 s.ns40).snapCounters).countMod .OBS_SNAP_SEQ

def execSnapshot (s : State) : Host.Outcome State Fault Refusal := s.run .snapshot fun d => d.snapshot

/-- The voted fields (R376). -/
def votedFields : List Field := Field.all.filter fun f => f.voted

/-- What a vote has found is reported: the logic side in `GLB_ERR_STAT`, the field die in its status (R273, R288, R376).
[DEDUCED, log 102] -/
def Dev.noteVote (s : Dev) (f : Field) (i : Nat) (lost : Bool) : Dev :=
  let code := if lost then 2 else 1
  if f.desc.die then
    ((s.setDie { s.die with voted := true }).setFlag .FLD_STAT_VOTERR 0 true).tally 0x0090 1 0xFFFFFFFF (f.desc.addr i) code
  else if lost then
    (s.setFlag .GLB_ERR_STAT_VOTFAIL 0 true).tally 0x0090 0 0xFFFFFFFF (f.desc.addr i) code
  else
    ((s.setFlag .GLB_ERR_STAT_VOTERR 0 true).count .GLB_VOTE_CNT).tally 0x0090 0 0xFFFFFFFF (f.desc.addr i) code

/-- Vote on one instance: all three copies take the majority, or the reset value where there is none. [DEDUCED, log 102] -/
def Dev.vote (s : Dev) (f : Field) (i : Nat) : Dev :=
  let d := fun _ : Nat => f.resetAt i
  let a := tabGet d s.regs (f.key i)
  let b := tabGet d s.voteB (f.key i)
  let c := tabGet d s.voteC (f.key i)
  if a = b ∧ b = c then s
  else (s.wr f i (majority a b c (f.resetAt i))).noteVote f i (a != b && a != c && b != c)

/-- VOTE_CHECK (R376): every voted field of the logic side, and of the field die while it has power. -/
def Dev.voteCheck (s : Dev) : Dev :=
  votedFields.foldl (fun (d : Dev) f =>
    if f.desc.die && !d.die.powered then d else (upTo f.desc.count).foldl (fun (e : Dev) i => e.vote f i) d) s

def execVoteCheck (s : State) : Host.Outcome State Fault Refusal := s.run .voteCheck fun d => d.voteCheck

/-! ### The indirect pair (R375) -/

/-- The address in `IND_ADDR`. -/
def Dev.indAddr (s : Dev) : Nat := 4 * s.rd .IND_ADDR

/-- After an access: with AUTOINC the address advances by 4, modulo 2^24. -/
def Dev.indNext (s : Dev) : Dev := if s.flag .IND_ADDR_AUTOINC then s.countMod .IND_ADDR else s

/-- The host's write at the field die that is in progress: its frame waits. -/
def Dev.indBusy (s : Dev) : Bool := s.svc.ind.any fun f => s.barrier.regs.contains f

/-- The field-die addresses that hold a register. -/
def dieAddr (a : Nat) : Bool := decide (a < 0x20) || inRange 0x40 0xBC a || inRange 0x100 0x13C a

/-- The field-die registers of W1C bits, which the host may write (R288). [DESIGN CHOICE, log 101] -/
def dieW1c (a : Nat) : Bool := ([0x0C, 0x10, 0x14, 0x1C] : List Nat).contains a

/-- A host write at the field die goes there by a REG frame. -/
def Dev.indDieWrite (s : Dev) (a v : Nat) : Dev :=
  if dieW1c a then
    let s := s.queueReg a v false
    { s with svc := { s.svc with ind := some (regFrameBits a v false) } }
  else if dieAddr a then s.ownerError
  else s

/-- IND_DATA_WRITE (R375). Of the always-on domain the spec names no field that the host owns. [DESIGN CHOICE, log 101] -/
def Dev.indDataWrite (s : Dev) (v : Nat) : Dev :=
  let s := match s.rd .IND_ADDR_SPACE with
    | 1 => s.indDieWrite s.indAddr v
    | 2 => s
    | 3 | 4 => s.setFlag .IND_STAT_DENIED 0 true
    | _ => s.setFlag .IND_STAT_BADSPACE 0 true
  s.indNext

def execIndDataWrite (value : Nat) (s : State) : Host.Outcome State Fault Refusal :=
  s.run (.indDataWrite value) fun d => d.indDataWrite value

/-- The read at the field die is sent there; its answer completes the access (R273). -/
def Dev.indDieRead (s : Dev) (a : Nat) : Dev :=
  let s := s.queueReg a 0 true
  { s with barrier := { s.barrier with readPending := s.barrier.readPending ++ [a] } }

/-- IND_DATA_READ (R375, R413): what the always-on domain, the option bytes and the NVM store read as is a free value.
[DESIGN CHOICE, log 101] -/
def Dev.indDataRead (s : Dev) : Dev :=
  let a := s.indAddr
  let s := match s.rd .IND_ADDR_SPACE with
    | 1 => s.indDieRead a
    | 2 | 3 => s.useFree.send (.indRead (s.freeValue 32))
    | 4 => s.send (.indRead (ofLe ((rangeFrom a 4).map fun k => s.tallyByte k)))
    | _ => (s.send (.indRead 0)).setFlag .IND_STAT_BADSPACE 0 true
  s.indNext

def execIndDataRead (s : State) : Host.Outcome State Fault Refusal := s.run .indDataRead fun d => d.indDataRead

/-- A frame leaves the queue of register frames. -/
def Dev.dropReg (s : Dev) (f : Nat) : Dev := { s with barrier := { s.barrier with regs := s.barrier.regs.erase f } }

/-- IND_TIMEOUT (R375): the oldest access at the field die ends without an answer. -/
def Dev.indTimeout (s : Dev) : Dev :=
  match s.barrier.readPending with
  | a :: l =>
    let s := s.dropReg (regFrameBits a 0 true)
    let s := { s with barrier := { s.barrier with readPending := l } }
    (s.send (.indRead 0xFFFFFFFF)).setFlag .IND_STAT_TMO 0 true
  | [] => match s.svc.ind with
    | some f => { s.dropReg f with svc := { s.svc with ind := none } }
    | none => s

def execIndTimeout (s : State) : Host.Outcome State Fault Refusal := s.run .indTimeout fun d => d.indTimeout

/-! ### Fields that take any value, and fields that do not -/

/-- The value lies in the range that the register tables give the field; a value outside it is ignored. -/
def Dev.takesValue (s : Dev) (f : Field) (i x : Nat) : Bool :=
  match f with
  | .CXP_LNK_CTL_RATE => decide (x ≤ 6)
  | .CHN_PWRCTL_PGIDLE | .ENC_CFG_FLTN | .ENC_BISS_PERIOD | .ENC_MAXSTEP | .SEP_OUT_MAXON | .TCH_CAP_RATE | .ZXL_CTL_IDLE
  | .RCP_DOZE_DOZEIDLE | .ENC_TRG_CFG_WIDTH => x != 0
  | .MEM_BAR4_BASE => decide (x ≤ 29)
  | .ENC_EST_CFG => x != 7
  | .ENC_CFG_TYPE => decide (x ≤ 2)
  | .ENC_CFG_INTERP => inRange 2 12 x
  | .ENC_WIN_AMAX => decide (s.rd .ENC_WIN_AMIN i < x)
  | .ENC_BISS_LEN => inRange 8 64 x
  | .ENC_BISS_MAF => inRange 1 100 x
  | .ENC_CG_CTL_SRC => decide (x ≤ 4)
  | .ENC_CG_SPACE => decide (0x10000 ≤ x)
  | .SEP_OUT_CFG_DMODE | .HRD_CTL_ROLE | .ETH_CTL_FEC => x != 3
  | .DEC_BUDGET => inRange 1 4096 x
  | .ETH_CTL_SPEED => decide (x ≤ 1) || (x == 2 && i == 2)
  | .MLK_FAN => decide (x ≤ 100)
  | .JOB_CTL_SLICE => inRange 10 10000 x
  | _ => true

/-- The settings of a generator that stand fast while it is armed (R243). [DEDUCED, log 96] -/
def cgSetting (f : Field) : Bool :=
  match f with
  | .ENC_CG_CTL_SRC | .ENC_CG_CTL_CONTINUOUS | .ENC_CG_CTL_REV | .ENC_CG_START | .ENC_CG_SPACE | .ENC_CG_COUNT => true
  | _ => false

/-- The settings that share a word with `ARM`, which clears it: the word writes them only where it changes them. -/
def cgControl (f : Field) : Bool := f = .ENC_CG_CTL_SRC || f = .ENC_CG_CTL_CONTINUOUS || f = .ENC_CG_CTL_REV

/-- A field that does no more than hold its value takes one: a W1C field loses the bits written. -/
def Dev.plainWrite (s : Dev) (f : Field) (i x : Nat) : Dev :=
  let old := s.rd f i
  match f.desc.access with
  | .w1c => s.wr f i (clearBits old x)
  | .rw | .rwv =>
    if cgSetting f && s.flag .ENC_CG_CTL_ARM i then
      (if cgControl f && x == old then s else s.setFlag .ENC_CG_STAT_CFGERR i true)
    else if s.takesValue f i x then s.wr f i x
    else if f = .ENC_CG_SPACE then s.setFlag .ENC_CG_STAT_CFGERR i true
    else s
  | _ => s

/-! ### Fields whose write does something -/

/-- A ring or queue is enabled with a size and a vector that it can have, or refused (R188, R210, R377). [DEDUCED, log 54] -/
def Dev.ringEnable (s : Dev) (en err : Field) (i x : Nat) (good : Bool) : Dev :=
  if x = 1 ∧ !good then (s.setFlag en i false).setFlag err i true else s.wr en i x

/-- The vector of a queue is one of 16 to 63, and its size one of 2^1 to 2^16. [DEDUCED, log 54] -/
def Dev.queueFits (s : Dev) (log2 vec : Field) (i : Nat) : Bool := inRange 1 16 (s.rd log2 i) && decide (16 ≤ s.rd vec i)

/-- `CXP_PRX_CMD` issues the request that the proxy registers of a link describe (R61). -/
def Dev.proxyCommand (s : Dev) (n op : Nat) : Dev :=
  let len := s.rd .CXP_PRX_CMD_LEN n
  let data := if op = 2 then s.barBytes (0x200100 + 0x400 * n) len else []
  let r : ProxyReq := { source := .host, write := op == 2, addr := s.rd .CXP_PRX_ADDR n, len := len, data := data }
  if op = 1 ∨ op = 2 then s.request n r else s

/-- `ITK_FUS_CTL.EN`: the checks of R77, or out of service; what is written is staged (R64, R79). -/
def Dev.fusEnable (s : Dev) (f x : Nat) : Dev :=
  if x = 0 then (s.setFlag .ITK_FUS_CTL_EN f false).fusStage f
  else if s.fusOk f then (s.setFlag .ITK_FUS_CTL_EN f true).fusStage f
  else s.setFlag .ITK_FUS_STAT_CMTERR f true

/-- A write of `JOB_CMD` (R190, R205). -/
def Dev.jobCommand (s : Dev) (op : Nat) : Dev :=
  match op with
  | 1 => s.jobResume
  | 2 => s.jobAbort
  | 3 => s.jobStop
  | _ => s

/-- A write of `SYN_OP` (R204). -/
def Dev.synCommand (s : Dev) (op sc : Nat) : Dev :=
  match op with
  | 1 => s.scAdd sc (s.rd .SYN_VAL)
  | 2 => s.scZero sc
  | _ => s

/-- The enable or the type of a channel. -/
def Dev.encSetting (s : Dev) (f : Field) (ch x : Nat) : Dev :=
  if !s.takesValue f ch x || s.rd f ch == x then s
  else if f = .ENC_CFG_EN ∧ x = 0 then s.wr f ch x
  else ((s.wr f ch x).freshEnc ch).clockMaster

/-- `TIM_TTO_CTL.EN` (R350). -/
def Dev.ttoSwitch (s : Dev) (t x : Nat) : Dev :=
  if x = 0 then s.stopTto t
  else if s.ttoBad t then s.setFlag .TIM_TTO_STAT_CFGERR t true
  else s.startTto t

/-- `TIM_STEP` (R340): the low word is kept until the high word is written, which applies the step. [DEDUCED, log 86] -/
def Dev.stepWord (s : Dev) (src : Source) (sl : Slice) (x : Nat) : Dev :=
  if sl.ofs = 0 then s.wr .TIM_STEP 0 x else s.timeStep src (sgn 64 x)

/-- A write of `RCP_CMD` (R398, R399, R402). -/
def Dev.powerCommand (s : Dev) (op : Nat) : Dev :=
  match op with
  | 1 => s.enterStandby .h
  | 2 => s.leaveStandby .h
  | 3 => s.enterOff .h
  | _ => s

/-- A port of the Zanyx link is enabled or disabled; a standalone module keeps its ports disabled (R313). -/
def Dev.zanyxEnable (s : Dev) (p x : Nat) : Dev :=
  if x = 0 ∨ s.rd .HRD_CTL_ROLE = 0 then (if s.flag .ZXL_STAT_LOCK p then s.portDown p else s).setFlag .ZXL_CTL_EN p false
  else s.setFlag .ZXL_CTL_EN p true

/-- What the write of a field does: `x` is the value, `w` the word that carries it. Answers none for a field that only holds its
value. -/
def Dev.trigger (s : Dev) (src : Source) (sl : Slice) (x w : Nat) : Option Dev :=
  let i := sl.inst
  match sl.field with
  | .CXP_LNK_CTL_PWR_EN => some (s.writePwrEn i (x == 1))
  -- `EXT_IDX` stands in the same word and has its value already
  | .CXP_LNK_CTL_MASTER => some (s.regroup i (s.wr .CXP_LNK_CTL_MASTER i x))
  | .CXP_PRX_CMD_OP => some (s.proxyCommand i x)
  | .CXP_PRX_TMO => some (s.wr .CXP_PRX_TMO i (max 1 x))
  | .ITK_FUS_MEM => some (s.wr .ITK_FUS_MEM i (clearBits x 0x4040404040404040))
  | .ITK_CTX_CMD_RESYNC => some (if x = 1 then s.resync i else s)
  | .ITK_CTX_CMD_COMMIT => some (if x = 1 then s.ctxCommit i else s)
  | .ITK_PP_CMD_COMMIT => some (if x = 1 then s.ppCommit i else s)
  | .ITK_PP_GENSW_ARM => some (if x = 1 then s.setFlag .ITK_PP_GENSW_ARM i true else s)
  | .ITK_FUS_CTL_EN => some (s.fusEnable i x)
  | .MMU_INV_CMD_GO => some (if x = 1 then s.mmuInvalidate (s.rd .MMU_INV_CMD_SCOPE) (s.rd .MMU_INV_CMD_ASID) else s)
  | .MMU_FAULTQ_POP => some (if x = 1 then s.faultqPop else s)
  | .JOB_CMD_OP => some (s.jobCommand x)
  | .JOB_CQ_CTL_EN => some (s.ringEnable .JOB_CQ_CTL_EN .JOB_CQ_STAT_CFGERR 0 x (inRange 1 16 (s.rd .JOB_CQ_CTL_LOG2)))
  | .JOB_Q_CTL_EN => some (s.ringEnable .JOB_Q_CTL_EN .JOB_Q_STAT_CFGERR i x (s.queueFits .JOB_Q_CTL_LOG2 .JOB_Q_CTL_VEC i))
  | .DEC_Q_CTL_EN => some (s.ringEnable .DEC_Q_CTL_EN .DEC_Q_STAT_CFGERR i x (s.queueFits .DEC_Q_CTL_LOG2 .DEC_Q_CTL_VEC i))
  | .SYN_OP => some (s.synCommand x (bits w 0 14))
  | .SYN_RDIDX_SC => some (s.synRdidxLatch x)
  | .ENC_CFG_TYPE => some (s.encSetting .ENC_CFG_TYPE i x)
  | .ENC_CFG_EN => some (s.encSetting .ENC_CFG_EN i x)
  | .ENC_STAT_FAULT => some (if x = 1 then s.encFaultClear i else s)
  | .ENC_CG_CTL_ARM => some (if x = 1 then s.cgArm i else s.cgDisarm i)
  | .ENC_TRG_CFG_EN => some (if x = 1 then s.setFlag .ENC_TRG_CFG_EN i true else (s.setFlag .ENC_TRG_CFG_EN i false).setTrg i {})
  | .SEP_CTL_ARM => some (s.sepArmWrite .h (x == 1))
  | .SEP_LSTOP_RELEASE => some (if x = 1 then s.releaseStop else s)
  | .SEP_FIREQ_MAX => some (if bit x 0 then s.wr .SEP_FIREQ_MAX 0 0 else s)
  | .TCH_LIB_RSV => some (s.libReserve x)
  | .TCH_CAP_CTL_EN => some (if x = 1 && !s.flag .TCH_CAP_CTL_EN i then (s.wr .TCH_CAP_CTL_EN i x).setRule i {} else s.wr .TCH_CAP_CTL_EN i x)
  | .ZXL_CTL_EN => some (s.zanyxEnable i x)
  | .TIM_CTL_HOSTSERVO => some (s.handServo (x == 1))
  | .TIM_RATE => some (s.timeRateWrite src (sgn 32 x))
  | .TIM_STEP => some (s.stepWord src sl x)
  | .TIM_TXQ_POP => some (if x = 1 then s.txqPop src else s)
  | .TIM_TTO_CTL_EN => some (s.ttoSwitch i x)
  | .ETH_CTL_EN => some ((if x = 0 then s.ethLinkLoss i else s).wr .ETH_CTL_EN i x)
  | .GLB_MODE_FIXED => some (s.fixedModeWrite .h (x == 1))
  | .GLB_IRQ_ACK => some (s.irqAck x)
  | .MLK_MBX_DB_RING => some (if x = 1 then s.doorbell else s)
  | .OBS_SNAP_GO => some (if x = 1 then s.snapshot else s)
  | .IND_DATA => some (s.indDataWrite x)
  | .RCP_CONFIRM_GO => some (if x = 1 then s.startConfirm .h else s)
  | .RCP_CMD_OP => some (s.powerCommand x)
  | .RCP_BRST_GO => some (if x = 1 then s.blockReset .host (s.rd .RCP_BRST_BLOCK) else s)
  | .RCP_BRST_MLK_GO => some (if x = 1 then s.blockReset .firmware (s.rd .RCP_BRST_MLK_BLOCK) else s)
  | _ => none

/-- The fields whose write does something: they act after the word's other fields have their values. -/
def Field.acts (f : Field) : Bool :=
  match f with
  | .CXP_LNK_CTL_PWR_EN | .CXP_LNK_CTL_MASTER | .CXP_PRX_CMD_OP | .CXP_PRX_TMO | .ITK_CTX_CMD_RESYNC
  | .ITK_CTX_CMD_COMMIT | .ITK_PP_CMD_COMMIT | .ITK_PP_GENSW_ARM | .ITK_FUS_MEM | .ITK_FUS_CTL_EN | .MMU_INV_CMD_GO | .MMU_FAULTQ_POP
  | .JOB_CMD_OP | .JOB_CQ_CTL_EN | .JOB_Q_CTL_EN | .DEC_Q_CTL_EN | .SYN_OP | .SYN_RDIDX_SC | .ENC_CFG_TYPE | .ENC_CFG_EN
  | .ENC_STAT_FAULT | .ENC_CG_CTL_ARM | .ENC_TRG_CFG_EN | .SEP_CTL_ARM | .SEP_LSTOP_RELEASE | .SEP_FIREQ_MAX | .TCH_LIB_RSV
  | .TCH_CAP_CTL_EN | .ZXL_CTL_EN | .TIM_CTL_HOSTSERVO | .TIM_RATE | .TIM_STEP | .TIM_TXQ_POP | .TIM_TTO_CTL_EN | .ETH_CTL_EN
  | .GLB_MODE_FIXED | .GLB_IRQ_ACK | .MLK_MBX_DB_RING | .OBS_SNAP_GO | .IND_DATA | .RCP_CONFIRM_GO | .RCP_CMD_OP
  | .RCP_BRST_GO | .RCP_BRST_MLK_GO | .ENC_WIN_AMAX => true
  | _ => false

/-! ### Words (R371, R372) -/

/-- The value that a word gives a field: the bits of the field that lie in other words stay; a W1C or command field has none of
them. -/
def Dev.fieldValue (s : Dev) (sl : Slice) (w : Nat) : Nat :=
  let v := bits w sl.lo sl.n
  match sl.field.desc.access with
  | .rw | .rwv => setBits (s.rd sl.field sl.inst) sl.ofs sl.n v
  | _ => if sl.field = .TIM_STEP then setBits (s.rd .TIM_STEP) sl.ofs sl.n v else v * 2 ^ sl.ofs

/-- The part of a word that falls in a field is written. -/
def Dev.writeSlice (s : Dev) (src : Source) (w : Nat) (sl : Slice) : Dev :=
  let x := s.fieldValue sl w
  (s.trigger src sl x w).getD (s.plainWrite sl.field sl.inst x)

/-- A buffer window, and its owner: the mailbox request, a link's proxy data, the MSI-X table, the mailbox
response and the event ring. [PRESUMED, log 127] -/
def windowOwner (a : Nat) : Option Source :=
  if 0xB01000 ≤ a ∧ a < 0xB01600 then some .host
  else if 0x200000 ≤ a ∧ a < 0x206000 ∧ 0x100 ≤ a % 0x400 ∧ a % 0x400 < 0x200 then some .host
  else if 0xFF0000 ≤ a ∧ a < 0xFF0400 then some .host
  else if (0xB01800 ≤ a ∧ a < 0xB01E00) ∨ (0xB02000 ≤ a ∧ a < 0xB03000) then some .firmware
  else none

/-- A write of the word at a BAR0 offset. [DEDUCED, log 100] -/
def Dev.writeWord (s : Dev) (src : Source) (a w : Nat) : Dev :=
  let all := slicesAt a
  let mine := all.filter fun sl => s.owns src sl.field sl.inst
  if all.isEmpty then
    match windowOwner a with
    | some o => if o = src then s.putBars a (leBytes w 4) else s.ownerError
    | none => s
  else if mine.isEmpty then s.ownerError
  else
    let order := (mine.filter fun sl => !sl.field.acts) ++ mine.filter fun sl => sl.field.acts
    order.foldl (fun (d : Dev) sl => d.writeSlice src w sl) s

/-- REGISTER_WRITE (R371, R372). [DEDUCED, log 100] -/
def Dev.registerWrite (s : Dev) (src : Source) (a n v : Nat) : Dev :=
  if s.power == .off then s
  else if n = 4 ∧ a % 4 = 0 then s.writeWord src a v
  else if n = 8 ∧ a % 8 = 0 then (s.writeWord src a (v % 2 ^ 32)).writeWord src (a + 4) (v / 2 ^ 32)
  else s.countOwnerError

def execRegisterWrite (source : Source) (addr bytes value : Nat) (s : State) : Host.Outcome State Fault Refusal :=
  s.run (.registerWrite source addr bytes value) fun d => d.registerWrite source addr bytes value

end Sys2Proof.Machine
end

