-- ==== Sys2Proof/Machine/Tick.lean ====
section
/-! DEFINITION. The estimate tick (R17): the position-time log, the estimator, and what the scheduler and the Separator do at
each tick. -/

namespace Sys2Proof.Machine

open Sys2Proof

/-! ### The position-time log (R22) -/

/-- The 16 bytes of a log entry at a position, with its gap bit and sequence number. [DEDUCED, log 14] -/
def Dev.logEntry (s : Dev) (pos : Nat) (gap : Bool) (seq : Nat) : List Byte :=
  leBytes pos 8 ++ leBytes s.ns40 5 ++
    leBytes (s.rd .ENC_MSTAT_DIR + 2 * s.rd .ENC_MSTAT_STOP + 4 * s.rd .ENC_MSTAT_SPDV + 8 * gap.toNat) 1 ++ leBytes seq 2

/-- The ticks since the latest one recorded for which no entry was written (R23): none before the first entry.
[DEDUCED, log 14] -/
def Dev.ticksMissed (s : Dev) : Nat := if s.flag .ENC_MSTAT_LOGV then (s.xclk - s.tickAt) / 4000 - 1 else 0

/-- The next entry is written, its sequence number past those of missing entries, and `ENC_LOG_WR` names it (R22, R23).
[DEDUCED, log 14] -/
def Dev.writeLog (s : Dev) (pos : Nat) : Dev :=
  let missed := s.ticksMissed
  let idx := if s.flag .ENC_MSTAT_LOGV then wrap 16 (s.rd .ENC_LOG_WR_IDX + 1) else 0
  let seq := if s.flag .ENC_MSTAT_LOGV then wrap 16 (s.rd .ENC_LOG_WR_SEQ + 1 + missed) else 0
  let s := s.putBytes (logBase + 16 * idx) (s.logEntry pos (decide (0 < missed)) seq)
  (((s.wr .ENC_LOG_WR_IDX 0 idx).wr .ENC_LOG_WR_SEQ 0 seq).setFlag .ENC_MSTAT_LOGV 0 true)

/-! ### The estimator (R19, R20, R237) -/

/-- Difference per tick times ticks per second, over `m` ticks, toward zero. [DEDUCED, log 13] -/
def perSecond (d : Int) (m : Nat) : Int := divToZero (d * 100000) m

/-- The estimator after a tick at a position, with the speed and the acceleration. [DEDUCED, log 13] -/
def Estimator.tick (e : Estimator) (wlog pos : Nat) : Estimator × Int × Int :=
  let k := e.k + 1
  let m := min (2 ^ wlog) k
  let v := perSecond (sdiff pos (e.ps.getD (m - 1) pos)) m
  let a := match if m < k then e.vs[m - 1]? else none with
    | some w => perSecond (v - w) m
    | none => 0
  ({ k := k, ps := (pos :: e.ps).take 64, vs := (v :: e.vs).take 64, tickPos := some pos }, v, a)

/-- The estimates after a tick; they read zero until two ticks have completed. [DEDUCED, log 13] -/
def Dev.estimate (s : Dev) (pos : Nat) : Dev :=
  let (e, v, a) := s.est.tick (s.rd .ENC_EST_CFG) pos
  let s := { s with est := e }
  if 2 ≤ e.k then
    (((s.putSigned .ENC_SPEED 0 48 v).putSigned .ENC_ACCEL 0 48 a).setFlag .ENC_MSTAT_SPDV 0 true).noteStop
  else s.noteStop

/-- A worker takes its estimates from the manager's POS frames (R326), and keeps the position of the tick. -/
def Dev.followTick (s : Dev) (pos : Nat) : Dev := ({ s with est := { s.est with tickPos := some pos } }).noteStop

/-! ### Parts (R29, R34, R41) -/

/-- While the line reverses, parts that meet the span from the line master to the peak receive REVERSED (R41). -/
def Dev.markReversed (s : Dev) (pos : Nat) : Dev := if s.reverse then s.applyMark allLanes pos (some s.peak) 0xE3 else s

/-- Parts whose deadline the line master has reached receive FAULT or LATE if they have no verdict (R34). -/
def Dev.expireParts (s : Dev) : Dev :=
  { s with parts := s.parts.map fun p => if !p.dead && s.pastDeadline p then p.expire else p }

/-- The parts that may leave do so, and capture rules see them (R29, R268, R290). -/
def Dev.leaveParts (s : Dev) : Dev := s.leavers.foldl (fun (d : Dev) p => (d.leavePart p).capturePart p) s

/-- What the Separator does at a tick; a worker tracks no parts (R315). -/
def Dev.separatorTick (s : Dev) (pos : Nat) : Dev :=
  if s.worker then s.switchIfReached.retireSlots
  else (((s.switchIfReached.markReversed pos).expireParts.fireTick).leaveParts).retireSlots

/-- ESTIMATE_TICK (R17): the XCLK count reaches the next multiple of 4,000. Ticks run in Run, Ready and Doze. -/
def Dev.estimateTick (s : Dev) : Dev :=
  let s := s.advanceTo 4000 s.tickAt
  if !s.live then s
  else
    let pos := s.lmPos
    let s := { s.writeLog pos with tickAt := s.xclk }
    let s := if s.worker then s.followTick pos else s.estimate pos
    (s.refreshKeys.expireCheap).separatorTick pos

def execEstimateTick (s : State) : Host.Outcome State Fault Refusal := s.run .estimateTick fun d => d.estimateTick

end Sys2Proof.Machine
end

