-- ==== Sys2Proof/Machine/Dispatch.lean ====
section
/-! DEFINITION. The meaning of every command, arm by arm. -/

namespace Sys2Proof.Machine

open Sys2Proof

def exec (i : Instr) (s : State) : Host.Outcome State Fault Refusal :=
  match i with
  | .encoderEdge ch kind => Sys2Proof.Machine.execEncoderEdge ch kind s
  | .zEdge ch => Sys2Proof.Machine.execZEdge ch s
  | .sincosSample ch sine cosine phase => Sys2Proof.Machine.execSincosSample ch sine cosine phase s
  | .bissCycleStart ch => Sys2Proof.Machine.execBissCycleStart ch s
  | .bissCycleComplete ch raw nE nW crc => Sys2Proof.Machine.execBissCycleComplete ch raw nE nW crc s
  | .encoderFault ch => Sys2Proof.Machine.execEncoderFault ch s
  | .encoderSignalLoss ch kind => Sys2Proof.Machine.execEncoderSignalLoss ch kind s
  | .encFaultClear ch => Sys2Proof.Machine.execEncFaultClear ch s
  | .lineMasterChange port value => Sys2Proof.Machine.execLineMasterChange port value s
  | .estimateTick => Sys2Proof.Machine.execEstimateTick s
  | .deadlineReached part => Sys2Proof.Machine.execDeadlineReached part s
  | .partMaxLength lane stamp => Sys2Proof.Machine.execPartMaxLength lane stamp s
  | .recipeLoad port slot image => Sys2Proof.Machine.execRecipeLoad port slot image s
  | .recipeSwitch port slot => Sys2Proof.Machine.execRecipeSwitch port slot s
  | .sepArmWrite port value => Sys2Proof.Machine.execSepArmWrite port value s
  | .lineStopRelease => Sys2Proof.Machine.execLineStopRelease s
  | .vcommit job => Sys2Proof.Machine.execVcommit job s
  | .verdictRecord record => Sys2Proof.Machine.execVerdictRecord record s
  | .separatorMemoryError what => Sys2Proof.Machine.execSeparatorMemoryError what s
  | .xclkStart => Sys2Proof.Machine.execXclkStart s
  | .compareHit g => Sys2Proof.Machine.execCompareHit g s
  | .cgArm g => Sys2Proof.Machine.execCgArm g s
  | .cgDisarm g => Sys2Proof.Machine.execCgDisarm g s
  | .triggerDelayExpiry t => Sys2Proof.Machine.execTriggerDelayExpiry t s
  | .triggerWidthExpiry t => Sys2Proof.Machine.execTriggerWidthExpiry t s
  | .uplinkTriggerSend link => Sys2Proof.Machine.execUplinkTriggerSend link s
  | .linkDeviceDetect link maxRate connId => Sys2Proof.Machine.execLinkDeviceDetect link maxRate connId s
  | .lockLoss link => Sys2Proof.Machine.execLockLoss link s
  | .eqUpdate link dfe ctle vert horz => Sys2Proof.Machine.execEqUpdate link dfe ctle vert horz s
  | .pocxpDetect link found => Sys2Proof.Machine.execPocxpDetect link found s
  | .pocxpOvercurrent link => Sys2Proof.Machine.execPocxpOvercurrent link s
  | .vpocLow => Sys2Proof.Machine.execVpocLow s
  | .proxyRead link source addr len => Sys2Proof.Machine.execProxyRead link source addr len s
  | .proxyWrite link source addr len data => Sys2Proof.Machine.execProxyWrite link source addr len data s
  | .proxyAck link ack => Sys2Proof.Machine.execProxyAck link ack s
  | .proxyTimeout link => Sys2Proof.Machine.execProxyTimeout link s
  | .streamPacket link stream crcOk content => Sys2Proof.Machine.execStreamPacket link stream crcOk content s
  | .stopTimeout ctx => Sys2Proof.Machine.execStopTimeout ctx s
  | .ctxCommit ctx => Sys2Proof.Machine.execCtxCommit ctx s
  | .ctxResync ctx => Sys2Proof.Machine.execCtxResync ctx s
  | .ppCommit ctx => Sys2Proof.Machine.execPpCommit ctx s
  | .bankSwitchArm ctx gen bank => Sys2Proof.Machine.execBankSwitchArm ctx gen bank s
  | .fusionAbsence fus k => Sys2Proof.Machine.execFusionAbsence fus k s
  | .slotDispatch pipe => Sys2Proof.Machine.execSlotDispatch pipe s
  | .slotComplete pipe memErr => Sys2Proof.Machine.execSlotComplete pipe memErr s
  | .matrixInstruction chn op => Sys2Proof.Machine.execMatrixInstruction chn op s
  | .vectorInstruction chn op => Sys2Proof.Machine.execVectorInstruction chn op s
  | .convertInstruction chn op => Sys2Proof.Machine.execConvertInstruction chn op s
  | .mxQuantise chn op => Sys2Proof.Machine.execMxQuantise chn op s
  | .bfly4 chn op => Sys2Proof.Machine.execBfly4 chn op s
  | .bfly2 chn op => Sys2Proof.Machine.execBfly2 chn op s
  | .groupBarrier chn gang => Sys2Proof.Machine.execGroupBarrier chn gang s
  | .convolution chn op => Sys2Proof.Machine.execConvolution chn op s
  | .pooling chn op => Sys2Proof.Machine.execPooling chn op s
  | .dmaTransfer chn op event => Sys2Proof.Machine.execDmaTransfer chn op event s
  | .blockCrcResend source dpa attempt => Sys2Proof.Machine.execBlockCrcResend source dpa attempt s
  | .scrubAccess event => Sys2Proof.Machine.execScrubAccess event s
  | .lpddrRefresh channel bank => Sys2Proof.Machine.execLpddrRefresh channel bank s
  | .mmuInvalidate scope asid => Sys2Proof.Machine.execMmuInvalidate scope asid s
  | .invalidateDone => Sys2Proof.Machine.execInvalidateDone s
  | .faultqPop => Sys2Proof.Machine.execFaultqPop s
  | .churnClockGate chn => Sys2Proof.Machine.execChurnClockGate chn s
  | .churnPowerGate chn => Sys2Proof.Machine.execChurnPowerGate chn s
  | .churnPowerUpDone chn => Sys2Proof.Machine.execChurnPowerUpDone chn s
  | .queueTailWrite source queue tail => Sys2Proof.Machine.execQueueTailWrite source queue tail s
  | .jobAdmit => Sys2Proof.Machine.execJobAdmit s
  | .layer job => Sys2Proof.Machine.execLayer job s
  | .kernel job => Sys2Proof.Machine.execKernel job s
  | .wait job => Sys2Proof.Machine.execWait job s
  | .waitSatisfied job => Sys2Proof.Machine.execWaitSatisfied job s
  | .signal job => Sys2Proof.Machine.execSignal job s
  | .scReset job => Sys2Proof.Machine.execScReset job s
  | .span job => Sys2Proof.Machine.execSpan job s
  | .iterationEnd job => Sys2Proof.Machine.execIterationEnd job s
  | .pieceDispatch => Sys2Proof.Machine.execPieceDispatch s
  | .takeover taker victim k0 k1 pair => Sys2Proof.Machine.execTakeover taker victim k0 k1 pair s
  | .sliceEnd chn => Sys2Proof.Machine.execSliceEnd chn s
  | .cheapPointReached chn ranges => Sys2Proof.Machine.execCheapPointReached chn ranges s
  | .saveComplete chn writeFails => Sys2Proof.Machine.execSaveComplete chn writeFails s
  | .restoreComplete chn readFails => Sys2Proof.Machine.execRestoreComplete chn readFails s
  | .jobResume => Sys2Proof.Machine.execJobResume s
  | .jobAbort => Sys2Proof.Machine.execJobAbort s
  | .jobStop => Sys2Proof.Machine.execJobStop s
  | .sequencerHang chn => Sys2Proof.Machine.execSequencerHang chn s
  | .churnBlockReset chn cause => Sys2Proof.Machine.execChurnBlockReset chn cause s
  | .synSignalAdd sc => Sys2Proof.Machine.execSynSignalAdd sc s
  | .synReset sc => Sys2Proof.Machine.execSynReset sc s
  | .synRdidxLatch sc => Sys2Proof.Machine.execSynRdidxLatch sc s
  | .fixedModeWrite port value => Sys2Proof.Machine.execFixedModeWrite port value s
  | .reproModeWrite port value => Sys2Proof.Machine.execReproModeWrite port value s
  | .outboundFrameSlot => Sys2Proof.Machine.execOutboundFrameSlot s
  | .tickEnqueue => Sys2Proof.Machine.execTickEnqueue s
  | .stateFrame payload => Sys2Proof.Machine.execStateFrame payload s
  | .tickFrame payload => Sys2Proof.Machine.execTickFrame payload s
  | .regFrame payload => Sys2Proof.Machine.execRegFrame payload s
  | .inboundStatusFrame payload => Sys2Proof.Machine.execInboundStatusFrame payload s
  | .inboundReadFrame payload => Sys2Proof.Machine.execInboundReadFrame payload s
  | .tickEdge => Sys2Proof.Machine.execTickEdge s
  | .safeTimeout => Sys2Proof.Machine.execSafeTimeout s
  | .fieldSupplyLow => Sys2Proof.Machine.execFieldSupplyLow s
  | .fieldSupplyLoss => Sys2Proof.Machine.execFieldSupplyLoss s
  | .fieldSupplyReturn => Sys2Proof.Machine.execFieldSupplyReturn s
  | .inputChangeAccepted input level => Sys2Proof.Machine.execInputChangeAccepted input level s
  | .wireBreak input => Sys2Proof.Machine.execWireBreak input s
  | .wireBreakClear input level => Sys2Proof.Machine.execWireBreakClear input level s
  | .outputShortCircuit out => Sys2Proof.Machine.execOutputShortCircuit out s
  | .outputOpenLoad out => Sys2Proof.Machine.execOutputOpenLoad out s
  | .groupOvercurrent group => Sys2Proof.Machine.execGroupOvercurrent group s
  | .indDataWrite value => Sys2Proof.Machine.execIndDataWrite value s
  | .indDataRead => Sys2Proof.Machine.execIndDataRead s
  | .indTimeout => Sys2Proof.Machine.execIndTimeout s
  | .libReserve n => Sys2Proof.Machine.execLibReserve n s
  | .batchRequest queue => Sys2Proof.Machine.execBatchRequest queue s
  | .sampleDecodeDone slot hevc => Sys2Proof.Machine.execSampleDecodeDone slot hevc s
  | .batchComplete => Sys2Proof.Machine.execBatchComplete s
  | .decoderCapWindow => Sys2Proof.Machine.execDecoderCapWindow s
  | .validationStart port value => Sys2Proof.Machine.execValidationStart port value s
  | .validationComplete samples => Sys2Proof.Machine.execValidationComplete samples s
  | .posSend => Sys2Proof.Machine.execPosSend s
  | .pos port hdr frame => Sys2Proof.Machine.execPos port hdr frame s
  | .timeSend => Sys2Proof.Machine.execTimeSend s
  | .time port hdr peer echo error => Sys2Proof.Machine.execTime port hdr peer echo error s
  | .part port hdr frame => Sys2Proof.Machine.execPart port hdr frame s
  | .verd port hdr records => Sys2Proof.Machine.execVerd port hdr records s
  | .mark port hdr frame => Sys2Proof.Machine.execMark port hdr frame s
  | .pres port hdr pos lane present => Sys2Proof.Machine.execPres port hdr pos lane present s
  | .dict port hdr req response => Sys2Proof.Machine.execDict port hdr req response s
  | .bulk port hdr dpa sc sig block => Sys2Proof.Machine.execBulk port hdr dpa sc sig block s
  | .hello port hdr frame => Sys2Proof.Machine.execHello port hdr frame s
  | .helloSend => Sys2Proof.Machine.execHelloSend s
  | .switch port hdr slot pos => Sys2Proof.Machine.execSwitch port hdr slot pos s
  | .zanyxLinkUp port => Sys2Proof.Machine.execZanyxLinkUp port s
  | .zanyxNak port ack => Sys2Proof.Machine.execZanyxNak port ack s
  | .replayTimeout port => Sys2Proof.Machine.execReplayTimeout port s
  | .zanyxPortDown port => Sys2Proof.Machine.execZanyxPortDown port s
  | .zanyxSleep port => Sys2Proof.Machine.execZanyxSleep port s
  | .zanyxWake port => Sys2Proof.Machine.execZanyxWake port s
  | .poslost => Sys2Proof.Machine.execPoslost s
  | .workerLost member => Sys2Proof.Machine.execWorkerLost member s
  | .dictRelayTimeout reqid => Sys2Proof.Machine.execDictRelayTimeout reqid s
  | .timeStep source step => Sys2Proof.Machine.execTimeStep source step s
  | .timeRateWrite source rate => Sys2Proof.Machine.execTimeRateWrite source rate s
  | .timNsRead => Sys2Proof.Machine.execTimNsRead s
  | .ptpMessage msg => Sys2Proof.Machine.execPtpMessage msg s
  | .txqPop source => Sys2Proof.Machine.execTxqPop source s
  | .announceTimeout => Sys2Proof.Machine.execAnnounceTimeout s
  | .servoHandover port value => Sys2Proof.Machine.execServoHandover port value s
  | .ttoEnable port t => Sys2Proof.Machine.execTtoEnable port t s
  | .ttoEdge t => Sys2Proof.Machine.execTtoEdge t s
  | .dictRead port req => Sys2Proof.Machine.execDictRead port req s
  | .dictWrite port req nvmFails => Sys2Proof.Machine.execDictWrite port req nvmFails s
  | .dictInfo port req => Sys2Proof.Machine.execDictInfo port req s
  | .dictReadseg port req => Sys2Proof.Machine.execDictReadseg port req s
  | .dictWriteseg port req nvmFails => Sys2Proof.Machine.execDictWriteseg port req nvmFails s
  | .segmentSequenceTimeout index sub => Sys2Proof.Machine.execSegmentSequenceTimeout index sub s
  | .responseCacheExpiry src reqid => Sys2Proof.Machine.execResponseCacheExpiry src reqid s
  | .mbxDoorbell => Sys2Proof.Machine.execMbxDoorbell s
  | .snapshot => Sys2Proof.Machine.execSnapshot s
  | .irqAck bits => Sys2Proof.Machine.execIrqAck bits s
  | .voteCheck => Sys2Proof.Machine.execVoteCheck s
  | .registerWrite source addr bytes value => Sys2Proof.Machine.execRegisterWrite source addr bytes value s
  | .rstNLow => Sys2Proof.Machine.execRstNLow s
  | .coldResetEscalation => Sys2Proof.Machine.execColdResetEscalation s
  | .rstNRelease lowTime => Sys2Proof.Machine.execRstNRelease lowTime s
  | .por => Sys2Proof.Machine.execPor s
  | .vstbyLoss => Sys2Proof.Machine.execVstbyLoss s
  | .vin12Loss => Sys2Proof.Machine.execVin12Loss s
  | .vin12Return => Sys2Proof.Machine.execVin12Return s
  | .pcieReset => Sys2Proof.Machine.execPcieReset s
  | .startStageComplete storeFails => Sys2Proof.Machine.execStartStageComplete storeFails s
  | .startConfirm port => Sys2Proof.Machine.execStartConfirm port s
  | .startTimeout => Sys2Proof.Machine.execStartTimeout s
  | .failstartClear port value => Sys2Proof.Machine.execFailstartClear port value s
  | .blockReset source block => Sys2Proof.Machine.execBlockReset source block s
  | .readyEntry => Sys2Proof.Machine.execReadyEntry s
  | .dozeEntry => Sys2Proof.Machine.execDozeEntry s
  | .demand => Sys2Proof.Machine.execDemand s
  | .enterStandby port => Sys2Proof.Machine.execEnterStandby port s
  | .leaveStandby port => Sys2Proof.Machine.execLeaveStandby port s
  | .enterOff port => Sys2Proof.Machine.execEnterOff port s
  | .restoreDefaults port => Sys2Proof.Machine.execRestoreDefaults port s
  | .sensorRead sensors => Sys2Proof.Machine.execSensorRead sensors s
  | .fanFailed fan => Sys2Proof.Machine.execFanFailed fan s
  | .tallyWrite => Sys2Proof.Machine.execTallyWrite s
  | .tallyClear port => Sys2Proof.Machine.execTallyClear port s
  | .operatingHoursStore => Sys2Proof.Machine.execOperatingHoursStore s
  | .optionRewrite => Sys2Proof.Machine.execOptionRewrite s
  | .firmwareBankWrite readbackOk => Sys2Proof.Machine.execFirmwareBankWrite readbackOk s
  | .maintenanceRequest port activity => Sys2Proof.Machine.execMaintenanceRequest port activity s
  | .maintenanceDue activity => Sys2Proof.Machine.execMaintenanceDue activity s
  | .maintenanceEnd activity => Sys2Proof.Machine.execMaintenanceEnd activity s
  | .selfTestDone chn pass testStep => Sys2Proof.Machine.execSelfTestDone chn pass testStep s
  | .traceRecord record => Sys2Proof.Machine.execTraceRecord record s
  | .linkLock link => Sys2Proof.Machine.execLinkLock link s
  | .ethLinkLoss port => Sys2Proof.Machine.execEthLinkLoss port s
  | .ethLinkUp port => Sys2Proof.Machine.execEthLinkUp port s
  | .malformedDatagram what => Sys2Proof.Machine.execMalformedDatagram what s
  | .barrierFrameCrcFail inbound => Sys2Proof.Machine.execBarrierFrameCrcFail inbound s
  | .hostApertureAccess bar2 ofs write len event => Sys2Proof.Machine.execHostApertureAccess bar2 ofs write len event s
  | .ttoWidthExpiry t => Sys2Proof.Machine.execTtoWidthExpiry t s
  | .bissStartBitTimeout ch => Sys2Proof.Machine.execBissStartBitTimeout ch s
  | .idleFrame port hdr slp => Sys2Proof.Machine.execIdleFrame port hdr slp s
  | .zanyxBadFrame port typ len crcOk => Sys2Proof.Machine.execZanyxBadFrame port typ len crcOk s
  | .ptpGeneralMessage msg master => Sys2Proof.Machine.execPtpGeneralMessage msg master s
  | .fieldSupplyRestored => Sys2Proof.Machine.execFieldSupplyRestored s
  | .pcieLinkTraining => Sys2Proof.Machine.execPcieLinkTraining s

end Sys2Proof.Machine
end

