-- ==== Sys2Proof/Safety.lean ====
section
/-! DEFINITION. The terms that the claims use: completion, what a command leaves alone, the canonical form of memory, and a
queue of commands that can arrive. -/

namespace Sys2Proof.Machine

open Sys2Proof

/-- The command completes, in a state of which `P` holds. -/
def Completes (c : Instr) (s : State) (P : State → Prop) : Prop := ∃ t, exec c s = .next t ∧ P t

/-- Every instance of a register field outside a list reads as before. -/
def KeepsFields (s t : State) (l : List (Field × Nat)) : Prop := ∀ f i, i < 1024 → (f, i) ∉ l → t.rd f i = s.rd f i

/-- What the module holds beside its register fields and what it has sent. -/
def Dev.rest (s : Dev) : Dev := { s with regs := [], voteB := [], voteC := [], out := [] }

/-- What the module holds beside its register fields, what it has sent, and what a Tally event or an observation changes: the
Tally queue, the observation counters and the state of trace capture. -/
def Dev.body (s : Dev) : Dev := { s.rest with counters := [], trace := {}, mlk := { s.mlk with queue := [] } }

/-- The register fields that a Tally event may change, beside the observation counters: the flags of a full queue, of stopped
trace capture and of its dropped records (R409, R411, R422). -/
def logFields : List (Field × Nat) := [(.TLY_STAT_QOVF, 0), (.TLY_DROP_CNT, 0), (.OBS_TRC_STAT_STOPPED, 0),
  (.OBS_TRC_DROP_COUNT, 0)]

/-- Every byte of memory outside the `n` bytes from `a` reads as before. -/
def KeepsBytes (s t : State) (a n : Nat) : Prop := ∀ k, k < a ∨ a + n ≤ k → t.byteAt k = s.byteAt k

/-- The arithmetic flags of one Churn (R116). -/
def excAt (n : Nat) : List (Field × Nat) := excFields.map fun e => (e.1, n)

/-- The register fields that a change of a channel's direction flag may change, beside those of its Tally event (R18, R238). -/
def turnFields (ch : Nat) : List (Field × Nat) :=
  [(.ENC_STAT_DIR, ch), (.ENC_STAT_DIRCHG, ch), (.ENC_MSTAT_DIR, 0), (.ENC_MSTAT_DIRCHG, 0)] ++ logFields

/-- The register fields that a context which comes to a Churn, or leaves it, may change (R191, R199). -/
def contextFields (n : Nat) : List (Field × Nat) :=
  [(.CHN_STAT_PWR, n), (.CHN_STAT_BUSY, n), (.CHN_STAT_MODE, n), (.JOB_CHN_JOB, n), (.JOB_CHN_ST_VALID, n), (.JOB_CHN_ST_KIND, n),
    (.JOB_CHN_ST_PIECE, n), (.OBS_TRC_DROP_COUNT, 0)]

/-- The register fields that the use of a save slot may change (R199). -/
def slotFields (k : Nat) : List (Field × Nat) :=
  [(.JOB_SLOT_ST_STATE, k), (.JOB_SLOT_ST_CHEAP, k), (.JOB_SLOT_ST_FLT, k), (.JOB_SLOT_ST_CHN, k), (.JOB_SLOT_ST_PIECE, k), (.JOB_SLOT_JOB, k),
    (.JOB_SLOT_ST_RECOV, k), (.JOB_STAT_RECOV, 0), (.OBS_TRC_DROP_COUNT, 0)]

/-- The register fields that an uncorrectable error and its Tally event may change (R174). -/
def errorFields : List (Field × Nat) :=
  [(.MEM_UE_ADDR, 0), (.MEM_UE_SRC, 0), (.MEM_ECC_STAT_VUE, 0), (.MEM_VUE_CNT, 0), (.MEM_ECC_STAT_LUE, 0), (.MEM_LUE_CNT, 0),
    (.MEM_ECC_STAT_CRCUE, 0)] ++ logFields

/-- The register fields that a break of a stream context may change: those of its gap, of the block that closes and of its copy, of the
fusion contexts that learn of it, and of a Churn that waits for a block (R46, R73, R76, R96, R291). -/
def breakFields (c : Nat) : List (Field × Nat) :=
  [(.ITK_CTX_STAT_STATE, c), (.ITK_CTX_STAT_GAPOPEN, c), (.ITK_CTX_GAP_START, c), (.ITK_CTX_GAP_END, c), (.ITK_CTX_STAT_BROKEN, c),
    (.ITK_PP_BLKSEQ, c), (.TCH_RING_WR, 0), (.TCH_CAPLOST_CNT, 0), (.TCH_STAT_CAPLOST, 0)] ++
  ((upTo 16).flatMap fun k => [(.ITK_FUS_STAT_ABSENT, k), (.ITK_FUS_STAT_CMTERR, k), (.CHN_STAT_PWR, k)]) ++ logFields

/-- The first instruction of a job's command can be fetched on a Churn (R163, R165): there is none to fetch, or its address translates and
can be reached. -/
def Dev.fetches (s : Dev) (n : Nat) (j : Job) : Bool :=
  match j.cmd?.bind Command.code? with
  | none => true
  | some a => match s.vspans (some n) j.asid 2 none 1 a 1 with
    | .ok l => l.all fun e => s.reachable (some n) e
    | _ => false

/-- Memory is in canonical form. -/
abbrev Memory.wf (m : List Host.Cell) : Prop := tabWf memUnlisted m

/-- Every command that waits can arrive. -/
def State.queueWf (s : State) : Prop := ∀ c ∈ s.pending, c.wf = true

end Sys2Proof.Machine
end

