-- ==== Sys2Proof/Certificates/Slice0/Obligations.lean ====
section
/-! DEFINITION. The statements about the model, for the provers: those about the whole machine first, then family by family in the
order of the commands. `Completes c s P` says that command `c` completes in state `s`, in a state of which `P` holds; `KeepsFields s t l`
that every register field but those of `l` reads as before; `t.rest = s.rest` that nothing else of the module has changed but what it
has sent, and `t.body = s.body` the same but for the Tally queue, the observation counters and the trace. -/

open Sys2Proof Sys2Proof.Machine

/-- A step runs the command at the front of the queue: it is `exec` of that command on the state with the rest of the queue. An empty
queue idles (the model's choice, log entry 1). -/
def Obligations.StepRunsFrontCommand : Prop :=
  ∀ (s : State) (c : Instr) (l : List Instr),
    (s.pending = c :: l → Sys2Proof.Machine.step s = exec c { s with pending := l }) ∧
    Sys2Proof.Machine.step { s with pending := c :: s.pending } = exec c s ∧
    (s.pending = [] → Sys2Proof.Machine.step s = .next s)

/-- R8, R21, R78, R269, R282, R288, R352, R379, R400, R402: the values of reset that the register tables give, for a part of every
kind of register; the state starts at stage 1 with counters, positions and device time at zero, the field die in the safe state
and no command waiting. Memory lists nothing (the model's choice, log entry 4). -/
def Obligations.ResetValues : Prop :=
  (∀ n : Fin 24, State.reset.rd .CXP_LNK_CTL_MASTER n = n) ∧
  (∀ k : Fin 128, State.reset.rd .SEP_POLICY k = if (k : Nat) % 16 = 0 then 0x55555554 else 0x55555555) ∧
  State.reset.rd .GLB_ID = 0x4E9600A1 ∧ State.reset.rd .ENC_MSTAT_MASTER = 0 ∧ State.reset.flag .ENC_MSTAT_STOP = true ∧
  State.reset.rd .RCP_STATE = 0 ∧ State.reset.rd .RCP_STATE_STAGE = 1 ∧ State.reset.rd .RCP_CAUSE = 1 ∧
  State.reset.rd .RCP_FAILSTART_LIMIT = 3 ∧ State.reset.flag .FLD_STAT_SAFE = true ∧ State.reset.rd .FLD_SAFE_TMO = 1000 ∧
  State.reset.rd .FLD_LVL = 0 ∧ State.reset.rd .FLD_OUT_EN = 0 ∧ State.reset.rd .TIM_STEPMAX = 1000000 ∧
  (∀ ch : Fin 4, State.reset.rd .ENC_POS ch = 0) ∧ (∀ k : Nat, State.reset.sc k = 0) ∧ (∀ a : Nat, State.reset.byteAt a = 0) ∧
  State.reset.power = .start ∧ State.reset.timeU = 0 ∧ State.reset.nextId = 0 ∧ State.reset.parts = [] ∧ State.reset.fires = [] ∧
  State.reset.jobs = [] ∧ State.reset.pending = [] ∧ Memory.wf State.reset.mem ∧ State.reset.queueWf

/-- Every command completes, in every state, and leaves the queue alone; one whose operands no wire can carry leaves everything alone
(the model's choice, log entry 2). No command is a fault, and none is refused. -/
def Obligations.EveryCommandCompletes : Prop :=
  ∀ (c : Instr) (s : State),
    (Completes c s fun t => t.pending = s.pending) ∧ (c.wf = false → exec c s = .next s)

/-- A queue of commands runs to its end without a fault or a refusal, one command a step, first in, first out: a step takes the first
command away, and after as many steps as there are commands the queue is empty. A queue of commands that can arrive stays one. -/
def Obligations.QueueRunsToEmpty : Prop :=
  ∀ (s : State),
    (∀ t, Sys2Proof.Machine.step s = .next t → t.pending = s.pending.tail ∧ (s.queueWf → t.queueWf)) ∧
    (∃ t, Sys2Proof.core.run s.pending.length s = .next t ∧ t.pending = [] ∧ Sys2Proof.Machine.step t = .next t) ∧
    (∀ (n : Nat) (t : State), n ≤ s.pending.length → Sys2Proof.core.run n s = .next t → t.pending = s.pending.drop n)

/-- R157: memory holds bytes at addresses that exist and at no others, in one canonical form, and every step keeps it so: addresses
strictly rise, and no entry says what an unlisted address reads as. -/
def Obligations.MemoryStaysCanonical : Prop :=
  ∀ (s t : State), Memory.wf s.mem → (∀ e ∈ s.mem, dpaOk e.1 = true) → Sys2Proof.Machine.step s = .next t →
    Memory.wf t.mem ∧ ∀ e ∈ t.mem, dpaOk e.1 = true

/-- R227: a valid transition moves an incremental channel by one count, in the sense of `INV`; an illegal one moves nothing, is
counted and is a fault of cause 2; a quarter-period transition moves a sin/cos channel by a quarter period (R229). -/
def Obligations.EncoderEdges : Prop :=
  ∀ (s : State) (ch : Fin 4), s.chOn ch = true →
    (∀ up : Bool, s.rd .ENC_CFG_TYPE ch = 0 →
      Completes (.encoderEdge ch (if up then .up else .down)) s fun t =>
        t.rd .ENC_POS ch = moveBy (s.rd .ENC_POS ch) (if up = s.flag .ENC_CFG_INV ch then -65536 else 65536) ∧
        KeepsFields s t ((.ENC_POS, ch) :: turnFields ch) ∧ t.body = { s.body with encs := t.encs, peak := t.peak }) ∧
    (s.rd .ENC_CFG_TYPE ch = 0 →
      Completes (.encoderEdge ch .illegal) s fun t =>
        t.rd .ENC_ERRCNT_COUNT ch = satSucc 32 (s.rd .ENC_ERRCNT_COUNT ch) ∧
        ((s.enc ch).detected = 0 → (t.enc ch).detected = 2) ∧
        KeepsFields s t [(.ENC_ERRCNT_COUNT, ch)] ∧ t.rest = { s.rest with encs := t.encs }) ∧
    (∀ up : Bool, s.rd .ENC_CFG_TYPE ch = 1 →
      Completes (.encoderEdge ch (if up then .up else .down)) s fun t =>
        t.rd .ENC_POS ch = moveBy (s.rd .ENC_POS ch)
          (if up = s.flag .ENC_CFG_INV ch then -(65536 * s.quarter ch : Nat) else (65536 * s.quarter ch : Nat)) ∧
        KeepsFields s t ((.ENC_POS, ch) :: turnFields ch) ∧ t.body = { s.body with encs := t.encs, peak := t.peak })

/-- R228 to R231, R227: what a Z edge, a sin/cos sample, a BiSS-C cycle and a lost signal do to a channel. A good sample moves the
position by the fine difference taken the short way, and one out of its amplitude window moves nothing; a good cycle adds the signed
difference; a cycle with a wrong CRC-6 is discarded and counted; a fault is noted and takes effect with ENCODER_FAULT. -/
def Obligations.ChannelSamples : Prop :=
  ∀ (s : State) (ch : Fin 4) (sine cosine : Int) (phase f raw q : Nat) (nW : Bool), s.chOn ch = true →
    let type := s.rd .ENC_CFG_TYPE ch
    let len := s.rd .ENC_BISS_LEN ch
    let amp := isqrt (sine * sine + cosine * cosine).toNat
    let inv : Int := if s.flag .ENC_CFG_INV ch then -1 else 1
    let firstCause (t : State) (n : Nat) : Prop :=
      (t.enc ch).detected = if (s.enc ch).detected = 0 then n else (s.enc ch).detected
    (s.flag .ENC_CFG_ZEN ch = true → type ≠ 2 →
      Completes (.zEdge ch) s fun t =>
        t.rd .ENC_ZPOS ch = wrap 64 (s.rd .ENC_POS ch) ∧ t.flag .ENC_STAT_ZSEEN ch = true ∧
        ((s.enc ch).zPrev = some q → s.rd .ENC_ZPER ch ≠ 0 →
          (sdiff (s.rd .ENC_POS ch) q).natAbs ≠ cts (s.rd .ENC_ZPER ch) → firstCause t 4) ∧
        KeepsFields s t [(.ENC_ZPOS, ch), (.ENC_STAT_ZSEEN, ch)] ∧ t.rest = { s.rest with encs := t.encs }) ∧
    (type = 1 → -2048 ≤ sine ∧ sine < 2048 → -2048 ≤ cosine ∧ cosine < 2048 → phase < 4096 →
      s.rd .ENC_WIN_AMIN ch ≤ amp → amp ≤ s.rd .ENC_WIN_AMAX ch → (s.enc ch).phase = some f →
      s.flag .ENC_STAT_COARSE ch = false ∨ (s.enc ch).lost = false ∧ (s.enc ch).fast = false →
      Completes (.sincosSample ch sine cosine phase) s fun t =>
        t.rd .ENC_AMP ch = amp ∧ t.rd .ENC_AMP_AMINSEEN ch = wrap 16 (min amp (s.rd .ENC_AMP_AMINSEEN ch)) ∧
        t.flag .ENC_STAT_COARSE ch = false ∧ (t.enc ch).phase = some phase ∧
        t.rd .ENC_POS ch = moveBy (s.rd .ENC_POS ch) (65536 * inv *
          sgn (s.rd .ENC_CFG_INTERP ch) (s.fineCount ch phase + 2 ^ s.rd .ENC_CFG_INTERP ch - s.fineCount ch f)) ∧
        KeepsFields s t ((.ENC_POS, ch) :: (.ENC_AMP, ch) :: (.ENC_AMP_AMINSEEN, ch) :: (.ENC_STAT_COARSE, ch) :: turnFields ch) ∧
        t.body = { s.body with encs := t.encs, peak := t.peak }) ∧
    (type = 1 → -2048 ≤ sine ∧ sine < 2048 → -2048 ≤ cosine ∧ cosine < 2048 → phase < 4096 →
      amp < s.rd .ENC_WIN_AMIN ch ∨ s.rd .ENC_WIN_AMAX ch < amp →
      Completes (.sincosSample ch sine cosine phase) s fun t =>
        (s.rd .ENC_CFG_FLTN ch ≤ (s.enc ch).outRun + 1 → firstCause t 1) ∧
        ((s.enc ch).outRun + 1 < s.rd .ENC_CFG_FLTN ch → (t.enc ch).detected = (s.enc ch).detected) ∧
        KeepsFields s t [(.ENC_AMP, ch), (.ENC_AMP_AMINSEEN, ch)] ∧ t.rest = { s.rest with encs := t.encs }) ∧
    (type = 2 → (s.enc ch).bissOpen = false →
      Completes (.bissCycleStart ch) s fun t =>
        (t.enc ch).bissOpen = true ∧ KeepsFields s t [] ∧ t.rest = { s.rest with encs := t.encs }) ∧
    (type = 2 → (s.enc ch).bissOpen = true → raw < 2 ^ len → len ≤ 64 →
      Completes (.bissCycleComplete ch raw true nW (bissCrc len raw true nW)) s fun t =>
        (t.enc ch).bissOpen = false ∧ t.rd .ENC_BISS_RAW ch = raw ∧ t.flag .ENC_STAT_WARN ch = !nW ∧
        ((s.enc ch).biss = some q → (s.enc ch).woken = false →
          (sgn len (raw + 2 ^ len - q)).natAbs ≤ s.rd .ENC_MAXSTEP ch →
          t.rd .ENC_POS ch = moveBy (s.rd .ENC_POS ch) (65536 * inv * sgn len (raw + 2 ^ len - q))) ∧
        KeepsFields s t ((.ENC_POS, ch) :: (.ENC_BISS_RAW, ch) :: (.ENC_STAT_WARN, ch) :: turnFields ch) ∧
        t.body = { s.body with encs := t.encs, peak := t.peak }) ∧
    (∀ crc : Fin 64, type = 2 → (s.enc ch).bissOpen = true → fitsU 64 raw = true → (crc : Nat) ≠ bissCrc len (wrap len raw) true nW →
      Completes (.bissCycleComplete ch raw true nW crc) s fun t =>
        (t.enc ch).bissOpen = false ∧ t.rd .ENC_ERRCNT_COUNT ch = satSucc 32 (s.rd .ENC_ERRCNT_COUNT ch) ∧
        (2 ≤ (s.enc ch).crcRun → firstCause t 5) ∧
        KeepsFields s t [(.ENC_ERRCNT_COUNT, ch)] ∧ t.rest = { s.rest with encs := t.encs }) ∧
    (type = 2 → (s.enc ch).bissOpen = true →
      Completes (.bissStartBitTimeout ch) s fun t =>
        (t.enc ch).bissOpen = false ∧ firstCause t 7 ∧ KeepsFields s t [] ∧ t.rest = { s.rest with encs := t.encs }) ∧
    Completes (.encoderSignalLoss ch .signal) s fun t =>
      firstCause t 3 ∧ (if type = 1 then (t.enc ch).lost = true else (t.enc ch).present = true) ∧ KeepsFields s t [] ∧
      t.rest = { s.rest with encs := t.encs }

/-- R233, R235: a detected fault sets `FAULT` and `FCODE`; a clear takes both back once the cause is gone, with `AMINSEEN` and
`COARSE`, and closes the fault interval at the line-master position. A clear while the cause persists changes nothing. -/
def Obligations.EncoderFaultSetAndCleared : Prop :=
  ∀ (s : State) (ch : Fin 4),
    let lasts := (s.enc ch).present || (s.enc ch).lost || (s.enc ch).fast
    ((s.enc ch).detected ≠ 0 → (s.enc ch).detected < 8 → s.flag .ENC_STAT_FAULT ch = false →
      Completes (.encoderFault ch) s fun t =>
        t.flag .ENC_STAT_FAULT ch = true ∧ t.rd .ENC_STAT_FCODE ch = (s.enc ch).detected ∧ (t.enc ch).detected = 0 ∧
        (s.master = ch → s.worker = false → t.flag .ENC_STAT_FLTOPEN ch = true) ∧
        t.rd .ENC_POS ch = s.rd .ENC_POS ch ∧ t.mem = s.mem ∧ t.die = s.die) ∧
    (s.flag .ENC_STAT_FAULT ch = true → lasts = false →
      Completes (.encFaultClear ch) s fun t =>
        t.flag .ENC_STAT_FAULT ch = false ∧ t.rd .ENC_STAT_FCODE ch = 0 ∧ t.rd .ENC_AMP_AMINSEEN ch = 0xFFFF ∧
        t.flag .ENC_STAT_COARSE ch = false ∧ t.flag .ENC_STAT_FLTOPEN ch = false ∧
        (s.flag .ENC_STAT_FLTOPEN ch = true → t.rd .ENC_FLT_END ch = wrap 64 s.lmPos) ∧
        KeepsFields s t ([(.ENC_STAT_FAULT, (ch : Nat)), (.ENC_STAT_FCODE, ch), (.ENC_AMP_AMINSEEN, ch), (.ENC_STAT_COARSE, ch),
          (.ENC_STAT_FLTOPEN, ch), (.ENC_FLT_END, ch)] ++
          (upTo 8).flatMap fun g => [(.ENC_CG_SKIP, g), (.ENC_CG_NEXT, g), (.ENC_CG_STAT_FSTOP, g), (.ENC_CG_STAT_RUN, g)]) ∧
        t.rest = { s.rest with marks := t.marks, zports := t.zports }) ∧
    (lasts = true →
      Completes (.encFaultClear ch) s fun t => KeepsFields s t [] ∧ t.rest = s.rest)

/-- R13, R14: a write of the line master takes effect without a jump of the line-master position while firing is not armed and no
part is in flight; otherwise it is refused as busy, or as out of range, and changes no register. -/
def Obligations.LineMasterChangesWithoutJump : Prop :=
  ∀ (s : State) (v : Nat), s.answers .h = true → s.power ≠ .recovery → fitsU 8 v = true →
    (v < 4 → v ≠ s.master → s.flag .SEP_CTL_ARM = false → s.parts = [] → s.worker = false →
      Completes (.lineMasterChange .h v) s fun t =>
        t.master = v ∧ t.lmPos = s.lmPos ∧ t.svc.lastStatus = stOk ∧ t.flag .ENC_MSTAT_SPDV = false ∧
        t.rd .ENC_SPEED = 0 ∧ t.rd .ENC_ACCEL = 0 ∧ t.flag .ENC_MSTAT_DIR = s.flag .ENC_STAT_DIR v ∧
        KeepsFields s t ([(.ENC_MSTAT_MASTER, 0), (.ENC_MSTAT_SPDV, 0), (.ENC_MSTAT_STOP, 0), (.ENC_SPEED, 0), (.ENC_ACCEL, 0)] ++
          turnFields v) ∧
        t.body = { s.body with est := t.est, lmOffset := t.lmOffset, xclkOn := t.xclkOn, od := t.od, nvm := t.nvm, svc := t.svc }) ∧
    (v < 4 → s.worker = true → Completes (.lineMasterChange .h v) s fun t =>
        t.master = s.master ∧ t.lmPos = s.lmPos ∧ KeepsFields s t [] ∧
        t.rest = { s.rest with od := t.od, nvm := t.nvm, svc := t.svc }) ∧
    (v < 4 → v ≠ s.master → s.flag .SEP_CTL_ARM = true ∨ s.parts ≠ [] →
      Completes (.lineMasterChange .h v) s fun t =>
        t.svc.lastStatus = stBusy ∧ KeepsFields s t [] ∧ t.rest = { s.rest with svc := t.svc }) ∧
    (3 < v → Completes (.lineMasterChange .h v) s fun t =>
        t.svc.lastStatus = stRange ∧ KeepsFields s t [] ∧ t.rest = { s.rest with svc := t.svc })

/-- R240: writing `ARM` = 1 loads the next compare value with `START`, or with the first value of the grid `START` + j × `SPACE` that lies
after the position if `START` does not; the grid points passed over are not issued, not counted against `COUNT` and not recorded as
skipped; with `CONTINUOUS` = 0 and `COUNT` = 0 arming sets `DONE` at once and issues no hit. -/
def Obligations.ArmingLoadsTheGrid : Prop :=
  ∀ (s : State) (g : Fin 8) (j : Nat), s.rd .ENC_CG_SPACE g ≠ 0 →
    let point := fun k => wrap 64 (s.rd .ENC_CG_START g + k * s.rd .ENC_CG_SPACE g)
    let empty := !s.flag .ENC_CG_CTL_CONTINUOUS g && s.rd .ENC_CG_COUNT g == 0
    Completes (.cgArm g) s fun t =>
      t.flag .ENC_CG_CTL_ARM g = true ∧ after (t.rd .ENC_CG_NEXT g) (s.srcPos g) = true ∧
      (after (s.rd .ENC_CG_START g) (s.srcPos g) = true → t.rd .ENC_CG_NEXT g = s.rd .ENC_CG_START g) ∧
      (after (point j) (s.srcPos g) = true → (∀ k < j, after (point k) (s.srcPos g) = false) → t.rd .ENC_CG_NEXT g = point j) ∧
      (t.gen g).hits = 0 ∧ (t.gen g).queue = (s.gen g).queue ∧
      t.flag .ENC_CG_STAT_DONE g = empty ∧ t.flag .ENC_CG_STAT_RUN g = !empty ∧
      KeepsFields s t [(.ENC_CG_CTL_ARM, g), (.ENC_CG_NEXT, g), (.ENC_CG_STAT_RUN, g), (.ENC_CG_STAT_DONE, g), (.ENC_CG_STAT_FSTOP, g)] ∧
      t.rest = { s.rest with gens := t.gens }

/-- R241 to R243: a hit advances the next compare value by `SPACE` and is issued, and the last of `COUNT` hits ends the run; a stopped
generator skips the hit; disarming stops the generator and leaves its queued hits. -/
def Obligations.CompareGeneratorRuns : Prop :=
  ∀ (s : State) (g : Fin 8),
    (Completes (.cgDisarm g) s fun t =>
        t.flag .ENC_CG_CTL_ARM g = false ∧ t.flag .ENC_CG_STAT_RUN g = false ∧ t.gen g = s.gen g ∧
        KeepsFields s t [(.ENC_CG_CTL_ARM, g), (.ENC_CG_STAT_RUN, g), (.ENC_CG_STAT_FSTOP, g)] ∧ t.rest = s.rest) ∧
    (s.live = true → s.xclkOn = true → s.flag .ENC_CG_STAT_FSTOP g = false → s.flag .ENC_CG_STAT_RUN g = true →
      atOrAfter (s.srcPos g) (s.rd .ENC_CG_NEXT g) = true →
      (s.gen g).queue = [] → (s.gen g).free ≤ s.xclk →
      Completes (.compareHit g) s fun t =>
        t.rd .ENC_CG_NEXT g = wrap 64 (s.rd .ENC_CG_NEXT g + s.rd .ENC_CG_SPACE g) ∧
        t.rd .ENC_CG_ISSUED g = wrap 32 (s.rd .ENC_CG_ISSUED g + 1) ∧ (t.gen g).hits = (s.gen g).hits + 1 ∧
        (t.gen g).free = s.xclk + 2 ∧
        (s.flag .ENC_CG_CTL_CONTINUOUS g = false → s.rd .ENC_CG_COUNT g ≤ (s.gen g).hits + 1 →
          t.flag .ENC_CG_STAT_DONE g = true ∧ t.flag .ENC_CG_STAT_RUN g = false) ∧
        ((∀ c ∈ s.ctxsOf g, (s.ctx c).stamps.length < 256) →
          KeepsFields s t [(.ENC_CG_NEXT, g), (.ENC_CG_ISSUED, g), (.ENC_CG_STAT_DONE, g), (.ENC_CG_STAT_RUN, g)] ∧
          t.rest = { s.rest with gens := t.gens, trgs := t.trgs, links := t.links, ctxs := t.ctxs })) ∧
    (s.live = true → s.xclkOn = true → s.flag .ENC_CG_STAT_FSTOP g = true →
      atOrAfter (s.srcPos g) (s.rd .ENC_CG_NEXT g) = true →
      Completes (.compareHit g) s fun t =>
        t.rd .ENC_CG_SKIP g = satSucc 32 (s.rd .ENC_CG_SKIP g) ∧
        t.rd .ENC_CG_NEXT g = wrap 64 (s.rd .ENC_CG_NEXT g + s.rd .ENC_CG_SPACE g) ∧
        KeepsFields s t [(.ENC_CG_SKIP, g), (.ENC_CG_NEXT, g)] ∧ t.rest = s.rest)

/-- R47, R245, R246, R69, R71: XCLK runs again, and no generator is left with a passed compare value; a trigger output becomes active when
the delay of a hit ends and inactive after the width; an uplink packet leaves with the stamp of its hit. -/
def Obligations.PassedHitsAndTriggers : Prop :=
  ∀ (s : State) (t : Fin 8) (m : Fin 24) (x stamp at_ : Nat) (rest : List Nat) (more : List (Nat × Nat)),
    (s.live = true → s.xclkOn = false →
      (∀ g : Fin 8, 0x10000 ≤ s.rd .ENC_CG_SPACE g) →
      (∀ ch : Fin 4, s.rd .ENC_CFG_TYPE ch ≠ 2) →
      Completes .xclkStart s fun u =>
        u.xclkOn = true ∧ u.mem = s.mem ∧ u.encs = s.encs ∧
        (∀ ch : Fin 4, u.rd .ENC_POS ch = s.rd .ENC_POS ch) ∧
        ∀ g : Fin 8, u.flag .ENC_CG_STAT_RUN g = true → u.flag .ENC_CG_STAT_FSTOP g = false →
          atOrAfter (u.srcPos g) (u.rd .ENC_CG_NEXT g) = false) ∧
    (s.trgOn t = true → (s.trg t).due = x :: rest →
      Completes (.triggerDelayExpiry t) s fun u =>
        u.trg t = { due := rest, active := true } ∧ u.rd .ENC_TRG_CNT t = wrap 32 (s.rd .ENC_TRG_CNT t + 1) ∧
        KeepsFields s u [(.ENC_TRG_CNT, t)] ∧ u.rest = { s.rest with trgs := u.trgs }) ∧
    (Completes (.triggerWidthExpiry t) s fun u =>
        u.trg t = { s.trg t with active := false } ∧ KeepsFields s u [] ∧ u.rest = { s.rest with trgs := u.trgs }) ∧
    (s.live = true → s.sendsTriggers m = true → s.uplinkFree m ≤ s.xclk → (s.link m).triggers = (stamp, at_) :: more →
      Completes (.uplinkTriggerSend m) s fun u =>
        Out.trigger m stamp 0 ∈ u.out ∧ u.link m = { s.link m with triggers := more, lastSent := some s.xclk } ∧
        KeepsFields s u [] ∧ u.body = { s.body with links := u.links })

/-- R34, R28: at its deadline a part without a verdict receives FAULT if its work met a fault, else LATE, and no other part changes;
a part that has reached the maximum length closes there with OVERLONG and its lane waits for absence. -/
def Obligations.DeadlineAndMaximumLength : Prop :=
  ∀ (s : State) (id : Nat) (p : Part) (lane : Fin 64) (stamp : Nat), s.part? id = some p → id < 2 ^ 32 → stamp < 2 ^ 64 →
    (p.dead = false → s.pastDeadline p = true →
      Completes (.deadlineReached id) s fun t =>
        t.part? id = some { p with dead := true, verd := if p.verd = 0xFF then (if p.workFault then 0xE2 else 0xE1) else p.verd } ∧
        (∀ q ∈ s.parts, q.id ≠ id → q ∈ t.parts) ∧ KeepsFields s t [] ∧ t.rest = { s.rest with parts := t.parts }) ∧
    ((s.lane lane).openPart = some id → s.tooLong lane stamp p = true →
      Completes (.partMaxLength lane stamp) s fun t =>
        (t.part? id).map (fun q => q.fin) = some (some (wrap 64 (p.start + cts (s.slot p.slot).maxLen))) ∧
        ((t.part? id).all fun q => decide (rankOf 0xE4 ≤ rankOf q.verd)) = true ∧
        (t.lane lane).openPart = none ∧ (t.lane lane).blocked = true ∧ (∀ q ∈ s.parts, q.id ≠ id → q ∈ t.parts) ∧
        KeepsFields s t [] ∧ t.body = { s.body with parts := t.parts, lanes := t.lanes, zports := t.zports })

/-- R37, R38, R162: a recipe that passes the checks makes its slot READY; one that fails them leaves every slot as it was. A switch
to a READY slot becomes the pending one at the effective position, and a switch to any other slot is refused as busy. -/
def Obligations.RecipeLoadAndSwitch : Prop :=
  ∀ (s : State) (slot : Fin 8) (image : RecipeImage), s.answers .h = true → s.power ≠ .recovery →
    (image.wf = true → s.loadStatus slot image = stOk →
      Completes (.recipeLoad .h slot image) s fun t =>
        (t.slot slot).st = 2 ∧ (t.slot slot).image = some image ∧ t.svc.lastStatus = stOk ∧
        KeepsFields s t [] ∧ t.rest = { s.rest with slots := t.slots, svc := t.svc }) ∧
    (image.wf = true → s.loadStatus slot image ≠ stOk →
      Completes (.recipeLoad .h slot image) s fun t =>
        t.svc.lastStatus = s.loadStatus slot image ∧ KeepsFields s t [] ∧ t.rest = { s.rest with svc := t.svc }) ∧
    ((s.slot slot).st = 2 → s.manager = false → after (s.odNum 0x3000 3 0) s.lmPos = true →
      Completes (.recipeSwitch .h slot) s fun t =>
        t.slotNext = some ((slot : Nat), s.odNum 0x3000 3 0) ∧ t.slotNow = s.slotNow ∧ t.svc.lastStatus = stOk ∧
        KeepsFields s t [] ∧ t.rest = { s.rest with slotNext := t.slotNext, od := t.od, svc := t.svc }) ∧
    ((s.slot slot).st ≠ 2 →
      Completes (.recipeSwitch .h slot) s fun t =>
        t.svc.lastStatus = stBusy ∧ KeepsFields s t [] ∧ t.rest = { s.rest with svc := t.svc })

/-- R265, R266: `ARM` takes the value written; the line stop is released while the fire queue holds at most 64,512 entries, the
overflow list is not full and the field die reports no safe state, and stays otherwise. -/
def Obligations.ArmAndLineStop : Prop :=
  ∀ (s : State) (v : Bool),
    (s.answers .h = true → s.power ≠ .recovery → s.power ≠ .standby → s.worker = false →
      Completes (.sepArmWrite .h v) s fun t =>
        t.flag .SEP_CTL_ARM = v ∧ t.svc.lastStatus = stOk ∧ KeepsFields s t [(.SEP_CTL_ARM, 0)] ∧
        t.rest = { s.rest with svc := t.svc }) ∧
    (s.fires.length ≤ 64512 → s.inOverflow < 256 → s.flag .FIO_LNK_STAT_SAFE = false →
      Completes .lineStopRelease s fun t =>
        t.flag .SEP_STAT_LSTOP = false ∧ KeepsFields s t [(.SEP_STAT_LSTOP, 0)] ∧ t.rest = s.rest) ∧
    (64512 < s.fires.length ∨ 256 ≤ s.inOverflow ∨ s.flag .FIO_LNK_STAT_SAFE = true →
      Completes .lineStopRelease s fun t => KeepsFields s t [] ∧ t.rest = s.rest)

/-- R31, R32, R249, R250: a record for a part in the table on its lane, before its deadline, is merged by rank into `VERD` and
`PVERD`; a record that names no such part is counted as bad, one after the deadline as late, and neither changes a part. -/
def Obligations.VerdictRecordMerged : Prop :=
  ∀ (s : State) (r : VerdictRec) (p : Part), r.wf = true → s.worker = false →
    (s.part? r.partid = some p → r.partid ≠ 0xFFFFFFFF → p.ovf = false → p.lane = r.lane → r.resv = 0 →
      s.pastDeadline p = false → r.verdict < 0xE0 →
      Completes (.verdictRecord r) s fun t =>
        t.part? r.partid = some { p with
          recs := satSucc 16 p.recs
          verd := if rankOf p.verd < r.verdict + 1 then r.verdict else p.verd
          pverd := if rankOf p.pverd < r.verdict + 1 then r.verdict else p.pverd
          aux := if rankOf p.pverd < r.verdict + 1 then r.aux else p.aux } ∧
        (∀ q ∈ s.parts, q.id ≠ r.partid → q ∈ t.parts) ∧ KeepsFields s t [] ∧ t.rest = { s.rest with parts := t.parts }) ∧
    (s.part? r.partid = none →
      Completes (.verdictRecord r) s fun t =>
        t.counter 146 = wrap 64 (s.counter 146 + 1) ∧ KeepsFields s t [] ∧ t.rest = { s.rest with counters := t.counters }) ∧
    (s.part? r.partid = some p → r.partid ≠ 0xFFFFFFFF → p.ovf = false → p.lane = r.lane → r.resv = 0 →
      s.pastDeadline p = true →
      Completes (.verdictRecord r) s fun t =>
        t.counter 144 = wrap 64 (s.counter 144 + 1) ∧ KeepsFields s t [] ∧ t.rest = { s.rest with counters := t.counters })

/-- R32: a record that carries 0xFF changes nothing; one that carries 0xE0 to 0xFE merges FAULT into the part's verdict, leaves its
program verdict and `AUX` as they were, and is recorded as a Tally event of code 0x0042 with the part identifier and the code that was
sent. -/
def Obligations.ReservedVerdictCodes : Prop :=
  ∀ (s : State) (r : VerdictRec) (p : Part), r.wf = true → s.part? r.partid = some p → r.partid ≠ 0xFFFFFFFF → p.ovf = false →
    p.lane = r.lane → r.resv = 0 → s.pastDeadline p = false → s.worker = false →
    (r.verdict = 0xFF → Completes (.verdictRecord r) s fun t => KeepsFields s t [] ∧ t.rest = s.rest) ∧
    (0xE0 ≤ r.verdict → r.verdict < 0xFF →
      Completes (.verdictRecord r) s fun t =>
        (t.part? r.partid).map (fun q => (q.verd, q.pverd, q.aux)) =
          some (if rankOf p.verd < rankOf 0xE2 then 0xE2 else p.verd, p.pverd, p.aux) ∧
        (s.mlk.queue.length < 64 →
          t.mlk.queue.dropLast = s.mlk.queue ∧
          (t.mlk.queue.getLast?).map (fun e => (e.code, e.partid, e.v0)) = some (0x0042, r.partid, r.verdict)) ∧
        (∀ q ∈ s.parts, q.id ≠ r.partid → q ∈ t.parts) ∧ KeepsFields s t logFields)

/-- R267: an uncorrectable error in the Separator window sets `MEMERR`, is recorded as an error of requester 18, and drives the line
stop unless it struck the verdict log; a part whose entry it struck is tracked no more. -/
def Obligations.SeparatorMemoryErrorHandled : Prop :=
  ∀ (s : State) (id ofs : Nat) (p : Part),
    (s.part? id = some p → p.ovf = false → id < 2 ^ 32 →
      Completes (.separatorMemoryError (.part id)) s fun t =>
        t.flag .SEP_STAT_MEMERR = true ∧ t.flag .SEP_STAT_LSTOP = true ∧ t.rd .MEM_UE_SRC = 18 ∧ t.part? id = none ∧
        (∀ q ∈ s.parts, q.id ≠ id → q ∈ t.parts) ∧
        KeepsFields s t ((.SEP_STAT_MEMERR, 0) :: (.SEP_STAT_LSTOP, 0) :: (.MEM_UE_SRC, 0) :: (.MEM_UE_ADDR, 0) ::
          (.MEM_ECC_STAT_VUE, 0) :: (.MEM_ECC_STAT_CRCUE, 0) :: (.MEM_VUE_CNT, 0) :: (.JOB_Q_TAIL, 8) :: logFields) ∧
        t.body = { s.body with parts := t.parts, fires := t.fires, nextRun := t.nextRun, lanes := t.lanes, slots := t.slots,
                               jobs := t.jobs, posted := t.posted, free := t.free }) ∧
    (Completes (.separatorMemoryError (.free ofs)) s fun t =>
        t.flag .SEP_STAT_MEMERR = true ∧ t.flag .SEP_STAT_LSTOP = true ∧ t.rd .MEM_UE_SRC = 18 ∧
        t.rd .MEM_UE_ADDR = sepBase + ofs % 0x300000 ∧
        KeepsFields s t ((.SEP_STAT_MEMERR, 0) :: (.SEP_STAT_LSTOP, 0) :: (.MEM_UE_SRC, 0) :: (.MEM_UE_ADDR, 0) ::
          (.MEM_ECC_STAT_VUE, 0) :: (.MEM_ECC_STAT_CRCUE, 0) :: (.MEM_VUE_CNT, 0) :: logFields) ∧ t.body = s.body)

/-- R54, R55: discovery of a single-link group sets the rate that both ends support, or the fixed rate, and reads the connection ID; a
fixed rate that the camera lacks leaves the link at CXP-1 with `CFGERR`, and a connection ID that is not the link's position in its
group keeps the group out of service with `CFGERR`. -/
def Obligations.LinkDiscovery : Prop :=
  ∀ (s : State) (n : Fin 24) (maxRate connId : Nat), fitsU 4 maxRate = true → fitsU 32 connId = true →
    s.flag .CXP_LNK_CTL_EN n = true → s.firmware = true →
    s.rd .CXP_LNK_CTL_MASTER n = n → (∀ k : Fin 24, k ≠ n → s.rd .CXP_LNK_CTL_MASTER k ≠ n) →
    s.rd .CXP_LNK_CTL_EXT_IDX n = 0 →
    let fixed := s.flag .CXP_LNK_CTL_RATE_FIX n
    let rate := if fixed then s.rd .CXP_LNK_CTL_RATE n else min maxRate 6
    (fixed = false ∨ rate ≤ maxRate →
      (connId = 0 →
        Completes (.linkDeviceDetect n maxRate connId) s fun t =>
          t.rd .CXP_LNK_STAT_RATE_ACT n = rate ∧ t.link n = { s.link n with connId := some connId, out := false } ∧
          KeepsFields s t [(.CXP_LNK_STAT_RATE_ACT, n)] ∧ t.rest = { s.rest with links := t.links }) ∧
      (connId ≠ 0 →
        Completes (.linkDeviceDetect n maxRate connId) s fun t =>
          t.rd .CXP_LNK_STAT_RATE_ACT n = rate ∧ t.link n = { s.link n with connId := some connId, out := true } ∧
          t.flag .CXP_LNK_STAT_CFGERR n = true ∧
          KeepsFields s t ((.CXP_LNK_STAT_RATE_ACT, n) :: (.CXP_LNK_STAT_CFGERR, n) :: logFields) ∧
          t.body = { s.body with links := t.links })) ∧
    (fixed = true → maxRate < rate → connId = 0 →
      Completes (.linkDeviceDetect n maxRate connId) s fun t =>
        t.rd .CXP_LNK_STAT_RATE_ACT n = 0 ∧ t.flag .CXP_LNK_STAT_CFGERR n = true ∧
        t.link n = { s.link n with connId := some connId, out := false } ∧
        KeepsFields s t ((.CXP_LNK_STAT_RATE_ACT, n) :: (.CXP_LNK_STAT_CFGERR, n) :: logFields) ∧
        t.body = { s.body with links := t.links })

/-- R46, R56 to R58, R431: a receiver locks; a loss of lock sets `LOCKLOSS` and ends the outstanding request with LINKDOWN; the margins
and, unless `EQ_FREEZE` holds it, the adapted state are reported while the link is locked. The switch of a link closes on a powered
device and stays open with `PWR_FLT` where none is found; an overcurrent opens it, and so does a low supply, with `PWR_FLT` on every
link whose power is enabled; after such a fault detection does not close it again. -/
def Obligations.LinkLockAndPower : Prop :=
  ∀ (s : State) (n : Fin 24) (dfe ctle vert horz : Nat) (r : ProxyReq) (rest : List ProxyReq),
    (s.flag .CXP_LNK_CTL_EN n = true → s.live = true →
      Completes (.linkLock n) s fun t =>
        t.flag .CXP_LNK_STAT_LOCK n = true ∧ KeepsFields s t [(.CXP_LNK_STAT_LOCK, n)] ∧ t.rest = s.rest) ∧
    (s.flag .CXP_LNK_STAT_LOCK n = true → (s.link n).requests = r :: rest → r.source = .host →
      Completes (.lockLoss n) s fun t =>
        t.flag .CXP_LNK_STAT_LOCK n = false ∧ t.flag .CXP_LNK_STAT_LOCKLOSS n = true ∧ t.rd .CXP_PRX_STAT_ST n = 4 ∧
        t.link n = { s.link n with requests := rest } ∧
        KeepsFields s t [(.CXP_LNK_STAT_LOCK, n), (.CXP_LNK_STAT_LOCKLOSS, n), (.CXP_PRX_STAT_ST, n)] ∧
        t.rest = { s.rest with links := t.links }) ∧
    (s.flag .CXP_LNK_STAT_LOCK n = true → fitsU 25 dfe = true → fitsU 4 ctle = true → fitsU 8 vert = true → fitsU 8 horz = true →
      Completes (.eqUpdate n dfe ctle vert horz) s fun t =>
        (s.flag .CXP_LNK_CTL_EQ_FREEZE n = false → t.rd .CXP_LNK_EQ_DFE n = dfe ∧ t.rd .CXP_LNK_EQ_CTLE n = ctle) ∧
        (s.flag .CXP_LNK_CTL_EQ_FREEZE n = true → KeepsFields s t [(.CXP_LNK_EYE_VERT, n), (.CXP_LNK_EYE_HORZ, n)]) ∧
        t.rd .CXP_LNK_EYE_VERT n = vert ∧ t.rd .CXP_LNK_EYE_HORZ n = horz ∧
        KeepsFields s t [(.CXP_LNK_EQ_DFE, n), (.CXP_LNK_EQ_CTLE, n), (.CXP_LNK_EYE_VERT, n), (.CXP_LNK_EYE_HORZ, n)] ∧
        t.rest = s.rest) ∧
    (∀ found : Bool, s.flag .CXP_LNK_CTL_PWR_EN n = true → s.flag .CXP_LNK_STAT_PWR_ON n = false → (s.link n).pwrLatch = false →
      s.power ≠ .off →
      Completes (.pocxpDetect n found) s fun t =>
        t.flag .CXP_LNK_STAT_PWR_ON n = found ∧ (found = false → t.flag .CXP_LNK_STAT_PWR_FLT n = true) ∧
        KeepsFields s t [(.CXP_LNK_STAT_PWR_ON, n), (.CXP_LNK_STAT_PWR_FLT, n)] ∧ t.rest = s.rest) ∧
    (s.flag .CXP_LNK_STAT_PWR_ON n = true →
      Completes (.pocxpOvercurrent n) s fun t =>
        t.flag .CXP_LNK_STAT_PWR_ON n = false ∧ t.flag .CXP_LNK_STAT_PWR_FLT n = true ∧
        t.link n = { s.link n with pwrLatch := true } ∧
        KeepsFields s t ((.CXP_LNK_STAT_PWR_ON, n) :: (.CXP_LNK_STAT_PWR_FLT, n) :: logFields) ∧
        t.body = { s.body with links := t.links }) ∧
    (Completes .vpocLow s fun t =>
        t.flag .CXP_LNK_STAT_PWR_ON n = false ∧
        (s.flag .CXP_LNK_CTL_PWR_EN n = true → t.flag .CXP_LNK_STAT_PWR_FLT n = true ∧ (t.link n).pwrLatch = true) ∧
        (s.flag .CXP_LNK_CTL_PWR_EN n = false → t.link n = s.link n) ∧
        KeepsFields s t (((upTo 24).flatMap fun k => [(.CXP_LNK_STAT_PWR_ON, k), (.CXP_LNK_STAT_PWR_FLT, k)]) ++ logFields) ∧
        t.body = { s.body with links := t.links }) ∧
    ((s.link n).pwrLatch = true →
      Completes (.pocxpDetect n true) s fun t => KeepsFields s t [] ∧ t.rest = s.rest)

/-- R60, R61: a camera request of 4 to 256 bytes, a multiple of 4, joins its link's queue and is sent once it is at the head; any
other length ends with BADLEN and is not sent. An acknowledgement ends the request with DONE or NACK, and no answer with TIMEOUT;
the next request then goes out. -/
def Obligations.CameraRequests : Prop :=
  ∀ (s : State) (n : Fin 24) (addr len code : Nat) (data : List Byte) (r q : ProxyReq) (rest : List ProxyReq),
    fitsU 32 addr = true → fitsU 16 code = true →
    (proxyLenOk len = true → (s.link n).requests = [] →
      Completes (.proxyRead n .host addr len) s fun t =>
        let r : ProxyReq := { source := .host, write := false, addr := addr, len := len, data := [] }
        t.link n = { s.link n with requests := [r] } ∧ Out.control n r ∈ t.out ∧ t.rd .CXP_PRX_STAT_ST n = 1 ∧
        KeepsFields s t [(.CXP_PRX_ADDR, n), (.CXP_PRX_CMD_LEN, n), (.CXP_PRX_STAT_ST, n)] ∧
        t.rest = { s.rest with links := t.links }) ∧
    (proxyLenOk len = true → data.length = len → (s.link n).requests = q :: rest →
      Completes (.proxyWrite n .host addr len data) s fun t =>
        t.link n = { s.link n with requests := (q :: rest) ++
          [{ source := .host, write := true, addr := addr, len := len, data := data }] } ∧
        t.rd .CXP_PRX_STAT_ST n = 1 ∧ t.barBytes (proxyWindow n) len = data ∧
        KeepsFields s t [(.CXP_PRX_ADDR, n), (.CXP_PRX_CMD_LEN, n), (.CXP_PRX_STAT_ST, n)] ∧
        t.rest = { s.rest with links := t.links, bar := t.bar }) ∧
    (proxyLenOk len = false → fitsU 16 len = true →
      Completes (.proxyRead n .host addr len) s fun t =>
        t.links = s.links ∧ t.rd .CXP_PRX_STAT_ST n = 5 ∧
        KeepsFields s t [(.CXP_PRX_ADDR, n), (.CXP_PRX_CMD_LEN, n), (.CXP_PRX_STAT_ST, n)] ∧ t.rest = s.rest) ∧
    ((s.link n).requests = r :: q :: rest → r.source = .host → r.write = false → data.length = r.len → r.len ≤ 256 →
      Completes (.proxyAck n (.done data)) s fun t =>
        t.link n = { s.link n with requests := q :: rest } ∧ Out.control n q ∈ t.out ∧ t.rd .CXP_PRX_STAT_ST n = 0 ∧
        t.barBytes (proxyWindow n) r.len = data ∧ KeepsFields s t [(.CXP_PRX_STAT_ST, n)] ∧
        t.rest = { s.rest with links := t.links, bar := t.bar }) ∧
    ((s.link n).requests = r :: rest → r.source = .host →
      (Completes (.proxyAck n (.nack code)) s fun t =>
        t.link n = { s.link n with requests := rest } ∧ t.rd .CXP_PRX_STAT_ST n = 2 ∧ t.rd .CXP_PRX_STAT_CODE n = code ∧
        KeepsFields s t [(.CXP_PRX_STAT_ST, n), (.CXP_PRX_STAT_CODE, n)] ∧ t.rest = { s.rest with links := t.links }) ∧
      Completes (.proxyTimeout n) s fun t =>
        t.link n = { s.link n with requests := rest } ∧ t.rd .CXP_PRX_STAT_ST n = 3 ∧
        KeepsFields s t [(.CXP_PRX_STAT_ST, n)] ∧ t.rest = { s.rest with links := t.links })

/-- R46, R62, R63, R65 to R67: a packet wakes its link's receive direction; an image header renews the generation; an undamaged line of a
running context joins its open block under the oldest owed stamp, aligned by the context's offset; a packet that no enabled context takes
is discarded and counted. -/
def Obligations.StreamPacketRouted : Prop :=
  ∀ (s : State) (n : Fin 24) (stream c gen last : Nat) (samples : List Nat) (b : Block) (p : Stamp) (rest : List Stamp),
    let awake (t : State) : Prop := t.link n = { s.link n with asleep := false } ∧ ∀ k : Fin 24, k ≠ n → t.link k = s.link k
    fitsU 8 stream = true → s.live = true → s.flag .CXP_LNK_CTL_EN n = true → (s.link n).out = false →
    (s.routeStream (s.rd .CXP_LNK_CTL_MASTER n) stream = none →
      Completes (.streamPacket n stream true .piece) s fun t =>
        t.flag .CXP_LNK_STAT_UNMAPPED n = true ∧ t.counter (88 + n) = wrap 64 (s.counter (88 + n) + 1) ∧
        awake t ∧ KeepsFields s t [(.CXP_LNK_STAT_UNMAPPED, n)] ∧ t.body = { s.body with links := t.links }) ∧
    (s.routeStream (s.rd .CXP_LNK_CTL_MASTER n) stream = some c → fitsU 16 gen = true →
      Completes (.streamPacket n stream true (.header gen)) s fun t =>
        t.ctx c = { s.ctx c with gen := gen, noHeader := false, odd := false } ∧
        awake t ∧ KeepsFields s t [] ∧ t.rest = { s.rest with ctxs := t.ctxs, links := t.links }) ∧
    (s.routeStream (s.rd .CXP_LNK_CTL_MASTER n) stream = some c → (samples.all (fitsU 16)) = true →
      s.rd .ITK_CTX_STAT_STATE c = 1 → s.flag .ITK_CTX_STAT_GAPOPEN c = false → (s.ctx c).stamps = p :: rest →
      s.staleStamp c p = false → (s.ctx c).last = some last → after (s.aligned c p.pos) last = true →
      (s.ctx c).block = some b → b.lines.length + 1 < setting b.cfg .ITK_CTX_CFG0_BLKLEN →
      Completes (.streamPacket n stream true (.line samples)) s fun t =>
        (t.ctx c).stamps = rest ∧ (t.ctx c).last = some (s.aligned c p.pos) ∧
        (t.ctx c).block.map (fun b => b.lines.length) = some (b.lines.length + 1) ∧
        (t.ctx c).block.map (fun b => b.lines.getLast?.map fun l => l.stamp) = some (some (s.aligned c p.pos)) ∧
        KeepsFields s t [(.ITK_CTX_STAT_STATE, c), (.ITK_PP_GEN_LAST, c), (.ITK_PP_GEN_ACTIVE, c), (.ITK_PP_GENSW_ARM, c),
          (.ITK_PP_STAT_OVERRUN, c)] ∧
        awake t ∧ t.rest = { s.rest with ctxs := t.ctxs, free := t.free, pipesOn := t.pipesOn, lineSeq := t.lineSeq, links := t.links })

/-- R72 to R74: a stop timeout of a context that owes data, a RESYNC and a damaged line break a running context: a gap opens, the
stamp queue is flushed, and the context discards all data until the next image header. R76, R77: a member of a fusion group of two that
has not answered for an interval when its wait has run out is declared absent from it, and the interval completes: its sync
counter is signalled and its absent mask shown. -/
def Obligations.ContextsBreakAndFusionDeclares : Prop :=
  ∀ (s : State) (c : Fin 64) (n : Fin 24) (stream : Nat) (f : Fin 16) (r m : Nat) (v : FusInterval),
    (s.rd .ITK_CTX_STAT_STATE c = 1 →
    let broken (t : State) : Prop :=
      t.rd .ITK_CTX_STAT_STATE c = 2 ∧ t.flag .ITK_CTX_STAT_GAPOPEN c = true ∧ t.rd .ITK_CTX_GAP_START c = wrap 64 (s.owedStart c) ∧
      t.rd .ITK_CTX_GAP_END c = 2 ^ 64 - 1 ∧ (t.ctx c).stamps = [] ∧ (t.ctx c).noHeader = true ∧ (t.ctx c).block = none ∧
      KeepsFields s t ((.CXP_LNK_STAT_CRCERR, (n : Nat)) :: breakFields c) ∧
      t.body = { s.body with ctxs := t.ctxs, marks := t.marks, parts := t.parts, fusions := t.fusions, sync := t.sync, herd := t.herd,
                             zports := t.zports, links := t.links, mem := t.mem, ring := t.ring, capUsed := t.capUsed, free := t.free }
    (s.owes c = true → Completes (.stopTimeout c) s broken) ∧
    (s.owes c = false → Completes (.stopTimeout c) s fun t => KeepsFields s t [] ∧ t.rest = s.rest) ∧
    Completes (.ctxResync c) s broken ∧
    (fitsU 8 stream = true → s.live = true → s.flag .CXP_LNK_CTL_EN n = true → (s.link n).out = false →
      s.routeStream (s.rd .CXP_LNK_CTL_MASTER n) stream = some (c : Nat) →
      Completes (.streamPacket n stream false (.line [])) s fun t => broken t ∧ t.flag .CXP_LNK_STAT_CRCERR n = true)) ∧
    ((s.fusion f).intervals = [v] → (s.fusion f).delivered = [] → v.members = [r, m] → v.absent = 0 → after v.fin v.start = true →
      atOrAfter s.lmPos (moveBy (wrap 64 (v.fin + cts v.budget)) (sgn 32 (setting (s.ctx m).cfg .ITK_CTX_OFS) * 65536)) = true →
      Completes (.fusionAbsence f 1) s fun t =>
        (t.fusion f).intervals = [] ∧ t.rd .ITK_FUS_STAT_ABSENT f = 2 ∧
        t.sc v.sc = wrap 64 (s.sc v.sc + 1) ∧
        (t.marks.any fun m => m.source == .absence f && m.start == v.start && m.fin == some v.fin && m.code == 0xE0) = true ∧
        KeepsFields s t [(.ITK_FUS_STAT_ABSENT, f)] ∧
        t.body = { s.body with fusions := t.fusions, sync := t.sync, marks := t.marks, parts := t.parts, herd := t.herd, zports := t.zports })

/-- R64, R100, R98: a commit whose staged fields pass the checks is staged, and takes effect at once in a disabled context; one that
fails them leaves the configuration and says why. Arming a bank switch replaces a pending one. -/
def Obligations.CommitsStagedOrRefused : Prop :=
  ∀ (s : State) (c : Fin 64) (gen : Nat) (bank : Bool),
    let t0 := s.staged ctxFields c
    let p0 := s.staged ppFields c
    (s.ctxCheck c t0 ≠ 0 →
      Completes (.ctxCommit c) s fun t =>
        t.flag .ITK_CTX_STAT_CMTERR c = true ∧ t.rd .ITK_CTX_STAT_ERRCODE c = s.ctxCheck c t0 ∧
        KeepsFields s t [(.ITK_CTX_STAT_CMTERR, c), (.ITK_CTX_STAT_ERRCODE, c)] ∧ t.rest = s.rest) ∧
    (s.ctxCheck c t0 = 0 → s.ctxEnabled c = false → setting t0 .ITK_CTX_CFG1_EN = 1 →
      Completes (.ctxCommit c) s fun t =>
        (t.ctx c).cfg = t0 ∧ (t.ctx c).nextCfg = none ∧ t.rd .ITK_CTX_STAT_STATE c = 1 ∧ t.flag .ITK_CTX_STAT_PEND c = false ∧
        (t.ctx c).stamps = [] ∧
        KeepsFields s t [(.ITK_CTX_STAT_STATE, c), (.ITK_CTX_STAT_PEND, c), (.ITK_PP_HALO_VABOVE, c), (.ITK_PP_HALO_VBELOW, c), (.ITK_PP_NEED, c)] ∧
        t.rest = { s.rest with ctxs := t.ctxs }) ∧
    (s.ctxCheck c t0 = 0 → s.ctxEnabled c = true →
      Completes (.ctxCommit c) s fun t =>
        t.ctx c = { s.ctx c with nextCfg := some t0 } ∧ t.flag .ITK_CTX_STAT_PEND c = true ∧
        KeepsFields s t [(.ITK_CTX_STAT_PEND, c), (.ITK_PP_HALO_VABOVE, c), (.ITK_PP_HALO_VBELOW, c), (.ITK_PP_NEED, c)] ∧
        t.rest = { s.rest with ctxs := t.ctxs }) ∧
    (s.ppCheck (s.ctx c).committed p0 ≠ 0 →
      Completes (.ppCommit c) s fun t =>
        t.flag .ITK_PP_STAT_CMTERR c = true ∧ t.rd .ITK_PP_STAT_ERR c = s.ppCheck (s.ctx c).committed p0 ∧
        KeepsFields s t [(.ITK_PP_STAT_CMTERR, c), (.ITK_PP_STAT_ERR, c)] ∧ t.rest = s.rest) ∧
    (s.ppCheck (s.ctx c).committed p0 = 0 →
      Completes (.ppCommit c) s fun t =>
        (if s.ctxEnabled c then (t.ctx c).nextPp = some p0 ∧ t.flag .ITK_PP_STAT_PEND c = true
          else (t.ctx c).pp = p0 ∧ t.flag .ITK_PP_STAT_PEND c = false) ∧
        KeepsFields s t [(.ITK_PP_HALO_VABOVE, c), (.ITK_PP_HALO_VBELOW, c), (.ITK_PP_NEED, c), (.ITK_PP_STAT_PEND, c)] ∧
        t.rest = { s.rest with ctxs := t.ctxs }) ∧
    (fitsU 16 gen = true →
      Completes (.bankSwitchArm c gen bank) s fun t =>
        t.rd .ITK_PP_GENSW_GEN c = gen ∧ t.flag .ITK_PP_GENSW_BANK c = bank ∧ t.flag .ITK_PP_GENSW_ARM c = true ∧
        KeepsFields s t [(.ITK_PP_GENSW_GEN, c), (.ITK_PP_GENSW_BANK, c), (.ITK_PP_GENSW_ARM, c)] ∧ t.rest = s.rest)

/-- R81, R82, R94: a free pipe takes the ready slot chosen by R82, counts it and reads busy; when the slot is complete the pipe is
free again and its lines are done for that stripe. -/
def Obligations.PipesTakeAndFinishSlots : Prop :=
  ∀ (s : State) (p : Fin 5) (r : ReadySlot) (x : PipeSlot) (b : Block),
    (s.pipeFree p = true → s.choice p = some r →
      Completes (.slotDispatch p) s fun t =>
        t.flag .ITK_PIPE_STAT_BUSY p = true ∧ t.rd .ITK_PIPE_STAT_CTX p = wrap 6 r.ctx ∧
        t.rd .ITK_PIPE_SWCNT p = wrap 32 (s.rd .ITK_PIPE_SWCNT p + 1) ∧
        (tabFind? t.pipes p).map (fun y => (y.ctx, y.seq, y.stripe, y.e)) = some (r.ctx, r.block.seq, r.stripe, r.e) ∧
        KeepsFields s t [(.ITK_PIPE_STAT_BUSY, p), (.ITK_PIPE_STAT_CTX, p), (.ITK_PIPE_SWCNT, p)] ∧
        t.rest = { s.rest with pipes := t.pipes, ctxs := t.ctxs }) ∧
    (s.pipeFree p = true → s.choice p = none →
      Completes (.slotDispatch p) s fun t => KeepsFields s t [] ∧ t.rest = s.rest) ∧
    (tabFind? s.pipes p = some x → (s.ctx x.ctx).work.find? (fun b => b.seq == x.seq) = some b → x.staged b = true →
      Completes (.slotComplete p false) s fun t =>
        t.flag .ITK_PIPE_STAT_BUSY p = false ∧ (bit s.pipesOn p = true → t.pipeFree p = true) ∧
        ((s.ctx x.ctx).closing = [] →
          t.rd .ITK_PIPE_OVH p = wrap 64 (s.rd .ITK_PIPE_OVH p + b.overhead x.stripe (x.last b - x.a)) ∧
          KeepsFields s t [(.ITK_PIPE_STAT_BUSY, p), (.ITK_PIPE_OVH, p)] ∧
          t.rest = { s.rest with pipes := t.pipes, ctxs := t.ctxs, mem := t.mem, free := t.free }))

/-- R104, R107, R108, R110: a matrix instruction over signed INT8 operands that starts an accumulation leaves in every cell of the
output tile the exact sum of the products of its row of A and its column of B. One whose reduction length is 0 is an instruction
error of code 1 and computes nothing. -/
def Obligations.MatrixTileSumsExactly : Prop :=
  ∀ (s : State) (n : Fin 16) (op : MatrixOp) (i : Fin 128) (j : Fin 64), op.fa = .int8 → op.fb = .int8 →
    (matrixError op 0 = 0 → op.first = true → op.last = false → op.signedA = true → op.signedB = true →
      Completes (.matrixInstruction n op) s fun t =>
        ((t.churn n).cell (64 * i + j) .exact).acc =
          ((upTo op.k).map fun x => sgn 8 (s.lsElem n (op.aBase + i * op.aPitch) 8 x) * sgn 8 (s.lsElem n (op.bBase + j * op.bPitch) 8 x)).sum ∧
        (t.churn n).reduced = op.k ∧ (t.churn n).rf = (s.churn n).rf ∧ (t.churn n).latch = (s.churn n).latch ∧
        KeepsFields s t [] ∧ t.rest = { s.rest with churns := t.churns, jobs := t.jobs }) ∧
    (op.k = 0 → op.first = true → s.resident n = none →
      Completes (.matrixInstruction n op) s fun t =>
        t.rd .CHN_ERR_CODE n = 1 ∧ t.flag .CHN_EXC_KLIM n = true ∧
        KeepsFields s t [(.CHN_ERR_CODE, n), (.CHN_ERR_COUNT, n), (.CHN_EXC_KLIM, n)] ∧ t.rest = s.rest)

/-- R120 to R123, R122: a vector instruction acts on the gang's lanes that take part. An integer addition leaves its sum modulo 2^32 in the
destination of each such lane and no other register changed; a store writes the lane's four bytes and no other byte. A
gang that arrives at its group's barrier waits there, and runs no instruction, until every gang of the group has arrived; then all of
them leave it. R303: an augmentation whose operation list holds a code that no operation has is an instruction error of code 7. -/
def Obligations.VectorLanesAndBarriers : Prop :=
  ∀ (s : State) (n : Fin 16) (op : VectorOp) (l : Fin 64) (key : Nat) (g : GangAt) (a : AugOp),
    let regs := s.regsOn n op
    ((Instr.vectorInstruction n op).wf = true → s.gangReady n op = true → s.vectorError n op = 0 →
      (op.op = .iadd →
        Completes (.vectorInstruction n op) s fun t =>
          let at_ := fun r => regKey l op.gang regs r
          ((l : Nat) ∈ s.activeLanes n op →
            (t.churn n).reg (at_ op.d) = wrap 32 ((s.churn n).reg (at_ op.a) + (s.churn n).reg (at_ op.b))) ∧
          ((∀ k ∈ s.activeLanes n op, key ≠ regKey k op.gang regs op.d) → (t.churn n).reg key = (s.churn n).reg key) ∧
          KeepsFields s t [] ∧ t.rest = { s.rest with churns := t.churns, jobs := t.jobs }) ∧
      (op.op = .store → s.activeLanes n op = [(l : Nat)] →
        Completes (.vectorInstruction n op) s fun t =>
          let a := lsOf n + laneAddr (s.churn n) op regs l
          t.leRead a 4 = wrap 32 ((s.churn n).reg (regKey l op.gang regs op.b)) ∧ KeepsBytes s t a 4 ∧ t.churn n = s.churn n ∧
          KeepsFields s t [] ∧ t.rest = { s.rest with mem := t.mem, churns := t.churns, jobs := t.jobs }) ∧
      (op.op = .augment a → s.augError n a = 7 → s.resident n = none →
        Completes (.vectorInstruction n op) s fun t =>
          t.rd .CHN_ERR_CODE n = 7 ∧ KeepsFields s t [(.CHN_ERR_CODE, n), (.CHN_ERR_COUNT, n)] ∧ t.rest = s.rest)) ∧
    ((s.churn n).barrier.contains op.gang = true →
      Completes (.vectorInstruction n op) s fun t => KeepsFields s t [] ∧ t.rest = s.rest) ∧
    (g.gang < 256 →
      let group := s.groupOn n g.gang g.thread
      Completes (.groupBarrier n g) s fun t =>
        (if group.all (fun k => k == g.gang || (s.churn n).barrier.contains k) then
            (t.churn n).barrier.all (fun k => !group.contains k) = true
          else (t.churn n).barrier.contains g.gang = true) ∧
        (∀ k ∈ (s.churn n).barrier, k ∉ group → k ∈ (t.churn n).barrier) ∧
        KeepsFields s t [] ∧ t.rest = { s.rest with churns := t.churns })

/-- R117 to R119: a conversion stores every element's narrowed code, in ascending order, in local store and changes no other byte;
a quantisation stores the shared scale and the 32 elements of its block. -/
def Obligations.ConversionsStoreTheirElements : Prop :=
  ∀ (s : State) (n : Fin 16) (c : ConvertOp) (m : MxOp) (i : Nat),
    (c.src + elemBytes (if c.wide then 64 else 32) c.n ≤ lsSize → c.dst + elemBytes (cvtBits c.target) c.n ≤ lsSize → i < c.n →
      Completes (.convertInstruction n c) s fun t =>
        t.lsElem n c.dst (cvtBits c.target) i = wrap (cvtBits c.target) ((s.converted n c).getD i (0, 0)).1 ∧
        KeepsBytes s t (lsOf n + c.dst) (elemBytes (cvtBits c.target) c.n) ∧ KeepsFields s t (excAt n) ∧
        t.rest = { s.rest with mem := t.mem, jobs := t.jobs }) ∧
    (opMx m.fmt = true → m.src + 128 ≤ lsSize → m.dst + elemBytes (opBits m.fmt) 32 ≤ m.scale → m.scale < lsSize →
      Completes (.mxQuantise n m) s fun t =>
        let x := mxScale m.fmt ((upTo 32).map fun k => fFp32.decode (s.lsElem n m.src 32 k))
        t.byteAt (lsOf n + m.scale) = BitVec.ofNat 8 x ∧
        (i < 32 → t.lsElem n m.dst (opBits m.fmt) i = wrap (opBits m.fmt)
          (mxElem m.fmt m.mode (rsOf (s.seedOf n) m.thread m.addr i) (scaled (fFp32.decode (s.lsElem n m.src 32 i)) (127 - (x : Int)))).1) ∧
        KeepsBytes s t (lsOf n + m.dst) (m.scale - m.dst + 1) ∧ KeepsFields s t (excAt n) ∧
        t.rest = { s.rest with mem := t.mem, jobs := t.jobs })

/-- R124: a radix-2 butterfly stores the sum and the difference of its first value and its second times the twiddle; a radix-4
butterfly stores four results; neither changes another byte. A size that is not 4^n or 2 × 4^n is an instruction error of code 6. -/
def Obligations.ButterfliesStoreTheirResults : Prop :=
  ∀ (s : State) (n : Fin 16) (op : BflyOp),
    let f := bflyFmt op.wide
    let b := f.w / 8
    let x := s.bflyIn n op
    let w := s.twiddle n op
    let place := fun q => lsOf n + bflyTo op q
    (op.reverse = false → ∀ q : Fin 4, bflyFrom op q = op.src + (op.index + q * op.stride) * (2 * b)) ∧
    (1 ≤ op.stride → bflyError op 2 1 = 0 →
      Completes (.bfly2 n op) s fun t =>
        let p := (x 1).mul f (w 0)
        t.leRead (place 0) b = wrap f.w (Cplx.add f (x 0) p).re ∧ t.leRead (place 0 + b) b = wrap f.w (Cplx.add f (x 0) p).im ∧
        t.leRead (place 1) b = wrap f.w (Cplx.add f (x 0) (p.opp f)).re ∧
        t.leRead (place 1 + b) b = wrap f.w (Cplx.add f (x 0) (p.opp f)).im ∧
        KeepsBytes s t (place 0) ((op.stride + 1) * (2 * b)) ∧ KeepsFields s t (excAt n) ∧
        t.rest = { s.rest with mem := t.mem, jobs := t.jobs }) ∧
    (1 ≤ op.stride → bflyError op 4 3 = 0 →
      Completes (.bfly4 n op) s fun t =>
        let t1 := (x 1).mul f (w 0)
        let t2 := (x 2).mul f (w 1)
        let t3 := (x 3).mul f (w 2)
        t.leRead (place 0) b = wrap f.w (Cplx.add f (Cplx.add f (x 0) t2) (Cplx.add f t1 t3)).re ∧
        t.leRead (place 1) b = wrap f.w (Cplx.add f (Cplx.add f (x 0) (t2.opp f)) ((Cplx.add f t1 (t3.opp f)).turn f)).re ∧
        t.leRead (place 2 + b) b = wrap f.w (Cplx.add f (Cplx.add f (x 0) t2) ((Cplx.add f t1 t3).opp f)).im ∧
        t.leRead (place 3) b = wrap f.w (Cplx.add f (Cplx.add f (x 0) (t2.opp f)) (((Cplx.add f t1 (t3.opp f)).turn f).opp f)).re ∧
        KeepsBytes s t (place 0) ((3 * op.stride + 1) * (2 * b)) ∧ KeepsFields s t (excAt n) ∧
        t.rest = { s.rest with mem := t.mem, jobs := t.jobs }) ∧
    (s.resident n = none →
      (bflyError op 2 1 = 6 →
        Completes (.bfly2 n op) s fun t =>
          t.rd .CHN_ERR_CODE n = 6 ∧ KeepsFields s t [(.CHN_ERR_CODE, n), (.CHN_ERR_COUNT, n)] ∧ t.rest = s.rest) ∧
      (bflyError op 4 3 = 6 →
        Completes (.bfly4 n op) s fun t =>
          t.rd .CHN_ERR_CODE n = 6 ∧ KeepsFields s t [(.CHN_ERR_CODE, n), (.CHN_ERR_COUNT, n)] ∧ t.rest = s.rest))

/-- R141, R148, R117 to R119: a convolution or a pooling writes each output of its range to the output map in local store, converted to the
map's format, an MX map's scale with it, and nothing else; a convolution leaves its tile in the cells. Its window error is an
instruction error of code 4 and writes nothing. -/
def Obligations.WindowInstructionsWriteOutputs : Prop :=
  ∀ (s : State) (n : Fin 16) (op : WindowOp) (f : OpFmt × OpFmt × PairKind), op.src.wf = true → op.dst.wf = true → op.wmap.wf = true →
    op.c1 = op.c0 + 1 → op.y1 = op.y0 + 1 → op.x1 = op.x0 + 1 → op.c0 < op.dst.c → op.y0 < op.dst.h → op.x0 < op.dst.w →
    let w := fmtBits op.dst.fmt
    let g := (mapFmt op.dst.fmt).getD .mxInt8
    let rs := (s.sinkOf n op).rs op.c0 op.y0 op.x0
    let place := lsOf n + rowBase op.dst op.c0 op.y0 + op.x0 * w / 8
    let scale := lsOf n + op.dst.expBase + op.c0 / 32 * op.dst.sPlanePitch + storedRow op.dst op.y0 * ((op.dst.w + 127) / 128 * 128) + op.x0
    let stored (t : State) (v : FVal) : Prop :=
      (fmtMx op.dst.fmt = false → t.mapElem n op.dst op.c0 op.y0 op.x0 = wrap w (toMapFmt op.dst.fmt op.signedD op.mode rs v).1) ∧
      (fmtMx op.dst.fmt = true →
        t.mapElem n op.dst op.c0 op.y0 op.x0 = wrap w (mxElem g op.mode rs (scaled v (127 - (mxScale g [v] : Int)))).1 ∧
        (scale < place ∨ place + max 1 (w / 8) ≤ scale → t.byteAt scale = BitVec.ofNat 8 (mxScale g [v]))) ∧
      (∀ k, k < place ∨ place + max 1 (w / 8) ≤ k → (fmtMx op.dst.fmt = false ∨ k ≠ scale) → t.byteAt k = s.byteAt k)
    (convError op = 0 → windowPair op = some f →
      Completes (.convolution n op) s fun t =>
        stored t (s.convVal n op f op.c0 op.y0 op.x0) ∧ (t.churn n).reduced = windowK op ∧
        (tabFind? (t.churn n).latch 0).getD 0 = wrap 32 (windowReadout op f (s.convCell n op f op.c0 op.y0 op.x0)).1 ∧
        KeepsFields s t (excAt n) ∧ t.rest = { s.rest with mem := t.mem, jobs := t.jobs, churns := t.churns }) ∧
    (poolError op = 0 →
      Completes (.pooling n op) s fun t =>
        stored t (s.poolOut n op op.c0 op.y0 op.x0).1 ∧
        KeepsFields s t (excAt n) ∧ t.rest = { s.rest with mem := t.mem, jobs := t.jobs }) ∧
    (s.resident n = none →
      (convError op = 4 →
        Completes (.convolution n op) s fun t =>
          t.rd .CHN_ERR_CODE n = 4 ∧ KeepsFields s t [(.CHN_ERR_CODE, n), (.CHN_ERR_COUNT, n)] ∧ t.rest = s.rest) ∧
      (poolError op = 4 →
        Completes (.pooling n op) s fun t =>
          t.rd .CHN_ERR_CODE n = 4 ∧ KeepsFields s t [(.CHN_ERR_CODE, n), (.CHN_ERR_COUNT, n)] ∧ t.rest = s.rest))

/-- R133 to R137, R160, R163, R164: a DMA read of a row of a planar map puts each element of the row in local store, and the scales of an MX
row; a DMA write puts the row where its address translates to, in the address space of the job whose context the Churn holds. A row
outside local store is an instruction error of code 3 and moves nothing. -/
def Obligations.DmaMovesARow : Prop :=
  ∀ (s : State) (n : Fin 16) (op : DmaOp) (host : Bool) (a k b m x : Nat), (Instr.dmaTransfer n op .clean).wf = true →
    mapError op.map = 0 →
    (op.ls + dmaRow op ≤ lsSize → (fmtMx op.map.fmt = true → op.lsScale + sideBytes op.map ≤ lsSize) → op.map.layout = 0 → op.map.skim = 0 →
      let found (acc : Nat) := s.translateAll (some n) (s.asidOn n) acc op.walkError (dmaSpans op)
      (op.toMem = false → found 0 = .ok [(false, a, k)] → s.reachable (some n) (false, a, k) = true → x < op.map.w →
        fmtMx op.map.fmt = false →
        Completes (.dmaTransfer n op .clean) s fun t =>
          t.lsElem n op.ls (fmtBits op.map.fmt) x = wrap (fmtBits op.map.fmt) ((dmaDecode op (s.bytesAt a k)).getD x 0) ∧
          KeepsBytes s t (lsOf n + op.ls) (dmaRow op) ∧ KeepsFields s t [] ∧ t.rest = { s.rest with mem := t.mem, tlb := t.tlb }) ∧
      (op.toMem = false → found 0 = .ok [(false, a, k), (false, b, m)] → s.reachable (some n) (false, a, k) = true →
        s.reachable (some n) (false, b, m) = true → k = dmaRow op → fmtMx op.map.fmt = true → op.ls + dmaRow op ≤ op.lsScale →
        Completes (.dmaTransfer n op .clean) s fun t =>
          t.bytesAt (lsOf n + op.lsScale) m = s.bytesAt b m ∧
          KeepsBytes s t (lsOf n + op.ls) (op.lsScale + m - op.ls) ∧ KeepsFields s t [] ∧
          t.rest = { s.rest with mem := t.mem, tlb := t.tlb }) ∧
      (op.toMem = true → found 1 = .ok [(host, a, k)] → s.reachable (some n) (host, a, k) = true → host = false →
        fmtBits op.map.fmt ≠ 4 → fmtMx op.map.fmt = false →
        Completes (.dmaTransfer n op .clean) s fun t =>
          t.bytesAt a k = ((s.lsRow n op).flatMap fun c => leBytes c (fmtBits op.map.fmt / 8)).take k ∧
          KeepsBytes s t a k ∧ KeepsFields s t [] ∧ t.rest = { s.rest with mem := t.mem, tlb := t.tlb })) ∧
    (lsSize < op.ls + dmaRow op → s.resident n = none →
      Completes (.dmaTransfer n op .clean) s fun t =>
        t.rd .CHN_ERR_CODE n = 3 ∧ KeepsFields s t [(.CHN_ERR_CODE, n), (.CHN_ERR_COUNT, n)] ∧ t.rest = s.rest)

/-- R172 to R178: a resend is counted; a block that fails after its fourth resend is an uncorrectable error, which is kept and
recorded; scrub, while its activity runs or may start, reads the next line and counts what it corrects, and while it is queued reads none;
a refresh changes nothing. -/
def Obligations.MemoryErrorsCounted : Prop :=
  ∀ (s : State) (src a attempt bank : Nat) (channel : Fin 16) (l : Bool), src < 32 → a < 2 ^ 37 →
    (1 ≤ attempt → attempt ≤ 4 →
      Completes (.blockCrcResend src a attempt) s fun t =>
        t.flag .MEM_ECC_STAT_RESEND = true ∧ t.rd .MEM_RESEND_CNT = wrap 32 (satAdd 32 (s.rd .MEM_RESEND_CNT) 1) ∧
        KeepsFields s t [(.MEM_ECC_STAT_RESEND, 0), (.MEM_RESEND_CNT, 0), (.GLB_DET_STAT_FIXDIST, 0)] ∧
        t.rest = { s.rest with od := t.od, runHit := s.runHit || s.flag .GLB_MODE_FIXED }) ∧
    (4 < attempt → 19 ≤ src →
      Completes (.blockCrcResend src a attempt) s fun t =>
        t.rd .MEM_UE_ADDR = a ∧ t.rd .MEM_UE_SRC = src ∧ t.flag .MEM_ECC_STAT_CRCUE = true ∧
        KeepsFields s t ([(.MEM_UE_ADDR, 0), (.MEM_UE_SRC, 0), (.MEM_ECC_STAT_CRCUE, 0)] ++ logFields) ∧ t.body = s.body) ∧
    (s.rd .MEM_SCRUB ≠ 0 → s.flag .GLB_MODE_FIXED = false → s.mntPower .S = true → s.mntSt .S ≠ 1 →
      Completes (.scrubAccess (.corrected l)) s fun t =>
        t.scrubLine = (s.scrubLine + 1) % 3145728 ∧ t.mntSt .S = 2 ∧ t.flag .MEM_ECC_STAT_VCE = true ∧
        t.rd .MEM_VCE_CNT = satSucc 32 (s.rd .MEM_VCE_CNT) ∧
        KeepsFields s t [(.MEM_ECC_STAT_VCE, 0), (.MEM_VCE_CNT, 0), (.MLK_MNT_ST, activityNo .S)] ∧
        t.rest = { s.rest with scrubLine := t.scrubLine }) ∧
    (s.mntSt .S = 1 → Completes (.scrubAccess (.corrected l)) s fun t => KeepsFields s t [] ∧ t.rest = s.rest) ∧
    (s.rd .MEM_SCRUB = 0 → Completes (.scrubAccess .clean) s fun t => KeepsFields s t [] ∧ t.rest = s.rest) ∧
    Completes (.lpddrRefresh channel bank) s fun t => KeepsFields s t [] ∧ t.rest = s.rest

/-- R166, R167, R157, R174: an invalidation of scope 0 to 2 clears `DONE` until it completes, and then no cache holds a translation that
it names, while every other stays; a pop removes the oldest fault record, and
a record that was kept with a saved context for want of room then joins the queue. Through BAR2 the host reads and writes the bytes
of Vat; above Vat it reads zero; an access that meets an uncorrectable error reads all ones. -/
def Obligations.InvalidationFaultQueueAndAperture : Prop :=
  ∀ (s : State) (asid : Fin 16) (scope : Fin 3) (r e : List Byte) (l : List (List Byte)) (v : Saved) (ofs n : Nat) (bs : List Byte)
    (x : Cached),
    (Completes (.mmuInvalidate scope asid) s fun t =>
      t.flag .MMU_INV_STAT_DONE = false ∧ t.rd .MMU_INV_CMD_SCOPE = scope ∧ t.rd .MMU_INV_CMD_ASID = asid ∧
      KeepsFields s t [(.MMU_INV_STAT_DONE, 0), (.MMU_INV_CMD_SCOPE, 0), (.MMU_INV_CMD_ASID, 0)] ∧
      t.rest = { s.rest with invals := s.invals ++ [((scope : Nat), (asid : Nat), s.rd .MMU_INV_ADDR)] }) ∧
    (Completes .invalidateDone s fun t =>
      t.flag .MMU_INV_STAT_DONE = true ∧ (x ∈ t.tlb ↔ x ∈ s.tlb ∧ ∀ i ∈ s.invals, x.hit i = false) ∧
      KeepsFields s t [(.MMU_INV_STAT_DONE, 0)] ∧ t.rest = { s.rest with tlb := t.tlb, invals := [] }) ∧
    (s.faultq = [] → Completes .faultqPop s fun t => KeepsFields s t [] ∧ t.rest = s.rest) ∧
    (s.faultq = r :: l →
      Completes .faultqPop s fun t =>
        l <+: t.faultq ∧ t.faultq.length ≤ s.faultq.length ∧
        (tabFind? s.saves 0 = some v → v.record = some e → t.faultq = l ++ [e]) ∧
        KeepsFields s t [] ∧ t.rest = { s.rest with faultq := t.faultq, saves := t.saves }) ∧
    (s.pcieUp = true →
      (ofs + n ≤ vatSize →
        Completes (.hostApertureAccess true ofs none n .clean) s fun t =>
          Out.barRead (s.bytesAt ofs n) ∈ t.out ∧ KeepsFields s t [] ∧ t.rest = s.rest) ∧
      (ofs + bs.length ≤ vatSize →
        Completes (.hostApertureAccess true ofs (some bs) bs.length .clean) s fun t =>
          t.bytesAt ofs bs.length = bs ∧ KeepsBytes s t ofs bs.length ∧ KeepsFields s t [] ∧ t.rest = { s.rest with mem := t.mem }) ∧
      (vatSize ≤ ofs → ofs + n ≤ 2 ^ 29 →
        Completes (.hostApertureAccess true ofs none n .clean) s fun t =>
          Out.barRead (List.replicate n 0) ∈ t.out ∧ KeepsFields s t [] ∧ t.rest = s.rest) ∧
      (ofs + n ≤ 2 ^ 29 → ofs < vatSize →
        Completes (.hostApertureAccess true ofs none n (.uncorrectable true)) s fun t =>
          Out.barRead (List.replicate n 0xFF) ∈ t.out ∧ t.rd .MEM_UE_ADDR = ofs ∧ t.rd .MEM_UE_SRC = 19 ∧
          t.flag .MEM_ECC_STAT_VUE = true ∧
          KeepsFields s t ([(.MEM_UE_ADDR, 0), (.MEM_UE_SRC, 0), (.MEM_ECC_STAT_VUE, 0), (.MEM_VUE_CNT, 0), (.MEM_ECC_STAT_CRCUE, 0)] ++
            logFields) ∧ t.body = s.body))

/-- R129, R208: an idle Churn gates its clock and its power, and loses its store, registers and array with its power; a Churn that
has powered up runs. A block reset holds the Churn behind its isolation wrapper with its registers at their reset values, keeps it for no
piece, and completes the entry into fixed-schedule mode where it was the last that did not run (R219). -/
def Obligations.ChurnPowerAndReset : Prop :=
  ∀ (s : State) (n : Fin 16) (cause : ChurnFault) (r : Resident) (k : Nat),
    (s.resident n = none → s.flag .CHN_STAT_ISO n = false → s.flag .GLB_MODE_FIXED = false → s.fixing = false →
      (s.rd .CHN_STAT_PWR n = 3 → s.flag .CHN_PWRCTL_NOCG n = false →
        Completes (.churnClockGate n) s fun t =>
          t.rd .CHN_STAT_PWR n = 2 ∧ KeepsFields s t [(.CHN_STAT_PWR, n)] ∧ t.rest = s.rest) ∧
      (2 ≤ s.rd .CHN_STAT_PWR n → s.flag .CHN_PWRCTL_NOPG n = false →
        Completes (.churnPowerGate n) s fun t =>
          t.rd .CHN_STAT_PWR n = 0 ∧ t.churn n = {} ∧ (k < lsSize → t.byteAt (lsOf n + k) = 0) ∧ KeepsBytes s t (lsOf n) lsSize ∧
          KeepsFields s t [(.CHN_STAT_PWR, n)] ∧
          t.rest = { s.rest with mem := t.mem, churns := t.churns, tlb := s.tlb.filter fun e => e.chn != some (n : Nat) })) ∧
    (s.rd .CHN_STAT_PWR n = 1 → s.fixing = false →
      Completes (.churnPowerUpDone n) s fun t =>
        t.rd .CHN_STAT_PWR n = 3 ∧ KeepsFields s t [(.CHN_STAT_PWR, n)] ∧ t.rest = s.rest) ∧
    (s.resident n = none → Completes (.sequencerHang n) s fun t => KeepsFields s t [] ∧ t.rest = s.rest) ∧
    (s.resident n = some r →
      Completes (.sequencerHang n) s fun t => t.flag .CHN_STAT_ISO n = true ∧ t.resident n = none ∧ t.flag .CHN_STAT_BUSY n = false) ∧
    (s.resident n = none →
      Completes (.churnBlockReset n cause) s fun t =>
        t.flag .CHN_STAT_ISO n = true ∧ (∀ f ∈ chnBlockFields, t.rd f n = f.resetAt n) ∧
        (∀ j ∈ t.jobs, ∀ p ∈ j.pieces, p.target ≠ some (n : Nat)) ∧
        (s.fixing = true → (∀ m : Fin 16, m ≠ n → s.flag .CHN_STAT_ISO m = true ∨ s.rd .CHN_STAT_PWR m = 3) →
          t.flag .GLB_MODE_FIXED = true ∧ t.fixing = false) ∧
        (s.fixing = false → (∀ j ∈ s.jobs, ∀ p ∈ j.pieces, p.failed = false ∧ p.target ≠ some (n : Nat)) →
          t.churn n = {} ∧ (k < lsSize → t.byteAt (lsOf n + k) = 0) ∧ KeepsBytes s t (lsOf n) lsSize ∧
          KeepsFields s t ((.CHN_STAT_ISO, (n : Nat)) :: (.GLB_DET_STAT_FIXDIST, 0) :: logFields ++
            chnBlockFields.map fun f => (f, (n : Nat))) ∧
          t.body = { s.body with mem := t.mem, churns := t.churns, od := t.od, runHit := s.runHit || s.flag .GLB_MODE_FIXED,
                                 tlb := s.tlb.filter fun e => e.chn != some (n : Nat) }))

/-- R188, R186, R210: a queue's tail is written by its owner alone; an admission takes the entry at the head of the next queue, and
the job that its descriptor and commands spell enters the job table last; a descriptor or a command that the checks refuse enters no
job; a full job table admits nothing. The standing jobs that firmware has posted come before the entries of queue 8 (R189). -/
def Obligations.JobsAdmittedInTurn : Prop :=
  ∀ (s : State) (q : Fin 9) (src : Source) (tail : Nat) (e d : List Byte) (cmds : List Command) (x : Nat × Nat × Nat) (y : Nat × Nat)
    (l : List (Nat × Nat)), tail < 65536 →
    ((src = .host ↔ (q : Nat) < 8) →
      Completes (.queueTailWrite src q tail) s fun t =>
        t.rd .JOB_Q_TAIL q = tail ∧ KeepsFields s t [(.JOB_Q_TAIL, q)] ∧ t.rest = s.rest) ∧
    ((src = .host ↔ 8 ≤ (q : Nat)) →
      Completes (.queueTailWrite src q tail) s fun t =>
        t.flag .GLB_ERR_STAT_OWNERR = true ∧ t.rd .GLB_OWNERR_CNT = satSucc 32 (s.rd .GLB_OWNERR_CNT) ∧
        KeepsFields s t [(.GLB_ERR_STAT_OWNERR, 0), (.GLB_OWNERR_CNT, 0)] ∧ t.rest = s.rest) ∧
    (256 ≤ s.jobs.length ∨ s.nextQueue = none → Completes .jobAdmit s fun t => KeepsFields s t [] ∧ t.rest = s.rest) ∧
    (s.live = true → s.fixing = false → s.jobs.length < 256 → s.nextQueue = some (q : Nat) →
      let u : Dev := { s.countMod .JOB_Q_HEAD q with lastQueue := q }
      let asid := s.rd .JOB_Q_CTL_ASID q
      let place := s.rd .JOB_Q_BASE_ADDR q * 8 + 8 * (s.rd .JOB_Q_HEAD q % 2 ^ s.rd .JOB_Q_CTL_LOG2 q)
      let taken (w : Dev) (va : Nat) : Prop :=
        let read := w.readCommands (bit (leAt d 4 1) 0) (bits (leAt d 5 1) 0 4) (leAt d 16 2) 0 (leAt d 8 8)
        w.vread none asid va 64 = .ok d →
        (w.descriptorCode d = 0 → read = .ok cmds →
          Completes .jobAdmit s fun t =>
            t.jobs = s.jobs ++ [w.jobOf q d cmds] ∧ t.rd .JOB_Q_HEAD q = wrap 16 (s.rd .JOB_Q_HEAD q + 1) ∧
            KeepsFields s t [(.JOB_Q_HEAD, q), (.OBS_TRC_DROP_COUNT, 0)] ∧
            t.rest = { w.rest with jobs := t.jobs, jobSeq := s.jobSeq + 1, tlb := t.tlb, free := t.free, trace := t.trace }) ∧
        (w.descriptorCode d ≠ 0 ∨ read = .error x →
          Completes .jobAdmit s fun t =>
            t.jobs = s.jobs ∧ t.rd .JOB_Q_HEAD q = wrap 16 (s.rd .JOB_Q_HEAD q + 1) ∧
            KeepsFields s t [(.JOB_Q_HEAD, q), (.JOB_CQ_TAIL, 0), (.JOB_CQ_LOST, 0), (.JOB_CQ_STAT_OVF, 0), (.OBS_TRC_DROP_COUNT, 0)] ∧
            t.rest = { w.rest with mem := t.mem, od := t.od, tlb := t.tlb, free := t.free, trace := t.trace })
      ((q : Nat) ≠ 8 ∨ s.posted = [] → u.vread none asid place 8 = .ok e → taken (u.touch none asid 0 place 8) (ofLe e)) ∧
      ((q : Nat) = 8 → s.posted = y :: l → taken { u with posted := l } y.1))

/-- R184, R192, R201, R187: the scheduler's own commands. SIGNAL adds to a sync counter and SCRESET zeroes it; WAIT lets the job go
on once its counter has reached `BASE` + i × `STEP`; SPAN fixes the iteration's span; an iteration that is not the last begins
the next one, and one that is the last takes the job out of the table, each after signalling the completion counter. A job that was
stopped before its first iteration ends without one. -/
def Obligations.SchedulerCommandsRun : Prop :=
  ∀ (s : State) (id k a base step m dofs : Nat) (j : Job) (x y : List Byte), s.jobById id = some j →
    let upd (f : Job → Job) : List Job := s.jobs.map fun i => if i.seq = j.seq then f i else i
    (j.cmd? = some (.signal k a) →
      Completes (.signal id) s fun t =>
        t.sc k = wrap 64 (s.sc k + a) ∧ (m ≠ k → t.sc m = s.sc m) ∧ t.jobs = upd Job.next ∧
        KeepsFields s t [] ∧ t.rest = { s.rest with sync := t.sync, jobs := t.jobs }) ∧
    (j.cmd? = some (.scReset k) →
      Completes (.scReset id) s fun t =>
        t.sc k = 0 ∧ (m ≠ k → t.sc m = s.sc m) ∧ t.jobs = upd Job.next ∧
        KeepsFields s t [] ∧ t.rest = { s.rest with sync := t.sync, jobs := t.jobs }) ∧
    (j.cmd? = some (.wait k base step) →
      (Completes (.wait id) s fun t =>
        t.jobs = (if wrap 64 (base + j.iter * step) ≤ s.sc k then upd Job.next else upd fun i => { i with begun := true }) ∧
        KeepsFields s t [] ∧ t.rest = { s.rest with jobs := t.jobs }) ∧
      (j.begun = true →
        Completes (.waitSatisfied id) s fun t =>
          t.jobs = (if wrap 64 (base + j.iter * step) ≤ s.sc k then upd Job.next else s.jobs) ∧
          KeepsFields s t [] ∧ t.rest = { s.rest with jobs := t.jobs })) ∧
    (j.cmd? = some (.span base step dofs) → s.vread none j.asid base 8 = .ok x → s.vread none j.asid step 8 = .ok y →
      Completes (.span id) s fun t =>
        t.jobs = (if j.teach then upd Job.next else upd fun i => Job.next
          { i with span := some (ofLe x, ofLe y, dofs), key := some (s.keyOf (ofLe y) dofs), ran := 0, sampledAt := s.xclk, heldFault := false }) ∧
        (j.teach = true ∨ j.heldFault = false →
          KeepsFields s t [] ∧ t.rest = { s.rest with jobs := t.jobs, free := t.free, tlb := t.tlb })) ∧
    (j.cmds.length ≤ j.pc → j.csc = some k →
      Completes (.iterationEnd id) s fun t =>
        t.sc k = wrap 64 (s.sc k + 1) ∧
        (j.last = false → j.iterRec = false →
          t.jobs = upd Job.restart ∧ KeepsFields s t [] ∧ t.rest = { s.rest with jobs := t.jobs, sync := t.sync }) ∧
        (j.last = true → j.pieces = [] →
          t.jobs = s.jobs.filter (fun i => i.seq != j.seq) ∧
          KeepsFields s t [(.JOB_CQ_TAIL, 0), (.JOB_CQ_LOST, 0), (.JOB_CQ_STAT_OVF, 0)] ∧
          t.rest = { s.rest with jobs := t.jobs, sync := t.sync, mem := t.mem })) ∧
    (j.stop = true → j.begun = false → j.pc < j.cmds.length → j.pieces = [] →
      Completes (.iterationEnd id) s fun t =>
        t.jobs = s.jobs.filter (fun i => i.seq != j.seq) ∧ t.sync = s.sync ∧
        KeepsFields s t [(.JOB_CQ_TAIL, 0), (.JOB_CQ_LOST, 0), (.JOB_CQ_STAT_OVF, 0)] ∧
        t.rest = { s.rest with jobs := t.jobs, mem := t.mem })

/-- R184, R191, R209, R249: a LAYER, a KERNEL or a VCOMMIT makes its pieces ready; a piece that a free Churn can take is dispatched to the
lowest-numbered that runs or is clock-gated, or to the one kept for it; a command whose pieces are done lets its job go on; a VCOMMIT on a
Churn delivers its records in order. -/
def Obligations.PiecesRunAndEnd : Prop :=
  ∀ (s : State) (id n a p gap regs group code args threads i k : Nat) (chn : Fin 16) (j : Job) (piece : Piece) (r : Resident)
    (b : List Byte),
    let upd (f : Job → Job) : List Job := s.jobs.map fun i => if i.seq = j.seq then f i else i
    (s.jobById id = some j → j.started = false →
      (j.cmd? = some (.layer p code args gap) →
        Completes (.layer id) s fun t => t.jobs = upd (fun i => i.start p) ∧ KeepsFields s t [] ∧ t.rest = { s.rest with jobs := t.jobs }) ∧
      (j.cmd? = some (.kernel regs group p code args threads gap) →
        Completes (.kernel id) s fun t => t.jobs = upd (fun i => i.start p) ∧ KeepsFields s t [] ∧
        t.rest = { s.rest with jobs := t.jobs }) ∧
      (j.cmd? = some (.vcommit a n) →
        Completes (.vcommit id) s fun t => t.jobs = upd (fun i => i.start 1) ∧ KeepsFields s t [] ∧
        t.rest = { s.rest with jobs := t.jobs })) ∧
    (s.jobById id = some j → s.job? j.seq = some j → j.started = true → j.split = false →
      j.pieces = (upTo p).map (fun i => { index := i, st := .done }) → j.cmd? = some (.layer p code args gap) →
      Completes (.layer id) s fun t => t.jobs = upd Job.next ∧ KeepsFields s t [] ∧ t.rest = { s.rest with jobs := t.jobs }) ∧
    (s.jobById id = some j → j.started = true → j.cmd? = some (.vcommit a n) → j.churnOf 0 = some chn → s.resident chn = some r →
      r.restoring = none → j.abort = false → s.vread (some chn) j.asid a (16 * n) = .ok b →
      Completes (.vcommit id) s fun t =>
        let u := s.deliverAll ((upTo n).map fun i => verdictOf ((b.drop (16 * i)).take 16))
        t.parts = u.parts ∧ t.fires = u.fires) ∧
    (s.live = true → s.fixing = false → s.flag .GLB_MODE_FIXED = false → s.expireCheap.recoverWork = s.toDev →
      s.nextPlacement = some ((j, i, piece), (chn : Nat)) → piece.st = .ready → s.job? j.seq = some j →
      (s.place chn j i piece).fetches chn j = true →
      Completes .pieceDispatch s fun t =>
        t.resident chn = some { job := j.seq, piece := i, kind := (j.cmd?.map Command.kind).getD 0,
                                sliceAt := s.xclk, sliceLen := s.sliceOf j.shorten, since := s.xclk } ∧
        t.rd .CHN_STAT_PWR chn = 3 ∧ t.flag .CHN_STAT_BUSY chn = true ∧ t.rd .JOB_CHN_JOB chn = wrap 32 j.id ∧
        t.flag .JOB_CHN_ST_VALID chn = true ∧ t.flag .CHN_STAT_MODE chn = j.repro.getD (s.flag .GLB_MODE_REPRO) ∧
        KeepsFields s t [(.CHN_STAT_PWR, chn), (.CHN_STAT_BUSY, chn), (.CHN_STAT_MODE, chn), (.JOB_CHN_JOB, chn), (.JOB_CHN_ST_VALID, chn),
          (.JOB_CHN_ST_KIND, chn), (.JOB_CHN_ST_PIECE, chn), (.OBS_TRC_DROP_COUNT, 0)] ∧
        t.rest = { s.rest with jobs := t.jobs, churns := t.churns, lastTeach := t.lastTeach, tlb := t.tlb, trace := t.trace }) ∧
    (s.flag .GLB_MODE_FIXED = false → s.expireCheap.recoverWork = s.toDev → s.nextPlacement = some ((j, i, piece), k) →
      (∀ n < 16, s.churnReady n = true → s.kept n = false → k ≤ n) ∨ piece.target = some k) ∧
    (s.flag .GLB_MODE_FIXED = false → s.expireCheap.recoverWork = s.toDev → s.readyAll = [] →
      Completes .pieceDispatch s fun t => KeepsFields s t [] ∧ t.rest = s.rest)

/-- R126, R193 to R195, R198, R219: in fast mode a free Churn takes over the upper part of a running layer piece, which keeps the lower, and
nothing is taken where a condition of R126 does not hold; a slice that ends inside a VCOMMIT is
counted as an overrun, another begins anew where nobody waits, and yields into a free slot where somebody does; a context that
waits for its cheap point starts a save of its live ranges. -/
def Obligations.SlicesAndTakeover : Prop :=
  ∀ (s : State) (n v : Fin 16) (k0 k1 least k : Nat) (pair : OpFmt × OpFmt) (p : Piece) (r : Resident) (j : Job) (c : Job × Nat × Piece)
    (ranges : List (Nat × Nat)),
    s.resident v = some r → s.job? r.job = some j →
    (k0 ≤ k1 → leastPart pair.1 pair.2 = some least → j.pieces[r.piece]? = some p →
      let lo := (p.range.map fun e => max e.1 k0).getD k0
      let hi := (p.range.map fun e => min e.2 k1).getD k1
      let may := r.kind = 1 ∧ r.saving = none ∧ r.restoring = none ∧ j.repro = some false ∧ s.flag .GLB_MODE_FIXED = false ∧
        s.churnReady n = true ∧ s.kept n = false ∧ s.readyAll = [] ∧ mayDivide lo hi least = true
      let upper : Piece := { index := p.index, st := .ready, range := some (splitPoint lo hi, hi) }
      let w := Dev.updJob (s.keepPart j.seq r.piece lo (splitPoint lo hi)) j.seq fun i => { i with pieces := i.pieces ++ [upper] }
      (may → ((w.job? j.seq).all fun i => (w.place n i j.pieces.length upper).fetches n i) = true →
        Completes (.takeover n v k0 k1 pair) s fun t =>
          t.resident n = some { job := j.seq, piece := j.pieces.length, kind := (j.cmd?.map Command.kind).getD 0,
                                sliceAt := s.xclk, sliceLen := s.sliceOf j.shorten, since := s.xclk } ∧
          (t.job? j.seq).map (fun i => (i.pieces[r.piece]?.map fun q => q.range, i.pieces[j.pieces.length]?.map fun q => (q.st, q.range))) =
            some (some (some (lo, splitPoint lo hi)), some (.running n, some (splitPoint lo hi, hi))) ∧
          t.flag .CHN_STAT_BUSY n = true ∧ KeepsFields s t (contextFields n) ∧
          t.rest = { s.rest with jobs := t.jobs, churns := t.churns, tlb := t.tlb, trace := t.trace }) ∧
      (¬may → Completes (.takeover n v k0 k1 pair) s fun t => KeepsFields s t [] ∧ t.rest = s.rest)) ∧
    (k0 ≤ k1 → leastPart pair.1 pair.2 = none →
      Completes (.takeover n v k0 k1 pair) s fun t => KeepsFields s t [] ∧ t.rest = s.rest) ∧
    (s.flag .GLB_MODE_FIXED = false → r.leaving = false → r.restoring = none →
      (r.kind = 3 →
        Completes (.sliceEnd v) s fun t =>
          t.jobs = (s.jobs.map fun i => if i.seq = r.job then { i with overrun := satSucc 16 i.overrun } else i) ∧
          t.odNum 0x3030 5 0 = wrap 64 (s.odNum 0x3030 5 0 + 1) ∧
          t.resident v = some { r with overAt := some s.xclk, sliceAt := s.xclk, sliceLen := s.sliceOf 0 } ∧
          KeepsFields s t [] ∧ t.rest = { s.rest with jobs := t.jobs, od := t.od, churns := t.churns }) ∧
      (r.kind ≠ 3 → s.anyFree = true →
        Completes (.sliceEnd v) s fun t =>
          t.resident v = some { r with sliceAt := s.xclk, sliceLen := s.sliceOf j.shorten } ∧
          KeepsFields s t [] ∧ t.rest = { s.rest with jobs := t.jobs, churns := t.churns }) ∧
      (let anew : Resident := { r with sliceAt := s.xclk, sliceLen := s.sliceOf j.shorten }
       r.kind ≠ 3 → (Dev.setResident (s.updJob j.seq fun j => { j with shorten := 0 }) v (some anew)).yieldsTo j = some c →
        s.freeSlot = some k → k < 40 →
        Completes (.sliceEnd v) s fun t =>
          t.resident v = some { anew with saving := some k, cheap := none, cheapWait := none } ∧
          t.rd .JOB_SLOT_ST_STATE k = 1 ∧ t.rd .JOB_SLOT_ST_CHN k = v ∧ KeepsBytes s t (s.saveBase k + 0x41FFFC) 4 ∧
          KeepsFields s t (slotFields k) ∧
          t.rest = { s.rest with jobs := t.jobs, churns := t.churns, mem := t.mem, trace := t.trace })) ∧
    ((ranges.all fun e => decide (e.1 + e.2 ≤ 0x400000)) = true → (ranges.map fun e => e.2).sum ≤ 65536 →
      (r.cheapWait = none → Completes (.cheapPointReached v ranges) s fun t => KeepsFields s t [] ∧ t.rest = s.rest) ∧
      (r.cheapWait ≠ none → s.freeSlot = some k → k < 40 →
        Completes (.cheapPointReached v ranges) s fun t =>
          t.resident v = some { r with saving := some k, cheap := some ranges, cheapWait := none } ∧
          t.rd .JOB_SLOT_ST_STATE k = 1 ∧ t.flag .JOB_SLOT_ST_CHEAP k = true ∧ KeepsBytes s t (s.saveBase k + 0x41FFFC) 4 ∧
          KeepsFields s t (slotFields k) ∧ t.rest = { s.rest with churns := t.churns, mem := t.mem, trace := t.trace }))

/-- R199, R206, R207: a save that completes frees its Churn, holds the context in its slot and has written its VALID word; a slot
whose write fails is BAD; a restore that completes frees the slot and the context goes on; one that fails discards the save and the
piece starts again. -/
def Obligations.SavesAndRestores : Prop :=
  ∀ (s : State) (n : Fin 16) (k : Nat) (r : Resident) (v : Saved), s.resident n = some r → k < 40 →
    (r.saving = some k → r.cheap = none → r.fault = none → s.saveBase k + saveSize ≤ vatSize →
      Completes (.saveComplete n false) s fun t =>
        t.resident n = none ∧ t.rd .JOB_SLOT_ST_STATE k = 2 ∧ t.flag .CHN_STAT_BUSY n = false ∧
        (tabFind? t.saves k).map (fun v => v.res) = some { r with saving := none } ∧ t.saveSeq = s.saveSeq + 1 ∧
        t.leRead (s.saveBase k + 0x41FFFC) 4 = validWord false s.saveSeq ∧
        ((∀ e ∈ (s.churn n).rf, e.1 < 0x80000) → (∀ e ∈ (s.churn n).acc, e.1 < 8192) → (∀ e ∈ (s.churn n).anchor, e.1 < 8192) →
          KeepsBytes s t (s.saveBase k) saveSize) ∧
        KeepsFields s t (slotFields k ++ contextFields n) ∧
        t.rest = { s.rest with jobs := t.jobs, churns := t.churns, mem := t.mem, saves := t.saves, saveSeq := t.saveSeq, od := t.od,
                               counters := t.counters, free := t.free, trace := t.trace }) ∧
    (r.saving = some k → s.rd .JOB_SLOT_ST_STATE 40 ≠ 0 →
      Completes (.saveComplete n true) s fun t =>
        t.resident n = none ∧ t.rd .JOB_SLOT_ST_STATE k = 4 ∧ t.rd .MEM_UE_ADDR = wrap 37 (s.saveBase k) ∧
        KeepsFields s t (slotFields k ++ contextFields n ++ errorFields) ∧
        t.body = { s.body with jobs := t.jobs, churns := t.churns, saves := t.saves }) ∧
    (r.saving = none → Completes (.saveComplete n false) s fun t => KeepsFields s t [] ∧ t.rest = s.rest) ∧
    (r.restoring = some k → tabFind? s.saves k = some v →
      Completes (.restoreComplete n false) s fun t =>
        ((v.res.fault.any fun b => leAt b 14 1 == 2) = false →
          t.resident n = some { r with restoring := none, sliceAt := s.xclk, sliceLen := s.sliceOf 0 }) ∧
          t.rd .JOB_SLOT_ST_STATE k = 0 ∧ tabFind? t.saves k = none ∧
        (t.churn n).latch = v.latch ∧ (t.churn n).barrier = v.barrier ∧ KeepsBytes s t (lsOf n) lsSize ∧
        ((v.res.fault.any fun b => leAt b 14 1 == 2) = false →
          KeepsFields s t (slotFields k ++ contextFields n ++ excAt n ++ [(.CHN_ERR_CODE, (n : Nat)), (.CHN_ERR_COUNT, (n : Nat))]) ∧
          t.rest = { s.rest with jobs := t.jobs, churns := t.churns, mem := t.mem, saves := t.saves, trace := t.trace })) ∧
    (r.restoring = some k →
      Completes (.restoreComplete n true) s fun t =>
        t.resident n = none ∧ t.rd .JOB_SLOT_ST_STATE k = 0 ∧ tabFind? t.saves k = none ∧
        KeepsFields s t (slotFields k ++ contextFields n ++ errorFields) ∧
        t.body = { s.body with jobs := t.jobs, churns := t.churns, saves := t.saves, marks := t.marks, parts := t.parts, herd := t.herd,
                               zports := t.zports })

/-- R190, R205: RESUME clears the fault of the saved contexts that wait for it, ABORT ends a job at once or after its VCOMMIT, STOP
ends it after its iteration; each ends with result 1 where no job has the identifier, and RESUME with 2 where nothing waits. -/
def Obligations.CommandsToJobs : Prop :=
  ∀ (s : State) (j : Job),
    let ended (t : State) : Prop :=
      t.rd .JOB_CMD_RES = 0 ∧ j.seq ∉ t.jobs.map (fun i => i.seq) ∧
      t.body = { s.body with jobs := t.jobs, churns := t.churns, saves := t.saves, mem := t.mem, marks := t.marks, parts := t.parts,
                             herd := t.herd, zports := t.zports, sync := t.sync, tlb := t.tlb }
    (s.named = none →
      (Completes .jobResume s fun t => t.rd .JOB_CMD_RES = 1 ∧ KeepsFields s t [(.JOB_CMD_RES, 0)] ∧ t.rest = s.rest) ∧
      (Completes .jobAbort s fun t => t.rd .JOB_CMD_RES = 1 ∧ KeepsFields s t [(.JOB_CMD_RES, 0)] ∧ t.rest = s.rest) ∧
      (Completes .jobStop s fun t => t.rd .JOB_CMD_RES = 1 ∧ KeepsFields s t [(.JOB_CMD_RES, 0)] ∧ t.rest = s.rest)) ∧
    (s.named = some j →
      (s.faultedSlots j = [] →
        Completes .jobResume s fun t => t.rd .JOB_CMD_RES = 2 ∧ KeepsFields s t [(.JOB_CMD_RES, 0)] ∧ t.rest = s.rest) ∧
      (s.faultedSlots j ≠ [] → (∀ k ∈ s.faultedSlots j, k < 41) →
        Completes .jobResume s fun t =>
          t.rd .JOB_CMD_RES = 0 ∧ (∀ k ∈ s.faultedSlots j, t.flag .JOB_SLOT_ST_FLT k = false) ∧
          KeepsFields s t ((.JOB_CMD_RES, 0) :: (s.faultedSlots j).map fun k => (.JOB_SLOT_ST_FLT, k)) ∧ t.rest = s.rest) ∧
      (s.inVcommit j = true →
        Completes .jobAbort s fun t =>
          t.rd .JOB_CMD_RES = 0 ∧ t.jobs = (s.jobs.map fun i => if i.seq = j.seq then { i with abort := true } else i) ∧
          KeepsFields s t [(.JOB_CMD_RES, 0)] ∧ t.rest = { s.rest with jobs := t.jobs }) ∧
      (s.inVcommit j = false →
        Completes .jobAbort s fun t => ended t) ∧
      (j.begun = true →
        Completes .jobStop s fun t =>
          t.rd .JOB_CMD_RES = 0 ∧ t.jobs = (s.jobs.map fun i => if i.seq = j.seq then { i with stop := true } else i) ∧
          KeepsFields s t [(.JOB_CMD_RES, 0)] ∧ t.rest = { s.rest with jobs := t.jobs }) ∧
      (j.begun = false → Completes .jobStop s fun t => ended t))

/-- R204: the host signals or resets a counter by writing `SYN_VAL`, low, then high, and then `SYN_OP`, which performs the operation;
a write of an index to `SYN_RDIDX` latches the whole value into `SYN_RDVAL`; a write of any of these registers by firmware changes none
of them. The operations are the commands of R204 as well. -/
def Obligations.HostSignalsAndReadsCounters : Prop :=
  ∀ (s : State) (k m v : Nat) (a : Fin 6), k < 16384 → v < 2 ^ 32 → s.power ≠ .off →
    (Completes (.registerWrite .host 0x580000 4 v) s fun t =>
      t.rd .SYN_VAL = s.rd .SYN_VAL / 2 ^ 32 * 2 ^ 32 + v ∧ KeepsFields s t [(.SYN_VAL, 0)] ∧ t.rest = s.rest) ∧
    (Completes (.registerWrite .host 0x580004 4 v) s fun t =>
      t.rd .SYN_VAL = v * 2 ^ 32 + s.rd .SYN_VAL % 2 ^ 32 ∧ KeepsFields s t [(.SYN_VAL, 0)] ∧ t.rest = s.rest) ∧
    (Completes (.registerWrite .host 0x580008 4 (2 ^ 30 + k)) s fun t =>
      t.sc k = wrap 64 (s.sc k + s.rd .SYN_VAL) ∧ (m ≠ k → t.sc m = s.sc m) ∧ KeepsFields s t [] ∧
      t.rest = { s.rest with sync := t.sync }) ∧
    (Completes (.registerWrite .host 0x580008 4 (2 ^ 31 + k)) s fun t =>
      t.sc k = 0 ∧ (m ≠ k → t.sc m = s.sc m) ∧ KeepsFields s t [] ∧ t.rest = { s.rest with sync := t.sync }) ∧
    (Completes (.registerWrite .host 0x580010 4 k) s fun t =>
      t.rd .SYN_RDVAL = wrap 64 (s.sc k) ∧ t.rd .SYN_RDIDX_SC = k ∧ KeepsFields s t [(.SYN_RDVAL, 0), (.SYN_RDIDX_SC, 0)] ∧
      t.rest = s.rest) ∧
    (Completes (.registerWrite .firmware (0x580000 + 4 * a) 4 v) s fun t =>
      KeepsFields s t [(.GLB_ERR_STAT_OWNERR, 0), (.GLB_OWNERR_CNT, 0)] ∧ t.rest = s.rest) ∧
    (Completes (.synSignalAdd k) s fun t =>
      t.sc k = wrap 64 (s.sc k + s.rd .SYN_VAL) ∧ (m ≠ k → t.sc m = s.sc m) ∧ KeepsFields s t [] ∧
      t.rest = { s.rest with sync := t.sync }) ∧
    (Completes (.synReset k) s fun t =>
      t.sc k = 0 ∧ (m ≠ k → t.sc m = s.sc m) ∧ KeepsFields s t [] ∧ t.rest = { s.rest with sync := t.sync }) ∧
    (Completes (.synRdidxLatch k) s fun t =>
      t.rd .SYN_RDVAL = wrap 64 (s.sc k) ∧ t.rd .SYN_RDIDX_SC = k ∧ KeepsFields s t [(.SYN_RDVAL, 0), (.SYN_RDIDX_SC, 0)] ∧ t.rest = s.rest)

/-- R128, R219: writes of the mode entries set `GLB_MODE.REPRO` and `GLB_MODE.FIXED`, the latter only while no job is admitted and no
Churn holds a context, and not to 1 before every Churn runs. When the mode ends, a maintenance activity that it has held back may start
(R419), and no other status of one changes. -/
def Obligations.ModesAreWritten : Prop :=
  ∀ (s : State) (port : Port) (v : Bool),
    (s.answers port = true → s.power ≠ .recovery →
      (mayWrite rwRwRR port = true →
        Completes (.reproModeWrite port v) s fun t =>
          t.flag .GLB_MODE_REPRO = v ∧ t.svc.lastStatus = stOk ∧ t.odNum 0x3001 1 0 = v.toNat ∧
          KeepsFields s t [(.GLB_MODE_REPRO, 0)] ∧ t.rest = { s.rest with od := t.od, nvm := t.nvm, svc := t.svc }) ∧
      (mayWrite rwRwRR port = false →
        Completes (.reproModeWrite port v) s fun t =>
          t.svc.lastStatus = stDenied ∧ KeepsFields s t [] ∧ t.rest = { s.rest with svc := t.svc }) ∧
      (mayWrite rwNoRwNo port = true → s.fixing = false → s.flag .GLB_MODE_FIXED = !v →
        (s.jobs ≠ [] → Completes (.fixedModeWrite port v) s fun t =>
          t.svc.lastStatus = stBusy ∧ KeepsFields s t [] ∧ t.rest = { s.rest with svc := t.svc }) ∧
        (s.jobs = [] → (∀ n : Fin 16, s.resident n = none) →
          (v = false → Completes (.fixedModeWrite port v) s fun t =>
            t.svc.lastStatus = stOk ∧ t.flag .GLB_MODE_FIXED = false ∧
            (∀ x ∈ activities, t.mntSt x ≠ s.mntSt x → s.mntSt x = 1 ∧ t.mntSt x = 2 ∧ s.mntPower x = true) ∧
            KeepsFields s t ([(.GLB_MODE_FIXED, 0), (.GLB_DET_STAT_FIXED, 0)] ++ activities.map fun x => (.MLK_MNT_ST, activityNo x)) ∧
            t.rest = { s.rest with svc := t.svc, runHit := false }) ∧
          (v = true → Completes (.fixedModeWrite port v) s fun t =>
            t.svc.lastStatus = stOk ∧ (t.flag .GLB_MODE_FIXED = true ∨ t.fixing = true) ∧
            (t.flag .GLB_MODE_FIXED = true → ∀ n : Fin 16, t.flag .CHN_STAT_ISO n = false → t.rd .CHN_STAT_PWR n = 3) ∧
            KeepsFields s t ([(.GLB_MODE_FIXED, 0), (.GLB_DET_STAT_FIXED, 0)] ++ (upTo 16).map fun n => (.CHN_STAT_PWR, n)) ∧
            t.rest = { s.rest with svc := t.svc, fixing := t.fixing, runHit := t.runHit }))))

/-- R271, R272, R275, R278, R280: at a slot the logic side sends one frame under the next sequence number, followed by its CRC-16: the
second copy of a tick in the frame after the first, a STATE frame at least once in every 8 and where nothing waits, else the first copy of
a tick, else a waiting register frame. A committed tick enters the queue once its lead is at most 20 ms and a place is free. -/
def Obligations.BarrierFramesSent : Prop :=
  ∀ (s : State) (tk : Tick) (r : Nat) (l : List Nat),
    (let u := s.frameSlot
     let v : State := { s with toDev := u }
     let sends (t : State) (kind low : Nat) : Prop :=
       let p := payload kind u.barrier.seq low
       Out.outbound p (crc16 64 p) ∈ t.out ∧ t.barrier.seq = (u.barrier.seq + 1) % 16 ∧ KeepsFields v t [] ∧
       t.rest = { u.rest with barrier := t.barrier }
     let state (safe : Bool) := u.stopLevel.toNat * 2 ^ 57 + u.rd .SEP_LSTOP_OUT * 2 ^ 52 + safe.toNat * 2 ^ 51 +
       (!safe && (u.barrier.releaseNow || u.barrier.release && u.barrier.regs.isEmpty)).toNat * 2 ^ 50
     let tick := tk.level.toNat * 2 ^ 57 + tk.mask % 2 ^ 32 * 2 ^ 25 + tk.edge % 2 ^ 24 * 2
     (u.framesOn = false → Completes .outboundFrameSlot s fun t => KeepsFields v t [] ∧ t.rest = u.rest) ∧
     (u.framesOn = true →
      (u.barrier.safeAlways = true → Completes .outboundFrameSlot s fun t => sends t 0 (state true) ∧ t.barrier.sinceState = 0) ∧
      (u.barrier.safeAlways = false →
        (u.secondCopy = some (tk, 1) →
          Completes .outboundFrameSlot s fun t =>
            sends t 1 tick ∧ (tk, 1) ∉ t.barrier.queue ∧ t.barrier.sinceState = u.barrier.sinceState + 1) ∧
        (u.secondCopy = none →
          (7 ≤ u.barrier.sinceState ∨ u.nextTick = none ∧ u.barrier.regs = [] →
            Completes .outboundFrameSlot s fun t => sends t 0 (state false) ∧ t.barrier.sinceState = 0) ∧
          (u.nextTick = some (tk, 2) →
            Completes .outboundFrameSlot s fun t =>
              sends t 1 tick ∧ (tk, 1) ∈ t.barrier.queue ∧ t.barrier.sinceState = u.barrier.sinceState + 1) ∧
          (u.barrier.sinceState < 7 → u.nextTick = none → u.barrier.regs = r :: l →
            Completes .outboundFrameSlot s fun t =>
              sends t 2 r ∧ t.barrier.regs = l ∧ t.barrier.sinceState = u.barrier.sinceState + 1))))) ∧
    (s.barrier.waiting = [tk] →
      Completes .tickEnqueue s fun t =>
        (if tk.edge ≤ s.xclk + 8000000 ∧ s.barrier.queue.length < 64 then t.barrier.waiting = [] ∧ (tk, 2) ∈ t.barrier.queue
          else t.barrier.waiting = [tk]) ∧
        (∀ e ∈ s.barrier.queue, e ∈ t.barrier.queue) ∧ KeepsFields s t [] ∧ t.rest = { s.rest with barrier := t.barrier })

/-- R272, R273, R276, R279, R280: what a frame does at the field die, where one of KIND 3 counts as a CRC failure. A STATE frame with SAFE
enters the safe state; one with RELEASE leaves it after 16 good frames with the supply back, every output but the line stop off; a TICK
frame holds its tick, or is late, or is the copy of a tick that has been handled and changes nothing; a REG frame performs its write or
prepares its answer; a held edge drives its outputs. -/
def Obligations.FieldDieObeysFrames : Prop :=
  ∀ (s : State) (p : Payload) (o : Fin 32) (e : Nat), s.die.powered = true →
    (kindOf p = 0 →
      (bit p.toNat 51 = true → s.flag .FLD_STAT_SAFE = false →
        Completes (.stateFrame p) s fun t =>
          t.flag .FLD_STAT_SAFE = true ∧ t.die.held = [] ∧ t.die.good = s.die.good + 1 ∧
          bit (t.rd .FLD_LVL) o = (bit (s.rd .FLD_OUT_EN) o && !bit (s.rd .FLD_SC) o &&
            (s.rd .FLD_SAFE o == 1 || (s.rd .FLD_SAFE o == 2 && bit (s.rd .FLD_LVL) o))) ∧
          KeepsFields s t [(.FLD_STAT_SAFE, 0), (.FLD_LVL, 0)] ∧ t.rest = { s.rest with die := t.die }) ∧
      (bit p.toNat 51 = false → s.flag .FLD_STAT_SAFE = true →
        Completes (.stateFrame p) s fun t =>
          t.flag .FLD_STAT_SAFE = !(bit p.toNat 50 && decide (16 ≤ s.die.good) && !s.die.lowLatch) ∧
          (t.flag .FLD_STAT_SAFE = false → (o : Nat) ≠ bits p.toNat 52 5 → bit (t.rd .FLD_LVL) o = false) ∧
          KeepsFields s t [(.FLD_STAT_SAFE, 0), (.FLD_LVL, 0)] ∧ t.rest = { s.rest with die := t.die })) ∧
    (let u := s.goodFrame
     let tk := u.tickOf p.toNat
     kindOf p = 1 → s.flag .FLD_STAT_SAFE = false →
      (s.die.knows tk = true →
        Completes (.tickFrame p) s fun t =>
          t.die.held = s.die.held ∧ t.die.late = s.die.late ∧ KeepsFields s t [] ∧ t.rest = { s.rest with die := t.die }) ∧
      (s.die.knows tk = false → u.fieldTimer < tk.edge → s.die.held.length < 256 →
        Completes (.tickFrame p) s fun t =>
          t.die.held = s.die.held ++ [tk] ∧ KeepsFields s t [] ∧ t.rest = { s.rest with die := t.die }) ∧
      (s.die.knows tk = false → tk.edge ≤ u.fieldTimer →
        Completes (.tickFrame p) s fun t =>
          t.die.late = true ∧ t.die.lastLate = some tk ∧ t.die.held = s.die.held ∧
          (bit p.toNat 57 = true → t.rd .FLD_LVL = s.rd .FLD_LVL) ∧
          (bit p.toNat 57 = false → bit p.toNat (25 + o) = true → bit s.stopMask o = false → bit (t.rd .FLD_LVL) o = false) ∧
          KeepsFields s t [(.FLD_LVL, 0)] ∧ t.rest = { s.rest with die := t.die })) ∧
    (kindOf p = 2 →
      (bit p.toNat 9 = true →
        Completes (.regFrame p) s fun t =>
          t.die.answer = some (bits p.toNat 42 16, s.dieRead (bits p.toNat 42 16)) ∧ KeepsFields s t [] ∧
          t.rest = { s.rest with die := t.die, free := t.free }) ∧
      (bit p.toNat 9 = false → bits p.toNat 42 16 = 4 →
        Completes (.regFrame p) s fun t =>
          t.rd .FLD_OUT_EN = bits p.toNat 10 32 ∧ (bit p.toNat (10 + o) = false → bit (t.rd .FLD_LVL) o = false) ∧
          KeepsFields s t [(.FLD_OUT_EN, 0), (.FLD_LVL, 0)] ∧ t.rest = { s.rest with die := t.die })) ∧
    (kindOf p = 3 →
      (Completes (.stateFrame p) s fun t =>
        t.die = { s.die with good := 0, crcBad := true } ∧ KeepsFields s t [] ∧ t.rest = { s.rest with die := t.die }) ∧
      (Completes (.tickFrame p) s fun t =>
        t.die = { s.die with good := 0, crcBad := true } ∧ KeepsFields s t [] ∧ t.rest = { s.rest with die := t.die }) ∧
      (Completes (.regFrame p) s fun t =>
        t.die = { s.die with good := 0, crcBad := true } ∧ KeepsFields s t [] ∧ t.rest = { s.rest with die := t.die })) ∧
    (firstEdge s.die.held = some e →
      let u := s.timerTo e
      Completes .tickEdge s fun t =>
        t.die.held = s.die.held.filter (fun k => k.edge != e) ∧ t.xclk = u.xclk ∧
        (bit (edgeMask s.die.held e true) o = true → bit (edgeMask s.die.held e false) o = false → bit s.stopMask o = false →
          bit (u.rd .FLD_OUT_EN) o = true → bit (u.rd .FLD_SC) o = false → bit (t.rd .FLD_LVL) o = true) ∧
        KeepsFields { s with toDev := u } t [(.FLD_LVL, 0)] ∧ t.rest = { u.rest with die := t.die })

/-- R279, R280, R282: the time-out and a low supply take the field die into the safe state; a loss of the supply stops it with every
output off, and its return starts it at its reset values in the safe state; a supply that is back allows release again. -/
def Obligations.FieldDieSupplyAndTimeout : Prop :=
  ∀ (s : State) (f : Field) (i : Nat),
    (s.die.powered = true →
      (Completes .safeTimeout s fun t =>
        t.flag .FLD_STAT_SAFE = true ∧ t.die.good = 0 ∧ (s.flag .FLD_STAT_SAFE = false → t.die.held = []) ∧
        KeepsFields s t [(.FLD_STAT_SAFE, 0), (.FLD_LVL, 0)] ∧ t.rest = { s.rest with die := t.die }) ∧
      (Completes .fieldSupplyLow s fun t =>
        t.flag .FLD_STAT_SAFE = true ∧ t.flag .FLD_STAT_FSUP = true ∧ t.die.lowLatch = true ∧
        KeepsFields s t [(.FLD_STAT_SAFE, 0), (.FLD_STAT_FSUP, 0), (.FLD_LVL, 0)] ∧ t.rest = { s.rest with die := t.die }) ∧
      (Completes .fieldSupplyRestored s fun t =>
        t.flag .FLD_STAT_FSUP = false ∧ t.die.lowLatch = false ∧
        KeepsFields s t [(.FLD_STAT_FSUP, 0)] ∧ t.rest = { s.rest with die := t.die }) ∧
      (Completes .fieldSupplyLoss s fun t =>
        t.die.powered = false ∧ t.rd .FLD_LVL = 0 ∧ t.die.held = [] ∧
        KeepsFields s t [(.FLD_LVL, 0)] ∧ t.rest = { s.rest with die := t.die })) ∧
    (s.die.powered = false →
      Completes .fieldSupplyReturn s fun t =>
        t.die.powered = true ∧ t.flag .FLD_STAT_SAFE = true ∧ t.rd .FLD_LVL = 0 ∧ t.rd .FLD_OUT_EN = 0 ∧ t.flag .FLD_STAT_FSUP = true ∧
        (f.desc.die = true → f ≠ .FLD_STAT_FSUP → i < f.desc.count → t.rd f i = wrap f.desc.width (f.resetAt i)) ∧
        (f.desc.die = false → i < 1024 → t.rd f i = s.rd f i) ∧ t.rest = { s.rest with die := t.die })

/-- R283 to R286, R428, R271, R273: an accepted level, a wire break and its end at an input; a short circuit, an open load and a group
over its current at the outputs; frames that fail their CRC, among which is one of KIND 3; and what a STATUS and a READ frame say, none of
which arrives while the field die has no supply. -/
def Obligations.FieldInputsAndOutputs : Prop :=
  ∀ (s : State) (p : Payload) (n : Fin 16) (o k : Fin 32) (g : Fin 4) (level : Bool) (l : List Nat),
    (s.die.powered = true →
      (Completes (.inputChangeAccepted n level) s fun t =>
        bit t.die.raw n = level ∧ (bit s.die.broken n = false → bit (t.rd .FLD_IN) n = level) ∧
        (bit s.die.broken n = true → t.rd .FLD_IN = s.rd .FLD_IN) ∧ ((k : Nat) ≠ n → bit (t.rd .FLD_IN) k = bit (s.rd .FLD_IN) k) ∧
        KeepsFields s t [(.FLD_IN, 0)] ∧ t.rest = { s.rest with die := t.die }) ∧
      (s.flag .FLD_INCFG_WBEN n = true → bit s.die.broken n = false →
        Completes (.wireBreak n) s fun t =>
          bit (t.rd .FLD_WB) n = true ∧ bit (t.rd .FLD_IN) n = false ∧ bit t.die.broken n = true ∧
          KeepsFields s t ([(.FLD_WB, 0), (.FLD_IN, 0)] ++ logFields) ∧
          t.body = { s.body with die := t.die, barrier := t.barrier, parts := t.parts }) ∧
      (bit s.die.broken n = true →
        Completes (.wireBreakClear n level) s fun t =>
          bit (t.rd .FLD_IN) n = level ∧ bit t.die.broken n = false ∧ KeepsFields s t [(.FLD_IN, 0)] ∧
          t.rest = { s.rest with die := t.die }) ∧
      (bit (s.rd .FLD_LVL) o = true →
        (Completes (.outputShortCircuit o) s fun t =>
          bit (t.rd .FLD_LVL) o = false ∧ bit (t.rd .FLD_SC) o = true ∧ (k ≠ o → bit (t.rd .FLD_LVL) k = bit (s.rd .FLD_LVL) k) ∧
          KeepsFields s t ([(.FLD_LVL, 0), (.FLD_SC, 0)] ++ logFields) ∧ t.body = { s.body with barrier := t.barrier }) ∧
        (Completes (.outputOpenLoad o) s fun t =>
          bit (t.rd .FLD_OL) o = true ∧ t.rd .FLD_LVL = s.rd .FLD_LVL ∧
          KeepsFields s t ((.FLD_OL, 0) :: logFields) ∧ t.body = { s.body with barrier := t.barrier })) ∧
      (Completes (.groupOvercurrent g) s fun t =>
        bit (t.rd .FLD_LVL) o = (bit (s.rd .FLD_LVL) o && decide ((o : Nat) / 8 ≠ g)) ∧
        bit (t.rd .FLD_SC) o = (bit (s.rd .FLD_SC) o || (bit (s.rd .FLD_LVL) o && decide ((o : Nat) / 8 = g))) ∧
        KeepsFields s t ([(.FLD_LVL, 0), (.FLD_SC, 0)] ++ logFields) ∧ t.body = { s.body with barrier := t.barrier }) ∧
      (Completes (.barrierFrameCrcFail false) s fun t =>
        t.die = { s.die with good := 0, crcBad := true } ∧ KeepsFields s t [] ∧ t.rest = { s.rest with die := t.die })) ∧
    (s.die.powered = false →
      (Completes (.inboundStatusFrame p) s fun t => KeepsFields s t [] ∧ t.rest = s.rest) ∧
      (Completes (.inboundReadFrame p) s fun t => KeepsFields s t [] ∧ t.rest = s.rest)) ∧
    (s.logicOn = true → s.die.powered = true →
      (Completes (.barrierFrameCrcFail true) s fun t =>
        t.flag .FIO_LNK_STAT_CRCERR = true ∧ t.rd .FIO_CRC_CNT = satSucc 32 (s.rd .FIO_CRC_CNT) ∧
        KeepsFields s t [(.FIO_LNK_STAT_CRCERR, 0), (.FIO_CRC_CNT, 0)] ∧ t.rest = s.rest) ∧
      (kindOf p = 3 →
        Completes (.inboundStatusFrame p) s fun t =>
          t.flag .FIO_LNK_STAT_CRCERR = true ∧ t.rd .FIO_CRC_CNT = satSucc 32 (s.rd .FIO_CRC_CNT) ∧
          KeepsFields s t [(.FIO_LNK_STAT_CRCERR, 0), (.FIO_CRC_CNT, 0)] ∧ t.rest = s.rest) ∧
      (kindOf p = 1 → s.barrier.readPending = bits p.toNat 42 16 :: l →
        Completes (.inboundReadFrame p) s fun t =>
          Out.indRead (bits p.toNat 10 32) ∈ t.out ∧ t.barrier.readPending = l ∧ KeepsFields s t [] ∧
          t.rest = { s.rest with die := t.die, barrier := t.barrier }) ∧
      (kindOf p = 0 →
        Completes (.inboundStatusFrame p) s fun t =>
          t.flag .FIO_LNK_STAT_FSUP = bit p.toNat 12 ∧ t.barrier.levels = bits p.toNat 42 16 ∧ t.barrier.init = false ∧
          t.barrier.broken = bits p.toNat 26 16 ∧
          (bit p.toNat 11 = true → t.flag .FIO_LNK_STAT_RESTART = true) ∧ (bit p.toNat 9 = true → t.flag .FIO_LNK_STAT_CRCERR = true) ∧
          (bit p.toNat 13 = true → t.flag .FIO_LNK_STAT_LATE = true) ∧ t.die.late = false))

/-- R374 to R376, R378: a snapshot copies positions, speed, acceleration, device time and the observation counters; an
acknowledgement sends the messages of pending vectors again; a vote makes the three copies of a voted field agree and changes no
field's value; `IND_DATA` reads and writes where `IND_ADDR` points. -/
def Obligations.SnapshotVoteAndIndirectPair : Prop :=
  ∀ (s : State) (v f i k : Nat) (a : Fin 4) (l : List Nat),
    ((∀ n : Fin 16, s.resident n = none) →
      Completes .snapshot s fun t =>
        t.rd .ENC_POS_SNAP a = s.rd .ENC_POS a ∧ t.rd .OBS_SNAP_SPEED = s.rd .ENC_SPEED ∧ t.rd .OBS_SNAP_ACCEL = s.rd .ENC_ACCEL ∧
        t.rd .OBS_SNAP_TIME = s.ns40 ∧ (k < 1024 → t.rd .OBS_CNT_SNAP k = wrap 64 (s.counter k)) ∧
        t.rd .OBS_SNAP_SEQ = wrap 16 (s.rd .OBS_SNAP_SEQ + 1) ∧
        KeepsFields s t ([(.OBS_SNAP_SPEED, 0), (.OBS_SNAP_ACCEL, 0), (.OBS_SNAP_TIME, 0), (.OBS_SNAP_SEQ, 0)] ++
          ((upTo 4).map fun n => (.ENC_POS_SNAP, n)) ++ (upTo 1024).map fun n => (.OBS_CNT_SNAP, n)) ∧ t.rest = s.rest) ∧
    (v < 2 ^ 32 →
      Completes (.irqAck v) s fun t =>
        (k < 16 → bit v k = true → s.irqPending k = true → Out.msix k ∈ t.out) ∧ KeepsFields s t [] ∧ t.rest = s.rest) ∧
    (Completes .voteCheck s fun t =>
      (∀ x ∈ votedFields, x.desc.die = false ∨ s.die.powered = true → i < x.desc.count →
        tabGet (fun _ => x.resetAt i) t.voteB (x.key i) = tabGet (fun _ => x.resetAt i) t.regs (x.key i) ∧
        tabGet (fun _ => x.resetAt i) t.voteC (x.key i) = tabGet (fun _ => x.resetAt i) t.regs (x.key i)) ∧
      KeepsFields s t ([(.GLB_ERR_STAT_VOTERR, 0), (.GLB_ERR_STAT_VOTFAIL, 0), (.GLB_VOTE_CNT, 0), (.FLD_STAT_VOTERR, 0)] ++ logFields) ∧
      t.body = { s.body with die := t.die }) ∧
    (v < 2 ^ 32 → s.flag .IND_ADDR_AUTOINC = true →
      (s.rd .IND_ADDR_SPACE = 1 → dieW1c (4 * s.rd .IND_ADDR) = true →
        Completes (.indDataWrite v) s fun t =>
          t.barrier.regs = s.barrier.regs ++ [regFrameBits (4 * s.rd .IND_ADDR) v false] ∧
          t.rd .IND_ADDR = wrap 22 (s.rd .IND_ADDR + 1) ∧ KeepsFields s t [(.IND_ADDR, 0)] ∧
          t.rest = { s.rest with barrier := t.barrier, svc := t.svc }) ∧
      (s.rd .IND_ADDR_SPACE = 3 →
        Completes (.indDataWrite v) s fun t =>
          t.flag .IND_STAT_DENIED = true ∧ KeepsFields s t [(.IND_ADDR, 0), (.IND_STAT_DENIED, 0)] ∧ t.rest = s.rest) ∧
      (s.rd .IND_ADDR_SPACE = 1 →
        Completes .indDataRead s fun t =>
          t.barrier.regs = s.barrier.regs ++ [regFrameBits (4 * s.rd .IND_ADDR) 0 true] ∧
          t.barrier.readPending = s.barrier.readPending ++ [4 * s.rd .IND_ADDR] ∧ KeepsFields s t [(.IND_ADDR, 0)] ∧
          t.rest = { s.rest with barrier := t.barrier }) ∧
      (4 < s.rd .IND_ADDR_SPACE →
        Completes .indDataRead s fun t =>
          Out.indRead 0 ∈ t.out ∧ t.flag .IND_STAT_BADSPACE = true ∧
          KeepsFields s t [(.IND_ADDR, 0), (.IND_STAT_BADSPACE, 0)] ∧ t.rest = s.rest)) ∧
    (s.barrier.readPending = f :: l →
      Completes .indTimeout s fun t =>
        Out.indRead 0xFFFFFFFF ∈ t.out ∧ t.flag .IND_STAT_TMO = true ∧ t.barrier.readPending = l ∧
        KeepsFields s t [(.IND_STAT_TMO, 0)] ∧ t.rest = { s.rest with barrier := t.barrier })

/-- R371, R372, R367, R294: a register takes a write from its owner and from nobody else; a write of another size or alignment is
counted and changes nothing; the doorbell submits one mailbox request at a time; a reservation of library entries is granted from
the count on, or fails. -/
def Obligations.RegistersRefuseOthersWrites : Prop :=
  ∀ (s : State) (v n a : Nat) (src : Source), s.power ≠ .off → v < 2 ^ 32 →
    (a < 2 ^ 24 → a % 4 = 0 → slicesAt a ≠ [] → ((slicesAt a).all fun x => !s.owns src x.field x.inst) = true →
      Completes (.registerWrite src a 4 v) s fun t =>
        t.flag .GLB_ERR_STAT_OWNERR = true ∧ t.rd .GLB_OWNERR_CNT = satSucc 32 (s.rd .GLB_OWNERR_CNT) ∧
        KeepsFields s t [(.GLB_ERR_STAT_OWNERR, 0), (.GLB_OWNERR_CNT, 0)] ∧ t.rest = s.rest) ∧
    (a < 2 ^ 24 → a % 4 ≠ 0 →
      Completes (.registerWrite src a 4 v) s fun t =>
        t.rd .GLB_OWNERR_CNT = satSucc 32 (s.rd .GLB_OWNERR_CNT) ∧ KeepsFields s t [(.GLB_OWNERR_CNT, 0)] ∧ t.rest = s.rest) ∧
    (Completes .mbxDoorbell s fun t =>
      t.flag .MLK_MBX_STAT_BUSY = true ∧ (s.flag .MLK_MBX_STAT_BUSY = true → t.flag .MLK_MBX_STAT_DBERR = true) ∧
      KeepsFields s t [(.MLK_MBX_STAT_BUSY, 0), (.MLK_MBX_STAT_DBERR, 0)] ∧ t.rest = s.rest) ∧
    (0 < n → n < 65536 →
      Completes (.libReserve n) s fun t =>
        let c := s.rd .TCH_LIB_CNT
        t.flag .TCH_LIB_RSVIDX_FAIL = decide (s.rd .TCH_LIB_MAX < c + n) ∧
        (c + n ≤ s.rd .TCH_LIB_MAX → t.rd .TCH_LIB_RSVIDX_IDX = wrap 25 c ∧ t.rd .TCH_LIB_CNT = wrap 25 (c + n)) ∧
        KeepsFields s t [(.TCH_LIB_RSVIDX_FAIL, 0), (.TCH_LIB_RSVIDX_IDX, 0), (.TCH_LIB_CNT, 0)] ∧ t.rest = s.rest)

/-- R305 to R310: a batch request in turn is taken and its batch begins, or is refused; a slot that ends is no longer left and
leaves its status; a batch with no slot left ends; a new 10 µs gives the decoder its cap back. A validation starts with the status
of its checks, and where they pass the replay job of the source slot enters queue 8; one whose run is over gives its target slot the source
slot's recipe with the new weights if it is accepted, and in fixed-schedule mode none ends. -/
def Obligations.BatchesAndValidation : Prop :=
  ∀ (s : State) (q : Fin 2) (r : List Byte) (b : Batch) (slot src dst : Nat) (samples : List ValSample) (port : Port),
    (s.batch = none → s.decReady q = true → s.lastDec ≠ q →
      let u : Dev := { s.countMod .DEC_Q_HEAD q with lastDec := q }
      let asid := s.rd .DEC_Q_CTL_ASID q
      let place := s.rd .DEC_Q_BASE_ADDR q * 64 + 64 * (s.rd .DEC_Q_HEAD q % 2 ^ s.rd .DEC_Q_CTL_LOG2 q)
      let w := u.useFree.touch none asid 0 place 64
      u.vread none asid place 64 = .ok r →
      s.requestCode r = 0 → w.writeFault (reqAsid r) (leAt r 48 8) (16 * reqB r) = none → w.writeFault (reqAsid r) (leAt r 56 8) 32 = none →
      Completes (.batchRequest q) s fun t =>
        t.batch = some { queue := q, req := r, left := upTo (reqB r) } ∧ t.rd .DEC_Q_HEAD q = wrap 16 (s.rd .DEC_Q_HEAD q + 1) ∧
        KeepsFields s t [(.DEC_Q_HEAD, q)] ∧ t.rest = { s.rest with batch := t.batch, lastDec := q, free := t.free, tlb := t.tlb }) ∧
    (s.batch = some b → slot < 65536 → slot ∈ b.left → s.capUsed < s.rd .DEC_BWCAP * 10000 →
      Completes (.sampleDecodeDone slot .syntaxError) s fun t =>
        (t.batch.map fun c => c.left) = some (b.left.filter fun j => j != slot) ∧
        (t.batch.map fun c => c.results.length) = some (b.results.length + 1) ∧
        s.capUsed ≤ t.capUsed ∧
        KeepsFields s t ((.DEC_CORRUPT_CNT, 0) :: (.MMU_FAULTQ_CNT_OVF, 0) :: (((upTo 16).map fun k => (.DEC_STRM_ST_LAST, k)) ++
          errorFields)) ∧
        t.body = { s.body with batch := t.batch, mem := t.mem, capUsed := t.capUsed, free := t.free, faultq := t.faultq, tlb := t.tlb }) ∧
    (s.batch = some b → b.left = [] →
      Completes .batchComplete s fun t =>
        t.batch = none ∧
        (b.count 0 = 0 → b.count 1 ≠ 0 → t.rd .DEC_SKIP_CNT = satSucc 32 (s.rd .DEC_SKIP_CNT)) ∧
        KeepsFields s t ((.DEC_SKIP_CNT, 0) :: (.MMU_FAULTQ_CNT_OVF, 0) :: errorFields) ∧
        t.body = { s.body with batch := none, mem := t.mem, sync := t.sync, faultq := t.faultq, tlb := t.tlb }) ∧
    (Completes .decoderCapWindow s fun t => t.capUsed = 0 ∧ KeepsFields s t [] ∧ t.rest = { s.rest with capUsed := 0 }) ∧
    (s.answers port = true → s.power ≠ .recovery → mayWrite rwRwRR port = true → s.validating = none →
      Completes (.validationStart port 1) s fun t =>
        let x := s.validationCheck (s.odNum 0x7100 1 0) (s.odNum 0x7100 2 0)
        t.odNum 0x7100 5 0 = x ∧ t.svc.lastStatus = stOk ∧
        t.validating = (if x = 1 then some (s.odNum 0x7100 1 0, s.odNum 0x7100 2 0) else none) ∧
        t.posted = (if x = 1 then s.posted ++ [(((s.slot (s.odNum 0x7100 1 0)).image.map fun i => i.replay).getD 0, 8)] else s.posted) ∧
        t.rd .JOB_Q_TAIL 8 = (if x = 1 then wrap 16 (s.rd .JOB_Q_TAIL 8 + 1) else s.rd .JOB_Q_TAIL 8) ∧
        KeepsFields s t [(.JOB_Q_TAIL, 8)] ∧
        t.rest = { s.rest with od := t.od, svc := t.svc, validating := t.validating, posted := t.posted }) ∧
    (s.flag .GLB_MODE_FIXED = true →
      Completes (.validationComplete samples) s fun t => KeepsFields s t [] ∧ t.rest = s.rest) ∧
    (s.flag .GLB_MODE_FIXED = false → s.validating = some (src, dst) → samples.map (fun x => x.index) = s.heldOut →
    (samples.all fun x => decide (x.verdict < 256)) = true →
      Completes (.validationComplete samples) s fun t =>
        t.validating = none ∧ t.odNum 0x7100 6 0 = samples.length ∧ t.odNum 0x7100 7 0 = s.agreements samples ∧
        t.odNum 0x7100 8 0 = s.falsePasses samples ∧
        (s.accepts samples = false → t.odNum 0x7100 5 0 = 3 ∧ t.slots = s.slots) ∧
        (s.accepts samples = true → (s.slot dst).st = 0 → t.odNum 0x7100 5 0 = 2 ∧ (t.slot dst).st = 2 ∧
        (t.slot dst).image = (s.slot src).image ∧
          (t.slot dst).weights = some (s.odNum 0x7100 3 0)) ∧
        KeepsFields s t [] ∧ t.rest = { s.rest with od := t.od, slots := t.slots, validating := none })

/-- R319, R320, R326, R328, R329, R331, R332, R314: what a frame that a port takes does at the member it is for, after its header and its
sequence number have been taken. R26: the report of the module's own presence kernel, which is a PRES row with the module's own number
as its source (log entry 31, the model's choice), opens or closes a part. -/
def Obligations.HerdFramesTaken : Prop :=
  ∀ (s : State) (p : Fin 4) (h : ZHdr) (pos k sc m : Nat) (lane : Fin 64) (on sig : Bool) (pf : PartFrame) (mf : MarkFrame)
    (hf : HelloFrame) (dr : DictReq) (l : List VerdictRec) (block : List Byte), h.wf = true →
    (s.live = true → h.src = s.memberNo → s.worker = false → s.detectInput lane = none → pos < 2 ^ 64 →
      Completes (.pres p h pos lane on) s fun t => (t.lane lane).present = on ∧ t.parts = (s.presence lane pos on false).parts) ∧
    let u := s.header p h
    let w := (u.takeSeq p h.seq).1
    s.portOn p = true → u.flag .ZXL_STAT_UP p = true → (u.takeSeq p h.seq).2 = true → h.bc = false → h.dst = w.memberNo →
    h.src ≠ w.memberNo →
    (pf.wf = true → w.worker = true →
      Completes (.part p h pf) s fun t =>
        let a := sepBase + 0x200000 + 64 * (pf.partid % 32768)
        t.leRead a 4 = pf.partid ∧ t.byteAt (a + 4) = 0xFF ∧ t.leRead (a + 8) 8 = pf.start ∧
        (pf.close = true → t.leRead (a + 16) 8 = pf.fin) ∧ KeepsBytes { s with toDev := w } t a 64 ∧ t.parts = w.parts) ∧
    ((l.all VerdictRec.wf) = true → 1 ≤ l.length → l.length ≤ 16 → w.manager = true →
      Completes (.verd p h l) s fun t => t.parts = (l.foldl (fun d r => d.takeRecord r) w).parts ∧ t.slots = w.slots) ∧
    (mf.wf = true → w.manager = true → mf.code = 0xE0 → mf.fin = 2 ^ 64 - 1 →
      Completes (.mark p h mf) s fun t =>
        t.marks = { source := .remote h.src mf.ident, start := mf.start, fin := none, lanes := mf.lanes, code := 0xE0, ident := w.herd.markId }
          :: w.marks ∧ t.mem = w.mem ∧ t.encs = w.encs) ∧
    (pos < 2 ^ 64 → w.manager = true →
      Completes (.pres p h pos lane on) s fun t => (t.lane lane).present = on ∧ t.parts = (w.presence lane pos on false).parts) ∧
    (k < 2 ^ 37 → sc < 2 ^ 14 → block.length = 128 →
      (w.inBulk k = true → w.reachable none (false, k, 128) = true →
        Completes (.bulk p h k sc sig block) s fun t =>
          t.bytesAt k 128 = block ∧ t.sc sc = wrap 64 (w.sc sc + sig.toNat) ∧ (m ≠ sc → t.sc m = w.sc m) ∧
          KeepsBytes { s with toDev := w } t k 128 ∧ KeepsFields { s with toDev := w } t [] ∧
          t.rest = { w.rest with mem := t.mem, sync := t.sync }) ∧
      (w.inBulk k = false →
        Completes (.bulk p h k sc sig block) s fun t =>
          t.rd .ZXL_BAD_CNT p = satSucc 32 (w.rd .ZXL_BAD_CNT p) ∧ KeepsFields { s with toDev := w } t [(.ZXL_BAD_CNT, p)] ∧
          t.rest = w.rest)) ∧
    (hf.wf = true → w.manager = true → w.worker = false → s.worker = false →
      (w.knownMember p hf = true →
        Completes (.hello p h hf) s fun t =>
          tabFind? t.herd.members hf.member = some { port := p, slots := hf.slots } ∧ KeepsFields { s with toDev := w } t [] ∧
          t.rest = { w.rest with herd := t.herd }) ∧
      (w.knownMember p hf = false → w.admissible hf = false →
        Completes (.hello p h hf) s fun t =>
          t.flag .HRD_STAT_CFGERR = true ∧ KeepsFields { s with toDev := w } t ((.HRD_STAT_CFGERR, 0) :: logFields) ∧ t.body = w.body)) ∧
    (k < 8 → pos < 2 ^ 64 → w.worker = true → (w.slot k).st < 2 →
      Completes (.switch p h k pos) s fun t =>
        t.flag .HRD_STAT_INSERV = true ∧ KeepsFields { s with toDev := w } t [(.HRD_STAT_INSERV, 0)] ∧ t.rest = w.rest) ∧
    (dr.wf = true → w.worker = false →
      Completes (.dict p h dr false) s fun t => KeepsFields { s with toDev := w } t [] ∧ t.rest = w.rest)

/-- R324 to R327: the manager sends POS with the next sequence number; a worker takes a POS frame that is new and shows its speed and
flags; a member on whose port TIME arrives keeps its time for the echo, and a worker shows TSYNC after 16 from upstream; a worker
that hears no POS loses its position. -/
def Obligations.HerdPositionAndTime : Prop :=
  ∀ (s : State) (p : Fin 4) (h : ZHdr) (f : PosFrame) (peer echo : Nat) (error : Int), h.wf = true →
    let u := s.header p h
    let leaves (p seq : Nat) (f : ZFrame) (t : State) : Prop :=
      let q := s.zport p
      let up := s.flag .ZXL_STAT_RXUP p
      Out.zanyx p seq q.rxSeq q.nak up f (f.wire seq q.rxSeq q.nak up) ∈ t.out
    (s.sendsPos = true → s.flag .ZXL_CTL_EN p = true → s.flag .ZXL_STAT_UP p = true → s.flag .ZXL_STAT_TXSLEEP p = false →
      Completes .posSend s fun t =>
        t.herd.bseq = wrap 16 (s.herd.bseq + 1) ∧
        leaves p 0 { src := s.memberNo, dst := 0, bc := true, load := .pos (s.posFrame false) } t ∧
        KeepsFields s t [] ∧ t.rest = { s.rest with herd := t.herd, zports := t.zports }) ∧
    (f.wf = true → s.portOn p = true → s.worker = true → u.worker = true → s.seenPos f.bseq = false → u.flag .ZXL_STAT_UP p = true →
    h.src ≠ u.memberNo →
      h.bc = false → h.dst = u.memberNo →
      Completes (.pos p h f) s fun t =>
        t.herd.pos = some f ∧ t.herd.seen = some f.bseq ∧ t.rd .ENC_SPEED = f.speed ∧ t.rd .ENC_ACCEL = f.accel ∧
        t.flag .ENC_MSTAT_DIR = bit f.flags 0 ∧ t.flag .ENC_MSTAT_STOP = bit f.flags 1 ∧ t.flag .ENC_MSTAT_SPDV = bit f.flags 2 ∧
        t.herd.dozing = bit f.flags 3) ∧
    (s.portOn p = true → s.flag .ZXL_STAT_UP p = true → s.flag .ZXL_STAT_TXSLEEP p = false →
      Completes .timeSend s fun t =>
        leaves p 0 { src := s.memberNo, dst := 0, bc := false, load := .time s.ns40 (s.zport p).echo } t ∧
        KeepsFields s t [] ∧ t.rest = { s.rest with zports := t.zports }) ∧
    (peer < 2 ^ 40 → echo < 2 ^ 40 → s.portOn p = true → u.flag .ZXL_STAT_UP p = true →
      Completes (.time p h peer echo error) s fun t =>
        (t.zport p).echo = peer ∧ (t.zport p).times = (u.zport p).times + 1 ∧
        (u.worker = true → (p : Nat) = u.upstream → 15 ≤ (u.zport p).times → t.flag .HRD_STAT_TSYNC = true) ∧
        (u.worker = false → KeepsFields { s with toDev := u } t [] ∧ t.rest = { u.rest with zports := t.zports })) ∧
    (s.live = true → s.worker = true → s.herd.dozing = false → s.flag .HRD_STAT_POSLOST = false →
      Completes .poslost s fun t =>
        t.flag .HRD_STAT_POSLOST = true ∧ t.rd .HRD_POSLOST_CNT = satSucc 32 (s.rd .HRD_POSLOST_CNT) ∧
        (t.marks.any fun m => m.source == .position && m.fin.isNone) = true ∧ t.parts = s.parts)

/-- R321 to R323, R333, R334, R319, R332: a port that locks and hears its peer comes up; frames that are not acknowledged are sent again
and take the port down after four replays; a direction sleeps and wakes; a bad frame is counted. A member that is lost leaves
service; a HELLO tells the manager a worker's slots; a relayed request without an answer ends UNREACHABLE. -/
def Obligations.HerdPortsAndMembers : Prop :=
  ∀ (s : State) (p : Fin 4) (h : ZHdr) (n k typ ack reqid trx : Nat) (f : ZFrame) (l : List (Nat × Nat × ZFrame)) (m : Fin 64) (r : DictReq),
    let leaves (p seq : Nat) (f : ZFrame) (t : State) : Prop :=
      let q := s.zport p
      let up := s.flag .ZXL_STAT_RXUP p
      Out.zanyx p seq q.rxSeq q.nak up f (f.wire seq q.rxSeq q.nak up) ∈ t.out
    (s.portOn p = true → s.flag .ZXL_STAT_RXUP p = false → s.flag .ZXL_STAT_PEERUP p = false →
      Completes (.zanyxLinkUp p) s fun t =>
        t.flag .ZXL_STAT_LOCK p = true ∧ t.flag .ZXL_STAT_RXUP p = true ∧
        KeepsFields s t [(.ZXL_STAT_LOCK, p), (.ZXL_STAT_RXUP, p)] ∧ t.rest = s.rest) ∧
    (s.flag .ZXL_STAT_LOCK p = true → s.rd .HRD_CTL_TOPO ≠ 1 →
      Completes (.zanyxPortDown p) s fun t =>
        t.flag .ZXL_STAT_UP p = false ∧ t.flag .ZXL_STAT_LOCK p = false ∧ t.flag .ZXL_STAT_DOWN p = true ∧
        t.rd .ZXL_DOWN_CNT p = satSucc 32 (s.rd .ZXL_DOWN_CNT p) ∧ (t.zport p).replay = [] ∧
        (t.zport p).waiting = ((s.zport p).replay.map fun e => e.2.2) ++ (s.zport p).waiting.filter (fun x => x.load.sequenced) ∧
        t.rest = { s.rest with zports := t.zports, herd := t.herd }) ∧
    (s.flag .ZXL_STAT_UP p = true → (s.zport p).replay = (n, k, f) :: l → k < 4 →
      (Completes (.replayTimeout p) s fun t =>
        leaves p n f t ∧ (t.zport p).replay = (n, k + 1, f) :: l ∧ t.rd .ZXL_REPLAY_CNT p = satSucc 32 (s.rd .ZXL_REPLAY_CNT p) ∧
        KeepsFields s t [(.ZXL_REPLAY_CNT, p)] ∧ t.rest = { s.rest with zports := t.zports }) ∧
      (ack < 4096 → ack ≠ n → l = [] →
        Completes (.zanyxNak p ack) s fun t =>
          leaves p n f t ∧ (t.zport p).replay = [(n, k + 1, f)] ∧ KeepsFields s t [(.ZXL_REPLAY_CNT, p)] ∧
          t.rest = { s.rest with zports := t.zports })) ∧
    (s.flag .ZXL_STAT_UP p = true → (s.zport p).replay = (n, k, f) :: l → 4 ≤ k →
      Completes (.replayTimeout p) s fun t => t.flag .ZXL_STAT_UP p = false ∧ t.flag .ZXL_STAT_DOWN p = true) ∧
    (s.flag .ZXL_STAT_UP p = true → s.flag .ZXL_CTL_NOSLEEP p = false → s.flag .ZXL_STAT_TXSLEEP p = false → s.sendsPos = false →
      (s.zport p).waiting = [] →
      Completes (.zanyxSleep p) s fun t =>
        t.flag .ZXL_STAT_TXSLEEP p = true ∧ KeepsFields s t [(.ZXL_STAT_TXSLEEP, p)] ∧ t.rest = { s.rest with zports := t.zports }) ∧
    (s.flag .ZXL_STAT_TXSLEEP p = true → s.flag .ZXL_STAT_UP p = true → (s.zport p).waiting = [f] → f.load.sequenced = true →
      (s.zport p).held + f.size ≤ 65536 →
      Completes (.zanyxWake p) s fun t =>
        t.flag .ZXL_STAT_TXSLEEP p = false ∧ (t.zport p).waiting = [] ∧
        (t.zport p).replay = (s.zport p).replay ++ [((s.zport p).txSeq, 0, f)] ∧
        KeepsFields s t [(.ZXL_STAT_TXSLEEP, p)] ∧ t.rest = { s.rest with zports := t.zports }) ∧
    (h.wf = true → s.portOn p = true → (s.header p h).flag .ZXL_STAT_UP p = true →
      Completes (.idleFrame p h true) s fun t =>
        t.flag .ZXL_STAT_RXSLEEP p = true ∧ KeepsFields { s with toDev := s.header p h } t [(.ZXL_STAT_RXSLEEP, p)] ∧
        t.rest = (s.header p h).rest) ∧
    (s.portOn p = true → 10 ≤ typ → typ < 16 →
      Completes (.zanyxBadFrame p typ 1 true) s fun t =>
        t.rd .ZXL_BAD_CNT p = satSucc 32 (s.rd .ZXL_BAD_CNT p) ∧ KeepsFields s t [(.ZXL_BAD_CNT, p)] ∧ t.rest = s.rest) ∧
    (s.portOn p = true → typ < 16 →
      Completes (.zanyxBadFrame p typ 1 false) s fun t =>
        t.rd .ZXL_CRC_CNT p = satSucc 32 (s.rd .ZXL_CRC_CNT p) ∧ KeepsFields s t [(.ZXL_CRC_CNT, p)] ∧
        t.rest = { s.rest with zports := t.zports }) ∧
    (s.worker = true → s.live = true → s.flag .ZXL_STAT_UP s.upstream = true → s.flag .ZXL_STAT_TXSLEEP s.upstream = false →
      (s.zport s.upstream).waiting = [] → (s.zport s.upstream).held + 32 ≤ 65536 →
      Completes .helloSend s fun t =>
        let q := s.zport s.upstream
        let f : HelloFrame := { member := s.memberNo, role := 2, tsync := s.flag .HRD_STAT_TSYNC, slots := (rangeFrom 0 8).map fun k => (s.slot k).st }
        leaves s.upstream q.txSeq { src := s.memberNo, dst := 0, bc := false, load := .hello f } t ∧
        KeepsFields s t [] ∧ t.rest = { s.rest with zports := t.zports }) ∧
    (s.manager = true → s.inService m = true →
      Completes (.workerLost m) s fun t =>
        t.inService m = false ∧ t.flag .HRD_STAT_MLOST = true ∧ t.rd .HRD_LOST_CNT = satSucc 32 (s.rd .HRD_LOST_CNT) ∧
        KeepsFields s t ([(.HRD_INSERV, 0), (.HRD_STAT_MLOST, 0), (.HRD_LOST_CNT, 0)] ++ logFields) ∧
        t.body = { s.body with marks := t.marks, parts := t.parts }) ∧
    (reqid < 2 ^ 32 → s.herd.relays = [(trx, r, .m)] → r.reqid = reqid → s.answers .m = true → s.svc.waiting = [] →
      Completes (.dictRelayTimeout reqid) s fun t =>
        t.herd.relays = [] ∧ Out.response .m (s.response r trx { status := stUnreach }) ∈ t.out ∧ KeepsFields s t [] ∧
        t.rest = { s.rest with herd := t.herd, svc := t.svc, free := t.free })

/-- R338 to R341, R344 to R352: steps and rates of the servo's owner, the latch of device time, stamps and counts of PTP event messages, the
queue of transmit stamps, holdover and its end, the hand-over of the servo, the links of the Ethernet ports and the time-triggered
outputs. -/
def Obligations.DeviceTimeAndOutputs : Prop :=
  ∀ (s : State) (src : Source) (step rate : Int) (m : PtpMsg) (master : Nat) (port : Port) (v : Bool) (e : Fin 3) (o : Fin 8) (edge : Nat),
    (src = s.servoOwner →
      (-(2 ^ 63) ≤ step → step < 2 ^ 63 → s.stepAllowed step = true →
        Completes (.timeStep src step) s fun t =>
          (t.timeU : Int) = ((s.timeU : Int) + step * 2048000000000) % (2 ^ 64 * 2048000000000 : Nat) ∧ t.flag .TIM_STAT_STEPPED = true ∧
          t.flag .TIM_STAT_TSET = true ∧ t.rd .TIM_STAT_SGEN = wrap 2 (s.rd .TIM_STAT_SGEN + 1) ∧ t.flag .TIM_CTL_OVR = false ∧
          t.mem = s.mem ∧ t.parts = s.parts) ∧
      (-(2 ^ 63) ≤ step → step < 2 ^ 63 → s.stepAllowed step = false →
        Completes (.timeStep src step) s fun t =>
          t.timeU = s.timeU ∧ t.flag .TIM_STAT_STEPREF = true ∧
          KeepsFields s t ([(.TIM_STAT_STEPREF, 0), (.TIM_RATE, 0)] ++ logFields) ∧ t.body = s.body) ∧
      (-512000000 ≤ rate → rate ≤ 512000000 →
        Completes (.timeRateWrite src rate) s fun t =>
          t.rate = rate ∧ KeepsFields s t [(.TIM_RATE, 0)] ∧ t.rest = s.rest) ∧
      (Completes (.txqPop src) s fun t => t.tb.txq = s.tb.txq.drop 1 ∧ KeepsFields s t [] ∧ t.rest = { s.rest with tb := t.tb })) ∧
    (src ≠ s.servoOwner → -(2 ^ 31) ≤ rate → rate < 2 ^ 31 →
      Completes (.timeRateWrite src rate) s fun t =>
        t.flag .GLB_ERR_STAT_OWNERR = true ∧ KeepsFields s t [(.GLB_ERR_STAT_OWNERR, 0), (.GLB_OWNERR_CNT, 0)] ∧ t.rest = s.rest) ∧
    (Completes .timNsRead s fun t =>
      t.rd .TIM_WRAP = wrap 8 (s.ns40 / 2 ^ 32) ∧ Out.barRead (leBytes s.ns40 4) ∈ t.out ∧ KeepsFields s t [(.TIM_WRAP, 0)] ∧
      t.rest = s.rest) ∧
    (m.wf = true → m.port < 2 → m.msgType < 4 → s.ethOn m.port = true → s.flag .ETH_STAT_LINK m.port = true → m.tx = true →
      s.tb.txq.length < 16 →
      Completes (.ptpMessage m) s fun t =>
        t.rd .ETH_PTP_CNT m.port = satSucc 32 (s.rd .ETH_PTP_CNT m.port) ∧ t.tb.txq.length = s.tb.txq.length + 1 ∧
        KeepsFields s t [(.ETH_PTP_CNT, m.port)] ∧ t.rest = { s.rest with tb := t.tb, free := t.free }) ∧
    (m.wf = true → s.ptpPort m.port = true → s.ethOn m.port = true → s.flag .ETH_STAT_LINK m.port = true → m.tx = false → master < 3 →
      s.ptpPort master = true →
      Completes (.ptpGeneralMessage m (some master)) s fun t =>
        t.flag .TIM_STAT_HOLD = false ∧ t.tb.parent = some master ∧ KeepsFields s t [(.TIM_STAT_HOLD, 0)] ∧
        t.rest = { s.rest with tb := t.tb }) ∧
    (s.tb.parent ≠ none →
      Completes .announceTimeout s fun t =>
        t.flag .TIM_STAT_HOLD = true ∧ t.flag .TIM_STAT_LOCKED = false ∧ t.rate = s.rate ∧
        KeepsFields s t [(.TIM_STAT_HOLD, 0), (.TIM_STAT_LOCKED, 0)] ∧ t.rest = { s.rest with tb := t.tb }) ∧
    (s.answers port = true → s.power ≠ .recovery → mayWrite rwRRNo port = true →
      Completes (.servoHandover port v) s fun t =>
        t.flag .TIM_CTL_HOSTSERVO = v ∧ t.rate = s.rate ∧ KeepsFields s t [(.TIM_CTL_HOSTSERVO, 0)] ∧
        t.rest = { s.rest with svc := t.svc }) ∧
    (s.flag .ETH_STAT_LINK e = true →
      Completes (.ethLinkLoss e) s fun t =>
        t.flag .ETH_STAT_LINK e = false ∧ t.flag .ETH_STAT_LINKDOWN e = true ∧
        KeepsFields s t [(.ETH_STAT_LINK, e), (.ETH_STAT_LINKDOWN, e)] ∧ t.rest = s.rest) ∧
    (s.ethOn e = true →
      Completes (.ethLinkUp e) s fun t =>
        t.flag .ETH_STAT_LINK e = true ∧ KeepsFields s t [(.ETH_STAT_LINK, e)] ∧ t.rest = s.rest) ∧
    (s.answers port = true → s.power ≠ .recovery → mayWrite rwRwRR port = true →
      (s.ttoBad o = true →
        Completes (.ttoEnable port o) s fun t =>
          t.flag .TIM_TTO_STAT_CFGERR o = true ∧ t.svc.lastStatus = stRange ∧ KeepsFields s t [(.TIM_TTO_STAT_CFGERR, o)] ∧
          t.rest = { s.rest with svc := t.svc }) ∧
      (s.ttoBad o = false → s.fullNs ≤ s.odNum (0x6200 + o) 2 0 →
        Completes (.ttoEnable port o) s fun t =>
          t.flag .TIM_TTO_CTL_EN o = true ∧ (t.tto o).next = some (s.odNum (0x6200 + o) 2 0) ∧ t.svc.lastStatus = stOk ∧
          KeepsFields s t [(.TIM_TTO_CTL_EN, o)] ∧ t.rest = { s.rest with ttos := t.ttos, svc := t.svc })) ∧
    (s.ttoOn o = true → (s.tto o).next = some edge →
      Completes (.ttoEdge o) s fun t =>
        (t.tto o).active = true ∧ (t.tto o).next = (if s.rd .TIM_TTO_PERIOD o = 0 then none else some (edge + s.rd .TIM_TTO_PERIOD o)) ∧
        s.xclk ≤ t.xclk ∧ (0 < s.periodUnits → edge * 2048000000000 ≤ t.timeU)) ∧
    (Completes (.ttoWidthExpiry o) s fun t =>
      (t.tto o).active = false ∧ (t.tto o).next = (s.tto o).next ∧ KeepsFields s t [] ∧ t.rest = { s.rest with ttos := t.ttos })

/-- R357, R363 to R366, R361: a request that no other awaits is served at once and its response leaves by its port: a READ answers with
the entry's value and changes nothing else; INFO describes the entry; a WRITE ends with the status of the entry's own checks; a
segment opens a sequence; a repeat has the stored response; an unknown entry and a bad header are answered as such. -/
def Obligations.DictionaryServed : Prop :=
  ∀ (s : State) (p : Port) (r : DictReq) (e : OdEntry) (x : CacheEntry) (bad : Bool) (i k : Nat) (v : OdVal), p ≠ .z →
  s.answers p = true → s.power ≠ .recovery →
    s.herd.relays = [] → s.svc.waiting = [] → r.wf = true → r.whole = true →
    let trx := wrap 64 (s.fullNs + s.freeValue 32 % 5001)
    let u := (if p = .h then s.setFlag .MLK_MBX_STAT_BUSY 0 true else s.toDev).useFree
    let mbx : List (Field × Nat) := [(.MLK_MBX_STAT_BUSY, 0), (.MLK_MBX_STAT_DONE, 0)]
    (s.repeated p r = none → headerOk r = true → s.isLocal r = true →
      (odEntry? r.index r.sub = some e →
        (r.op = 1 → e.typ ≠ 9 → mayRead e.rights p = true →
          Completes (.dictRead p r) s fun t =>
            let w := u.readsEntry r.index r.sub 0 0
            Out.response p (w.response r trx { status := stOk, data := odEncode e (u.odValue r.index r.sub e) }) ∈ t.out ∧
            KeepsFields s t ((.TLY_STAT_DAMAGED, 0) :: mbx) ∧ t.rest = { s.rest with svc := t.svc, free := t.free, bar := t.bar }) ∧
        (r.op = 3 → mayRead e.rights p = true →
          Completes (.dictInfo p r) s fun t =>
            Out.response p (u.response r trx { status := stOk, data := u.infoBytes r.index r.sub e }) ∈ t.out ∧
            KeepsFields s t mbx ∧ t.rest = { s.rest with svc := t.svc, free := t.free, bar := t.bar }) ∧
        (r.op = 4 → mayRead e.rights p = true → r.offset ≤ u.odLength r.index r.sub e →
          Completes (.dictReadseg p r) s fun t =>
            let w := u.readsEntry r.index r.sub r.offset r.length
            let last := decide (u.odLength r.index r.sub e ≤ r.offset + r.length)
            Out.response p (w.response r trx
              { status := stOk, flags := last.toNat, data := u.odPart r.index r.sub e r.offset r.length }) ∈ t.out ∧
            KeepsFields s t ((.TLY_STAT_DAMAGED, 0) :: mbx) ∧ t.rest = { s.rest with svc := t.svc, free := t.free, bar := t.bar }) ∧
        (r.op = 2 → mayWrite e.rights p = false →
          Completes (.dictWrite p r bad) s fun t =>
            Out.response p (u.response r trx { status := stDenied }) ∈ t.out ∧
            KeepsFields s t mbx ∧ t.rest = { s.rest with svc := t.svc, free := t.free, bar := t.bar }) ∧
        (r.op = 2 → mayWrite e.rights p = true → e.typ ≠ 9 → odDecode e r.data = some v →
          Completes (.dictWrite p r bad) s fun t =>
            let w := u.odWrite p r.index r.sub e v bad
            Out.response p (w.response r trx { status := w.svc.lastStatus }) ∈ t.out ∧ t.od = w.od ∧ t.nvm = w.nvm) ∧
        (r.op = 5 → mayWrite e.rights p = true → e.typ = 9 → s.svc.seqs = [] → r.offset = 0 → r.data ≠ [] → bit r.flags 0 = false →
          r.index ≠ 0xA200 →
          Completes (.dictWriteseg p r bad) s fun t =>
            t.svc.seqs = [{ key := odKey r.index r.sub, port := p, src := r.src, data := r.data }] ∧
            Out.response p (u.response r trx { status := stOk }) ∈ t.out ∧
            KeepsFields s t mbx ∧ t.rest = { s.rest with svc := t.svc, free := t.free, bar := t.bar })) ∧
      (odEntry? r.index r.sub = none → r.op = 1 →
        Completes (.dictRead p r) s fun t =>
          Out.response p (u.response r trx { status := stNoEntry }) ∈ t.out ∧
          KeepsFields s t mbx ∧ t.rest = { s.rest with svc := t.svc, free := t.free, bar := t.bar })) ∧
    (s.repeated p r = some x → r.op = 1 →
      Completes (.dictRead p r) s fun t =>
        Out.response p x.resp ∈ t.out ∧ KeepsFields s t mbx ∧ t.rest = { s.rest with svc := t.svc, free := t.free, bar := t.bar }) ∧
    (s.repeated p r = none → headerOk r = false →
      Completes (.malformedDatagram (.badHeader p r)) s fun t =>
        Out.response p (u.response r trx { status := stBadReq }) ∈ t.out ∧
        KeepsFields s t mbx ∧ t.rest = { s.rest with svc := t.svc, free := t.free, bar := t.bar }) ∧
    (s.answers .m = true →
      Completes (.malformedDatagram .short) s fun t =>
        t.odNum 0x1001 2 0 = wrap 32 (s.odNum 0x1001 2 0 + 1) ∧ KeepsFields s t [] ∧ t.rest = { s.rest with od := t.od }) ∧
    (i < 65536 → k < 256 →
      Completes (.segmentSequenceTimeout i k) s fun t =>
        t.svc.seqs = s.svc.seqs.filter (fun q => q.key != odKey i k) ∧ KeepsFields s t [] ∧ t.rest = { s.rest with svc := t.svc }) ∧
    (Completes (.responseCacheExpiry i k) s fun t =>
      t.svc.cache = s.svc.cache.filter (fun q => !(q.src == i && q.reqid == k)) ∧ KeepsFields s t [] ∧
      t.rest = { s.rest with svc := t.svc })

/-- R380 to R383, R392, R400, R431, R436: a low RST_N enters a warm reset, in which the fields that outlive it and the LPDDR5X keep their
values and all else is cleared; 10 ms make it a cold one, which clears time and memory; its release starts stage 1 and
`RCP_CAUSE` says why. POR and the return of the main input start cold; the loss of a supply leads to Off; a PCIe reset takes the
link alone. -/
def Obligations.ResetsAndSupplies : Prop :=
  ∀ (s : State) (f : Field) (i a low : Nat), i < 1024 →
    (s.live = true →
      Completes .rstNLow s fun t =>
        t.power = .resetting ∧ t.rst.cold = false ∧ t.parts = [] ∧ t.jobs = [] ∧ t.fires = [] ∧ t.encs = s.encs ∧
        s.xclk ≤ t.xclk ∧ t.timeU = s.timeU + (t.xclk - s.xclk) * s.periodUnits ∧ t.xclk = s.sendSafe.xclk ∧
        t.byteAt a = (if inLpddr a then s.byteAt a else 0) ∧
        (f.outlives false = false → t.rd f i = wrap f.desc.width (f.resetAt i)) ∧
        (f.outlives false = true → f ∉ [.OBS_TRC_STAT_STOPPED, .TLY_USED, .TLY_STAT_FULL] → t.rd f i = s.rd f i)) ∧
    (s.power = .resetting →
      (s.rst.cold = false →
        Completes .coldResetEscalation s fun t =>
          t.power = .resetting ∧ t.rst.cold = true ∧ t.timeU = 0 ∧ t.xclk = 0 ∧ t.byteAt a = 0 ∧ t.encs = [] ∧ t.mlk.queue = [] ∧
          (f.outlives true = false → t.rd f i = wrap f.desc.width (f.resetAt i)) ∧
          (f.outlives true = true → f ∉ [.TLY_USED, .TLY_STAT_FULL] → t.rd f i = s.rd f i)) ∧
      (0 < low → low < 10000 →
        Completes (.rstNRelease low) s fun t =>
          t.power = .start ∧ t.rd .RCP_STATE = 0 ∧ t.rd .RCP_STATE_STAGE = 1 ∧ t.rd .RCP_CAUSE = (if s.rst.cold then 4 else 3) ∧
          t.rd .RCP_CAUSE_LOWTIME = low ∧
          KeepsFields s t [(.RCP_STATE, 0), (.RCP_STATE_STAGE, 0), (.RCP_CAUSE, 0), (.RCP_CAUSE_STAGE, 0), (.RCP_CAUSE_LOWTIME, 0)] ∧
          t.rest = { s.rest with power := .start, rst := t.rst }) ∧
      (10000 ≤ low → Completes (.rstNRelease low) s fun t => t.power = .start ∧ t.rd .RCP_CAUSE = 4 ∧ t.rst.cold = true)) ∧
    (Completes .por s fun t =>
      t.power = .start ∧ t.rd .RCP_STATE_STAGE = 1 ∧ t.rd .RCP_CAUSE = 1 ∧ t.byteAt a = 0 ∧ t.timeU = 0 ∧
      t.rd .TLY_PCYC = wrap 32 (s.rd .TLY_PCYC + 1) ∧ t.mlk.bank0 = s.mlk.bank0 ∧ t.mlk.bank1 = s.mlk.bank1) ∧
    (s.power ≠ .off →
      (Completes .vin12Loss s fun t =>
        t.power = .off ∧ t.byteAt a = 0 ∧ t.rd .RCP_CAUSE = s.rd .RCP_CAUSE ∧ t.rst.unpowered = s.rst.unpowered) ∧
      (Completes .vstbyLoss s fun t => t.power = .off ∧ t.byteAt a = 0 ∧ t.rst.unpowered = true)) ∧
    (s.power = .off → s.rst.unpowered = false →
      Completes .vin12Return s fun t =>
        t.power = .start ∧ t.rd .RCP_STATE_STAGE = 1 ∧ t.rd .RCP_CAUSE = 2 ∧ t.rd .TLY_PCYC = wrap 32 (s.rd .TLY_PCYC + 1)) ∧
    (s.power = .off → s.rst.unpowered = true → Completes .vin12Return s fun t => KeepsFields s t [] ∧ t.rest = s.rest) ∧
    (Completes .pcieReset s fun t => t.pcieUp = false ∧ KeepsFields s t [] ∧
      t.rest = { s.rest with pcieUp := false, bar := s.bar.filter fun c => !msixTable c.1 }) ∧
    (s.live = true → Completes .pcieLinkTraining s fun t => t.pcieUp = true ∧ KeepsFields s t [] ∧ t.rest = { s.rest with pcieUp := true })

/-- R384 to R387, R390, R391, R415, R360, R403: stages of a start: option bytes, bank selection, and Ready after the last; no usable option
bytes or no bank lead to Recovery. A start is confirmed, or times out into
HALTED; a restore of defaults waits for a cold reset. -/
def Obligations.StartSequenceRuns : Prop :=
  ∀ (s : State) (o : OptionCopy) (b : Bool) (port : Port),
    (s.power = .start →
      (s.rd .RCP_STATE_STAGE = 1 → s.optSelect = some (o, b) →
        Completes (.startStageComplete false) s fun t =>
          t.rd .RCP_STATE_STAGE = 2 ∧ t.rd .RCP_FAILSTART_LIMIT = wrap 4 o.failLim ∧ t.mlk.opt = o ∧ t.flag .RCP_STAT_OBSRC = b ∧
          t.rest = { s.rest with mlk := t.mlk }) ∧
      (s.rd .RCP_STATE_STAGE = 1 → s.optSelect = none →
        Completes (.startStageComplete false) s fun t => t.power = .recovery ∧ t.flag .RCP_STAT_OBERR = true ∧
        t.barrier.safeAlways = true) ∧
      (s.rd .RCP_STATE_STAGE = 3 →
        Completes (.startStageComplete false) s fun t =>
          t.rd .RCP_STATE_STAGE = 4 ∧ KeepsFields s t [(.RCP_STATE_STAGE, 0)] ∧ t.rest = s.rest) ∧
      (s.rd .RCP_STATE_STAGE = 4 → s.mlk.opt.tryBank = 0xFF → s.mlk.opt.active ≤ 1 → s.flag .RCP_STAT_OBFIX = false →
        Completes (.startStageComplete false) s fun t =>
          let a := s.mlk.opt.active
          if s.passes a = true ∨ s.passes (1 - a) = true then
            t.power = .start ∧ t.rd .RCP_STATE_STAGE = 5 ∧ t.rd .MLK_STAT_BANK = (if s.passes a = true then a else 1 - a) ∧
            t.flag .MLK_STAT_TRIAL = false
          else t.power = .recovery ∧ t.barrier.safeAlways = true) ∧
      (s.rd .RCP_STATE_STAGE = 7 →
        Completes (.startStageComplete false) s fun t =>
          t.power = .ready ∧ t.rd .RCP_STATE_STAGE = 8 ∧ (s.mlk.opt.confMode = 0 → t.flag .RCP_FAILSTART_CONFIRMED = true))) ∧
    (s.live = true → s.answers port = true → mayWrite rwRwRwNo port = true → s.flag .RCP_FAILSTART_CONFIRMED = false → s.rst.trial = false →
      Completes (.startConfirm port) s fun t =>
        t.flag .RCP_FAILSTART_CONFIRMED = true ∧ t.rd .RCP_FAILSTART_COUNT = 0 ∧ t.svc.lastStatus = stOk ∧
        KeepsFields s t [(.RCP_FAILSTART_CONFIRMED, 0), (.RCP_FAILSTART_COUNT, 0)] ∧ t.rest = { s.rest with svc := t.svc }) ∧
    (s.live = true → s.flag .RCP_FAILSTART_CONFIRMED = false → Completes .startTimeout s fun t => t.power = .halted ∧ t.parts = []) ∧
    (s.live = true → s.flag .RCP_FAILSTART_CONFIRMED = true → Completes .startTimeout s fun t => KeepsFields s t [] ∧ t.rest = s.rest) ∧
    (s.answers .m = true →
      (Completes (.failstartClear .m 0) s fun t =>
        t.rd .RCP_FAILSTART_COUNT = 0 ∧ t.svc.lastStatus = stOk ∧ KeepsFields s t [(.RCP_FAILSTART_COUNT, 0)] ∧
        t.rest = { s.rest with svc := t.svc }) ∧
      (s.power ≠ .recovery →
        Completes (.restoreDefaults .m) s fun t =>
          t.svc.restore = true ∧ t.svc.lastStatus = stOk ∧ KeepsFields s t [] ∧ t.rest = { s.rest with svc := t.svc }))

/-- R46, R72, R232, R393 to R399: the idle module passes to Ready, where locked receive directions and idle pipes sleep, and on to Doze
unless something holds XCLK; a demand brings it back to Run, and Standby and Off are entered from Ready or Doze alone, unless the entry is
abandoned; leaving Standby leads to Ready. A block is reset by its owner alone. -/
def Obligations.PowerStatesChange : Prop :=
  ∀ (s : State) (port : Port) (k : Fin 4) (n : Fin 24) (p : Fin 5),
    (s.power = .run → s.idle = true →
      Completes .readyEntry s fun t =>
        t.power = .ready ∧ t.rd .RCP_STATE = powerCode .ready ∧ t.xclkOn = s.bissMaster ∧
        t.link n = { s.link n with asleep := (s.link n).asleep || s.flag .CXP_LNK_STAT_LOCK n } ∧
        t.pipesOn.testBit p = (s.pipesOn.testBit p && s.pipeHolds p) ∧ KeepsFields s t [(.RCP_STATE, 0)] ∧
        t.rest = { s.rest with power := .ready, xclkOn := t.xclkOn, links := t.links, pipesOn := t.pipesOn }) ∧
    (s.power = .ready → s.flag .RCP_CTL_DOZEEN = true → s.holdsXclk = true →
      Completes .dozeEntry s fun t => KeepsFields s t [] ∧ t.rest = s.rest) ∧
    (s.power = .ready → s.flag .RCP_CTL_DOZEEN = true → s.holdsXclk = false → s.manager = false →
      Completes .dozeEntry s fun t =>
        t.power = .doze ∧ t.xclkOn = false ∧ KeepsFields s t [(.RCP_STATE, 0)] ∧ t.rest = { s.rest with power := .doze, xclkOn := false }) ∧
    (s.power = .ready ∨ s.power = .doze →
      Completes .demand s fun t =>
        t.power = .run ∧ KeepsFields s t [(.RCP_STATE, 0)] ∧ t.rest = { s.rest with power := .run }) ∧
    (s.answers port = true → s.power ≠ .recovery → mayWrite rwRwRwR port = true →
      (s.maySleep = false →
        (Completes (.enterStandby port) s fun t => t.svc.lastStatus = stBusy ∧ KeepsFields s t [] ∧ t.rest = { s.rest with svc := t.svc }) ∧
        (Completes (.enterOff port) s fun t => t.svc.lastStatus = stBusy ∧ KeepsFields s t [] ∧ t.rest = { s.rest with svc := t.svc })) ∧
      (s.maySleep = true →
        (Completes (.enterStandby port) s fun t =>
          t.svc.lastStatus = stOk ∧ (t.power = .standby ∨ t.power = .ready ∧ t.flag .RCP_STAT_STBYABT = true) ∧
          (t.power = .standby → t.xclkOn = false ∧ t.jobs = [] ∧ t.enc k = (s.enc k).fresh ∧ t.rd .ENC_POS k = s.rd .ENC_POS k ∧
            s.xclk ≤ t.xclk ∧ t.timeU = s.timeU + (t.xclk - s.xclk) * s.periodUnits ∧ t.xclk = s.sendSafe.xclk)) ∧
        (Completes (.enterOff port) s fun t =>
          t.svc.lastStatus = stOk ∧ (t.power = .off ∨ t.power = .ready ∧ t.flag .RCP_STAT_STBYABT = true)))) ∧
    (s.power = .standby →
      Completes (.leaveStandby .h) s fun t => t.power = .ready ∧ t.rd .RCP_STATE = powerCode .ready ∧ t.svc.lastStatus = stOk) ∧
    (s.live = true →
      (Completes (.blockReset .host 16) s fun t =>
        t.rd .RCP_BRST_CNT = satSucc 32 (s.rd .RCP_BRST_CNT) ∧ KeepsFields s t [(.RCP_BRST_CNT, 0), (.RCP_BRST_BLOCK, 0)] ∧
        t.rest = s.rest) ∧
      (Completes (.blockReset .host 40) s fun t =>
        t.flag .RCP_STAT_BRSTERR = true ∧ KeepsFields s t [(.RCP_STAT_BRSTERR, 0), (.RCP_BRST_BLOCK, 0)] ∧ t.rest = s.rest))

/-- R404 to R413, R417 to R422: sensors fill their registers; a fan that fails is recorded; the event at the head of the Tally queue goes
into the next erased slot; a clear leaves a CLEARED record; option bytes and a firmware bank are rewritten; maintenance is requested, runs
and ends; a self-test returns a Churn to service or holds it; a trace record enters its FIFO. -/
def Obligations.MilkhouseKeepsTheModule : Prop :=
  ∀ (s : State) (x : Sensors) (e : TallyEvent) (q : List TallyEvent) (d : OptionEdit) (img : List Byte) (n : Fin 16) (k : Fin 2)
    (a : Activity) (r : TraceRec) (c step j : Nat), s.live = true →
    (x.wf = true → s.mntSt .C ≠ 2 → (∀ m : Fin 30, sgn 16 (unsgn 16 (x.temps.getD m 0)) < 1840) →
      Completes (.sensorRead x) s fun t =>
        (∀ m : Fin 32, t.rd .MLK_TEMP m = unsgn 16 (x.temps.getD m 0)) ∧ (∀ m : Fin 4, t.rd .MLK_IMON m = wrap 16 (x.amps.getD m 0)) ∧
        t.power = s.power ∧ t.mem = s.mem ∧ t.parts = s.parts) ∧
    ((k : Nat) < s.fansFitted → 20 ≤ s.rd .MLK_FAN → bit s.mlk.fanFail k = false →
      Completes (.fanFailed k) s fun t =>
        bit t.mlk.fanFail k = true ∧ KeepsFields s t logFields ∧ t.body = { s.body with mlk := t.body.mlk }) ∧
    (s.mlk.queue = e :: q → s.mlk.clearing = none → s.mayStart .T = true →
      (s.erasedSlot < 16383 →
        Completes .tallyWrite s fun t =>
          tabFind? t.mlk.tally s.erasedSlot = some e.bytes ∧ (j ≠ s.erasedSlot → tabFind? t.mlk.tally j = tabFind? s.mlk.tally j) ∧
          t.mlk.queue = q ∧ t.rest = { s.rest with mlk := t.mlk }) ∧
      (16383 ≤ s.erasedSlot → s.flag .TLY_STAT_FULL = true →
        Completes .tallyWrite s fun t =>
          t.rd .TLY_DROP_CNT = satSucc 32 (s.rd .TLY_DROP_CNT) ∧ t.mlk.tally = s.mlk.tally ∧ t.mlk.queue = q)) ∧
    (s.answers .m = true → Completes (.tallyClear .m) s fun t => t.mlk.clearing ≠ none ∧ t.mlk.tally = s.mlk.tally ∧
    t.svc.lastStatus = stOk) ∧
    (s.mlk.clearing = some (c, step) → s.mntSt .T = 2 →
      Completes (.maintenanceEnd .T) s fun t =>
        t.mlk.tally = [(0, (s.tallyRecord 2 0xFF 0xFFFFFFFF c step 0).bytes)] ∧ t.mlk.clearing = none ∧ t.rd .TLY_DROP_CNT = 0) ∧
    (Completes .operatingHoursStore s fun t =>
      t.mlk.opStored = s.mlk.opTime ∧ t.rd .TLY_OPHR = wrap 32 (s.mlk.opTime / 1440000000000) ∧ KeepsFields s t [(.TLY_OPHR, 0)] ∧
      t.rest = { s.rest with mlk := t.mlk }) ∧
    (s.mlk.edits = [d] → s.mntSt .O = 2 →
      Completes .optionRewrite s fun t =>
        t.mlk.optA = t.mlk.optB ∧ t.mlk.edits = [] ∧ (d.tryBank ≠ none → some t.mlk.optA.tryBank = d.tryBank) ∧
        (d.active ≠ none → some t.mlk.optA.active = d.active) ∧ t.mlk.tally = s.mlk.tally) ∧
    (s.mlk.image = some img → s.mntSt .F = 2 →
      Completes (.firmwareBankWrite true) s fun t =>
        t.bank (1 - s.optLatest.active) = img ∧ t.mlk.image = none ∧ t.mlk.edits = s.mlk.edits ++
          [{ tryBank := some (1 - s.optLatest.active), forUpdate := true }]) ∧
    (s.mntSt a = 0 →
      (Completes (.maintenanceRequest .h a) s fun t =>
        t.mntSt a = (if s.mayStart a then 2 else 1) ∧ t.svc.lastStatus = stOk ∧ KeepsFields s t [(.MLK_MNT_ST, activityNo a)] ∧
        t.rest = { s.rest with svc := t.svc }) ∧
      (periodic a = true →
        Completes (.maintenanceDue a) s fun t =>
          t.mntSt a = (if s.mayStart a then 2 else 1) ∧ KeepsFields s t [(.MLK_MNT_ST, activityNo a)] ∧ t.rest = s.rest)) ∧
    (s.resident n = none → step < 256 →
      (bit s.mlk.tests n = false →
        Completes (.selfTestDone n true step) s fun t =>
          t.flag .CHN_STAT_ISO n = false ∧ KeepsFields s t [(.CHN_STAT_ISO, n)] ∧ t.rest = s.rest) ∧
      (Completes (.selfTestDone n false step) s fun t =>
        t.flag .CHN_STAT_ISO n = true ∧ bit t.mlk.tests n = true ∧ KeepsFields s t ((.CHN_STAT_ISO, (n : Nat)) :: logFields) ∧
        t.body = { s.body with mlk := t.body.mlk })) ∧
    (fitsU 8 r.src = true → fitsU 8 r.kind = true → fitsU 64 r.data = true → s.tracing = true → s.traced r.src = true →
      (s.trace.waiting r.src < 16 →
        Completes (.traceRecord r) s fun t =>
          t.trace.fifos = s.trace.fifos ++ [(s.ns40, r)] ∧ KeepsFields s t [] ∧ t.rest = { s.rest with trace := t.trace }) ∧
      (16 ≤ s.trace.waiting r.src →
        Completes (.traceRecord r) s fun t =>
          t.trace.fifos = s.trace.fifos ∧ t.rd .OBS_TRC_DROP_COUNT = satSucc 32 (s.rd .OBS_TRC_DROP_COUNT) ∧
          KeepsFields s t [(.OBS_TRC_DROP_COUNT, 0)] ∧ t.rest = { s.rest with trace := t.trace }))

/-- R17, R19, R20, R22, R23, R237: at an estimate tick the XCLK count stands at a multiple of 4,000 that has had none; the line-master
position is written to the next entry of the position-time log, whose sequence number passes over the ticks that were not recorded
and whose gap bit says that there were some; the speed estimate is the difference over the window, and is valid from the second tick
on. -/
def Obligations.EstimateTickLogsAndEstimates : Prop :=
  ∀ (s : State),
    let u := s.advanceTo 4000 s.tickAt
    let pos := u.lmPos
    let idx := if u.flag .ENC_MSTAT_LOGV then wrap 16 (u.rd .ENC_LOG_WR_IDX + 1) else 0
    let seq := if u.flag .ENC_MSTAT_LOGV then wrap 16 (u.rd .ENC_LOG_WR_SEQ + 1 + u.ticksMissed) else 0
    let entry := logBase + 16 * idx
    let m := min (2 ^ u.rd .ENC_EST_CFG) (u.est.k + 1)
    let v := perSecond (sdiff pos (u.est.ps.getD (m - 1) pos)) m
    (s.power ≠ .off →
      Completes .estimateTick s fun t =>
        t.xclk = (if s.xclk % 4000 = 0 ∧ s.tickAt < s.xclk then s.xclk else s.xclk + (4000 - s.xclk % 4000)) ∧
        (u.live = true → t.tickAt = t.xclk)) ∧
    (u.live = true → u.parts = [] → ((upTo 16).all fun n => (u.resident n).all fun r => r.cheapWait.isNone) = true →
      Completes .estimateTick s fun t =>
        t.leRead entry 8 = wrap 64 pos ∧ t.leRead (entry + 8) 5 = u.ns40 ∧ t.leRead (entry + 14) 2 = seq ∧
        (t.leRead (entry + 13) 1).testBit 3 = decide (0 < u.ticksMissed) ∧ KeepsBytes { s with toDev := u } t entry 16 ∧
        t.rd .ENC_LOG_WR_IDX = idx ∧ t.rd .ENC_LOG_WR_SEQ = seq ∧ t.flag .ENC_MSTAT_LOGV = true) ∧
    (u.live = true → u.worker = false → 1 ≤ u.est.k → fitsS 48 v = true →
      Completes .estimateTick s fun t =>
        t.flag .ENC_MSTAT_SPDV = true ∧ t.rd .ENC_SPEED = unsgn 64 v ∧ t.est.ps = (pos :: u.est.ps).take 64 ∧ t.tickPos = pos) ∧
    (u.live = true → u.worker = false → u.est.k = 0 →
      Completes .estimateTick s fun t =>
        t.flag .ENC_MSTAT_SPDV = u.flag .ENC_MSTAT_SPDV ∧ t.rd .ENC_SPEED = u.rd .ENC_SPEED ∧ t.est.k = 1 ∧ t.tickPos = pos) ∧
    (u.live = true → u.worker = true →
      Completes .estimateTick s fun t => t.rd .ENC_SPEED = u.rd .ENC_SPEED ∧ t.rd .ENC_ACCEL = u.rd .ENC_ACCEL ∧ t.tickPos = pos)

/-- R389: at stage 2 a failed-start count at or above the limit leads to Recovery and stays; otherwise the count plus 1, saturating at 15,
is stored before stage 3 begins; a store that fails leads to Recovery and sets `NVMERR`. -/
def Obligations.FailedStartsCounted : Prop :=
  ∀ (s : State) (fails : Bool), s.power = .start → s.rd .RCP_STATE_STAGE = 2 →
    (s.rd .RCP_FAILSTART_LIMIT ≤ s.rd .RCP_FAILSTART_COUNT →
      Completes (.startStageComplete fails) s fun t =>
        t.power = .recovery ∧ t.rd .RCP_FAILSTART_COUNT = s.rd .RCP_FAILSTART_COUNT) ∧
    (s.rd .RCP_FAILSTART_COUNT < s.rd .RCP_FAILSTART_LIMIT →
      Completes (.startStageComplete false) s fun t =>
        t.rd .RCP_FAILSTART_COUNT = min (s.rd .RCP_FAILSTART_COUNT + 1) 15 ∧ t.rd .RCP_STATE_STAGE = 3 ∧ t.power = .start) ∧
    (s.rd .RCP_FAILSTART_COUNT < s.rd .RCP_FAILSTART_LIMIT →
      Completes (.startStageComplete true) s fun t => t.power = .recovery ∧ t.flag .RCP_STAT_NVMERR = true)
end

