-- ==== Sys2Proof/Laws/Tab.lean ====
section
/-! SUPPORT. The laws of sparse tables: a read after a write to the same key gives the value written, a write leaves every
other key alone, and every operation keeps the canonical form. -/

namespace Sys2Proof.Machine

@[simp] theorem tabFind?_put_same {α : Type} (t : Tab α) (n : Nat) (a : α) : tabFind? (tabPut t n a) n = some a := by
  induction t with
  | nil => simp [tabPut, tabFind?]
  | cons e t ih =>
    obtain ⟨k, v⟩ := e
    simp only [tabPut]
    split
    · simp [tabFind?]
    · split
      · simp [tabFind?]
      · rename_i h1 h2
        have : k ≠ n := fun h => h2 h.symm
        simp [tabFind?, this, ih]

theorem tabFind?_put_ne {α : Type} (t : Tab α) {n m : Nat} (a : α) (h : m ≠ n) :
    tabFind? (tabPut t n a) m = tabFind? t m := by
  induction t with
  | nil => simp [tabPut, tabFind?, h.symm]
  | cons e t ih =>
    obtain ⟨k, v⟩ := e
    simp only [tabPut]
    split
    · simp [tabFind?, h.symm]
    · split
      · rename_i h2; subst h2; simp [tabFind?, h.symm]
      · simp [tabFind?, ih]

@[simp] theorem tabFind?_drop_same {α : Type} (t : Tab α) (n : Nat) : tabFind? (tabDrop t n) n = none := by
  induction t with
  | nil => rfl
  | cons e t ih =>
    obtain ⟨k, v⟩ := e
    by_cases h : k = n
    · simpa [tabDrop, h] using ih
    · simpa [tabDrop, h, tabFind?] using ih

theorem tabFind?_drop_ne {α : Type} (t : Tab α) {n m : Nat} (h : m ≠ n) :
    tabFind? (tabDrop t n) m = tabFind? t m := by
  induction t with
  | nil => rfl
  | cons e t ih =>
    obtain ⟨k, v⟩ := e
    by_cases hk : k = n
    · subst hk
      have : k ≠ m := h.symm
      simpa [tabDrop, tabFind?, this] using ih
    · have hd : tabDrop ((k, v) :: t) n = (k, v) :: tabDrop t n := by simp [tabDrop, hk]
      rw [hd, tabFind?, tabFind?, ih]

@[simp] theorem tabGet_set_same {α : Type} [DecidableEq α] (d : Nat → α) (t : Tab α) (n : Nat) (a : α) :
    tabGet d (tabSet d t n a) n = a := by
  unfold tabGet tabSet
  split
  · rename_i h; simp [h]
  · simp

theorem tabGet_set_ne {α : Type} [DecidableEq α] (d e : Nat → α) (t : Tab α) {n m : Nat} (a : α) (h : m ≠ n) :
    tabGet d (tabSet e t n a) m = tabGet d t m := by
  unfold tabGet tabSet
  split
  · rw [tabFind?_drop_ne t h]
  · rw [tabFind?_put_ne t a h]

theorem mem_tabPut {α : Type} {t : Tab α} {n : Nat} {a : α} {e : Nat × α} (h : e ∈ tabPut t n a) :
    e = (n, a) ∨ e ∈ t := by
  induction t with
  | nil => simpa [tabPut] using h
  | cons x t ih =>
    obtain ⟨k, v⟩ := x
    simp only [tabPut] at h
    split at h
    · simpa using h
    · split at h
      · rcases List.mem_cons.1 h with h | h
        · exact .inl h
        · exact .inr (List.mem_cons_of_mem _ h)
      · rcases List.mem_cons.1 h with h | h
        · exact .inr (by simp [h])
        · exact (ih h).imp id (List.mem_cons_of_mem _)

theorem tabSorted_put {α : Type} {t : Tab α} (h : tabSorted t) (n : Nat) (a : α) : tabSorted (tabPut t n a) := by
  induction t with
  | nil => simp [tabPut]
  | cons x t ih =>
    obtain ⟨k, v⟩ := x
    obtain ⟨hk, ht⟩ := List.pairwise_cons.1 h
    simp only [tabPut]
    split
    · rename_i hlt
      refine List.pairwise_cons.2 ⟨?_, h⟩
      intro e he
      rcases List.mem_cons.1 he with rfl | he
      · exact hlt
      · exact lt_trans hlt (hk e he)
    · split
      · rename_i heq
        subst heq
        exact List.pairwise_cons.2 ⟨hk, ht⟩
      · refine List.pairwise_cons.2 ⟨?_, ih ht⟩
        intro e he
        rcases mem_tabPut he with rfl | he
        · show k < n
          omega
        · exact hk e he

theorem tabSorted_filter {α : Type} {t : Tab α} (h : tabSorted t) (p : Nat × α → Bool) : tabSorted (t.filter p) :=
  List.Pairwise.filter p h

theorem tabWf_set {α : Type} [DecidableEq α] {d : Nat → α} {t : Tab α} (h : tabWf d t) (n : Nat) (a : α) :
    tabWf d (tabSet d t n a) := by
  unfold tabSet
  split
  · exact ⟨tabSorted_filter h.1 _, fun e he => h.2 e (List.mem_filter.1 he).1⟩
  · rename_i hne
    refine ⟨tabSorted_put h.1 n a, fun e he => ?_⟩
    rcases mem_tabPut he with rfl | he
    · exact hne
    · exact h.2 e he

theorem tabWf_clear {α : Type} {d : Nat → α} {t : Tab α} (h : tabWf d t) (p : Nat → Bool) :
    tabWf d (tabClear t p) :=
  ⟨tabSorted_filter h.1 _, fun e he => h.2 e (List.mem_filter.1 he).1⟩

@[simp] theorem tabWf_nil {α : Type} (d : Nat → α) : tabWf d ([] : Tab α) :=
  ⟨List.Pairwise.nil, fun _ h => (List.not_mem_nil h).elim⟩

end Sys2Proof.Machine
end

