-- ==== Sys2Proof/Laws/State.lean ====
section
/-! SUPPORT. What each update of the state leaves alone: one lemma for each update and each field of `Dev`, true by the update's
definition, and the reads of register fields after each update. Later proofs cite these and unfold no update. -/

namespace Sys2Proof.Machine

open Sys2Proof

section
variable (s : Dev)

@[simp] theorem Dev.wr_od (f : Field) (i v : Nat) :
    (s.wr f i v).od = s.od := by unfold Dev.wr; split <;> rfl
@[simp] theorem Dev.wr_nvm (f : Field) (i v : Nat) :
    (s.wr f i v).nvm = s.nvm := by unfold Dev.wr; split <;> rfl
@[simp] theorem Dev.wr_mem (f : Field) (i v : Nat) :
    (s.wr f i v).mem = s.mem := by unfold Dev.wr; split <;> rfl
@[simp] theorem Dev.wr_bar (f : Field) (i v : Nat) :
    (s.wr f i v).bar = s.bar := by unfold Dev.wr; split <;> rfl
@[simp] theorem Dev.wr_sync (f : Field) (i v : Nat) :
    (s.wr f i v).sync = s.sync := by unfold Dev.wr; split <;> rfl
@[simp] theorem Dev.wr_counters (f : Field) (i v : Nat) :
    (s.wr f i v).counters = s.counters := by unfold Dev.wr; split <;> rfl
@[simp] theorem Dev.wr_free (f : Field) (i v : Nat) :
    (s.wr f i v).free = s.free := by unfold Dev.wr; split <;> rfl
@[simp] theorem Dev.wr_power (f : Field) (i v : Nat) :
    (s.wr f i v).power = s.power := by unfold Dev.wr; split <;> rfl
@[simp] theorem Dev.wr_rst (f : Field) (i v : Nat) :
    (s.wr f i v).rst = s.rst := by unfold Dev.wr; split <;> rfl
@[simp] theorem Dev.wr_xclk (f : Field) (i v : Nat) :
    (s.wr f i v).xclk = s.xclk := by unfold Dev.wr; split <;> rfl
@[simp] theorem Dev.wr_tickAt (f : Field) (i v : Nat) :
    (s.wr f i v).tickAt = s.tickAt := by unfold Dev.wr; split <;> rfl
@[simp] theorem Dev.wr_slotAt (f : Field) (i v : Nat) :
    (s.wr f i v).slotAt = s.slotAt := by unfold Dev.wr; split <;> rfl
@[simp] theorem Dev.wr_timeU (f : Field) (i v : Nat) :
    (s.wr f i v).timeU = s.timeU := by unfold Dev.wr; split <;> rfl
@[simp] theorem Dev.wr_xclkOn (f : Field) (i v : Nat) :
    (s.wr f i v).xclkOn = s.xclkOn := by unfold Dev.wr; split <;> rfl
@[simp] theorem Dev.wr_tb (f : Field) (i v : Nat) :
    (s.wr f i v).tb = s.tb := by unfold Dev.wr; split <;> rfl
@[simp] theorem Dev.wr_ttos (f : Field) (i v : Nat) :
    (s.wr f i v).ttos = s.ttos := by unfold Dev.wr; split <;> rfl
@[simp] theorem Dev.wr_encs (f : Field) (i v : Nat) :
    (s.wr f i v).encs = s.encs := by unfold Dev.wr; split <;> rfl
@[simp] theorem Dev.wr_gens (f : Field) (i v : Nat) :
    (s.wr f i v).gens = s.gens := by unfold Dev.wr; split <;> rfl
@[simp] theorem Dev.wr_trgs (f : Field) (i v : Nat) :
    (s.wr f i v).trgs = s.trgs := by unfold Dev.wr; split <;> rfl
@[simp] theorem Dev.wr_est (f : Field) (i v : Nat) :
    (s.wr f i v).est = s.est := by unfold Dev.wr; split <;> rfl
@[simp] theorem Dev.wr_lmOffset (f : Field) (i v : Nat) :
    (s.wr f i v).lmOffset = s.lmOffset := by unfold Dev.wr; split <;> rfl
@[simp] theorem Dev.wr_peak (f : Field) (i v : Nat) :
    (s.wr f i v).peak = s.peak := by unfold Dev.wr; split <;> rfl
@[simp] theorem Dev.wr_marks (f : Field) (i v : Nat) :
    (s.wr f i v).marks = s.marks := by unfold Dev.wr; split <;> rfl
@[simp] theorem Dev.wr_lanes (f : Field) (i v : Nat) :
    (s.wr f i v).lanes = s.lanes := by unfold Dev.wr; split <;> rfl
@[simp] theorem Dev.wr_parts (f : Field) (i v : Nat) :
    (s.wr f i v).parts = s.parts := by unfold Dev.wr; split <;> rfl
@[simp] theorem Dev.wr_nextId (f : Field) (i v : Nat) :
    (s.wr f i v).nextId = s.nextId := by unfold Dev.wr; split <;> rfl
@[simp] theorem Dev.wr_lostIds (f : Field) (i v : Nat) :
    (s.wr f i v).lostIds = s.lostIds := by unfold Dev.wr; split <;> rfl
@[simp] theorem Dev.wr_slots (f : Field) (i v : Nat) :
    (s.wr f i v).slots = s.slots := by unfold Dev.wr; split <;> rfl
@[simp] theorem Dev.wr_slotNow (f : Field) (i v : Nat) :
    (s.wr f i v).slotNow = s.slotNow := by unfold Dev.wr; split <;> rfl
@[simp] theorem Dev.wr_slotFrom (f : Field) (i v : Nat) :
    (s.wr f i v).slotFrom = s.slotFrom := by unfold Dev.wr; split <;> rfl
@[simp] theorem Dev.wr_slotPast (f : Field) (i v : Nat) :
    (s.wr f i v).slotPast = s.slotPast := by unfold Dev.wr; split <;> rfl
@[simp] theorem Dev.wr_slotNext (f : Field) (i v : Nat) :
    (s.wr f i v).slotNext = s.slotNext := by unfold Dev.wr; split <;> rfl
@[simp] theorem Dev.wr_fires (f : Field) (i v : Nat) :
    (s.wr f i v).fires = s.fires := by unfold Dev.wr; split <;> rfl
@[simp] theorem Dev.wr_nextRun (f : Field) (i v : Nat) :
    (s.wr f i v).nextRun = s.nextRun := by unfold Dev.wr; split <;> rfl
@[simp] theorem Dev.wr_barrier (f : Field) (i v : Nat) :
    (s.wr f i v).barrier = s.barrier := by unfold Dev.wr; split <;> rfl
@[simp] theorem Dev.wr_die (f : Field) (i v : Nat) :
    (s.wr f i v).die = s.die := by unfold Dev.wr; split <;> rfl
@[simp] theorem Dev.wr_links (f : Field) (i v : Nat) :
    (s.wr f i v).links = s.links := by unfold Dev.wr; split <;> rfl
@[simp] theorem Dev.wr_ctxs (f : Field) (i v : Nat) :
    (s.wr f i v).ctxs = s.ctxs := by unfold Dev.wr; split <;> rfl
@[simp] theorem Dev.wr_pipes (f : Field) (i v : Nat) :
    (s.wr f i v).pipes = s.pipes := by unfold Dev.wr; split <;> rfl
@[simp] theorem Dev.wr_pipesOn (f : Field) (i v : Nat) :
    (s.wr f i v).pipesOn = s.pipesOn := by unfold Dev.wr; split <;> rfl
@[simp] theorem Dev.wr_lineSeq (f : Field) (i v : Nat) :
    (s.wr f i v).lineSeq = s.lineSeq := by unfold Dev.wr; split <;> rfl
@[simp] theorem Dev.wr_fusions (f : Field) (i v : Nat) :
    (s.wr f i v).fusions = s.fusions := by unfold Dev.wr; split <;> rfl
@[simp] theorem Dev.wr_churns (f : Field) (i v : Nat) :
    (s.wr f i v).churns = s.churns := by unfold Dev.wr; split <;> rfl
@[simp] theorem Dev.wr_jobs (f : Field) (i v : Nat) :
    (s.wr f i v).jobs = s.jobs := by unfold Dev.wr; split <;> rfl
@[simp] theorem Dev.wr_jobSeq (f : Field) (i v : Nat) :
    (s.wr f i v).jobSeq = s.jobSeq := by unfold Dev.wr; split <;> rfl
@[simp] theorem Dev.wr_lastQueue (f : Field) (i v : Nat) :
    (s.wr f i v).lastQueue = s.lastQueue := by unfold Dev.wr; split <;> rfl
@[simp] theorem Dev.wr_lastTeach (f : Field) (i v : Nat) :
    (s.wr f i v).lastTeach = s.lastTeach := by unfold Dev.wr; split <;> rfl
@[simp] theorem Dev.wr_saves (f : Field) (i v : Nat) :
    (s.wr f i v).saves = s.saves := by unfold Dev.wr; split <;> rfl
@[simp] theorem Dev.wr_saveSeq (f : Field) (i v : Nat) :
    (s.wr f i v).saveSeq = s.saveSeq := by unfold Dev.wr; split <;> rfl
@[simp] theorem Dev.wr_fixing (f : Field) (i v : Nat) :
    (s.wr f i v).fixing = s.fixing := by unfold Dev.wr; split <;> rfl
@[simp] theorem Dev.wr_runHit (f : Field) (i v : Nat) :
    (s.wr f i v).runHit = s.runHit := by unfold Dev.wr; split <;> rfl
@[simp] theorem Dev.wr_faultq (f : Field) (i v : Nat) :
    (s.wr f i v).faultq = s.faultq := by unfold Dev.wr; split <;> rfl
@[simp] theorem Dev.wr_posted (f : Field) (i v : Nat) :
    (s.wr f i v).posted = s.posted := by unfold Dev.wr; split <;> rfl
@[simp] theorem Dev.wr_tlb (f : Field) (i v : Nat) :
    (s.wr f i v).tlb = s.tlb := by unfold Dev.wr; split <;> rfl
@[simp] theorem Dev.wr_invals (f : Field) (i v : Nat) :
    (s.wr f i v).invals = s.invals := by unfold Dev.wr; split <;> rfl
@[simp] theorem Dev.wr_scrubLine (f : Field) (i v : Nat) :
    (s.wr f i v).scrubLine = s.scrubLine := by unfold Dev.wr; split <;> rfl
@[simp] theorem Dev.wr_pcieUp (f : Field) (i v : Nat) :
    (s.wr f i v).pcieUp = s.pcieUp := by unfold Dev.wr; split <;> rfl
@[simp] theorem Dev.wr_rules (f : Field) (i v : Nat) :
    (s.wr f i v).rules = s.rules := by unfold Dev.wr; split <;> rfl
@[simp] theorem Dev.wr_ring (f : Field) (i v : Nat) :
    (s.wr f i v).ring = s.ring := by unfold Dev.wr; split <;> rfl
@[simp] theorem Dev.wr_libUsed (f : Field) (i v : Nat) :
    (s.wr f i v).libUsed = s.libUsed := by unfold Dev.wr; split <;> rfl
@[simp] theorem Dev.wr_batch (f : Field) (i v : Nat) :
    (s.wr f i v).batch = s.batch := by unfold Dev.wr; split <;> rfl
@[simp] theorem Dev.wr_lastDec (f : Field) (i v : Nat) :
    (s.wr f i v).lastDec = s.lastDec := by unfold Dev.wr; split <;> rfl
@[simp] theorem Dev.wr_capUsed (f : Field) (i v : Nat) :
    (s.wr f i v).capUsed = s.capUsed := by unfold Dev.wr; split <;> rfl
@[simp] theorem Dev.wr_validating (f : Field) (i v : Nat) :
    (s.wr f i v).validating = s.validating := by unfold Dev.wr; split <;> rfl
@[simp] theorem Dev.wr_herd (f : Field) (i v : Nat) :
    (s.wr f i v).herd = s.herd := by unfold Dev.wr; split <;> rfl
@[simp] theorem Dev.wr_zports (f : Field) (i v : Nat) :
    (s.wr f i v).zports = s.zports := by unfold Dev.wr; split <;> rfl
@[simp] theorem Dev.wr_svc (f : Field) (i v : Nat) :
    (s.wr f i v).svc = s.svc := by unfold Dev.wr; split <;> rfl
@[simp] theorem Dev.wr_mlk (f : Field) (i v : Nat) :
    (s.wr f i v).mlk = s.mlk := by unfold Dev.wr; split <;> rfl
@[simp] theorem Dev.wr_trace (f : Field) (i v : Nat) :
    (s.wr f i v).trace = s.trace := by unfold Dev.wr; split <;> rfl
@[simp] theorem Dev.wr_out (f : Field) (i v : Nat) :
    (s.wr f i v).out = s.out := by unfold Dev.wr; split <;> rfl
@[simp] theorem Dev.send_regs (o : Out) :
    (s.send o).regs = s.regs := rfl
@[simp] theorem Dev.send_voteB (o : Out) :
    (s.send o).voteB = s.voteB := rfl
@[simp] theorem Dev.send_voteC (o : Out) :
    (s.send o).voteC = s.voteC := rfl
@[simp] theorem Dev.send_od (o : Out) :
    (s.send o).od = s.od := rfl
@[simp] theorem Dev.send_nvm (o : Out) :
    (s.send o).nvm = s.nvm := rfl
@[simp] theorem Dev.send_mem (o : Out) :
    (s.send o).mem = s.mem := rfl
@[simp] theorem Dev.send_bar (o : Out) :
    (s.send o).bar = s.bar := rfl
@[simp] theorem Dev.send_sync (o : Out) :
    (s.send o).sync = s.sync := rfl
@[simp] theorem Dev.send_counters (o : Out) :
    (s.send o).counters = s.counters := rfl
@[simp] theorem Dev.send_free (o : Out) :
    (s.send o).free = s.free := rfl
@[simp] theorem Dev.send_power (o : Out) :
    (s.send o).power = s.power := rfl
@[simp] theorem Dev.send_rst (o : Out) :
    (s.send o).rst = s.rst := rfl
@[simp] theorem Dev.send_xclk (o : Out) :
    (s.send o).xclk = s.xclk := rfl
@[simp] theorem Dev.send_tickAt (o : Out) :
    (s.send o).tickAt = s.tickAt := rfl
@[simp] theorem Dev.send_slotAt (o : Out) :
    (s.send o).slotAt = s.slotAt := rfl
@[simp] theorem Dev.send_timeU (o : Out) :
    (s.send o).timeU = s.timeU := rfl
@[simp] theorem Dev.send_xclkOn (o : Out) :
    (s.send o).xclkOn = s.xclkOn := rfl
@[simp] theorem Dev.send_tb (o : Out) :
    (s.send o).tb = s.tb := rfl
@[simp] theorem Dev.send_ttos (o : Out) :
    (s.send o).ttos = s.ttos := rfl
@[simp] theorem Dev.send_encs (o : Out) :
    (s.send o).encs = s.encs := rfl
@[simp] theorem Dev.send_gens (o : Out) :
    (s.send o).gens = s.gens := rfl
@[simp] theorem Dev.send_trgs (o : Out) :
    (s.send o).trgs = s.trgs := rfl
@[simp] theorem Dev.send_est (o : Out) :
    (s.send o).est = s.est := rfl
@[simp] theorem Dev.send_lmOffset (o : Out) :
    (s.send o).lmOffset = s.lmOffset := rfl
@[simp] theorem Dev.send_peak (o : Out) :
    (s.send o).peak = s.peak := rfl
@[simp] theorem Dev.send_marks (o : Out) :
    (s.send o).marks = s.marks := rfl
@[simp] theorem Dev.send_lanes (o : Out) :
    (s.send o).lanes = s.lanes := rfl
@[simp] theorem Dev.send_parts (o : Out) :
    (s.send o).parts = s.parts := rfl
@[simp] theorem Dev.send_nextId (o : Out) :
    (s.send o).nextId = s.nextId := rfl
@[simp] theorem Dev.send_lostIds (o : Out) :
    (s.send o).lostIds = s.lostIds := rfl
@[simp] theorem Dev.send_slots (o : Out) :
    (s.send o).slots = s.slots := rfl
@[simp] theorem Dev.send_slotNow (o : Out) :
    (s.send o).slotNow = s.slotNow := rfl
@[simp] theorem Dev.send_slotFrom (o : Out) :
    (s.send o).slotFrom = s.slotFrom := rfl
@[simp] theorem Dev.send_slotPast (o : Out) :
    (s.send o).slotPast = s.slotPast := rfl
@[simp] theorem Dev.send_slotNext (o : Out) :
    (s.send o).slotNext = s.slotNext := rfl
@[simp] theorem Dev.send_fires (o : Out) :
    (s.send o).fires = s.fires := rfl
@[simp] theorem Dev.send_nextRun (o : Out) :
    (s.send o).nextRun = s.nextRun := rfl
@[simp] theorem Dev.send_barrier (o : Out) :
    (s.send o).barrier = s.barrier := rfl
@[simp] theorem Dev.send_die (o : Out) :
    (s.send o).die = s.die := rfl
@[simp] theorem Dev.send_links (o : Out) :
    (s.send o).links = s.links := rfl
@[simp] theorem Dev.send_ctxs (o : Out) :
    (s.send o).ctxs = s.ctxs := rfl
@[simp] theorem Dev.send_pipes (o : Out) :
    (s.send o).pipes = s.pipes := rfl
@[simp] theorem Dev.send_pipesOn (o : Out) :
    (s.send o).pipesOn = s.pipesOn := rfl
@[simp] theorem Dev.send_lineSeq (o : Out) :
    (s.send o).lineSeq = s.lineSeq := rfl
@[simp] theorem Dev.send_fusions (o : Out) :
    (s.send o).fusions = s.fusions := rfl
@[simp] theorem Dev.send_churns (o : Out) :
    (s.send o).churns = s.churns := rfl
@[simp] theorem Dev.send_jobs (o : Out) :
    (s.send o).jobs = s.jobs := rfl
@[simp] theorem Dev.send_jobSeq (o : Out) :
    (s.send o).jobSeq = s.jobSeq := rfl
@[simp] theorem Dev.send_lastQueue (o : Out) :
    (s.send o).lastQueue = s.lastQueue := rfl
@[simp] theorem Dev.send_lastTeach (o : Out) :
    (s.send o).lastTeach = s.lastTeach := rfl
@[simp] theorem Dev.send_saves (o : Out) :
    (s.send o).saves = s.saves := rfl
@[simp] theorem Dev.send_saveSeq (o : Out) :
    (s.send o).saveSeq = s.saveSeq := rfl
@[simp] theorem Dev.send_fixing (o : Out) :
    (s.send o).fixing = s.fixing := rfl
@[simp] theorem Dev.send_runHit (o : Out) :
    (s.send o).runHit = s.runHit := rfl
@[simp] theorem Dev.send_faultq (o : Out) :
    (s.send o).faultq = s.faultq := rfl
@[simp] theorem Dev.send_posted (o : Out) :
    (s.send o).posted = s.posted := rfl
@[simp] theorem Dev.send_tlb (o : Out) :
    (s.send o).tlb = s.tlb := rfl
@[simp] theorem Dev.send_invals (o : Out) :
    (s.send o).invals = s.invals := rfl
@[simp] theorem Dev.send_scrubLine (o : Out) :
    (s.send o).scrubLine = s.scrubLine := rfl
@[simp] theorem Dev.send_pcieUp (o : Out) :
    (s.send o).pcieUp = s.pcieUp := rfl
@[simp] theorem Dev.send_rules (o : Out) :
    (s.send o).rules = s.rules := rfl
@[simp] theorem Dev.send_ring (o : Out) :
    (s.send o).ring = s.ring := rfl
@[simp] theorem Dev.send_libUsed (o : Out) :
    (s.send o).libUsed = s.libUsed := rfl
@[simp] theorem Dev.send_batch (o : Out) :
    (s.send o).batch = s.batch := rfl
@[simp] theorem Dev.send_lastDec (o : Out) :
    (s.send o).lastDec = s.lastDec := rfl
@[simp] theorem Dev.send_capUsed (o : Out) :
    (s.send o).capUsed = s.capUsed := rfl
@[simp] theorem Dev.send_validating (o : Out) :
    (s.send o).validating = s.validating := rfl
@[simp] theorem Dev.send_herd (o : Out) :
    (s.send o).herd = s.herd := rfl
@[simp] theorem Dev.send_zports (o : Out) :
    (s.send o).zports = s.zports := rfl
@[simp] theorem Dev.send_svc (o : Out) :
    (s.send o).svc = s.svc := rfl
@[simp] theorem Dev.send_mlk (o : Out) :
    (s.send o).mlk = s.mlk := rfl
@[simp] theorem Dev.send_trace (o : Out) :
    (s.send o).trace = s.trace := rfl
@[simp] theorem Dev.send_rd (o : Out) (f : Field) (i : Nat) :
    (s.send o).rd f i = s.rd f i := rfl
@[simp] theorem Dev.observe_regs (k n : Nat) :
    (s.observe k n).regs = s.regs := rfl
@[simp] theorem Dev.observe_voteB (k n : Nat) :
    (s.observe k n).voteB = s.voteB := rfl
@[simp] theorem Dev.observe_voteC (k n : Nat) :
    (s.observe k n).voteC = s.voteC := rfl
@[simp] theorem Dev.observe_od (k n : Nat) :
    (s.observe k n).od = s.od := rfl
@[simp] theorem Dev.observe_nvm (k n : Nat) :
    (s.observe k n).nvm = s.nvm := rfl
@[simp] theorem Dev.observe_mem (k n : Nat) :
    (s.observe k n).mem = s.mem := rfl
@[simp] theorem Dev.observe_bar (k n : Nat) :
    (s.observe k n).bar = s.bar := rfl
@[simp] theorem Dev.observe_sync (k n : Nat) :
    (s.observe k n).sync = s.sync := rfl
@[simp] theorem Dev.observe_free (k n : Nat) :
    (s.observe k n).free = s.free := rfl
@[simp] theorem Dev.observe_power (k n : Nat) :
    (s.observe k n).power = s.power := rfl
@[simp] theorem Dev.observe_rst (k n : Nat) :
    (s.observe k n).rst = s.rst := rfl
@[simp] theorem Dev.observe_xclk (k n : Nat) :
    (s.observe k n).xclk = s.xclk := rfl
@[simp] theorem Dev.observe_tickAt (k n : Nat) :
    (s.observe k n).tickAt = s.tickAt := rfl
@[simp] theorem Dev.observe_slotAt (k n : Nat) :
    (s.observe k n).slotAt = s.slotAt := rfl
@[simp] theorem Dev.observe_timeU (k n : Nat) :
    (s.observe k n).timeU = s.timeU := rfl
@[simp] theorem Dev.observe_xclkOn (k n : Nat) :
    (s.observe k n).xclkOn = s.xclkOn := rfl
@[simp] theorem Dev.observe_tb (k n : Nat) :
    (s.observe k n).tb = s.tb := rfl
@[simp] theorem Dev.observe_ttos (k n : Nat) :
    (s.observe k n).ttos = s.ttos := rfl
@[simp] theorem Dev.observe_encs (k n : Nat) :
    (s.observe k n).encs = s.encs := rfl
@[simp] theorem Dev.observe_gens (k n : Nat) :
    (s.observe k n).gens = s.gens := rfl
@[simp] theorem Dev.observe_trgs (k n : Nat) :
    (s.observe k n).trgs = s.trgs := rfl
@[simp] theorem Dev.observe_est (k n : Nat) :
    (s.observe k n).est = s.est := rfl
@[simp] theorem Dev.observe_lmOffset (k n : Nat) :
    (s.observe k n).lmOffset = s.lmOffset := rfl
@[simp] theorem Dev.observe_peak (k n : Nat) :
    (s.observe k n).peak = s.peak := rfl
@[simp] theorem Dev.observe_marks (k n : Nat) :
    (s.observe k n).marks = s.marks := rfl
@[simp] theorem Dev.observe_lanes (k n : Nat) :
    (s.observe k n).lanes = s.lanes := rfl
@[simp] theorem Dev.observe_parts (k n : Nat) :
    (s.observe k n).parts = s.parts := rfl
@[simp] theorem Dev.observe_nextId (k n : Nat) :
    (s.observe k n).nextId = s.nextId := rfl
@[simp] theorem Dev.observe_lostIds (k n : Nat) :
    (s.observe k n).lostIds = s.lostIds := rfl
@[simp] theorem Dev.observe_slots (k n : Nat) :
    (s.observe k n).slots = s.slots := rfl
@[simp] theorem Dev.observe_slotNow (k n : Nat) :
    (s.observe k n).slotNow = s.slotNow := rfl
@[simp] theorem Dev.observe_slotFrom (k n : Nat) :
    (s.observe k n).slotFrom = s.slotFrom := rfl
@[simp] theorem Dev.observe_slotPast (k n : Nat) :
    (s.observe k n).slotPast = s.slotPast := rfl
@[simp] theorem Dev.observe_slotNext (k n : Nat) :
    (s.observe k n).slotNext = s.slotNext := rfl
@[simp] theorem Dev.observe_fires (k n : Nat) :
    (s.observe k n).fires = s.fires := rfl
@[simp] theorem Dev.observe_nextRun (k n : Nat) :
    (s.observe k n).nextRun = s.nextRun := rfl
@[simp] theorem Dev.observe_barrier (k n : Nat) :
    (s.observe k n).barrier = s.barrier := rfl
@[simp] theorem Dev.observe_die (k n : Nat) :
    (s.observe k n).die = s.die := rfl
@[simp] theorem Dev.observe_links (k n : Nat) :
    (s.observe k n).links = s.links := rfl
@[simp] theorem Dev.observe_ctxs (k n : Nat) :
    (s.observe k n).ctxs = s.ctxs := rfl
@[simp] theorem Dev.observe_pipes (k n : Nat) :
    (s.observe k n).pipes = s.pipes := rfl
@[simp] theorem Dev.observe_pipesOn (k n : Nat) :
    (s.observe k n).pipesOn = s.pipesOn := rfl
@[simp] theorem Dev.observe_lineSeq (k n : Nat) :
    (s.observe k n).lineSeq = s.lineSeq := rfl
@[simp] theorem Dev.observe_fusions (k n : Nat) :
    (s.observe k n).fusions = s.fusions := rfl
@[simp] theorem Dev.observe_churns (k n : Nat) :
    (s.observe k n).churns = s.churns := rfl
@[simp] theorem Dev.observe_jobs (k n : Nat) :
    (s.observe k n).jobs = s.jobs := rfl
@[simp] theorem Dev.observe_jobSeq (k n : Nat) :
    (s.observe k n).jobSeq = s.jobSeq := rfl
@[simp] theorem Dev.observe_lastQueue (k n : Nat) :
    (s.observe k n).lastQueue = s.lastQueue := rfl
@[simp] theorem Dev.observe_lastTeach (k n : Nat) :
    (s.observe k n).lastTeach = s.lastTeach := rfl
@[simp] theorem Dev.observe_saves (k n : Nat) :
    (s.observe k n).saves = s.saves := rfl
@[simp] theorem Dev.observe_saveSeq (k n : Nat) :
    (s.observe k n).saveSeq = s.saveSeq := rfl
@[simp] theorem Dev.observe_fixing (k n : Nat) :
    (s.observe k n).fixing = s.fixing := rfl
@[simp] theorem Dev.observe_runHit (k n : Nat) :
    (s.observe k n).runHit = s.runHit := rfl
@[simp] theorem Dev.observe_faultq (k n : Nat) :
    (s.observe k n).faultq = s.faultq := rfl
@[simp] theorem Dev.observe_posted (k n : Nat) :
    (s.observe k n).posted = s.posted := rfl
@[simp] theorem Dev.observe_tlb (k n : Nat) :
    (s.observe k n).tlb = s.tlb := rfl
@[simp] theorem Dev.observe_invals (k n : Nat) :
    (s.observe k n).invals = s.invals := rfl
@[simp] theorem Dev.observe_scrubLine (k n : Nat) :
    (s.observe k n).scrubLine = s.scrubLine := rfl
@[simp] theorem Dev.observe_pcieUp (k n : Nat) :
    (s.observe k n).pcieUp = s.pcieUp := rfl
@[simp] theorem Dev.observe_rules (k n : Nat) :
    (s.observe k n).rules = s.rules := rfl
@[simp] theorem Dev.observe_ring (k n : Nat) :
    (s.observe k n).ring = s.ring := rfl
@[simp] theorem Dev.observe_libUsed (k n : Nat) :
    (s.observe k n).libUsed = s.libUsed := rfl
@[simp] theorem Dev.observe_batch (k n : Nat) :
    (s.observe k n).batch = s.batch := rfl
@[simp] theorem Dev.observe_lastDec (k n : Nat) :
    (s.observe k n).lastDec = s.lastDec := rfl
@[simp] theorem Dev.observe_capUsed (k n : Nat) :
    (s.observe k n).capUsed = s.capUsed := rfl
@[simp] theorem Dev.observe_validating (k n : Nat) :
    (s.observe k n).validating = s.validating := rfl
@[simp] theorem Dev.observe_herd (k n : Nat) :
    (s.observe k n).herd = s.herd := rfl
@[simp] theorem Dev.observe_zports (k n : Nat) :
    (s.observe k n).zports = s.zports := rfl
@[simp] theorem Dev.observe_svc (k n : Nat) :
    (s.observe k n).svc = s.svc := rfl
@[simp] theorem Dev.observe_mlk (k n : Nat) :
    (s.observe k n).mlk = s.mlk := rfl
@[simp] theorem Dev.observe_trace (k n : Nat) :
    (s.observe k n).trace = s.trace := rfl
@[simp] theorem Dev.observe_out (k n : Nat) :
    (s.observe k n).out = s.out := rfl
@[simp] theorem Dev.observe_rd (k n : Nat) (f : Field) (i : Nat) :
    (s.observe k n).rd f i = s.rd f i := rfl
@[simp] theorem Dev.scAdd_regs (k n : Nat) :
    (s.scAdd k n).regs = s.regs := rfl
@[simp] theorem Dev.scAdd_voteB (k n : Nat) :
    (s.scAdd k n).voteB = s.voteB := rfl
@[simp] theorem Dev.scAdd_voteC (k n : Nat) :
    (s.scAdd k n).voteC = s.voteC := rfl
@[simp] theorem Dev.scAdd_od (k n : Nat) :
    (s.scAdd k n).od = s.od := rfl
@[simp] theorem Dev.scAdd_nvm (k n : Nat) :
    (s.scAdd k n).nvm = s.nvm := rfl
@[simp] theorem Dev.scAdd_mem (k n : Nat) :
    (s.scAdd k n).mem = s.mem := rfl
@[simp] theorem Dev.scAdd_bar (k n : Nat) :
    (s.scAdd k n).bar = s.bar := rfl
@[simp] theorem Dev.scAdd_counters (k n : Nat) :
    (s.scAdd k n).counters = s.counters := rfl
@[simp] theorem Dev.scAdd_free (k n : Nat) :
    (s.scAdd k n).free = s.free := rfl
@[simp] theorem Dev.scAdd_power (k n : Nat) :
    (s.scAdd k n).power = s.power := rfl
@[simp] theorem Dev.scAdd_rst (k n : Nat) :
    (s.scAdd k n).rst = s.rst := rfl
@[simp] theorem Dev.scAdd_xclk (k n : Nat) :
    (s.scAdd k n).xclk = s.xclk := rfl
@[simp] theorem Dev.scAdd_tickAt (k n : Nat) :
    (s.scAdd k n).tickAt = s.tickAt := rfl
@[simp] theorem Dev.scAdd_slotAt (k n : Nat) :
    (s.scAdd k n).slotAt = s.slotAt := rfl
@[simp] theorem Dev.scAdd_timeU (k n : Nat) :
    (s.scAdd k n).timeU = s.timeU := rfl
@[simp] theorem Dev.scAdd_xclkOn (k n : Nat) :
    (s.scAdd k n).xclkOn = s.xclkOn := rfl
@[simp] theorem Dev.scAdd_tb (k n : Nat) :
    (s.scAdd k n).tb = s.tb := rfl
@[simp] theorem Dev.scAdd_ttos (k n : Nat) :
    (s.scAdd k n).ttos = s.ttos := rfl
@[simp] theorem Dev.scAdd_encs (k n : Nat) :
    (s.scAdd k n).encs = s.encs := rfl
@[simp] theorem Dev.scAdd_gens (k n : Nat) :
    (s.scAdd k n).gens = s.gens := rfl
@[simp] theorem Dev.scAdd_trgs (k n : Nat) :
    (s.scAdd k n).trgs = s.trgs := rfl
@[simp] theorem Dev.scAdd_est (k n : Nat) :
    (s.scAdd k n).est = s.est := rfl
@[simp] theorem Dev.scAdd_lmOffset (k n : Nat) :
    (s.scAdd k n).lmOffset = s.lmOffset := rfl
@[simp] theorem Dev.scAdd_peak (k n : Nat) :
    (s.scAdd k n).peak = s.peak := rfl
@[simp] theorem Dev.scAdd_marks (k n : Nat) :
    (s.scAdd k n).marks = s.marks := rfl
@[simp] theorem Dev.scAdd_lanes (k n : Nat) :
    (s.scAdd k n).lanes = s.lanes := rfl
@[simp] theorem Dev.scAdd_parts (k n : Nat) :
    (s.scAdd k n).parts = s.parts := rfl
@[simp] theorem Dev.scAdd_nextId (k n : Nat) :
    (s.scAdd k n).nextId = s.nextId := rfl
@[simp] theorem Dev.scAdd_lostIds (k n : Nat) :
    (s.scAdd k n).lostIds = s.lostIds := rfl
@[simp] theorem Dev.scAdd_slots (k n : Nat) :
    (s.scAdd k n).slots = s.slots := rfl
@[simp] theorem Dev.scAdd_slotNow (k n : Nat) :
    (s.scAdd k n).slotNow = s.slotNow := rfl
@[simp] theorem Dev.scAdd_slotFrom (k n : Nat) :
    (s.scAdd k n).slotFrom = s.slotFrom := rfl
@[simp] theorem Dev.scAdd_slotPast (k n : Nat) :
    (s.scAdd k n).slotPast = s.slotPast := rfl
@[simp] theorem Dev.scAdd_slotNext (k n : Nat) :
    (s.scAdd k n).slotNext = s.slotNext := rfl
@[simp] theorem Dev.scAdd_fires (k n : Nat) :
    (s.scAdd k n).fires = s.fires := rfl
@[simp] theorem Dev.scAdd_nextRun (k n : Nat) :
    (s.scAdd k n).nextRun = s.nextRun := rfl
@[simp] theorem Dev.scAdd_barrier (k n : Nat) :
    (s.scAdd k n).barrier = s.barrier := rfl
@[simp] theorem Dev.scAdd_die (k n : Nat) :
    (s.scAdd k n).die = s.die := rfl
@[simp] theorem Dev.scAdd_links (k n : Nat) :
    (s.scAdd k n).links = s.links := rfl
@[simp] theorem Dev.scAdd_ctxs (k n : Nat) :
    (s.scAdd k n).ctxs = s.ctxs := rfl
@[simp] theorem Dev.scAdd_pipes (k n : Nat) :
    (s.scAdd k n).pipes = s.pipes := rfl
@[simp] theorem Dev.scAdd_pipesOn (k n : Nat) :
    (s.scAdd k n).pipesOn = s.pipesOn := rfl
@[simp] theorem Dev.scAdd_lineSeq (k n : Nat) :
    (s.scAdd k n).lineSeq = s.lineSeq := rfl
@[simp] theorem Dev.scAdd_fusions (k n : Nat) :
    (s.scAdd k n).fusions = s.fusions := rfl
@[simp] theorem Dev.scAdd_churns (k n : Nat) :
    (s.scAdd k n).churns = s.churns := rfl
@[simp] theorem Dev.scAdd_jobs (k n : Nat) :
    (s.scAdd k n).jobs = s.jobs := rfl
@[simp] theorem Dev.scAdd_jobSeq (k n : Nat) :
    (s.scAdd k n).jobSeq = s.jobSeq := rfl
@[simp] theorem Dev.scAdd_lastQueue (k n : Nat) :
    (s.scAdd k n).lastQueue = s.lastQueue := rfl
@[simp] theorem Dev.scAdd_lastTeach (k n : Nat) :
    (s.scAdd k n).lastTeach = s.lastTeach := rfl
@[simp] theorem Dev.scAdd_saves (k n : Nat) :
    (s.scAdd k n).saves = s.saves := rfl
@[simp] theorem Dev.scAdd_saveSeq (k n : Nat) :
    (s.scAdd k n).saveSeq = s.saveSeq := rfl
@[simp] theorem Dev.scAdd_fixing (k n : Nat) :
    (s.scAdd k n).fixing = s.fixing := rfl
@[simp] theorem Dev.scAdd_runHit (k n : Nat) :
    (s.scAdd k n).runHit = s.runHit := rfl
@[simp] theorem Dev.scAdd_faultq (k n : Nat) :
    (s.scAdd k n).faultq = s.faultq := rfl
@[simp] theorem Dev.scAdd_posted (k n : Nat) :
    (s.scAdd k n).posted = s.posted := rfl
@[simp] theorem Dev.scAdd_tlb (k n : Nat) :
    (s.scAdd k n).tlb = s.tlb := rfl
@[simp] theorem Dev.scAdd_invals (k n : Nat) :
    (s.scAdd k n).invals = s.invals := rfl
@[simp] theorem Dev.scAdd_scrubLine (k n : Nat) :
    (s.scAdd k n).scrubLine = s.scrubLine := rfl
@[simp] theorem Dev.scAdd_pcieUp (k n : Nat) :
    (s.scAdd k n).pcieUp = s.pcieUp := rfl
@[simp] theorem Dev.scAdd_rules (k n : Nat) :
    (s.scAdd k n).rules = s.rules := rfl
@[simp] theorem Dev.scAdd_ring (k n : Nat) :
    (s.scAdd k n).ring = s.ring := rfl
@[simp] theorem Dev.scAdd_libUsed (k n : Nat) :
    (s.scAdd k n).libUsed = s.libUsed := rfl
@[simp] theorem Dev.scAdd_batch (k n : Nat) :
    (s.scAdd k n).batch = s.batch := rfl
@[simp] theorem Dev.scAdd_lastDec (k n : Nat) :
    (s.scAdd k n).lastDec = s.lastDec := rfl
@[simp] theorem Dev.scAdd_capUsed (k n : Nat) :
    (s.scAdd k n).capUsed = s.capUsed := rfl
@[simp] theorem Dev.scAdd_validating (k n : Nat) :
    (s.scAdd k n).validating = s.validating := rfl
@[simp] theorem Dev.scAdd_herd (k n : Nat) :
    (s.scAdd k n).herd = s.herd := rfl
@[simp] theorem Dev.scAdd_zports (k n : Nat) :
    (s.scAdd k n).zports = s.zports := rfl
@[simp] theorem Dev.scAdd_svc (k n : Nat) :
    (s.scAdd k n).svc = s.svc := rfl
@[simp] theorem Dev.scAdd_mlk (k n : Nat) :
    (s.scAdd k n).mlk = s.mlk := rfl
@[simp] theorem Dev.scAdd_trace (k n : Nat) :
    (s.scAdd k n).trace = s.trace := rfl
@[simp] theorem Dev.scAdd_out (k n : Nat) :
    (s.scAdd k n).out = s.out := rfl
@[simp] theorem Dev.scAdd_rd (k n : Nat) (f : Field) (i : Nat) :
    (s.scAdd k n).rd f i = s.rd f i := rfl
@[simp] theorem Dev.scZero_regs (k : Nat) :
    (s.scZero k).regs = s.regs := rfl
@[simp] theorem Dev.scZero_voteB (k : Nat) :
    (s.scZero k).voteB = s.voteB := rfl
@[simp] theorem Dev.scZero_voteC (k : Nat) :
    (s.scZero k).voteC = s.voteC := rfl
@[simp] theorem Dev.scZero_od (k : Nat) :
    (s.scZero k).od = s.od := rfl
@[simp] theorem Dev.scZero_nvm (k : Nat) :
    (s.scZero k).nvm = s.nvm := rfl
@[simp] theorem Dev.scZero_mem (k : Nat) :
    (s.scZero k).mem = s.mem := rfl
@[simp] theorem Dev.scZero_bar (k : Nat) :
    (s.scZero k).bar = s.bar := rfl
@[simp] theorem Dev.scZero_counters (k : Nat) :
    (s.scZero k).counters = s.counters := rfl
@[simp] theorem Dev.scZero_free (k : Nat) :
    (s.scZero k).free = s.free := rfl
@[simp] theorem Dev.scZero_power (k : Nat) :
    (s.scZero k).power = s.power := rfl
@[simp] theorem Dev.scZero_rst (k : Nat) :
    (s.scZero k).rst = s.rst := rfl
@[simp] theorem Dev.scZero_xclk (k : Nat) :
    (s.scZero k).xclk = s.xclk := rfl
@[simp] theorem Dev.scZero_tickAt (k : Nat) :
    (s.scZero k).tickAt = s.tickAt := rfl
@[simp] theorem Dev.scZero_slotAt (k : Nat) :
    (s.scZero k).slotAt = s.slotAt := rfl
@[simp] theorem Dev.scZero_timeU (k : Nat) :
    (s.scZero k).timeU = s.timeU := rfl
@[simp] theorem Dev.scZero_xclkOn (k : Nat) :
    (s.scZero k).xclkOn = s.xclkOn := rfl
@[simp] theorem Dev.scZero_tb (k : Nat) :
    (s.scZero k).tb = s.tb := rfl
@[simp] theorem Dev.scZero_ttos (k : Nat) :
    (s.scZero k).ttos = s.ttos := rfl
@[simp] theorem Dev.scZero_encs (k : Nat) :
    (s.scZero k).encs = s.encs := rfl
@[simp] theorem Dev.scZero_gens (k : Nat) :
    (s.scZero k).gens = s.gens := rfl
@[simp] theorem Dev.scZero_trgs (k : Nat) :
    (s.scZero k).trgs = s.trgs := rfl
@[simp] theorem Dev.scZero_est (k : Nat) :
    (s.scZero k).est = s.est := rfl
@[simp] theorem Dev.scZero_lmOffset (k : Nat) :
    (s.scZero k).lmOffset = s.lmOffset := rfl
@[simp] theorem Dev.scZero_peak (k : Nat) :
    (s.scZero k).peak = s.peak := rfl
@[simp] theorem Dev.scZero_marks (k : Nat) :
    (s.scZero k).marks = s.marks := rfl
@[simp] theorem Dev.scZero_lanes (k : Nat) :
    (s.scZero k).lanes = s.lanes := rfl
@[simp] theorem Dev.scZero_parts (k : Nat) :
    (s.scZero k).parts = s.parts := rfl
@[simp] theorem Dev.scZero_nextId (k : Nat) :
    (s.scZero k).nextId = s.nextId := rfl
@[simp] theorem Dev.scZero_lostIds (k : Nat) :
    (s.scZero k).lostIds = s.lostIds := rfl
@[simp] theorem Dev.scZero_slots (k : Nat) :
    (s.scZero k).slots = s.slots := rfl
@[simp] theorem Dev.scZero_slotNow (k : Nat) :
    (s.scZero k).slotNow = s.slotNow := rfl
@[simp] theorem Dev.scZero_slotFrom (k : Nat) :
    (s.scZero k).slotFrom = s.slotFrom := rfl
@[simp] theorem Dev.scZero_slotPast (k : Nat) :
    (s.scZero k).slotPast = s.slotPast := rfl
@[simp] theorem Dev.scZero_slotNext (k : Nat) :
    (s.scZero k).slotNext = s.slotNext := rfl
@[simp] theorem Dev.scZero_fires (k : Nat) :
    (s.scZero k).fires = s.fires := rfl
@[simp] theorem Dev.scZero_nextRun (k : Nat) :
    (s.scZero k).nextRun = s.nextRun := rfl
@[simp] theorem Dev.scZero_barrier (k : Nat) :
    (s.scZero k).barrier = s.barrier := rfl
@[simp] theorem Dev.scZero_die (k : Nat) :
    (s.scZero k).die = s.die := rfl
@[simp] theorem Dev.scZero_links (k : Nat) :
    (s.scZero k).links = s.links := rfl
@[simp] theorem Dev.scZero_ctxs (k : Nat) :
    (s.scZero k).ctxs = s.ctxs := rfl
@[simp] theorem Dev.scZero_pipes (k : Nat) :
    (s.scZero k).pipes = s.pipes := rfl
@[simp] theorem Dev.scZero_pipesOn (k : Nat) :
    (s.scZero k).pipesOn = s.pipesOn := rfl
@[simp] theorem Dev.scZero_lineSeq (k : Nat) :
    (s.scZero k).lineSeq = s.lineSeq := rfl
@[simp] theorem Dev.scZero_fusions (k : Nat) :
    (s.scZero k).fusions = s.fusions := rfl
@[simp] theorem Dev.scZero_churns (k : Nat) :
    (s.scZero k).churns = s.churns := rfl
@[simp] theorem Dev.scZero_jobs (k : Nat) :
    (s.scZero k).jobs = s.jobs := rfl
@[simp] theorem Dev.scZero_jobSeq (k : Nat) :
    (s.scZero k).jobSeq = s.jobSeq := rfl
@[simp] theorem Dev.scZero_lastQueue (k : Nat) :
    (s.scZero k).lastQueue = s.lastQueue := rfl
@[simp] theorem Dev.scZero_lastTeach (k : Nat) :
    (s.scZero k).lastTeach = s.lastTeach := rfl
@[simp] theorem Dev.scZero_saves (k : Nat) :
    (s.scZero k).saves = s.saves := rfl
@[simp] theorem Dev.scZero_saveSeq (k : Nat) :
    (s.scZero k).saveSeq = s.saveSeq := rfl
@[simp] theorem Dev.scZero_fixing (k : Nat) :
    (s.scZero k).fixing = s.fixing := rfl
@[simp] theorem Dev.scZero_runHit (k : Nat) :
    (s.scZero k).runHit = s.runHit := rfl
@[simp] theorem Dev.scZero_faultq (k : Nat) :
    (s.scZero k).faultq = s.faultq := rfl
@[simp] theorem Dev.scZero_posted (k : Nat) :
    (s.scZero k).posted = s.posted := rfl
@[simp] theorem Dev.scZero_tlb (k : Nat) :
    (s.scZero k).tlb = s.tlb := rfl
@[simp] theorem Dev.scZero_invals (k : Nat) :
    (s.scZero k).invals = s.invals := rfl
@[simp] theorem Dev.scZero_scrubLine (k : Nat) :
    (s.scZero k).scrubLine = s.scrubLine := rfl
@[simp] theorem Dev.scZero_pcieUp (k : Nat) :
    (s.scZero k).pcieUp = s.pcieUp := rfl
@[simp] theorem Dev.scZero_rules (k : Nat) :
    (s.scZero k).rules = s.rules := rfl
@[simp] theorem Dev.scZero_ring (k : Nat) :
    (s.scZero k).ring = s.ring := rfl
@[simp] theorem Dev.scZero_libUsed (k : Nat) :
    (s.scZero k).libUsed = s.libUsed := rfl
@[simp] theorem Dev.scZero_batch (k : Nat) :
    (s.scZero k).batch = s.batch := rfl
@[simp] theorem Dev.scZero_lastDec (k : Nat) :
    (s.scZero k).lastDec = s.lastDec := rfl
@[simp] theorem Dev.scZero_capUsed (k : Nat) :
    (s.scZero k).capUsed = s.capUsed := rfl
@[simp] theorem Dev.scZero_validating (k : Nat) :
    (s.scZero k).validating = s.validating := rfl
@[simp] theorem Dev.scZero_herd (k : Nat) :
    (s.scZero k).herd = s.herd := rfl
@[simp] theorem Dev.scZero_zports (k : Nat) :
    (s.scZero k).zports = s.zports := rfl
@[simp] theorem Dev.scZero_svc (k : Nat) :
    (s.scZero k).svc = s.svc := rfl
@[simp] theorem Dev.scZero_mlk (k : Nat) :
    (s.scZero k).mlk = s.mlk := rfl
@[simp] theorem Dev.scZero_trace (k : Nat) :
    (s.scZero k).trace = s.trace := rfl
@[simp] theorem Dev.scZero_out (k : Nat) :
    (s.scZero k).out = s.out := rfl
@[simp] theorem Dev.scZero_rd (k : Nat) (f : Field) (i : Nat) :
    (s.scZero k).rd f i = s.rd f i := rfl
@[simp] theorem Dev.useFree_regs :
    (s.useFree).regs = s.regs := rfl
@[simp] theorem Dev.useFree_voteB :
    (s.useFree).voteB = s.voteB := rfl
@[simp] theorem Dev.useFree_voteC :
    (s.useFree).voteC = s.voteC := rfl
@[simp] theorem Dev.useFree_od :
    (s.useFree).od = s.od := rfl
@[simp] theorem Dev.useFree_nvm :
    (s.useFree).nvm = s.nvm := rfl
@[simp] theorem Dev.useFree_mem :
    (s.useFree).mem = s.mem := rfl
@[simp] theorem Dev.useFree_bar :
    (s.useFree).bar = s.bar := rfl
@[simp] theorem Dev.useFree_sync :
    (s.useFree).sync = s.sync := rfl
@[simp] theorem Dev.useFree_counters :
    (s.useFree).counters = s.counters := rfl
@[simp] theorem Dev.useFree_power :
    (s.useFree).power = s.power := rfl
@[simp] theorem Dev.useFree_rst :
    (s.useFree).rst = s.rst := rfl
@[simp] theorem Dev.useFree_xclk :
    (s.useFree).xclk = s.xclk := rfl
@[simp] theorem Dev.useFree_tickAt :
    (s.useFree).tickAt = s.tickAt := rfl
@[simp] theorem Dev.useFree_slotAt :
    (s.useFree).slotAt = s.slotAt := rfl
@[simp] theorem Dev.useFree_timeU :
    (s.useFree).timeU = s.timeU := rfl
@[simp] theorem Dev.useFree_xclkOn :
    (s.useFree).xclkOn = s.xclkOn := rfl
@[simp] theorem Dev.useFree_tb :
    (s.useFree).tb = s.tb := rfl
@[simp] theorem Dev.useFree_ttos :
    (s.useFree).ttos = s.ttos := rfl
@[simp] theorem Dev.useFree_encs :
    (s.useFree).encs = s.encs := rfl
@[simp] theorem Dev.useFree_gens :
    (s.useFree).gens = s.gens := rfl
@[simp] theorem Dev.useFree_trgs :
    (s.useFree).trgs = s.trgs := rfl
@[simp] theorem Dev.useFree_est :
    (s.useFree).est = s.est := rfl
@[simp] theorem Dev.useFree_lmOffset :
    (s.useFree).lmOffset = s.lmOffset := rfl
@[simp] theorem Dev.useFree_peak :
    (s.useFree).peak = s.peak := rfl
@[simp] theorem Dev.useFree_marks :
    (s.useFree).marks = s.marks := rfl
@[simp] theorem Dev.useFree_lanes :
    (s.useFree).lanes = s.lanes := rfl
@[simp] theorem Dev.useFree_parts :
    (s.useFree).parts = s.parts := rfl
@[simp] theorem Dev.useFree_nextId :
    (s.useFree).nextId = s.nextId := rfl
@[simp] theorem Dev.useFree_lostIds :
    (s.useFree).lostIds = s.lostIds := rfl
@[simp] theorem Dev.useFree_slots :
    (s.useFree).slots = s.slots := rfl
@[simp] theorem Dev.useFree_slotNow :
    (s.useFree).slotNow = s.slotNow := rfl
@[simp] theorem Dev.useFree_slotFrom :
    (s.useFree).slotFrom = s.slotFrom := rfl
@[simp] theorem Dev.useFree_slotPast :
    (s.useFree).slotPast = s.slotPast := rfl
@[simp] theorem Dev.useFree_slotNext :
    (s.useFree).slotNext = s.slotNext := rfl
@[simp] theorem Dev.useFree_fires :
    (s.useFree).fires = s.fires := rfl
@[simp] theorem Dev.useFree_nextRun :
    (s.useFree).nextRun = s.nextRun := rfl
@[simp] theorem Dev.useFree_barrier :
    (s.useFree).barrier = s.barrier := rfl
@[simp] theorem Dev.useFree_die :
    (s.useFree).die = s.die := rfl
@[simp] theorem Dev.useFree_links :
    (s.useFree).links = s.links := rfl
@[simp] theorem Dev.useFree_ctxs :
    (s.useFree).ctxs = s.ctxs := rfl
@[simp] theorem Dev.useFree_pipes :
    (s.useFree).pipes = s.pipes := rfl
@[simp] theorem Dev.useFree_pipesOn :
    (s.useFree).pipesOn = s.pipesOn := rfl
@[simp] theorem Dev.useFree_lineSeq :
    (s.useFree).lineSeq = s.lineSeq := rfl
@[simp] theorem Dev.useFree_fusions :
    (s.useFree).fusions = s.fusions := rfl
@[simp] theorem Dev.useFree_churns :
    (s.useFree).churns = s.churns := rfl
@[simp] theorem Dev.useFree_jobs :
    (s.useFree).jobs = s.jobs := rfl
@[simp] theorem Dev.useFree_jobSeq :
    (s.useFree).jobSeq = s.jobSeq := rfl
@[simp] theorem Dev.useFree_lastQueue :
    (s.useFree).lastQueue = s.lastQueue := rfl
@[simp] theorem Dev.useFree_lastTeach :
    (s.useFree).lastTeach = s.lastTeach := rfl
@[simp] theorem Dev.useFree_saves :
    (s.useFree).saves = s.saves := rfl
@[simp] theorem Dev.useFree_saveSeq :
    (s.useFree).saveSeq = s.saveSeq := rfl
@[simp] theorem Dev.useFree_fixing :
    (s.useFree).fixing = s.fixing := rfl
@[simp] theorem Dev.useFree_runHit :
    (s.useFree).runHit = s.runHit := rfl
@[simp] theorem Dev.useFree_faultq :
    (s.useFree).faultq = s.faultq := rfl
@[simp] theorem Dev.useFree_posted :
    (s.useFree).posted = s.posted := rfl
@[simp] theorem Dev.useFree_tlb :
    (s.useFree).tlb = s.tlb := rfl
@[simp] theorem Dev.useFree_invals :
    (s.useFree).invals = s.invals := rfl
@[simp] theorem Dev.useFree_scrubLine :
    (s.useFree).scrubLine = s.scrubLine := rfl
@[simp] theorem Dev.useFree_pcieUp :
    (s.useFree).pcieUp = s.pcieUp := rfl
@[simp] theorem Dev.useFree_rules :
    (s.useFree).rules = s.rules := rfl
@[simp] theorem Dev.useFree_ring :
    (s.useFree).ring = s.ring := rfl
@[simp] theorem Dev.useFree_libUsed :
    (s.useFree).libUsed = s.libUsed := rfl
@[simp] theorem Dev.useFree_batch :
    (s.useFree).batch = s.batch := rfl
@[simp] theorem Dev.useFree_lastDec :
    (s.useFree).lastDec = s.lastDec := rfl
@[simp] theorem Dev.useFree_capUsed :
    (s.useFree).capUsed = s.capUsed := rfl
@[simp] theorem Dev.useFree_validating :
    (s.useFree).validating = s.validating := rfl
@[simp] theorem Dev.useFree_herd :
    (s.useFree).herd = s.herd := rfl
@[simp] theorem Dev.useFree_zports :
    (s.useFree).zports = s.zports := rfl
@[simp] theorem Dev.useFree_svc :
    (s.useFree).svc = s.svc := rfl
@[simp] theorem Dev.useFree_mlk :
    (s.useFree).mlk = s.mlk := rfl
@[simp] theorem Dev.useFree_trace :
    (s.useFree).trace = s.trace := rfl
@[simp] theorem Dev.useFree_out :
    (s.useFree).out = s.out := rfl
@[simp] theorem Dev.useFree_rd  (f : Field) (i : Nat) :
    (s.useFree).rd f i = s.rd f i := rfl
@[simp] theorem Dev.setOd_regs (index sub n : Nat) :
    (s.setOd index sub n).regs = s.regs := rfl
@[simp] theorem Dev.setOd_voteB (index sub n : Nat) :
    (s.setOd index sub n).voteB = s.voteB := rfl
@[simp] theorem Dev.setOd_voteC (index sub n : Nat) :
    (s.setOd index sub n).voteC = s.voteC := rfl
@[simp] theorem Dev.setOd_nvm (index sub n : Nat) :
    (s.setOd index sub n).nvm = s.nvm := rfl
@[simp] theorem Dev.setOd_mem (index sub n : Nat) :
    (s.setOd index sub n).mem = s.mem := rfl
@[simp] theorem Dev.setOd_bar (index sub n : Nat) :
    (s.setOd index sub n).bar = s.bar := rfl
@[simp] theorem Dev.setOd_sync (index sub n : Nat) :
    (s.setOd index sub n).sync = s.sync := rfl
@[simp] theorem Dev.setOd_counters (index sub n : Nat) :
    (s.setOd index sub n).counters = s.counters := rfl
@[simp] theorem Dev.setOd_free (index sub n : Nat) :
    (s.setOd index sub n).free = s.free := rfl
@[simp] theorem Dev.setOd_power (index sub n : Nat) :
    (s.setOd index sub n).power = s.power := rfl
@[simp] theorem Dev.setOd_rst (index sub n : Nat) :
    (s.setOd index sub n).rst = s.rst := rfl
@[simp] theorem Dev.setOd_xclk (index sub n : Nat) :
    (s.setOd index sub n).xclk = s.xclk := rfl
@[simp] theorem Dev.setOd_tickAt (index sub n : Nat) :
    (s.setOd index sub n).tickAt = s.tickAt := rfl
@[simp] theorem Dev.setOd_slotAt (index sub n : Nat) :
    (s.setOd index sub n).slotAt = s.slotAt := rfl
@[simp] theorem Dev.setOd_timeU (index sub n : Nat) :
    (s.setOd index sub n).timeU = s.timeU := rfl
@[simp] theorem Dev.setOd_xclkOn (index sub n : Nat) :
    (s.setOd index sub n).xclkOn = s.xclkOn := rfl
@[simp] theorem Dev.setOd_tb (index sub n : Nat) :
    (s.setOd index sub n).tb = s.tb := rfl
@[simp] theorem Dev.setOd_ttos (index sub n : Nat) :
    (s.setOd index sub n).ttos = s.ttos := rfl
@[simp] theorem Dev.setOd_encs (index sub n : Nat) :
    (s.setOd index sub n).encs = s.encs := rfl
@[simp] theorem Dev.setOd_gens (index sub n : Nat) :
    (s.setOd index sub n).gens = s.gens := rfl
@[simp] theorem Dev.setOd_trgs (index sub n : Nat) :
    (s.setOd index sub n).trgs = s.trgs := rfl
@[simp] theorem Dev.setOd_est (index sub n : Nat) :
    (s.setOd index sub n).est = s.est := rfl
@[simp] theorem Dev.setOd_lmOffset (index sub n : Nat) :
    (s.setOd index sub n).lmOffset = s.lmOffset := rfl
@[simp] theorem Dev.setOd_peak (index sub n : Nat) :
    (s.setOd index sub n).peak = s.peak := rfl
@[simp] theorem Dev.setOd_marks (index sub n : Nat) :
    (s.setOd index sub n).marks = s.marks := rfl
@[simp] theorem Dev.setOd_lanes (index sub n : Nat) :
    (s.setOd index sub n).lanes = s.lanes := rfl
@[simp] theorem Dev.setOd_parts (index sub n : Nat) :
    (s.setOd index sub n).parts = s.parts := rfl
@[simp] theorem Dev.setOd_nextId (index sub n : Nat) :
    (s.setOd index sub n).nextId = s.nextId := rfl
@[simp] theorem Dev.setOd_lostIds (index sub n : Nat) :
    (s.setOd index sub n).lostIds = s.lostIds := rfl
@[simp] theorem Dev.setOd_slots (index sub n : Nat) :
    (s.setOd index sub n).slots = s.slots := rfl
@[simp] theorem Dev.setOd_slotNow (index sub n : Nat) :
    (s.setOd index sub n).slotNow = s.slotNow := rfl
@[simp] theorem Dev.setOd_slotFrom (index sub n : Nat) :
    (s.setOd index sub n).slotFrom = s.slotFrom := rfl
@[simp] theorem Dev.setOd_slotPast (index sub n : Nat) :
    (s.setOd index sub n).slotPast = s.slotPast := rfl
@[simp] theorem Dev.setOd_slotNext (index sub n : Nat) :
    (s.setOd index sub n).slotNext = s.slotNext := rfl
@[simp] theorem Dev.setOd_fires (index sub n : Nat) :
    (s.setOd index sub n).fires = s.fires := rfl
@[simp] theorem Dev.setOd_nextRun (index sub n : Nat) :
    (s.setOd index sub n).nextRun = s.nextRun := rfl
@[simp] theorem Dev.setOd_barrier (index sub n : Nat) :
    (s.setOd index sub n).barrier = s.barrier := rfl
@[simp] theorem Dev.setOd_die (index sub n : Nat) :
    (s.setOd index sub n).die = s.die := rfl
@[simp] theorem Dev.setOd_links (index sub n : Nat) :
    (s.setOd index sub n).links = s.links := rfl
@[simp] theorem Dev.setOd_ctxs (index sub n : Nat) :
    (s.setOd index sub n).ctxs = s.ctxs := rfl
@[simp] theorem Dev.setOd_pipes (index sub n : Nat) :
    (s.setOd index sub n).pipes = s.pipes := rfl
@[simp] theorem Dev.setOd_pipesOn (index sub n : Nat) :
    (s.setOd index sub n).pipesOn = s.pipesOn := rfl
@[simp] theorem Dev.setOd_lineSeq (index sub n : Nat) :
    (s.setOd index sub n).lineSeq = s.lineSeq := rfl
@[simp] theorem Dev.setOd_fusions (index sub n : Nat) :
    (s.setOd index sub n).fusions = s.fusions := rfl
@[simp] theorem Dev.setOd_churns (index sub n : Nat) :
    (s.setOd index sub n).churns = s.churns := rfl
@[simp] theorem Dev.setOd_jobs (index sub n : Nat) :
    (s.setOd index sub n).jobs = s.jobs := rfl
@[simp] theorem Dev.setOd_jobSeq (index sub n : Nat) :
    (s.setOd index sub n).jobSeq = s.jobSeq := rfl
@[simp] theorem Dev.setOd_lastQueue (index sub n : Nat) :
    (s.setOd index sub n).lastQueue = s.lastQueue := rfl
@[simp] theorem Dev.setOd_lastTeach (index sub n : Nat) :
    (s.setOd index sub n).lastTeach = s.lastTeach := rfl
@[simp] theorem Dev.setOd_saves (index sub n : Nat) :
    (s.setOd index sub n).saves = s.saves := rfl
@[simp] theorem Dev.setOd_saveSeq (index sub n : Nat) :
    (s.setOd index sub n).saveSeq = s.saveSeq := rfl
@[simp] theorem Dev.setOd_fixing (index sub n : Nat) :
    (s.setOd index sub n).fixing = s.fixing := rfl
@[simp] theorem Dev.setOd_runHit (index sub n : Nat) :
    (s.setOd index sub n).runHit = s.runHit := rfl
@[simp] theorem Dev.setOd_faultq (index sub n : Nat) :
    (s.setOd index sub n).faultq = s.faultq := rfl
@[simp] theorem Dev.setOd_posted (index sub n : Nat) :
    (s.setOd index sub n).posted = s.posted := rfl
@[simp] theorem Dev.setOd_tlb (index sub n : Nat) :
    (s.setOd index sub n).tlb = s.tlb := rfl
@[simp] theorem Dev.setOd_invals (index sub n : Nat) :
    (s.setOd index sub n).invals = s.invals := rfl
@[simp] theorem Dev.setOd_scrubLine (index sub n : Nat) :
    (s.setOd index sub n).scrubLine = s.scrubLine := rfl
@[simp] theorem Dev.setOd_pcieUp (index sub n : Nat) :
    (s.setOd index sub n).pcieUp = s.pcieUp := rfl
@[simp] theorem Dev.setOd_rules (index sub n : Nat) :
    (s.setOd index sub n).rules = s.rules := rfl
@[simp] theorem Dev.setOd_ring (index sub n : Nat) :
    (s.setOd index sub n).ring = s.ring := rfl
@[simp] theorem Dev.setOd_libUsed (index sub n : Nat) :
    (s.setOd index sub n).libUsed = s.libUsed := rfl
@[simp] theorem Dev.setOd_batch (index sub n : Nat) :
    (s.setOd index sub n).batch = s.batch := rfl
@[simp] theorem Dev.setOd_lastDec (index sub n : Nat) :
    (s.setOd index sub n).lastDec = s.lastDec := rfl
@[simp] theorem Dev.setOd_capUsed (index sub n : Nat) :
    (s.setOd index sub n).capUsed = s.capUsed := rfl
@[simp] theorem Dev.setOd_validating (index sub n : Nat) :
    (s.setOd index sub n).validating = s.validating := rfl
@[simp] theorem Dev.setOd_herd (index sub n : Nat) :
    (s.setOd index sub n).herd = s.herd := rfl
@[simp] theorem Dev.setOd_zports (index sub n : Nat) :
    (s.setOd index sub n).zports = s.zports := rfl
@[simp] theorem Dev.setOd_svc (index sub n : Nat) :
    (s.setOd index sub n).svc = s.svc := rfl
@[simp] theorem Dev.setOd_mlk (index sub n : Nat) :
    (s.setOd index sub n).mlk = s.mlk := rfl
@[simp] theorem Dev.setOd_trace (index sub n : Nat) :
    (s.setOd index sub n).trace = s.trace := rfl
@[simp] theorem Dev.setOd_out (index sub n : Nat) :
    (s.setOd index sub n).out = s.out := rfl
@[simp] theorem Dev.setOd_rd (index sub n : Nat) (f : Field) (i : Nat) :
    (s.setOd index sub n).rd f i = s.rd f i := rfl
@[simp] theorem Dev.setOdBytes_regs (index sub : Nat) (b : List Byte) :
    (s.setOdBytes index sub b).regs = s.regs := rfl
@[simp] theorem Dev.setOdBytes_voteB (index sub : Nat) (b : List Byte) :
    (s.setOdBytes index sub b).voteB = s.voteB := rfl
@[simp] theorem Dev.setOdBytes_voteC (index sub : Nat) (b : List Byte) :
    (s.setOdBytes index sub b).voteC = s.voteC := rfl
@[simp] theorem Dev.setOdBytes_nvm (index sub : Nat) (b : List Byte) :
    (s.setOdBytes index sub b).nvm = s.nvm := rfl
@[simp] theorem Dev.setOdBytes_mem (index sub : Nat) (b : List Byte) :
    (s.setOdBytes index sub b).mem = s.mem := rfl
@[simp] theorem Dev.setOdBytes_bar (index sub : Nat) (b : List Byte) :
    (s.setOdBytes index sub b).bar = s.bar := rfl
@[simp] theorem Dev.setOdBytes_sync (index sub : Nat) (b : List Byte) :
    (s.setOdBytes index sub b).sync = s.sync := rfl
@[simp] theorem Dev.setOdBytes_counters (index sub : Nat) (b : List Byte) :
    (s.setOdBytes index sub b).counters = s.counters := rfl
@[simp] theorem Dev.setOdBytes_free (index sub : Nat) (b : List Byte) :
    (s.setOdBytes index sub b).free = s.free := rfl
@[simp] theorem Dev.setOdBytes_power (index sub : Nat) (b : List Byte) :
    (s.setOdBytes index sub b).power = s.power := rfl
@[simp] theorem Dev.setOdBytes_rst (index sub : Nat) (b : List Byte) :
    (s.setOdBytes index sub b).rst = s.rst := rfl
@[simp] theorem Dev.setOdBytes_xclk (index sub : Nat) (b : List Byte) :
    (s.setOdBytes index sub b).xclk = s.xclk := rfl
@[simp] theorem Dev.setOdBytes_tickAt (index sub : Nat) (b : List Byte) :
    (s.setOdBytes index sub b).tickAt = s.tickAt := rfl
@[simp] theorem Dev.setOdBytes_slotAt (index sub : Nat) (b : List Byte) :
    (s.setOdBytes index sub b).slotAt = s.slotAt := rfl
@[simp] theorem Dev.setOdBytes_timeU (index sub : Nat) (b : List Byte) :
    (s.setOdBytes index sub b).timeU = s.timeU := rfl
@[simp] theorem Dev.setOdBytes_xclkOn (index sub : Nat) (b : List Byte) :
    (s.setOdBytes index sub b).xclkOn = s.xclkOn := rfl
@[simp] theorem Dev.setOdBytes_tb (index sub : Nat) (b : List Byte) :
    (s.setOdBytes index sub b).tb = s.tb := rfl
@[simp] theorem Dev.setOdBytes_ttos (index sub : Nat) (b : List Byte) :
    (s.setOdBytes index sub b).ttos = s.ttos := rfl
@[simp] theorem Dev.setOdBytes_encs (index sub : Nat) (b : List Byte) :
    (s.setOdBytes index sub b).encs = s.encs := rfl
@[simp] theorem Dev.setOdBytes_gens (index sub : Nat) (b : List Byte) :
    (s.setOdBytes index sub b).gens = s.gens := rfl
@[simp] theorem Dev.setOdBytes_trgs (index sub : Nat) (b : List Byte) :
    (s.setOdBytes index sub b).trgs = s.trgs := rfl
@[simp] theorem Dev.setOdBytes_est (index sub : Nat) (b : List Byte) :
    (s.setOdBytes index sub b).est = s.est := rfl
@[simp] theorem Dev.setOdBytes_lmOffset (index sub : Nat) (b : List Byte) :
    (s.setOdBytes index sub b).lmOffset = s.lmOffset := rfl
@[simp] theorem Dev.setOdBytes_peak (index sub : Nat) (b : List Byte) :
    (s.setOdBytes index sub b).peak = s.peak := rfl
@[simp] theorem Dev.setOdBytes_marks (index sub : Nat) (b : List Byte) :
    (s.setOdBytes index sub b).marks = s.marks := rfl
@[simp] theorem Dev.setOdBytes_lanes (index sub : Nat) (b : List Byte) :
    (s.setOdBytes index sub b).lanes = s.lanes := rfl
@[simp] theorem Dev.setOdBytes_parts (index sub : Nat) (b : List Byte) :
    (s.setOdBytes index sub b).parts = s.parts := rfl
@[simp] theorem Dev.setOdBytes_nextId (index sub : Nat) (b : List Byte) :
    (s.setOdBytes index sub b).nextId = s.nextId := rfl
@[simp] theorem Dev.setOdBytes_lostIds (index sub : Nat) (b : List Byte) :
    (s.setOdBytes index sub b).lostIds = s.lostIds := rfl
@[simp] theorem Dev.setOdBytes_slots (index sub : Nat) (b : List Byte) :
    (s.setOdBytes index sub b).slots = s.slots := rfl
@[simp] theorem Dev.setOdBytes_slotNow (index sub : Nat) (b : List Byte) :
    (s.setOdBytes index sub b).slotNow = s.slotNow := rfl
@[simp] theorem Dev.setOdBytes_slotFrom (index sub : Nat) (b : List Byte) :
    (s.setOdBytes index sub b).slotFrom = s.slotFrom := rfl
@[simp] theorem Dev.setOdBytes_slotPast (index sub : Nat) (b : List Byte) :
    (s.setOdBytes index sub b).slotPast = s.slotPast := rfl
@[simp] theorem Dev.setOdBytes_slotNext (index sub : Nat) (b : List Byte) :
    (s.setOdBytes index sub b).slotNext = s.slotNext := rfl
@[simp] theorem Dev.setOdBytes_fires (index sub : Nat) (b : List Byte) :
    (s.setOdBytes index sub b).fires = s.fires := rfl
@[simp] theorem Dev.setOdBytes_nextRun (index sub : Nat) (b : List Byte) :
    (s.setOdBytes index sub b).nextRun = s.nextRun := rfl
@[simp] theorem Dev.setOdBytes_barrier (index sub : Nat) (b : List Byte) :
    (s.setOdBytes index sub b).barrier = s.barrier := rfl
@[simp] theorem Dev.setOdBytes_die (index sub : Nat) (b : List Byte) :
    (s.setOdBytes index sub b).die = s.die := rfl
@[simp] theorem Dev.setOdBytes_links (index sub : Nat) (b : List Byte) :
    (s.setOdBytes index sub b).links = s.links := rfl
@[simp] theorem Dev.setOdBytes_ctxs (index sub : Nat) (b : List Byte) :
    (s.setOdBytes index sub b).ctxs = s.ctxs := rfl
@[simp] theorem Dev.setOdBytes_pipes (index sub : Nat) (b : List Byte) :
    (s.setOdBytes index sub b).pipes = s.pipes := rfl
@[simp] theorem Dev.setOdBytes_pipesOn (index sub : Nat) (b : List Byte) :
    (s.setOdBytes index sub b).pipesOn = s.pipesOn := rfl
@[simp] theorem Dev.setOdBytes_lineSeq (index sub : Nat) (b : List Byte) :
    (s.setOdBytes index sub b).lineSeq = s.lineSeq := rfl
@[simp] theorem Dev.setOdBytes_fusions (index sub : Nat) (b : List Byte) :
    (s.setOdBytes index sub b).fusions = s.fusions := rfl
@[simp] theorem Dev.setOdBytes_churns (index sub : Nat) (b : List Byte) :
    (s.setOdBytes index sub b).churns = s.churns := rfl
@[simp] theorem Dev.setOdBytes_jobs (index sub : Nat) (b : List Byte) :
    (s.setOdBytes index sub b).jobs = s.jobs := rfl
@[simp] theorem Dev.setOdBytes_jobSeq (index sub : Nat) (b : List Byte) :
    (s.setOdBytes index sub b).jobSeq = s.jobSeq := rfl
@[simp] theorem Dev.setOdBytes_lastQueue (index sub : Nat) (b : List Byte) :
    (s.setOdBytes index sub b).lastQueue = s.lastQueue := rfl
@[simp] theorem Dev.setOdBytes_lastTeach (index sub : Nat) (b : List Byte) :
    (s.setOdBytes index sub b).lastTeach = s.lastTeach := rfl
@[simp] theorem Dev.setOdBytes_saves (index sub : Nat) (b : List Byte) :
    (s.setOdBytes index sub b).saves = s.saves := rfl
@[simp] theorem Dev.setOdBytes_saveSeq (index sub : Nat) (b : List Byte) :
    (s.setOdBytes index sub b).saveSeq = s.saveSeq := rfl
@[simp] theorem Dev.setOdBytes_fixing (index sub : Nat) (b : List Byte) :
    (s.setOdBytes index sub b).fixing = s.fixing := rfl
@[simp] theorem Dev.setOdBytes_runHit (index sub : Nat) (b : List Byte) :
    (s.setOdBytes index sub b).runHit = s.runHit := rfl
@[simp] theorem Dev.setOdBytes_faultq (index sub : Nat) (b : List Byte) :
    (s.setOdBytes index sub b).faultq = s.faultq := rfl
@[simp] theorem Dev.setOdBytes_posted (index sub : Nat) (b : List Byte) :
    (s.setOdBytes index sub b).posted = s.posted := rfl
@[simp] theorem Dev.setOdBytes_tlb (index sub : Nat) (b : List Byte) :
    (s.setOdBytes index sub b).tlb = s.tlb := rfl
@[simp] theorem Dev.setOdBytes_invals (index sub : Nat) (b : List Byte) :
    (s.setOdBytes index sub b).invals = s.invals := rfl
@[simp] theorem Dev.setOdBytes_scrubLine (index sub : Nat) (b : List Byte) :
    (s.setOdBytes index sub b).scrubLine = s.scrubLine := rfl
@[simp] theorem Dev.setOdBytes_pcieUp (index sub : Nat) (b : List Byte) :
    (s.setOdBytes index sub b).pcieUp = s.pcieUp := rfl
@[simp] theorem Dev.setOdBytes_rules (index sub : Nat) (b : List Byte) :
    (s.setOdBytes index sub b).rules = s.rules := rfl
@[simp] theorem Dev.setOdBytes_ring (index sub : Nat) (b : List Byte) :
    (s.setOdBytes index sub b).ring = s.ring := rfl
@[simp] theorem Dev.setOdBytes_libUsed (index sub : Nat) (b : List Byte) :
    (s.setOdBytes index sub b).libUsed = s.libUsed := rfl
@[simp] theorem Dev.setOdBytes_batch (index sub : Nat) (b : List Byte) :
    (s.setOdBytes index sub b).batch = s.batch := rfl
@[simp] theorem Dev.setOdBytes_lastDec (index sub : Nat) (b : List Byte) :
    (s.setOdBytes index sub b).lastDec = s.lastDec := rfl
@[simp] theorem Dev.setOdBytes_capUsed (index sub : Nat) (b : List Byte) :
    (s.setOdBytes index sub b).capUsed = s.capUsed := rfl
@[simp] theorem Dev.setOdBytes_validating (index sub : Nat) (b : List Byte) :
    (s.setOdBytes index sub b).validating = s.validating := rfl
@[simp] theorem Dev.setOdBytes_herd (index sub : Nat) (b : List Byte) :
    (s.setOdBytes index sub b).herd = s.herd := rfl
@[simp] theorem Dev.setOdBytes_zports (index sub : Nat) (b : List Byte) :
    (s.setOdBytes index sub b).zports = s.zports := rfl
@[simp] theorem Dev.setOdBytes_svc (index sub : Nat) (b : List Byte) :
    (s.setOdBytes index sub b).svc = s.svc := rfl
@[simp] theorem Dev.setOdBytes_mlk (index sub : Nat) (b : List Byte) :
    (s.setOdBytes index sub b).mlk = s.mlk := rfl
@[simp] theorem Dev.setOdBytes_trace (index sub : Nat) (b : List Byte) :
    (s.setOdBytes index sub b).trace = s.trace := rfl
@[simp] theorem Dev.setOdBytes_out (index sub : Nat) (b : List Byte) :
    (s.setOdBytes index sub b).out = s.out := rfl
@[simp] theorem Dev.setOdBytes_rd (index sub : Nat) (b : List Byte) (f : Field) (i : Nat) :
    (s.setOdBytes index sub b).rd f i = s.rd f i := rfl
@[simp] theorem Dev.countOd_regs (index sub k : Nat) :
    (s.countOd index sub k).regs = s.regs := rfl
@[simp] theorem Dev.countOd_voteB (index sub k : Nat) :
    (s.countOd index sub k).voteB = s.voteB := rfl
@[simp] theorem Dev.countOd_voteC (index sub k : Nat) :
    (s.countOd index sub k).voteC = s.voteC := rfl
@[simp] theorem Dev.countOd_nvm (index sub k : Nat) :
    (s.countOd index sub k).nvm = s.nvm := rfl
@[simp] theorem Dev.countOd_mem (index sub k : Nat) :
    (s.countOd index sub k).mem = s.mem := rfl
@[simp] theorem Dev.countOd_bar (index sub k : Nat) :
    (s.countOd index sub k).bar = s.bar := rfl
@[simp] theorem Dev.countOd_sync (index sub k : Nat) :
    (s.countOd index sub k).sync = s.sync := rfl
@[simp] theorem Dev.countOd_counters (index sub k : Nat) :
    (s.countOd index sub k).counters = s.counters := rfl
@[simp] theorem Dev.countOd_free (index sub k : Nat) :
    (s.countOd index sub k).free = s.free := rfl
@[simp] theorem Dev.countOd_power (index sub k : Nat) :
    (s.countOd index sub k).power = s.power := rfl
@[simp] theorem Dev.countOd_rst (index sub k : Nat) :
    (s.countOd index sub k).rst = s.rst := rfl
@[simp] theorem Dev.countOd_xclk (index sub k : Nat) :
    (s.countOd index sub k).xclk = s.xclk := rfl
@[simp] theorem Dev.countOd_tickAt (index sub k : Nat) :
    (s.countOd index sub k).tickAt = s.tickAt := rfl
@[simp] theorem Dev.countOd_slotAt (index sub k : Nat) :
    (s.countOd index sub k).slotAt = s.slotAt := rfl
@[simp] theorem Dev.countOd_timeU (index sub k : Nat) :
    (s.countOd index sub k).timeU = s.timeU := rfl
@[simp] theorem Dev.countOd_xclkOn (index sub k : Nat) :
    (s.countOd index sub k).xclkOn = s.xclkOn := rfl
@[simp] theorem Dev.countOd_tb (index sub k : Nat) :
    (s.countOd index sub k).tb = s.tb := rfl
@[simp] theorem Dev.countOd_ttos (index sub k : Nat) :
    (s.countOd index sub k).ttos = s.ttos := rfl
@[simp] theorem Dev.countOd_encs (index sub k : Nat) :
    (s.countOd index sub k).encs = s.encs := rfl
@[simp] theorem Dev.countOd_gens (index sub k : Nat) :
    (s.countOd index sub k).gens = s.gens := rfl
@[simp] theorem Dev.countOd_trgs (index sub k : Nat) :
    (s.countOd index sub k).trgs = s.trgs := rfl
@[simp] theorem Dev.countOd_est (index sub k : Nat) :
    (s.countOd index sub k).est = s.est := rfl
@[simp] theorem Dev.countOd_lmOffset (index sub k : Nat) :
    (s.countOd index sub k).lmOffset = s.lmOffset := rfl
@[simp] theorem Dev.countOd_peak (index sub k : Nat) :
    (s.countOd index sub k).peak = s.peak := rfl
@[simp] theorem Dev.countOd_marks (index sub k : Nat) :
    (s.countOd index sub k).marks = s.marks := rfl
@[simp] theorem Dev.countOd_lanes (index sub k : Nat) :
    (s.countOd index sub k).lanes = s.lanes := rfl
@[simp] theorem Dev.countOd_parts (index sub k : Nat) :
    (s.countOd index sub k).parts = s.parts := rfl
@[simp] theorem Dev.countOd_nextId (index sub k : Nat) :
    (s.countOd index sub k).nextId = s.nextId := rfl
@[simp] theorem Dev.countOd_lostIds (index sub k : Nat) :
    (s.countOd index sub k).lostIds = s.lostIds := rfl
@[simp] theorem Dev.countOd_slots (index sub k : Nat) :
    (s.countOd index sub k).slots = s.slots := rfl
@[simp] theorem Dev.countOd_slotNow (index sub k : Nat) :
    (s.countOd index sub k).slotNow = s.slotNow := rfl
@[simp] theorem Dev.countOd_slotFrom (index sub k : Nat) :
    (s.countOd index sub k).slotFrom = s.slotFrom := rfl
@[simp] theorem Dev.countOd_slotPast (index sub k : Nat) :
    (s.countOd index sub k).slotPast = s.slotPast := rfl
@[simp] theorem Dev.countOd_slotNext (index sub k : Nat) :
    (s.countOd index sub k).slotNext = s.slotNext := rfl
@[simp] theorem Dev.countOd_fires (index sub k : Nat) :
    (s.countOd index sub k).fires = s.fires := rfl
@[simp] theorem Dev.countOd_nextRun (index sub k : Nat) :
    (s.countOd index sub k).nextRun = s.nextRun := rfl
@[simp] theorem Dev.countOd_barrier (index sub k : Nat) :
    (s.countOd index sub k).barrier = s.barrier := rfl
@[simp] theorem Dev.countOd_die (index sub k : Nat) :
    (s.countOd index sub k).die = s.die := rfl
@[simp] theorem Dev.countOd_links (index sub k : Nat) :
    (s.countOd index sub k).links = s.links := rfl
@[simp] theorem Dev.countOd_ctxs (index sub k : Nat) :
    (s.countOd index sub k).ctxs = s.ctxs := rfl
@[simp] theorem Dev.countOd_pipes (index sub k : Nat) :
    (s.countOd index sub k).pipes = s.pipes := rfl
@[simp] theorem Dev.countOd_pipesOn (index sub k : Nat) :
    (s.countOd index sub k).pipesOn = s.pipesOn := rfl
@[simp] theorem Dev.countOd_lineSeq (index sub k : Nat) :
    (s.countOd index sub k).lineSeq = s.lineSeq := rfl
@[simp] theorem Dev.countOd_fusions (index sub k : Nat) :
    (s.countOd index sub k).fusions = s.fusions := rfl
@[simp] theorem Dev.countOd_churns (index sub k : Nat) :
    (s.countOd index sub k).churns = s.churns := rfl
@[simp] theorem Dev.countOd_jobs (index sub k : Nat) :
    (s.countOd index sub k).jobs = s.jobs := rfl
@[simp] theorem Dev.countOd_jobSeq (index sub k : Nat) :
    (s.countOd index sub k).jobSeq = s.jobSeq := rfl
@[simp] theorem Dev.countOd_lastQueue (index sub k : Nat) :
    (s.countOd index sub k).lastQueue = s.lastQueue := rfl
@[simp] theorem Dev.countOd_lastTeach (index sub k : Nat) :
    (s.countOd index sub k).lastTeach = s.lastTeach := rfl
@[simp] theorem Dev.countOd_saves (index sub k : Nat) :
    (s.countOd index sub k).saves = s.saves := rfl
@[simp] theorem Dev.countOd_saveSeq (index sub k : Nat) :
    (s.countOd index sub k).saveSeq = s.saveSeq := rfl
@[simp] theorem Dev.countOd_fixing (index sub k : Nat) :
    (s.countOd index sub k).fixing = s.fixing := rfl
@[simp] theorem Dev.countOd_runHit (index sub k : Nat) :
    (s.countOd index sub k).runHit = s.runHit := rfl
@[simp] theorem Dev.countOd_faultq (index sub k : Nat) :
    (s.countOd index sub k).faultq = s.faultq := rfl
@[simp] theorem Dev.countOd_posted (index sub k : Nat) :
    (s.countOd index sub k).posted = s.posted := rfl
@[simp] theorem Dev.countOd_tlb (index sub k : Nat) :
    (s.countOd index sub k).tlb = s.tlb := rfl
@[simp] theorem Dev.countOd_invals (index sub k : Nat) :
    (s.countOd index sub k).invals = s.invals := rfl
@[simp] theorem Dev.countOd_scrubLine (index sub k : Nat) :
    (s.countOd index sub k).scrubLine = s.scrubLine := rfl
@[simp] theorem Dev.countOd_pcieUp (index sub k : Nat) :
    (s.countOd index sub k).pcieUp = s.pcieUp := rfl
@[simp] theorem Dev.countOd_rules (index sub k : Nat) :
    (s.countOd index sub k).rules = s.rules := rfl
@[simp] theorem Dev.countOd_ring (index sub k : Nat) :
    (s.countOd index sub k).ring = s.ring := rfl
@[simp] theorem Dev.countOd_libUsed (index sub k : Nat) :
    (s.countOd index sub k).libUsed = s.libUsed := rfl
@[simp] theorem Dev.countOd_batch (index sub k : Nat) :
    (s.countOd index sub k).batch = s.batch := rfl
@[simp] theorem Dev.countOd_lastDec (index sub k : Nat) :
    (s.countOd index sub k).lastDec = s.lastDec := rfl
@[simp] theorem Dev.countOd_capUsed (index sub k : Nat) :
    (s.countOd index sub k).capUsed = s.capUsed := rfl
@[simp] theorem Dev.countOd_validating (index sub k : Nat) :
    (s.countOd index sub k).validating = s.validating := rfl
@[simp] theorem Dev.countOd_herd (index sub k : Nat) :
    (s.countOd index sub k).herd = s.herd := rfl
@[simp] theorem Dev.countOd_zports (index sub k : Nat) :
    (s.countOd index sub k).zports = s.zports := rfl
@[simp] theorem Dev.countOd_svc (index sub k : Nat) :
    (s.countOd index sub k).svc = s.svc := rfl
@[simp] theorem Dev.countOd_mlk (index sub k : Nat) :
    (s.countOd index sub k).mlk = s.mlk := rfl
@[simp] theorem Dev.countOd_trace (index sub k : Nat) :
    (s.countOd index sub k).trace = s.trace := rfl
@[simp] theorem Dev.countOd_out (index sub k : Nat) :
    (s.countOd index sub k).out = s.out := rfl
@[simp] theorem Dev.countOd_rd (index sub k : Nat) (f : Field) (i : Nat) :
    (s.countOd index sub k).rd f i = s.rd f i := rfl
@[simp] theorem Dev.status_regs (n : Nat) :
    (s.status n).regs = s.regs := rfl
@[simp] theorem Dev.status_voteB (n : Nat) :
    (s.status n).voteB = s.voteB := rfl
@[simp] theorem Dev.status_voteC (n : Nat) :
    (s.status n).voteC = s.voteC := rfl
@[simp] theorem Dev.status_od (n : Nat) :
    (s.status n).od = s.od := rfl
@[simp] theorem Dev.status_nvm (n : Nat) :
    (s.status n).nvm = s.nvm := rfl
@[simp] theorem Dev.status_mem (n : Nat) :
    (s.status n).mem = s.mem := rfl
@[simp] theorem Dev.status_bar (n : Nat) :
    (s.status n).bar = s.bar := rfl
@[simp] theorem Dev.status_sync (n : Nat) :
    (s.status n).sync = s.sync := rfl
@[simp] theorem Dev.status_counters (n : Nat) :
    (s.status n).counters = s.counters := rfl
@[simp] theorem Dev.status_free (n : Nat) :
    (s.status n).free = s.free := rfl
@[simp] theorem Dev.status_power (n : Nat) :
    (s.status n).power = s.power := rfl
@[simp] theorem Dev.status_rst (n : Nat) :
    (s.status n).rst = s.rst := rfl
@[simp] theorem Dev.status_xclk (n : Nat) :
    (s.status n).xclk = s.xclk := rfl
@[simp] theorem Dev.status_tickAt (n : Nat) :
    (s.status n).tickAt = s.tickAt := rfl
@[simp] theorem Dev.status_slotAt (n : Nat) :
    (s.status n).slotAt = s.slotAt := rfl
@[simp] theorem Dev.status_timeU (n : Nat) :
    (s.status n).timeU = s.timeU := rfl
@[simp] theorem Dev.status_xclkOn (n : Nat) :
    (s.status n).xclkOn = s.xclkOn := rfl
@[simp] theorem Dev.status_tb (n : Nat) :
    (s.status n).tb = s.tb := rfl
@[simp] theorem Dev.status_ttos (n : Nat) :
    (s.status n).ttos = s.ttos := rfl
@[simp] theorem Dev.status_encs (n : Nat) :
    (s.status n).encs = s.encs := rfl
@[simp] theorem Dev.status_gens (n : Nat) :
    (s.status n).gens = s.gens := rfl
@[simp] theorem Dev.status_trgs (n : Nat) :
    (s.status n).trgs = s.trgs := rfl
@[simp] theorem Dev.status_est (n : Nat) :
    (s.status n).est = s.est := rfl
@[simp] theorem Dev.status_lmOffset (n : Nat) :
    (s.status n).lmOffset = s.lmOffset := rfl
@[simp] theorem Dev.status_peak (n : Nat) :
    (s.status n).peak = s.peak := rfl
@[simp] theorem Dev.status_marks (n : Nat) :
    (s.status n).marks = s.marks := rfl
@[simp] theorem Dev.status_lanes (n : Nat) :
    (s.status n).lanes = s.lanes := rfl
@[simp] theorem Dev.status_parts (n : Nat) :
    (s.status n).parts = s.parts := rfl
@[simp] theorem Dev.status_nextId (n : Nat) :
    (s.status n).nextId = s.nextId := rfl
@[simp] theorem Dev.status_lostIds (n : Nat) :
    (s.status n).lostIds = s.lostIds := rfl
@[simp] theorem Dev.status_slots (n : Nat) :
    (s.status n).slots = s.slots := rfl
@[simp] theorem Dev.status_slotNow (n : Nat) :
    (s.status n).slotNow = s.slotNow := rfl
@[simp] theorem Dev.status_slotFrom (n : Nat) :
    (s.status n).slotFrom = s.slotFrom := rfl
@[simp] theorem Dev.status_slotPast (n : Nat) :
    (s.status n).slotPast = s.slotPast := rfl
@[simp] theorem Dev.status_slotNext (n : Nat) :
    (s.status n).slotNext = s.slotNext := rfl
@[simp] theorem Dev.status_fires (n : Nat) :
    (s.status n).fires = s.fires := rfl
@[simp] theorem Dev.status_nextRun (n : Nat) :
    (s.status n).nextRun = s.nextRun := rfl
@[simp] theorem Dev.status_barrier (n : Nat) :
    (s.status n).barrier = s.barrier := rfl
@[simp] theorem Dev.status_die (n : Nat) :
    (s.status n).die = s.die := rfl
@[simp] theorem Dev.status_links (n : Nat) :
    (s.status n).links = s.links := rfl
@[simp] theorem Dev.status_ctxs (n : Nat) :
    (s.status n).ctxs = s.ctxs := rfl
@[simp] theorem Dev.status_pipes (n : Nat) :
    (s.status n).pipes = s.pipes := rfl
@[simp] theorem Dev.status_pipesOn (n : Nat) :
    (s.status n).pipesOn = s.pipesOn := rfl
@[simp] theorem Dev.status_lineSeq (n : Nat) :
    (s.status n).lineSeq = s.lineSeq := rfl
@[simp] theorem Dev.status_fusions (n : Nat) :
    (s.status n).fusions = s.fusions := rfl
@[simp] theorem Dev.status_churns (n : Nat) :
    (s.status n).churns = s.churns := rfl
@[simp] theorem Dev.status_jobs (n : Nat) :
    (s.status n).jobs = s.jobs := rfl
@[simp] theorem Dev.status_jobSeq (n : Nat) :
    (s.status n).jobSeq = s.jobSeq := rfl
@[simp] theorem Dev.status_lastQueue (n : Nat) :
    (s.status n).lastQueue = s.lastQueue := rfl
@[simp] theorem Dev.status_lastTeach (n : Nat) :
    (s.status n).lastTeach = s.lastTeach := rfl
@[simp] theorem Dev.status_saves (n : Nat) :
    (s.status n).saves = s.saves := rfl
@[simp] theorem Dev.status_saveSeq (n : Nat) :
    (s.status n).saveSeq = s.saveSeq := rfl
@[simp] theorem Dev.status_fixing (n : Nat) :
    (s.status n).fixing = s.fixing := rfl
@[simp] theorem Dev.status_runHit (n : Nat) :
    (s.status n).runHit = s.runHit := rfl
@[simp] theorem Dev.status_faultq (n : Nat) :
    (s.status n).faultq = s.faultq := rfl
@[simp] theorem Dev.status_posted (n : Nat) :
    (s.status n).posted = s.posted := rfl
@[simp] theorem Dev.status_tlb (n : Nat) :
    (s.status n).tlb = s.tlb := rfl
@[simp] theorem Dev.status_invals (n : Nat) :
    (s.status n).invals = s.invals := rfl
@[simp] theorem Dev.status_scrubLine (n : Nat) :
    (s.status n).scrubLine = s.scrubLine := rfl
@[simp] theorem Dev.status_pcieUp (n : Nat) :
    (s.status n).pcieUp = s.pcieUp := rfl
@[simp] theorem Dev.status_rules (n : Nat) :
    (s.status n).rules = s.rules := rfl
@[simp] theorem Dev.status_ring (n : Nat) :
    (s.status n).ring = s.ring := rfl
@[simp] theorem Dev.status_libUsed (n : Nat) :
    (s.status n).libUsed = s.libUsed := rfl
@[simp] theorem Dev.status_batch (n : Nat) :
    (s.status n).batch = s.batch := rfl
@[simp] theorem Dev.status_lastDec (n : Nat) :
    (s.status n).lastDec = s.lastDec := rfl
@[simp] theorem Dev.status_capUsed (n : Nat) :
    (s.status n).capUsed = s.capUsed := rfl
@[simp] theorem Dev.status_validating (n : Nat) :
    (s.status n).validating = s.validating := rfl
@[simp] theorem Dev.status_herd (n : Nat) :
    (s.status n).herd = s.herd := rfl
@[simp] theorem Dev.status_zports (n : Nat) :
    (s.status n).zports = s.zports := rfl
@[simp] theorem Dev.status_mlk (n : Nat) :
    (s.status n).mlk = s.mlk := rfl
@[simp] theorem Dev.status_trace (n : Nat) :
    (s.status n).trace = s.trace := rfl
@[simp] theorem Dev.status_out (n : Nat) :
    (s.status n).out = s.out := rfl
@[simp] theorem Dev.status_rd (n : Nat) (f : Field) (i : Nat) :
    (s.status n).rd f i = s.rd f i := rfl
@[simp] theorem Dev.putBar_regs (a : Nat) (b : Byte) :
    (s.putBar a b).regs = s.regs := rfl
@[simp] theorem Dev.putBar_voteB (a : Nat) (b : Byte) :
    (s.putBar a b).voteB = s.voteB := rfl
@[simp] theorem Dev.putBar_voteC (a : Nat) (b : Byte) :
    (s.putBar a b).voteC = s.voteC := rfl
@[simp] theorem Dev.putBar_od (a : Nat) (b : Byte) :
    (s.putBar a b).od = s.od := rfl
@[simp] theorem Dev.putBar_nvm (a : Nat) (b : Byte) :
    (s.putBar a b).nvm = s.nvm := rfl
@[simp] theorem Dev.putBar_mem (a : Nat) (b : Byte) :
    (s.putBar a b).mem = s.mem := rfl
@[simp] theorem Dev.putBar_sync (a : Nat) (b : Byte) :
    (s.putBar a b).sync = s.sync := rfl
@[simp] theorem Dev.putBar_counters (a : Nat) (b : Byte) :
    (s.putBar a b).counters = s.counters := rfl
@[simp] theorem Dev.putBar_free (a : Nat) (b : Byte) :
    (s.putBar a b).free = s.free := rfl
@[simp] theorem Dev.putBar_power (a : Nat) (b : Byte) :
    (s.putBar a b).power = s.power := rfl
@[simp] theorem Dev.putBar_rst (a : Nat) (b : Byte) :
    (s.putBar a b).rst = s.rst := rfl
@[simp] theorem Dev.putBar_xclk (a : Nat) (b : Byte) :
    (s.putBar a b).xclk = s.xclk := rfl
@[simp] theorem Dev.putBar_tickAt (a : Nat) (b : Byte) :
    (s.putBar a b).tickAt = s.tickAt := rfl
@[simp] theorem Dev.putBar_slotAt (a : Nat) (b : Byte) :
    (s.putBar a b).slotAt = s.slotAt := rfl
@[simp] theorem Dev.putBar_timeU (a : Nat) (b : Byte) :
    (s.putBar a b).timeU = s.timeU := rfl
@[simp] theorem Dev.putBar_xclkOn (a : Nat) (b : Byte) :
    (s.putBar a b).xclkOn = s.xclkOn := rfl
@[simp] theorem Dev.putBar_tb (a : Nat) (b : Byte) :
    (s.putBar a b).tb = s.tb := rfl
@[simp] theorem Dev.putBar_ttos (a : Nat) (b : Byte) :
    (s.putBar a b).ttos = s.ttos := rfl
@[simp] theorem Dev.putBar_encs (a : Nat) (b : Byte) :
    (s.putBar a b).encs = s.encs := rfl
@[simp] theorem Dev.putBar_gens (a : Nat) (b : Byte) :
    (s.putBar a b).gens = s.gens := rfl
@[simp] theorem Dev.putBar_trgs (a : Nat) (b : Byte) :
    (s.putBar a b).trgs = s.trgs := rfl
@[simp] theorem Dev.putBar_est (a : Nat) (b : Byte) :
    (s.putBar a b).est = s.est := rfl
@[simp] theorem Dev.putBar_lmOffset (a : Nat) (b : Byte) :
    (s.putBar a b).lmOffset = s.lmOffset := rfl
@[simp] theorem Dev.putBar_peak (a : Nat) (b : Byte) :
    (s.putBar a b).peak = s.peak := rfl
@[simp] theorem Dev.putBar_marks (a : Nat) (b : Byte) :
    (s.putBar a b).marks = s.marks := rfl
@[simp] theorem Dev.putBar_lanes (a : Nat) (b : Byte) :
    (s.putBar a b).lanes = s.lanes := rfl
@[simp] theorem Dev.putBar_parts (a : Nat) (b : Byte) :
    (s.putBar a b).parts = s.parts := rfl
@[simp] theorem Dev.putBar_nextId (a : Nat) (b : Byte) :
    (s.putBar a b).nextId = s.nextId := rfl
@[simp] theorem Dev.putBar_lostIds (a : Nat) (b : Byte) :
    (s.putBar a b).lostIds = s.lostIds := rfl
@[simp] theorem Dev.putBar_slots (a : Nat) (b : Byte) :
    (s.putBar a b).slots = s.slots := rfl
@[simp] theorem Dev.putBar_slotNow (a : Nat) (b : Byte) :
    (s.putBar a b).slotNow = s.slotNow := rfl
@[simp] theorem Dev.putBar_slotFrom (a : Nat) (b : Byte) :
    (s.putBar a b).slotFrom = s.slotFrom := rfl
@[simp] theorem Dev.putBar_slotPast (a : Nat) (b : Byte) :
    (s.putBar a b).slotPast = s.slotPast := rfl
@[simp] theorem Dev.putBar_slotNext (a : Nat) (b : Byte) :
    (s.putBar a b).slotNext = s.slotNext := rfl
@[simp] theorem Dev.putBar_fires (a : Nat) (b : Byte) :
    (s.putBar a b).fires = s.fires := rfl
@[simp] theorem Dev.putBar_nextRun (a : Nat) (b : Byte) :
    (s.putBar a b).nextRun = s.nextRun := rfl
@[simp] theorem Dev.putBar_barrier (a : Nat) (b : Byte) :
    (s.putBar a b).barrier = s.barrier := rfl
@[simp] theorem Dev.putBar_die (a : Nat) (b : Byte) :
    (s.putBar a b).die = s.die := rfl
@[simp] theorem Dev.putBar_links (a : Nat) (b : Byte) :
    (s.putBar a b).links = s.links := rfl
@[simp] theorem Dev.putBar_ctxs (a : Nat) (b : Byte) :
    (s.putBar a b).ctxs = s.ctxs := rfl
@[simp] theorem Dev.putBar_pipes (a : Nat) (b : Byte) :
    (s.putBar a b).pipes = s.pipes := rfl
@[simp] theorem Dev.putBar_pipesOn (a : Nat) (b : Byte) :
    (s.putBar a b).pipesOn = s.pipesOn := rfl
@[simp] theorem Dev.putBar_lineSeq (a : Nat) (b : Byte) :
    (s.putBar a b).lineSeq = s.lineSeq := rfl
@[simp] theorem Dev.putBar_fusions (a : Nat) (b : Byte) :
    (s.putBar a b).fusions = s.fusions := rfl
@[simp] theorem Dev.putBar_churns (a : Nat) (b : Byte) :
    (s.putBar a b).churns = s.churns := rfl
@[simp] theorem Dev.putBar_jobs (a : Nat) (b : Byte) :
    (s.putBar a b).jobs = s.jobs := rfl
@[simp] theorem Dev.putBar_jobSeq (a : Nat) (b : Byte) :
    (s.putBar a b).jobSeq = s.jobSeq := rfl
@[simp] theorem Dev.putBar_lastQueue (a : Nat) (b : Byte) :
    (s.putBar a b).lastQueue = s.lastQueue := rfl
@[simp] theorem Dev.putBar_lastTeach (a : Nat) (b : Byte) :
    (s.putBar a b).lastTeach = s.lastTeach := rfl
@[simp] theorem Dev.putBar_saves (a : Nat) (b : Byte) :
    (s.putBar a b).saves = s.saves := rfl
@[simp] theorem Dev.putBar_saveSeq (a : Nat) (b : Byte) :
    (s.putBar a b).saveSeq = s.saveSeq := rfl
@[simp] theorem Dev.putBar_fixing (a : Nat) (b : Byte) :
    (s.putBar a b).fixing = s.fixing := rfl
@[simp] theorem Dev.putBar_runHit (a : Nat) (b : Byte) :
    (s.putBar a b).runHit = s.runHit := rfl
@[simp] theorem Dev.putBar_faultq (a : Nat) (b : Byte) :
    (s.putBar a b).faultq = s.faultq := rfl
@[simp] theorem Dev.putBar_posted (a : Nat) (b : Byte) :
    (s.putBar a b).posted = s.posted := rfl
@[simp] theorem Dev.putBar_tlb (a : Nat) (b : Byte) :
    (s.putBar a b).tlb = s.tlb := rfl
@[simp] theorem Dev.putBar_invals (a : Nat) (b : Byte) :
    (s.putBar a b).invals = s.invals := rfl
@[simp] theorem Dev.putBar_scrubLine (a : Nat) (b : Byte) :
    (s.putBar a b).scrubLine = s.scrubLine := rfl
@[simp] theorem Dev.putBar_pcieUp (a : Nat) (b : Byte) :
    (s.putBar a b).pcieUp = s.pcieUp := rfl
@[simp] theorem Dev.putBar_rules (a : Nat) (b : Byte) :
    (s.putBar a b).rules = s.rules := rfl
@[simp] theorem Dev.putBar_ring (a : Nat) (b : Byte) :
    (s.putBar a b).ring = s.ring := rfl
@[simp] theorem Dev.putBar_libUsed (a : Nat) (b : Byte) :
    (s.putBar a b).libUsed = s.libUsed := rfl
@[simp] theorem Dev.putBar_batch (a : Nat) (b : Byte) :
    (s.putBar a b).batch = s.batch := rfl
@[simp] theorem Dev.putBar_lastDec (a : Nat) (b : Byte) :
    (s.putBar a b).lastDec = s.lastDec := rfl
@[simp] theorem Dev.putBar_capUsed (a : Nat) (b : Byte) :
    (s.putBar a b).capUsed = s.capUsed := rfl
@[simp] theorem Dev.putBar_validating (a : Nat) (b : Byte) :
    (s.putBar a b).validating = s.validating := rfl
@[simp] theorem Dev.putBar_herd (a : Nat) (b : Byte) :
    (s.putBar a b).herd = s.herd := rfl
@[simp] theorem Dev.putBar_zports (a : Nat) (b : Byte) :
    (s.putBar a b).zports = s.zports := rfl
@[simp] theorem Dev.putBar_svc (a : Nat) (b : Byte) :
    (s.putBar a b).svc = s.svc := rfl
@[simp] theorem Dev.putBar_mlk (a : Nat) (b : Byte) :
    (s.putBar a b).mlk = s.mlk := rfl
@[simp] theorem Dev.putBar_trace (a : Nat) (b : Byte) :
    (s.putBar a b).trace = s.trace := rfl
@[simp] theorem Dev.putBar_out (a : Nat) (b : Byte) :
    (s.putBar a b).out = s.out := rfl
@[simp] theorem Dev.putBar_rd (a : Nat) (b : Byte) (f : Field) (i : Nat) :
    (s.putBar a b).rd f i = s.rd f i := rfl
@[simp] theorem Dev.zeroBytes_regs (a len : Nat) :
    (s.zeroBytes a len).regs = s.regs := rfl
@[simp] theorem Dev.zeroBytes_voteB (a len : Nat) :
    (s.zeroBytes a len).voteB = s.voteB := rfl
@[simp] theorem Dev.zeroBytes_voteC (a len : Nat) :
    (s.zeroBytes a len).voteC = s.voteC := rfl
@[simp] theorem Dev.zeroBytes_od (a len : Nat) :
    (s.zeroBytes a len).od = s.od := rfl
@[simp] theorem Dev.zeroBytes_nvm (a len : Nat) :
    (s.zeroBytes a len).nvm = s.nvm := rfl
@[simp] theorem Dev.zeroBytes_bar (a len : Nat) :
    (s.zeroBytes a len).bar = s.bar := rfl
@[simp] theorem Dev.zeroBytes_sync (a len : Nat) :
    (s.zeroBytes a len).sync = s.sync := rfl
@[simp] theorem Dev.zeroBytes_counters (a len : Nat) :
    (s.zeroBytes a len).counters = s.counters := rfl
@[simp] theorem Dev.zeroBytes_free (a len : Nat) :
    (s.zeroBytes a len).free = s.free := rfl
@[simp] theorem Dev.zeroBytes_power (a len : Nat) :
    (s.zeroBytes a len).power = s.power := rfl
@[simp] theorem Dev.zeroBytes_rst (a len : Nat) :
    (s.zeroBytes a len).rst = s.rst := rfl
@[simp] theorem Dev.zeroBytes_xclk (a len : Nat) :
    (s.zeroBytes a len).xclk = s.xclk := rfl
@[simp] theorem Dev.zeroBytes_tickAt (a len : Nat) :
    (s.zeroBytes a len).tickAt = s.tickAt := rfl
@[simp] theorem Dev.zeroBytes_slotAt (a len : Nat) :
    (s.zeroBytes a len).slotAt = s.slotAt := rfl
@[simp] theorem Dev.zeroBytes_timeU (a len : Nat) :
    (s.zeroBytes a len).timeU = s.timeU := rfl
@[simp] theorem Dev.zeroBytes_xclkOn (a len : Nat) :
    (s.zeroBytes a len).xclkOn = s.xclkOn := rfl
@[simp] theorem Dev.zeroBytes_tb (a len : Nat) :
    (s.zeroBytes a len).tb = s.tb := rfl
@[simp] theorem Dev.zeroBytes_ttos (a len : Nat) :
    (s.zeroBytes a len).ttos = s.ttos := rfl
@[simp] theorem Dev.zeroBytes_encs (a len : Nat) :
    (s.zeroBytes a len).encs = s.encs := rfl
@[simp] theorem Dev.zeroBytes_gens (a len : Nat) :
    (s.zeroBytes a len).gens = s.gens := rfl
@[simp] theorem Dev.zeroBytes_trgs (a len : Nat) :
    (s.zeroBytes a len).trgs = s.trgs := rfl
@[simp] theorem Dev.zeroBytes_est (a len : Nat) :
    (s.zeroBytes a len).est = s.est := rfl
@[simp] theorem Dev.zeroBytes_lmOffset (a len : Nat) :
    (s.zeroBytes a len).lmOffset = s.lmOffset := rfl
@[simp] theorem Dev.zeroBytes_peak (a len : Nat) :
    (s.zeroBytes a len).peak = s.peak := rfl
@[simp] theorem Dev.zeroBytes_marks (a len : Nat) :
    (s.zeroBytes a len).marks = s.marks := rfl
@[simp] theorem Dev.zeroBytes_lanes (a len : Nat) :
    (s.zeroBytes a len).lanes = s.lanes := rfl
@[simp] theorem Dev.zeroBytes_parts (a len : Nat) :
    (s.zeroBytes a len).parts = s.parts := rfl
@[simp] theorem Dev.zeroBytes_nextId (a len : Nat) :
    (s.zeroBytes a len).nextId = s.nextId := rfl
@[simp] theorem Dev.zeroBytes_lostIds (a len : Nat) :
    (s.zeroBytes a len).lostIds = s.lostIds := rfl
@[simp] theorem Dev.zeroBytes_slots (a len : Nat) :
    (s.zeroBytes a len).slots = s.slots := rfl
@[simp] theorem Dev.zeroBytes_slotNow (a len : Nat) :
    (s.zeroBytes a len).slotNow = s.slotNow := rfl
@[simp] theorem Dev.zeroBytes_slotFrom (a len : Nat) :
    (s.zeroBytes a len).slotFrom = s.slotFrom := rfl
@[simp] theorem Dev.zeroBytes_slotPast (a len : Nat) :
    (s.zeroBytes a len).slotPast = s.slotPast := rfl
@[simp] theorem Dev.zeroBytes_slotNext (a len : Nat) :
    (s.zeroBytes a len).slotNext = s.slotNext := rfl
@[simp] theorem Dev.zeroBytes_fires (a len : Nat) :
    (s.zeroBytes a len).fires = s.fires := rfl
@[simp] theorem Dev.zeroBytes_nextRun (a len : Nat) :
    (s.zeroBytes a len).nextRun = s.nextRun := rfl
@[simp] theorem Dev.zeroBytes_barrier (a len : Nat) :
    (s.zeroBytes a len).barrier = s.barrier := rfl
@[simp] theorem Dev.zeroBytes_die (a len : Nat) :
    (s.zeroBytes a len).die = s.die := rfl
@[simp] theorem Dev.zeroBytes_links (a len : Nat) :
    (s.zeroBytes a len).links = s.links := rfl
@[simp] theorem Dev.zeroBytes_ctxs (a len : Nat) :
    (s.zeroBytes a len).ctxs = s.ctxs := rfl
@[simp] theorem Dev.zeroBytes_pipes (a len : Nat) :
    (s.zeroBytes a len).pipes = s.pipes := rfl
@[simp] theorem Dev.zeroBytes_pipesOn (a len : Nat) :
    (s.zeroBytes a len).pipesOn = s.pipesOn := rfl
@[simp] theorem Dev.zeroBytes_lineSeq (a len : Nat) :
    (s.zeroBytes a len).lineSeq = s.lineSeq := rfl
@[simp] theorem Dev.zeroBytes_fusions (a len : Nat) :
    (s.zeroBytes a len).fusions = s.fusions := rfl
@[simp] theorem Dev.zeroBytes_churns (a len : Nat) :
    (s.zeroBytes a len).churns = s.churns := rfl
@[simp] theorem Dev.zeroBytes_jobs (a len : Nat) :
    (s.zeroBytes a len).jobs = s.jobs := rfl
@[simp] theorem Dev.zeroBytes_jobSeq (a len : Nat) :
    (s.zeroBytes a len).jobSeq = s.jobSeq := rfl
@[simp] theorem Dev.zeroBytes_lastQueue (a len : Nat) :
    (s.zeroBytes a len).lastQueue = s.lastQueue := rfl
@[simp] theorem Dev.zeroBytes_lastTeach (a len : Nat) :
    (s.zeroBytes a len).lastTeach = s.lastTeach := rfl
@[simp] theorem Dev.zeroBytes_saves (a len : Nat) :
    (s.zeroBytes a len).saves = s.saves := rfl
@[simp] theorem Dev.zeroBytes_saveSeq (a len : Nat) :
    (s.zeroBytes a len).saveSeq = s.saveSeq := rfl
@[simp] theorem Dev.zeroBytes_fixing (a len : Nat) :
    (s.zeroBytes a len).fixing = s.fixing := rfl
@[simp] theorem Dev.zeroBytes_runHit (a len : Nat) :
    (s.zeroBytes a len).runHit = s.runHit := rfl
@[simp] theorem Dev.zeroBytes_faultq (a len : Nat) :
    (s.zeroBytes a len).faultq = s.faultq := rfl
@[simp] theorem Dev.zeroBytes_posted (a len : Nat) :
    (s.zeroBytes a len).posted = s.posted := rfl
@[simp] theorem Dev.zeroBytes_tlb (a len : Nat) :
    (s.zeroBytes a len).tlb = s.tlb := rfl
@[simp] theorem Dev.zeroBytes_invals (a len : Nat) :
    (s.zeroBytes a len).invals = s.invals := rfl
@[simp] theorem Dev.zeroBytes_scrubLine (a len : Nat) :
    (s.zeroBytes a len).scrubLine = s.scrubLine := rfl
@[simp] theorem Dev.zeroBytes_pcieUp (a len : Nat) :
    (s.zeroBytes a len).pcieUp = s.pcieUp := rfl
@[simp] theorem Dev.zeroBytes_rules (a len : Nat) :
    (s.zeroBytes a len).rules = s.rules := rfl
@[simp] theorem Dev.zeroBytes_ring (a len : Nat) :
    (s.zeroBytes a len).ring = s.ring := rfl
@[simp] theorem Dev.zeroBytes_libUsed (a len : Nat) :
    (s.zeroBytes a len).libUsed = s.libUsed := rfl
@[simp] theorem Dev.zeroBytes_batch (a len : Nat) :
    (s.zeroBytes a len).batch = s.batch := rfl
@[simp] theorem Dev.zeroBytes_lastDec (a len : Nat) :
    (s.zeroBytes a len).lastDec = s.lastDec := rfl
@[simp] theorem Dev.zeroBytes_capUsed (a len : Nat) :
    (s.zeroBytes a len).capUsed = s.capUsed := rfl
@[simp] theorem Dev.zeroBytes_validating (a len : Nat) :
    (s.zeroBytes a len).validating = s.validating := rfl
@[simp] theorem Dev.zeroBytes_herd (a len : Nat) :
    (s.zeroBytes a len).herd = s.herd := rfl
@[simp] theorem Dev.zeroBytes_zports (a len : Nat) :
    (s.zeroBytes a len).zports = s.zports := rfl
@[simp] theorem Dev.zeroBytes_svc (a len : Nat) :
    (s.zeroBytes a len).svc = s.svc := rfl
@[simp] theorem Dev.zeroBytes_mlk (a len : Nat) :
    (s.zeroBytes a len).mlk = s.mlk := rfl
@[simp] theorem Dev.zeroBytes_trace (a len : Nat) :
    (s.zeroBytes a len).trace = s.trace := rfl
@[simp] theorem Dev.zeroBytes_out (a len : Nat) :
    (s.zeroBytes a len).out = s.out := rfl
@[simp] theorem Dev.zeroBytes_rd (a len : Nat) (f : Field) (i : Nat) :
    (s.zeroBytes a len).rd f i = s.rd f i := rfl
@[simp] theorem Dev.updPart_regs (id : Nat) (upd : Part → Part) :
    (s.updPart id upd).regs = s.regs := rfl
@[simp] theorem Dev.updPart_voteB (id : Nat) (upd : Part → Part) :
    (s.updPart id upd).voteB = s.voteB := rfl
@[simp] theorem Dev.updPart_voteC (id : Nat) (upd : Part → Part) :
    (s.updPart id upd).voteC = s.voteC := rfl
@[simp] theorem Dev.updPart_od (id : Nat) (upd : Part → Part) :
    (s.updPart id upd).od = s.od := rfl
@[simp] theorem Dev.updPart_nvm (id : Nat) (upd : Part → Part) :
    (s.updPart id upd).nvm = s.nvm := rfl
@[simp] theorem Dev.updPart_mem (id : Nat) (upd : Part → Part) :
    (s.updPart id upd).mem = s.mem := rfl
@[simp] theorem Dev.updPart_bar (id : Nat) (upd : Part → Part) :
    (s.updPart id upd).bar = s.bar := rfl
@[simp] theorem Dev.updPart_sync (id : Nat) (upd : Part → Part) :
    (s.updPart id upd).sync = s.sync := rfl
@[simp] theorem Dev.updPart_counters (id : Nat) (upd : Part → Part) :
    (s.updPart id upd).counters = s.counters := rfl
@[simp] theorem Dev.updPart_free (id : Nat) (upd : Part → Part) :
    (s.updPart id upd).free = s.free := rfl
@[simp] theorem Dev.updPart_power (id : Nat) (upd : Part → Part) :
    (s.updPart id upd).power = s.power := rfl
@[simp] theorem Dev.updPart_rst (id : Nat) (upd : Part → Part) :
    (s.updPart id upd).rst = s.rst := rfl
@[simp] theorem Dev.updPart_xclk (id : Nat) (upd : Part → Part) :
    (s.updPart id upd).xclk = s.xclk := rfl
@[simp] theorem Dev.updPart_tickAt (id : Nat) (upd : Part → Part) :
    (s.updPart id upd).tickAt = s.tickAt := rfl
@[simp] theorem Dev.updPart_slotAt (id : Nat) (upd : Part → Part) :
    (s.updPart id upd).slotAt = s.slotAt := rfl
@[simp] theorem Dev.updPart_timeU (id : Nat) (upd : Part → Part) :
    (s.updPart id upd).timeU = s.timeU := rfl
@[simp] theorem Dev.updPart_xclkOn (id : Nat) (upd : Part → Part) :
    (s.updPart id upd).xclkOn = s.xclkOn := rfl
@[simp] theorem Dev.updPart_tb (id : Nat) (upd : Part → Part) :
    (s.updPart id upd).tb = s.tb := rfl
@[simp] theorem Dev.updPart_ttos (id : Nat) (upd : Part → Part) :
    (s.updPart id upd).ttos = s.ttos := rfl
@[simp] theorem Dev.updPart_encs (id : Nat) (upd : Part → Part) :
    (s.updPart id upd).encs = s.encs := rfl
@[simp] theorem Dev.updPart_gens (id : Nat) (upd : Part → Part) :
    (s.updPart id upd).gens = s.gens := rfl
@[simp] theorem Dev.updPart_trgs (id : Nat) (upd : Part → Part) :
    (s.updPart id upd).trgs = s.trgs := rfl
@[simp] theorem Dev.updPart_est (id : Nat) (upd : Part → Part) :
    (s.updPart id upd).est = s.est := rfl
@[simp] theorem Dev.updPart_lmOffset (id : Nat) (upd : Part → Part) :
    (s.updPart id upd).lmOffset = s.lmOffset := rfl
@[simp] theorem Dev.updPart_peak (id : Nat) (upd : Part → Part) :
    (s.updPart id upd).peak = s.peak := rfl
@[simp] theorem Dev.updPart_marks (id : Nat) (upd : Part → Part) :
    (s.updPart id upd).marks = s.marks := rfl
@[simp] theorem Dev.updPart_lanes (id : Nat) (upd : Part → Part) :
    (s.updPart id upd).lanes = s.lanes := rfl
@[simp] theorem Dev.updPart_nextId (id : Nat) (upd : Part → Part) :
    (s.updPart id upd).nextId = s.nextId := rfl
@[simp] theorem Dev.updPart_lostIds (id : Nat) (upd : Part → Part) :
    (s.updPart id upd).lostIds = s.lostIds := rfl
@[simp] theorem Dev.updPart_slots (id : Nat) (upd : Part → Part) :
    (s.updPart id upd).slots = s.slots := rfl
@[simp] theorem Dev.updPart_slotNow (id : Nat) (upd : Part → Part) :
    (s.updPart id upd).slotNow = s.slotNow := rfl
@[simp] theorem Dev.updPart_slotFrom (id : Nat) (upd : Part → Part) :
    (s.updPart id upd).slotFrom = s.slotFrom := rfl
@[simp] theorem Dev.updPart_slotPast (id : Nat) (upd : Part → Part) :
    (s.updPart id upd).slotPast = s.slotPast := rfl
@[simp] theorem Dev.updPart_slotNext (id : Nat) (upd : Part → Part) :
    (s.updPart id upd).slotNext = s.slotNext := rfl
@[simp] theorem Dev.updPart_fires (id : Nat) (upd : Part → Part) :
    (s.updPart id upd).fires = s.fires := rfl
@[simp] theorem Dev.updPart_nextRun (id : Nat) (upd : Part → Part) :
    (s.updPart id upd).nextRun = s.nextRun := rfl
@[simp] theorem Dev.updPart_barrier (id : Nat) (upd : Part → Part) :
    (s.updPart id upd).barrier = s.barrier := rfl
@[simp] theorem Dev.updPart_die (id : Nat) (upd : Part → Part) :
    (s.updPart id upd).die = s.die := rfl
@[simp] theorem Dev.updPart_links (id : Nat) (upd : Part → Part) :
    (s.updPart id upd).links = s.links := rfl
@[simp] theorem Dev.updPart_ctxs (id : Nat) (upd : Part → Part) :
    (s.updPart id upd).ctxs = s.ctxs := rfl
@[simp] theorem Dev.updPart_pipes (id : Nat) (upd : Part → Part) :
    (s.updPart id upd).pipes = s.pipes := rfl
@[simp] theorem Dev.updPart_pipesOn (id : Nat) (upd : Part → Part) :
    (s.updPart id upd).pipesOn = s.pipesOn := rfl
@[simp] theorem Dev.updPart_lineSeq (id : Nat) (upd : Part → Part) :
    (s.updPart id upd).lineSeq = s.lineSeq := rfl
@[simp] theorem Dev.updPart_fusions (id : Nat) (upd : Part → Part) :
    (s.updPart id upd).fusions = s.fusions := rfl
@[simp] theorem Dev.updPart_churns (id : Nat) (upd : Part → Part) :
    (s.updPart id upd).churns = s.churns := rfl
@[simp] theorem Dev.updPart_jobs (id : Nat) (upd : Part → Part) :
    (s.updPart id upd).jobs = s.jobs := rfl
@[simp] theorem Dev.updPart_jobSeq (id : Nat) (upd : Part → Part) :
    (s.updPart id upd).jobSeq = s.jobSeq := rfl
@[simp] theorem Dev.updPart_lastQueue (id : Nat) (upd : Part → Part) :
    (s.updPart id upd).lastQueue = s.lastQueue := rfl
@[simp] theorem Dev.updPart_lastTeach (id : Nat) (upd : Part → Part) :
    (s.updPart id upd).lastTeach = s.lastTeach := rfl
@[simp] theorem Dev.updPart_saves (id : Nat) (upd : Part → Part) :
    (s.updPart id upd).saves = s.saves := rfl
@[simp] theorem Dev.updPart_saveSeq (id : Nat) (upd : Part → Part) :
    (s.updPart id upd).saveSeq = s.saveSeq := rfl
@[simp] theorem Dev.updPart_fixing (id : Nat) (upd : Part → Part) :
    (s.updPart id upd).fixing = s.fixing := rfl
@[simp] theorem Dev.updPart_runHit (id : Nat) (upd : Part → Part) :
    (s.updPart id upd).runHit = s.runHit := rfl
@[simp] theorem Dev.updPart_faultq (id : Nat) (upd : Part → Part) :
    (s.updPart id upd).faultq = s.faultq := rfl
@[simp] theorem Dev.updPart_posted (id : Nat) (upd : Part → Part) :
    (s.updPart id upd).posted = s.posted := rfl
@[simp] theorem Dev.updPart_tlb (id : Nat) (upd : Part → Part) :
    (s.updPart id upd).tlb = s.tlb := rfl
@[simp] theorem Dev.updPart_invals (id : Nat) (upd : Part → Part) :
    (s.updPart id upd).invals = s.invals := rfl
@[simp] theorem Dev.updPart_scrubLine (id : Nat) (upd : Part → Part) :
    (s.updPart id upd).scrubLine = s.scrubLine := rfl
@[simp] theorem Dev.updPart_pcieUp (id : Nat) (upd : Part → Part) :
    (s.updPart id upd).pcieUp = s.pcieUp := rfl
@[simp] theorem Dev.updPart_rules (id : Nat) (upd : Part → Part) :
    (s.updPart id upd).rules = s.rules := rfl
@[simp] theorem Dev.updPart_ring (id : Nat) (upd : Part → Part) :
    (s.updPart id upd).ring = s.ring := rfl
@[simp] theorem Dev.updPart_libUsed (id : Nat) (upd : Part → Part) :
    (s.updPart id upd).libUsed = s.libUsed := rfl
@[simp] theorem Dev.updPart_batch (id : Nat) (upd : Part → Part) :
    (s.updPart id upd).batch = s.batch := rfl
@[simp] theorem Dev.updPart_lastDec (id : Nat) (upd : Part → Part) :
    (s.updPart id upd).lastDec = s.lastDec := rfl
@[simp] theorem Dev.updPart_capUsed (id : Nat) (upd : Part → Part) :
    (s.updPart id upd).capUsed = s.capUsed := rfl
@[simp] theorem Dev.updPart_validating (id : Nat) (upd : Part → Part) :
    (s.updPart id upd).validating = s.validating := rfl
@[simp] theorem Dev.updPart_herd (id : Nat) (upd : Part → Part) :
    (s.updPart id upd).herd = s.herd := rfl
@[simp] theorem Dev.updPart_zports (id : Nat) (upd : Part → Part) :
    (s.updPart id upd).zports = s.zports := rfl
@[simp] theorem Dev.updPart_svc (id : Nat) (upd : Part → Part) :
    (s.updPart id upd).svc = s.svc := rfl
@[simp] theorem Dev.updPart_mlk (id : Nat) (upd : Part → Part) :
    (s.updPart id upd).mlk = s.mlk := rfl
@[simp] theorem Dev.updPart_trace (id : Nat) (upd : Part → Part) :
    (s.updPart id upd).trace = s.trace := rfl
@[simp] theorem Dev.updPart_out (id : Nat) (upd : Part → Part) :
    (s.updPart id upd).out = s.out := rfl
@[simp] theorem Dev.updPart_rd (id : Nat) (upd : Part → Part) (f : Field) (i : Nat) :
    (s.updPart id upd).rd f i = s.rd f i := rfl
@[simp] theorem Dev.applyMark_regs (lanes a : Nat) (b : Option Nat) (code : Nat) :
    (s.applyMark lanes a b code).regs = s.regs := rfl
@[simp] theorem Dev.applyMark_voteB (lanes a : Nat) (b : Option Nat) (code : Nat) :
    (s.applyMark lanes a b code).voteB = s.voteB := rfl
@[simp] theorem Dev.applyMark_voteC (lanes a : Nat) (b : Option Nat) (code : Nat) :
    (s.applyMark lanes a b code).voteC = s.voteC := rfl
@[simp] theorem Dev.applyMark_od (lanes a : Nat) (b : Option Nat) (code : Nat) :
    (s.applyMark lanes a b code).od = s.od := rfl
@[simp] theorem Dev.applyMark_nvm (lanes a : Nat) (b : Option Nat) (code : Nat) :
    (s.applyMark lanes a b code).nvm = s.nvm := rfl
@[simp] theorem Dev.applyMark_mem (lanes a : Nat) (b : Option Nat) (code : Nat) :
    (s.applyMark lanes a b code).mem = s.mem := rfl
@[simp] theorem Dev.applyMark_bar (lanes a : Nat) (b : Option Nat) (code : Nat) :
    (s.applyMark lanes a b code).bar = s.bar := rfl
@[simp] theorem Dev.applyMark_sync (lanes a : Nat) (b : Option Nat) (code : Nat) :
    (s.applyMark lanes a b code).sync = s.sync := rfl
@[simp] theorem Dev.applyMark_counters (lanes a : Nat) (b : Option Nat) (code : Nat) :
    (s.applyMark lanes a b code).counters = s.counters := rfl
@[simp] theorem Dev.applyMark_free (lanes a : Nat) (b : Option Nat) (code : Nat) :
    (s.applyMark lanes a b code).free = s.free := rfl
@[simp] theorem Dev.applyMark_power (lanes a : Nat) (b : Option Nat) (code : Nat) :
    (s.applyMark lanes a b code).power = s.power := rfl
@[simp] theorem Dev.applyMark_rst (lanes a : Nat) (b : Option Nat) (code : Nat) :
    (s.applyMark lanes a b code).rst = s.rst := rfl
@[simp] theorem Dev.applyMark_xclk (lanes a : Nat) (b : Option Nat) (code : Nat) :
    (s.applyMark lanes a b code).xclk = s.xclk := rfl
@[simp] theorem Dev.applyMark_tickAt (lanes a : Nat) (b : Option Nat) (code : Nat) :
    (s.applyMark lanes a b code).tickAt = s.tickAt := rfl
@[simp] theorem Dev.applyMark_slotAt (lanes a : Nat) (b : Option Nat) (code : Nat) :
    (s.applyMark lanes a b code).slotAt = s.slotAt := rfl
@[simp] theorem Dev.applyMark_timeU (lanes a : Nat) (b : Option Nat) (code : Nat) :
    (s.applyMark lanes a b code).timeU = s.timeU := rfl
@[simp] theorem Dev.applyMark_xclkOn (lanes a : Nat) (b : Option Nat) (code : Nat) :
    (s.applyMark lanes a b code).xclkOn = s.xclkOn := rfl
@[simp] theorem Dev.applyMark_tb (lanes a : Nat) (b : Option Nat) (code : Nat) :
    (s.applyMark lanes a b code).tb = s.tb := rfl
@[simp] theorem Dev.applyMark_ttos (lanes a : Nat) (b : Option Nat) (code : Nat) :
    (s.applyMark lanes a b code).ttos = s.ttos := rfl
@[simp] theorem Dev.applyMark_encs (lanes a : Nat) (b : Option Nat) (code : Nat) :
    (s.applyMark lanes a b code).encs = s.encs := rfl
@[simp] theorem Dev.applyMark_gens (lanes a : Nat) (b : Option Nat) (code : Nat) :
    (s.applyMark lanes a b code).gens = s.gens := rfl
@[simp] theorem Dev.applyMark_trgs (lanes a : Nat) (b : Option Nat) (code : Nat) :
    (s.applyMark lanes a b code).trgs = s.trgs := rfl
@[simp] theorem Dev.applyMark_est (lanes a : Nat) (b : Option Nat) (code : Nat) :
    (s.applyMark lanes a b code).est = s.est := rfl
@[simp] theorem Dev.applyMark_lmOffset (lanes a : Nat) (b : Option Nat) (code : Nat) :
    (s.applyMark lanes a b code).lmOffset = s.lmOffset := rfl
@[simp] theorem Dev.applyMark_peak (lanes a : Nat) (b : Option Nat) (code : Nat) :
    (s.applyMark lanes a b code).peak = s.peak := rfl
@[simp] theorem Dev.applyMark_marks (lanes a : Nat) (b : Option Nat) (code : Nat) :
    (s.applyMark lanes a b code).marks = s.marks := rfl
@[simp] theorem Dev.applyMark_lanes (lanes a : Nat) (b : Option Nat) (code : Nat) :
    (s.applyMark lanes a b code).lanes = s.lanes := rfl
@[simp] theorem Dev.applyMark_nextId (lanes a : Nat) (b : Option Nat) (code : Nat) :
    (s.applyMark lanes a b code).nextId = s.nextId := rfl
@[simp] theorem Dev.applyMark_lostIds (lanes a : Nat) (b : Option Nat) (code : Nat) :
    (s.applyMark lanes a b code).lostIds = s.lostIds := rfl
@[simp] theorem Dev.applyMark_slots (lanes a : Nat) (b : Option Nat) (code : Nat) :
    (s.applyMark lanes a b code).slots = s.slots := rfl
@[simp] theorem Dev.applyMark_slotNow (lanes a : Nat) (b : Option Nat) (code : Nat) :
    (s.applyMark lanes a b code).slotNow = s.slotNow := rfl
@[simp] theorem Dev.applyMark_slotFrom (lanes a : Nat) (b : Option Nat) (code : Nat) :
    (s.applyMark lanes a b code).slotFrom = s.slotFrom := rfl
@[simp] theorem Dev.applyMark_slotPast (lanes a : Nat) (b : Option Nat) (code : Nat) :
    (s.applyMark lanes a b code).slotPast = s.slotPast := rfl
@[simp] theorem Dev.applyMark_slotNext (lanes a : Nat) (b : Option Nat) (code : Nat) :
    (s.applyMark lanes a b code).slotNext = s.slotNext := rfl
@[simp] theorem Dev.applyMark_fires (lanes a : Nat) (b : Option Nat) (code : Nat) :
    (s.applyMark lanes a b code).fires = s.fires := rfl
@[simp] theorem Dev.applyMark_nextRun (lanes a : Nat) (b : Option Nat) (code : Nat) :
    (s.applyMark lanes a b code).nextRun = s.nextRun := rfl
@[simp] theorem Dev.applyMark_barrier (lanes a : Nat) (b : Option Nat) (code : Nat) :
    (s.applyMark lanes a b code).barrier = s.barrier := rfl
@[simp] theorem Dev.applyMark_die (lanes a : Nat) (b : Option Nat) (code : Nat) :
    (s.applyMark lanes a b code).die = s.die := rfl
@[simp] theorem Dev.applyMark_links (lanes a : Nat) (b : Option Nat) (code : Nat) :
    (s.applyMark lanes a b code).links = s.links := rfl
@[simp] theorem Dev.applyMark_ctxs (lanes a : Nat) (b : Option Nat) (code : Nat) :
    (s.applyMark lanes a b code).ctxs = s.ctxs := rfl
@[simp] theorem Dev.applyMark_pipes (lanes a : Nat) (b : Option Nat) (code : Nat) :
    (s.applyMark lanes a b code).pipes = s.pipes := rfl
@[simp] theorem Dev.applyMark_pipesOn (lanes a : Nat) (b : Option Nat) (code : Nat) :
    (s.applyMark lanes a b code).pipesOn = s.pipesOn := rfl
@[simp] theorem Dev.applyMark_lineSeq (lanes a : Nat) (b : Option Nat) (code : Nat) :
    (s.applyMark lanes a b code).lineSeq = s.lineSeq := rfl
@[simp] theorem Dev.applyMark_fusions (lanes a : Nat) (b : Option Nat) (code : Nat) :
    (s.applyMark lanes a b code).fusions = s.fusions := rfl
@[simp] theorem Dev.applyMark_churns (lanes a : Nat) (b : Option Nat) (code : Nat) :
    (s.applyMark lanes a b code).churns = s.churns := rfl
@[simp] theorem Dev.applyMark_jobs (lanes a : Nat) (b : Option Nat) (code : Nat) :
    (s.applyMark lanes a b code).jobs = s.jobs := rfl
@[simp] theorem Dev.applyMark_jobSeq (lanes a : Nat) (b : Option Nat) (code : Nat) :
    (s.applyMark lanes a b code).jobSeq = s.jobSeq := rfl
@[simp] theorem Dev.applyMark_lastQueue (lanes a : Nat) (b : Option Nat) (code : Nat) :
    (s.applyMark lanes a b code).lastQueue = s.lastQueue := rfl
@[simp] theorem Dev.applyMark_lastTeach (lanes a : Nat) (b : Option Nat) (code : Nat) :
    (s.applyMark lanes a b code).lastTeach = s.lastTeach := rfl
@[simp] theorem Dev.applyMark_saves (lanes a : Nat) (b : Option Nat) (code : Nat) :
    (s.applyMark lanes a b code).saves = s.saves := rfl
@[simp] theorem Dev.applyMark_saveSeq (lanes a : Nat) (b : Option Nat) (code : Nat) :
    (s.applyMark lanes a b code).saveSeq = s.saveSeq := rfl
@[simp] theorem Dev.applyMark_fixing (lanes a : Nat) (b : Option Nat) (code : Nat) :
    (s.applyMark lanes a b code).fixing = s.fixing := rfl
@[simp] theorem Dev.applyMark_runHit (lanes a : Nat) (b : Option Nat) (code : Nat) :
    (s.applyMark lanes a b code).runHit = s.runHit := rfl
@[simp] theorem Dev.applyMark_faultq (lanes a : Nat) (b : Option Nat) (code : Nat) :
    (s.applyMark lanes a b code).faultq = s.faultq := rfl
@[simp] theorem Dev.applyMark_posted (lanes a : Nat) (b : Option Nat) (code : Nat) :
    (s.applyMark lanes a b code).posted = s.posted := rfl
@[simp] theorem Dev.applyMark_tlb (lanes a : Nat) (b : Option Nat) (code : Nat) :
    (s.applyMark lanes a b code).tlb = s.tlb := rfl
@[simp] theorem Dev.applyMark_invals (lanes a : Nat) (b : Option Nat) (code : Nat) :
    (s.applyMark lanes a b code).invals = s.invals := rfl
@[simp] theorem Dev.applyMark_scrubLine (lanes a : Nat) (b : Option Nat) (code : Nat) :
    (s.applyMark lanes a b code).scrubLine = s.scrubLine := rfl
@[simp] theorem Dev.applyMark_pcieUp (lanes a : Nat) (b : Option Nat) (code : Nat) :
    (s.applyMark lanes a b code).pcieUp = s.pcieUp := rfl
@[simp] theorem Dev.applyMark_rules (lanes a : Nat) (b : Option Nat) (code : Nat) :
    (s.applyMark lanes a b code).rules = s.rules := rfl
@[simp] theorem Dev.applyMark_ring (lanes a : Nat) (b : Option Nat) (code : Nat) :
    (s.applyMark lanes a b code).ring = s.ring := rfl
@[simp] theorem Dev.applyMark_libUsed (lanes a : Nat) (b : Option Nat) (code : Nat) :
    (s.applyMark lanes a b code).libUsed = s.libUsed := rfl
@[simp] theorem Dev.applyMark_batch (lanes a : Nat) (b : Option Nat) (code : Nat) :
    (s.applyMark lanes a b code).batch = s.batch := rfl
@[simp] theorem Dev.applyMark_lastDec (lanes a : Nat) (b : Option Nat) (code : Nat) :
    (s.applyMark lanes a b code).lastDec = s.lastDec := rfl
@[simp] theorem Dev.applyMark_capUsed (lanes a : Nat) (b : Option Nat) (code : Nat) :
    (s.applyMark lanes a b code).capUsed = s.capUsed := rfl
@[simp] theorem Dev.applyMark_validating (lanes a : Nat) (b : Option Nat) (code : Nat) :
    (s.applyMark lanes a b code).validating = s.validating := rfl
@[simp] theorem Dev.applyMark_herd (lanes a : Nat) (b : Option Nat) (code : Nat) :
    (s.applyMark lanes a b code).herd = s.herd := rfl
@[simp] theorem Dev.applyMark_zports (lanes a : Nat) (b : Option Nat) (code : Nat) :
    (s.applyMark lanes a b code).zports = s.zports := rfl
@[simp] theorem Dev.applyMark_svc (lanes a : Nat) (b : Option Nat) (code : Nat) :
    (s.applyMark lanes a b code).svc = s.svc := rfl
@[simp] theorem Dev.applyMark_mlk (lanes a : Nat) (b : Option Nat) (code : Nat) :
    (s.applyMark lanes a b code).mlk = s.mlk := rfl
@[simp] theorem Dev.applyMark_trace (lanes a : Nat) (b : Option Nat) (code : Nat) :
    (s.applyMark lanes a b code).trace = s.trace := rfl
@[simp] theorem Dev.applyMark_out (lanes a : Nat) (b : Option Nat) (code : Nat) :
    (s.applyMark lanes a b code).out = s.out := rfl
@[simp] theorem Dev.applyMark_rd (lanes a : Nat) (b : Option Nat) (code : Nat) (f : Field) (i : Nat) :
    (s.applyMark lanes a b code).rd f i = s.rd f i := rfl
@[simp] theorem Dev.setEnc_regs (ch : Nat) (e : Encoder) :
    (s.setEnc ch e).regs = s.regs := rfl
@[simp] theorem Dev.setEnc_voteB (ch : Nat) (e : Encoder) :
    (s.setEnc ch e).voteB = s.voteB := rfl
@[simp] theorem Dev.setEnc_voteC (ch : Nat) (e : Encoder) :
    (s.setEnc ch e).voteC = s.voteC := rfl
@[simp] theorem Dev.setEnc_od (ch : Nat) (e : Encoder) :
    (s.setEnc ch e).od = s.od := rfl
@[simp] theorem Dev.setEnc_nvm (ch : Nat) (e : Encoder) :
    (s.setEnc ch e).nvm = s.nvm := rfl
@[simp] theorem Dev.setEnc_mem (ch : Nat) (e : Encoder) :
    (s.setEnc ch e).mem = s.mem := rfl
@[simp] theorem Dev.setEnc_bar (ch : Nat) (e : Encoder) :
    (s.setEnc ch e).bar = s.bar := rfl
@[simp] theorem Dev.setEnc_sync (ch : Nat) (e : Encoder) :
    (s.setEnc ch e).sync = s.sync := rfl
@[simp] theorem Dev.setEnc_counters (ch : Nat) (e : Encoder) :
    (s.setEnc ch e).counters = s.counters := rfl
@[simp] theorem Dev.setEnc_free (ch : Nat) (e : Encoder) :
    (s.setEnc ch e).free = s.free := rfl
@[simp] theorem Dev.setEnc_power (ch : Nat) (e : Encoder) :
    (s.setEnc ch e).power = s.power := rfl
@[simp] theorem Dev.setEnc_rst (ch : Nat) (e : Encoder) :
    (s.setEnc ch e).rst = s.rst := rfl
@[simp] theorem Dev.setEnc_xclk (ch : Nat) (e : Encoder) :
    (s.setEnc ch e).xclk = s.xclk := rfl
@[simp] theorem Dev.setEnc_tickAt (ch : Nat) (e : Encoder) :
    (s.setEnc ch e).tickAt = s.tickAt := rfl
@[simp] theorem Dev.setEnc_slotAt (ch : Nat) (e : Encoder) :
    (s.setEnc ch e).slotAt = s.slotAt := rfl
@[simp] theorem Dev.setEnc_timeU (ch : Nat) (e : Encoder) :
    (s.setEnc ch e).timeU = s.timeU := rfl
@[simp] theorem Dev.setEnc_xclkOn (ch : Nat) (e : Encoder) :
    (s.setEnc ch e).xclkOn = s.xclkOn := rfl
@[simp] theorem Dev.setEnc_tb (ch : Nat) (e : Encoder) :
    (s.setEnc ch e).tb = s.tb := rfl
@[simp] theorem Dev.setEnc_ttos (ch : Nat) (e : Encoder) :
    (s.setEnc ch e).ttos = s.ttos := rfl
@[simp] theorem Dev.setEnc_gens (ch : Nat) (e : Encoder) :
    (s.setEnc ch e).gens = s.gens := rfl
@[simp] theorem Dev.setEnc_trgs (ch : Nat) (e : Encoder) :
    (s.setEnc ch e).trgs = s.trgs := rfl
@[simp] theorem Dev.setEnc_est (ch : Nat) (e : Encoder) :
    (s.setEnc ch e).est = s.est := rfl
@[simp] theorem Dev.setEnc_lmOffset (ch : Nat) (e : Encoder) :
    (s.setEnc ch e).lmOffset = s.lmOffset := rfl
@[simp] theorem Dev.setEnc_peak (ch : Nat) (e : Encoder) :
    (s.setEnc ch e).peak = s.peak := rfl
@[simp] theorem Dev.setEnc_marks (ch : Nat) (e : Encoder) :
    (s.setEnc ch e).marks = s.marks := rfl
@[simp] theorem Dev.setEnc_lanes (ch : Nat) (e : Encoder) :
    (s.setEnc ch e).lanes = s.lanes := rfl
@[simp] theorem Dev.setEnc_parts (ch : Nat) (e : Encoder) :
    (s.setEnc ch e).parts = s.parts := rfl
@[simp] theorem Dev.setEnc_nextId (ch : Nat) (e : Encoder) :
    (s.setEnc ch e).nextId = s.nextId := rfl
@[simp] theorem Dev.setEnc_lostIds (ch : Nat) (e : Encoder) :
    (s.setEnc ch e).lostIds = s.lostIds := rfl
@[simp] theorem Dev.setEnc_slots (ch : Nat) (e : Encoder) :
    (s.setEnc ch e).slots = s.slots := rfl
@[simp] theorem Dev.setEnc_slotNow (ch : Nat) (e : Encoder) :
    (s.setEnc ch e).slotNow = s.slotNow := rfl
@[simp] theorem Dev.setEnc_slotFrom (ch : Nat) (e : Encoder) :
    (s.setEnc ch e).slotFrom = s.slotFrom := rfl
@[simp] theorem Dev.setEnc_slotPast (ch : Nat) (e : Encoder) :
    (s.setEnc ch e).slotPast = s.slotPast := rfl
@[simp] theorem Dev.setEnc_slotNext (ch : Nat) (e : Encoder) :
    (s.setEnc ch e).slotNext = s.slotNext := rfl
@[simp] theorem Dev.setEnc_fires (ch : Nat) (e : Encoder) :
    (s.setEnc ch e).fires = s.fires := rfl
@[simp] theorem Dev.setEnc_nextRun (ch : Nat) (e : Encoder) :
    (s.setEnc ch e).nextRun = s.nextRun := rfl
@[simp] theorem Dev.setEnc_barrier (ch : Nat) (e : Encoder) :
    (s.setEnc ch e).barrier = s.barrier := rfl
@[simp] theorem Dev.setEnc_die (ch : Nat) (e : Encoder) :
    (s.setEnc ch e).die = s.die := rfl
@[simp] theorem Dev.setEnc_links (ch : Nat) (e : Encoder) :
    (s.setEnc ch e).links = s.links := rfl
@[simp] theorem Dev.setEnc_ctxs (ch : Nat) (e : Encoder) :
    (s.setEnc ch e).ctxs = s.ctxs := rfl
@[simp] theorem Dev.setEnc_pipes (ch : Nat) (e : Encoder) :
    (s.setEnc ch e).pipes = s.pipes := rfl
@[simp] theorem Dev.setEnc_pipesOn (ch : Nat) (e : Encoder) :
    (s.setEnc ch e).pipesOn = s.pipesOn := rfl
@[simp] theorem Dev.setEnc_lineSeq (ch : Nat) (e : Encoder) :
    (s.setEnc ch e).lineSeq = s.lineSeq := rfl
@[simp] theorem Dev.setEnc_fusions (ch : Nat) (e : Encoder) :
    (s.setEnc ch e).fusions = s.fusions := rfl
@[simp] theorem Dev.setEnc_churns (ch : Nat) (e : Encoder) :
    (s.setEnc ch e).churns = s.churns := rfl
@[simp] theorem Dev.setEnc_jobs (ch : Nat) (e : Encoder) :
    (s.setEnc ch e).jobs = s.jobs := rfl
@[simp] theorem Dev.setEnc_jobSeq (ch : Nat) (e : Encoder) :
    (s.setEnc ch e).jobSeq = s.jobSeq := rfl
@[simp] theorem Dev.setEnc_lastQueue (ch : Nat) (e : Encoder) :
    (s.setEnc ch e).lastQueue = s.lastQueue := rfl
@[simp] theorem Dev.setEnc_lastTeach (ch : Nat) (e : Encoder) :
    (s.setEnc ch e).lastTeach = s.lastTeach := rfl
@[simp] theorem Dev.setEnc_saves (ch : Nat) (e : Encoder) :
    (s.setEnc ch e).saves = s.saves := rfl
@[simp] theorem Dev.setEnc_saveSeq (ch : Nat) (e : Encoder) :
    (s.setEnc ch e).saveSeq = s.saveSeq := rfl
@[simp] theorem Dev.setEnc_fixing (ch : Nat) (e : Encoder) :
    (s.setEnc ch e).fixing = s.fixing := rfl
@[simp] theorem Dev.setEnc_runHit (ch : Nat) (e : Encoder) :
    (s.setEnc ch e).runHit = s.runHit := rfl
@[simp] theorem Dev.setEnc_faultq (ch : Nat) (e : Encoder) :
    (s.setEnc ch e).faultq = s.faultq := rfl
@[simp] theorem Dev.setEnc_posted (ch : Nat) (e : Encoder) :
    (s.setEnc ch e).posted = s.posted := rfl
@[simp] theorem Dev.setEnc_tlb (ch : Nat) (e : Encoder) :
    (s.setEnc ch e).tlb = s.tlb := rfl
@[simp] theorem Dev.setEnc_invals (ch : Nat) (e : Encoder) :
    (s.setEnc ch e).invals = s.invals := rfl
@[simp] theorem Dev.setEnc_scrubLine (ch : Nat) (e : Encoder) :
    (s.setEnc ch e).scrubLine = s.scrubLine := rfl
@[simp] theorem Dev.setEnc_pcieUp (ch : Nat) (e : Encoder) :
    (s.setEnc ch e).pcieUp = s.pcieUp := rfl
@[simp] theorem Dev.setEnc_rules (ch : Nat) (e : Encoder) :
    (s.setEnc ch e).rules = s.rules := rfl
@[simp] theorem Dev.setEnc_ring (ch : Nat) (e : Encoder) :
    (s.setEnc ch e).ring = s.ring := rfl
@[simp] theorem Dev.setEnc_libUsed (ch : Nat) (e : Encoder) :
    (s.setEnc ch e).libUsed = s.libUsed := rfl
@[simp] theorem Dev.setEnc_batch (ch : Nat) (e : Encoder) :
    (s.setEnc ch e).batch = s.batch := rfl
@[simp] theorem Dev.setEnc_lastDec (ch : Nat) (e : Encoder) :
    (s.setEnc ch e).lastDec = s.lastDec := rfl
@[simp] theorem Dev.setEnc_capUsed (ch : Nat) (e : Encoder) :
    (s.setEnc ch e).capUsed = s.capUsed := rfl
@[simp] theorem Dev.setEnc_validating (ch : Nat) (e : Encoder) :
    (s.setEnc ch e).validating = s.validating := rfl
@[simp] theorem Dev.setEnc_herd (ch : Nat) (e : Encoder) :
    (s.setEnc ch e).herd = s.herd := rfl
@[simp] theorem Dev.setEnc_zports (ch : Nat) (e : Encoder) :
    (s.setEnc ch e).zports = s.zports := rfl
@[simp] theorem Dev.setEnc_svc (ch : Nat) (e : Encoder) :
    (s.setEnc ch e).svc = s.svc := rfl
@[simp] theorem Dev.setEnc_mlk (ch : Nat) (e : Encoder) :
    (s.setEnc ch e).mlk = s.mlk := rfl
@[simp] theorem Dev.setEnc_trace (ch : Nat) (e : Encoder) :
    (s.setEnc ch e).trace = s.trace := rfl
@[simp] theorem Dev.setEnc_out (ch : Nat) (e : Encoder) :
    (s.setEnc ch e).out = s.out := rfl
@[simp] theorem Dev.setEnc_rd (ch : Nat) (e : Encoder) (f : Field) (i : Nat) :
    (s.setEnc ch e).rd f i = s.rd f i := rfl
@[simp] theorem Dev.setGen_regs (g : Nat) (e : Generator) :
    (s.setGen g e).regs = s.regs := rfl
@[simp] theorem Dev.setGen_voteB (g : Nat) (e : Generator) :
    (s.setGen g e).voteB = s.voteB := rfl
@[simp] theorem Dev.setGen_voteC (g : Nat) (e : Generator) :
    (s.setGen g e).voteC = s.voteC := rfl
@[simp] theorem Dev.setGen_od (g : Nat) (e : Generator) :
    (s.setGen g e).od = s.od := rfl
@[simp] theorem Dev.setGen_nvm (g : Nat) (e : Generator) :
    (s.setGen g e).nvm = s.nvm := rfl
@[simp] theorem Dev.setGen_mem (g : Nat) (e : Generator) :
    (s.setGen g e).mem = s.mem := rfl
@[simp] theorem Dev.setGen_bar (g : Nat) (e : Generator) :
    (s.setGen g e).bar = s.bar := rfl
@[simp] theorem Dev.setGen_sync (g : Nat) (e : Generator) :
    (s.setGen g e).sync = s.sync := rfl
@[simp] theorem Dev.setGen_counters (g : Nat) (e : Generator) :
    (s.setGen g e).counters = s.counters := rfl
@[simp] theorem Dev.setGen_free (g : Nat) (e : Generator) :
    (s.setGen g e).free = s.free := rfl
@[simp] theorem Dev.setGen_power (g : Nat) (e : Generator) :
    (s.setGen g e).power = s.power := rfl
@[simp] theorem Dev.setGen_rst (g : Nat) (e : Generator) :
    (s.setGen g e).rst = s.rst := rfl
@[simp] theorem Dev.setGen_xclk (g : Nat) (e : Generator) :
    (s.setGen g e).xclk = s.xclk := rfl
@[simp] theorem Dev.setGen_tickAt (g : Nat) (e : Generator) :
    (s.setGen g e).tickAt = s.tickAt := rfl
@[simp] theorem Dev.setGen_slotAt (g : Nat) (e : Generator) :
    (s.setGen g e).slotAt = s.slotAt := rfl
@[simp] theorem Dev.setGen_timeU (g : Nat) (e : Generator) :
    (s.setGen g e).timeU = s.timeU := rfl
@[simp] theorem Dev.setGen_xclkOn (g : Nat) (e : Generator) :
    (s.setGen g e).xclkOn = s.xclkOn := rfl
@[simp] theorem Dev.setGen_tb (g : Nat) (e : Generator) :
    (s.setGen g e).tb = s.tb := rfl
@[simp] theorem Dev.setGen_ttos (g : Nat) (e : Generator) :
    (s.setGen g e).ttos = s.ttos := rfl
@[simp] theorem Dev.setGen_encs (g : Nat) (e : Generator) :
    (s.setGen g e).encs = s.encs := rfl
@[simp] theorem Dev.setGen_trgs (g : Nat) (e : Generator) :
    (s.setGen g e).trgs = s.trgs := rfl
@[simp] theorem Dev.setGen_est (g : Nat) (e : Generator) :
    (s.setGen g e).est = s.est := rfl
@[simp] theorem Dev.setGen_lmOffset (g : Nat) (e : Generator) :
    (s.setGen g e).lmOffset = s.lmOffset := rfl
@[simp] theorem Dev.setGen_peak (g : Nat) (e : Generator) :
    (s.setGen g e).peak = s.peak := rfl
@[simp] theorem Dev.setGen_marks (g : Nat) (e : Generator) :
    (s.setGen g e).marks = s.marks := rfl
@[simp] theorem Dev.setGen_lanes (g : Nat) (e : Generator) :
    (s.setGen g e).lanes = s.lanes := rfl
@[simp] theorem Dev.setGen_parts (g : Nat) (e : Generator) :
    (s.setGen g e).parts = s.parts := rfl
@[simp] theorem Dev.setGen_nextId (g : Nat) (e : Generator) :
    (s.setGen g e).nextId = s.nextId := rfl
@[simp] theorem Dev.setGen_lostIds (g : Nat) (e : Generator) :
    (s.setGen g e).lostIds = s.lostIds := rfl
@[simp] theorem Dev.setGen_slots (g : Nat) (e : Generator) :
    (s.setGen g e).slots = s.slots := rfl
@[simp] theorem Dev.setGen_slotNow (g : Nat) (e : Generator) :
    (s.setGen g e).slotNow = s.slotNow := rfl
@[simp] theorem Dev.setGen_slotFrom (g : Nat) (e : Generator) :
    (s.setGen g e).slotFrom = s.slotFrom := rfl
@[simp] theorem Dev.setGen_slotPast (g : Nat) (e : Generator) :
    (s.setGen g e).slotPast = s.slotPast := rfl
@[simp] theorem Dev.setGen_slotNext (g : Nat) (e : Generator) :
    (s.setGen g e).slotNext = s.slotNext := rfl
@[simp] theorem Dev.setGen_fires (g : Nat) (e : Generator) :
    (s.setGen g e).fires = s.fires := rfl
@[simp] theorem Dev.setGen_nextRun (g : Nat) (e : Generator) :
    (s.setGen g e).nextRun = s.nextRun := rfl
@[simp] theorem Dev.setGen_barrier (g : Nat) (e : Generator) :
    (s.setGen g e).barrier = s.barrier := rfl
@[simp] theorem Dev.setGen_die (g : Nat) (e : Generator) :
    (s.setGen g e).die = s.die := rfl
@[simp] theorem Dev.setGen_links (g : Nat) (e : Generator) :
    (s.setGen g e).links = s.links := rfl
@[simp] theorem Dev.setGen_ctxs (g : Nat) (e : Generator) :
    (s.setGen g e).ctxs = s.ctxs := rfl
@[simp] theorem Dev.setGen_pipes (g : Nat) (e : Generator) :
    (s.setGen g e).pipes = s.pipes := rfl
@[simp] theorem Dev.setGen_pipesOn (g : Nat) (e : Generator) :
    (s.setGen g e).pipesOn = s.pipesOn := rfl
@[simp] theorem Dev.setGen_lineSeq (g : Nat) (e : Generator) :
    (s.setGen g e).lineSeq = s.lineSeq := rfl
@[simp] theorem Dev.setGen_fusions (g : Nat) (e : Generator) :
    (s.setGen g e).fusions = s.fusions := rfl
@[simp] theorem Dev.setGen_churns (g : Nat) (e : Generator) :
    (s.setGen g e).churns = s.churns := rfl
@[simp] theorem Dev.setGen_jobs (g : Nat) (e : Generator) :
    (s.setGen g e).jobs = s.jobs := rfl
@[simp] theorem Dev.setGen_jobSeq (g : Nat) (e : Generator) :
    (s.setGen g e).jobSeq = s.jobSeq := rfl
@[simp] theorem Dev.setGen_lastQueue (g : Nat) (e : Generator) :
    (s.setGen g e).lastQueue = s.lastQueue := rfl
@[simp] theorem Dev.setGen_lastTeach (g : Nat) (e : Generator) :
    (s.setGen g e).lastTeach = s.lastTeach := rfl
@[simp] theorem Dev.setGen_saves (g : Nat) (e : Generator) :
    (s.setGen g e).saves = s.saves := rfl
@[simp] theorem Dev.setGen_saveSeq (g : Nat) (e : Generator) :
    (s.setGen g e).saveSeq = s.saveSeq := rfl
@[simp] theorem Dev.setGen_fixing (g : Nat) (e : Generator) :
    (s.setGen g e).fixing = s.fixing := rfl
@[simp] theorem Dev.setGen_runHit (g : Nat) (e : Generator) :
    (s.setGen g e).runHit = s.runHit := rfl
@[simp] theorem Dev.setGen_faultq (g : Nat) (e : Generator) :
    (s.setGen g e).faultq = s.faultq := rfl
@[simp] theorem Dev.setGen_posted (g : Nat) (e : Generator) :
    (s.setGen g e).posted = s.posted := rfl
@[simp] theorem Dev.setGen_tlb (g : Nat) (e : Generator) :
    (s.setGen g e).tlb = s.tlb := rfl
@[simp] theorem Dev.setGen_invals (g : Nat) (e : Generator) :
    (s.setGen g e).invals = s.invals := rfl
@[simp] theorem Dev.setGen_scrubLine (g : Nat) (e : Generator) :
    (s.setGen g e).scrubLine = s.scrubLine := rfl
@[simp] theorem Dev.setGen_pcieUp (g : Nat) (e : Generator) :
    (s.setGen g e).pcieUp = s.pcieUp := rfl
@[simp] theorem Dev.setGen_rules (g : Nat) (e : Generator) :
    (s.setGen g e).rules = s.rules := rfl
@[simp] theorem Dev.setGen_ring (g : Nat) (e : Generator) :
    (s.setGen g e).ring = s.ring := rfl
@[simp] theorem Dev.setGen_libUsed (g : Nat) (e : Generator) :
    (s.setGen g e).libUsed = s.libUsed := rfl
@[simp] theorem Dev.setGen_batch (g : Nat) (e : Generator) :
    (s.setGen g e).batch = s.batch := rfl
@[simp] theorem Dev.setGen_lastDec (g : Nat) (e : Generator) :
    (s.setGen g e).lastDec = s.lastDec := rfl
@[simp] theorem Dev.setGen_capUsed (g : Nat) (e : Generator) :
    (s.setGen g e).capUsed = s.capUsed := rfl
@[simp] theorem Dev.setGen_validating (g : Nat) (e : Generator) :
    (s.setGen g e).validating = s.validating := rfl
@[simp] theorem Dev.setGen_herd (g : Nat) (e : Generator) :
    (s.setGen g e).herd = s.herd := rfl
@[simp] theorem Dev.setGen_zports (g : Nat) (e : Generator) :
    (s.setGen g e).zports = s.zports := rfl
@[simp] theorem Dev.setGen_svc (g : Nat) (e : Generator) :
    (s.setGen g e).svc = s.svc := rfl
@[simp] theorem Dev.setGen_mlk (g : Nat) (e : Generator) :
    (s.setGen g e).mlk = s.mlk := rfl
@[simp] theorem Dev.setGen_trace (g : Nat) (e : Generator) :
    (s.setGen g e).trace = s.trace := rfl
@[simp] theorem Dev.setGen_out (g : Nat) (e : Generator) :
    (s.setGen g e).out = s.out := rfl
@[simp] theorem Dev.setGen_rd (g : Nat) (e : Generator) (f : Field) (i : Nat) :
    (s.setGen g e).rd f i = s.rd f i := rfl
@[simp] theorem Dev.setTrg_regs (t : Nat) (e : Trigger) :
    (s.setTrg t e).regs = s.regs := rfl
@[simp] theorem Dev.setTrg_voteB (t : Nat) (e : Trigger) :
    (s.setTrg t e).voteB = s.voteB := rfl
@[simp] theorem Dev.setTrg_voteC (t : Nat) (e : Trigger) :
    (s.setTrg t e).voteC = s.voteC := rfl
@[simp] theorem Dev.setTrg_od (t : Nat) (e : Trigger) :
    (s.setTrg t e).od = s.od := rfl
@[simp] theorem Dev.setTrg_nvm (t : Nat) (e : Trigger) :
    (s.setTrg t e).nvm = s.nvm := rfl
@[simp] theorem Dev.setTrg_mem (t : Nat) (e : Trigger) :
    (s.setTrg t e).mem = s.mem := rfl
@[simp] theorem Dev.setTrg_bar (t : Nat) (e : Trigger) :
    (s.setTrg t e).bar = s.bar := rfl
@[simp] theorem Dev.setTrg_sync (t : Nat) (e : Trigger) :
    (s.setTrg t e).sync = s.sync := rfl
@[simp] theorem Dev.setTrg_counters (t : Nat) (e : Trigger) :
    (s.setTrg t e).counters = s.counters := rfl
@[simp] theorem Dev.setTrg_free (t : Nat) (e : Trigger) :
    (s.setTrg t e).free = s.free := rfl
@[simp] theorem Dev.setTrg_power (t : Nat) (e : Trigger) :
    (s.setTrg t e).power = s.power := rfl
@[simp] theorem Dev.setTrg_rst (t : Nat) (e : Trigger) :
    (s.setTrg t e).rst = s.rst := rfl
@[simp] theorem Dev.setTrg_xclk (t : Nat) (e : Trigger) :
    (s.setTrg t e).xclk = s.xclk := rfl
@[simp] theorem Dev.setTrg_tickAt (t : Nat) (e : Trigger) :
    (s.setTrg t e).tickAt = s.tickAt := rfl
@[simp] theorem Dev.setTrg_slotAt (t : Nat) (e : Trigger) :
    (s.setTrg t e).slotAt = s.slotAt := rfl
@[simp] theorem Dev.setTrg_timeU (t : Nat) (e : Trigger) :
    (s.setTrg t e).timeU = s.timeU := rfl
@[simp] theorem Dev.setTrg_xclkOn (t : Nat) (e : Trigger) :
    (s.setTrg t e).xclkOn = s.xclkOn := rfl
@[simp] theorem Dev.setTrg_tb (t : Nat) (e : Trigger) :
    (s.setTrg t e).tb = s.tb := rfl
@[simp] theorem Dev.setTrg_ttos (t : Nat) (e : Trigger) :
    (s.setTrg t e).ttos = s.ttos := rfl
@[simp] theorem Dev.setTrg_encs (t : Nat) (e : Trigger) :
    (s.setTrg t e).encs = s.encs := rfl
@[simp] theorem Dev.setTrg_gens (t : Nat) (e : Trigger) :
    (s.setTrg t e).gens = s.gens := rfl
@[simp] theorem Dev.setTrg_est (t : Nat) (e : Trigger) :
    (s.setTrg t e).est = s.est := rfl
@[simp] theorem Dev.setTrg_lmOffset (t : Nat) (e : Trigger) :
    (s.setTrg t e).lmOffset = s.lmOffset := rfl
@[simp] theorem Dev.setTrg_peak (t : Nat) (e : Trigger) :
    (s.setTrg t e).peak = s.peak := rfl
@[simp] theorem Dev.setTrg_marks (t : Nat) (e : Trigger) :
    (s.setTrg t e).marks = s.marks := rfl
@[simp] theorem Dev.setTrg_lanes (t : Nat) (e : Trigger) :
    (s.setTrg t e).lanes = s.lanes := rfl
@[simp] theorem Dev.setTrg_parts (t : Nat) (e : Trigger) :
    (s.setTrg t e).parts = s.parts := rfl
@[simp] theorem Dev.setTrg_nextId (t : Nat) (e : Trigger) :
    (s.setTrg t e).nextId = s.nextId := rfl
@[simp] theorem Dev.setTrg_lostIds (t : Nat) (e : Trigger) :
    (s.setTrg t e).lostIds = s.lostIds := rfl
@[simp] theorem Dev.setTrg_slots (t : Nat) (e : Trigger) :
    (s.setTrg t e).slots = s.slots := rfl
@[simp] theorem Dev.setTrg_slotNow (t : Nat) (e : Trigger) :
    (s.setTrg t e).slotNow = s.slotNow := rfl
@[simp] theorem Dev.setTrg_slotFrom (t : Nat) (e : Trigger) :
    (s.setTrg t e).slotFrom = s.slotFrom := rfl
@[simp] theorem Dev.setTrg_slotPast (t : Nat) (e : Trigger) :
    (s.setTrg t e).slotPast = s.slotPast := rfl
@[simp] theorem Dev.setTrg_slotNext (t : Nat) (e : Trigger) :
    (s.setTrg t e).slotNext = s.slotNext := rfl
@[simp] theorem Dev.setTrg_fires (t : Nat) (e : Trigger) :
    (s.setTrg t e).fires = s.fires := rfl
@[simp] theorem Dev.setTrg_nextRun (t : Nat) (e : Trigger) :
    (s.setTrg t e).nextRun = s.nextRun := rfl
@[simp] theorem Dev.setTrg_barrier (t : Nat) (e : Trigger) :
    (s.setTrg t e).barrier = s.barrier := rfl
@[simp] theorem Dev.setTrg_die (t : Nat) (e : Trigger) :
    (s.setTrg t e).die = s.die := rfl
@[simp] theorem Dev.setTrg_links (t : Nat) (e : Trigger) :
    (s.setTrg t e).links = s.links := rfl
@[simp] theorem Dev.setTrg_ctxs (t : Nat) (e : Trigger) :
    (s.setTrg t e).ctxs = s.ctxs := rfl
@[simp] theorem Dev.setTrg_pipes (t : Nat) (e : Trigger) :
    (s.setTrg t e).pipes = s.pipes := rfl
@[simp] theorem Dev.setTrg_pipesOn (t : Nat) (e : Trigger) :
    (s.setTrg t e).pipesOn = s.pipesOn := rfl
@[simp] theorem Dev.setTrg_lineSeq (t : Nat) (e : Trigger) :
    (s.setTrg t e).lineSeq = s.lineSeq := rfl
@[simp] theorem Dev.setTrg_fusions (t : Nat) (e : Trigger) :
    (s.setTrg t e).fusions = s.fusions := rfl
@[simp] theorem Dev.setTrg_churns (t : Nat) (e : Trigger) :
    (s.setTrg t e).churns = s.churns := rfl
@[simp] theorem Dev.setTrg_jobs (t : Nat) (e : Trigger) :
    (s.setTrg t e).jobs = s.jobs := rfl
@[simp] theorem Dev.setTrg_jobSeq (t : Nat) (e : Trigger) :
    (s.setTrg t e).jobSeq = s.jobSeq := rfl
@[simp] theorem Dev.setTrg_lastQueue (t : Nat) (e : Trigger) :
    (s.setTrg t e).lastQueue = s.lastQueue := rfl
@[simp] theorem Dev.setTrg_lastTeach (t : Nat) (e : Trigger) :
    (s.setTrg t e).lastTeach = s.lastTeach := rfl
@[simp] theorem Dev.setTrg_saves (t : Nat) (e : Trigger) :
    (s.setTrg t e).saves = s.saves := rfl
@[simp] theorem Dev.setTrg_saveSeq (t : Nat) (e : Trigger) :
    (s.setTrg t e).saveSeq = s.saveSeq := rfl
@[simp] theorem Dev.setTrg_fixing (t : Nat) (e : Trigger) :
    (s.setTrg t e).fixing = s.fixing := rfl
@[simp] theorem Dev.setTrg_runHit (t : Nat) (e : Trigger) :
    (s.setTrg t e).runHit = s.runHit := rfl
@[simp] theorem Dev.setTrg_faultq (t : Nat) (e : Trigger) :
    (s.setTrg t e).faultq = s.faultq := rfl
@[simp] theorem Dev.setTrg_posted (t : Nat) (e : Trigger) :
    (s.setTrg t e).posted = s.posted := rfl
@[simp] theorem Dev.setTrg_tlb (t : Nat) (e : Trigger) :
    (s.setTrg t e).tlb = s.tlb := rfl
@[simp] theorem Dev.setTrg_invals (t : Nat) (e : Trigger) :
    (s.setTrg t e).invals = s.invals := rfl
@[simp] theorem Dev.setTrg_scrubLine (t : Nat) (e : Trigger) :
    (s.setTrg t e).scrubLine = s.scrubLine := rfl
@[simp] theorem Dev.setTrg_pcieUp (t : Nat) (e : Trigger) :
    (s.setTrg t e).pcieUp = s.pcieUp := rfl
@[simp] theorem Dev.setTrg_rules (t : Nat) (e : Trigger) :
    (s.setTrg t e).rules = s.rules := rfl
@[simp] theorem Dev.setTrg_ring (t : Nat) (e : Trigger) :
    (s.setTrg t e).ring = s.ring := rfl
@[simp] theorem Dev.setTrg_libUsed (t : Nat) (e : Trigger) :
    (s.setTrg t e).libUsed = s.libUsed := rfl
@[simp] theorem Dev.setTrg_batch (t : Nat) (e : Trigger) :
    (s.setTrg t e).batch = s.batch := rfl
@[simp] theorem Dev.setTrg_lastDec (t : Nat) (e : Trigger) :
    (s.setTrg t e).lastDec = s.lastDec := rfl
@[simp] theorem Dev.setTrg_capUsed (t : Nat) (e : Trigger) :
    (s.setTrg t e).capUsed = s.capUsed := rfl
@[simp] theorem Dev.setTrg_validating (t : Nat) (e : Trigger) :
    (s.setTrg t e).validating = s.validating := rfl
@[simp] theorem Dev.setTrg_herd (t : Nat) (e : Trigger) :
    (s.setTrg t e).herd = s.herd := rfl
@[simp] theorem Dev.setTrg_zports (t : Nat) (e : Trigger) :
    (s.setTrg t e).zports = s.zports := rfl
@[simp] theorem Dev.setTrg_svc (t : Nat) (e : Trigger) :
    (s.setTrg t e).svc = s.svc := rfl
@[simp] theorem Dev.setTrg_mlk (t : Nat) (e : Trigger) :
    (s.setTrg t e).mlk = s.mlk := rfl
@[simp] theorem Dev.setTrg_trace (t : Nat) (e : Trigger) :
    (s.setTrg t e).trace = s.trace := rfl
@[simp] theorem Dev.setTrg_out (t : Nat) (e : Trigger) :
    (s.setTrg t e).out = s.out := rfl
@[simp] theorem Dev.setTrg_rd (t : Nat) (e : Trigger) (f : Field) (i : Nat) :
    (s.setTrg t e).rd f i = s.rd f i := rfl
@[simp] theorem Dev.setLane_regs (l : Nat) (e : Lane) :
    (s.setLane l e).regs = s.regs := rfl
@[simp] theorem Dev.setLane_voteB (l : Nat) (e : Lane) :
    (s.setLane l e).voteB = s.voteB := rfl
@[simp] theorem Dev.setLane_voteC (l : Nat) (e : Lane) :
    (s.setLane l e).voteC = s.voteC := rfl
@[simp] theorem Dev.setLane_od (l : Nat) (e : Lane) :
    (s.setLane l e).od = s.od := rfl
@[simp] theorem Dev.setLane_nvm (l : Nat) (e : Lane) :
    (s.setLane l e).nvm = s.nvm := rfl
@[simp] theorem Dev.setLane_mem (l : Nat) (e : Lane) :
    (s.setLane l e).mem = s.mem := rfl
@[simp] theorem Dev.setLane_bar (l : Nat) (e : Lane) :
    (s.setLane l e).bar = s.bar := rfl
@[simp] theorem Dev.setLane_sync (l : Nat) (e : Lane) :
    (s.setLane l e).sync = s.sync := rfl
@[simp] theorem Dev.setLane_counters (l : Nat) (e : Lane) :
    (s.setLane l e).counters = s.counters := rfl
@[simp] theorem Dev.setLane_free (l : Nat) (e : Lane) :
    (s.setLane l e).free = s.free := rfl
@[simp] theorem Dev.setLane_power (l : Nat) (e : Lane) :
    (s.setLane l e).power = s.power := rfl
@[simp] theorem Dev.setLane_rst (l : Nat) (e : Lane) :
    (s.setLane l e).rst = s.rst := rfl
@[simp] theorem Dev.setLane_xclk (l : Nat) (e : Lane) :
    (s.setLane l e).xclk = s.xclk := rfl
@[simp] theorem Dev.setLane_tickAt (l : Nat) (e : Lane) :
    (s.setLane l e).tickAt = s.tickAt := rfl
@[simp] theorem Dev.setLane_slotAt (l : Nat) (e : Lane) :
    (s.setLane l e).slotAt = s.slotAt := rfl
@[simp] theorem Dev.setLane_timeU (l : Nat) (e : Lane) :
    (s.setLane l e).timeU = s.timeU := rfl
@[simp] theorem Dev.setLane_xclkOn (l : Nat) (e : Lane) :
    (s.setLane l e).xclkOn = s.xclkOn := rfl
@[simp] theorem Dev.setLane_tb (l : Nat) (e : Lane) :
    (s.setLane l e).tb = s.tb := rfl
@[simp] theorem Dev.setLane_ttos (l : Nat) (e : Lane) :
    (s.setLane l e).ttos = s.ttos := rfl
@[simp] theorem Dev.setLane_encs (l : Nat) (e : Lane) :
    (s.setLane l e).encs = s.encs := rfl
@[simp] theorem Dev.setLane_gens (l : Nat) (e : Lane) :
    (s.setLane l e).gens = s.gens := rfl
@[simp] theorem Dev.setLane_trgs (l : Nat) (e : Lane) :
    (s.setLane l e).trgs = s.trgs := rfl
@[simp] theorem Dev.setLane_est (l : Nat) (e : Lane) :
    (s.setLane l e).est = s.est := rfl
@[simp] theorem Dev.setLane_lmOffset (l : Nat) (e : Lane) :
    (s.setLane l e).lmOffset = s.lmOffset := rfl
@[simp] theorem Dev.setLane_peak (l : Nat) (e : Lane) :
    (s.setLane l e).peak = s.peak := rfl
@[simp] theorem Dev.setLane_marks (l : Nat) (e : Lane) :
    (s.setLane l e).marks = s.marks := rfl
@[simp] theorem Dev.setLane_parts (l : Nat) (e : Lane) :
    (s.setLane l e).parts = s.parts := rfl
@[simp] theorem Dev.setLane_nextId (l : Nat) (e : Lane) :
    (s.setLane l e).nextId = s.nextId := rfl
@[simp] theorem Dev.setLane_lostIds (l : Nat) (e : Lane) :
    (s.setLane l e).lostIds = s.lostIds := rfl
@[simp] theorem Dev.setLane_slots (l : Nat) (e : Lane) :
    (s.setLane l e).slots = s.slots := rfl
@[simp] theorem Dev.setLane_slotNow (l : Nat) (e : Lane) :
    (s.setLane l e).slotNow = s.slotNow := rfl
@[simp] theorem Dev.setLane_slotFrom (l : Nat) (e : Lane) :
    (s.setLane l e).slotFrom = s.slotFrom := rfl
@[simp] theorem Dev.setLane_slotPast (l : Nat) (e : Lane) :
    (s.setLane l e).slotPast = s.slotPast := rfl
@[simp] theorem Dev.setLane_slotNext (l : Nat) (e : Lane) :
    (s.setLane l e).slotNext = s.slotNext := rfl
@[simp] theorem Dev.setLane_fires (l : Nat) (e : Lane) :
    (s.setLane l e).fires = s.fires := rfl
@[simp] theorem Dev.setLane_nextRun (l : Nat) (e : Lane) :
    (s.setLane l e).nextRun = s.nextRun := rfl
@[simp] theorem Dev.setLane_barrier (l : Nat) (e : Lane) :
    (s.setLane l e).barrier = s.barrier := rfl
@[simp] theorem Dev.setLane_die (l : Nat) (e : Lane) :
    (s.setLane l e).die = s.die := rfl
@[simp] theorem Dev.setLane_links (l : Nat) (e : Lane) :
    (s.setLane l e).links = s.links := rfl
@[simp] theorem Dev.setLane_ctxs (l : Nat) (e : Lane) :
    (s.setLane l e).ctxs = s.ctxs := rfl
@[simp] theorem Dev.setLane_pipes (l : Nat) (e : Lane) :
    (s.setLane l e).pipes = s.pipes := rfl
@[simp] theorem Dev.setLane_pipesOn (l : Nat) (e : Lane) :
    (s.setLane l e).pipesOn = s.pipesOn := rfl
@[simp] theorem Dev.setLane_lineSeq (l : Nat) (e : Lane) :
    (s.setLane l e).lineSeq = s.lineSeq := rfl
@[simp] theorem Dev.setLane_fusions (l : Nat) (e : Lane) :
    (s.setLane l e).fusions = s.fusions := rfl
@[simp] theorem Dev.setLane_churns (l : Nat) (e : Lane) :
    (s.setLane l e).churns = s.churns := rfl
@[simp] theorem Dev.setLane_jobs (l : Nat) (e : Lane) :
    (s.setLane l e).jobs = s.jobs := rfl
@[simp] theorem Dev.setLane_jobSeq (l : Nat) (e : Lane) :
    (s.setLane l e).jobSeq = s.jobSeq := rfl
@[simp] theorem Dev.setLane_lastQueue (l : Nat) (e : Lane) :
    (s.setLane l e).lastQueue = s.lastQueue := rfl
@[simp] theorem Dev.setLane_lastTeach (l : Nat) (e : Lane) :
    (s.setLane l e).lastTeach = s.lastTeach := rfl
@[simp] theorem Dev.setLane_saves (l : Nat) (e : Lane) :
    (s.setLane l e).saves = s.saves := rfl
@[simp] theorem Dev.setLane_saveSeq (l : Nat) (e : Lane) :
    (s.setLane l e).saveSeq = s.saveSeq := rfl
@[simp] theorem Dev.setLane_fixing (l : Nat) (e : Lane) :
    (s.setLane l e).fixing = s.fixing := rfl
@[simp] theorem Dev.setLane_runHit (l : Nat) (e : Lane) :
    (s.setLane l e).runHit = s.runHit := rfl
@[simp] theorem Dev.setLane_faultq (l : Nat) (e : Lane) :
    (s.setLane l e).faultq = s.faultq := rfl
@[simp] theorem Dev.setLane_posted (l : Nat) (e : Lane) :
    (s.setLane l e).posted = s.posted := rfl
@[simp] theorem Dev.setLane_tlb (l : Nat) (e : Lane) :
    (s.setLane l e).tlb = s.tlb := rfl
@[simp] theorem Dev.setLane_invals (l : Nat) (e : Lane) :
    (s.setLane l e).invals = s.invals := rfl
@[simp] theorem Dev.setLane_scrubLine (l : Nat) (e : Lane) :
    (s.setLane l e).scrubLine = s.scrubLine := rfl
@[simp] theorem Dev.setLane_pcieUp (l : Nat) (e : Lane) :
    (s.setLane l e).pcieUp = s.pcieUp := rfl
@[simp] theorem Dev.setLane_rules (l : Nat) (e : Lane) :
    (s.setLane l e).rules = s.rules := rfl
@[simp] theorem Dev.setLane_ring (l : Nat) (e : Lane) :
    (s.setLane l e).ring = s.ring := rfl
@[simp] theorem Dev.setLane_libUsed (l : Nat) (e : Lane) :
    (s.setLane l e).libUsed = s.libUsed := rfl
@[simp] theorem Dev.setLane_batch (l : Nat) (e : Lane) :
    (s.setLane l e).batch = s.batch := rfl
@[simp] theorem Dev.setLane_lastDec (l : Nat) (e : Lane) :
    (s.setLane l e).lastDec = s.lastDec := rfl
@[simp] theorem Dev.setLane_capUsed (l : Nat) (e : Lane) :
    (s.setLane l e).capUsed = s.capUsed := rfl
@[simp] theorem Dev.setLane_validating (l : Nat) (e : Lane) :
    (s.setLane l e).validating = s.validating := rfl
@[simp] theorem Dev.setLane_herd (l : Nat) (e : Lane) :
    (s.setLane l e).herd = s.herd := rfl
@[simp] theorem Dev.setLane_zports (l : Nat) (e : Lane) :
    (s.setLane l e).zports = s.zports := rfl
@[simp] theorem Dev.setLane_svc (l : Nat) (e : Lane) :
    (s.setLane l e).svc = s.svc := rfl
@[simp] theorem Dev.setLane_mlk (l : Nat) (e : Lane) :
    (s.setLane l e).mlk = s.mlk := rfl
@[simp] theorem Dev.setLane_trace (l : Nat) (e : Lane) :
    (s.setLane l e).trace = s.trace := rfl
@[simp] theorem Dev.setLane_out (l : Nat) (e : Lane) :
    (s.setLane l e).out = s.out := rfl
@[simp] theorem Dev.setLane_rd (l : Nat) (e : Lane) (f : Field) (i : Nat) :
    (s.setLane l e).rd f i = s.rd f i := rfl
@[simp] theorem Dev.setSlot_regs (k : Nat) (e : RecipeSlot) :
    (s.setSlot k e).regs = s.regs := rfl
@[simp] theorem Dev.setSlot_voteB (k : Nat) (e : RecipeSlot) :
    (s.setSlot k e).voteB = s.voteB := rfl
@[simp] theorem Dev.setSlot_voteC (k : Nat) (e : RecipeSlot) :
    (s.setSlot k e).voteC = s.voteC := rfl
@[simp] theorem Dev.setSlot_od (k : Nat) (e : RecipeSlot) :
    (s.setSlot k e).od = s.od := rfl
@[simp] theorem Dev.setSlot_nvm (k : Nat) (e : RecipeSlot) :
    (s.setSlot k e).nvm = s.nvm := rfl
@[simp] theorem Dev.setSlot_mem (k : Nat) (e : RecipeSlot) :
    (s.setSlot k e).mem = s.mem := rfl
@[simp] theorem Dev.setSlot_bar (k : Nat) (e : RecipeSlot) :
    (s.setSlot k e).bar = s.bar := rfl
@[simp] theorem Dev.setSlot_sync (k : Nat) (e : RecipeSlot) :
    (s.setSlot k e).sync = s.sync := rfl
@[simp] theorem Dev.setSlot_counters (k : Nat) (e : RecipeSlot) :
    (s.setSlot k e).counters = s.counters := rfl
@[simp] theorem Dev.setSlot_free (k : Nat) (e : RecipeSlot) :
    (s.setSlot k e).free = s.free := rfl
@[simp] theorem Dev.setSlot_power (k : Nat) (e : RecipeSlot) :
    (s.setSlot k e).power = s.power := rfl
@[simp] theorem Dev.setSlot_rst (k : Nat) (e : RecipeSlot) :
    (s.setSlot k e).rst = s.rst := rfl
@[simp] theorem Dev.setSlot_xclk (k : Nat) (e : RecipeSlot) :
    (s.setSlot k e).xclk = s.xclk := rfl
@[simp] theorem Dev.setSlot_tickAt (k : Nat) (e : RecipeSlot) :
    (s.setSlot k e).tickAt = s.tickAt := rfl
@[simp] theorem Dev.setSlot_slotAt (k : Nat) (e : RecipeSlot) :
    (s.setSlot k e).slotAt = s.slotAt := rfl
@[simp] theorem Dev.setSlot_timeU (k : Nat) (e : RecipeSlot) :
    (s.setSlot k e).timeU = s.timeU := rfl
@[simp] theorem Dev.setSlot_xclkOn (k : Nat) (e : RecipeSlot) :
    (s.setSlot k e).xclkOn = s.xclkOn := rfl
@[simp] theorem Dev.setSlot_tb (k : Nat) (e : RecipeSlot) :
    (s.setSlot k e).tb = s.tb := rfl
@[simp] theorem Dev.setSlot_ttos (k : Nat) (e : RecipeSlot) :
    (s.setSlot k e).ttos = s.ttos := rfl
@[simp] theorem Dev.setSlot_encs (k : Nat) (e : RecipeSlot) :
    (s.setSlot k e).encs = s.encs := rfl
@[simp] theorem Dev.setSlot_gens (k : Nat) (e : RecipeSlot) :
    (s.setSlot k e).gens = s.gens := rfl
@[simp] theorem Dev.setSlot_trgs (k : Nat) (e : RecipeSlot) :
    (s.setSlot k e).trgs = s.trgs := rfl
@[simp] theorem Dev.setSlot_est (k : Nat) (e : RecipeSlot) :
    (s.setSlot k e).est = s.est := rfl
@[simp] theorem Dev.setSlot_lmOffset (k : Nat) (e : RecipeSlot) :
    (s.setSlot k e).lmOffset = s.lmOffset := rfl
@[simp] theorem Dev.setSlot_peak (k : Nat) (e : RecipeSlot) :
    (s.setSlot k e).peak = s.peak := rfl
@[simp] theorem Dev.setSlot_marks (k : Nat) (e : RecipeSlot) :
    (s.setSlot k e).marks = s.marks := rfl
@[simp] theorem Dev.setSlot_lanes (k : Nat) (e : RecipeSlot) :
    (s.setSlot k e).lanes = s.lanes := rfl
@[simp] theorem Dev.setSlot_parts (k : Nat) (e : RecipeSlot) :
    (s.setSlot k e).parts = s.parts := rfl
@[simp] theorem Dev.setSlot_nextId (k : Nat) (e : RecipeSlot) :
    (s.setSlot k e).nextId = s.nextId := rfl
@[simp] theorem Dev.setSlot_lostIds (k : Nat) (e : RecipeSlot) :
    (s.setSlot k e).lostIds = s.lostIds := rfl
@[simp] theorem Dev.setSlot_slotNow (k : Nat) (e : RecipeSlot) :
    (s.setSlot k e).slotNow = s.slotNow := rfl
@[simp] theorem Dev.setSlot_slotFrom (k : Nat) (e : RecipeSlot) :
    (s.setSlot k e).slotFrom = s.slotFrom := rfl
@[simp] theorem Dev.setSlot_slotPast (k : Nat) (e : RecipeSlot) :
    (s.setSlot k e).slotPast = s.slotPast := rfl
@[simp] theorem Dev.setSlot_slotNext (k : Nat) (e : RecipeSlot) :
    (s.setSlot k e).slotNext = s.slotNext := rfl
@[simp] theorem Dev.setSlot_fires (k : Nat) (e : RecipeSlot) :
    (s.setSlot k e).fires = s.fires := rfl
@[simp] theorem Dev.setSlot_nextRun (k : Nat) (e : RecipeSlot) :
    (s.setSlot k e).nextRun = s.nextRun := rfl
@[simp] theorem Dev.setSlot_barrier (k : Nat) (e : RecipeSlot) :
    (s.setSlot k e).barrier = s.barrier := rfl
@[simp] theorem Dev.setSlot_die (k : Nat) (e : RecipeSlot) :
    (s.setSlot k e).die = s.die := rfl
@[simp] theorem Dev.setSlot_links (k : Nat) (e : RecipeSlot) :
    (s.setSlot k e).links = s.links := rfl
@[simp] theorem Dev.setSlot_ctxs (k : Nat) (e : RecipeSlot) :
    (s.setSlot k e).ctxs = s.ctxs := rfl
@[simp] theorem Dev.setSlot_pipes (k : Nat) (e : RecipeSlot) :
    (s.setSlot k e).pipes = s.pipes := rfl
@[simp] theorem Dev.setSlot_pipesOn (k : Nat) (e : RecipeSlot) :
    (s.setSlot k e).pipesOn = s.pipesOn := rfl
@[simp] theorem Dev.setSlot_lineSeq (k : Nat) (e : RecipeSlot) :
    (s.setSlot k e).lineSeq = s.lineSeq := rfl
@[simp] theorem Dev.setSlot_fusions (k : Nat) (e : RecipeSlot) :
    (s.setSlot k e).fusions = s.fusions := rfl
@[simp] theorem Dev.setSlot_churns (k : Nat) (e : RecipeSlot) :
    (s.setSlot k e).churns = s.churns := rfl
@[simp] theorem Dev.setSlot_jobs (k : Nat) (e : RecipeSlot) :
    (s.setSlot k e).jobs = s.jobs := rfl
@[simp] theorem Dev.setSlot_jobSeq (k : Nat) (e : RecipeSlot) :
    (s.setSlot k e).jobSeq = s.jobSeq := rfl
@[simp] theorem Dev.setSlot_lastQueue (k : Nat) (e : RecipeSlot) :
    (s.setSlot k e).lastQueue = s.lastQueue := rfl
@[simp] theorem Dev.setSlot_lastTeach (k : Nat) (e : RecipeSlot) :
    (s.setSlot k e).lastTeach = s.lastTeach := rfl
@[simp] theorem Dev.setSlot_saves (k : Nat) (e : RecipeSlot) :
    (s.setSlot k e).saves = s.saves := rfl
@[simp] theorem Dev.setSlot_saveSeq (k : Nat) (e : RecipeSlot) :
    (s.setSlot k e).saveSeq = s.saveSeq := rfl
@[simp] theorem Dev.setSlot_fixing (k : Nat) (e : RecipeSlot) :
    (s.setSlot k e).fixing = s.fixing := rfl
@[simp] theorem Dev.setSlot_runHit (k : Nat) (e : RecipeSlot) :
    (s.setSlot k e).runHit = s.runHit := rfl
@[simp] theorem Dev.setSlot_faultq (k : Nat) (e : RecipeSlot) :
    (s.setSlot k e).faultq = s.faultq := rfl
@[simp] theorem Dev.setSlot_posted (k : Nat) (e : RecipeSlot) :
    (s.setSlot k e).posted = s.posted := rfl
@[simp] theorem Dev.setSlot_tlb (k : Nat) (e : RecipeSlot) :
    (s.setSlot k e).tlb = s.tlb := rfl
@[simp] theorem Dev.setSlot_invals (k : Nat) (e : RecipeSlot) :
    (s.setSlot k e).invals = s.invals := rfl
@[simp] theorem Dev.setSlot_scrubLine (k : Nat) (e : RecipeSlot) :
    (s.setSlot k e).scrubLine = s.scrubLine := rfl
@[simp] theorem Dev.setSlot_pcieUp (k : Nat) (e : RecipeSlot) :
    (s.setSlot k e).pcieUp = s.pcieUp := rfl
@[simp] theorem Dev.setSlot_rules (k : Nat) (e : RecipeSlot) :
    (s.setSlot k e).rules = s.rules := rfl
@[simp] theorem Dev.setSlot_ring (k : Nat) (e : RecipeSlot) :
    (s.setSlot k e).ring = s.ring := rfl
@[simp] theorem Dev.setSlot_libUsed (k : Nat) (e : RecipeSlot) :
    (s.setSlot k e).libUsed = s.libUsed := rfl
@[simp] theorem Dev.setSlot_batch (k : Nat) (e : RecipeSlot) :
    (s.setSlot k e).batch = s.batch := rfl
@[simp] theorem Dev.setSlot_lastDec (k : Nat) (e : RecipeSlot) :
    (s.setSlot k e).lastDec = s.lastDec := rfl
@[simp] theorem Dev.setSlot_capUsed (k : Nat) (e : RecipeSlot) :
    (s.setSlot k e).capUsed = s.capUsed := rfl
@[simp] theorem Dev.setSlot_validating (k : Nat) (e : RecipeSlot) :
    (s.setSlot k e).validating = s.validating := rfl
@[simp] theorem Dev.setSlot_herd (k : Nat) (e : RecipeSlot) :
    (s.setSlot k e).herd = s.herd := rfl
@[simp] theorem Dev.setSlot_zports (k : Nat) (e : RecipeSlot) :
    (s.setSlot k e).zports = s.zports := rfl
@[simp] theorem Dev.setSlot_svc (k : Nat) (e : RecipeSlot) :
    (s.setSlot k e).svc = s.svc := rfl
@[simp] theorem Dev.setSlot_mlk (k : Nat) (e : RecipeSlot) :
    (s.setSlot k e).mlk = s.mlk := rfl
@[simp] theorem Dev.setSlot_trace (k : Nat) (e : RecipeSlot) :
    (s.setSlot k e).trace = s.trace := rfl
@[simp] theorem Dev.setSlot_out (k : Nat) (e : RecipeSlot) :
    (s.setSlot k e).out = s.out := rfl
@[simp] theorem Dev.setSlot_rd (k : Nat) (e : RecipeSlot) (f : Field) (i : Nat) :
    (s.setSlot k e).rd f i = s.rd f i := rfl
@[simp] theorem Dev.setLink_regs (n : Nat) (e : Link) :
    (s.setLink n e).regs = s.regs := rfl
@[simp] theorem Dev.setLink_voteB (n : Nat) (e : Link) :
    (s.setLink n e).voteB = s.voteB := rfl
@[simp] theorem Dev.setLink_voteC (n : Nat) (e : Link) :
    (s.setLink n e).voteC = s.voteC := rfl
@[simp] theorem Dev.setLink_od (n : Nat) (e : Link) :
    (s.setLink n e).od = s.od := rfl
@[simp] theorem Dev.setLink_nvm (n : Nat) (e : Link) :
    (s.setLink n e).nvm = s.nvm := rfl
@[simp] theorem Dev.setLink_mem (n : Nat) (e : Link) :
    (s.setLink n e).mem = s.mem := rfl
@[simp] theorem Dev.setLink_bar (n : Nat) (e : Link) :
    (s.setLink n e).bar = s.bar := rfl
@[simp] theorem Dev.setLink_sync (n : Nat) (e : Link) :
    (s.setLink n e).sync = s.sync := rfl
@[simp] theorem Dev.setLink_counters (n : Nat) (e : Link) :
    (s.setLink n e).counters = s.counters := rfl
@[simp] theorem Dev.setLink_free (n : Nat) (e : Link) :
    (s.setLink n e).free = s.free := rfl
@[simp] theorem Dev.setLink_power (n : Nat) (e : Link) :
    (s.setLink n e).power = s.power := rfl
@[simp] theorem Dev.setLink_rst (n : Nat) (e : Link) :
    (s.setLink n e).rst = s.rst := rfl
@[simp] theorem Dev.setLink_xclk (n : Nat) (e : Link) :
    (s.setLink n e).xclk = s.xclk := rfl
@[simp] theorem Dev.setLink_tickAt (n : Nat) (e : Link) :
    (s.setLink n e).tickAt = s.tickAt := rfl
@[simp] theorem Dev.setLink_slotAt (n : Nat) (e : Link) :
    (s.setLink n e).slotAt = s.slotAt := rfl
@[simp] theorem Dev.setLink_timeU (n : Nat) (e : Link) :
    (s.setLink n e).timeU = s.timeU := rfl
@[simp] theorem Dev.setLink_xclkOn (n : Nat) (e : Link) :
    (s.setLink n e).xclkOn = s.xclkOn := rfl
@[simp] theorem Dev.setLink_tb (n : Nat) (e : Link) :
    (s.setLink n e).tb = s.tb := rfl
@[simp] theorem Dev.setLink_ttos (n : Nat) (e : Link) :
    (s.setLink n e).ttos = s.ttos := rfl
@[simp] theorem Dev.setLink_encs (n : Nat) (e : Link) :
    (s.setLink n e).encs = s.encs := rfl
@[simp] theorem Dev.setLink_gens (n : Nat) (e : Link) :
    (s.setLink n e).gens = s.gens := rfl
@[simp] theorem Dev.setLink_trgs (n : Nat) (e : Link) :
    (s.setLink n e).trgs = s.trgs := rfl
@[simp] theorem Dev.setLink_est (n : Nat) (e : Link) :
    (s.setLink n e).est = s.est := rfl
@[simp] theorem Dev.setLink_lmOffset (n : Nat) (e : Link) :
    (s.setLink n e).lmOffset = s.lmOffset := rfl
@[simp] theorem Dev.setLink_peak (n : Nat) (e : Link) :
    (s.setLink n e).peak = s.peak := rfl
@[simp] theorem Dev.setLink_marks (n : Nat) (e : Link) :
    (s.setLink n e).marks = s.marks := rfl
@[simp] theorem Dev.setLink_lanes (n : Nat) (e : Link) :
    (s.setLink n e).lanes = s.lanes := rfl
@[simp] theorem Dev.setLink_parts (n : Nat) (e : Link) :
    (s.setLink n e).parts = s.parts := rfl
@[simp] theorem Dev.setLink_nextId (n : Nat) (e : Link) :
    (s.setLink n e).nextId = s.nextId := rfl
@[simp] theorem Dev.setLink_lostIds (n : Nat) (e : Link) :
    (s.setLink n e).lostIds = s.lostIds := rfl
@[simp] theorem Dev.setLink_slots (n : Nat) (e : Link) :
    (s.setLink n e).slots = s.slots := rfl
@[simp] theorem Dev.setLink_slotNow (n : Nat) (e : Link) :
    (s.setLink n e).slotNow = s.slotNow := rfl
@[simp] theorem Dev.setLink_slotFrom (n : Nat) (e : Link) :
    (s.setLink n e).slotFrom = s.slotFrom := rfl
@[simp] theorem Dev.setLink_slotPast (n : Nat) (e : Link) :
    (s.setLink n e).slotPast = s.slotPast := rfl
@[simp] theorem Dev.setLink_slotNext (n : Nat) (e : Link) :
    (s.setLink n e).slotNext = s.slotNext := rfl
@[simp] theorem Dev.setLink_fires (n : Nat) (e : Link) :
    (s.setLink n e).fires = s.fires := rfl
@[simp] theorem Dev.setLink_nextRun (n : Nat) (e : Link) :
    (s.setLink n e).nextRun = s.nextRun := rfl
@[simp] theorem Dev.setLink_barrier (n : Nat) (e : Link) :
    (s.setLink n e).barrier = s.barrier := rfl
@[simp] theorem Dev.setLink_die (n : Nat) (e : Link) :
    (s.setLink n e).die = s.die := rfl
@[simp] theorem Dev.setLink_ctxs (n : Nat) (e : Link) :
    (s.setLink n e).ctxs = s.ctxs := rfl
@[simp] theorem Dev.setLink_pipes (n : Nat) (e : Link) :
    (s.setLink n e).pipes = s.pipes := rfl
@[simp] theorem Dev.setLink_pipesOn (n : Nat) (e : Link) :
    (s.setLink n e).pipesOn = s.pipesOn := rfl
@[simp] theorem Dev.setLink_lineSeq (n : Nat) (e : Link) :
    (s.setLink n e).lineSeq = s.lineSeq := rfl
@[simp] theorem Dev.setLink_fusions (n : Nat) (e : Link) :
    (s.setLink n e).fusions = s.fusions := rfl
@[simp] theorem Dev.setLink_churns (n : Nat) (e : Link) :
    (s.setLink n e).churns = s.churns := rfl
@[simp] theorem Dev.setLink_jobs (n : Nat) (e : Link) :
    (s.setLink n e).jobs = s.jobs := rfl
@[simp] theorem Dev.setLink_jobSeq (n : Nat) (e : Link) :
    (s.setLink n e).jobSeq = s.jobSeq := rfl
@[simp] theorem Dev.setLink_lastQueue (n : Nat) (e : Link) :
    (s.setLink n e).lastQueue = s.lastQueue := rfl
@[simp] theorem Dev.setLink_lastTeach (n : Nat) (e : Link) :
    (s.setLink n e).lastTeach = s.lastTeach := rfl
@[simp] theorem Dev.setLink_saves (n : Nat) (e : Link) :
    (s.setLink n e).saves = s.saves := rfl
@[simp] theorem Dev.setLink_saveSeq (n : Nat) (e : Link) :
    (s.setLink n e).saveSeq = s.saveSeq := rfl
@[simp] theorem Dev.setLink_fixing (n : Nat) (e : Link) :
    (s.setLink n e).fixing = s.fixing := rfl
@[simp] theorem Dev.setLink_runHit (n : Nat) (e : Link) :
    (s.setLink n e).runHit = s.runHit := rfl
@[simp] theorem Dev.setLink_faultq (n : Nat) (e : Link) :
    (s.setLink n e).faultq = s.faultq := rfl
@[simp] theorem Dev.setLink_posted (n : Nat) (e : Link) :
    (s.setLink n e).posted = s.posted := rfl
@[simp] theorem Dev.setLink_tlb (n : Nat) (e : Link) :
    (s.setLink n e).tlb = s.tlb := rfl
@[simp] theorem Dev.setLink_invals (n : Nat) (e : Link) :
    (s.setLink n e).invals = s.invals := rfl
@[simp] theorem Dev.setLink_scrubLine (n : Nat) (e : Link) :
    (s.setLink n e).scrubLine = s.scrubLine := rfl
@[simp] theorem Dev.setLink_pcieUp (n : Nat) (e : Link) :
    (s.setLink n e).pcieUp = s.pcieUp := rfl
@[simp] theorem Dev.setLink_rules (n : Nat) (e : Link) :
    (s.setLink n e).rules = s.rules := rfl
@[simp] theorem Dev.setLink_ring (n : Nat) (e : Link) :
    (s.setLink n e).ring = s.ring := rfl
@[simp] theorem Dev.setLink_libUsed (n : Nat) (e : Link) :
    (s.setLink n e).libUsed = s.libUsed := rfl
@[simp] theorem Dev.setLink_batch (n : Nat) (e : Link) :
    (s.setLink n e).batch = s.batch := rfl
@[simp] theorem Dev.setLink_lastDec (n : Nat) (e : Link) :
    (s.setLink n e).lastDec = s.lastDec := rfl
@[simp] theorem Dev.setLink_capUsed (n : Nat) (e : Link) :
    (s.setLink n e).capUsed = s.capUsed := rfl
@[simp] theorem Dev.setLink_validating (n : Nat) (e : Link) :
    (s.setLink n e).validating = s.validating := rfl
@[simp] theorem Dev.setLink_herd (n : Nat) (e : Link) :
    (s.setLink n e).herd = s.herd := rfl
@[simp] theorem Dev.setLink_zports (n : Nat) (e : Link) :
    (s.setLink n e).zports = s.zports := rfl
@[simp] theorem Dev.setLink_svc (n : Nat) (e : Link) :
    (s.setLink n e).svc = s.svc := rfl
@[simp] theorem Dev.setLink_mlk (n : Nat) (e : Link) :
    (s.setLink n e).mlk = s.mlk := rfl
@[simp] theorem Dev.setLink_trace (n : Nat) (e : Link) :
    (s.setLink n e).trace = s.trace := rfl
@[simp] theorem Dev.setLink_out (n : Nat) (e : Link) :
    (s.setLink n e).out = s.out := rfl
@[simp] theorem Dev.setLink_rd (n : Nat) (e : Link) (f : Field) (i : Nat) :
    (s.setLink n e).rd f i = s.rd f i := rfl
@[simp] theorem Dev.setCtx_regs (c : Nat) (e : StreamCtx) :
    (s.setCtx c e).regs = s.regs := rfl
@[simp] theorem Dev.setCtx_voteB (c : Nat) (e : StreamCtx) :
    (s.setCtx c e).voteB = s.voteB := rfl
@[simp] theorem Dev.setCtx_voteC (c : Nat) (e : StreamCtx) :
    (s.setCtx c e).voteC = s.voteC := rfl
@[simp] theorem Dev.setCtx_od (c : Nat) (e : StreamCtx) :
    (s.setCtx c e).od = s.od := rfl
@[simp] theorem Dev.setCtx_nvm (c : Nat) (e : StreamCtx) :
    (s.setCtx c e).nvm = s.nvm := rfl
@[simp] theorem Dev.setCtx_mem (c : Nat) (e : StreamCtx) :
    (s.setCtx c e).mem = s.mem := rfl
@[simp] theorem Dev.setCtx_bar (c : Nat) (e : StreamCtx) :
    (s.setCtx c e).bar = s.bar := rfl
@[simp] theorem Dev.setCtx_sync (c : Nat) (e : StreamCtx) :
    (s.setCtx c e).sync = s.sync := rfl
@[simp] theorem Dev.setCtx_counters (c : Nat) (e : StreamCtx) :
    (s.setCtx c e).counters = s.counters := rfl
@[simp] theorem Dev.setCtx_free (c : Nat) (e : StreamCtx) :
    (s.setCtx c e).free = s.free := rfl
@[simp] theorem Dev.setCtx_power (c : Nat) (e : StreamCtx) :
    (s.setCtx c e).power = s.power := rfl
@[simp] theorem Dev.setCtx_rst (c : Nat) (e : StreamCtx) :
    (s.setCtx c e).rst = s.rst := rfl
@[simp] theorem Dev.setCtx_xclk (c : Nat) (e : StreamCtx) :
    (s.setCtx c e).xclk = s.xclk := rfl
@[simp] theorem Dev.setCtx_tickAt (c : Nat) (e : StreamCtx) :
    (s.setCtx c e).tickAt = s.tickAt := rfl
@[simp] theorem Dev.setCtx_slotAt (c : Nat) (e : StreamCtx) :
    (s.setCtx c e).slotAt = s.slotAt := rfl
@[simp] theorem Dev.setCtx_timeU (c : Nat) (e : StreamCtx) :
    (s.setCtx c e).timeU = s.timeU := rfl
@[simp] theorem Dev.setCtx_xclkOn (c : Nat) (e : StreamCtx) :
    (s.setCtx c e).xclkOn = s.xclkOn := rfl
@[simp] theorem Dev.setCtx_tb (c : Nat) (e : StreamCtx) :
    (s.setCtx c e).tb = s.tb := rfl
@[simp] theorem Dev.setCtx_ttos (c : Nat) (e : StreamCtx) :
    (s.setCtx c e).ttos = s.ttos := rfl
@[simp] theorem Dev.setCtx_encs (c : Nat) (e : StreamCtx) :
    (s.setCtx c e).encs = s.encs := rfl
@[simp] theorem Dev.setCtx_gens (c : Nat) (e : StreamCtx) :
    (s.setCtx c e).gens = s.gens := rfl
@[simp] theorem Dev.setCtx_trgs (c : Nat) (e : StreamCtx) :
    (s.setCtx c e).trgs = s.trgs := rfl
@[simp] theorem Dev.setCtx_est (c : Nat) (e : StreamCtx) :
    (s.setCtx c e).est = s.est := rfl
@[simp] theorem Dev.setCtx_lmOffset (c : Nat) (e : StreamCtx) :
    (s.setCtx c e).lmOffset = s.lmOffset := rfl
@[simp] theorem Dev.setCtx_peak (c : Nat) (e : StreamCtx) :
    (s.setCtx c e).peak = s.peak := rfl
@[simp] theorem Dev.setCtx_marks (c : Nat) (e : StreamCtx) :
    (s.setCtx c e).marks = s.marks := rfl
@[simp] theorem Dev.setCtx_lanes (c : Nat) (e : StreamCtx) :
    (s.setCtx c e).lanes = s.lanes := rfl
@[simp] theorem Dev.setCtx_parts (c : Nat) (e : StreamCtx) :
    (s.setCtx c e).parts = s.parts := rfl
@[simp] theorem Dev.setCtx_nextId (c : Nat) (e : StreamCtx) :
    (s.setCtx c e).nextId = s.nextId := rfl
@[simp] theorem Dev.setCtx_lostIds (c : Nat) (e : StreamCtx) :
    (s.setCtx c e).lostIds = s.lostIds := rfl
@[simp] theorem Dev.setCtx_slots (c : Nat) (e : StreamCtx) :
    (s.setCtx c e).slots = s.slots := rfl
@[simp] theorem Dev.setCtx_slotNow (c : Nat) (e : StreamCtx) :
    (s.setCtx c e).slotNow = s.slotNow := rfl
@[simp] theorem Dev.setCtx_slotFrom (c : Nat) (e : StreamCtx) :
    (s.setCtx c e).slotFrom = s.slotFrom := rfl
@[simp] theorem Dev.setCtx_slotPast (c : Nat) (e : StreamCtx) :
    (s.setCtx c e).slotPast = s.slotPast := rfl
@[simp] theorem Dev.setCtx_slotNext (c : Nat) (e : StreamCtx) :
    (s.setCtx c e).slotNext = s.slotNext := rfl
@[simp] theorem Dev.setCtx_fires (c : Nat) (e : StreamCtx) :
    (s.setCtx c e).fires = s.fires := rfl
@[simp] theorem Dev.setCtx_nextRun (c : Nat) (e : StreamCtx) :
    (s.setCtx c e).nextRun = s.nextRun := rfl
@[simp] theorem Dev.setCtx_barrier (c : Nat) (e : StreamCtx) :
    (s.setCtx c e).barrier = s.barrier := rfl
@[simp] theorem Dev.setCtx_die (c : Nat) (e : StreamCtx) :
    (s.setCtx c e).die = s.die := rfl
@[simp] theorem Dev.setCtx_links (c : Nat) (e : StreamCtx) :
    (s.setCtx c e).links = s.links := rfl
@[simp] theorem Dev.setCtx_pipes (c : Nat) (e : StreamCtx) :
    (s.setCtx c e).pipes = s.pipes := rfl
@[simp] theorem Dev.setCtx_pipesOn (c : Nat) (e : StreamCtx) :
    (s.setCtx c e).pipesOn = s.pipesOn := rfl
@[simp] theorem Dev.setCtx_lineSeq (c : Nat) (e : StreamCtx) :
    (s.setCtx c e).lineSeq = s.lineSeq := rfl
@[simp] theorem Dev.setCtx_fusions (c : Nat) (e : StreamCtx) :
    (s.setCtx c e).fusions = s.fusions := rfl
@[simp] theorem Dev.setCtx_churns (c : Nat) (e : StreamCtx) :
    (s.setCtx c e).churns = s.churns := rfl
@[simp] theorem Dev.setCtx_jobs (c : Nat) (e : StreamCtx) :
    (s.setCtx c e).jobs = s.jobs := rfl
@[simp] theorem Dev.setCtx_jobSeq (c : Nat) (e : StreamCtx) :
    (s.setCtx c e).jobSeq = s.jobSeq := rfl
@[simp] theorem Dev.setCtx_lastQueue (c : Nat) (e : StreamCtx) :
    (s.setCtx c e).lastQueue = s.lastQueue := rfl
@[simp] theorem Dev.setCtx_lastTeach (c : Nat) (e : StreamCtx) :
    (s.setCtx c e).lastTeach = s.lastTeach := rfl
@[simp] theorem Dev.setCtx_saves (c : Nat) (e : StreamCtx) :
    (s.setCtx c e).saves = s.saves := rfl
@[simp] theorem Dev.setCtx_saveSeq (c : Nat) (e : StreamCtx) :
    (s.setCtx c e).saveSeq = s.saveSeq := rfl
@[simp] theorem Dev.setCtx_fixing (c : Nat) (e : StreamCtx) :
    (s.setCtx c e).fixing = s.fixing := rfl
@[simp] theorem Dev.setCtx_runHit (c : Nat) (e : StreamCtx) :
    (s.setCtx c e).runHit = s.runHit := rfl
@[simp] theorem Dev.setCtx_faultq (c : Nat) (e : StreamCtx) :
    (s.setCtx c e).faultq = s.faultq := rfl
@[simp] theorem Dev.setCtx_posted (c : Nat) (e : StreamCtx) :
    (s.setCtx c e).posted = s.posted := rfl
@[simp] theorem Dev.setCtx_tlb (c : Nat) (e : StreamCtx) :
    (s.setCtx c e).tlb = s.tlb := rfl
@[simp] theorem Dev.setCtx_invals (c : Nat) (e : StreamCtx) :
    (s.setCtx c e).invals = s.invals := rfl
@[simp] theorem Dev.setCtx_scrubLine (c : Nat) (e : StreamCtx) :
    (s.setCtx c e).scrubLine = s.scrubLine := rfl
@[simp] theorem Dev.setCtx_pcieUp (c : Nat) (e : StreamCtx) :
    (s.setCtx c e).pcieUp = s.pcieUp := rfl
@[simp] theorem Dev.setCtx_rules (c : Nat) (e : StreamCtx) :
    (s.setCtx c e).rules = s.rules := rfl
@[simp] theorem Dev.setCtx_ring (c : Nat) (e : StreamCtx) :
    (s.setCtx c e).ring = s.ring := rfl
@[simp] theorem Dev.setCtx_libUsed (c : Nat) (e : StreamCtx) :
    (s.setCtx c e).libUsed = s.libUsed := rfl
@[simp] theorem Dev.setCtx_batch (c : Nat) (e : StreamCtx) :
    (s.setCtx c e).batch = s.batch := rfl
@[simp] theorem Dev.setCtx_lastDec (c : Nat) (e : StreamCtx) :
    (s.setCtx c e).lastDec = s.lastDec := rfl
@[simp] theorem Dev.setCtx_capUsed (c : Nat) (e : StreamCtx) :
    (s.setCtx c e).capUsed = s.capUsed := rfl
@[simp] theorem Dev.setCtx_validating (c : Nat) (e : StreamCtx) :
    (s.setCtx c e).validating = s.validating := rfl
@[simp] theorem Dev.setCtx_herd (c : Nat) (e : StreamCtx) :
    (s.setCtx c e).herd = s.herd := rfl
@[simp] theorem Dev.setCtx_zports (c : Nat) (e : StreamCtx) :
    (s.setCtx c e).zports = s.zports := rfl
@[simp] theorem Dev.setCtx_svc (c : Nat) (e : StreamCtx) :
    (s.setCtx c e).svc = s.svc := rfl
@[simp] theorem Dev.setCtx_mlk (c : Nat) (e : StreamCtx) :
    (s.setCtx c e).mlk = s.mlk := rfl
@[simp] theorem Dev.setCtx_trace (c : Nat) (e : StreamCtx) :
    (s.setCtx c e).trace = s.trace := rfl
@[simp] theorem Dev.setCtx_out (c : Nat) (e : StreamCtx) :
    (s.setCtx c e).out = s.out := rfl
@[simp] theorem Dev.setCtx_rd (c : Nat) (e : StreamCtx) (f : Field) (i : Nat) :
    (s.setCtx c e).rd f i = s.rd f i := rfl
@[simp] theorem Dev.setFusion_regs (k : Nat) (e : Fusion) :
    (s.setFusion k e).regs = s.regs := rfl
@[simp] theorem Dev.setFusion_voteB (k : Nat) (e : Fusion) :
    (s.setFusion k e).voteB = s.voteB := rfl
@[simp] theorem Dev.setFusion_voteC (k : Nat) (e : Fusion) :
    (s.setFusion k e).voteC = s.voteC := rfl
@[simp] theorem Dev.setFusion_od (k : Nat) (e : Fusion) :
    (s.setFusion k e).od = s.od := rfl
@[simp] theorem Dev.setFusion_nvm (k : Nat) (e : Fusion) :
    (s.setFusion k e).nvm = s.nvm := rfl
@[simp] theorem Dev.setFusion_mem (k : Nat) (e : Fusion) :
    (s.setFusion k e).mem = s.mem := rfl
@[simp] theorem Dev.setFusion_bar (k : Nat) (e : Fusion) :
    (s.setFusion k e).bar = s.bar := rfl
@[simp] theorem Dev.setFusion_sync (k : Nat) (e : Fusion) :
    (s.setFusion k e).sync = s.sync := rfl
@[simp] theorem Dev.setFusion_counters (k : Nat) (e : Fusion) :
    (s.setFusion k e).counters = s.counters := rfl
@[simp] theorem Dev.setFusion_free (k : Nat) (e : Fusion) :
    (s.setFusion k e).free = s.free := rfl
@[simp] theorem Dev.setFusion_power (k : Nat) (e : Fusion) :
    (s.setFusion k e).power = s.power := rfl
@[simp] theorem Dev.setFusion_rst (k : Nat) (e : Fusion) :
    (s.setFusion k e).rst = s.rst := rfl
@[simp] theorem Dev.setFusion_xclk (k : Nat) (e : Fusion) :
    (s.setFusion k e).xclk = s.xclk := rfl
@[simp] theorem Dev.setFusion_tickAt (k : Nat) (e : Fusion) :
    (s.setFusion k e).tickAt = s.tickAt := rfl
@[simp] theorem Dev.setFusion_slotAt (k : Nat) (e : Fusion) :
    (s.setFusion k e).slotAt = s.slotAt := rfl
@[simp] theorem Dev.setFusion_timeU (k : Nat) (e : Fusion) :
    (s.setFusion k e).timeU = s.timeU := rfl
@[simp] theorem Dev.setFusion_xclkOn (k : Nat) (e : Fusion) :
    (s.setFusion k e).xclkOn = s.xclkOn := rfl
@[simp] theorem Dev.setFusion_tb (k : Nat) (e : Fusion) :
    (s.setFusion k e).tb = s.tb := rfl
@[simp] theorem Dev.setFusion_ttos (k : Nat) (e : Fusion) :
    (s.setFusion k e).ttos = s.ttos := rfl
@[simp] theorem Dev.setFusion_encs (k : Nat) (e : Fusion) :
    (s.setFusion k e).encs = s.encs := rfl
@[simp] theorem Dev.setFusion_gens (k : Nat) (e : Fusion) :
    (s.setFusion k e).gens = s.gens := rfl
@[simp] theorem Dev.setFusion_trgs (k : Nat) (e : Fusion) :
    (s.setFusion k e).trgs = s.trgs := rfl
@[simp] theorem Dev.setFusion_est (k : Nat) (e : Fusion) :
    (s.setFusion k e).est = s.est := rfl
@[simp] theorem Dev.setFusion_lmOffset (k : Nat) (e : Fusion) :
    (s.setFusion k e).lmOffset = s.lmOffset := rfl
@[simp] theorem Dev.setFusion_peak (k : Nat) (e : Fusion) :
    (s.setFusion k e).peak = s.peak := rfl
@[simp] theorem Dev.setFusion_marks (k : Nat) (e : Fusion) :
    (s.setFusion k e).marks = s.marks := rfl
@[simp] theorem Dev.setFusion_lanes (k : Nat) (e : Fusion) :
    (s.setFusion k e).lanes = s.lanes := rfl
@[simp] theorem Dev.setFusion_parts (k : Nat) (e : Fusion) :
    (s.setFusion k e).parts = s.parts := rfl
@[simp] theorem Dev.setFusion_nextId (k : Nat) (e : Fusion) :
    (s.setFusion k e).nextId = s.nextId := rfl
@[simp] theorem Dev.setFusion_lostIds (k : Nat) (e : Fusion) :
    (s.setFusion k e).lostIds = s.lostIds := rfl
@[simp] theorem Dev.setFusion_slots (k : Nat) (e : Fusion) :
    (s.setFusion k e).slots = s.slots := rfl
@[simp] theorem Dev.setFusion_slotNow (k : Nat) (e : Fusion) :
    (s.setFusion k e).slotNow = s.slotNow := rfl
@[simp] theorem Dev.setFusion_slotFrom (k : Nat) (e : Fusion) :
    (s.setFusion k e).slotFrom = s.slotFrom := rfl
@[simp] theorem Dev.setFusion_slotPast (k : Nat) (e : Fusion) :
    (s.setFusion k e).slotPast = s.slotPast := rfl
@[simp] theorem Dev.setFusion_slotNext (k : Nat) (e : Fusion) :
    (s.setFusion k e).slotNext = s.slotNext := rfl
@[simp] theorem Dev.setFusion_fires (k : Nat) (e : Fusion) :
    (s.setFusion k e).fires = s.fires := rfl
@[simp] theorem Dev.setFusion_nextRun (k : Nat) (e : Fusion) :
    (s.setFusion k e).nextRun = s.nextRun := rfl
@[simp] theorem Dev.setFusion_barrier (k : Nat) (e : Fusion) :
    (s.setFusion k e).barrier = s.barrier := rfl
@[simp] theorem Dev.setFusion_die (k : Nat) (e : Fusion) :
    (s.setFusion k e).die = s.die := rfl
@[simp] theorem Dev.setFusion_links (k : Nat) (e : Fusion) :
    (s.setFusion k e).links = s.links := rfl
@[simp] theorem Dev.setFusion_ctxs (k : Nat) (e : Fusion) :
    (s.setFusion k e).ctxs = s.ctxs := rfl
@[simp] theorem Dev.setFusion_pipes (k : Nat) (e : Fusion) :
    (s.setFusion k e).pipes = s.pipes := rfl
@[simp] theorem Dev.setFusion_pipesOn (k : Nat) (e : Fusion) :
    (s.setFusion k e).pipesOn = s.pipesOn := rfl
@[simp] theorem Dev.setFusion_lineSeq (k : Nat) (e : Fusion) :
    (s.setFusion k e).lineSeq = s.lineSeq := rfl
@[simp] theorem Dev.setFusion_churns (k : Nat) (e : Fusion) :
    (s.setFusion k e).churns = s.churns := rfl
@[simp] theorem Dev.setFusion_jobs (k : Nat) (e : Fusion) :
    (s.setFusion k e).jobs = s.jobs := rfl
@[simp] theorem Dev.setFusion_jobSeq (k : Nat) (e : Fusion) :
    (s.setFusion k e).jobSeq = s.jobSeq := rfl
@[simp] theorem Dev.setFusion_lastQueue (k : Nat) (e : Fusion) :
    (s.setFusion k e).lastQueue = s.lastQueue := rfl
@[simp] theorem Dev.setFusion_lastTeach (k : Nat) (e : Fusion) :
    (s.setFusion k e).lastTeach = s.lastTeach := rfl
@[simp] theorem Dev.setFusion_saves (k : Nat) (e : Fusion) :
    (s.setFusion k e).saves = s.saves := rfl
@[simp] theorem Dev.setFusion_saveSeq (k : Nat) (e : Fusion) :
    (s.setFusion k e).saveSeq = s.saveSeq := rfl
@[simp] theorem Dev.setFusion_fixing (k : Nat) (e : Fusion) :
    (s.setFusion k e).fixing = s.fixing := rfl
@[simp] theorem Dev.setFusion_runHit (k : Nat) (e : Fusion) :
    (s.setFusion k e).runHit = s.runHit := rfl
@[simp] theorem Dev.setFusion_faultq (k : Nat) (e : Fusion) :
    (s.setFusion k e).faultq = s.faultq := rfl
@[simp] theorem Dev.setFusion_posted (k : Nat) (e : Fusion) :
    (s.setFusion k e).posted = s.posted := rfl
@[simp] theorem Dev.setFusion_tlb (k : Nat) (e : Fusion) :
    (s.setFusion k e).tlb = s.tlb := rfl
@[simp] theorem Dev.setFusion_invals (k : Nat) (e : Fusion) :
    (s.setFusion k e).invals = s.invals := rfl
@[simp] theorem Dev.setFusion_scrubLine (k : Nat) (e : Fusion) :
    (s.setFusion k e).scrubLine = s.scrubLine := rfl
@[simp] theorem Dev.setFusion_pcieUp (k : Nat) (e : Fusion) :
    (s.setFusion k e).pcieUp = s.pcieUp := rfl
@[simp] theorem Dev.setFusion_rules (k : Nat) (e : Fusion) :
    (s.setFusion k e).rules = s.rules := rfl
@[simp] theorem Dev.setFusion_ring (k : Nat) (e : Fusion) :
    (s.setFusion k e).ring = s.ring := rfl
@[simp] theorem Dev.setFusion_libUsed (k : Nat) (e : Fusion) :
    (s.setFusion k e).libUsed = s.libUsed := rfl
@[simp] theorem Dev.setFusion_batch (k : Nat) (e : Fusion) :
    (s.setFusion k e).batch = s.batch := rfl
@[simp] theorem Dev.setFusion_lastDec (k : Nat) (e : Fusion) :
    (s.setFusion k e).lastDec = s.lastDec := rfl
@[simp] theorem Dev.setFusion_capUsed (k : Nat) (e : Fusion) :
    (s.setFusion k e).capUsed = s.capUsed := rfl
@[simp] theorem Dev.setFusion_validating (k : Nat) (e : Fusion) :
    (s.setFusion k e).validating = s.validating := rfl
@[simp] theorem Dev.setFusion_herd (k : Nat) (e : Fusion) :
    (s.setFusion k e).herd = s.herd := rfl
@[simp] theorem Dev.setFusion_zports (k : Nat) (e : Fusion) :
    (s.setFusion k e).zports = s.zports := rfl
@[simp] theorem Dev.setFusion_svc (k : Nat) (e : Fusion) :
    (s.setFusion k e).svc = s.svc := rfl
@[simp] theorem Dev.setFusion_mlk (k : Nat) (e : Fusion) :
    (s.setFusion k e).mlk = s.mlk := rfl
@[simp] theorem Dev.setFusion_trace (k : Nat) (e : Fusion) :
    (s.setFusion k e).trace = s.trace := rfl
@[simp] theorem Dev.setFusion_out (k : Nat) (e : Fusion) :
    (s.setFusion k e).out = s.out := rfl
@[simp] theorem Dev.setFusion_rd (k : Nat) (e : Fusion) (f : Field) (i : Nat) :
    (s.setFusion k e).rd f i = s.rd f i := rfl
@[simp] theorem Dev.setChurn_regs (n : Nat) (e : Churn) :
    (s.setChurn n e).regs = s.regs := rfl
@[simp] theorem Dev.setChurn_voteB (n : Nat) (e : Churn) :
    (s.setChurn n e).voteB = s.voteB := rfl
@[simp] theorem Dev.setChurn_voteC (n : Nat) (e : Churn) :
    (s.setChurn n e).voteC = s.voteC := rfl
@[simp] theorem Dev.setChurn_od (n : Nat) (e : Churn) :
    (s.setChurn n e).od = s.od := rfl
@[simp] theorem Dev.setChurn_nvm (n : Nat) (e : Churn) :
    (s.setChurn n e).nvm = s.nvm := rfl
@[simp] theorem Dev.setChurn_mem (n : Nat) (e : Churn) :
    (s.setChurn n e).mem = s.mem := rfl
@[simp] theorem Dev.setChurn_bar (n : Nat) (e : Churn) :
    (s.setChurn n e).bar = s.bar := rfl
@[simp] theorem Dev.setChurn_sync (n : Nat) (e : Churn) :
    (s.setChurn n e).sync = s.sync := rfl
@[simp] theorem Dev.setChurn_counters (n : Nat) (e : Churn) :
    (s.setChurn n e).counters = s.counters := rfl
@[simp] theorem Dev.setChurn_free (n : Nat) (e : Churn) :
    (s.setChurn n e).free = s.free := rfl
@[simp] theorem Dev.setChurn_power (n : Nat) (e : Churn) :
    (s.setChurn n e).power = s.power := rfl
@[simp] theorem Dev.setChurn_rst (n : Nat) (e : Churn) :
    (s.setChurn n e).rst = s.rst := rfl
@[simp] theorem Dev.setChurn_xclk (n : Nat) (e : Churn) :
    (s.setChurn n e).xclk = s.xclk := rfl
@[simp] theorem Dev.setChurn_tickAt (n : Nat) (e : Churn) :
    (s.setChurn n e).tickAt = s.tickAt := rfl
@[simp] theorem Dev.setChurn_slotAt (n : Nat) (e : Churn) :
    (s.setChurn n e).slotAt = s.slotAt := rfl
@[simp] theorem Dev.setChurn_timeU (n : Nat) (e : Churn) :
    (s.setChurn n e).timeU = s.timeU := rfl
@[simp] theorem Dev.setChurn_xclkOn (n : Nat) (e : Churn) :
    (s.setChurn n e).xclkOn = s.xclkOn := rfl
@[simp] theorem Dev.setChurn_tb (n : Nat) (e : Churn) :
    (s.setChurn n e).tb = s.tb := rfl
@[simp] theorem Dev.setChurn_ttos (n : Nat) (e : Churn) :
    (s.setChurn n e).ttos = s.ttos := rfl
@[simp] theorem Dev.setChurn_encs (n : Nat) (e : Churn) :
    (s.setChurn n e).encs = s.encs := rfl
@[simp] theorem Dev.setChurn_gens (n : Nat) (e : Churn) :
    (s.setChurn n e).gens = s.gens := rfl
@[simp] theorem Dev.setChurn_trgs (n : Nat) (e : Churn) :
    (s.setChurn n e).trgs = s.trgs := rfl
@[simp] theorem Dev.setChurn_est (n : Nat) (e : Churn) :
    (s.setChurn n e).est = s.est := rfl
@[simp] theorem Dev.setChurn_lmOffset (n : Nat) (e : Churn) :
    (s.setChurn n e).lmOffset = s.lmOffset := rfl
@[simp] theorem Dev.setChurn_peak (n : Nat) (e : Churn) :
    (s.setChurn n e).peak = s.peak := rfl
@[simp] theorem Dev.setChurn_marks (n : Nat) (e : Churn) :
    (s.setChurn n e).marks = s.marks := rfl
@[simp] theorem Dev.setChurn_lanes (n : Nat) (e : Churn) :
    (s.setChurn n e).lanes = s.lanes := rfl
@[simp] theorem Dev.setChurn_parts (n : Nat) (e : Churn) :
    (s.setChurn n e).parts = s.parts := rfl
@[simp] theorem Dev.setChurn_nextId (n : Nat) (e : Churn) :
    (s.setChurn n e).nextId = s.nextId := rfl
@[simp] theorem Dev.setChurn_lostIds (n : Nat) (e : Churn) :
    (s.setChurn n e).lostIds = s.lostIds := rfl
@[simp] theorem Dev.setChurn_slots (n : Nat) (e : Churn) :
    (s.setChurn n e).slots = s.slots := rfl
@[simp] theorem Dev.setChurn_slotNow (n : Nat) (e : Churn) :
    (s.setChurn n e).slotNow = s.slotNow := rfl
@[simp] theorem Dev.setChurn_slotFrom (n : Nat) (e : Churn) :
    (s.setChurn n e).slotFrom = s.slotFrom := rfl
@[simp] theorem Dev.setChurn_slotPast (n : Nat) (e : Churn) :
    (s.setChurn n e).slotPast = s.slotPast := rfl
@[simp] theorem Dev.setChurn_slotNext (n : Nat) (e : Churn) :
    (s.setChurn n e).slotNext = s.slotNext := rfl
@[simp] theorem Dev.setChurn_fires (n : Nat) (e : Churn) :
    (s.setChurn n e).fires = s.fires := rfl
@[simp] theorem Dev.setChurn_nextRun (n : Nat) (e : Churn) :
    (s.setChurn n e).nextRun = s.nextRun := rfl
@[simp] theorem Dev.setChurn_barrier (n : Nat) (e : Churn) :
    (s.setChurn n e).barrier = s.barrier := rfl
@[simp] theorem Dev.setChurn_die (n : Nat) (e : Churn) :
    (s.setChurn n e).die = s.die := rfl
@[simp] theorem Dev.setChurn_links (n : Nat) (e : Churn) :
    (s.setChurn n e).links = s.links := rfl
@[simp] theorem Dev.setChurn_ctxs (n : Nat) (e : Churn) :
    (s.setChurn n e).ctxs = s.ctxs := rfl
@[simp] theorem Dev.setChurn_pipes (n : Nat) (e : Churn) :
    (s.setChurn n e).pipes = s.pipes := rfl
@[simp] theorem Dev.setChurn_pipesOn (n : Nat) (e : Churn) :
    (s.setChurn n e).pipesOn = s.pipesOn := rfl
@[simp] theorem Dev.setChurn_lineSeq (n : Nat) (e : Churn) :
    (s.setChurn n e).lineSeq = s.lineSeq := rfl
@[simp] theorem Dev.setChurn_fusions (n : Nat) (e : Churn) :
    (s.setChurn n e).fusions = s.fusions := rfl
@[simp] theorem Dev.setChurn_jobs (n : Nat) (e : Churn) :
    (s.setChurn n e).jobs = s.jobs := rfl
@[simp] theorem Dev.setChurn_jobSeq (n : Nat) (e : Churn) :
    (s.setChurn n e).jobSeq = s.jobSeq := rfl
@[simp] theorem Dev.setChurn_lastQueue (n : Nat) (e : Churn) :
    (s.setChurn n e).lastQueue = s.lastQueue := rfl
@[simp] theorem Dev.setChurn_lastTeach (n : Nat) (e : Churn) :
    (s.setChurn n e).lastTeach = s.lastTeach := rfl
@[simp] theorem Dev.setChurn_saves (n : Nat) (e : Churn) :
    (s.setChurn n e).saves = s.saves := rfl
@[simp] theorem Dev.setChurn_saveSeq (n : Nat) (e : Churn) :
    (s.setChurn n e).saveSeq = s.saveSeq := rfl
@[simp] theorem Dev.setChurn_fixing (n : Nat) (e : Churn) :
    (s.setChurn n e).fixing = s.fixing := rfl
@[simp] theorem Dev.setChurn_runHit (n : Nat) (e : Churn) :
    (s.setChurn n e).runHit = s.runHit := rfl
@[simp] theorem Dev.setChurn_faultq (n : Nat) (e : Churn) :
    (s.setChurn n e).faultq = s.faultq := rfl
@[simp] theorem Dev.setChurn_posted (n : Nat) (e : Churn) :
    (s.setChurn n e).posted = s.posted := rfl
@[simp] theorem Dev.setChurn_tlb (n : Nat) (e : Churn) :
    (s.setChurn n e).tlb = s.tlb := rfl
@[simp] theorem Dev.setChurn_invals (n : Nat) (e : Churn) :
    (s.setChurn n e).invals = s.invals := rfl
@[simp] theorem Dev.setChurn_scrubLine (n : Nat) (e : Churn) :
    (s.setChurn n e).scrubLine = s.scrubLine := rfl
@[simp] theorem Dev.setChurn_pcieUp (n : Nat) (e : Churn) :
    (s.setChurn n e).pcieUp = s.pcieUp := rfl
@[simp] theorem Dev.setChurn_rules (n : Nat) (e : Churn) :
    (s.setChurn n e).rules = s.rules := rfl
@[simp] theorem Dev.setChurn_ring (n : Nat) (e : Churn) :
    (s.setChurn n e).ring = s.ring := rfl
@[simp] theorem Dev.setChurn_libUsed (n : Nat) (e : Churn) :
    (s.setChurn n e).libUsed = s.libUsed := rfl
@[simp] theorem Dev.setChurn_batch (n : Nat) (e : Churn) :
    (s.setChurn n e).batch = s.batch := rfl
@[simp] theorem Dev.setChurn_lastDec (n : Nat) (e : Churn) :
    (s.setChurn n e).lastDec = s.lastDec := rfl
@[simp] theorem Dev.setChurn_capUsed (n : Nat) (e : Churn) :
    (s.setChurn n e).capUsed = s.capUsed := rfl
@[simp] theorem Dev.setChurn_validating (n : Nat) (e : Churn) :
    (s.setChurn n e).validating = s.validating := rfl
@[simp] theorem Dev.setChurn_herd (n : Nat) (e : Churn) :
    (s.setChurn n e).herd = s.herd := rfl
@[simp] theorem Dev.setChurn_zports (n : Nat) (e : Churn) :
    (s.setChurn n e).zports = s.zports := rfl
@[simp] theorem Dev.setChurn_svc (n : Nat) (e : Churn) :
    (s.setChurn n e).svc = s.svc := rfl
@[simp] theorem Dev.setChurn_mlk (n : Nat) (e : Churn) :
    (s.setChurn n e).mlk = s.mlk := rfl
@[simp] theorem Dev.setChurn_trace (n : Nat) (e : Churn) :
    (s.setChurn n e).trace = s.trace := rfl
@[simp] theorem Dev.setChurn_out (n : Nat) (e : Churn) :
    (s.setChurn n e).out = s.out := rfl
@[simp] theorem Dev.setChurn_rd (n : Nat) (e : Churn) (f : Field) (i : Nat) :
    (s.setChurn n e).rd f i = s.rd f i := rfl
@[simp] theorem Dev.setZport_regs (p : Nat) (e : ZPort) :
    (s.setZport p e).regs = s.regs := rfl
@[simp] theorem Dev.setZport_voteB (p : Nat) (e : ZPort) :
    (s.setZport p e).voteB = s.voteB := rfl
@[simp] theorem Dev.setZport_voteC (p : Nat) (e : ZPort) :
    (s.setZport p e).voteC = s.voteC := rfl
@[simp] theorem Dev.setZport_od (p : Nat) (e : ZPort) :
    (s.setZport p e).od = s.od := rfl
@[simp] theorem Dev.setZport_nvm (p : Nat) (e : ZPort) :
    (s.setZport p e).nvm = s.nvm := rfl
@[simp] theorem Dev.setZport_mem (p : Nat) (e : ZPort) :
    (s.setZport p e).mem = s.mem := rfl
@[simp] theorem Dev.setZport_bar (p : Nat) (e : ZPort) :
    (s.setZport p e).bar = s.bar := rfl
@[simp] theorem Dev.setZport_sync (p : Nat) (e : ZPort) :
    (s.setZport p e).sync = s.sync := rfl
@[simp] theorem Dev.setZport_counters (p : Nat) (e : ZPort) :
    (s.setZport p e).counters = s.counters := rfl
@[simp] theorem Dev.setZport_free (p : Nat) (e : ZPort) :
    (s.setZport p e).free = s.free := rfl
@[simp] theorem Dev.setZport_power (p : Nat) (e : ZPort) :
    (s.setZport p e).power = s.power := rfl
@[simp] theorem Dev.setZport_rst (p : Nat) (e : ZPort) :
    (s.setZport p e).rst = s.rst := rfl
@[simp] theorem Dev.setZport_xclk (p : Nat) (e : ZPort) :
    (s.setZport p e).xclk = s.xclk := rfl
@[simp] theorem Dev.setZport_tickAt (p : Nat) (e : ZPort) :
    (s.setZport p e).tickAt = s.tickAt := rfl
@[simp] theorem Dev.setZport_slotAt (p : Nat) (e : ZPort) :
    (s.setZport p e).slotAt = s.slotAt := rfl
@[simp] theorem Dev.setZport_timeU (p : Nat) (e : ZPort) :
    (s.setZport p e).timeU = s.timeU := rfl
@[simp] theorem Dev.setZport_xclkOn (p : Nat) (e : ZPort) :
    (s.setZport p e).xclkOn = s.xclkOn := rfl
@[simp] theorem Dev.setZport_tb (p : Nat) (e : ZPort) :
    (s.setZport p e).tb = s.tb := rfl
@[simp] theorem Dev.setZport_ttos (p : Nat) (e : ZPort) :
    (s.setZport p e).ttos = s.ttos := rfl
@[simp] theorem Dev.setZport_encs (p : Nat) (e : ZPort) :
    (s.setZport p e).encs = s.encs := rfl
@[simp] theorem Dev.setZport_gens (p : Nat) (e : ZPort) :
    (s.setZport p e).gens = s.gens := rfl
@[simp] theorem Dev.setZport_trgs (p : Nat) (e : ZPort) :
    (s.setZport p e).trgs = s.trgs := rfl
@[simp] theorem Dev.setZport_est (p : Nat) (e : ZPort) :
    (s.setZport p e).est = s.est := rfl
@[simp] theorem Dev.setZport_lmOffset (p : Nat) (e : ZPort) :
    (s.setZport p e).lmOffset = s.lmOffset := rfl
@[simp] theorem Dev.setZport_peak (p : Nat) (e : ZPort) :
    (s.setZport p e).peak = s.peak := rfl
@[simp] theorem Dev.setZport_marks (p : Nat) (e : ZPort) :
    (s.setZport p e).marks = s.marks := rfl
@[simp] theorem Dev.setZport_lanes (p : Nat) (e : ZPort) :
    (s.setZport p e).lanes = s.lanes := rfl
@[simp] theorem Dev.setZport_parts (p : Nat) (e : ZPort) :
    (s.setZport p e).parts = s.parts := rfl
@[simp] theorem Dev.setZport_nextId (p : Nat) (e : ZPort) :
    (s.setZport p e).nextId = s.nextId := rfl
@[simp] theorem Dev.setZport_lostIds (p : Nat) (e : ZPort) :
    (s.setZport p e).lostIds = s.lostIds := rfl
@[simp] theorem Dev.setZport_slots (p : Nat) (e : ZPort) :
    (s.setZport p e).slots = s.slots := rfl
@[simp] theorem Dev.setZport_slotNow (p : Nat) (e : ZPort) :
    (s.setZport p e).slotNow = s.slotNow := rfl
@[simp] theorem Dev.setZport_slotFrom (p : Nat) (e : ZPort) :
    (s.setZport p e).slotFrom = s.slotFrom := rfl
@[simp] theorem Dev.setZport_slotPast (p : Nat) (e : ZPort) :
    (s.setZport p e).slotPast = s.slotPast := rfl
@[simp] theorem Dev.setZport_slotNext (p : Nat) (e : ZPort) :
    (s.setZport p e).slotNext = s.slotNext := rfl
@[simp] theorem Dev.setZport_fires (p : Nat) (e : ZPort) :
    (s.setZport p e).fires = s.fires := rfl
@[simp] theorem Dev.setZport_nextRun (p : Nat) (e : ZPort) :
    (s.setZport p e).nextRun = s.nextRun := rfl
@[simp] theorem Dev.setZport_barrier (p : Nat) (e : ZPort) :
    (s.setZport p e).barrier = s.barrier := rfl
@[simp] theorem Dev.setZport_die (p : Nat) (e : ZPort) :
    (s.setZport p e).die = s.die := rfl
@[simp] theorem Dev.setZport_links (p : Nat) (e : ZPort) :
    (s.setZport p e).links = s.links := rfl
@[simp] theorem Dev.setZport_ctxs (p : Nat) (e : ZPort) :
    (s.setZport p e).ctxs = s.ctxs := rfl
@[simp] theorem Dev.setZport_pipes (p : Nat) (e : ZPort) :
    (s.setZport p e).pipes = s.pipes := rfl
@[simp] theorem Dev.setZport_pipesOn (p : Nat) (e : ZPort) :
    (s.setZport p e).pipesOn = s.pipesOn := rfl
@[simp] theorem Dev.setZport_lineSeq (p : Nat) (e : ZPort) :
    (s.setZport p e).lineSeq = s.lineSeq := rfl
@[simp] theorem Dev.setZport_fusions (p : Nat) (e : ZPort) :
    (s.setZport p e).fusions = s.fusions := rfl
@[simp] theorem Dev.setZport_churns (p : Nat) (e : ZPort) :
    (s.setZport p e).churns = s.churns := rfl
@[simp] theorem Dev.setZport_jobs (p : Nat) (e : ZPort) :
    (s.setZport p e).jobs = s.jobs := rfl
@[simp] theorem Dev.setZport_jobSeq (p : Nat) (e : ZPort) :
    (s.setZport p e).jobSeq = s.jobSeq := rfl
@[simp] theorem Dev.setZport_lastQueue (p : Nat) (e : ZPort) :
    (s.setZport p e).lastQueue = s.lastQueue := rfl
@[simp] theorem Dev.setZport_lastTeach (p : Nat) (e : ZPort) :
    (s.setZport p e).lastTeach = s.lastTeach := rfl
@[simp] theorem Dev.setZport_saves (p : Nat) (e : ZPort) :
    (s.setZport p e).saves = s.saves := rfl
@[simp] theorem Dev.setZport_saveSeq (p : Nat) (e : ZPort) :
    (s.setZport p e).saveSeq = s.saveSeq := rfl
@[simp] theorem Dev.setZport_fixing (p : Nat) (e : ZPort) :
    (s.setZport p e).fixing = s.fixing := rfl
@[simp] theorem Dev.setZport_runHit (p : Nat) (e : ZPort) :
    (s.setZport p e).runHit = s.runHit := rfl
@[simp] theorem Dev.setZport_faultq (p : Nat) (e : ZPort) :
    (s.setZport p e).faultq = s.faultq := rfl
@[simp] theorem Dev.setZport_posted (p : Nat) (e : ZPort) :
    (s.setZport p e).posted = s.posted := rfl
@[simp] theorem Dev.setZport_tlb (p : Nat) (e : ZPort) :
    (s.setZport p e).tlb = s.tlb := rfl
@[simp] theorem Dev.setZport_invals (p : Nat) (e : ZPort) :
    (s.setZport p e).invals = s.invals := rfl
@[simp] theorem Dev.setZport_scrubLine (p : Nat) (e : ZPort) :
    (s.setZport p e).scrubLine = s.scrubLine := rfl
@[simp] theorem Dev.setZport_pcieUp (p : Nat) (e : ZPort) :
    (s.setZport p e).pcieUp = s.pcieUp := rfl
@[simp] theorem Dev.setZport_rules (p : Nat) (e : ZPort) :
    (s.setZport p e).rules = s.rules := rfl
@[simp] theorem Dev.setZport_ring (p : Nat) (e : ZPort) :
    (s.setZport p e).ring = s.ring := rfl
@[simp] theorem Dev.setZport_libUsed (p : Nat) (e : ZPort) :
    (s.setZport p e).libUsed = s.libUsed := rfl
@[simp] theorem Dev.setZport_batch (p : Nat) (e : ZPort) :
    (s.setZport p e).batch = s.batch := rfl
@[simp] theorem Dev.setZport_lastDec (p : Nat) (e : ZPort) :
    (s.setZport p e).lastDec = s.lastDec := rfl
@[simp] theorem Dev.setZport_capUsed (p : Nat) (e : ZPort) :
    (s.setZport p e).capUsed = s.capUsed := rfl
@[simp] theorem Dev.setZport_validating (p : Nat) (e : ZPort) :
    (s.setZport p e).validating = s.validating := rfl
@[simp] theorem Dev.setZport_herd (p : Nat) (e : ZPort) :
    (s.setZport p e).herd = s.herd := rfl
@[simp] theorem Dev.setZport_svc (p : Nat) (e : ZPort) :
    (s.setZport p e).svc = s.svc := rfl
@[simp] theorem Dev.setZport_mlk (p : Nat) (e : ZPort) :
    (s.setZport p e).mlk = s.mlk := rfl
@[simp] theorem Dev.setZport_trace (p : Nat) (e : ZPort) :
    (s.setZport p e).trace = s.trace := rfl
@[simp] theorem Dev.setZport_out (p : Nat) (e : ZPort) :
    (s.setZport p e).out = s.out := rfl
@[simp] theorem Dev.setZport_rd (p : Nat) (e : ZPort) (f : Field) (i : Nat) :
    (s.setZport p e).rd f i = s.rd f i := rfl
@[simp] theorem Dev.setTto_regs (t : Nat) (e : Tto) :
    (s.setTto t e).regs = s.regs := rfl
@[simp] theorem Dev.setTto_voteB (t : Nat) (e : Tto) :
    (s.setTto t e).voteB = s.voteB := rfl
@[simp] theorem Dev.setTto_voteC (t : Nat) (e : Tto) :
    (s.setTto t e).voteC = s.voteC := rfl
@[simp] theorem Dev.setTto_od (t : Nat) (e : Tto) :
    (s.setTto t e).od = s.od := rfl
@[simp] theorem Dev.setTto_nvm (t : Nat) (e : Tto) :
    (s.setTto t e).nvm = s.nvm := rfl
@[simp] theorem Dev.setTto_mem (t : Nat) (e : Tto) :
    (s.setTto t e).mem = s.mem := rfl
@[simp] theorem Dev.setTto_bar (t : Nat) (e : Tto) :
    (s.setTto t e).bar = s.bar := rfl
@[simp] theorem Dev.setTto_sync (t : Nat) (e : Tto) :
    (s.setTto t e).sync = s.sync := rfl
@[simp] theorem Dev.setTto_counters (t : Nat) (e : Tto) :
    (s.setTto t e).counters = s.counters := rfl
@[simp] theorem Dev.setTto_free (t : Nat) (e : Tto) :
    (s.setTto t e).free = s.free := rfl
@[simp] theorem Dev.setTto_power (t : Nat) (e : Tto) :
    (s.setTto t e).power = s.power := rfl
@[simp] theorem Dev.setTto_rst (t : Nat) (e : Tto) :
    (s.setTto t e).rst = s.rst := rfl
@[simp] theorem Dev.setTto_xclk (t : Nat) (e : Tto) :
    (s.setTto t e).xclk = s.xclk := rfl
@[simp] theorem Dev.setTto_tickAt (t : Nat) (e : Tto) :
    (s.setTto t e).tickAt = s.tickAt := rfl
@[simp] theorem Dev.setTto_slotAt (t : Nat) (e : Tto) :
    (s.setTto t e).slotAt = s.slotAt := rfl
@[simp] theorem Dev.setTto_timeU (t : Nat) (e : Tto) :
    (s.setTto t e).timeU = s.timeU := rfl
@[simp] theorem Dev.setTto_xclkOn (t : Nat) (e : Tto) :
    (s.setTto t e).xclkOn = s.xclkOn := rfl
@[simp] theorem Dev.setTto_tb (t : Nat) (e : Tto) :
    (s.setTto t e).tb = s.tb := rfl
@[simp] theorem Dev.setTto_encs (t : Nat) (e : Tto) :
    (s.setTto t e).encs = s.encs := rfl
@[simp] theorem Dev.setTto_gens (t : Nat) (e : Tto) :
    (s.setTto t e).gens = s.gens := rfl
@[simp] theorem Dev.setTto_trgs (t : Nat) (e : Tto) :
    (s.setTto t e).trgs = s.trgs := rfl
@[simp] theorem Dev.setTto_est (t : Nat) (e : Tto) :
    (s.setTto t e).est = s.est := rfl
@[simp] theorem Dev.setTto_lmOffset (t : Nat) (e : Tto) :
    (s.setTto t e).lmOffset = s.lmOffset := rfl
@[simp] theorem Dev.setTto_peak (t : Nat) (e : Tto) :
    (s.setTto t e).peak = s.peak := rfl
@[simp] theorem Dev.setTto_marks (t : Nat) (e : Tto) :
    (s.setTto t e).marks = s.marks := rfl
@[simp] theorem Dev.setTto_lanes (t : Nat) (e : Tto) :
    (s.setTto t e).lanes = s.lanes := rfl
@[simp] theorem Dev.setTto_parts (t : Nat) (e : Tto) :
    (s.setTto t e).parts = s.parts := rfl
@[simp] theorem Dev.setTto_nextId (t : Nat) (e : Tto) :
    (s.setTto t e).nextId = s.nextId := rfl
@[simp] theorem Dev.setTto_lostIds (t : Nat) (e : Tto) :
    (s.setTto t e).lostIds = s.lostIds := rfl
@[simp] theorem Dev.setTto_slots (t : Nat) (e : Tto) :
    (s.setTto t e).slots = s.slots := rfl
@[simp] theorem Dev.setTto_slotNow (t : Nat) (e : Tto) :
    (s.setTto t e).slotNow = s.slotNow := rfl
@[simp] theorem Dev.setTto_slotFrom (t : Nat) (e : Tto) :
    (s.setTto t e).slotFrom = s.slotFrom := rfl
@[simp] theorem Dev.setTto_slotPast (t : Nat) (e : Tto) :
    (s.setTto t e).slotPast = s.slotPast := rfl
@[simp] theorem Dev.setTto_slotNext (t : Nat) (e : Tto) :
    (s.setTto t e).slotNext = s.slotNext := rfl
@[simp] theorem Dev.setTto_fires (t : Nat) (e : Tto) :
    (s.setTto t e).fires = s.fires := rfl
@[simp] theorem Dev.setTto_nextRun (t : Nat) (e : Tto) :
    (s.setTto t e).nextRun = s.nextRun := rfl
@[simp] theorem Dev.setTto_barrier (t : Nat) (e : Tto) :
    (s.setTto t e).barrier = s.barrier := rfl
@[simp] theorem Dev.setTto_die (t : Nat) (e : Tto) :
    (s.setTto t e).die = s.die := rfl
@[simp] theorem Dev.setTto_links (t : Nat) (e : Tto) :
    (s.setTto t e).links = s.links := rfl
@[simp] theorem Dev.setTto_ctxs (t : Nat) (e : Tto) :
    (s.setTto t e).ctxs = s.ctxs := rfl
@[simp] theorem Dev.setTto_pipes (t : Nat) (e : Tto) :
    (s.setTto t e).pipes = s.pipes := rfl
@[simp] theorem Dev.setTto_pipesOn (t : Nat) (e : Tto) :
    (s.setTto t e).pipesOn = s.pipesOn := rfl
@[simp] theorem Dev.setTto_lineSeq (t : Nat) (e : Tto) :
    (s.setTto t e).lineSeq = s.lineSeq := rfl
@[simp] theorem Dev.setTto_fusions (t : Nat) (e : Tto) :
    (s.setTto t e).fusions = s.fusions := rfl
@[simp] theorem Dev.setTto_churns (t : Nat) (e : Tto) :
    (s.setTto t e).churns = s.churns := rfl
@[simp] theorem Dev.setTto_jobs (t : Nat) (e : Tto) :
    (s.setTto t e).jobs = s.jobs := rfl
@[simp] theorem Dev.setTto_jobSeq (t : Nat) (e : Tto) :
    (s.setTto t e).jobSeq = s.jobSeq := rfl
@[simp] theorem Dev.setTto_lastQueue (t : Nat) (e : Tto) :
    (s.setTto t e).lastQueue = s.lastQueue := rfl
@[simp] theorem Dev.setTto_lastTeach (t : Nat) (e : Tto) :
    (s.setTto t e).lastTeach = s.lastTeach := rfl
@[simp] theorem Dev.setTto_saves (t : Nat) (e : Tto) :
    (s.setTto t e).saves = s.saves := rfl
@[simp] theorem Dev.setTto_saveSeq (t : Nat) (e : Tto) :
    (s.setTto t e).saveSeq = s.saveSeq := rfl
@[simp] theorem Dev.setTto_fixing (t : Nat) (e : Tto) :
    (s.setTto t e).fixing = s.fixing := rfl
@[simp] theorem Dev.setTto_runHit (t : Nat) (e : Tto) :
    (s.setTto t e).runHit = s.runHit := rfl
@[simp] theorem Dev.setTto_faultq (t : Nat) (e : Tto) :
    (s.setTto t e).faultq = s.faultq := rfl
@[simp] theorem Dev.setTto_posted (t : Nat) (e : Tto) :
    (s.setTto t e).posted = s.posted := rfl
@[simp] theorem Dev.setTto_tlb (t : Nat) (e : Tto) :
    (s.setTto t e).tlb = s.tlb := rfl
@[simp] theorem Dev.setTto_invals (t : Nat) (e : Tto) :
    (s.setTto t e).invals = s.invals := rfl
@[simp] theorem Dev.setTto_scrubLine (t : Nat) (e : Tto) :
    (s.setTto t e).scrubLine = s.scrubLine := rfl
@[simp] theorem Dev.setTto_pcieUp (t : Nat) (e : Tto) :
    (s.setTto t e).pcieUp = s.pcieUp := rfl
@[simp] theorem Dev.setTto_rules (t : Nat) (e : Tto) :
    (s.setTto t e).rules = s.rules := rfl
@[simp] theorem Dev.setTto_ring (t : Nat) (e : Tto) :
    (s.setTto t e).ring = s.ring := rfl
@[simp] theorem Dev.setTto_libUsed (t : Nat) (e : Tto) :
    (s.setTto t e).libUsed = s.libUsed := rfl
@[simp] theorem Dev.setTto_batch (t : Nat) (e : Tto) :
    (s.setTto t e).batch = s.batch := rfl
@[simp] theorem Dev.setTto_lastDec (t : Nat) (e : Tto) :
    (s.setTto t e).lastDec = s.lastDec := rfl
@[simp] theorem Dev.setTto_capUsed (t : Nat) (e : Tto) :
    (s.setTto t e).capUsed = s.capUsed := rfl
@[simp] theorem Dev.setTto_validating (t : Nat) (e : Tto) :
    (s.setTto t e).validating = s.validating := rfl
@[simp] theorem Dev.setTto_herd (t : Nat) (e : Tto) :
    (s.setTto t e).herd = s.herd := rfl
@[simp] theorem Dev.setTto_zports (t : Nat) (e : Tto) :
    (s.setTto t e).zports = s.zports := rfl
@[simp] theorem Dev.setTto_svc (t : Nat) (e : Tto) :
    (s.setTto t e).svc = s.svc := rfl
@[simp] theorem Dev.setTto_mlk (t : Nat) (e : Tto) :
    (s.setTto t e).mlk = s.mlk := rfl
@[simp] theorem Dev.setTto_trace (t : Nat) (e : Tto) :
    (s.setTto t e).trace = s.trace := rfl
@[simp] theorem Dev.setTto_out (t : Nat) (e : Tto) :
    (s.setTto t e).out = s.out := rfl
@[simp] theorem Dev.setTto_rd (t : Nat) (e : Tto) (f : Field) (i : Nat) :
    (s.setTto t e).rd f i = s.rd f i := rfl
@[simp] theorem Dev.setRule_regs (r : Nat) (e : Rule) :
    (s.setRule r e).regs = s.regs := rfl
@[simp] theorem Dev.setRule_voteB (r : Nat) (e : Rule) :
    (s.setRule r e).voteB = s.voteB := rfl
@[simp] theorem Dev.setRule_voteC (r : Nat) (e : Rule) :
    (s.setRule r e).voteC = s.voteC := rfl
@[simp] theorem Dev.setRule_od (r : Nat) (e : Rule) :
    (s.setRule r e).od = s.od := rfl
@[simp] theorem Dev.setRule_nvm (r : Nat) (e : Rule) :
    (s.setRule r e).nvm = s.nvm := rfl
@[simp] theorem Dev.setRule_mem (r : Nat) (e : Rule) :
    (s.setRule r e).mem = s.mem := rfl
@[simp] theorem Dev.setRule_bar (r : Nat) (e : Rule) :
    (s.setRule r e).bar = s.bar := rfl
@[simp] theorem Dev.setRule_sync (r : Nat) (e : Rule) :
    (s.setRule r e).sync = s.sync := rfl
@[simp] theorem Dev.setRule_counters (r : Nat) (e : Rule) :
    (s.setRule r e).counters = s.counters := rfl
@[simp] theorem Dev.setRule_free (r : Nat) (e : Rule) :
    (s.setRule r e).free = s.free := rfl
@[simp] theorem Dev.setRule_power (r : Nat) (e : Rule) :
    (s.setRule r e).power = s.power := rfl
@[simp] theorem Dev.setRule_rst (r : Nat) (e : Rule) :
    (s.setRule r e).rst = s.rst := rfl
@[simp] theorem Dev.setRule_xclk (r : Nat) (e : Rule) :
    (s.setRule r e).xclk = s.xclk := rfl
@[simp] theorem Dev.setRule_tickAt (r : Nat) (e : Rule) :
    (s.setRule r e).tickAt = s.tickAt := rfl
@[simp] theorem Dev.setRule_slotAt (r : Nat) (e : Rule) :
    (s.setRule r e).slotAt = s.slotAt := rfl
@[simp] theorem Dev.setRule_timeU (r : Nat) (e : Rule) :
    (s.setRule r e).timeU = s.timeU := rfl
@[simp] theorem Dev.setRule_xclkOn (r : Nat) (e : Rule) :
    (s.setRule r e).xclkOn = s.xclkOn := rfl
@[simp] theorem Dev.setRule_tb (r : Nat) (e : Rule) :
    (s.setRule r e).tb = s.tb := rfl
@[simp] theorem Dev.setRule_ttos (r : Nat) (e : Rule) :
    (s.setRule r e).ttos = s.ttos := rfl
@[simp] theorem Dev.setRule_encs (r : Nat) (e : Rule) :
    (s.setRule r e).encs = s.encs := rfl
@[simp] theorem Dev.setRule_gens (r : Nat) (e : Rule) :
    (s.setRule r e).gens = s.gens := rfl
@[simp] theorem Dev.setRule_trgs (r : Nat) (e : Rule) :
    (s.setRule r e).trgs = s.trgs := rfl
@[simp] theorem Dev.setRule_est (r : Nat) (e : Rule) :
    (s.setRule r e).est = s.est := rfl
@[simp] theorem Dev.setRule_lmOffset (r : Nat) (e : Rule) :
    (s.setRule r e).lmOffset = s.lmOffset := rfl
@[simp] theorem Dev.setRule_peak (r : Nat) (e : Rule) :
    (s.setRule r e).peak = s.peak := rfl
@[simp] theorem Dev.setRule_marks (r : Nat) (e : Rule) :
    (s.setRule r e).marks = s.marks := rfl
@[simp] theorem Dev.setRule_lanes (r : Nat) (e : Rule) :
    (s.setRule r e).lanes = s.lanes := rfl
@[simp] theorem Dev.setRule_parts (r : Nat) (e : Rule) :
    (s.setRule r e).parts = s.parts := rfl
@[simp] theorem Dev.setRule_nextId (r : Nat) (e : Rule) :
    (s.setRule r e).nextId = s.nextId := rfl
@[simp] theorem Dev.setRule_lostIds (r : Nat) (e : Rule) :
    (s.setRule r e).lostIds = s.lostIds := rfl
@[simp] theorem Dev.setRule_slots (r : Nat) (e : Rule) :
    (s.setRule r e).slots = s.slots := rfl
@[simp] theorem Dev.setRule_slotNow (r : Nat) (e : Rule) :
    (s.setRule r e).slotNow = s.slotNow := rfl
@[simp] theorem Dev.setRule_slotFrom (r : Nat) (e : Rule) :
    (s.setRule r e).slotFrom = s.slotFrom := rfl
@[simp] theorem Dev.setRule_slotPast (r : Nat) (e : Rule) :
    (s.setRule r e).slotPast = s.slotPast := rfl
@[simp] theorem Dev.setRule_slotNext (r : Nat) (e : Rule) :
    (s.setRule r e).slotNext = s.slotNext := rfl
@[simp] theorem Dev.setRule_fires (r : Nat) (e : Rule) :
    (s.setRule r e).fires = s.fires := rfl
@[simp] theorem Dev.setRule_nextRun (r : Nat) (e : Rule) :
    (s.setRule r e).nextRun = s.nextRun := rfl
@[simp] theorem Dev.setRule_barrier (r : Nat) (e : Rule) :
    (s.setRule r e).barrier = s.barrier := rfl
@[simp] theorem Dev.setRule_die (r : Nat) (e : Rule) :
    (s.setRule r e).die = s.die := rfl
@[simp] theorem Dev.setRule_links (r : Nat) (e : Rule) :
    (s.setRule r e).links = s.links := rfl
@[simp] theorem Dev.setRule_ctxs (r : Nat) (e : Rule) :
    (s.setRule r e).ctxs = s.ctxs := rfl
@[simp] theorem Dev.setRule_pipes (r : Nat) (e : Rule) :
    (s.setRule r e).pipes = s.pipes := rfl
@[simp] theorem Dev.setRule_pipesOn (r : Nat) (e : Rule) :
    (s.setRule r e).pipesOn = s.pipesOn := rfl
@[simp] theorem Dev.setRule_lineSeq (r : Nat) (e : Rule) :
    (s.setRule r e).lineSeq = s.lineSeq := rfl
@[simp] theorem Dev.setRule_fusions (r : Nat) (e : Rule) :
    (s.setRule r e).fusions = s.fusions := rfl
@[simp] theorem Dev.setRule_churns (r : Nat) (e : Rule) :
    (s.setRule r e).churns = s.churns := rfl
@[simp] theorem Dev.setRule_jobs (r : Nat) (e : Rule) :
    (s.setRule r e).jobs = s.jobs := rfl
@[simp] theorem Dev.setRule_jobSeq (r : Nat) (e : Rule) :
    (s.setRule r e).jobSeq = s.jobSeq := rfl
@[simp] theorem Dev.setRule_lastQueue (r : Nat) (e : Rule) :
    (s.setRule r e).lastQueue = s.lastQueue := rfl
@[simp] theorem Dev.setRule_lastTeach (r : Nat) (e : Rule) :
    (s.setRule r e).lastTeach = s.lastTeach := rfl
@[simp] theorem Dev.setRule_saves (r : Nat) (e : Rule) :
    (s.setRule r e).saves = s.saves := rfl
@[simp] theorem Dev.setRule_saveSeq (r : Nat) (e : Rule) :
    (s.setRule r e).saveSeq = s.saveSeq := rfl
@[simp] theorem Dev.setRule_fixing (r : Nat) (e : Rule) :
    (s.setRule r e).fixing = s.fixing := rfl
@[simp] theorem Dev.setRule_runHit (r : Nat) (e : Rule) :
    (s.setRule r e).runHit = s.runHit := rfl
@[simp] theorem Dev.setRule_faultq (r : Nat) (e : Rule) :
    (s.setRule r e).faultq = s.faultq := rfl
@[simp] theorem Dev.setRule_posted (r : Nat) (e : Rule) :
    (s.setRule r e).posted = s.posted := rfl
@[simp] theorem Dev.setRule_tlb (r : Nat) (e : Rule) :
    (s.setRule r e).tlb = s.tlb := rfl
@[simp] theorem Dev.setRule_invals (r : Nat) (e : Rule) :
    (s.setRule r e).invals = s.invals := rfl
@[simp] theorem Dev.setRule_scrubLine (r : Nat) (e : Rule) :
    (s.setRule r e).scrubLine = s.scrubLine := rfl
@[simp] theorem Dev.setRule_pcieUp (r : Nat) (e : Rule) :
    (s.setRule r e).pcieUp = s.pcieUp := rfl
@[simp] theorem Dev.setRule_ring (r : Nat) (e : Rule) :
    (s.setRule r e).ring = s.ring := rfl
@[simp] theorem Dev.setRule_libUsed (r : Nat) (e : Rule) :
    (s.setRule r e).libUsed = s.libUsed := rfl
@[simp] theorem Dev.setRule_batch (r : Nat) (e : Rule) :
    (s.setRule r e).batch = s.batch := rfl
@[simp] theorem Dev.setRule_lastDec (r : Nat) (e : Rule) :
    (s.setRule r e).lastDec = s.lastDec := rfl
@[simp] theorem Dev.setRule_capUsed (r : Nat) (e : Rule) :
    (s.setRule r e).capUsed = s.capUsed := rfl
@[simp] theorem Dev.setRule_validating (r : Nat) (e : Rule) :
    (s.setRule r e).validating = s.validating := rfl
@[simp] theorem Dev.setRule_herd (r : Nat) (e : Rule) :
    (s.setRule r e).herd = s.herd := rfl
@[simp] theorem Dev.setRule_zports (r : Nat) (e : Rule) :
    (s.setRule r e).zports = s.zports := rfl
@[simp] theorem Dev.setRule_svc (r : Nat) (e : Rule) :
    (s.setRule r e).svc = s.svc := rfl
@[simp] theorem Dev.setRule_mlk (r : Nat) (e : Rule) :
    (s.setRule r e).mlk = s.mlk := rfl
@[simp] theorem Dev.setRule_trace (r : Nat) (e : Rule) :
    (s.setRule r e).trace = s.trace := rfl
@[simp] theorem Dev.setRule_out (r : Nat) (e : Rule) :
    (s.setRule r e).out = s.out := rfl
@[simp] theorem Dev.setRule_rd (r : Nat) (e : Rule) (f : Field) (i : Nat) :
    (s.setRule r e).rd f i = s.rd f i := rfl
@[simp] theorem Dev.putByte_regs (a : Nat) (b : Byte) :
    (s.putByte a b).regs = s.regs := by unfold Dev.putByte; split <;> rfl
@[simp] theorem Dev.putByte_voteB (a : Nat) (b : Byte) :
    (s.putByte a b).voteB = s.voteB := by unfold Dev.putByte; split <;> rfl
@[simp] theorem Dev.putByte_voteC (a : Nat) (b : Byte) :
    (s.putByte a b).voteC = s.voteC := by unfold Dev.putByte; split <;> rfl
@[simp] theorem Dev.putByte_od (a : Nat) (b : Byte) :
    (s.putByte a b).od = s.od := by unfold Dev.putByte; split <;> rfl
@[simp] theorem Dev.putByte_nvm (a : Nat) (b : Byte) :
    (s.putByte a b).nvm = s.nvm := by unfold Dev.putByte; split <;> rfl
@[simp] theorem Dev.putByte_bar (a : Nat) (b : Byte) :
    (s.putByte a b).bar = s.bar := by unfold Dev.putByte; split <;> rfl
@[simp] theorem Dev.putByte_sync (a : Nat) (b : Byte) :
    (s.putByte a b).sync = s.sync := by unfold Dev.putByte; split <;> rfl
@[simp] theorem Dev.putByte_counters (a : Nat) (b : Byte) :
    (s.putByte a b).counters = s.counters := by unfold Dev.putByte; split <;> rfl
@[simp] theorem Dev.putByte_free (a : Nat) (b : Byte) :
    (s.putByte a b).free = s.free := by unfold Dev.putByte; split <;> rfl
@[simp] theorem Dev.putByte_power (a : Nat) (b : Byte) :
    (s.putByte a b).power = s.power := by unfold Dev.putByte; split <;> rfl
@[simp] theorem Dev.putByte_rst (a : Nat) (b : Byte) :
    (s.putByte a b).rst = s.rst := by unfold Dev.putByte; split <;> rfl
@[simp] theorem Dev.putByte_xclk (a : Nat) (b : Byte) :
    (s.putByte a b).xclk = s.xclk := by unfold Dev.putByte; split <;> rfl
@[simp] theorem Dev.putByte_tickAt (a : Nat) (b : Byte) :
    (s.putByte a b).tickAt = s.tickAt := by unfold Dev.putByte; split <;> rfl
@[simp] theorem Dev.putByte_slotAt (a : Nat) (b : Byte) :
    (s.putByte a b).slotAt = s.slotAt := by unfold Dev.putByte; split <;> rfl
@[simp] theorem Dev.putByte_timeU (a : Nat) (b : Byte) :
    (s.putByte a b).timeU = s.timeU := by unfold Dev.putByte; split <;> rfl
@[simp] theorem Dev.putByte_xclkOn (a : Nat) (b : Byte) :
    (s.putByte a b).xclkOn = s.xclkOn := by unfold Dev.putByte; split <;> rfl
@[simp] theorem Dev.putByte_tb (a : Nat) (b : Byte) :
    (s.putByte a b).tb = s.tb := by unfold Dev.putByte; split <;> rfl
@[simp] theorem Dev.putByte_ttos (a : Nat) (b : Byte) :
    (s.putByte a b).ttos = s.ttos := by unfold Dev.putByte; split <;> rfl
@[simp] theorem Dev.putByte_encs (a : Nat) (b : Byte) :
    (s.putByte a b).encs = s.encs := by unfold Dev.putByte; split <;> rfl
@[simp] theorem Dev.putByte_gens (a : Nat) (b : Byte) :
    (s.putByte a b).gens = s.gens := by unfold Dev.putByte; split <;> rfl
@[simp] theorem Dev.putByte_trgs (a : Nat) (b : Byte) :
    (s.putByte a b).trgs = s.trgs := by unfold Dev.putByte; split <;> rfl
@[simp] theorem Dev.putByte_est (a : Nat) (b : Byte) :
    (s.putByte a b).est = s.est := by unfold Dev.putByte; split <;> rfl
@[simp] theorem Dev.putByte_lmOffset (a : Nat) (b : Byte) :
    (s.putByte a b).lmOffset = s.lmOffset := by unfold Dev.putByte; split <;> rfl
@[simp] theorem Dev.putByte_peak (a : Nat) (b : Byte) :
    (s.putByte a b).peak = s.peak := by unfold Dev.putByte; split <;> rfl
@[simp] theorem Dev.putByte_marks (a : Nat) (b : Byte) :
    (s.putByte a b).marks = s.marks := by unfold Dev.putByte; split <;> rfl
@[simp] theorem Dev.putByte_lanes (a : Nat) (b : Byte) :
    (s.putByte a b).lanes = s.lanes := by unfold Dev.putByte; split <;> rfl
@[simp] theorem Dev.putByte_parts (a : Nat) (b : Byte) :
    (s.putByte a b).parts = s.parts := by unfold Dev.putByte; split <;> rfl
@[simp] theorem Dev.putByte_nextId (a : Nat) (b : Byte) :
    (s.putByte a b).nextId = s.nextId := by unfold Dev.putByte; split <;> rfl
@[simp] theorem Dev.putByte_lostIds (a : Nat) (b : Byte) :
    (s.putByte a b).lostIds = s.lostIds := by unfold Dev.putByte; split <;> rfl
@[simp] theorem Dev.putByte_slots (a : Nat) (b : Byte) :
    (s.putByte a b).slots = s.slots := by unfold Dev.putByte; split <;> rfl
@[simp] theorem Dev.putByte_slotNow (a : Nat) (b : Byte) :
    (s.putByte a b).slotNow = s.slotNow := by unfold Dev.putByte; split <;> rfl
@[simp] theorem Dev.putByte_slotFrom (a : Nat) (b : Byte) :
    (s.putByte a b).slotFrom = s.slotFrom := by unfold Dev.putByte; split <;> rfl
@[simp] theorem Dev.putByte_slotPast (a : Nat) (b : Byte) :
    (s.putByte a b).slotPast = s.slotPast := by unfold Dev.putByte; split <;> rfl
@[simp] theorem Dev.putByte_slotNext (a : Nat) (b : Byte) :
    (s.putByte a b).slotNext = s.slotNext := by unfold Dev.putByte; split <;> rfl
@[simp] theorem Dev.putByte_fires (a : Nat) (b : Byte) :
    (s.putByte a b).fires = s.fires := by unfold Dev.putByte; split <;> rfl
@[simp] theorem Dev.putByte_nextRun (a : Nat) (b : Byte) :
    (s.putByte a b).nextRun = s.nextRun := by unfold Dev.putByte; split <;> rfl
@[simp] theorem Dev.putByte_barrier (a : Nat) (b : Byte) :
    (s.putByte a b).barrier = s.barrier := by unfold Dev.putByte; split <;> rfl
@[simp] theorem Dev.putByte_die (a : Nat) (b : Byte) :
    (s.putByte a b).die = s.die := by unfold Dev.putByte; split <;> rfl
@[simp] theorem Dev.putByte_links (a : Nat) (b : Byte) :
    (s.putByte a b).links = s.links := by unfold Dev.putByte; split <;> rfl
@[simp] theorem Dev.putByte_ctxs (a : Nat) (b : Byte) :
    (s.putByte a b).ctxs = s.ctxs := by unfold Dev.putByte; split <;> rfl
@[simp] theorem Dev.putByte_pipes (a : Nat) (b : Byte) :
    (s.putByte a b).pipes = s.pipes := by unfold Dev.putByte; split <;> rfl
@[simp] theorem Dev.putByte_pipesOn (a : Nat) (b : Byte) :
    (s.putByte a b).pipesOn = s.pipesOn := by unfold Dev.putByte; split <;> rfl
@[simp] theorem Dev.putByte_lineSeq (a : Nat) (b : Byte) :
    (s.putByte a b).lineSeq = s.lineSeq := by unfold Dev.putByte; split <;> rfl
@[simp] theorem Dev.putByte_fusions (a : Nat) (b : Byte) :
    (s.putByte a b).fusions = s.fusions := by unfold Dev.putByte; split <;> rfl
@[simp] theorem Dev.putByte_churns (a : Nat) (b : Byte) :
    (s.putByte a b).churns = s.churns := by unfold Dev.putByte; split <;> rfl
@[simp] theorem Dev.putByte_jobs (a : Nat) (b : Byte) :
    (s.putByte a b).jobs = s.jobs := by unfold Dev.putByte; split <;> rfl
@[simp] theorem Dev.putByte_jobSeq (a : Nat) (b : Byte) :
    (s.putByte a b).jobSeq = s.jobSeq := by unfold Dev.putByte; split <;> rfl
@[simp] theorem Dev.putByte_lastQueue (a : Nat) (b : Byte) :
    (s.putByte a b).lastQueue = s.lastQueue := by unfold Dev.putByte; split <;> rfl
@[simp] theorem Dev.putByte_lastTeach (a : Nat) (b : Byte) :
    (s.putByte a b).lastTeach = s.lastTeach := by unfold Dev.putByte; split <;> rfl
@[simp] theorem Dev.putByte_saves (a : Nat) (b : Byte) :
    (s.putByte a b).saves = s.saves := by unfold Dev.putByte; split <;> rfl
@[simp] theorem Dev.putByte_saveSeq (a : Nat) (b : Byte) :
    (s.putByte a b).saveSeq = s.saveSeq := by unfold Dev.putByte; split <;> rfl
@[simp] theorem Dev.putByte_fixing (a : Nat) (b : Byte) :
    (s.putByte a b).fixing = s.fixing := by unfold Dev.putByte; split <;> rfl
@[simp] theorem Dev.putByte_runHit (a : Nat) (b : Byte) :
    (s.putByte a b).runHit = s.runHit := by unfold Dev.putByte; split <;> rfl
@[simp] theorem Dev.putByte_faultq (a : Nat) (b : Byte) :
    (s.putByte a b).faultq = s.faultq := by unfold Dev.putByte; split <;> rfl
@[simp] theorem Dev.putByte_posted (a : Nat) (b : Byte) :
    (s.putByte a b).posted = s.posted := by unfold Dev.putByte; split <;> rfl
@[simp] theorem Dev.putByte_tlb (a : Nat) (b : Byte) :
    (s.putByte a b).tlb = s.tlb := by unfold Dev.putByte; split <;> rfl
@[simp] theorem Dev.putByte_invals (a : Nat) (b : Byte) :
    (s.putByte a b).invals = s.invals := by unfold Dev.putByte; split <;> rfl
@[simp] theorem Dev.putByte_scrubLine (a : Nat) (b : Byte) :
    (s.putByte a b).scrubLine = s.scrubLine := by unfold Dev.putByte; split <;> rfl
@[simp] theorem Dev.putByte_pcieUp (a : Nat) (b : Byte) :
    (s.putByte a b).pcieUp = s.pcieUp := by unfold Dev.putByte; split <;> rfl
@[simp] theorem Dev.putByte_rules (a : Nat) (b : Byte) :
    (s.putByte a b).rules = s.rules := by unfold Dev.putByte; split <;> rfl
@[simp] theorem Dev.putByte_ring (a : Nat) (b : Byte) :
    (s.putByte a b).ring = s.ring := by unfold Dev.putByte; split <;> rfl
@[simp] theorem Dev.putByte_libUsed (a : Nat) (b : Byte) :
    (s.putByte a b).libUsed = s.libUsed := by unfold Dev.putByte; split <;> rfl
@[simp] theorem Dev.putByte_batch (a : Nat) (b : Byte) :
    (s.putByte a b).batch = s.batch := by unfold Dev.putByte; split <;> rfl
@[simp] theorem Dev.putByte_lastDec (a : Nat) (b : Byte) :
    (s.putByte a b).lastDec = s.lastDec := by unfold Dev.putByte; split <;> rfl
@[simp] theorem Dev.putByte_capUsed (a : Nat) (b : Byte) :
    (s.putByte a b).capUsed = s.capUsed := by unfold Dev.putByte; split <;> rfl
@[simp] theorem Dev.putByte_validating (a : Nat) (b : Byte) :
    (s.putByte a b).validating = s.validating := by unfold Dev.putByte; split <;> rfl
@[simp] theorem Dev.putByte_herd (a : Nat) (b : Byte) :
    (s.putByte a b).herd = s.herd := by unfold Dev.putByte; split <;> rfl
@[simp] theorem Dev.putByte_zports (a : Nat) (b : Byte) :
    (s.putByte a b).zports = s.zports := by unfold Dev.putByte; split <;> rfl
@[simp] theorem Dev.putByte_svc (a : Nat) (b : Byte) :
    (s.putByte a b).svc = s.svc := by unfold Dev.putByte; split <;> rfl
@[simp] theorem Dev.putByte_mlk (a : Nat) (b : Byte) :
    (s.putByte a b).mlk = s.mlk := by unfold Dev.putByte; split <;> rfl
@[simp] theorem Dev.putByte_trace (a : Nat) (b : Byte) :
    (s.putByte a b).trace = s.trace := by unfold Dev.putByte; split <;> rfl
@[simp] theorem Dev.putByte_out (a : Nat) (b : Byte) :
    (s.putByte a b).out = s.out := by unfold Dev.putByte; split <;> rfl
@[simp] theorem Dev.putByte_rd (a : Nat) (b : Byte) (f : Field) (i : Nat) :
    (s.putByte a b).rd f i = s.rd f i := by unfold Dev.putByte; split <;> rfl
@[simp] theorem Dev.putBytes_regs (a : Nat) (b : List Byte) :
    (s.putBytes a b).regs = s.regs := by
  induction b generalizing s a with
  | nil => rfl
  | cons x l ih => simp [Dev.putBytes, ih]
@[simp] theorem Dev.putBytes_voteB (a : Nat) (b : List Byte) :
    (s.putBytes a b).voteB = s.voteB := by
  induction b generalizing s a with
  | nil => rfl
  | cons x l ih => simp [Dev.putBytes, ih]
@[simp] theorem Dev.putBytes_voteC (a : Nat) (b : List Byte) :
    (s.putBytes a b).voteC = s.voteC := by
  induction b generalizing s a with
  | nil => rfl
  | cons x l ih => simp [Dev.putBytes, ih]
@[simp] theorem Dev.putBytes_od (a : Nat) (b : List Byte) :
    (s.putBytes a b).od = s.od := by
  induction b generalizing s a with
  | nil => rfl
  | cons x l ih => simp [Dev.putBytes, ih]
@[simp] theorem Dev.putBytes_nvm (a : Nat) (b : List Byte) :
    (s.putBytes a b).nvm = s.nvm := by
  induction b generalizing s a with
  | nil => rfl
  | cons x l ih => simp [Dev.putBytes, ih]
@[simp] theorem Dev.putBytes_bar (a : Nat) (b : List Byte) :
    (s.putBytes a b).bar = s.bar := by
  induction b generalizing s a with
  | nil => rfl
  | cons x l ih => simp [Dev.putBytes, ih]
@[simp] theorem Dev.putBytes_sync (a : Nat) (b : List Byte) :
    (s.putBytes a b).sync = s.sync := by
  induction b generalizing s a with
  | nil => rfl
  | cons x l ih => simp [Dev.putBytes, ih]
@[simp] theorem Dev.putBytes_counters (a : Nat) (b : List Byte) :
    (s.putBytes a b).counters = s.counters := by
  induction b generalizing s a with
  | nil => rfl
  | cons x l ih => simp [Dev.putBytes, ih]
@[simp] theorem Dev.putBytes_free (a : Nat) (b : List Byte) :
    (s.putBytes a b).free = s.free := by
  induction b generalizing s a with
  | nil => rfl
  | cons x l ih => simp [Dev.putBytes, ih]
@[simp] theorem Dev.putBytes_power (a : Nat) (b : List Byte) :
    (s.putBytes a b).power = s.power := by
  induction b generalizing s a with
  | nil => rfl
  | cons x l ih => simp [Dev.putBytes, ih]
@[simp] theorem Dev.putBytes_rst (a : Nat) (b : List Byte) :
    (s.putBytes a b).rst = s.rst := by
  induction b generalizing s a with
  | nil => rfl
  | cons x l ih => simp [Dev.putBytes, ih]
@[simp] theorem Dev.putBytes_xclk (a : Nat) (b : List Byte) :
    (s.putBytes a b).xclk = s.xclk := by
  induction b generalizing s a with
  | nil => rfl
  | cons x l ih => simp [Dev.putBytes, ih]
@[simp] theorem Dev.putBytes_tickAt (a : Nat) (b : List Byte) :
    (s.putBytes a b).tickAt = s.tickAt := by
  induction b generalizing s a with
  | nil => rfl
  | cons x l ih => simp [Dev.putBytes, ih]
@[simp] theorem Dev.putBytes_slotAt (a : Nat) (b : List Byte) :
    (s.putBytes a b).slotAt = s.slotAt := by
  induction b generalizing s a with
  | nil => rfl
  | cons x l ih => simp [Dev.putBytes, ih]
@[simp] theorem Dev.putBytes_timeU (a : Nat) (b : List Byte) :
    (s.putBytes a b).timeU = s.timeU := by
  induction b generalizing s a with
  | nil => rfl
  | cons x l ih => simp [Dev.putBytes, ih]
@[simp] theorem Dev.putBytes_xclkOn (a : Nat) (b : List Byte) :
    (s.putBytes a b).xclkOn = s.xclkOn := by
  induction b generalizing s a with
  | nil => rfl
  | cons x l ih => simp [Dev.putBytes, ih]
@[simp] theorem Dev.putBytes_tb (a : Nat) (b : List Byte) :
    (s.putBytes a b).tb = s.tb := by
  induction b generalizing s a with
  | nil => rfl
  | cons x l ih => simp [Dev.putBytes, ih]
@[simp] theorem Dev.putBytes_ttos (a : Nat) (b : List Byte) :
    (s.putBytes a b).ttos = s.ttos := by
  induction b generalizing s a with
  | nil => rfl
  | cons x l ih => simp [Dev.putBytes, ih]
@[simp] theorem Dev.putBytes_encs (a : Nat) (b : List Byte) :
    (s.putBytes a b).encs = s.encs := by
  induction b generalizing s a with
  | nil => rfl
  | cons x l ih => simp [Dev.putBytes, ih]
@[simp] theorem Dev.putBytes_gens (a : Nat) (b : List Byte) :
    (s.putBytes a b).gens = s.gens := by
  induction b generalizing s a with
  | nil => rfl
  | cons x l ih => simp [Dev.putBytes, ih]
@[simp] theorem Dev.putBytes_trgs (a : Nat) (b : List Byte) :
    (s.putBytes a b).trgs = s.trgs := by
  induction b generalizing s a with
  | nil => rfl
  | cons x l ih => simp [Dev.putBytes, ih]
@[simp] theorem Dev.putBytes_est (a : Nat) (b : List Byte) :
    (s.putBytes a b).est = s.est := by
  induction b generalizing s a with
  | nil => rfl
  | cons x l ih => simp [Dev.putBytes, ih]
@[simp] theorem Dev.putBytes_lmOffset (a : Nat) (b : List Byte) :
    (s.putBytes a b).lmOffset = s.lmOffset := by
  induction b generalizing s a with
  | nil => rfl
  | cons x l ih => simp [Dev.putBytes, ih]
@[simp] theorem Dev.putBytes_peak (a : Nat) (b : List Byte) :
    (s.putBytes a b).peak = s.peak := by
  induction b generalizing s a with
  | nil => rfl
  | cons x l ih => simp [Dev.putBytes, ih]
@[simp] theorem Dev.putBytes_marks (a : Nat) (b : List Byte) :
    (s.putBytes a b).marks = s.marks := by
  induction b generalizing s a with
  | nil => rfl
  | cons x l ih => simp [Dev.putBytes, ih]
@[simp] theorem Dev.putBytes_lanes (a : Nat) (b : List Byte) :
    (s.putBytes a b).lanes = s.lanes := by
  induction b generalizing s a with
  | nil => rfl
  | cons x l ih => simp [Dev.putBytes, ih]
@[simp] theorem Dev.putBytes_parts (a : Nat) (b : List Byte) :
    (s.putBytes a b).parts = s.parts := by
  induction b generalizing s a with
  | nil => rfl
  | cons x l ih => simp [Dev.putBytes, ih]
@[simp] theorem Dev.putBytes_nextId (a : Nat) (b : List Byte) :
    (s.putBytes a b).nextId = s.nextId := by
  induction b generalizing s a with
  | nil => rfl
  | cons x l ih => simp [Dev.putBytes, ih]
@[simp] theorem Dev.putBytes_lostIds (a : Nat) (b : List Byte) :
    (s.putBytes a b).lostIds = s.lostIds := by
  induction b generalizing s a with
  | nil => rfl
  | cons x l ih => simp [Dev.putBytes, ih]
@[simp] theorem Dev.putBytes_slots (a : Nat) (b : List Byte) :
    (s.putBytes a b).slots = s.slots := by
  induction b generalizing s a with
  | nil => rfl
  | cons x l ih => simp [Dev.putBytes, ih]
@[simp] theorem Dev.putBytes_slotNow (a : Nat) (b : List Byte) :
    (s.putBytes a b).slotNow = s.slotNow := by
  induction b generalizing s a with
  | nil => rfl
  | cons x l ih => simp [Dev.putBytes, ih]
@[simp] theorem Dev.putBytes_slotFrom (a : Nat) (b : List Byte) :
    (s.putBytes a b).slotFrom = s.slotFrom := by
  induction b generalizing s a with
  | nil => rfl
  | cons x l ih => simp [Dev.putBytes, ih]
@[simp] theorem Dev.putBytes_slotPast (a : Nat) (b : List Byte) :
    (s.putBytes a b).slotPast = s.slotPast := by
  induction b generalizing s a with
  | nil => rfl
  | cons x l ih => simp [Dev.putBytes, ih]
@[simp] theorem Dev.putBytes_slotNext (a : Nat) (b : List Byte) :
    (s.putBytes a b).slotNext = s.slotNext := by
  induction b generalizing s a with
  | nil => rfl
  | cons x l ih => simp [Dev.putBytes, ih]
@[simp] theorem Dev.putBytes_fires (a : Nat) (b : List Byte) :
    (s.putBytes a b).fires = s.fires := by
  induction b generalizing s a with
  | nil => rfl
  | cons x l ih => simp [Dev.putBytes, ih]
@[simp] theorem Dev.putBytes_nextRun (a : Nat) (b : List Byte) :
    (s.putBytes a b).nextRun = s.nextRun := by
  induction b generalizing s a with
  | nil => rfl
  | cons x l ih => simp [Dev.putBytes, ih]
@[simp] theorem Dev.putBytes_barrier (a : Nat) (b : List Byte) :
    (s.putBytes a b).barrier = s.barrier := by
  induction b generalizing s a with
  | nil => rfl
  | cons x l ih => simp [Dev.putBytes, ih]
@[simp] theorem Dev.putBytes_die (a : Nat) (b : List Byte) :
    (s.putBytes a b).die = s.die := by
  induction b generalizing s a with
  | nil => rfl
  | cons x l ih => simp [Dev.putBytes, ih]
@[simp] theorem Dev.putBytes_links (a : Nat) (b : List Byte) :
    (s.putBytes a b).links = s.links := by
  induction b generalizing s a with
  | nil => rfl
  | cons x l ih => simp [Dev.putBytes, ih]
@[simp] theorem Dev.putBytes_ctxs (a : Nat) (b : List Byte) :
    (s.putBytes a b).ctxs = s.ctxs := by
  induction b generalizing s a with
  | nil => rfl
  | cons x l ih => simp [Dev.putBytes, ih]
@[simp] theorem Dev.putBytes_pipes (a : Nat) (b : List Byte) :
    (s.putBytes a b).pipes = s.pipes := by
  induction b generalizing s a with
  | nil => rfl
  | cons x l ih => simp [Dev.putBytes, ih]
@[simp] theorem Dev.putBytes_pipesOn (a : Nat) (b : List Byte) :
    (s.putBytes a b).pipesOn = s.pipesOn := by
  induction b generalizing s a with
  | nil => rfl
  | cons x l ih => simp [Dev.putBytes, ih]
@[simp] theorem Dev.putBytes_lineSeq (a : Nat) (b : List Byte) :
    (s.putBytes a b).lineSeq = s.lineSeq := by
  induction b generalizing s a with
  | nil => rfl
  | cons x l ih => simp [Dev.putBytes, ih]
@[simp] theorem Dev.putBytes_fusions (a : Nat) (b : List Byte) :
    (s.putBytes a b).fusions = s.fusions := by
  induction b generalizing s a with
  | nil => rfl
  | cons x l ih => simp [Dev.putBytes, ih]
@[simp] theorem Dev.putBytes_churns (a : Nat) (b : List Byte) :
    (s.putBytes a b).churns = s.churns := by
  induction b generalizing s a with
  | nil => rfl
  | cons x l ih => simp [Dev.putBytes, ih]
@[simp] theorem Dev.putBytes_jobs (a : Nat) (b : List Byte) :
    (s.putBytes a b).jobs = s.jobs := by
  induction b generalizing s a with
  | nil => rfl
  | cons x l ih => simp [Dev.putBytes, ih]
@[simp] theorem Dev.putBytes_jobSeq (a : Nat) (b : List Byte) :
    (s.putBytes a b).jobSeq = s.jobSeq := by
  induction b generalizing s a with
  | nil => rfl
  | cons x l ih => simp [Dev.putBytes, ih]
@[simp] theorem Dev.putBytes_lastQueue (a : Nat) (b : List Byte) :
    (s.putBytes a b).lastQueue = s.lastQueue := by
  induction b generalizing s a with
  | nil => rfl
  | cons x l ih => simp [Dev.putBytes, ih]
@[simp] theorem Dev.putBytes_lastTeach (a : Nat) (b : List Byte) :
    (s.putBytes a b).lastTeach = s.lastTeach := by
  induction b generalizing s a with
  | nil => rfl
  | cons x l ih => simp [Dev.putBytes, ih]
@[simp] theorem Dev.putBytes_saves (a : Nat) (b : List Byte) :
    (s.putBytes a b).saves = s.saves := by
  induction b generalizing s a with
  | nil => rfl
  | cons x l ih => simp [Dev.putBytes, ih]
@[simp] theorem Dev.putBytes_saveSeq (a : Nat) (b : List Byte) :
    (s.putBytes a b).saveSeq = s.saveSeq := by
  induction b generalizing s a with
  | nil => rfl
  | cons x l ih => simp [Dev.putBytes, ih]
@[simp] theorem Dev.putBytes_fixing (a : Nat) (b : List Byte) :
    (s.putBytes a b).fixing = s.fixing := by
  induction b generalizing s a with
  | nil => rfl
  | cons x l ih => simp [Dev.putBytes, ih]
@[simp] theorem Dev.putBytes_runHit (a : Nat) (b : List Byte) :
    (s.putBytes a b).runHit = s.runHit := by
  induction b generalizing s a with
  | nil => rfl
  | cons x l ih => simp [Dev.putBytes, ih]
@[simp] theorem Dev.putBytes_faultq (a : Nat) (b : List Byte) :
    (s.putBytes a b).faultq = s.faultq := by
  induction b generalizing s a with
  | nil => rfl
  | cons x l ih => simp [Dev.putBytes, ih]
@[simp] theorem Dev.putBytes_posted (a : Nat) (b : List Byte) :
    (s.putBytes a b).posted = s.posted := by
  induction b generalizing s a with
  | nil => rfl
  | cons x l ih => simp [Dev.putBytes, ih]
@[simp] theorem Dev.putBytes_tlb (a : Nat) (b : List Byte) :
    (s.putBytes a b).tlb = s.tlb := by
  induction b generalizing s a with
  | nil => rfl
  | cons x l ih => simp [Dev.putBytes, ih]
@[simp] theorem Dev.putBytes_invals (a : Nat) (b : List Byte) :
    (s.putBytes a b).invals = s.invals := by
  induction b generalizing s a with
  | nil => rfl
  | cons x l ih => simp [Dev.putBytes, ih]
@[simp] theorem Dev.putBytes_scrubLine (a : Nat) (b : List Byte) :
    (s.putBytes a b).scrubLine = s.scrubLine := by
  induction b generalizing s a with
  | nil => rfl
  | cons x l ih => simp [Dev.putBytes, ih]
@[simp] theorem Dev.putBytes_pcieUp (a : Nat) (b : List Byte) :
    (s.putBytes a b).pcieUp = s.pcieUp := by
  induction b generalizing s a with
  | nil => rfl
  | cons x l ih => simp [Dev.putBytes, ih]
@[simp] theorem Dev.putBytes_rules (a : Nat) (b : List Byte) :
    (s.putBytes a b).rules = s.rules := by
  induction b generalizing s a with
  | nil => rfl
  | cons x l ih => simp [Dev.putBytes, ih]
@[simp] theorem Dev.putBytes_ring (a : Nat) (b : List Byte) :
    (s.putBytes a b).ring = s.ring := by
  induction b generalizing s a with
  | nil => rfl
  | cons x l ih => simp [Dev.putBytes, ih]
@[simp] theorem Dev.putBytes_libUsed (a : Nat) (b : List Byte) :
    (s.putBytes a b).libUsed = s.libUsed := by
  induction b generalizing s a with
  | nil => rfl
  | cons x l ih => simp [Dev.putBytes, ih]
@[simp] theorem Dev.putBytes_batch (a : Nat) (b : List Byte) :
    (s.putBytes a b).batch = s.batch := by
  induction b generalizing s a with
  | nil => rfl
  | cons x l ih => simp [Dev.putBytes, ih]
@[simp] theorem Dev.putBytes_lastDec (a : Nat) (b : List Byte) :
    (s.putBytes a b).lastDec = s.lastDec := by
  induction b generalizing s a with
  | nil => rfl
  | cons x l ih => simp [Dev.putBytes, ih]
@[simp] theorem Dev.putBytes_capUsed (a : Nat) (b : List Byte) :
    (s.putBytes a b).capUsed = s.capUsed := by
  induction b generalizing s a with
  | nil => rfl
  | cons x l ih => simp [Dev.putBytes, ih]
@[simp] theorem Dev.putBytes_validating (a : Nat) (b : List Byte) :
    (s.putBytes a b).validating = s.validating := by
  induction b generalizing s a with
  | nil => rfl
  | cons x l ih => simp [Dev.putBytes, ih]
@[simp] theorem Dev.putBytes_herd (a : Nat) (b : List Byte) :
    (s.putBytes a b).herd = s.herd := by
  induction b generalizing s a with
  | nil => rfl
  | cons x l ih => simp [Dev.putBytes, ih]
@[simp] theorem Dev.putBytes_zports (a : Nat) (b : List Byte) :
    (s.putBytes a b).zports = s.zports := by
  induction b generalizing s a with
  | nil => rfl
  | cons x l ih => simp [Dev.putBytes, ih]
@[simp] theorem Dev.putBytes_svc (a : Nat) (b : List Byte) :
    (s.putBytes a b).svc = s.svc := by
  induction b generalizing s a with
  | nil => rfl
  | cons x l ih => simp [Dev.putBytes, ih]
@[simp] theorem Dev.putBytes_mlk (a : Nat) (b : List Byte) :
    (s.putBytes a b).mlk = s.mlk := by
  induction b generalizing s a with
  | nil => rfl
  | cons x l ih => simp [Dev.putBytes, ih]
@[simp] theorem Dev.putBytes_trace (a : Nat) (b : List Byte) :
    (s.putBytes a b).trace = s.trace := by
  induction b generalizing s a with
  | nil => rfl
  | cons x l ih => simp [Dev.putBytes, ih]
@[simp] theorem Dev.putBytes_out (a : Nat) (b : List Byte) :
    (s.putBytes a b).out = s.out := by
  induction b generalizing s a with
  | nil => rfl
  | cons x l ih => simp [Dev.putBytes, ih]
@[simp] theorem Dev.putBytes_rd (a : Nat) (b : List Byte) (f : Field) (i : Nat) :
    (s.putBytes a b).rd f i = s.rd f i := by
  induction b generalizing s a with
  | nil => rfl
  | cons x l ih => simp [Dev.putBytes, ih]

/-- What is sent changes nothing else. -/
theorem Dev.notify_only (b : Dev) : ∃ o, s.notify b = { s with out := o } := by
  have h : ∀ (l : List Nat) (d : Dev), (∃ o, d = { s with out := o }) →
      ∃ o, l.foldl (fun d v => if s.irqPending v && !b.irqPending v then d.send (.msix v) else d) d =
        { s with out := o } := by
    intro l
    induction l with
    | nil => exact fun d hd => hd
    | cons x l ih =>
      rintro d ⟨o, rfl⟩
      simp only [List.foldl_cons]
      split
      · exact ih _ ⟨_, rfl⟩
      · exact ih _ ⟨o, rfl⟩
  exact h _ _ ⟨s.out, rfl⟩

theorem Dev.notify_eq (b : Dev) : s.notify b = { s with out := (s.notify b).out } := by
  obtain ⟨o, h⟩ := s.notify_only b
  rw [h]

@[simp] theorem Dev.notify_regs (b : Dev) :
    (s.notify b).regs = s.regs := by rw [Dev.notify_eq]
@[simp] theorem Dev.notify_voteB (b : Dev) :
    (s.notify b).voteB = s.voteB := by rw [Dev.notify_eq]
@[simp] theorem Dev.notify_voteC (b : Dev) :
    (s.notify b).voteC = s.voteC := by rw [Dev.notify_eq]
@[simp] theorem Dev.notify_od (b : Dev) :
    (s.notify b).od = s.od := by rw [Dev.notify_eq]
@[simp] theorem Dev.notify_nvm (b : Dev) :
    (s.notify b).nvm = s.nvm := by rw [Dev.notify_eq]
@[simp] theorem Dev.notify_mem (b : Dev) :
    (s.notify b).mem = s.mem := by rw [Dev.notify_eq]
@[simp] theorem Dev.notify_bar (b : Dev) :
    (s.notify b).bar = s.bar := by rw [Dev.notify_eq]
@[simp] theorem Dev.notify_sync (b : Dev) :
    (s.notify b).sync = s.sync := by rw [Dev.notify_eq]
@[simp] theorem Dev.notify_counters (b : Dev) :
    (s.notify b).counters = s.counters := by rw [Dev.notify_eq]
@[simp] theorem Dev.notify_free (b : Dev) :
    (s.notify b).free = s.free := by rw [Dev.notify_eq]
@[simp] theorem Dev.notify_power (b : Dev) :
    (s.notify b).power = s.power := by rw [Dev.notify_eq]
@[simp] theorem Dev.notify_rst (b : Dev) :
    (s.notify b).rst = s.rst := by rw [Dev.notify_eq]
@[simp] theorem Dev.notify_xclk (b : Dev) :
    (s.notify b).xclk = s.xclk := by rw [Dev.notify_eq]
@[simp] theorem Dev.notify_tickAt (b : Dev) :
    (s.notify b).tickAt = s.tickAt := by rw [Dev.notify_eq]
@[simp] theorem Dev.notify_slotAt (b : Dev) :
    (s.notify b).slotAt = s.slotAt := by rw [Dev.notify_eq]
@[simp] theorem Dev.notify_timeU (b : Dev) :
    (s.notify b).timeU = s.timeU := by rw [Dev.notify_eq]
@[simp] theorem Dev.notify_xclkOn (b : Dev) :
    (s.notify b).xclkOn = s.xclkOn := by rw [Dev.notify_eq]
@[simp] theorem Dev.notify_tb (b : Dev) :
    (s.notify b).tb = s.tb := by rw [Dev.notify_eq]
@[simp] theorem Dev.notify_ttos (b : Dev) :
    (s.notify b).ttos = s.ttos := by rw [Dev.notify_eq]
@[simp] theorem Dev.notify_encs (b : Dev) :
    (s.notify b).encs = s.encs := by rw [Dev.notify_eq]
@[simp] theorem Dev.notify_gens (b : Dev) :
    (s.notify b).gens = s.gens := by rw [Dev.notify_eq]
@[simp] theorem Dev.notify_trgs (b : Dev) :
    (s.notify b).trgs = s.trgs := by rw [Dev.notify_eq]
@[simp] theorem Dev.notify_est (b : Dev) :
    (s.notify b).est = s.est := by rw [Dev.notify_eq]
@[simp] theorem Dev.notify_lmOffset (b : Dev) :
    (s.notify b).lmOffset = s.lmOffset := by rw [Dev.notify_eq]
@[simp] theorem Dev.notify_peak (b : Dev) :
    (s.notify b).peak = s.peak := by rw [Dev.notify_eq]
@[simp] theorem Dev.notify_marks (b : Dev) :
    (s.notify b).marks = s.marks := by rw [Dev.notify_eq]
@[simp] theorem Dev.notify_lanes (b : Dev) :
    (s.notify b).lanes = s.lanes := by rw [Dev.notify_eq]
@[simp] theorem Dev.notify_parts (b : Dev) :
    (s.notify b).parts = s.parts := by rw [Dev.notify_eq]
@[simp] theorem Dev.notify_nextId (b : Dev) :
    (s.notify b).nextId = s.nextId := by rw [Dev.notify_eq]
@[simp] theorem Dev.notify_lostIds (b : Dev) :
    (s.notify b).lostIds = s.lostIds := by rw [Dev.notify_eq]
@[simp] theorem Dev.notify_slots (b : Dev) :
    (s.notify b).slots = s.slots := by rw [Dev.notify_eq]
@[simp] theorem Dev.notify_slotNow (b : Dev) :
    (s.notify b).slotNow = s.slotNow := by rw [Dev.notify_eq]
@[simp] theorem Dev.notify_slotFrom (b : Dev) :
    (s.notify b).slotFrom = s.slotFrom := by rw [Dev.notify_eq]
@[simp] theorem Dev.notify_slotPast (b : Dev) :
    (s.notify b).slotPast = s.slotPast := by rw [Dev.notify_eq]
@[simp] theorem Dev.notify_slotNext (b : Dev) :
    (s.notify b).slotNext = s.slotNext := by rw [Dev.notify_eq]
@[simp] theorem Dev.notify_fires (b : Dev) :
    (s.notify b).fires = s.fires := by rw [Dev.notify_eq]
@[simp] theorem Dev.notify_nextRun (b : Dev) :
    (s.notify b).nextRun = s.nextRun := by rw [Dev.notify_eq]
@[simp] theorem Dev.notify_barrier (b : Dev) :
    (s.notify b).barrier = s.barrier := by rw [Dev.notify_eq]
@[simp] theorem Dev.notify_die (b : Dev) :
    (s.notify b).die = s.die := by rw [Dev.notify_eq]
@[simp] theorem Dev.notify_links (b : Dev) :
    (s.notify b).links = s.links := by rw [Dev.notify_eq]
@[simp] theorem Dev.notify_ctxs (b : Dev) :
    (s.notify b).ctxs = s.ctxs := by rw [Dev.notify_eq]
@[simp] theorem Dev.notify_pipes (b : Dev) :
    (s.notify b).pipes = s.pipes := by rw [Dev.notify_eq]
@[simp] theorem Dev.notify_pipesOn (b : Dev) :
    (s.notify b).pipesOn = s.pipesOn := by rw [Dev.notify_eq]
@[simp] theorem Dev.notify_lineSeq (b : Dev) :
    (s.notify b).lineSeq = s.lineSeq := by rw [Dev.notify_eq]
@[simp] theorem Dev.notify_fusions (b : Dev) :
    (s.notify b).fusions = s.fusions := by rw [Dev.notify_eq]
@[simp] theorem Dev.notify_churns (b : Dev) :
    (s.notify b).churns = s.churns := by rw [Dev.notify_eq]
@[simp] theorem Dev.notify_jobs (b : Dev) :
    (s.notify b).jobs = s.jobs := by rw [Dev.notify_eq]
@[simp] theorem Dev.notify_jobSeq (b : Dev) :
    (s.notify b).jobSeq = s.jobSeq := by rw [Dev.notify_eq]
@[simp] theorem Dev.notify_lastQueue (b : Dev) :
    (s.notify b).lastQueue = s.lastQueue := by rw [Dev.notify_eq]
@[simp] theorem Dev.notify_lastTeach (b : Dev) :
    (s.notify b).lastTeach = s.lastTeach := by rw [Dev.notify_eq]
@[simp] theorem Dev.notify_saves (b : Dev) :
    (s.notify b).saves = s.saves := by rw [Dev.notify_eq]
@[simp] theorem Dev.notify_saveSeq (b : Dev) :
    (s.notify b).saveSeq = s.saveSeq := by rw [Dev.notify_eq]
@[simp] theorem Dev.notify_fixing (b : Dev) :
    (s.notify b).fixing = s.fixing := by rw [Dev.notify_eq]
@[simp] theorem Dev.notify_runHit (b : Dev) :
    (s.notify b).runHit = s.runHit := by rw [Dev.notify_eq]
@[simp] theorem Dev.notify_faultq (b : Dev) :
    (s.notify b).faultq = s.faultq := by rw [Dev.notify_eq]
@[simp] theorem Dev.notify_posted (b : Dev) :
    (s.notify b).posted = s.posted := by rw [Dev.notify_eq]
@[simp] theorem Dev.notify_tlb (b : Dev) :
    (s.notify b).tlb = s.tlb := by rw [Dev.notify_eq]
@[simp] theorem Dev.notify_invals (b : Dev) :
    (s.notify b).invals = s.invals := by rw [Dev.notify_eq]
@[simp] theorem Dev.notify_scrubLine (b : Dev) :
    (s.notify b).scrubLine = s.scrubLine := by rw [Dev.notify_eq]
@[simp] theorem Dev.notify_pcieUp (b : Dev) :
    (s.notify b).pcieUp = s.pcieUp := by rw [Dev.notify_eq]
@[simp] theorem Dev.notify_rules (b : Dev) :
    (s.notify b).rules = s.rules := by rw [Dev.notify_eq]
@[simp] theorem Dev.notify_ring (b : Dev) :
    (s.notify b).ring = s.ring := by rw [Dev.notify_eq]
@[simp] theorem Dev.notify_libUsed (b : Dev) :
    (s.notify b).libUsed = s.libUsed := by rw [Dev.notify_eq]
@[simp] theorem Dev.notify_batch (b : Dev) :
    (s.notify b).batch = s.batch := by rw [Dev.notify_eq]
@[simp] theorem Dev.notify_lastDec (b : Dev) :
    (s.notify b).lastDec = s.lastDec := by rw [Dev.notify_eq]
@[simp] theorem Dev.notify_capUsed (b : Dev) :
    (s.notify b).capUsed = s.capUsed := by rw [Dev.notify_eq]
@[simp] theorem Dev.notify_validating (b : Dev) :
    (s.notify b).validating = s.validating := by rw [Dev.notify_eq]
@[simp] theorem Dev.notify_herd (b : Dev) :
    (s.notify b).herd = s.herd := by rw [Dev.notify_eq]
@[simp] theorem Dev.notify_zports (b : Dev) :
    (s.notify b).zports = s.zports := by rw [Dev.notify_eq]
@[simp] theorem Dev.notify_svc (b : Dev) :
    (s.notify b).svc = s.svc := by rw [Dev.notify_eq]
@[simp] theorem Dev.notify_mlk (b : Dev) :
    (s.notify b).mlk = s.mlk := by rw [Dev.notify_eq]
@[simp] theorem Dev.notify_trace (b : Dev) :
    (s.notify b).trace = s.trace := by rw [Dev.notify_eq]
@[simp] theorem Dev.notify_rd (b : Dev) (f : Field) (i : Nat) :
    (s.notify b).rd f i = s.rd f i := by rw [Dev.notify_eq]; rfl

end

/-! ### Reads of what was written -/

section
variable (s : Dev)

@[simp] theorem Dev.enc_setEnc (ch : Nat) (e : Encoder) :
    (s.setEnc ch e).enc ch = e := by unfold Dev.enc Dev.setEnc; exact tabGet_set_same _ _ _ _
theorem Dev.enc_setEnc_ne (ch j : Nat) (e : Encoder) (h : j ≠ ch) :
    (s.setEnc ch e).enc j = s.enc j := by simp only [Dev.enc, Dev.setEnc]; rw [tabGet_set_ne (h := h)]
@[simp] theorem Dev.gen_setGen (g : Nat) (e : Generator) :
    (s.setGen g e).gen g = e := by unfold Dev.gen Dev.setGen; exact tabGet_set_same _ _ _ _
theorem Dev.gen_setGen_ne (g j : Nat) (e : Generator) (h : j ≠ g) :
    (s.setGen g e).gen j = s.gen j := by simp only [Dev.gen, Dev.setGen]; rw [tabGet_set_ne (h := h)]
@[simp] theorem Dev.trg_setTrg (t : Nat) (e : Trigger) :
    (s.setTrg t e).trg t = e := by unfold Dev.trg Dev.setTrg; exact tabGet_set_same _ _ _ _
theorem Dev.trg_setTrg_ne (t j : Nat) (e : Trigger) (h : j ≠ t) :
    (s.setTrg t e).trg j = s.trg j := by simp only [Dev.trg, Dev.setTrg]; rw [tabGet_set_ne (h := h)]
@[simp] theorem Dev.lane_setLane (l : Nat) (e : Lane) :
    (s.setLane l e).lane l = e := by unfold Dev.lane Dev.setLane; exact tabGet_set_same _ _ _ _
theorem Dev.lane_setLane_ne (l j : Nat) (e : Lane) (h : j ≠ l) :
    (s.setLane l e).lane j = s.lane j := by simp only [Dev.lane, Dev.setLane]; rw [tabGet_set_ne (h := h)]
@[simp] theorem Dev.slot_setSlot (k : Nat) (e : RecipeSlot) :
    (s.setSlot k e).slot k = e := by unfold Dev.slot Dev.setSlot; exact tabGet_set_same _ _ _ _
theorem Dev.slot_setSlot_ne (k j : Nat) (e : RecipeSlot) (h : j ≠ k) :
    (s.setSlot k e).slot j = s.slot j := by simp only [Dev.slot, Dev.setSlot]; rw [tabGet_set_ne (h := h)]
@[simp] theorem Dev.link_setLink (n : Nat) (e : Link) :
    (s.setLink n e).link n = e := by unfold Dev.link Dev.setLink; exact tabGet_set_same _ _ _ _
theorem Dev.link_setLink_ne (n j : Nat) (e : Link) (h : j ≠ n) :
    (s.setLink n e).link j = s.link j := by simp only [Dev.link, Dev.setLink]; rw [tabGet_set_ne (h := h)]
@[simp] theorem Dev.ctx_setCtx (c : Nat) (e : StreamCtx) :
    (s.setCtx c e).ctx c = e := by unfold Dev.ctx Dev.setCtx; exact tabGet_set_same _ _ _ _
theorem Dev.ctx_setCtx_ne (c j : Nat) (e : StreamCtx) (h : j ≠ c) :
    (s.setCtx c e).ctx j = s.ctx j := by simp only [Dev.ctx, Dev.setCtx]; rw [tabGet_set_ne (h := h)]
@[simp] theorem Dev.fusion_setFusion (k : Nat) (e : Fusion) :
    (s.setFusion k e).fusion k = e := by unfold Dev.fusion Dev.setFusion; exact tabGet_set_same _ _ _ _
theorem Dev.fusion_setFusion_ne (k j : Nat) (e : Fusion) (h : j ≠ k) :
    (s.setFusion k e).fusion j = s.fusion j := by simp only [Dev.fusion, Dev.setFusion]; rw [tabGet_set_ne (h := h)]
@[simp] theorem Dev.churn_setChurn (n : Nat) (e : Churn) :
    (s.setChurn n e).churn n = e := by unfold Dev.churn Dev.setChurn; exact tabGet_set_same _ _ _ _
theorem Dev.churn_setChurn_ne (n j : Nat) (e : Churn) (h : j ≠ n) :
    (s.setChurn n e).churn j = s.churn j := by simp only [Dev.churn, Dev.setChurn]; rw [tabGet_set_ne (h := h)]
@[simp] theorem Dev.zport_setZport (p : Nat) (e : ZPort) :
    (s.setZport p e).zport p = e := by unfold Dev.zport Dev.setZport; exact tabGet_set_same _ _ _ _
theorem Dev.zport_setZport_ne (p j : Nat) (e : ZPort) (h : j ≠ p) :
    (s.setZport p e).zport j = s.zport j := by simp only [Dev.zport, Dev.setZport]; rw [tabGet_set_ne (h := h)]
@[simp] theorem Dev.tto_setTto (t : Nat) (e : Tto) :
    (s.setTto t e).tto t = e := by unfold Dev.tto Dev.setTto; exact tabGet_set_same _ _ _ _
theorem Dev.tto_setTto_ne (t j : Nat) (e : Tto) (h : j ≠ t) :
    (s.setTto t e).tto j = s.tto j := by simp only [Dev.tto, Dev.setTto]; rw [tabGet_set_ne (h := h)]
@[simp] theorem Dev.rule_setRule (r : Nat) (e : Rule) :
    (s.setRule r e).rule r = e := by unfold Dev.rule Dev.setRule; exact tabGet_set_same _ _ _ _
theorem Dev.rule_setRule_ne (r j : Nat) (e : Rule) (h : j ≠ r) :
    (s.setRule r e).rule j = s.rule j := by simp only [Dev.rule, Dev.setRule]; rw [tabGet_set_ne (h := h)]

end

end Sys2Proof.Machine
end

