-- ==== Sys2Proof/Laws/Ops.lean ====
section
/-! SUPPORT. The laws of the shared operations: reading a register field that was written and one that was not, what a Tally event
and an observation change, memory, and how a command runs. -/

namespace Sys2Proof.Machine

open Sys2Proof

/-! ### Keys and copies of register fields -/

/-- A field is known by its number. -/
theorem Field.ctorIdx_inj {f g : Field} (h : f.ctorIdx = g.ctorIdx) : f = g := by
  have hf : Field.ofNat f.ctorIdx = f := by cases f <;> rfl
  have hg : Field.ofNat g.ctorIdx = g := by cases g <;> rfl
  rw [← hf, ← hg, h]

/-- Two fields, or two instances of one, have different keys. -/
theorem Field.key_ne {f g : Field} {i j : Nat} (hi : i < 1024) (hj : j < 1024) (h : ¬(f = g ∧ i = j)) :
    f.key i ≠ g.key j := by
  intro e
  unfold Field.key at e
  have h1 : f.ctorIdx = g.ctorIdx := by omega
  exact h ⟨Field.ctorIdx_inj h1, by omega⟩

theorem majority_same (a r : Nat) : majority a a a r = a := by simp [majority]

/-- A field reads as it was written, cut to its width. -/
@[simp] theorem Dev.rd_wr (s : Dev) (f : Field) (i v : Nat) : (s.wr f i v).rd f i = wrap f.desc.width v := by
  unfold Dev.rd Dev.wr
  split <;> simp [majority_same, wrap]

/-- Writing one field leaves every other alone. -/
theorem Dev.rd_wr_ne (s : Dev) (f g : Field) (i j v : Nat) (hi : i < 1024) (hj : j < 1024) (h : ¬(f = g ∧ i = j)) :
    (s.wr f i v).rd g j = s.rd g j := by
  have hk : g.key j ≠ f.key i := Ne.symm (Field.key_ne hi hj h)
  unfold Dev.rd Dev.wr
  by_cases hf : f.voted = true <;> by_cases hg : g.voted = true <;> simp [hf, hg, tabGet_set_ne _ _ _ _ hk]

/-- Writing another field leaves a field alone, whatever the instances. -/
theorem Dev.rd_wr_field (s : Dev) (f g : Field) (i j v : Nat) (hi : i < 1024) (hj : j < 1024) (h : f ≠ g) :
    (s.wr f i v).rd g j = s.rd g j := s.rd_wr_ne f g i j v hi hj fun e => h e.1

/-! ### Operations that are writes of a field -/

@[simp] theorem Dev.setFlag_eq (s : Dev) (f : Field) (i : Nat) (b : Bool) : s.setFlag f i b = s.wr f i b.toNat := rfl
@[simp] theorem Dev.count_eq (s : Dev) (f : Field) (i : Nat) : s.count f i = s.wr f i (satSucc f.desc.width (s.rd f i)) := rfl
@[simp] theorem Dev.countMod_eq (s : Dev) (f : Field) (i : Nat) : s.countMod f i = s.wr f i (s.rd f i + 1) := rfl
@[simp] theorem Dev.orBits_eq (s : Dev) (f : Field) (i m : Nat) : s.orBits f i m = s.wr f i (s.rd f i ||| m) := rfl

theorem Dev.flag_eq (s : Dev) (f : Field) (i : Nat) : s.flag f i = (s.rd f i != 0) := rfl

/-! ### What a command runs -/

/-- A command that can arrive completes. -/
theorem State.run_next (s : State) (c : Instr) (f : Dev → Dev) (h : c.wf = true) :
    s.run c f = .next { s with toDev := (f s.toDev).notify s.toDev } := by simp [State.run, h]

/-- A command that can arrive completes in a state of which `P` holds, where `P` looks at the module before the messages are
sent. -/
theorem Completes.of_run {c : Instr} {s : State} {P : State → Prop} {f : Dev → Dev} (h : exec c s = s.run c f)
    (hw : c.wf = true) (hp : P { s with toDev := (f s.toDev).notify s.toDev }) : Completes c s P :=
  ⟨_, by rw [h, State.run_next s c f hw], hp⟩

/-! ### What is left alone -/

@[simp] theorem Dev.wr_rest (s : Dev) (f : Field) (i v : Nat) : (s.wr f i v).rest = s.rest := by
  unfold Dev.wr Dev.rest; split <;> rfl
@[simp] theorem Dev.send_rest (s : Dev) (o : Out) : (s.send o).rest = s.rest := rfl
@[simp] theorem Dev.notify_rest (s b : Dev) : (s.notify b).rest = s.rest := by rw [Dev.notify_eq]; rfl
@[simp] theorem Dev.rest_body (s : Dev) : s.rest.body = s.body := rfl
theorem Dev.body_of_rest {s t : Dev} (h : t.rest = s.rest) : t.body = s.body := by
  rw [← Dev.rest_body t, h, Dev.rest_body]
@[simp] theorem Dev.wr_body (s : Dev) (f : Field) (i v : Nat) : (s.wr f i v).body = s.body := Dev.body_of_rest (by simp)
@[simp] theorem Dev.send_body (s : Dev) (o : Out) : (s.send o).body = s.body := rfl
@[simp] theorem Dev.notify_body (s b : Dev) : (s.notify b).body = s.body := Dev.body_of_rest (by simp)
@[simp] theorem Dev.observe_body (s : Dev) (k n : Nat) : (s.observe k n).body = s.body := rfl

/-- Counting a code changes the observation counters alone. -/
theorem Dev.observeCode_only (s : Dev) (code : Nat) : ∃ c, s.observeCode code = { s with counters := c } := by
  unfold Dev.observeCode
  split
  · exact ⟨s.counters, rfl⟩
  · have h : ∀ (l : Tab Nat) (d : Dev), (∃ c, d = { s with counters := c }) →
        ∃ c, l.foldl (fun d e => if e.1 / 1024 = Field.OBS_SEL.ctorIdx ∧ e.2 = code then d.observe (256 + e.1 % 1024) else d) d =
          { s with counters := c } := by
      intro l
      induction l with
      | nil => exact fun d hd => hd
      | cons x l ih =>
        rintro d ⟨c, rfl⟩
        simp only [List.foldl_cons]
        split
        · exact ih _ ⟨_, rfl⟩
        · exact ih _ ⟨c, rfl⟩
    exact h _ _ ⟨s.counters, rfl⟩

/-- The stop event changes the state of trace capture and its flag alone. -/
theorem Dev.traceTrigger_only (s : Dev) (code : Nat) :
    (∃ x, s.traceTrigger code = { s with trace := x }) ∨
      ∃ x, s.traceTrigger code = { s.wr .OBS_TRC_STAT_STOPPED 0 1 with trace := x } := by
  unfold Dev.traceTrigger
  split
  · split
    · exact .inr ⟨_, rfl⟩
    · exact .inl ⟨_, rfl⟩
  · exact .inl ⟨s.trace, rfl⟩

/-- A record that is handed over changes the state of trace capture and its count of dropped records alone. -/
theorem Dev.traceNote_only (s : Dev) (src kind data : Nat) :
    (∃ x, s.traceNote src kind data = { s with trace := x }) ∨
      ∃ x, s.traceNote src kind data = { s.count .OBS_TRC_DROP_COUNT with trace := x } := by
  unfold Dev.traceNote Dev.traceRecord
  split
  · exact .inl ⟨s.trace, rfl⟩
  · split
    · exact .inl ⟨_, rfl⟩
    · exact .inr ⟨_, rfl⟩

@[simp] theorem Dev.observeCode_body (s : Dev) (code : Nat) : (s.observeCode code).body = s.body := by
  obtain ⟨c, hc⟩ := s.observeCode_only code
  rw [hc]; rfl
@[simp] theorem Dev.traceTrigger_body (s : Dev) (code : Nat) : (s.traceTrigger code).body = s.body := by
  rcases s.traceTrigger_only code with ⟨x, hx⟩ | ⟨x, hx⟩ <;> rw [hx]
  · rfl
  · exact s.wr_body _ _ _
@[simp] theorem Dev.traceNote_body (s : Dev) (src kind data : Nat) : (s.traceNote src kind data).body = s.body := by
  rcases s.traceNote_only src kind data with ⟨x, hx⟩ | ⟨x, hx⟩ <;> rw [hx]
  · rfl
  · exact s.wr_body _ _ _

/-- What a Tally event changes: its queue, or the flags of a full one, after the counters and the trace. -/
theorem Dev.tally_cases (s : Dev) (code unit partid v0 v1 : Nat) :
    ∃ d, d = ((s.observeCode code).traceNote 19 1 code).traceTrigger code ∧
      ((∃ q, s.tally code unit partid v0 v1 = { d with mlk := { d.mlk with queue := q } }) ∨
        s.tally code unit partid v0 v1 = (d.setFlag .TLY_STAT_QOVF 0 true).count .TLY_DROP_CNT) := by
  refine ⟨_, rfl, ?_⟩
  dsimp only [Dev.tally]
  split
  · exact .inl ⟨_, rfl⟩
  · exact .inr rfl

@[simp] theorem Dev.tally_body (s : Dev) (code unit partid v0 v1 : Nat) : (s.tally code unit partid v0 v1).body = s.body := by
  obtain ⟨d, hd, ⟨q, h⟩ | h⟩ := s.tally_cases code unit partid v0 v1 <;> rw [h]
  · have : d.body = s.body := by simp [hd]
    rw [← this]; rfl
  · simp [hd]

/-- A Tally event leaves every field alone but those of `logFields`. -/
theorem Dev.tally_rd (s : Dev) (code unit partid v0 v1 : Nat) (f : Field) (i : Nat) (hi : i < 1024) (h : (f, i) ∉ logFields) :
    (s.tally code unit partid v0 v1).rd f i = s.rd f i := by
  have out (g : Field) (hg : (g, 0) ∈ logFields) (d : Dev) (v : Nat) : (d.wr g 0 v).rd f i = d.rd f i :=
    d.rd_wr_ne _ _ _ _ v (by decide) hi fun e => h (by rw [← e.1, ← e.2]; exact hg)
  have hn (d : Dev) : (d.traceNote 19 1 code).rd f i = d.rd f i := by
    rcases d.traceNote_only 19 1 code with ⟨x, hx⟩ | ⟨x, hx⟩ <;> rw [hx]
    · rfl
    · exact out _ (by decide) d _
  have ht (d : Dev) : (d.traceTrigger code).rd f i = d.rd f i := by
    rcases d.traceTrigger_only code with ⟨x, hx⟩ | ⟨x, hx⟩ <;> rw [hx]
    · rfl
    · exact out _ (by decide) d _
  have ho : (s.observeCode code).rd f i = s.rd f i := by
    obtain ⟨c, hc⟩ := s.observeCode_only code
    rw [hc]; rfl
  obtain ⟨d, hd, ⟨q, e⟩ | e⟩ := s.tally_cases code unit partid v0 v1 <;> rw [e]
  · show d.rd f i = _
    rw [hd, ht, hn, ho]
  · simp only [Dev.count_eq, Dev.setFlag_eq]
    rw [out _ (by decide), out _ (by decide), hd, ht, hn, ho]

end Sys2Proof.Machine
end

