-- ==== Sys2Proof/Laws/Memory.lean ====
section
/-! SUPPORT. The laws of memory: a byte reads as it was written, a write leaves every other byte alone, and every operation keeps
the canonical form. -/

namespace Sys2Proof.Machine

open Sys2Proof

/-! ### Reading after writing -/

/-- A byte that exists reads as it was written. -/
@[simp] theorem Dev.byteAt_putByte_same (s : Dev) (a : Nat) (b : Byte) (h : dpaOk a = true) :
    (s.putByte a b).byteAt a = b := by simp [Dev.putByte, Dev.byteAt, h]

/-- Writing a byte leaves every other alone. -/
theorem Dev.byteAt_putByte_ne (s : Dev) {a k : Nat} (b : Byte) (h : k ≠ a) : (s.putByte a b).byteAt k = s.byteAt k := by
  unfold Dev.putByte
  split
  · simp [Dev.byteAt, tabGet_set_ne _ _ _ _ h]
  · rfl

/-- Writing bytes leaves every byte outside their span alone. -/
theorem Dev.byteAt_putBytes_out (s : Dev) (a : Nat) (l : List Byte) {k : Nat} (h : k < a ∨ a + l.length ≤ k) :
    (s.putBytes a l).byteAt k = s.byteAt k := by
  induction l generalizing s a with
  | nil => rfl
  | cons b l ih =>
    simp only [List.length_cons] at h
    rw [Dev.putBytes, ih _ _ (by omega), Dev.byteAt_putByte_ne _ _ (by omega)]

/-- A byte of a span that exists reads as it was written. -/
theorem Dev.byteAt_putBytes_in (s : Dev) (a : Nat) (l : List Byte) (i : Nat) (h : i < l.length)
    (ok : dpaOk (a + i) = true) : (s.putBytes a l).byteAt (a + i) = l[i] := by
  induction l generalizing s a i with
  | nil => simp at h
  | cons b l ih =>
    rw [Dev.putBytes]
    cases i with
    | zero =>
      rw [Dev.byteAt_putBytes_out _ _ _ (by omega)]
      simpa using Dev.byteAt_putByte_same s a b (by simpa using ok)
    | succ i =>
      have e : a + (i + 1) = a + 1 + i := by omega
      rw [e] at ok ⊢
      simpa using ih (s.putByte a b) (a + 1) i (by simpa using h) ok

/-- Every byte of a span that is cleared reads zero. -/
theorem Dev.byteAt_zeroBytes (s : Dev) (a n k : Nat) :
    (s.zeroBytes a n).byteAt k = if a ≤ k ∧ k < a + n then 0 else s.byteAt k := by
  unfold Dev.zeroBytes Dev.byteAt tabGet tabClear
  simp only
  induction s.mem with
  | nil => simp [tabFind?, memUnlisted]
  | cons e t ih =>
    obtain ⟨x, v⟩ := e
    by_cases hx : a ≤ x ∧ x < a + n
    · by_cases hk : x = k
      · subst hk
        simp only [hx] at ih
        simpa [List.filter, hx] using ih
      · simpa [List.filter, hx, tabFind?, hk] using ih
    · by_cases hk : x = k
      · subst hk
        simp [List.filter, hx, tabFind?]
      · simpa [List.filter, hx, tabFind?, hk] using ih

/-! ### The canonical form -/

theorem Dev.putByte_wf (s : Dev) (a : Nat) (b : Byte) (h : Memory.wf s.mem) : Memory.wf (s.putByte a b).mem := by
  unfold Dev.putByte
  split
  · exact tabWf_set h a b
  · exact h

theorem Dev.putBytes_wf (s : Dev) (a : Nat) (l : List Byte) (h : Memory.wf s.mem) : Memory.wf (s.putBytes a l).mem := by
  induction l generalizing s a with
  | nil => exact h
  | cons b l ih => exact ih _ _ (s.putByte_wf a b h)

theorem Dev.leWrite_wf (s : Dev) (a len v : Nat) (h : Memory.wf s.mem) : Memory.wf (s.leWrite a len v).mem := s.putBytes_wf _ _ h

theorem Dev.zeroBytes_wf (s : Dev) (a len : Nat) (h : Memory.wf s.mem) : Memory.wf (s.zeroBytes a len).mem :=
  tabWf_clear h fun k => decide (a ≤ k ∧ k < a + len)

theorem Dev.copyBytes_wf (s : Dev) (a b n : Nat) (h : Memory.wf s.mem) : Memory.wf (s.copyBytes a b n).mem := by
  unfold Dev.copyBytes
  generalize s.cellsIn a n = l
  have h' := s.zeroBytes_wf b n h
  generalize s.zeroBytes b n = d at h'
  induction l generalizing d with
  | nil => exact h'
  | cons c l ih => exact ih _ (d.putByte_wf _ _ h')

/-- What a reset and a power state keep of memory is canonical. -/
theorem Dev.keepMem_wf (s : Dev) (vat lpddr : Bool) (h : Memory.wf s.mem) : Memory.wf (s.keepMem vat lpddr).mem :=
  ⟨tabSorted_filter h.1 _, fun e he => h.2 e (List.mem_filter.1 he).1⟩

/-- Memory after reset is canonical. -/
theorem reset_mem_wf : Memory.wf State.reset.mem := tabWf_nil _

end Sys2Proof.Machine
end

