-- ==== Sys2Proof/Machine/Views.lean ====
section
/-! DEFINITION. What BAR0 shows (R9, R371): the read-only fields that follow from other state, and the words and buffer windows. The
table has no row that reads BAR0, so no command uses these. -/

namespace Sys2Proof.Machine

open Sys2Proof

/-- The pipe drains for the first 250 ICLK cycles of its slot (R94). [DESIGN CHOICE, log 124] -/
def Dev.draining (s : Dev) (t : PipeSlot) : Bool := decide (s.pipeCycles t < 250)

/-- Then it replays the halo of its slot (R94). [DESIGN CHOICE, log 124] -/
def Dev.replaying (s : Dev) (t : PipeSlot) : Bool := !s.draining t && decide (s.pipeCycles t < 250 + t.halo)

/-- A committed run holds an output on (R269). -/
def Dev.outputOn (s : Dev) (o : Nat) : Bool :=
  s.fires.any fun f => f.out == o && f.fired && f.offEdge.all fun e => decide (s.xclk < e)

/-- A field that follows from other state, or whose value the implementation fixes or no row measures.
[DESIGN CHOICE, log 9] -/
def Dev.viewed (s : Dev) (f : Field) (i : Nat) : Option Nat :=
  let stamp := s.tb.txq.head?
  let yes := fun (b : Bool) => some b.toNat
  match f with
  | .ITK_PIPE_STAT_DRAIN => yes ((tabFind? s.pipes i).any fun p => s.draining p)
  | .ITK_PIPE_STAT_REPLAY => yes ((tabFind? s.pipes i).any fun p => s.replaying p)
  | .MMU_FAULTQ_CNT => some s.faultq.length
  | .JOB_STAT_ADMITTED => some s.jobs.length
  | .JOB_Q_STAT_EMPTY => yes (s.rd .JOB_Q_HEAD i == s.rd .JOB_Q_TAIL i)
  | .DEC_Q_STAT_EMPTY => yes (s.rd .DEC_Q_HEAD i == s.rd .DEC_Q_TAIL i)
  | .SEP_FIREQ_LVL => some s.fires.length
  | .SEP_PARTS_INTABLE => some s.inTable
  | .SEP_PARTS_OVFL => some s.inOverflow
  | .SEP_LATEREC_CNT => some (s.counter32 144)
  | .SEP_MISS_CNT => some (s.counter32 145)
  | .SEP_BADREC_CNT => some (s.counter32 146)
  | .SEP_QFULL_CNT => some (s.counter32 147)
  | .SEP_LATEOFF_CNT => some (s.counter32 148)
  | .SEP_OUT_ST_PEND => yes (s.fires.any fun f => f.out == i && (f.onEdge.isNone || f.offEdge.isNone))
  | .SEP_OUT_ST_ON => yes (s.outputOn i)
  | .TCH_STAT_CAPON => yes (s.anyFlag .TCH_CAP_CTL_EN 32)
  | .TIM_NS => some (s.ns40 % 2 ^ 32)
  | .TIM_TXQ0_SEQID => stamp.map fun t => t.seqId
  | .TIM_TXQ0_MSGTYPE => stamp.map fun t => t.msgType
  | .TIM_TXQ0_PORT => stamp.map fun t => t.port
  | .TIM_TXQ0_SGEN => stamp.map fun t => t.sgen
  | .TIM_TXQ0_VALID => yes stamp.isSome
  | .TIM_TXQ1_NS => stamp.map fun t => t.time % 2 ^ 32
  | .TIM_TXQ2_FRAC => stamp.map fun t => t.frac
  | .TIM_TXQ2_WRAP => stamp.map fun t => t.time / 2 ^ 32 % 256
  | .TIM_TXQ_STAT_COUNT => some s.tb.txq.length
  | .GLB_IRQ_STAT => some (maskOf ((upTo 16).filter fun v => s.irqPending v))
  | .IND_STAT_BUSY => yes s.indBusy
  | .ZXL_EQA_DFE1 | .ZXL_EQA_CTLE | .ZXL_EQB_DFE2 | .ZXL_EYE_VERT | .ZXL_EYE_HORZ | .ETH_RXERR_CNT =>
    some (s.freeValue f.desc.width)
  | .GLB_PCIID => some (Config.pciId % 2 ^ 32)
  | _ => none

/-- What a read of a field gives: a command field reads zero. -/
def Dev.shown (s : Dev) (f : Field) (i : Nat) : Nat :=
  if f.desc.access = .wo then 0 else (s.viewed f i).getD (s.rd f i)

/-- The record at the head of the fault queue, shown from 0x0068_0200 on (R181). -/
def Dev.faultqHead (s : Dev) : List Byte := s.faultq.headD []

/-- What a read of the aligned word at a BAR0 offset gives; what is not implemented reads zero (R9). -/
def Dev.wordShown (s : Dev) (a : Nat) : Nat :=
  if inRange 0x680200 0x68021F a then ofLe (((s.faultqHead).drop (a - 0x680200)).take 4)
  else if (windowOwner a).isSome then ofLe (s.barBytes a 4)
  else (slicesAt a).foldl (fun w sl => setBits w sl.lo sl.n (bits (s.shown sl.field sl.inst) sl.ofs sl.n)) 0

/-- What a read of `n` bytes at a BAR0 offset gives: an aligned word, or two, the lower first; any other read gives zero (R371).
[DESIGN CHOICE, log 9] -/
def Dev.busShown (s : Dev) (a n : Nat) : Nat :=
  if n = 4 ∧ a % 4 = 0 then s.wordShown a
  else if n = 8 ∧ a % 8 = 0 then s.wordShown a + 2 ^ 32 * s.wordShown (a + 4)
  else 0

end Sys2Proof.Machine
end

