-- ==== Sys2Proof/Tests/Slice0.lean ====
section
/-! SUPPORT. The tests: one ill-formed command for each check, worked examples of the spec and published check values, and for every
statement with hypotheses a concrete state and operands that meet them, clause by clause (`witness_<statement>`). -/

namespace Sys2Proof.Tests

open Sys2Proof Sys2Proof.Machine

set_option Elab.async false

/-! ### Helpers -/

/-- The module right after reset, with firmware banks whose contents a test can read. -/
def base : Dev := { State.reset.toDev with mlk := { State.reset.mlk with bank0 := [], bank1 := [] } }

/-- The same in the Run state. -/
def running : State := { toDev := { base with power := .run } }

/-- The same with an address on each Ethernet port, so that classes C and M are answered (R353). -/
def networked : State :=
  { toDev := (upTo 3).foldl (fun (d : Dev) p => (d.wr .ETH_CTL_EN p 1).setOd (0x6100 + p) 4 0x0A000001) running.toDev }

/-- The command answers a next state of which `p` holds. -/
def after? (c : Instr) (s : State) (p : State → Bool) : Bool := match exec c s with
  | .next t => p t
  | _ => false

/-- The command leaves everything as it is. -/
def ignored (c : Instr) (s : State) : Bool := after? c s fun t => t == s

/-! ### Well-formedness: one ill-formed command for each check, which changes nothing -/

def badHdr : ZHdr := { seq := 4096, ack := 0, nak := false, rxup := true, src := 0, dst := 1, bc := false }
def okHdr : ZHdr := { badHdr with seq := 1 }
def badRecord : VerdictRec := { partid := 2 ^ 32, verdict := 0, lane := 0, member := 0, resv := 0, aux := 0 }
def someReq : DictReq :=
  { magic := 0x4E47, version := 1, op := 1, reqid := 5, index := 0x1000, sub := 3, member := 0xFF, offset := 0, length := 0, flags := 0,
    resv := 0, data := [], src := 9 }
def someMap : MapDesc :=
  { base := 0, expBase := 0, rowPitch := 128, planePitch := 1024, w := 4, c := 2, ringRows := 0, fmt := 0, layout := 0, skim := 0,
    ring := false, resv := 0, sPlanePitch := 0, h := 4 }
def someWin : WinDesc :=
  { kh := 1, kw := 2, sh := 1, sw := 1, dh := 1, dw := 1, pt := 0, pb := 0, pl := 0, pr := 0, padMode := 0, vroll := false, op := 0,
    resv := 0, padVal := 0, groups := 1, cout := 2 }
def badMap : MapDesc := { someMap with w := 65536 }
def badWindow : WindowOp :=
  { src := badMap, dst := someMap, win := someWin, wmap := someMap, segStart := 0,
    segRows := 0, y0 := 1, y1 := 2, x0 := 1, x1 := 2, c0 := 1, c1 := 2, signedA := true, signedB := true, readInt := false }

def badImage : RecipeImage :=
  { build := 2 ^ 32, vatKiB := 0, spill := 0, skimRates := [], counters := [], standing := [], replay := 0, weightLen := 0 }

def badStimuli : List Instr :=
  [.sincosSample 0 2048 0 0, .sincosSample 0 0 0 4096, .bissCycleComplete 0 (2 ^ 64) true true 0, .bissCycleComplete 0 0 true true 64,
    .lineMasterChange .h 256, .deadlineReached (2 ^ 32), .partMaxLength 0 (2 ^ 64),
    .recipeLoad .h 0 badImage,
    .recipeSwitch .h 256, .verdictRecord badRecord, .linkDeviceDetect 0 16 0, .linkDeviceDetect 0 0 (2 ^ 32), .eqUpdate 0 (2 ^ 25) 0 0 0,
    .eqUpdate 0 0 16 0 0, .eqUpdate 0 0 0 256 0, .eqUpdate 0 0 0 0 256, .proxyRead 0 .host (2 ^ 32) 4, .proxyRead 0 .host 0 65536,
    .proxyWrite 0 .host 0 4 [1], .proxyAck 0 (.wait 65536), .proxyAck 0 (.nack 65536), .proxyAck 0 (.done (List.replicate 257 0)),
    .streamPacket 0 256 true .piece, .streamPacket 0 0 true (.header 65536), .streamPacket 0 0 true (.line [65536]),
    .bankSwitchArm 0 65536 true]

def badWork : List Instr :=
  [.groupBarrier 0 { gang := 256 },
    .dmaTransfer 0 { map := badMap, toMem := true, plane := 0, row := 0, ls := 0, walkError := none } .clean,
    .convolution 0 badWindow, .pooling 0 badWindow, .blockCrcResend 32 0 1, .blockCrcResend 0 0 0, .lpddrRefresh 16 0, .mmuInvalidate 4 0,
    .mmuInvalidate 0 16, .queueTailWrite .host 0 65536, .synSignalAdd 16384, .synReset 16384, .synRdidxLatch 16384, .libReserve (2 ^ 32),
    .sampleDecodeDone 65536 .syntaxError, .validationStart .h 256, .validationComplete [⟨0, 256⟩], .cheapPointReached 0 [(0x400000, 1)],
    .takeover 0 1 5 4 (.int8, .int8),
    .vectorInstruction 0 { op := .iadd, gang := 256, regs := 16, mask := 0, d := 0, a := 0, b := 0, c := 0, imm := 0 }]

def badFrames : List Instr :=
  [.pos 0 badHdr { pos := 0, speed := 0, time := 0, flags := 0, bseq := 0, accel := 0 },
    .pos 0 okHdr { pos := 2 ^ 64, speed := 0, time := 0, flags := 0, bseq := 0, accel := 0 }, .time 0 okHdr (2 ^ 40) 0 0,
    .part 0 okHdr { partid := 0, lane := 64, slot := 0, close := true, start := 0, fin := 0 }, .verd 0 okHdr [], .verd 0 okHdr [badRecord],
    .mark 0 okHdr { start := 0, fin := 0, lanes := 2 ^ 64, code := 0, ident := 0 }, .pres 0 okHdr (2 ^ 64) 0 true,
    .dict 0 okHdr { someReq with index := 65536 } true, .bulk 0 okHdr 0 0 true [0], .bulk 0 okHdr (2 ^ 37) 0 true (List.replicate 128 0),
    .hello 0 okHdr { member := 0, role := 4, tsync := true, slots := List.replicate 8 0 }, .switch 0 okHdr 8 0, .idleFrame 0 badHdr true,
    .zanyxNak 0 4096, .zanyxBadFrame 0 2 5 true, .dictRelayTimeout (2 ^ 32)]

def badSystem : List Instr :=
  [.timeStep .host (2 ^ 63), .timeRateWrite .host (2 ^ 31),
    .ptpMessage { tx := true, port := 3, msgType := 0, seqId := 0, bytes := [], offset := none },
    .ptpGeneralMessage { tx := true, port := 0, msgType := 0, seqId := 0, bytes := [], offset := none } (some 3),
    .dictRead .h { someReq with op := 2 }, .dictWrite .h { someReq with op := 2, length := 4 } false, .dictInfo .h someReq,
    .dictReadseg .h { someReq with op := 4, data := [1], length := 1 }, .dictWriteseg .h someReq false, .segmentSequenceTimeout 65536 0,
    .malformedDatagram (.badHeader .c { someReq with sub := 256 }), .malformedDatagram (.queueFull 3), .indDataWrite (2 ^ 32),
    .irqAck (2 ^ 32), .registerWrite .host (2 ^ 24) 4 0, .registerWrite .host 0 2 65536, .registerWrite .host 0 1 256, .failstartClear .h 256,
    .blockReset .host 256, .sensorRead { temps := [], volts := [], amps := [], tach0 := 0, tach1 := 0 }, .selfTestDone 0 true 256,
    .traceRecord ⟨256, 0, 0⟩, .hostApertureAccess true (2 ^ 29) none 1 .clean, .hostApertureAccess false 0 (some [1]) 2 .clean]

theorem test_bad_stimuli_ignored : (badStimuli.all fun c => !c.wf && ignored c running) = true := by decide +kernel
theorem test_bad_work_ignored : (badWork.all fun c => !c.wf && ignored c running) = true := by decide +kernel
theorem test_bad_frames_ignored : (badFrames.all fun c => !c.wf && ignored c running) = true := by decide +kernel
theorem test_bad_system_ignored : (badSystem.all fun c => !c.wf && ignored c running) = true := by decide +kernel

/-! ### Tables, checks and numbers -/

/-- The list of fields is in the order of their numbers. -/
theorem test_field_order : Machine.Field.all.map Machine.Field.ctorIdx = List.range Machine.Field.all.length := by decide +kernel

/-- No row of the table has bits. -/
theorem test_no_word_decodes : decodeTableWord 32 0xFFFFFFFF = none := by rfl

/-- The check value of CRC-32 (IEEE 802.3, R300) over "123456789", as published with the standard. -/
theorem test_crc32 : crc32 (leBytes 0x393837363534333231 9) = 0xCBF43926 := by decide +kernel

/-- CRC-16 of barrier frames (R271): the published check value of polynomial 0x1021 with initial value 0xFFFF over "123456789". -/
theorem test_crc16 : crc16 72 0x313233343536373839 = 0x29B1 := by decide +kernel

/-- Philox-4×32 with 10 rounds (R302): the known answer of its publication for a key and a counter of zeros. -/
theorem test_philox : philox 0 0 0 0 0 = (0x6627E8D5, 0xE169C58D, 0xBC57AC4C, 0x9B00DBD8) := by decide +kernel

/-- The example after R119: 13.7 as FP32, scale 0x7A, element 0x7E; −2.9, 0.05 and 0.001 give 0xEC, 0x3D and 0x10. -/
def exampleMx : List FVal := [fFp32.decode 0x415B3333, fFp32.decode 0xC039999A, fFp32.decode 0x3D4CCCCD, fFp32.decode 0x3A83126F]
theorem test_mx_scale : mxScale .mxE4m3 exampleMx = 0x7A := by decide +kernel
theorem test_mx_elements :
    (exampleMx.map fun v => (mxElem .mxE4m3 .rne 0 (scaled v 5)).1) = [0x7E, 0xEC, 0x3D, 0x10] := by decide +kernel

/-- The example after R155: 5.25, −0.6875, 0.09375 and 0 at rate 8 give exponent byte 0x81 and codes 0x54, 0xF5, 0x01 and 0x00, and
decode to 5.28125, −0.65625, 0.09375 and 0.03125 in FP16. -/
def exampleSkim : SkimBlock := skimEncode 8 ([.fin false 21 (-2), .fin true 11 (-4), .fin false 3 (-5)]
    ++ List.replicate 29 (.fin false 0 0))
theorem test_skim_encode : exampleSkim.x = 0x81 ∧ exampleSkim.codes.take 4 = [0x54, 0xF5, 0x01, 0x00] := by decide +kernel
theorem test_skim_decode :
    ([0x54, 0xF5, 0x01, 0x00].map fun q => fFp16.decode (skimDecode fFp16 8 0x81 q)).map (fun v => isZero (v.add (.fin true 169 (-5)))) =
      [true, false, false, false] ∧ skimDecode fFp16 8 0x81 0 = 0x2800 := by decide +kernel

/-- The example before R218: 1 + 2^−24 is a tie that rounds to even, and 2^−23 + 1 is 1.00000011920928955. -/
theorem test_threshold_flip :
    (fFp32.addC 0x3F800000 0x33800000).1 = 0x3F800000 ∧ (fFp32.addC 0x34000000 0x3F800000).1 = 0x3F800001 := by decide +kernel

/-- The example after R301: a fixed-rate line of 16,384 samples at rate 6 takes 12,800 bytes, a lossless one at least 2,308. -/
theorem test_strip_lines : lineSize 2 6 1 16384 = 12800 ∧ lineSize 1 0 1 16384 = 2308 := by decide +kernel

/-- R304: the order of an epoch visits each of 10 entries once. -/
theorem test_epoch_order_is_a_permutation :
    (upTo 10).all (fun k => ((upTo 10).map (epochOrder 7 3 10)).contains k) = true := by decide +kernel

/-! ### Encoders and generators -/

/-- The example after R246: START 1,000,000 ct and SPACE 0x35555; a hit at count 1,000,004, not at 1,000,003. -/
def gen2 (ct : Nat) : State :=
  { toDev := running.wr .ENC_CG_SPACE 2 0x35555 |>.wr .ENC_CG_START 2 (cts 1000000) |>.wr .ENC_CG_NEXT 2 (cts 1000000 + 0x35555) |>.wr .ENC_CG_CTL_CONTINUOUS 2 1
      |>.wr .ENC_CG_STAT_RUN 2 1 |>.wr .ENC_CG_STAT_FSTOP 2 0 |>.wr .ENC_CG_CTL_SRC 2 1 |>.wr .ENC_POS 1 (cts ct) }
theorem test_hit_at_the_fourth_count :
    after? (.compareHit 2) (gen2 1000004) (fun t => t.rd .ENC_CG_NEXT 2 == cts 1000000 + 2 * 0x35555) = true ∧
    after? (.compareHit 2) (gen2 1000003) (fun t => t.rd .ENC_CG_NEXT 2 == cts 1000000 + 0x35555) = true := by decide +kernel

/-- The example at the end of the scope chapter: CONTINUOUS 0 and COUNT 0 issue no trigger at all. -/
theorem test_no_trigger_at_all :
    after? (.cgArm 2) { toDev := (gen2 1000000).wr .ENC_CG_CTL_CONTINUOUS 2 0 |>.wr .ENC_CG_COUNT 2 0 }
      (fun t => t.flag .ENC_CG_STAT_DONE 2 && !t.flag .ENC_CG_STAT_RUN 2) = true := by decide +kernel

/-- R227: one valid transition moves the channel by one count, downwards with INV set. -/
theorem test_edge_with_inv :
    after? (.encoderEdge 1 .up) { toDev := running.wr .ENC_CFG_EN 1 1 |>.wr .ENC_CFG_INV 1 1 |>.wr .ENC_POS 1 65536 }
      (fun t => t.rd .ENC_POS 1 == 0) = true := by decide +kernel

/-- R47: XCLK starts, and a generator whose compare value has passed runs on beyond the position. -/
theorem test_passed_value_is_left :
    after? .xclkStart { toDev := { (gen2 1000050).toDev with xclkOn := false } }
      (fun t => t.flag .ENC_CG_STAT_RUN 2 && !atOrAfter (t.srcPos 2) (t.rd .ENC_CG_NEXT 2)) = true := by decide +kernel

/-! ### Parts and the Separator -/

/-- R31, R32: rank decides which verdict a part keeps. -/
theorem test_higher_rank_stays : mergeCode 0xE3 0x21 = 0xE3 ∧ mergeCode 0x21 0xE3 = 0xE3 := by decide +kernel

/-- R27: a part's number after 0xFFFFFFFE wraps to 0. -/
theorem test_part_numbers_wrap : nextPartId 0xFFFFFFFE = 0 ∧ nextPartId 5 = 6 := by decide +kernel

/-- The example after R268: p = 9,068,784 ct, 400,000 ct/s braking at 200,000 ct/s², latency 3,000 µs; the ON edge is committed 42,315.0 ns
ahead, which is 16,926 ticks. Four counts before, the lead is 52.3 µs, above 50 µs. -/
def braking (ct : Nat) : Dev :=
  running.wr .ENC_POS 0 (cts ct) |>.wr .ENC_SPEED 0 (cts 400000) |>.wr .ENC_ACCEL 0 (2 ^ 64 - cts 200000) |>.wr .SEP_OUT_LAT 4 3000
theorem test_commit_under_braking :
    ((braking 9068784).leadOf (cts 9070000) 4).map (braking 9068784).edgeOf = some 16926 := by decide +kernel
theorem test_lead_before_the_commit :
    ((braking 9068780).leadOf (cts 9070000) 4).map (fun l => leadBelow l 20932 && leadAbove l 20920) = some true := by decide +kernel

/-! ### Start, resets and maintenance -/

def atStage2 (n : Nat) : State := { toDev := { base with power := .start } |>.wr .RCP_STATE_STAGE 0 2 |>.wr .RCP_FAILSTART_COUNT 0 n }

/-- The example before R402: with FAILLIM 3, a count of 2 is stored as 3, and a count of 3 leads to Recovery. -/
theorem test_three_failed_starts :
    after? (.startStageComplete false) (atStage2 2) (fun t => t.rd .RCP_FAILSTART_COUNT == 3 && t.rd .RCP_STATE_STAGE == 3) = true ∧
    after? (.startStageComplete false) (atStage2 3) (fun t => t.power == .recovery) = true := by decide +kernel

/-- R385: a pulse of 2 ms on RST_N is a warm reset with cause 3; one of 20 ms is cold, with cause 4. -/
theorem test_reset_pulses :
    after? (.rstNRelease 2) { toDev := { base with power := .resetting } } (fun t => t.rd .RCP_CAUSE == 3) = true := by decide +kernel

/-- The example after R417: a rewrite of the option bytes asked for while a bank is written is QUEUED. -/
theorem test_rewrite_waits_for_the_bank :
    after? (.maintenanceRequest .m .O) { toDev := networked.wr .MLK_MNT_ST 2 2 } (fun t => t.mntSt .O == 1 && t.mntSt .F == 2) = true := by
  decide +kernel

/-- R374: a write by a source that owns no field of the word sets OWNERR and is counted. -/
theorem test_owner_error :
    after? (.registerWrite .host 0x00700100 4 1) running
      (fun t => t.flag .GLB_ERR_STAT_OWNERR && t.rd .GLB_OWNERR_CNT == 1) = true := by decide +kernel

/-- R216: reproducible mode is written over the dictionary by the controller, not by the maintenance port. -/
theorem test_repro_mode :
    after? (.reproModeWrite .c true) networked (fun t => t.flag .GLB_MODE_REPRO && t.svc.lastStatus == stOk) = true ∧
    after? (.reproModeWrite .m true) networked (fun t => !t.flag .GLB_MODE_REPRO && t.svc.lastStatus == stDenied) = true := by decide +kernel

/-- R26, and the model's reading of PRES with the module's own number (log 31): the presence kernel's report makes a lane occupied. -/
theorem test_own_presence :
    after? (.pres 0 okHdr (5 * 65536) 0 true) running (fun t => (t.lane 0).present) = true := by decide +kernel

/-- What the statement HerdFramesTaken asks for the report of the module's own presence kernel. -/
theorem witness_own_presence :
    okHdr.wf = true ∧ running.live = true ∧ okHdr.src = running.memberNo ∧ running.worker = false ∧ running.detectInput 0 = none := by
  decide +kernel

/-- R370, R383: the host writes the MSI-X table, firmware does not, and PERST# clears it. -/
theorem test_msix_table :
    after? (.registerWrite .host 0x00FF0010 4 0x01020304) running (fun t => t.barBytes 0xFF0010 2 == [4, 3]) = true ∧
    after? (.registerWrite .firmware 0x00FF0010 4 1) running (fun t => t.bar == [] && t.flag .GLB_ERR_STAT_OWNERR) = true ∧
    after? .pcieReset { toDev := running.putBar 0xFF0010 4 } (fun t => t.bar == []) = true := by decide +kernel

/-- R3, R9, R371: `GLB_ID` reads 0x4E96_00A1; a misaligned read and an unimplemented word read zero; `TIM_TXQ0` shows no stamp. -/
theorem test_bus_reads :
    running.busShown 0 4 = 0x4E9600A1 ∧ running.busShown 1 4 = 0 ∧ running.busShown 0x00FE0000 4 = 0 ∧
    (running.putBar 0xFF0010 4).busShown 0xFF0010 4 = 4 := by decide +kernel

/-! ### Witnesses: the whole machine -/

/-- Two commands wait: one moves channel 1, one is an estimate tick. -/
def queued : State :=
  { running with pending := [.encoderEdge 1 .up, .estimateTick], mem := [(5, 7), (0x20000001, 9)] }

theorem witness_StepRunsFrontCommand : queued.pending = .encoderEdge 1 .up :: [.estimateTick] ∧ running.pending = [] := by decide +kernel
theorem witness_EveryCommandCompletes : (Instr.encoderEdge 1 .up).wf = true ∧ (Instr.recipeSwitch .h 256).wf = false := by decide +kernel
theorem witness_QueueRunsToEmpty :
    1 ≤ queued.pending.length ∧
    (match Sys2Proof.Machine.step queued with
      | .next t => t.pending.length == 1
      | _ => false) = true := by decide +kernel
theorem witness_MemoryStaysCanonical :
    (queued.mem.all fun e => dpaOk e.1) = true ∧ Memory.wf queued.mem ∧
    (match Sys2Proof.Machine.step { queued with pending := [.estimateTick] } with
      | .next t => t.mem.length > 2
      | _ => false) = true := by decide +kernel

/-! ### Witnesses of clauses about the next state -/

/-- `ModesAreWritten`: fixed-schedule mode is entered at once where every Churn runs. -/
theorem witness_ModesAreWritten_entered :
    after? (.fixedModeWrite .h true) { toDev := (upTo 16).foldl (fun (d : Dev) n => d.wr .CHN_STAT_PWR n 3) running.toDev }
      (fun t => t.flag .GLB_MODE_FIXED && (upTo 16).all fun n => t.rd .CHN_STAT_PWR n == 3) = true := by decide +kernel

/-- `LinkLockAndPower`: a link whose power is not enabled. -/
theorem witness_LinkLockAndPower_unpowered : running.flag .CXP_LNK_CTL_PWR_EN 5 = false := by decide +kernel

/-- `PassedHitsAndTriggers`: a generator still runs after XCLK has started. -/
theorem witness_PassedHitsAndTriggers_running :
    after? .xclkStart { toDev := { (gen2 1000050).toDev with xclkOn := false } }
      (fun t => t.flag .ENC_CG_STAT_RUN 2 && !t.flag .ENC_CG_STAT_FSTOP 2) = true := by decide +kernel

/-! ### Witnesses: Encoders -/

namespace Encoders

def vEnc (d : Dev) (ty : Nat) : State := { toDev := ({ d with power := .run }).wr .ENC_CFG_EN 1 1 |>.wr .ENC_CFG_TYPE 1 ty }
def wEnc (d : Dev) (ty : Nat) : Dev := ({ d with power := .run }).wr .ENC_CFG_EN 1 1 |>.wr .ENC_CFG_TYPE 1 ty |>.wr .ENC_CFG_ZEN 1 1
    |>.wr .ENC_CFG_INTERP 1 12
  |>.wr .ENC_WIN_AMIN 1 0 |>.wr .ENC_WIN_AMAX 1 3000  |>.wr .ENC_BISS_LEN 1 20 |>.wr .ENC_ZPER 1 5
def S (d : Dev) : State := { toDev := d }
def o1 (ty : Nat) (e : Encoder) : State := S <| (wEnc base ty).setEnc 1 e
def o2 (m : Nat) (e : Encoder) : State := S <| ((wEnc base 0).setEnc 1 e).wr .ENC_MSTAT_MASTER 0 m |>.wr .HRD_CTL_ROLE 0 1
def o3 : Dev := (o2 1 {}).wr .ENC_CG_SPACE 2 70000 |>.wr .ENC_CG_STAT_RUN 2 1 |>.wr .ENC_CG_STAT_FSTOP 2 0
    |>.wr .ENC_CG_NEXT 2 500000 |>.wr .ENC_POS 1 500001 |>.wr .ENC_CG_CTL_SRC 2 1
def o4 : Dev := (List.range 8).foldl (fun (d : Dev) (g : Nat) => d.wr .ENC_CG_SPACE g (70000+g) |>.wr .ENC_CG_NEXT g 100
    |>.wr .ENC_CG_CTL_SRC g (g%5)) ((List.range 4).foldl (fun (d : Dev) (c : Nat) => d.wr .ENC_CFG_TYPE c 0
    |>.wr .ENC_POS c (1000000*c)) {o3 with xclkOn := false})
def o5 : Dev := (o3.setTrg 3 { due := [5, 6] }).wr .ENC_TRG_CFG_EN 3 1 |>.setLink 4 {triggers := [(9, 8), (7,7)]}
    |>.wr .CXP_LNK_CTL_EN 4 1 |>.wr .CXP_LNK_CTL_UPTRIG 4 1 |>.wr .CXP_LNK_CTL_MASTER 4 4
def o6 : Dev := {o5 with xclkOn := false} 
def o7 (p st : Nat) : State := S (o3.wr .ENC_POS 1 p |>.wr .ENC_CG_START 2 st)

/-! `EncoderEdges` -/

def encoderEdges1 : State := vEnc base 0
theorem witness_EncoderEdges_1 :
    encoderEdges1.chOn 1 = true ∧ encoderEdges1.rd .ENC_CFG_TYPE 1 = 0 ∧ (encoderEdges1.enc 1).detected = 0 := by
  decide +kernel

def encoderEdges2 : State := vEnc base 1
theorem witness_EncoderEdges_2 :
    encoderEdges2.chOn 1 = true ∧ encoderEdges2.rd .ENC_CFG_TYPE 1 = 1 := by
  decide +kernel

/-! `ChannelSamples` -/

def channelSamples1 : State := o1 2 { biss := some 5, bissOpen := true, crcRun := 2 }
theorem witness_ChannelSamples_1 :
    channelSamples1.chOn 1 = true ∧ channelSamples1.rd .ENC_CFG_TYPE 1 = 2 ∧ (channelSamples1.enc 1).bissOpen = true ∧
    1048570 < 2 ^ channelSamples1.rd .ENC_BISS_LEN 1 ∧ channelSamples1.rd .ENC_BISS_LEN 1 ≤ 64 ∧
    (channelSamples1.enc 1).biss = some 5 ∧ (channelSamples1.enc 1).woken = false ∧
    (sgn (channelSamples1.rd .ENC_BISS_LEN 1) (1048570 + 2 ^ channelSamples1.rd .ENC_BISS_LEN 1 - 5)).natAbs ≤ channelSamples1.rd .ENC_MAXSTEP 1 ∧
    fitsU 64 1048570 = true ∧
    0 ≠ bissCrc (channelSamples1.rd .ENC_BISS_LEN 1) (wrap (channelSamples1.rd .ENC_BISS_LEN 1) 1048570) true false ∧
    2 ≤ (channelSamples1.enc 1).crcRun := by
  decide +kernel

def channelSamples2 : State := S (((wEnc base 1).setEnc 1 {}).wr .ENC_WIN_AMIN 1 2000 |>.wr .ENC_CFG_FLTN 1 1)
theorem witness_ChannelSamples_2 :
    channelSamples2.chOn 1 = true ∧ channelSamples2.flag .ENC_CFG_ZEN 1 = true ∧ channelSamples2.rd .ENC_CFG_TYPE 1 ≠ 2 ∧
    channelSamples2.rd .ENC_CFG_TYPE 1 = 1 ∧
    (isqrt (1000 * 1000 + -1000 * -1000).toNat < channelSamples2.rd .ENC_WIN_AMIN 1 ∨ channelSamples2.rd .ENC_WIN_AMAX 1 < isqrt (1000 * 1000 + -1000 * -1000).toNat) ∧
    channelSamples2.rd .ENC_CFG_FLTN 1 ≤ (channelSamples2.enc 1).outRun + 1 := by
  decide +kernel

def channelSamples3 : State := o1 0 { zPrev := some 7 }
theorem witness_ChannelSamples_3 :
    channelSamples3.chOn 1 = true ∧ channelSamples3.flag .ENC_CFG_ZEN 1 = true ∧ channelSamples3.rd .ENC_CFG_TYPE 1 ≠ 2 ∧
    (channelSamples3.enc 1).zPrev = some 7 ∧ channelSamples3.rd .ENC_ZPER 1 ≠ 0 ∧
    (Machine.sdiff (channelSamples3.rd .ENC_POS 1) 7).natAbs ≠ cts (channelSamples3.rd .ENC_ZPER 1) := by
  decide +kernel

def channelSamples4 : State := o1 1 { phase := some 4000 }
theorem witness_ChannelSamples_4 :
    channelSamples4.chOn 1 = true ∧ channelSamples4.rd .ENC_CFG_TYPE 1 = 1 ∧
    channelSamples4.rd .ENC_WIN_AMIN 1 ≤ isqrt (1000 * 1000 + -1000 * -1000).toNat ∧
    isqrt (1000 * 1000 + -1000 * -1000).toNat ≤ channelSamples4.rd .ENC_WIN_AMAX 1 ∧ (channelSamples4.enc 1).phase = some 4000 ∧
    (channelSamples4.flag .ENC_STAT_COARSE 1 = false ∨ (channelSamples4.enc 1).lost = false ∧ (channelSamples4.enc 1).fast = false) := by
  decide +kernel

def channelSamples5 : State := o1 2 { biss := some 5 }
theorem witness_ChannelSamples_5 :
    channelSamples5.chOn 1 = true ∧ channelSamples5.rd .ENC_CFG_TYPE 1 = 2 ∧ (channelSamples5.enc 1).bissOpen = false := by
  decide +kernel

def channelSamples6 : State := S (((wEnc base 1).setEnc 1 {outRun := 1}).wr .ENC_WIN_AMAX 1 1000 |>.wr .ENC_CFG_FLTN 1 3)
theorem witness_ChannelSamples_6 :
    channelSamples6.chOn 1 = true ∧ channelSamples6.rd .ENC_CFG_TYPE 1 = 1 ∧
    (isqrt (1000 * 1000 + -1000 * -1000).toNat < channelSamples6.rd .ENC_WIN_AMIN 1 ∨ channelSamples6.rd .ENC_WIN_AMAX 1 < isqrt (1000 * 1000 + -1000 * -1000).toNat) ∧
    (channelSamples6.enc 1).outRun + 1 < channelSamples6.rd .ENC_CFG_FLTN 1 := by
  decide +kernel

/-! `EncoderFaultSetAndCleared` -/

def encoderFaultSetAndCleared1 : State := S ((o2 1 {detected := 3}).wr .ENC_STAT_FAULT 1 0)
theorem witness_EncoderFaultSetAndCleared_1 :
    (encoderFaultSetAndCleared1.enc 1).detected ≠ 0 ∧ (encoderFaultSetAndCleared1.enc 1).detected < 8 ∧
    encoderFaultSetAndCleared1.flag .ENC_STAT_FAULT 1 = false ∧ encoderFaultSetAndCleared1.master = 1 ∧
    encoderFaultSetAndCleared1.worker = false := by
  decide +kernel

def encoderFaultSetAndCleared2 : State := S ((o2 1 {}).wr .ENC_STAT_FAULT 1 1|>.wr .ENC_STAT_FLTOPEN 1 1)
theorem witness_EncoderFaultSetAndCleared_2 :
    encoderFaultSetAndCleared2.flag .ENC_STAT_FAULT 1 = true ∧
    ((encoderFaultSetAndCleared2.enc 1).present || (encoderFaultSetAndCleared2.enc 1).lost || (encoderFaultSetAndCleared2.enc 1).fast) = false ∧
    encoderFaultSetAndCleared2.flag .ENC_STAT_FLTOPEN 1 = true := by
  decide +kernel

def encoderFaultSetAndCleared3 : State := S ((o2 1 {present := true}).wr .ENC_STAT_FAULT 1 1|>.wr .ENC_STAT_FLTOPEN 1 1)
theorem witness_EncoderFaultSetAndCleared_3 :
    ((encoderFaultSetAndCleared3.enc 1).present || (encoderFaultSetAndCleared3.enc 1).lost || (encoderFaultSetAndCleared3.enc 1).fast) = true := by
  decide +kernel

/-! `LineMasterChangesWithoutJump` -/

def lineMasterChangesWithoutJump1 : State := S ((o2 1 {}).wr .SEP_CTL_ARM 0 0)
theorem witness_LineMasterChangesWithoutJump_1 :
    lineMasterChangesWithoutJump1.answers Port.h = true ∧ lineMasterChangesWithoutJump1.power ≠ Power.recovery ∧
    fitsU 8 2 = true ∧ 2 ≠ lineMasterChangesWithoutJump1.master ∧ lineMasterChangesWithoutJump1.flag .SEP_CTL_ARM = false ∧
    lineMasterChangesWithoutJump1.parts = [] ∧ lineMasterChangesWithoutJump1.worker = false := by
  decide +kernel

def lineMasterChangesWithoutJump2 : State := S ((o2 1 {}).wr .SEP_CTL_ARM 0 1)
theorem witness_LineMasterChangesWithoutJump_2 :
    lineMasterChangesWithoutJump2.answers Port.h = true ∧ lineMasterChangesWithoutJump2.power ≠ Power.recovery ∧
    fitsU 8 3 = true ∧ 3 ≠ lineMasterChangesWithoutJump2.master ∧
    (lineMasterChangesWithoutJump2.flag .SEP_CTL_ARM = true ∨ lineMasterChangesWithoutJump2.parts ≠ []) := by
  decide +kernel

def lineMasterChangesWithoutJump3 : State := S ((o2 1 {}).wr .SEP_CTL_ARM 0 1)
theorem witness_LineMasterChangesWithoutJump_3 :
    lineMasterChangesWithoutJump3.answers Port.h = true ∧ lineMasterChangesWithoutJump3.power ≠ Power.recovery ∧
    fitsU 8 4 = true := by
  decide +kernel

def lineMasterChangesWithoutJump4 : State := S ((o2 1 {}).wr .HRD_CTL_ROLE 0 2)
theorem witness_LineMasterChangesWithoutJump_4 :
    lineMasterChangesWithoutJump4.answers Port.h = true ∧ lineMasterChangesWithoutJump4.power ≠ Power.recovery ∧
    fitsU 8 2 = true ∧ lineMasterChangesWithoutJump4.worker = true := by
  decide +kernel

/-! `CompareGeneratorRuns` -/

def compareGeneratorRuns1 : State := S o3
theorem witness_CompareGeneratorRuns_1 :
    compareGeneratorRuns1.live = true ∧ compareGeneratorRuns1.xclkOn = true ∧
    compareGeneratorRuns1.flag .ENC_CG_STAT_FSTOP 2 = false ∧ compareGeneratorRuns1.flag .ENC_CG_STAT_RUN 2 = true ∧
    atOrAfter (compareGeneratorRuns1.srcPos 2) (compareGeneratorRuns1.rd .ENC_CG_NEXT 2) = true ∧
    (compareGeneratorRuns1.gen 2).queue = [] ∧ (compareGeneratorRuns1.gen 2).free ≤ compareGeneratorRuns1.xclk ∧
    compareGeneratorRuns1.flag .ENC_CG_CTL_CONTINUOUS 2 = false ∧
    compareGeneratorRuns1.rd .ENC_CG_COUNT 2 ≤ (compareGeneratorRuns1.gen 2).hits + 1 ∧
    (∀ c ∈ compareGeneratorRuns1.ctxsOf 2, (compareGeneratorRuns1.ctx c).stamps.length < 256) := by
  decide +kernel

def compareGeneratorRuns2 : State := S (o3.wr .ENC_CG_STAT_FSTOP 2 1 )
theorem witness_CompareGeneratorRuns_2 :
    compareGeneratorRuns2.live = true ∧ compareGeneratorRuns2.xclkOn = true ∧
    compareGeneratorRuns2.flag .ENC_CG_STAT_FSTOP 2 = true ∧
    atOrAfter (compareGeneratorRuns2.srcPos 2) (compareGeneratorRuns2.rd .ENC_CG_NEXT 2) = true := by
  decide +kernel

/-! `PassedHitsAndTriggers` -/

def passedHitsAndTriggers1 : State := S o5
theorem witness_PassedHitsAndTriggers_1 :
    passedHitsAndTriggers1.trgOn 3 = true ∧ (passedHitsAndTriggers1.trg 3).due = [5, 6] ∧ passedHitsAndTriggers1.live = true ∧
    passedHitsAndTriggers1.sendsTriggers 4 = true ∧ passedHitsAndTriggers1.uplinkFree 4 ≤ passedHitsAndTriggers1.xclk ∧
    (passedHitsAndTriggers1.link 4).triggers = [(9, 8), (7, 7)] := by
  decide +kernel

def passedHitsAndTriggers2 : State := S o4
theorem witness_PassedHitsAndTriggers_2 :
    passedHitsAndTriggers2.live = true ∧ passedHitsAndTriggers2.xclkOn = false ∧
    (∀ (g : Fin 8), 65536 ≤ passedHitsAndTriggers2.rd .ENC_CG_SPACE ↑g) ∧
    (∀ (ch : Fin 4), passedHitsAndTriggers2.rd .ENC_CFG_TYPE ↑ch ≠ 2) := by
  decide +kernel

/-! `ArmingLoadsTheGrid` -/

def armingLoadsTheGrid : State := o7 100 200
theorem witness_ArmingLoadsTheGrid :
    armingLoadsTheGrid.rd .ENC_CG_SPACE 2 ≠ 0 ∧
    after (armingLoadsTheGrid.rd .ENC_CG_START 2) (armingLoadsTheGrid.srcPos 2) = true ∧
    (after ((fun k => wrap 64 (armingLoadsTheGrid.rd .ENC_CG_START 2 + k * armingLoadsTheGrid.rd .ENC_CG_SPACE 2)) 0) (armingLoadsTheGrid.srcPos 2) = true) ∧
    (∀ k < 0, after ((fun k => wrap 64 (armingLoadsTheGrid.rd .ENC_CG_START 2 + k * armingLoadsTheGrid.rd .ENC_CG_SPACE 2)) k) (armingLoadsTheGrid.srcPos 2) = false) := by
  decide +kernel

end Encoders

/-! ### Witnesses: Conveyor -/

namespace Conveyor

def S (d : Dev) : State := { toDev := d }
def liv : Dev := { base with power := .run }
def pt : Part := { id := 77, lane := 3, start := 1000000, fin := some 2000000, slot := 2 }
def b1 (p : Part) : Dev := ({ liv with parts := [{pt with id := 5}, p, {pt with id := 9}] }).setSlot 2 { st := 3, d := 10, maxLen := 20 } |>.wr .HRD_CTL_ROLE 0 1 |>.wr .ENC_MSTAT_MASTER 0 1 |>.wr .ENC_POS 1 3000000 |>.wr .ZXL_CTL_EN 1 1 
def im : RecipeImage := { build := 1, vatKiB := 2, spill := 0, skimRates := [12], counters := [3], standing := [], replay := 0, weightLen := 0 }
def b2 : Dev := (b1 pt).setOd 0x3013 2 5 |>.setOd 0x3013 3 5 |>.wr .SEP_SETA (64*3) 0 |>.wr .SEP_SETB (64*3) 0
    |>.wr .MEM_PART1_PROG 0 60000
def b2' : Dev := (List.range 16).foldl (fun d j => d.wr .SEP_POLICY (48 + j) 0) b2
def vr : VerdictRec := { partid := 77, verdict := 0x7, lane := 3, member := 0, resv := 0, aux := 44 }
def fr : Fire := { part := 77, out := 3, onPos := 5, offPos := 6, mode := 0, dwell := 2, run := 1 }

/-! `DeadlineAndMaximumLength` -/

def deadlineAndMaximumLength1 : State := S (b1 pt)
theorem witness_DeadlineAndMaximumLength_1 :
    deadlineAndMaximumLength1.part? 77 = some pt ∧ pt.dead = false ∧ deadlineAndMaximumLength1.pastDeadline pt = true := by
  decide +kernel

def deadlineAndMaximumLength2 : State := S ((b1 {pt with fin := none}).setLane 3 {openPart := some 77})
theorem witness_DeadlineAndMaximumLength_2 :
    deadlineAndMaximumLength2.part? 77 = some { pt with fin := none } ∧ (deadlineAndMaximumLength2.lane 3).openPart = some 77 ∧
    deadlineAndMaximumLength2.tooLong 3 5000000 { pt with fin := none } = true := by
  decide +kernel

/-! `RecipeLoadAndSwitch` -/

def recipeLoadAndSwitch1 : State := S (b2')
theorem witness_RecipeLoadAndSwitch_1 :
    recipeLoadAndSwitch1.answers Port.h = true ∧ recipeLoadAndSwitch1.power ≠ Power.recovery ∧ im.wf = true ∧
    recipeLoadAndSwitch1.loadStatus 3 im = stOk ∧ (recipeLoadAndSwitch1.slot 3).st ≠ 2 := by
  decide +kernel

def recipeLoadAndSwitch2 : State := S ({b2' with lmOffset := 5}.setSlot 3 {st := 2}|>.wr .HRD_CTL_ROLE 0 0
    |>.setOd 0x3000 3 4000000)
theorem witness_RecipeLoadAndSwitch_2 :
    recipeLoadAndSwitch2.answers Port.h = true ∧ recipeLoadAndSwitch2.power ≠ Power.recovery ∧
    (recipeLoadAndSwitch2.slot 3).st = 2 ∧ recipeLoadAndSwitch2.manager = false ∧
    after (recipeLoadAndSwitch2.odNum 12288 3 0) recipeLoadAndSwitch2.lmPos = true := by
  decide +kernel

def recipeLoadAndSwitch3 : State := S liv
theorem witness_RecipeLoadAndSwitch_3 :
    recipeLoadAndSwitch3.answers Port.h = true ∧ recipeLoadAndSwitch3.power ≠ Power.recovery ∧ im.wf = true ∧
    recipeLoadAndSwitch3.loadStatus 3 im ≠ stOk := by
  decide +kernel

/-! `ArmAndLineStop` -/

def armAndLineStop1 : State := S (b2')
theorem witness_ArmAndLineStop_1 :
    armAndLineStop1.answers Port.h = true ∧ armAndLineStop1.power ≠ Power.recovery ∧ armAndLineStop1.power ≠ Power.standby ∧
    armAndLineStop1.worker = false ∧
    (64512 < armAndLineStop1.fires.length ∨ 256 ≤ armAndLineStop1.inOverflow ∨ armAndLineStop1.flag .FIO_LNK_STAT_SAFE = true) := by
  decide +kernel

def armAndLineStop2 : State := S ((b2').wr .FIO_LNK_STAT_SAFE 0 0)
theorem witness_ArmAndLineStop_2 :
    armAndLineStop2.fires.length ≤ 64512 ∧ armAndLineStop2.inOverflow < 256 ∧ armAndLineStop2.flag .FIO_LNK_STAT_SAFE = false := by
  decide +kernel

/-! `VerdictRecordMerged` -/

def verdictRecordMerged1 : State := S (b1 {pt with fin := none})
theorem witness_VerdictRecordMerged_1 :
    vr.wf = true ∧ verdictRecordMerged1.worker = false ∧ verdictRecordMerged1.part? vr.partid = some { pt with fin := none } ∧
    vr.partid ≠ 4294967295 ∧ { pt with fin := none }.ovf = false ∧ { pt with fin := none }.lane = vr.lane ∧ vr.resv = 0 ∧
    verdictRecordMerged1.pastDeadline { pt with fin := none } = false ∧ vr.verdict < 224 := by
  decide +kernel

def verdictRecordMerged2 : State := S (b1 {pt with fin := none})
theorem witness_VerdictRecordMerged_2 :
    { vr with partid := 78 }.wf = true ∧ verdictRecordMerged2.worker = false ∧
    verdictRecordMerged2.part? { vr with partid := 78 }.partid = none := by
  decide +kernel

def verdictRecordMerged3 : State := S (b1 pt)
theorem witness_VerdictRecordMerged_3 :
    vr.wf = true ∧ verdictRecordMerged3.worker = false ∧ verdictRecordMerged3.part? vr.partid = some pt ∧
    vr.partid ≠ 4294967295 ∧ pt.ovf = false ∧ pt.lane = vr.lane ∧ vr.resv = 0 ∧ verdictRecordMerged3.pastDeadline pt = true := by
  decide +kernel

/-! `SeparatorMemoryErrorHandled` -/

def separatorMemoryErrorHandled : State := S ({b1 pt with fires := [fr]})
theorem witness_SeparatorMemoryErrorHandled :
    separatorMemoryErrorHandled.part? 77 = some pt ∧ pt.ovf = false := by
  decide +kernel

/-! `ReservedVerdictCodes` -/

def reservedVerdictCodes1 : State := S (b1 {pt with fin := none})
theorem witness_ReservedVerdictCodes_1 :
    { vr with verdict := 254 }.wf = true ∧
    reservedVerdictCodes1.part? { vr with verdict := 254 }.partid = some { pt with fin := none } ∧
    { vr with verdict := 254 }.partid ≠ 4294967295 ∧ { pt with fin := none }.ovf = false ∧
    { pt with fin := none }.lane = { vr with verdict := 254 }.lane ∧ { vr with verdict := 254 }.resv = 0 ∧
    reservedVerdictCodes1.pastDeadline { pt with fin := none } = false ∧ reservedVerdictCodes1.worker = false ∧
    224 ≤ { vr with verdict := 254 }.verdict ∧ { vr with verdict := 254 }.verdict < 255 ∧
    reservedVerdictCodes1.mlk.queue.length < 64 := by
  decide +kernel

def reservedVerdictCodes2 : State := S (b1 {pt with fin := none})
theorem witness_ReservedVerdictCodes_2 :
    { vr with verdict := 255 }.wf = true ∧
    reservedVerdictCodes2.part? { vr with verdict := 255 }.partid = some { pt with fin := none } ∧
    { vr with verdict := 255 }.partid ≠ 4294967295 ∧ { pt with fin := none }.ovf = false ∧
    { pt with fin := none }.lane = { vr with verdict := 255 }.lane ∧ { vr with verdict := 255 }.resv = 0 ∧
    reservedVerdictCodes2.pastDeadline { pt with fin := none } = false ∧ reservedVerdictCodes2.worker = false ∧
    { vr with verdict := 255 }.verdict = 255 := by
  decide +kernel

end Conveyor

/-! ### Witnesses: Intake -/

namespace Intake

def fv0 : FusInterval := { start := 100, fin := 200, members := [5, 9], budget := 20, sc := 88 }
def S (d : Dev) : State := { toDev := d }
def liv : Dev := { base with power := .run }
def lk : Dev := ((List.range 24).foldl (fun (d : Dev) (n : Nat) => d.wr .CXP_LNK_CTL_MASTER n n) liv).wr .CXP_LNK_CTL_EN 3 1
    |>.wr .CXP_LNK_CTL_RATE_FIX 3 0 |>.wr .CXP_LNK_CTL_EXT_IDX 3 0 |>.wr .CXP_LNK_STAT_LOCK 3 1
def rq : ProxyReq := { source := .host, write := false, addr := 5, len := 4, data := [] }
def lk2 (l : List ProxyReq) : Dev := lk.setLink 3 { requests := l } |>.wr .CXP_LNK_CTL_PWR_EN 3 1
def cx : Dev := lk.wr .ITK_CTX_CFG0_BLKLEN 5 20 |>.wr .ITK_CTX_CFG0_WIDTH 5 16 |>.wr .ITK_CTX_CFG1_FMT 5 0
    |>.wr .ITK_CTX_CFG1_EN 5 1 |>.wr .ITK_CTX_CFG1_CG 5 2 |>.wr .ITK_CTX_CFG1_STREAM 5 7 |>.wr .ITK_CTX_CFG1_LINK 5 3
    |>.wr .ITK_CTX_TMO 5 9
   |>.wr .ITK_CTX_AGE 5 1000 |>.wr .ITK_CTX_OFS 5 0 |>.wr .ITK_CTX_LANES 5 1
def blk (d : Dev) : Block := { seq := 4, number := 1, start := 1000, cfg := d.staged ctxFields 5, pp := [], space := 100, lines := [{stamp := 900, gen := 1, odd := false, bank := 0, lost := false, staged := 0, samples := []}] }
def cx2 (b : Option Block) : Dev := let d := cx; d.setCtx 5 { cfg := d.staged ctxFields 5, block := b, last := some 900, stamps := [{pos := 1000, time := d.fullNs}, {pos := 1100, time := d.fullNs}] } |>.wr .ITK_CTX_STAT_STATE 5 1 |>.wr .ITK_CTX_STAT_GAPOPEN 5 0
def fv : FusInterval := { start := 100, fin := 200, members := [5, 9], budget := 20, sc := 88 }
def fu : Dev := ((cx2 none).wr .ENC_MSTAT_MASTER 0 1|>.wr .ENC_POS 1 30000000|>.wr .HRD_CTL_ROLE 0 2|>.setOd 0x4001 1 64).setFusion 6 { inService := true, members := [5, 9], intervals := [fv], budget := 20, sc := 88 }
def pf : PosFrame := {pos := 50000000, speed := 0, time := 0, flags := 0, bseq := 0, accel := 0}
def pp0 (cl : Bool) (c : Nat) : Dev := {(cx2 (some {blk cx with closed := cl, pp := (let d := cx.wr .ITK_PP_CTL_PIPES 5 31 |>.wr .ITK_PP_CTL_SCHED 5 0; d.staged ppFields 5), next := [0], running := (if c = 0 then [] else [(0,0)]), lines := (List.replicate 9 (blk cx).lines).flatten})) with pipesOn := 31}
def rs (d : Dev) : ReadySlot := ((d.choice 2).getD { staged := 0, ctx := 77, stripe := 0, block := blk d, e := 0})
def ps : PipeSlot := {ctx := 5, seq := 4, stripe := 0, a := 0, e := 9, since := 0, halo := 0}
def pp1 : Dev := {pp0 true 1 with pipes := [(2, ps)]}

/-! `LinkDiscovery` -/

def linkDiscovery1 : State := S lk
theorem witness_LinkDiscovery_1 :
    fitsU 4 7 = true ∧ fitsU 32 0 = true ∧ linkDiscovery1.flag .CXP_LNK_CTL_EN 3 = true ∧ linkDiscovery1.firmware = true ∧
    linkDiscovery1.rd .CXP_LNK_CTL_MASTER 3 = 3 ∧ (∀ (k : Fin 24), k ≠ 3 → linkDiscovery1.rd .CXP_LNK_CTL_MASTER ↑k ≠ 3) ∧
    linkDiscovery1.rd .CXP_LNK_CTL_EXT_IDX 3 = 0 ∧
    (linkDiscovery1.flag .CXP_LNK_CTL_RATE_FIX 3 = false ∨ (if linkDiscovery1.flag .CXP_LNK_CTL_RATE_FIX 3 = true then linkDiscovery1.rd .CXP_LNK_CTL_RATE 3 else min 7 6) ≤ 7) := by
  decide +kernel

def linkDiscovery2 : State := S lk
theorem witness_LinkDiscovery_2 :
    fitsU 4 7 = true ∧ fitsU 32 5 = true ∧ linkDiscovery2.flag .CXP_LNK_CTL_EN 3 = true ∧ linkDiscovery2.firmware = true ∧
    linkDiscovery2.rd .CXP_LNK_CTL_MASTER 3 = 3 ∧ (∀ (k : Fin 24), k ≠ 3 → linkDiscovery2.rd .CXP_LNK_CTL_MASTER ↑k ≠ 3) ∧
    linkDiscovery2.rd .CXP_LNK_CTL_EXT_IDX 3 = 0 ∧
    (linkDiscovery2.flag .CXP_LNK_CTL_RATE_FIX 3 = false ∨ (if linkDiscovery2.flag .CXP_LNK_CTL_RATE_FIX 3 = true then linkDiscovery2.rd .CXP_LNK_CTL_RATE 3 else min 7 6) ≤ 7) := by
  decide +kernel

def linkDiscovery3 : State := S (lk|>.wr .CXP_LNK_CTL_RATE_FIX 3 1|>.wr .CXP_LNK_CTL_RATE 3 5)
theorem witness_LinkDiscovery_3 :
    fitsU 4 4 = true ∧ fitsU 32 0 = true ∧ linkDiscovery3.flag .CXP_LNK_CTL_EN 3 = true ∧ linkDiscovery3.firmware = true ∧
    linkDiscovery3.rd .CXP_LNK_CTL_MASTER 3 = 3 ∧ (∀ (k : Fin 24), k ≠ 3 → linkDiscovery3.rd .CXP_LNK_CTL_MASTER ↑k ≠ 3) ∧
    linkDiscovery3.rd .CXP_LNK_CTL_EXT_IDX 3 = 0 ∧ linkDiscovery3.flag .CXP_LNK_CTL_RATE_FIX 3 = true ∧
    (4 < if linkDiscovery3.flag .CXP_LNK_CTL_RATE_FIX 3 = true then linkDiscovery3.rd .CXP_LNK_CTL_RATE 3 else min 4 6) := by
  decide +kernel

/-! `LinkLockAndPower` -/

def linkLockAndPower1 : State := S (lk2 [rq, {rq with addr := 9}])
theorem witness_LinkLockAndPower_1 :
    linkLockAndPower1.flag .CXP_LNK_CTL_EN 3 = true ∧ linkLockAndPower1.live = true ∧
    linkLockAndPower1.flag .CXP_LNK_STAT_LOCK 3 = true ∧ (linkLockAndPower1.link 3).requests = [rq, { rq with addr := 9 }] ∧
    rq.source = Source.host ∧ fitsU 25 77 = true ∧ fitsU 4 3 = true ∧ fitsU 8 200 = true ∧ fitsU 8 100 = true ∧
    linkLockAndPower1.flag .CXP_LNK_CTL_EQ_FREEZE 3 = false ∧ linkLockAndPower1.flag .CXP_LNK_CTL_PWR_EN 3 = true ∧
    linkLockAndPower1.flag .CXP_LNK_STAT_PWR_ON 3 = false ∧ (linkLockAndPower1.link 3).pwrLatch = false ∧
    linkLockAndPower1.power ≠ Power.off ∧ false = false := by
  decide +kernel

def linkLockAndPower2 : State := S ((lk2 []).wr .CXP_LNK_STAT_PWR_ON 3 1)
theorem witness_LinkLockAndPower_2 :
    linkLockAndPower2.flag .CXP_LNK_STAT_PWR_ON 3 = true := by
  decide +kernel

def linkLockAndPower3 : State := S ((lk2 []).setLink 3 {pwrLatch := true})
theorem witness_LinkLockAndPower_3 :
    (linkLockAndPower3.link 3).pwrLatch = true := by
  decide +kernel

def linkLockAndPower4 : State := S ((lk2 [rq, {rq with addr := 9}]).wr .CXP_LNK_CTL_EQ_FREEZE 3 1)
theorem witness_LinkLockAndPower_4 :
    linkLockAndPower4.flag .CXP_LNK_STAT_LOCK 3 = true ∧ fitsU 25 77 = true ∧ fitsU 4 3 = true ∧ fitsU 8 200 = true ∧
    fitsU 8 100 = true ∧ linkLockAndPower4.flag .CXP_LNK_CTL_EQ_FREEZE 3 = true := by
  decide +kernel

/-! `CameraRequests` -/

def cameraRequests1 : State := S (lk2 [rq])
theorem witness_CameraRequests_1 :
    fitsU 32 8 = true ∧ fitsU 16 9 = true ∧ proxyLenOk 6 = false ∧ fitsU 16 6 = true ∧
    (cameraRequests1.link 3).requests = [rq] ∧ rq.source = Source.host := by
  decide +kernel

def cameraRequests2 : State := S (lk2 [])
theorem witness_CameraRequests_2 :
    fitsU 32 8 = true ∧ fitsU 16 9 = true ∧ proxyLenOk 4 = true ∧ (cameraRequests2.link 3).requests = [] := by
  decide +kernel

def cameraRequests3 : State := S (lk2 [rq, {rq with addr := 9}])
theorem witness_CameraRequests_3 :
    fitsU 32 8 = true ∧ fitsU 16 9 = true ∧ (cameraRequests3.link 3).requests = [rq, { rq with addr := 9 }] ∧
    rq.source = Source.host ∧ rq.write = false ∧ [1, 2, 3, 4].length = rq.len ∧ rq.len ≤ 256 := by
  decide +kernel

def cameraRequests4 : State := S (lk2 [rq])
theorem witness_CameraRequests_4 :
    fitsU 32 8 = true ∧ fitsU 16 9 = true ∧ proxyLenOk 4 = true ∧ [1, 2, 3, 4].length = 4 ∧
    (cameraRequests4.link 3).requests = [rq] := by
  decide +kernel

/-! `StreamPacketRouted` -/

def streamPacketRouted1 : State := S (cx2 (some (blk cx)))
theorem witness_StreamPacketRouted_1 :
    fitsU 8 7 = true ∧ streamPacketRouted1.live = true ∧ streamPacketRouted1.flag .CXP_LNK_CTL_EN 3 = true ∧
    (streamPacketRouted1.link 3).out = false ∧
    streamPacketRouted1.routeStream (streamPacketRouted1.rd .CXP_LNK_CTL_MASTER 3) 7 = some 5 ∧ fitsU 16 66 = true ∧
    [1, 2, 3].all (fitsU 16) = true ∧ streamPacketRouted1.rd .ITK_CTX_STAT_STATE 5 = 1 ∧
    streamPacketRouted1.flag .ITK_CTX_STAT_GAPOPEN 5 = false ∧
    (streamPacketRouted1.ctx 5).stamps = [{ pos := 1000, time := cx.fullNs }, { pos := 1100, time := cx.fullNs }] ∧
    streamPacketRouted1.staleStamp 5 { pos := 1000, time := cx.fullNs } = false ∧
    (streamPacketRouted1.ctx 5).last = some 900 ∧
    after (streamPacketRouted1.aligned 5 1000) 900 = true ∧
    (streamPacketRouted1.ctx 5).block = some (blk cx) ∧
    (blk cx).lines.length + 1 < setting (blk cx).cfg .ITK_CTX_CFG0_BLKLEN := by
  decide +kernel

def streamPacketRouted2 : State := S (cx2 (some (blk cx)))
theorem witness_StreamPacketRouted_2 :
    fitsU 8 8 = true ∧ streamPacketRouted2.live = true ∧ streamPacketRouted2.flag .CXP_LNK_CTL_EN 3 = true ∧
    (streamPacketRouted2.link 3).out = false ∧
    streamPacketRouted2.routeStream (streamPacketRouted2.rd .CXP_LNK_CTL_MASTER 3) 8 = none := by
  decide +kernel

/-! `ContextsBreakAndFusionDeclares` -/

def contextsBreakAndFusionDeclares1 : State := S (cx2 (some (blk cx)))
theorem witness_ContextsBreakAndFusionDeclares_1 :
    contextsBreakAndFusionDeclares1.rd .ITK_CTX_STAT_STATE 5 = 1 ∧ contextsBreakAndFusionDeclares1.owes 5 = true ∧
    fitsU 8 7 = true ∧ contextsBreakAndFusionDeclares1.live = true ∧
    contextsBreakAndFusionDeclares1.flag .CXP_LNK_CTL_EN 3 = true ∧ (contextsBreakAndFusionDeclares1.link 3).out = false ∧
    contextsBreakAndFusionDeclares1.routeStream (contextsBreakAndFusionDeclares1.rd .CXP_LNK_CTL_MASTER 3) 7 = some 5 := by
  decide +kernel

def contextsBreakAndFusionDeclares2 : State := S ((cx2 none).setCtx 5 {})
theorem witness_ContextsBreakAndFusionDeclares_2 :
    contextsBreakAndFusionDeclares2.rd .ITK_CTX_STAT_STATE 5 = 1 ∧ contextsBreakAndFusionDeclares2.owes 5 = false := by
  decide +kernel

def contextsBreakAndFusionDeclares3 : State := S {fu with herd := {pos := some pf}}
theorem witness_ContextsBreakAndFusionDeclares_3 :
    (contextsBreakAndFusionDeclares3.fusion 6).intervals = [fv] ∧ (contextsBreakAndFusionDeclares3.fusion 6).delivered = [] ∧
    fv.members = [5, 9] ∧ fv.absent = 0 ∧ after fv.fin fv.start = true ∧
    atOrAfter contextsBreakAndFusionDeclares3.lmPos (moveBy (wrap 64 (fv.fin + cts fv.budget)) (sgn 32 (setting (contextsBreakAndFusionDeclares3.ctx 9).cfg .ITK_CTX_OFS) * 65536)) = true := by
  decide +kernel

/-! `CommitsStagedOrRefused` -/

def commitsStagedOrRefused1 : State := S cx
theorem witness_CommitsStagedOrRefused_1 :
    commitsStagedOrRefused1.ctxCheck 5 (commitsStagedOrRefused1.staged ctxFields 5) = 0 ∧
    commitsStagedOrRefused1.ctxEnabled 5 = false ∧
    setting (commitsStagedOrRefused1.staged ctxFields 5) Field.ITK_CTX_CFG1_EN = 1 ∧
    commitsStagedOrRefused1.ppCheck (commitsStagedOrRefused1.ctx 5).committed (commitsStagedOrRefused1.staged ppFields 5) = 0 ∧
    fitsU 16 7 = true := by
  decide +kernel

def commitsStagedOrRefused2 : State := S (cx2 none)
theorem witness_CommitsStagedOrRefused_2 :
    commitsStagedOrRefused2.ctxCheck 5 (commitsStagedOrRefused2.staged ctxFields 5) = 0 ∧
    commitsStagedOrRefused2.ctxEnabled 5 = true ∧
    commitsStagedOrRefused2.ppCheck (commitsStagedOrRefused2.ctx 5).committed (commitsStagedOrRefused2.staged ppFields 5) ≠ 0 := by
  decide +kernel

def commitsStagedOrRefused3 : State := S (cx2 none|>.wr .ITK_CTX_CFG0_BLKLEN 5 0)
theorem witness_CommitsStagedOrRefused_3 :
    commitsStagedOrRefused3.ctxCheck 5 (commitsStagedOrRefused3.staged ctxFields 5) ≠ 0 := by
  decide +kernel

/-! `PipesTakeAndFinishSlots` -/

def pipesTakeAndFinishSlots1 : State := S pp1
theorem witness_PipesTakeAndFinishSlots_1 :
    tabFind? pipesTakeAndFinishSlots1.pipes 2 = some ps ∧
    (List.find? (fun b => b.seq == ps.seq) (pipesTakeAndFinishSlots1.ctx ps.ctx).work = some ((List.find? (fun b => b.seq == 4) (pp1.ctx 5).work).getD (blk cx))) ∧
    (ps.staged ((List.find? (fun b => b.seq == 4) (pp1.ctx 5).work).getD (blk cx)) = true) ∧
    bit pipesTakeAndFinishSlots1.pipesOn 2 = true ∧ (pipesTakeAndFinishSlots1.ctx ps.ctx).closing = [] := by
  decide +kernel

def pipesTakeAndFinishSlots2 : State := S (pp0 true 0)
theorem witness_PipesTakeAndFinishSlots_2 :
    pipesTakeAndFinishSlots2.pipeFree 2 = true ∧ pipesTakeAndFinishSlots2.choice 2 = some (rs (pp0 true 0)) := by
  decide +kernel

def pipesTakeAndFinishSlots3 : State := S { liv with pipesOn := 31 }
theorem witness_PipesTakeAndFinishSlots_3 :
    pipesTakeAndFinishSlots3.pipeFree 2 = true ∧ pipesTakeAndFinishSlots3.choice 2 = none := by
  decide +kernel

end Intake

/-! ### Witnesses: Arithmetic -/

namespace Arithmetic

def S (d : Dev) : State := { toDev := d }
def liv : Dev := { base with power := .run }
def mop : MatrixOp := { fa := .int8, fb := .int8, signedA := true, signedB := true, k := 2, aBase := 0, aPitch := 4, bBase := 1024, bPitch := 4, aScale := 0, bScale := 0, first := true, last := false, readInt := false }
def fillLs (d : Dev) (n : Nat) : Dev := (List.range 40).foldl (fun d k => (d.putByte (lsOf n + k) (BitVec.ofNat 8 (k * 77 + 200))).putByte (lsOf n + 1024 + k) (BitVec.ofNat 8 (k * 53 + 3))) d
def vop : VectorOp := { op := .iadd, gang := 1, regs := 16, mask := 0xF0, d := 3, a := 1, b := 2, c := 0, imm := 8 }
def chd : Dev := (fillLs liv 5).setChurn 5 { rf := (List.range 20).map fun i => (8192 * 5 + i + 10, i * 300000000) }
def md0 : MapDesc := { base := 0, expBase := 0, rowPitch := 128, planePitch := 1024, w := 4, c := 2, ringRows := 0, fmt := 0, layout := 0, skim := 0, ring := false, resv := 0, sPlanePitch := 0, h := 4 }
def gg7 : GangAt := {gang := 7}
def gg9 : GangAt := {gang := 9}
def aug0 : AugOp := { list := 0, count := 3, sample := 4, epoch := 2, map := md0 }
def cop : ConvertOp := { target := .e4m3, mode := .rne, wide := false, n := 5, src := 0, dst := 2, thread := 0, addr := 0 }
def mxo : MxOp := { fmt := .mxFp4, mode := .rne, src := 0, dst := 900, scale := 940, thread := 0, addr := 0 }
def bop : BflyOp := { size := 16, src := 0, twiddle := 1024, dst := 100, stride := 1, wide := false }
def md : MapDesc := md0
def wd : WinDesc := { kh := 1, kw := 2, sh := 1, sw := 1, dh := 1, dw := 1, pt := 0, pb := 0, pl := 0, pr := 0, padMode := 0, vroll := false, op := 0, resv := 0, padVal := 0, groups := 1, cout := 2 }
def wop : WindowOp := { src := md, dst := {md with base := 4096, w := 3}, win := wd, wmap := {md with base := 1024}, segStart := 0, segRows := 0, y0 := 1, y1 := 2, x0 := 1, x1 := 2, c0 := 1, c1 := 2, signedA := true, signedB := true, readInt := true }
def wf3 : OpFmt × OpFmt × PairKind := (.int8, .int8, .exact)
def dop : DmaOp := { map := {md with base := 0x1000}, toMem := false, plane := 1, row := 2, ls := 64, walkError := none }
def dd : Dev := (chd.wr .GLB_MODE_FIXED 0 1).putBytes 0x1500 [1,2,3,4,5,6,7,8,9]
def dmx : DmaOp := {dop with map := {dop.map with fmt := 13, c := 32, expBase := 0x4000, sPlanePitch := 512}, lsScale := 600}
def wmp : WindowOp := {wop with win := {wd with op := 1, cout := 32}, src := {wop.src with c := 32}, dst := {wop.dst with fmt := 13, c := 32, planePitch := 512, expBase := 40960, sPlanePitch := 512}}
def wmc : WindowOp := {wop with dst := {wop.dst with fmt := 13, c := 32, planePitch := 512, expBase := 40960, sPlanePitch := 512}}

/-! `MatrixTileSumsExactly` -/

def matrixTileSumsExactly1 : State := S (fillLs liv 5)
theorem witness_MatrixTileSumsExactly_1 :
    mop.fa = OpFmt.int8 ∧ mop.fb = OpFmt.int8 ∧ matrixError mop 0 = 0 ∧ mop.first = true ∧ mop.last = false ∧
    mop.signedA = true ∧ mop.signedB = true := by
  decide +kernel

def matrixTileSumsExactly2 : State := S (fillLs liv 5)
theorem witness_MatrixTileSumsExactly_2 :
    { mop with k := 0 }.fa = OpFmt.int8 ∧ { mop with k := 0 }.fb = OpFmt.int8 ∧ { mop with k := 0 }.k = 0 ∧
    { mop with k := 0 }.first = true ∧ matrixTileSumsExactly2.resident 5 = none := by
  decide +kernel

/-! `VectorLanesAndBarriers` -/

def vectorLanesAndBarriers1 : State := S chd
theorem witness_VectorLanesAndBarriers_1 :
    (Instr.vectorInstruction 5 vop).wf = true ∧ vectorLanesAndBarriers1.gangReady 5 vop = true ∧
    vectorLanesAndBarriers1.vectorError 5 vop = 0 ∧ vop.op = VOp.iadd ∧ 5 ∈ vectorLanesAndBarriers1.activeLanes 5 vop ∧
    (∀ k ∈ vectorLanesAndBarriers1.activeLanes 5 vop, 8192 * 5 + 17 ≠ regKey k vop.gang (vectorLanesAndBarriers1.regsOn 5 vop) vop.d) ∧
    gg7.gang < 256 := by
  decide +kernel

def vectorLanesAndBarriers2 : State := S chd
theorem witness_VectorLanesAndBarriers_2 :
    (Instr.vectorInstruction 5 { vop with op := VOp.store, mask := 32, a := 15 }).wf = true ∧
    vectorLanesAndBarriers2.gangReady 5 { vop with op := VOp.store, mask := 32, a := 15 } = true ∧
    vectorLanesAndBarriers2.vectorError 5 { vop with op := VOp.store, mask := 32, a := 15 } = 0 ∧
    { vop with op := VOp.store, mask := 32, a := 15 }.op = VOp.store ∧
    vectorLanesAndBarriers2.activeLanes 5 { vop with op := VOp.store, mask := 32, a := 15 } = [5] := by
  decide +kernel

def vectorLanesAndBarriers3 : State := S chd
theorem witness_VectorLanesAndBarriers_3 :
    (Instr.vectorInstruction 5 { vop with op := VOp.augment aug0 }).wf = true ∧
    vectorLanesAndBarriers3.gangReady 5 { vop with op := VOp.augment aug0 } = true ∧
    vectorLanesAndBarriers3.vectorError 5 { vop with op := VOp.augment aug0 } = 0 ∧
    { vop with op := VOp.augment aug0 }.op = VOp.augment aug0 ∧ vectorLanesAndBarriers3.augError 5 aug0 = 7 ∧
    vectorLanesAndBarriers3.resident 5 = none := by
  decide +kernel

def vectorLanesAndBarriers4 : State := S (chd.setChurn 5 {barrier := [3, 1]})
theorem witness_VectorLanesAndBarriers_4 :
    (vectorLanesAndBarriers4.churn 5).barrier.contains vop.gang = true := by
  decide +kernel

/-! `ConversionsStoreTheirElements` -/

def conversionsStoreTheirElements : State := S chd
theorem witness_ConversionsStoreTheirElements :
    (cop.src + elemBytes (if cop.wide = true then 64 else 32) cop.n ≤ lsSize) ∧
    cop.dst + elemBytes (cvtBits cop.target) cop.n ≤ lsSize ∧ 3 < cop.n ∧ opMx mxo.fmt = true ∧ mxo.src + 128 ≤ lsSize ∧
    mxo.dst + elemBytes (opBits mxo.fmt) 32 ≤ mxo.scale ∧ mxo.scale < lsSize := by
  decide +kernel

/-! `ButterfliesStoreTheirResults` -/

def butterfliesStoreTheirResults1 : State := S chd
theorem witness_ButterfliesStoreTheirResults_1 :
    bop.reverse = false ∧ 1 ≤ bop.stride ∧ bflyError bop 2 1 = 0 ∧ bflyError bop 4 3 = 0 := by
  decide +kernel

def butterfliesStoreTheirResults2 : State := S chd
theorem witness_ButterfliesStoreTheirResults_2 :
    butterfliesStoreTheirResults2.resident 5 = none ∧ bflyError { bop with size := 17 } 2 1 = 6 ∧
    bflyError { bop with size := 17 } 4 3 = 6 := by
  decide +kernel

/-! `WindowInstructionsWriteOutputs` -/

def windowInstructionsWriteOutputs1 : State := S chd
theorem witness_WindowInstructionsWriteOutputs_1 :
    wmp.src.wf = true ∧ wmp.dst.wf = true ∧ wmp.wmap.wf = true ∧ wmp.c1 = wmp.c0 + 1 ∧ wmp.y1 = wmp.y0 + 1 ∧
    wmp.x1 = wmp.x0 + 1 ∧ wmp.c0 < wmp.dst.c ∧ wmp.y0 < wmp.dst.h ∧ wmp.x0 < wmp.dst.w ∧ poolError wmp = 0 ∧
    fmtMx wmp.dst.fmt = true ∧
    (lsOf 5 + wmp.dst.expBase + wmp.c0 / 32 * wmp.dst.sPlanePitch + storedRow wmp.dst wmp.y0 * ((wmp.dst.w + 127) / 128 * 128) + wmp.x0 < lsOf 5 + rowBase wmp.dst wmp.c0 wmp.y0 + wmp.x0 * fmtBits wmp.dst.fmt / 8 ∨ lsOf 5 + rowBase wmp.dst wmp.c0 wmp.y0 + wmp.x0 * fmtBits wmp.dst.fmt / 8 + max 1 (fmtBits wmp.dst.fmt / 8) ≤ lsOf 5 + wmp.dst.expBase + wmp.c0 / 32 * wmp.dst.sPlanePitch + storedRow wmp.dst wmp.y0 * ((wmp.dst.w + 127) / 128 * 128) + wmp.x0) ∧
    windowInstructionsWriteOutputs1.resident 5 = none ∧ convError wmp = 4 := by
  decide +kernel

def windowInstructionsWriteOutputs2 : State := S chd
theorem witness_WindowInstructionsWriteOutputs_2 :
    wmc.src.wf = true ∧ wmc.dst.wf = true ∧ wmc.wmap.wf = true ∧ wmc.c1 = wmc.c0 + 1 ∧ wmc.y1 = wmc.y0 + 1 ∧
    wmc.x1 = wmc.x0 + 1 ∧ wmc.c0 < wmc.dst.c ∧ wmc.y0 < wmc.dst.h ∧ wmc.x0 < wmc.dst.w ∧ convError wmc = 0 ∧
    windowPair wmc = some wf3 ∧ fmtMx wmc.dst.fmt = true ∧
    (lsOf 5 + wmc.dst.expBase + wmc.c0 / 32 * wmc.dst.sPlanePitch + storedRow wmc.dst wmc.y0 * ((wmc.dst.w + 127) / 128 * 128) + wmc.x0 < lsOf 5 + rowBase wmc.dst wmc.c0 wmc.y0 + wmc.x0 * fmtBits wmc.dst.fmt / 8 ∨ lsOf 5 + rowBase wmc.dst wmc.c0 wmc.y0 + wmc.x0 * fmtBits wmc.dst.fmt / 8 + max 1 (fmtBits wmc.dst.fmt / 8) ≤ lsOf 5 + wmc.dst.expBase + wmc.c0 / 32 * wmc.dst.sPlanePitch + storedRow wmc.dst wmc.y0 * ((wmc.dst.w + 127) / 128 * 128) + wmc.x0) ∧
    windowInstructionsWriteOutputs2.resident 5 = none ∧ poolError wmc = 4 := by
  decide +kernel

def windowInstructionsWriteOutputs3 : State := S chd
theorem witness_WindowInstructionsWriteOutputs_3 :
    wop.src.wf = true ∧ wop.dst.wf = true ∧ wop.wmap.wf = true ∧ wop.c1 = wop.c0 + 1 ∧ wop.y1 = wop.y0 + 1 ∧
    wop.x1 = wop.x0 + 1 ∧ wop.c0 < wop.dst.c ∧ wop.y0 < wop.dst.h ∧ wop.x0 < wop.dst.w ∧ convError wop = 0 ∧
    windowPair wop = some wf3 ∧ fmtMx wop.dst.fmt = false := by
  decide +kernel

def windowInstructionsWriteOutputs4 : State := S chd
theorem witness_WindowInstructionsWriteOutputs_4 :
    { wop with win := { wd with op := 1, cout := 2 } }.src.wf = true ∧
    { wop with win := { wd with op := 1, cout := 2 } }.dst.wf = true ∧
    { wop with win := { wd with op := 1, cout := 2 } }.wmap.wf = true ∧
    { wop with win := { wd with op := 1, cout := 2 } }.c1 = { wop with win := { wd with op := 1, cout := 2 } }.c0 + 1 ∧
    { wop with win := { wd with op := 1, cout := 2 } }.y1 = { wop with win := { wd with op := 1, cout := 2 } }.y0 + 1 ∧
    { wop with win := { wd with op := 1, cout := 2 } }.x1 = { wop with win := { wd with op := 1, cout := 2 } }.x0 + 1 ∧
    { wop with win := { wd with op := 1, cout := 2 } }.c0 < { wop with win := { wd with op := 1, cout := 2 } }.dst.c ∧
    { wop with win := { wd with op := 1, cout := 2 } }.y0 < { wop with win := { wd with op := 1, cout := 2 } }.dst.h ∧
    { wop with win := { wd with op := 1, cout := 2 } }.x0 < { wop with win := { wd with op := 1, cout := 2 } }.dst.w ∧
    poolError { wop with win := { wd with op := 1, cout := 2 } } = 0 ∧
    fmtMx { wop with win := { wd with op := 1, cout := 2 } }.dst.fmt = false := by
  decide +kernel

/-! `DmaMovesARow` -/

def dmaMovesARow1 : State := S dd
theorem witness_DmaMovesARow_1 :
    (Instr.dmaTransfer 5 dop MemEvent.clean).wf = true ∧ mapError dop.map = 0 ∧ dop.ls + dmaRow dop ≤ lsSize ∧
    (fmtMx dop.map.fmt = true → dop.lsScale + sideBytes dop.map ≤ lsSize) ∧ dop.map.layout = 0 ∧ dop.map.skim = 0 ∧
    dop.toMem = false ∧
    ((fun acc => dmaMovesARow1.translateAll (some 5) (dmaMovesARow1.asidOn 5) acc dop.walkError (dmaSpans dop)) 0 = VRes.ok [(false, 5376, 4)]) ∧
    dmaMovesARow1.reachable (some 5) (false, 5376, 4) = true ∧ 2 < dop.map.w ∧ fmtMx dop.map.fmt = false := by
  decide +kernel

def dmaMovesARow2 : State := S dd
theorem witness_DmaMovesARow_2 :
    (Instr.dmaTransfer 5 { dop with toMem := true } MemEvent.clean).wf = true ∧ mapError { dop with toMem := true }.map = 0 ∧
    { dop with toMem := true }.ls + dmaRow { dop with toMem := true } ≤ lsSize ∧
    (fmtMx { dop with toMem := true }.map.fmt = true → { dop with toMem := true }.lsScale + sideBytes { dop with toMem := true }.map ≤ lsSize) ∧
    { dop with toMem := true }.map.layout = 0 ∧ { dop with toMem := true }.map.skim = 0 ∧
    { dop with toMem := true }.toMem = true ∧
    ((fun acc => dmaMovesARow2.translateAll (some 5) (dmaMovesARow2.asidOn 5) acc { dop with toMem := true }.walkError (dmaSpans { dop with toMem := true })) 1 = VRes.ok [(false, 5376, 4)]) ∧
    dmaMovesARow2.reachable (some 5) (false, 5376, 4) = true ∧ false = false ∧ fmtBits { dop with toMem := true }.map.fmt ≠ 4 ∧
    fmtMx { dop with toMem := true }.map.fmt = false := by
  decide +kernel

def dmaMovesARow3 : State := S dd
theorem witness_DmaMovesARow_3 :
    (Instr.dmaTransfer 5 { dop with ls := 1000000000 } MemEvent.clean).wf = true ∧
    mapError { dop with ls := 1000000000 }.map = 0 ∧
    lsSize < { dop with ls := 1000000000 }.ls + dmaRow { dop with ls := 1000000000 } ∧ dmaMovesARow3.resident 5 = none := by
  decide +kernel

def dmaMovesARow4 : State := S dd
theorem witness_DmaMovesARow_4 :
    (Instr.dmaTransfer 5 dmx MemEvent.clean).wf = true ∧ mapError dmx.map = 0 ∧ dmx.ls + dmaRow dmx ≤ lsSize ∧
    (fmtMx dmx.map.fmt = true → dmx.lsScale + sideBytes dmx.map ≤ lsSize) ∧ dmx.map.layout = 0 ∧ dmx.map.skim = 0 ∧
    dmx.toMem = false ∧
    ((fun acc => dmaMovesARow4.translateAll (some 5) (dmaMovesARow4.asidOn 5) acc dmx.walkError (dmaSpans dmx)) 0 = VRes.ok [(false, 5376, 4), (false, 16640, 4)]) ∧
    dmaMovesARow4.reachable (some 5) (false, 5376, 4) = true ∧ dmaMovesARow4.reachable (some 5) (false, 16640, 4) = true ∧
    4 = dmaRow dmx ∧ fmtMx dmx.map.fmt = true ∧ dmx.ls + dmaRow dmx ≤ dmx.lsScale := by
  decide +kernel

end Arithmetic

/-! ### Witnesses: Jobs -/

namespace Jobs

def S (d : Dev) : State := { toDev := d }
def liv : Dev := { base with power := .run }
def e1 : Dev := liv.wr .MEM_SCRUB 0 5 |>.wr .GLB_MODE_FIXED 0 0
def cch (k : Nat) : Cached := { chn := none, asid := 3 + k, page := 2, level := 3, entry := 5 }
def sv : Saved := { res := { job := 1, piece := 0, kind := 1, sliceAt := 0 }, record := some [7] }
def e3 : Dev := ({ liv with pcieUp := true }).putBytes 0x17FFFFFC [1,2,3,4]
def fillLs (d : Dev) (n : Nat) : Dev := (List.range 40).foldl (fun d k => (d.putByte (lsOf n + k) (BitVec.ofNat 8 (k * 77 + 200))).putByte (lsOf n + 1000 + k) (BitVec.ofNat 8 (k * 53 + 3))) d
def e4 (p : Nat) : Dev := (fillLs liv 5).setChurn 5 { latch := [(3, 4)], rf := [(1,2)] } |>.wr .CHN_STAT_PWR 5 p
    |>.wr .CHN_STAT_ISO 5 0 |>.wr .GLB_MODE_FIXED 0 0 |>.wr .CHN_PWRCTL_NOCG 5 0  |>.wr .CHN_PWRCTL_NOPG 5 0
def pfx : Job := { seq := 4, id := 77, queue := 1, teach := false, continuous := false, iterRec := false, asid := 2, slot := 0, csc := some 9, iters := 3, seed := 0, est := 0, lanes := 1, cmds := [], pieces := [{ index := 0, st := .ready, target := some 5 }] }
def res1 : Resident := { job := 1, piece := 0, kind := 1, sliceAt := 0 }
def descB : List Byte := leBytes 77 4 ++ leBytes 1 1 ++ leBytes 3 1 ++ leBytes 0 2 ++ leBytes 0x2000 8 ++ leBytes 1 2 ++ leBytes 0 2
    ++ leBytes 5 4 ++ leBytes 0 8 ++ leBytes 0 32
def cmdB : List Byte := leBytes 4 1 ++ leBytes 0 3 ++ leBytes 9 2 ++ leBytes 0 2 ++ leBytes 6 8 ++ leBytes 0 16
def descE : List Byte := leBytes 77 4 ++ List.replicate 60 255
def e5 (desc : List Byte) : Dev :=
  let d := liv.wr .GLB_MODE_FIXED 0 1 |>.wr .JOB_Q_CTL_EN 0 1 |>.wr .JOB_Q_BASE_ADDR 0 (0x1000/8) |>.wr .JOB_Q_TAIL 0 4|>.wr .JOB_Q_HEAD 0 2|>.wr .JOB_Q_CTL_LOG2 0 4
  ((d.putBytes (0x1000+16) (leBytes 0x3000 8)).putBytes 0x3000 desc).putBytes 0x2000 cmdB
def jb (c : List Command) : Job := { seq := 4, id := 77, queue := 1, teach := false, continuous := false, iterRec := false, asid := 2, slot := 0, csc := some 9, iters := 3, seed := 0, est := 0, lanes := 1, cmds := c }
def e6 (j : Job) : State := S { liv.wr .GLB_MODE_FIXED 0 1 with jobs := [{ jb [] with seq := 3, id := 5 }, j], sync := [(9, 2^64 - 3), (10, 4)] }
def pr : Piece := { index := 0, st := .ready }
def run (j : Job) (p : List Job := []) : State := S { liv.wr .GLB_MODE_FIXED 0 0 |>.wr .CHN_STAT_PWR 5 2 |>.wr .CHN_STAT_ISO 5 0 with jobs := j :: p }
def rz : Resident := { job := 4, piece := 0, kind := 3, sliceAt := 0 }
def cl : Command := .layer 2 0 128 5
def ck : Command := .kernel 1 2 3 4 5 6 7
def jd : Job := { jb [cl] with started := true, pieces := [{index := 0, st := .done}, {index := 1, st := .done}] }
def jv : Job := { jb [.vcommit 0x100 2] with started := true, pieces := [{index := 0, st := .running 5}] }
def vb : List Byte := leBytes 9 4 ++ leBytes 1 1 ++ leBytes 2 1 ++ leBytes 0 10 ++ leBytes 10 4 ++ leBytes 2 1 ++ leBytes 2 1
    ++ leBytes 0 10
def runv : State := S { (((run jv).toDev.wr .GLB_MODE_FIXED 0 1).setChurn 5 { ctx := some rz }).putBytes 0x100 vb with parts := [{ id := 9, lane := 2, start := 5, slot := 0 }, { id := 10, lane := 2, start := 50, slot := 0 }]}
def jp : Job := { jb [cl] with started := true, pieces := [pr, {pr with index := 1}] }
def only5 (s : State) : State := S <| (List.range 16).foldl (fun (d : Dev) n => if n = 5 then d else d.wr .CHN_STAT_PWR n 0) s.toDev
    |>.wr .CHN_PWRCTL_NOPG 5 0
def jpt : Job := {jp with pieces := [{pr with failed := true, target := some 5}, {pr with index := 1}]}
def jvr : Job := { jb [.vcommit 0x100 2] with started := true, pieces := [pr] }
def pag (s : State) : State := S <| ((((s.toDev.wr .MMU_CTL_EN 0 1).wr .MMU_ROOT_V 2 1).wr .MMU_ROOT_ADDR 2 16).putBytes 0x10000 (leBytes 0x11001 8)).putBytes 0x11000 (leBytes 0x12001 8) |>.putBytes 0x12000 (leBytes 0x62 8)
def rt2 : Resident := { job := 4, piece := 0, kind := 1, sliceAt := 0 }
def only53 (s : State) (r : Bool) : State := S <| (((pag (only5 s)).toDev.wr .CHN_STAT_PWR 3 3).setChurn 3 {ctx := some rt2})
def jt2 : Job := { jb [cl] with started := true, teach := true, pieces := [{index := 0, st := .running 3}], repro := some false }
def prun : Piece := {index := 0, st := .running 3}
def prun2 : Piece := {index := 0, st := .running 3, range := some (100, 777)}
def jt3 : Job := {jt2 with pieces := [prun2]}
def jt (r : Bool) : Job := { jb [cl] with started := true, teach := true, pieces := [{index := 0, st := .running 3}], repro := some r }
def rt : Resident := { job := 4, piece := 0, kind := 1, sliceAt := 0 }
def sl (r : Resident) (p : List Job := []) : State := S <| (run (jt false) p).toDev.setChurn 3 { ctx := some r }
def allBusy (s : State) : State := S <| ((List.range 16).foldl (fun (d : Dev) n => if n = 3 then d else d.setChurn n { ctx := some {rt with job := 99} }) s.toDev).wr .MEM_PART0_SLOTS 0 5 |>.wr .JOB_SLOT_ST_STATE 0 2|>.wr .JOB_SLOT_ST_STATE 1 0
def jw : Job := { jp with seq := 9, teach := true }
def ss (r : Resident) : State := S <| ((((fillLs (sl r).toDev 3).setChurn 3 { ctx := some r, rf := [(4, 5), (70000, 77)], acc := [(3, 9)], anchor := [(7, -4)], sticky := [(1, 3)] }).wr .MEM_PART0_INTAKE 0 8|>.wr .JOB_SLOT_ST_STATE 1 1))
def svv : Saved := { res := rt, latch := [(1, 2)], barrier := [5] }
def cj (j : Job) (id : Nat) : State := S <| (run j).toDev.wr .JOB_CMDID_JOBID 0 id
def cjf : State := S <| (cj {jp with begun := true, pieces := [{index := 0, st := .saved 4}]} 77).toDev.wr .JOB_SLOT_ST_FLT 4 1
def md (f : Nat) : State := S <| liv.wr .GLB_MODE_FIXED 0 f
def e8 (desc : List Byte) : Dev := { ((e5 desc).wr .JOB_Q_CTL_EN 0 0|>.wr .JOB_Q_CTL_EN 8 1 |>.wr .JOB_Q_TAIL 8 1) with posted := [(0x3000, 8)] } |>.wr .GLB_MODE_FIXED 0 0 |>.wr .JOB_Q_CTL_ASID 8 2
def descC : List Byte := descB.take 5 ++ leBytes 2 1 ++ descB.drop 6

/-! `MemoryErrorsCounted` -/

def memoryErrorsCounted1 : State := S e1
theorem witness_MemoryErrorsCounted_1 :
    memoryErrorsCounted1.rd .MEM_SCRUB ≠ 0 ∧ memoryErrorsCounted1.flag .GLB_MODE_FIXED = false ∧
    memoryErrorsCounted1.mntPower Activity.S = true ∧ memoryErrorsCounted1.mntSt Activity.S ≠ 1 := by
  decide +kernel

def memoryErrorsCounted2 : State := S (e1.wr .MEM_SCRUB 0 0)
theorem witness_MemoryErrorsCounted_2 :
    memoryErrorsCounted2.rd .MEM_SCRUB = 0 := by
  decide +kernel

def memoryErrorsCounted3 : State := S (e1.wr .MLK_MNT_ST 7 1)
theorem witness_MemoryErrorsCounted_3 :
    memoryErrorsCounted3.mntSt Activity.S = 1 := by
  decide +kernel

/-! `InvalidationFaultQueueAndAperture` -/

def invalidationFaultQueueAndAperture1 : State := S e3
theorem witness_InvalidationFaultQueueAndAperture_1 :
    invalidationFaultQueueAndAperture1.faultq = [] ∧ invalidationFaultQueueAndAperture1.pcieUp = true ∧
    402653181 + 3 ≤ vatSize ∧ 402653181 + [9, 0, 8].length ≤ vatSize ∧ 402653181 < vatSize := by
  decide +kernel

def invalidationFaultQueueAndAperture2 : State := S { liv with faultq := [[1], [2]], saves := [(0, sv)] }
theorem witness_InvalidationFaultQueueAndAperture_2 :
    invalidationFaultQueueAndAperture2.faultq = [[1], [2]] ∧ tabFind? invalidationFaultQueueAndAperture2.saves 0 = some sv ∧
    sv.record = some [7] := by
  decide +kernel

def invalidationFaultQueueAndAperture3 : State := S e3
theorem witness_InvalidationFaultQueueAndAperture_3 :
    invalidationFaultQueueAndAperture3.pcieUp = true ∧ vatSize ≤ 402653184 := by
  decide +kernel

/-! `ChurnPowerAndReset` -/

def churnPowerAndReset1 : State := S (e4 3)
theorem witness_ChurnPowerAndReset_1 :
    churnPowerAndReset1.resident 5 = none ∧ churnPowerAndReset1.flag .CHN_STAT_ISO 5 = false ∧
    churnPowerAndReset1.flag .GLB_MODE_FIXED = false ∧ churnPowerAndReset1.fixing = false ∧
    churnPowerAndReset1.rd .CHN_STAT_PWR 5 = 3 ∧ churnPowerAndReset1.flag .CHN_PWRCTL_NOCG 5 = false ∧
    2 ≤ churnPowerAndReset1.rd .CHN_STAT_PWR 5 ∧ churnPowerAndReset1.flag .CHN_PWRCTL_NOPG 5 = false ∧ 7 < lsSize ∧
    (∀ j ∈ churnPowerAndReset1.jobs, ∀ p ∈ j.pieces, p.failed = false ∧ p.target ≠ some 5) := by
  decide +kernel

def churnPowerAndReset2 : State := S { (List.range 16).foldl (fun (d : Dev) k => d.wr .CHN_STAT_PWR k 3) (e4 1) with fixing := true }
theorem witness_ChurnPowerAndReset_2 :
    churnPowerAndReset2.resident 5 = none ∧ churnPowerAndReset2.fixing = true ∧
    (∀ (m : Fin 16), m ≠ 5 → churnPowerAndReset2.flag .CHN_STAT_ISO ↑m = true ∨ churnPowerAndReset2.rd .CHN_STAT_PWR ↑m = 3) := by
  decide +kernel

def churnPowerAndReset3 : State := S (e4 1)
theorem witness_ChurnPowerAndReset_3 :
    churnPowerAndReset3.rd .CHN_STAT_PWR 5 = 1 ∧ churnPowerAndReset3.fixing = false := by
  decide +kernel

def churnPowerAndReset4 : State := S ((e4 3).setChurn 5 {ctx := some res1})
theorem witness_ChurnPowerAndReset_4 :
    churnPowerAndReset4.resident 5 = some res1 := by
  decide +kernel

/-! `JobsAdmittedInTurn` -/

def jobsAdmittedInTurn1 : State := S (e5 descB)
theorem witness_JobsAdmittedInTurn_1 :
    (Source.host = Source.host ↔ 0 < 8) ∧ jobsAdmittedInTurn1.live = true ∧ jobsAdmittedInTurn1.fixing = false ∧
    jobsAdmittedInTurn1.jobs.length < 256 ∧ jobsAdmittedInTurn1.nextQueue = some 0 ∧ (0 ≠ 8 ∨ jobsAdmittedInTurn1.posted = []) ∧
    { (jobsAdmittedInTurn1.countMod .JOB_Q_HEAD 0) with lastQueue := 0 }.vread none (jobsAdmittedInTurn1.rd .JOB_Q_CTL_ASID 0) (jobsAdmittedInTurn1.rd .JOB_Q_BASE_ADDR 0 * 8 + 8 * (jobsAdmittedInTurn1.rd .JOB_Q_HEAD 0 % 2 ^ jobsAdmittedInTurn1.rd .JOB_Q_CTL_LOG2 0)) 8 = VRes.ok (leBytes 12288 8) ∧
    ({ (jobsAdmittedInTurn1.countMod .JOB_Q_HEAD 0) with lastQueue := 0 }.touch none (jobsAdmittedInTurn1.rd .JOB_Q_CTL_ASID 0) 0 (jobsAdmittedInTurn1.rd .JOB_Q_BASE_ADDR 0 * 8 + 8 * (jobsAdmittedInTurn1.rd .JOB_Q_HEAD 0 % 2 ^ jobsAdmittedInTurn1.rd .JOB_Q_CTL_LOG2 0)) 8).vread none (jobsAdmittedInTurn1.rd .JOB_Q_CTL_ASID 0) (ofLe (leBytes 12288 8)) 64 = VRes.ok descB ∧
    ({ (jobsAdmittedInTurn1.countMod .JOB_Q_HEAD 0) with lastQueue := 0 }.touch none (jobsAdmittedInTurn1.rd .JOB_Q_CTL_ASID 0) 0 (jobsAdmittedInTurn1.rd .JOB_Q_BASE_ADDR 0 * 8 + 8 * (jobsAdmittedInTurn1.rd .JOB_Q_HEAD 0 % 2 ^ jobsAdmittedInTurn1.rd .JOB_Q_CTL_LOG2 0)) 8).descriptorCode descB = 0 ∧
    ({ (jobsAdmittedInTurn1.countMod .JOB_Q_HEAD 0) with lastQueue := 0 }.touch none (jobsAdmittedInTurn1.rd .JOB_Q_CTL_ASID 0) 0 (jobsAdmittedInTurn1.rd .JOB_Q_BASE_ADDR 0 * 8 + 8 * (jobsAdmittedInTurn1.rd .JOB_Q_HEAD 0 % 2 ^ jobsAdmittedInTurn1.rd .JOB_Q_CTL_LOG2 0)) 8).readCommands (bit (leAt descB 4 1) 0) (bits (leAt descB 5 1) 0 4) (leAt descB 16 2) 0 (leAt descB 8 8) = Except.ok [Command.signal 9 6] := by
  decide +kernel

def jobsAdmittedInTurn2 : State := S (e5 descE)
theorem witness_JobsAdmittedInTurn_2 :
    (Source.firmware = Source.host ↔ 8 ≤ 0) ∧ jobsAdmittedInTurn2.live = true ∧ jobsAdmittedInTurn2.fixing = false ∧
    jobsAdmittedInTurn2.jobs.length < 256 ∧ jobsAdmittedInTurn2.nextQueue = some 0 ∧ (0 ≠ 8 ∨ jobsAdmittedInTurn2.posted = []) ∧
    { (jobsAdmittedInTurn2.countMod .JOB_Q_HEAD 0) with lastQueue := 0 }.vread none (jobsAdmittedInTurn2.rd .JOB_Q_CTL_ASID 0) (jobsAdmittedInTurn2.rd .JOB_Q_BASE_ADDR 0 * 8 + 8 * (jobsAdmittedInTurn2.rd .JOB_Q_HEAD 0 % 2 ^ jobsAdmittedInTurn2.rd .JOB_Q_CTL_LOG2 0)) 8 = VRes.ok (leBytes 12288 8) ∧
    ({ (jobsAdmittedInTurn2.countMod .JOB_Q_HEAD 0) with lastQueue := 0 }.touch none (jobsAdmittedInTurn2.rd .JOB_Q_CTL_ASID 0) 0 (jobsAdmittedInTurn2.rd .JOB_Q_BASE_ADDR 0 * 8 + 8 * (jobsAdmittedInTurn2.rd .JOB_Q_HEAD 0 % 2 ^ jobsAdmittedInTurn2.rd .JOB_Q_CTL_LOG2 0)) 8).vread none (jobsAdmittedInTurn2.rd .JOB_Q_CTL_ASID 0) (ofLe (leBytes 12288 8)) 64 = VRes.ok descE ∧
    (({ (jobsAdmittedInTurn2.countMod .JOB_Q_HEAD 0) with lastQueue := 0 }.touch none (jobsAdmittedInTurn2.rd .JOB_Q_CTL_ASID 0) 0 (jobsAdmittedInTurn2.rd .JOB_Q_BASE_ADDR 0 * 8 + 8 * (jobsAdmittedInTurn2.rd .JOB_Q_HEAD 0 % 2 ^ jobsAdmittedInTurn2.rd .JOB_Q_CTL_LOG2 0)) 8).descriptorCode descE ≠ 0 ∨ ({ (jobsAdmittedInTurn2.countMod .JOB_Q_HEAD 0) with lastQueue := 0 }.touch none (jobsAdmittedInTurn2.rd .JOB_Q_CTL_ASID 0) 0 (jobsAdmittedInTurn2.rd .JOB_Q_BASE_ADDR 0 * 8 + 8 * (jobsAdmittedInTurn2.rd .JOB_Q_HEAD 0 % 2 ^ jobsAdmittedInTurn2.rd .JOB_Q_CTL_LOG2 0)) 8).readCommands (bit (leAt descE 4 1) 0) (bits (leAt descE 5 1) 0 4) (leAt descE 16 2) 0 (leAt descE 8 8) = Except.error (1, 2, 3)) := by
  decide +kernel

def jobsAdmittedInTurn3 : State := S liv
theorem witness_JobsAdmittedInTurn_3 :
    (256 ≤ jobsAdmittedInTurn3.jobs.length ∨ jobsAdmittedInTurn3.nextQueue = none) := by
  decide +kernel

def jobsAdmittedInTurn4 : State := pag (S (e8 descC))
theorem witness_JobsAdmittedInTurn_4 :
    jobsAdmittedInTurn4.live = true ∧ jobsAdmittedInTurn4.fixing = false ∧ jobsAdmittedInTurn4.jobs.length < 256 ∧
    jobsAdmittedInTurn4.nextQueue = some 8 ∧ jobsAdmittedInTurn4.posted = [(12288, 8)] ∧
    { { (jobsAdmittedInTurn4.countMod .JOB_Q_HEAD 8) with lastQueue := 8 } with posted := [] }.vread none (jobsAdmittedInTurn4.rd .JOB_Q_CTL_ASID 8) (12288, 8).1 64 = VRes.ok descC ∧
    { { (jobsAdmittedInTurn4.countMod .JOB_Q_HEAD 8) with lastQueue := 8 } with posted := [] }.descriptorCode descC = 0 ∧
    { { (jobsAdmittedInTurn4.countMod .JOB_Q_HEAD 8) with lastQueue := 8 } with posted := [] }.readCommands (bit (leAt descC 4 1) 0) (bits (leAt descC 5 1) 0 4) (leAt descC 16 2) 0 (leAt descC 8 8) = Except.ok [Command.signal 9 6] := by
  decide +kernel

def jobsAdmittedInTurn5 : State := pag (S (e8 descE))
theorem witness_JobsAdmittedInTurn_5 :
    jobsAdmittedInTurn5.live = true ∧ jobsAdmittedInTurn5.fixing = false ∧ jobsAdmittedInTurn5.jobs.length < 256 ∧
    jobsAdmittedInTurn5.nextQueue = some 8 ∧ jobsAdmittedInTurn5.posted = [(12288, 8)] ∧
    { { (jobsAdmittedInTurn5.countMod .JOB_Q_HEAD 8) with lastQueue := 8 } with posted := [] }.vread none (jobsAdmittedInTurn5.rd .JOB_Q_CTL_ASID 8) (12288, 8).1 64 = VRes.ok descE ∧
    ({ { (jobsAdmittedInTurn5.countMod .JOB_Q_HEAD 8) with lastQueue := 8 } with posted := [] }.descriptorCode descE ≠ 0 ∨ { { (jobsAdmittedInTurn5.countMod .JOB_Q_HEAD 8) with lastQueue := 8 } with posted := [] }.readCommands (bit (leAt descE 4 1) 0) (bits (leAt descE 5 1) 0 4) (leAt descE 16 2) 0 (leAt descE 8 8) = Except.error (1, 2, 3)) := by
  decide +kernel

/-! `SchedulerCommandsRun` -/

def schedulerCommandsRun1 : State := e6 (jb [])
theorem witness_SchedulerCommandsRun_1 :
    schedulerCommandsRun1.jobById 77 = some (jb []) ∧ (jb []).cmds.length ≤ (jb []).pc ∧ (jb []).csc = some 9 ∧
    (jb []).last = false ∧ (jb []).iterRec = false := by
  decide +kernel

def schedulerCommandsRun2 : State := e6 (jb [.span 0x100 0x200 6])
theorem witness_SchedulerCommandsRun_2 :
    schedulerCommandsRun2.jobById 77 = some (jb [Command.span 256 512 6]) ∧
    (jb [Command.span 256 512 6]).cmd? = some (Command.span 256 512 6) ∧
    schedulerCommandsRun2.vread none (jb [Command.span 256 512 6]).asid 256 8 = VRes.ok [0, 0, 0, 0, 0, 0, 0, 0] ∧
    schedulerCommandsRun2.vread none (jb [Command.span 256 512 6]).asid 512 8 = VRes.ok [0, 0, 0, 0, 0, 0, 0, 0] ∧
    ((jb [Command.span 256 512 6]).teach = true ∨ (jb [Command.span 256 512 6]).heldFault = false) := by
  decide +kernel

def schedulerCommandsRun3 : State := e6 {jb [] with iter := 2}
theorem witness_SchedulerCommandsRun_3 :
    schedulerCommandsRun3.jobById 77 = some { (jb []) with iter := 2 } ∧
    { (jb []) with iter := 2 }.cmds.length ≤ { (jb []) with iter := 2 }.pc ∧ { (jb []) with iter := 2 }.csc = some 9 ∧
    { (jb []) with iter := 2 }.last = true ∧ { (jb []) with iter := 2 }.pieces = [] := by
  decide +kernel

def schedulerCommandsRun4 : State := e6 (jb [.signal 9 5])
theorem witness_SchedulerCommandsRun_4 :
    schedulerCommandsRun4.jobById 77 = some (jb [Command.signal 9 5]) ∧
    (jb [Command.signal 9 5]).cmd? = some (Command.signal 9 5) := by
  decide +kernel

def schedulerCommandsRun5 : State := e6 (jb [.scReset 9])
theorem witness_SchedulerCommandsRun_5 :
    schedulerCommandsRun5.jobById 77 = some (jb [Command.scReset 9]) ∧ (jb [Command.scReset 9]).cmd? = some (Command.scReset 9) := by
  decide +kernel

def schedulerCommandsRun6 : State := e6 {(jb [.wait 9 5 6]) with iter := 2, begun := true}
theorem witness_SchedulerCommandsRun_6 :
    schedulerCommandsRun6.jobById 77 = some { (jb [Command.wait 9 5 6]) with iter := 2, begun := true } ∧
    { (jb [Command.wait 9 5 6]) with iter := 2, begun := true }.cmd? = some (Command.wait 9 5 6) ∧
    { (jb [Command.wait 9 5 6]) with iter := 2, begun := true }.begun = true := by
  decide +kernel

def schedulerCommandsRun7 : State := e6 {jb [.signal 9 5] with stop := true}
theorem witness_SchedulerCommandsRun_7 :
    schedulerCommandsRun7.jobById 77 = some { (jb [Command.signal 9 5]) with stop := true } ∧
    { (jb [Command.signal 9 5]) with stop := true }.stop = true ∧
    { (jb [Command.signal 9 5]) with stop := true }.begun = false ∧
    { (jb [Command.signal 9 5]) with stop := true }.pc < { (jb [Command.signal 9 5]) with stop := true }.cmds.length ∧
    { (jb [Command.signal 9 5]) with stop := true }.pieces = [] := by
  decide +kernel

/-! `PiecesRunAndEnd` -/

def piecesRunAndEnd1 : State := run (jb [cl])
theorem witness_PiecesRunAndEnd_1 :
    piecesRunAndEnd1.jobById 77 = some (jb [cl]) ∧ (jb [cl]).started = false ∧ (jb [cl]).cmd? = some (Command.layer 2 0 128 5) ∧
    piecesRunAndEnd1.flag .GLB_MODE_FIXED = false ∧ piecesRunAndEnd1.expireCheap.recoverWork = piecesRunAndEnd1.toDev ∧
    piecesRunAndEnd1.readyAll = [] := by
  decide +kernel

def piecesRunAndEnd2 : State := only5 (run jvr)
theorem witness_PiecesRunAndEnd_2 :
    piecesRunAndEnd2.live = true ∧ piecesRunAndEnd2.fixing = false ∧ piecesRunAndEnd2.flag .GLB_MODE_FIXED = false ∧
    piecesRunAndEnd2.expireCheap.recoverWork = piecesRunAndEnd2.toDev ∧
    piecesRunAndEnd2.nextPlacement = some ((jvr, 0, pr), 5) ∧ pr.st = PieceSt.ready ∧ piecesRunAndEnd2.job? jvr.seq = some jvr ∧
    (piecesRunAndEnd2.place 5 jvr 0 pr).fetches 5 jvr = true := by
  decide +kernel

def piecesRunAndEnd3 : State := run (jb [ck])
theorem witness_PiecesRunAndEnd_3 :
    piecesRunAndEnd3.jobById 77 = some (jb [ck]) ∧ (jb [ck]).started = false ∧
    (jb [ck]).cmd? = some (Command.kernel 1 2 3 4 5 6 7) := by
  decide +kernel

def piecesRunAndEnd4 : State := run (jb [.vcommit 0x100 2])
theorem witness_PiecesRunAndEnd_4 :
    piecesRunAndEnd4.jobById 77 = some (jb [Command.vcommit 256 2]) ∧ (jb [Command.vcommit 256 2]).started = false ∧
    (jb [Command.vcommit 256 2]).cmd? = some (Command.vcommit 256 2) := by
  decide +kernel

def piecesRunAndEnd5 : State := run jd
theorem witness_PiecesRunAndEnd_5 :
    piecesRunAndEnd5.jobById 77 = some jd ∧ piecesRunAndEnd5.job? jd.seq = some jd ∧ jd.started = true ∧ jd.split = false ∧
    (jd.pieces = List.map (fun i => { index := i, st := PieceSt.done, deferred := false, range := none, failed := false, target := none }) (upTo 2)) ∧
    jd.cmd? = some (Command.layer 2 0 128 5) := by
  decide +kernel

def piecesRunAndEnd6 : State := runv
theorem witness_PiecesRunAndEnd_6 :
    piecesRunAndEnd6.jobById 77 = some jv ∧ jv.started = true ∧ jv.cmd? = some (Command.vcommit 256 2) ∧ jv.churnOf 0 = some 5 ∧
    piecesRunAndEnd6.resident 5 = some rz ∧ rz.restoring = none ∧ jv.abort = false ∧
    piecesRunAndEnd6.vread (some 5) jv.asid 256 (16 * 2) = VRes.ok vb := by
  decide +kernel

/-! `SlicesAndTakeover` -/

def slicesAndTakeover1 : State := only53 (run jt2) true
theorem witness_SlicesAndTakeover_1 :
    slicesAndTakeover1.resident 3 = some rt2 ∧ slicesAndTakeover1.job? rt2.job = some jt2 ∧
    leastPart (OpFmt.int8, OpFmt.int8).1 (OpFmt.int8, OpFmt.int8).2 = some 128 ∧ jt2.pieces[rt2.piece]? = some prun ∧
    (rt2.kind = 1 ∧ rt2.saving = none ∧ rt2.restoring = none ∧ jt2.repro = some false ∧ slicesAndTakeover1.flag .GLB_MODE_FIXED = false ∧ slicesAndTakeover1.churnReady 5 = true ∧ slicesAndTakeover1.kept 5 = false ∧ slicesAndTakeover1.readyAll = [] ∧ mayDivide ((Option.map (fun e => max e.1 0) prun.range).getD 0) ((Option.map (fun e => min e.2 1024) prun.range).getD 1024) 128 = true) ∧
    ((let up : Piece := { index := 0, st := .ready, range := some (splitPoint 0 1024, 1024) }; let w := (slicesAndTakeover1.keepPart jt2.seq 0 0 (splitPoint 0 1024)).updJob jt2.seq fun i => { i with pieces := i.pieces ++ [up] }; (w.job? jt2.seq).all fun i => (w.place 5 i 1 up).fetches 5 i) = true) ∧
    slicesAndTakeover1.flag .GLB_MODE_FIXED = false ∧ rt2.leaving = false ∧ rt2.restoring = none ∧ rt2.kind ≠ 3 ∧
    slicesAndTakeover1.anyFree = true ∧ (([(0, 5)].all fun e => decide (e.1 + e.2 ≤ 4194304)) = true) ∧
    ((List.map (fun e => e.2) [(0, 5)]).sum ≤ 65536) ∧ rt2.cheapWait = none := by
  decide +kernel

def slicesAndTakeover2 : State := sl {rt with kind := 3}
theorem witness_SlicesAndTakeover_2 :
    slicesAndTakeover2.resident 3 = some { rt with kind := 3 } ∧
    slicesAndTakeover2.job? { rt with kind := 3 }.job = some (jt false) ∧
    leastPart (OpFmt.int8, OpFmt.int8).1 (OpFmt.int8, OpFmt.int8).2 = some 128 ∧
    (jt false).pieces[{ rt with kind := 3 }.piece]? = some prun ∧
    (¬({ rt with kind := 3 }.kind = 1 ∧ { rt with kind := 3 }.saving = none ∧ { rt with kind := 3 }.restoring = none ∧ (jt false).repro = some false ∧ slicesAndTakeover2.flag .GLB_MODE_FIXED = false ∧ slicesAndTakeover2.churnReady 5 = true ∧ slicesAndTakeover2.kept 5 = false ∧ slicesAndTakeover2.readyAll = [] ∧ mayDivide ((Option.map (fun e => max e.1 0) prun.range).getD 0) ((Option.map (fun e => min e.2 1024) prun.range).getD 1024) 128 = true)) ∧
    slicesAndTakeover2.flag .GLB_MODE_FIXED = false ∧ { rt with kind := 3 }.leaving = false ∧
    { rt with kind := 3 }.restoring = none ∧ { rt with kind := 3 }.kind = 3 := by
  decide +kernel

def slicesAndTakeover3 : State := allBusy (sl rt [jw])
theorem witness_SlicesAndTakeover_3 :
    slicesAndTakeover3.resident 3 = some rt ∧ slicesAndTakeover3.job? rt.job = some (jt false) ∧
    slicesAndTakeover3.flag .GLB_MODE_FIXED = false ∧ rt.leaving = false ∧ rt.restoring = none ∧ rt.kind ≠ 3 ∧
    (((slicesAndTakeover3.updJob (jt false).seq fun j => { j with shorten := 0 }).setResident 3 (some { rt with sliceAt := slicesAndTakeover3.xclk, sliceLen := slicesAndTakeover3.sliceOf (jt false).shorten })).yieldsTo (jt false) = some (jw, 0, pr)) ∧
    slicesAndTakeover3.freeSlot = some 1 := by
  decide +kernel

def slicesAndTakeover4 : State := allBusy (sl {rt with cheapWait := some 5} [jw])
theorem witness_SlicesAndTakeover_4 :
    slicesAndTakeover4.resident 3 = some { rt with cheapWait := some 5 } ∧
    slicesAndTakeover4.job? { rt with cheapWait := some 5 }.job = some (jt false) ∧
    (([(0, 5)].all fun e => decide (e.1 + e.2 ≤ 4194304)) = true) ∧ ((List.map (fun e => e.2) [(0, 5)]).sum ≤ 65536) ∧
    { rt with cheapWait := some 5 }.cheapWait ≠ none ∧ slicesAndTakeover4.freeSlot = some 1 := by
  decide +kernel

def slicesAndTakeover5 : State := only53 (run jt2) true
theorem witness_SlicesAndTakeover_5 :
    slicesAndTakeover5.resident 3 = some rt2 ∧ slicesAndTakeover5.job? rt2.job = some jt2 ∧
    leastPart (OpFmt.int8, OpFmt.fp32).1 (OpFmt.int8, OpFmt.fp32).2 = none := by
  decide +kernel

/-! `SavesAndRestores` -/

def savesAndRestores1 : State := S { (ss {rt with restoring := some 1}).toDev with saves := [(1, svv)] }
theorem witness_SavesAndRestores_1 :
    savesAndRestores1.resident 3 = some { rt with restoring := some 1 } ∧ { rt with restoring := some 1 }.saving = none ∧
    { rt with restoring := some 1 }.restoring = some 1 ∧ tabFind? savesAndRestores1.saves 1 = some svv ∧
    (Option.any (fun b => leAt b 14 1 == 2) svv.res.fault = false) := by
  decide +kernel

def savesAndRestores2 : State := S ((ss {rt with saving := some 1, job := 6}).toDev.wr .JOB_SLOT_ST_STATE 40 2)
theorem witness_SavesAndRestores_2 :
    savesAndRestores2.resident 3 = some { rt with job := 6, saving := some 1 } ∧
    { rt with job := 6, saving := some 1 }.saving = some 1 ∧ { rt with job := 6, saving := some 1 }.cheap = none ∧
    { rt with job := 6, saving := some 1 }.fault = none ∧ savesAndRestores2.saveBase 1 + saveSize ≤ vatSize ∧
    (∀ e ∈ (savesAndRestores2.churn 3).rf, e.1 < 524288) ∧ (∀ e ∈ (savesAndRestores2.churn 3).acc, e.1 < 8192) ∧
    (∀ e ∈ (savesAndRestores2.churn 3).anchor, e.1 < 8192) ∧ savesAndRestores2.rd .JOB_SLOT_ST_STATE 40 ≠ 0 := by
  decide +kernel

/-! `CommandsToJobs` -/

def commandsToJobs1 : State := cj jp 76
theorem witness_CommandsToJobs_1 :
    commandsToJobs1.named = none := by
  decide +kernel

def commandsToJobs2 : State := cj jp 77
theorem witness_CommandsToJobs_2 :
    commandsToJobs2.named = some jp ∧ commandsToJobs2.faultedSlots jp = [] ∧ commandsToJobs2.inVcommit jp = false ∧
    jp.begun = false := by
  decide +kernel

def commandsToJobs3 : State := cjf
theorem witness_CommandsToJobs_3 :
    commandsToJobs3.named = some { jp with begun := true, pieces := [{ index := 0, st := PieceSt.saved 4, deferred := false, range := none, failed := false, target := none }] } ∧
    commandsToJobs3.faultedSlots { jp with begun := true, pieces := [{ index := 0, st := PieceSt.saved 4, deferred := false, range := none, failed := false, target := none }] } ≠ [] ∧
    (∀ k ∈ commandsToJobs3.faultedSlots { jp with begun := true, pieces := [{ index := 0, st := PieceSt.saved 4, deferred := false, range := none, failed := false, target := none }] }, k < 41) ∧
    { jp with begun := true, pieces := [{ index := 0, st := PieceSt.saved 4, deferred := false, range := none, failed := false, target := none }] }.begun = true := by
  decide +kernel

def commandsToJobs4 : State := S ((cj jv 77).toDev.setChurn 5 {ctx := some rz})
theorem witness_CommandsToJobs_4 :
    commandsToJobs4.named = some jv ∧ commandsToJobs4.inVcommit jv = true := by
  decide +kernel

/-! `HostSignalsAndReadsCounters` -/

def hostSignalsAndReadsCounters : State := md 0
theorem witness_HostSignalsAndReadsCounters :
    hostSignalsAndReadsCounters.power ≠ Power.off := by
  decide +kernel

/-! `ModesAreWritten` -/

def modesAreWritten1 : State := md 0
theorem witness_ModesAreWritten_1 :
    modesAreWritten1.answers Port.h = true ∧ modesAreWritten1.power ≠ Power.recovery ∧ mayWrite rwRwRR Port.h = true ∧
    mayWrite rwNoRwNo Port.h = true ∧ modesAreWritten1.fixing = false ∧ modesAreWritten1.flag .GLB_MODE_FIXED = !true ∧
    modesAreWritten1.jobs = [] ∧ (∀ (n : Fin 16), modesAreWritten1.resident ↑n = none) ∧ true = true := by
  decide +kernel

def modesAreWritten2 : State := md 1
theorem witness_ModesAreWritten_2 :
    modesAreWritten2.answers Port.h = true ∧ modesAreWritten2.power ≠ Power.recovery ∧ mayWrite rwNoRwNo Port.h = true ∧
    modesAreWritten2.fixing = false ∧ modesAreWritten2.flag .GLB_MODE_FIXED = !false ∧ modesAreWritten2.jobs = [] ∧
    (∀ (n : Fin 16), modesAreWritten2.resident ↑n = none) ∧ false = false := by
  decide +kernel

def modesAreWritten3 : State := S {(md 1).toDev with jobs := [jb []]}
theorem witness_ModesAreWritten_3 :
    modesAreWritten3.answers Port.h = true ∧ modesAreWritten3.power ≠ Power.recovery ∧ mayWrite rwNoRwNo Port.h = true ∧
    modesAreWritten3.fixing = false ∧ modesAreWritten3.flag .GLB_MODE_FIXED = !false ∧ modesAreWritten3.jobs ≠ [] := by
  decide +kernel

def modesAreWritten4 : State := S ((md 0).toDev.wr .ETH_CTL_EN 2 1 |>.setOd 0x6102 4 5)
theorem witness_ModesAreWritten_4 :
    modesAreWritten4.answers Port.m = true ∧ modesAreWritten4.power ≠ Power.recovery ∧ mayWrite rwRwRR Port.m = false := by
  decide +kernel

end Jobs

/-! ### Witnesses: Field -/

namespace Field

def S (d : Dev) : State := { toDev := d }
def liv : Dev := { base with power := .run, die := { restarted := false }, barrier := { init := false, safeSent := false } }
def pay (kind low : Nat) : Payload := BitVec.ofNat 64 (payload kind 5 low)
def tk : Tick := { edge := 8000, level := true, mask := 0x11 }
def tp (e : Nat) (l : Nat) : Payload := pay 1 (l * 2^57 + 0x15 * 2^25 + e * 2)
def fin (broken : Nat) : Dev := { liv.wr .FLD_INCFG_WBEN 3 1 |>.wr .FLD_LVL 0 0xFFFF with die := { broken := broken, late := true, lastLate := some tk }, barrier := { readPending := [12, 16], release := true } }
def fin2 : Dev := (List.range 24).foldl (fun (d : Dev) l => (d.setLane l {openPart := some 9})) { fin 0 with power := .recovery, parts := [{ id := 9, lane := 2, start := 5, slot := 0 }] }
def sn : Dev := { liv with counters := [(3, 2^64+9), (200, 1), (1025, 7)] }
def req : List Byte := leBytes 5 8 ++ leBytes 3 4 ++ leBytes 0 4 ++ leBytes 0 4 ++ leBytes 2 4 ++ leBytes 2 2 ++ leBytes 0 1
    ++ leBytes 1 1 ++ leBytes 4 2 ++ leBytes 4 2 ++ leBytes 0x9000 8 ++ leBytes 0 1 ++ leBytes 1 1 ++ leBytes 0 2 ++ leBytes 0 4
    ++ leBytes 0x4000 8 ++ leBytes 0x5000 8
def bq : Dev := (liv.wr .GLB_MODE_FIXED 0 1 |>.wr .DEC_Q_CTL_EN 1 1 |>.wr .DEC_Q_HEAD 1 5 |>.wr .DEC_Q_TAIL 1 6
    |>.wr .DEC_Q_BASE_ADDR 1 (0x2000/64) |>.wr .DEC_Q_CTL_LOG2 1 2 |>.wr .DEC_BWCAP 0 10
    |>.wr .TCH_LIB_CNT 0 2|>.wr .DEC_Q_CTL_EN 0 0).putBytes (0x2000+64) req
def bt : Batch := { queue := 1, req := req, left := [0, 1] }
def vd (l : Nat) : Dev := (bq.setSlot 2 {st := 2, d := 77}).putBytes (bq.libBase + 0) (leBytes 0x1000 8 ++ leBytes 5 4
    ++ leBytes l 1 ++ leBytes 0 1 ++ leBytes 3 1 ++ leBytes 0 17) |>.putBytes 0x1020 [1]
def held : List ValSample := ((vd 0).wr .GLB_MODE_FIXED 0 0).heldOut.map fun i => ⟨i, 0⟩
def img0 : RecipeImage := { build := 7, vatKiB := 0, spill := 0, skimRates := [], counters := [], standing := [], weightLen := 4, replay := 0x777 }

/-! `BarrierFramesSent` -/

def barrierFramesSent1 : State := S { liv with xclk := 0, barrier := { waiting := [tk] } }
theorem witness_BarrierFramesSent_1 :
    barrierFramesSent1.frameSlot.framesOn = true ∧ barrierFramesSent1.frameSlot.barrier.safeAlways = false ∧
    barrierFramesSent1.frameSlot.secondCopy = none ∧
    (7 ≤ barrierFramesSent1.frameSlot.barrier.sinceState ∨ barrierFramesSent1.frameSlot.nextTick = none ∧ barrierFramesSent1.frameSlot.barrier.regs = []) ∧
    barrierFramesSent1.barrier.waiting = [tk] := by
  decide +kernel

def barrierFramesSent2 : State := S { liv with barrier := { safeAlways := true } }
theorem witness_BarrierFramesSent_2 :
    barrierFramesSent2.frameSlot.framesOn = true ∧ barrierFramesSent2.frameSlot.barrier.safeAlways = true := by
  decide +kernel

def barrierFramesSent3 : State := S { liv with barrier := { regs := [7, 8], sinceState := 6 } }
theorem witness_BarrierFramesSent_3 :
    barrierFramesSent3.frameSlot.framesOn = true ∧ barrierFramesSent3.frameSlot.barrier.safeAlways = false ∧
    barrierFramesSent3.frameSlot.secondCopy = none ∧ barrierFramesSent3.frameSlot.barrier.sinceState < 7 ∧
    barrierFramesSent3.frameSlot.nextTick = none ∧ barrierFramesSent3.frameSlot.barrier.regs = [7, 8] := by
  decide +kernel

def barrierFramesSent4 : State := S { liv with xclk := 0, barrier := { queue := List.replicate 64 (tk, 2), waiting := [tk] } }
theorem witness_BarrierFramesSent_4 :
    barrierFramesSent4.frameSlot.framesOn = true ∧ barrierFramesSent4.frameSlot.barrier.safeAlways = false ∧
    barrierFramesSent4.frameSlot.secondCopy = none ∧ barrierFramesSent4.frameSlot.nextTick = some (tk, 2) := by
  decide +kernel

def barrierFramesSent5 : State := S { liv with power := .start }
theorem witness_BarrierFramesSent_5 :
    barrierFramesSent5.frameSlot.framesOn = false := by
  decide +kernel

def barrierFramesSent6 : State := S { liv with barrier := { queue := [(tk, 1)], sinceState := 6 } }
theorem witness_BarrierFramesSent_6 :
    barrierFramesSent6.frameSlot.framesOn = true ∧ barrierFramesSent6.frameSlot.barrier.safeAlways = false ∧
    barrierFramesSent6.frameSlot.secondCopy = some (tk, 1) := by
  decide +kernel

/-! `FieldDieObeysFrames` -/

def fieldDieObeysFrames1 : State := S { liv.wr .FLD_STAT_SAFE 0 0 |>.wr .FLD_OUT_EN 0 0xFFFF |>.wr .FLD_SC 0 8 with xclk := 7000, die := {held := [{tk with edge := 9000}, tk, {tk with level := false, mask := 1}], stop := some (5, true)}}
theorem witness_FieldDieObeysFrames_1 :
    fieldDieObeysFrames1.die.powered = true ∧ kindOf (pay 3 0) = 3 ∧ firstEdge fieldDieObeysFrames1.die.held = some 8000 ∧
    bit (edgeMask fieldDieObeysFrames1.die.held 8000 true) 4 = true ∧
    bit (edgeMask fieldDieObeysFrames1.die.held 8000 false) 4 = false ∧ bit fieldDieObeysFrames1.stopMask 4 = false ∧
    bit ((fieldDieObeysFrames1.timerTo 8000).rd .FLD_OUT_EN) 4 = true ∧
    bit ((fieldDieObeysFrames1.timerTo 8000).rd .FLD_SC) 4 = false := by
  decide +kernel

def fieldDieObeysFrames2 : State := S { liv.wr .FLD_STAT_SAFE 0 1 with die := { good := 16 }}
theorem witness_FieldDieObeysFrames_2 :
    fieldDieObeysFrames2.die.powered = true ∧ kindOf (pay 0 (2 ^ 50 + 3 * 2 ^ 52 + 2 ^ 57)) = 0 ∧
    bit (BitVec.toNat (pay 0 (2 ^ 50 + 3 * 2 ^ 52 + 2 ^ 57))) 51 = false ∧ fieldDieObeysFrames2.flag .FLD_STAT_SAFE = true ∧
    2 ≠ bits (BitVec.toNat (pay 0 (2 ^ 50 + 3 * 2 ^ 52 + 2 ^ 57))) 52 5 := by
  decide +kernel

def fieldDieObeysFrames3 : State := S { liv.wr .FLD_STAT_SAFE 0 0 |>.wr .FLD_LVL 0 0xFF with xclk := 2^24 * 5 + 100, die := {goodAt := 2^24 * 5 + 100}}
theorem witness_FieldDieObeysFrames_3 :
    fieldDieObeysFrames3.die.powered = true ∧ kindOf (tp 100 1) = 1 ∧ fieldDieObeysFrames3.flag .FLD_STAT_SAFE = false ∧
    fieldDieObeysFrames3.die.knows (fieldDieObeysFrames3.goodFrame.tickOf (BitVec.toNat (tp 100 1))) = false ∧
    (fieldDieObeysFrames3.goodFrame.tickOf (BitVec.toNat (tp 100 1))).edge ≤ fieldDieObeysFrames3.goodFrame.fieldTimer ∧
    bit (BitVec.toNat (tp 100 1)) 57 = true := by
  decide +kernel

def fieldDieObeysFrames4 : State := S liv
theorem witness_FieldDieObeysFrames_4 :
    fieldDieObeysFrames4.die.powered = true ∧ kindOf (pay 2 (4 * 2 ^ 42 + 21 * 2 ^ 10)) = 2 ∧
    bit (BitVec.toNat (pay 2 (4 * 2 ^ 42 + 21 * 2 ^ 10))) 9 = false ∧
    bits (BitVec.toNat (pay 2 (4 * 2 ^ 42 + 21 * 2 ^ 10))) 42 16 = 4 ∧
    bit (BitVec.toNat (pay 2 (4 * 2 ^ 42 + 21 * 2 ^ 10))) (10 + 3) = false := by
  decide +kernel

def fieldDieObeysFrames5 : State := S (liv.wr .FLD_STAT_SAFE 0 0 |>.wr .FLD_OUT_EN 0 0xFFFF |>.wr .FLD_SC 0 8 |>.wr .FLD_SAFE 2 1)
theorem witness_FieldDieObeysFrames_5 :
    fieldDieObeysFrames5.die.powered = true ∧ kindOf (pay 0 (2 ^ 51)) = 0 ∧ bit (BitVec.toNat (pay 0 (2 ^ 51))) 51 = true ∧
    fieldDieObeysFrames5.flag .FLD_STAT_SAFE = false := by
  decide +kernel

def fieldDieObeysFrames6 : State := S { liv.wr .FLD_STAT_SAFE 0 0 with xclk := 2^24 * 5 + 100, die := {goodAt := 2^24 * 5 + 100}}
theorem witness_FieldDieObeysFrames_6 :
    fieldDieObeysFrames6.die.powered = true ∧ kindOf (tp 101 1) = 1 ∧ fieldDieObeysFrames6.flag .FLD_STAT_SAFE = false ∧
    fieldDieObeysFrames6.die.knows (fieldDieObeysFrames6.goodFrame.tickOf (BitVec.toNat (tp 101 1))) = false ∧
    fieldDieObeysFrames6.goodFrame.fieldTimer < (fieldDieObeysFrames6.goodFrame.tickOf (BitVec.toNat (tp 101 1))).edge ∧
    fieldDieObeysFrames6.die.held.length < 256 := by
  decide +kernel

def fieldDieObeysFrames7 : State := S { liv.wr .FLD_STAT_SAFE 0 0 |>.wr .FLD_LVL 0 0xFF with xclk := 2^24 * 5 + 100, die := {goodAt := 2^24 * 5 + 100}}
theorem witness_FieldDieObeysFrames_7 :
    fieldDieObeysFrames7.die.powered = true ∧ kindOf (tp 100 0) = 1 ∧ fieldDieObeysFrames7.flag .FLD_STAT_SAFE = false ∧
    fieldDieObeysFrames7.die.knows (fieldDieObeysFrames7.goodFrame.tickOf (BitVec.toNat (tp 100 0))) = false ∧
    (fieldDieObeysFrames7.goodFrame.tickOf (BitVec.toNat (tp 100 0))).edge ≤ fieldDieObeysFrames7.goodFrame.fieldTimer ∧
    bit (BitVec.toNat (tp 100 0)) 57 = false ∧ bit (BitVec.toNat (tp 100 0)) (25 + 2) = true ∧
    bit fieldDieObeysFrames7.stopMask 2 = false := by
  decide +kernel

def fieldDieObeysFrames8 : State := S liv
theorem witness_FieldDieObeysFrames_8 :
    fieldDieObeysFrames8.die.powered = true ∧ kindOf (pay 2 (8 * 2 ^ 42 + 2 ^ 9)) = 2 ∧
    bit (BitVec.toNat (pay 2 (8 * 2 ^ 42 + 2 ^ 9))) 9 = true := by
  decide +kernel

def fieldDieObeysFrames9 : State := S { liv.wr .FLD_STAT_SAFE 0 0 with die := {held := [{tk with edge := 101, mask := 0x15}]}}
theorem witness_FieldDieObeysFrames_9 :
    fieldDieObeysFrames9.die.powered = true ∧ kindOf (tp 101 1) = 1 ∧ fieldDieObeysFrames9.flag .FLD_STAT_SAFE = false ∧
    fieldDieObeysFrames9.die.knows (fieldDieObeysFrames9.goodFrame.tickOf (BitVec.toNat (tp 101 1))) = true := by
  decide +kernel

/-! `FieldDieSupplyAndTimeout` -/

def fieldDieSupplyAndTimeout1 : State := S (liv.wr .FLD_STAT_SAFE 0 0)
theorem witness_FieldDieSupplyAndTimeout_1 :
    fieldDieSupplyAndTimeout1.die.powered = true ∧ fieldDieSupplyAndTimeout1.flag .FLD_STAT_SAFE = false := by
  decide +kernel

def fieldDieSupplyAndTimeout2 : State := S { liv with die := {powered := false}}
theorem witness_FieldDieSupplyAndTimeout_2 :
    fieldDieSupplyAndTimeout2.die.powered = false ∧ Field.FLD_SAFE.desc.die = true ∧ Field.FLD_SAFE ≠ Field.FLD_STAT_FSUP ∧
    3 < Field.FLD_SAFE.desc.count := by
  decide +kernel

def fieldDieSupplyAndTimeout3 : State := S { liv with die := {powered := false}}
theorem witness_FieldDieSupplyAndTimeout_3 :
    fieldDieSupplyAndTimeout3.die.powered = false ∧ Field.ENC_POS.desc.die = false := by
  decide +kernel

/-! `FieldInputsAndOutputs` -/

def fieldInputsAndOutputs1 : State := S (fin 8)
theorem witness_FieldInputsAndOutputs_1 :
    fieldInputsAndOutputs1.die.powered = true ∧ bit fieldInputsAndOutputs1.die.broken 3 = true ∧
    bit (fieldInputsAndOutputs1.rd .FLD_LVL) 5 = true ∧ fieldInputsAndOutputs1.logicOn = true ∧
    kindOf (pay 0 (119 * 2 ^ 42 + 24 * 2 ^ 26 + 3 * 2 ^ 23 + 90 * 2 ^ 15 + 32256)) = 0 ∧
    bit (BitVec.toNat (pay 0 (119 * 2 ^ 42 + 24 * 2 ^ 26 + 3 * 2 ^ 23 + 90 * 2 ^ 15 + 32256))) 11 = true ∧
    bit (BitVec.toNat (pay 0 (119 * 2 ^ 42 + 24 * 2 ^ 26 + 3 * 2 ^ 23 + 90 * 2 ^ 15 + 32256))) 9 = true ∧
    bit (BitVec.toNat (pay 0 (119 * 2 ^ 42 + 24 * 2 ^ 26 + 3 * 2 ^ 23 + 90 * 2 ^ 15 + 32256))) 13 = true := by
  decide +kernel

def fieldInputsAndOutputs2 : State := S (fin 0)
theorem witness_FieldInputsAndOutputs_2 :
    fieldInputsAndOutputs2.die.powered = true ∧ bit fieldInputsAndOutputs2.die.broken 3 = false ∧
    fieldInputsAndOutputs2.flag .FLD_INCFG_WBEN 3 = true ∧ fieldInputsAndOutputs2.logicOn = true ∧
    kindOf (pay 1 (12 * 2 ^ 42 + 77 * 2 ^ 10)) = 1 ∧
    fieldInputsAndOutputs2.barrier.readPending = [bits (BitVec.toNat (pay 1 (12 * 2 ^ 42 + 77 * 2 ^ 10))) 42 16, 16] := by
  decide +kernel

def fieldInputsAndOutputs3 : State := S { fin 0 with die := {powered := false} }
theorem witness_FieldInputsAndOutputs_3 :
    fieldInputsAndOutputs3.die.powered = false := by
  decide +kernel

def fieldInputsAndOutputs4 : State := S (fin 0)
theorem witness_FieldInputsAndOutputs_4 :
    fieldInputsAndOutputs4.logicOn = true ∧ fieldInputsAndOutputs4.die.powered = true ∧ kindOf (pay 3 5) = 3 := by
  decide +kernel

/-! `SnapshotVoteAndIndirectPair` -/

def snapshotVoteAndIndirectPair1 : State := S (sn.wr .IND_ADDR 0 3 |>.wr .IND_ADDR_SPACE 0 1 |>.wr .IND_ADDR_AUTOINC 0 1)
theorem witness_SnapshotVoteAndIndirectPair_1 :
    (∀ (n : Fin 16), snapshotVoteAndIndirectPair1.resident ↑n = none) ∧
    snapshotVoteAndIndirectPair1.flag .IND_ADDR_AUTOINC = true ∧ snapshotVoteAndIndirectPair1.rd .IND_ADDR_SPACE = 1 ∧
    dieW1c (4 * snapshotVoteAndIndirectPair1.rd .IND_ADDR) = true := by
  decide +kernel

def snapshotVoteAndIndirectPair2 : State := S ({sn.wr .IND_ADDR 0 (2^22-1) |>.wr .IND_ADDR_SPACE 0 5 |>.wr .IND_ADDR_AUTOINC 0 1 with barrier := {readPending := [12, 16], regs := [5, regFrameBits 12 0 true]}})
theorem witness_SnapshotVoteAndIndirectPair_2 :
    snapshotVoteAndIndirectPair2.flag .IND_ADDR_AUTOINC = true ∧ 4 < snapshotVoteAndIndirectPair2.rd .IND_ADDR_SPACE ∧
    snapshotVoteAndIndirectPair2.barrier.readPending = [12, 16] := by
  decide +kernel

def snapshotVoteAndIndirectPair3 : State := S (sn.wr .IND_ADDR 0 3 |>.wr .IND_ADDR_SPACE 0 3 |>.wr .IND_ADDR_AUTOINC 0 1)
theorem witness_SnapshotVoteAndIndirectPair_3 :
    snapshotVoteAndIndirectPair3.flag .IND_ADDR_AUTOINC = true ∧ snapshotVoteAndIndirectPair3.rd .IND_ADDR_SPACE = 3 := by
  decide +kernel

def snapshotVoteAndIndirectPair4 : State := S (sn |>.wr .GLB_IRQ_EN 0 0xFFFF |>.wr .MLK_MBX_STAT_DBERR 0 1
    |>.wr .GLB_ERR_STAT_OWNERR 0 1 |>.wr .TLY_STAT_QOVF 0 1)
theorem witness_SnapshotVoteAndIndirectPair_4 :
    bit 65535 11 = true ∧ snapshotVoteAndIndirectPair4.irqPending 11 = true := by
  decide +kernel

/-! `RegistersRefuseOthersWrites` -/

def registersRefuseOthersWrites1 : State := S (sn |>.wr .TCH_LIB_CNT 0 7 |>.wr .TCH_LIB_MAX 0 10)
theorem witness_RegistersRefuseOthersWrites_1 :
    registersRefuseOthersWrites1.power ≠ Power.off ∧
    registersRefuseOthersWrites1.rd .TCH_LIB_CNT + 3 ≤ registersRefuseOthersWrites1.rd .TCH_LIB_MAX := by
  decide +kernel

def registersRefuseOthersWrites2 : State := S sn
theorem witness_RegistersRefuseOthersWrites_2 :
    registersRefuseOthersWrites2.power ≠ Power.off ∧ slicesAt 5767172 ≠ [] ∧
    (((slicesAt 5767172).all fun x => !registersRefuseOthersWrites2.owns Source.firmware x.field x.inst) = true) := by
  decide +kernel

def registersRefuseOthersWrites3 : State := S (sn |>.wr .MLK_MBX_STAT_BUSY 0 1)
theorem witness_RegistersRefuseOthersWrites_3 :
    registersRefuseOthersWrites3.power ≠ Power.off ∧ registersRefuseOthersWrites3.flag .MLK_MBX_STAT_BUSY = true := by
  decide +kernel

/-! `BatchesAndValidation` -/

def batchesAndValidation1 : State := S { (vd 0).wr .GLB_MODE_FIXED 0 0 with validating := some (2, 3) }
theorem witness_BatchesAndValidation_1 :
    batchesAndValidation1.flag .GLB_MODE_FIXED = false ∧ batchesAndValidation1.validating = some (2, 3) ∧
    (List.map (fun x : ValSample => x.index) held = batchesAndValidation1.heldOut) ∧
    ((held.all fun x : ValSample => decide (x.verdict < 256)) = true) ∧ batchesAndValidation1.accepts held = true ∧
    (batchesAndValidation1.slot 3).st = 0 := by
  decide +kernel

def batchesAndValidation2 : State := S { bq with batch := some {bt with left := [], results := [(0, 1, [1,2]), (1, 1, [3])]} }
theorem witness_BatchesAndValidation_2 :
    batchesAndValidation2.batch = some { bt with left := [], results := [(0, 1, [1, 2]), (1, 1, [3])] } ∧
    { bt with left := [], results := [(0, 1, [1, 2]), (1, 1, [3])] }.left = [] ∧
    { bt with left := [], results := [(0, 1, [1, 2]), (1, 1, [3])] }.count 0 = 0 ∧
    { bt with left := [], results := [(0, 1, [1, 2]), (1, 1, [3])] }.count 1 ≠ 0 ∧ batchesAndValidation2.answers Port.h = true ∧
    batchesAndValidation2.power ≠ Power.recovery ∧ mayWrite rwRwRR Port.h = true ∧ batchesAndValidation2.validating = none ∧
    batchesAndValidation2.flag .GLB_MODE_FIXED = true := by
  decide +kernel

def batchesAndValidation3 : State := S { (vd 1).wr .GLB_MODE_FIXED 0 0 with validating := some (2, 3) }
theorem witness_BatchesAndValidation_3 :
    batchesAndValidation3.flag .GLB_MODE_FIXED = false ∧ batchesAndValidation3.validating = some (2, 3) ∧
    (List.map (fun x : ValSample => x.index) held = batchesAndValidation3.heldOut) ∧
    ((held.all fun x : ValSample => decide (x.verdict < 256)) = true) ∧ batchesAndValidation3.accepts held = false := by
  decide +kernel

def batchesAndValidation4 : State := S { bq with lastDec := 0 }
theorem witness_BatchesAndValidation_4 :
    batchesAndValidation4.batch = none ∧ batchesAndValidation4.decReady 1 = true ∧ batchesAndValidation4.lastDec ≠ 1 ∧
    { (batchesAndValidation4.countMod .DEC_Q_HEAD 1) with lastDec := 1 }.vread none (batchesAndValidation4.rd .DEC_Q_CTL_ASID 1) (batchesAndValidation4.rd .DEC_Q_BASE_ADDR 1 * 64 + 64 * (batchesAndValidation4.rd .DEC_Q_HEAD 1 % 2 ^ batchesAndValidation4.rd .DEC_Q_CTL_LOG2 1)) 64 = VRes.ok req ∧
    batchesAndValidation4.requestCode req = 0 ∧
    ({ (batchesAndValidation4.countMod .DEC_Q_HEAD 1) with lastDec := 1 }.useFree.touch none (batchesAndValidation4.rd .DEC_Q_CTL_ASID 1) 0 (batchesAndValidation4.rd .DEC_Q_BASE_ADDR 1 * 64 + 64 * (batchesAndValidation4.rd .DEC_Q_HEAD 1 % 2 ^ batchesAndValidation4.rd .DEC_Q_CTL_LOG2 1)) 64).writeFault (reqAsid req) (leAt req 48 8) (16 * reqB req) = none ∧
    ({ (batchesAndValidation4.countMod .DEC_Q_HEAD 1) with lastDec := 1 }.useFree.touch none (batchesAndValidation4.rd .DEC_Q_CTL_ASID 1) 0 (batchesAndValidation4.rd .DEC_Q_BASE_ADDR 1 * 64 + 64 * (batchesAndValidation4.rd .DEC_Q_HEAD 1 % 2 ^ batchesAndValidation4.rd .DEC_Q_CTL_LOG2 1)) 64).writeFault (reqAsid req) (leAt req 56 8) 32 = none := by
  decide +kernel

def batchesAndValidation5 : State := S { bq with batch := some bt }
theorem witness_BatchesAndValidation_5 :
    batchesAndValidation5.batch = some bt ∧ 1 ∈ bt.left ∧
    batchesAndValidation5.capUsed < batchesAndValidation5.rd .DEC_BWCAP * 10000 := by
  decide +kernel

end Field

/-! ### Witnesses: Network -/

namespace Network

def S (d : Dev) : State := { toDev := d }
def hh (seq src dst : Nat) (rx : Bool := true) : ZHdr := { seq := seq, ack := 3, nak := false, rxup := rx, src := src, dst := dst, bc := false }
def po (role : Nat) : Dev := { ((base.setZport 1 { rxSeq := 7, txSeq := 9 }).wr .HRD_CTL_ROLE 0 role |>.wr .HRD_CTL_MEMBER 0 5 |>.wr .ZXL_CTL_EN 1 1 |>.wr .ZXL_STAT_UP 1 1 |>.wr .ZXL_STAT_RXUP 1 1 |>.wr .ZXL_STAT_TXSLEEP 1 0 |>.wr .HRD_CTL_TOPO 0 2 |>.wr .GLB_MODE_FIXED 0 1) with power := .run }
def pf : PartFrame := { partid := 0x18005, lane := 3, slot := 2, close := true, start := 77, fin := 99 }
def mf : MarkFrame := { start := 5, fin := 2^64-1, lanes := 0xFF, code := 0xE0, ident := 9 }
def hf : HelloFrame := { member := 6, role := 2, tsync := true, slots := [0,0,2,0,0,0,0,0] }
def dr (op : Nat) : DictReq := { magic := 0x4E47, version := 1, op := op, reqid := 55, index := 0x1000, sub := 1, member := 0xFF, offset := 0, length := 0, flags := 0, resv := 0, data := [], src := 9 }
def vr : VerdictRec := { partid := 9, verdict := 2, lane := 2, member := 6, resv := 0, aux := 5 }
def blk : List Byte := (List.range 128).map fun k => BitVec.ofNat 8 (k + 3)
def pts : List Part := [{ id := 9, lane := 2, start := 5, slot := 0 }, { id := 10, lane := 2, start := 50, slot := 0 }]
def fr : PosFrame := { pos := 1000, speed := 5, time := 7, flags := 5, bseq := 3, accel := 2^64 - 3 }
def zf : ZFrame := { src := 0, dst := 6, bc := false, load := .switch 3 77 }
def ho (d : Dev) (r : List (Nat × Nat × ZFrame)) (w : List ZFrame) : Dev := d.setZport 1 { rxSeq := 7, txSeq := 9, replay := r, waiting := w }
def pm (tx : Bool) : PtpMsg := { tx := tx, port := 1, msgType := 2, seqId := 5, bytes := [1,2,3], offset := some 5 }
def tm : Dev := { ((base.wr .TIM_CTL_HOSTSERVO 0 1).wr .ETH_CTL_EN 1 1 |>.wr .ETH_STAT_LINK 1 1 |>.wr .TIM_CTL_PTPMODE 0 2 |>.wr .HRD_CTL_ROLE 0 0 |>.wr .TIM_TTO_WIDTH 3 50 |>.wr .TIM_TTO_PERIOD 3 100 |>.wr .TIM_TTO_CTL_EN 3 1).setTto 3 { next := some 5000000 } with power := .run, tb := { parent := some 1, txq := [⟨1,1,1,1,1,1⟩, ⟨2,1,1,1,1,1⟩] }, timeU := 2048000000000 * 4000000 + 77 }
def di : Dev := { (List.range 3).foldl (fun (d : Dev) p => (d.wr .ETH_CTL_EN p 1).setOd (0x6100 + p) 4 0x0A000001) base with power := .run, svc := {}, herd := {}, free := 3 }
def rq (op i sub : Nat) (data : List Byte := []) : DictReq := { dr op with index := i, sub := sub, data := data, length := data.length }
def cex (p : Port) (r : DictReq) : CacheEntry := { src := r.src, reqid := r.reqid, port := p, req := r, resp := { op := r.op, reqid := r.reqid, index := r.index, sub := r.sub, member := 0, offset := 0, flags := 0, status := 0, trx := 5, ttx := 6, data := [] } }
def e! (i s : Nat) : OdEntry := (odEntry? i s).getD { typ := 0, cls := 0, rights := 0 }

/-! `HerdFramesTaken` -/

def herdFramesTaken1 : State := S ({ po 1 with parts := pts })
theorem witness_HerdFramesTaken_1 :
    (hh 8 6 0).wf = true ∧ herdFramesTaken1.portOn 1 = true ∧
    (herdFramesTaken1.header 1 (hh 8 6 0)).flag .ZXL_STAT_UP 1 = true ∧
    ((herdFramesTaken1.header 1 (hh 8 6 0)).takeSeq 1 (hh 8 6 0).seq).2 = true ∧ (hh 8 6 0).bc = false ∧
    (hh 8 6 0).dst = ((herdFramesTaken1.header 1 (hh 8 6 0)).takeSeq 1 (hh 8 6 0).seq).1.memberNo ∧
    (hh 8 6 0).src ≠ ((herdFramesTaken1.header 1 (hh 8 6 0)).takeSeq 1 (hh 8 6 0).seq).1.memberNo ∧
    [vr, vr].all VerdictRec.wf = true ∧ 1 ≤ [vr, vr].length ∧ [vr, vr].length ≤ 16 ∧
    ((herdFramesTaken1.header 1 (hh 8 6 0)).takeSeq 1 (hh 8 6 0).seq).1.manager = true ∧ mf.wf = true ∧ mf.code = 224 ∧
    mf.fin = 2 ^ 64 - 1 ∧ blk.length = 128 ∧
    ((herdFramesTaken1.header 1 (hh 8 6 0)).takeSeq 1 (hh 8 6 0).seq).1.inBulk 4096 = false ∧ hf.wf = true ∧
    ((herdFramesTaken1.header 1 (hh 8 6 0)).takeSeq 1 (hh 8 6 0).seq).1.worker = false ∧ herdFramesTaken1.worker = false ∧
    ((herdFramesTaken1.header 1 (hh 8 6 0)).takeSeq 1 (hh 8 6 0).seq).1.knownMember 1 hf = false ∧
    ((herdFramesTaken1.header 1 (hh 8 6 0)).takeSeq 1 (hh 8 6 0).seq).1.admissible hf = false ∧ (dr 1).wf = true := by
  decide +kernel

def herdFramesTaken2 : State := S ((po 2).wr .HRD_BULK_BASE_ADDR 0 1 |>.wr .HRD_BULK_SIZE_MIB 0 1)
theorem witness_HerdFramesTaken_2 :
    (hh 8 6 5).wf = true ∧ herdFramesTaken2.portOn 1 = true ∧
    (herdFramesTaken2.header 1 (hh 8 6 5)).flag .ZXL_STAT_UP 1 = true ∧
    ((herdFramesTaken2.header 1 (hh 8 6 5)).takeSeq 1 (hh 8 6 5).seq).2 = true ∧ (hh 8 6 5).bc = false ∧
    (hh 8 6 5).dst = ((herdFramesTaken2.header 1 (hh 8 6 5)).takeSeq 1 (hh 8 6 5).seq).1.memberNo ∧
    (hh 8 6 5).src ≠ ((herdFramesTaken2.header 1 (hh 8 6 5)).takeSeq 1 (hh 8 6 5).seq).1.memberNo ∧
    { pf with close := false }.wf = true ∧ ((herdFramesTaken2.header 1 (hh 8 6 5)).takeSeq 1 (hh 8 6 5).seq).1.worker = true ∧
    blk.length = 128 ∧ ((herdFramesTaken2.header 1 (hh 8 6 5)).takeSeq 1 (hh 8 6 5).seq).1.inBulk 4096 = true ∧
    ((herdFramesTaken2.header 1 (hh 8 6 5)).takeSeq 1 (hh 8 6 5).seq).1.reachable none (false, 4096, 128) = true := by
  decide +kernel

def herdFramesTaken3 : State := S (po 2)
theorem witness_HerdFramesTaken_3 :
    (hh 8 6 5).wf = true ∧ herdFramesTaken3.portOn 1 = true ∧
    (herdFramesTaken3.header 1 (hh 8 6 5)).flag .ZXL_STAT_UP 1 = true ∧
    ((herdFramesTaken3.header 1 (hh 8 6 5)).takeSeq 1 (hh 8 6 5).seq).2 = true ∧ (hh 8 6 5).bc = false ∧
    (hh 8 6 5).dst = ((herdFramesTaken3.header 1 (hh 8 6 5)).takeSeq 1 (hh 8 6 5).seq).1.memberNo ∧
    (hh 8 6 5).src ≠ ((herdFramesTaken3.header 1 (hh 8 6 5)).takeSeq 1 (hh 8 6 5).seq).1.memberNo ∧ pf.wf = true ∧
    ((herdFramesTaken3.header 1 (hh 8 6 5)).takeSeq 1 (hh 8 6 5).seq).1.worker = true ∧ pf.close = true := by
  decide +kernel

def herdFramesTaken4 : State := S ({ (po 1).wr .HRD_INSERV 0 0x40 with parts := pts })
theorem witness_HerdFramesTaken_4 :
    (hh 8 6 0).wf = true ∧ herdFramesTaken4.portOn 1 = true ∧
    (herdFramesTaken4.header 1 (hh 8 6 0)).flag .ZXL_STAT_UP 1 = true ∧
    ((herdFramesTaken4.header 1 (hh 8 6 0)).takeSeq 1 (hh 8 6 0).seq).2 = true ∧ (hh 8 6 0).bc = false ∧
    (hh 8 6 0).dst = ((herdFramesTaken4.header 1 (hh 8 6 0)).takeSeq 1 (hh 8 6 0).seq).1.memberNo ∧
    (hh 8 6 0).src ≠ ((herdFramesTaken4.header 1 (hh 8 6 0)).takeSeq 1 (hh 8 6 0).seq).1.memberNo ∧ hf.wf = true ∧
    ((herdFramesTaken4.header 1 (hh 8 6 0)).takeSeq 1 (hh 8 6 0).seq).1.manager = true ∧
    ((herdFramesTaken4.header 1 (hh 8 6 0)).takeSeq 1 (hh 8 6 0).seq).1.worker = false ∧ herdFramesTaken4.worker = false ∧
    ((herdFramesTaken4.header 1 (hh 8 6 0)).takeSeq 1 (hh 8 6 0).seq).1.knownMember 1 hf = true := by
  decide +kernel

def herdFramesTaken5 : State := S (po 2)
theorem witness_HerdFramesTaken_5 :
    (hh 8 6 5).wf = true ∧ herdFramesTaken5.portOn 1 = true ∧
    (herdFramesTaken5.header 1 (hh 8 6 5)).flag .ZXL_STAT_UP 1 = true ∧
    ((herdFramesTaken5.header 1 (hh 8 6 5)).takeSeq 1 (hh 8 6 5).seq).2 = true ∧ (hh 8 6 5).bc = false ∧
    (hh 8 6 5).dst = ((herdFramesTaken5.header 1 (hh 8 6 5)).takeSeq 1 (hh 8 6 5).seq).1.memberNo ∧
    (hh 8 6 5).src ≠ ((herdFramesTaken5.header 1 (hh 8 6 5)).takeSeq 1 (hh 8 6 5).seq).1.memberNo ∧
    ((herdFramesTaken5.header 1 (hh 8 6 5)).takeSeq 1 (hh 8 6 5).seq).1.worker = true ∧
    (((herdFramesTaken5.header 1 (hh 8 6 5)).takeSeq 1 (hh 8 6 5).seq).1.slot 5).st < 2 := by
  decide +kernel

def herdFramesTaken6 : State := S { (po 1).wr .HRD_CTL_MEMBER 0 0 with parts := pts }
theorem witness_HerdFramesTaken_6 :
    (hh 8 0 0).wf = true ∧ herdFramesTaken6.live = true ∧ (hh 8 0 0).src = herdFramesTaken6.memberNo ∧
    herdFramesTaken6.worker = false ∧ herdFramesTaken6.detectInput 3 = none := by
  decide +kernel

/-! `HerdPositionAndTime` -/

def herdPositionAndTime1 : State := S (po 1)
theorem witness_HerdPositionAndTime_1 :
    (hh 8 6 0).wf = true ∧ herdPositionAndTime1.sendsPos = true ∧ herdPositionAndTime1.flag .ZXL_CTL_EN 1 = true ∧
    herdPositionAndTime1.flag .ZXL_STAT_UP 1 = true ∧ herdPositionAndTime1.flag .ZXL_STAT_TXSLEEP 1 = false ∧
    herdPositionAndTime1.portOn 1 = true ∧ (herdPositionAndTime1.header 1 (hh 8 6 0)).flag .ZXL_STAT_UP 1 = true ∧
    (herdPositionAndTime1.header 1 (hh 8 6 0)).worker = false := by
  decide +kernel

def herdPositionAndTime2 : State := S ((po 2).setZport 0 {times := 15} |>.wr .ZXL_CTL_EN 0 1 |>.wr .ZXL_STAT_UP 0 1
    |>.wr .HRD_STAT_POSLOST 0 0)
theorem witness_HerdPositionAndTime_2 :
    (hh 8 6 5).wf = true ∧ fr.wf = true ∧ herdPositionAndTime2.portOn 0 = true ∧ herdPositionAndTime2.worker = true ∧
    (herdPositionAndTime2.header 0 (hh 8 6 5)).worker = true ∧ herdPositionAndTime2.seenPos fr.bseq = false ∧
    (herdPositionAndTime2.header 0 (hh 8 6 5)).flag .ZXL_STAT_UP 0 = true ∧
    (hh 8 6 5).src ≠ (herdPositionAndTime2.header 0 (hh 8 6 5)).memberNo ∧ (hh 8 6 5).bc = false ∧
    (hh 8 6 5).dst = (herdPositionAndTime2.header 0 (hh 8 6 5)).memberNo ∧
    0 = (herdPositionAndTime2.header 0 (hh 8 6 5)).upstream ∧ 15 ≤ ((herdPositionAndTime2.header 0 (hh 8 6 5)).zport 0).times ∧
    herdPositionAndTime2.live = true ∧ herdPositionAndTime2.herd.dozing = false ∧
    herdPositionAndTime2.flag .HRD_STAT_POSLOST = false := by
  decide +kernel

/-! `HerdPortsAndMembers` -/

def herdPortsAndMembers1 : State := S (ho ((po 1).wr .ZXL_STAT_LOCK 1 1) [(4, 1, zf)] [zf, {zf with load := .idle false}])
theorem witness_HerdPortsAndMembers_1 :
    herdPortsAndMembers1.flag .ZXL_STAT_LOCK 1 = true ∧ herdPortsAndMembers1.rd .HRD_CTL_TOPO ≠ 1 ∧
    herdPortsAndMembers1.flag .ZXL_STAT_UP 1 = true ∧ (herdPortsAndMembers1.zport 1).replay = [(4, 1, zf)] ∧
    (hh 8 6 0).wf = true ∧ herdPortsAndMembers1.portOn 1 = true ∧
    (herdPortsAndMembers1.header 1 (hh 8 6 0)).flag .ZXL_STAT_UP 1 = true := by
  decide +kernel

def herdPortsAndMembers2 : State := S { ho ((po 1).wr .HRD_INSERV 0 0x40 |>.wr .ZXL_CTL_NOSLEEP 1 0) [] [] with power := .doze, parts := pts }
theorem witness_HerdPortsAndMembers_2 :
    herdPortsAndMembers2.flag .ZXL_STAT_UP 1 = true ∧ herdPortsAndMembers2.flag .ZXL_CTL_NOSLEEP 1 = false ∧
    herdPortsAndMembers2.flag .ZXL_STAT_TXSLEEP 1 = false ∧ herdPortsAndMembers2.sendsPos = false ∧
    (herdPortsAndMembers2.zport 1).waiting = [] ∧ herdPortsAndMembers2.manager = true ∧ herdPortsAndMembers2.inService 6 = true := by
  decide +kernel

def herdPortsAndMembers3 : State := S ((po 1).wr .ZXL_STAT_RXUP 1 0 |>.wr .ZXL_STAT_PEERUP 1 0)
theorem witness_HerdPortsAndMembers_3 :
    herdPortsAndMembers3.portOn 1 = true ∧ herdPortsAndMembers3.flag .ZXL_STAT_RXUP 1 = false ∧
    herdPortsAndMembers3.flag .ZXL_STAT_PEERUP 1 = false := by
  decide +kernel

def herdPortsAndMembers4 : State := S (ho ((po 1).wr .ZXL_STAT_LOCK 1 1) [(4, 4, zf)] [zf, {zf with load := .idle false}])
theorem witness_HerdPortsAndMembers_4 :
    herdPortsAndMembers4.flag .ZXL_STAT_UP 1 = true ∧ (herdPortsAndMembers4.zport 1).replay = [(4, 4, zf)] := by
  decide +kernel

def herdPortsAndMembers5 : State := S { ho ((po 1).wr .ZXL_STAT_TXSLEEP 1 1) [(5, 0, zf)] [zf] with power := .doze }
theorem witness_HerdPortsAndMembers_5 :
    herdPortsAndMembers5.flag .ZXL_STAT_TXSLEEP 1 = true ∧ herdPortsAndMembers5.flag .ZXL_STAT_UP 1 = true ∧
    (herdPortsAndMembers5.zport 1).waiting = [zf] ∧ zf.load.sequenced = true ∧
    (herdPortsAndMembers5.zport 1).held + zf.size ≤ 65536 := by
  decide +kernel

def herdPortsAndMembers6 : State := S { (po 2).wr .ZXL_STAT_UP 0 1 |>.wr .ZXL_STAT_TXSLEEP 0 0 with power := .doze }
theorem witness_HerdPortsAndMembers_6 :
    herdPortsAndMembers6.worker = true ∧ herdPortsAndMembers6.live = true ∧
    herdPortsAndMembers6.flag .ZXL_STAT_UP herdPortsAndMembers6.upstream = true ∧
    herdPortsAndMembers6.flag .ZXL_STAT_TXSLEEP herdPortsAndMembers6.upstream = false ∧
    (herdPortsAndMembers6.zport herdPortsAndMembers6.upstream).waiting = [] ∧
    (herdPortsAndMembers6.zport herdPortsAndMembers6.upstream).held + 32 ≤ 65536 := by
  decide +kernel

def herdPortsAndMembers7 : State := S { (ho ((po 1).wr .HRD_INSERV 0 0x40) [] [] |>.wr .ETH_CTL_EN 2 1 |>.setOd 0x6102 4 5) with power := .ready, herd := {relays := [(7, dr 1, .m)]} }
theorem witness_HerdPortsAndMembers_7 :
    herdPortsAndMembers7.herd.relays = [(7, dr 1, Port.m)] ∧ (dr 1).reqid = 55 ∧ herdPortsAndMembers7.answers Port.m = true ∧
    herdPortsAndMembers7.svc.waiting = [] := by
  decide +kernel

/-! `DeviceTimeAndOutputs` -/

def deviceTimeAndOutputs1 : State := S (tm.wr .TIM_TTO_WIDTH 3 0)
theorem witness_DeviceTimeAndOutputs_1 :
    Source.host = deviceTimeAndOutputs1.servoOwner ∧ deviceTimeAndOutputs1.stepAllowed (2 ^ 63 - 1) = true ∧
    (pm true).wf = true ∧ (pm true).port < 2 ∧ (pm true).msgType < 4 ∧ deviceTimeAndOutputs1.ethOn (pm true).port = true ∧
    deviceTimeAndOutputs1.flag .ETH_STAT_LINK (pm true).port = true ∧ (pm true).tx = true ∧
    deviceTimeAndOutputs1.tb.txq.length < 16 ∧ deviceTimeAndOutputs1.tb.parent ≠ none ∧
    deviceTimeAndOutputs1.answers Port.h = true ∧ deviceTimeAndOutputs1.power ≠ Power.recovery ∧ mayWrite rwRRNo Port.h = true ∧
    deviceTimeAndOutputs1.flag .ETH_STAT_LINK 1 = true ∧ deviceTimeAndOutputs1.ethOn 1 = true ∧ mayWrite rwRwRR Port.h = true ∧
    deviceTimeAndOutputs1.ttoBad 3 = true ∧ deviceTimeAndOutputs1.ttoOn 3 = true ∧
    (deviceTimeAndOutputs1.tto 3).next = some 5000000 ∧ 0 < deviceTimeAndOutputs1.periodUnits := by
  decide +kernel

def deviceTimeAndOutputs2 : State := S (tm.wr .TIM_STAT_TSET 0 1 |>.wr .TIM_CTL_OVR 0 0 |>.wr .TIM_STEPMAX 0 100)
theorem witness_DeviceTimeAndOutputs_2 :
    Source.host = deviceTimeAndOutputs2.servoOwner ∧ deviceTimeAndOutputs2.stepAllowed (-5000) = false ∧ (pm false).wf = true ∧
    deviceTimeAndOutputs2.ptpPort (pm false).port = true ∧ deviceTimeAndOutputs2.ethOn (pm false).port = true ∧
    deviceTimeAndOutputs2.flag .ETH_STAT_LINK (pm false).port = true ∧ (pm false).tx = false ∧
    deviceTimeAndOutputs2.ptpPort 1 = true := by
  decide +kernel

def deviceTimeAndOutputs3 : State := S (tm.wr .TIM_STAT_TSET 0 1 |>.wr .TIM_CTL_OVR 0 0 |>.wr .TIM_STEPMAX 0 100
    |>.setOd 0x6203 2 50000000)
theorem witness_DeviceTimeAndOutputs_3 :
    Source.firmware ≠ deviceTimeAndOutputs3.servoOwner := by
  decide +kernel

def deviceTimeAndOutputs4 : State := S (tm.setOd 0x6203 2 (2^30))
theorem witness_DeviceTimeAndOutputs_4 :
    deviceTimeAndOutputs4.answers Port.h = true ∧ deviceTimeAndOutputs4.power ≠ Power.recovery ∧ mayWrite rwRwRR Port.h = true ∧
    deviceTimeAndOutputs4.ttoBad 3 = false ∧ deviceTimeAndOutputs4.fullNs ≤ deviceTimeAndOutputs4.odNum (25088 + 3) 2 0 := by
  decide +kernel

/-! `DictionaryServed` -/

def dictionaryServed1 : State := S di
theorem witness_DictionaryServed_1 :
    Port.h ≠ Port.z ∧ dictionaryServed1.answers Port.h = true ∧ dictionaryServed1.power ≠ Power.recovery ∧
    dictionaryServed1.herd.relays = [] ∧ dictionaryServed1.svc.waiting = [] ∧ (rq 1 4096 3).wf = true ∧
    (rq 1 4096 3).whole = true ∧ dictionaryServed1.repeated Port.h (rq 1 4096 3) = none ∧ headerOk (rq 1 4096 3) = true ∧
    dictionaryServed1.isLocal (rq 1 4096 3) = true ∧ odEntry? (rq 1 4096 3).index (rq 1 4096 3).sub = some (e! 4096 3) ∧
    (rq 1 4096 3).op = 1 ∧ (e! 4096 3).typ ≠ 9 ∧ mayRead (e! 4096 3).rights Port.h = true ∧
    dictionaryServed1.answers Port.m = true := by
  decide +kernel

def dictionaryServed2 : State := S di
theorem witness_DictionaryServed_2 :
    Port.m ≠ Port.z ∧ dictionaryServed2.answers Port.m = true ∧ dictionaryServed2.power ≠ Power.recovery ∧
    dictionaryServed2.herd.relays = [] ∧ dictionaryServed2.svc.waiting = [] ∧ (rq 3 4096 1).wf = true ∧
    (rq 3 4096 1).whole = true ∧ dictionaryServed2.repeated Port.m (rq 3 4096 1) = none ∧ headerOk (rq 3 4096 1) = true ∧
    dictionaryServed2.isLocal (rq 3 4096 1) = true ∧ odEntry? (rq 3 4096 1).index (rq 3 4096 1).sub = some (e! 4096 1) ∧
    (rq 3 4096 1).op = 3 ∧ mayRead (e! 4096 1).rights Port.m = true := by
  decide +kernel

def dictionaryServed3 : State := S di
theorem witness_DictionaryServed_3 :
    Port.c ≠ Port.z ∧ dictionaryServed3.answers Port.c = true ∧ dictionaryServed3.power ≠ Power.recovery ∧
    dictionaryServed3.herd.relays = [] ∧ dictionaryServed3.svc.waiting = [] ∧ { (rq 4 4096 1) with length := 3 }.wf = true ∧
    { (rq 4 4096 1) with length := 3 }.whole = true ∧
    dictionaryServed3.repeated Port.c { (rq 4 4096 1) with length := 3 } = none ∧
    headerOk { (rq 4 4096 1) with length := 3 } = true ∧ dictionaryServed3.isLocal { (rq 4 4096 1) with length := 3 } = true ∧
    odEntry? { (rq 4 4096 1) with length := 3 }.index { (rq 4 4096 1) with length := 3 }.sub = some (e! 4096 1) ∧
    { (rq 4 4096 1) with length := 3 }.op = 4 ∧ mayRead (e! 4096 1).rights Port.c = true ∧
    ({ (rq 4 4096 1) with length := 3 }.offset ≤ (if Port.c = Port.h then dictionaryServed3.setFlag .MLK_MBX_STAT_BUSY 0 true else dictionaryServed3.toDev).useFree.odLength { (rq 4 4096 1) with length := 3 }.index { (rq 4 4096 1) with length := 3 }.sub (e! 4096 1)) := by
  decide +kernel

def dictionaryServed4 : State := S di
theorem witness_DictionaryServed_4 :
    Port.c ≠ Port.z ∧ dictionaryServed4.answers Port.c = true ∧ dictionaryServed4.power ≠ Power.recovery ∧
    dictionaryServed4.herd.relays = [] ∧ dictionaryServed4.svc.waiting = [] ∧
    { (rq 4 41216 5) with offset := 1000, length := 1401 }.wf = true ∧
    { (rq 4 41216 5) with offset := 1000, length := 1401 }.whole = true ∧
    dictionaryServed4.repeated Port.c { (rq 4 41216 5) with offset := 1000, length := 1401 } = none ∧
    headerOk { (rq 4 41216 5) with offset := 1000, length := 1401 } = false := by
  decide +kernel

def dictionaryServed5 : State := S di
theorem witness_DictionaryServed_5 :
    Port.c ≠ Port.z ∧ dictionaryServed5.answers Port.c = true ∧ dictionaryServed5.power ≠ Power.recovery ∧
    dictionaryServed5.herd.relays = [] ∧ dictionaryServed5.svc.waiting = [] ∧ (rq 2 4096 3 [1]).wf = true ∧
    (rq 2 4096 3 [1]).whole = true ∧ dictionaryServed5.repeated Port.c (rq 2 4096 3 [1]) = none ∧
    headerOk (rq 2 4096 3 [1]) = true ∧ dictionaryServed5.isLocal (rq 2 4096 3 [1]) = true ∧
    odEntry? (rq 2 4096 3 [1]).index (rq 2 4096 3 [1]).sub = some (e! 4096 3) ∧ (rq 2 4096 3 [1]).op = 2 ∧
    mayWrite (e! 4096 3).rights Port.c = false := by
  decide +kernel

def dictionaryServed6 : State := S di
theorem witness_DictionaryServed_6 :
    Port.h ≠ Port.z ∧ dictionaryServed6.answers Port.h = true ∧ dictionaryServed6.power ≠ Power.recovery ∧
    dictionaryServed6.herd.relays = [] ∧ dictionaryServed6.svc.waiting = [] ∧ (rq 2 8448 6 [1, 3]).wf = true ∧
    (rq 2 8448 6 [1, 3]).whole = true ∧ dictionaryServed6.repeated Port.h (rq 2 8448 6 [1, 3]) = none ∧
    headerOk (rq 2 8448 6 [1, 3]) = true ∧ dictionaryServed6.isLocal (rq 2 8448 6 [1, 3]) = true ∧
    odEntry? (rq 2 8448 6 [1, 3]).index (rq 2 8448 6 [1, 3]).sub = some (e! 8448 6) ∧ (rq 2 8448 6 [1, 3]).op = 2 ∧
    mayWrite (e! 8448 6).rights Port.h = true ∧ (e! 8448 6).typ ≠ 9 ∧
    odDecode (e! 8448 6) (rq 2 8448 6 [1, 3]).data = some (OdVal.num 769) := by
  decide +kernel

def dictionaryServed7 : State := S di
theorem witness_DictionaryServed_7 :
    Port.h ≠ Port.z ∧ dictionaryServed7.answers Port.h = true ∧ dictionaryServed7.power ≠ Power.recovery ∧
    dictionaryServed7.herd.relays = [] ∧ dictionaryServed7.svc.waiting = [] ∧ (rq 5 8576 2 [1, 2]).wf = true ∧
    (rq 5 8576 2 [1, 2]).whole = true ∧ dictionaryServed7.repeated Port.h (rq 5 8576 2 [1, 2]) = none ∧
    headerOk (rq 5 8576 2 [1, 2]) = true ∧ dictionaryServed7.isLocal (rq 5 8576 2 [1, 2]) = true ∧
    odEntry? (rq 5 8576 2 [1, 2]).index (rq 5 8576 2 [1, 2]).sub = some (e! 8576 2) ∧ (rq 5 8576 2 [1, 2]).op = 5 ∧
    mayWrite (e! 8576 2).rights Port.h = true ∧ (e! 8576 2).typ = 9 ∧ dictionaryServed7.svc.seqs = [] ∧
    (rq 5 8576 2 [1, 2]).offset = 0 ∧ (rq 5 8576 2 [1, 2]).data ≠ [] ∧ bit (rq 5 8576 2 [1, 2]).flags 0 = false ∧
    (rq 5 8576 2 [1, 2]).index ≠ 41472 := by
  decide +kernel

def dictionaryServed8 : State := S { di with svc := { seqs := [{key := odKey 5 6, port := .h, src := 0, data := []}], cache := [cex .h (rq 1 0x1000 3)] } }
theorem witness_DictionaryServed_8 :
    Port.h ≠ Port.z ∧ dictionaryServed8.answers Port.h = true ∧ dictionaryServed8.power ≠ Power.recovery ∧
    dictionaryServed8.herd.relays = [] ∧ dictionaryServed8.svc.waiting = [] ∧ (rq 1 4096 3).wf = true ∧
    (rq 1 4096 3).whole = true ∧ dictionaryServed8.repeated Port.h (rq 1 4096 3) = some (cex Port.h (rq 1 4096 3)) ∧
    (rq 1 4096 3).op = 1 := by
  decide +kernel

def dictionaryServed9 : State := S di
theorem witness_DictionaryServed_9 :
    Port.h ≠ Port.z ∧ dictionaryServed9.answers Port.h = true ∧ dictionaryServed9.power ≠ Power.recovery ∧
    dictionaryServed9.herd.relays = [] ∧ dictionaryServed9.svc.waiting = [] ∧ (rq 1 8191 2).wf = true ∧
    (rq 1 8191 2).whole = true ∧ dictionaryServed9.repeated Port.h (rq 1 8191 2) = none ∧ headerOk (rq 1 8191 2) = true ∧
    dictionaryServed9.isLocal (rq 1 8191 2) = true ∧ odEntry? (rq 1 8191 2).index (rq 1 8191 2).sub = none ∧
    (rq 1 8191 2).op = 1 := by
  decide +kernel

end Network

/-! ### Witnesses: System -/

namespace System

def S (d : Dev) : State := { toDev := d }
def li : Dev := { (List.range 3).foldl (fun (d : Dev) p => (d.wr .ETH_CTL_EN p 1).setOd (0x6100 + p) 4 0x0A000001) base with power := .run, parts := [{ id := 9, lane := 2, start := 5, slot := 0 }], mem := [(5, 7), (0x20000001, 9), (vatSize + 3, 4), (2^31, 8)], timeU := 777, encs := [(1, {present := true})] }
def rs (c : Bool) : Dev := { li with power := .resetting, rst := { li.rst with cold := c } }
def im (d : Dev) : Option (OptionCopy × Bool) := d.optSelect
def st (n : Nat) : Dev := { li with power := .start } |>.wr .RCP_STATE_STAGE 0 n
def idl : Dev := { (List.range 8).foldl (fun (d : Dev) a => d.wr .MLK_MNT_ST a 0) li with parts := [] } |>.wr .RCP_CTL_DOZEEN 0 1
    |>.wr .HRD_CTL_ROLE 0 0 |>.wr .SEP_CTL_ARM 0 0 |>.wr .ENC_MSTAT_STOP 0 1
def sx : Sensors := { temps := (List.range 32).map fun k => (k : Int) * 5 - 40, volts := (List.range 16).map (· * 100), amps := [1, 2, 3, 70000], tach0 := 500, tach1 := 0 }
def te : TallyEvent := ⟨1, 0, 5, 5, 5, 5, 5, 5, 5, 5, 5⟩
def tr : TraceRec := ⟨17, 3, 99⟩
def ed1 : OptionEdit := {tryBank := some 1}
def ed2 : OptionEdit := {active := some 1}
def mk : Dev := li.wr .GLB_MODE_FIXED 0 0 |>.wr .MLK_FAN 0 50
    |>.wr .OBS_TRC_CTL_EN 0 1|>.wr .OBS_TRC_STAT_STOPPED 0 0|>.wr .OBS_TRC_CTL_SRCX 0 15
def et (e : Estimator) : State := S { li.wr .HRD_CTL_ROLE 0 0 with xclk := 7999, parts := [], encs := [], est := e }

/-! `ResetsAndSupplies` -/

def resetsAndSupplies1 : State := S li
theorem witness_ResetsAndSupplies_1 :
    resetsAndSupplies1.live = true ∧ Field.ENC_POS.outlives false = true ∧
    Field.ENC_POS ∉ [Field.OBS_TRC_STAT_STOPPED, Field.TLY_USED, Field.TLY_STAT_FULL] ∧ resetsAndSupplies1.power ≠ Power.off := by
  decide +kernel

def resetsAndSupplies2 : State := S (rs false)
theorem witness_ResetsAndSupplies_2 :
    resetsAndSupplies2.power = Power.resetting ∧ resetsAndSupplies2.rst.cold = false ∧ Field.ENC_POS.outlives true = false := by
  decide +kernel

def resetsAndSupplies3 : State := S (rs false)
theorem witness_ResetsAndSupplies_3 :
    resetsAndSupplies3.power = Power.resetting ∧ resetsAndSupplies3.rst.cold = false ∧ Field.TLY_PCYC.outlives true = true ∧
    Field.TLY_PCYC ∉ [Field.TLY_USED, Field.TLY_STAT_FULL] := by
  decide +kernel

def resetsAndSupplies4 : State := S li
theorem witness_ResetsAndSupplies_4 :
    resetsAndSupplies4.live = true ∧ Field.CXP_LNK_CTL_MASTER.outlives false = false := by
  decide +kernel

def resetsAndSupplies5 : State := S { li with power := .off }
theorem witness_ResetsAndSupplies_5 :
    resetsAndSupplies5.power = Power.off ∧ resetsAndSupplies5.rst.unpowered = false := by
  decide +kernel

def resetsAndSupplies6 : State := S { li with power := .off, rst := {unpowered := true} }
theorem witness_ResetsAndSupplies_6 :
    resetsAndSupplies6.power = Power.off ∧ resetsAndSupplies6.rst.unpowered = true := by
  decide +kernel

/-! `StartSequenceRuns` -/

def startSequenceRuns1 : State := S (st 7|>.wr .RCP_STAT_OBFIX 0 0)
theorem witness_StartSequenceRuns_1 :
    startSequenceRuns1.power = Power.start ∧ startSequenceRuns1.rd .RCP_STATE_STAGE = 7 ∧
    startSequenceRuns1.mlk.opt.confMode = 0 ∧ startSequenceRuns1.answers Port.m = true ∧
    startSequenceRuns1.power ≠ Power.recovery := by
  decide +kernel

def startSequenceRuns2 : State := S li
theorem witness_StartSequenceRuns_2 :
    startSequenceRuns2.live = true ∧ startSequenceRuns2.answers Port.h = true ∧ mayWrite rwRwRwNo Port.h = true ∧
    startSequenceRuns2.flag .RCP_FAILSTART_CONFIRMED = false ∧ startSequenceRuns2.rst.trial = false := by
  decide +kernel

def startSequenceRuns3 : State := S { st 1 with mlk := { optA := {seq := 5, failLim := 7}, optB := {good := false} } }
theorem witness_StartSequenceRuns_3 :
    startSequenceRuns3.power = Power.start ∧ startSequenceRuns3.rd .RCP_STATE_STAGE = 1 ∧
    startSequenceRuns3.optSelect = some ({ good := true, seq := 5, failLim := 7, startTmo := 30, confMode := 0, retain := 0, active := 0, tryBank := 255, rollback := 0 }, false) := by
  decide +kernel

def startSequenceRuns4 : State := S { st 1 with mlk := { optA := {good := false}, optB := {good := false} } }
theorem witness_StartSequenceRuns_4 :
    startSequenceRuns4.power = Power.start ∧ startSequenceRuns4.rd .RCP_STATE_STAGE = 1 ∧ startSequenceRuns4.optSelect = none := by
  decide +kernel

def startSequenceRuns5 : State := S (st 3)
theorem witness_StartSequenceRuns_5 :
    startSequenceRuns5.power = Power.start ∧ startSequenceRuns5.rd .RCP_STATE_STAGE = 3 := by
  decide +kernel

def startSequenceRuns6 : State := S (st 4|>.wr .RCP_STAT_OBFIX 0 0)
theorem witness_StartSequenceRuns_6 :
    startSequenceRuns6.power = Power.start ∧ startSequenceRuns6.rd .RCP_STATE_STAGE = 4 ∧
    startSequenceRuns6.mlk.opt.tryBank = 255 ∧ startSequenceRuns6.mlk.opt.active ≤ 1 ∧
    startSequenceRuns6.flag .RCP_STAT_OBFIX = false := by
  decide +kernel

def startSequenceRuns7 : State := S (li.wr .RCP_FAILSTART_CONFIRMED 0 1)
theorem witness_StartSequenceRuns_7 :
    startSequenceRuns7.live = true ∧ startSequenceRuns7.flag .RCP_FAILSTART_CONFIRMED = true := by
  decide +kernel

/-! `PowerStatesChange` -/

def powerStatesChange1 : State := S { idl with power := .ready }
theorem witness_PowerStatesChange_1 :
    powerStatesChange1.power = Power.ready ∧ powerStatesChange1.flag .RCP_CTL_DOZEEN = true ∧
    powerStatesChange1.holdsXclk = false ∧ powerStatesChange1.manager = false ∧
    (powerStatesChange1.power = Power.ready ∨ powerStatesChange1.power = Power.doze) ∧
    powerStatesChange1.answers Port.h = true ∧ powerStatesChange1.power ≠ Power.recovery ∧ mayWrite rwRwRwR Port.h = true ∧
    powerStatesChange1.maySleep = true ∧ powerStatesChange1.live = true := by
  decide +kernel

def powerStatesChange2 : State := S idl
theorem witness_PowerStatesChange_2 :
    powerStatesChange2.power = Power.run ∧ powerStatesChange2.idle = true ∧ powerStatesChange2.answers Port.h = true ∧
    powerStatesChange2.power ≠ Power.recovery ∧ mayWrite rwRwRwR Port.h = true ∧ powerStatesChange2.maySleep = false := by
  decide +kernel

def powerStatesChange3 : State := S { idl with power := .standby, free := 8 }
theorem witness_PowerStatesChange_3 :
    powerStatesChange3.power = Power.standby := by
  decide +kernel

def powerStatesChange4 : State := S ({ idl with power := .ready }.wr .ENC_CFG_TYPE 0 2 |>.wr .ENC_CFG_EN 0 1
    |>.wr .ENC_MSTAT_MASTER 0 0)
theorem witness_PowerStatesChange_4 :
    powerStatesChange4.power = Power.ready ∧ powerStatesChange4.flag .RCP_CTL_DOZEEN = true ∧
    powerStatesChange4.holdsXclk = true := by
  decide +kernel

/-! `MilkhouseKeepsTheModule` -/

def milkhouseKeepsTheModule1 : State := S { mk.wr .MLK_MNT_ST 0 2|>.wr .MLK_MNT_ST 1 2|>.wr .MLK_MNT_ST 2 2 with mlk := { queue := [te, te], tally := [(0, [1,2])], clearing := some (5, 7), edits := [ed1] , image := some [1] } }
theorem witness_MilkhouseKeepsTheModule_1 :
    milkhouseKeepsTheModule1.live = true ∧ sx.wf = true ∧ milkhouseKeepsTheModule1.mntSt Activity.C ≠ 2 ∧
    (∀ (m : Fin 30), sgn 16 (unsgn 16 (sx.temps.getD (↑m) 0)) < 1840) ∧ 1 < milkhouseKeepsTheModule1.fansFitted ∧
    20 ≤ milkhouseKeepsTheModule1.rd .MLK_FAN ∧ bit milkhouseKeepsTheModule1.mlk.fanFail 1 = false ∧
    milkhouseKeepsTheModule1.answers Port.m = true ∧ milkhouseKeepsTheModule1.mlk.clearing = some (5, 7) ∧
    milkhouseKeepsTheModule1.mntSt Activity.T = 2 ∧ milkhouseKeepsTheModule1.mlk.edits = [ed1] ∧
    milkhouseKeepsTheModule1.mntSt Activity.O = 2 ∧ ed1.tryBank ≠ none ∧ milkhouseKeepsTheModule1.mlk.image = some [1] ∧
    milkhouseKeepsTheModule1.mntSt Activity.F = 2 ∧ milkhouseKeepsTheModule1.mntSt Activity.X = 0 ∧ periodic Activity.X = true ∧
    milkhouseKeepsTheModule1.resident 3 = none ∧ bit milkhouseKeepsTheModule1.mlk.tests 3 = false ∧ fitsU 8 tr.src = true ∧
    fitsU 8 tr.kind = true ∧ fitsU 64 tr.data = true ∧ milkhouseKeepsTheModule1.tracing = true ∧
    milkhouseKeepsTheModule1.traced tr.src = true ∧ milkhouseKeepsTheModule1.trace.waiting tr.src < 16 := by
  decide +kernel

def milkhouseKeepsTheModule2 : State := S { mk with mlk := { queue := [te, te], tally := [(0, [1,2])] } }
theorem witness_MilkhouseKeepsTheModule_2 :
    milkhouseKeepsTheModule2.live = true ∧ milkhouseKeepsTheModule2.mlk.queue = [te, te] ∧
    milkhouseKeepsTheModule2.mlk.clearing = none ∧ milkhouseKeepsTheModule2.mayStart Activity.T = true ∧
    milkhouseKeepsTheModule2.erasedSlot < 16383 ∧ 0 ≠ milkhouseKeepsTheModule2.erasedSlot := by
  decide +kernel

def milkhouseKeepsTheModule3 : State := S { mk.wr .MLK_MNT_ST 0 2|>.wr .MLK_MNT_ST 1 2|>.wr .MLK_MNT_ST 2 2 with mlk := { queue := [te, te], tally := [(0, [1,2])], clearing := some (5, 7), edits := [ed2] , image := some [1] }, trace := {fifos := List.replicate 16 (5, tr) } }
theorem witness_MilkhouseKeepsTheModule_3 :
    milkhouseKeepsTheModule3.live = true ∧ milkhouseKeepsTheModule3.mlk.edits = [ed2] ∧
    milkhouseKeepsTheModule3.mntSt Activity.O = 2 ∧ ed2.active ≠ none ∧ fitsU 8 tr.src = true ∧ fitsU 8 tr.kind = true ∧
    fitsU 64 tr.data = true ∧ milkhouseKeepsTheModule3.tracing = true ∧ milkhouseKeepsTheModule3.traced tr.src = true ∧
    16 ≤ milkhouseKeepsTheModule3.trace.waiting tr.src := by
  decide +kernel

def milkhouseKeepsTheModule4 : State := S { mk.wr .TLY_STAT_FULL 0 1 with mlk := { queue := [te, te], tests := 8, tally := (List.range 16384).map fun k => (k, []) } }
theorem witness_MilkhouseKeepsTheModule_4 :
    milkhouseKeepsTheModule4.live = true ∧ milkhouseKeepsTheModule4.mlk.queue = [te, te] ∧
    milkhouseKeepsTheModule4.mlk.clearing = none ∧ milkhouseKeepsTheModule4.mayStart Activity.T = true ∧
    16383 ≤ milkhouseKeepsTheModule4.erasedSlot ∧ milkhouseKeepsTheModule4.flag .TLY_STAT_FULL = true := by
  decide +kernel

/-! `EstimateTickLogsAndEstimates` -/

def estimateTickLogsAndEstimates1 : State := et {}
theorem witness_EstimateTickLogsAndEstimates_1 :
    estimateTickLogsAndEstimates1.power ≠ Power.off ∧
    (estimateTickLogsAndEstimates1.advanceTo 4000 estimateTickLogsAndEstimates1.tickAt).live = true ∧
    (estimateTickLogsAndEstimates1.advanceTo 4000 estimateTickLogsAndEstimates1.tickAt).parts = [] ∧
    (((upTo 16).all fun n => Option.all (fun r => r.cheapWait.isNone) ((estimateTickLogsAndEstimates1.advanceTo 4000 estimateTickLogsAndEstimates1.tickAt).resident n)) = true) ∧
    (estimateTickLogsAndEstimates1.advanceTo 4000 estimateTickLogsAndEstimates1.tickAt).worker = false ∧
    (estimateTickLogsAndEstimates1.advanceTo 4000 estimateTickLogsAndEstimates1.tickAt).est.k = 0 := by
  decide +kernel

def estimateTickLogsAndEstimates2 : State := et { ps := [5, 3], k := 7 }
theorem witness_EstimateTickLogsAndEstimates_2 :
    (estimateTickLogsAndEstimates2.advanceTo 4000 estimateTickLogsAndEstimates2.tickAt).live = true ∧
    (estimateTickLogsAndEstimates2.advanceTo 4000 estimateTickLogsAndEstimates2.tickAt).worker = false ∧
    1 ≤ (estimateTickLogsAndEstimates2.advanceTo 4000 estimateTickLogsAndEstimates2.tickAt).est.k ∧
    fitsS 48 (perSecond (Machine.sdiff (estimateTickLogsAndEstimates2.advanceTo 4000 estimateTickLogsAndEstimates2.tickAt).lmPos ((estimateTickLogsAndEstimates2.advanceTo 4000 estimateTickLogsAndEstimates2.tickAt).est.ps.getD (min (2 ^ (estimateTickLogsAndEstimates2.advanceTo 4000 estimateTickLogsAndEstimates2.tickAt).rd .ENC_EST_CFG) ((estimateTickLogsAndEstimates2.advanceTo 4000 estimateTickLogsAndEstimates2.tickAt).est.k + 1) - 1) (estimateTickLogsAndEstimates2.advanceTo 4000 estimateTickLogsAndEstimates2.tickAt).lmPos)) (min (2 ^ (estimateTickLogsAndEstimates2.advanceTo 4000 estimateTickLogsAndEstimates2.tickAt).rd .ENC_EST_CFG) ((estimateTickLogsAndEstimates2.advanceTo 4000 estimateTickLogsAndEstimates2.tickAt).est.k + 1))) = true := by
  decide +kernel

def estimateTickLogsAndEstimates3 : State := S ((et {}).toDev.wr .HRD_CTL_ROLE 0 2)
theorem witness_EstimateTickLogsAndEstimates_3 :
    (estimateTickLogsAndEstimates3.advanceTo 4000 estimateTickLogsAndEstimates3.tickAt).live = true ∧
    (estimateTickLogsAndEstimates3.advanceTo 4000 estimateTickLogsAndEstimates3.tickAt).worker = true := by
  decide +kernel

/-! `FailedStartsCounted` -/

def failedStartsCounted1 : State := S (st 2)
theorem witness_FailedStartsCounted_1 :
    failedStartsCounted1.power = Power.start ∧ failedStartsCounted1.rd .RCP_STATE_STAGE = 2 ∧
    failedStartsCounted1.rd .RCP_FAILSTART_COUNT < failedStartsCounted1.rd .RCP_FAILSTART_LIMIT := by
  decide +kernel

def failedStartsCounted2 : State := S (st 2|>.wr .RCP_FAILSTART_COUNT 0 3|>.wr .RCP_FAILSTART_LIMIT 0 3)
theorem witness_FailedStartsCounted_2 :
    failedStartsCounted2.power = Power.start ∧ failedStartsCounted2.rd .RCP_STATE_STAGE = 2 ∧
    failedStartsCounted2.rd .RCP_FAILSTART_LIMIT ≤ failedStartsCounted2.rd .RCP_FAILSTART_COUNT := by
  decide +kernel

end System

end Sys2Proof.Tests
end

section
/-! The part table under a change of one part (R24), what a Tally event appends to its queue (R408, R409), and the records that
carry a reserved verdict code (R32). -/

namespace Sys2Proof.Machine

open Sys2Proof

/-! ### The part table -/

theorem Dev.part?_congr {s t : Dev} (h : t.parts = s.parts) (id : Nat) : t.part? id = s.part? id := by
  unfold Dev.part?; rw [h]

/-- A change that keeps a part's identifier is what the part's identifier finds afterwards. -/
theorem Dev.part?_updPart (s : Dev) (id : Nat) (g : Part → Part) (hg : ∀ p, (g p).id = p.id) :
    (s.updPart id g).part? id = (s.part? id).map g := by
  unfold Dev.part? Dev.updPart
  induction s.parts with
  | nil => rfl
  | cons p l ih =>
    by_cases hp : p.id = id
    · simp [hp, hg]
    · simpa [hp] using ih

/-- The parts with another identifier stay in the table as they are. -/
theorem Dev.mem_parts_updPart {s : Dev} {id : Nat} {q : Part} (g : Part → Part) (hq : q ∈ s.parts) (h : q.id ≠ id) :
    q ∈ (s.updPart id g).parts := List.mem_map.2 ⟨q, hq, if_neg h⟩

/-! ### Merging a record -/

@[simp] theorem Part.take_id (p : Part) (code : Nat) : (p.take code).id = p.id := rfl

/-- A reserved code reaches the part as FAULT, and neither its program verdict nor its `AUX` (R32). -/
theorem Part.merge_reserved (p : Part) {verdict : Nat} (aux : Nat) (h : 0xE0 ≤ verdict) :
    p.merge verdict aux = { p with recs := satSucc 16 p.recs, verd := mergeCode p.verd 0xE2 } := by
  simp [Part.merge, Part.take, h]

@[simp] theorem Part.merge_id (p : Part) (verdict aux : Nat) : (p.merge verdict aux).id = p.id := by
  unfold Part.merge
  split
  · rfl
  · dsimp only
    split <;> rfl

/-- What an accepted record in time does: none for NONE, else its merge, with the Tally event of a reserved code (R32). -/
theorem Dev.takeRecord_accepted {s : Dev} {r : VerdictRec} {p : Part} (hp : s.part? r.partid = some p)
    (hid : r.partid ≠ 0xFFFFFFFF) (hovf : p.ovf = false) (hlane : p.lane = r.lane) (hresv : r.resv = 0)
    (hdue : s.pastDeadline p = false) :
    s.takeRecord r =
      if r.verdict = 0xFF then s
      else if 0xE0 ≤ r.verdict then
        (s.updPart r.partid fun p => p.merge r.verdict r.aux).tally 0x0042 r.member r.partid r.verdict
      else s.updPart r.partid fun p => p.merge r.verdict r.aux := by
  simp [Dev.takeRecord, hp, hid, hovf, hlane, hresv, hdue]

/-! ### What a Tally event appends -/

@[simp] theorem Dev.observeCode_mlk (s : Dev) (code : Nat) : (s.observeCode code).mlk = s.mlk := by
  obtain ⟨c, hc⟩ := s.observeCode_only code
  rw [hc]
@[simp] theorem Dev.traceNote_mlk (s : Dev) (src kind data : Nat) : (s.traceNote src kind data).mlk = s.mlk := by
  rcases s.traceNote_only src kind data with ⟨x, hx⟩ | ⟨x, hx⟩ <;> simp [hx]
@[simp] theorem Dev.traceTrigger_mlk (s : Dev) (code : Nat) : (s.traceTrigger code).mlk = s.mlk := by
  rcases s.traceTrigger_only code with ⟨x, hx⟩ | ⟨x, hx⟩ <;> simp [hx]

/-- An event's record reads two fields: the one that marks device time as set, and the power cycles. -/
theorem Dev.tallyRecord_wr (s : Dev) (f : Field) (v code unit partid v0 v1 v2 : Nat) (ht : f ≠ .TIM_STAT_TSET)
    (hc : f ≠ .TLY_PCYC) :
    (s.wr f 0 v).tallyRecord code unit partid v0 v1 v2 = s.tallyRecord code unit partid v0 v1 v2 := by
  have hrd (g : Field) (h : f ≠ g) : (s.wr f 0 v).rd g 0 = s.rd g 0 := s.rd_wr_field f g 0 0 v (by decide) (by decide) h
  simp [Dev.tallyRecord, Dev.flag, Dev.ns40, Dev.fullNs, hrd _ ht, hrd _ hc]

/-- An event's record does not read the state of trace capture. -/
theorem Dev.tallyRecord_trace (s : Dev) (x : Trace) (code unit partid v0 v1 v2 : Nat) :
    Dev.tallyRecord { s with trace := x } code unit partid v0 v1 v2 = s.tallyRecord code unit partid v0 v1 v2 := rfl

@[simp] theorem Dev.tallyRecord_observeCode (s : Dev) (k code unit partid v0 v1 v2 : Nat) :
    (s.observeCode k).tallyRecord code unit partid v0 v1 v2 = s.tallyRecord code unit partid v0 v1 v2 := by
  obtain ⟨c, hc⟩ := s.observeCode_only k
  rw [hc]; rfl
@[simp] theorem Dev.tallyRecord_traceNote (s : Dev) (src kind data code unit partid v0 v1 v2 : Nat) :
    (s.traceNote src kind data).tallyRecord code unit partid v0 v1 v2 = s.tallyRecord code unit partid v0 v1 v2 := by
  rcases s.traceNote_only src kind data with ⟨x, hx⟩ | ⟨x, hx⟩ <;> rw [hx, Dev.tallyRecord_trace]
  exact s.tallyRecord_wr .OBS_TRC_DROP_COUNT _ _ _ _ _ _ _ (by decide) (by decide)
@[simp] theorem Dev.tallyRecord_traceTrigger (s : Dev) (k code unit partid v0 v1 v2 : Nat) :
    (s.traceTrigger k).tallyRecord code unit partid v0 v1 v2 = s.tallyRecord code unit partid v0 v1 v2 := by
  rcases s.traceTrigger_only k with ⟨x, hx⟩ | ⟨x, hx⟩ <;> rw [hx, Dev.tallyRecord_trace]
  exact s.tallyRecord_wr .OBS_TRC_STAT_STOPPED _ _ _ _ _ _ _ (by decide) (by decide)

/-- An event joins the end of a queue that has room (R409). -/
theorem Dev.tally_queue (s : Dev) (code unit partid v0 v1 : Nat) (h : s.mlk.queue.length < 64) :
    (s.tally code unit partid v0 v1).mlk.queue = s.mlk.queue ++ [s.tallyRecord code unit partid v0 v1 0] := by
  simp [Dev.tally, h]

@[simp] theorem Dev.tally_parts (s : Dev) (code unit partid v0 v1 : Nat) :
    (s.tally code unit partid v0 v1).parts = s.parts :=
  show (s.tally code unit partid v0 v1).body.parts = s.body.parts by rw [Dev.tally_body]

/-! ### A record that arrives at the manager or at a module of its own -/

/-- A module that is no worker takes the record itself (R329). -/
theorem exec_verdictRecord_of_not_worker (r : VerdictRec) (s : State) (h : s.worker = false) :
    exec (.verdictRecord r) s = s.run (.verdictRecord r) fun _ => s.takeRecord r := by
  have harm : exec (.verdictRecord r) s = execVerdictRecord r s := rfl
  simp [harm, execVerdictRecord, State.run, Dev.deliver, h]

/-- Settles O17: a record with 0xFF leaves the module as it is; one with a reserved code is the merge of FAULT followed by one
Tally event. -/
theorem reservedVerdictCodes : Obligations.ReservedVerdictCodes := by
  intro s r p hwf hp hid hovf hlane hresv hdue hworker
  have hrun := exec_verdictRecord_of_not_worker r s hworker
  have htake := Dev.takeRecord_accepted hp hid hovf hlane hresv hdue
  refine ⟨fun hnone => ?_, fun hlo hhi => ?_⟩
  · rw [if_pos hnone] at htake
    refine Completes.of_run hrun hwf ⟨fun f i _ _ => ?_, ?_⟩ <;> simp [htake]
  · rw [if_neg (by omega), if_pos hlo] at htake
    have hv : wrap 64 r.verdict = r.verdict := Nat.mod_eq_of_lt (by omega)
    refine Completes.of_run hrun hwf ⟨?_, fun hroom => ?_, fun q hq hne => ?_, fun f i hi hlog => ?_⟩
    · rw [Dev.part?_congr (Dev.notify_parts ..), htake, Dev.part?_congr (Dev.tally_parts ..),
        Dev.part?_updPart _ _ _ fun _ => Part.merge_id _ _ _, hp]
      simp [Part.merge_reserved p r.aux hlo, mergeCode]
    · have hqueue := (s.updPart r.partid fun p => p.merge r.verdict r.aux).tally_queue 0x0042 r.member r.partid r.verdict 0 hroom
      simp [htake, hqueue, Dev.tallyRecord, hv]
    · simpa [htake] using Dev.mem_parts_updPart _ hq hne
    · simpa [htake] using (Dev.tally_rd _ _ _ _ _ _ f i hi hlog).trans (Dev.updPart_rd ..)

end Sys2Proof.Machine
end

section
/-! The write of a BAR0 word: what it gives the fields of the word where its source owns them, and what it leaves alone where it owns
none (R371, R372). With it the sync counters' registers (R204). -/

namespace Sys2Proof.Machine

open Sys2Proof

/-! ### One field written -/

/-- A write of a field that a list names keeps every field outside the list. -/
theorem Dev.rd_wr_outside (s : Dev) {f g : Field} {i j : Nat} {l : List (Field × Nat)} (v : Nat) (hi : i < 1024) (hj : j < 1024)
    (hf : (f, i) ∈ l) (hg : (g, j) ∉ l) : (s.wr f i v).rd g j = s.rd g j :=
  s.rd_wr_ne f g i j v hi hj fun ⟨hfg, hij⟩ => hg (hfg ▸ hij ▸ hf)

/-- A field's value lies within its width. -/
theorem Dev.rd_lt (s : Dev) (f : Field) (i : Nat) : s.rd f i < 2 ^ f.desc.width := Nat.mod_lt _ (Nat.two_pow_pos _)

/-! ### The write of a word (R371, R372) -/

/-- A write of an aligned word by the bus, outside the Off state, is the write of that word. -/
theorem exec_registerWrite_word (src : Source) {a : Nat} (w : Nat) {s : State} (hon : s.power ≠ .off) (ha : a % 4 = 0) :
    exec (.registerWrite src a 4 w) s = s.run (.registerWrite src a 4 w) fun _ => s.writeWord src a w := by
  have harm : exec (.registerWrite src a 4 w) s = execRegisterWrite src a 4 w s := rfl
  simp [harm, execRegisterWrite, State.run, Dev.registerWrite, hon, ha]

/-- The host owns its fields whatever the state, as no servo is among them. -/
theorem Dev.owns_host (s : Dev) {f : Field} {i : Nat} (h : f.ownerAt i = .host) : s.owns .host f i = true := by
  simp [Dev.owns, h]

/-- Firmware owns neither the fields of the host nor those of the hardware. -/
theorem Dev.not_owns_firmware (s : Dev) {f : Field} {i : Nat} (h : f.ownerAt i = .host ∨ f.ownerAt i = .hw) :
    s.owns .firmware f i = false := by
  rcases h with h | h <;> simp [Dev.owns, h]

/-- A word that holds a part of one field, of the source's own, writes that part. -/
theorem Dev.writeWord_single {s : Dev} {src : Source} {a : Nat} (w : Nat) {sl : Slice} (hsl : slicesAt a = [sl])
    (hown : s.owns src sl.field sl.inst = true) : s.writeWord src a w = s.writeSlice src w sl := by
  by_cases hacts : sl.field.acts = true <;> simp [Dev.writeWord, hsl, hown, hacts]

/-- A word outside the buffer windows of which the source owns no field changes nothing, beside an owner error. -/
theorem Dev.writeWord_not_owned {s : Dev} {src : Source} {a : Nat} (w : Nat) (hwin : windowOwner a = none)
    (hown : ∀ sl ∈ slicesAt a, s.owns src sl.field sl.inst = false) :
    s.writeWord src a w = s ∨ s.writeWord src a w = s.ownerError := by
  have hmine : (slicesAt a).filter (fun sl => s.owns src sl.field sl.inst) = [] :=
    List.filter_eq_nil_iff.2 fun sl hsl => by simp [hown sl hsl]
  by_cases hempty : (slicesAt a).isEmpty = true
  · exact .inl (by simp [Dev.writeWord, hempty, hwin])
  · exact .inr (by simp [Dev.writeWord, hempty, hmine])

/-- An owner error changes its flag and its count alone. -/
theorem Dev.ownerError_rd (s : Dev) {f : Field} {i : Nat} (hi : i < 1024)
    (h : (f, i) ∉ [(Field.GLB_ERR_STAT_OWNERR, 0), (Field.GLB_OWNERR_CNT, 0)]) : s.ownerError.rd f i = s.rd f i := by
  simp only [Dev.ownerError, Dev.countOwnerError, Dev.count_eq, Dev.setFlag_eq]
  rw [Dev.rd_wr_outside _ _ (by decide) hi (by simp) h, Dev.rd_wr_outside _ _ (by decide) hi (by simp) h]

@[simp] theorem Dev.ownerError_rest (s : Dev) : s.ownerError.rest = s.rest := by
  simp [Dev.ownerError, Dev.countOwnerError]

/-! ### The words of the sync counters (R204, R210) -/

theorem slicesAt_synValLow : slicesAt 0x580000 = [⟨.SYN_VAL, 0, 0, 0, 32⟩] := by decide +kernel
theorem slicesAt_synValHigh : slicesAt 0x580004 = [⟨.SYN_VAL, 0, 32, 0, 32⟩] := by decide +kernel
theorem slicesAt_synOp : slicesAt 0x580008 = [⟨.SYN_OP, 0, 0, 30, 2⟩, ⟨.SYN_OP_SC, 0, 0, 0, 14⟩] := by decide +kernel
theorem slicesAt_synRdidx : slicesAt 0x580010 = [⟨.SYN_RDIDX_SC, 0, 0, 0, 14⟩] := by decide +kernel

/-- The six words are of the host or of the hardware, and none lies in a buffer window. -/
theorem syn_words_not_of_firmware : ∀ a : Fin 6, windowOwner (0x580000 + 4 * a) = none ∧
    ∀ sl ∈ slicesAt (0x580000 + 4 * a), sl.field.ownerAt sl.inst = .host ∨ sl.field.ownerAt sl.inst = .hw := by
  decide +kernel

/-- The low bits of a value that has no others are the value. -/
theorem bits_low {v w : Nat} (hv : v < 2 ^ w) : bits v 0 w = v := by
  rw [bits, Nat.pow_zero, Nat.div_one, Nat.mod_eq_of_lt hv]

/-- A value below 2^`w` that is put in the low `w` bits leaves the bits above them. -/
theorem setBits_low {n w v : Nat} (hv : v < 2 ^ w) : setBits n 0 w v = n / 2 ^ w * 2 ^ w + v := by
  have hdiv := Nat.div_add_mod' n (2 ^ w)
  simp only [setBits, bits, Nat.pow_zero, Nat.div_one, Nat.mul_one, Nat.mod_eq_of_lt hv]
  omega

/-- A value below 2^`w` that is put in the top `w` bits leaves the bits below them. -/
theorem setBits_high {n lo w v : Nat} (hn : n < 2 ^ (lo + w)) (hv : v < 2 ^ w) :
    setBits n lo w v = v * 2 ^ lo + n % 2 ^ lo := by
  have htop : n / 2 ^ lo % 2 ^ w = n / 2 ^ lo :=
    Nat.mod_eq_of_lt (Nat.div_lt_of_lt_mul (by rwa [← Nat.pow_add]))
  have hdiv := Nat.div_add_mod' n (2 ^ lo)
  simp only [setBits, bits, htop, Nat.mod_eq_of_lt hv]
  omega

/-- The low word of `SYN_VAL` keeps its high word. -/
theorem Dev.writeWord_synValLow (s : Dev) {v : Nat} (hv : v < 2 ^ 32) :
    s.writeWord .host 0x580000 v = s.wr .SYN_VAL 0 (s.rd .SYN_VAL / 2 ^ 32 * 2 ^ 32 + v) := by
  have hslice : s.writeSlice .host v ⟨.SYN_VAL, 0, 0, 0, 32⟩ = s.wr .SYN_VAL 0 (setBits (s.rd .SYN_VAL) 0 32 (bits v 0 32)) := rfl
  rw [Dev.writeWord_single v slicesAt_synValLow (s.owns_host rfl), hslice, bits_low hv, setBits_low hv]

/-- The high word of `SYN_VAL` keeps its low word. -/
theorem Dev.writeWord_synValHigh (s : Dev) {v : Nat} (hv : v < 2 ^ 32) :
    s.writeWord .host 0x580004 v = s.wr .SYN_VAL 0 (v * 2 ^ 32 + s.rd .SYN_VAL % 2 ^ 32) := by
  have hslice : s.writeSlice .host v ⟨.SYN_VAL, 0, 32, 0, 32⟩ = s.wr .SYN_VAL 0 (setBits (s.rd .SYN_VAL) 32 32 (bits v 0 32)) := rfl
  rw [Dev.writeWord_single v slicesAt_synValHigh (s.owns_host rfl), hslice, bits_low hv, setBits_high (s.rd_lt .SYN_VAL 0) hv]

/-- A write of `SYN_OP` performs the operation on the counter that the word names. -/
theorem Dev.writeWord_synOp (s : Dev) (w : Nat) :
    s.writeWord .host 0x580008 w = s.synCommand (bits w 30 2) (bits w 0 14) := by
  have hop : s.owns .host .SYN_OP 0 = true := s.owns_host rfl
  have hsc : s.owns .host .SYN_OP_SC 0 = true := s.owns_host rfl
  have hindex : s.writeSlice .host w ⟨.SYN_OP_SC, 0, 0, 0, 14⟩ = s := rfl
  have hcommand : s.writeSlice .host w ⟨.SYN_OP, 0, 0, 30, 2⟩ = s.synCommand (bits w 30 2) (bits w 0 14) := by
    simp [Dev.writeSlice, Dev.trigger, Dev.fieldValue, Field.desc]
  simp [Dev.writeWord, slicesAt_synOp, hop, hsc, Field.acts, hindex, hcommand]

/-- Operation 1 adds `SYN_VAL` to the counter. -/
theorem Dev.writeWord_synSignal (s : Dev) {k : Nat} (hk : k < 2 ^ 14) :
    s.writeWord .host 0x580008 (2 ^ 30 + k) = s.scAdd k (s.rd .SYN_VAL) := by
  have hop : bits (2 ^ 30 + k) 30 2 = 1 := by simp only [bits]; omega
  have hsc : bits (2 ^ 30 + k) 0 14 = k := by simp only [bits]; omega
  rw [Dev.writeWord_synOp, hop, hsc, Dev.synCommand]

/-- Operation 2 resets the counter. -/
theorem Dev.writeWord_synReset (s : Dev) {k : Nat} (hk : k < 2 ^ 14) :
    s.writeWord .host 0x580008 (2 ^ 31 + k) = s.scZero k := by
  have hop : bits (2 ^ 31 + k) 30 2 = 2 := by simp only [bits]; omega
  have hsc : bits (2 ^ 31 + k) 0 14 = k := by simp only [bits]; omega
  rw [Dev.writeWord_synOp, hop, hsc, Dev.synCommand]

/-- A write of an index to `SYN_RDIDX` latches the counter. -/
theorem Dev.writeWord_synRdidx (s : Dev) {k : Nat} (hk : k < 2 ^ 14) :
    s.writeWord .host 0x580010 k = s.synRdidxLatch k := by
  have hold : s.rd .SYN_RDIDX_SC / 2 ^ 14 = 0 := Nat.div_eq_of_lt (s.rd_lt .SYN_RDIDX_SC 0)
  have hslice : s.writeSlice .host k ⟨.SYN_RDIDX_SC, 0, 0, 0, 14⟩ =
    s.synRdidxLatch (setBits (s.rd .SYN_RDIDX_SC) 0 14 (bits k 0 14)) := rfl
  rw [Dev.writeWord_single k slicesAt_synRdidx (s.owns_host rfl), hslice, bits_low hk, setBits_low hk, hold, Nat.zero_mul, Nat.zero_add]

/-! ### The operations on a sync counter (R201, R204) -/

@[simp] theorem Dev.sc_notify (s b : Dev) (k : Nat) : (s.notify b).sc k = s.sc k := by simp [Dev.sc]

/-- A command that signals a counter changes that counter alone. -/
theorem Completes.of_scAdd {c : Instr} {s : State} {k n : Nat} (m : Nat) (h : exec c s = s.run c fun _ => s.scAdd k n)
    (hwf : c.wf = true) : Completes c s fun t =>
      t.sc k = wrap 64 (s.sc k + n) ∧ (m ≠ k → t.sc m = s.sc m) ∧ KeepsFields s t [] ∧
        t.rest = { s.rest with sync := t.sync } := by
  refine Completes.of_run h hwf ⟨?_, fun hm => ?_, fun f i _ _ => ?_, ?_⟩
  · simp [Dev.sc, Dev.scAdd]
  · simp [Dev.sc, Dev.scAdd, tabGet_set_ne _ _ _ _ hm]
  · simp
  · simp [Dev.rest, Dev.scAdd]

/-- A command that resets a counter changes that counter alone. -/
theorem Completes.of_scZero {c : Instr} {s : State} {k : Nat} (m : Nat) (h : exec c s = s.run c fun _ => s.scZero k)
    (hwf : c.wf = true) : Completes c s fun t =>
      t.sc k = 0 ∧ (m ≠ k → t.sc m = s.sc m) ∧ KeepsFields s t [] ∧ t.rest = { s.rest with sync := t.sync } := by
  refine Completes.of_run h hwf ⟨?_, fun hm => ?_, fun f i _ _ => ?_, ?_⟩
  · simp [Dev.sc, Dev.scZero, tabGet]
  · simp [Dev.sc, Dev.scZero, tabGet, tabFind?_drop_ne _ hm]
  · simp
  · simp [Dev.rest, Dev.scZero]

/-- A command that latches a counter changes `SYN_RDIDX` and `SYN_RDVAL` alone. -/
theorem Completes.of_synRdidxLatch {c : Instr} {s : State} {k : Nat} (hk : k < 2 ^ 14)
    (h : exec c s = s.run c fun _ => s.synRdidxLatch k) (hwf : c.wf = true) : Completes c s fun t =>
      t.rd .SYN_RDVAL = wrap 64 (s.sc k) ∧ t.rd .SYN_RDIDX_SC = k ∧
        KeepsFields s t [(.SYN_RDVAL, 0), (.SYN_RDIDX_SC, 0)] ∧ t.rest = s.rest := by
  refine Completes.of_run h hwf ⟨?_, ?_, fun f i hi hne => ?_, ?_⟩
  · simp [Dev.synRdidxLatch, Field.desc]
  · have hindex : wrap 14 k = k := Nat.mod_eq_of_lt hk
    simp [Dev.synRdidxLatch, Dev.rd_wr_field, Field.desc, hindex]
  · simp only [Dev.notify_rd, Dev.synRdidxLatch]
    rw [Dev.rd_wr_outside _ _ (by decide) hi (by simp) hne, Dev.rd_wr_outside _ _ (by decide) hi (by simp) hne]
  · simp [Dev.synRdidxLatch]

/-- A command that writes a value below 2^64 to `SYN_VAL` changes that register alone. -/
theorem Completes.of_wr_synVal {c : Instr} {s : State} {v : Nat} (hv : v < 2 ^ 64)
    (h : exec c s = s.run c fun _ => s.wr .SYN_VAL 0 v) (hwf : c.wf = true) : Completes c s fun t =>
      t.rd .SYN_VAL = v ∧ KeepsFields s t [(.SYN_VAL, 0)] ∧ t.rest = s.rest := by
  refine Completes.of_run h hwf ⟨?_, fun f i hi hne => ?_, by simp⟩
  · have hval : wrap 64 v = v := Nat.mod_eq_of_lt hv
    simp [Field.desc, hval]
  · simpa using s.rd_wr_outside v (by decide) hi (by simp) hne

/-- A write of one of the six words by firmware changes at most what an owner error does. -/
theorem firmware_synWrite_keeps (s : State) (a : Fin 6) {v : Nat} (hv : v < 2 ^ 32) (hon : s.power ≠ .off) :
    Completes (.registerWrite .firmware (0x580000 + 4 * a) 4 v) s fun t =>
      KeepsFields s t [(.GLB_ERR_STAT_OWNERR, 0), (.GLB_OWNERR_CNT, 0)] ∧ t.rest = s.rest := by
  obtain ⟨hwin, howner⟩ := syn_words_not_of_firmware a
  have hwf : (Instr.registerWrite .firmware (0x580000 + 4 * a) 4 v).wf = true := by
    simp only [Instr.wf, fitsU, Bool.and_eq_true, decide_eq_true_eq]
    omega
  refine Completes.of_run (exec_registerWrite_word _ _ hon (by omega)) hwf ?_
  rcases Dev.writeWord_not_owned v hwin fun sl hsl => s.not_owns_firmware (howner sl hsl) with h | h <;> rw [h]
  · exact ⟨fun f i _ _ => by simp, by simp⟩
  · exact ⟨fun f i hi hne => by simpa using s.ownerError_rd hi hne, by simp⟩

/-- Settles O41: each register write of the host is the operation of the command of that name, and a write of firmware is none. -/
theorem hostSignalsAndReadsCounters : Obligations.HostSignalsAndReadsCounters := by
  intro s k m v a hk hv hon
  have hwrite {b : Nat} (w : Nat) (hb : b % 4 = 0) := exec_registerWrite_word .host w hon hb
  have hwf {b w : Nat} (hb : b < 2 ^ 24) (hw : w < 2 ^ 32) : (Instr.registerWrite .host b 4 w).wf = true :=
    Bool.and_eq_true_iff.2 ⟨decide_eq_true hb, decide_eq_true hw⟩
  have hcounter : fitsU 14 k = true := decide_eq_true hk
  have hval : s.rd .SYN_VAL < 2 ^ 64 := s.rd_lt .SYN_VAL 0
  refine ⟨?valLow, ?valHigh, ?signalWrite, ?resetWrite, ?indexWrite, firmware_synWrite_keeps s a hv hon, ?signal, ?reset, ?latch⟩
  case valLow =>
    exact .of_wr_synVal (by omega) (by rw [hwrite v rfl, s.writeWord_synValLow hv]) (hwf (by decide) hv)
  case valHigh =>
    exact .of_wr_synVal (by omega) (by rw [hwrite v rfl, s.writeWord_synValHigh hv]) (hwf (by decide) hv)
  case signalWrite =>
    exact .of_scAdd m (by rw [hwrite _ rfl, s.writeWord_synSignal hk]) (hwf (by decide) (by omega))
  case resetWrite =>
    exact .of_scZero m (by rw [hwrite _ rfl, s.writeWord_synReset hk]) (hwf (by decide) (by omega))
  case indexWrite =>
    exact .of_synRdidxLatch hk (by rw [hwrite k rfl, s.writeWord_synRdidx hk]) (hwf (by decide) (by omega))
  case signal => exact .of_scAdd m rfl hcounter
  case reset => exact .of_scZero m rfl hcounter
  case latch => exact .of_synRdidxLatch hk rfl hcounter

end Sys2Proof.Machine
end

section
/-! The grid of a compare generator: the signed difference of stamps moved along the grid, the first grid value after a position
(R15, R240), and what arming a generator changes. -/

namespace Sys2Proof.Machine

open Sys2Proof

/-! ### Positions along the grid (R15, R240) -/

/-- A value within its width is not cut. -/
theorem wrap_of_lt {w n : Nat} (h : n < 2 ^ w) : wrap w n = n := Nat.mod_eq_of_lt h

/-- A stamp moved up by `n` differs by `n` more, as long as the difference stays below 2^63. -/
theorem sdiff_wrap_add {c p n : Nat} (h : sdiff c p + n < 2 ^ 63) : sdiff (wrap 64 (c + n)) p = sdiff c p + n := by
  simp only [sdiff, sgn, wrap, Nat.reducePow, Nat.reduceSub] at h ⊢
  split at h <;> split <;> omega

/-- The first grid value after a position is the one that follows the passed ones. -/
theorem gridAfter_eq_point {c : Nat} (hc : c < 2 ^ 64) (space p : Nat) :
    gridAfter c space p = wrap 64 (c + gridPassed c space p * space) := by
  unfold gridAfter gridPassed
  split
  · simpa using (wrap_of_lt hc).symm
  · rfl

/-- No grid value is passed over where the first one lies after the position. -/
theorem gridPassed_eq_zero {c p : Nat} (h : after c p = true) (space : Nat) : gridPassed c space p = 0 := if_pos h

/-- The grid values before the count of the passed ones are those at or before the position, and the next one lies at most a
grid spacing after it. -/
theorem gridPassed_bounds {c space p : Nat} (hspace : space ≠ 0) (h : after c p = false) :
    0 < sdiff c p + (gridPassed c space p * space : Nat) ∧ sdiff c p + (gridPassed c space p * space : Nat) ≤ space ∧
      ∀ k < gridPassed c space p, sdiff c p + (k * space : Nat) ≤ 0 := by
  have hbehind : sdiff c p ≤ 0 := by simpa [after] using h
  have hmax : max 1 space = space := by omega
  obtain ⟨n, hn⟩ : ∃ n : Nat, sdiff c p = -n := ⟨(-sdiff c p).toNat, by omega⟩
  have hpassed : gridPassed c space p = n / space + 1 := by simp [gridPassed, h, hmax, hn]
  have hlow : n / space * space ≤ n := Nat.div_mul_le_self n space
  have hhigh : n < n / space * space + space := Nat.lt_div_mul_add (Nat.pos_of_ne_zero hspace)
  rw [hpassed, Nat.add_one_mul]
  refine ⟨by omega, by omega, fun k hk => ?_⟩
  have : k * space ≤ n / space * space := Nat.mul_le_mul_right space (by omega)
  omega

/-- The grid value that arming loads lies after the position. -/
theorem after_gridAfter {c space p : Nat} (hc : c < 2 ^ 64) (hspace : space ≠ 0) (hwidth : space < 2 ^ 32) :
    after (gridAfter c space p) p = true := by
  cases h : after c p
  case true => simp [gridAfter, h]
  case false =>
    obtain ⟨hpos, hle, -⟩ := gridPassed_bounds hspace h
    rw [gridAfter_eq_point hc, after, sdiff_wrap_add (by omega)]
    exact decide_eq_true hpos

/-- The grid values passed over do not lie after the position. -/
theorem not_after_of_lt_gridPassed {c space p k : Nat} (hspace : space ≠ 0) (hk : k < gridPassed c space p) :
    after (wrap 64 (c + k * space)) p = false := by
  cases h : after c p
  case true => simp [gridPassed_eq_zero h] at hk
  case false =>
    obtain ⟨-, -, hpassed⟩ := gridPassed_bounds hspace h
    have hle := hpassed k hk
    rw [after, sdiff_wrap_add (by omega)]
    exact decide_eq_false (by omega)

/-- The first value of a grid that lies after the position is the one that arming loads. -/
theorem gridAfter_eq_of_first {c space p j : Nat} (hc : c < 2 ^ 64) (hspace : space ≠ 0) (hwidth : space < 2 ^ 32)
    (hj : after (wrap 64 (c + j * space)) p = true) (hfirst : ∀ k < j, after (wrap 64 (c + k * space)) p = false) :
    gridAfter c space p = wrap 64 (c + j * space) := by
  have hnext := after_gridAfter hc hspace hwidth (p := p)
  rw [gridAfter_eq_point hc] at hnext ⊢
  rcases Nat.lt_trichotomy j (gridPassed c space p) with hlt | rfl | hgt
  · simp [not_after_of_lt_gridPassed hspace hlt] at hj
  · rfl
  · simp [hfirst _ hgt] at hnext

theorem gridAfter_lt {c : Nat} (hc : c < 2 ^ 64) (space p : Nat) : gridAfter c space p < 2 ^ 64 := by
  rw [gridAfter_eq_point hc]
  exact Nat.mod_lt _ (Nat.two_pow_pos 64)

/-! ### Arming (R240) -/

/-- The generator is to issue no hit: `CONTINUOUS` = 0 and `COUNT` = 0. -/
def Dev.emptyRun (s : Dev) (g : Nat) : Bool := !s.flag .ENC_CG_CTL_CONTINUOUS g && s.rd .ENC_CG_COUNT g == 0

/-- The register fields of a generator that arming writes. -/
def armFields (g : Nat) : List (Field × Nat) :=
  [(.ENC_CG_CTL_ARM, g), (.ENC_CG_NEXT, g), (.ENC_CG_STAT_RUN, g), (.ENC_CG_STAT_DONE, g), (.ENC_CG_STAT_FSTOP, g)]

section
variable (s : Dev) {g : Nat} (hg : g < 1024)

/-- Arming is five writes of fields and a count of hits that starts again. -/
theorem Dev.cgArm_eq (g : Nat) : s.cgArm g =
    (((((s.wr .ENC_CG_CTL_ARM g 1).wr .ENC_CG_NEXT g (gridAfter (s.rd .ENC_CG_START g) (s.rd .ENC_CG_SPACE g) (s.srcPos g))).wr
      .ENC_CG_STAT_DONE g (s.emptyRun g).toNat).wr .ENC_CG_STAT_RUN g (!s.emptyRun g).toNat).wr
      .ENC_CG_STAT_FSTOP g 0).setGen g { s.gen g with hits := 0 } := by
  simp [Dev.cgArm, Dev.emptyRun, Dev.gen]

include hg

theorem Dev.cgArm_flag_arm : (s.cgArm g).flag .ENC_CG_CTL_ARM g = true := by
  simp [Dev.cgArm_eq, Dev.flag_eq, Dev.rd_wr_field, hg, Field.desc, wrap]

theorem Dev.cgArm_rd_next : (s.cgArm g).rd .ENC_CG_NEXT g =
    gridAfter (s.rd .ENC_CG_START g) (s.rd .ENC_CG_SPACE g) (s.srcPos g) := by
  have hlt := gridAfter_lt (s.rd_lt .ENC_CG_START g) (s.rd .ENC_CG_SPACE g) (s.srcPos g)
  simp [Dev.cgArm_eq, Dev.rd_wr_field, hg, Field.desc, wrap_of_lt hlt]

theorem Dev.cgArm_flag_done : (s.cgArm g).flag .ENC_CG_STAT_DONE g = s.emptyRun g := by
  cases h : s.emptyRun g <;> simp [Dev.cgArm_eq, Dev.flag_eq, Dev.rd_wr_field, hg, h, Field.desc, wrap]

theorem Dev.cgArm_flag_run : (s.cgArm g).flag .ENC_CG_STAT_RUN g = !s.emptyRun g := by
  cases h : s.emptyRun g <;> simp [Dev.cgArm_eq, Dev.flag_eq, Dev.rd_wr_field, hg, h, Field.desc, wrap]

/-- Arming leaves every other field alone. -/
theorem Dev.cgArm_rd_outside {f : Field} {i : Nat} (hi : i < 1024) (h : (f, i) ∉ armFields g) :
    (s.cgArm g).rd f i = s.rd f i := by
  rw [Dev.cgArm_eq, Dev.setGen_rd]
  iterate 5 rw [Dev.rd_wr_outside _ _ hg hi (by simp [armFields]) h]

end

/-- Arming starts the count of hits again and leaves the queued hits (R240, R243). -/
theorem Dev.cgArm_gen (s : Dev) (g : Nat) : (s.cgArm g).gen g = { s.gen g with hits := 0 } := by
  rw [Dev.cgArm_eq, Dev.gen_setGen]

theorem Dev.setGen_rest (s : Dev) (g : Nat) (e : Generator) :
    (s.setGen g e).rest = { s.rest with gens := (s.setGen g e).gens } := rfl

theorem Dev.cgArm_rest (s : Dev) (g : Nat) : (s.cgArm g).rest = { s.rest with gens := (s.cgArm g).gens } := by
  rw [Dev.cgArm_eq, Dev.setGen_rest]
  simp

theorem exec_cgArm (g : Fin 8) (s : State) : exec (.cgArm g) s = s.run (.cgArm g) fun d => d.cgArm g := rfl

theorem Dev.notify_flag (s b : Dev) (f : Field) (i : Nat) : (s.notify b).flag f i = s.flag f i := by simp [Dev.flag_eq]

theorem Dev.notify_gen (s b : Dev) (g : Nat) : (s.notify b).gen g = s.gen g := by simp [Dev.gen]

/-- Settles O10: the count of passed grid values is the index of the first one after the position, and arming loads that value. -/
theorem armingLoadsTheGrid : Obligations.ArmingLoadsTheGrid := by
  intro s g j hspace point empty
  have hg : (g : Nat) < 1024 := by omega
  have hstart : s.rd .ENC_CG_START g < 2 ^ 64 := s.rd_lt .ENC_CG_START g
  have hwidth : s.rd .ENC_CG_SPACE g < 2 ^ 32 := s.rd_lt .ENC_CG_SPACE g
  refine Completes.of_run (exec_cgArm g s) rfl ?_
  simp only [KeepsFields, Dev.notify_rd, Dev.notify_flag, Dev.notify_gen, Dev.notify_gens, Dev.notify_rest, s.cgArm_rd_next hg,
    s.cgArm_gen g]
  refine ⟨s.cgArm_flag_arm hg, after_gridAfter hstart hspace hwidth, fun hafter => if_pos hafter,
    gridAfter_eq_of_first hstart hspace hwidth, trivial, trivial, s.cgArm_flag_done hg, s.cgArm_flag_run hg,
    fun f i hi hne => s.cgArm_rd_outside hg hi hne, s.cgArm_rest g⟩

end Sys2Proof.Machine
end

section
/-! Stage 2 of the start sequence (R389) under the stay in Recovery (R391): its three outcomes, what each gives the failed-start
count, the stage and the power state, and a run from reset that reaches stage 2 in a standing Recovery with the count below its
limit. -/

namespace Sys2Proof.Machine

open Sys2Proof

/-! ### Entering Recovery and beginning a stage (R384, R391) -/

@[simp] theorem Dev.setPower_power (s : Dev) (p : Power) : (s.setPower p).power = p := by simp [Dev.setPower]

@[simp] theorem Dev.enterRecovery_power (s : Dev) : s.enterRecovery.power = .recovery := by simp [Dev.enterRecovery]

/-- The register fields that the entry into Recovery writes. -/
def recoveryFields : List (Field × Nat) := [(.RCP_STATE, 0), (.MLK_STAT_RECOV, 0), (.MLK_FW, 0)]

/-- The entry into Recovery leaves every other field alone. -/
theorem Dev.enterRecovery_rd (s : Dev) {f : Field} {i : Nat} (hi : i < 1024) (h : (f, i) ∉ recoveryFields) :
    s.enterRecovery.rd f i = s.rd f i := by
  have hwr (g : Field) (hg : (g, 0) ∈ recoveryFields) (d : Dev) (v : Nat) : (d.wr g 0 v).rd f i = d.rd f i :=
    d.rd_wr_outside v (by decide) hi hg h
  calc s.enterRecovery.rd f i
    _ = (((s.setPower .recovery).wr .MLK_STAT_RECOV 0 1).wr .MLK_FW 0 0).rd f i := rfl
    _ = (s.setPower .recovery).rd f i := by rw [hwr _ (by decide), hwr _ (by decide)]
    _ = s.rd f i := hwr .RCP_STATE (by decide) _ _

/-! ### The outcomes of stage 2 (R389, R391) -/

/-- Stage 2 leads to Recovery before it stores a count: the limit is reached, or Recovery stands from an earlier start. -/
def Dev.startHeld (s : Dev) : Prop := s.rd .RCP_FAILSTART_LIMIT ≤ s.rd .RCP_FAILSTART_COUNT ∨ s.rst.recovery = true

/-- The failed-start count that stage 2 has read. -/
def Dev.noteCount (s : Dev) : Dev := { s with rst := { s.rst with failedStarts := s.rd .RCP_FAILSTART_COUNT } }

theorem Dev.startStage2_of_held {s : Dev} (h : s.startHeld) (storeFails : Bool) :
    s.startStage2 storeFails = s.noteCount.enterRecovery := if_pos h

theorem Dev.startStage2_of_storeFails {s : Dev} (h : ¬ s.startHeld) :
    s.startStage2 true = (s.noteCount.setFlag .RCP_STAT_NVMERR 0 true).enterRecovery := if_neg h

theorem Dev.startStage2_of_stored {s : Dev} (h : ¬ s.startHeld) :
    s.startStage2 false = (s.noteCount.storeCount (min (s.rd .RCP_FAILSTART_COUNT + 1) 15)).toStage 3 := if_neg h

section
variable {s : State} (hpower : s.power = .start) (hstage : s.rd .RCP_STATE_STAGE = 2)
include hpower hstage

theorem exec_startStageComplete_of_stage2 (storeFails : Bool) :
    exec (.startStageComplete storeFails) s = s.run (.startStageComplete storeFails) fun _ => s.startStage2 storeFails := by
  have harm : exec (.startStageComplete storeFails) s = execStartStageComplete storeFails s := rfl
  simp [harm, execStartStageComplete, State.run, Dev.stageComplete, hpower, hstage]

/-- A start that is held ends in Recovery, and the count stays (R389, R391). -/
theorem Completes.stage2_of_held (h : s.startHeld) (storeFails : Bool) :
    Completes (.startStageComplete storeFails) s fun t =>
      t.power = .recovery ∧ t.rd .RCP_FAILSTART_COUNT = s.rd .RCP_FAILSTART_COUNT := by
  refine Completes.of_run (exec_startStageComplete_of_stage2 hpower hstage storeFails) rfl ?_
  simp only [Dev.notify_power, Dev.notify_rd, Dev.startStage2_of_held h, Dev.enterRecovery_power, true_and]
  exact Dev.enterRecovery_rd _ (by decide) (by decide)

/-- Any other start is counted before stage 3 begins (R389). -/
theorem Completes.stage2_of_stored (h : ¬ s.startHeld) :
    Completes (.startStageComplete false) s fun t =>
      t.rd .RCP_FAILSTART_COUNT = min (s.rd .RCP_FAILSTART_COUNT + 1) 15 ∧ t.rd .RCP_STATE_STAGE = 3 ∧ t.power = .start := by
  refine Completes.of_run (exec_startStageComplete_of_stage2 hpower hstage false) rfl ?_
  simp only [Dev.notify_power, Dev.notify_rd, Dev.startStage2_of_stored h, Dev.toStage, Dev.storeCount, Dev.wr_power]
  refine ⟨?_, Dev.rd_wr .., hpower⟩
  rw [Dev.rd_wr_field _ _ _ _ _ _ (by decide) (by decide) (by decide), Dev.rd_wr]
  exact wrap_of_lt (Nat.lt_succ_of_le (Nat.min_le_right _ 15))

/-- A count that cannot be stored leads to Recovery and is flagged (R389). -/
theorem Completes.stage2_of_storeFails (h : ¬ s.startHeld) :
    Completes (.startStageComplete true) s fun t => t.power = .recovery ∧ t.flag .RCP_STAT_NVMERR = true := by
  refine Completes.of_run (exec_startStageComplete_of_stage2 hpower hstage true) rfl ?_
  simp only [Dev.notify_power, Dev.notify_flag, Dev.startStage2_of_storeFails h, Dev.enterRecovery_power, true_and]
  rw [Dev.flag_eq, Dev.enterRecovery_rd _ (by decide) (by decide), Dev.setFlag_eq, Dev.rd_wr]
  decide

/-- R389 as the statement gives it holds of every start that no standing Recovery holds. -/
theorem stage2_counts_unless_recovery_stands (hrecovery : s.rst.recovery = false) (storeFails : Bool) :
    (s.rd .RCP_FAILSTART_LIMIT ≤ s.rd .RCP_FAILSTART_COUNT →
      Completes (.startStageComplete storeFails) s fun t =>
        t.power = .recovery ∧ t.rd .RCP_FAILSTART_COUNT = s.rd .RCP_FAILSTART_COUNT) ∧
    (s.rd .RCP_FAILSTART_COUNT < s.rd .RCP_FAILSTART_LIMIT →
      Completes (.startStageComplete false) s fun t =>
        t.rd .RCP_FAILSTART_COUNT = min (s.rd .RCP_FAILSTART_COUNT + 1) 15 ∧ t.rd .RCP_STATE_STAGE = 3 ∧ t.power = .start) ∧
    (s.rd .RCP_FAILSTART_COUNT < s.rd .RCP_FAILSTART_LIMIT →
      Completes (.startStageComplete true) s fun t => t.power = .recovery ∧ t.flag .RCP_STAT_NVMERR = true) := by
  have hfree (h : s.rd .RCP_FAILSTART_COUNT < s.rd .RCP_FAILSTART_LIMIT) : ¬ s.startHeld := by
    rintro (hlimit | hstands)
    · omega
    · simp [hrecovery] at hstands
  exact ⟨fun h => .stage2_of_held hpower hstage (.inl h) storeFails, fun h => .stage2_of_stored hpower hstage (hfree h),
    fun h => .stage2_of_storeFails hpower hstage (hfree h)⟩

end

/-! ### A standing Recovery with the count below its limit (R391) -/

/-- The store of the count fails at the first start, which leads to Recovery with the count still 0; a power-on reset starts
again, and stage 1 of that start completes. -/
def failedStoreThenReset : List Instr :=
  [.startStageComplete false, .startStageComplete true, .por, .startStageComplete false]

/-- The run from reset comes to stage 2 in a standing Recovery, the count below its limit. -/
theorem reset_reaches_stage2_of_standing_recovery :
    ∃ s, Sys2Proof.core.run 4 { State.reset with pending := failedStoreThenReset } = .next s ∧ s.power = .start ∧
      s.rd .RCP_STATE_STAGE = 2 ∧ s.rd .RCP_FAILSTART_COUNT = 0 ∧ s.rd .RCP_FAILSTART_LIMIT = 3 ∧ s.rst.recovery = true := by
  refine ⟨_, rfl, ?_⟩
  decide +kernel

/-- Refutes O60: R391 keeps the module in Recovery across every reset until the count 0 is stored from there, so stage 2 of a start
in a standing Recovery leads back to Recovery although the count is below its limit, and stage 3 does not begin. The statement lacks
the premise that no Recovery stands. -/
theorem not_failedStartsCounted : ¬ Obligations.FailedStartsCounted := by
  intro h
  obtain ⟨s, -, hpower, hstage, hcount, hlimit, hrecovery⟩ := reset_reaches_stage2_of_standing_recovery
  obtain ⟨-, hstored, -⟩ := h s false hpower hstage
  obtain ⟨t, ht, -, -, hstart⟩ := hstored (by omega)
  obtain ⟨t', ht', hheld, -⟩ := Completes.stage2_of_held hpower hstage (.inr hrecovery) false
  cases ht.symm.trans ht'
  simp [hstart] at hheld

end Sys2Proof.Machine
end

section
/-! Every command is an effect on the module alone (`State.run`), so every command completes and leaves the queue alone, and a queue of
commands runs to its end, one command a step. -/

namespace Sys2Proof.Machine

open Sys2Proof

-- One proof at a time, as in the tests: the compile of the whole text then needs less memory.
set_option Elab.async false

/-! ### One command -/

/-- Every command is `State.run` of some effect on the module. -/
theorem exec_eq_run (c : Instr) (s : State) : ∃ f, exec c s = s.run c f := by
  unfold exec
  cases c <;> exact ⟨_, rfl⟩

theorem State.run_of_not_wf {s : State} {c : Instr} (f : Dev → Dev) (h : c.wf = false) : s.run c f = .next s := by
  simp [State.run, h]

/-- What runs leaves the queue alone. -/
theorem State.run_pending (s : State) (c : Instr) (f : Dev → Dev) : ∃ t, s.run c f = .next t ∧ t.pending = s.pending := by
  refine ⟨_, rfl, ?_⟩
  split <;> rfl

theorem exec_completes (c : Instr) (s : State) : ∃ t, exec c s = .next t ∧ t.pending = s.pending := by
  obtain ⟨f, hf⟩ := exec_eq_run c s
  rw [hf]
  exact s.run_pending c f

/-- Settles O3: a command is the run of its effect on the module. -/
theorem everyCommandCompletes : Obligations.EveryCommandCompletes := by
  intro c s
  obtain ⟨f, hf⟩ := exec_eq_run c s
  exact ⟨exec_completes c s, fun hwf => by rw [hf, State.run_of_not_wf f hwf]⟩

/-! ### The queue -/

theorem step_of_empty {s : State} (h : s.pending = []) : step s = .next s := by
  simp [step, h]

theorem step_of_cons {s : State} {c : Instr} {l : List Instr} (h : s.pending = c :: l) :
    step s = exec c { s with pending := l } := by
  simp [step, h]

/-- A step answers a next state, whose queue lacks the command at the front. -/
theorem step_completes (s : State) : ∃ t, step s = .next t ∧ t.pending = s.pending.tail := by
  cases h : s.pending with
  | nil => exact ⟨s, step_of_empty h, h⟩
  | cons c l =>
    rw [step_of_cons h]
    exact exec_completes c { s with pending := l }

theorem step_pending {s t : State} (h : step s = .next t) : t.pending = s.pending.tail := by
  obtain ⟨t', ht', hp⟩ := step_completes s
  cases h.symm.trans ht'
  exact hp

theorem run_succ {M : Host.Core} {s t : M.State} (n : Nat) (h : M.step s = .next t) : M.run (n + 1) s = M.run n t := by
  simp [Host.Core.run, h]

/-- After `n` steps the first `n` commands are gone. -/
theorem core_run_pending (n : Nat) (s : State) : ∃ t, Sys2Proof.core.run n s = .next t ∧ t.pending = s.pending.drop n := by
  induction n generalizing s with
  | zero => exact ⟨s, rfl, rfl⟩
  | succ n ih =>
    obtain ⟨u, hu, hpu⟩ := step_completes s
    obtain ⟨t, ht, hpt⟩ := ih u
    refine ⟨t, (run_succ (M := Sys2Proof.core) n hu).trans ht, ?_⟩
    rw [hpt, hpu, List.drop_tail]

/-- Settles O4, by induction on the number of steps. -/
theorem queueRunsToEmpty : Obligations.QueueRunsToEmpty := by
  intro s
  refine ⟨fun t ht => ⟨step_pending ht, fun hwf c hc => ?_⟩, ?_, fun n t _ ht => ?_⟩
  · rw [step_pending ht] at hc
    exact hwf c (List.mem_of_mem_tail hc)
  · obtain ⟨t, ht, hp⟩ := core_run_pending s.pending.length s
    rw [List.drop_length] at hp
    exact ⟨t, ht, hp, step_of_empty hp⟩
  · obtain ⟨t', ht', hp⟩ := core_run_pending n s
    cases ht.symm.trans ht'
    exact hp

end Sys2Proof.Machine
end

section
/-! Statements of the encoders and the links that fail, each with a state in which the module does what its rules say and the statement
says otherwise. -/

namespace Sys2Proof.Machine

open Sys2Proof

/-- What a completed command's post-condition says of the state that its effect gives. -/
theorem Completes.post {c : Instr} {s : State} {P : State → Prop} {f : Dev → Dev} (h : Completes c s P) (hrun : exec c s = s.run c f)
    (hw : c.wf = true) : P { s with toDev := (f s.toDev).notify s.toDev } := by
  obtain ⟨t, ht, hp⟩ := h
  rw [hrun, State.run_next s c f hw] at ht
  cases ht
  exact hp

theorem exec_bissCycleComplete (ch : Fin 4) (raw : Nat) (nE nW : Bool) (crc : Nat) (s : State) :
    exec (.bissCycleComplete ch raw nE nW crc) s =
      s.run (.bissCycleComplete ch raw nE nW crc) fun d => d.bissCycleComplete ch raw nE nW crc := rfl

theorem exec_lineMasterChange (port : Port) (v : Nat) (s : State) :
    exec (.lineMasterChange port v) s =
      s.run (.lineMasterChange port v) fun d => d.served port 0x4000 1 fun d => d.lineMasterChange port v := rfl

theorem exec_linkLock (n : Fin 24) (s : State) : exec (.linkLock n) s = s.run (.linkLock n) fun d => d.linkLock n := rfl

/-! ### BiSS-C positions kept from a longer position field (R231) -/

/-- Channel 1 reads BiSS-C positions of 4 bits; the one it holds, 100, is of a cycle before `LEN` was written, and a cycle is open. -/
def narrowedBiss : State :=
  { toDev := (({ power := .run } : Dev).wr .ENC_CFG_EN 1 1 |>.wr .ENC_CFG_TYPE 1 2 |>.wr .ENC_BISS_LEN 1 4 |>.wr .ENC_MAXSTEP 1 10).setEnc 1
      { biss := some 100, bissOpen := true } }

/-- Refutes O7: the statement's difference raw + 2^`LEN` − q is cut to 0 for a position q that is longer than `LEN`, where the module takes
5 − 100 modulo 2^4, which is 1, and moves. -/
theorem not_channelSamples : ¬ Obligations.ChannelSamples := by
  intro h
  obtain ⟨-, -, -, -, hcycle, -⟩ := h narrowedBiss 1 0 0 0 0 5 100 true (by decide)
  have hpost := (hcycle (by decide) (by decide) (by decide) (by decide)).post (exec_bissCycleComplete ..)
    (by decide)
  obtain ⟨-, -, -, hmove, -⟩ := hpost
  exact absurd (hmove (by decide) (by decide) (by decide)) (by decide)

/-! ### A line master that starts XCLK (R14, R232) -/

/-- XCLK stands still in Run after Doze; channels 1 and 2 are BiSS-C channels, and channel 0 is the line master. -/
def stoppedXclk : State :=
  { toDev := (({ power := .run, xclkOn := false } : Dev).wr .ENC_CFG_TYPE 1 2).wr .ENC_CFG_TYPE 2 2 }

/-- Refutes O9: channel 1 becomes the line master, so XCLK starts, and channel 2 is to be read again (R232): its front end changes, which
the statement's frame does not allow. -/
theorem not_lineMasterChangesWithoutJump : ¬ Obligations.LineMasterChangesWithoutJump := by
  intro h
  obtain ⟨hchange, -⟩ := h stoppedXclk 1 (by decide) (by decide) (by decide)
  have hpost := (hchange (by decide) (by decide) (by decide) (by decide) (by decide)).post
    (exec_lineMasterChange ..) (by decide)
  obtain ⟨-, -, -, -, -, -, -, -, hbody⟩ := hpost
  exact absurd (congrArg Dev.encs hbody) (by decide +kernel)

/-! ### A sleeping receiver that locks (R46) -/

/-- Link 0 is enabled, and its receive direction sleeps. -/
def sleepingLink : State :=
  { toDev := (({ power := .run } : Dev).wr .CXP_LNK_CTL_EN 0 1).setLink 0 { asleep := true } }

/-- Refutes O20: a receiver that locks is awake (R46), so a link that slept when its lock was lost changes, where the statement keeps
everything but `LOCK`. -/
theorem not_linkLockAndPower : ¬ Obligations.LinkLockAndPower := by
  intro h
  obtain ⟨hlock, -⟩ := h sleepingLink 0 0 0 0 0 ⟨.host, false, 0, 0, []⟩ []
  have hpost := (hlock (by decide) (by decide)).post (exec_linkLock ..) (by decide)
  obtain ⟨-, -, hrest⟩ := hpost
  exact absurd (congrArg Dev.links hrest) (by decide)

end Sys2Proof.Machine
end

section
/-! Statements of memory and the scheduler that fail, each with a state in which the module does what its rules say and the statement says
otherwise. -/

namespace Sys2Proof.Machine

open Sys2Proof

/-! ### An uncorrectable block that a table walk reads (R167, R174) -/

theorem exec_blockCrcResend (src a attempt : Nat) (s : State) :
    exec (.blockCrcResend src a attempt) s = s.run (.blockCrcResend src a attempt) fun d => d.blockCrcResend src a attempt := rfl

@[simp] theorem Dev.body_free (s : Dev) : s.body.free = s.free := rfl

theorem Dev.strikeSample_free (s : Dev) : s.free ≤ s.strikeSample.free := by
  unfold Dev.strikeSample
  split
  · exact le_rfl
  · split
    · exact le_rfl
    · exact Nat.le_succ s.free

theorem Dev.postFault_free (s : Dev) (r : List Byte) : (s.postFault r).free = s.free := by
  unfold Dev.postFault
  split <;> simp [Dev.setFlag]

/-- A walk that the decoder alone can have made uses free values. -/
theorem Dev.walkLost_free (s : Dev) (a : Nat) (h : s.walkers = [16]) : s.free + 4 ≤ (s.walkLost a).free := by
  simpa [Dev.walkLost, h, Nat.mod_one, Dev.postFault_free] using Dev.strikeSample_free { s with free := s.free + 4 }

/-- The decoder works at a batch, and no Churn holds a context. -/
def decodingAlone : State := { toDev := { power := .run, batch := some { queue := 0, req := [], left := [0] } } }

/-- Refutes O32: the block that fails may be one that a table walk reads (requester 21), and its user then has a fault of type 8 (R167):
the decoder's sample is struck and a fault record is posted, which the statement's frame does not allow. -/
theorem not_memoryErrorsCounted : ¬ Obligations.MemoryErrorsCounted := by
  intro h
  obtain ⟨-, hlost, -⟩ := h decodingAlone 21 0 5 0 0 false (by decide) (by decide)
  obtain ⟨-, -, -, -, hbody⟩ := (hlost (by decide) (by decide)).post (exec_blockCrcResend ..) (by decide)
  have hfree : ((decodingAlone.toDev.uncorrectable 0 21 false).walkLost 0).free = decodingAlone.free := by
    simpa [Dev.blockCrcResend, Dev.blockLost] using congrArg Dev.free hbody
  have hless := (decodingAlone.toDev.uncorrectable 0 21 false).walkLost_free 0 (by decide)
  rw [hfree] at hless
  exact absurd hless (by decide)

end Sys2Proof.Machine
end

section
/-! Statements of the start, the resets, the herd and the scheduler that fail, each with a state in which the module does what its rules say
and the statement says otherwise. -/

namespace Sys2Proof.Machine

open Sys2Proof

theorem exec_failstartClear (port : Port) (v : Nat) (s : State) :
    exec (.failstartClear port v) s =
      s.run (.failstartClear port v) fun d => d.served port 0x9001 2 fun d => d.failstartClear port v := rfl

theorem exec_pres (p : Fin 4) (h : ZHdr) (pos : Nat) (lane : Fin 64) (on : Bool) (s : State) :
    exec (.pres p h pos lane on) s = s.run (.pres p h pos lane on) fun d => d.presFrame p h pos lane on := rfl

theorem exec_rstNLow (s : State) : exec .rstNLow s = s.run .rstNLow fun d => d.rstNLow := rfl

/-- The recovery program runs, and ETH_M answers. -/
def inRecovery : State := { toDev := ({ power := .recovery, rst := { recovery := true } } : Dev).setOd 0x6102 4 1 }

/-- Refutes O56: clearing FAILSTART while the recovery program runs begins the start again, which leaves `rst.recovery`, and the statement
frames `rst`. -/
theorem not_startSequenceRuns : ¬ Obligations.StartSequenceRuns := by
  intro h
  obtain ⟨-, -, -, -, hm⟩ := h inRecovery {} false .h
  obtain ⟨hclear, -⟩ := hm (by decide)
  obtain ⟨-, -, -, hrest⟩ := hclear.post (exec_failstartClear ..) (by decide)
  exact absurd (congrArg Dev.rst hrest) (by decide)

/-- Port 0 of a manager is up, and an input is the part source of lane 0. -/
def inputLane : State :=
  { toDev := ((({ power := .run } : Dev).wr .HRD_CTL_ROLE 0 1).wr .ZXL_CTL_EN 0 1 |>.wr .ZXL_STAT_UP 0 1).setOd 0x4010 1 1 }

/-- The header of a frame of member 1 to the manager. -/
def member1 : ZHdr := { seq := 0, ack := 0, nak := false, rxup := true, src := 1, dst := 0, bc := false }

/-- A request, where a statement quantifies over one and the frame carries none. -/
def noRequest : DictReq :=
  { magic := 0, version := 0, op := 0, reqid := 0, index := 0, sub := 0, member := 0, offset := 0, length := 0, flags := 0, resv := 0, data := [],
    src := 0 }

/-- Refutes O50: a manager keeps the presence of a lane to itself where the lane has an input as its part source (R26), and takes no PRES for
it. -/
theorem not_herdFramesTaken : ¬ Obligations.HerdFramesTaken := by
  intro h
  obtain ⟨-, htaken⟩ := h inputLane 0 member1 0 0 0 0 0 true false ⟨0, 0, 0, false, 0, 0⟩ ⟨0, 0, 0, 0, 0⟩ ⟨0, 0, false, []⟩
    noRequest [] [] (by decide)
  obtain ⟨-, -, -, hpres, -⟩ := htaken
    (by decide) (by decide) (by decide) (by decide) (by decide) (by decide)
  obtain ⟨hpresent, -⟩ := (hpres (by decide) (by decide)).post (exec_pres ..) (by decide)
  exact absurd hpresent (by decide)

/-- Capture runs, and a record waits. -/
def tracingRun : State :=
  { toDev := { ({ power := .run } : Dev).wr .OBS_TRC_CTL_EN 0 1 with trace := { fifos := [(0, { src := 16, kind := 1, data := 0 })] } } }

/-- Refutes O55: `OBS_TRC_WR_IDX` outlives a warm reset, and the safe state that begins it is a traced event, which moves the index. -/
theorem not_resetsAndSupplies : ¬ Obligations.ResetsAndSupplies := by
  intro h
  obtain ⟨hlow, -⟩ := h tracingRun .OBS_TRC_WR_IDX 0 0 0 (by decide)
  obtain ⟨-, -, -, -, -, -, -, -, -, -, -, hkeeps⟩ := (hlow (by decide)).post (exec_rstNLow ..) (by decide)
  exact absurd (hkeeps (by decide +kernel) (by decide +kernel)) (by decide +kernel)

theorem exec_iterationEnd (id : Nat) (s : State) : exec (.iterationEnd id) s = s.run (.iterationEnd id) fun d => d.iterationEnd id := rfl

theorem exec_restoreComplete (n : Fin 16) (fails : Bool) (s : State) :
    exec (.restoreComplete n fails) s = s.run (.restoreComplete n fails) fun d => d.restoreComplete n fails := rfl

/-- A job of one iteration whose commands are done. -/
def endingJob : Job :=
  { seq := 1, id := 7, queue := 0, teach := false, continuous := false, iterRec := false, asid := 0, slot := 0, csc := some 0, iters := 1,
    seed := 0, est := 1, lanes := 1, cmds := [] }

/-- The job is admitted, and the completion ring lies in a page of 2 MiB that address space 2 maps. -/
def pagedRing : State :=
  { toDev := ((({ power := .run, jobs := [endingJob] } : Dev).wr .JOB_CQ_CTL_EN 0 1 |>.wr .JOB_CQ_CTL_LOG2 0 4 |>.wr .JOB_CQ_CTL_ASID 0 2
      |>.wr .MMU_CTL_EN 0 1 |>.wr .MMU_ROOT_V 2 1 |>.wr .MMU_ROOT_ADDR 2 16).putBytes 0x10000 (leBytes 0x11001 8)
      |>.putBytes 0x11000 (leBytes 0x12001 8)).putBytes 0x12000 (leBytes 0x400062 8) }

/-- Refutes O36: the record of the end of a job is written to the completion ring, and that write keeps the translation of its page. -/
theorem not_schedulerCommandsRun : ¬ Obligations.SchedulerCommandsRun := by
  intro h
  obtain ⟨-, -, -, -, hend, -⟩ := h pagedRing 7 0 0 0 0 0 0 endingJob [] [] (by decide)
  obtain ⟨-, -, hlast⟩ := (hend (by decide) (by decide)).post (exec_iterationEnd ..) (by decide)
  obtain ⟨-, -, hrest⟩ := hlast (by decide) (by decide)
  exact absurd (congrArg Dev.tlb hrest) (by decide)

/-- The context whose fetch has faulted, as slot 0 keeps it. -/
def faultedContext : Saved :=
  { res := { job := 1, piece := 0, kind := 1, sliceAt := 0, fault := some (List.replicate 14 0 ++ [2]) } }

/-- Its job, a piece of whose LAYER runs on Churn 0. -/
def refetchingJob : Job := { endingJob with cmds := [.layer 1 0x100 0 0], pieces := [{ index := 0, st := .running 0 }] }

/-- The context while slot 0 is read back. -/
def restoringContext : Resident := { job := 1, piece := 0, kind := 1, sliceAt := 0, restoring := some 0 }

/-- The context comes back to Churn 0 while translation is off. -/
def refetching : State :=
  { toDev := (({ power := .run, jobs := [refetchingJob], saves := [(0, faultedContext)] } : Dev).wr .MEM_PART0_SLOTS 0 4).setChurn 0
      { ctx := some restoringContext } }

/-- Refutes O39: a context that comes back with its fetch faulted fetches again, faults again, and is saved into the slot that it has just
freed. -/
theorem not_savesAndRestores : ¬ Obligations.SavesAndRestores := by
  intro h
  obtain ⟨-, -, -, hrestore, -⟩ := h refetching 0 0 restoringContext faultedContext (by decide) (by decide)
  obtain ⟨-, hfree, -⟩ := (hrestore (by decide) (by decide)).post (exec_restoreComplete ..) (by decide)
  exact absurd hfree (by decide +kernel)

end Sys2Proof.Machine

end

section
/-! The front of the queue, the state right after POR, recipes and arming: the statements that need no invariant. -/

namespace Sys2Proof.Machine

open Sys2Proof

/-! ### Which fields a change of the module keeps -/

/-- Every instance of a register field outside a list reads as before, as `KeepsFields` says of two states. -/
def Dev.FieldsKept (l : List (Field × Nat)) (s t : Dev) : Prop := ∀ f i, i < 1024 → (f, i) ∉ l → t.rd f i = s.rd f i

namespace Dev.FieldsKept

variable {s t u : Dev} {l m : List (Field × Nat)}

@[simp] theorem refl (l : List (Field × Nat)) (s : Dev) : FieldsKept l s s := fun _ _ _ _ => rfl

theorem trans (h : FieldsKept l s t) (h' : FieldsKept l t u) : FieldsKept l s u :=
  fun f i hi hf => (h' f i hi hf).trans (h f i hi hf)

theorem mono (h : FieldsKept l s t) (hm : ∀ e ∈ l, e ∈ m) : FieldsKept m s t :=
  fun f i hi hf => h f i hi fun he => hf (hm _ he)

/-- Two modules with the same registers read alike. -/
theorem of_regs (h : t.regs = s.regs) (hb : t.voteB = s.voteB) (hc : t.voteC = s.voteC) : FieldsKept l s t :=
  fun f i _ _ => by simp [Dev.rd, h, hb, hc]

theorem wr (h : FieldsKept l s t) {f : Field} {i : Nat} (v : Nat) (hi : i < 1024) (hf : (f, i) ∈ l) : FieldsKept l s (t.wr f i v) :=
  fun g j hj hg => (t.rd_wr_ne f g i j v hi hj fun e => hg (by rw [← e.1, ← e.2]; exact hf)).trans (h g j hj hg)

theorem setFlag (h : FieldsKept l s t) {f : Field} {i : Nat} (b : Bool) (hi : i < 1024) (hf : (f, i) ∈ l) :
    FieldsKept l s (t.setFlag f i b) := h.wr _ hi hf

theorem count (h : FieldsKept l s t) {f : Field} {i : Nat} (hi : i < 1024) (hf : (f, i) ∈ l) :
    FieldsKept l s (t.count f i) := h.wr _ hi hf

theorem countMod (h : FieldsKept l s t) {f : Field} {i : Nat} (hi : i < 1024) (hf : (f, i) ∈ l) :
    FieldsKept l s (t.countMod f i) := h.wr _ hi hf

theorem tally (h : FieldsKept l s t) (code unit partid v0 v1 : Nat) (hl : ∀ e ∈ logFields, e ∈ l) :
    FieldsKept l s (t.tally code unit partid v0 v1) :=
  fun f i hi hf => (t.tally_rd code unit partid v0 v1 f i hi fun he => hf (hl _ he)).trans (h f i hi hf)

theorem traceNote (h : FieldsKept l s t) (src kind data : Nat) (hl : (.OBS_TRC_DROP_COUNT, 0) ∈ l) :
    FieldsKept l s (t.traceNote src kind data) := by
  rcases t.traceNote_only src kind data with ⟨x, hx⟩ | ⟨x, hx⟩ <;> rw [hx]
  · exact h
  · exact (h.wr (f := .OBS_TRC_DROP_COUNT) (i := 0) (satSucc _ _) (by decide) hl : FieldsKept l s (t.count _ _))

end Dev.FieldsKept

/-- What the messages of a command leave alone. -/
theorem keepsFields_of {s : State} {d : Dev} {l : List (Field × Nat)} (h : Dev.FieldsKept l s.toDev d) :
    KeepsFields s { s with toDev := d.notify s.toDev } l :=
  fun f i hi hf => (Dev.notify_rd d s.toDev f i).trans (h f i hi hf)

/-- A command whose effect on the module is known completes in the state that it leaves. -/
theorem Completes.of_effect {c : Instr} {s : State} {P : State → Prop} {f : Dev → Dev} {d : Dev} (h : exec c s = s.run c f)
    (hw : c.wf = true) (hd : f s.toDev = d) (hp : P { s with toDev := d.notify s.toDev }) : Completes c s P :=
  Completes.of_run h hw (hd.symm ▸ hp)

/-- A flag reads as it was written. -/
theorem Dev.flag_wr_toNat (s : Dev) (f : Field) (i : Nat) (b : Bool) (h : 1 < 2 ^ f.desc.width) : (s.wr f i b.toNat).flag f i = b := by
  cases b <;> simp [Dev.flag, wrap, Nat.mod_eq_of_lt h]

@[simp] theorem Dev.status_svc (s : Dev) (n : Nat) : (s.status n).svc = { s.svc with lastStatus := n } := rfl
@[simp] theorem Dev.status_flag (s : Dev) (n : Nat) (f : Field) (i : Nat) : (s.status n).flag f i = s.flag f i := rfl
theorem Dev.status_rest (s : Dev) (n : Nat) : (s.status n).rest = { s.rest with svc := { s.svc with lastStatus := n } } := rfl

/-! ### Tables: what a write of a field and the messages leave alone, and what a table's own update changes -/

section
variable (s b : Dev)

@[simp] theorem Dev.wr_enc (f : Field) (i v ch : Nat) : (s.wr f i v).enc ch = s.enc ch := by simp [Dev.enc]
@[simp] theorem Dev.notify_enc (ch : Nat) : (s.notify b).enc ch = s.enc ch := by simp [Dev.enc]
theorem Dev.setEnc_rest (ch : Nat) (e : Encoder) : (s.setEnc ch e).rest = { s.rest with encs := (s.setEnc ch e).encs } := rfl
@[simp] theorem Dev.wr_gen (f : Field) (i v g : Nat) : (s.wr f i v).gen g = s.gen g := by simp [Dev.gen]
@[simp] theorem Dev.wr_trg (f : Field) (i v t : Nat) : (s.wr f i v).trg t = s.trg t := by simp [Dev.trg]
@[simp] theorem Dev.notify_trg (t : Nat) : (s.notify b).trg t = s.trg t := by simp [Dev.trg]
theorem Dev.setTrg_rest (t : Nat) (e : Trigger) : (s.setTrg t e).rest = { s.rest with trgs := (s.setTrg t e).trgs } := rfl
@[simp] theorem Dev.wr_lane (f : Field) (i v l : Nat) : (s.wr f i v).lane l = s.lane l := by simp [Dev.lane]
@[simp] theorem Dev.notify_lane (l : Nat) : (s.notify b).lane l = s.lane l := by simp [Dev.lane]
theorem Dev.setLane_rest (l : Nat) (e : Lane) : (s.setLane l e).rest = { s.rest with lanes := (s.setLane l e).lanes } := rfl
@[simp] theorem Dev.wr_slot (f : Field) (i v k : Nat) : (s.wr f i v).slot k = s.slot k := by simp [Dev.slot]
@[simp] theorem Dev.notify_slot (k : Nat) : (s.notify b).slot k = s.slot k := by simp [Dev.slot]
theorem Dev.setSlot_rest (k : Nat) (e : RecipeSlot) : (s.setSlot k e).rest = { s.rest with slots := (s.setSlot k e).slots } := rfl
@[simp] theorem Dev.wr_link (f : Field) (i v n : Nat) : (s.wr f i v).link n = s.link n := by simp [Dev.link]
@[simp] theorem Dev.notify_link (n : Nat) : (s.notify b).link n = s.link n := by simp [Dev.link]
theorem Dev.setLink_rest (n : Nat) (e : Link) : (s.setLink n e).rest = { s.rest with links := (s.setLink n e).links } := rfl
@[simp] theorem Dev.wr_ctx (f : Field) (i v c : Nat) : (s.wr f i v).ctx c = s.ctx c := by simp [Dev.ctx]
@[simp] theorem Dev.notify_ctx (c : Nat) : (s.notify b).ctx c = s.ctx c := by simp [Dev.ctx]
theorem Dev.setCtx_rest (c : Nat) (e : StreamCtx) : (s.setCtx c e).rest = { s.rest with ctxs := (s.setCtx c e).ctxs } := rfl
@[simp] theorem Dev.wr_fusion (f : Field) (i v k : Nat) : (s.wr f i v).fusion k = s.fusion k := by simp [Dev.fusion]
@[simp] theorem Dev.notify_fusion (k : Nat) : (s.notify b).fusion k = s.fusion k := by simp [Dev.fusion]
theorem Dev.setFusion_rest (k : Nat) (e : Fusion) : (s.setFusion k e).rest = { s.rest with fusions := (s.setFusion k e).fusions } := rfl
@[simp] theorem Dev.wr_churn (f : Field) (i v n : Nat) : (s.wr f i v).churn n = s.churn n := by simp [Dev.churn]
@[simp] theorem Dev.notify_churn (n : Nat) : (s.notify b).churn n = s.churn n := by simp [Dev.churn]
theorem Dev.setChurn_rest (n : Nat) (e : Churn) : (s.setChurn n e).rest = { s.rest with churns := (s.setChurn n e).churns } := rfl
@[simp] theorem Dev.wr_zport (f : Field) (i v p : Nat) : (s.wr f i v).zport p = s.zport p := by simp [Dev.zport]
@[simp] theorem Dev.notify_zport (p : Nat) : (s.notify b).zport p = s.zport p := by simp [Dev.zport]
theorem Dev.setZport_rest (p : Nat) (e : ZPort) : (s.setZport p e).rest = { s.rest with zports := (s.setZport p e).zports } := rfl
@[simp] theorem Dev.wr_tto (f : Field) (i v t : Nat) : (s.wr f i v).tto t = s.tto t := by simp [Dev.tto]
@[simp] theorem Dev.notify_tto (t : Nat) : (s.notify b).tto t = s.tto t := by simp [Dev.tto]
theorem Dev.setTto_rest (t : Nat) (e : Tto) : (s.setTto t e).rest = { s.rest with ttos := (s.setTto t e).ttos } := rfl
@[simp] theorem Dev.wr_rule (f : Field) (i v r : Nat) : (s.wr f i v).rule r = s.rule r := by simp [Dev.rule]
@[simp] theorem Dev.notify_rule (r : Nat) : (s.notify b).rule r = s.rule r := by simp [Dev.rule]
theorem Dev.setRule_rest (r : Nat) (e : Rule) : (s.setRule r e).rest = { s.rest with rules := (s.setRule r e).rules } := rfl
@[simp] theorem Dev.wr_sc (f : Field) (i v k : Nat) : (s.wr f i v).sc k = s.sc k := by simp [Dev.sc]
@[simp] theorem Dev.wr_byteAt (f : Field) (i v a : Nat) : (s.wr f i v).byteAt a = s.byteAt a := by simp [Dev.byteAt]
@[simp] theorem Dev.notify_byteAt (a : Nat) : (s.notify b).byteAt a = s.byteAt a := by simp [Dev.byteAt]
@[simp] theorem Dev.wr_odNum (f : Field) (i v x y d : Nat) : (s.wr f i v).odNum x y d = s.odNum x y d := by simp [Dev.odNum]
@[simp] theorem Dev.notify_odNum (x y d : Nat) : (s.notify b).odNum x y d = s.odNum x y d := by simp [Dev.odNum]

end

/-! ### The queue and the reset values -/

/-- Settles O1. -/
theorem stepRunsFrontCommand : Obligations.StepRunsFrontCommand :=
  fun _ _ _ => ⟨step_of_cons, rfl, step_of_empty⟩

/-- Settles O2: the reset values are those of the register tables, each read by evaluation. -/
theorem resetValues : Obligations.ResetValues := by
  refine ⟨by decide, by decide, by decide, by decide, by decide, by decide, by decide,
    by decide, by decide, by decide, by decide, by decide, by decide, by decide,
    by decide, fun _ => rfl, fun _ => rfl, by decide, rfl, rfl, rfl, rfl, rfl, rfl, by decide, ?_⟩
  exact fun c hc => absurd hc List.not_mem_nil

/-! ### Recipes, arming and the line stop -/

theorem exec_recipeSwitch (port : Port) (slot : Nat) (s : State) : exec (.recipeSwitch port slot) s =
    s.run (.recipeSwitch port slot) fun d => d.served port 0x3000 2 fun d => d.recipeSwitch port slot := rfl

theorem exec_sepArmWrite (port : Port) (v : Bool) (s : State) : exec (.sepArmWrite port v) s =
    s.run (.sepArmWrite port v) fun d => d.served port 0x4600 3 fun d => d.sepArmWrite port v := rfl

theorem exec_lineStopRelease (s : State) : exec .lineStopRelease s = s.run .lineStopRelease fun d => d.releaseStop := rfl

/-- A write of an entry that arrives by a port at which the service answers has its effect, outside Recovery. -/
theorem Dev.served_of_answers {s : Dev} {p : Port} (index sub : Nat) (f : Dev → Dev) (ha : s.answers p = true) (hp : s.power ≠ .recovery) :
    s.served p index sub f = f s := by
  simp [Dev.served, ha, hp]

/-- Slot 0 is READY, and a switch to slot 1 waits at a position that the line master has reached. -/
def pendingReached : State :=
  { toDev := ({ power := .run, slots := [(0, { st := 2 })], slotNext := some (1, 0) } : Dev).setOd 0x3000 3 65536 }

/-- Refutes O14: a pending switch whose position the line master has reached takes effect before the new one becomes the pending one, so the
current slot changes. -/
theorem not_recipeLoadAndSwitch : ¬ Obligations.RecipeLoadAndSwitch := by
  intro h
  obtain ⟨-, -, hswitch, -⟩ := h pendingReached 0 ⟨0, 0, 0, [], [], [], 0, 0⟩ (by decide) (by decide)
  obtain ⟨-, hnow, -⟩ := (hswitch (by decide) (by decide) (by decide)).post (exec_recipeSwitch ..) (by decide)
  exact absurd hnow (by decide)

/-- Settles O15. -/
theorem armAndLineStop : Obligations.ArmAndLineStop := by
  intro s v
  refine ⟨fun ha hrec hstby hw => ?_, fun hfires hovf hsafe => ?_, fun hstay => ?_⟩
  · have harm : s.served .h 0x4600 3 (fun d => d.sepArmWrite .h v) = (s.setFlag .SEP_CTL_ARM 0 v).status stOk := by
      rw [Dev.served_of_answers _ _ _ ha hrec]
      simp [Dev.sepArmWrite, Dev.armStatus, hw, hstby, show mayWrite rwRwRR .h = true from rfl]
    have hkept : Dev.FieldsKept [(.SEP_CTL_ARM, 0)] s.toDev (s.setFlag .SEP_CTL_ARM 0 v) :=
      (Dev.FieldsKept.refl _ _).setFlag v (by decide) (by decide)
    refine Completes.of_effect (exec_sepArmWrite ..) rfl harm ⟨?_, by simp, keepsFields_of hkept, by simp [Dev.status_rest]⟩
    simpa [Dev.notify_flag] using s.flag_wr_toNat .SEP_CTL_ARM 0 v (by decide)
  · have hrel : s.releaseStop = s.setFlag .SEP_STAT_LSTOP 0 false := by
      simp [Dev.releaseStop, Dev.mayRelease, hfires, hovf, hsafe]
    have hkept : Dev.FieldsKept [(.SEP_STAT_LSTOP, 0)] s.toDev (s.setFlag .SEP_STAT_LSTOP 0 false) :=
      (Dev.FieldsKept.refl _ _).setFlag false (by decide) (by decide)
    exact Completes.of_effect (exec_lineStopRelease _) rfl hrel ⟨by simp [Dev.flag, wrap], keepsFields_of hkept, by simp⟩
  · have hrel : s.releaseStop = s.toDev := by
      unfold Dev.releaseStop Dev.mayRelease
      rcases hstay with h | h | h
      · simp [show ¬s.fires.length ≤ 64512 by omega]
      · simp [show ¬s.inOverflow < 256 by omega]
      · simp [h]
    exact Completes.of_effect (exec_lineStopRelease _) rfl hrel ⟨keepsFields_of (Dev.FieldsKept.refl _ _), by simp⟩

end Sys2Proof.Machine

end

section
/-! A calculus of what a change of the module leaves alone: which register fields may have changed, and which part of the rest of the module
has not. -/

namespace Sys2Proof.Machine

open Sys2Proof

/-- From `s` to `t` only register fields of `l` have changed, and the part `m` of what the module holds beside them has not. -/
structure Dev.Within {α : Type} (l : List (Field × Nat)) (m : Dev → α) (s t : Dev) : Prop where
  fields : FieldsKept l s t
  same : m t.rest = m s.rest

/-- A part of the module that no Tally event changes. -/
def Dev.Quiet {α : Type} (m : Dev → α) : Prop := ∀ d e : Dev, d.body = e.body → m d.rest = m e.rest

namespace Dev.Within

variable {α : Type} {l k : List (Field × Nat)} {m : Dev → α} {s t u : Dev}

theorem refl (l : List (Field × Nat)) (m : Dev → α) (s : Dev) : Within l m s s := ⟨.refl l s, rfl⟩

theorem trans (h : Within l m s t) (h' : Within l m t u) : Within l m s u := ⟨h.fields.trans h'.fields, h'.same.trans h.same⟩

theorem mono (h : Within l m s t) (hk : ∀ e ∈ l, e ∈ k) : Within k m s t := ⟨h.fields.mono hk, h.same⟩

/-- A change that touches no register field. -/
theorem step (h : Within l m s t) (hr : u.regs = t.regs) (hb : u.voteB = t.voteB) (hc : u.voteC = t.voteC) (hm : m u.rest = m t.rest) :
    Within l m s u := ⟨h.fields.trans (.of_regs hr hb hc), hm.trans h.same⟩

theorem wr (h : Within l m s t) {f : Field} {i : Nat} (v : Nat) (hi : i < 1024) (hf : (f, i) ∈ l) : Within l m s (t.wr f i v) :=
  ⟨h.fields.wr v hi hf, (congrArg m (t.wr_rest f i v)).trans h.same⟩

theorem setFlag (h : Within l m s t) {f : Field} {i : Nat} (b : Bool) (hi : i < 1024) (hf : (f, i) ∈ l) :
    Within l m s (t.setFlag f i b) := h.wr _ hi hf

theorem count (h : Within l m s t) {f : Field} {i : Nat} (hi : i < 1024) (hf : (f, i) ∈ l) : Within l m s (t.count f i) := h.wr _ hi hf

theorem countMod (h : Within l m s t) {f : Field} {i : Nat} (hi : i < 1024) (hf : (f, i) ∈ l) : Within l m s (t.countMod f i) := h.wr _ hi hf

theorem orBits (h : Within l m s t) {f : Field} {i : Nat} (v : Nat) (hi : i < 1024) (hf : (f, i) ∈ l) : Within l m s (t.orBits f i v) :=
  h.wr _ hi hf

theorem tally (h : Within l m s t) (code unit partid v0 v1 : Nat) (hl : ∀ e ∈ logFields, e ∈ l) (hm : Quiet m) :
    Within l m s (t.tally code unit partid v0 v1) :=
  ⟨h.fields.tally code unit partid v0 v1 hl, (hm _ _ (t.tally_body code unit partid v0 v1)).trans h.same⟩

theorem observe (h : Within l m s t) (k n : Nat) (hm : Quiet m) : Within l m s (t.observe k n) :=
  h.step rfl rfl rfl (hm _ _ rfl)

theorem traceNote (h : Within l m s t) (src kind data : Nat) (hl : (.OBS_TRC_DROP_COUNT, 0) ∈ l) (hm : Quiet m) :
    Within l m s (t.traceNote src kind data) :=
  ⟨h.fields.traceNote src kind data hl, (hm _ _ (t.traceNote_body src kind data)).trans h.same⟩

/-- A fold of changes is such a change. -/
theorem foldl {β : Type} {f : Dev → β → Dev} (xs : List β) (h : Within l m s t) (hf : ∀ d, ∀ x ∈ xs, Within l m d (f d x)) :
    Within l m s (xs.foldl f t) := by
  induction xs generalizing t with
  | nil => exact h
  | cons x xs ih =>
    exact ih (h.trans (hf t x List.mem_cons_self)) fun d y hy => hf d y (List.mem_cons_of_mem _ hy)

theorem rd (h : Within l m s t) {f : Field} {i : Nat} (hi : i < 1024) (hf : (f, i) ∉ l) : t.rd f i = s.rd f i := h.fields f i hi hf

theorem flag (h : Within l m s t) {f : Field} {i : Nat} (hi : i < 1024) (hf : (f, i) ∉ l) : t.flag f i = s.flag f i := by
  simp only [Dev.flag, h.rd hi hf]

theorem kept {s : State} {t : Dev} (h : Within l m s.toDev t) : KeepsFields s { s with toDev := t.notify s.toDev } l :=
  keepsFields_of h.fields

end Dev.Within

end Sys2Proof.Machine

end

section
/-! Encoder channels and compare generators (R227, R229, R241 to R243). -/

namespace Sys2Proof.Machine

open Sys2Proof

/-- A saturating counter fits its width. -/
theorem wrap_satSucc (w n : Nat) : wrap w (satSucc w n) = satSucc w n := by
  have := Nat.two_pow_pos w
  unfold wrap satSucc
  split
  · exact Nat.mod_eq_of_lt (by omega)
  · exact Nat.mod_eq_of_lt (by omega)

/-! ### The motion of a channel -/

/-- What the module holds beside what a Tally event, and a channel's motion, change. -/
def Dev.butMotion (s : Dev) : Dev := { s.body with encs := [], peak := 0 }

theorem Dev.quiet_butMotion : Quiet butMotion := fun d e h => by
  simp only [butMotion, rest_body, h]

theorem Dev.body_of_butMotion {s t : Dev} (h : t.rest.butMotion = s.rest.butMotion) :
    t.body = { s.body with encs := t.encs, peak := t.peak } :=
  (congrArg (fun d : Dev => { d with encs := t.encs, peak := t.peak }) h :)

theorem Dev.within_setEnc {l : List (Field × Nat)} {s t : Dev} (h : Within l butMotion s t) (ch : Nat) (e : Encoder) :
    Within l butMotion s (t.setEnc ch e) := h.step rfl rfl rfl rfl

theorem Dev.within_peak {l : List (Field × Nat)} {s t : Dev} (h : Within l butMotion s t) (p : Nat) :
    Within l butMotion s { t with peak := p } := h.step rfl rfl rfl rfl

theorem Dev.within_masterTurn (s : Dev) (ch c : Nat) (rev : Bool) (peak : Nat) : Within (turnFields c) butMotion s (s.masterTurn ch rev peak) := by
  have hlog : ∀ e ∈ logFields, e ∈ turnFields c := by simp +contextual [turnFields]
  have hflags := ((Within.refl (turnFields c) butMotion s).setFlag (f := .ENC_MSTAT_DIR) (i := 0) rev (by decide) (by simp [turnFields])).setFlag
    (f := .ENC_MSTAT_DIRCHG) (i := 0) true (by decide) (by simp [turnFields])
  unfold masterTurn
  dsimp only
  split
  · exact (within_peak hflags peak).tally _ _ _ _ _ hlog quiet_butMotion
  · exact hflags.tally _ _ _ _ _ hlog quiet_butMotion

theorem Dev.within_turn (s : Dev) {ch : Nat} (hch : ch < 1024) (rev : Bool) (ext : Nat) :
    Within (turnFields ch) butMotion s (s.turn ch rev ext) := by
  have hflags := ((Within.refl (turnFields ch) butMotion s).setFlag (f := .ENC_STAT_DIR) rev hch (by simp [turnFields])).setFlag
    (f := .ENC_STAT_DIRCHG) true hch (by simp [turnFields])
  unfold turn
  dsimp only
  split
  · exact hflags
  · exact hflags.trans (within_masterTurn _ _ _ _ _)

theorem Dev.within_direction (s : Dev) {ch : Nat} (hch : ch < 1024) : Within (turnFields ch) butMotion s (s.direction ch) := by
  have hset (e : Encoder) := within_setEnc (.refl (turnFields ch) butMotion s) ch e
  have hturn (e : Encoder) (rev : Bool) (ext : Nat) := (hset e).trans (within_turn (s.setEnc ch e) hch rev ext)
  unfold direction
  dsimp only
  repeat' split
  · exact hset _
  · exact hturn _ _ _
  · exact .refl _ _ s
  · exact hset _
  · exact hturn _ _ _
  · exact .refl _ _ s

theorem moveBy_lt (p : Nat) (d : Int) : moveBy p d < 2 ^ 64 := by
  unfold moveBy unsgn
  omega

/-- A channel that moves keeps every field but its position and those of its direction, and reads the moved position. -/
theorem Dev.moveEnc_within (s : Dev) {ch : Nat} (hch : ch < 1024) (n : Int) :
    Within ((.ENC_POS, ch) :: turnFields ch) butMotion s (s.moveEnc ch n) ∧
      (s.moveEnc ch n).rd .ENC_POS ch =
        moveBy (s.rd .ENC_POS ch) ((if s.flag .ENC_CFG_INV ch then -n else n) * 65536) := by
  have hdir (d : Dev) := d.within_direction hch
  constructor
  · exact ((Within.refl _ _ s).wr _ hch List.mem_cons_self).trans ((hdir _).mono fun _ he => List.mem_cons_of_mem _ he)
  · unfold moveEnc
    dsimp only
    rw [(hdir _).rd hch (by simp [turnFields, logFields]), Dev.rd_wr]
    exact Nat.mod_eq_of_lt (moveBy_lt _ _)

theorem exec_encoderEdge (ch : Fin 4) (kind : EdgeKind) (s : State) :
    exec (.encoderEdge ch kind) s = s.run (.encoderEdge ch kind) fun d => d.encoderEdge ch kind := rfl

/-- A good transition of a channel: its phase or the end of a fault's cause is noted, and it moves. -/
theorem Dev.moveEnc_setEnc (s : Dev) {ch : Nat} (hch : ch < 1024) (e : Encoder) (n : Int) :
    Within ((.ENC_POS, ch) :: turnFields ch) butMotion s ((s.setEnc ch e).moveEnc ch n) ∧
      ((s.setEnc ch e).moveEnc ch n).rd .ENC_POS ch =
        moveBy (s.rd .ENC_POS ch) ((if s.flag .ENC_CFG_INV ch then -n else n) * 65536) := by
  obtain ⟨hwithin, hpos⟩ := (s.setEnc ch e).moveEnc_within hch n
  exact ⟨(within_setEnc (.refl _ _ s) ch e).trans hwithin, by simpa [Dev.flag] using hpos⟩

/-- A transition that moves a channel, up or down, completes in a state in which the channel has moved. -/
theorem completes_encoderEdge_moved {s : State} {ch : Fin 4} {up : Bool} {e : Encoder} {n : Int}
    (h : s.encoderEdge ch (if up then .up else .down) = (s.setEnc ch e).moveEnc ch (if up then n else -n)) :
    Completes (.encoderEdge ch (if up then .up else .down)) s fun t =>
      t.rd .ENC_POS ch = moveBy (s.rd .ENC_POS ch) (if up = s.flag .ENC_CFG_INV ch then -(65536 * n) else 65536 * n) ∧
      KeepsFields s t ((.ENC_POS, ch) :: turnFields ch) ∧ t.body = { s.body with encs := t.encs, peak := t.peak } := by
  obtain ⟨hwithin, hpos⟩ := s.moveEnc_setEnc (show (ch : Nat) < 1024 by omega) e (if up then n else -n)
  refine Completes.of_effect (exec_encoderEdge ..) (by cases up <;> rfl) h ⟨?_, hwithin.kept, ?_⟩
  · rw [Dev.notify_rd, hpos]
    cases up <;> cases s.flag .ENC_CFG_INV ch <;> simp <;> ring_nf
  · simpa using Dev.body_of_butMotion hwithin.same

/-- Settles O6. -/
theorem encoderEdges : Obligations.EncoderEdges := by
  intro s ch hon
  have hch : (ch : Nat) < 1024 := by omega
  refine ⟨fun up htype => ?_, fun htype => ?_, fun up htype => ?_⟩
  · refine completes_encoderEdge_moved (n := 1) (e := { s.enc ch with present := false }) ?_
    cases up <;> simp [Dev.encoderEdge, hon, htype]
  · have hedge : s.encoderEdge ch .illegal = (s.count .ENC_ERRCNT_COUNT ch).detect ch 2 false := by simp [Dev.encoderEdge, hon, htype]
    have hkept : Dev.FieldsKept [(.ENC_ERRCNT_COUNT, ch)] s.toDev ((s.count .ENC_ERRCNT_COUNT ch).detect ch 2 false) :=
      (Dev.FieldsKept.refl _ _).count hch (by simp)
    refine Completes.of_effect (exec_encoderEdge ..) rfl hedge ⟨?_, fun h => ?_, keepsFields_of hkept, ?_⟩
    · simp [Dev.detect, wrap_satSucc]
      rfl
    · simp [Dev.detect, h]
    · simp [Dev.detect, Dev.setEnc_rest]
  · have h := completes_encoderEdge_moved (s := s) (ch := ch) (up := up) (n := (s.quarter ch : Nat)) 
      (e := { s.enc ch with phase := (s.enc ch).phase.map fun f => if up then (f + 1024) % 4096 else (f + 3072) % 4096 }) ?_
    · exact_mod_cast h
    · cases up <;> simp [Dev.encoderEdge, hon, htype, Dev.quarter]

end Sys2Proof.Machine

end

section
/-! What the shared operations leave alone, as rules of the calculus `Dev.Within`: each asks of the part `m` that it does not look at what the
operation changes. -/

namespace Sys2Proof.Machine

open Sys2Proof

namespace Dev.Within

variable {α : Type} {l : List (Field × Nat)} {m : Dev → α} {s t : Dev}

/-! ### Tables and what the module has sent -/

theorem send (h : Within l m s t) (o : Out) : Within l m s (t.send o) := h.step rfl rfl rfl rfl

theorem setEnc (h : Within l m s t) (ch : Nat) (e : Encoder) (hm : ∀ d x, m { d with encs := x } = m d) : Within l m s (t.setEnc ch e) :=
  h.step rfl rfl rfl (hm t.rest _)
theorem setGen (h : Within l m s t) (g : Nat) (e : Generator) (hm : ∀ d x, m { d with gens := x } = m d) : Within l m s (t.setGen g e) :=
  h.step rfl rfl rfl (hm t.rest _)
theorem setTrg (h : Within l m s t) (k : Nat) (e : Trigger) (hm : ∀ d x, m { d with trgs := x } = m d) : Within l m s (t.setTrg k e) :=
  h.step rfl rfl rfl (hm t.rest _)
theorem setLane (h : Within l m s t) (k : Nat) (e : Lane) (hm : ∀ d x, m { d with lanes := x } = m d) : Within l m s (t.setLane k e) :=
  h.step rfl rfl rfl (hm t.rest _)
theorem setSlot (h : Within l m s t) (k : Nat) (e : RecipeSlot) (hm : ∀ d x, m { d with slots := x } = m d) : Within l m s (t.setSlot k e) :=
  h.step rfl rfl rfl (hm t.rest _)
theorem setLink (h : Within l m s t) (n : Nat) (e : Link) (hm : ∀ d x, m { d with links := x } = m d) : Within l m s (t.setLink n e) :=
  h.step rfl rfl rfl (hm t.rest _)
theorem setCtx (h : Within l m s t) (c : Nat) (e : StreamCtx) (hm : ∀ d x, m { d with ctxs := x } = m d) : Within l m s (t.setCtx c e) :=
  h.step rfl rfl rfl (hm t.rest _)
theorem setFusion (h : Within l m s t) (k : Nat) (e : Fusion) (hm : ∀ d x, m { d with fusions := x } = m d) :
    Within l m s (t.setFusion k e) := h.step rfl rfl rfl (hm t.rest _)
theorem setChurn (h : Within l m s t) (n : Nat) (e : Churn) (hm : ∀ d x, m { d with churns := x } = m d) : Within l m s (t.setChurn n e) :=
  h.step rfl rfl rfl (hm t.rest _)
theorem setZport (h : Within l m s t) (p : Nat) (e : ZPort) (hm : ∀ d x, m { d with zports := x } = m d) : Within l m s (t.setZport p e) :=
  h.step rfl rfl rfl (hm t.rest _)
theorem setRule (h : Within l m s t) (r : Nat) (e : Rule) (hm : ∀ d x, m { d with rules := x } = m d) : Within l m s (t.setRule r e) :=
  h.step rfl rfl rfl (hm t.rest _)

/-- A free value has been used, or several. -/
theorem free (h : Within l m s t) (n : Nat) (hm : ∀ d x, m { d with free := x } = m d) : Within l m s { t with free := n } :=
  h.step rfl rfl rfl (hm t.rest _)

theorem useFree (h : Within l m s t) (hm : ∀ d x, m { d with free := x } = m d) : Within l m s t.useFree := h.free _ hm

theorem scAdd (h : Within l m s t) (k n : Nat) (hm : ∀ d x, m { d with sync := x } = m d) : Within l m s (t.scAdd k n) :=
  h.step rfl rfl rfl (hm t.rest _)

/-! ### Memory -/

theorem mem (h : Within l m s t) (x : List Host.Cell) (hm : ∀ d x, m { d with mem := x } = m d) : Within l m s { t with mem := x } :=
  h.step rfl rfl rfl (hm t.rest _)

theorem putByte (h : Within l m s t) (a : Nat) (b : Byte) (hm : ∀ d x, m { d with mem := x } = m d) : Within l m s (t.putByte a b) := by
  unfold Dev.putByte
  split
  · exact h.mem _ hm
  · exact h

theorem putBytes (h : Within l m s t) (a : Nat) (bs : List Byte) (hm : ∀ d x, m { d with mem := x } = m d) :
    Within l m s (t.putBytes a bs) := by
  induction bs generalizing t a with
  | nil => exact h
  | cons b bs ih => exact ih (h.putByte a b hm) (a + 1)

theorem leWrite (h : Within l m s t) (a len v : Nat) (hm : ∀ d x, m { d with mem := x } = m d) : Within l m s (t.leWrite a len v) :=
  h.putBytes a _ hm

theorem copyBytes (h : Within l m s t) (a b n : Nat) (hm : ∀ d x, m { d with mem := x } = m d) : Within l m s (t.copyBytes a b n) :=
  .foldl _ (h.mem _ hm) fun d _ _ => (refl l m d).putByte _ _ hm

/-! ### Sending over the Zanyx link -/

theorem emit (h : Within l m s t) (p seq : Nat) (f : ZFrame) (hm : ∀ d x, m { d with zports := x } = m d) : Within l m s (t.emit p seq f) :=
  (h.setZport p _ hm).send _

theorem zSend (h : Within l m s t) (p : Nat) (f : ZFrame) (hm : ∀ d x, m { d with zports := x } = m d) : Within l m s (t.zSend p f) := by
  unfold Dev.zSend
  dsimp only
  repeat' split
  · exact h.setZport _ _ hm
  · exact (h.setZport _ _ hm).emit _ _ _ hm
  · exact h.emit _ _ _ hm
  · exact h

theorem zBroadcast (h : Within l m s t) (e : Option Nat) (f : ZFrame) (hm : ∀ d x, m { d with zports := x } = m d) :
    Within l m s (t.zBroadcast e f) := by
  refine .foldl _ h fun d p _ => ?_
  split
  · exact (refl l m d).zSend p f hm
  · exact .refl l m d

theorem toManager (h : Within l m s t) (x : ZPayload) (hm : ∀ d x, m { d with zports := x } = m d) : Within l m s (t.toManager x) :=
  h.zSend _ _ hm

theorem toAll (h : Within l m s t) (x : ZPayload) (hm : ∀ d x, m { d with zports := x } = m d) : Within l m s (t.toAll x) :=
  h.zBroadcast _ _ hm

/-! ### Marks -/

/-- An opened mark reaches the parts in flight; a worker sends it to the manager (R329). -/
theorem openMark (h : Within l m s t) (k : Mark)
    (hm : ∀ d marks parts herd zports, m { d with marks := marks, parts := parts, herd := herd, zports := zports } = m d) :
    Within l m s (t.openMark k) := by
  have hnoted (marks : List Mark) (herd : Herd) : Within l m s { t with marks := marks, herd := herd } :=
    h.step rfl rfl rfl (hm t.rest marks t.parts herd t.zports)
  unfold Dev.openMark
  dsimp only
  split
  · exact (hnoted _ _).toManager _ fun d x => hm d d.marks d.parts d.herd x
  · exact h.step rfl rfl rfl (hm t.rest _ _ t.herd t.zports)

theorem closeMark (h : Within l m s t) (src : MarkSource) (fin : Nat) (hm : ∀ d marks zports, m { d with marks := marks, zports := zports } = m d) :
    Within l m s (t.closeMark src fin) := by
  have hmarks (x : List Mark) : Within l m s { t with marks := x } := h.step rfl rfl rfl (hm t.rest x t.zports)
  unfold Dev.closeMark
  dsimp only
  split
  · exact .foldl _ (hmarks _) fun d _ _ => (refl l m d).toManager _ fun d x => hm d d.marks x
  · exact hmarks _

end Dev.Within

end Sys2Proof.Machine

end

section
/-! What stream intake leaves alone: fusion contexts, blocks, gaps and breaks (R62 to R77, R95, R96, R291). -/

namespace Sys2Proof.Machine

open Sys2Proof

theorem mem_upTo {k n : Nat} : k ∈ upTo n ↔ k < n := by
  induction n with
  | zero => simp [upTo]
  | succ n ih => simp [upTo, ih]; omega

theorem lt_of_mem_upTo {k n : Nat} (h : k ∈ upTo n) : k < n := mem_upTo.1 h

namespace Dev.Within

variable {α : Type} {l : List (Field × Nat)} {m : Dev → α} {s t : Dev}

/-- Doing a change a number of times over is such a change. -/
theorem iter {f : Dev → Dev} (n : Nat) (h : Within l m s t) (hf : ∀ d, Within l m d (f d)) : Within l m s (Machine.iter f n t) := by
  induction n generalizing t with
  | zero => exact h
  | succ n ih => exact ih (h.trans (hf t))

theorem wakeFor (h : Within l m s t) (sc : Nat) (hl : ∀ n < 16, (.CHN_STAT_PWR, n) ∈ l) : Within l m s (t.wakeFor sc) := by
  unfold Dev.wakeFor
  dsimp only
  split
  · rename_i n hn
    have hlt : n < 16 := lt_of_mem_upTo (List.mem_of_find?_eq_some hn)
    split
    · exact h.wr 1 (by omega) (hl n hlt)
    · exact h
  · exact h

/-! ### Fusion contexts (R76, R77) -/

theorem fusCommit (h : Within l m s t) {f : Nat} (hf : f < 16) (hl : (.ITK_FUS_STAT_CMTERR, f) ∈ l)
    (hm : ∀ d x, m { d with fusions := x } = m d) : Within l m s (t.fusCommit f) := by
  unfold Dev.fusCommit
  split
  · exact h.setFusion _ _ hm
  · exact h.setFlag true (by omega) hl

theorem fusRefresh (h : Within l m s t) (c : Nat) (hl : ∀ f < 16, (.ITK_FUS_STAT_CMTERR, f) ∈ l)
    (hm : ∀ d x, m { d with fusions := x } = m d) : Within l m s (t.fusRefresh c) := by
  refine .foldl _ h fun d f hf => ?_
  have hf : f < 16 := lt_of_mem_upTo hf
  dsimp only
  repeat' split
  · exact (refl l m d).fusCommit hf (hl f hf) hm
  · exact (refl l m d).setFusion _ _ hm
  · exact .refl l m d

theorem fusSettle (h : Within l m s t) {f : Nat} (hf : f < 16) (hl : (.ITK_FUS_STAT_ABSENT, f) ∈ l)
    (hm : ∀ d x y, m { d with fusions := x, sync := y } = m d) : Within l m s (t.fusSettle f) := by
  refine .foldl _ (h.setFusion _ _ fun d x => hm d x d.sync) fun d v _ => ?_
  exact ((refl l m d).wr _ (by omega) hl).scAdd _ _ fun d y => hm d d.fusions y

theorem fusNotify (h : Within l m s t) (c start : Nat) (fin : Option Nat) (gap : Bool) (hl : ∀ f < 16, (.ITK_FUS_STAT_ABSENT, f) ∈ l)
    (hm : ∀ d x y, m { d with fusions := x, sync := y } = m d) : Within l m s (t.fusNotify c start fin gap) := by
  refine .foldl _ h fun d f hf => ?_
  have hf : f < 16 := lt_of_mem_upTo hf
  dsimp only
  split
  · exact .refl l m d
  · exact ((refl l m d).setFusion _ _ fun d x => hm d x d.sync).fusSettle hf (hl f hf) hm

theorem fusCloseGap (h : Within l m s t) (c fin : Nat) (hm : ∀ d x, m { d with fusions := x } = m d) : Within l m s (t.fusCloseGap c fin) :=
  .foldl _ h fun d _ _ => (refl l m d).setFusion _ _ hm

/-! ### Complete blocks (R96, R291) -/

theorem captureBlock (h : Within l m s t) (c : Nat) (b : Block) (record : List Byte) (hwr : (.TCH_RING_WR, 0) ∈ l)
    (hcnt : (.TCH_CAPLOST_CNT, 0) ∈ l) (hlost : (.TCH_STAT_CAPLOST, 0) ∈ l)
    (hm : ∀ d x y z, m { d with mem := x, ring := y, capUsed := z } = m d) : Within l m s (t.captureBlock c b record) := by
  have hring {t : Dev} (h : Within l m s t) (r : List RingCopy) : Within l m s { t with ring := r } :=
    h.step rfl rfl rfl (hm t.rest t.mem r t.capUsed)
  have hcap {t : Dev} (h : Within l m s t) (n : Nat) : Within l m s (t.useCap n) :=
    h.step rfl rfl rfl (hm t.rest t.mem t.ring _)
  have hmem (d : Dev) (x : List Host.Cell) : m { d with mem := x } = m d := hm d x d.ring d.capUsed
  unfold Dev.captureBlock
  dsimp only
  split
  · exact hring h _
  · split
    · exact hring ((h.count (by decide) hcnt).setFlag true (by decide) hlost) _
    · exact hring (hcap (((h.putBytes _ _ hmem).copyBytes _ _ _ hmem).wr _ (by decide) hwr) _) _

theorem writeStats (h : Within l m s t) (c : Nat) (b : Block) (hm : ∀ d x y, m { d with mem := x, ctxs := y } = m d) :
    Within l m s (t.writeStats c b) :=
  .foldl _ h fun d _ _ => ((refl l m d).putBytes _ _ fun d x => hm d x d.ctxs).setCtx _ _ fun d y => hm d d.mem y

end Dev.Within

/-- The fields that the gap of a context, opened, may change (R73, R76). -/
def gapFields (c : Nat) : List (Field × Nat) :=
  [(.ITK_CTX_GAP_START, c), (.ITK_CTX_GAP_END, c), (.ITK_CTX_STAT_GAPOPEN, c)] ++ (upTo 16).map fun f => (.ITK_FUS_STAT_ABSENT, f)

theorem gapFields_sub (c : Nat) : ∀ e ∈ gapFields c, e ∈ breakFields c := by
  intro e he
  simp only [gapFields, List.mem_append, List.mem_map, mem_upTo] at he
  obtain he | ⟨f, hf, rfl⟩ := he
  · simp only [List.mem_cons, List.not_mem_nil, or_false] at he
    rcases he with rfl | rfl | rfl <;> simp [breakFields]
  · simp [breakFields, mem_upTo, hf]

/-- A part of the module that no block of stream intake changes. -/
def Dev.ApartFromBlocks {α : Type} (m : Dev → α) : Prop :=
  ∀ d ctxs marks parts fusions sync herd zports mem ring capUsed free,
    m { d with ctxs := ctxs, marks := marks, parts := parts, fusions := fusions, sync := sync, herd := herd, zports := zports, mem := mem,
               ring := ring, capUsed := capUsed, free := free } = m d

namespace Dev.Within

variable {α : Type} {l : List (Field × Nat)} {m : Dev → α} {s t : Dev} {c : Nat}

theorem markOfBlock (h : Within l m s t) (k : Mark) (hm : ApartFromBlocks m) : Within l m s (t.openMark k) :=
  h.openMark k fun d a b e z => hm d d.ctxs a b d.fusions d.sync e z d.mem d.ring d.capUsed d.free

theorem ctxOfBlock (h : Within l m s t) (c : Nat) (x : StreamCtx) (hm : ApartFromBlocks m) : Within l m s (t.setCtx c x) :=
  h.setCtx c x fun d a => hm d a d.marks d.parts d.fusions d.sync d.herd d.zports d.mem d.ring d.capUsed d.free

theorem notifyOfBlock (h : Within l m s t) (start : Nat) (fin : Option Nat) (gap : Bool) (hl : ∀ e ∈ breakFields c, e ∈ l)
    (hm : ApartFromBlocks m) : Within l m s (t.fusNotify c start fin gap) :=
  h.fusNotify c start fin gap (fun f hf => hl _ (by simp [breakFields, mem_upTo, hf]))
    fun d x y => hm d d.ctxs d.marks d.parts x y d.herd d.zports d.mem d.ring d.capUsed d.free

theorem completeBlock (h : Within l m s t) (b : Block) (hl : ∀ e ∈ breakFields c, e ∈ l) (hm : ApartFromBlocks m) :
    Within l m s (t.completeBlock c b) := by
  have hrecord := (((h.writeStats c b fun d x y => hm d y d.marks d.parts d.fusions d.sync d.herd d.zports x d.ring d.capUsed d.free).putBytes
    (recordAt b.pp b.seq) ((t.writeStats c b).blockRecord c b)
    fun d x => hm d d.ctxs d.marks d.parts d.fusions d.sync d.herd d.zports x d.ring d.capUsed d.free).free
    ((t.writeStats c b).free + 2) fun d x => hm d d.ctxs d.marks d.parts d.fusions d.sync d.herd d.zports d.mem d.ring d.capUsed x).scAdd
    (setting b.pp .ITK_PP_SYNC_SC) 1 fun d x => hm d d.ctxs d.marks d.parts d.fusions x d.herd d.zports d.mem d.ring d.capUsed d.free
  have hcapture {t : Dev} (h : Within l m s t) (record : List Byte) : Within l m s (t.captureBlock c b record) :=
    h.captureBlock c b record (hl _ (by simp [breakFields])) (hl _ (by simp [breakFields])) (hl _ (by simp [breakFields]))
      fun d x y z => hm d d.ctxs d.marks d.parts d.fusions d.sync d.herd d.zports x y z d.free
  unfold Dev.completeBlock
  dsimp only
  refine hcapture ?_ _
  split
  · exact hrecord.markOfBlock _ hm
  · exact hrecord

theorem finishHead (h : Within l m s t) (hl : ∀ e ∈ breakFields c, e ∈ l) (hm : ApartFromBlocks m) : Within l m s (t.finishHead c) := by
  unfold Dev.finishHead
  split
  · split
    · exact (h.ctxOfBlock _ _ hm).completeBlock _ hl hm
    · exact h
  · exact h

theorem finishBlocks (h : Within l m s t) (hl : ∀ e ∈ breakFields c, e ∈ l) (hm : ApartFromBlocks m) : Within l m s (t.finishBlocks c) :=
  h.iter _ fun d => (refl l m d).finishHead hl hm

/-! ### Blocks, gaps and breaks (R66, R73, R95) -/

theorem openBlock (h : Within l m s t) (start : Nat) (hl : ∀ e ∈ breakFields c, e ∈ l) (hm : ApartFromBlocks m) :
    Within l m s (t.openBlock c start) := by
  have hopen {t : Dev} (h : Within l m s t) (x : StreamCtx) (n sc : Nat) :
      Within l m s ((({ t.setCtx c x with free := n }).fusRefresh c).wakeFor sc) := by
    refine Within.wakeFor (.fusRefresh ((h.ctxOfBlock c x hm).free n ?_) c (fun f hf => hl _ ?_) ?_) sc fun n hn => hl _ ?_
    · exact fun d x => hm d d.ctxs d.marks d.parts d.fusions d.sync d.herd d.zports d.mem d.ring d.capUsed x
    · simp [breakFields, mem_upTo, hf]
    · exact fun d x => hm d d.ctxs d.marks d.parts x d.sync d.herd d.zports d.mem d.ring d.capUsed d.free
    · simp [breakFields, mem_upTo, hn]
  unfold Dev.openBlock
  exact hopen h _ _ _

/-- A block closes in three parts: its context has none, what says so changes apart from the contexts, and what the pipes are done with is
complete. -/
theorem closeBlock_parts (hc : c < 1024) (fin : Nat) (broken : Bool) {b : Block} (hb : (t.ctx c).block = some b) :
    ∃ x d, x.block = none ∧ t.closeBlock c fin broken = d.finishBlocks c ∧
      ∀ {α : Type} (m : Dev → α), (∀ d a b e z f y, m { d with marks := a, parts := b, herd := e, zports := z, fusions := f, sync := y } = m d) →
        Quiet m → Within (breakFields c) m (t.setCtx c x) d := by
  unfold Dev.closeBlock
  dsimp only
  rw [hb]
  let x : StreamCtx := { t.ctx c with
    block := none, closing := (t.ctx c).closing ++ [{ b with closed := true, broken := broken, fin := fin }], fresh := broken
    halo := if broken then [] else (b.halo ++ b.lines).drop ((b.halo ++ b.lines).length - 8) }
  refine ⟨x, _, rfl, rfl, fun m hm hq => ?_⟩
  refine Within.fusNotify ?_ _ _ _ _ (fun f hf => by simp [breakFields, mem_upTo, hf]) fun d f y => hm d d.marks d.parts d.herd d.zports f y
  have hlog : ∀ e ∈ logFields, e ∈ breakFields c := fun e he => by simp [breakFields, he]
  have hnoted {s t : Dev} (h : Within (breakFields c) m s t) :
      Within (breakFields c) m s (if broken = true then t.setFlag .ITK_CTX_STAT_BROKEN c true else t) := by
    split
    · exact h.setFlag true hc (by simp [breakFields])
    · exact h
  have hclosed (s : Dev) (n d : Nat) : Within (breakFields c) m s ((s.wr .ITK_PP_BLKSEQ c n).traceNote 18 1 d) :=
    ((Within.refl _ m s).wr n hc (by simp [breakFields])).traceNote _ _ _ (by simp [breakFields, logFields]) hq
  split
  · exact hnoted (hclosed _ _ _)
  · exact ((hnoted (hclosed _ _ _)).openMark _ fun d a b e z => hm d a b e z d.fusions d.sync).tally _ _ _ _ _ hlog hq

theorem closeBlock (h : Within l m s t) (hc : c < 1024) (fin : Nat) (broken : Bool) (hl : ∀ e ∈ breakFields c, e ∈ l)
    (hm : ApartFromBlocks m) (hq : Quiet m) : Within l m s (t.closeBlock c fin broken) := by
  cases hb : (t.ctx c).block with
  | none => simpa [Dev.closeBlock, hb] using h
  | some b =>
    obtain ⟨x, d, -, hd, hwithin⟩ := closeBlock_parts hc fin broken hb
    rw [hd]
    refine Within.finishBlocks ((h.ctxOfBlock c x hm).trans ((hwithin m ?_ hq).mono hl)) hl hm
    exact fun d a b e z f y => hm d d.ctxs a b f y e z d.mem d.ring d.capUsed d.free

theorem openGap (h : Within l m s t) (hc : c < 1024) (start : Nat) (hl : ∀ e ∈ gapFields c, e ∈ l)
    (hm : ∀ d a b e z f y, m { d with marks := a, parts := b, herd := e, zports := z, fusions := f, sync := y } = m d) :
    Within l m s (t.openGap c start) := by
  unfold Dev.openGap
  refine Within.fusNotify (.openMark ?_ _ fun d a b e z => hm d a b e z d.fusions d.sync) _ _ _ _ (fun f hf => hl _ ?_)
    fun d f y => hm d d.marks d.parts d.herd d.zports f y
  · exact ((h.wr _ hc (hl _ (by simp [gapFields]))).wr _ hc (hl _ (by simp [gapFields]))).setFlag _ hc (hl _ (by simp [gapFields]))
  · simp [gapFields, mem_upTo, hf]

theorem closeBroken (h : Within l m s t) (hc : c < 1024) (start : Nat) (hl : ∀ e ∈ breakFields c, e ∈ l) (hm : ApartFromBlocks m)
    (hq : Quiet m) : Within l m s (t.closeBroken c start) := by
  unfold Dev.closeBroken
  split
  · exact (h.openBlock start hl hm).closeBlock hc _ _ hl hm hq
  · split
    · exact h.closeBlock hc _ _ hl hm hq
    · exact h.closeBlock hc _ _ hl hm hq

/-- A break changes its own fields and nothing apart from blocks. -/
theorem breakBlock (h : Within l m s t) (hc : c < 1024) (start : Nat) (hl : ∀ e ∈ breakFields c, e ∈ l) (hm : ApartFromBlocks m)
    (hq : Quiet m) : Within l m s (t.breakBlock c start) := by
  refine Within.openGap ?_ hc start (fun e he => hl e (gapFields_sub c e he))
    fun d a b e z f y => hm d d.ctxs a b f y e z d.mem d.ring d.capUsed d.free
  exact ((h.closeBroken hc start hl hm hq).ctxOfBlock c _ hm).wr _ hc (hl _ (by simp [breakFields]))

end Dev.Within

/-! ### What a break leaves in its context -/

theorem Dev.quiet_ctxs : Quiet Dev.ctxs := fun d e h => show d.body.ctxs = e.body.ctxs by rw [h]

theorem Dev.Within.ctxs_eq {l : List (Field × Nat)} {s t : Dev} (h : Within l Dev.ctxs s t) : t.ctxs = s.ctxs := h.same

/-- What reads the table of contexts alone. -/
theorem Dev.ctx_congr {s t : Dev} (h : t.ctxs = s.ctxs) (c : Nat) : t.ctx c = s.ctx c := by
  unfold Dev.ctx; rw [h]

/-- What every change of a fold keeps, the fold keeps. -/
theorem Dev.foldl_keeps {β γ : Type} (g : Dev → γ) {f : Dev → β → Dev} {xs : List β} (hf : ∀ d, ∀ x ∈ xs, g (f d x) = g d) (s : Dev) :
    g (xs.foldl f s) = g s := by
  induction xs generalizing s with
  | nil => rfl
  | cons x xs ih => exact (ih (fun d y hy => hf d y (List.mem_cons_of_mem _ hy)) _).trans (hf s x List.mem_cons_self)

theorem Dev.writeStats_block (s : Dev) (c : Nat) (b : Block) : ((s.writeStats c b).ctx c).block = (s.ctx c).block := by
  refine foldl_keeps (fun d => (d.ctx c).block) (fun d r _ => ?_) s
  simp [ctx_congr (putBytes_ctxs d _ _)]

theorem Dev.completeBlock_block (s : Dev) (c : Nat) (b : Block) : ((s.completeBlock c b).ctx c).block = (s.ctx c).block := by
  have hcapture (d : Dev) (record : List Byte) : (d.captureBlock c b record).ctxs = d.ctxs :=
    ((Within.refl (breakFields c) Dev.ctxs d).captureBlock c b record (by simp [breakFields]) (by simp [breakFields]) (by simp [breakFields])
      fun _ _ _ _ => rfl).same
  have hmark (d : Dev) (k : Mark) : (d.openMark k).ctxs = d.ctxs := ((Within.refl [] Dev.ctxs d).openMark k fun _ _ _ _ _ => rfl).same
  refine Eq.trans (congrArg StreamCtx.block (ctx_congr ?_ c)) (s.writeStats_block c b)
  unfold completeBlock
  dsimp only
  rw [hcapture]
  split
  · rw [hmark]; simp [scAdd]
  · simp [scAdd]

theorem Dev.finishHead_block (s : Dev) (c : Nat) : ((s.finishHead c).ctx c).block = (s.ctx c).block := by
  unfold finishHead
  split
  · split
    · rw [completeBlock_block, ctx_setCtx]
    · rfl
  · rfl

theorem Dev.finishBlocks_block (s : Dev) (c : Nat) : ((s.finishBlocks c).ctx c).block = (s.ctx c).block := by
  unfold finishBlocks
  induction (s.ctx c).closing.length generalizing s with
  | zero => rfl
  | succ n ih => exact (ih _).trans (s.finishHead_block c)

/-- A context whose block has closed has none. -/
theorem Dev.closeBlock_block (s : Dev) {c : Nat} (hc : c < 1024) (fin : Nat) (broken : Bool) :
    ((s.closeBlock c fin broken).ctx c).block = none := by
  cases hb : (s.ctx c).block with
  | none => simp [Dev.closeBlock, hb]
  | some b =>
    obtain ⟨x, d, hx, hd, hwithin⟩ := Within.closeBlock_parts hc fin broken hb
    have hctxs : d.ctxs = (s.setCtx c x).ctxs := (hwithin Dev.ctxs (fun _ _ _ _ _ _ _ => rfl) quiet_ctxs).same
    rw [hd, finishBlocks_block, ctx_congr hctxs, ctx_setCtx, hx]

theorem Dev.closeBroken_block (s : Dev) {c : Nat} (hc : c < 1024) (start : Nat) : ((s.closeBroken c start).ctx c).block = none := by
  unfold closeBroken
  split
  · exact closeBlock_block _ hc _ _
  · split
    · exact closeBlock_block _ hc _ _
    · exact closeBlock_block _ hc _ _

/-- An open gap shows its start, and no end yet (R73). -/
theorem Dev.openGap_reads (s : Dev) {c : Nat} (hc : c < 1024) (start : Nat) :
    (s.openGap c start).flag .ITK_CTX_STAT_GAPOPEN c = true ∧ (s.openGap c start).rd .ITK_CTX_GAP_START c = wrap 64 start ∧
      (s.openGap c start).rd .ITK_CTX_GAP_END c = 2 ^ 64 - 1 := by
  have hnotify (d : Dev) : Within ((upTo 16).map fun f => (Field.ITK_FUS_STAT_ABSENT, f)) (fun _ => ()) d (d.fusNotify c start none true) :=
    (Within.refl _ _ d).fusNotify c start none true (fun f hf => by simp [mem_upTo, hf]) fun _ _ _ => rfl
  have hmark (d : Dev) (k : Mark) : Within [] (fun _ => ()) d (d.openMark k) := (Within.refl _ _ d).openMark k fun _ _ _ _ _ => rfl
  have hrd (f : Field) (hf : f ≠ .ITK_FUS_STAT_ABSENT) (d : Dev) (k : Mark) :
      ((d.openMark k).fusNotify c start none true).rd f c = d.rd f c := by
    rw [(hnotify _).rd hc (by simp [hf.symm]), (hmark d k).rd hc (by simp)]
  unfold openGap
  dsimp only
  rw [Dev.flag, hrd _ (by decide), hrd _ (by decide), hrd _ (by decide)]
  simp only [setFlag_eq, rd_wr]
  refine ⟨rfl, ?_, ?_⟩
  · rw [rd_wr_field _ _ _ _ _ _ hc hc (by decide), rd_wr_field _ _ _ _ _ _ hc hc (by decide), rd_wr]
    rfl
  · rw [rd_wr_field _ _ _ _ _ _ hc hc (by decide), rd_wr]
    rfl

/-- A broken context is in RESYNC with a gap open, its stamp queue flushed, without a block, and waits for an image header (R73, R74). -/
theorem Dev.breakBlock_reads (s : Dev) {c : Nat} (hc : c < 1024) (start : Nat) :
    (s.breakBlock c start).rd .ITK_CTX_STAT_STATE c = 2 ∧ (s.breakBlock c start).flag .ITK_CTX_STAT_GAPOPEN c = true ∧
      (s.breakBlock c start).rd .ITK_CTX_GAP_START c = wrap 64 start ∧ (s.breakBlock c start).rd .ITK_CTX_GAP_END c = 2 ^ 64 - 1 ∧
      ((s.breakBlock c start).ctx c).stamps = [] ∧ ((s.breakBlock c start).ctx c).noHeader = true ∧
      ((s.breakBlock c start).ctx c).block = none := by
  have hgapwithin (d : Dev) : Within (gapFields c) Dev.ctxs d (d.openGap c start) :=
    (Within.refl _ _ d).openGap hc start (fun _ he => he) fun _ _ _ _ _ _ _ => rfl
  have hctxs (d : Dev) : (d.openGap c start).ctxs = d.ctxs := (hgapwithin d).ctxs_eq
  have hctx : (s.breakBlock c start).ctx c = { (s.closeBroken c start).ctx c with stamps := [], noHeader := true, partRecv := false } := by
    unfold breakBlock
    rw [ctx_congr (hctxs _), wr_ctx, ctx_setCtx]
  have hstate : (s.breakBlock c start).rd .ITK_CTX_STAT_STATE c = 2 := by
    unfold breakBlock
    rw [(hgapwithin _).rd hc (by simp [gapFields]), rd_wr]
    rfl
  rw [hctx]
  refine ⟨hstate, ?_, ?_, ?_, rfl, rfl, s.closeBroken_block hc start⟩
  · unfold breakBlock; exact (openGap_reads _ hc start).1
  · unfold breakBlock; exact (openGap_reads _ hc start).2.1
  · unfold breakBlock; exact (openGap_reads _ hc start).2.2

end Sys2Proof.Machine

end

section
/-! Stream contexts and fusion groups (R62 to R77, R98, R100): the statements about packets, breaks and commits. -/

namespace Sys2Proof.Machine

open Sys2Proof

/-- A write leaves the later fields alone, whatever the instance that is read. -/
theorem Dev.rd_wr_later (s : Dev) {f g : Field} {i : Nat} (j v : Nat) (hi : i < 1024) (h : f.ctorIdx < g.ctorIdx) :
    (s.wr f i v).rd g j = s.rd g j := by
  have hk : g.key j ≠ f.key i := by unfold Field.key; omega
  unfold Dev.rd Dev.wr
  by_cases hf : f.voted = true <;> by_cases hg : g.voted = true <;> simp [hf, hg, tabGet_set_ne _ _ _ _ hk]

/-- The line-master position reads the role, the line master, its channel's position, device time, and a worker's latest POS. -/
theorem Dev.lmPos_congr {s t : Dev} (hrole : t.rd .HRD_CTL_ROLE = s.rd .HRD_CTL_ROLE) (hmaster : t.rd .ENC_MSTAT_MASTER = s.rd .ENC_MSTAT_MASTER)
    (hpos : t.rd .ENC_POS s.master = s.rd .ENC_POS s.master) (hofs : t.lmOffset = s.lmOffset) (htime : t.timeU = s.timeU)
    (hherd : t.herd.pos = s.herd.pos) (hdoze : t.herd.dozing = s.herd.dozing) (hfloor : t.herd.floor = s.herd.floor) : t.lmPos = s.lmPos := by
  have hm : t.master = s.master := hmaster
  simp only [lmPos, worker, herdPos, ns40, fullNs, hrole, hm, hpos, hofs, htime, hherd, hdoze, hfloor]
  rfl

/-! ### Breaks (R72 to R74) -/

/-- What the module holds beside what the break of a context, and a Tally event, change. -/
def Dev.butBlocks (s : Dev) : Dev :=
  { s.body with ctxs := [], marks := [], parts := [], fusions := [], sync := [], herd := {}, zports := [], links := [], mem := [], ring := [],
                capUsed := 0, free := 0 }

theorem Dev.quiet_butBlocks : Quiet butBlocks := fun d e h => by simp only [butBlocks, rest_body, h]

theorem Dev.body_of_butBlocks {s t : Dev} (h : t.rest.butBlocks = s.rest.butBlocks) :
    t.body = { s.body with ctxs := t.ctxs, marks := t.marks, parts := t.parts, fusions := t.fusions, sync := t.sync, herd := t.herd,
                           zports := t.zports, links := t.links, mem := t.mem, ring := t.ring, capUsed := t.capUsed, free := t.free } :=
  (congrArg (fun d : Dev => { d with ctxs := t.ctxs, marks := t.marks, parts := t.parts, fusions := t.fusions, sync := t.sync, herd := t.herd,
                                     zports := t.zports, links := t.links, mem := t.mem, ring := t.ring, capUsed := t.capUsed,
                                     free := t.free }) h :)

/-- The start of a gap does not depend on the flag of a damaged packet. -/
theorem Dev.owedStart_damaged (s : Dev) (c : Nat) {n : Nat} (hn : n < 1024) (k : Link) :
    ((s.setLink n k).setFlag .CXP_LNK_STAT_CRCERR n true).owedStart c = s.owedStart c := by
  have hrd (g : Field) (hg : Field.CXP_LNK_STAT_CRCERR.ctorIdx < g.ctorIdx) (j : Nat) :
      ((s.setLink n k).wr .CXP_LNK_STAT_CRCERR n 1).rd g j = s.rd g j := by
    rw [rd_wr_later _ _ _ hn hg, setLink_rd]
  have hlm : ((s.setLink n k).wr .CXP_LNK_STAT_CRCERR n 1).lmPos = s.lmPos :=
    lmPos_congr (hrd _ (by decide) _) (by rw [rd_wr_field _ _ _ _ _ _ hn (by decide) (by decide), setLink_rd]) (hrd _ (by decide) _) (by simp) (by simp) (by simp) (by simp) (by simp)
  have hctx : ((s.setLink n k).wr .CXP_LNK_STAT_CRCERR n 1).ctx c = s.ctx c := ctx_congr (by simp) c
  simp only [owedStart, gapFallback, linesEnd, aligned, spacing, setFlag_eq, Bool.toNat_true, hlm, hctx, hrd .ENC_CG_SPACE (by decide)]

/-- What a break leaves, whatever link woke before it. -/
theorem Dev.within_breakBlock (s : Dev) {c n : Nat} (hc : c < 1024) (start : Nat) :
    Within ((.CXP_LNK_STAT_CRCERR, n) :: breakFields c) butBlocks s (s.breakBlock c start) :=
  (Within.refl _ _ s).breakBlock hc start (fun _ he => List.mem_cons_of_mem _ he) (fun _ _ _ _ _ _ _ _ _ _ _ _ => rfl) quiet_butBlocks

/-- What the statement says of a context that has broken. -/
def BrokenIn (s t : State) (c n : Nat) : Prop :=
  t.rd .ITK_CTX_STAT_STATE c = 2 ∧ t.flag .ITK_CTX_STAT_GAPOPEN c = true ∧ t.rd .ITK_CTX_GAP_START c = wrap 64 (s.owedStart c) ∧
  t.rd .ITK_CTX_GAP_END c = 2 ^ 64 - 1 ∧ (t.ctx c).stamps = [] ∧ (t.ctx c).noHeader = true ∧ (t.ctx c).block = none ∧
  KeepsFields s t ((.CXP_LNK_STAT_CRCERR, n) :: breakFields c) ∧
  t.body = { s.body with ctxs := t.ctxs, marks := t.marks, parts := t.parts, fusions := t.fusions, sync := t.sync, herd := t.herd,
                         zports := t.zports, links := t.links, mem := t.mem, ring := t.ring, capUsed := t.capUsed, free := t.free }

/-- A break at the owed start, after nothing but what a packet changes at its link. -/
theorem brokenIn_of_within {s : State} {d : Dev} {c n : Nat} (hc : c < 1024)
    (hd : Dev.Within ((.CXP_LNK_STAT_CRCERR, n) :: breakFields c) Dev.butBlocks s.toDev d) :
    BrokenIn s { s with toDev := (d.breakBlock c (s.owedStart c)).notify s.toDev } c n := by
  have hw := hd.trans (d.within_breakBlock hc (s.owedStart c))
  obtain ⟨hstate, hopen, hstart, hend, hstamps, hheader, hblock⟩ := d.breakBlock_reads hc (s.owedStart c)
  refine ⟨?_, ?_, ?_, ?_, ?_, ?_, ?_, hw.kept, ?_⟩
  · simpa using hstate
  · simpa [Dev.notify_flag] using hopen
  · simpa using hstart
  · simpa using hend
  · simpa using hstamps
  · simpa using hheader
  · simpa using hblock
  · simpa using Dev.body_of_butBlocks hw.same

theorem exec_stopTimeout (c : Fin 64) (s : State) : exec (.stopTimeout c) s = s.run (.stopTimeout c) fun d => d.stopTimeout c := rfl

theorem exec_ctxResync (c : Fin 64) (s : State) : exec (.ctxResync c) s = s.run (.ctxResync c) fun d => d.resync c := rfl

theorem exec_streamPacket (n : Fin 24) (stream : Nat) (crcOk : Bool) (content : StreamContent) (s : State) :
    exec (.streamPacket n stream crcOk content) s =
      s.run (.streamPacket n stream crcOk content) fun d => d.streamPacket n stream crcOk content := rfl

/-! ### Packets (R46, R62) -/

/-- What a packet does at its link: the receive direction wakes, and a damaged one is flagged. -/
def Dev.packetAt (s : Dev) (n : Nat) (crcOk : Bool) : Dev :=
  if crcOk then s.setLink n { s.link n with asleep := false }
  else (s.setLink n { s.link n with asleep := false }).setFlag .CXP_LNK_STAT_CRCERR n true

theorem Dev.routeStream_congr {s t : Dev} (h : t.ctxs = s.ctxs) (m stream : Nat) : t.routeStream m stream = s.routeStream m stream := by
  simp only [routeStream, ctxEnabled, ctx_congr h]

theorem Dev.packetAt_ctxs (s : Dev) (n : Nat) (crcOk : Bool) : (s.packetAt n crcOk).ctxs = s.ctxs := by
  cases crcOk <;> simp [packetAt]

/-- A packet that a link takes is seen there first, and then goes to its context, or is counted where none takes it. -/
theorem Dev.streamPacket_taken {s : Dev} {n : Nat} (hn : n < 1024) (stream : Nat) (crcOk : Bool) (content : StreamContent)
    (hlive : s.live = true) (hen : s.flag .CXP_LNK_CTL_EN n = true) (hout : (s.link n).out = false) :
    s.streamPacket n stream crcOk content =
      match s.routeStream (s.rd .CXP_LNK_CTL_MASTER n) stream with
      | none => ((s.packetAt n crcOk).setFlag .CXP_LNK_STAT_UNMAPPED n true).observe (88 + n)
      | some c => (s.packetAt n crcOk).packetIn c crcOk content := by
  have hmaster : (s.packetAt n crcOk).rd .CXP_LNK_CTL_MASTER n = s.rd .CXP_LNK_CTL_MASTER n := by
    cases crcOk
    · simp only [packetAt, Bool.false_eq_true, if_false, setFlag_eq]
      rw [rd_wr_field _ _ _ _ _ _ hn hn (by decide), setLink_rd]
    · simp [packetAt]
  have hroute := routeStream_congr (s.packetAt_ctxs n crcOk) (s.rd .CXP_LNK_CTL_MASTER n) stream
  rw [← hroute]
  nth_rw 1 [← hmaster]
  unfold streamPacket
  rw [if_neg (by simp [hlive, hen, hout])]
  cases crcOk <;> rfl

theorem Dev.within_packetAt {α : Type} {m : Dev → α} (s : Dev) {n : Nat} (hn : n < 1024) (crcOk : Bool) (hm : ∀ d x, m { d with links := x } = m d) :
    Within [(.CXP_LNK_STAT_CRCERR, n)] m s (s.packetAt n crcOk) := by
  have hlink := (Within.refl [(.CXP_LNK_STAT_CRCERR, n)] m s).setLink n { s.link n with asleep := false } hm
  cases crcOk
  · exact hlink.setFlag true hn List.mem_cons_self
  · exact hlink

/-! ### The statement of breaks and absences (R72 to R77) -/

theorem Dev.stopTimeout_of_running {s : Dev} {c : Nat} (h : s.rd .ITK_CTX_STAT_STATE c = 1) :
    s.stopTimeout c = if s.owes c then s.breakBlock c (s.owedStart c) else s := by
  simp [stopTimeout, h]

theorem Dev.resync_of_running {s : Dev} {c : Nat} (h : s.rd .ITK_CTX_STAT_STATE c = 1) : s.resync c = s.breakBlock c (s.owedStart c) := by
  simp [resync, h]

/-- A damaged line of a running context breaks it. -/
theorem Dev.packetIn_damaged {s : Dev} {n c : Nat} (hn : n < 1024) (hc : c < 1024) (hrun : s.rd .ITK_CTX_STAT_STATE c = 1) :
    (s.packetAt n false).packetIn c false (.line []) = (s.packetAt n false).breakBlock c (s.owedStart c) := by
  have hstate : (s.packetAt n false).rd .ITK_CTX_STAT_STATE c = 1 :=
    ((s.within_packetAt hn false (m := fun _ => ()) fun _ _ => rfl).rd hc (by simp)).trans hrun
  have howed : (s.packetAt n false).owedStart c = s.owedStart c := s.owedStart_damaged c hn _
  simp [packetIn, hstate, howed]

@[simp] theorem Dev.scAdd_fusion (s : Dev) (k n f : Nat) : (s.scAdd k n).fusion f = s.fusion f := rfl

@[simp] theorem Dev.sc_scAdd (s : Dev) (k n : Nat) : (s.scAdd k n).sc k = wrap 64 (s.sc k + n) := by simp [sc, scAdd]

theorem exec_fusionAbsence (f : Fin 16) (k : Fin 8) (s : State) :
    exec (.fusionAbsence f k) s = s.run (.fusionAbsence f k) fun d => d.fusionAbsence f k := rfl

/-- What lies after a position does not lie before it (R15). -/
theorem atOrAfter_of_after {a e : Nat} (h : after e a = true) : atOrAfter a e = false := by
  unfold after at h
  unfold atOrAfter
  rw [decide_eq_true_eq] at h
  rw [decide_eq_false_iff_not]
  unfold sdiff sgn at *
  simp only [Nat.reducePow, Nat.reduceSub] at *
  split at h <;> split <;> omega

theorem Dev.openMark_marks (s : Dev) (k : Mark) : (s.openMark k).marks = { k with ident := s.herd.markId } :: s.marks := by
  have hsend (d : Dev) (x : ZPayload) : (d.toManager x).marks = d.marks := ((Within.refl [] Dev.marks d).toManager x fun _ _ => rfl).same
  unfold openMark
  dsimp only
  split
  · rw [hsend]
  · rfl

/-- What the module holds beside what a declared absence, and a Tally event, change. -/
def Dev.butAbsence (s : Dev) : Dev :=
  { s.body with fusions := [], sync := [], marks := [], parts := [], herd := {}, zports := [] }

theorem Dev.body_of_butAbsence {s t : Dev} (h : t.rest.butAbsence = s.rest.butAbsence) :
    t.body = { s.body with fusions := t.fusions, sync := t.sync, marks := t.marks, parts := t.parts, herd := t.herd, zports := t.zports } :=
  (congrArg (fun d : Dev => { d with fusions := t.fusions, sync := t.sync, marks := t.marks, parts := t.parts, herd := t.herd,
                                     zports := t.zports }) h :)

/-- The interval of a group of two whose member has been declared absent is complete, and its mask names the member alone. -/
theorem Fusion.complete_of_absent {u : Fusion} {v : FusInterval} {r m : Nat} (hmem : v.members = [r, m]) (hdel : u.delivered = [])
    (habs : v.absent = 2) : u.complete v = true ∧ u.absentMask v = 2 := by
  have hplaces : v.places = [(r, 0), (m, 1)] := by simp [FusInterval.places, hmem]
  constructor
  · simp [complete, hplaces, habs, show bit 2 1 = true by decide]
  · simp [absentMask, hplaces, habs, answers, hdel, gapIn, List.filter, show bit 2 1 = true by decide, show bit 2 0 = false by decide]
    decide

/-- A member whose wait for the one interval of a group of two has run out is declared absent, and the interval completes. -/
theorem Dev.fusionAbsence_single {s : Dev} {f r m : Nat} {v : FusInterval} (hint : (s.fusion f).intervals = [v])
    (hdel : (s.fusion f).delivered = []) (hmem : v.members = [r, m]) (habs : v.absent = 0) (horder : after v.fin v.start = true)
    (hdue : atOrAfter s.lmPos (moveBy (wrap 64 (v.fin + cts v.budget)) (sgn 32 (setting (s.ctx m).cfg .ITK_CTX_OFS) * 65536)) = true) :
    let v' := { v with absent := 2 }
    let t := (s.setFusion f { s.fusion f with intervals := [v'] }).openMark
      { source := .absence f, start := v.start, fin := some v.fin, lanes := setting (s.ctx r).cfg .ITK_CTX_LANES, code := 0xE0 }
    s.fusionAbsence f 1 = ((t.setFusion f { s.fusion f with intervals := [] }).wr .ITK_FUS_STAT_ABSENT f 2).scAdd v.sc 1 := by
  intro v' t
  have hanswer : answered ((s.fusion f).answers m) v.start v.fin = false := by
    simp [answered, Fusion.answers, hdel, sortBy, reach, atOrAfter_of_after horder]
  have hlate : s.absenceDue (s.fusion f) 1 v = true := by
    simp [absenceDue, hmem, habs, hanswer, absentFrom, hdue]
    decide
  have hfus : t.fusion f = { s.fusion f with intervals := [v'] } := by
    have hkept (d : Dev) (k : Mark) : (d.openMark k).fusions = d.fusions :=
      ((Within.refl [] Dev.fusions d).openMark k fun _ _ _ _ _ => rfl).same
    unfold fusion
    simp only [t, hkept]
    exact fusion_setFusion s f _
  obtain ⟨hcomplete, hmask⟩ := Fusion.complete_of_absent (u := t.fusion f) (v := v') hmem (by rw [hfus]; exact hdel) rfl
  have habsence : s.fusionAbsence f 1 = t.fusSettle f := by
    simp [fusionAbsence, hint, hlate, habs, hmem, t, v', show oneBit 1 = 2 by decide]
  rw [habsence]
  unfold fusSettle
  simp [hfus] at hcomplete hmask
  simp [hfus, hcomplete, hmask]
  rfl

/-- Settles O23. -/
theorem contextsBreakAndFusionDeclares : Obligations.ContextsBreakAndFusionDeclares := by
  intro s c n stream f r m v
  have hc : (c : Nat) < 1024 := by omega
  have hn : (n : Nat) < 1024 := by omega
  refine ⟨fun hrun => ?_, fun hint hdel hmem habs horder hdue => ?_⟩
  · refine ⟨fun howes => ?_, fun howes => ?_, ?_, fun hstream hlive hen hout hroute => ?_⟩
    · refine Completes.of_effect (exec_stopTimeout ..) rfl (Dev.stopTimeout_of_running hrun) ?_
      rw [if_pos howes]
      exact brokenIn_of_within hc (.refl _ _ _)
    · refine Completes.of_effect (exec_stopTimeout ..) rfl (Dev.stopTimeout_of_running hrun) ?_
      rw [if_neg (by simp [howes])]
      exact ⟨keepsFields_of (.refl _ _), by simp⟩
    · exact Completes.of_effect (exec_ctxResync ..) rfl (Dev.resync_of_running hrun) (brokenIn_of_within hc (.refl _ _ _))
    · have hpacket : s.streamPacket n stream false (.line []) = (s.packetAt n false).breakBlock c (s.owedStart c) := by
        rw [Dev.streamPacket_taken hn stream false _ hlive hen hout, hroute]
        exact Dev.packetIn_damaged hn hc hrun
      have hwithin := s.within_packetAt hn false (m := Dev.butBlocks) fun _ _ => rfl
      refine Completes.of_effect (exec_streamPacket ..) (by simpa [Instr.wf] using hstream) hpacket
        ⟨brokenIn_of_within hc (hwithin.mono (by simp)), ?_⟩
      have hflag := ((Dev.Within.refl (breakFields c) (fun _ => ()) (s.packetAt n false)).breakBlock hc (s.owedStart c)
        (fun _ he => he) (fun _ _ _ _ _ _ _ _ _ _ _ _ => rfl) fun _ _ _ => rfl).flag (f := .CXP_LNK_STAT_CRCERR) hn
        (by simp [breakFields, logFields])
      rw [Dev.notify_flag, hflag]
      exact Dev.flag_wr_toNat _ _ _ true (by decide)
  · have habsence := Dev.fusionAbsence_single hint hdel hmem habs horder hdue
    let v' : FusInterval := { v with absent := 2 }
    let k : Mark := { source := .absence f, start := v.start, fin := some v.fin, lanes := setting (s.ctx r).cfg .ITK_CTX_LANES, code := 0xE0 }
    let d := (s.setFusion f { s.fusion f with intervals := [v'] }).openMark k
    have hf : (f : Nat) < 1024 := by omega
    have hwithin : Dev.Within [(.ITK_FUS_STAT_ABSENT, (f : Nat))] Dev.butAbsence s.toDev
        (((d.setFusion f { s.fusion f with intervals := [] }).wr .ITK_FUS_STAT_ABSENT f 2).scAdd v.sc 1) :=
      ((((((Dev.Within.refl _ _ s.toDev).setFusion f _ fun _ _ => rfl).openMark k fun _ _ _ _ _ => rfl).setFusion f _ fun _ _ => rfl).wr 2 hf
        List.mem_cons_self).scAdd v.sc 1 fun _ _ => rfl)
    have hsync : d.sync = s.sync :=
      (((Dev.Within.refl [] Dev.sync s.toDev).setFusion f _ fun _ _ => rfl).openMark k fun _ _ _ _ _ => rfl).same
    refine Completes.of_effect (exec_fusionAbsence ..) rfl habsence ⟨?_, ?_, ?_, ?_, hwithin.kept, ?_⟩
    · simp
    · simp
      rfl
    · rw [Dev.sc_notify, Dev.sc_scAdd, Dev.wr_sc]
      simp only [Dev.sc, Dev.setFusion_sync]
      rw [hsync]
    · simp [Dev.openMark_marks]
    · simpa using Dev.body_of_butAbsence hwithin.same

/-! ### The statement of packets (R62 to R67) -/

/-- The fields that a line written to its block may change. -/
def lineFields (c : Nat) : List (Field × Nat) :=
  [(.ITK_CTX_STAT_STATE, c), (.ITK_PP_GEN_LAST, c), (.ITK_PP_GEN_ACTIVE, c), (.ITK_PP_GENSW_ARM, c), (.ITK_PP_STAT_OVERRUN, c)]

/-- What the module holds beside what a line written to its block changes. -/
def Dev.butLine (s : Dev) : Dev := { s with ctxs := [], free := 0, pipesOn := 0, lineSeq := 0, links := [] }

theorem Dev.rest_of_butLine {s t : Dev} (h : t.rest.butLine = s.rest.butLine) :
    t.rest = { s.rest with ctxs := t.ctxs, free := t.free, pipesOn := t.pipesOn, lineSeq := t.lineSeq, links := t.links } :=
  (congrArg (fun d : Dev => { d with ctxs := t.ctxs, free := t.free, pipesOn := t.pipesOn, lineSeq := t.lineSeq, links := t.links }) h :)

theorem Dev.bankFor_within {α : Type} {m : Dev → α} (s : Dev) {c : Nat} (hc : c < 1024) (gen : Nat) : Within (lineFields c) m s (s.bankFor c gen) := by
  unfold bankFor
  split
  · exact ((Within.refl _ m s).wr _ hc (by simp [lineFields])).setFlag _ hc (by simp [lineFields])
  · exact .refl _ m s

/-- A line that does not fill its block joins it. -/
theorem Dev.writeLine_joins (s : Dev) {c : Nat} (hc : c < 1024) (al : Nat) (odd : Bool) (samples : List Nat) {b : Block}
    (hb : (s.ctx c).block = some b) (hroom : b.lines.length + 1 < setting b.cfg .ITK_CTX_CFG0_BLKLEN) :
    ∃ d l, l.stamp = al ∧
      s.writeLine c al odd samples = d.setCtx c { s.ctx c with block := some { b with lines := b.lines ++ [l] }, last := some al } ∧
      ∀ {α : Type} (m : Dev → α), (∀ d x y z, m { d with free := x, pipesOn := y, lineSeq := z } = m d) → Within (lineFields c) m s d := by
  have hctx : ((((s.bankFor c (s.ctx c).gen).wr .ITK_PP_GEN_LAST c (s.ctx c).gen).startPipes c).ctx c) = s.ctx c := by
    refine ctx_congr ?_ c
    exact (wr_ctxs ..).trans (s.bankFor_within hc _ (m := Dev.ctxs)).ctxs_eq
  unfold writeLine
  dsimp only
  rw [hctx, hb]
  dsimp only
  rw [if_pos (by simpa using hroom)]
  refine ⟨_, _, ?_, rfl, fun m hm => ?_⟩
  · rfl
  · have hstart {t : Dev} (h : Within (lineFields c) m s t) : Within (lineFields c) m s (t.startPipes c) :=
      h.step rfl rfl rfl (hm t.rest t.free _ t.lineSeq)
    have hcount {t : Dev} (h : Within (lineFields c) m s t) (n k : Nat) : Within (lineFields c) m s { t with free := n, lineSeq := k } :=
      h.step rfl rfl rfl (hm t.rest n t.pipesOn k)
    have hbank := hstart ((s.bankFor_within hc (s.ctx c).gen (m := m)).wr (f := .ITK_PP_GEN_LAST) (s.ctx c).gen hc (by simp [lineFields]))
    refine hcount ?_ _ _
    split
    · exact hbank.setFlag true hc (by simp [lineFields])
    · exact hbank

/-- A context to which a packet is routed is one of the 64, enabled. -/
theorem Dev.routeStream_some {s : Dev} {m stream c : Nat} (h : s.routeStream m stream = some c) : c < 64 ∧ s.ctxEnabled c = true := by
  have hp := List.find?_some h
  simp only [Bool.and_eq_true] at hp
  exact ⟨mem_upTo.1 (List.mem_of_find?_eq_some h), hp.1.1⟩

/-- A line that lies after the last one written joins the open block of a running context without a gap. -/
theorem Dev.placeLine_joins (s : Dev) {c : Nat} (stamp : Nat) (odd : Bool) (samples : List Nat) {b : Block} {last : Nat}
    (hb : (s.ctx c).block = some b) (hen : s.ctxEnabled c = true)
    (hgap : s.flag .ITK_CTX_STAT_GAPOPEN c = false) (hlast : (s.ctx c).last = some last) (hafter : after (s.aligned c stamp) last = true) :
    s.placeLine c stamp odd samples = (s.wr .ITK_CTX_STAT_STATE c 1).writeLine c (s.aligned c stamp) odd samples := by
  have hal : s.lineStamp c stamp = s.aligned c stamp := by simp [lineStamp, aligned, hb]
  simp [placeLine, hal, hlast, hafter, hb, hen, closeGap, hgap]

/-- A whole line takes the oldest stamp, which is not stale, and joins the open block (R63, R65 to R67). -/
theorem Dev.lineArrives_joins (s : Dev) {c : Nat} (samples : List Nat) {b : Block} {last : Nat} {p : Stamp} {rest : List Stamp}
    (hb : (s.ctx c).block = some b) (hen : s.ctxEnabled c = true)
    (hgap : s.flag .ITK_CTX_STAT_GAPOPEN c = false) (hlast : (s.ctx c).last = some last) (hafter : after (s.aligned c p.pos) last = true)
    (hstamps : (s.ctx c).stamps = p :: rest) (hfresh : s.staleStamp c p = false) :
    ∃ x, x.stamps = rest ∧ x.block = some b ∧ s.lineArrives c samples =
      (((s.pruneStamps c).setCtx c x).wr .ITK_CTX_STAT_STATE c 1).writeLine c (s.aligned c p.pos) (s.ctx c).odd samples := by
  have htake : s.takeStamp c = (none, some p.pos) := by
    simp [takeStamp, hstamps, hfresh]
  have hprune : (s.pruneStamps c).ctx c = s.ctx c := by
    rw [pruneStamps, ctx_setCtx, hstamps, List.dropWhile_cons_of_neg (by simp [hfresh]), ← hstamps]
  let x : StreamCtx := { s.ctx c with stamps := rest, partRecv := false, odd := !(s.ctx c).odd }
  let t := (s.pruneStamps c).setCtx c x
  have htx : t.ctx c = x := ctx_setCtx ..
  have hplace : t.placeLine c p.pos (s.ctx c).odd samples = (t.wr .ITK_CTX_STAT_STATE c 1).writeLine c (t.aligned c p.pos) (s.ctx c).odd samples := by
    refine t.placeLine_joins p.pos _ _ (b := b) (last := last) ?_ ?_ ?_ ?_ ?_
    · rw [htx]; exact hb
    · rw [ctxEnabled, htx]; exact hen
    · simpa [flag, t, pruneStamps] using hgap
    · rw [htx]; exact hlast
    · rw [aligned, htx]; exact hafter
  refine ⟨x, rfl, hb, ?_⟩
  have hal : t.aligned c p.pos = s.aligned c p.pos := by rw [aligned, htx]; rfl
  rw [hal] at hplace
  unfold lineArrives
  simp only [htake, hprune, hstamps]
  exact (if_neg (by simp)).trans hplace

/-- A packet leaves the other links as they are, and wakes its own. -/
theorem Dev.packetAt_whole (s : Dev) (n : Nat) : s.packetAt n true = s.setLink n { s.link n with asleep := false } := rfl

theorem Dev.setLink_body (s : Dev) (n : Nat) (e : Link) : (s.setLink n e).body = { s.body with links := (s.setLink n e).links } := rfl

theorem Dev.packetAt_link (s : Dev) (n : Nat) (crcOk : Bool) :
    (s.packetAt n crcOk).link n = { s.link n with asleep := false } ∧ ∀ k, k ≠ n → (s.packetAt n crcOk).link k = s.link k := by
  have hset (k : Nat) (hk : k ≠ n) := s.link_setLink_ne n k { s.link n with asleep := false } hk
  cases crcOk
  · simp only [packetAt, Bool.false_eq_true, if_false, setFlag_eq, wr_link]
    exact ⟨link_setLink .., hset⟩
  · exact ⟨link_setLink .., hset⟩

/-- A whole line at a link joins the open block of the running context to which it is routed. -/
theorem Dev.packetIn_line {s : Dev} {c last : Nat} {b : Block} {p : Stamp} {rest : List Stamp} (hc : c < 1024) (n : Nat) (samples : List Nat)
    (hrun : s.rd .ITK_CTX_STAT_STATE c = 1) (hgap : s.flag .ITK_CTX_STAT_GAPOPEN c = false) (hstamps : (s.ctx c).stamps = p :: rest)
    (hfresh : s.staleStamp c p = false) (hlast : (s.ctx c).last = some last) (hafter : after (s.aligned c p.pos) last = true)
    (hb : (s.ctx c).block = some b) (hroom : b.lines.length + 1 < setting b.cfg .ITK_CTX_CFG0_BLKLEN) (hen : s.ctxEnabled c = true) :
    ∃ (d : Dev) (x : StreamCtx) (l : RawLine), x.stamps = rest ∧ l.stamp = s.aligned c p.pos ∧ Within (lineFields c) butLine s d ∧ d.links = (s.packetAt n true).links ∧
      (s.packetAt n true).packetIn c true (.line samples) =
        d.setCtx c { x with block := some { b with lines := b.lines ++ [l] }, last := some (s.aligned c p.pos) } := by
  let u := s.packetAt n true
  have hctx : u.ctx c = s.ctx c := ctx_congr (s.packetAt_ctxs n true) c
  have hfull : u.fullNs = s.fullNs := by simp [fullNs, u, packetAt]
  have hal : u.aligned c p.pos = s.aligned c p.pos := by simp only [aligned, hctx]
  obtain ⟨x, hxstamps, hxb, hline⟩ := u.lineArrives_joins samples (b := b) (last := last) (p := p) (rest := rest)
    (by rw [hctx]; exact hb) (by rw [ctxEnabled, hctx]; exact hen) (by simpa [flag, u, packetAt] using hgap) (by rw [hctx]; exact hlast)
    (by rw [hal]; exact hafter) (by rw [hctx]; exact hstamps)
    (by rw [staleStamp, hctx, hfull]; exact hfresh)
  let w := ((u.pruneStamps c).setCtx c x).wr .ITK_CTX_STAT_STATE c 1
  have hwx : w.ctx c = x := (wr_ctx ..).trans (ctx_setCtx ..)
  obtain ⟨d, l, hl, hwrite, hwithin⟩ := w.writeLine_joins hc (s.aligned c p.pos) (u.ctx c).odd samples (by rw [hwx]; exact hxb) hroom
  have hprune : Within (lineFields c) butLine s w :=
    ((((Within.refl _ _ s).setLink n { s.link n with asleep := false } fun _ _ => rfl).setCtx c _ fun _ _ => rfl).setCtx c x
      fun _ _ => rfl).wr 1 hc (by simp [lineFields])
  refine ⟨d, x, l, hxstamps, hl, hprune.trans (hwithin butLine fun _ _ _ _ => rfl), ?_, ?_⟩
  · have hlinks : d.links = w.links := (hwithin Dev.links fun _ _ _ _ => rfl).same
    rw [hlinks]
    simp [w, u, pruneStamps]
  · rw [← hwx, ← hwrite, ← hal, ← hline]
    have hrunning : (s.packetAt n true).rd .ITK_CTX_STAT_STATE c = 1 := by simpa [packetAt] using hrun
    simp [packetIn, hrunning, u]

/-- Settles O22. -/
theorem streamPacketRouted : Obligations.StreamPacketRouted := by
  intro s n stream c gen last samples b p rest
  have hn : (n : Nat) < 1024 := by omega
  have hlinks (d : Dev) (hd : d.links = (s.packetAt n true).links) :
      (d.notify s.toDev).link n = { s.link n with asleep := false } ∧ ∀ k : Fin 24, k ≠ n → (d.notify s.toDev).link k = s.link k := by
    have hlink (k : Nat) : (d.notify s.toDev).link k = (s.packetAt n true).link k := (d.notify_link s.toDev k).trans (by simp only [Dev.link, hd])
    obtain ⟨hown, hothers⟩ := s.packetAt_link n true
    exact ⟨(hlink n).trans hown, fun k hk => (hlink k).trans (hothers k fun h => hk (Fin.ext h))⟩
  intro awake hstream hlive hen hout
  have hpacket (content : StreamContent) := Dev.streamPacket_taken hn stream true content hlive hen hout
  refine ⟨fun hroute => ?_, fun hroute hgen => ?_, fun hroute hsamples hrun hgap hstamps hfresh hlast hafter hb hroom => ?_⟩
  · have heff := hpacket .piece
    rw [hroute] at heff
    have hkept := (((Dev.Within.refl [(.CXP_LNK_STAT_UNMAPPED, (n : Nat))] (fun _ => ()) s.toDev).setLink n { s.link n with asleep := false }
      fun _ _ => rfl).setFlag (f := .CXP_LNK_STAT_UNMAPPED) true hn (by simp)).observe (88 + n) 1 fun _ _ _ => rfl
    refine Completes.of_effect (exec_streamPacket ..) (by simpa [Instr.wf] using hstream) heff
      ⟨?_, ?_, hlinks _ (by simp), keepsFields_of hkept.fields, ?_⟩
    · rw [Dev.notify_flag]
      exact Dev.flag_wr_toNat _ .CXP_LNK_STAT_UNMAPPED n true (by decide)
    · simp [Dev.counter, Dev.observe, Dev.packetAt_whole]
    · simp [Dev.packetAt_whole, Dev.setLink_body]
  · have heff := hpacket (.header gen)
    rw [hroute] at heff
    have hin : (s.packetAt n true).packetIn c true (.header gen) =
        (s.packetAt n true).setCtx c { s.ctx c with gen := gen, noHeader := false, odd := false } := by
      have hctx : (s.packetAt n true).ctx c = s.ctx c := Dev.ctx_congr (s.packetAt_ctxs n true) c
      have hwrap : wrap 16 gen = gen := Nat.mod_eq_of_lt (of_decide_eq_true hgen)
      simp [Dev.packetIn, hctx, hwrap]
    have hkept := ((Dev.Within.refl [] (fun _ => ()) s.toDev).setLink n { s.link n with asleep := false }
      fun _ _ => rfl).setCtx c { s.ctx c with gen := gen, noHeader := false, odd := false } fun _ _ => rfl
    refine Completes.of_effect (exec_streamPacket ..) (by simp [Instr.wf, hstream, hgen]) (heff.trans hin)
      ⟨by simp, hlinks _ (by simp), keepsFields_of hkept.fields, ?_⟩
    simp [Dev.packetAt_whole, Dev.setCtx_rest, Dev.setLink_rest]
  · obtain ⟨hlt, hctxen⟩ := Dev.routeStream_some hroute
    have hc : c < 1024 := by omega
    obtain ⟨d, x, l, hx, hl, hwithin, hlinked, hin⟩ := Dev.packetIn_line hc n samples hrun hgap hstamps hfresh hlast hafter hb hroom hctxen
    have heff := hpacket (.line samples)
    rw [hroute] at heff
    have hset := hwithin.setCtx c { x with block := some { b with lines := b.lines ++ [l] }, last := some (s.aligned c p.pos) } fun _ _ => rfl
    refine Completes.of_effect (exec_streamPacket ..) (by simp only [Instr.wf, hstream, hsamples, Bool.and_self]) (heff.trans hin)
      ⟨by simp [hx], by simp, by simp, by simp [hl], hset.kept, hlinks _ (by simpa using hlinked), ?_⟩
    simpa using Dev.rest_of_butLine hset.same

end Sys2Proof.Machine

end

section
/-! Commits of contexts and pipelines, and the pipes (R64, R82, R94, R98, R100). -/

namespace Sys2Proof.Machine

open Sys2Proof

/-! ### Commits (R64, R100) -/

theorem exec_ctxCommit (c : Fin 64) (s : State) : exec (.ctxCommit c) s = s.run (.ctxCommit c) fun d => d.ctxCommit c := rfl

theorem exec_ppCommit (c : Fin 64) (s : State) : exec (.ppCommit c) s = s.run (.ppCommit c) fun d => d.ppCommit c := rfl

theorem exec_bankSwitchArm (c : Fin 64) (gen : Nat) (bank : Bool) (s : State) :
    exec (.bankSwitchArm c gen bank) s = s.run (.bankSwitchArm c gen bank) fun d => d.armBank c gen bank := rfl

theorem ite_le {p : Prop} [Decidable p] {a b n : Nat} (ha : a ≤ n) (hb : b ≤ n) : (if p then a else b) ≤ n := by
  split
  · exact ha
  · exact hb

theorem Dev.ctxCheck_le (s : Dev) (c : Nat) (t : Tab Nat) : s.ctxCheck c t ≤ 9 := by
  unfold ctxCheck
  dsimp only
  repeat' apply ite_le
  all_goals decide

theorem Dev.ppCheck_le (s : Dev) (cfg pp : Tab Nat) : s.ppCheck cfg pp ≤ 11 := by
  unfold ppCheck
  dsimp only
  repeat' apply ite_le
  all_goals decide

/-- The fields that show what the latest committed settings need (R92, R93). -/
def needFields (c : Nat) : List (Field × Nat) := [(.ITK_PP_HALO_VABOVE, c), (.ITK_PP_HALO_VBELOW, c), (.ITK_PP_NEED, c)]

theorem Dev.Within.reportNeed {α : Type} {l : List (Field × Nat)} {m : Dev → α} {s t : Dev} {c : Nat} (h : Within l m s t) (hc : c < 1024)
    (hl : ∀ e ∈ needFields c, e ∈ l) : Within l m s (t.reportNeed c) := by
  unfold Dev.reportNeed
  exact ((h.wr _ hc (hl _ (by simp [needFields]))).wr _ hc (hl _ (by simp [needFields]))).wr _ hc (hl _ (by simp [needFields]))

theorem Dev.reportNeed_within {α : Type} {m : Dev → α} (s : Dev) {c : Nat} (hc : c < 1024) : Within (needFields c) m s (s.reportNeed c) :=
  (Within.refl _ m s).reportNeed hc fun _ he => he

/-- The settings that a commit of a context stages, once its checks have passed. -/
def Dev.stagedCfg (s : Dev) (c : Nat) : Dev :=
  ((s.setCtx c { s.ctx c with nextCfg := some (s.staged ctxFields c) }).setFlag .ITK_CTX_STAT_PEND c true).reportNeed c

theorem Dev.ctxCommit_refused {s : Dev} {c : Nat} (h : s.ctxCheck c (s.staged ctxFields c) ≠ 0) : s.ctxCommit c =
    (s.setFlag .ITK_CTX_STAT_CMTERR c true).wr .ITK_CTX_STAT_ERRCODE c (s.ctxCheck c (s.staged ctxFields c)) := by
  simp [ctxCommit, h]

theorem Dev.ctxCommit_staged {s : Dev} {c : Nat} (h : s.ctxCheck c (s.staged ctxFields c) = 0) : s.ctxCommit c =
    if (s.stagedCfg c).ctxEnabled c then s.stagedCfg c else (s.stagedCfg c).takeCfg c := by
  unfold ctxCommit
  dsimp only
  rw [if_neg (not_not.2 h)]
  rfl

theorem Dev.stagedCfg_ctx (s : Dev) (c : Nat) : (s.stagedCfg c).ctx c = { s.ctx c with nextCfg := some (s.staged ctxFields c) } := by
  simp [stagedCfg, reportNeed]

theorem Dev.within_stagedCfg {α : Type} {m : Dev → α} (s : Dev) {c : Nat} (hc : c < 1024) (hm : ∀ d x, m { d with ctxs := x } = m d) :
    Within ((.ITK_CTX_STAT_PEND, c) :: needFields c) m s (s.stagedCfg c) :=
  (((Within.refl _ m s).setCtx c _ hm).setFlag true hc List.mem_cons_self).reportNeed hc fun _ he => List.mem_cons_of_mem _ he

/-- The committed configuration of a context that was disabled starts it (R64). -/
theorem Dev.takeCfg_starts {s : Dev} {c : Nat} {cfg : Tab Nat} (hnext : (s.ctx c).nextCfg = some cfg)
    (hoff : s.ctxEnabled c = false) (hon : setting cfg .ITK_CTX_CFG1_EN = 1) :
    ∃ x : StreamCtx, x.cfg = cfg ∧ x.nextCfg = none ∧ x.stamps = [] ∧
      s.takeCfg c = ((s.setCtx c x).setFlag .ITK_CTX_STAT_PEND c false).wr .ITK_CTX_STAT_STATE c 1 := by
  refine ⟨{ s.ctx c with cfg := cfg, nextCfg := none, stamps := [], last := none, fresh := true, block := none, noHeader := false,
                         partRecv := false, blocks := 0, halo := [], stats := 0 }, rfl, rfl, rfl, ?_⟩
  have hoff : ¬setting (s.ctx c).cfg .ITK_CTX_CFG1_EN = 1 := by simpa [ctxEnabled] using hoff
  unfold takeCfg
  simp [hnext, hoff, hon]

/-- The settings that a commit of a pipeline stages, once its checks have passed. -/
def Dev.stagedPp (s : Dev) (c : Nat) : Dev :=
  ((s.setCtx c { s.ctx c with nextPp := some (s.staged ppFields c) }).setFlag .ITK_PP_STAT_PEND c true).reportNeed c

theorem Dev.ppCommit_refused {s : Dev} {c : Nat} (h : s.ppCheck (s.ctx c).committed (s.staged ppFields c) ≠ 0) : s.ppCommit c =
    (s.setFlag .ITK_PP_STAT_CMTERR c true).wr .ITK_PP_STAT_ERR c (s.ppCheck (s.ctx c).committed (s.staged ppFields c)) := by
  simp [ppCommit, h]

theorem Dev.ppCommit_staged {s : Dev} {c : Nat} (h : s.ppCheck (s.ctx c).committed (s.staged ppFields c) = 0) : s.ppCommit c =
    if (s.stagedPp c).ctxEnabled c then s.stagedPp c else (s.stagedPp c).takePp c := by
  unfold ppCommit
  dsimp only
  rw [if_neg (not_not.2 h)]
  rfl

theorem Dev.stagedPp_ctx (s : Dev) (c : Nat) : (s.stagedPp c).ctx c = { s.ctx c with nextPp := some (s.staged ppFields c) } := by
  simp [stagedPp, reportNeed]

theorem Dev.within_stagedPp {α : Type} {m : Dev → α} (s : Dev) {c : Nat} (hc : c < 1024) (hm : ∀ d x, m { d with ctxs := x } = m d) :
    Within ((.ITK_PP_STAT_PEND, c) :: needFields c) m s (s.stagedPp c) :=
  (((Within.refl _ m s).setCtx c _ hm).setFlag true hc List.mem_cons_self).reportNeed hc fun _ he => List.mem_cons_of_mem _ he

theorem Dev.takePp_staged {s : Dev} {c : Nat} {pp : Tab Nat} (h : (s.ctx c).nextPp = some pp) : s.takePp c =
    (s.setCtx c { s.ctx c with pp := pp, nextPp := none }).setFlag .ITK_PP_STAT_PEND c false := by
  simp [takePp, h]

/-- What the module holds beside the stream contexts. -/
def Dev.butCtxs (s : Dev) : Dev := { s with ctxs := [] }

theorem Dev.rest_of_butCtxs {s t : Dev} (h : t.rest.butCtxs = s.rest.butCtxs) : t.rest = { s.rest with ctxs := t.ctxs } :=
  (congrArg (fun d : Dev => { d with ctxs := t.ctxs }) h :)

/-- A flag that has been set reads so while what follows leaves it alone. -/
theorem Dev.Within.flag_set {α : Type} {l : List (Field × Nat)} {m : Dev → α} {s t : Dev} {f : Field} {i : Nat} {b : Bool}
    (h : Within l m (s.setFlag f i b) t) (hi : i < 1024) (hf : (f, i) ∉ l) (hw : 1 < 2 ^ f.desc.width) : t.flag f i = b :=
  (h.flag hi hf).trans (s.flag_wr_toNat f i b hw)

theorem Dev.stagedCfg_pend (s : Dev) {c : Nat} (hc : c < 1024) : (s.stagedCfg c).flag .ITK_CTX_STAT_PEND c = true :=
  (Dev.reportNeed_within (m := fun _ => ()) _ hc).flag_set hc (by simp [needFields]) (by decide)

theorem Dev.stagedPp_pend (s : Dev) {c : Nat} (hc : c < 1024) : (s.stagedPp c).flag .ITK_PP_STAT_PEND c = true :=
  (Dev.reportNeed_within (m := fun _ => ()) _ hc).flag_set hc (by simp [needFields]) (by decide)

/-- A flag that has been set reads so after a write of another field. -/
theorem flag_after_wr {s b : Dev} {f g : Field} {i j v : Nat} {x : Bool} (hi : i < 1024) (hj : j < 1024) (hf : f ≠ g := by decide)
    (hw : 1 < 2 ^ f.desc.width := by decide) : (((s.setFlag f i x).wr g j v).notify b).flag f i = x := by
  rw [Dev.notify_flag, Dev.flag, Dev.rd_wr_field _ _ _ _ _ _ hj hi hf.symm]
  exact s.flag_wr_toNat f i x hw

/-- Settles O24. -/
theorem commitsStagedOrRefused : Obligations.CommitsStagedOrRefused := by
  intro s c gen bank t0 p0
  have hc : (c : Nat) < 1024 := by omega
  have hcfg := s.stagedCfg_ctx c
  have hpp := s.stagedPp_ctx c
  have hcfgEn : (s.stagedCfg c).ctxEnabled c = s.ctxEnabled c := by rw [Dev.ctxEnabled, hcfg, Dev.ctxEnabled]
  have hppEn : (s.stagedPp c).ctxEnabled c = s.ctxEnabled c := by rw [Dev.ctxEnabled, hpp, Dev.ctxEnabled]
  have hcfgWithin := s.within_stagedCfg hc (m := Dev.butCtxs) fun _ _ => rfl
  have hppWithin := s.within_stagedPp hc (m := Dev.butCtxs) fun _ _ => rfl
  refine ⟨fun hbad => ?_, fun hok hoff hon => ?_, fun hok hen => ?_, fun hbad => ?_, fun hok => ?_, fun hgen => ?_⟩
  · have hle := s.ctxCheck_le c t0
    have hkept := ((Dev.FieldsKept.refl [(.ITK_CTX_STAT_CMTERR, (c : Nat)), (.ITK_CTX_STAT_ERRCODE, (c : Nat))] s.toDev).setFlag
      (f := .ITK_CTX_STAT_CMTERR) true hc (by simp)).wr (f := .ITK_CTX_STAT_ERRCODE) (s.ctxCheck c t0) hc (by simp)
    refine Completes.of_effect (exec_ctxCommit ..) rfl (Dev.ctxCommit_refused hbad) ⟨?_, ?_, keepsFields_of hkept, by simp⟩
    · exact flag_after_wr hc hc
    · rw [Dev.notify_rd, Dev.rd_wr]
      exact Nat.mod_eq_of_lt (lt_of_le_of_lt hle (by decide))
  · obtain ⟨x, hx, hnext, hstamps, htake⟩ := Dev.takeCfg_starts (s := s.stagedCfg c) (by rw [hcfg]) (hcfgEn.trans hoff) hon
    have hwithin : Dev.Within ((.ITK_CTX_STAT_STATE, (c : Nat)) :: (.ITK_CTX_STAT_PEND, (c : Nat)) :: needFields c) Dev.butCtxs s.toDev
        (((((s.stagedCfg c).setCtx c x).setFlag .ITK_CTX_STAT_PEND c false).wr .ITK_CTX_STAT_STATE c 1)) :=
      (((hcfgWithin.mono fun _ => List.mem_cons_of_mem _).setCtx c x fun _ _ => rfl).setFlag false hc (by simp)).wr 1 hc (by simp)
    refine Completes.of_effect (exec_ctxCommit ..) rfl ((Dev.ctxCommit_staged hok).trans ((if_neg (by simp [hcfgEn, hoff])).trans htake))
      ⟨by simpa using hx, by simpa using hnext, ?_, ?_, by simpa using hstamps, hwithin.kept, by simpa using Dev.rest_of_butCtxs hwithin.same⟩
    · rw [Dev.notify_rd, Dev.rd_wr]; rfl
    · exact flag_after_wr hc hc
  · refine Completes.of_effect (exec_ctxCommit ..) rfl ((Dev.ctxCommit_staged hok).trans (if_pos (hcfgEn.trans hen)))
      ⟨by simpa using hcfg, ?_, hcfgWithin.kept, by simpa using Dev.rest_of_butCtxs hcfgWithin.same⟩
    rw [Dev.notify_flag]
    exact s.stagedCfg_pend hc
  · have hle := s.ppCheck_le (s.ctx c).committed p0
    have hkept := ((Dev.FieldsKept.refl [(.ITK_PP_STAT_CMTERR, (c : Nat)), (.ITK_PP_STAT_ERR, (c : Nat))] s.toDev).setFlag
      (f := .ITK_PP_STAT_CMTERR) true hc (by simp)).wr (f := .ITK_PP_STAT_ERR) (s.ppCheck (s.ctx c).committed p0) hc (by simp)
    refine Completes.of_effect (exec_ppCommit ..) rfl (Dev.ppCommit_refused hbad) ⟨?_, ?_, keepsFields_of hkept, by simp⟩
    · exact flag_after_wr hc hc
    · rw [Dev.notify_rd, Dev.rd_wr]
      exact Nat.mod_eq_of_lt (lt_of_le_of_lt hle (by decide))
  · cases hen : s.ctxEnabled c
    · have htake := Dev.takePp_staged (s := s.stagedPp c) (by rw [hpp])
      have hwithin := (hppWithin.setCtx c { (s.stagedPp c).ctx c with pp := p0, nextPp := none } fun _ _ => rfl).setFlag
        (f := .ITK_PP_STAT_PEND) false hc (by simp)
      refine Completes.of_effect (exec_ppCommit ..) rfl ((Dev.ppCommit_staged hok).trans ((if_neg (by simp [hppEn, hen])).trans htake))
        ⟨?_, (hwithin.mono (by simp [needFields])).kept, by simpa using Dev.rest_of_butCtxs hwithin.same⟩
      rw [if_neg Bool.false_ne_true]
      exact ⟨by simp [p0], (Dev.notify_flag ..).trans (Dev.flag_wr_toNat _ _ _ false (by decide))⟩
    · refine Completes.of_effect (exec_ppCommit ..) rfl ((Dev.ppCommit_staged hok).trans (if_pos (hppEn.trans hen)))
        ⟨?_, (hppWithin.mono (by simp [needFields])).kept, by simpa using Dev.rest_of_butCtxs hppWithin.same⟩
      rw [if_pos rfl]
      exact ⟨by simp [hpp, p0], (Dev.notify_flag ..).trans (s.stagedPp_pend hc)⟩
  · have hkept := (((Dev.FieldsKept.refl [(.ITK_PP_GENSW_GEN, (c : Nat)), (.ITK_PP_GENSW_BANK, (c : Nat)), (.ITK_PP_GENSW_ARM, (c : Nat))]
      s.toDev).wr (f := .ITK_PP_GENSW_GEN) gen hc (by simp)).setFlag (f := .ITK_PP_GENSW_BANK) bank hc (by simp)).setFlag
      (f := .ITK_PP_GENSW_ARM) true hc (by simp)
    refine Completes.of_effect (exec_bankSwitchArm ..) hgen rfl ⟨?_, ?_, ?_, keepsFields_of hkept, by simp [Dev.armBank]⟩
    · have hlt : gen < 2 ^ 16 := of_decide_eq_true hgen
      simp (disch := first | exact hc | decide) [Dev.armBank, Dev.rd_wr_field]
      exact Nat.mod_eq_of_lt hlt
    · exact flag_after_wr hc hc
    · exact (Dev.notify_flag ..).trans (Dev.flag_wr_toNat _ _ _ true (by decide))

/-! ### Pipes (R82, R94) -/

theorem exec_slotComplete (p : Fin 5) (memErr : Bool) (s : State) :
    exec (.slotComplete p memErr) s = s.run (.slotComplete p memErr) fun d => d.slotComplete p memErr := rfl

/-- A slot of context 0 is on pipe 0. -/
def firstSlot : PipeSlot := { ctx := 0, seq := 0, stripe := 0, a := 0, e := 0, since := 0, halo := 0 }

/-- The closed block without lines that the slot is of. -/
def closedBlock : Block := { seq := 0, number := 0, start := 0, cfg := [], pp := [], space := 0, closed := true }

/-- Pipe 0 works on the first slot of a closed block, and its overhead counter stands at its maximum. -/
def overheadFull : State :=
  { toDev := ({ power := .run, pipes := [(0, firstSlot)], ctxs := [(0, { block := some closedBlock })] } : Dev).wr
      .ITK_PIPE_OVH 0 (2 ^ 32 - 1) }

/-- Refutes O25: `ITK_PIPE_OVH` has 32 bits (R82), and its count wraps there, not at 64 bits. -/
theorem not_pipesTakeAndFinishSlots : ¬ Obligations.PipesTakeAndFinishSlots := by
  intro h
  obtain ⟨-, -, hcomplete⟩ := h overheadFull 0 ⟨0, 0, 0, closedBlock, 0⟩ firstSlot closedBlock
  obtain ⟨-, -, hcount⟩ := (hcomplete (by decide) (by decide) (by decide)).post (exec_slotComplete ..) rfl
  exact absurd (hcount (by decide)).1 (by decide)

end Sys2Proof.Machine

end

section
/-! Compare generators (R241 to R243): what a hit changes. -/

namespace Sys2Proof.Machine

open Sys2Proof

theorem upTo_eq_range (n : Nat) : upTo n = List.range n := by
  induction n with
  | zero => rfl
  | succ n ih => rw [upTo, ih, List.range_succ]

namespace Dev.Within

variable {α : Type} {l : List (Field × Nat)} {m : Dev → α} {s t : Dev}

theorem startTriggers (h : Within l m s t) (g at_ : Nat) (hm : ∀ d x, m { d with trgs := x } = m d) : Within l m s (t.startTriggers g at_) := by
  refine .foldl _ h fun d k _ => ?_
  split
  · exact (refl l m d).setTrg _ _ hm
  · exact .refl l m d

theorem wakeLinks (h : Within l m s t) (g : Nat) (hm : ∀ d x, m { d with links := x } = m d) : Within l m s (t.wakeLinks g) := by
  refine .foldl _ h fun d n _ => ?_
  split
  · exact (refl l m d).setLink _ _ hm
  · exact .refl l m d

theorem askUplinks (h : Within l m s t) (g stamp at_ : Nat) (hm : ∀ d x, m { d with links := x } = m d) :
    Within l m s (t.askUplinks g stamp at_) := by
  refine .foldl _ h fun d n _ => ?_
  dsimp only
  repeat' split
  · exact (refl l m d).setLink _ _ hm
  · exact (refl l m d).setLink _ _ hm
  · exact .refl l m d

theorem pruneStamps (h : Within l m s t) (c : Nat) (hm : ∀ d x, m { d with ctxs := x } = m d) : Within l m s (t.pruneStamps c) :=
  h.setCtx c _ hm

/-- A stamp joins a context's queue, or finds it full and breaks the context. -/
theorem pushStamp (h : Within l m s t) {c : Nat} (hc : c < 1024) (pos time : Nat) (hl : ∀ e ∈ breakFields c, e ∈ l) (hm : ApartFromBlocks m)
    (hq : Quiet m) : Within l m s (t.pushStamp c pos time) := by
  have hctxs (d : Dev) (x : Tab StreamCtx) : m { d with ctxs := x } = m d :=
    hm d x d.marks d.parts d.fusions d.sync d.herd d.zports d.mem d.ring d.capUsed d.free
  unfold Dev.pushStamp
  dsimp only
  split
  · exact (h.pruneStamps c hctxs).setCtx c _ hctxs
  · split
    · exact h.breakBlock hc _ hl hm hq
    · exact h.setCtx c _ hctxs

/-- A stamp that a context's queue has room for changes that context alone. -/
theorem pushStamp_room (h : Within l m s t) (c pos time : Nat) (hroom : (t.ctx c).stamps.length < 256)
    (hm : ∀ d x, m { d with ctxs := x } = m d) : Within l m s (t.pushStamp c pos time) := by
  unfold Dev.pushStamp
  dsimp only
  split
  · exact (h.setCtx c _ hm).setCtx c _ hm
  · rw [if_neg (by omega)]
    exact h.setCtx c _ hm

end Dev.Within

theorem Dev.pushStamp_ctx_ne {s : Dev} {c k : Nat} (pos time : Nat) (hroom : (s.ctx c).stamps.length < 256) (hk : k ≠ c) :
    (s.pushStamp c pos time).ctx k = s.ctx k := by
  unfold pushStamp
  dsimp only
  split
  · rw [ctx_setCtx_ne _ _ _ _ hk, pruneStamps, ctx_setCtx_ne _ _ _ _ hk]
  · rw [if_neg (by omega), ctx_setCtx_ne _ _ _ _ hk]

/-- Stamps that every queue has room for change the contexts alone. -/
theorem Dev.pushStamps_within {α : Type} {l : List (Field × Nat)} {m : Dev → α} (hm : ∀ d x, m { d with ctxs := x } = m d) (pos time : Nat)
    {cs : List Nat} (hcs : cs.Nodup) (s : Dev) (hroom : ∀ c ∈ cs, (s.ctx c).stamps.length < 256) :
    Within l m s (cs.foldl (fun d c => d.pushStamp c pos time) s) := by
  induction cs generalizing s with
  | nil => exact .refl l m s
  | cons c cs ih =>
    obtain ⟨hc, hcs⟩ := List.nodup_cons.1 hcs
    have hfirst := hroom c List.mem_cons_self
    refine ((Within.refl l m s).pushStamp_room c pos time hfirst hm).trans (ih hcs _ fun k hk => ?_)
    rw [pushStamp_ctx_ne pos time hfirst fun h => hc (h ▸ hk)]
    exact hroom k (List.mem_cons_of_mem _ hk)

theorem Dev.ctxsOf_nodup (s : Dev) (g : Nat) : (s.ctxsOf g).Nodup := by
  unfold ctxsOf
  rw [upTo_eq_range]
  exact List.nodup_range.filter _

theorem Dev.ctxsOf_congr {s t : Dev} (h : t.ctxs = s.ctxs) (g : Nat) : t.ctxsOf g = s.ctxsOf g := by
  simp only [ctxsOf, ctxEnabled, ctx_congr h]

theorem Dev.Within.gens_eq {l : List (Field × Nat)} {s t : Dev} (h : Within l Dev.gens s t) : t.gens = s.gens := h.same

/-- What the module holds beside what a hit changes. -/
def Dev.butHit (s : Dev) : Dev := { s with gens := [], trgs := [], links := [], ctxs := [] }

theorem Dev.rest_of_butHit {s t : Dev} (h : t.rest.butHit = s.rest.butHit) :
    t.rest = { s.rest with gens := t.gens, trgs := t.trgs, links := t.links, ctxs := t.ctxs } :=
  (congrArg (fun d : Dev => { d with gens := t.gens, trgs := t.trgs, links := t.links, ctxs := t.ctxs }) h :)

/-! ### A hit (R241) -/

/-- The fields that contexts may change that break on a hit. -/
def hitFields : List (Field × Nat) := (upTo 64).flatMap breakFields

/-- A hit is counted, starts triggers, wakes links and stamps contexts; nothing apart from blocks, triggers and links changes. -/
theorem Dev.issueHit_within {α : Type} {m : Dev → α} (s : Dev) (g stamp at_ : Nat)
    (ht : ∀ d x y, m { d with trgs := x, links := y } = m d) (hm : ApartFromBlocks m) (hq : Quiet m) :
    Within hitFields m (s.countMod .ENC_CG_ISSUED g) (s.issueHit g stamp at_) := by
  have hlinks (d : Dev) (y : Tab Link) : m { d with links := y } = m d := ht d d.trgs y
  have hwoken := ((Within.refl hitFields m (s.countMod .ENC_CG_ISSUED g)).startTriggers g at_ fun d x => ht d x d.links).wakeLinks g hlinks
  refine Within.askUplinks (.foldl _ hwoken fun d c hc => ?_) g stamp at_ hlinks
  have hc : c < 64 := mem_upTo.1 (List.mem_filter.1 hc).1
  refine (Within.refl _ m d).pushStamp (by omega) stamp _ (fun e he => ?_) hm hq
  exact List.mem_flatMap.2 ⟨c, mem_upTo.2 hc, he⟩

/-- A hit that every queue has room for changes its counter, and triggers, links and contexts alone. -/
theorem Dev.issueHit_room {α : Type} {m : Dev → α} (s : Dev) (g stamp at_ : Nat)
    (hm : ∀ d x y z, m { d with trgs := x, links := y, ctxs := z } = m d) (hroom : ∀ c ∈ s.ctxsOf g, (s.ctx c).stamps.length < 256) :
    Within [] m (s.countMod .ENC_CG_ISSUED g) (s.issueHit g stamp at_) := by
  have hlinks (d : Dev) (y : Tab Link) : m { d with links := y } = m d := hm d d.trgs y d.ctxs
  let t := ((s.countMod .ENC_CG_ISSUED g).startTriggers g at_).wakeLinks g
  have hwoken {β : Type} {k : Dev → β} (hk : ∀ d x y, k { d with trgs := x, links := y } = k d) :
      Within [] k (s.countMod .ENC_CG_ISSUED g) t :=
    ((Within.refl _ k _).startTriggers g at_ fun d x => hk d x d.links).wakeLinks g fun d y => hk d d.trgs y
  have hctxs : t.ctxs = s.ctxs := (hwoken (k := Dev.ctxs) fun _ _ _ => rfl).ctxs_eq.trans (wr_ctxs ..)
  refine Within.askUplinks ?_ g stamp at_ hlinks
  refine (hwoken fun d x y => hm d x y d.ctxs).trans (pushStamps_within (fun d z => hm d d.trgs d.links z) _ _ (ctxsOf_nodup _ _) _ ?_)
  intro c hc
  rw [ctx_congr hctxs]
  exact hroom c (ctxsOf_congr hctxs g ▸ hc)

/-! ### A crossing (R241 to R243) -/

theorem exec_cgDisarm (g : Fin 8) (s : State) : exec (.cgDisarm g) s = s.run (.cgDisarm g) fun d => d.cgDisarm g := rfl

theorem exec_compareHit (g : Fin 8) (s : State) : exec (.compareHit g) s = s.run (.compareHit g) fun d => d.compareHit g := rfl

/-- The source has reached the next compare value. -/
theorem Dev.crossingDue_reached {s : Dev} {g : Nat} (h : atOrAfter (s.srcPos g) (s.rd .ENC_CG_NEXT g) = true) :
    s.crossingDue g = some (s.rd .ENC_CG_NEXT g, wrap 64 (s.rd .ENC_CG_NEXT g + s.rd .ENC_CG_SPACE g)) := by
  simp [crossingDue, h]

theorem Dev.compareHit_runs {s : Dev} {g : Nat} (hlive : s.live = true) (hclock : s.xclkOn = true) (hstop : s.flag .ENC_CG_STAT_FSTOP g = false)
    (hrun : s.flag .ENC_CG_STAT_RUN g = true) (hreached : atOrAfter (s.srcPos g) (s.rd .ENC_CG_NEXT g) = true) :
    s.compareHit g = (s.crossing g (wrap 64 (s.rd .ENC_CG_NEXT g + s.rd .ENC_CG_SPACE g))).offerHit g (s.rd .ENC_CG_NEXT g) := by
  simp [compareHit, hlive, hclock, hstop, hrun, crossingDue_reached hreached]

/-- A hit that falls due on an idle generator is issued at once (R241). -/
theorem Dev.offerHit_idle {s : Dev} {g stamp : Nat} (hqueue : (s.gen g).queue = []) (hfree : (s.gen g).free ≤ s.xclk) :
    s.offerHit g stamp = (s.setGen g { s.gen g with free := s.xclk + 2 }).issueHit g stamp s.xclk := by
  simp [offerHit, hqueue, hfree]

theorem wrap_wrap (w n : Nat) : wrap w (wrap w n) = wrap w n := Nat.mod_mod n _

/-- The fields that a crossing may change. -/
def crossingFields (g : Nat) : List (Field × Nat) := [(.ENC_CG_NEXT, g), (.ENC_CG_ISSUED, g), (.ENC_CG_STAT_DONE, g), (.ENC_CG_STAT_RUN, g)]

theorem Dev.crossing_within {α : Type} {m : Dev → α} (s : Dev) {g : Nat} (hg : g < 1024) (next : Nat) (hm : ∀ d x, m { d with gens := x } = m d) :
    Within (crossingFields g) m s (s.crossing g next) := by
  have hnext := ((Within.refl (crossingFields g) m s).wr (f := .ENC_CG_NEXT) next hg (by simp [crossingFields])).setGen g
    { s.gen g with hits := (s.gen g).hits + 1 } hm
  unfold crossing
  dsimp only
  split
  · exact (hnext.setFlag true hg (by simp [crossingFields])).setFlag false hg (by simp [crossingFields])
  · exact hnext

theorem Dev.crossing_reads (s : Dev) {g : Nat} (hg : g < 1024) (next : Nat) :
    (s.crossing g next).gen g = { s.gen g with hits := (s.gen g).hits + 1 } ∧ (s.crossing g next).rd .ENC_CG_NEXT g = wrap 64 next ∧
      (s.crossing g next).rd .ENC_CG_ISSUED g = s.rd .ENC_CG_ISSUED g ∧
      (s.flag .ENC_CG_CTL_CONTINUOUS g = false → s.rd .ENC_CG_COUNT g ≤ (s.gen g).hits + 1 →
        (s.crossing g next).flag .ENC_CG_STAT_DONE g = true ∧ (s.crossing g next).flag .ENC_CG_STAT_RUN g = false) := by
  unfold crossing
  refine ⟨?_, ?_, ?_, fun hcont hcount => ?_⟩
  · dsimp only
    split <;> simp
  · dsimp only
    split <;> simp (disch := first | exact hg | decide) [rd_wr_field] <;> rfl
  · dsimp only
    split <;> simp (disch := first | exact hg | decide) [rd_wr_field]
  · have hlast : (!((s.wr .ENC_CG_NEXT g next).setGen g { s.gen g with hits := (s.gen g).hits + 1 }).flag .ENC_CG_CTL_CONTINUOUS g &&
        decide (((s.wr .ENC_CG_NEXT g next).setGen g { s.gen g with hits := (s.gen g).hits + 1 }).rd .ENC_CG_COUNT g ≤ (s.gen g).hits + 1)) =
        true := by
      have hcont : s.rd .ENC_CG_CTL_CONTINUOUS g = 0 := by simpa [flag] using hcont
      simp (disch := first | exact hg | decide) [rd_wr_field, flag, hcont, hcount]
    dsimp only
    rw [if_pos hlast]
    refine ⟨?_, flag_wr_toNat _ .ENC_CG_STAT_RUN g false (by decide)⟩
    exact (congrArg (· != 0) (rd_wr_field _ _ _ _ _ _ hg hg (by decide))).trans (flag_wr_toNat _ .ENC_CG_STAT_DONE g true (by decide))

/-- Settles O11. -/
theorem compareGeneratorRuns : Obligations.CompareGeneratorRuns := by
  intro s g
  have hg : (g : Nat) < 1024 := by omega
  refine ⟨?_, fun hlive hclock hstop hrun hreached hqueue hfree => ?_, fun hlive hclock hstop hreached => ?_⟩
  · have hkept := (((Dev.FieldsKept.refl [(.ENC_CG_CTL_ARM, (g : Nat)), (.ENC_CG_STAT_RUN, (g : Nat)), (.ENC_CG_STAT_FSTOP, (g : Nat))]
      s.toDev).setFlag (f := .ENC_CG_CTL_ARM) false hg (by simp)).setFlag (f := .ENC_CG_STAT_RUN) false hg (by simp)).setFlag
      (f := .ENC_CG_STAT_FSTOP) false hg (by simp)
    refine Completes.of_effect (exec_cgDisarm ..) rfl rfl ⟨?_, ?_, by simp [Dev.cgDisarm, Dev.notify_gen], keepsFields_of hkept, by simp [Dev.cgDisarm]⟩
    · simp (disch := first | exact hg | decide) [Dev.cgDisarm, Dev.rd_wr_field, Dev.flag, wrap]
    · simp (disch := first | exact hg | decide) [Dev.cgDisarm, Dev.rd_wr_field, Dev.flag, wrap]
  · let t := s.crossing g (wrap 64 (s.rd .ENC_CG_NEXT g + s.rd .ENC_CG_SPACE g))
    let u := t.setGen g { t.gen g with free := s.xclk + 2 }
    obtain ⟨hgen, hnext, hissued, hlast⟩ := s.crossing_reads hg (wrap 64 (s.rd .ENC_CG_NEXT g + s.rd .ENC_CG_SPACE g))
    have hcross {α : Type} {m : Dev → α} (hm : ∀ d x, m { d with gens := x } = m d) : Dev.Within (crossingFields g) m s.toDev u :=
      (s.crossing_within hg _ hm).setGen g _ hm
    have hxclk : t.xclk = s.xclk := (s.crossing_within hg _ (m := Dev.xclk) fun _ _ => rfl).same
    have heff : s.compareHit g = u.issueHit g (s.rd .ENC_CG_NEXT g) s.xclk := by
      rw [Dev.compareHit_runs hlive hclock hstop hrun hreached, Dev.offerHit_idle (by rw [hgen, hqueue]) (by rw [hgen, hxclk]; exact hfree), hxclk]
    have hhit := u.issueHit_within g (s.rd .ENC_CG_NEXT g) s.xclk (m := Dev.gens) (fun _ _ _ => rfl) (fun _ _ _ _ _ _ _ _ _ _ _ _ => rfl)
      fun d e h => show d.body.gens = e.body.gens by rw [h]
    have hlate (f : Field) (hf : (f, (g : Nat)) ∉ hitFields) (hne : f ≠ .ENC_CG_ISSUED) :
        (u.issueHit g (s.rd .ENC_CG_NEXT g) s.xclk).rd f g = t.rd f g :=
      (hhit.rd hg hf).trans ((Dev.rd_wr_field _ _ _ _ _ _ hg hg hne.symm).trans (Dev.setGen_rd ..))
    have hgens : (u.issueHit g (s.rd .ENC_CG_NEXT g) s.xclk).gen g = u.gen g := by
      have hsame : (u.issueHit g (s.rd .ENC_CG_NEXT g) s.xclk).gens = u.gens := hhit.gens_eq.trans (Dev.wr_gens ..)
      simp only [Dev.gen, hsame]
    refine Completes.of_effect (exec_compareHit ..) rfl heff ⟨?_, ?_, ?_, ?_, fun hcont hcount => ?_, fun hroom => ?_⟩
    · rw [Dev.notify_rd, hlate _ (by simp [hitFields, breakFields, logFields]) (by decide), hnext]
      exact wrap_wrap 64 _
    · rw [Dev.notify_rd, hhit.rd hg (by simp [hitFields, breakFields, logFields]), Dev.countMod_eq, Dev.rd_wr, Dev.setGen_rd, hissued]
      rfl
    · rw [Dev.notify_gen, hgens, Dev.gen_setGen, hgen]
    · rw [Dev.notify_gen, hgens, Dev.gen_setGen]
    · obtain ⟨hdone, hstopped⟩ := hlast hcont hcount
      constructor
      · rw [Dev.notify_flag, Dev.flag, hlate _ (by simp [hitFields, breakFields, logFields]) (by decide)]
        exact hdone
      · rw [Dev.notify_flag, Dev.flag, hlate _ (by simp [hitFields, breakFields, logFields]) (by decide)]
        exact hstopped
    · have hctxs : u.ctxs = s.ctxs := (hcross (m := Dev.ctxs) fun _ _ => rfl).ctxs_eq
      have hissue := u.issueHit_room g (s.rd .ENC_CG_NEXT g) s.xclk (m := Dev.butHit) (fun _ _ _ _ => rfl) fun c hc => by
        rw [Dev.ctx_congr hctxs]
        exact hroom c (Dev.ctxsOf_congr hctxs g ▸ hc)
      have hwithin := ((hcross (m := Dev.butHit) fun _ _ => rfl).countMod (f := .ENC_CG_ISSUED) hg (by simp [crossingFields])).trans
        (hissue.mono (by simp))
      exact ⟨hwithin.kept, by simpa using Dev.rest_of_butHit hwithin.same⟩
  · have heff : s.compareHit g = (s.wr .ENC_CG_NEXT g (wrap 64 (s.rd .ENC_CG_NEXT g + s.rd .ENC_CG_SPACE g))).count .ENC_CG_SKIP g := by
      simp [Dev.compareHit, hlive, hclock, hstop, Dev.crossingDue_reached hreached]
    have hkept := ((Dev.FieldsKept.refl [(.ENC_CG_SKIP, (g : Nat)), (.ENC_CG_NEXT, (g : Nat))]
      s.toDev).wr (f := .ENC_CG_NEXT) (wrap 64 (s.rd .ENC_CG_NEXT g + s.rd .ENC_CG_SPACE g)) hg (by simp)).count (f := .ENC_CG_SKIP) hg (by simp)
    refine Completes.of_effect (exec_compareHit ..) rfl heff ⟨?_, ?_, keepsFields_of hkept, by simp⟩
    · simp (disch := first | exact hg | decide) [Dev.rd_wr_field, wrap_satSucc]
      rfl
    · simp (disch := first | exact hg | decide) [Dev.rd_wr_field]
      exact wrap_wrap 64 _

end Sys2Proof.Machine

end

section
/-! Parts (R28, R31, R34, R249, R250): deadlines, the maximum length, and verdict records that merge or are counted. -/

namespace Sys2Proof.Machine

open Sys2Proof

/-! ### Deadlines (R34) -/

theorem exec_deadlineReached (id : Nat) (s : State) : exec (.deadlineReached id) s = s.run (.deadlineReached id) fun d => d.deadlineReached id := rfl

theorem exec_partMaxLength (lane : Fin 64) (stamp : Nat) (s : State) :
    exec (.partMaxLength lane stamp) s = s.run (.partMaxLength lane stamp) fun d => d.partMaxLength lane stamp := rfl

theorem Dev.updPart_rest (s : Dev) (id : Nat) (g : Part → Part) : (s.updPart id g).rest = { s.rest with parts := (s.updPart id g).parts } := rfl

theorem Dev.updPart_kept (l : List (Field × Nat)) (s : Dev) (id : Nat) (g : Part → Part) : FieldsKept l s (s.updPart id g) := .of_regs rfl rfl rfl

/-! ### The maximum length (R28) -/

theorem Part.marked_id (p : Part) (code : Nat) : (p.marked code).id = p.id := by unfold Part.marked; split <;> rfl

theorem Part.marked_fin (p : Part) (code : Nat) : (p.marked code).fin = p.fin := by unfold Part.marked; split <;> rfl

theorem rankOf_mergeCode (old new : Nat) : rankOf (mergeCode old new) = max (rankOf old) (rankOf new) := by
  unfold mergeCode
  split
  · exact (max_eq_right (by omega)).symm
  · exact (max_eq_left (by omega)).symm

theorem Part.rankOf_take (p : Part) (code : Nat) : rankOf (p.take code).verd = max (rankOf p.verd) (rankOf code) := rankOf_mergeCode _ _

theorem Part.rankOf_marked (p : Part) (code : Nat) : rankOf p.verd ≤ rankOf (p.marked code).verd := by
  unfold Part.marked
  split
  · exact le_rfl
  · rw [Part.rankOf_take]; exact le_max_left _ _

/-- Marks keep a part's identifier and its end, and lower no verdict's rank. -/
theorem Dev.marksOn_keeps (s : Dev) (p : Part) :
    (s.marksOn p).id = p.id ∧ (s.marksOn p).fin = p.fin ∧ rankOf p.verd ≤ rankOf (s.marksOn p).verd := by
  unfold marksOn
  induction s.marks generalizing p with
  | nil => exact ⟨rfl, rfl, le_rfl⟩
  | cons k l ih =>
    rw [List.foldl_cons]
    split
    · obtain ⟨hid, hfin, hrank⟩ := ih (p.marked k.code)
      exact ⟨hid.trans (p.marked_id _), hfin.trans (p.marked_fin _), (p.rankOf_marked _).trans hrank⟩
    · exact ih p

/-- A part as it closes, at a position and with a device code. -/
def Dev.closedPart (s : Dev) (fin code : Nat) (p : Part) : Part :=
  let p := { p with fin := some fin, workFault := false }
  s.marksOn (if (p.take code).ovf then (p.take code).take 0xE4 else p.take code)

theorem Dev.closedPart_keeps (s : Dev) (fin code : Nat) (p : Part) :
    (s.closedPart fin code p).id = p.id ∧ (s.closedPart fin code p).fin = some fin ∧ rankOf code ≤ rankOf (s.closedPart fin code p).verd := by
  unfold closedPart
  dsimp only
  split
  · obtain ⟨hid, hfin, hrank⟩ := s.marksOn_keeps ((({ p with fin := some fin, workFault := false } : Part).take code).take 0xE4)
    rw [Part.rankOf_take, Part.rankOf_take] at hrank
    exact ⟨hid, hfin, by omega⟩
  · obtain ⟨hid, hfin, hrank⟩ := s.marksOn_keeps (({ p with fin := some fin, workFault := false } : Part).take code)
    rw [Part.rankOf_take] at hrank
    exact ⟨hid, hfin, by omega⟩

/-- The open part of a lane that closes leaves the lane, is closed, and its close is announced. -/
theorem Dev.closePart_open {s : Dev} {l id : Nat} {p : Part} (hopen : (s.lane l).openPart = some id) (hp : s.part? id = some p) (fin code : Nat) :
    let t := (s.setLane l { s.lane l with openPart := none }).updPart id ((s.setLane l { s.lane l with openPart := none }).closedPart fin code)
    ∃ q, s.closePart l fin (some code) = t.announce q true := by
  intro t
  have hq : t.part? id = some (((s.setLane l { s.lane l with openPart := none }).closedPart fin code) p) := by
    rw [part?_updPart _ _ _ fun p => (Dev.closedPart_keeps _ fin code p).1, part?_congr (s := s) (setLane_parts ..), hp]
    rfl
  unfold closePart
  rw [hopen]
  refine ⟨(s.setLane l { s.lane l with openPart := none }).closedPart fin code p, ?_⟩
  change (match t.part? id with
    | some q => t.announce q true
    | none => t) = _
  rw [hq]

/-- What the module holds beside the parts, the lanes and what the Zanyx ports keep, and beside what a Tally event changes. -/
def Dev.butParts (s : Dev) : Dev := { s.body with parts := [], lanes := [], zports := [] }

theorem Dev.body_of_butParts {s t : Dev} (h : t.rest.butParts = s.rest.butParts) :
    t.body = { s.body with parts := t.parts, lanes := t.lanes, zports := t.zports } :=
  (congrArg (fun d : Dev => { d with parts := t.parts, lanes := t.lanes, zports := t.zports }) h :)

theorem Dev.Within.announce {α : Type} {l : List (Field × Nat)} {m : Dev → α} {s t : Dev} (h : Within l m s t) (p : Part) (close : Bool)
    (hm : ∀ d x, m { d with zports := x } = m d) : Within l m s (t.announce p close) := by
  unfold Dev.announce
  split
  · exact h.toAll _ hm
  · exact h

/-- A part that has reached the maximum length closes there, and its lane waits for absence. -/
theorem Dev.partMaxLength_tooLong {s : Dev} {l id stamp : Nat} {p : Part} (hp : s.part? id = some p) (hopen : (s.lane l).openPart = some id)
    (hlong : s.tooLong l stamp p = true) : s.partMaxLength l stamp = s.overlong l p := by
  simp [partMaxLength, hopen, hp, hlong]

theorem Dev.Within.parts_eq {l : List (Field × Nat)} {s t : Dev} (h : Within l Dev.parts s t) : t.parts = s.parts := h.same

theorem Dev.Within.lanes_eq {l : List (Field × Nat)} {s t : Dev} (h : Within l Dev.lanes s t) : t.lanes = s.lanes := h.same

theorem Dev.announce_parts (s : Dev) (p : Part) (close : Bool) : (s.announce p close).parts = s.parts :=
  ((Within.refl [] Dev.parts s).announce p close fun _ _ => rfl).parts_eq

theorem Dev.announce_lanes (s : Dev) (p : Part) (close : Bool) : (s.announce p close).lanes = s.lanes :=
  ((Within.refl [] Dev.lanes s).announce p close fun _ _ => rfl).lanes_eq

theorem Dev.Within.updPart {α : Type} {l : List (Field × Nat)} {m : Dev → α} {s t : Dev} (h : Within l m s t) (id : Nat) (g : Part → Part)
    (hm : ∀ d x, m { d with parts := x } = m d) : Within l m s (t.updPart id g) := h.step rfl rfl rfl (hm t.rest (t.updPart id g).parts)

/-- A lane whose part has closed, and waits for absence. -/
def Dev.blockLane (s : Dev) (l : Nat) : Dev := s.setLane l { s.lane l with blocked := true }

theorem Dev.overlong_of_closePart {s t : Dev} {l : Nat} {p : Part}
    (h : s.closePart l (wrap 64 (p.start + cts (s.slot p.slot).maxLen)) (some 0xE4) = t) : s.overlong l p = t.blockLane l := by
  unfold overlong blockLane
  rw [h]

theorem Dev.blockLane_lane (s : Dev) (l : Nat) : (s.blockLane l).lane l = { s.lane l with blocked := true } := lane_setLane ..

theorem Dev.setLane_updPart_within (s : Dev) (l id : Nat) (x : Lane) (g : Part → Part) (q : Part) :
    Within [] butParts s ((((s.setLane l x).updPart id g).announce q true).blockLane l) := by
  have h := (((Within.refl [] butParts s).setLane l x fun _ _ => rfl).updPart id g fun _ _ => rfl).announce q true fun _ _ => rfl
  exact h.setLane l _ fun _ _ => rfl

theorem Dev.updPart_parts_congr {s t : Dev} (h : t.parts = s.parts) (id : Nat) (g : Part → Part) : (t.updPart id g).parts = (s.updPart id g).parts := by
  simp only [updPart, h]

/-- What becomes of an overlong part and its lane. -/
theorem Dev.overlong_reads {s : Dev} {l id : Nat} {p : Part} (hp : s.part? id = some p) (hopen : (s.lane l).openPart = some id) :
    Within [] butParts s (s.overlong l p) ∧ ((s.overlong l p).lane l).openPart = none ∧ ((s.overlong l p).lane l).blocked = true ∧
      (∃ d : Dev, (s.overlong l p).parts = (s.updPart id (d.closedPart (wrap 64 (p.start + cts (s.slot p.slot).maxLen)) 0xE4)).parts) := by
  obtain ⟨q, hclose⟩ := closePart_open hopen hp (wrap 64 (p.start + cts (s.slot p.slot).maxLen)) 0xE4
  rw [overlong_of_closePart hclose, blockLane_lane]
  generalize wrap 64 (p.start + cts (s.slot p.slot).maxLen) = fin
  refine ⟨setLane_updPart_within .., ?_, rfl, s.setLane l { s.lane l with openPart := none }, ?_⟩
  · change ((((s.setLane l { s.lane l with openPart := none }).updPart id _).announce q true).lane l).openPart = none
    rw [lane, announce_lanes]
    exact congrArg Lane.openPart (lane_setLane s l { s.lane l with openPart := none })
  · exact (announce_parts _ q true).trans (updPart_parts_congr (setLane_parts ..) ..)

/-- Settles O13: expiry changes one part, and an overlong part closes with OVERLONG merged by rank. -/
theorem deadlineAndMaximumLength : Obligations.DeadlineAndMaximumLength := by
  intro s id p lane stamp hp hid hstamp
  refine ⟨fun halive hdue => ?_, fun hopen hlong => ?_⟩
  · have heff : s.deadlineReached id = s.updPart id Part.expire := by simp [Dev.deadlineReached, hp, halive, hdue]
    refine Completes.of_effect (exec_deadlineReached ..) (decide_eq_true hid) heff ⟨?_, fun q hq hne => ?_, keepsFields_of (Dev.updPart_kept _ _ _ _), ?_⟩
    · rw [Dev.part?_congr (Dev.notify_parts ..), Dev.part?_updPart s.toDev id Part.expire fun _ => rfl, hp]
      rfl
    · rw [Dev.notify_parts]; exact Dev.mem_parts_updPart _ hq hne
    · rw [Dev.notify_rest, Dev.notify_parts, Dev.updPart_rest]
  · obtain ⟨hwithin, hnone, hblocked, d, hparts⟩ := Dev.overlong_reads hp hopen
    have hkeeps := d.closedPart_keeps (wrap 64 (p.start + cts (s.slot p.slot).maxLen)) 0xE4
    have hfind : (s.overlong lane p).part? id = some (d.closedPart (wrap 64 (p.start + cts (s.slot p.slot).maxLen)) 0xE4 p) := by
      rw [Dev.part?_congr hparts, Dev.part?_updPart _ _ _ fun p => (hkeeps p).1, hp]
      rfl
    refine Completes.of_effect (exec_partMaxLength ..) ?_ (Dev.partMaxLength_tooLong hp hopen hlong)
      ⟨?_, ?_, ?_, ?_, fun q hq hne => ?_, hwithin.kept, ?_⟩
    · exact decide_eq_true hstamp
    · rw [Dev.part?_congr (Dev.notify_parts ..), hfind]; exact congrArg some (hkeeps p).2.1
    · rw [Dev.part?_congr (Dev.notify_parts ..), hfind]; exact decide_eq_true (hkeeps p).2.2
    · simpa using hnone
    · simpa using hblocked
    · rw [Dev.notify_parts, hparts]; exact Dev.mem_parts_updPart _ hq hne
    · simpa using Dev.body_of_butParts hwithin.same

end Sys2Proof.Machine

end

section
/-! Verdict records (R31, R249, R250) and memory errors in the Separator window (R267). -/

namespace Sys2Proof.Machine

open Sys2Proof

/-! ### Verdict records -/

/-- A program's own code reaches the part's verdict and its program verdict by rank, `AUX` with the latter (R31). -/
theorem Part.merge_code (p : Part) {code : Nat} (aux : Nat) (h : code < 0xE0) :
    p.merge code aux = { p with
      recs := satSucc 16 p.recs
      verd := if rankOf p.verd < code + 1 then code else p.verd
      pverd := if rankOf p.pverd < code + 1 then code else p.pverd
      aux := if rankOf p.pverd < code + 1 then aux else p.aux } := by
  have hrank : rankOf code = code + 1 := by unfold rankOf; repeat' split <;> try omega
  unfold merge
  simp only [Part.take, mergeCode, hrank, if_neg (show ¬ 0xE0 ≤ code by omega)]
  split <;> rfl

theorem Dev.takeRecord_bad {s : Dev} {r : VerdictRec} (h : s.part? r.partid = none) : s.takeRecord r = s.observe 146 := by
  simp [takeRecord, h]

theorem Dev.takeRecord_late {s : Dev} {r : VerdictRec} {p : Part} (hp : s.part? r.partid = some p) (hid : r.partid ≠ 0xFFFFFFFF)
    (hovf : p.ovf = false) (hlane : p.lane = r.lane) (hresv : r.resv = 0) (hdue : s.pastDeadline p = true) :
    s.takeRecord r = s.observe 144 := by
  simp [takeRecord, hp, hid, hovf, hlane, hresv, hdue]

theorem Dev.observe_rest (s : Dev) (k n : Nat) : (s.observe k n).rest = { s.rest with counters := (s.observe k n).counters } := rfl

/-- A record that is counted has no other effect. -/
theorem completes_countedRecord {s : State} {r : VerdictRec} {k : Nat} (hwf : r.wf = true) (hworker : s.worker = false)
    (h : s.takeRecord r = s.toDev.observe k) :
    Completes (.verdictRecord r) s fun t =>
      t.counter k = wrap 64 (s.counter k + 1) ∧ KeepsFields s t [] ∧ t.rest = { s.rest with counters := t.counters } := by
  have hwithin : Dev.Within [] (fun _ => ()) s.toDev (s.toDev.observe k) := (Dev.Within.refl _ _ _).observe k 1 fun _ _ _ => rfl
  refine .of_effect (exec_verdictRecord_of_not_worker r s hworker) hwf h ⟨?_, hwithin.kept, ?_⟩
  · simp [Dev.counter, Dev.observe]
  · rw [Dev.notify_rest, Dev.notify_counters, Dev.observe_rest]

/-- Settles O16: an accepted record changes its part by `Part.merge`, and any other only its counter. -/
theorem verdictRecordMerged : Obligations.VerdictRecordMerged := by
  intro s r p hwf hworker
  refine ⟨fun hp hid hovf hlane hresv hdue hcode => ?_, fun hp => ?_, fun hp hid hovf hlane hresv hdue => ?_⟩
  · have htake := Dev.takeRecord_accepted hp hid hovf hlane hresv hdue
    rw [if_neg (by omega), if_neg (by omega)] at htake
    refine .of_effect (exec_verdictRecord_of_not_worker r s hworker) hwf htake
      ⟨?_, fun q hq hne => ?_, keepsFields_of (Dev.updPart_kept _ _ _ _), ?_⟩
    · rw [Dev.part?_congr (Dev.notify_parts ..), Dev.part?_updPart _ _ _ fun _ => Part.merge_id _ _ _, hp]
      exact congrArg some (p.merge_code r.aux hcode)
    · rw [Dev.notify_parts]; exact Dev.mem_parts_updPart _ hq hne
    · rw [Dev.notify_rest, Dev.notify_parts, Dev.updPart_rest]
  · exact completes_countedRecord hwf hworker (Dev.takeRecord_bad hp)
  · exact completes_countedRecord hwf hworker (Dev.takeRecord_late hp hid hovf hlane hresv hdue)

/-! ### Memory errors in the window -/

/-- What the module holds beside what the loss of a part changes. -/
def Dev.butTracking (s : Dev) : Dev :=
  { s.body with parts := [], fires := [], nextRun := 0, lanes := [], slots := [], jobs := [], posted := [], free := 0 }

theorem Dev.quiet_butTracking : Quiet butTracking := fun d e h => by
  simp only [butTracking, rest_body, h]

theorem Dev.body_of_butTracking {s t : Dev} (h : t.rest.butTracking = s.rest.butTracking) :
    t.body = { s.body with parts := t.parts, fires := t.fires, nextRun := t.nextRun, lanes := t.lanes, slots := t.slots,
                           jobs := t.jobs, posted := t.posted, free := t.free } :=
  (congrArg (fun d : Dev => { d with
    parts := t.parts, fires := t.fires, nextRun := t.nextRun, lanes := t.lanes, slots := t.slots, jobs := t.jobs, posted := t.posted
    free := t.free }) h :)

section

variable {α : Type} {l : List (Field × Nat)} {m : Dev → α} {s t : Dev}

theorem Dev.Within.ownRun (h : Within l m s t) (x : List Fire) (hm : ∀ d a b, m { d with fires := a, nextRun := b } = m d) :
    Within l m s (t.ownRun x) := h.step rfl rfl rfl (hm t.rest _ _)

/-- An entry that is taken out changes the fire queue and its runs alone. -/
theorem Dev.Within.dropFire (h : Within l m s t) (f : Fire) (hm : ∀ d a b, m { d with fires := a, nextRun := b } = m d) :
    Within l m s (t.dropFire f) := by
  have hdrop (x : List Fire) : Within l m s { t with fires := x } := h.step rfl rfl rfl (hm t.rest x t.nextRun)
  unfold Dev.dropFire
  dsimp only
  split
  · exact hdrop _
  · exact .foldl _ (hdrop _) fun d x _ => (refl l m d).ownRun x hm

theorem Dev.Within.stopStanding (h : Within l m s t) (k : Nat) (hl : (.JOB_Q_TAIL, 8) ∈ l)
    (hm : ∀ d a b, m { d with jobs := a, posted := b } = m d) : Within l m s (t.stopStanding k) := by
  unfold Dev.stopStanding
  exact (h.wr _ (by decide) hl).step rfl rfl rfl (hm (t.wr .JOB_Q_TAIL 8 _).rest _ _)

/-- A slot that returns to READY stops its standing jobs (R39, R190). -/
theorem Dev.Within.retire (h : Within l m s t) (k : Nat) (hl : (.JOB_Q_TAIL, 8) ∈ l)
    (hm : ∀ d a b c, m { d with slots := a, jobs := b, posted := c } = m d) : Within l m s (t.retire k) := by
  unfold Dev.retire
  split
  · exact (h.setSlot k _ fun d x => hm d x d.jobs d.posted).stopStanding k hl fun d => hm d d.slots
  · exact h

end

theorem Dev.stopStanding_parts (s : Dev) (k : Nat) : (s.stopStanding k).parts = s.parts :=
  ((Within.refl [(.JOB_Q_TAIL, 8)] Dev.parts s).stopStanding k (by simp) fun _ _ _ => rfl).parts_eq

theorem Dev.retire_parts (s : Dev) (k : Nat) : (s.retire k).parts = s.parts :=
  ((Within.refl [(.JOB_Q_TAIL, 8)] Dev.parts s).retire k (by simp) fun _ _ _ _ => rfl).parts_eq

theorem Dev.dropFire_parts (s : Dev) (f : Fire) : (s.dropFire f).parts = s.parts :=
  ((Within.refl [] Dev.parts s).dropFire f fun _ _ _ => rfl).parts_eq

/-- The lane of a lost part has it open no more. -/
def Dev.leaveLane (s : Dev) (p : Part) : Dev :=
  if (s.lane p.lane).openPart = some p.id then s.setLane p.lane { s.lane p.lane with openPart := none } else s

/-- The entries of a part whose ON is not committed are taken out. -/
def Dev.dropUncommitted (s : Dev) (id : Nat) : Dev :=
  ((s.entriesOf id).filter fun (f : Fire) => f.onEdge.isNone).foldl (fun (d : Dev) (f : Fire) => d.dropFire f) s

/-- A part leaves the table. -/
def Dev.withoutPart (s : Dev) (id : Nat) : Dev := { s with parts := s.parts.filter fun (q : Part) => q.id != id }

theorem Dev.losePart_eq (s : Dev) (p : Part) :
    s.losePart p = (((s.dropUncommitted p.id).leaveLane p).withoutPart p.id).retire p.slot := rfl

section

variable {α : Type} {l : List (Field × Nat)} {m : Dev → α} {s t : Dev}

theorem Dev.Within.leaveLane (h : Within l m s t) (p : Part) (hm : ∀ d x, m { d with lanes := x } = m d) : Within l m s (t.leaveLane p) := by
  unfold Dev.leaveLane
  split
  · exact h.setLane _ _ hm
  · exact h

theorem Dev.Within.dropUncommitted (h : Within l m s t) (id : Nat) (hm : ∀ d a b, m { d with fires := a, nextRun := b } = m d) :
    Within l m s (t.dropUncommitted id) := .foldl _ h fun d f _ => (refl l m d).dropFire f hm

theorem Dev.Within.withoutPart (h : Within l m s t) (id : Nat) (hm : ∀ d x, m { d with parts := x } = m d) :
    Within l m s (t.withoutPart id) := h.step rfl rfl rfl (hm t.rest (t.withoutPart id).parts)

end

/-- A lost part takes its uncommitted entries, its place as a lane's open part and, with the last part of a slot, the slot's standing
jobs with it. -/
theorem Dev.losePart_within (s : Dev) (p : Part) : Within [(.JOB_Q_TAIL, 8)] butTracking s (s.losePart p) := by
  have hdrop := (Within.refl [(.JOB_Q_TAIL, 8)] butTracking s).dropUncommitted p.id fun _ _ _ => rfl
  have hleave := hdrop.leaveLane p fun _ _ => rfl
  have hout := hleave.withoutPart p.id fun _ _ => rfl
  exact hout.retire p.slot (List.mem_singleton.2 rfl) fun _ _ _ _ => rfl

theorem Dev.losePart_parts (s : Dev) (p : Part) : (s.losePart p).parts = s.parts.filter fun (q : Part) => q.id != p.id := by
  have hdrop := (Within.refl [] Dev.parts s).dropUncommitted p.id fun _ _ _ => rfl
  have hleave := (hdrop.leaveLane p fun _ _ => rfl).parts_eq
  rw [losePart_eq, retire_parts, withoutPart, hleave]

/-- The fields that an uncorrectable error of Vat changes (R174). -/
def vatErrorFields : List (Field × Nat) :=
  [(.MEM_UE_ADDR, 0), (.MEM_UE_SRC, 0), (.MEM_ECC_STAT_VUE, 0), (.MEM_VUE_CNT, 0), (.MEM_ECC_STAT_CRCUE, 0)] ++ logFields

/-- The fields that an uncorrectable error of the window changes. -/
def struckFields : List (Field × Nat) :=
  (.SEP_STAT_MEMERR, 0) :: (.SEP_STAT_LSTOP, 0) :: (.MEM_UE_SRC, 0) :: (.MEM_UE_ADDR, 0) ::
    (.MEM_ECC_STAT_VUE, 0) :: (.MEM_ECC_STAT_CRCUE, 0) :: (.MEM_VUE_CNT, 0) :: logFields

theorem vatErrorFields_struck : ∀ e ∈ vatErrorFields, e ∈ struckFields := by simp [vatErrorFields, struckFields, logFields]

/-- An uncorrectable error of Vat is kept with its address and its requester (R174). -/
theorem Dev.uncorrectable_reads (s : Dev) {a src : Nat} (ha : inLpddr a = false) (hs : src < 2 ^ 8) (hv : a < 2 ^ 64) :
    Within vatErrorFields body s (s.uncorrectable a src true) ∧ (s.uncorrectable a src true).rd .MEM_UE_SRC = src ∧
      (s.uncorrectable a src true).rd .MEM_UE_ADDR = a ∧ (s.uncorrectable a src true).flag .MEM_ECC_STAT_VUE = true := by
  have hquiet : Quiet body := fun d e h => by simpa using h
  let u := (s.setFlag .MEM_ECC_STAT_VUE 0 true).count .MEM_VUE_CNT
  let v := (u.wr .MEM_UE_ADDR 0 a).wr .MEM_UE_SRC 0 src
  have heff : s.uncorrectable a src true = (v.setFlag .MEM_ECC_STAT_CRCUE 0 true).tally 0x0050 src 0xFFFFFFFF a := by
    unfold uncorrectable
    simp [ha, u, v]
  have hlater : Within ((.MEM_ECC_STAT_CRCUE, 0) :: logFields) body v (s.uncorrectable a src true) := by
    rw [heff]
    exact ((Within.refl _ _ v).setFlag true (by decide) (by simp)).tally _ _ _ _ _ (by simp [logFields]) hquiet
  have hu : Within vatErrorFields body s u :=
    ((Within.refl _ _ s).setFlag true (by decide) (by simp [vatErrorFields])).count (by decide) (by simp [vatErrorFields])
  have hv' : Within [(.MEM_UE_ADDR, 0), (.MEM_UE_SRC, 0)] body u v :=
    ((Within.refl _ _ u).wr a (by decide) (by simp)).wr src (by decide) (by simp)
  refine ⟨(hu.trans (hv'.mono (by simp [vatErrorFields]))).trans (hlater.mono (by simp [vatErrorFields, logFields])), ?_, ?_, ?_⟩
  · rw [hlater.rd (by decide) (by simp [logFields])]
    exact (Dev.rd_wr ..).trans (wrap_of_lt hs)
  · rw [hlater.rd (by decide) (by simp [logFields])]
    exact ((Dev.rd_wr_field _ _ _ _ _ _ (by decide) (by decide) (by decide)).trans (Dev.rd_wr ..)).trans (wrap_of_lt hv)
  · rw [hlater.flag (by decide) (by simp [logFields]), hv'.flag (by decide) (by simp)]
    exact ((Within.refl [(.MEM_VUE_CNT, 0)] (fun _ => ()) (s.setFlag .MEM_ECC_STAT_VUE 0 true)).count (by decide) (by simp)).flag_set (by decide)
      (by simp) (by decide)

theorem Dev.Within.noteStruck {α : Type} {l : List (Field × Nat)} {m : Dev → α} {s t : Dev} (h : Within l m s t) (ofs id : Nat)
    (hl : ∀ e ∈ (.SEP_STAT_MEMERR, 0) :: logFields, e ∈ l) (hm : Quiet m) : Within l m s (t.noteStruck ofs id) :=
  (h.setFlag true (by decide) (hl _ List.mem_cons_self)).tally _ _ _ _ _ (fun e he => hl e (List.mem_cons_of_mem _ he)) hm

theorem Dev.noteStruck_flag (s : Dev) (ofs id : Nat) : (s.noteStruck ofs id).flag .SEP_STAT_MEMERR = true :=
  ((Within.refl logFields (fun _ => ()) (s.setFlag .SEP_STAT_MEMERR 0 true)).tally 0x0046 0xFF id ofs 0 (fun _ h => h)
    fun _ _ _ => rfl).flag_set (by decide) (by simp [logFields]) (by decide)

theorem exec_separatorMemoryError (what : SepStrike) (s : State) :
    exec (.separatorMemoryError what) s = s.run (.separatorMemoryError what) fun d => d.separatorMemoryError what := rfl

theorem Dev.Within.driveStop {α : Type} {l : List (Field × Nat)} {m : Dev → α} {s t : Dev} (h : Within l m s t)
    (hl : (.SEP_STAT_LSTOP, 0) ∈ l) : Within l m s t.driveStop := h.setFlag true (by decide) hl

theorem Dev.driveStop_flag (s : Dev) : s.driveStop.flag .SEP_STAT_LSTOP = true := flag_wr_toNat _ _ _ _ (by decide)

/-- What a struck part leaves. -/
theorem Dev.strikePart_reads (s : Dev) (ofs : Nat) (p : Part) :
    Within ((.SEP_STAT_MEMERR, 0) :: (.SEP_STAT_LSTOP, 0) :: (.JOB_Q_TAIL, 8) :: logFields) butTracking s (s.strikePart ofs p) ∧
      (s.strikePart ofs p).flag .SEP_STAT_MEMERR = true ∧ (s.strikePart ofs p).flag .SEP_STAT_LSTOP = true ∧
      (s.strikePart ofs p).parts = s.parts.filter fun (q : Part) => q.id != p.id := by
  unfold strikePart
  generalize hnote : s.useFree.noteStruck ofs (s.struckId p.id) = u
  have hu : Within ((.SEP_STAT_MEMERR, 0) :: (.SEP_STAT_LSTOP, 0) :: (.JOB_Q_TAIL, 8) :: logFields) butTracking s u :=
    hnote ▸ ((Within.refl _ _ s).useFree fun _ _ => rfl).noteStruck _ _ (by simp [logFields]) quiet_butTracking
  have hlost := u.losePart_within p
  have hstop : Within [(.JOB_Q_TAIL, 8), (.SEP_STAT_LSTOP, 0)] butTracking u ((u.losePart p).driveStop) :=
    (hlost.mono (by simp)).driveStop (by simp)
  refine ⟨hu.trans (hstop.mono (by simp)), ?_, driveStop_flag _, ?_⟩
  · exact (hstop.flag (by decide) (by simp)).trans (hnote ▸ noteStruck_flag ..)
  · have hparts : u.parts = s.parts := hnote ▸ tally_parts ..
    exact (losePart_parts u p).trans (by rw [hparts])

theorem Dev.strikeFree_reads (s : Dev) (ofs : Nat) :
    Within ((.SEP_STAT_MEMERR, 0) :: (.SEP_STAT_LSTOP, 0) :: logFields) body s (s.strikeFree ofs) ∧
      (s.strikeFree ofs).flag .SEP_STAT_MEMERR = true ∧ (s.strikeFree ofs).flag .SEP_STAT_LSTOP = true := by
  unfold strikeFree
  generalize hstruck : s.noteStruck ofs 0xFFFFFFFF = u
  have hnote : Within ((.SEP_STAT_MEMERR, 0) :: (.SEP_STAT_LSTOP, 0) :: logFields) body s u :=
    hstruck ▸ (Within.refl _ _ s).noteStruck _ _ (by simp [logFields]) fun d e h => by simpa using h
  have hstop := (Within.refl [(.SEP_STAT_LSTOP, 0)] body u).driveStop (by simp)
  exact ⟨hnote.driveStop (by simp), (hstop.flag (by decide) (by simp)).trans (hstruck ▸ noteStruck_flag ..), driveStop_flag u⟩

theorem find?_filter_of_find? {α : Type} {p q : α → Bool} {l : List α} {x : α} (h : l.find? p = some x) (hx : q x = true) :
    (l.filter q).find? p = some x := by
  induction l with
  | nil => cases h
  | cons y l ih =>
    by_cases hp : p y = true
    · obtain rfl : y = x := by simpa [hp] using h
      simp [hx, hp]
    · have ht : l.find? p = some x := by simpa [hp] using h
      by_cases hq : q y = true
      · simpa [List.filter, hq, hp] using ih ht
      · simpa [List.filter, hq] using ih ht

theorem inLpddr_window {ofs : Nat} (h : ofs < 2 ^ 20 * 64) : inLpddr (sepBase + ofs) = false := by
  unfold inLpddr sepBase
  exact decide_eq_false (by simp only [lpddrBase, lpddrSize]; omega)

theorem Dev.separatorMemoryError_part {s : Dev} {id : Nat} {p : Part} (hp : s.part? id = some p) (hovf : p.ovf = false) :
    s.separatorMemoryError (.part id) =
      (s.useFree.uncorrectable (sepBase + 64 * s.freeValue 14) 18 true).strikePart (64 * s.freeValue 14) p := by
  have hfind : (s.parts.filter fun (p : Part) => !p.ovf).find? (fun p => p.id == id) = some p :=
    find?_filter_of_find? hp (by simp [hovf])
  simp [separatorMemoryError, hfind]

theorem Dev.separatorMemoryError_free (s : Dev) (ofs : Nat) :
    s.separatorMemoryError (.free ofs) = (s.uncorrectable (sepBase + ofs % 0x300000) 18 true).strikeFree (ofs % 0x300000) := rfl

theorem Dev.Within.body_eq {l : List (Field × Nat)} {s t : Dev} (h : Within l body s t) : t.body = s.body := by simpa using h.same

/-- Settles O18: the error is kept as requester 18's and the strike on the part, or on the free entry, follows it. -/
theorem separatorMemoryErrorHandled : Obligations.SeparatorMemoryErrorHandled := by
  intro s id ofs p
  refine ⟨fun hp hovf _ => ?_, ?_⟩
  · have hfree : 64 * s.freeValue 14 < 2 ^ 20 * 64 := by
      have : s.freeValue 14 < 2 ^ 14 := Nat.mod_lt _ (by decide)
      omega
    obtain ⟨hstruck, hsrc, -, -⟩ := s.useFree.uncorrectable_reads (src := 18) (inLpddr_window hfree) (by decide)
      (by unfold sepBase; omega)
    have hwithin := hstruck.mono vatErrorFields_struck
    have heff := Dev.separatorMemoryError_part hp hovf
    generalize s.useFree.uncorrectable (sepBase + 64 * s.freeValue 14) 18 true = w at hwithin hsrc heff
    obtain ⟨hstrike, hmem, hstop, hparts⟩ := w.strikePart_reads (64 * s.freeValue 14) p
    have hid : p.id = id := by simpa using List.find?_some hp
    have hwparts : w.parts = s.parts := (congrArg Dev.parts hwithin.same :)
    rw [hid, hwparts] at hparts
    have hmask : Dev.Within struckFields Dev.butTracking s.toDev w :=
      ⟨(Dev.FieldsKept.of_regs rfl rfl rfl).trans hwithin.fields,
        (congrArg (fun d : Dev => d.butTracking) hwithin.same :)⟩
    have hall := (hmask.mono (k := struckFields ++ [(.JOB_Q_TAIL, 8)]) fun _ h => List.mem_append_left _ h).trans (hstrike.mono (by simp [struckFields, logFields]))
    refine .of_effect (exec_separatorMemoryError ..) rfl heff
      ⟨?_, ?_, ?_, ?_, fun q hq hne => ?_, (hall.mono (by simp [struckFields, logFields])).kept, ?_⟩
    · rw [Dev.notify_flag]; exact hmem
    · rw [Dev.notify_flag]; exact hstop
    · rw [Dev.notify_rd, hstrike.rd (by decide) (by simp [logFields])]; exact hsrc
    · rw [Dev.part?_congr (Dev.notify_parts ..)]
      unfold Dev.part?
      rw [hparts]
      exact List.find?_eq_none.2 fun q hq => by simpa using (List.mem_filter.1 hq).2
    · rw [Dev.notify_parts, hparts]
      exact List.mem_filter.2 ⟨hq, by simpa using hne⟩
    · simpa using Dev.body_of_butTracking hall.same
  · have hofs : ofs % 0x300000 < 0x300000 := Nat.mod_lt _ (by decide)
    obtain ⟨hstruck, hsrc, haddr, -⟩ := s.toDev.uncorrectable_reads (a := sepBase + ofs % 0x300000) (src := 18)
      (inLpddr_window (by omega)) (by decide) (by unfold sepBase; omega)
    have hwithin := hstruck.mono vatErrorFields_struck
    obtain ⟨hstrike, hmem, hstop⟩ :=
      (s.toDev.uncorrectable (sepBase + ofs % 0x300000) 18 true).strikeFree_reads (ofs % 0x300000)
    have hall := hwithin.trans (hstrike.mono (by simp [struckFields, logFields]))
    refine .of_effect (exec_separatorMemoryError ..) rfl (Dev.separatorMemoryError_free ..) ⟨?_, ?_, ?_, ?_, hall.kept, ?_⟩
    · rw [Dev.notify_flag]; exact hmem
    · rw [Dev.notify_flag]; exact hstop
    · rw [Dev.notify_rd]; exact (hstrike.rd (by decide) (by simp [logFields])).trans hsrc
    · rw [Dev.notify_rd]; exact (hstrike.rd (by decide) (by simp [logFields])).trans haddr
    · exact (Dev.notify_body ..).trans hall.body_eq

end Sys2Proof.Machine

end

section
/-! Modes (R128, R219) and the maintenance activities that a mode has held (R419). -/

namespace Sys2Proof.Machine

open Sys2Proof

/-! ### Entries in force and stored -/

theorem Dev.odNum_setOd_same (s : Dev) (index sub n d : Nat) : (s.setOd index sub n).odNum index sub d = n := by
  simp [odNum, setOd]

theorem Dev.odNum_setOd_ne (s : Dev) {index sub x y : Nat} (n d : Nat) (h : odKey x y ≠ odKey index sub) :
    (s.setOd index sub n).odNum x y d = s.odNum x y d := by
  simp [odNum, setOd, tabFind?_put_ne _ _ h]

/-- What is stored over a reset is the dictionary's and the store's alone. -/
theorem Dev.storeN_reads (s : Dev) (index sub d n : Nat) (h : odKey index sub ≠ odKey 0x1001 3) :
    (s.storeN index sub d n).odNum index sub d = n ∧
      (s.storeN index sub d n).rest = { s.rest with od := (s.storeN index sub d n).od, nvm := (s.storeN index sub d n).nvm } ∧
      Within [] (fun _ => ()) s (s.storeN index sub d n) := by
  unfold storeN storeNvm
  split
  · exact ⟨odNum_setOd_same .., rfl, (Within.refl _ _ s).step rfl rfl rfl rfl⟩
  · exact ⟨(odNum_setOd_ne _ _ _ h).trans (odNum_setOd_same ..), rfl, (Within.refl _ _ s).step rfl rfl rfl rfl⟩

/-! ### Maintenance activities -/

theorem activityNo_lt (x : Activity) : activityNo x < 8 := by cases x <;> decide

theorem activityNo_injective {x y : Activity} (h : activityNo x = activityNo y) : x = y := by
  revert h; cases x <;> cases y <;> decide

theorem Dev.mntSt_setMnt_same (s : Dev) (x : Activity) {n : Nat} (hn : n < 2 ^ 3) : (s.setMnt x n).mntSt x = n :=
  (Dev.rd_wr ..).trans (wrap_of_lt hn)

theorem Dev.mntSt_setMnt_ne (s : Dev) {x y : Activity} (n : Nat) (h : y ≠ x) : (s.setMnt x n).mntSt y = s.mntSt y :=
  Dev.rd_wr_ne _ _ _ _ _ _ (by have := activityNo_lt x; omega) (by have := activityNo_lt y; omega) fun e => h (activityNo_injective e.2).symm

theorem Dev.mntPower_setMnt (s : Dev) (x y : Activity) (n : Nat) : (s.setMnt x n).mntPower y = s.mntPower y := by
  simp [mntPower, firmware, setMnt]

/-- The fields that show the activities' statuses. -/
def mntFields : List (Field × Nat) := activities.map fun x => (.MLK_MNT_ST, activityNo x)

theorem mem_mntFields (x : Activity) : (Field.MLK_MNT_ST, activityNo x) ∈ mntFields := by cases x <;> decide

theorem Dev.Within.setMnt {α : Type} {l : List (Field × Nat)} {m : Dev → α} {s t : Dev} (h : Within l m s t) (x : Activity) (n : Nat)
    (hl : (.MLK_MNT_ST, activityNo x) ∈ l) : Within l m s (t.setMnt x n) := h.wr n (by have := activityNo_lt x; omega) hl

/-- One queued activity starts if it may. -/
def Dev.startOne (s : Dev) (x : Activity) : Dev := if s.mntSt x = 1 && s.mayStart x then s.setMnt x 2 else s

theorem Dev.startQueued_eq (s : Dev) : s.startQueued = activities.foldl startOne s := rfl

theorem Dev.startQueued_within (s : Dev) : Within mntFields id s s.startQueued := by
  refine .foldl _ (.refl _ _ s) fun d x _ => ?_
  split
  · exact (Within.refl _ _ d).setMnt x 2 (mem_mntFields x)
  · exact .refl _ _ d

theorem Dev.mntPower_startOne (s : Dev) (x y : Activity) : (s.startOne x).mntPower y = s.mntPower y := by
  unfold startOne
  split
  · exact s.mntPower_setMnt ..
  · rfl

/-- An activity whose status a start changes was queued and runs. -/
theorem Dev.startOne_changes {s : Dev} {x y : Activity} (h : (s.startOne x).mntSt y ≠ s.mntSt y) :
    s.mntSt y = 1 ∧ (s.startOne x).mntSt y = 2 ∧ s.mntPower y = true := by
  unfold startOne at h ⊢
  by_cases hstart : (s.mntSt x = 1 && s.mayStart x) = true
  · rw [if_pos hstart] at h ⊢
    by_cases hy : y = x
    · subst hy
      obtain ⟨hqueued, hmay⟩ := by simpa using hstart
      obtain ⟨⟨hpower, -⟩, -⟩ := by simpa [mayStart] using hmay
      exact ⟨hqueued, s.mntSt_setMnt_same y (by decide), hpower⟩
    · exact absurd (s.mntSt_setMnt_ne 2 hy) h
  · rw [if_neg hstart] at h
    exact absurd rfl h

/-- So do the starts of any activities in turn. -/
theorem Dev.starts_change (l : List Activity) {s : Dev} {y : Activity} (h : (l.foldl startOne s).mntSt y ≠ s.mntSt y) :
    s.mntSt y = 1 ∧ (l.foldl startOne s).mntSt y = 2 ∧ s.mntPower y = true := by
  induction l generalizing s with
  | nil => exact absurd rfl h
  | cons x l ih =>
    rw [List.foldl_cons] at h ⊢
    by_cases hlater : (l.foldl startOne (s.startOne x)).mntSt y = (s.startOne x).mntSt y
    · rw [hlater] at h ⊢
      exact startOne_changes h
    · obtain ⟨hqueued, hruns, hpower⟩ := ih hlater
      have hsame : (s.startOne x).mntSt y = s.mntSt y := by
        by_contra hne
        have := (startOne_changes hne).2.1
        omega
      exact ⟨hsame ▸ hqueued, hruns, (s.mntPower_startOne x y) ▸ hpower⟩

/-! ### The modes -/

theorem exec_reproModeWrite (port : Port) (v : Bool) (s : State) : exec (.reproModeWrite port v) s =
    s.run (.reproModeWrite port v) fun d => d.served port 0x3001 1 fun d => d.reproModeWrite port v := rfl

theorem exec_fixedModeWrite (port : Port) (v : Bool) (s : State) : exec (.fixedModeWrite port v) s =
    s.run (.fixedModeWrite port v) fun d => d.served port 0x3001 4 fun d => d.fixedModeWrite port v := rfl

theorem Dev.Within.status {α : Type} {l : List (Field × Nat)} {m : Dev → α} {s t : Dev} (h : Within l m s t) (n : Nat)
    (hm : ∀ d x, m { d with svc := x } = m d) : Within l m s (t.status n) := h.step rfl rfl rfl (hm t.rest _)

/-- A write that a status alone answers. -/
theorem completes_status {c : Instr} {s : State} {f : Dev → Dev} (h : exec c s = s.run c f) (hw : c.wf = true) (n : Nat)
    (hf : f s.toDev = s.status n) :
    Completes c s fun t => t.svc.lastStatus = n ∧ KeepsFields s t [] ∧ t.rest = { s.rest with svc := t.svc } := by
  refine .of_effect h hw hf ⟨?_, ((Dev.Within.refl [] (fun _ => ()) s.toDev).status n fun _ _ => rfl).kept, ?_⟩
  · rw [Dev.notify_svc]; rfl
  · rw [Dev.notify_rest, Dev.notify_svc]; rfl

/-- The mode ends. -/
def Dev.leaveFixed (s : Dev) : Dev :=
  { (s.setFlag .GLB_MODE_FIXED 0 false).setFlag .GLB_DET_STAT_FIXED 0 false with fixing := false, runHit := false }

/-- The mode is to begin once every Churn runs. -/
def Dev.beginFixed (s : Dev) : Dev := { s.startChurns with fixing := true }

theorem Dev.fixedModeWrite_idle {s : Dev} {port : Port} {v : Bool} (hw : mayWrite rwNoRwNo port = true) (hfix : s.fixing = false)
    (hmode : s.flag .GLB_MODE_FIXED = !v) (hjobs : s.jobs = []) (hidle : ∀ n : Fin 16, s.resident n = none) :
    s.fixedModeWrite port v = (if v then s.beginFixed.enterFixed else s.leaveFixed.startQueued).status stOk := by
  have hnone : ((upTo 16).any fun n => (s.resident n).isSome) = false :=
    List.any_eq_false.2 fun n hn => by simp [hidle ⟨n, lt_of_mem_upTo hn⟩]
  cases v <;> simp [fixedModeWrite, beginFixed, leaveFixed, hw, hfix, hmode, hjobs, hnone]

/-- The mode's fields. -/
def modeFields : List (Field × Nat) := [(.GLB_MODE_FIXED, 0), (.GLB_DET_STAT_FIXED, 0)]

/-- What a mode leaves alone of what the module holds beside the fields. -/
def Dev.butMode (s : Dev) : Dev := { s with svc := {}, fixing := false, runHit := false }

theorem Dev.startChurns_within (s : Dev) : Within ((upTo 16).map fun n => (.CHN_STAT_PWR, n)) id s s.startChurns := by
  refine .foldl _ (.refl _ _ s) fun d n hn => ?_
  have hlt := lt_of_mem_upTo hn
  have hmem : (Field.CHN_STAT_PWR, n) ∈ (upTo 16).map fun n => (Field.CHN_STAT_PWR, n) := List.mem_map.2 ⟨n, hn, rfl⟩
  repeat' split
  · exact .refl _ _ d
  · exact (Within.refl _ _ d).wr 3 (by omega) hmem
  · exact (Within.refl _ _ d).wr 1 (by omega) hmem
  · exact .refl _ _ d

/-- The mode reads 1 only once every Churn in service runs. -/
theorem Dev.enterFixed_reads {s : Dev} (hfix : s.fixing = true) (hoff : s.flag .GLB_MODE_FIXED = false) :
    Within modeFields butMode s s.enterFixed ∧ (s.enterFixed.flag .GLB_MODE_FIXED = true ∨ s.enterFixed.fixing = true) ∧
      (s.enterFixed.flag .GLB_MODE_FIXED = true →
        ∀ n : Fin 16, s.enterFixed.flag .CHN_STAT_ISO n = false → s.enterFixed.rd .CHN_STAT_PWR n = 3) := by
  unfold enterFixed
  by_cases hrun : s.allRun = true
  · have hw : Within modeFields butMode s ((s.setFlag .GLB_MODE_FIXED 0 true).setFlag .GLB_DET_STAT_FIXED 0 true) :=
      ((Within.refl _ _ s).setFlag true (by decide) (by simp [modeFields])).setFlag true (by decide) (by simp [modeFields])
    rw [if_pos (by simp [hfix, hrun])]
    refine ⟨hw.step rfl rfl rfl rfl, .inl ?_, fun _ n hiso => ?_⟩
    · change ((s.setFlag .GLB_MODE_FIXED 0 true).setFlag .GLB_DET_STAT_FIXED 0 true).flag .GLB_MODE_FIXED = true
      rw [flag, setFlag, Dev.rd_wr_field _ _ _ _ _ _ (by decide) (by decide) (by decide)]
      exact s.flag_wr_toNat _ 0 true (by decide)
    · have hn : (n : Nat) < 1024 := by omega
      have hall := List.all_eq_true.1 hrun n (mem_upTo.2 n.2)
      have hiso' : s.flag .CHN_STAT_ISO n = false := (hw.flag hn (by simp [modeFields])).symm.trans hiso
      exact (hw.rd hn (by simp [modeFields])).trans (by simpa [hiso'] using hall)
  · rw [if_neg (by simp [hrun])]
    exact ⟨.refl _ _ s, .inr hfix, fun h => absurd (hoff.symm.trans h) (by decide)⟩

theorem Dev.rest_of_butMode {s t : Dev} (h : t.rest.butMode = s.rest.butMode) :
    t.rest = { s.rest with svc := t.svc, fixing := t.fixing, runHit := t.runHit } :=
  (congrArg (fun d : Dev => { d with svc := t.svc, fixing := t.fixing, runHit := t.runHit }) h :)

theorem Dev.leaveFixed_within (s : Dev) : Within modeFields butMode s s.leaveFixed :=
  (((Within.refl _ _ s).setFlag false (by decide) (by simp [modeFields])).setFlag false (by decide) (by simp [modeFields])).step
    rfl rfl rfl rfl

theorem Dev.leaveFixed_flag (s : Dev) : s.leaveFixed.flag .GLB_MODE_FIXED = false := by
  change ((s.setFlag .GLB_MODE_FIXED 0 false).setFlag .GLB_DET_STAT_FIXED 0 false).flag .GLB_MODE_FIXED = false
  rw [flag, setFlag, Dev.rd_wr_field _ _ _ _ _ _ (by decide) (by decide) (by decide)]
  exact s.flag_wr_toNat _ 0 false (by decide)

theorem Dev.leaveFixed_mntPower (s : Dev) (x : Activity) : s.leaveFixed.mntPower x = s.mntPower x := by
  simp [mntPower, firmware, leaveFixed, setFlag]

theorem Dev.Within.left {α : Type} {l : List (Field × Nat)} {m : Dev → α} {s t : Dev} (h : Within l m s t) (k : List (Field × Nat)) :
    Within (l ++ k) m s t := h.mono fun _ => List.mem_append_left _

theorem Dev.Within.right {α : Type} {l : List (Field × Nat)} {m : Dev → α} {s t : Dev} (h : Within l m s t) (k : List (Field × Nat)) :
    Within (k ++ l) m s t := h.mono fun _ => List.mem_append_right _

/-- A change of fields alone leaves every part alone. -/
theorem Dev.Within.any {α : Type} {l : List (Field × Nat)} {s t : Dev} (h : Within l id s t) (m : Dev → α) : Within l m s t :=
  ⟨h.fields, congrArg m h.same⟩

theorem Dev.Within.fixing_eq {l : List (Field × Nat)} {s t : Dev} (h : Within l id s t) : t.fixing = s.fixing := (h.any Dev.fixing).same

theorem Dev.Within.runHit_eq {l : List (Field × Nat)} {s t : Dev} (h : Within l id s t) : t.runHit = s.runHit := (h.any Dev.runHit).same

theorem Dev.Within.fixing {l : List (Field × Nat)} {s t : Dev} (h : Within l butMode s t) (b : Bool) :
    Within l butMode s { t with fixing := b } := h.step rfl rfl rfl rfl

theorem Dev.beginFixed_within (s : Dev) : Within ((upTo 16).map fun n => (.CHN_STAT_PWR, n)) butMode s s.beginFixed :=
  (s.startChurns_within.any butMode).fixing true

/-- The end of the mode, and the starts of the activities that it has held. -/
theorem Dev.leaveFixed_starts (s : Dev) :
    Within (modeFields ++ mntFields) butMode s s.leaveFixed.startQueued ∧ s.leaveFixed.startQueued.flag .GLB_MODE_FIXED = false ∧
      s.leaveFixed.startQueued.fixing = false ∧ s.leaveFixed.startQueued.runHit = false ∧
      (∀ x, s.leaveFixed.startQueued.mntSt x ≠ s.mntSt x →
        s.mntSt x = 1 ∧ s.leaveFixed.startQueued.mntSt x = 2 ∧ s.mntPower x = true) := by
  have hleave := s.leaveFixed_within
  have hstart := s.leaveFixed.startQueued_within
  have hmnt (x : Activity) : s.leaveFixed.mntSt x = s.mntSt x := hleave.rd (by have := activityNo_lt x; omega) (by simp [modeFields])
  refine ⟨(hleave.left mntFields).trans ((hstart.right modeFields).any butMode), ?_, hstart.fixing_eq, hstart.runHit_eq, fun x hchange => ?_⟩
  · exact (hstart.flag (by decide) (by decide)).trans s.leaveFixed_flag
  · rw [← hmnt x, ← s.leaveFixed_mntPower x]
    exact starts_change activities fun h => hchange (h.trans (hmnt x))

/-- Settles O42: the mode is entered once every Churn runs, and its end starts the queued activities alone. -/
theorem modesAreWritten : Obligations.ModesAreWritten := by
  intro s port v ha hrec
  have harm (b : Bool) (hw : mayWrite rwNoRwNo port = true) (hfix : s.fixing = false) (hmode : s.flag .GLB_MODE_FIXED = !b)
      (hjobs : s.jobs = []) (hidle : ∀ n : Fin 16, s.resident n = none) :=
    (Dev.served_of_answers 0x3001 4 (fun d => d.fixedModeWrite port b) ha hrec).trans (Dev.fixedModeWrite_idle hw hfix hmode hjobs hidle)
  refine ⟨fun hw => ?_, fun hw => ?_, fun hw hfix hmode => ⟨fun hjobs => ?_, fun hjobs hidle => ⟨fun hv => ?_, fun hv => ?_⟩⟩⟩
  · obtain ⟨hod, hrest, hwithin⟩ := s.toDev.storeN_reads 0x3001 1 0 v.toNat (by decide)
    have heff : s.served port 0x3001 1 (fun d => d.reproModeWrite port v) =
        ((s.storeN 0x3001 1 0 v.toNat).setFlag .GLB_MODE_REPRO 0 v).status stOk := by
      rw [Dev.served_of_answers _ _ _ ha hrec]
      simp [Dev.reproModeWrite, hw]
    generalize s.storeN 0x3001 1 0 v.toNat = u at hod hrest hwithin heff
    have hall : Dev.Within [(.GLB_MODE_REPRO, 0)] (fun _ => ()) s.toDev (u.setFlag .GLB_MODE_REPRO 0 v) :=
      (hwithin.mono (by simp)).setFlag v (by decide) (by simp)
    refine .of_effect (exec_reproModeWrite ..) rfl heff ⟨?_, ?_, ?_, (hall.status _ fun _ _ => rfl).kept, ?_⟩
    · rw [Dev.notify_flag, Dev.status_flag]; exact Dev.flag_wr_toNat _ _ _ _ (by decide)
    · rw [Dev.notify_svc]; rfl
    · rw [Dev.notify_odNum]; exact (Dev.wr_odNum ..).trans hod
    · rw [Dev.notify_rest, Dev.status_rest, Dev.setFlag, Dev.wr_rest, hrest]
      simp [Dev.status]
  · exact completes_status (exec_reproModeWrite ..) rfl stDenied (by
      rw [Dev.served_of_answers _ _ _ ha hrec]; simp [Dev.reproModeWrite, hw])
  · exact completes_status (exec_fixedModeWrite ..) rfl stBusy (by
      rw [Dev.served_of_answers _ _ _ ha hrec]; simp [Dev.fixedModeWrite, hw, hfix, hmode, hjobs])
  · subst hv
    have heff := harm false hw hfix hmode hjobs hidle
    obtain ⟨hall, hflag, hfixing, hhit, hmnt⟩ := s.leaveFixed_starts
    rw [if_neg Bool.false_ne_true] at heff
    generalize s.leaveFixed.startQueued = u at hall hflag hfixing hhit hmnt heff
    have hread (x : Activity) : ((u.status stOk).notify s.toDev).mntSt x = u.mntSt x := Dev.notify_rd ..
    refine .of_effect (exec_fixedModeWrite ..) rfl heff
      ⟨?_, ?_, fun x _ hchange => ?_, (hall.status stOk fun _ _ => rfl).kept, ?_⟩
    · rw [Dev.notify_svc]; rfl
    · rw [Dev.notify_flag, Dev.status_flag, hflag]
    · exact (hread x).symm ▸ hmnt x ((hread x) ▸ hchange)
    · rw [Dev.notify_rest, Dev.notify_svc, Dev.status_rest, Dev.rest_of_butMode hall.same, hfixing, hhit]
      simp [hfix, Dev.rest]
  · subst hv
    have heff := harm true hw hfix hmode hjobs hidle
    have hbegin := s.beginFixed_within
    obtain ⟨henter, hmay, hruns⟩ := Dev.enterFixed_reads (s := s.beginFixed) rfl ((hbegin.flag (by decide) (by decide)).trans hmode)
    have hall := (hbegin.right modeFields).trans (henter.left _)
    rw [if_pos rfl] at heff
    generalize s.beginFixed.enterFixed = u at hall hmay hruns heff
    refine .of_effect (exec_fixedModeWrite ..) rfl heff
      ⟨?_, ?_, fun hflag n hiso => ?_, (hall.status stOk fun _ _ => rfl).kept, ?_⟩
    · rw [Dev.notify_svc]; rfl
    · rw [Dev.notify_flag, Dev.status_flag, Dev.notify_fixing]; exact hmay
    · rw [Dev.notify_flag, Dev.status_flag] at hflag hiso
      exact (Dev.notify_rd ..).trans (hruns hflag n hiso)
    · rw [Dev.notify_rest, Dev.notify_svc, Dev.notify_fixing, Dev.notify_runHit, Dev.status_rest, Dev.rest_of_butMode hall.same]
      rfl

end Sys2Proof.Machine

end

section
/-! The barrier of the field side: the frames that the logic side sends (R271, R272, R275). -/

namespace Sys2Proof.Machine

open Sys2Proof

/-! ### What has been sent -/

theorem Dev.mem_out_notify {s b : Dev} {o : Out} (h : o ∈ s.out) : o ∈ (s.notify b).out := by
  unfold notify
  refine List.foldlRecOn (motive := fun d : Dev => o ∈ d.out) _ _ h fun d hd v _ => ?_
  split
  · exact List.mem_cons_of_mem _ hd
  · exact hd

theorem Dev.mem_out_send (s : Dev) (o : Out) : o ∈ (s.send o).out := List.mem_cons_self

/-! ### Sorted lists -/

theorem mem_insertBy {α : Type} {key : α → Int} {x y : α} {l : List α} : y ∈ insertBy key x l ↔ y = x ∨ y ∈ l := by
  induction l with
  | nil => simp [insertBy]
  | cons z l ih =>
    unfold insertBy
    split
    · simp
    · simp [ih]; tauto

@[simp] theorem mem_sortBy {α : Type} {key : α → Int} {y : α} {l : List α} : y ∈ sortBy key l ↔ y ∈ l := by
  induction l with
  | nil => simp [sortBy]
  | cons x l ih => simp [sortBy, mem_insertBy, ih]

/-! ### Outbound frames -/

theorem exec_outboundFrameSlot (s : State) : exec .outboundFrameSlot s = s.run .outboundFrameSlot fun d => d.outboundFrameSlot := rfl

theorem exec_tickEnqueue (s : State) : exec .tickEnqueue s = s.run .tickEnqueue fun d => d.fillQueue := rfl

theorem Dev.outboundFrameSlot_on {s : Dev} (h : s.frameSlot.framesOn = true) : s.outboundFrameSlot = s.frameSlot.sendNext := if_pos h

theorem Dev.outboundFrameSlot_off {s : Dev} (h : s.frameSlot.framesOn = false) : s.outboundFrameSlot = s.frameSlot :=
  if_neg (Bool.eq_false_iff.1 h)

/-- A frame has gone out from `u`, and the barrier is in a state `b` that the next sequence number goes with. -/
def Dev.framed (u : Dev) (kind low : Nat) (b : Barrier) : Dev := { u.sendFrame kind low with barrier := b }

/-- What a frame that goes out changes. -/
theorem completes_frame {s : State} {kind low : Nat} {b : Barrier} {P : State → Prop}
    (heff : s.outboundFrameSlot = s.frameSlot.framed kind low b) (hseq : b.seq = (s.frameSlot.barrier.seq + 1) % 16)
    (hP : ∀ t : State, t.barrier = b → P t) :
    Completes .outboundFrameSlot s fun t =>
      (Out.outbound (payload kind s.frameSlot.barrier.seq low) (crc16 64 (payload kind s.frameSlot.barrier.seq low)) ∈ t.out ∧
        t.barrier.seq = (s.frameSlot.barrier.seq + 1) % 16 ∧ KeepsFields { s with toDev := s.frameSlot } t [] ∧
        t.rest = { s.frameSlot.rest with barrier := t.barrier }) ∧ P t := by
  generalize s.frameSlot = u at *
  have hbarrier : ((u.framed kind low b).notify s.toDev).barrier = b := Dev.notify_barrier ..
  refine .of_effect (exec_outboundFrameSlot s) rfl heff ⟨⟨?_, ?_, fun f i _ _ => Dev.notify_rd .., ?_⟩, hP _ hbarrier⟩
  · exact Dev.mem_out_notify (Dev.mem_out_send _ _)
  · rw [hbarrier, hseq]
  · rw [Dev.notify_rest, hbarrier]; rfl

theorem Dev.sendState_framed (u : Dev) (safe : Bool) :
    u.sendState safe = u.framed 0 (u.stopLevel.toNat * 2 ^ 57 + u.rd .SEP_LSTOP_OUT * 2 ^ 52 + safe.toNat * 2 ^ 51 +
        (!safe && (u.barrier.releaseNow || u.barrier.release && u.barrier.regs.isEmpty)).toNat * 2 ^ 50)
      { u.barrier with seq := (u.barrier.seq + 1) % 16, sinceState := 0, safeSent := safe || u.barrier.safeSent } := by
  cases safe <;> rfl

/-- The bits of a tick's frame. -/
def tickBits (tk : Tick) : Nat := tk.level.toNat * 2 ^ 57 + tk.mask % 2 ^ 32 * 2 ^ 25 + tk.edge % 2 ^ 24 * 2

theorem Dev.sendTick_first (u : Dev) (tk : Tick) :
    u.sendTick (tk, 2) = u.framed 1 (tickBits tk) { u.barrier with
      seq := (u.barrier.seq + 1) % 16, sinceState := u.barrier.sinceState + 1
      queue := (tk, 1) :: u.barrier.queue.filter fun e => !(e == (tk, 2))
      sent := if u.xclk < tk.edge then tk.edge :: u.barrier.sent else u.barrier.sent } := rfl

/-- The barrier once near ticks have joined its queue, at an XCLK count. -/
def Barrier.filled (b : Barrier) (xclk : Nat) : Barrier :=
  let w := sortBy (fun (t : Tick) => (t.edge : Int)) b.waiting
  let near := w.filter fun t => decide (t.edge ≤ xclk + usTicks 20000)
  { b with
    queue := sortBy (fun (e : Tick × Nat) => (e.1.edge : Int)) (b.queue ++ (near.take (64 - b.queue.length)).map fun t => (t, 2))
    waiting := near.drop (64 - b.queue.length) ++ w.filter fun t => decide (xclk + usTicks 20000 < t.edge) }

theorem Dev.fillQueue_eq (s : Dev) : s.fillQueue = { s with barrier := s.barrier.filled s.xclk } := rfl

/-- The barrier after the second copy of a tick has gone, before its queue is filled. -/
def Barrier.secondSent (b : Barrier) (tk : Tick) : Barrier :=
  { b with seq := (b.seq + 1) % 16, sinceState := b.sinceState + 1, queue := b.queue.filter fun e => !(e == (tk, 1)) }

theorem Dev.sendTick_second (u : Dev) (tk : Tick) :
    u.sendTick (tk, 1) = u.framed 1 (tickBits tk) ((u.barrier.secondSent tk).filled u.xclk) := rfl

theorem Dev.sendReg_framed {u : Dev} {r : Nat} {l : List Nat} (h : u.barrier.regs = r :: l) :
    u.sendReg = u.framed 2 r { u.barrier with
      seq := (u.barrier.seq + 1) % 16, sinceState := u.barrier.sinceState + 1, regs := l } := by
  unfold sendReg
  rw [h]
  rfl

theorem Barrier.not_mem_filled {b : Barrier} {tk : Tick} (xclk : Nat) (h : (tk, 1) ∉ b.queue) : (tk, 1) ∉ (b.filled xclk).queue := by
  simp only [filled, mem_sortBy, List.mem_append, h, false_or, List.mem_map]
  exact fun ⟨t, _, heq⟩ => by simp at heq

/-- One waiting tick joins the queue if it is near and there is room. -/
theorem Barrier.filled_one {b : Barrier} {tk : Tick} (xclk : Nat) (h : b.waiting = [tk]) :
    (if tk.edge ≤ xclk + usTicks 20000 ∧ b.queue.length < 64 then (b.filled xclk).waiting = [] ∧ (tk, 2) ∈ (b.filled xclk).queue
      else (b.filled xclk).waiting = [tk]) ∧ ∀ e ∈ b.queue, e ∈ (b.filled xclk).queue := by
  refine ⟨?_, fun e he => by simp [filled, he]⟩
  simp only [filled, h, sortBy, insertBy]
  generalize xclk + usTicks 20000 = lead
  by_cases hnear : tk.edge ≤ lead
  · by_cases hroom : b.queue.length < 64
    · obtain ⟨n, hn⟩ : ∃ n, 64 - b.queue.length = n + 1 := ⟨63 - b.queue.length, by omega⟩
      simp [hnear, hroom, hn]
    · have hfull : 64 - b.queue.length = 0 := by omega
      simp [hnear, hroom, hfull]
  · simp [hnear, Nat.lt_of_not_le hnear]

/-- Settles O43: each case of a frame slot sends one frame and leaves the barrier in the state that goes with it. -/
theorem barrierFramesSent : Obligations.BarrierFramesSent := by
  intro s tk r l
  refine ⟨⟨fun hoff => ?_, fun hon => ⟨fun hsafe => ?_, fun hsafe =>
    ⟨fun hsecond => ?_, fun hsecond => ⟨fun hstate => ?_, fun hnext => ?_, fun hsince hnext hregs => ?_⟩⟩⟩⟩, fun hwait => ?_⟩
  · exact .of_effect (exec_outboundFrameSlot s) rfl (Dev.outboundFrameSlot_off hoff) ⟨fun f i _ _ => Dev.notify_rd .., Dev.notify_rest ..⟩
  · have hsend : s.frameSlot.sendNext = s.frameSlot.sendState true := by simp [Dev.sendNext, hsafe]
    exact completes_frame ((Dev.outboundFrameSlot_on hon).trans (hsend.trans (Dev.sendState_framed ..))) rfl fun t ht => by rw [ht]
  · have hsend : s.frameSlot.sendNext = s.frameSlot.sendTick (tk, 1) := by simp [Dev.sendNext, hsafe, hsecond]
    refine (completes_frame ((Dev.outboundFrameSlot_on hon).trans (hsend.trans (Dev.sendTick_second ..))) rfl fun t ht => ?_)
    rw [ht]
    exact ⟨Barrier.not_mem_filled _ (by simp [Barrier.secondSent]), rfl⟩
  · have hsend : s.frameSlot.sendNext = s.frameSlot.sendState false := by
      rcases hstate with hlong | ⟨hnone, hregs⟩
      · simp [Dev.sendNext, hsafe, hsecond, hlong]
      · simp [Dev.sendNext, hsafe, hsecond, hnone, hregs]
    exact completes_frame ((Dev.outboundFrameSlot_on hon).trans (hsend.trans (Dev.sendState_framed ..))) rfl fun t ht => by rw [ht]
  · have hsince : s.frameSlot.barrier.sinceState ≤ 5 := by
      by_contra hgt
      simp [Dev.nextTick, hgt] at hnext
    have hsend : s.frameSlot.sendNext = s.frameSlot.sendTick (tk, 2) := by
      simp [Dev.sendNext, hsafe, hsecond, hnext, show ¬ 7 ≤ s.frameSlot.barrier.sinceState by omega]
    refine completes_frame ((Dev.outboundFrameSlot_on hon).trans (hsend.trans (Dev.sendTick_first ..))) rfl fun t ht => ?_
    rw [ht]
    exact ⟨List.mem_cons_self, rfl⟩
  · have hsend : s.frameSlot.sendNext = s.frameSlot.sendReg := by
      simp [Dev.sendNext, hsafe, hsecond, hnext, hregs, show ¬ 7 ≤ s.frameSlot.barrier.sinceState by omega]
    refine completes_frame ((Dev.outboundFrameSlot_on hon).trans (hsend.trans (Dev.sendReg_framed hregs))) rfl fun t ht => ?_
    rw [ht]
    exact ⟨rfl, rfl⟩
  · obtain ⟨hone, hall⟩ := Barrier.filled_one s.xclk hwait
    have hbarrier : (s.fillQueue.notify s.toDev).barrier = s.barrier.filled s.xclk := Dev.notify_barrier ..
    refine .of_effect (exec_tickEnqueue s) rfl rfl ⟨?_, ?_, fun f i _ _ => Dev.notify_rd .., ?_⟩
    · rw [hbarrier]
      rw [show usTicks 20000 = 8000000 from rfl] at hone
      exact hone
    · rw [hbarrier]; exact hall
    · rw [Dev.notify_rest, hbarrier]; rfl

end Sys2Proof.Machine

end

section
/-! The passing of time (R7, R274): what the hits, the edges and the trace records that pass with it leave alone. -/

namespace Sys2Proof.Machine

open Sys2Proof

/-- What the module holds beside what hits, edges and trace records change as time passes. -/
def Dev.butPassed (s : Dev) : Dev :=
  { s.body with gens := [], trgs := [], links := [], ctxs := [], marks := [], parts := [], fires := [], fusions := [], sync := [], herd := {},
                zports := [], mem := [], ring := [], capUsed := 0, free := 0, barrier := {} }

/-- A part of the module that the passing of time leaves alone. -/
def Dev.Timeless {α : Type} (m : Dev → α) : Prop := ∀ d e : Dev, d.butPassed = e.butPassed → m d = m e

section

variable {α : Type} {m : Dev → α}

theorem Dev.Timeless.quiet (hm : Timeless m) : Quiet m := fun d e h => hm _ _ (by simp only [butPassed, rest_body, h])

theorem Dev.Timeless.apartFromBlocks (hm : Timeless m) : ApartFromBlocks m := fun _ _ _ _ _ _ _ _ _ _ _ _ => hm _ _ rfl

end

/-- The fields that the passing of time may change. -/
def timeFields : List (Field × Nat) :=
  hitFields ++ (upTo 8).map (fun g => (.ENC_CG_ISSUED, g)) ++
    [(.SEP_STAT_MISS, 0), (.OBS_TRC_WR_IDX, 0), (.OBS_TRC_STAT_WRAPPED, 0)] ++ logFields

theorem hitFields_sub : ∀ e ∈ hitFields, e ∈ timeFields := fun _ he => by simp [timeFields, he]

theorem issued_mem_timeFields {g : Nat} (hg : g < 8) : (Field.ENC_CG_ISSUED, g) ∈ timeFields := by
  simp [timeFields, mem_upTo, hg]

theorem logFields_sub : ∀ e ∈ logFields, e ∈ timeFields := fun _ he => List.mem_append_right _ he

namespace Dev.Within

variable {α : Type} {m : Dev → α} {s t : Dev}

theorem drainHits (hm : Timeless m) {g : Nat} (hg : g < 8) (n : Nat) (h : Within timeFields m s t) :
    Within timeFields m s (t.drainHits g n) := by
  induction n generalizing t with
  | zero => exact h
  | succ n ih =>
    unfold Dev.drainHits
    dsimp only
    split
    · rename_i later _
      split
      · have hcount := (h.setGen g { t.gen g with queue := later, free := (t.gen g).free + 2 } fun _ _ => hm _ _ rfl).countMod (f := .ENC_CG_ISSUED) (i := g) (by omega) (issued_mem_timeFields hg)
        exact ih (hcount.trans ((issueHit_within _ g _ _ (fun _ _ _ => hm _ _ rfl) hm.apartFromBlocks hm.quiet).mono hitFields_sub))
      · exact h
    · exact h

theorem missOn (hm : Timeless m) (f : Fire) (h : Within timeFields m s t) : Within timeFields m s (t.missOn f) :=
  (((h.setFlag true (by decide) (by simp [timeFields])).observe 145 1 hm.quiet).tally _ _ _ _ _ logFields_sub hm.quiet).updPart _ _
    fun _ _ => hm _ _ rfl

theorem fires (hm : Timeless m) (x : List Fire) (h : Within timeFields m s t) : Within timeFields m s { t with fires := x } :=
  h.step rfl rfl rfl (hm _ _ rfl)

theorem passOn (hm : Timeless m) (f : Fire) (e : Nat) (h : Within timeFields m s t) : Within timeFields m s (t.passOn f e) := by
  have hparts (d : Dev) (x : List Part) : m { d with parts := x } = m d := hm _ _ rfl
  unfold Dev.passOn
  dsimp only
  split
  · exact (h.fires hm _).missOn hm f
  · split
    · exact (h.fires hm _).updPart _ _ hparts
    · exact (h.fires hm _).updPart _ _ hparts

theorem passEdges (hm : Timeless m) (h : Within timeFields m s t) : Within timeFields m s t.passEdges := by
  have hpass (l : List Fire) : Within timeFields m s (l.foldl (fun (d : Dev) (f : Fire) => d.passOn f (f.onEdge.getD 0)) t) :=
    .foldl _ h fun d f _ => (refl _ m d).passOn hm f _
  unfold Dev.passEdges
  exact (hpass _).step rfl rfl rfl (hm _ _ rfl)

theorem trace (hm : Timeless m) (x : Trace) (h : Within timeFields m s t) : Within timeFields m s { t with trace := x } :=
  h.step rfl rfl rfl (hm _ _ rfl)

theorem storeTrace (hm : Timeless m) (e : Nat × TraceRec) (h : Within timeFields m s t) : Within timeFields m s (t.storeTrace e) := by
  have hwr := (h.trace hm { t.trace with
      buffer := tabPut t.trace.buffer (t.rd .OBS_TRC_WR_IDX) e, post := t.trace.post.map fun n => n - 1 }).wr
    (f := .OBS_TRC_WR_IDX) (i := 0) ((t.rd .OBS_TRC_WR_IDX + 1) % traceSize) (by decide) (by simp [timeFields])
  unfold Dev.storeTrace
  dsimp only
  generalize (Dev.wr _ .OBS_TRC_WR_IDX 0 _) = u at hwr ⊢
  have hwrap : Within timeFields m s (if (t.rd .OBS_TRC_WR_IDX + 1 == traceSize && !u.flag .OBS_TRC_CTL_MODE) = true
      then u.setFlag .OBS_TRC_STAT_WRAPPED 0 true else u) := by
    split
    · exact hwr.setFlag true (by decide) (by simp [timeFields])
    · exact hwr
  generalize (if (t.rd .OBS_TRC_WR_IDX + 1 == traceSize && !u.flag .OBS_TRC_CTL_MODE) = true
      then u.setFlag .OBS_TRC_STAT_WRAPPED 0 true else u) = v at hwrap ⊢
  split
  · exact (hwrap.setFlag true (by decide) (by simp [timeFields, logFields])).trace hm _
  · exact hwrap

theorem traceCycle (hm : Timeless m) (h : Within timeFields m s t) : Within timeFields m s t.traceCycle := by
  unfold Dev.traceCycle
  split
  · exact h
  · split
    · exact h
    · exact (h.trace hm _).storeTrace hm _

/-- Hits, edges and trace records pass. -/
theorem passing (hm : Timeless m) (n : Nat) (h : Within timeFields m s t) :
    Within timeFields m s ((t.drainAll.passEdges).drainTrace n) := by
  have hhits : Within timeFields m s t.drainAll := .foldl _ h fun d g hg => (refl _ m d).drainHits hm (mem_upTo.1 hg) _
  exact (hhits.passEdges hm).iter _ fun d => (refl _ m d).traceCycle hm

end Dev.Within

/-- The clocks after `n` periods of the XCLK count. -/
def Dev.clocked (s : Dev) (n : Nat) : Dev :=
  { s with xclk := s.xclk + n, timeU := s.timeU + n * s.periodUnits
           tickAt := if s.live then s.tickAt else s.xclk + n - (s.xclk + n) % 4000
           mlk := { s.mlk with opTime := s.mlk.opTime + n } }

theorem Dev.advance_eq {s : Dev} (n : Nat) (h : s.power ≠ .off) : s.advance n = ((s.clocked n).drainAll.passEdges).drainTrace n := by
  simp [advance, h, clocked]

/-- As time passes the clocks go on, and beside them only what is not timeless changes. -/
theorem Dev.advance_within {α : Type} {m : Dev → α} (hm : Timeless m) {s : Dev} (n : Nat) (h : s.power ≠ .off) :
    Within timeFields m (s.clocked n) (s.advance n) := by
  rw [advance_eq n h]
  exact (Within.refl _ m (s.clocked n)).passing hm n

theorem Dev.advance_die (s : Dev) (n : Nat) : (s.advance n).die = s.die := by
  by_cases h : s.power = .off
  · simp [advance, h]
  · exact (advance_within (m := Dev.die) (fun d e h => (congrArg Dev.die h :)) n h).same

end Sys2Proof.Machine

end

section
/-! The bits of masks, and the field die: its outputs, the safe state, the supply, and what frames do there (R272 to R286). -/

namespace Sys2Proof.Machine

open Sys2Proof

/-! ### Bits of masks -/

@[simp] theorem bit_or (n m k : Nat) : bit (n ||| m) k = (bit n k || bit m k) := Nat.testBit_or ..

@[simp] theorem bit_and (n m k : Nat) : bit (n &&& m) k = (bit n k && bit m k) := Nat.testBit_and ..

@[simp] theorem bit_zero (k : Nat) : bit 0 k = false := Nat.zero_testBit k

theorem bit_oneBit (j k : Nat) : bit (oneBit j) k = decide (j = k) := Nat.testBit_two_pow

@[simp] theorem bit_oneBit_same (k : Nat) : bit (oneBit k) k = true := by simp [bit_oneBit]

@[simp] theorem bit_clearBits (n m k : Nat) : bit (clearBits n m) k = (bit n k && !bit m k) := by
  unfold bit clearBits
  induction k generalizing n m with
  | zero =>
    have hlow := @Nat.and_mod_two_pow n m 1
    have hle := Nat.and_le_left (n := n) (m := m)
    rcases Nat.mod_two_eq_zero_or_one n with hn | hn <;> rcases Nat.mod_two_eq_zero_or_one m with hm | hm <;>
      simp only [Nat.testBit_zero, Nat.pow_one, hn, hm, Nat.zero_and, Nat.and_zero, Nat.and_self] at hlow ⊢ <;> simp <;> omega
  | succ k ih =>
    have hhalf : (n - (n &&& m)) / 2 = n / 2 - (n / 2 &&& m / 2) := by
      have hlow := @Nat.and_mod_two_pow n m 1
      have hdiv := @Nat.and_div_two_pow n m 1
      have hle := Nat.and_le_left (n := n) (m := m)
      have hmod : (n % 2 &&& m % 2) ≤ n % 2 := Nat.and_le_left
      simp only [Nat.pow_one] at hlow hdiv
      rw [← hdiv]
      omega
    rw [Nat.testBit_succ, Nat.testBit_succ, Nat.testBit_succ, hhalf, ih]

theorem bit_bits (n lo w k : Nat) : bit (bits n lo w) k = (decide (k < w) && bit n (lo + k)) := by
  unfold bit bits
  rw [Nat.testBit_mod_two_pow, Nat.testBit_div_two_pow, Nat.add_comm]

theorem bit_wrap (w n k : Nat) : bit (wrap w n) k = (decide (k < w) && bit n k) := Nat.testBit_mod_two_pow ..

theorem bit_maskOf (l : List Nat) (k : Nat) : bit (maskOf l) k = decide (k ∈ l) := by
  have hfold (m : Nat) : bit (l.foldl (fun m k => m ||| oneBit k) m) k = (bit m k || decide (k ∈ l)) := by
    induction l generalizing m with
    | nil => simp
    | cons j l ih =>
      rw [List.foldl_cons, ih, bit_or, bit_oneBit, Bool.or_assoc]
      congr 1
      by_cases h : k = j
      · simp [h]
      · simp [h, Ne.symm h]
  exact (hfold 0).trans (by simp)

/-- A sum of numbers without common bits is their union. -/
theorem add_eq_or_of_disjoint {n m : Nat} (h : n &&& m = 0) : n + m = n ||| m := by
  refine Nat.eq_of_testBit_eq fun k => ?_
  have hclear : clearBits (n ||| m) m = n := by
    refine Nat.eq_of_testBit_eq fun k => ?_
    have hk : (bit n k && bit m k) = false := by rw [← bit_and, h, bit_zero]
    change bit (clearBits (n ||| m) m) k = bit n k
    rw [bit_clearBits, bit_or]
    cases hn : bit n k <;> cases hm : bit m k <;> simp_all
  have hm : (n ||| m) &&& m = m := by
    refine Nat.eq_of_testBit_eq fun k => ?_
    rw [Nat.testBit_and, Nat.testBit_or]
    cases n.testBit k <;> simp
  have hle : m ≤ n ||| m := Nat.right_le_or
  unfold clearBits at hclear
  rw [hm] at hclear
  rw [show n + m = n ||| m by omega]

/-- One bit set to a value. -/
theorem bit_setBits_one (n i : Nat) (b : Bool) (k : Nat) :
    bit (setBits n i 1 b.toNat) k = if k = i then b else bit n k := by
  have hbit : bits n i 1 * 2 ^ i = n &&& oneBit i := by
    unfold bits oneBit
    rw [Nat.and_two_pow, Nat.toNat_testBit, Nat.pow_one]
  have hset : setBits n i 1 b.toNat = clearBits n (oneBit i) ||| (if b then oneBit i else 0) := by
    unfold setBits
    rw [hbit]
    cases b with
    | false => simp [clearBits]
    | true =>
      refine (congrArg (clearBits n (oneBit i) + ·) (by simp [oneBit])).trans (add_eq_or_of_disjoint ?_)
      refine Nat.eq_of_testBit_eq fun k => ?_
      change bit _ k = _
      simp
  rw [hset, bit_or, bit_clearBits, bit_oneBit]
  by_cases h : k = i
  · cases b <;> simp [h]
  · cases b <;> simp [h, Ne.symm h, bit_oneBit]

/-- A field as wide as a mask's bit keeps the bit that is written. -/
theorem Dev.bit_rd_wr (s : Dev) (f : Field) (i v k : Nat) (h : k < f.desc.width) : bit ((s.wr f i v).rd f i) k = bit v k := by
  rw [Dev.rd_wr, bit_wrap]
  simp [h]

/-! ### The outputs of the field die (R276, R279) -/

theorem Dev.setDie_rest (s : Dev) (e : FieldDie) : (s.setDie e).rest = { s.rest with die := e } := rfl

theorem Dev.Within.setDie {α : Type} {l : List (Field × Nat)} {m : Dev → α} {s t : Dev} (h : Within l m s t) (e : FieldDie)
    (hm : ∀ d x, m { d with die := x } = m d) : Within l m s (t.setDie e) := h.step rfl rfl rfl (hm t.rest e)

theorem Dev.bit_canDrive (s : Dev) (x k : Nat) :
    bit (s.canDrive x) k = (bit x k && bit (s.rd .FLD_OUT_EN) k && !bit (s.rd .FLD_SC) k) := by simp [canDrive]

/-- In the safe state an output is on if it may be driven and its safe setting says on, or says to stay and it was on. -/
theorem Dev.safeLevels_bit (s : Dev) {k : Nat} (hk : k < 32) :
    bit (s.safeLevels.rd .FLD_LVL) k = (bit (s.rd .FLD_OUT_EN) k && !bit (s.rd .FLD_SC) k &&
      (s.rd .FLD_SAFE k == 1 || (s.rd .FLD_SAFE k == 2 && bit (s.rd .FLD_LVL) k))) := by
  unfold safeLevels
  rw [Dev.bit_rd_wr _ _ _ _ _ hk, bit_canDrive, bit_maskOf]
  have hmem : decide (k ∈ (upTo 32).filter fun n => s.rd .FLD_SAFE n == 1 || (s.rd .FLD_SAFE n == 2 && bit (s.rd .FLD_LVL) n)) =
      (s.rd .FLD_SAFE k == 1 || (s.rd .FLD_SAFE k == 2 && bit (s.rd .FLD_LVL) k)) := by simp [mem_upTo, hk]; rfl
  rw [hmem, Bool.and_assoc, Bool.and_comm]

theorem Dev.Within.safeLevels {α : Type} {l : List (Field × Nat)} {m : Dev → α} {s t : Dev} (h : Within l m s t)
    (hl : (.FLD_LVL, 0) ∈ l) : Within l m s t.safeLevels := h.wr _ (by decide) hl

/-- What the module holds beside the field die. -/
def Dev.butDie (s : Dev) : Dev := { s with die := {} }

theorem Dev.rest_of_butDie {s t : Dev} (h : t.rest.butDie = s.rest.butDie) : t.rest = { s.rest with die := t.die } :=
  (congrArg (fun d : Dev => { d with die := t.die }) h :)

/-- The fields that the safe state changes. -/
def safeFields : List (Field × Nat) := [(.FLD_STAT_SAFE, 0), (.FLD_LVL, 0)]

theorem Dev.enterSafe_flag {s : Dev} (h : s.die.powered = true) : s.enterSafe.flag .FLD_STAT_SAFE = true := by
  unfold enterSafe
  split
  · rename_i hstay
    simpa [h] using hstay
  · exact ((Within.refl [(.FLD_LVL, 0)] (fun _ => ()) _).safeLevels (by simp)).flag_set (by decide) (by simp) (by decide)

theorem Dev.enterSafe_within (s : Dev) : Within safeFields butDie s s.enterSafe := by
  unfold enterSafe
  split
  · exact .refl _ _ s
  · exact (((Within.refl safeFields butDie s).setDie _ fun _ _ => rfl).setFlag true (by decide) (by simp [safeFields])).safeLevels
      (by simp [safeFields])

/-- A field die that runs outside the safe state discards what it holds as it enters it. -/
theorem Dev.enterSafe_entered {s : Dev} (hp : s.die.powered = true) (hsafe : s.flag .FLD_STAT_SAFE = false) :
    s.enterSafe = ((s.setDie { s.die with held := [] }).setFlag .FLD_STAT_SAFE 0 true).safeLevels := by
  simp [enterSafe, hp, hsafe]

theorem Dev.enterSafe_die (s : Dev) : s.enterSafe.die = if s.flag .FLD_STAT_SAFE || !s.die.powered then s.die else { s.die with held := [] } := by
  unfold enterSafe
  split
  · rfl
  · exact (Dev.wr_die ..).trans (Dev.wr_die ..)

/-- The field die's own state does not reach the register fields. -/
theorem Dev.enterSafe_bit {s : Dev} (hp : s.die.powered = true) (hsafe : s.flag .FLD_STAT_SAFE = false) {k : Nat} (hk : k < 32) :
    bit (s.enterSafe.rd .FLD_LVL) k = (bit (s.rd .FLD_OUT_EN) k && !bit (s.rd .FLD_SC) k &&
      (s.rd .FLD_SAFE k == 1 || (s.rd .FLD_SAFE k == 2 && bit (s.rd .FLD_LVL) k))) := by
  have hflag : Within [(.FLD_STAT_SAFE, 0)] (fun _ => ()) s ((s.setDie { s.die with held := [] }).setFlag .FLD_STAT_SAFE 0 true) :=
    ((Within.refl _ _ s).setDie _ fun _ _ => rfl).setFlag true (by decide) (by simp)
  rw [enterSafe_entered hp hsafe, safeLevels_bit _ hk, hflag.rd (by decide) (by simp), hflag.rd (by decide) (by simp),
    hflag.rd (by omega) (by simp), hflag.rd (by decide) (by simp)]

/-! ### The registers of the field die (R282) -/

/-- The register fields of the field die. -/
def dieFields : List Field := Field.all.filter fun f => f.desc.die

theorem dieFields_count : ∀ f ∈ dieFields, f.desc.count ≤ 1024 := by decide

theorem Field.mem_dieFields {f : Field} (h : f.desc.die = true) : f ∈ dieFields := by
  revert h
  cases f <;> decide

/-- Writes of a list of fields with a value for each. -/
def Dev.wrAll (s : Dev) (v : Field → Nat → Nat) (l : List (Field × Nat)) : Dev := l.foldl (fun d e => d.wr e.1 e.2 (v e.1 e.2)) s

theorem Dev.wrAll_rd (v : Field → Nat → Nat) {l : List (Field × Nat)} (hl : ∀ e ∈ l, e.2 < 1024) (s : Dev) {f : Field} {i : Nat} (hi : i < 1024) :
    (s.wrAll v l).rd f i = if (f, i) ∈ l then wrap f.desc.width (v f i) else s.rd f i := by
  induction l generalizing s with
  | nil => rfl
  | cons e l ih =>
    have hrec := ih (fun x hx => hl x (List.mem_cons_of_mem _ hx)) (s.wr e.1 e.2 (v e.1 e.2))
    refine hrec.trans ?_
    by_cases hin : (f, i) ∈ l
    · simp [hin]
    · by_cases he : e = (f, i)
      · subst he; simp
      · have hne : ¬(e.1 = f ∧ e.2 = i) := fun h => he (Prod.ext h.1 h.2)
        rw [if_neg hin, if_neg (by simp [hin, Ne.symm he]), Dev.rd_wr_ne _ _ _ _ _ _ (hl e List.mem_cons_self) hi hne]

theorem Dev.wrAll_rest (v : Field → Nat → Nat) (l : List (Field × Nat)) (s : Dev) : (s.wrAll v l).rest = s.rest :=
  Dev.foldl_keeps Dev.rest (fun d _ _ => d.wr_rest ..) s

/-- The registers of the field die with their instances. -/
def dieRegs : List (Field × Nat) := dieFields.flatMap fun f => (upTo f.desc.count).map fun i => (f, i)

theorem mem_dieRegs {f : Field} {i : Nat} : (f, i) ∈ dieRegs ↔ f ∈ dieFields ∧ i < f.desc.count := by
  simp only [dieRegs, List.mem_flatMap, List.mem_map, mem_upTo, Prod.mk.injEq]
  exact ⟨fun ⟨g, hg, j, hj, hgf, hji⟩ => ⟨hgf ▸ hg, hji ▸ hgf ▸ hj⟩, fun ⟨hf, hi⟩ => ⟨f, hf, i, hi, rfl, rfl⟩⟩

theorem Dev.resetDieFields_eq (s : Dev) : s.resetDieFields = s.wrAll Field.resetAt dieRegs := by
  unfold wrAll dieRegs resetDieFields dieFields
  rw [List.foldl_flatMap]
  simp only [List.foldl_map]

theorem Dev.resetDieFields_rd (s : Dev) {f : Field} {i : Nat} (hi : i < 1024) :
    s.resetDieFields.rd f i = if f ∈ dieFields ∧ i < f.desc.count then wrap f.desc.width (f.resetAt i) else s.rd f i := by
  have hlt : ∀ e ∈ dieRegs, e.2 < 1024 := fun ⟨g, j⟩ h =>
    have ⟨hg, hj⟩ := mem_dieRegs.1 h
    lt_of_lt_of_le hj (dieFields_count g hg)
  rw [resetDieFields_eq, wrAll_rd _ hlt _ hi]
  simp only [mem_dieRegs]

/-! ### The supply and the time-out (R279, R280, R282) -/

theorem exec_safeTimeout (s : State) : exec .safeTimeout s = s.run .safeTimeout fun d => d.safeTimeout := rfl

theorem exec_fieldSupplyLow (s : State) : exec .fieldSupplyLow s = s.run .fieldSupplyLow fun d => d.fieldSupplyLow := rfl

theorem exec_fieldSupplyLoss (s : State) : exec .fieldSupplyLoss s = s.run .fieldSupplyLoss fun d => d.fieldSupplyLoss := rfl

theorem exec_fieldSupplyReturn (s : State) : exec .fieldSupplyReturn s = s.run .fieldSupplyReturn fun d => d.fieldSupplyReturn := rfl

theorem exec_fieldSupplyRestored (s : State) : exec .fieldSupplyRestored s = s.run .fieldSupplyRestored fun d => d.fieldSupplyRestored := rfl

/-- A change that `Within` bounds to the field die and some fields, as the statements say it. -/
theorem Dev.Within.die_frame {s : State} {d : Dev} {l : List (Field × Nat)} (h : Within l butDie s.toDev d) :
    KeepsFields s { s with toDev := d.notify s.toDev } l ∧
      ({ s with toDev := d.notify s.toDev } : State).rest = { s.rest with die := (d.notify s.toDev).die } := by
  refine ⟨h.kept, ?_⟩
  rw [Dev.notify_rest, Dev.notify_die]
  exact Dev.rest_of_butDie h.same

theorem Dev.fieldSupplyReturn_eq {s : Dev} (h : s.die.powered = false) :
    s.fieldSupplyReturn = (s.setDie { lowLatch := true }).resetDieFields.setFlag .FLD_STAT_FSUP 0 true := by simp [fieldSupplyReturn, h]

/-- A field die that starts has its registers at their reset values, but for the supply's flag. -/
theorem Dev.fieldSupplyReturn_rd {s : Dev} (h : s.die.powered = false) {f : Field} {i : Nat} (hi : i < 1024) (hf : f ≠ .FLD_STAT_FSUP) :
    s.fieldSupplyReturn.rd f i = if f ∈ dieFields ∧ i < f.desc.count then wrap f.desc.width (f.resetAt i) else s.rd f i := by
  rw [fieldSupplyReturn_eq h]
  refine (Dev.rd_wr_field _ _ _ _ _ _ (by decide) hi hf.symm).trans ?_
  rw [resetDieFields_rd _ hi]
  rfl

theorem Dev.fieldSupplyReturn_rest {s : Dev} (h : s.die.powered = false) : s.fieldSupplyReturn.rest = { s.rest with die := { lowLatch := true } } := by
  rw [fieldSupplyReturn_eq h, setFlag, Dev.wr_rest, resetDieFields_eq, wrAll_rest]
  rfl

/-- Settles O45: each event of the supply, and the time-out, is a write of the field die's state and of a few fields. -/
theorem fieldDieSupplyAndTimeout : Obligations.FieldDieSupplyAndTimeout := by
  intro s f i
  refine ⟨fun hp => ⟨?_, ?_, ?_, ?_⟩, fun hp => ?_⟩
  · have heff : s.safeTimeout = (s.setDie { s.die with good := 0 }).enterSafe := by simp [Dev.safeTimeout, hp]
    let u := s.setDie { s.die with good := 0 }
    have hall : Dev.Within safeFields Dev.butDie s.toDev u.enterSafe :=
      ((Dev.Within.refl safeFields Dev.butDie s.toDev).setDie _ fun _ _ => rfl).trans u.enterSafe_within
    have hdie := u.enterSafe_die
    refine .of_effect (exec_safeTimeout s) rfl heff ⟨?_, ?_, fun hout => ?_, hall.die_frame⟩
    · rw [Dev.notify_flag]; exact Dev.enterSafe_flag (s := u) hp
    · rw [Dev.notify_die]
      refine (congrArg FieldDie.good hdie).trans ?_
      split <;> rfl
    · rw [Dev.notify_die]
      refine (congrArg FieldDie.held hdie).trans ?_
      rw [if_neg (by simp [u, Dev.setDie, hp]; exact hout)]
  · let u := (s.setDie { s.die with lowLatch := true }).setFlag .FLD_STAT_FSUP 0 true
    have heff : s.fieldSupplyLow = u.enterSafe := by simp [Dev.fieldSupplyLow, hp, u]
    have hpow : u.die.powered = true := (congrArg FieldDie.powered (Dev.wr_die ..)).trans hp
    have hu : Dev.Within ((.FLD_STAT_FSUP, 0) :: safeFields) Dev.butDie s.toDev u :=
      ((Dev.Within.refl _ _ s.toDev).setDie _ fun _ _ => rfl).setFlag true (by decide) (by simp)
    have hsafe := u.enterSafe_within
    have hall := hu.trans (hsafe.mono fun _ => List.mem_cons_of_mem _)
    refine .of_effect (exec_fieldSupplyLow s) rfl heff ⟨?_, ?_, ?_, (hall.mono (by simp [safeFields])).die_frame⟩
    · rw [Dev.notify_flag]; exact Dev.enterSafe_flag hpow
    · rw [Dev.notify_flag]; exact hsafe.flag_set (by decide) (by simp [safeFields]) (by decide)
    · rw [Dev.notify_die, Dev.enterSafe_die]
      have hlatch : u.die.lowLatch = true := congrArg FieldDie.lowLatch (Dev.wr_die ..)
      split
      · exact hlatch
      · exact hlatch
  · have heff : s.fieldSupplyRestored = (s.setDie { s.die with lowLatch := false }).setFlag .FLD_STAT_FSUP 0 false := by
      simp [Dev.fieldSupplyRestored, hp]
    have hall : Dev.Within [(.FLD_STAT_FSUP, 0)] Dev.butDie s.toDev
        ((s.setDie { s.die with lowLatch := false }).setFlag .FLD_STAT_FSUP 0 false) :=
      ((Dev.Within.refl _ _ s.toDev).setDie _ fun _ _ => rfl).setFlag false (by decide) (by simp)
    refine .of_effect (exec_fieldSupplyRestored s) rfl heff ⟨?_, ?_, hall.die_frame⟩
    · rw [Dev.notify_flag]; exact Dev.flag_wr_toNat _ _ _ _ (by decide)
    · rw [Dev.notify_die]; exact congrArg FieldDie.lowLatch (Dev.wr_die ..)
  · have heff : s.fieldSupplyLoss = (s.setDie { s.die with powered := false, held := [], answer := none }).wr .FLD_LVL 0 0 := by
      simp [Dev.fieldSupplyLoss, hp]
    have hall : Dev.Within [(.FLD_LVL, 0)] Dev.butDie s.toDev
        ((s.setDie { s.die with powered := false, held := [], answer := none }).wr .FLD_LVL 0 0) :=
      ((Dev.Within.refl _ _ s.toDev).setDie _ fun _ _ => rfl).wr 0 (by decide) (by simp)
    refine .of_effect (exec_fieldSupplyLoss s) rfl heff ⟨?_, ?_, ?_, hall.die_frame⟩
    · rw [Dev.notify_die]; exact congrArg FieldDie.powered (Dev.wr_die ..)
    · rw [Dev.notify_rd, Dev.rd_wr]; rfl
    · rw [Dev.notify_die]; exact congrArg FieldDie.held (Dev.wr_die ..)
  · have hdie : s.fieldSupplyReturn.die = { lowLatch := true } := (congrArg Dev.die (Dev.fieldSupplyReturn_rest hp) :)
    have hreset {g : Field} (hg : g ∈ dieFields) (hn : g ≠ .FLD_STAT_FSUP) {j : Nat} (hj : j < g.desc.count) :
        (s.fieldSupplyReturn.notify s.toDev).rd g j = wrap g.desc.width (g.resetAt j) := by
      rw [Dev.notify_rd, Dev.fieldSupplyReturn_rd hp (lt_of_lt_of_le hj (dieFields_count g hg)) hn, if_pos ⟨hg, hj⟩]
    refine .of_effect (exec_fieldSupplyReturn s) rfl rfl ⟨?_, ?_, ?_, ?_, ?_, fun hf hn hi => ?_, fun hf hi => ?_, ?_⟩
    · rw [Dev.notify_die, hdie]
    · refine (congrArg (· != 0) (hreset (g := .FLD_STAT_SAFE) (j := 0) (by decide) (by decide) (by decide))).trans ?_
      rfl
    · exact hreset (g := .FLD_LVL) (j := 0) (by decide) (by decide) (by decide)
    · exact hreset (g := .FLD_OUT_EN) (j := 0) (by decide) (by decide) (by decide)
    · rw [Dev.notify_flag, Dev.fieldSupplyReturn_eq hp]; exact Dev.flag_wr_toNat _ _ _ _ (by decide)
    · exact hreset (Field.mem_dieFields hf) hn hi
    · have hout : f ∉ dieFields := fun h => by simpa [hf] using (List.mem_filter.1 h).2
      rw [Dev.notify_rd, Dev.fieldSupplyReturn_rd hp hi fun h => by simp [h] at hf; revert hf; decide, if_neg fun h => hout h.1]
    · rw [Dev.notify_rest, Dev.notify_die, hdie, Dev.fieldSupplyReturn_rest hp]

end Sys2Proof.Machine

end

section
/-! Frames at the field die (R272, R273, R276, R280) and the ticks that it holds. -/

namespace Sys2Proof.Machine

open Sys2Proof

theorem exec_stateFrame (p : Payload) (s : State) : exec (.stateFrame p) s = s.run (.stateFrame p) fun d => d.stateFrame p := rfl

theorem exec_tickFrame (p : Payload) (s : State) : exec (.tickFrame p) s = s.run (.tickFrame p) fun d => d.tickFrame p := rfl

theorem exec_regFrame (p : Payload) (s : State) : exec (.regFrame p) s = s.run (.regFrame p) fun d => d.regFrame p := rfl

theorem exec_tickEdge (s : State) : exec .tickEdge s = s.run .tickEdge fun d => d.tickEdge := rfl

theorem Dev.atDie_taken {s : Dev} {p : Payload} {k : Nat} (f : Dev → Nat → Dev) (hp : s.die.powered = true) (hk : kindOf p = k)
    (h3 : k ≠ 3) : s.atDie p k f = f s p.toNat := by simp [atDie, hp, hk, h3]

theorem Dev.atDie_bad {s : Dev} {p : Payload} (k : Nat) (f : Dev → Nat → Dev) (hp : s.die.powered = true) (h : kindOf p = 3) :
    s.atDie p k f = s.setDie { s.die with good := 0, crcBad := true } := by simp [atDie, h, badFrame, hp]

/-- A frame that is discarded. -/
theorem completes_badFrame {c : Instr} {s : State} {f : Dev → Dev} (h : exec c s = s.run c f) (hw : c.wf = true)
    (hf : f s.toDev = s.setDie { s.die with good := 0, crcBad := true }) :
    Completes c s fun t =>
      t.die = { s.die with good := 0, crcBad := true } ∧ KeepsFields s t [] ∧ t.rest = { s.rest with die := t.die } :=
  .of_effect h hw hf ⟨Dev.notify_die .., ((Dev.Within.refl [] Dev.butDie s.toDev).setDie _ fun _ _ => rfl).die_frame⟩

/-! ### STATE frames -/

/-- The field die once a STATE frame has arrived and named the line-stop output. -/
def Dev.stated (s : Dev) (n : Nat) : Dev := s.goodFrame.setDie { s.goodFrame.die with stop := some (bits n 52 5, bit n 57) }

theorem Dev.stated_within (s : Dev) (n : Nat) : Within [] butDie s (s.stated n) :=
  ((Within.refl [] butDie s).setDie _ fun _ _ => rfl).setDie _ fun _ _ => rfl

theorem Dev.takeState_eq (s : Dev) (n : Nat) :
    s.takeState n = if bit n 51 then (s.stated n).enterSafe
      else if (s.stated n).flag .FLD_STAT_SAFE then (if bit n 50 && (decide (16 ≤ s.die.good) && !s.die.lowLatch)
        then (s.stated n).leaveSafe else s.stated n)
      else (s.stated n).driveStopOutput := rfl

theorem Dev.Within.driveStopOutput {α : Type} {l : List (Field × Nat)} {m : Dev → α} {s t : Dev} (h : Within l m s t)
    (hl : (.FLD_LVL, 0) ∈ l) : Within l m s t.driveStopOutput := by
  unfold Dev.driveStopOutput
  split
  · exact h
  · exact h.wr _ (by decide) hl

theorem Dev.leaveSafe_within (s : Dev) : Within safeFields butDie s s.leaveSafe := by
  unfold leaveSafe
  exact (((Within.refl safeFields butDie s).setFlag false (by decide) (by simp [safeFields])).wr 0 (by decide)
    (by simp [safeFields])).driveStopOutput (by simp [safeFields])

theorem Dev.leaveSafe_flag (s : Dev) : s.leaveSafe.flag .FLD_STAT_SAFE = false :=
  (((Within.refl [(.FLD_LVL, 0)] (fun _ => ()) _).wr 0 (by decide) (by simp)).driveStopOutput (by simp)).flag_set (by decide) (by simp)
    (by decide)

/-- As the safe state is left every output but the line stop's is off. -/
theorem Dev.leaveSafe_bit {s : Dev} {o : Nat} {level : Bool} (h : s.die.stop = some (o, level)) {k : Nat} (hk : k < 32) (hne : k ≠ o) :
    bit (s.leaveSafe.rd .FLD_LVL) k = false := by
  have hdie : ((s.setFlag .FLD_STAT_SAFE 0 false).wr .FLD_LVL 0 0).die = s.die := (Dev.wr_die ..).trans (Dev.wr_die ..)
  unfold leaveSafe driveStopOutput
  rw [hdie, h]
  refine (Dev.bit_rd_wr _ _ _ _ _ hk).trans ?_
  have hbit : bit (oneBit o) k = false := by simp [bit_oneBit, Ne.symm hne]
  rw [bit_or, bit_clearBits, Dev.rd_wr]
  cases level <;> simp [bit_canDrive, hbit, wrap]

/-! ### TICK frames -/

theorem Dev.goodFrame_within (s : Dev) : Within [] butDie s s.goodFrame := (Within.refl [] butDie s).setDie _ fun _ _ => rfl

/-- A tick that outside the safe state arrives late is noted, and a late OFF is applied at once. -/
def Dev.lateTick (s : Dev) (t : Tick) : Dev :=
  let u := s.setDie { s.die with late := true, lastLate := some t }
  if t.level then u else u.driveMask 0 t.mask

theorem Dev.takeTick_eq {s : Dev} (n : Nat) (hsafe : s.flag .FLD_STAT_SAFE = false) :
    s.takeTick n =
      let u := s.goodFrame
      let t := u.tickOf n
      if s.die.knows t then u
      else if t.edge ≤ u.fieldTimer then u.lateTick t
      else if s.die.held.length < 256 then u.setDie { u.die with held := s.die.held ++ [t] } else u := by
  have hflag : s.goodFrame.flag .FLD_STAT_SAFE = false := (s.goodFrame_within.flag (by decide) (by simp)).trans hsafe
  unfold takeTick
  dsimp only
  rw [hflag, Bool.false_or]
  rfl

theorem Dev.stopMask_congr {s t : Dev} (h : t.die.stop = s.die.stop) : t.stopMask = s.stopMask := by
  unfold stopMask; rw [h]

theorem Dev.lateTick_on {s : Dev} {t : Tick} (h : t.level = true) : s.lateTick t = s.setDie { s.die with late := true, lastLate := some t } :=
  if_pos h

theorem Dev.lateTick_die (s : Dev) (t : Tick) : (s.lateTick t).die = { s.die with late := true, lastLate := some t } := by
  unfold lateTick
  dsimp only
  split
  · rfl
  · exact Dev.wr_die ..

theorem Dev.Within.driveMask {α : Type} {l : List (Field × Nat)} {m : Dev → α} {s t : Dev} (h : Within l m s t) (on off : Nat)
    (hl : (.FLD_LVL, 0) ∈ l) : Within l m s (t.driveMask on off) := h.wr _ (by decide) hl

theorem Dev.driveMask_bit (s : Dev) (on off : Nat) {k : Nat} (hk : k < 32) :
    bit ((s.driveMask on off).rd .FLD_LVL) k =
      (bit (s.rd .FLD_LVL) k && !(bit off k && !bit s.stopMask k) ||
        (bit on k && !bit s.stopMask k) && bit (s.rd .FLD_OUT_EN) k && !bit (s.rd .FLD_SC) k) := by
  unfold driveMask
  refine (Dev.bit_rd_wr _ _ _ _ _ hk).trans ?_
  simp [bit_canDrive]

theorem Dev.lateTick_within (s : Dev) (t : Tick) : Within [(.FLD_LVL, 0)] butDie s (s.lateTick t) := by
  have hnoted : Within [(.FLD_LVL, 0)] butDie s (s.setDie { s.die with late := true, lastLate := some t }) :=
    (Within.refl _ _ s).setDie _ fun _ _ => rfl
  unfold lateTick
  dsimp only
  split
  · exact hnoted
  · exact hnoted.driveMask _ _ (by simp)

theorem Dev.lateTick_off {s : Dev} {t : Tick} (h : t.level = false) {k : Nat} (hmask : bit t.mask k = true) (hstop : bit s.stopMask k = false)
    (hk : k < 32) : bit ((s.lateTick t).rd .FLD_LVL) k = false := by
  unfold lateTick
  dsimp only
  have hfree : bit (s.setDie { s.die with late := true, lastLate := some t }).stopMask k = false :=
    (congrArg (bit · k) (stopMask_congr rfl)).trans hstop
  rw [if_neg (by simp [h]), driveMask_bit _ _ _ hk, hmask, hfree]
  simp

/-! ### REG frames -/

/-- A read is answered with the register's value; the answer is the field die's alone. -/
theorem Dev.takeReg_read {s : Dev} {n : Nat} (h : bit n 9 = true) :
    ∃ free, s.takeReg n = { s with
      die := { s.goodFrame.die with answer := some (bits n 42 16, s.dieRead (bits n 42 16)) }, free := free } := by
  unfold takeReg
  dsimp only
  rw [if_pos h]
  split
  · exact ⟨s.free + 1, rfl⟩
  · exact ⟨s.free, rfl⟩

theorem Dev.takeReg_enable {s : Dev} {n : Nat} (h : bit n 9 = false) (ha : bits n 42 16 = 4) :
    s.takeReg n = (s.goodFrame.wr .FLD_OUT_EN 0 (bits n 10 32)).resettle := by
  unfold takeReg
  dsimp only
  rw [if_neg (by simp [h]), ha]
  rfl

/-- Outputs that settle anew keep what is not enabled off. -/
theorem Dev.resettle_within (s : Dev) : Within [(.FLD_LVL, 0)] butDie s s.resettle := by
  unfold resettle
  split
  · exact (Within.refl _ _ s).safeLevels (by simp)
  · exact (Within.refl _ _ s).wr _ (by decide) (by simp)

theorem Dev.resettle_bit {s : Dev} {k : Nat} (hk : k < 32) (h : bit (s.rd .FLD_OUT_EN) k = false) : bit (s.resettle.rd .FLD_LVL) k = false := by
  unfold resettle
  split
  · rw [safeLevels_bit _ hk, h]; rfl
  · refine (Dev.bit_rd_wr _ _ _ _ _ hk).trans ?_
    simp [bit_canDrive, h]

/-! ### Held ticks -/

theorem Dev.timerTo_die (s : Dev) (e : Nat) : (s.timerTo e).die.held = s.die.held ∧ (s.timerTo e).die.stop = s.die.stop := by
  unfold timerTo
  dsimp only
  split
  · exact ⟨rfl, rfl⟩
  · rw [advance_die]; exact ⟨rfl, rfl⟩

/-- The field die as the ticks of an edge leave those that it holds. -/
def FieldDie.fire (d : FieldDie) (e : Nat) : FieldDie :=
  { d with held := d.held.filter fun t => t.edge != e, fired := (d.held.filter (fun t => t.edge == e) ++ d.fired).take 256 }

theorem Dev.fireEdge_eq (s : Dev) (e : Nat) :
    s.fireEdge e = (s.setDie (s.die.fire e)).driveMask (clearBits (edgeMask s.die.held e true) (edgeMask s.die.held e false))
      (clearBits (edgeMask s.die.held e false) (edgeMask s.die.held (e + 1) true)) := by
  unfold fireEdge
  simp only [List.partition_eq_filter_filter, FieldDie.fire]
  rfl

/-- Settles O44: each frame's effect is that of its case, and a held edge drives its outputs where nothing holds them. -/
theorem fieldDieObeysFrames : Obligations.FieldDieObeysFrames := by
  intro s p o e hp
  have ho := o.2
  refine ⟨fun hk => ⟨fun hbit hsafe => ?_, fun hbit hsafe => ?_⟩, fun hk hsafe => ⟨fun hknown => ?_, fun hnew hlate hroom => ?_,
    fun hnew hlate => ?_⟩, fun hk => ⟨fun hread => ?_, fun hwrite haddr => ?_⟩, fun hk => ⟨?_, ?_, ?_⟩, fun hfirst => ?_⟩
  · have hstated := s.toDev.stated_within p.toNat
    have hout : (s.stated p.toNat).flag .FLD_STAT_SAFE = false := (hstated.flag (by decide) (by simp)).trans hsafe
    have heff : s.stateFrame p = (s.stated p.toNat).enterSafe := by
      refine (Dev.atDie_taken Dev.takeState hp hk (by decide)).trans ?_
      rw [Dev.takeState_eq, if_pos hbit]
    have hdie := (s.stated p.toNat).enterSafe_die
    rw [if_neg (by simp [hout]; exact hp)] at hdie
    have hall := (hstated.mono (k := safeFields) (by simp)).trans (s.stated p.toNat).enterSafe_within
    refine .of_effect (exec_stateFrame p s) rfl heff ⟨?_, ?_, ?_, ?_, hall.die_frame⟩
    · rw [Dev.notify_flag]; exact Dev.enterSafe_flag hp
    · rw [Dev.notify_die, hdie]
    · rw [Dev.notify_die, hdie]; rfl
    · rw [Dev.notify_rd, Dev.enterSafe_bit (s := s.stated p.toNat) hp hout ho, hstated.rd (by decide) (by simp), hstated.rd (by decide) (by simp),
        hstated.rd (by omega) (by simp), hstated.rd (by decide) (by simp)]
  · have hstated := s.toDev.stated_within p.toNat
    have hin : (s.stated p.toNat).flag .FLD_STAT_SAFE = true := (hstated.flag (by decide) (by simp)).trans hsafe
    have heff : s.stateFrame p = if bit p.toNat 50 && (decide (16 ≤ s.die.good) && !s.die.lowLatch)
        then (s.stated p.toNat).leaveSafe else s.stated p.toNat := by
      refine (Dev.atDie_taken Dev.takeState hp hk (by decide)).trans ?_
      rw [Dev.takeState_eq, if_neg (by simp [hbit]), if_pos hin]
    have hstated' := hstated.mono (k := safeFields) (by simp)
    rw [← Bool.and_assoc] at heff
    by_cases hleave : (bit p.toNat 50 && decide (16 ≤ s.die.good) && !s.die.lowLatch) = true
    · rw [if_pos hleave] at heff
      refine .of_effect (exec_stateFrame p s) rfl heff
        ⟨?_, fun _ hne => ?_, (hstated'.trans (s.stated p.toNat).leaveSafe_within).die_frame⟩
      · rw [Dev.notify_flag, Dev.leaveSafe_flag, hleave]; rfl
      · rw [Dev.notify_rd]; exact Dev.leaveSafe_bit rfl ho hne
    · rw [if_neg hleave] at heff
      refine .of_effect (exec_stateFrame p s) rfl heff ⟨?_, fun hout => ?_, hstated'.die_frame⟩
      · rw [Dev.notify_flag, hin, Bool.eq_false_iff.2 hleave]; rfl
      · rw [Dev.notify_flag, hin] at hout; exact absurd hout (by decide)
  · have heff : s.tickFrame p = s.goodFrame := by
      refine (Dev.atDie_taken Dev.takeTick hp hk (by decide)).trans ((Dev.takeTick_eq _ hsafe).trans ?_)
      exact if_pos hknown
    refine .of_effect (exec_tickFrame p s) rfl heff ⟨?_, ?_, s.toDev.goodFrame_within.die_frame⟩
    · rw [Dev.notify_die]; rfl
    · rw [Dev.notify_die]; rfl
  · have heff : s.tickFrame p = s.goodFrame.setDie { s.goodFrame.die with held := s.die.held ++ [s.goodFrame.tickOf p.toNat] } := by
      refine (Dev.atDie_taken Dev.takeTick hp hk (by decide)).trans ((Dev.takeTick_eq _ hsafe).trans ?_)
      exact (if_neg (Bool.eq_false_iff.1 hnew)).trans ((if_neg (by omega)).trans (if_pos hroom))
    exact .of_effect (exec_tickFrame p s) rfl heff
      ⟨congrArg FieldDie.held (Dev.notify_die ..), (s.toDev.goodFrame_within.setDie _ fun _ _ => rfl).die_frame⟩
  · have heff : s.tickFrame p = s.goodFrame.lateTick (s.goodFrame.tickOf p.toNat) := by
      refine (Dev.atDie_taken Dev.takeTick hp hk (by decide)).trans ((Dev.takeTick_eq _ hsafe).trans ?_)
      exact (if_neg (Bool.eq_false_iff.1 hnew)).trans (if_pos hlate)
    have hlast := s.goodFrame.lateTick_within (s.goodFrame.tickOf p.toNat)
    have hdie := s.goodFrame.lateTick_die (s.goodFrame.tickOf p.toNat)
    refine .of_effect (exec_tickFrame p s) rfl heff ⟨?_, ?_, ?_, fun hon => ?_, fun hoff hmask hstop => ?_,
      ((s.toDev.goodFrame_within.mono (by simp)).trans hlast).die_frame⟩
    · rw [Dev.notify_die, hdie]
    · rw [Dev.notify_die, hdie]
    · rw [Dev.notify_die, hdie]; rfl
    · rw [Dev.notify_rd, Dev.lateTick_on (t := s.goodFrame.tickOf p.toNat) hon]; rfl
    · rw [Dev.notify_rd]
      refine Dev.lateTick_off (t := s.goodFrame.tickOf p.toNat) hoff ?_ hstop ho
      exact (bit_bits ..).trans (by simp [hmask])
  · obtain ⟨free, hreg⟩ := Dev.takeReg_read (s := s.toDev) hread
    have heff := (Dev.atDie_taken Dev.takeReg hp hk (by decide)).trans hreg
    refine .of_effect (exec_regFrame p s) rfl heff ⟨congrArg FieldDie.answer (Dev.notify_die ..), fun f i _ _ => Dev.notify_rd .., ?_⟩
    rw [Dev.notify_rest, Dev.notify_die, Dev.notify_free]
    rfl
  · have heff := (Dev.atDie_taken Dev.takeReg hp hk (by decide)).trans (Dev.takeReg_enable (s := s.toDev) hwrite haddr)
    let u := s.goodFrame.wr .FLD_OUT_EN 0 (bits p.toNat 10 32)
    have hsettle := u.resettle_within
    have hu : Dev.Within [(.FLD_OUT_EN, 0), (.FLD_LVL, 0)] Dev.butDie s.toDev u :=
      (s.toDev.goodFrame_within.mono (by simp)).wr _ (by decide) (by simp)
    have henable : u.rd .FLD_OUT_EN = bits p.toNat 10 32 := (Dev.rd_wr ..).trans (Nat.mod_mod ..)
    refine .of_effect (exec_regFrame p s) rfl heff ⟨?_, fun hbit => ?_, (hu.trans (hsettle.mono (by simp))).die_frame⟩
    · rw [Dev.notify_rd]; exact (hsettle.rd (by decide) (by simp)).trans henable
    · rw [Dev.notify_rd]
      refine Dev.resettle_bit (s := u) ho ?_
      rw [henable, bit_bits, hbit, Bool.and_false]
  · exact completes_badFrame (exec_stateFrame p s) rfl (Dev.atDie_bad 0 Dev.takeState hp hk)
  · exact completes_badFrame (exec_tickFrame p s) rfl (Dev.atDie_bad 1 Dev.takeTick hp hk)
  · exact completes_badFrame (exec_regFrame p s) rfl (Dev.atDie_bad 2 Dev.takeReg hp hk)
  · have heff : s.tickEdge = (s.timerTo e).fireEdge e := by
      unfold Dev.tickEdge
      rw [hfirst]
      exact if_pos hp
    obtain ⟨hheld, hstop⟩ := s.toDev.timerTo_die e
    rw [Dev.fireEdge_eq, hheld] at heff
    generalize s.timerTo e = u at heff hheld hstop
    have hall : Dev.Within [(.FLD_LVL, 0)] Dev.butDie u ((u.setDie (u.die.fire e)).driveMask
        (clearBits (edgeMask s.die.held e true) (edgeMask s.die.held e false))
        (clearBits (edgeMask s.die.held e false) (edgeMask s.die.held (e + 1) true))) :=
      ((Dev.Within.refl _ _ u).setDie _ fun _ _ => rfl).driveMask _ _ (by simp)
    refine .of_effect (exec_tickEdge s) rfl heff ⟨?_, ?_, fun hon hoff hfree hen hsc => ?_, fun f i hi hf => ?_, ?_⟩
    · rw [Dev.notify_die, Dev.driveMask, Dev.wr_die, ← hheld]; rfl
    · rw [Dev.notify_xclk, Dev.driveMask, Dev.wr_xclk]; rfl
    · have hfree' : bit (u.setDie (u.die.fire e)).stopMask o = false := (congrArg (bit · o) (Dev.stopMask_congr hstop)).trans hfree
      rw [Dev.notify_rd, Dev.driveMask_bit _ _ _ ho, hfree']
      change (_ || (_ && _) && bit (u.rd .FLD_OUT_EN) o && !bit (u.rd .FLD_SC) o) = true
      simp [hon, hoff, hen, hsc]
    · exact (Dev.notify_rd ..).trans (hall.rd hi hf)
    · rw [Dev.notify_rest, Dev.notify_die]
      exact Dev.rest_of_butDie hall.same

end Sys2Proof.Machine

end

section
/-! Presence on a lane (R26 to R29, R39, R40): what a change of it, with the switch and the part that it may bring, leaves alone. -/

namespace Sys2Proof.Machine

open Sys2Proof

/-- What the module holds beside what a change of presence changes. -/
def Dev.butPresence (s : Dev) : Dev :=
  { s.body with parts := [], lanes := [], slots := [], posted := [], jobs := [], zports := [], nextId := 0, slotNow := none, slotFrom := 0,
                slotPast := [], slotNext := none }

/-- A part of the module that no change of presence reaches. -/
def Dev.Unmoved {α : Type} (m : Dev → α) : Prop := ∀ d e : Dev, d.butPresence = e.butPresence → m d = m e

/-- The fields that a change of presence may change. -/
def presenceFields : List (Field × Nat) := [(.JOB_Q_TAIL, 8), (.SEP_STAT_OVFLIST, 0), (.SEP_STAT_LSTOP, 0)] ++ logFields

theorem logFields_presence : ∀ e ∈ logFields, e ∈ presenceFields := fun _ he => List.mem_append_right _ he

theorem Dev.Unmoved.quiet {α : Type} {m : Dev → α} (hm : Unmoved m) : Quiet m :=
  fun d e h => hm _ _ (by simp only [butPresence, rest_body, h])

namespace Dev.Within

variable {α : Type} {m : Dev → α} {s t : Dev}

theorem posted (hm : Unmoved m) (x : List (Nat × Nat)) (h : Within presenceFields m s t) : Within presenceFields m s { t with posted := x } :=
  h.step rfl rfl rfl (hm _ _ rfl)

theorem activate (hm : Unmoved m) (k : Nat) (h : Within presenceFields m s t) : Within presenceFields m s (t.activate k) := by
  have hpost (n : Nat) (x : List (Nat × Nat)) : Within presenceFields m s { t.wr .JOB_Q_TAIL 8 n with posted := x } :=
    (h.wr n (by decide) (by simp [presenceFields])).posted hm x
  unfold Dev.activate
  dsimp only
  split
  · exact h.setSlot _ _ fun _ _ => hm _ _ rfl
  · exact (hpost _ _).setSlot _ _ fun _ _ => hm _ _ rfl

theorem retireSlots (hm : Unmoved m) (h : Within presenceFields m s t) : Within presenceFields m s t.retireSlots :=
  .foldl _ h fun d k _ => (refl _ m d).retire k (by simp [presenceFields]) fun _ _ _ _ => hm _ _ rfl

theorem switched (hm : Unmoved m) (past : List (Nat × Nat)) (now : Option Nat) (start : Nat) (h : Within presenceFields m s t) :
    Within presenceFields m s { t with slotPast := past, slotNow := now, slotFrom := start, slotNext := none } :=
  h.step rfl rfl rfl (hm _ _ rfl)

theorem takeSwitch (hm : Unmoved m) (h : Within presenceFields m s t) : Within presenceFields m s t.takeSwitch := by
  unfold Dev.takeSwitch
  split
  · exact h
  · exact ((h.switched hm _ _ _).activate hm _).retireSlots hm

theorem switchIfReached (hm : Unmoved m) (h : Within presenceFields m s t) : Within presenceFields m s t.switchIfReached := by
  unfold Dev.switchIfReached
  split
  · split
    · exact h.takeSwitch hm
    · exact h
  · exact h

theorem switchFor (hm : Unmoved m) (start : Nat) (h : Within presenceFields m s t) : Within presenceFields m s (t.switchFor start) := by
  have hreached := h.switchIfReached hm
  unfold Dev.switchFor
  dsimp only
  split
  · split
    · exact hreached.takeSwitch hm
    · exact hreached
  · exact hreached

theorem trackPart (hm : Unmoved m) (l start k : Nat) (h : Within presenceFields m s t) : Within presenceFields m s (t.trackPart l start k) := by
  have htable (x : List Part) (n : Nat) : Within presenceFields m s { t with parts := x, nextId := n } :=
    h.step rfl rfl rfl (hm _ _ rfl)
  have hlane (x : List Part) (n : Nat) (e : Lane) : Within presenceFields m s ({ t with parts := x, nextId := n }.setLane l e) :=
    (htable x n).setLane l e fun _ _ => hm _ _ rfl
  unfold Dev.trackPart
  dsimp only
  split
  · exact ((h.setFlag true (by decide) (by simp [presenceFields])).driveStop (by simp [presenceFields])).tally _ _ _ _ _ logFields_presence
      hm.quiet
  · split
    · exact ((hlane _ _ _).tally _ _ _ _ _ logFields_presence hm.quiet).announce _ _ fun _ _ => hm _ _ rfl
    · exact (hlane _ _ _).announce _ _ fun _ _ => hm _ _ rfl

theorem openPart (hm : Unmoved m) (l start : Nat) (broken : Bool) (h : Within presenceFields m s t) :
    Within presenceFields m s (t.openPart l start broken) := by
  unfold Dev.openPart
  split
  · exact h
  · dsimp only
    split
    · exact h.switchFor hm start
    · exact (h.switchFor hm start).trackPart hm l start _

theorem closePart (hm : Unmoved m) (l fin : Nat) (code : Option Nat) (h : Within presenceFields m s t) :
    Within presenceFields m s (t.closePart l fin code) := by
  have hclosed (id : Nat) (g : Part → Part) (e : Lane) : Within presenceFields m s ((t.setLane l e).updPart id g) :=
    (h.setLane l e fun _ _ => hm _ _ rfl).updPart id g fun _ _ => hm _ _ rfl
  unfold Dev.closePart
  split
  · exact h
  · dsimp only
    split
    · exact (hclosed _ _ _).announce _ _ fun _ _ => hm _ _ rfl
    · exact hclosed _ _ _

theorem presence (hm : Unmoved m) (l pos : Nat) (on broken : Bool) (h : Within presenceFields m s t) :
    Within presenceFields m s (t.presence l pos on broken) := by
  have hlane (e : Lane) : Within presenceFields m s (t.setLane l e) := h.setLane l e fun _ _ => hm _ _ rfl
  unfold Dev.presence
  dsimp only
  split
  · exact (hlane _).openPart hm l pos broken
  · exact ((hlane _).closePart hm l pos none).setLane l _ fun _ _ => hm _ _ rfl

end Dev.Within

end Sys2Proof.Machine

end

section
/-! Inputs, outputs and inbound frames of the field side (R271, R273, R283 to R286, R428). -/

namespace Sys2Proof.Machine

open Sys2Proof

/-! ### Inputs (R283, R285) -/

theorem exec_inputChangeAccepted (n : Fin 16) (level : Bool) (s : State) :
    exec (.inputChangeAccepted n level) s = s.run (.inputChangeAccepted n level) fun d => d.inputChange n level := rfl

theorem exec_wireBreak (n : Fin 16) (s : State) : exec (.wireBreak n) s = s.run (.wireBreak n) fun d => d.wireBreak n := rfl

theorem exec_wireBreakClear (n : Fin 16) (level : Bool) (s : State) :
    exec (.wireBreakClear n level) s = s.run (.wireBreakClear n level) fun d => d.wireBreakClear n level := rfl

theorem exec_outputShortCircuit (o : Fin 32) (s : State) : exec (.outputShortCircuit o) s = s.run (.outputShortCircuit o) fun d => d.protect o := rfl

theorem exec_outputOpenLoad (o : Fin 32) (s : State) : exec (.outputOpenLoad o) s = s.run (.outputOpenLoad o) fun d => d.openLoad o := rfl

theorem exec_groupOvercurrent (g : Fin 4) (s : State) : exec (.groupOvercurrent g) s = s.run (.groupOvercurrent g) fun d => d.groupOvercurrent g := rfl

theorem exec_barrierFrameCrcFail (b : Bool) (s : State) :
    exec (.barrierFrameCrcFail b) s = s.run (.barrierFrameCrcFail b) fun d => d.crcFail b := rfl

theorem exec_inboundStatusFrame (p : Payload) (s : State) :
    exec (.inboundStatusFrame p) s = s.run (.inboundStatusFrame p) fun d => d.inboundStatus p := rfl

theorem exec_inboundReadFrame (p : Payload) (s : State) :
    exec (.inboundReadFrame p) s = s.run (.inboundReadFrame p) fun d => d.inboundRead p := rfl

/-- A mask of `w` bits has no bit beyond them. -/
theorem Dev.bit_rd_out (s : Dev) (f : Field) (i k : Nat) (h : f.desc.width ≤ k) : bit (s.rd f i) k = false :=
  Nat.testBit_eq_false_of_lt (lt_of_lt_of_le (s.rd_lt f i) (Nat.pow_le_pow_right (by decide) h))

/-- One bit of a mask of register bits is set to a value: it reads so, and every other as before. -/
theorem Dev.bit_rd_setBits (s : Dev) (f : Field) (i n : Nat) (b : Bool) (k : Nat) (hn : n < f.desc.width) :
    bit ((s.wr f i (setBits (s.rd f i) n 1 b.toNat)).rd f i) k = if k = n then b else bit (s.rd f i) k := by
  by_cases hk : k < f.desc.width
  · rw [Dev.bit_rd_wr _ _ _ _ _ hk, bit_setBits_one]
  · rw [Dev.bit_rd_out _ _ _ _ (by omega), if_neg (by omega), Dev.bit_rd_out _ _ _ _ (by omega)]

/-- What the module holds beside the field side and the parts. -/
def Dev.butFieldSide (s : Dev) : Dev := { s.body with die := {}, barrier := {}, parts := [] }

theorem Dev.quiet_butFieldSide : Quiet butFieldSide := fun d e h => by simp only [butFieldSide, rest_body, h]

theorem Dev.body_of_butFieldSide {s t : Dev} (h : t.rest.butFieldSide = s.rest.butFieldSide) :
    t.body = { s.body with die := t.die, barrier := t.barrier, parts := t.parts } :=
  (congrArg (fun d : Dev => { d with die := t.die, barrier := t.barrier, parts := t.parts }) h :)

theorem Dev.Within.barrier {α : Type} {l : List (Field × Nat)} {m : Dev → α} {s t : Dev} (h : Within l m s t) (b : Barrier)
    (hm : ∀ d x, m { d with barrier := x } = m d) : Within l m s { t with barrier := b } := h.step rfl rfl rfl (hm t.rest b)

/-- The logic side learns of a broken input. -/
theorem Dev.Within.noteBreak {α : Type} {l : List (Field × Nat)} {m : Dev → α} {s t : Dev} (h : Within l m s t) (i : Nat)
    (hl : ∀ e ∈ logFields, e ∈ l) (hq : Quiet m) (hb : ∀ d x, m { d with barrier := x } = m d) (hp : ∀ d x, m { d with parts := x } = m d) :
    Within l m s (t.noteBreak i) := by
  have hnoted (b : Barrier) : Within l m s ({ t with barrier := b }.tally 0x0061 i) := (h.barrier b hb).tally _ _ _ _ _ hl hq
  unfold Dev.noteBreak
  dsimp only
  split
  · exact hnoted _
  · refine .foldl _ (hnoted _) fun d k _ => ?_
    split
    · exact (refl l m d).updPart _ _ hp
    · exact .refl l m d

/-- The field die's own state, of which no Tally event is a part. -/
theorem Dev.quiet_die : Quiet Dev.die := fun _ _ h => (congrArg Dev.die h :)

theorem Dev.Within.die_eq {l : List (Field × Nat)} {s t : Dev} (h : Within l Dev.die s t) : t.die = s.die := h.same

theorem Dev.noteBreak_die (s : Dev) (i : Nat) : (s.noteBreak i).die = s.die :=
  ((Within.refl logFields Dev.die s).noteBreak i (fun _ h => h) quiet_die (fun _ _ => rfl) fun _ _ => rfl).die_eq

/-- An input is declared broken. -/
def Dev.declared (s : Dev) (i : Nat) : Dev := (s.setDie { s.die with broken := s.die.broken ||| oneBit i }).orBits .FLD_WB 0 (oneBit i)

/-- An input that is declared broken reads off. -/
def Dev.broken (s : Dev) (i : Nat) : Dev := (s.declared i).wr .FLD_IN 0 (clearBits (s.rd .FLD_IN) (oneBit i))

theorem Dev.wireBreak_eq {s : Dev} {i : Nat} (hp : s.die.powered = true) (hcheck : s.flag .FLD_INCFG_WBEN i = true)
    (hnew : bit s.die.broken i = false) : s.wireBreak i = if (s.broken i).logicOn then (s.broken i).noteBreak i else s.broken i := by
  have hgo : (!s.die.powered || !s.flag .FLD_INCFG_WBEN i || bit s.die.broken i) = false := by simp [hp, hcheck, hnew]
  unfold wireBreak
  rw [hgo]
  rfl

theorem Dev.declared_within (s : Dev) (i : Nat) : Within [(.FLD_WB, 0), (.FLD_IN, 0)] butFieldSide s (s.declared i) :=
  ((Within.refl _ _ s).setDie _ fun _ _ => rfl).orBits _ (by decide) (by simp)

theorem Dev.broken_within (s : Dev) (i : Nat) : Within [(.FLD_WB, 0), (.FLD_IN, 0)] butFieldSide s (s.broken i) :=
  (s.declared_within i).wr _ (by decide) (by simp)

theorem Dev.broken_reads (s : Dev) {i : Nat} (hi : i < 16) :
    bit ((s.broken i).rd .FLD_WB) i = true ∧ bit ((s.broken i).rd .FLD_IN) i = false ∧ bit (s.broken i).die.broken i = true := by
  refine ⟨?_, ?_, ?_⟩
  · unfold broken
    rw [Dev.rd_wr_field _ _ _ _ _ _ (by decide) (by decide) (by decide), declared, orBits]
    refine (Dev.bit_rd_wr _ _ _ _ _ hi).trans ?_
    simp
  · unfold broken
    refine (Dev.bit_rd_wr _ _ _ _ _ hi).trans ?_
    simp
  · have hdie : (s.broken i).die = { s.die with broken := s.die.broken ||| oneBit i } := (Dev.wr_die ..).trans (Dev.wr_die ..)
    rw [hdie, bit_or, bit_oneBit_same, Bool.or_true]

/-- A declared break, with what the logic side learns of it. -/
theorem Dev.wireBreak_reads {s : Dev} {i : Nat} (hi : i < 16) (hp : s.die.powered = true) (hcheck : s.flag .FLD_INCFG_WBEN i = true)
    (hnew : bit s.die.broken i = false) :
    Within ([(.FLD_WB, 0), (.FLD_IN, 0)] ++ logFields) butFieldSide s (s.wireBreak i) ∧ bit ((s.wireBreak i).rd .FLD_WB) i = true ∧
      bit ((s.wireBreak i).rd .FLD_IN) i = false ∧ bit (s.wireBreak i).die.broken i = true := by
  have hbroken := s.broken_within i
  obtain ⟨hwb, hin, hdie⟩ := s.broken_reads hi
  rw [wireBreak_eq hp hcheck hnew]
  split
  · have hnote : Within logFields butFieldSide (s.broken i) ((s.broken i).noteBreak i) :=
      (Within.refl _ _ _).noteBreak i (fun _ h => h) quiet_butFieldSide (fun _ _ => rfl) fun _ _ => rfl
    have hsame := (s.broken i).noteBreak_die i
    refine ⟨(hbroken.left logFields).trans (hnote.right _), ?_, ?_, ?_⟩
    · rw [hnote.rd (by decide) (by decide)]; exact hwb
    · rw [hnote.rd (by decide) (by decide)]; exact hin
    · rw [hsame]; exact hdie
  · exact ⟨hbroken.left logFields, hwb, hin, hdie⟩

/-! ### Outputs (R286, R428) -/

/-- What the module holds beside the barrier, and beside what a Tally event changes. -/
def Dev.butBarrier (s : Dev) : Dev := { s.body with barrier := {} }

theorem Dev.quiet_butBarrier : Quiet butBarrier := fun d e h => by simp only [butBarrier, rest_body, h]

theorem Dev.body_of_butBarrier {s t : Dev} (h : t.rest.butBarrier = s.rest.butBarrier) : t.body = { s.body with barrier := t.barrier } :=
  (congrArg (fun d : Dev => { d with barrier := t.barrier }) h :)

/-- An output is switched off, with its short-circuit bit set. -/
def Dev.switchedOff (s : Dev) (o : Nat) : Dev := (s.wr .FLD_LVL 0 (clearBits (s.rd .FLD_LVL) (oneBit o))).orBits .FLD_SC 0 (oneBit o)

/-- What protection does to an output that is on. -/
theorem Dev.protect_within {α : Type} {m : Dev → α} (hq : Quiet m) (hb : ∀ d x, m { d with barrier := x } = m d) {s : Dev} {o : Nat}
    (hp : s.die.powered = true) (hon : bit (s.rd .FLD_LVL) o = true) : Within logFields m (s.switchedOff o) (s.protect o) := by
  unfold protect
  rw [if_neg (by simp [hp, hon])]
  change Within _ _ _ (if (s.switchedOff o).logicOn && !bit (s.switchedOff o).barrier.short o then _ else s.switchedOff o)
  split
  · exact ((Within.refl _ _ (s.switchedOff o)).barrier _ hb).tally _ _ _ _ _ (fun _ h => h) hq
  · exact .refl _ _ _

theorem Dev.switchedOff_within (s : Dev) (o : Nat) {α : Type} (m : Dev → α) : Within [(.FLD_LVL, 0), (.FLD_SC, 0)] m s (s.switchedOff o) :=
  ((Within.refl _ _ s).wr _ (by decide) (by simp)).orBits _ (by decide) (by simp)

theorem Dev.switchedOff_lvl (s : Dev) (o k : Nat) : bit ((s.switchedOff o).rd .FLD_LVL) k = (bit (s.rd .FLD_LVL) k && decide (k ≠ o)) := by
  unfold switchedOff orBits
  rw [Dev.rd_wr_field _ _ _ _ _ _ (by decide) (by decide) (by decide)]
  by_cases hk : k < 32
  · refine (Dev.bit_rd_wr _ _ _ _ _ hk).trans ?_
    rw [bit_clearBits, bit_oneBit]
    by_cases h : k = o
    · simp [h]
    · simp [h, Ne.symm h]
  · have hout (u : Dev) : bit (u.rd .FLD_LVL) k = false := u.bit_rd_out .FLD_LVL 0 k (Nat.le_of_not_lt hk)
    rw [hout, hout, Bool.false_and]

theorem Dev.switchedOff_sc (s : Dev) {o : Nat} (ho : o < 32) (k : Nat) :
    bit ((s.switchedOff o).rd .FLD_SC) k = (bit (s.rd .FLD_SC) k || decide (k = o)) := by
  have hsc : (s.wr .FLD_LVL 0 (clearBits (s.rd .FLD_LVL) (oneBit o))).rd .FLD_SC = s.rd .FLD_SC :=
    Dev.rd_wr_field _ _ _ _ _ _ (by decide) (by decide) (by decide)
  by_cases hk : k < 32
  · refine (Dev.bit_rd_wr _ _ _ _ _ hk).trans ?_
    rw [bit_or, hsc, bit_oneBit]
    by_cases h : k = o
    · simp [h]
    · simp [h, Ne.symm h]
  · have hout (u : Dev) : bit (u.rd .FLD_SC) k = false := u.bit_rd_out .FLD_SC 0 k (Nat.le_of_not_lt hk)
    rw [hout, hout, Bool.false_or, decide_eq_false (by omega)]

/-- The fields that protection changes. -/
def protectFields : List (Field × Nat) := [(.FLD_LVL, 0), (.FLD_SC, 0)] ++ logFields

/-- Protection leaves an output that is off alone, and switches one that is on off. -/
theorem Dev.protect_reads {s : Dev} {o : Nat} (ho : o < 32) (hp : s.die.powered = true) :
    Within protectFields butBarrier s (s.protect o) ∧ (s.protect o).die = s.die ∧
      (∀ k, bit ((s.protect o).rd .FLD_LVL) k = (bit (s.rd .FLD_LVL) k && decide (k ≠ o))) ∧
      (∀ k, bit ((s.protect o).rd .FLD_SC) k = (bit (s.rd .FLD_SC) k || (bit (s.rd .FLD_LVL) k && decide (k = o)))) := by
  by_cases hon : bit (s.rd .FLD_LVL) o = true
  · have hprot := protect_within quiet_butBarrier (fun _ _ => rfl) hp hon
    refine ⟨((s.switchedOff_within o butBarrier).left logFields).trans (hprot.right _), ?_, fun k => ?_, fun k => ?_⟩
    · exact (protect_within quiet_die (fun _ _ => rfl) hp hon).die_eq.trans (s.switchedOff_within o Dev.die).die_eq
    · rw [hprot.rd (by decide) (by decide), switchedOff_lvl]
    · rw [hprot.rd (by decide) (by decide), switchedOff_sc _ ho]
      by_cases h : k = o
      · simp [h, hon]
      · simp [h]
  · have hsame : s.protect o = s := if_pos (by simp [hon])
    rw [hsame]
    refine ⟨.refl _ _ s, rfl, fun k => ?_, fun k => ?_⟩
    · by_cases h : k = o
      · simp [h, Bool.eq_false_iff.2 hon]
      · simp [h]
    · by_cases h : k = o
      · simp [h, Bool.eq_false_iff.2 hon]
      · simp [h]

theorem Dev.protectAll_reads (l : List Nat) (hl : ∀ o ∈ l, o < 32) {s : Dev} (hp : s.die.powered = true) :
    Within protectFields butBarrier s (l.foldl (fun (d : Dev) o => d.protect o) s) ∧
      (∀ k, bit ((l.foldl (fun (d : Dev) o => d.protect o) s).rd .FLD_LVL) k = (bit (s.rd .FLD_LVL) k && decide (k ∉ l))) ∧
      (∀ k, bit ((l.foldl (fun (d : Dev) o => d.protect o) s).rd .FLD_SC) k =
        (bit (s.rd .FLD_SC) k || (bit (s.rd .FLD_LVL) k && decide (k ∈ l)))) := by
  induction l generalizing s with
  | nil => exact ⟨.refl _ _ s, fun k => by simp, fun k => by simp⟩
  | cons o l ih =>
    obtain ⟨hwithin, hdie, hlvl, hsc⟩ := protect_reads (hl o List.mem_cons_self) hp
    obtain ⟨hrest, hlvl', hsc'⟩ := ih (fun k hk => hl k (List.mem_cons_of_mem _ hk)) (s := s.protect o) (hdie ▸ hp)
    rw [List.foldl_cons]
    refine ⟨hwithin.trans hrest, fun k => ?_, fun k => ?_⟩
    · rw [hlvl', hlvl]
      by_cases h : k = o <;> simp [h]
    · rw [hsc', hsc, hlvl]
      by_cases h : k = o
      · cases bit (s.rd .FLD_LVL) o <;> simp [h]
      · simp [h]

theorem mem_rangeFrom {k a n : Nat} : k ∈ rangeFrom a n ↔ a ≤ k ∧ k < a + n := by
  induction n generalizing a with
  | zero => simp [rangeFrom]
  | succ n ih => simp only [rangeFrom, List.mem_cons, ih]; omega

end Sys2Proof.Machine

end

section
/-! Inbound frames (R271, R273): the answer to a read, and what a STATUS frame says. -/

namespace Sys2Proof.Machine

open Sys2Proof

/-! ### Frames at the logic side -/

theorem Dev.countBad_on {s : Dev} (hon : s.logicOn = true) (hp : s.die.powered = true) :
    s.countBad = (s.setFlag .FIO_LNK_STAT_CRCERR 0 true).count .FIO_CRC_CNT := if_pos (by simp [hon, hp])

/-- Without power at the field die no frame arrives. -/
theorem Dev.atLogic_off {s : Dev} (p : Payload) (k : Nat) (f : Dev → Nat → Dev) (hp : s.die.powered = false) : s.atLogic p k f = s := by
  simp [atLogic, countBad, hp]

theorem Dev.atLogic_bad {s : Dev} {p : Payload} (k : Nat) (f : Dev → Nat → Dev) (h : kindOf p = 3) : s.atLogic p k f = s.countBad := if_pos h

theorem Dev.atLogic_taken {s : Dev} {p : Payload} {k : Nat} (f : Dev → Nat → Dev) (hon : s.logicOn = true) (hp : s.die.powered = true)
    (hk : kindOf p = k) (h3 : k ≠ 3) : s.atLogic p k f = f (s.dieSends (k == 1)) p.toNat := by simp [atLogic, hon, hp, hk, h3]

/-- A frame that the logic side counts as failed. -/
theorem completes_countBad {c : Instr} {s : State} {f : Dev → Dev} (h : exec c s = s.run c f) (hw : c.wf = true) (hf : f s.toDev = s.countBad)
    (hon : s.logicOn = true) (hp : s.die.powered = true) :
    Completes c s fun t =>
      t.flag .FIO_LNK_STAT_CRCERR = true ∧ t.rd .FIO_CRC_CNT = satSucc 32 (s.rd .FIO_CRC_CNT) ∧
        KeepsFields s t [(.FIO_LNK_STAT_CRCERR, 0), (.FIO_CRC_CNT, 0)] ∧ t.rest = s.rest := by
  have hall : Dev.Within [(.FIO_LNK_STAT_CRCERR, 0), (.FIO_CRC_CNT, 0)] id s.toDev
      ((s.setFlag .FIO_LNK_STAT_CRCERR 0 true).count .FIO_CRC_CNT) :=
    ((Dev.Within.refl _ _ s.toDev).setFlag true (by decide) (by simp)).count (by decide) (by simp)
  refine .of_effect h hw (hf.trans (Dev.countBad_on hon hp)) ⟨?_, ?_, hall.kept, (Dev.notify_rest ..).trans hall.same⟩
  · rw [Dev.notify_flag]
    exact ((Dev.Within.refl [(.FIO_CRC_CNT, 0)] id _).count (by decide) (by simp)).flag_set (by decide) (by simp) (by decide)
  · rw [Dev.notify_rd, Dev.count_eq, Dev.rd_wr, Dev.setFlag, Dev.rd_wr_field _ _ _ _ _ _ (by decide) (by decide) (by decide)]
    exact wrap_satSucc 32 _

/-! ### The frame that the field die sends -/

theorem Dev.dieSends_status_die (s : Dev) : (s.dieSends false).die.late = false := rfl

theorem Dev.dieSends_within (s : Dev) (read : Bool) : Within [] butDie s (s.dieSends read) := by
  have hsent (o : Out) (e : FieldDie) : Within [] butDie s ((s.send o).setDie e) := ((Within.refl [] butDie s).send o).setDie e fun _ _ => rfl
  cases read with
  | false => exact hsent _ _
  | true =>
    unfold dieSends
    dsimp only
    rw [if_pos rfl]
    split
    · exact hsent _ _
    · exact .refl _ _ s

theorem Dev.takeRead_answered {s : Dev} {n : Nat} {l : List Nat} (h : s.barrier.readPending = bits n 42 16 :: l) :
    s.takeRead n = ({ s with barrier := { s.barrier with readPending := l } }).send (.indRead (bits n 10 32)) := by
  simp [takeRead, h]

/-! ### What a STATUS frame says -/

/-- What the inputs' changes, and flags that are noted, leave alone: the field die, and what has been seen of the inputs. -/
def Dev.statusSeen (s : Dev) : FieldDie × Nat × Bool × Nat := (s.die, s.barrier.levels, s.barrier.init, s.barrier.broken)

theorem Dev.quiet_statusSeen : Quiet statusSeen := fun _ _ h => (congrArg statusSeen h :)

theorem Dev.unmoved_barrier : Unmoved Dev.barrier := fun _ _ h => (congrArg Dev.barrier h :)

theorem Dev.unmoved_die : Unmoved Dev.die := fun _ _ h => (congrArg Dev.die h :)

theorem Dev.Within.seen_eq {l : List (Field × Nat)} {s t : Dev} (h : Within l statusSeen s t) : t.statusSeen = s.statusSeen := h.same

theorem Dev.Within.barrier_eq {l : List (Field × Nat)} {s t : Dev} (h : Within l Dev.barrier s t) : t.barrier = s.barrier := h.same

/-- The fields that a STATUS frame may change once its flags are noted. -/
def statusFields : List (Field × Nat) :=
  [(.FIO_LNK_STAT_SAFE, 0), (.FIO_SAFE_CNT, 0), (.FIO_LNK_STAT_LATE, 0), (.FIO_LATE_CNT, 0)] ++ presenceFields

theorem presenceFields_sub : ∀ e ∈ presenceFields, e ∈ statusFields := fun _ he => List.mem_append_right _ he

theorem logFields_status : ∀ e ∈ logFields, e ∈ statusFields := fun e he => presenceFields_sub e (logFields_presence e he)

namespace Dev.Within

variable {α : Type} {m : Dev → α} {s t : Dev}

theorem noteBreaks (hm : Unmoved m) (hb : ∀ d x, m { d with barrier := x } = m d) (wb : Nat) (h : Within statusFields m s t) :
    Within statusFields m s (t.noteBreaks wb) :=
  (Within.foldl _ h fun d i _ => (refl _ m d).noteBreak i logFields_status hm.quiet hb fun _ _ => hm _ _ rfl).barrier _ hb

theorem inputMoves (hm : Unmoved m) (i : Nat) (level : Bool) (h : Within statusFields m s t) : Within statusFields m s (t.inputMoves i level) := by
  unfold Dev.inputMoves
  split
  · exact h
  · exact .foldl _ h fun d l _ => ((refl presenceFields m d).presence hm _ _ _ _).mono presenceFields_sub

/-- The levels that a frame says, once they have been taken over. -/
theorem noteLevels (hm : Unmoved m) (levels : Nat) :
    Within statusFields m { s with barrier := { s.barrier with levels := levels, init := false } } (s.noteLevels levels) := by
  unfold Dev.noteLevels
  dsimp only
  split
  · refine .foldl _ (refl _ m _) fun d l _ => ?_
    split
    · exact (refl _ m d).setLane _ _ fun _ _ => hm _ _ rfl
    · exact refl _ m d
  · exact .foldl _ (refl _ m _) fun d i _ => (refl _ m d).inputMoves hm _ _

theorem noteGroup (g dg : Nat) (h : Within statusFields statusSeen s t) : Within statusFields statusSeen s (t.noteGroup g dg) := by
  have hbarrier {d : Dev} (x y : Nat) : Within statusFields statusSeen d { d with barrier := { d.barrier with short := x, openLoad := y } } :=
    (refl _ _ d).step rfl rfl rfl rfl
  have hnoted {d e : Dev} (h : Within statusFields statusSeen d e) (o k : Nat) : Within statusFields statusSeen d (e.noteOutput o k) :=
    h.tally _ _ _ _ _ logFields_status quiet_statusSeen
  refine .foldl _ h fun d k _ => ?_
  dsimp only
  split
  · split
    · exact hnoted (hnoted (hbarrier _ _) _ _) _ _
    · exact hnoted (hbarrier _ _) _ _
  · split
    · exact hnoted (hbarrier _ _) _ _
    · exact hbarrier _ _

theorem released (a b c : Bool) (h : Within statusFields statusSeen s t) :
    Within statusFields statusSeen s { t with barrier := { t.barrier with release := a, releaseNow := b, safeSent := c } } :=
  h.step rfl rfl rfl rfl

theorem noteSafe (safe : Bool) (h : Within statusFields statusSeen s t) : Within statusFields statusSeen s (t.noteSafe safe) := by
  have hflag : Within statusFields statusSeen s (t.setFlag .FIO_LNK_STAT_SAFE 0 safe) := h.setFlag safe (by decide) (by simp [statusFields])
  unfold Dev.noteSafe
  dsimp only
  generalize t.setFlag .FIO_LNK_STAT_SAFE 0 safe = u at hflag ⊢
  have hcount : Within statusFields statusSeen s (u.count .FIO_SAFE_CNT) := hflag.count (by decide) (by simp [statusFields])
  split
  · split
    · exact hcount
    · exact ((hcount.tally _ _ _ _ _ logFields_status quiet_statusSeen).driveStop (by simp [statusFields, presenceFields])).released true true _
  · split
    · exact hflag.released false false false
    · exact hflag

/-- What follows the late flag. -/
theorem noteLate {l : List (Field × Nat)} (hl : ∀ e ∈ logFields, e ∈ l)
    (h : Within l statusSeen s ((t.setFlag .FIO_LNK_STAT_LATE 0 true).count .FIO_LATE_CNT)) : Within l statusSeen s t.noteLate := by
  unfold Dev.noteLate
  dsimp only
  generalize (t.setFlag .FIO_LNK_STAT_LATE 0 true).count .FIO_LATE_CNT = u at h ⊢
  split
  · exact (h.useFree fun _ _ => rfl).tally _ _ _ _ _ hl quiet_statusSeen
  · split
    · exact .foldl _ (h.tally _ _ _ _ _ hl quiet_statusSeen) fun d f _ => (refl _ _ d).updPart _ _ fun _ _ => rfl
    · exact h.tally _ _ _ _ _ hl quiet_statusSeen

end Dev.Within

/-- A restart of the field die, where a frame says so: firmware writes the configuration and releases the safe state (R282). -/
def Dev.noteRestart (s : Dev) (b : Bool) : Dev :=
  if b then
    let s := (s.setFlag .FIO_LNK_STAT_RESTART 0 true).writeFieldConfig
    { s with barrier := { s.barrier with init := true, release := true } }
  else s

/-- A vote of the field die, where a frame says so. -/
def Dev.noteVoted (s : Dev) (b : Bool) : Dev := if b then s.setFlag .FIO_LNK_STAT_VOTERR 0 true else s

/-- A failed outbound frame, where a frame says so. -/
def Dev.noteFailed (s : Dev) (b : Bool) : Dev := if b then (s.setFlag .FIO_LNK_STAT_CRCERR 0 true).count .FIO_CRC_CNT else s

theorem Dev.noteFlags_eq (s : Dev) (n : Nat) :
    s.noteFlags n = (((s.setFlag .FIO_LNK_STAT_FSUP 0 (bit n 12)).noteRestart (bit n 11)).noteVoted (bit n 10)).noteFailed (bit n 9) := rfl

theorem Dev.Within.writeFieldConfig {l : List (Field × Nat)} {s t : Dev} (h : Within l Dev.die s t) : Within l Dev.die s t.writeFieldConfig := by
  have hqueue {d e : Dev} (h : Within l Dev.die d e) (a v : Nat) : Within l Dev.die d (e.queueReg a v false) := h.barrier _ fun _ _ => rfl
  exact .foldl _ (.foldl _ (hqueue (hqueue h _ _) _ _) fun d _ _ => hqueue (.refl _ _ d) _ _) fun d _ _ => hqueue (.refl _ _ d) _ _

theorem Dev.noteRestart_reads (s : Dev) (b : Bool) :
    Within [(.FIO_LNK_STAT_RESTART, 0)] Dev.die s (s.noteRestart b) ∧ (b = true → (s.noteRestart b).flag .FIO_LNK_STAT_RESTART = true) := by
  cases b with
  | false => exact ⟨.refl _ _ s, fun h => absurd h (by decide)⟩
  | true =>
    have hconfig := (Within.refl [] Dev.die (s.setFlag .FIO_LNK_STAT_RESTART 0 true)).writeFieldConfig
    have hnoted := hconfig.barrier { (s.setFlag .FIO_LNK_STAT_RESTART 0 true).writeFieldConfig.barrier with init := true, release := true }
      fun _ _ => rfl
    exact ⟨((Within.refl _ _ s).setFlag true (by decide) (by simp)).trans (hnoted.mono (by simp)),
      fun _ => hnoted.flag_set (by decide) (by simp) (by decide)⟩

theorem Dev.noteVoted_within (s : Dev) (b : Bool) : Within [(.FIO_LNK_STAT_VOTERR, 0)] Dev.die s (s.noteVoted b) := by
  unfold noteVoted
  split
  · exact (Within.refl _ _ s).setFlag true (by decide) (by simp)
  · exact .refl _ _ s

theorem Dev.noteFailed_reads (s : Dev) (b : Bool) :
    Within [(.FIO_LNK_STAT_CRCERR, 0), (.FIO_CRC_CNT, 0)] Dev.die s (s.noteFailed b) ∧
      (b = true → (s.noteFailed b).flag .FIO_LNK_STAT_CRCERR = true) := by
  cases b with
  | false => exact ⟨.refl _ _ s, fun h => absurd h (by decide)⟩
  | true =>
    have hcount := (Within.refl [(.FIO_CRC_CNT, 0)] Dev.die (s.setFlag .FIO_LNK_STAT_CRCERR 0 true)).count (f := .FIO_CRC_CNT) (i := 0)
      (by decide) (by simp)
    exact ⟨((Within.refl _ _ s).setFlag true (by decide) (by simp)).trans (hcount.mono (by simp)),
      fun _ => hcount.flag_set (by decide) (by simp) (by decide)⟩

theorem Dev.noteFlags_reads (s : Dev) (n : Nat) :
    (s.noteFlags n).die = s.die ∧ (s.noteFlags n).flag .FIO_LNK_STAT_FSUP = bit n 12 ∧
      (bit n 11 = true → (s.noteFlags n).flag .FIO_LNK_STAT_RESTART = true) ∧
      (bit n 9 = true → (s.noteFlags n).flag .FIO_LNK_STAT_CRCERR = true) := by
  rw [noteFlags_eq]
  have hsup : (s.setFlag .FIO_LNK_STAT_FSUP 0 (bit n 12)).flag .FIO_LNK_STAT_FSUP = bit n 12 := s.flag_wr_toNat _ 0 _ (by decide)
  have hdie : (s.setFlag .FIO_LNK_STAT_FSUP 0 (bit n 12)).die = s.die := Dev.wr_die ..
  generalize s.setFlag .FIO_LNK_STAT_FSUP 0 (bit n 12) = u at hsup hdie ⊢
  obtain ⟨hrestart, hrestarted⟩ := u.noteRestart_reads (bit n 11)
  have hvote := (u.noteRestart (bit n 11)).noteVoted_within (bit n 10)
  obtain ⟨hfail, hfailed⟩ := ((u.noteRestart (bit n 11)).noteVoted (bit n 10)).noteFailed_reads (bit n 9)
  refine ⟨?_, ?_, fun h => ?_, hfailed⟩
  · exact hfail.die_eq.trans (hvote.die_eq.trans (hrestart.die_eq.trans hdie))
  · rw [hfail.flag (by decide) (by simp), hvote.flag (by decide) (by simp), hrestart.flag (by decide) (by simp), hsup]
  · rw [hfail.flag (by decide) (by simp), hvote.flag (by decide) (by simp), hrestarted h]

theorem Dev.noteBreaks_broken (s : Dev) (wb : Nat) : (s.noteBreaks wb).barrier.broken = wb := rfl

/-- What a STATUS frame leaves: the inputs as the frame names them, and the flags that it says. -/
theorem Dev.takeStatus_reads (s : Dev) (n : Nat) :
    (s.takeStatus n).statusSeen = (s.die, bits n 42 16, false, bits n 26 16) ∧ (s.takeStatus n).flag .FIO_LNK_STAT_FSUP = bit n 12 ∧
      (bit n 11 = true → (s.takeStatus n).flag .FIO_LNK_STAT_RESTART = true) ∧
      (bit n 9 = true → (s.takeStatus n).flag .FIO_LNK_STAT_CRCERR = true) ∧
      (bit n 13 = true → (s.takeStatus n).flag .FIO_LNK_STAT_LATE = true) := by
  obtain ⟨hdie, hsup, hrestart, hfailed⟩ := s.noteFlags_reads n
  have hbreaks := (Within.refl statusFields Dev.die (s.noteFlags n)).noteBreaks unmoved_die (fun _ _ => rfl) (bits n 26 16)
  have hbroken := (s.noteFlags n).noteBreaks_broken (bits n 26 16)
  unfold takeStatus
  dsimp only
  generalize (s.noteFlags n).noteBreaks (bits n 26 16) = u at hbreaks hbroken ⊢
  have hudie : u.die = s.die := hbreaks.die_eq.trans hdie
  have hlevels := (Within.noteLevels (s := u) unmoved_die (bits n 42 16))
  have hbarrier := (Within.noteLevels (s := u) unmoved_barrier (bits n 42 16)).barrier_eq
  have hseen : (u.noteLevels (bits n 42 16)).statusSeen = (s.die, bits n 42 16, false, bits n 26 16) := by
    rw [statusSeen, hbarrier, hbroken, hlevels.die_eq]
    exact congrArg (·, _) hudie
  have hnoted := ((Within.refl statusFields statusSeen (u.noteLevels (bits n 42 16))).noteGroup (bits n 23 3) (bits n 15 8)).noteSafe (bit n 14)
  have hkeep {f : Field} (hf : (f, 0) ∉ statusFields) : (u.noteLevels (bits n 42 16)).flag f = (s.noteFlags n).flag f :=
    (hlevels.flag (by decide) hf).trans (hbreaks.flag (by decide) hf)
  generalize u.noteLevels (bits n 42 16) = v at hseen hnoted hkeep ⊢
  generalize (v.noteGroup (bits n 23 3) (bits n 15 8)).noteSafe (bit n 14) = w at hnoted ⊢
  have hlate : Within [(.FIO_LNK_STAT_LATE, 0), (.FIO_LATE_CNT, 0)] statusSeen w ((w.setFlag .FIO_LNK_STAT_LATE 0 true).count .FIO_LATE_CNT) :=
    ((Within.refl _ _ w).setFlag true (by decide) (by simp)).count (by decide) (by simp)
  have hend : Within statusFields statusSeen v (if bit n 13 then w.noteLate else w) := by
    split
    · exact (hnoted.trans (hlate.mono (by simp [statusFields]))).noteLate logFields_status
    · exact hnoted
  refine ⟨hend.seen_eq.trans hseen, ?_, fun h => ?_, fun h => ?_, fun h => ?_⟩
  · rw [hend.flag (by decide) (by decide), hkeep (by decide), hsup]
  · rw [hend.flag (by decide) (by decide), hkeep (by decide), hrestart h]
  · rw [hend.flag (by decide) (by decide), hkeep (by decide), hfailed h]
  · have hset : Within ((.FIO_LATE_CNT, 0) :: logFields) statusSeen (w.setFlag .FIO_LNK_STAT_LATE 0 true) w.noteLate :=
      Within.noteLate (fun _ he => List.mem_cons_of_mem _ he) ((Within.refl _ _ _).count (by decide) (by simp))
    rw [if_pos h]
    exact hset.flag_set (by decide) (by decide) (by decide)

/-- An open load sets its bit and leaves the output on. -/
theorem Dev.openLoad_reads {s : Dev} {o : Nat} (ho : o < 32) (hp : s.die.powered = true) (hon : bit (s.rd .FLD_LVL) o = true) :
    Within ((.FLD_OL, 0) :: logFields) butBarrier s (s.openLoad o) ∧ bit ((s.openLoad o).rd .FLD_OL) o = true := by
  have hset : Within [(.FLD_OL, 0)] butBarrier s (s.orBits .FLD_OL 0 (oneBit o)) := (Within.refl _ _ s).orBits _ (by decide) (by simp)
  have hbit : bit ((s.orBits .FLD_OL 0 (oneBit o)).rd .FLD_OL) o = true := by
    refine (Dev.bit_rd_wr _ _ _ _ _ ho).trans ?_
    simp
  have hgo : (!s.die.powered || !bit (s.rd .FLD_LVL) o) = false := by simp [hp, hon]
  unfold openLoad
  rw [hgo]
  dsimp only
  generalize s.orBits .FLD_OL 0 (oneBit o) = u at hset hbit ⊢
  rw [if_neg Bool.false_ne_true]
  split
  · have hnote : Within logFields butBarrier u (({ u with barrier := { u.barrier with openLoad := u.barrier.openLoad ||| oneBit o } } : Dev).noteOutput o 2) :=
      ((Within.refl _ _ u).barrier _ fun _ _ => rfl).tally _ _ _ _ _ (fun _ h => h) quiet_butBarrier
    exact ⟨(hset.left logFields).trans (hnote.right [(.FLD_OL, 0)]), by rw [hnote.rd (by decide) (by decide)]; exact hbit⟩
  · exact ⟨hset.left logFields, hbit⟩

/-- Settles O46: inputs, outputs and frames change the bits that their rules name; a STATUS frame is followed through its notes. -/
theorem fieldInputsAndOutputs : Obligations.FieldInputsAndOutputs := by
  intro s p n o k g level l
  have hn := n.2
  have ho := o.2
  refine ⟨fun hp => ⟨?_, fun hcheck hnew => ?_, fun hbroken => ?_, fun hon => ⟨?_, ?_⟩, ?_, ?_⟩, fun hp => ⟨?_, ?_⟩,
    fun hlogic hp => ⟨?_, fun hk => ?_, fun hk hread => ?_, fun hk => ?_⟩⟩
  · let u := s.setDie { s.die with raw := setBits s.die.raw n 1 level.toNat }
    let v := if bit s.die.broken n then u else u.wr .FLD_IN 0 (setBits (s.rd .FLD_IN) n 1 level.toNat)
    have heff : s.inputChange n level = v := if_neg (by simp [hp])
    have hu : Dev.Within [(.FLD_IN, 0)] Dev.butDie s.toDev u := (Dev.Within.refl _ _ s.toDev).setDie _ fun _ _ => rfl
    have hall : Dev.Within [(.FLD_IN, 0)] Dev.butDie s.toDev v := by
      unfold v
      split
      · exact hu
      · exact hu.wr _ (by decide) (by simp)
    have hdie : v.die = u.die := by
      unfold v
      split
      · rfl
      · exact Dev.wr_die ..
    have hread (h : bit s.die.broken n = false) (j : Nat) : bit (v.rd .FLD_IN) j = if j = n then level else bit (s.rd .FLD_IN) j :=
      (congrArg (fun d : Dev => bit (d.rd .FLD_IN) j) (if_neg (by simp [h]))).trans (u.bit_rd_setBits .FLD_IN 0 n level j hn)
    have hkeep (h : bit s.die.broken n = true) : v.rd .FLD_IN = s.rd .FLD_IN :=
      (congrArg (fun d : Dev => d.rd .FLD_IN) (if_pos h)).trans rfl
    refine .of_effect (exec_inputChangeAccepted ..) rfl heff ⟨?_, fun h => ?_, fun h => ?_, fun hne => ?_, hall.die_frame⟩
    · rw [Dev.notify_die, hdie]
      exact (bit_setBits_one ..).trans (if_pos rfl)
    · rw [Dev.notify_rd, hread h, if_pos rfl]
    · rw [Dev.notify_rd, hkeep h]
    · rw [Dev.notify_rd]
      cases h : bit s.die.broken n with
      | false => rw [hread h, if_neg hne]
      | true => rw [hkeep h]
  · obtain ⟨hall, hwb, hin, hdie⟩ := Dev.wireBreak_reads (s := s.toDev) hn hp hcheck hnew
    refine .of_effect (exec_wireBreak ..) rfl rfl ⟨?_, ?_, ?_, hall.kept, ?_⟩
    · rw [Dev.notify_rd]; exact hwb
    · rw [Dev.notify_rd]; exact hin
    · rw [Dev.notify_die]; exact hdie
    · rw [Dev.notify_body, Dev.notify_die, Dev.notify_barrier, Dev.notify_parts]
      exact Dev.body_of_butFieldSide hall.same
  · let u := s.setDie { s.die with broken := clearBits s.die.broken (oneBit n), raw := setBits s.die.raw n 1 level.toNat }
    have heff : s.wireBreakClear n level = u.wr .FLD_IN 0 (setBits (u.rd .FLD_IN) n 1 level.toNat) := if_neg (by simp [hp, hbroken])
    have hall : Dev.Within [(.FLD_IN, 0)] Dev.butDie s.toDev (u.wr .FLD_IN 0 (setBits (u.rd .FLD_IN) n 1 level.toNat)) :=
      ((Dev.Within.refl _ _ s.toDev).setDie _ fun _ _ => rfl).wr _ (by decide) (by simp)
    refine .of_effect (exec_wireBreakClear ..) rfl heff ⟨?_, ?_, hall.die_frame⟩
    · rw [Dev.notify_rd, u.bit_rd_setBits .FLD_IN 0 n level n hn, if_pos rfl]
    · rw [Dev.notify_die, Dev.wr_die]
      exact (bit_clearBits ..).trans (by simp)
  · obtain ⟨hall, -, hlvl, hsc⟩ := Dev.protect_reads ho hp
    refine .of_effect (exec_outputShortCircuit ..) rfl rfl ⟨?_, ?_, fun hne => ?_, hall.kept, ?_⟩
    · rw [Dev.notify_rd, hlvl]; simp
    · rw [Dev.notify_rd, hsc]; simp [hon]
    · rw [Dev.notify_rd, hlvl]
      simp [show (k : Nat) ≠ o from fun h => hne (Fin.ext h)]
    · rw [Dev.notify_body, Dev.notify_barrier]
      exact Dev.body_of_butBarrier hall.same
  · obtain ⟨hall, hol⟩ := Dev.openLoad_reads ho hp hon
    refine .of_effect (exec_outputOpenLoad ..) rfl rfl ⟨?_, ?_, hall.kept, ?_⟩
    · rw [Dev.notify_rd]; exact hol
    · rw [Dev.notify_rd]; exact hall.rd (by decide) (by decide)
    · rw [Dev.notify_body, Dev.notify_barrier]
      exact Dev.body_of_butBarrier hall.same
  · have hlt : ∀ j ∈ rangeFrom (8 * (g : Nat)) 8, j < 32 := fun j hj => by have := (mem_rangeFrom.1 hj).2; omega
    obtain ⟨hall, hlvl, hsc⟩ := Dev.protectAll_reads _ hlt (s := s.toDev) hp
    have hmem : (o : Nat) ∈ rangeFrom (8 * (g : Nat)) 8 ↔ (o : Nat) / 8 = g := by rw [mem_rangeFrom]; omega
    refine .of_effect (exec_groupOvercurrent ..) rfl rfl ⟨?_, ?_, hall.kept, ?_⟩
    · exact (congrArg (bit · o) (Dev.notify_rd ..)).trans ((hlvl o).trans (by simp [hmem]))
    · exact (congrArg (bit · o) (Dev.notify_rd ..)).trans ((hsc o).trans (by simp [hmem]))
    · rw [Dev.notify_body, Dev.notify_barrier]
      exact Dev.body_of_butBarrier hall.same
  · exact completes_badFrame (exec_barrierFrameCrcFail ..) rfl (if_pos hp)
  · exact .of_effect (exec_inboundStatusFrame ..) rfl (Dev.atLogic_off p 0 Dev.takeStatus hp)
      ⟨fun f i _ _ => Dev.notify_rd .., Dev.notify_rest ..⟩
  · exact .of_effect (exec_inboundReadFrame ..) rfl (Dev.atLogic_off p 1 Dev.takeRead hp)
      ⟨fun f i _ _ => Dev.notify_rd .., Dev.notify_rest ..⟩
  · exact completes_countBad (exec_barrierFrameCrcFail ..) rfl rfl hlogic hp
  · exact completes_countBad (exec_inboundStatusFrame ..) rfl (Dev.atLogic_bad 0 Dev.takeStatus hk) hlogic hp
  · have hsends := s.dieSends_within true
    have hbarrier : (s.dieSends true).barrier = s.barrier := (congrArg Dev.barrier hsends.same :)
    have heff := (Dev.atLogic_taken Dev.takeRead hlogic hp hk (by decide)).trans
      (Dev.takeRead_answered (s := s.dieSends true) (hbarrier ▸ hread))
    generalize s.dieSends true = u at hsends hbarrier heff
    refine .of_effect (exec_inboundReadFrame ..) rfl heff ⟨?_, ?_, fun f i hi hf => (Dev.notify_rd ..).trans (hsends.rd hi hf), ?_⟩
    · exact Dev.mem_out_notify (Dev.mem_out_send _ _)
    · rw [Dev.notify_barrier]; rfl
    · rw [Dev.notify_rest, Dev.notify_die, Dev.notify_barrier]
      exact (congrArg (fun d : Dev => { d with barrier := { u.barrier with readPending := l } }) (Dev.rest_of_butDie hsends.same) :)
  · obtain ⟨hseen, hsup, hrestart, hfailed, hlate⟩ := (s.dieSends false).takeStatus_reads p.toNat
    have hnotify (b : Dev) (d : Dev) : (d.notify b).statusSeen = d.statusSeen := by simp [Dev.statusSeen]
    refine .of_effect (exec_inboundStatusFrame ..) rfl (Dev.atLogic_taken Dev.takeStatus hlogic hp hk (by decide))
      ⟨?_, ?_, ?_, ?_, fun h => ?_, fun h => ?_, fun h => ?_, ?_⟩
    · rw [Dev.notify_flag]; exact hsup
    · exact congrArg (fun x : FieldDie × Nat × Bool × Nat => x.2.1) ((hnotify ..).trans hseen)
    · exact congrArg (fun x : FieldDie × Nat × Bool × Nat => x.2.2.1) ((hnotify ..).trans hseen)
    · exact congrArg (fun x : FieldDie × Nat × Bool × Nat => x.2.2.2) ((hnotify ..).trans hseen)
    · rw [Dev.notify_flag]; exact hrestart h
    · rw [Dev.notify_flag]; exact hfailed h
    · rw [Dev.notify_flag]; exact hlate h
    · exact congrArg (fun x : FieldDie × Nat × Bool × Nat => x.1.late) ((hnotify ..).trans hseen)

end Sys2Proof.Machine

end

section
/-! Registers: writes that are refused, the doorbell, and the reservation of library entries (R294, R367, R371, R372). -/

namespace Sys2Proof.Machine

open Sys2Proof

theorem exec_mbxDoorbell (s : State) : exec .mbxDoorbell s = s.run .mbxDoorbell fun d => d.doorbell := rfl

theorem exec_libReserve (n : Nat) (s : State) : exec (.libReserve n) s = s.run (.libReserve n) fun d => d.libReserve n := rfl

/-- A write of four bytes across words, outside the Off state, is counted. -/
theorem exec_registerWrite_misaligned (src : Source) {a : Nat} (w : Nat) {s : State} (hon : s.power ≠ .off) (ha : a % 4 ≠ 0) :
    exec (.registerWrite src a 4 w) s = s.run (.registerWrite src a 4 w) fun _ => s.countOwnerError := by
  have harm : exec (.registerWrite src a 4 w) s = execRegisterWrite src a 4 w s := rfl
  simp [harm, execRegisterWrite, State.run, Dev.registerWrite, hon, ha]

/-- A word none of whose fields the source owns is not written. -/
theorem Dev.writeWord_unowned {s : Dev} {src : Source} {a : Nat} (w : Nat) (h : slicesAt a ≠ [])
    (hall : ((slicesAt a).all fun x => !s.owns src x.field x.inst) = true) : s.writeWord src a w = s.ownerError := by
  have hmine : (slicesAt a).filter (fun x => s.owns src x.field x.inst) = [] :=
    List.filter_eq_nil_iff.2 fun x hx => by simpa using List.all_eq_true.1 hall x hx
  simp [writeWord, h, hmine]

/-- A saturating count reads one more. -/
theorem Dev.rd_count (s : Dev) (f : Field) (i : Nat) : (s.count f i).rd f i = satSucc f.desc.width (s.rd f i) := by
  rw [Dev.count_eq, Dev.rd_wr, wrap_satSucc]

theorem Dev.ownerError_reads (s : Dev) :
    Within [(.GLB_ERR_STAT_OWNERR, 0), (.GLB_OWNERR_CNT, 0)] id s s.ownerError ∧ s.ownerError.flag .GLB_ERR_STAT_OWNERR = true ∧
      s.ownerError.rd .GLB_OWNERR_CNT = satSucc 32 (s.rd .GLB_OWNERR_CNT) := by
  have hflag : Within [(.GLB_ERR_STAT_OWNERR, 0)] id s (s.setFlag .GLB_ERR_STAT_OWNERR 0 true) :=
    (Within.refl _ _ s).setFlag true (by decide) (by simp)
  have hcount : Within [(.GLB_OWNERR_CNT, 0)] id (s.setFlag .GLB_ERR_STAT_OWNERR 0 true) s.ownerError :=
    (Within.refl _ _ _).count (f := .GLB_OWNERR_CNT) (i := 0) (by decide) (by simp)
  refine ⟨(hflag.left _).trans (hcount.right [(.GLB_ERR_STAT_OWNERR, 0)]), hcount.flag_set (by decide) (by simp) (by decide), ?_⟩
  exact (Dev.rd_count ..).trans (congrArg (satSucc 32) (hflag.rd (by decide) (by simp)))

/-- What a reservation of library entries leaves in its registers. -/
theorem Dev.libReserve_reads (s : Dev) {n : Nat} (h0 : 0 < n) (hn : n < 65536) :
    Within [(.TCH_LIB_RSVIDX_FAIL, 0), (.TCH_LIB_RSVIDX_IDX, 0), (.TCH_LIB_CNT, 0)] id s (s.libReserve n) ∧
      (s.libReserve n).flag .TCH_LIB_RSVIDX_FAIL = decide (s.rd .TCH_LIB_MAX < s.rd .TCH_LIB_CNT + n) ∧
      (s.rd .TCH_LIB_CNT + n ≤ s.rd .TCH_LIB_MAX → (s.libReserve n).rd .TCH_LIB_RSVIDX_IDX = wrap 25 (s.rd .TCH_LIB_CNT) ∧
        (s.libReserve n).rd .TCH_LIB_CNT = wrap 25 (s.rd .TCH_LIB_CNT + n)) := by
  have hwrap : wrap 16 n = n := wrap_of_lt hn
  unfold libReserve
  dsimp only
  rw [hwrap, if_neg (by omega)]
  have hfail (b : Bool) : Within [(.TCH_LIB_RSVIDX_FAIL, 0), (.TCH_LIB_RSVIDX_IDX, 0), (.TCH_LIB_CNT, 0)] id s
      (s.setFlag .TCH_LIB_RSVIDX_FAIL 0 b) := (Within.refl _ _ s).setFlag b (by decide) (by simp)
  split
  · rename_i hfull
    exact ⟨hfail true, (s.flag_wr_toNat _ 0 true (by decide)).trans (decide_eq_true hfull).symm, fun h => absurd hfull (by omega)⟩
  · rename_i hroom
    have hidx : Within [(.TCH_LIB_RSVIDX_IDX, 0), (.TCH_LIB_CNT, 0)] id (s.setFlag .TCH_LIB_RSVIDX_FAIL 0 false)
        (((s.setFlag .TCH_LIB_RSVIDX_FAIL 0 false).wr .TCH_LIB_RSVIDX_IDX 0 (s.rd .TCH_LIB_CNT)).wr .TCH_LIB_CNT 0
          (s.rd .TCH_LIB_CNT + n)) :=
      ((Within.refl _ _ _).wr _ (by decide) (by simp)).wr _ (by decide) (by simp)
    refine ⟨(hfail false).trans (hidx.mono (by simp)), ?_, fun _ => ⟨?_, Dev.rd_wr ..⟩⟩
    · exact (hidx.flag_set (by decide) (by simp) (by decide)).trans (decide_eq_false hroom).symm
    · exact (Dev.rd_wr_field _ _ _ _ _ _ (by decide) (by decide) (by decide)).trans (Dev.rd_wr ..)

/-- Settles O48: each refusal is a count, and the doorbell and the reservation are writes of their registers. -/
theorem registersRefuseOthersWrites : Obligations.RegistersRefuseOthersWrites := by
  intro s v n a src hon hv
  refine ⟨fun ha hal hslices hall => ?_, fun ha hal => ?_, ?_, fun h0 hn => ?_⟩
  · obtain ⟨hwithin, hflag, hcount⟩ := s.toDev.ownerError_reads
    have hwf : (Instr.registerWrite src a 4 v).wf = true := by
      rw [Instr.wf, Bool.and_eq_true]
      exact ⟨decide_eq_true ha, decide_eq_true hv⟩
    refine .of_effect (exec_registerWrite_word src v hon hal) hwf (Dev.writeWord_unowned v hslices hall)
      ⟨?_, ?_, hwithin.kept, (Dev.notify_rest ..).trans hwithin.same⟩
    · rw [Dev.notify_flag]; exact hflag
    · rw [Dev.notify_rd]; exact hcount
  · have hwithin : Dev.Within [(.GLB_OWNERR_CNT, 0)] id s.toDev s.countOwnerError := (Dev.Within.refl _ _ _).count (by decide) (by simp)
    have hwf : (Instr.registerWrite src a 4 v).wf = true := by
      rw [Instr.wf, Bool.and_eq_true]
      exact ⟨decide_eq_true ha, decide_eq_true hv⟩
    refine .of_effect (exec_registerWrite_misaligned src v hon hal) hwf rfl ⟨?_, hwithin.kept, (Dev.notify_rest ..).trans hwithin.same⟩
    rw [Dev.notify_rd]; exact Dev.rd_count ..
  · have hset (f : Field) (hf : (f, 0) ∈ [(Field.MLK_MBX_STAT_BUSY, 0), (Field.MLK_MBX_STAT_DBERR, 0)]) :
        Dev.Within [(.MLK_MBX_STAT_BUSY, 0), (.MLK_MBX_STAT_DBERR, 0)] id s.toDev (s.setFlag f 0 true) :=
      (Dev.Within.refl _ _ _).setFlag true (by decide) hf
    by_cases hbusy : s.flag .MLK_MBX_STAT_BUSY = true
    · have heff : s.doorbell = s.setFlag .MLK_MBX_STAT_DBERR 0 true := if_pos hbusy
      have hwithin := hset .MLK_MBX_STAT_DBERR (by simp)
      have hother : Dev.Within [(.MLK_MBX_STAT_DBERR, 0)] id s.toDev (s.setFlag .MLK_MBX_STAT_DBERR 0 true) :=
        (Dev.Within.refl _ _ _).setFlag true (by decide) (by simp)
      refine .of_effect (exec_mbxDoorbell s) rfl heff ⟨?_, fun _ => ?_, hwithin.kept, (Dev.notify_rest ..).trans hwithin.same⟩
      · rw [Dev.notify_flag]; exact (hother.flag (by decide) (by simp)).trans hbusy
      · rw [Dev.notify_flag]; exact s.toDev.flag_wr_toNat _ 0 true (by decide)
    · have heff : s.doorbell = s.setFlag .MLK_MBX_STAT_BUSY 0 true := if_neg hbusy
      have hwithin := hset .MLK_MBX_STAT_BUSY (by simp)
      refine .of_effect (exec_mbxDoorbell s) rfl heff
        ⟨?_, fun h => absurd h hbusy, hwithin.kept, (Dev.notify_rest ..).trans hwithin.same⟩
      rw [Dev.notify_flag]; exact s.toDev.flag_wr_toNat _ 0 true (by decide)
  · obtain ⟨hwithin, hfail, hroom⟩ := s.toDev.libReserve_reads h0 hn
    refine .of_effect (exec_libReserve n s) (decide_eq_true (by omega)) rfl
      ⟨?_, fun h => ⟨?_, ?_⟩, hwithin.kept, (Dev.notify_rest ..).trans hwithin.same⟩
    · rw [Dev.notify_flag]; exact hfail
    · rw [Dev.notify_rd]; exact (hroom h).1
    · rw [Dev.notify_rd]; exact (hroom h).2

end Sys2Proof.Machine

end

section
/-! The snapshot, the acknowledgement of interrupts, the vote, and the indirect register pair (R374 to R376, R378). -/

namespace Sys2Proof.Machine

open Sys2Proof

theorem exec_snapshot (s : State) : exec .snapshot s = s.run .snapshot fun d => d.snapshot := rfl

theorem exec_irqAck (v : Nat) (s : State) : exec (.irqAck v) s = s.run (.irqAck v) fun d => d.irqAck v := rfl

theorem exec_voteCheck (s : State) : exec .voteCheck s = s.run .voteCheck fun d => d.voteCheck := rfl

theorem exec_indDataWrite (v : Nat) (s : State) : exec (.indDataWrite v) s = s.run (.indDataWrite v) fun d => d.indDataWrite v := rfl

theorem exec_indDataRead (s : State) : exec .indDataRead s = s.run .indDataRead fun d => d.indDataRead := rfl

theorem exec_indTimeout (s : State) : exec .indTimeout s = s.run .indTimeout fun d => d.indTimeout := rfl

/-! ### The snapshot -/

/-- A fold that changes nothing at any of its steps. -/
theorem foldl_fixed {α β : Type} {f : α → β → α} {s : α} {l : List β} (h : ∀ x ∈ l, f s x = s) : l.foldl f s = s := by
  induction l with
  | nil => rfl
  | cons x l ih =>
    rw [List.foldl_cons, h x List.mem_cons_self]
    exact ih fun y hy => h y (List.mem_cons_of_mem _ hy)

/-- Copy the instances of a list from one field to another. -/
def Dev.copyField (s : Dev) (f g : Field) (l : List Nat) : Dev := l.foldl (fun d n => d.wr g n (d.rd f n)) s

theorem Dev.Within.copyField {α : Type} {k : List (Field × Nat)} {m : Dev → α} {s t : Dev} (h : Within k m s t) (f g : Field) {l : List Nat}
    (hl : ∀ n ∈ l, n < 1024 ∧ (g, n) ∈ k) : Within k m s (t.copyField f g l) :=
  h.foldl l fun d n hn => (Within.refl _ _ d).wr _ (hl n hn).1 (hl n hn).2

theorem Dev.copyField_rd (s : Dev) {f g : Field} (hfg : f ≠ g) {l : List Nat} (hl : ∀ n ∈ l, n < 1024) {n : Nat} (hn : n < 1024) :
    (s.copyField f g l).rd g n = if n ∈ l then wrap g.desc.width (s.rd f n) else s.rd g n := by
  induction l generalizing s with
  | nil => rfl
  | cons k l ih =>
    have hk : k < 1024 := hl k List.mem_cons_self
    have hstep : s.copyField f g (k :: l) = (s.wr g k (s.rd f k)).copyField f g l := rfl
    rw [hstep, ih _ fun i hi => hl i (List.mem_cons_of_mem _ hi), Dev.rd_wr_field _ _ _ _ _ _ hk hn hfg.symm]
    by_cases hnk : n = k
    · subst hnk; simp
    · rw [Dev.rd_wr_ne _ _ _ _ _ _ hk hn fun h => hnk h.2.symm]
      simp [hnk]

theorem tabFind?_clear {α : Type} (t : Tab α) (p : Nat → Bool) (n : Nat) :
    tabFind? (tabClear t p) n = if p n = true then none else tabFind? t n := by
  induction t with
  | nil => simp [tabClear, tabFind?]
  | cons e t ih =>
    obtain ⟨k, v⟩ := e
    unfold tabClear at ih ⊢
    by_cases hk : p k = true
    · rw [List.filter_cons_of_neg (by simp [hk]), ih, tabFind?]
      split
      · rfl
      · rename_i hpn
        have hkn : k ≠ n := by rintro rfl; exact hpn hk
        rw [if_neg hkn]
    · rw [List.filter_cons_of_pos (by simp [hk]), tabFind?, tabFind?, ih]
      by_cases hkn : k = n
      · subst hkn; simp [hk]
      · simp [hkn]

/-- Forget every instance of the copies of the observation counters. -/
def Dev.clearCopies (s : Dev) : Dev := { s with regs := tabClear s.regs fun k => k / 1024 == Field.OBS_CNT_SNAP.ctorIdx }

/-- Copy listed counters. -/
def Dev.copyCounters (s : Dev) (l : Tab Nat) : Dev := l.foldr (fun e (d : Dev) => d.wr .OBS_CNT_SNAP e.1 e.2) s

theorem Dev.snapCounters_eq (s : Dev) : s.snapCounters = s.clearCopies.copyCounters (tabClear s.counters fun k => !decide (k < 1024)) := by
  have hfilter : (s.counters.filter fun e => decide (e.1 < 1024)) = tabClear s.counters fun k => !decide (k < 1024) := by
    simp [tabClear]
  rw [snapCounters, ← hfilter]
  rfl

theorem Field.key_div {f : Field} {i : Nat} (hi : i < 1024) : f.key i / 1024 = f.ctorIdx := by
  unfold key
  omega

theorem Dev.clearCopies_rd (s : Dev) {f : Field} {i : Nat} (hi : i < 1024) :
    s.clearCopies.rd f i = if f = .OBS_CNT_SNAP then 0 else s.rd f i := by
  have hget : tabFind? s.clearCopies.regs (f.key i) = if f = .OBS_CNT_SNAP then none else tabFind? s.regs (f.key i) := by
    have hiff : (f.ctorIdx == Field.OBS_CNT_SNAP.ctorIdx) = true ↔ f = .OBS_CNT_SNAP := by
      rw [beq_iff_eq]
      exact ⟨fun h => Field.ctorIdx_inj h, fun h => h ▸ rfl⟩
    rw [clearCopies, tabFind?_clear, Field.key_div hi]
    simp only [hiff]
  by_cases hf : f = .OBS_CNT_SNAP
  · subst hf
    rw [if_pos rfl] at hget ⊢
    rw [Dev.rd, if_neg (by decide), tabGet, hget]
    exact Nat.zero_mod _
  · rw [if_neg hf] at hget ⊢
    rw [Dev.rd, Dev.rd, tabGet, tabGet, hget]
    rfl

theorem Dev.copyCounters_rd (s : Dev) {l : Tab Nat} (hl : ∀ e ∈ l, e.1 < 1024) {f : Field} {i : Nat} (hi : i < 1024) :
    (s.copyCounters l).rd f i = if f = .OBS_CNT_SNAP then ((tabFind? l i).map (wrap 64)).getD (s.rd f i) else s.rd f i := by
  induction l with
  | nil => simp [copyCounters, tabFind?]
  | cons e l ih =>
    obtain ⟨k, v⟩ := e
    have hk : k < 1024 := hl _ List.mem_cons_self
    have hstep : s.copyCounters ((k, v) :: l) = (s.copyCounters l).wr .OBS_CNT_SNAP k v := rfl
    have ih := ih fun e he => hl e (List.mem_cons_of_mem _ he)
    rw [hstep]
    by_cases hf : f = .OBS_CNT_SNAP
    · subst hf
      by_cases hki : k = i
      · subst hki
        rw [Dev.rd_wr]
        simp [tabFind?, Field.desc]
      · rw [Dev.rd_wr_ne _ _ _ _ _ _ hk hi fun h => hki h.2, ih, tabFind?, if_neg hki]
    · rw [Dev.rd_wr_field _ _ _ _ _ _ hk hi (Ne.symm hf), ih, if_neg hf, if_neg hf]

/-- After the copy a counter's snapshot is the counter, and every other field reads as before. -/
theorem Dev.snapCounters_rd (s : Dev) {f : Field} {i : Nat} (hi : i < 1024) :
    s.snapCounters.rd f i = if f = .OBS_CNT_SNAP then wrap 64 (s.counter i) else s.rd f i := by
  have hkeys : ∀ e ∈ tabClear s.counters (fun k => !decide (k < 1024)), e.1 < 1024 := by
    intro e he
    simpa using (List.mem_filter.1 he).2
  rw [snapCounters_eq, copyCounters_rd _ hkeys hi, clearCopies_rd _ hi, tabFind?_clear]
  by_cases hf : f = .OBS_CNT_SNAP
  · simp only [hf, if_true, hi, decide_true, Bool.not_true, Bool.false_eq_true, if_false, counter, tabGet]
    cases tabFind? s.counters i <;> rfl
  · simp only [hf, if_false]

theorem Dev.snapCounters_rest (s : Dev) : s.snapCounters.rest = s.rest := by
  have hcopies (l : Tab Nat) (d : Dev) : (d.copyCounters l).rest = d.rest := by
    induction l with
    | nil => rfl
    | cons e l ih => exact (Dev.wr_rest (d.copyCounters l) .OBS_CNT_SNAP e.1 e.2).trans ih
  rw [snapCounters_eq, hcopies]
  rfl

/-- The fields that a snapshot writes. -/
def snapFields : List (Field × Nat) :=
  [(.OBS_SNAP_SPEED, 0), (.OBS_SNAP_ACCEL, 0), (.OBS_SNAP_TIME, 0), (.OBS_SNAP_SEQ, 0)] ++
    ((upTo 4).map fun n => (.ENC_POS_SNAP, n)) ++ (upTo 1024).map fun n => (.OBS_CNT_SNAP, n)

theorem mem_snapFields {f : Field} {i : Nat} : (f, i) ∈ snapFields ↔
    ((f, i) = (.OBS_SNAP_SPEED, 0) ∨ (f, i) = (.OBS_SNAP_ACCEL, 0) ∨ (f, i) = (.OBS_SNAP_TIME, 0) ∨ (f, i) = (.OBS_SNAP_SEQ, 0)) ∨
      (f = .ENC_POS_SNAP ∧ i < 4) ∨ (f = .OBS_CNT_SNAP ∧ i < 1024) := by
  simp [snapFields, mem_upTo, and_comm, eq_comm, or_assoc]

theorem Dev.Within.snapCounters {α : Type} {m : Dev → α} {s t : Dev} (h : Within snapFields m s t) : Within snapFields m s t.snapCounters := by
  refine h.trans ⟨fun f i hi hf => ?_, by rw [snapCounters_rest]⟩
  rw [snapCounters_rd _ hi, if_neg fun h => hf (mem_snapFields.2 (.inr (.inr ⟨h, hi⟩)))]

/-- The copies of the estimates and of device time. -/
def Dev.snapEstimates (s : Dev) : Dev :=
  ((s.wr .OBS_SNAP_SPEED 0 (s.rd .ENC_SPEED)).wr .OBS_SNAP_ACCEL 0 (s.rd .ENC_ACCEL)).wr .OBS_SNAP_TIME 0 s.ns40

theorem Dev.snapEstimates_reads (s : Dev) :
    Within [(.OBS_SNAP_SPEED, 0), (.OBS_SNAP_ACCEL, 0), (.OBS_SNAP_TIME, 0)] id s s.snapEstimates ∧
      s.snapEstimates.rd .OBS_SNAP_SPEED = s.rd .ENC_SPEED ∧ s.snapEstimates.rd .OBS_SNAP_ACCEL = s.rd .ENC_ACCEL ∧
      s.snapEstimates.rd .OBS_SNAP_TIME = s.ns40 := by
  unfold snapEstimates
  generalize hspeed : s.wr .OBS_SNAP_SPEED 0 (s.rd .ENC_SPEED) = t
  have ht : Within [(.OBS_SNAP_SPEED, 0), (.OBS_SNAP_ACCEL, 0), (.OBS_SNAP_TIME, 0)] id s t := by
    rw [← hspeed]; exact (Within.refl _ _ s).wr _ (by decide) (by simp)
  refine ⟨(ht.wr _ (by decide) (by simp)).wr _ (by decide) (by simp), ?_, ?_, ?_⟩
  · rw [Dev.rd_wr_field _ _ _ _ _ _ (by decide) (by decide) (by decide), Dev.rd_wr_field _ _ _ _ _ _ (by decide) (by decide) (by decide),
      ← hspeed, Dev.rd_wr]
    exact wrap_of_lt (s.rd_lt .ENC_SPEED 0)
  · rw [Dev.rd_wr_field _ _ _ _ _ _ (by decide) (by decide) (by decide), Dev.rd_wr]
    exact wrap_of_lt (s.rd_lt .ENC_ACCEL 0)
  · rw [Dev.rd_wr]
    exact wrap_of_lt (Nat.mod_lt _ (Nat.two_pow_pos 40))

/-- A snapshot while no Churn holds a context: every copy in its turn. -/
def Dev.snapped (s : Dev) : Dev := ((s.copyField .ENC_POS .ENC_POS_SNAP (upTo 4)).snapEstimates.snapCounters).countMod .OBS_SNAP_SEQ

theorem Dev.snapshot_eq {s : Dev} (h : ∀ n : Fin 16, s.resident n = none) : s.snapshot = s.snapped := by
  have hsettle : (upTo 16).foldl (fun (d : Dev) n => d.settle n) s = s := foldl_fixed fun n hn => by
    have hn' := h ⟨n, lt_of_mem_upTo hn⟩
    rw [settle]
    dsimp only at hn'
    rw [hn']
  rw [snapshot, hsettle]
  rfl

theorem Dev.copyField_rest (s : Dev) (f g : Field) (l : List Nat) : (s.copyField f g l).rest = s.rest := by
  induction l generalizing s with
  | nil => rfl
  | cons n l ih => exact (ih _).trans (Dev.wr_rest ..)

theorem Dev.snapPositions_within (s : Dev) :
    Within ((upTo 4).map fun n => (.ENC_POS_SNAP, n)) id s (s.copyField .ENC_POS .ENC_POS_SNAP (upTo 4)) :=
  (Within.refl _ _ s).copyField .ENC_POS .ENC_POS_SNAP fun n hn =>
    ⟨by have := lt_of_mem_upTo hn; omega, List.mem_map_of_mem (f := fun n => (Field.ENC_POS_SNAP, n)) hn⟩

theorem Dev.snapped_within (s : Dev) : Within snapFields id s s.snapped := by
  unfold snapped
  have hpos := s.snapPositions_within
  generalize s.copyField .ENC_POS .ENC_POS_SNAP (upTo 4) = p at hpos ⊢
  have hest := p.snapEstimates_reads.1
  generalize p.snapEstimates = e at hest ⊢
  have hall : Within snapFields id s e := (hpos.mono fun _ h => by simp_all [snapFields]).trans
    (hest.mono fun _ h => List.mem_append_left _ (List.mem_append_left _ (by simp_all; tauto)))
  exact hall.snapCounters.countMod (by decide) (mem_snapFields.2 (by simp))

/-- What the registers of a snapshot read. -/
theorem Dev.snapped_reads (s : Dev) :
    (∀ a : Fin 4, s.snapped.rd .ENC_POS_SNAP a = s.rd .ENC_POS a) ∧ s.snapped.rd .OBS_SNAP_SPEED = s.rd .ENC_SPEED ∧
      s.snapped.rd .OBS_SNAP_ACCEL = s.rd .ENC_ACCEL ∧ s.snapped.rd .OBS_SNAP_TIME = s.ns40 ∧
      (∀ k < 1024, s.snapped.rd .OBS_CNT_SNAP k = wrap 64 (s.counter k)) ∧
      s.snapped.rd .OBS_SNAP_SEQ = wrap 16 (s.rd .OBS_SNAP_SEQ + 1) := by
  have hcopied (a : Fin 4) := s.copyField_rd (f := .ENC_POS) (g := .ENC_POS_SNAP) (by decide) (l := upTo 4)
    (fun n hn => by have := lt_of_mem_upTo hn; omega) (show (a : Nat) < 1024 by omega)
  have hpos := s.snapPositions_within
  have hcounters : (s.copyField .ENC_POS .ENC_POS_SNAP (upTo 4)).counters = s.counters := (congrArg Dev.counters hpos.same :)
  have htime : (s.copyField .ENC_POS .ENC_POS_SNAP (upTo 4)).timeU = s.timeU := (congrArg Dev.timeU hpos.same :)
  unfold snapped
  generalize s.copyField .ENC_POS .ENC_POS_SNAP (upTo 4) = p at *
  obtain ⟨hest, hspeed, haccel, hns⟩ := p.snapEstimates_reads
  have hcnt : p.snapEstimates.counters = s.counters := (congrArg Dev.counters hest.same :).trans hcounters
  generalize p.snapEstimates = e at *
  have hread {f : Field} {i : Nat} (hi : i < 1024) (hf : f ≠ .OBS_SNAP_SEQ) : (e.snapCounters.countMod .OBS_SNAP_SEQ).rd f i =
      if f = .OBS_CNT_SNAP then wrap 64 (e.counter i) else e.rd f i :=
    (Dev.rd_wr_field _ _ _ _ _ _ (by decide) hi hf.symm).trans (Dev.snapCounters_rd e hi)
  refine ⟨fun a => ?_, ?_, ?_, ?_, fun k hk => ?_, ?_⟩
  · rw [hread (by omega) (by decide), if_neg (by decide), hest.rd (by omega) (by simp), hcopied, if_pos (mem_upTo.2 a.isLt)]
    exact wrap_of_lt (s.rd_lt .ENC_POS a)
  · rw [hread (by decide) (by decide), if_neg (by decide), hspeed, hpos.rd (by decide) (by simp)]
  · rw [hread (by decide) (by decide), if_neg (by decide), haccel, hpos.rd (by decide) (by simp)]
  · rw [hread (by decide) (by decide), if_neg (by decide), hns, Dev.ns40, Dev.fullNs, htime]
    rfl
  · rw [hread hk (by decide), if_pos rfl, counter, hcnt]
    rfl
  · rw [countMod, Dev.rd_wr, Dev.snapCounters_rd _ (by decide), if_neg (by decide), hest.rd (by decide) (by simp),
      hpos.rd (by decide) (by simp)]
    rfl

theorem completes_snapshot {s : State} (hfree : ∀ n : Fin 16, s.resident n = none) (a : Fin 4) (k : Nat) :
    Completes .snapshot s fun t =>
      t.rd .ENC_POS_SNAP a = s.rd .ENC_POS a ∧ t.rd .OBS_SNAP_SPEED = s.rd .ENC_SPEED ∧ t.rd .OBS_SNAP_ACCEL = s.rd .ENC_ACCEL ∧
      t.rd .OBS_SNAP_TIME = s.ns40 ∧ (k < 1024 → t.rd .OBS_CNT_SNAP k = wrap 64 (s.counter k)) ∧
      t.rd .OBS_SNAP_SEQ = wrap 16 (s.rd .OBS_SNAP_SEQ + 1) ∧ KeepsFields s t snapFields ∧ t.rest = s.rest := by
  obtain ⟨hpos, hspeed, haccel, htime, hcount, hseq⟩ := s.toDev.snapped_reads
  have hwithin := s.toDev.snapped_within
  refine .of_effect (exec_snapshot s) rfl (Dev.snapshot_eq hfree)
    ⟨?_, ?_, ?_, ?_, fun hk => ?_, ?_, hwithin.kept, (Dev.notify_rest ..).trans hwithin.same⟩
  all_goals rw [Dev.notify_rd]
  · exact hpos a
  · exact hspeed
  · exact haccel
  · exact htime
  · exact hcount k hk
  · exact hseq

/-! ### The acknowledgement of interrupts -/

/-- An acknowledgement sends the messages of its pending vectors, and nothing else of the module changes. -/
theorem Dev.ackAll_sends (v : Nat) (l : List Nat) (d : Dev) :
    let t := l.foldl (fun (d : Dev) k => if bit v k && d.irqPending k then d.send (.msix k) else d) d
    Within [] id d t ∧ (∀ o ∈ d.out, o ∈ t.out) ∧ ∀ k ∈ l, bit v k = true → d.irqPending k = true → Out.msix k ∈ t.out := by
  induction l generalizing d with
  | nil => exact ⟨.refl _ _ d, fun _ h => h, by simp⟩
  | cons j l ih =>
    dsimp only [List.foldl_cons] at ih ⊢
    by_cases hj : (bit v j && d.irqPending j) = true
    · rw [if_pos hj]
      obtain ⟨hwithin, hkept, hsent⟩ := ih (d.send (.msix j))
      refine ⟨((Within.refl _ _ d).send _).trans hwithin, fun o ho => hkept o (List.mem_cons_of_mem _ ho), ?_⟩
      intro k hk hv hp
      rcases List.mem_cons.1 hk with rfl | hk
      · exact hkept _ (d.mem_out_send _)
      · exact hsent k hk hv hp
    · rw [if_neg hj]
      obtain ⟨hwithin, hkept, hsent⟩ := ih d
      refine ⟨hwithin, hkept, fun k hk hv hp => ?_⟩
      rcases List.mem_cons.1 hk with rfl | hk
      · exact absurd (by simp [hv, hp]) hj
      · exact hsent k hk hv hp

theorem completes_irqAck {s : State} {v : Nat} (hv : v < 2 ^ 32) (k : Nat) :
    Completes (.irqAck v) s fun t =>
      (k < 16 → bit v k = true → s.irqPending k = true → Out.msix k ∈ t.out) ∧ KeepsFields s t [] ∧ t.rest = s.rest := by
  obtain ⟨hwithin, _, hsent⟩ := Dev.ackAll_sends v (upTo 16) s.toDev
  exact .of_effect (exec_irqAck v s) (decide_eq_true hv) rfl
    ⟨fun hk hbit hp => Dev.mem_out_notify (hsent k (mem_upTo.2 hk) hbit hp), hwithin.kept, (Dev.notify_rest ..).trans hwithin.same⟩

/-! ### The indirect pair -/

theorem Dev.indNext_auto {s : Dev} (h : s.flag .IND_ADDR_AUTOINC = true) : s.indNext = s.countMod .IND_ADDR := if_pos h

/-- A frame joins the queue of register frames, and a write of the host is in progress. -/
def Dev.indWriteSent (s : Dev) (a v : Nat) : Dev :=
  { s.queueReg a v false with svc := { s.svc with ind := some (regFrameBits a v false) } }

theorem Dev.indDataWrite_die {s : Dev} (v : Nat) (hspace : s.rd .IND_ADDR_SPACE = 1) (hw : dieW1c s.indAddr = true) :
    s.indDataWrite v = (s.indWriteSent s.indAddr v).indNext := by
  unfold indDataWrite
  rw [hspace]
  dsimp only
  rw [indDieWrite, if_pos hw]
  rfl

theorem Dev.indDataWrite_denied {s : Dev} (v : Nat) (hspace : s.rd .IND_ADDR_SPACE = 3) :
    s.indDataWrite v = (s.setFlag .IND_STAT_DENIED 0 true).indNext := by
  unfold indDataWrite
  rw [hspace]
  rfl

theorem Dev.indDataRead_die {s : Dev} (hspace : s.rd .IND_ADDR_SPACE = 1) : s.indDataRead = (s.indDieRead s.indAddr).indNext := by
  unfold indDataRead
  rw [hspace]
  rfl

theorem Dev.indDataRead_badSpace {s : Dev} (hspace : 4 < s.rd .IND_ADDR_SPACE) :
    s.indDataRead = ((s.send (.indRead 0)).setFlag .IND_STAT_BADSPACE 0 true).indNext := by
  unfold indDataRead
  dsimp only
  split
  · omega
  · omega
  · omega
  · omega
  · rfl

/-- The access advances the address, and what it has changed beside it stays. -/
theorem Dev.indNext_flagged {s t : Dev} {f : Field} (hauto : s.flag .IND_ADDR_AUTOINC = true) (h : t.regs = s.regs) (hb : t.voteB = s.voteB)
    (hc : t.voteC = s.voteC) (hf : f = .IND_STAT_DENIED ∨ f = .IND_STAT_BADSPACE) {α : Type} {m : Dev → α} (hm : m t.rest = m s.rest) :
    Within [(.IND_ADDR, 0), (f, 0)] m s (t.setFlag f 0 true).indNext ∧ (t.setFlag f 0 true).indNext.flag f = true ∧
      (t.setFlag f 0 true).indNext.out = t.out := by
  have hne : f ≠ .IND_ADDR ∧ f ≠ .IND_ADDR_AUTOINC := by rcases hf with rfl | rfl <;> decide
  have hbase : Within [(.IND_ADDR, 0), (f, 0)] m s t := (Within.refl _ _ s).step h hb hc hm
  have hset := hbase.setFlag (f := f) (i := 0) true (by decide) (by simp)
  have hw : 1 < 2 ^ f.desc.width := by rcases hf with rfl | rfl <;> decide
  have hgo : (t.setFlag f 0 true).flag .IND_ADDR_AUTOINC = true := (hset.flag (by decide) (by simp [hne.2.symm])).trans hauto
  rw [Dev.indNext_auto hgo]
  refine ⟨hset.countMod (by decide) (by simp), ?_, by simp [countMod, setFlag]⟩
  rw [countMod, Dev.flag, Dev.rd_wr_field _ _ _ _ _ _ (by decide) (by decide) hne.1.symm]
  exact t.flag_wr_toNat f 0 true hw

theorem Dev.Within.indNext {α : Type} {m : Dev → α} {s t : Dev} (hauto : s.flag .IND_ADDR_AUTOINC = true) (h : t.regs = s.regs)
    (hb : t.voteB = s.voteB) (hc : t.voteC = s.voteC) (hm : m t.rest = m s.rest) :
    Within [(.IND_ADDR, 0)] m s t.indNext ∧ t.indNext.rd .IND_ADDR = wrap 22 (s.rd .IND_ADDR + 1) ∧ t.indNext.rest = t.rest := by
  have hbase : Within [] m s t := (Within.refl _ _ s).step h hb hc hm
  have hgo : t.flag .IND_ADDR_AUTOINC = true := (hbase.flag (by decide) (by simp)).trans hauto
  rw [Dev.indNext_auto hgo]
  refine ⟨(hbase.mono (by simp)).countMod (by decide) (by simp), ?_, Dev.wr_rest ..⟩
  rw [Dev.countMod, Dev.rd_wr, hbase.rd (by decide) (by simp)]
  rfl

/-- The queue of register frames and the reads that wait at the field die are what an access there changes. -/
theorem Dev.indTimeout_eq {s : Dev} {a : Nat} {l : List Nat} (h : s.barrier.readPending = a :: l) :
    s.indTimeout = (Dev.send { s with barrier := { s.barrier with regs := s.barrier.regs.erase (regFrameBits a 0 true), readPending := l } }
      (.indRead 0xFFFFFFFF)).setFlag .IND_STAT_TMO 0 true := by
  unfold indTimeout
  rw [h]
  rfl

theorem completes_indDataWrite_die {s : State} {v : Nat} (hv : v < 2 ^ 32) (hauto : s.flag .IND_ADDR_AUTOINC = true)
    (hspace : s.rd .IND_ADDR_SPACE = 1) (hw : dieW1c (4 * s.rd .IND_ADDR) = true) :
    Completes (.indDataWrite v) s fun t =>
      t.barrier.regs = s.barrier.regs ++ [regFrameBits (4 * s.rd .IND_ADDR) v false] ∧
      t.rd .IND_ADDR = wrap 22 (s.rd .IND_ADDR + 1) ∧ KeepsFields s t [(.IND_ADDR, 0)] ∧
      t.rest = { s.rest with barrier := t.barrier, svc := t.svc } := by
  obtain ⟨hwithin, haddr, hrest⟩ := Dev.Within.indNext (s := s.toDev) (t := s.indWriteSent s.indAddr v) (m := fun _ => ()) hauto rfl rfl rfl rfl
  refine .of_effect (exec_indDataWrite v s) (decide_eq_true hv) (Dev.indDataWrite_die v hspace hw) ⟨?_, ?_, hwithin.kept, ?_⟩
  · rw [Dev.notify_barrier]
    exact (congrArg (fun d : Dev => d.barrier.regs) hrest :)
  · rw [Dev.notify_rd]; exact haddr
  · rw [Dev.notify_rest, Dev.notify_barrier, Dev.notify_svc, hrest]
    exact (congrArg (fun d : Dev => { s.rest with barrier := d.barrier, svc := d.svc }) hrest.symm :)

theorem completes_indDataWrite_denied {s : State} {v : Nat} (hv : v < 2 ^ 32) (hauto : s.flag .IND_ADDR_AUTOINC = true)
    (hspace : s.rd .IND_ADDR_SPACE = 3) :
    Completes (.indDataWrite v) s fun t =>
      t.flag .IND_STAT_DENIED = true ∧ KeepsFields s t [(.IND_ADDR, 0), (.IND_STAT_DENIED, 0)] ∧ t.rest = s.rest := by
  obtain ⟨hwithin, hflag, _⟩ := Dev.indNext_flagged (s := s.toDev) (t := s.toDev) (f := .IND_STAT_DENIED) (m := id) hauto rfl rfl rfl
    (.inl rfl) rfl
  refine .of_effect (exec_indDataWrite v s) (decide_eq_true hv) (Dev.indDataWrite_denied v hspace)
    ⟨?_, hwithin.kept, (Dev.notify_rest ..).trans hwithin.same⟩
  rw [Dev.notify_flag]; exact hflag

theorem completes_indDataRead_die {s : State} (hauto : s.flag .IND_ADDR_AUTOINC = true) (hspace : s.rd .IND_ADDR_SPACE = 1) :
    Completes .indDataRead s fun t =>
      t.barrier.regs = s.barrier.regs ++ [regFrameBits (4 * s.rd .IND_ADDR) 0 true] ∧
      t.barrier.readPending = s.barrier.readPending ++ [4 * s.rd .IND_ADDR] ∧ KeepsFields s t [(.IND_ADDR, 0)] ∧
      t.rest = { s.rest with barrier := t.barrier } := by
  obtain ⟨hwithin, _, hrest⟩ := Dev.Within.indNext (s := s.toDev) (t := s.indDieRead s.indAddr) (m := fun _ => ()) hauto rfl rfl rfl rfl
  refine .of_effect (exec_indDataRead s) rfl (Dev.indDataRead_die hspace) ⟨?_, ?_, hwithin.kept, ?_⟩
  · rw [Dev.notify_barrier]
    exact (congrArg (fun d : Dev => d.barrier.regs) hrest :)
  · rw [Dev.notify_barrier]
    exact (congrArg (fun d : Dev => d.barrier.readPending) hrest :)
  · rw [Dev.notify_rest, Dev.notify_barrier, hrest]
    exact (congrArg (fun d : Dev => { s.rest with barrier := d.barrier }) hrest.symm :)

theorem completes_indDataRead_badSpace {s : State} (hauto : s.flag .IND_ADDR_AUTOINC = true) (hspace : 4 < s.rd .IND_ADDR_SPACE) :
    Completes .indDataRead s fun t =>
      Out.indRead 0 ∈ t.out ∧ t.flag .IND_STAT_BADSPACE = true ∧ KeepsFields s t [(.IND_ADDR, 0), (.IND_STAT_BADSPACE, 0)] ∧
      t.rest = s.rest := by
  obtain ⟨hwithin, hflag, hout⟩ := Dev.indNext_flagged (s := s.toDev) (t := s.send (.indRead 0)) (f := .IND_STAT_BADSPACE) (m := id) hauto
    rfl rfl rfl (.inr rfl) rfl
  refine .of_effect (exec_indDataRead s) rfl (Dev.indDataRead_badSpace hspace)
    ⟨Dev.mem_out_notify ?_, ?_, hwithin.kept, (Dev.notify_rest ..).trans hwithin.same⟩
  · rw [hout]; exact s.mem_out_send _
  · rw [Dev.notify_flag]; exact hflag

theorem completes_indTimeout {s : State} {a : Nat} {l : List Nat} (h : s.barrier.readPending = a :: l) :
    Completes .indTimeout s fun t =>
      Out.indRead 0xFFFFFFFF ∈ t.out ∧ t.flag .IND_STAT_TMO = true ∧ t.barrier.readPending = l ∧
      KeepsFields s t [(.IND_STAT_TMO, 0)] ∧ t.rest = { s.rest with barrier := t.barrier } := by
  have heff := Dev.indTimeout_eq h
  generalize hb : ({ s.barrier with regs := s.barrier.regs.erase (regFrameBits a 0 true), readPending := l } : Barrier) = b at heff
  generalize hu : Dev.send { s.toDev with barrier := b } (.indRead 0xFFFFFFFF) = u at heff
  have hbase : Dev.Within [(.IND_STAT_TMO, 0)] (fun _ => ()) s.toDev u := by
    rw [← hu]
    exact ((Dev.Within.refl _ _ s.toDev).step (u := { s.toDev with barrier := b }) rfl rfl rfl rfl).send _
  have hwithin := hbase.setFlag (f := .IND_STAT_TMO) (i := 0) true (by decide) (by simp)
  have hrest : (u.setFlag .IND_STAT_TMO 0 true).rest = { s.rest with barrier := b } := by
    rw [← hu]; exact Dev.wr_rest ..
  have hbarrier : (u.setFlag .IND_STAT_TMO 0 true).barrier = b := (congrArg Dev.barrier hrest :)
  refine .of_effect (exec_indTimeout s) rfl heff ⟨Dev.mem_out_notify ?_, ?_, ?_, hwithin.kept, ?_⟩
  · rw [Dev.setFlag, Dev.wr_out, ← hu]
    exact Dev.mem_out_send _ _
  · rw [Dev.notify_flag]; exact u.flag_wr_toNat _ 0 true (by decide)
  · rw [Dev.notify_barrier, hbarrier, ← hb]
  · rw [Dev.notify_rest, Dev.notify_barrier, hrest, hbarrier]

/-! ### The vote -/

/-- What the three copies of a field hold. -/
def Dev.copies (s : Dev) (f : Field) (i : Nat) : Nat × Nat × Nat :=
  let d := fun _ : Nat => f.resetAt i
  (tabGet d s.regs (f.key i), tabGet d s.voteB (f.key i), tabGet d s.voteC (f.key i))

/-- The three copies of a field agree. -/
def Dev.Agreed (s : Dev) (f : Field) (i : Nat) : Prop :=
  (s.copies f i).2.1 = (s.copies f i).1 ∧ (s.copies f i).2.2 = (s.copies f i).1

theorem Dev.copies_wr_ne (s : Dev) {f g : Field} {i j : Nat} (v : Nat) (hi : i < 1024) (hj : j < 1024) (h : ¬(g = f ∧ j = i)) :
    (s.wr g j v).copies f i = s.copies f i := by
  have hk : f.key i ≠ g.key j := (Field.key_ne hj hi h).symm
  unfold copies wr
  split <;> simp only [tabGet_set_ne _ _ _ _ hk]

theorem Dev.copies_wr_same (s : Dev) {f : Field} (i v : Nat) (h : f.voted = true) :
    (s.wr f i v).copies f i = (wrap f.desc.width v, wrap f.desc.width v, wrap f.desc.width v) := by
  unfold copies wr
  simp only [h, if_true, tabGet_set_same]

/-- A field reads as the majority of its copies. -/
theorem Dev.rd_voted (s : Dev) {f : Field} (i : Nat) (h : f.voted = true) :
    s.rd f i = wrap f.desc.width (majority (s.copies f i).1 (s.copies f i).2.1 (s.copies f i).2.2 (f.resetAt i)) := by
  unfold rd
  simp only [h, if_true]
  rfl

/-- No field that a Tally event writes is stored three times. -/
theorem Dev.copies_tally (s : Dev) (code unit partid v0 v1 : Nat) {f : Field} {i : Nat} (hf : f.voted = true) (hi : i < 1024) :
    (s.tally code unit partid v0 v1).copies f i = s.copies f i := by
  have hwr (d : Dev) (g : Field) (v : Nat) (hg : g.voted = false) : (d.wr g 0 v).copies f i = d.copies f i :=
    d.copies_wr_ne v hi (by decide) fun h => by rw [h.1, hf] at hg; exact Bool.noConfusion hg
  have hnoted : (((s.observeCode code).traceNote 19 1 code).traceTrigger code).copies f i = s.copies f i := by
    have htrigger (d : Dev) : (d.traceTrigger code).copies f i = d.copies f i := by
      rcases d.traceTrigger_only code with ⟨x, hx⟩ | ⟨x, hx⟩ <;> rw [hx]
      · rfl
      · exact hwr d .OBS_TRC_STAT_STOPPED 1 rfl
    have hnote (d : Dev) : (d.traceNote 19 1 code).copies f i = d.copies f i := by
      rcases d.traceNote_only 19 1 code with ⟨x, hx⟩ | ⟨x, hx⟩ <;> rw [hx]
      · rfl
      · exact hwr d .OBS_TRC_DROP_COUNT _ rfl
    obtain ⟨c, hc⟩ := s.observeCode_only code
    rw [htrigger, hnote, hc]
    rfl
  unfold tally
  dsimp only
  generalize ((s.observeCode code).traceNote 19 1 code).traceTrigger code = t at hnoted ⊢
  split
  · exact hnoted
  · exact (hwr (t.setFlag .TLY_STAT_QOVF 0 true) .TLY_DROP_CNT _ rfl).trans ((hwr t .TLY_STAT_QOVF _ rfl).trans hnoted)

/-- The fields that a vote may change. -/
def voteFields : List (Field × Nat) :=
  [(.GLB_ERR_STAT_VOTERR, 0), (.GLB_ERR_STAT_VOTFAIL, 0), (.GLB_VOTE_CNT, 0), (.FLD_STAT_VOTERR, 0)] ++ logFields

/-- What the module holds beside what a Tally event changes and the field die's note of a vote. -/
def Dev.butVoted (s : Dev) : Dev := { s.body with die := { s.die with voted := false } }

theorem Dev.quiet_butVoted : Quiet butVoted := fun d e h => by
  have hdie : d.die = e.die := (congrArg Dev.die h :)
  simp only [butVoted, rest_body, h]
  exact congrArg (fun x : FieldDie => { e.body with die := { x with voted := false } }) hdie

/-- From `s` to `t` a vote has been taken: fields of `P` agree, and those that agreed still do. -/
structure Dev.Voted (P : Field → Nat → Prop) (s t : Dev) : Prop where
  within : Within voteFields butVoted s t
  powered : t.die.powered = s.die.powered
  agreed : ∀ f i, f.voted = true → i < 1024 → P f i ∨ s.Agreed f i → t.Agreed f i

theorem Dev.Voted.trans {P Q : Field → Nat → Prop} {s t u : Dev} (h : Voted P s t) (h' : Voted Q t u) :
    Voted (fun f i => P f i ∨ Q f i) s u where
  within := h.within.trans h'.within
  powered := h'.powered.trans h.powered
  agreed f i hf hi hor := h'.agreed f i hf hi (by
    rcases hor with (hP | hQ) | hs
    · exact .inr (h.agreed f i hf hi (.inl hP))
    · exact .inl hQ
    · exact .inr (h.agreed f i hf hi (.inr hs)))

theorem Dev.Voted.mono {P Q : Field → Nat → Prop} {s t : Dev} (h : Voted P s t) (hq : ∀ f i, Q f i → P f i) : Voted Q s t :=
  ⟨h.within, h.powered, fun f i hf hi hor => h.agreed f i hf hi (hor.imp (hq f i) id)⟩

theorem Dev.Voted.refl {P : Field → Nat → Prop} {s : Dev} (h : ∀ f i, P f i → s.Agreed f i) : Voted P s s :=
  ⟨.refl _ _ s, rfl, fun f i _ _ hor => hor.elim (h f i) id⟩

/-- A fold of votes, while the field die's supply stays as it is. -/
theorem Dev.Voted.foldl {β : Type} {P : β → Field → Nat → Prop} {step : Dev → β → Dev} {p : Bool} (l : List β)
    (hstep : ∀ d, d.die.powered = p → ∀ x ∈ l, Voted (P x) d (step d x)) {s : Dev} (hs : s.die.powered = p) :
    Voted (fun f i => ∃ x ∈ l, P x f i) s (l.foldl step s) := by
  induction l generalizing s with
  | nil => exact .refl (by simp)
  | cons x l ih =>
    have hx := hstep s hs x List.mem_cons_self
    refine (hx.trans (ih (fun d hd y hy => hstep d hd y (List.mem_cons_of_mem _ hy)) (hx.powered.trans hs))).mono ?_
    rintro f i ⟨y, hy, hP⟩
    rcases List.mem_cons.1 hy with rfl | hy
    · exact .inl hP
    · exact .inr ⟨y, hy, hP⟩

/-- The field die has noted a vote. -/
def Dev.noteDieVote (s : Dev) : Dev := s.setDie { s.die with voted := true }

/-- What a vote has found in its flags, before its Tally event. -/
def Dev.flagVote (s : Dev) (f : Field) (lost : Bool) : Dev :=
  if f.desc.die then s.noteDieVote.setFlag .FLD_STAT_VOTERR 0 true
  else if lost then s.setFlag .GLB_ERR_STAT_VOTFAIL 0 true
  else (s.setFlag .GLB_ERR_STAT_VOTERR 0 true).count .GLB_VOTE_CNT

theorem Dev.noteVote_eq (s : Dev) (f : Field) (i : Nat) (lost : Bool) :
    ∃ unit code, s.noteVote f i lost = (s.flagVote f lost).tally 0x0090 unit 0xFFFFFFFF (f.desc.addr i) code := by
  unfold noteVote flagVote
  dsimp only
  generalize (if lost = true then 2 else 1) = code
  split
  · exact ⟨1, code, rfl⟩
  · split
    · exact ⟨0, code, rfl⟩
    · exact ⟨0, code, rfl⟩

/-- The report of a vote changes no voted field. -/
theorem Dev.noteVote_copies (s : Dev) (g : Field) (j : Nat) (lost : Bool) {f : Field} {i : Nat} (hf : f.voted = true) (hi : i < 1024) :
    (s.noteVote g j lost).copies f i = s.copies f i := by
  have hwr (d : Dev) (g : Field) (v : Nat) (hg : g.voted = false) : (d.wr g 0 v).copies f i = d.copies f i :=
    d.copies_wr_ne v hi (by decide) fun h => by rw [h.1, hf] at hg; exact Bool.noConfusion hg
  obtain ⟨unit, code, heq⟩ := s.noteVote_eq g j lost
  rw [heq, copies_tally _ _ _ _ _ _ hf hi]
  unfold flagVote
  split
  · exact hwr _ .FLD_STAT_VOTERR _ rfl
  · split
    · exact hwr _ .GLB_ERR_STAT_VOTFAIL _ rfl
    · exact (hwr _ .GLB_VOTE_CNT _ rfl).trans (hwr _ .GLB_ERR_STAT_VOTERR _ rfl)

theorem Dev.Within.noteDieVote {l : List (Field × Nat)} {s t : Dev} (h : Within l butVoted s t) : Within l butVoted s t.noteDieVote :=
  h.step rfl rfl rfl rfl

theorem Dev.Within.noteVote {s t : Dev} (h : Within voteFields butVoted s t) (f : Field) (i : Nat) (lost : Bool) :
    Within voteFields butVoted s (t.noteVote f i lost) := by
  have hlog : ∀ e ∈ logFields, e ∈ voteFields := fun e he => List.mem_append_right _ he
  obtain ⟨unit, code, heq⟩ := t.noteVote_eq f i lost
  rw [heq]
  refine Within.tally ?_ _ _ _ _ _ hlog Dev.quiet_butVoted
  unfold Dev.flagVote
  split
  · exact h.noteDieVote.setFlag (f := .FLD_STAT_VOTERR) (i := 0) true (by decide) (by simp [voteFields])
  · split
    · exact h.setFlag (f := .GLB_ERR_STAT_VOTFAIL) (i := 0) true (by decide) (by simp [voteFields])
    · exact (h.setFlag (f := .GLB_ERR_STAT_VOTERR) (i := 0) true (by decide) (by simp [voteFields])).count (f := .GLB_VOTE_CNT) (i := 0)
        (by decide) (by simp [voteFields])

theorem Dev.body_of_butVoted {s t : Dev} (h : t.rest.butVoted = s.rest.butVoted) : t.body = { s.body with die := t.die } :=
  (congrArg (fun d : Dev => { d with die := t.die }) h :)

/-- A voted field reads the same once its copies hold the majority. -/
theorem Dev.wr_majority_within (s : Dev) {f : Field} {i : Nat} (hf : f.voted = true) (hi : i < 1024) {α : Type} (l : List (Field × Nat)) (m : Dev → α) :
    Within l m s (s.wr f i (majority (s.copies f i).1 (s.copies f i).2.1 (s.copies f i).2.2 (f.resetAt i))) := by
  refine ⟨fun g j hj _ => ?_, congrArg m (Dev.wr_rest ..)⟩
  by_cases hg : f = g ∧ i = j
  · obtain ⟨rfl, rfl⟩ := hg
    rw [Dev.rd_wr, s.rd_voted i hf]
  · exact s.rd_wr_ne _ _ _ _ _ hi hj hg

theorem Dev.vote_eq (s : Dev) (f : Field) (i : Nat) :
    s.vote f i = s ∧ s.Agreed f i ∨ ∃ lost, s.vote f i =
      (s.wr f i (majority (s.copies f i).1 (s.copies f i).2.1 (s.copies f i).2.2 (f.resetAt i))).noteVote f i lost := by
  unfold vote
  dsimp only
  split
  · rename_i h
    exact .inl ⟨rfl, h.1.symm, (h.1.trans h.2).symm⟩
  · exact .inr ⟨_, rfl⟩

/-- A vote on a field makes its copies agree, and leaves every other as it was. -/
theorem Dev.vote_voted (s : Dev) {f : Field} {i : Nat} (hf : f.voted = true) (hi : i < 1024) :
    Voted (fun g j => g = f ∧ j = i) s (s.vote f i) := by
  rcases s.vote_eq f i with ⟨heq, hagreed⟩ | ⟨lost, heq⟩
  · rw [heq]
    refine .refl ?_
    rintro g j ⟨rfl, rfl⟩
    exact hagreed
  · have hsame := s.copies_wr_same i (majority (s.copies f i).1 (s.copies f i).2.1 (s.copies f i).2.2 (f.resetAt i)) hf
    have hwithin := s.wr_majority_within hf hi voteFields butVoted
    have hother {g : Field} {j : Nat} (hj : j < 1024) (h : ¬(f = g ∧ i = j)) :=
      s.copies_wr_ne (majority (s.copies f i).1 (s.copies f i).2.1 (s.copies f i).2.2 (f.resetAt i)) hj hi h
    rw [heq]
    generalize s.wr f i (majority (s.copies f i).1 (s.copies f i).2.1 (s.copies f i).2.2 (f.resetAt i)) = t at *
    have hall := hwithin.noteVote f i lost
    refine ⟨hall, (congrArg (fun d : Dev => d.die.powered) hall.same :), fun g j hg hj hor => ?_⟩
    rw [Agreed, t.noteVote_copies f i lost hg hj]
    by_cases hgf : f = g ∧ i = j
    · obtain ⟨rfl, rfl⟩ := hgf
      rw [hsame]
      exact ⟨rfl, rfl⟩
    · rw [hother hj hgf]
      exact hor.resolve_left fun h => hgf ⟨h.1.symm, h.2.symm⟩

theorem votedFields_voted : ∀ f ∈ votedFields, f.voted = true := fun _ h => by simpa using (List.mem_filter.1 h).2

theorem votedFields_count : ∀ f ∈ votedFields, f.desc.count ≤ 1024 := by decide

theorem Dev.voteCheck_voted (s : Dev) :
    Voted (fun f i => ∃ x ∈ votedFields, (x.desc.die = false ∨ s.die.powered = true) ∧ f = x ∧ i < x.desc.count) s s.voteCheck := by
  refine Voted.foldl (p := s.die.powered) votedFields (fun d hd x hx => ?_) rfl
  have hv := votedFields_voted x hx
  have hn := votedFields_count x hx
  split
  · rename_i hoff
    refine .refl ?_
    rintro f i ⟨hon, -⟩
    rw [← hd] at hon
    simp only [Bool.and_eq_true, Bool.not_eq_true'] at hoff
    simp [hoff.1, hoff.2] at hon
  · refine (Voted.foldl (p := d.die.powered) (upTo x.desc.count) (fun e _ i hi => ?_) rfl).mono (P := fun f i => ∃ j ∈ upTo x.desc.count, f = x ∧ i = j) ?_
    · exact e.vote_voted hv (by have := lt_of_mem_upTo hi; omega)
    · rintro f i ⟨-, hf, hi⟩
      exact ⟨i, mem_upTo.2 hi, hf, rfl⟩

theorem completes_voteCheck (s : State) (i : Nat) :
    Completes .voteCheck s fun t =>
      (∀ x ∈ votedFields, x.desc.die = false ∨ s.die.powered = true → i < x.desc.count →
        tabGet (fun _ => x.resetAt i) t.voteB (x.key i) = tabGet (fun _ => x.resetAt i) t.regs (x.key i) ∧
        tabGet (fun _ => x.resetAt i) t.voteC (x.key i) = tabGet (fun _ => x.resetAt i) t.regs (x.key i)) ∧
      KeepsFields s t voteFields ∧ t.body = { s.body with die := t.die } := by
  have hvote := s.toDev.voteCheck_voted
  refine .of_effect (exec_voteCheck s) rfl rfl ⟨fun x hx hon hi => ?_, hvote.within.kept, ?_⟩
  · have hn := votedFields_count x hx
    have h := hvote.agreed x i (votedFields_voted x hx) (by omega) (.inl ⟨x, hx, hon, rfl, hi⟩)
    rw [Dev.notify_voteB, Dev.notify_regs, Dev.notify_voteC]
    exact h
  · rw [Dev.notify_body, Dev.notify_die]
    exact Dev.body_of_butVoted hvote.within.same

/-- Settles O47: a snapshot is a row of copies; an acknowledgement sends and does nothing else; a vote leaves every field's value, as a
field reads as the majority of its copies; and an access through the indirect pair advances its address. -/
theorem snapshotVoteAndIndirectPair : Obligations.SnapshotVoteAndIndirectPair := by
  intro s v f i k a l
  refine ⟨fun hfree => completes_snapshot hfree a k, fun hv => completes_irqAck hv k, completes_voteCheck s i, fun hv hauto => ?_,
    completes_indTimeout⟩
  exact ⟨completes_indDataWrite_die hv hauto, completes_indDataWrite_denied hv hauto, completes_indDataRead_die hauto,
    completes_indDataRead_badSpace hauto⟩

end Sys2Proof.Machine
end

section
/-! Device virtual addresses: what an access through the walk, and a fault of one, leave alone (R163 to R167). -/

namespace Sys2Proof.Machine

open Sys2Proof

namespace Dev.Within

variable {α : Type} {l : List (Field × Nat)} {m : Dev → α} {s t : Dev}

/-- The caches hold other translations. -/
theorem tlb (h : Within l m s t) (x : List Cached) (hm : ∀ d x, m { d with tlb := x } = m d) : Within l m s { t with tlb := x } :=
  h.step rfl rfl rfl (hm t.rest _)

theorem keepPage (h : Within l m s t) (me : Option Nat) (asid va acc : Nat) (hm : ∀ d x, m { d with tlb := x } = m d) :
    Within l m s (t.keepPage me asid va acc) := by
  unfold Dev.keepPage
  split
  · exact h.tlb _ hm
  · exact h

theorem touch (h : Within l m s t) (me : Option Nat) (asid acc va n : Nat) (hm : ∀ d x, m { d with tlb := x } = m d) :
    Within l m s (t.touch me asid acc va n) := by
  unfold Dev.touch
  generalize n / 4096 + 2 = f
  induction f generalizing t va n with
  | zero => exact h
  | succ f ih =>
    rw [Dev.keepPages]
    split
    · exact h
    · exact ih (h.keepPage me asid va acc hm) _ _

theorem putSpans (h : Within l m s t) (spans : List (Bool × Nat × Nat)) (bs : List Byte) (hm : ∀ d x, m { d with mem := x } = m d) :
    Within l m s (t.putSpans spans bs) := by
  induction spans generalizing t bs with
  | nil => exact h
  | cons e spans ih =>
    obtain ⟨host, a, n⟩ := e
    rw [Dev.putSpans]
    refine ih ?_ _
    cases host
    · exact h.putBytes _ _ hm
    · exact h.send _

/-- A write at a device virtual address changes memory and the caches. -/
theorem vwrite (h : Within l m s t) {me : Option Nat} {asid va : Nat} {bs : List Byte} {bad : Option Nat} {u : Dev}
    (hu : t.vwrite me asid va bs bad = .ok u) (hmem : ∀ d x, m { d with mem := x } = m d) (htlb : ∀ d x, m { d with tlb := x } = m d) :
    Within l m s u := by
  unfold Dev.vwrite at hu
  split at hu
  · split at hu
    · cases hu
      exact (h.putSpans _ _ hmem).touch _ _ _ _ _ htlb
    · cases hu
  · cases hu
  · cases hu

theorem uncorrectable (h : Within l m s t) (a src : Nat) (ecc : Bool) (hl : ∀ e ∈ errorFields, e ∈ l) (hq : Quiet m) :
    Within l m s (t.uncorrectable a src ecc) := by
  have hlog : ∀ e ∈ logFields, e ∈ l := fun e he => hl e (List.mem_append_right _ he)
  have hfirst : Within l m s (if !ecc then t
      else if inLpddr a then (t.setFlag .MEM_ECC_STAT_LUE 0 true).count .MEM_LUE_CNT
      else (t.setFlag .MEM_ECC_STAT_VUE 0 true).count .MEM_VUE_CNT) := by
    split
    · exact h
    · split
      · exact (h.setFlag (f := .MEM_ECC_STAT_LUE) (i := 0) true (by decide) (hl _ (by decide))).count (by decide) (hl _ (by decide))
      · exact (h.setFlag (f := .MEM_ECC_STAT_VUE) (i := 0) true (by decide) (hl _ (by decide))).count (by decide) (hl _ (by decide))
  unfold Dev.uncorrectable
  dsimp only
  generalize (if !ecc then t
      else if inLpddr a then (t.setFlag .MEM_ECC_STAT_LUE 0 true).count .MEM_LUE_CNT
      else (t.setFlag .MEM_ECC_STAT_VUE 0 true).count .MEM_VUE_CNT) = u at hfirst ⊢
  have hkept := ((hfirst.wr (f := .MEM_UE_ADDR) (i := 0) a (by decide) (hl _ (by decide))).wr (f := .MEM_UE_SRC) (i := 0) src (by decide)
    (hl _ (by decide))).setFlag (f := .MEM_ECC_STAT_CRCUE) (i := 0) true (by decide) (hl _ (by decide))
  exact hkept.tally _ _ _ _ _ hlog hq

theorem walkError (h : Within l m s t) (x : XFault) (hl : ∀ e ∈ errorFields, e ∈ l) (hq : Quiet m) : Within l m s (t.walkError x) := by
  unfold Dev.walkError
  split
  · exact h.uncorrectable _ _ _ hl hq
  · exact h

theorem postFault (h : Within l m s t) (r : List Byte) (hl : (.MMU_FAULTQ_CNT_OVF, 0) ∈ l) (hm : ∀ d x, m { d with faultq := x } = m d) :
    Within l m s (t.postFault r) := by
  unfold Dev.postFault
  split
  · exact h.step rfl rfl rfl (hm t.rest _)
  · exact h.setFlag true (by decide) hl

theorem decoderFault (h : Within l m s t) (x : XFault) (asid : Nat) (hl : ∀ e ∈ (.MMU_FAULTQ_CNT_OVF, 0) :: errorFields, e ∈ l) (hq : Quiet m)
    (hm : ∀ d x, m { d with faultq := x } = m d) : Within l m s (t.decoderFault x asid) :=
  (h.walkError x (fun e he => hl e (List.mem_cons_of_mem _ he)) hq).postFault _ (hl _ List.mem_cons_self) hm

end Dev.Within

end Sys2Proof.Machine
end

section
/-! Batches of the teach decoder, and validation (R305 to R310). -/

namespace Sys2Proof.Machine

open Sys2Proof

theorem exec_batchRequest (q : Fin 2) (s : State) : exec (.batchRequest q) s = s.run (.batchRequest q) fun d => d.batchRequest q := rfl

theorem exec_sampleDecodeDone (k : Nat) (h : HevcResult) (s : State) :
    exec (.sampleDecodeDone k h) s = s.run (.sampleDecodeDone k h) fun d => d.sampleDecodeDone k h := rfl

theorem exec_batchComplete (s : State) : exec .batchComplete s = s.run .batchComplete fun d => d.batchComplete := rfl

theorem exec_decoderCapWindow (s : State) : exec .decoderCapWindow s = s.run .decoderCapWindow fun d => { d with capUsed := 0 } := rfl

theorem exec_validationStart (port : Port) (v : Nat) (s : State) :
    exec (.validationStart port v) s = s.run (.validationStart port v) fun d => d.served port 0x7100 4 fun d => d.validationStart port v := rfl

theorem exec_validationComplete (l : List ValSample) (s : State) :
    exec (.validationComplete l) s = s.run (.validationComplete l) fun d => d.validationComplete l := rfl

/-! ### A batch begins -/

/-- A request has been taken from its queue. -/
def Dev.requestTaken (s : Dev) (q : Nat) : Dev := { s.countMod .DEC_Q_HEAD q with lastDec := q }

/-- The request at the head of a queue has been read. -/
def Dev.requestRead (s : Dev) (q asid va : Nat) : Dev := (s.requestTaken q).useFree.touch none asid 0 va 64

theorem Dev.batchRequest_eq {s : Dev} {q : Nat} {r : List Byte} (hfree : s.batch = none) (hready : s.decReady q = true) (hturn : s.lastDec ≠ q)
    (hread : (s.requestTaken q).vread none (s.rd .DEC_Q_CTL_ASID q)
      (s.rd .DEC_Q_BASE_ADDR q * 64 + 64 * (s.rd .DEC_Q_HEAD q % 2 ^ s.rd .DEC_Q_CTL_LOG2 q)) 64 = .ok r) :
    s.batchRequest q = (s.requestRead q (s.rd .DEC_Q_CTL_ASID q)
      (s.rd .DEC_Q_BASE_ADDR q * 64 + 64 * (s.rd .DEC_Q_HEAD q % 2 ^ s.rd .DEC_Q_CTL_LOG2 q))).takeRequest q r := by
  have hgo : (s.batch.isSome || !s.decReady q || (s.lastDec == q && s.decReady (1 - q))) = false := by simp [hfree, hready, hturn]
  unfold batchRequest
  rw [hgo]
  generalize s.rd .DEC_Q_BASE_ADDR q * 64 + 64 * (s.rd .DEC_Q_HEAD q % 2 ^ s.rd .DEC_Q_CTL_LOG2 q) = va at hread ⊢
  generalize s.rd .DEC_Q_CTL_ASID q = asid at hread ⊢
  unfold requestTaken at hread
  simp only [Bool.false_eq_true, if_false, hread]
  rfl

theorem Dev.takeRequest_begins {s : Dev} (q : Nat) {r : List Byte} (hcode : s.requestCode r = 0)
    (htable : s.writeFault (reqAsid r) (leAt r 48 8) (16 * reqB r) = none) (hrecord : s.writeFault (reqAsid r) (leAt r 56 8) 32 = none) :
    s.takeRequest q r = { s with batch := some { queue := q, req := r, left := upTo (reqB r) } } := by
  unfold takeRequest
  simp [hcode, htable, hrecord]

/-- What the module holds beside what taking a request changes. -/
def Dev.butRequest (s : Dev) : Dev := { s with batch := none, lastDec := 0, free := 0, tlb := [] }

theorem Dev.rest_of_butRequest {s t : Dev} (h : t.rest.butRequest = s.rest.butRequest) :
    t.rest = { s.rest with batch := t.batch, lastDec := t.lastDec, free := t.free, tlb := t.tlb } :=
  (congrArg (fun d : Dev => { d with batch := t.batch, lastDec := t.lastDec, free := t.free, tlb := t.tlb }) h :)

theorem Dev.requestTaken_within (s : Dev) {q : Nat} (hq : q < 1024) {α : Type} {m : Dev → α} (hm : ∀ d x, m { d with lastDec := x } = m d) :
    Within [(.DEC_Q_HEAD, q)] m s (s.requestTaken q) :=
  ((Within.refl _ _ s).countMod hq (by simp)).step rfl rfl rfl (hm (s.countMod .DEC_Q_HEAD q).rest _)

theorem Dev.requestRead_within (s : Dev) {q : Nat} (hq : q < 1024) (asid va : Nat) :
    Within [(.DEC_Q_HEAD, q)] butRequest s (s.requestRead q asid va) :=
  ((s.requestTaken_within hq fun _ _ => rfl).useFree fun _ _ => rfl).touch _ _ _ _ _ fun _ _ => rfl

theorem Dev.requestRead_head (s : Dev) {q : Nat} (hq : q < 1024) (asid va : Nat) :
    (s.requestRead q asid va).rd .DEC_Q_HEAD q = wrap 16 (s.rd .DEC_Q_HEAD q + 1) := by
  have hlater : Within [] (fun _ => ()) (s.requestTaken q) (s.requestRead q asid va) :=
    ((Within.refl _ _ _).useFree fun _ _ => rfl).touch _ _ _ _ _ fun _ _ => rfl
  rw [hlater.rd hq (by simp)]
  exact Dev.rd_wr ..

theorem Dev.requestRead_lastDec (s : Dev) (q asid va : Nat) : (s.requestRead q asid va).lastDec = q := by
  have hlater : Within [] Dev.lastDec (s.requestTaken q) (s.requestRead q asid va) :=
    ((Within.refl _ _ _).useFree fun _ _ => rfl).touch _ _ _ _ _ fun _ _ => rfl
  exact (hlater.same :)

theorem completes_batchRequest {s : State} {q : Fin 2} {r : List Byte} (hfree : s.batch = none) (hready : s.decReady q = true)
    (hturn : s.lastDec ≠ q) (hread : (s.requestTaken q).vread none (s.rd .DEC_Q_CTL_ASID q)
      (s.rd .DEC_Q_BASE_ADDR q * 64 + 64 * (s.rd .DEC_Q_HEAD q % 2 ^ s.rd .DEC_Q_CTL_LOG2 q)) 64 = .ok r) (hcode : s.requestCode r = 0)
    (htable : (s.requestRead q (s.rd .DEC_Q_CTL_ASID q)
      (s.rd .DEC_Q_BASE_ADDR q * 64 + 64 * (s.rd .DEC_Q_HEAD q % 2 ^ s.rd .DEC_Q_CTL_LOG2 q))).writeFault (reqAsid r) (leAt r 48 8) (16 * reqB r) = none)
    (hrecord : (s.requestRead q (s.rd .DEC_Q_CTL_ASID q)
      (s.rd .DEC_Q_BASE_ADDR q * 64 + 64 * (s.rd .DEC_Q_HEAD q % 2 ^ s.rd .DEC_Q_CTL_LOG2 q))).writeFault (reqAsid r) (leAt r 56 8) 32 = none) :
    Completes (.batchRequest q) s fun t =>
      t.batch = some { queue := q, req := r, left := upTo (reqB r) } ∧ t.rd .DEC_Q_HEAD q = wrap 16 (s.rd .DEC_Q_HEAD q + 1) ∧
      KeepsFields s t [(.DEC_Q_HEAD, q)] ∧ t.rest = { s.rest with batch := t.batch, lastDec := q, free := t.free, tlb := t.tlb } := by
  have hq : (q : Nat) < 1024 := by omega
  have heff := Dev.batchRequest_eq hfree hready hturn hread
  generalize s.rd .DEC_Q_BASE_ADDR q * 64 + 64 * (s.rd .DEC_Q_HEAD q % 2 ^ s.rd .DEC_Q_CTL_LOG2 q) = va at *
  generalize s.rd .DEC_Q_CTL_ASID q = asid at *
  have hwithin := s.requestRead_within hq asid va
  have hhead := s.requestRead_head hq asid va
  have hlast := s.requestRead_lastDec q asid va
  generalize s.requestRead q asid va = w at *
  have hsame : w.requestCode r = s.requestCode r := by
    unfold Dev.requestCode
    rw [hwithin.rd (by decide) (by simp)]
  rw [Dev.takeRequest_begins _ (hsame.trans hcode) htable hrecord] at heff
  generalize hb : ({ queue := q, req := r, left := upTo (reqB r) } : Batch) = b at heff
  have hall : Dev.Within [(.DEC_Q_HEAD, (q : Nat))] Dev.butRequest s.toDev { w with batch := some b } := hwithin.step rfl rfl rfl rfl
  refine .of_effect (exec_batchRequest q s) rfl heff ⟨?_, ?_, hall.kept, ?_⟩
  · rw [Dev.notify_batch]
  · rw [Dev.notify_rd]; exact hhead
  · rw [Dev.notify_rest, Dev.notify_batch, Dev.notify_free, Dev.notify_tlb]
    refine (Dev.rest_of_butRequest hall.same).trans ?_
    rw [hlast]

/-! ### A slot of a batch ends -/

/-- The fields that the end of a slot may change. -/
def slotEndFields : List (Field × Nat) :=
  (.DEC_CORRUPT_CNT, 0) :: (.MMU_FAULTQ_CNT_OVF, 0) :: (((upTo 16).map fun k => (.DEC_STRM_ST_LAST, k)) ++ errorFields)

/-- What the module holds beside what the end of a slot changes. -/
def Dev.butSlot (s : Dev) : Dev := { s.body with batch := none, mem := [], capUsed := 0, free := 0, faultq := [], tlb := [] }

theorem Dev.quiet_butSlot : Quiet butSlot := fun d e h => by simp only [butSlot, rest_body, h]

theorem Dev.body_of_butSlot {s t : Dev} (h : t.rest.butSlot = s.rest.butSlot) :
    t.body = { s.body with batch := t.batch, mem := t.mem, capUsed := t.capUsed, free := t.free, faultq := t.faultq, tlb := t.tlb } :=
  (congrArg (fun d : Dev => { d with
    batch := t.batch, mem := t.mem, capUsed := t.capUsed, free := t.free, faultq := t.faultq, tlb := t.tlb }) h :)

/-- A slot's status and result are kept, and the bytes of its area counted. -/
def Dev.slotEnded (s : Dev) (lane n free : Nat) (b : Batch) (st : Nat) : Dev :=
  { (s.wr .DEC_STRM_ST_LAST lane st).useCap n with batch := some b, free := free }

/-- The end of a slot: what its write has changed, then its status with one further result. -/
theorem Dev.endSlot_eq (s : Dev) (b : Batch) (k i status : Nat) (x : Option Sample) :
    ∃ (d : Dev) (lane n free st : Nat) (entry : List Byte), s.endSlot b k i status x =
        d.slotEnded lane n free { b with left := b.left.filter fun j => j != k, results := b.results ++ [(k, st, entry)] } st ∧
      lane < 16 ∧ Within slotEndFields butSlot s d ∧ d.capUsed = s.capUsed := by
  have herr : ∀ e ∈ (.MMU_FAULTQ_CNT_OVF, 0) :: errorFields, e ∈ slotEndFields := by
    simp only [List.mem_cons, slotEndFields, List.mem_append]; tauto
  have hlane : wrap 4 (Config.freeNat (s.free + 3)) < 16 := Nat.mod_lt _ (by decide)
  have hcap : Quiet Dev.capUsed := fun _ _ h => (congrArg Dev.capUsed h :)
  unfold endSlot
  dsimp only
  split
  · rename_i d hd
    exact ⟨d, _, _, _, _, _, rfl, hlane, (Within.refl _ _ s).vwrite hd (fun _ _ => rfl) (fun _ _ => rfl),
      ((Within.refl [] Dev.capUsed s).vwrite hd (fun _ _ => rfl) (fun _ _ => rfl)).same⟩
  · rename_i e _
    exact ⟨_, _, _, _, _, _, rfl, hlane, ((Within.refl _ _ s).decoderFault e _ herr quiet_butSlot (fun _ _ => rfl)).count (f := .DEC_CORRUPT_CNT)
      (i := 0) (by decide) (by simp [slotEndFields]),
      (((Within.refl slotEndFields Dev.capUsed s).decoderFault e _ herr hcap (fun _ _ => rfl)).count (f := .DEC_CORRUPT_CNT)
      (i := 0) (by decide) (by simp [slotEndFields])).same⟩
  · exact ⟨_, _, _, _, _, _, rfl, hlane, (Within.refl _ _ s).count (f := .DEC_CORRUPT_CNT) (i := 0) (by decide) (by simp [slotEndFields]),
      ((Within.refl slotEndFields Dev.capUsed s).count (f := .DEC_CORRUPT_CNT) (i := 0) (by decide) (by simp [slotEndFields])).same⟩

theorem Dev.decodeSlot_eq (s : Dev) (b : Batch) (k : Nat) (h : HevcResult) :
    ∃ (u : Dev) (i st : Nat) (x : Option Sample), s.decodeSlot b k h = u.endSlot b k i st x ∧ (u = s ∨ u = s.count .DEC_CORRUPT_CNT) := by
  unfold decodeSlot
  dsimp only
  split
  · exact ⟨s, _, _, _, rfl, .inl rfl⟩
  · split
    · split
      · exact ⟨_, _, _, _, rfl, .inr rfl⟩
      · exact ⟨s, _, _, _, rfl, .inl rfl⟩
    · exact ⟨s, _, _, _, rfl, .inl rfl⟩
    · exact ⟨s, _, _, _, rfl, .inl rfl⟩
    · exact ⟨_, _, _, _, rfl, .inr rfl⟩

theorem Dev.sampleDecodeDone_eq {s : Dev} {b : Batch} {k : Nat} (h : HevcResult) (hb : s.batch = some b) (hk : k ∈ b.left)
    (hcap : s.capUsed < s.rd .DEC_BWCAP * 10000) : s.sampleDecodeDone k h = s.decodeSlot b k h := by
  have hgo : (!b.left.contains k || decide (s.rd .DEC_BWCAP * 10000 ≤ s.capUsed)) = false := by simp [hk]; exact hcap
  unfold sampleDecodeDone
  rw [hb]
  dsimp only
  rw [hgo]
  rfl

theorem completes_sampleDecodeDone {s : State} {b : Batch} {k : Nat} (hb : s.batch = some b) (hk16 : k < 65536) (hk : k ∈ b.left)
    (hcap : s.capUsed < s.rd .DEC_BWCAP * 10000) :
    Completes (.sampleDecodeDone k .syntaxError) s fun t =>
      (t.batch.map fun c => c.left) = some (b.left.filter fun j => j != k) ∧
      (t.batch.map fun c => c.results.length) = some (b.results.length + 1) ∧
      s.capUsed ≤ t.capUsed ∧ KeepsFields s t slotEndFields ∧
      t.body = { s.body with batch := t.batch, mem := t.mem, capUsed := t.capUsed, free := t.free, faultq := t.faultq, tlb := t.tlb } := by
  obtain ⟨u, i, st, x, hslot, hu⟩ := s.toDev.decodeSlot_eq b k .syntaxError
  have huw : Dev.Within slotEndFields Dev.butSlot s.toDev u ∧ u.capUsed = s.capUsed := by
    rcases hu with rfl | rfl
    · exact ⟨.refl _ _ _, rfl⟩
    · exact ⟨(Dev.Within.refl _ _ _).count (by decide) (by simp [slotEndFields]),
        ((Dev.Within.refl slotEndFields Dev.capUsed s.toDev).count (f := .DEC_CORRUPT_CNT) (i := 0) (by decide) (by simp [slotEndFields])).same⟩
  obtain ⟨d, lane, n, free, st, entry, hend, hlane, hd, hdcap⟩ := u.endSlot_eq b k i st x
  have heff := (Dev.sampleDecodeDone_eq .syntaxError hb hk hcap).trans (hslot.trans hend)
  generalize hb' : ({ b with left := b.left.filter fun j => j != k, results := b.results ++ [(k, st, entry)] } : Batch) = b' at heff
  have hwr : Dev.Within slotEndFields Dev.butSlot s.toDev (d.wr .DEC_STRM_ST_LAST lane st) :=
    (huw.1.trans hd).wr _ (by omega) (by simp [slotEndFields, mem_upTo, hlane])
  have hall : Dev.Within slotEndFields Dev.butSlot s.toDev (d.slotEnded lane n free b' st) := hwr.step rfl rfl rfl rfl
  have hcapped : (d.slotEnded lane n free b' st).capUsed = s.capUsed + n := by
    have h : (d.wr .DEC_STRM_ST_LAST lane st).capUsed = d.capUsed := Dev.wr_capUsed ..
    unfold Dev.slotEnded Dev.useCap
    rw [h, hdcap, huw.2]
  have hbatch : (d.slotEnded lane n free b' st).batch = some b' := rfl
  generalize d.slotEnded lane n free b' st = t at *
  refine .of_effect (exec_sampleDecodeDone ..) (decide_eq_true hk16) heff ⟨?_, ?_, ?_, hall.kept, ?_⟩
  · rw [Dev.notify_batch, hbatch, ← hb']; rfl
  · rw [Dev.notify_batch, hbatch, ← hb']; simp
  · rw [Dev.notify_capUsed, hcapped]; omega
  · rw [Dev.notify_body, Dev.notify_batch, Dev.notify_mem, Dev.notify_capUsed, Dev.notify_free, Dev.notify_faultq, Dev.notify_tlb]
    exact Dev.body_of_butSlot hall.same

/-! ### A batch ends -/

/-- The fields that the record of a batch may change, where it faults. -/
def faultFields : List (Field × Nat) := (.MMU_FAULTQ_CNT_OVF, 0) :: errorFields

/-- What the module holds beside what the end of a batch changes. -/
def Dev.butBatch (s : Dev) : Dev := { s.body with batch := none, mem := [], sync := [], faultq := [], tlb := [] }

theorem Dev.quiet_butBatch : Quiet butBatch := fun d e h => by simp only [butBatch, rest_body, h]

theorem Dev.body_of_butBatch {s t : Dev} (h : t.rest.butBatch = s.rest.butBatch) :
    t.body = { s.body with batch := t.batch, mem := t.mem, sync := t.sync, faultq := t.faultq, tlb := t.tlb } :=
  (congrArg (fun d : Dev => { d with batch := t.batch, mem := t.mem, sync := t.sync, faultq := t.faultq, tlb := t.tlb }) h :)

section
variable {α : Type} {l : List (Field × Nat)} {m : Dev → α} {s t : Dev}

/-- Bytes are written at an address of the batch's address space, or the decoder's fault is posted. -/
def Dev.batchWrite (s : Dev) (asid va : Nat) (bs : List Byte) : Dev :=
  match s.vwrite none asid va bs with
  | .ok d => d
  | .fault x => s.decoderFault x asid
  | .error => s

theorem Dev.Within.batchWrite (h : Within l m s t) (asid va : Nat) (bs : List Byte) (hl : ∀ e ∈ faultFields, e ∈ l) (hq : Quiet m)
    (hmem : ∀ d x, m { d with mem := x } = m d) (htlb : ∀ d x, m { d with tlb := x } = m d) (hf : ∀ d x, m { d with faultq := x } = m d) :
    Within l m s (t.batchWrite asid va bs) := by
  unfold Dev.batchWrite
  split
  · rename_i d hd
    exact h.vwrite hd hmem htlb
  · exact h.decoderFault _ _ hl hq hf
  · exact h

theorem Dev.Within.batchRecord (h : Within l m s t) (q : Nat) (r : List Byte) (a b c d e : Nat) (hl : ∀ e ∈ faultFields, e ∈ l) (hq : Quiet m)
    (hmem : ∀ d x, m { d with mem := x } = m d) (htlb : ∀ d x, m { d with tlb := x } = m d) (hf : ∀ d x, m { d with faultq := x } = m d)
    (hs : ∀ d x, m { d with sync := x } = m d) : Within l m s (t.batchRecord q r a b c d e) := by
  unfold Dev.batchRecord
  dsimp only
  split
  · rename_i u hu
    have hw := h.vwrite hu hmem htlb
    have hsig : Within l m s (if bit (leAt r 42 2) 15 then u.scAdd (leAt r 42 2 % 16384) 1 else u) := by
      split
      · exact hw.scAdd _ _ hs
      · exact hw
    generalize (if bit (leAt r 42 2) 15 then u.scAdd (leAt r 42 2 % 16384) 1 else u) = v at hsig ⊢
    split
    · exact hsig.send _
    · exact hsig
  · exact h.decoderFault _ _ hl hq hf
  · exact h

end

/-- A batch with only corrupt slots is skipped. -/
def Dev.batchSkip (s : Dev) (b : Batch) : Dev :=
  if b.count 0 == 0 && b.count 1 != 0 then (s.count .DEC_SKIP_CNT).tally 0x0072 0xFF 0xFFFFFFFF (leAt b.req 8 4) (leAt b.req 12 4) else s

theorem Dev.batchComplete_eq {s : Dev} {b : Batch} (hb : s.batch = some b) (hl : b.left = []) :
    ∃ table, s.batchComplete = ((Dev.batchWrite { s with batch := none } (reqAsid b.req) (leAt b.req 48 8) table).batchSkip b).batchRecord b.queue
      b.req (b.count 0) (b.count 1) (b.count 2) (b.count 0 == 0 && b.count 1 != 0).toNat 0 := by
  refine ⟨(sortBy (fun (e : Nat × Nat × List Byte) => (e.1 : Int)) b.results).flatMap fun e => e.2.2, ?_⟩
  unfold batchComplete
  rw [hb]
  dsimp only
  rw [hl]
  rfl

theorem Dev.batchSkip_count {s : Dev} {b : Batch} (h0 : b.count 0 = 0) (h1 : b.count 1 ≠ 0) :
    (s.batchSkip b).rd .DEC_SKIP_CNT = satSucc 32 (s.rd .DEC_SKIP_CNT) := by
  have hskip : (b.count 0 == 0 && b.count 1 != 0) = true := by simp [h0, h1]
  rw [batchSkip, if_pos hskip, Dev.tally_rd _ _ _ _ _ _ _ _ (by decide) (by decide)]
  exact Dev.rd_count ..

theorem completes_batchComplete {s : State} {b : Batch} (hb : s.batch = some b) (hl : b.left = []) :
    Completes .batchComplete s fun t =>
      t.batch = none ∧
      (b.count 0 = 0 → b.count 1 ≠ 0 → t.rd .DEC_SKIP_CNT = satSucc 32 (s.rd .DEC_SKIP_CNT)) ∧
      KeepsFields s t ((.DEC_SKIP_CNT, 0) :: (.MMU_FAULTQ_CNT_OVF, 0) :: errorFields) ∧
      t.body = { s.body with batch := none, mem := t.mem, sync := t.sync, faultq := t.faultq, tlb := t.tlb } := by
  have hsub : ∀ e ∈ faultFields, e ∈ (.DEC_SKIP_CNT, 0) :: (.MMU_FAULTQ_CNT_OVF, 0) :: errorFields := fun e he => List.mem_cons_of_mem _ he
  have hlog : ∀ e ∈ logFields, e ∈ (.DEC_SKIP_CNT, 0) :: (.MMU_FAULTQ_CNT_OVF, 0) :: errorFields := fun e he =>
    hsub e (List.mem_cons_of_mem _ (List.mem_append_right _ he))
  have hqb : Dev.Quiet Dev.batch := fun _ _ h => (congrArg Dev.batch h :)
  have hnone : Dev.Within [] Dev.butBatch s.toDev { s.toDev with batch := none } := (Dev.Within.refl _ _ _).step rfl rfl rfl rfl
  have hcount : Dev.rd { s.toDev with batch := none } .DEC_SKIP_CNT = s.rd .DEC_SKIP_CNT := rfl
  obtain ⟨table, heff⟩ := Dev.batchComplete_eq hb hl
  have hfree : Dev.batch { s.toDev with batch := none } = none := rfl
  generalize ({ s.toDev with batch := none } : Dev) = u at *
  have hwrite := (Dev.Within.refl faultFields Dev.butBatch u).batchWrite (reqAsid b.req) (leAt b.req 48 8) table (fun _ h => h) Dev.quiet_butBatch
    (fun _ _ => rfl) (fun _ _ => rfl) (fun _ _ => rfl)
  have hwriteBatch := (Dev.Within.refl faultFields Dev.batch u).batchWrite (reqAsid b.req) (leAt b.req 48 8) table (fun _ h => h) hqb
    (fun _ _ => rfl) (fun _ _ => rfl) (fun _ _ => rfl)
  generalize u.batchWrite (reqAsid b.req) (leAt b.req 48 8) table = v at *
  have hskip {α : Type} {m : Dev → α} (hq : Dev.Quiet m) :
      Dev.Within ((.DEC_SKIP_CNT, 0) :: (.MMU_FAULTQ_CNT_OVF, 0) :: errorFields) m v (v.batchSkip b) := by
    unfold Dev.batchSkip
    split
    · exact ((Dev.Within.refl _ _ v).count (by decide) List.mem_cons_self).tally _ _ _ _ _ hlog hq
    · exact .refl _ _ v
  have hskipped := hskip Dev.quiet_butBatch
  have hskippedBatch := hskip hqb
  have hcounted := Dev.batchSkip_count (s := v) (b := b)
  generalize v.batchSkip b = w at *
  have hrecord {α : Type} {m : Dev → α} (hq : Dev.Quiet m) (hmem : ∀ d x, m { d with mem := x } = m d)
      (htlb : ∀ d x, m { d with tlb := x } = m d) (hf : ∀ d x, m { d with faultq := x } = m d) (hs : ∀ d x, m { d with sync := x } = m d) :=
    (Dev.Within.refl faultFields m w).batchRecord b.queue b.req (b.count 0) (b.count 1) (b.count 2) (b.count 0 == 0 && b.count 1 != 0).toNat 0
      (fun _ h => h) hq hmem htlb hf hs
  have hrecorded := hrecord Dev.quiet_butBatch (fun _ _ => rfl) (fun _ _ => rfl) (fun _ _ => rfl) (fun _ _ => rfl)
  have hrecordedBatch := hrecord hqb (fun _ _ => rfl) (fun _ _ => rfl) (fun _ _ => rfl) (fun _ _ => rfl)
  generalize w.batchRecord b.queue b.req (b.count 0) (b.count 1) (b.count 2) (b.count 0 == 0 && b.count 1 != 0).toNat 0 = t at *
  have hall := (hnone.mono (by simp)).trans ((hwrite.mono hsub).trans (hskipped.trans (hrecorded.mono hsub)))
  have hbatch : t.batch = none := (hrecordedBatch.same.trans (hskippedBatch.same.trans hwriteBatch.same) :).trans hfree
  refine .of_effect (exec_batchComplete s) rfl heff ⟨?_, fun h0 h1 => ?_, hall.kept, ?_⟩
  · rw [Dev.notify_batch]; exact hbatch
  · rw [Dev.notify_rd, hrecorded.rd (by decide) (by decide), hcounted h0 h1, hwrite.rd (by decide) (by decide), hcount]
  · rw [Dev.notify_body, Dev.notify_mem, Dev.notify_sync, Dev.notify_faultq, Dev.notify_tlb]
    refine (Dev.body_of_butBatch hall.same).trans ?_
    rw [hbatch]

/-! ### Validation -/

theorem Dev.Within.setOd {α : Type} {l : List (Field × Nat)} {m : Dev → α} {s t : Dev} (h : Within l m s t) (index sub n : Nat)
    (hm : ∀ d x, m { d with od := x } = m d) : Within l m s (t.setOd index sub n) := h.step rfl rfl rfl (hm t.rest _)

/-- The replay job of a slot. -/
def Dev.replayOf (s : Dev) (k : Nat) : Nat := ((s.slot k).image.map fun i => i.replay).getD 0

/-- The checks of a validation have ended with a status. -/
def Dev.checked (s : Dev) (x : Nat) : Dev := (s.setOd 0x7100 5 x).status stOk

/-- The replay job has entered queue 8. -/
def Dev.replayed (s : Dev) (k t : Nat) : Dev :=
  { (s.countMod .JOB_Q_TAIL 8).setOd 0x7100 4 1 with validating := some (k, t), posted := s.posted ++ [(s.replayOf k, 8)] }

theorem Dev.runReplay_eq (s : Dev) (k t : Nat) : s.runReplay k t = s.replayed k t := by
  unfold runReplay replayed replayOf
  cases (s.slot k).image <;> rfl

theorem Dev.validationStart_eq {s : Dev} {port : Port} (hw : mayWrite rwRwRR port = true) (hfree : s.validating = none) :
    s.validationStart port 1 =
      let x := s.validationCheck (s.odNum 0x7100 1 0) (s.odNum 0x7100 2 0)
      if x = 1 then (s.checked x).replayed (s.odNum 0x7100 1 0) (s.odNum 0x7100 2 0) else s.checked x := by
  unfold validationStart
  simp only [hw, hfree, Bool.not_true, Bool.false_eq_true, if_false, ne_eq, not_true_eq_false, Option.isSome_none]
  rw [runReplay_eq]
  rfl

/-- What the module holds beside what a validation changes when it starts. -/
def Dev.butValidation (s : Dev) : Dev := { s with od := [], svc := {}, validating := none, posted := [] }

theorem Dev.rest_of_butValidation {s t : Dev} (h : t.rest.butValidation = s.rest.butValidation) :
    t.rest = { s.rest with od := t.od, svc := t.svc, validating := t.validating, posted := t.posted } :=
  (congrArg (fun d : Dev => { d with od := t.od, svc := t.svc, validating := t.validating, posted := t.posted }) h :)

theorem Dev.checked_within (s : Dev) (x : Nat) {α : Type} {m : Dev → α} (hod : ∀ d x, m { d with od := x } = m d)
    (hsvc : ∀ d x, m { d with svc := x } = m d) : Within [] m s (s.checked x) :=
  ((Within.refl [] m s).setOd _ _ _ hod).step rfl rfl rfl (hsvc (s.setOd 0x7100 5 x).rest _)

theorem Dev.replayed_within (s : Dev) (k t : Nat) : Within [(.JOB_Q_TAIL, 8)] butValidation s (s.replayed k t) := by
  have h : Within [(.JOB_Q_TAIL, 8)] butValidation s ((s.countMod .JOB_Q_TAIL 8).setOd 0x7100 4 1) :=
    ((Within.refl _ _ s).countMod (by decide) (by simp)).setOd _ _ _ fun _ _ => rfl
  exact h.step rfl rfl rfl rfl

theorem Dev.replayed_reads (s : Dev) (k t : Nat) :
    (s.replayed k t).odNum 0x7100 5 0 = s.odNum 0x7100 5 0 ∧ (s.replayed k t).svc = s.svc ∧
      (s.replayed k t).rd .JOB_Q_TAIL 8 = wrap 16 (s.rd .JOB_Q_TAIL 8 + 1) := by
  refine ⟨?_, ?_, ?_⟩
  · have hod : s.odNum 0x7100 5 0 = (s.countMod .JOB_Q_TAIL 8).odNum 0x7100 5 0 := (Dev.wr_odNum s .JOB_Q_TAIL 8 (s.rd .JOB_Q_TAIL 8 + 1) ..).symm
    exact ((s.countMod .JOB_Q_TAIL 8).odNum_setOd_ne 1 0 (by decide)).trans hod.symm
  · exact (Dev.wr_svc s .JOB_Q_TAIL 8 (s.rd .JOB_Q_TAIL 8 + 1) :)
  · exact Dev.rd_wr ..

theorem completes_validationStart {s : State} {port : Port} (ha : s.answers port = true) (hrec : s.power ≠ .recovery)
    (hw : mayWrite rwRwRR port = true) (hfree : s.validating = none) :
    Completes (.validationStart port 1) s fun t =>
      let x := s.validationCheck (s.odNum 0x7100 1 0) (s.odNum 0x7100 2 0)
      t.odNum 0x7100 5 0 = x ∧ t.svc.lastStatus = stOk ∧
      t.validating = (if x = 1 then some (s.odNum 0x7100 1 0, s.odNum 0x7100 2 0) else none) ∧
      t.posted = (if x = 1 then s.posted ++ [(((s.slot (s.odNum 0x7100 1 0)).image.map fun i => i.replay).getD 0, 8)] else s.posted) ∧
      t.rd .JOB_Q_TAIL 8 = (if x = 1 then wrap 16 (s.rd .JOB_Q_TAIL 8 + 1) else s.rd .JOB_Q_TAIL 8) ∧
      KeepsFields s t [(.JOB_Q_TAIL, 8)] ∧
      t.rest = { s.rest with od := t.od, svc := t.svc, validating := t.validating, posted := t.posted } := by
  have heff : (s.toDev.served port 0x7100 4 fun d => d.validationStart port 1) = _ :=
    (Dev.served_of_answers _ _ _ ha hrec).trans (Dev.validationStart_eq hw hfree)
  dsimp only at heff ⊢
  generalize s.validationCheck (s.odNum 0x7100 1 0) (s.odNum 0x7100 2 0) = x at *
  have hchecked := s.toDev.checked_within x (m := Dev.butValidation) (fun _ _ => rfl) (fun _ _ => rfl)
  have hod : (s.toDev.checked x).odNum 0x7100 5 0 = x := Dev.odNum_setOd_same ..
  have hstatus : (s.toDev.checked x).svc.lastStatus = stOk := rfl
  have hval : (s.toDev.checked x).validating = none := hfree
  have hposted : (s.toDev.checked x).posted = s.posted := rfl
  have hreplay : (s.toDev.checked x).replayOf (s.odNum 0x7100 1 0) = s.replayOf (s.odNum 0x7100 1 0) := rfl
  generalize s.toDev.checked x = u at *
  by_cases hx : x = 1
  · rw [if_pos hx] at heff
    simp only [if_pos hx]
    obtain ⟨hread, hsvc, htail⟩ := u.replayed_reads (s.odNum 0x7100 1 0) (s.odNum 0x7100 2 0)
    have hall := (hchecked.mono (k := [(.JOB_Q_TAIL, 8)]) (by simp)).trans (u.replayed_within (s.odNum 0x7100 1 0) (s.odNum 0x7100 2 0))
    have hvalidating : (u.replayed (s.odNum 0x7100 1 0) (s.odNum 0x7100 2 0)).validating = some (s.odNum 0x7100 1 0, s.odNum 0x7100 2 0) := rfl
    have hjobs : (u.replayed (s.odNum 0x7100 1 0) (s.odNum 0x7100 2 0)).posted = u.posted ++ [(u.replayOf (s.odNum 0x7100 1 0), 8)] := rfl
    generalize u.replayed (s.odNum 0x7100 1 0) (s.odNum 0x7100 2 0) = t at *
    refine .of_effect (exec_validationStart ..) rfl heff ⟨?_, ?_, ?_, ?_, ?_, hall.kept, ?_⟩
    · rw [Dev.notify_odNum, hread, hod]
    · rw [Dev.notify_svc, hsvc, hstatus]
    · rw [Dev.notify_validating, hvalidating]
    · rw [Dev.notify_posted, hjobs, hposted, hreplay]; rfl
    · rw [Dev.notify_rd, htail, hchecked.rd (by decide) (by simp)]
    · rw [Dev.notify_rest, Dev.notify_od, Dev.notify_svc, Dev.notify_validating, Dev.notify_posted]
      exact Dev.rest_of_butValidation hall.same
  · rw [if_neg hx] at heff
    simp only [if_neg hx]
    refine .of_effect (exec_validationStart ..) rfl heff ⟨?_, ?_, ?_, ?_, ?_, (hchecked.mono (by simp)).kept, ?_⟩
    · rw [Dev.notify_odNum, hod]
    · rw [Dev.notify_svc, hstatus]
    · rw [Dev.notify_validating, hval]
    · rw [Dev.notify_posted, hposted]
    · rw [Dev.notify_rd, hchecked.rd (by decide) (by simp)]
    · rw [Dev.notify_rest, Dev.notify_od, Dev.notify_svc, Dev.notify_validating, Dev.notify_posted]
      exact Dev.rest_of_butValidation hchecked.same

theorem completes_validationComplete_fixed {s : State} {samples : List ValSample} (h : s.flag .GLB_MODE_FIXED = true) :
    Completes (.validationComplete samples) s fun t => KeepsFields s t [] ∧ t.rest = s.rest := by
  have heff : s.toDev.validationComplete samples = s.toDev := by
    unfold Dev.validationComplete
    split
    · rfl
    · rw [if_pos (.inl h)]
  by_cases hwf : (Instr.validationComplete samples).wf = true
  · exact .of_effect (exec_validationComplete ..) hwf heff ⟨(Dev.Within.refl [] id _).kept, Dev.notify_rest ..⟩
  · refine ⟨s, ?_, fun _ _ _ _ => rfl, rfl⟩
    rw [exec_validationComplete, State.run, if_neg hwf]

/-- The results of a validation are in the dictionary, and none is under way. -/
def Dev.validated (s : Dev) (n agree false_ st : Nat) : Dev :=
  { (((((s.setOd 0x7100 6 n).setOd 0x7100 7 agree).setOd 0x7100 8 false_).setOd 0x7100 4 0).setOd 0x7100 5 st) with validating := none }

/-- The target slot becomes a copy of the source slot with the new weights. -/
def Dev.replaceSlot (s : Dev) (k t : Nat) : Dev :=
  s.setSlot t { s.slot k with st := 2, posted := false, weights := some (s.odNum 0x7100 3 0) }

theorem Dev.validationComplete_eq {s : Dev} {samples : List ValSample} {k t : Nat} (hfix : s.flag .GLB_MODE_FIXED = false)
    (hv : s.validating = some (k, t)) (hl : samples.map (fun x => x.index) = s.heldOut) :
    s.validationComplete samples =
      let st := if !s.accepts samples then 3 else if (s.slot t).st ≠ 0 then 5 else 2
      let u := s.validated samples.length (s.agreements samples) (s.falsePasses samples) st
      if st = 2 then u.replaceSlot k t else u := by
  have hgo : ¬(s.flag .GLB_MODE_FIXED = true ∨ samples.map (fun x => x.index) ≠ s.heldOut) := by simp [hfix, hl]
  unfold validationComplete
  rw [hv]
  dsimp only
  rw [if_neg hgo]
  rfl

theorem Dev.validated_reads (s : Dev) (n agree false_ st : Nat) :
    let u := s.validated n agree false_ st
    u.odNum 0x7100 6 0 = n ∧ u.odNum 0x7100 7 0 = agree ∧ u.odNum 0x7100 8 0 = false_ ∧ u.odNum 0x7100 5 0 = st ∧
      u.odNum 0x7100 3 0 = s.odNum 0x7100 3 0 := by
  have hlast (i : Nat) : (s.validated n agree false_ st).odNum 0x7100 i 0 =
      (((((s.setOd 0x7100 6 n).setOd 0x7100 7 agree).setOd 0x7100 8 false_).setOd 0x7100 4 0).setOd 0x7100 5 st).odNum 0x7100 i 0 := rfl
  refine ⟨?_, ?_, ?_, ?_, ?_⟩
  all_goals rw [hlast]
  · rw [odNum_setOd_ne _ _ _ (by decide), odNum_setOd_ne _ _ _ (by decide), odNum_setOd_ne _ _ _ (by decide), odNum_setOd_ne _ _ _ (by decide), odNum_setOd_same]
  · rw [odNum_setOd_ne _ _ _ (by decide), odNum_setOd_ne _ _ _ (by decide), odNum_setOd_ne _ _ _ (by decide), odNum_setOd_same]
  · rw [odNum_setOd_ne _ _ _ (by decide), odNum_setOd_ne _ _ _ (by decide), odNum_setOd_same]
  · rw [odNum_setOd_same]
  · rw [odNum_setOd_ne _ _ _ (by decide), odNum_setOd_ne _ _ _ (by decide), odNum_setOd_ne _ _ _ (by decide), odNum_setOd_ne _ _ _ (by decide),
      odNum_setOd_ne _ _ _ (by decide)]

/-- What the module holds beside what a validation changes when it ends. -/
def Dev.butValidated (s : Dev) : Dev := { s with od := [], slots := [], validating := none }

theorem Dev.rest_of_butValidated {s t : Dev} (h : t.rest.butValidated = s.rest.butValidated) :
    t.rest = { s.rest with od := t.od, slots := t.slots, validating := t.validating } :=
  (congrArg (fun d : Dev => { d with od := t.od, slots := t.slots, validating := t.validating }) h :)

theorem Dev.validated_within (s : Dev) (n agree false_ st : Nat) : Within [] butValidated s (s.validated n agree false_ st) := by
  have hod {t : Dev} (h : Within [] butValidated s t) (sub n : Nat) : Within [] butValidated s (t.setOd 0x7100 sub n) := h.setOd _ _ _ fun _ _ => rfl
  have h := hod (hod (hod (hod (hod (.refl [] _ s) 6 n) 7 agree) 8 false_) 4 0) 5 st
  unfold validated
  generalize ((((s.setOd 0x7100 6 n).setOd 0x7100 7 agree).setOd 0x7100 8 false_).setOd 0x7100 4 0).setOd 0x7100 5 st = t at h ⊢
  exact h.step rfl rfl rfl rfl

theorem Dev.replaceSlot_slot (s : Dev) (k t : Nat) :
    (s.replaceSlot k t).slot t = { s.slot k with st := 2, posted := false, weights := some (s.odNum 0x7100 3 0) } := by
  simp only [replaceSlot, slot, setSlot, tabGet_set_same]

theorem completes_validationComplete {s : State} {samples : List ValSample} {src dst : Nat} (hfix : s.flag .GLB_MODE_FIXED = false)
    (hv : s.validating = some (src, dst)) (hl : samples.map (fun x => x.index) = s.heldOut)
    (hbytes : (samples.all fun x => decide (x.verdict < 256)) = true) :
    Completes (.validationComplete samples) s fun t =>
      t.validating = none ∧ t.odNum 0x7100 6 0 = samples.length ∧ t.odNum 0x7100 7 0 = s.agreements samples ∧
      t.odNum 0x7100 8 0 = s.falsePasses samples ∧
      (s.accepts samples = false → t.odNum 0x7100 5 0 = 3 ∧ t.slots = s.slots) ∧
      (s.accepts samples = true → (s.slot dst).st = 0 → t.odNum 0x7100 5 0 = 2 ∧ (t.slot dst).st = 2 ∧
      (t.slot dst).image = (s.slot src).image ∧
        (t.slot dst).weights = some (s.odNum 0x7100 3 0)) ∧
      KeepsFields s t [] ∧ t.rest = { s.rest with od := t.od, slots := t.slots, validating := none } := by
  have heff := Dev.validationComplete_eq hfix hv hl
  dsimp only at heff
  generalize hst : (if !s.accepts samples then 3 else if (s.slot dst).st ≠ 0 then 5 else 2) = st at heff
  obtain ⟨hn, hagree, hfalse, hstatus, hweights⟩ := s.validated_reads samples.length (s.agreements samples) (s.falsePasses samples) st
  have hwithin := s.validated_within samples.length (s.agreements samples) (s.falsePasses samples) st
  have hnone : (s.validated samples.length (s.agreements samples) (s.falsePasses samples) st).validating = none := rfl
  have hslots : (s.validated samples.length (s.agreements samples) (s.falsePasses samples) st).slots = s.slots := rfl
  generalize s.validated samples.length (s.agreements samples) (s.falsePasses samples) st = u at *
  have hsource : u.slot src = s.slot src := by rw [Dev.slot, hslots]; rfl
  by_cases h2 : st = 2
  · have haccepts : s.accepts samples = true := by
      cases hno : s.accepts samples
      · rw [hno] at hst
        exact absurd (show (3 : Nat) = 2 from hst.trans h2) (by decide)
      · rfl
    rw [if_pos h2] at heff
    have hall : Dev.Within [] Dev.butValidated s.toDev (u.replaceSlot src dst) := hwithin.setSlot _ _ fun _ _ => rfl
    have hread (i : Nat) : (u.replaceSlot src dst).odNum 0x7100 i 0 = u.odNum 0x7100 i 0 := rfl
    have hvalidating : (u.replaceSlot src dst).validating = u.validating := rfl
    have htarget := u.replaceSlot_slot src dst
    generalize u.replaceSlot src dst = t at *
    refine .of_effect (exec_validationComplete ..) (by simpa [Instr.wf, fitsU] using hbytes) heff
      ⟨?_, ?_, ?_, ?_, fun hno => ?_, fun _ _ => ⟨?_, ?_, ?_, ?_⟩, hall.kept, ?_⟩
    · rw [Dev.notify_validating, hvalidating, hnone]
    · rw [Dev.notify_odNum, hread, hn]
    · rw [Dev.notify_odNum, hread, hagree]
    · rw [Dev.notify_odNum, hread, hfalse]
    · exact Bool.noConfusion (hno.symm.trans haccepts)
    · rw [Dev.notify_odNum, hread, hstatus, h2]
    · rw [Dev.notify_slot, htarget]
    · rw [Dev.notify_slot, htarget, hsource]
    · rw [Dev.notify_slot, htarget, hweights]
    · rw [Dev.notify_rest, Dev.notify_od, Dev.notify_slots]
      refine (Dev.rest_of_butValidated hall.same).trans ?_
      rw [hvalidating, hnone]
  · rw [if_neg h2] at heff
    refine .of_effect (exec_validationComplete ..) (by simpa [Instr.wf, fitsU] using hbytes) heff
      ⟨?_, ?_, ?_, ?_, fun hno => ⟨?_, ?_⟩, fun hyes hempty => ?_, hwithin.kept, ?_⟩
    · rw [Dev.notify_validating, hnone]
    · rw [Dev.notify_odNum, hn]
    · rw [Dev.notify_odNum, hagree]
    · rw [Dev.notify_odNum, hfalse]
    · rw [Dev.notify_odNum, hstatus, ← hst, hno]
      rfl
    · rw [Dev.notify_slots, hslots]
    · exact absurd (by rw [← hst, hyes, hempty]; rfl) h2
    · rw [Dev.notify_rest, Dev.notify_od, Dev.notify_slots]
      refine (Dev.rest_of_butValidated hwithin.same).trans ?_
      rw [hnone]

/-- Settles O49: each command is the branch of its function that the clause's premises select, and the frames follow from what the writes of
a batch and the results of a validation can change. -/
theorem batchesAndValidation : Obligations.BatchesAndValidation := by
  intro s q r b slot src dst samples port
  refine ⟨fun hfree hready hturn => fun hread hcode htable hrecord => ?_, completes_sampleDecodeDone, completes_batchComplete, ?_,
    completes_validationStart, completes_validationComplete_fixed, completes_validationComplete⟩
  · exact completes_batchRequest hfree hready hturn hread hcode htable hrecord
  · have hwithin : Dev.Within [] (fun _ => ()) s.toDev { s.toDev with capUsed := 0 } := (Dev.Within.refl _ _ _).step rfl rfl rfl rfl
    refine .of_effect (exec_decoderCapWindow s) rfl rfl ⟨?_, hwithin.kept, ?_⟩
    · rw [Dev.notify_capUsed]
    · rw [Dev.notify_rest]; rfl

end Sys2Proof.Machine
end

section
/-! Invalidation, the fault queue, and the host's aperture to Vat (R157, R166, R167, R174). -/

namespace Sys2Proof.Machine

open Sys2Proof

theorem exec_mmuInvalidate (scope asid : Nat) (s : State) :
    exec (.mmuInvalidate scope asid) s = s.run (.mmuInvalidate scope asid) fun d => d.mmuInvalidate scope asid := rfl

theorem exec_invalidateDone (s : State) : exec .invalidateDone s = s.run .invalidateDone fun d => d.invalidateDone := rfl

theorem exec_faultqPop (s : State) : exec .faultqPop s = s.run .faultqPop fun d => d.faultqPop := rfl

theorem exec_hostApertureAccess (bar2 : Bool) (ofs : Nat) (write : Option (List Byte)) (n : Nat) (e : MemEvent) (s : State) :
    exec (.hostApertureAccess bar2 ofs write n e) s =
      s.run (.hostApertureAccess bar2 ofs write n e) fun d => d.hostAperture bar2 ofs write n e := rfl

/-! ### Invalidation -/

/-- The fields of an invalidation's command. -/
def Dev.invalidationNamed (s : Dev) (scope asid : Nat) : Dev :=
  ((s.wr .MMU_INV_CMD_SCOPE 0 scope).wr .MMU_INV_CMD_ASID 0 asid).setFlag .MMU_INV_STAT_DONE 0 false

theorem Dev.invalidationNamed_reads (s : Dev) {scope asid : Nat} (hscope : scope < 4) (hasid : asid < 16) :
    let t := s.invalidationNamed scope asid
    Within [(.MMU_INV_STAT_DONE, 0), (.MMU_INV_CMD_SCOPE, 0), (.MMU_INV_CMD_ASID, 0)] id s t ∧ t.flag .MMU_INV_STAT_DONE = false ∧
      t.rd .MMU_INV_CMD_SCOPE = scope ∧ t.rd .MMU_INV_CMD_ASID = asid := by
  refine ⟨(((Within.refl _ _ s).wr scope (by decide) (by simp)).wr asid (by decide) (by simp)).setFlag false (by decide) (by simp),
    Dev.flag_wr_toNat _ _ 0 false (by decide), ?_, ?_⟩
  · unfold invalidationNamed
    rw [setFlag_eq, Dev.rd_wr_field _ _ _ _ _ _ (by decide) (by decide) (by decide),
      Dev.rd_wr_field _ _ _ _ _ _ (by decide) (by decide) (by decide), Dev.rd_wr]
    exact wrap_of_lt hscope
  · unfold invalidationNamed
    rw [setFlag_eq, Dev.rd_wr_field _ _ _ _ _ _ (by decide) (by decide) (by decide), Dev.rd_wr]
    exact wrap_of_lt hasid

theorem Dev.mmuInvalidate_eq (s : Dev) {scope asid : Nat} (h : scope < 3) :
    s.mmuInvalidate scope asid = { s.invalidationNamed scope asid with invals := s.invals ++ [(scope, asid, s.rd .MMU_INV_ADDR)] } := by
  have haddr : ((s.wr .MMU_INV_CMD_SCOPE 0 scope).wr .MMU_INV_CMD_ASID 0 asid).rd .MMU_INV_ADDR = s.rd .MMU_INV_ADDR := by
    rw [Dev.rd_wr_field _ _ _ _ _ _ (by decide) (by decide) (by decide), Dev.rd_wr_field _ _ _ _ _ _ (by decide) (by decide) (by decide)]
  unfold mmuInvalidate
  dsimp only
  rw [if_neg (by omega), haddr]
  simp only [Dev.wr_invals]
  rfl

theorem completes_mmuInvalidate (s : State) (scope : Fin 3) (asid : Fin 16) :
    Completes (.mmuInvalidate scope asid) s fun t =>
      t.flag .MMU_INV_STAT_DONE = false ∧ t.rd .MMU_INV_CMD_SCOPE = scope ∧ t.rd .MMU_INV_CMD_ASID = asid ∧
      KeepsFields s t [(.MMU_INV_STAT_DONE, 0), (.MMU_INV_CMD_SCOPE, 0), (.MMU_INV_CMD_ASID, 0)] ∧
      t.rest = { s.rest with invals := s.invals ++ [((scope : Nat), (asid : Nat), s.rd .MMU_INV_ADDR)] } := by
  obtain ⟨hnamed, hdone, hscope, hasid⟩ := s.toDev.invalidationNamed_reads (show (scope : Nat) < 4 by omega) asid.isLt
  have heff := s.toDev.mmuInvalidate_eq (asid := asid) scope.isLt
  generalize s.toDev.invalidationNamed scope asid = u at *
  generalize s.invals ++ [((scope : Nat), (asid : Nat), s.rd .MMU_INV_ADDR)] = named at *
  have hwithin : Dev.Within [(.MMU_INV_STAT_DONE, 0), (.MMU_INV_CMD_SCOPE, 0), (.MMU_INV_CMD_ASID, 0)] (fun _ => ()) s.toDev
      { u with invals := named } := ⟨hnamed.fields.trans (.of_regs rfl rfl rfl), rfl⟩
  have hwf : (Instr.mmuInvalidate scope asid).wf = true := by
    simp only [Instr.wf, fitsU, Bool.and_eq_true, decide_eq_true_eq]; omega
  refine .of_effect (exec_mmuInvalidate ..) hwf heff ⟨?_, ?_, ?_, hwithin.kept, ?_⟩
  · rw [Dev.notify_flag]; exact hdone
  · rw [Dev.notify_rd]; exact hscope
  · rw [Dev.notify_rd]; exact hasid
  · rw [Dev.notify_rest]
    exact (congrArg (fun d : Dev => { d with invals := named }) hnamed.same :)

theorem completes_invalidateDone (s : State) (x : Cached) :
    Completes .invalidateDone s fun t =>
      t.flag .MMU_INV_STAT_DONE = true ∧ (x ∈ t.tlb ↔ x ∈ s.tlb ∧ ∀ i ∈ s.invals, x.hit i = false) ∧
      KeepsFields s t [(.MMU_INV_STAT_DONE, 0)] ∧ t.rest = { s.rest with tlb := t.tlb, invals := [] } := by
  have heff : s.toDev.invalidateDone = { s.setFlag .MMU_INV_STAT_DONE 0 true with
    tlb := s.tlb.filter fun e => !s.invals.any fun i => e.hit i, invals := [] } := rfl
  have hkeep : x ∈ (s.tlb.filter fun e => !s.invals.any fun i => e.hit i) ↔ x ∈ s.tlb ∧ ∀ i ∈ s.invals, x.hit i = false := by
    simp [List.mem_filter]
  generalize (s.tlb.filter fun e => !s.invals.any fun i => e.hit i) = kept at *
  have hset : Dev.Within [(.MMU_INV_STAT_DONE, 0)] id s.toDev (s.setFlag .MMU_INV_STAT_DONE 0 true) :=
    (Dev.Within.refl _ _ _).setFlag true (by decide) (by simp)
  have hdone : (s.setFlag .MMU_INV_STAT_DONE 0 true).flag .MMU_INV_STAT_DONE = true := s.toDev.flag_wr_toNat _ 0 true (by decide)
  generalize s.setFlag .MMU_INV_STAT_DONE 0 true = u at *
  have hwithin : Dev.Within [(.MMU_INV_STAT_DONE, 0)] (fun _ => ()) s.toDev { u with tlb := kept, invals := [] } :=
    ⟨hset.fields.trans (.of_regs rfl rfl rfl), rfl⟩
  refine .of_effect (exec_invalidateDone s) rfl heff ⟨?_, ?_, hwithin.kept, ?_⟩
  · rw [Dev.notify_flag]; exact hdone
  · rw [Dev.notify_tlb]; exact hkeep
  · rw [Dev.notify_rest, Dev.notify_tlb]
    exact (congrArg (fun d : Dev => { d with tlb := kept, invals := [] }) hset.same :)

/-! ### The fault queue -/

/-- A record kept with a saved context joins the queue, or nothing happens. -/
theorem Dev.postAttached_cases (s : Dev) :
    s.postAttached = s ∨ ∃ r x, s.postAttached = { s with faultq := s.faultq ++ [r], saves := x } := by
  unfold postAttached
  split
  · exact .inl rfl
  · split
    · split
      · exact .inr ⟨_, _, rfl⟩
      · exact .inl rfl
    · exact .inl rfl

/-- The record kept with the context of the lowest slot is the first to join. -/
theorem Dev.postAttached_lowest {s : Dev} {v : Saved} {e : List Byte} (hv : tabFind? s.saves 0 = some v) (he : v.record = some e) :
    s.postAttached.faultq = s.faultq ++ [e] := by
  have hlist : upTo 41 = 0 :: rangeFrom 1 40 := rfl
  unfold postAttached
  split
  · rename_i hnone
    have h := List.find?_eq_none.1 hnone 0 (mem_upTo.2 (by omega))
    simp [hv, he] at h
  · rename_i k hfind
    rw [hlist, List.find?_cons_of_pos (by simp [hv, he])] at hfind
    cases hfind
    simp [hv, he]

theorem completes_faultqPop {s : State} {r : List Byte} {l : List (List Byte)} (h : s.faultq = r :: l) (v : Saved) (e : List Byte) :
    Completes .faultqPop s fun t =>
      l <+: t.faultq ∧ t.faultq.length ≤ s.faultq.length ∧
      (tabFind? s.saves 0 = some v → v.record = some e → t.faultq = l ++ [e]) ∧
      KeepsFields s t [] ∧ t.rest = { s.rest with faultq := t.faultq, saves := t.saves } := by
  have heff : s.toDev.faultqPop = Dev.postAttached { s.toDev with faultq := l } := by
    unfold Dev.faultqPop
    rw [h]
  have hlowest : tabFind? s.saves 0 = some v → v.record = some e → (Dev.postAttached { s.toDev with faultq := l }).faultq = l ++ [e] :=
    fun hv he => Dev.postAttached_lowest hv he
  have hcases : l <+: (Dev.postAttached { s.toDev with faultq := l }).faultq ∧
      (Dev.postAttached { s.toDev with faultq := l }).faultq.length ≤ l.length + 1 ∧
      Dev.Within [] (fun _ => ()) s.toDev (Dev.postAttached { s.toDev with faultq := l }) ∧
      (Dev.postAttached { s.toDev with faultq := l }).rest = { s.rest with
        faultq := (Dev.postAttached { s.toDev with faultq := l }).faultq, saves := (Dev.postAttached { s.toDev with faultq := l }).saves } := by
    rcases Dev.postAttached_cases { s.toDev with faultq := l } with hp | ⟨r', x, hp⟩ <;> rw [hp]
    · exact ⟨List.prefix_refl l, by simp, (Dev.Within.refl _ _ _).step rfl rfl rfl rfl, rfl⟩
    · exact ⟨List.prefix_append l _, by simp, (Dev.Within.refl _ _ _).step rfl rfl rfl rfl, rfl⟩
  obtain ⟨hprefix, hlength, hwithin, hrest⟩ := hcases
  generalize Dev.postAttached { s.toDev with faultq := l } = t at *
  refine .of_effect (exec_faultqPop s) rfl heff ⟨?_, ?_, fun hv he => ?_, hwithin.kept, ?_⟩
  · rw [Dev.notify_faultq]; exact hprefix
  · rw [Dev.notify_faultq, h]; exact hlength
  · rw [Dev.notify_faultq]; exact hlowest hv he
  · rw [Dev.notify_rest, Dev.notify_faultq, Dev.notify_saves]; exact hrest

/-! ### The aperture to Vat -/

theorem Dev.apertureDpa_vat (s : Dev) {ofs : Nat} (h : ofs < vatSize) : s.apertureDpa true ofs = some ofs := if_pos h

theorem Dev.apertureDpa_above (s : Dev) {ofs : Nat} (h : vatSize ≤ ofs) : s.apertureDpa true ofs = none := by
  simpa [apertureDpa] using h

/-- A write through the aperture that stays in Vat is a write of those bytes. -/
theorem Dev.aperturePut_vat (s : Dev) (ofs : Nat) (bs : List Byte) (h : ofs + bs.length ≤ vatSize) :
    s.aperturePut true ofs bs = s.putBytes ofs bs := by
  induction bs generalizing s ofs with
  | nil => rfl
  | cons b bs ih =>
    rw [List.length_cons] at h
    rw [aperturePut, s.apertureDpa_vat (by omega), putBytes]
    exact ih _ _ (by omega)

@[simp] theorem length_rangeFrom (a n : Nat) : (rangeFrom a n).length = n := by
  induction n generalizing a with
  | zero => rfl
  | succ n ih => rw [rangeFrom, List.length_cons, ih]

/-- Bytes that read one by one as a list does are read as the list. -/
theorem Dev.bytesAt_of_byteAt {s : Dev} {a : Nat} {bs : List Byte} (h : ∀ i (hi : i < bs.length), s.byteAt (a + i) = bs[i]) :
    s.bytesAt a bs.length = bs := by
  induction bs generalizing a with
  | nil => rfl
  | cons b bs ih =>
    have hhead : s.byteAt a = b := h 0 (by simp)
    have htail : s.bytesAt (a + 1) bs.length = bs := ih fun i hi => by
      have := h (i + 1) (by simpa using hi)
      rwa [← Nat.add_assoc, Nat.add_right_comm] at this
    exact congrArg₂ List.cons hhead htail

/-- Bytes that exist read as they were written. -/
theorem Dev.bytesAt_putBytes (s : Dev) (a : Nat) (bs : List Byte) (h : ∀ i < bs.length, dpaOk (a + i) = true) :
    (s.putBytes a bs).bytesAt a bs.length = bs :=
  bytesAt_of_byteAt fun i hi => s.byteAt_putBytes_in a bs i hi (h i hi)

theorem dpaOk_vat {a : Nat} (h : a < vatSize) : dpaOk a = true := by
  simp [dpaOk, inVat, h]

/-- What an access through the aperture to Vat does where it meets nothing. -/
theorem Dev.hostAperture_clean {s : Dev} (hup : s.pcieUp = true) (ofs : Nat) (write : Option (List Byte)) (n : Nat) :
    s.hostAperture true ofs write n .clean = match write with
      | some bs => s.aperturePut true ofs bs
      | none => s.send (.barRead ((rangeFrom ofs n).map fun k => s.apertureByte true k)) := by
  unfold hostAperture
  cases write <;> simp [hup, Dev.meet, MemEvent.ok]

/-- A read through the aperture of what an uncorrectable error strikes gives all ones, and the error is the host's (requester 19). -/
theorem Dev.hostAperture_struck {s : Dev} (hup : s.pcieUp = true) {ofs : Nat} (h : ofs < vatSize) (n : Nat) :
    s.hostAperture true ofs none n (.uncorrectable true) = (s.uncorrectable ofs 19 true).send (.barRead (List.replicate n 0xFF)) := by
  unfold hostAperture
  simp [hup, s.apertureDpa_vat h, Dev.meet, MemEvent.ok]

theorem completes_apertureRead {s : State} (hup : s.pcieUp = true) {ofs n : Nat} (h : ofs + n ≤ 2 ^ 29) {bs : List Byte}
    (hbs : ((rangeFrom ofs n).map fun k => s.apertureByte true k) = bs) :
    Completes (.hostApertureAccess true ofs none n .clean) s fun t =>
      Out.barRead bs ∈ t.out ∧ KeepsFields s t [] ∧ t.rest = s.rest := by
  have heff : s.toDev.hostAperture true ofs none n .clean = s.send (.barRead bs) := by
    rw [Dev.hostAperture_clean hup, ← hbs]
  have hwf : (Instr.hostApertureAccess true ofs none n .clean).wf = true := by simpa [Instr.wf] using h
  have hwithin : Dev.Within [] id s.toDev (s.send (.barRead bs)) := (Dev.Within.refl _ _ _).send _
  exact .of_effect (exec_hostApertureAccess ..) hwf heff
    ⟨Dev.mem_out_notify (s.mem_out_send _), hwithin.kept, (Dev.notify_rest ..).trans hwithin.same⟩

theorem completes_apertureWrite {s : State} (hup : s.pcieUp = true) {ofs : Nat} {bs : List Byte} (h : ofs + bs.length ≤ vatSize) :
    Completes (.hostApertureAccess true ofs (some bs) bs.length .clean) s fun t =>
      t.bytesAt ofs bs.length = bs ∧ KeepsBytes s t ofs bs.length ∧ KeepsFields s t [] ∧ t.rest = { s.rest with mem := t.mem } := by
  have heff : s.toDev.hostAperture true ofs (some bs) bs.length .clean = s.putBytes ofs bs := by
    rw [Dev.hostAperture_clean hup]
    exact s.toDev.aperturePut_vat ofs bs h
  have hwf : (Instr.hostApertureAccess true ofs (some bs) bs.length .clean).wf = true := by
    unfold vatSize at h
    simp only [Instr.wf, if_true, decide_true, Bool.and_true, decide_eq_true_eq]
    omega
  have hwithin : Dev.Within [] (fun d : Dev => { d with mem := [] }) s.toDev (s.putBytes ofs bs) := (Dev.Within.refl _ _ _).putBytes _ _ fun _ _ => rfl
  have hbyte (k : Nat) : ((s.putBytes ofs bs).notify s.toDev).byteAt k = (s.putBytes ofs bs).byteAt k := by
    rw [Dev.byteAt, Dev.notify_mem]; rfl
  have hread : ((s.putBytes ofs bs).notify s.toDev).bytesAt ofs bs.length = (s.putBytes ofs bs).bytesAt ofs bs.length := by
    rw [Dev.bytesAt, funext hbyte]; rfl
  refine .of_effect (exec_hostApertureAccess ..) hwf heff ⟨?_, fun k hk => ?_, hwithin.kept, ?_⟩
  · rw [hread]
    exact s.toDev.bytesAt_putBytes ofs bs fun i hi => dpaOk_vat (by omega)
  · rw [hbyte]
    exact s.toDev.byteAt_putBytes_out ofs bs hk
  · rw [Dev.notify_rest, Dev.notify_mem]
    exact (congrArg (fun d : Dev => { d with mem := (s.putBytes ofs bs).mem }) hwithin.same :)

theorem completes_apertureStruck {s : State} (hup : s.pcieUp = true) {ofs n : Nat} (h : ofs + n ≤ 2 ^ 29) (hvat : ofs < vatSize) :
    Completes (.hostApertureAccess true ofs none n (.uncorrectable true)) s fun t =>
      Out.barRead (List.replicate n 0xFF) ∈ t.out ∧ t.rd .MEM_UE_ADDR = ofs ∧ t.rd .MEM_UE_SRC = 19 ∧
      t.flag .MEM_ECC_STAT_VUE = true ∧ KeepsFields s t vatErrorFields ∧ t.body = s.body := by
  have hplace : inLpddr ofs = false ∧ ofs < 2 ^ 64 := by
    unfold vatSize at hvat
    unfold inLpddr lpddrBase
    exact ⟨decide_eq_false (by omega), by omega⟩
  obtain ⟨hwithin, hsrc, haddr, hflag⟩ := s.toDev.uncorrectable_reads (src := 19) hplace.1 (by decide) hplace.2
  have heff := Dev.hostAperture_struck hup hvat n
  generalize s.toDev.uncorrectable ofs 19 true = u at *
  have hall := hwithin.send (.barRead (List.replicate n 0xFF))
  have hwf : (Instr.hostApertureAccess true ofs none n (.uncorrectable true)).wf = true := by simpa [Instr.wf] using h
  refine .of_effect (exec_hostApertureAccess ..) hwf heff ⟨Dev.mem_out_notify (u.mem_out_send _), ?_, ?_, ?_, hall.kept, ?_⟩
  · rw [Dev.notify_rd]; exact haddr
  · rw [Dev.notify_rd]; exact hsrc
  · rw [Dev.notify_flag]; exact hflag
  · rw [Dev.notify_body]; exact hall.body_eq

/-- Settles O33: an invalidation clears its flag until it completes and filters the caches; a pop takes the oldest record and lets a kept one in;
and the aperture to Vat reads and writes the bytes it reaches. -/
theorem invalidationFaultQueueAndAperture : Obligations.InvalidationFaultQueueAndAperture := by
  intro s asid scope r e l v ofs n bs x
  refine ⟨completes_mmuInvalidate s scope asid, completes_invalidateDone s x, fun hnil => ?_, fun h => completes_faultqPop h v e,
    fun hup => ⟨fun h => ?_, completes_apertureWrite hup, fun hout h => ?_, completes_apertureStruck hup⟩⟩
  · have heff : s.toDev.faultqPop = s.toDev := by
      unfold Dev.faultqPop
      rw [hnil]
    exact .of_effect (exec_faultqPop s) rfl heff ⟨(Dev.Within.refl [] id _).kept, Dev.notify_rest ..⟩
  · refine completes_apertureRead hup (by unfold vatSize at h; omega) (List.map_congr_left fun k hk => ?_)
    rw [Dev.apertureByte, s.toDev.apertureDpa_vat (by have := (mem_rangeFrom.1 hk).2; omega)]
  · refine completes_apertureRead hup h (List.eq_replicate_iff.2 ⟨?_, fun b hb => ?_⟩)
    · rw [List.length_map, length_rangeFrom]
    · obtain ⟨k, hk, rfl⟩ := List.mem_map.1 hb
      rw [Dev.apertureByte, s.toDev.apertureDpa_above (by have := (mem_rangeFrom.1 hk).1; omega)]

end Sys2Proof.Machine
end

section
/-! The time base, PTP and the Ethernet ports (R338 to R352). -/

namespace Sys2Proof.Machine

open Sys2Proof

theorem exec_timeStep (src : Source) (step : Int) (s : State) :
    exec (.timeStep src step) s = s.run (.timeStep src step) fun d => d.timeStep src step := rfl

theorem exec_timeRateWrite (src : Source) (rate : Int) (s : State) :
    exec (.timeRateWrite src rate) s = s.run (.timeRateWrite src rate) fun d => d.timeRateWrite src rate := rfl

theorem exec_txqPop (src : Source) (s : State) : exec (.txqPop src) s = s.run (.txqPop src) fun d => d.txqPop src := rfl

theorem exec_timNsRead (s : State) : exec .timNsRead s = s.run .timNsRead fun d => d.timNsRead := rfl

theorem exec_ptpMessage (m : PtpMsg) (s : State) : exec (.ptpMessage m) s = s.run (.ptpMessage m) fun d => d.ptpMessage m := rfl

theorem exec_ptpGeneralMessage (m : PtpMsg) (p : Option Nat) (s : State) :
    exec (.ptpGeneralMessage m p) s = s.run (.ptpGeneralMessage m p) fun d => d.ptpGeneralMessage m p := rfl

theorem exec_announceTimeout (s : State) : exec .announceTimeout s = s.run .announceTimeout fun d => d.announceTimeout := rfl

theorem exec_servoHandover (port : Port) (v : Bool) (s : State) :
    exec (.servoHandover port v) s = s.run (.servoHandover port v) fun d => d.served port 0x6000 7 fun d => d.servoHandover port v := rfl

theorem exec_ethLinkLoss (p : Fin 3) (s : State) : exec (.ethLinkLoss p) s = s.run (.ethLinkLoss p) fun d => d.ethLinkLoss p := rfl

theorem exec_ethLinkUp (p : Fin 3) (s : State) : exec (.ethLinkUp p) s = s.run (.ethLinkUp p) fun d => d.ethLinkUp p := rfl

theorem exec_ttoEnable (port : Port) (t : Fin 8) (s : State) :
    exec (.ttoEnable port t) s = s.run (.ttoEnable port t) fun d => d.served port 0x6200 1 fun d => d.ttoEnable port t := rfl

theorem exec_ttoEdge (t : Fin 8) (s : State) : exec (.ttoEdge t) s = s.run (.ttoEdge t) fun d => d.ttoEdge t := rfl

theorem exec_ttoWidthExpiry (t : Fin 8) (s : State) : exec (.ttoWidthExpiry t) s = s.run (.ttoWidthExpiry t) fun d => d.ttoWidthExpiry t := rfl

/-! ### Two's complement -/

/-- A number that fits a signed word is the value of its word. -/
theorem sgn_unsgn {w : Nat} {z : Int} (hw : 0 < w) (hlo : -(2 ^ (w - 1) : Nat) ≤ z) (hhi : z < (2 ^ (w - 1) : Nat)) : sgn w (unsgn w z) = z := by
  obtain ⟨k, rfl⟩ : ∃ k, w = k + 1 := ⟨w - 1, by omega⟩
  have hpow : 2 ^ (k + 1) = 2 * 2 ^ k := by rw [Nat.pow_succ, Nat.mul_comm]
  simp only [Nat.add_sub_cancel] at hlo hhi
  unfold sgn unsgn
  rw [Nat.add_sub_cancel, hpow]
  generalize 2 ^ k = p at *
  rcases lt_or_ge z 0 with hneg | hpos
  · have hmod : z % ((2 * p : Nat) : Int) = z + (2 * p : Nat) := by
      rw [← Int.add_emod_right]
      exact Int.emod_eq_of_lt (by omega) (by omega)
    rw [hmod, Nat.mod_eq_of_lt (by omega), if_neg (by omega)]
    omega
  · rw [Int.emod_eq_of_lt hpos (by omega), Nat.mod_eq_of_lt (by omega), if_pos (by omega)]
    omega

theorem unsgn_lt (w : Nat) (z : Int) : unsgn w z < 2 ^ w := by
  have h : (0 : Int) < (2 ^ w : Nat) := by exact_mod_cast Nat.two_pow_pos w
  have := Int.emod_lt_of_pos z h
  unfold unsgn
  omega

/-! ### Steps -/

theorem Dev.Within.skipEdges {α : Type} {m : Dev → α} {s t : Dev} {l : List (Field × Nat)} {k : Nat} (h : Within l m s t) (hk : k < 1024)
    (hl : (.TIM_TTO_STAT_MISSED, k) ∈ l ∧ (.TIM_TTO_SKIP_COUNT, k) ∈ l) (hm : ∀ d x, m { d with ttos := x } = m d) :
    Within l m s (t.skipEdges k) := by
  have hset (e : Tto) : Within l m s (t.setTto k e) := h.step rfl rfl rfl (hm t.rest _)
  unfold Dev.skipEdges
  split
  · exact h
  · split
    · exact h
    · split
      · exact (hset _).setFlag true hk hl.1
      · exact (hset _).wr _ hk hl.2

/-- What a step that is accepted leaves alone beside the device time. -/
def Dev.stepSafe (s : Dev) : Nat × List Host.Cell × List Part := (s.timeU, s.mem, s.parts)

/-- A step has been applied, and the edges that it passes are still to be skipped. -/
def Dev.stepped (s : Dev) (step : Int) : Dev :=
  (((s.moveUnits (step * (nsUnits : Nat))).countMod .TIM_STAT_SGEN).setFlag .TIM_STAT_STEPPED 0 true).setFlag .TIM_STAT_TSET 0 true

/-- The fields that the edges which a step passes change. -/
def skipFields : List (Field × Nat) := (upTo 8).flatMap fun t => [(.TIM_TTO_STAT_MISSED, t), (.TIM_TTO_SKIP_COUNT, t)]

theorem Dev.acceptStep_within (s : Dev) (step : Int) {α : Type} {m : Dev → α} (hm : ∀ d x, m { d with ttos := x } = m d) :
    Within skipFields m (s.stepped step) (s.acceptStep step) := by
  have heq : s.acceptStep step = (rangeFrom 0 8).foldl (fun (d : Dev) t => d.skipEdges t) (s.stepped step) := rfl
  rw [heq]
  refine .foldl _ (.refl _ _ _) fun d t ht => ?_
  have ht8 : t < 8 := by simpa using (mem_rangeFrom.1 ht).2
  refine (Within.refl _ m d).skipEdges (by omega) ⟨?_, ?_⟩ hm <;> simp [skipFields, mem_upTo, ht8]

theorem Dev.stepped_reads (s : Dev) (step : Int) :
    ((s.stepped step).timeU : Int) = ((s.timeU : Int) + step * 2048000000000) % (2 ^ 64 * 2048000000000 : Nat) ∧
      (s.stepped step).mem = s.mem ∧ (s.stepped step).parts = s.parts ∧ (s.stepped step).flag .TIM_STAT_STEPPED = true ∧
      (s.stepped step).flag .TIM_STAT_TSET = true ∧ (s.stepped step).rd .TIM_STAT_SGEN = wrap 2 (s.rd .TIM_STAT_SGEN + 1) := by
  have hflags : Within [(.TIM_STAT_STEPPED, 0), (.TIM_STAT_TSET, 0)] (fun _ => ())
      ((s.moveUnits (step * (nsUnits : Nat))).countMod .TIM_STAT_SGEN) (s.stepped step) :=
    ((Within.refl _ _ _).setFlag true (by decide) (by simp)).setFlag true (by decide) (by simp)
  have htime : (s.stepped step).timeU = (s.moveUnits (step * (nsUnits : Nat))).timeU := by
    simp only [stepped, setFlag_eq, countMod_eq, Dev.wr_timeU]
  refine ⟨?_, ?_, ?_, ?_, ?_, ?_⟩
  · rw [htime, moveUnits]
    exact Int.toNat_of_nonneg (Int.emod_nonneg _ (by decide))
  · simp only [stepped, setFlag_eq, countMod_eq, Dev.wr_mem]
    rfl
  · simp only [stepped, setFlag_eq, countMod_eq, Dev.wr_parts]
    rfl
  · have h : Within [(.TIM_STAT_TSET, 0)] (fun _ => ())
        (((s.moveUnits (step * (nsUnits : Nat))).countMod .TIM_STAT_SGEN).setFlag .TIM_STAT_STEPPED 0 true) (s.stepped step) :=
      (Within.refl _ _ _).setFlag true (by decide) (by simp)
    rw [h.flag (by decide) (by simp)]
    exact Dev.flag_wr_toNat _ _ 0 true (by decide)
  · exact Dev.flag_wr_toNat _ _ 0 true (by decide)
  · rw [hflags.rd (by decide) (by simp)]
    exact Dev.rd_wr ..

theorem completes_timeStep_accepted {s : State} {step : Int} (hlo : -(2 ^ 63) ≤ step) (hhi : step < 2 ^ 63) (hok : s.stepAllowed step = true) :
    Completes (.timeStep s.servoOwner step) s fun t =>
      (t.timeU : Int) = ((s.timeU : Int) + step * 2048000000000) % (2 ^ 64 * 2048000000000 : Nat) ∧ t.flag .TIM_STAT_STEPPED = true ∧
      t.flag .TIM_STAT_TSET = true ∧ t.rd .TIM_STAT_SGEN = wrap 2 (s.rd .TIM_STAT_SGEN + 1) ∧ t.flag .TIM_CTL_OVR = false ∧
      t.mem = s.mem ∧ t.parts = s.parts := by
  have heff : s.toDev.timeStep s.servoOwner step = (s.toDev.acceptStep step).clearOverride := by
    unfold Dev.timeStep
    rw [if_neg (by simp), if_pos hok]
  obtain ⟨htime, hmem, hparts, hstepped, hset, hgen⟩ := s.toDev.stepped_reads step
  have hskip := s.toDev.acceptStep_within step (m := Dev.stepSafe) fun _ _ => rfl
  generalize s.toDev.stepped step = u at *
  generalize s.toDev.acceptStep step = w at *
  have hclear : Dev.Within [(.TIM_CTL_OVR, 0)] Dev.stepSafe w w.clearOverride :=
    ((Dev.Within.refl _ _ w).setFlag false (by decide) (by simp)).setOd _ _ _ fun _ _ => rfl
  have hovr : w.clearOverride.flag .TIM_CTL_OVR = false := w.flag_wr_toNat _ 0 false (by decide)
  have hsafe : w.clearOverride.stepSafe = u.stepSafe := (hclear.same.trans hskip.same :)
  have hflag {f : Field} (hf : (f, 0) ∉ skipFields) (hf' : f ≠ .TIM_CTL_OVR) : w.clearOverride.rd f 0 = u.rd f 0 :=
    (hclear.rd (by decide) (by simp [hf'])).trans (hskip.rd (by decide) hf)
  refine .of_effect (exec_timeStep ..) (by simp only [Instr.wf, decide_eq_true_eq]; exact ⟨hlo, hhi⟩) heff ⟨?_, ?_, ?_, ?_, ?_, ?_, ?_⟩
  · have hsame : w.clearOverride.timeU = u.timeU := (congrArg (fun x : Nat × List Host.Cell × List Part => x.1) hsafe :)
    rw [Dev.notify_timeU, hsame, htime]
  · rw [Dev.notify_flag, Dev.flag, hflag (by decide) (by decide)]; exact hstepped
  · rw [Dev.notify_flag, Dev.flag, hflag (by decide) (by decide)]; exact hset
  · rw [Dev.notify_rd, hflag (by decide) (by decide)]; exact hgen
  · rw [Dev.notify_flag]; exact hovr
  · rw [Dev.notify_mem]; exact (congrArg (fun x : Nat × List Host.Cell × List Part => x.2.1) hsafe :).trans hmem
  · rw [Dev.notify_parts]; exact (congrArg (fun x : Nat × List Host.Cell × List Part => x.2.2) hsafe :).trans hparts

/-- A step that is refused: its flag and its Tally event. -/
def Dev.refused (s : Dev) (step : Int) : Dev := (s.setFlag .TIM_STAT_STEPREF 0 true).tally 0x0070 0xFF 0xFFFFFFFF (unsgn 64 step)

/-- The fields that a refused step changes. -/
def refusedFields : List (Field × Nat) := [(.TIM_STAT_STEPREF, 0), (.TIM_RATE, 0)] ++ logFields

theorem Dev.quiet_body : Quiet body := fun d e h => by simpa using h

theorem Dev.quiet_timeU : Quiet Dev.timeU := fun _ _ h => (congrArg Dev.timeU h :)

theorem Dev.refuseStep_reads (s : Dev) (step : Int) :
    Within refusedFields body s (s.refuseStep step) ∧ (s.refuseStep step).flag .TIM_STAT_STEPREF = true := by
  have hset : Within refusedFields body s (s.setFlag .TIM_STAT_STEPREF 0 true) := (Within.refl _ _ s).setFlag true (by decide) (by simp [refusedFields])
  have hflag : (s.setFlag .TIM_STAT_STEPREF 0 true).flag .TIM_STAT_STEPREF = true := s.flag_wr_toNat _ 0 true (by decide)
  unfold refuseStep
  generalize s.setFlag .TIM_STAT_STEPREF 0 true = u at hset hflag ⊢
  have hlog : Within logFields body u (u.tally 0x0070 0xFF 0xFFFFFFFF (unsgn 64 step)) :=
    (Within.refl _ _ u).tally _ _ _ _ _ (fun _ h => h) quiet_body
  dsimp only
  generalize u.tally 0x0070 0xFF 0xFFFFFFFF (unsgn 64 step) = v at hlog ⊢
  have hv : Within refusedFields body s v := hset.trans (hlog.mono fun _ h => List.mem_append_right _ h)
  have hvflag : v.flag .TIM_STAT_STEPREF = true := (hlog.flag (by decide) (by decide)).trans hflag
  split
  · refine ⟨hv.wr _ (by decide) (by simp [refusedFields]), ?_⟩
    rw [Dev.flag, Dev.rd_wr_field _ _ _ _ _ _ (by decide) (by decide) (by decide)]
    exact hvflag
  · exact ⟨hv, hvflag⟩

theorem completes_timeStep_refused {s : State} {step : Int} (hlo : -(2 ^ 63) ≤ step) (hhi : step < 2 ^ 63) (hno : s.stepAllowed step = false) :
    Completes (.timeStep s.servoOwner step) s fun t =>
      t.timeU = s.timeU ∧ t.flag .TIM_STAT_STEPREF = true ∧ KeepsFields s t ([(.TIM_STAT_STEPREF, 0), (.TIM_RATE, 0)] ++ logFields) ∧
      t.body = s.body := by
  have heff : s.toDev.timeStep s.servoOwner step = s.toDev.refuseStep step := by
    unfold Dev.timeStep
    rw [if_neg (by simp), if_neg (by simp [hno])]
  obtain ⟨hwithin, hflag⟩ := s.toDev.refuseStep_reads step
  generalize s.toDev.refuseStep step = u at *
  refine .of_effect (exec_timeStep ..) (by simp only [Instr.wf, decide_eq_true_eq]; exact ⟨hlo, hhi⟩) heff ⟨?_, ?_, hwithin.kept, ?_⟩
  · rw [Dev.notify_timeU]; exact (congrArg Dev.timeU hwithin.body_eq :)
  · rw [Dev.notify_flag]; exact hflag
  · rw [Dev.notify_body]; exact hwithin.body_eq

/-! ### Rates, the latch of device time and the queue of transmit stamps -/

theorem Dev.rate_wr (s : Dev) {rate : Int} (hlo : -(2 ^ 31) ≤ rate) (hhi : rate < 2 ^ 31) : (s.wr .TIM_RATE 0 (unsgn 32 rate)).rate = rate := by
  rw [Dev.rate, Dev.rd_wr]
  exact (congrArg (sgn 32) (wrap_of_lt (unsgn_lt 32 rate))).trans (sgn_unsgn (by decide) hlo hhi)

theorem completes_timeRateWrite {s : State} {rate : Int} (hlo : -512000000 ≤ rate) (hhi : rate ≤ 512000000) :
    Completes (.timeRateWrite s.servoOwner rate) s fun t => t.rate = rate ∧ KeepsFields s t [(.TIM_RATE, 0)] ∧ t.rest = s.rest := by
  have heff : s.toDev.timeRateWrite s.servoOwner rate = s.wr .TIM_RATE 0 (unsgn 32 rate) := by
    unfold Dev.timeRateWrite
    rw [if_neg (by simp), if_pos ⟨hlo, hhi⟩]
  have hwithin : Dev.Within [(.TIM_RATE, 0)] id s.toDev (s.wr .TIM_RATE 0 (unsgn 32 rate)) := (Dev.Within.refl _ _ _).wr _ (by decide) (by simp)
  have hrate := s.toDev.rate_wr (rate := rate) (by omega) (by omega)
  refine .of_effect (exec_timeRateWrite ..) (by simp only [Instr.wf, decide_eq_true_eq]; omega) heff
    ⟨?_, hwithin.kept, (Dev.notify_rest ..).trans hwithin.same⟩
  rw [Dev.rate, Dev.notify_rd]; exact hrate

theorem completes_timeRateWrite_other {s : State} {src : Source} {rate : Int} (hsrc : src ≠ s.servoOwner) (hlo : -(2 ^ 31) ≤ rate)
    (hhi : rate < 2 ^ 31) :
    Completes (.timeRateWrite src rate) s fun t =>
      t.flag .GLB_ERR_STAT_OWNERR = true ∧ KeepsFields s t [(.GLB_ERR_STAT_OWNERR, 0), (.GLB_OWNERR_CNT, 0)] ∧ t.rest = s.rest := by
  have heff : s.toDev.timeRateWrite src rate = s.toDev.ownerError := by
    unfold Dev.timeRateWrite
    rw [if_pos hsrc]
  obtain ⟨hwithin, hflag, -⟩ := s.toDev.ownerError_reads
  refine .of_effect (exec_timeRateWrite ..) (by simp only [Instr.wf, decide_eq_true_eq]; exact ⟨hlo, hhi⟩) heff
    ⟨?_, hwithin.kept, (Dev.notify_rest ..).trans hwithin.same⟩
  rw [Dev.notify_flag]; exact hflag

theorem completes_txqPop (s : State) :
    Completes (.txqPop s.servoOwner) s fun t => t.tb.txq = s.tb.txq.drop 1 ∧ KeepsFields s t [] ∧ t.rest = { s.rest with tb := t.tb } := by
  have heff : s.toDev.txqPop s.servoOwner = { s.toDev with tb := { s.tb with txq := s.tb.txq.drop 1 } } := by
    unfold Dev.txqPop
    rw [if_neg (by simp)]
  have hwithin : Dev.Within [] (fun _ => ()) s.toDev { s.toDev with tb := { s.tb with txq := s.tb.txq.drop 1 } } :=
    (Dev.Within.refl _ _ _).step rfl rfl rfl rfl
  refine .of_effect (exec_txqPop ..) rfl heff ⟨?_, hwithin.kept, ?_⟩
  · rw [Dev.notify_tb]
  · rw [Dev.notify_rest, Dev.notify_tb]; rfl

theorem completes_timNsRead (s : State) :
    Completes .timNsRead s fun t =>
      t.rd .TIM_WRAP = wrap 8 (s.ns40 / 2 ^ 32) ∧ Out.barRead (leBytes s.ns40 4) ∈ t.out ∧ KeepsFields s t [(.TIM_WRAP, 0)] ∧ t.rest = s.rest := by
  have hwithin : Dev.Within [(.TIM_WRAP, 0)] id s.toDev (s.latchWrap.send (.barRead (leBytes s.ns40 4))) :=
    ((Dev.Within.refl _ _ _).wr _ (by decide) (by simp)).send _
  refine .of_effect (exec_timNsRead s) rfl rfl ⟨?_, Dev.mem_out_notify (Dev.mem_out_send _ _), hwithin.kept, (Dev.notify_rest ..).trans hwithin.same⟩
  rw [Dev.notify_rd]
  exact Dev.rd_wr s.toDev .TIM_WRAP 0 (s.ns40 / 2 ^ 32)

/-! ### PTP -/

/-- The transmit stamp of an event message that the port has counted. -/
def Dev.txStamp (s : Dev) (m : PtpMsg) : TxStamp :=
  let stamp := unsgn 72 (s.stamp256 m.port true)
  { seqId := m.seqId, msgType := m.msgType, port := m.port, sgen := (s.useFree.count .ETH_PTP_CNT m.port).rd .TIM_STAT_SGEN,
    time := wrap 40 (stamp / 256), frac := stamp % 256 }

theorem Dev.ptpMessage_tx {s : Dev} {m : PtpMsg} (hport : m.port < 2) (htype : m.msgType < 4) (hon : s.ethOn m.port = true)
    (hlink : s.flag .ETH_STAT_LINK m.port = true) (htx : m.tx = true) :
    s.ptpMessage m = (s.useFree.count .ETH_PTP_CNT m.port).pushStampTx (s.txStamp m) := by
  have hgo : ¬(2 ≤ m.port ∨ 4 ≤ m.msgType ∨ (!s.ethOn m.port) = true ∨ (!s.flag .ETH_STAT_LINK m.port) = true) := by
    rw [hon, hlink]; simp; omega
  unfold ptpMessage txStamp
  rw [if_neg hgo]
  dsimp only
  rw [if_pos htx, htx]

theorem Dev.pushStampTx_room {s : Dev} (h : s.tb.txq.length < 16) (x : TxStamp) :
    s.pushStampTx x = { s with tb := { s.tb with txq := s.tb.txq ++ [x] } } := if_pos h

theorem completes_ptpMessage {s : State} {m : PtpMsg} (hwf : m.wf = true) (hport : m.port < 2) (htype : m.msgType < 4)
    (hon : s.ethOn m.port = true) (hlink : s.flag .ETH_STAT_LINK m.port = true) (htx : m.tx = true) (hroom : s.tb.txq.length < 16) :
    Completes (.ptpMessage m) s fun t =>
      t.rd .ETH_PTP_CNT m.port = satSucc 32 (s.rd .ETH_PTP_CNT m.port) ∧ t.tb.txq.length = s.tb.txq.length + 1 ∧
      KeepsFields s t [(.ETH_PTP_CNT, m.port)] ∧ t.rest = { s.rest with tb := t.tb, free := t.free } := by
  have hidx : m.port < 1024 := by omega
  have heff := Dev.ptpMessage_tx hport htype hon hlink htx
  have hcount : Dev.Within [(.ETH_PTP_CNT, m.port)] (fun d : Dev => { d with free := 0 }) s.toDev (s.useFree.count .ETH_PTP_CNT m.port) :=
    ((Dev.Within.refl _ _ _).useFree fun _ _ => rfl).count hidx (by simp)
  have hcounted : (s.useFree.count .ETH_PTP_CNT m.port).rd .ETH_PTP_CNT m.port = satSucc 32 (s.rd .ETH_PTP_CNT m.port) := Dev.rd_count ..
  have htb : (s.useFree.count .ETH_PTP_CNT m.port).tb = s.tb := (congrArg Dev.tb hcount.same :)
  generalize s.useFree.count .ETH_PTP_CNT m.port = u at *
  rw [Dev.pushStampTx_room (by rw [htb]; exact hroom), htb] at heff
  generalize hq : ({ s.tb with txq := s.tb.txq ++ [s.toDev.txStamp m] } : TimeBase) = tb' at heff
  have hwithin : Dev.Within [(.ETH_PTP_CNT, m.port)] (fun _ => ()) s.toDev { u with tb := tb' } := ⟨hcount.fields.trans (.of_regs rfl rfl rfl), rfl⟩
  refine .of_effect (exec_ptpMessage m s) hwf heff ⟨?_, ?_, hwithin.kept, ?_⟩
  · rw [Dev.notify_rd]; exact hcounted
  · rw [Dev.notify_tb, ← hq]; simp
  · rw [Dev.notify_rest, Dev.notify_tb, Dev.notify_free]
    exact (congrArg (fun d : Dev => { d with tb := tb', free := u.free }) hcount.same :)

theorem Dev.ptpGeneralMessage_selects {s : Dev} {m : PtpMsg} {p : Nat} (hport : s.ptpPort m.port = true) (hon : s.ethOn m.port = true)
    (hlink : s.flag .ETH_STAT_LINK m.port = true) (htx : m.tx = false) (hmaster : s.ptpPort p = true) :
    s.ptpGeneralMessage m (some p) = { s.setFlag .TIM_STAT_HOLD 0 false with tb := { s.tb with parent := some p } } := by
  unfold ptpGeneralMessage
  simp [hport, hon, hlink, htx, hmaster]

theorem completes_ptpGeneralMessage {s : State} {m : PtpMsg} {p : Nat} (hwf : m.wf = true) (hport : s.ptpPort m.port = true)
    (hon : s.ethOn m.port = true) (hlink : s.flag .ETH_STAT_LINK m.port = true) (htx : m.tx = false) (hp : p < 3) (hmaster : s.ptpPort p = true) :
    Completes (.ptpGeneralMessage m (some p)) s fun t =>
      t.flag .TIM_STAT_HOLD = false ∧ t.tb.parent = some p ∧ KeepsFields s t [(.TIM_STAT_HOLD, 0)] ∧ t.rest = { s.rest with tb := t.tb } := by
  have heff := Dev.ptpGeneralMessage_selects hport hon hlink htx hmaster
  have hset : Dev.Within [(.TIM_STAT_HOLD, 0)] id s.toDev (s.setFlag .TIM_STAT_HOLD 0 false) := (Dev.Within.refl _ _ _).setFlag false (by decide) (by simp)
  have hflag : (s.setFlag .TIM_STAT_HOLD 0 false).flag .TIM_STAT_HOLD = false := s.flag_wr_toNat _ 0 false (by decide)
  generalize s.setFlag .TIM_STAT_HOLD 0 false = u at *
  generalize htb : ({ s.tb with parent := some p } : TimeBase) = tb' at heff
  have hwithin : Dev.Within [(.TIM_STAT_HOLD, 0)] (fun _ => ()) s.toDev { u with tb := tb' } := ⟨hset.fields.trans (.of_regs rfl rfl rfl), rfl⟩
  refine .of_effect (exec_ptpGeneralMessage ..) (by rw [Instr.wf, hwf]; exact decide_eq_true hp) heff ⟨?_, ?_, hwithin.kept, ?_⟩
  · rw [Dev.notify_flag]; exact hflag
  · rw [Dev.notify_tb, ← htb]
  · rw [Dev.notify_rest, Dev.notify_tb]
    exact (congrArg (fun d : Dev => { d with tb := tb' }) hset.same :)

theorem completes_announceTimeout {s : State} (h : s.tb.parent ≠ none) :
    Completes .announceTimeout s fun t =>
      t.flag .TIM_STAT_HOLD = true ∧ t.flag .TIM_STAT_LOCKED = false ∧ t.rate = s.rate ∧
      KeepsFields s t [(.TIM_STAT_HOLD, 0), (.TIM_STAT_LOCKED, 0)] ∧ t.rest = { s.rest with tb := t.tb } := by
  have heff : s.toDev.announceTimeout =
      { (s.setFlag .TIM_STAT_HOLD 0 true).setFlag .TIM_STAT_LOCKED 0 false with tb := { s.tb with parent := none } } := by
    unfold Dev.announceTimeout
    rw [if_neg (by simpa using h)]
  have hhold : (s.setFlag .TIM_STAT_HOLD 0 true).flag .TIM_STAT_HOLD = true := s.flag_wr_toNat _ 0 true (by decide)
  have hset : Dev.Within [(.TIM_STAT_HOLD, 0), (.TIM_STAT_LOCKED, 0)] id s.toDev (s.setFlag .TIM_STAT_HOLD 0 true) :=
    (Dev.Within.refl _ _ _).setFlag true (by decide) (by simp)
  generalize s.setFlag .TIM_STAT_HOLD 0 true = u at *
  have hlocked : (u.setFlag .TIM_STAT_LOCKED 0 false).flag .TIM_STAT_LOCKED = false := u.flag_wr_toNat _ 0 false (by decide)
  have hsecond : Dev.Within [(.TIM_STAT_LOCKED, 0)] id u (u.setFlag .TIM_STAT_LOCKED 0 false) := (Dev.Within.refl _ _ _).setFlag false (by decide) (by simp)
  have hheld : (u.setFlag .TIM_STAT_LOCKED 0 false).flag .TIM_STAT_HOLD = true := (hsecond.flag (by decide) (by simp)).trans hhold
  generalize u.setFlag .TIM_STAT_LOCKED 0 false = w at *
  have hall := hset.trans (hsecond.mono (by simp))
  generalize ({ s.tb with parent := none } : TimeBase) = tb' at heff
  have hwithin : Dev.Within [(.TIM_STAT_HOLD, 0), (.TIM_STAT_LOCKED, 0)] (fun _ => ()) s.toDev { w with tb := tb' } :=
    ⟨hall.fields.trans (.of_regs rfl rfl rfl), rfl⟩
  refine .of_effect (exec_announceTimeout s) rfl heff ⟨?_, ?_, ?_, hwithin.kept, ?_⟩
  · rw [Dev.notify_flag]; exact hheld
  · rw [Dev.notify_flag]; exact hlocked
  · rw [Dev.rate, Dev.notify_rd]
    exact congrArg (sgn 32) (hall.rd (by decide) (by simp))
  · rw [Dev.notify_rest, Dev.notify_tb]
    exact (congrArg (fun d : Dev => { d with tb := tb' }) hall.same :)

/-! ### The servo's owner and the Ethernet links -/

/-- A write of one flag that a dictionary entry serves, with its status. -/
theorem completes_setFlag_status {c : Instr} {s : State} {g : Dev → Dev} (h : exec c s = s.run c g) (hw : c.wf = true) {f : Field} {i : Nat} {v : Bool}
    {n : Nat} {u : Dev} (hu : g s.toDev = u.status n) (hset : u.rest = { s.rest with svc := u.svc })
    (hfields : Dev.FieldsKept [(f, i)] s.toDev u) (hflag : u.flag f i = v) :
    Completes c s fun t =>
      t.flag f i = v ∧ t.svc.lastStatus = n ∧ KeepsFields s t [(f, i)] ∧ t.rest = { s.rest with svc := t.svc } := by
  refine .of_effect h hw hu ⟨?_, ?_, keepsFields_of (hfields.trans (.of_regs rfl rfl rfl)), ?_⟩
  · rw [Dev.notify_flag, Dev.status_flag]; exact hflag
  · rw [Dev.notify_svc]; rfl
  · rw [Dev.notify_rest, Dev.notify_svc]
    exact (congrArg (fun d : Dev => { d with svc := (u.status n).svc }) hset :)

theorem completes_servoHandover {s : State} {port : Port} (v : Bool) (ha : s.answers port = true) (hrec : s.power ≠ .recovery)
    (hw : mayWrite rwRRNo port = true) :
    Completes (.servoHandover port v) s fun t =>
      t.flag .TIM_CTL_HOSTSERVO = v ∧ t.rate = s.rate ∧ KeepsFields s t [(.TIM_CTL_HOSTSERVO, 0)] ∧ t.rest = { s.rest with svc := t.svc } := by
  have heff : (s.toDev.served port 0x6000 7 fun d => d.servoHandover port v) = (s.handServo v).status stOk := by
    rw [Dev.served_of_answers _ _ _ ha hrec, Dev.servoHandover, hw]
    rfl
  have hset : Dev.Within [(.TIM_CTL_HOSTSERVO, 0)] id s.toDev (s.setFlag .TIM_CTL_HOSTSERVO 0 v) := (Dev.Within.refl _ _ _).setFlag v (by decide) (by simp)
  have hflag : (s.setFlag .TIM_CTL_HOSTSERVO 0 v).flag .TIM_CTL_HOSTSERVO = v := s.flag_wr_toNat _ 0 v (by decide)
  have hhand : s.handServo v = { s.setFlag .TIM_CTL_HOSTSERVO 0 v with svc := { (s.setFlag .TIM_CTL_HOSTSERVO 0 v).svc with evtCount := 0 } } := by
    unfold Dev.handServo
    simp only [Dev.setFlag_eq, Dev.wr_svc]
  rw [hhand] at heff
  generalize s.setFlag .TIM_CTL_HOSTSERVO 0 v = u at *
  obtain ⟨t, hexec, htflag, -, hkept, hrest⟩ := completes_setFlag_status (exec_servoHandover ..) rfl (f := .TIM_CTL_HOSTSERVO) (i := 0) (v := v)
    heff (congrArg (fun d : Dev => { d with svc := { u.svc with evtCount := 0 } }) hset.same :)
    (hset.fields.trans (.of_regs rfl rfl rfl)) hflag
  exact ⟨t, hexec, htflag, congrArg (sgn 32) (hkept .TIM_RATE 0 (by decide) (by decide)), hkept, hrest⟩

theorem completes_ethLinkLoss {s : State} {e : Fin 3} (h : s.flag .ETH_STAT_LINK e = true) :
    Completes (.ethLinkLoss e) s fun t =>
      t.flag .ETH_STAT_LINK e = false ∧ t.flag .ETH_STAT_LINKDOWN e = true ∧
      KeepsFields s t [(.ETH_STAT_LINK, e), (.ETH_STAT_LINKDOWN, e)] ∧ t.rest = s.rest := by
  have he : (e : Nat) < 1024 := by omega
  have heff : s.toDev.ethLinkLoss e = (s.setFlag .ETH_STAT_LINK e false).setFlag .ETH_STAT_LINKDOWN e true := if_pos h
  have hwithin : Dev.Within [(.ETH_STAT_LINK, (e : Nat)), (.ETH_STAT_LINKDOWN, (e : Nat))] id s.toDev
      ((s.setFlag .ETH_STAT_LINK e false).setFlag .ETH_STAT_LINKDOWN e true) :=
    ((Dev.Within.refl _ _ _).setFlag false he (by simp)).setFlag true he (by simp)
  refine .of_effect (exec_ethLinkLoss ..) rfl heff ⟨?_, ?_, hwithin.kept, (Dev.notify_rest ..).trans hwithin.same⟩
  · rw [Dev.notify_flag, Dev.setFlag_eq, Dev.flag, Dev.rd_wr_field _ _ _ _ _ _ he he (by decide)]
    exact s.toDev.flag_wr_toNat .ETH_STAT_LINK e false (by decide)
  · rw [Dev.notify_flag]; exact Dev.flag_wr_toNat _ .ETH_STAT_LINKDOWN e true (by decide)

theorem completes_ethLinkUp {s : State} {e : Fin 3} (h : s.ethOn e = true) :
    Completes (.ethLinkUp e) s fun t => t.flag .ETH_STAT_LINK e = true ∧ KeepsFields s t [(.ETH_STAT_LINK, e)] ∧ t.rest = s.rest := by
  have he : (e : Nat) < 1024 := by omega
  have heff : s.toDev.ethLinkUp e = s.setFlag .ETH_STAT_LINK e true := if_pos h
  have hwithin : Dev.Within [(.ETH_STAT_LINK, (e : Nat))] id s.toDev (s.setFlag .ETH_STAT_LINK e true) :=
    (Dev.Within.refl _ _ _).setFlag true he (by simp)
  refine .of_effect (exec_ethLinkUp ..) rfl heff ⟨?_, hwithin.kept, (Dev.notify_rest ..).trans hwithin.same⟩
  rw [Dev.notify_flag]; exact s.toDev.flag_wr_toNat .ETH_STAT_LINK e true (by decide)

/-! ### Time-triggered outputs -/

@[simp] theorem Dev.tto_setTto_same (s : Dev) (t : Nat) (e : Tto) : (s.setTto t e).tto t = e := by
  simp only [tto, setTto, tabGet_set_same]

theorem completes_ttoEnable_bad {s : State} {port : Port} {o : Fin 8} (ha : s.answers port = true) (hrec : s.power ≠ .recovery)
    (hw : mayWrite rwRwRR port = true) (hbad : s.ttoBad o = true) :
    Completes (.ttoEnable port o) s fun t =>
      t.flag .TIM_TTO_STAT_CFGERR o = true ∧ t.svc.lastStatus = stRange ∧ KeepsFields s t [(.TIM_TTO_STAT_CFGERR, o)] ∧
      t.rest = { s.rest with svc := t.svc } := by
  have ho : (o : Nat) < 1024 := by omega
  have heff : (s.toDev.served port 0x6200 1 fun d => d.ttoEnable port o) = (s.setFlag .TIM_TTO_STAT_CFGERR o true).status stRange := by
    rw [Dev.served_of_answers _ _ _ ha hrec, Dev.ttoEnable, hw, if_neg (by decide), if_pos hbad]
  have hset : Dev.Within [(.TIM_TTO_STAT_CFGERR, (o : Nat))] id s.toDev (s.setFlag .TIM_TTO_STAT_CFGERR o true) :=
    (Dev.Within.refl _ _ _).setFlag true ho (by simp)
  exact completes_setFlag_status (exec_ttoEnable ..) rfl heff
    (hset.same.trans (congrArg (fun d : Dev => { d with svc := d.svc }) hset.same.symm :)) hset.fields (s.toDev.flag_wr_toNat _ o true (by decide))

/-- An output whose first edge device time has not passed is enabled at that edge. -/
theorem Dev.startTto_eq {s : Dev} {o : Nat} (h : s.fullNs ≤ s.odNum (0x6200 + o) 2 0) :
    s.startTto o = (s.setFlag .TIM_TTO_CTL_EN o true).setTto o { s.tto o with next := some (s.odNum (0x6200 + o) 2 0) } := by
  have hnow : ((s.setFlag .TIM_TTO_CTL_EN o true).setTto o { s.tto o with next := some (s.odNum (0x6200 + o) 2 0) }).fullNs = s.fullNs := by
    rw [fullNs, fullNs, setTto, setFlag_eq, wr_timeU]
  unfold startTto skipEdges
  rw [tto_setTto_same]
  dsimp only
  rw [hnow, if_pos h]

theorem completes_ttoEnable_good {s : State} {port : Port} {o : Fin 8} (ha : s.answers port = true) (hrec : s.power ≠ .recovery)
    (hw : mayWrite rwRwRR port = true) (hgood : s.ttoBad o = false) (hnow : s.fullNs ≤ s.odNum (0x6200 + o) 2 0) :
    Completes (.ttoEnable port o) s fun t =>
      t.flag .TIM_TTO_CTL_EN o = true ∧ (t.tto o).next = some (s.odNum (0x6200 + o) 2 0) ∧ t.svc.lastStatus = stOk ∧
      KeepsFields s t [(.TIM_TTO_CTL_EN, o)] ∧ t.rest = { s.rest with ttos := t.ttos, svc := t.svc } := by
  have ho : (o : Nat) < 1024 := by omega
  have heff : (s.toDev.served port 0x6200 1 fun d => d.ttoEnable port o) = (s.startTto o).status stOk := by
    rw [Dev.served_of_answers _ _ _ ha hrec, Dev.ttoEnable, hw, if_neg (by decide), if_neg (by simp [hgood])]
  rw [Dev.startTto_eq hnow] at heff
  have hset : Dev.Within [(.TIM_TTO_CTL_EN, (o : Nat))] id s.toDev (s.setFlag .TIM_TTO_CTL_EN o true) :=
    (Dev.Within.refl _ _ _).setFlag true ho (by simp)
  have hflag : (s.setFlag .TIM_TTO_CTL_EN o true).flag .TIM_TTO_CTL_EN o = true := s.toDev.flag_wr_toNat _ o true (by decide)
  generalize s.setFlag .TIM_TTO_CTL_EN o true = u at *
  have hnext := u.tto_setTto_same o { s.tto o with next := some (s.odNum (0x6200 + o) 2 0) }
  have hwithin : Dev.Within [(.TIM_TTO_CTL_EN, (o : Nat))] (fun d : Dev => { d with ttos := [] }) s.toDev
      (u.setTto o { s.tto o with next := some (s.odNum (0x6200 + o) 2 0) }) :=
    ⟨hset.fields.trans (.of_regs rfl rfl rfl), (congrArg (fun d : Dev => { d with ttos := [] }) hset.same :)⟩
  have hon : (u.setTto o { s.tto o with next := some (s.odNum (0x6200 + o) 2 0) }).flag .TIM_TTO_CTL_EN o = true := hflag
  generalize u.setTto o { s.tto o with next := some (s.odNum (0x6200 + o) 2 0) } = w at *
  have hstatus : (w.status stOk).tto o = w.tto o := rfl
  refine .of_effect (exec_ttoEnable ..) rfl heff ⟨?_, ?_, ?_, keepsFields_of (hwithin.fields.trans (.of_regs rfl rfl rfl)), ?_⟩
  · rw [Dev.notify_flag, Dev.status_flag]; exact hon
  · rw [Dev.notify_tto, hstatus, hnext]
  · rw [Dev.notify_svc]; rfl
  · rw [Dev.notify_rest, Dev.notify_svc, Dev.notify_ttos]
    exact (congrArg (fun d : Dev => { d with ttos := w.ttos, svc := (w.status stOk).svc }) hwithin.same :)

theorem Dev.ttoEdge_eq {s : Dev} {o edge : Nat} (hon : s.ttoOn o = true) (hnext : (s.tto o).next = some edge) :
    s.ttoEdge o = (s.reachNs edge).setTto o
      { next := if s.rd .TIM_TTO_PERIOD o = 0 then none else some (edge + s.rd .TIM_TTO_PERIOD o), active := true } := by
  unfold ttoEdge
  rw [hnext]
  dsimp only
  rw [hon]
  rfl

/-- As periods pass, the XCLK count and device time go on by them. -/
theorem Dev.advance_clocks {s : Dev} (n : Nat) (h : s.power ≠ .off) :
    (s.advance n).xclk = s.xclk + n ∧ (s.advance n).timeU = s.timeU + n * s.periodUnits := by
  have hclock := (advance_within (m := fun d : Dev => (d.xclk, d.timeU)) (fun d e h => (congrArg (fun d : Dev => (d.xclk, d.timeU)) h :)) n h).same
  exact ⟨(congrArg Prod.fst hclock :), (congrArg Prod.snd hclock :)⟩

/-- The periods up to a device time carry it there. -/
theorem reach_le {target now unit : Nat} (h : 0 < unit) : target ≤ now + (target - now + unit - 1) / max 1 unit * unit := by
  have hmax : max 1 unit = unit := by omega
  rw [hmax]
  have hdiv := Nat.lt_div_mul_add (a := target - now + unit - 1) h
  omega

theorem completes_ttoEdge {s : State} {o : Fin 8} {edge : Nat} (hon : s.ttoOn o = true) (hnext : (s.tto o).next = some edge) :
    Completes (.ttoEdge o) s fun t =>
      (t.tto o).active = true ∧ (t.tto o).next = (if s.rd .TIM_TTO_PERIOD o = 0 then none else some (edge + s.rd .TIM_TTO_PERIOD o)) ∧
      s.xclk ≤ t.xclk ∧ (0 < s.periodUnits → edge * 2048000000000 ≤ t.timeU) := by
  have hpower : s.power ≠ .off := by
    intro h
    simp [Dev.ttoOn, Dev.live, h] at hon
  have heff := Dev.ttoEdge_eq hon hnext
  generalize (if s.rd .TIM_TTO_PERIOD o = 0 then none else some (edge + s.rd .TIM_TTO_PERIOD o)) = next at *
  have hreach : s.reachNs edge = s.advance ((edge * nsUnits - s.timeU + s.periodUnits - 1) / max 1 s.periodUnits) := rfl
  obtain ⟨hxclk, htime⟩ := Dev.advance_clocks ((edge * nsUnits - s.timeU + s.periodUnits - 1) / max 1 s.periodUnits) hpower
  rw [← hreach] at hxclk htime
  generalize s.reachNs edge = u at *
  refine .of_effect (exec_ttoEdge ..) rfl heff ⟨?_, ?_, ?_, fun hunit => ?_⟩
  · rw [Dev.notify_tto, Dev.tto_setTto_same]
  · rw [Dev.notify_tto, Dev.tto_setTto_same]
  · rw [Dev.notify_xclk, Dev.setTto_xclk, hxclk]
    exact Nat.le_add_right _ _
  · rw [Dev.notify_timeU, Dev.setTto_timeU, htime]
    exact reach_le hunit

theorem completes_ttoWidthExpiry (s : State) (o : Fin 8) :
    Completes (.ttoWidthExpiry o) s fun t =>
      (t.tto o).active = false ∧ (t.tto o).next = (s.tto o).next ∧ KeepsFields s t [] ∧ t.rest = { s.rest with ttos := t.ttos } := by
  have hwithin : Dev.Within [] (fun _ => ()) s.toDev (s.ttoWidthExpiry o) := (Dev.Within.refl _ _ _).step rfl rfl rfl rfl
  have hread : (s.ttoWidthExpiry o).tto o = { s.tto o with active := false } := Dev.tto_setTto_same ..
  refine .of_effect (exec_ttoWidthExpiry ..) rfl rfl ⟨?_, ?_, hwithin.kept, ?_⟩
  · rw [Dev.notify_tto, hread]
  · rw [Dev.notify_tto, hread]
  · rw [Dev.notify_rest, Dev.notify_ttos]; rfl

/-- Settles O53: each command is the branch of its function that the clause's premises select; a step keeps device time within 64 bits of
nanoseconds, and an edge's periods carry device time to it. -/
theorem deviceTimeAndOutputs : Obligations.DeviceTimeAndOutputs := by
  intro s src step rate m master port v e o edge
  refine ⟨?_, completes_timeRateWrite_other, completes_timNsRead s, completes_ptpMessage, completes_ptpGeneralMessage,
    completes_announceTimeout, completes_servoHandover v, completes_ethLinkLoss, completes_ethLinkUp,
    fun ha hrec hw => ⟨completes_ttoEnable_bad ha hrec hw, completes_ttoEnable_good ha hrec hw⟩, completes_ttoEdge, completes_ttoWidthExpiry s o⟩
  rintro rfl
  exact ⟨completes_timeStep_accepted, completes_timeStep_refused, completes_timeRateWrite, completes_txqPop s⟩

end Sys2Proof.Machine
end

section
/-! The ports of the Zanyx link, and the members of a herd (R319, R321 to R323, R332 to R334). -/

namespace Sys2Proof.Machine

open Sys2Proof

theorem exec_zanyxLinkUp (p : Fin 4) (s : State) : exec (.zanyxLinkUp p) s = s.run (.zanyxLinkUp p) fun d => d.zanyxLinkUp p := rfl

theorem exec_zanyxPortDown (p : Fin 4) (s : State) : exec (.zanyxPortDown p) s = s.run (.zanyxPortDown p) fun d => d.zanyxPortDown p := rfl

theorem exec_replayTimeout (p : Fin 4) (s : State) : exec (.replayTimeout p) s = s.run (.replayTimeout p) fun d => d.replayTimeout p := rfl

theorem exec_zanyxNak (p : Fin 4) (ack : Nat) (s : State) : exec (.zanyxNak p ack) s = s.run (.zanyxNak p ack) fun d => d.zanyxNak p ack := rfl

theorem exec_zanyxSleep (p : Fin 4) (s : State) : exec (.zanyxSleep p) s = s.run (.zanyxSleep p) fun d => d.zanyxSleep p := rfl

theorem exec_zanyxWake (p : Fin 4) (s : State) : exec (.zanyxWake p) s = s.run (.zanyxWake p) fun d => d.zanyxWake p := rfl

theorem exec_idleFrame (p : Fin 4) (h : ZHdr) (slp : Bool) (s : State) :
    exec (.idleFrame p h slp) s = s.run (.idleFrame p h slp) fun d => d.idleFrame p h slp := rfl

theorem exec_zanyxBadFrame (p : Fin 4) (typ len : Nat) (ok : Bool) (s : State) :
    exec (.zanyxBadFrame p typ len ok) s = s.run (.zanyxBadFrame p typ len ok) fun d => d.zanyxBadFrame p len ok := rfl

theorem exec_helloSend (s : State) : exec .helloSend s = s.run .helloSend fun d => d.helloSend := rfl

theorem exec_workerLost (m : Fin 64) (s : State) : exec (.workerLost m) s = s.run (.workerLost m) fun d => d.workerLost m := rfl

theorem exec_dictRelayTimeout (reqid : Nat) (s : State) :
    exec (.dictRelayTimeout reqid) s = s.run (.dictRelayTimeout reqid) fun d => d.dictRelayTimeout reqid := rfl

/-! ### A frame leaves -/

/-- What goes out as a frame leaves by a port: with the acknowledgement of what has arrived there, the NAK that is owed and `RXUP`. -/
def Dev.frameOut (s : Dev) (p seq : Nat) (f : ZFrame) : Out :=
  let q := s.zport p
  let up := s.flag .ZXL_STAT_RXUP p
  .zanyx p seq q.rxSeq q.nak up f (f.wire seq q.rxSeq q.nak up)

@[simp] theorem Dev.zport_setZport_same (s : Dev) (p : Nat) (q : ZPort) : (s.setZport p q).zport p = q := by
  simp only [zport, setZport, tabGet_set_same]

theorem Dev.emit_out (s : Dev) (p seq : Nat) (f : ZFrame) : s.frameOut p seq f ∈ (s.emit p seq f).out := List.mem_cons_self

theorem Dev.emit_zport (s : Dev) (p seq : Nat) (f : ZFrame) : (s.emit p seq f).zport p = { s.zport p with nak := false } :=
  zport_setZport_same ..

/-- What goes out by a port depends on its receive side alone. -/
theorem Dev.frameOut_congr {s t : Dev} {p : Nat} (seq : Nat) (f : ZFrame) (hseq : (t.zport p).rxSeq = (s.zport p).rxSeq)
    (hnak : (t.zport p).nak = (s.zport p).nak) (hup : t.flag .ZXL_STAT_RXUP p = s.flag .ZXL_STAT_RXUP p) : t.frameOut p seq f = s.frameOut p seq f := by
  unfold frameOut
  dsimp only
  rw [hseq, hnak, hup]

/-- What the module holds beside its Zanyx ports. -/
def Dev.butPorts (s : Dev) : Dev := { s with zports := [] }

theorem Dev.rest_of_butPorts {s t : Dev} (h : t.rest.butPorts = s.rest.butPorts) : t.rest = { s.rest with zports := t.zports } :=
  (congrArg (fun d : Dev => { d with zports := t.zports }) h :)

theorem zports_butPorts (d : Dev) (x : Tab ZPort) : Dev.butPorts { d with zports := x } = Dev.butPorts d := rfl

/-- A sequenced frame of an up port whose direction is awake goes out at once where nothing waits and the replay buffer has room. -/
theorem Dev.zSend_now {s : Dev} {p : Nat} {f : ZFrame} (hup : s.flag .ZXL_STAT_UP p = true) (hawake : s.flag .ZXL_STAT_TXSLEEP p = false)
    (hwaiting : (s.zport p).waiting = []) (hroom : (s.zport p).held + f.size ≤ 65536) (hseq : f.load.sequenced = true) :
    s.zSend p f = (s.setZport p { s.zport p with
      txSeq := ((s.zport p).txSeq + 1) % 4096, replay := (s.zport p).replay ++ [((s.zport p).txSeq, 0, f)] }).emit p (s.zport p).txSeq f := by
  have hgo : s.mustWait p f = false := by
    unfold mustWait
    simp [hup, hawake, hwaiting, hseq]
    omega
  unfold zSend
  dsimp only
  rw [hgo, hseq]
  rfl

/-! ### A port comes up, and goes down -/

theorem completes_zanyxLinkUp {s : State} {p : Fin 4} (hon : s.portOn p = true) (hrx : s.flag .ZXL_STAT_RXUP p = false)
    (hpeer : s.flag .ZXL_STAT_PEERUP p = false) :
    Completes (.zanyxLinkUp p) s fun t =>
      t.flag .ZXL_STAT_LOCK p = true ∧ t.flag .ZXL_STAT_RXUP p = true ∧
      KeepsFields s t [(.ZXL_STAT_LOCK, p), (.ZXL_STAT_RXUP, p)] ∧ t.rest = s.rest := by
  have hp : (p : Nat) < 1024 := by omega
  have hwithin : Dev.Within [(.ZXL_STAT_LOCK, (p : Nat)), (.ZXL_STAT_RXUP, (p : Nat))] id s.toDev
      ((s.setFlag .ZXL_STAT_LOCK p true).setFlag .ZXL_STAT_RXUP p true) :=
    ((Dev.Within.refl _ _ _).setFlag true hp (by simp)).setFlag true hp (by simp)
  have hlock : ((s.setFlag .ZXL_STAT_LOCK p true).setFlag .ZXL_STAT_RXUP p true).flag .ZXL_STAT_LOCK p = true := by
    rw [Dev.setFlag_eq, Dev.flag, Dev.rd_wr_field _ _ _ _ _ _ hp hp (by decide)]
    exact s.toDev.flag_wr_toNat .ZXL_STAT_LOCK p true (by decide)
  have hup : ((s.setFlag .ZXL_STAT_LOCK p true).setFlag .ZXL_STAT_RXUP p true).flag .ZXL_STAT_RXUP p = true :=
    Dev.flag_wr_toNat _ .ZXL_STAT_RXUP p true (by decide)
  have heff : s.toDev.zanyxLinkUp p = (s.setFlag .ZXL_STAT_LOCK p true).setFlag .ZXL_STAT_RXUP p true := by
    unfold Dev.zanyxLinkUp
    rw [hon, hrx]
    dsimp only
    rw [hwithin.flag hp (by simp), hpeer]
    rfl
  generalize (s.setFlag .ZXL_STAT_LOCK p true).setFlag .ZXL_STAT_RXUP p true = u at *
  refine .of_effect (exec_zanyxLinkUp p s) rfl heff ⟨?_, ?_, hwithin.kept, (Dev.notify_rest ..).trans hwithin.same⟩
  · rw [Dev.notify_flag]; exact hlock
  · rw [Dev.notify_flag]; exact hup

/-- The link flags of a port. -/
def portFlags (p : Nat) : List (Field × Nat) :=
  [(.ZXL_STAT_UP, p), (.ZXL_STAT_RXUP, p), (.ZXL_STAT_LOCK, p), (.ZXL_STAT_PEERUP, p), (.ZXL_STAT_TXSLEEP, p), (.ZXL_STAT_RXSLEEP, p)]

theorem Dev.clearPort_reads (s : Dev) {p : Nat} (hp : p < 1024) {α : Type} (m : Dev → α) :
    Within (portFlags p) m s (s.clearPort p) ∧ (s.clearPort p).flag .ZXL_STAT_UP p = false ∧ (s.clearPort p).flag .ZXL_STAT_LOCK p = false := by
  have hset {l : List (Field × Nat)} {t : Dev} (f : Field) (hf : (f, p) ∈ l) : Within l m t (t.setFlag f p false) := (Within.refl _ _ t).setFlag false hp hf
  have hup : (s.setFlag .ZXL_STAT_UP p false).flag .ZXL_STAT_UP p = false := s.flag_wr_toNat _ p false (by decide)
  have h1 := hset (l := portFlags p) (t := s) .ZXL_STAT_UP (by simp [portFlags])
  unfold clearPort
  dsimp only
  generalize s.setFlag .ZXL_STAT_UP p false = a at *
  have h2 := hset (l := [(.ZXL_STAT_RXUP, p), (.ZXL_STAT_LOCK, p)]) (t := a) .ZXL_STAT_RXUP (by simp)
  generalize a.setFlag .ZXL_STAT_RXUP p false = b at *
  have hlock : (b.setFlag .ZXL_STAT_LOCK p false).flag .ZXL_STAT_LOCK p = false := b.flag_wr_toNat _ p false (by decide)
  have h3 := h2.trans (hset (t := b) .ZXL_STAT_LOCK (by simp))
  generalize b.setFlag .ZXL_STAT_LOCK p false = c at *
  have h4 : Within [(.ZXL_STAT_PEERUP, p), (.ZXL_STAT_TXSLEEP, p), (.ZXL_STAT_RXSLEEP, p)] m c
      (((c.setFlag .ZXL_STAT_PEERUP p false).setFlag .ZXL_STAT_TXSLEEP p false).setFlag .ZXL_STAT_RXSLEEP p false) :=
    (((Within.refl _ _ c).setFlag false hp (by simp)).setFlag false hp (by simp)).setFlag false hp (by simp)
  generalize ((c.setFlag .ZXL_STAT_PEERUP p false).setFlag .ZXL_STAT_TXSLEEP p false).setFlag .ZXL_STAT_RXSLEEP p false = d at *
  refine ⟨(h1.trans (h3.mono (by simp [portFlags]))).trans (h4.mono (by simp [portFlags])), ?_, ?_⟩
  · rw [h4.flag hp (by simp), h3.flag hp (by simp)]; exact hup
  · rw [h4.flag hp (by simp)]; exact hlock

/-- The flag of a loss of service stands, the loss is counted, and the frames that must not be lost wait. -/
def Dev.downed (s : Dev) (p : Nat) (waiting : List ZFrame) : Dev :=
  (((s.clearPort p).setFlag .ZXL_STAT_DOWN p true).count .ZXL_DOWN_CNT p).setZport p { waiting := waiting }

/-- The fields of a port that goes down. -/
def downFields (p : Nat) : List (Field × Nat) := portFlags p ++ [(.ZXL_STAT_DOWN, p), (.ZXL_DOWN_CNT, p)]

theorem Dev.downed_reads (s : Dev) {p : Nat} (hp : p < 1024) (waiting : List ZFrame) :
    Within (downFields p) butPorts s (s.downed p waiting) ∧ (s.downed p waiting).flag .ZXL_STAT_UP p = false ∧
      (s.downed p waiting).flag .ZXL_STAT_LOCK p = false ∧ (s.downed p waiting).flag .ZXL_STAT_DOWN p = true ∧
      (s.downed p waiting).rd .ZXL_DOWN_CNT p = satSucc 32 (s.rd .ZXL_DOWN_CNT p) ∧ (s.downed p waiting).zport p = { waiting := waiting } := by
  obtain ⟨hclear, hup, hlock⟩ := s.clearPort_reads hp butPorts
  unfold downed
  generalize s.clearPort p = u at *
  have hdown : (u.setFlag .ZXL_STAT_DOWN p true).flag .ZXL_STAT_DOWN p = true := u.flag_wr_toNat _ p true (by decide)
  have hset : Within [(.ZXL_STAT_DOWN, p)] butPorts u (u.setFlag .ZXL_STAT_DOWN p true) := (Within.refl _ _ u).setFlag true hp (by simp)
  generalize u.setFlag .ZXL_STAT_DOWN p true = v at *
  have hcount : (v.count .ZXL_DOWN_CNT p).rd .ZXL_DOWN_CNT p = satSucc 32 (v.rd .ZXL_DOWN_CNT p) := Dev.rd_count ..
  have hcounted : Within [(.ZXL_DOWN_CNT, p)] butPorts v (v.count .ZXL_DOWN_CNT p) := (Within.refl _ _ v).count hp (by simp)
  generalize v.count .ZXL_DOWN_CNT p = w at *
  have hport : Within [] butPorts w (w.setZport p { waiting := waiting }) := (Within.refl _ _ w).setZport _ _ zports_butPorts
  have hread := w.zport_setZport_same p { waiting := waiting }
  generalize w.setZport p { waiting := waiting } = t at *
  have hlast {f : Field} (hf : f ≠ .ZXL_STAT_DOWN) (hf' : f ≠ .ZXL_DOWN_CNT) : t.rd f p = u.rd f p := by
    rw [hport.rd hp (by simp), hcounted.rd hp (by simp [hf']), hset.rd hp (by simp [hf])]
  refine ⟨((hclear.mono (by simp [downFields, portFlags])).trans (hset.mono (by simp [downFields]))).trans
    ((hcounted.mono (by simp [downFields])).trans (hport.mono (by simp))), ?_, ?_, ?_, ?_, hread⟩
  · rw [Dev.flag, hlast (by decide) (by decide)]; exact hup
  · rw [Dev.flag, hlast (by decide) (by decide)]; exact hlock
  · rw [hport.flag hp (by simp), hcounted.flag hp (by simp)]; exact hdown
  · rw [hport.rd hp (by simp), hcount, hset.rd hp (by simp), hclear.rd hp (by simp [portFlags])]

/-- The frames that a port which goes down must not lose (R322). -/
def Dev.heldFrames (s : Dev) (p : Nat) : List ZFrame :=
  ((s.zport p).replay.map fun e => e.2.2) ++ (s.zport p).waiting.filter fun f => f.load.sequenced

/-- A worker that loses its upstream port is no longer steered. -/
def Dev.unsteered (s : Dev) (lost ring : Bool) : Dev :=
  if lost then (s.setFlag .HRD_STAT_TSYNC 0 false).setFlag .HRD_STAT_INSERV 0 (ring && s.flag .HRD_STAT_INSERV) else s

theorem Dev.Within.unsteered {α : Type} {m : Dev → α} {s t : Dev} {l : List (Field × Nat)} (h : Within l m s t) (lost ring : Bool)
    (hl : (.HRD_STAT_TSYNC, 0) ∈ l ∧ (.HRD_STAT_INSERV, 0) ∈ l) : Within l m s (t.unsteered lost ring) := by
  unfold Dev.unsteered
  split
  · exact (h.setFlag false (by decide) hl.1).setFlag _ (by decide) hl.2
  · exact h

theorem Dev.Within.reroute {α : Type} {m : Dev → α} {s t : Dev} {l : List (Field × Nat)} (h : Within l m s t) (p : Nat) (ring : Bool)
    (hm : ∀ d x, m { d with herd := x } = m d) : Within l m s (t.reroute p ring) := h.step rfl rfl rfl (hm t.rest _)

theorem Dev.reroute_zport (s : Dev) (p q : Nat) (ring : Bool) : (s.reroute p ring).zport q = s.zport q := rfl

/-- Outside a ring the frames of a port that goes down wait there. -/
theorem Dev.portDown_line {s : Dev} {p : Nat} (hline : ¬(s.rd .HRD_CTL_TOPO = 1 ∧ p < 2)) :
    ∃ lost, s.portDown p = ((s.downed p (s.heldFrames p)).reroute p false).unsteered lost false := by
  have hring : decide (s.rd .HRD_CTL_TOPO = 1 ∧ p < 2) = false := decide_eq_false hline
  unfold portDown
  dsimp only
  rw [hring]
  exact ⟨((s.downed p (s.heldFrames p)).reroute p false).worker && p == s.upstream, rfl⟩

/-- In a ring they leave by the other ring port. -/
theorem Dev.portDown_ring {s : Dev} {p : Nat} (hring : s.rd .HRD_CTL_TOPO = 1 ∧ p < 2) :
    ∃ lost, s.portDown p =
      ((s.heldFrames p).foldl (fun (d : Dev) f => d.zSend (1 - p) f) ((s.downed p []).reroute p true)).unsteered lost true := by
  unfold portDown
  dsimp only
  rw [decide_eq_true hring]
  exact ⟨((s.heldFrames p).foldl (fun (d : Dev) f => d.zSend (1 - p) f) ((s.downed p []).reroute p true)).worker && p == s.upstream, rfl⟩

/-- What the module holds beside its Zanyx ports and what it knows of the herd. -/
def Dev.butHerd (s : Dev) : Dev := { s with zports := [], herd := {} }

theorem Dev.rest_of_butHerd {s t : Dev} (h : t.rest.butHerd = s.rest.butHerd) : t.rest = { s.rest with zports := t.zports, herd := t.herd } :=
  (congrArg (fun d : Dev => { d with zports := t.zports, herd := t.herd }) h :)

theorem Dev.Within.butHerd {l : List (Field × Nat)} {s t : Dev} (h : Within l butPorts s t) : Within l butHerd s t :=
  ⟨h.fields, (congrArg (fun d : Dev => { d with herd := {} }) h.same :)⟩

/-- The fields that a port which goes down, and the end of its worker's steering, change. -/
def lossFields (p : Nat) : List (Field × Nat) := downFields p ++ [(.HRD_STAT_TSYNC, 0), (.HRD_STAT_INSERV, 0)]

theorem downFields_not_steering (p : Nat) {f : Field} (hf : (f, p) ∈ downFields p) : (f, p) ∉ [(Field.HRD_STAT_TSYNC, 0), (Field.HRD_STAT_INSERV, 0)] := by
  simp only [downFields, portFlags, List.cons_append, List.nil_append, List.mem_cons, Prod.mk.injEq, and_true, List.not_mem_nil, or_false] at hf
  rcases hf with rfl | rfl | rfl | rfl | rfl | rfl | rfl | rfl <;> simp

/-- A port that has gone down outside a ring. -/
theorem Dev.portDown_line_reads {s : Dev} {p : Nat} (hp : p < 1024) (hline : ¬(s.rd .HRD_CTL_TOPO = 1 ∧ p < 2)) :
    Within (lossFields p) butHerd s (s.portDown p) ∧ (s.portDown p).zport p = { waiting := s.heldFrames p } ∧
      ∀ f, (f, p) ∈ downFields p → (s.portDown p).rd f p = (s.downed p (s.heldFrames p)).rd f p := by
  obtain ⟨lost, heq⟩ := Dev.portDown_line (p := p) hline
  obtain ⟨hdown, -, -, -, -, hport⟩ := s.downed_reads hp (s.heldFrames p)
  have hread := (s.downed p (s.heldFrames p)).reroute_zport p p false
  have hroute : Within [] butHerd (s.downed p (s.heldFrames p)) ((s.downed p (s.heldFrames p)).reroute p false) :=
    (Within.refl _ _ _).reroute _ _ fun _ _ => rfl
  rw [heq]
  generalize s.downed p (s.heldFrames p) = u at *
  generalize u.reroute p false = v at *
  have hlost : Within [(.HRD_STAT_TSYNC, 0), (.HRD_STAT_INSERV, 0)] butHerd v (v.unsteered lost false) :=
    (Within.refl _ _ v).unsteered lost false (by simp)
  have hports : (v.unsteered lost false).zports = v.zports :=
    ((Within.refl [(.HRD_STAT_TSYNC, 0), (.HRD_STAT_INSERV, 0)] Dev.zports v).unsteered lost false (by simp)).same
  refine ⟨(hdown.butHerd.mono (by simp +contextual [lossFields])).trans ((hroute.mono (by simp)).trans (hlost.mono (by simp [lossFields]))), ?_, fun f hf => ?_⟩
  · rw [zport, hports]
    exact hread.trans hport
  · rw [hlost.rd hp (downFields_not_steering p hf), hroute.rd hp (by simp)]

theorem completes_zanyxPortDown {s : State} {p : Fin 4} (hlock : s.flag .ZXL_STAT_LOCK p = true) (hline : s.rd .HRD_CTL_TOPO ≠ 1) :
    Completes (.zanyxPortDown p) s fun t =>
      t.flag .ZXL_STAT_UP p = false ∧ t.flag .ZXL_STAT_LOCK p = false ∧ t.flag .ZXL_STAT_DOWN p = true ∧
      t.rd .ZXL_DOWN_CNT p = satSucc 32 (s.rd .ZXL_DOWN_CNT p) ∧ (t.zport p).replay = [] ∧
      (t.zport p).waiting = ((s.zport p).replay.map fun e => e.2.2) ++ (s.zport p).waiting.filter (fun x => x.load.sequenced) ∧
      t.rest = { s.rest with zports := t.zports, herd := t.herd } := by
  have hp : (p : Nat) < 1024 := by omega
  have heff : s.toDev.zanyxPortDown p = s.toDev.portDown p := if_pos hlock
  obtain ⟨hwithin, hport, hread⟩ := Dev.portDown_line_reads hp fun h => hline h.1
  obtain ⟨-, hup, hunlocked, hdown, hcount, -⟩ := s.toDev.downed_reads hp (s.heldFrames p)
  generalize s.toDev.portDown p = t at *
  refine .of_effect (exec_zanyxPortDown p s) rfl heff ⟨?_, ?_, ?_, ?_, ?_, ?_, ?_⟩
  · rw [Dev.notify_flag, Dev.flag, hread _ (by simp [downFields, portFlags])]; exact hup
  · rw [Dev.notify_flag, Dev.flag, hread _ (by simp [downFields, portFlags])]; exact hunlocked
  · rw [Dev.notify_flag, Dev.flag, hread _ (by simp [downFields, portFlags])]; exact hdown
  · rw [Dev.notify_rd, hread _ (by simp [downFields, portFlags])]; exact hcount
  · rw [Dev.notify_zport, hport]
  · rw [Dev.notify_zport, hport]; rfl
  · rw [Dev.notify_rest, Dev.notify_zports, Dev.notify_herd]
    exact Dev.rest_of_butHerd hwithin.same

/-- A port that goes down, in a ring or not, is not up and shows its loss. -/
theorem Dev.portDown_flags (s : Dev) {p : Nat} (hp : p < 1024) :
    (s.portDown p).flag .ZXL_STAT_UP p = false ∧ (s.portDown p).flag .ZXL_STAT_DOWN p = true := by
  by_cases hring : s.rd .HRD_CTL_TOPO = 1 ∧ p < 2
  · obtain ⟨lost, heq⟩ := Dev.portDown_ring hring
    obtain ⟨-, hup, -, hdown, -, -⟩ := s.downed_reads hp []
    have hsent : Within [] (fun _ => ()) ((s.downed p []).reroute p true)
        ((s.heldFrames p).foldl (fun (d : Dev) f => d.zSend (1 - p) f) ((s.downed p []).reroute p true)) :=
      .foldl _ (.refl _ _ _) fun d f _ => (Within.refl _ _ d).zSend _ f fun _ _ => rfl
    have hroute : Within [] (fun _ => ()) (s.downed p []) ((s.downed p []).reroute p true) := (Within.refl _ _ _).reroute _ _ fun _ _ => rfl
    rw [heq]
    generalize (s.heldFrames p).foldl (fun (d : Dev) f => d.zSend (1 - p) f) ((s.downed p []).reroute p true) = v at *
    have hlost : Within [(.HRD_STAT_TSYNC, 0), (.HRD_STAT_INSERV, 0)] (fun _ => ()) v (v.unsteered lost true) :=
      (Within.refl _ _ v).unsteered lost true (by simp)
    constructor
    · rw [hlost.flag hp (by simp), (hroute.trans hsent).flag hp (by simp)]; exact hup
    · rw [hlost.flag hp (by simp), (hroute.trans hsent).flag hp (by simp)]; exact hdown
  · obtain ⟨-, -, hread⟩ := Dev.portDown_line_reads hp hring
    obtain ⟨-, hup, -, hdown, -, -⟩ := s.downed_reads hp (s.heldFrames p)
    constructor
    · rw [Dev.flag, hread _ (by simp [downFields, portFlags])]; exact hup
    · rw [Dev.flag, hread _ (by simp [downFields, portFlags])]; exact hdown

/-! ### Replays -/

/-- The oldest frame of the replay buffer is sent again, and once more a failure takes the port down. -/
def Dev.resentOldest (s : Dev) (p n k : Nat) (f : ZFrame) (l : List (Nat × Nat × ZFrame)) : Dev :=
  ((s.setZport p { s.zport p with replay := (n, k + 1, f) :: l }).count .ZXL_REPLAY_CNT p).emit p n f

theorem Dev.replay_oldest {s : Dev} {p n k : Nat} {f : ZFrame} {l : List (Nat × Nat × ZFrame)} (h : (s.zport p).replay = (n, k, f) :: l) (hk : k < 4) :
    s.replay p 1 = s.resentOldest p n k f l := by
  have hgo : ([(n, k, f)].any fun e => decide (4 ≤ e.2.1)) = false := by simp; omega
  unfold replay
  dsimp only
  rw [h, List.take_succ_cons, List.take_zero, hgo]
  rfl

theorem Dev.replay_failed {s : Dev} {p n k : Nat} {f : ZFrame} {l : List (Nat × Nat × ZFrame)} (h : (s.zport p).replay = (n, k, f) :: l) (hk : 4 ≤ k) :
    s.replay p 1 = s.portDown p := by
  have hgo : ([(n, k, f)].any fun e => decide (4 ≤ e.2.1)) = true := by simp [hk]
  unfold replay
  dsimp only
  rw [h, List.take_succ_cons, List.take_zero, hgo]
  rfl

theorem Dev.resentOldest_reads (s : Dev) {p : Nat} (hp : p < 1024) (n k : Nat) (f : ZFrame) (l : List (Nat × Nat × ZFrame)) :
    let t := s.resentOldest p n k f l
    Within [(.ZXL_REPLAY_CNT, p)] butPorts s t ∧ s.frameOut p n f ∈ t.out ∧ (t.zport p).replay = (n, k + 1, f) :: l ∧
      t.rd .ZXL_REPLAY_CNT p = satSucc 32 (s.rd .ZXL_REPLAY_CNT p) := by
  have hset : Within [] butPorts s (s.setZport p { s.zport p with replay := (n, k + 1, f) :: l }) := (Within.refl _ _ s).setZport _ _ zports_butPorts
  have hport := s.zport_setZport_same p { s.zport p with replay := (n, k + 1, f) :: l }
  unfold resentOldest
  generalize s.setZport p { s.zport p with replay := (n, k + 1, f) :: l } = u at *
  have hcount : Within [(.ZXL_REPLAY_CNT, p)] butPorts u (u.count .ZXL_REPLAY_CNT p) := (Within.refl _ _ u).count hp (by simp)
  have hread : (u.count .ZXL_REPLAY_CNT p).rd .ZXL_REPLAY_CNT p = satSucc 32 (u.rd .ZXL_REPLAY_CNT p) := Dev.rd_count ..
  have hsame : (u.count .ZXL_REPLAY_CNT p).zport p = u.zport p := Dev.wr_zport ..
  generalize u.count .ZXL_REPLAY_CNT p = v at *
  have hemit : Within [] butPorts v (v.emit p n f) := (Within.refl _ _ v).emit _ _ _ zports_butPorts
  have hout : v.frameOut p n f = s.frameOut p n f := by
    refine Dev.frameOut_congr n f ?_ ?_ ?_
    · rw [hsame, hport]
    · rw [hsame, hport]
    · rw [hcount.flag hp (by simp), hset.flag hp (by simp)]
  refine ⟨(hset.mono (by simp)).trans (hcount.trans (hemit.mono (by simp))), ?_, ?_, ?_⟩
  · rw [← hout]; exact v.emit_out p n f
  · rw [Dev.emit_zport, hsame, hport]
  · rw [hemit.rd hp (by simp), hread, hset.rd hp (by simp)]

theorem completes_replayTimeout {s : State} {p : Fin 4} {n k : Nat} {f : ZFrame} {l : List (Nat × Nat × ZFrame)}
    (hup : s.flag .ZXL_STAT_UP p = true) (h : (s.zport p).replay = (n, k, f) :: l) (hk : k < 4) :
    Completes (.replayTimeout p) s fun t =>
      s.frameOut p n f ∈ t.out ∧ (t.zport p).replay = (n, k + 1, f) :: l ∧ t.rd .ZXL_REPLAY_CNT p = satSucc 32 (s.rd .ZXL_REPLAY_CNT p) ∧
      KeepsFields s t [(.ZXL_REPLAY_CNT, p)] ∧ t.rest = { s.rest with zports := t.zports } := by
  have heff : s.toDev.replayTimeout p = s.toDev.resentOldest p n k f l := (if_pos hup).trans (Dev.replay_oldest h hk)
  obtain ⟨hwithin, hout, hreplay, hcount⟩ := s.toDev.resentOldest_reads (show (p : Nat) < 1024 by omega) n k f l
  generalize s.toDev.resentOldest p n k f l = t at *
  refine .of_effect (exec_replayTimeout p s) rfl heff ⟨Dev.mem_out_notify hout, ?_, ?_, hwithin.kept, ?_⟩
  · rw [Dev.notify_zport]; exact hreplay
  · rw [Dev.notify_rd]; exact hcount
  · rw [Dev.notify_rest, Dev.notify_zports]; exact Dev.rest_of_butPorts hwithin.same

theorem completes_replayTimeout_failed {s : State} {p : Fin 4} {n k : Nat} {f : ZFrame} {l : List (Nat × Nat × ZFrame)}
    (hup : s.flag .ZXL_STAT_UP p = true) (h : (s.zport p).replay = (n, k, f) :: l) (hk : 4 ≤ k) :
    Completes (.replayTimeout p) s fun t => t.flag .ZXL_STAT_UP p = false ∧ t.flag .ZXL_STAT_DOWN p = true := by
  have heff : s.toDev.replayTimeout p = s.toDev.portDown p := (if_pos hup).trans (Dev.replay_failed h hk)
  obtain ⟨hdown, hflag⟩ := s.toDev.portDown_flags (show (p : Nat) < 1024 by omega)
  refine .of_effect (exec_replayTimeout p s) rfl heff ⟨?_, ?_⟩
  · rw [Dev.notify_flag]; exact hdown
  · rw [Dev.notify_flag]; exact hflag

/-- A NAK that acknowledges nothing has the only frame sent again. -/
theorem Dev.takeAck_nak {s : Dev} {p n k ack : Nat} {f : ZFrame} (h : (s.zport p).replay = [(n, k, f)]) (hk : k < 4) (hack : ack ≠ n) :
    s.takeAck p ack true = (s.setZport p (s.zport p)).resentOldest p n k f [] := by
  have hnone : ackReplay [(n, k, f)] ack = [(n, k, f)] := by
    unfold ackReplay
    rw [List.findIdx?_eq_none_iff.2 (by simpa using Ne.symm hack)]
  have hport : ({ s.zport p with replay := ackReplay (s.zport p).replay ack } : ZPort) = s.zport p := by
    rw [h, hnone, ← h]
  unfold takeAck
  dsimp only
  rw [hport, h, hnone]
  exact Dev.replay_oldest (s := s.setZport p (s.zport p)) (by rw [zport_setZport_same, h]) hk

theorem completes_zanyxNak {s : State} {p : Fin 4} {n k ack : Nat} {f : ZFrame} (hup : s.flag .ZXL_STAT_UP p = true)
    (h : (s.zport p).replay = [(n, k, f)]) (hk : k < 4) (hack : ack < 4096) (hne : ack ≠ n) :
    Completes (.zanyxNak p ack) s fun t =>
      s.frameOut p n f ∈ t.out ∧ (t.zport p).replay = [(n, k + 1, f)] ∧ KeepsFields s t [(.ZXL_REPLAY_CNT, p)] ∧
      t.rest = { s.rest with zports := t.zports } := by
  have hp : (p : Nat) < 1024 := by omega
  have heff : s.toDev.zanyxNak p ack = (s.toDev.setZport p (s.zport p)).resentOldest p n k f [] := (if_pos hup).trans (Dev.takeAck_nak h hk hne)
  have hset : Dev.Within [(.ZXL_REPLAY_CNT, (p : Nat))] Dev.butPorts s.toDev (s.toDev.setZport p (s.zport p)) :=
    (Dev.Within.refl _ _ _).setZport _ _ zports_butPorts
  have hport := s.toDev.zport_setZport_same p (s.zport p)
  have hsame : (s.toDev.setZport p (s.zport p)).frameOut p n f = s.frameOut p n f := Dev.frameOut_congr n f (by rw [hport]) (by rw [hport]) rfl
  generalize s.toDev.setZport p (s.zport p) = u at *
  obtain ⟨hwithin, hout, hreplay, -⟩ := u.resentOldest_reads hp n k f []
  generalize u.resentOldest p n k f [] = t at *
  have hall := hset.trans hwithin
  refine .of_effect (exec_zanyxNak ..) (decide_eq_true hack) heff ⟨Dev.mem_out_notify (by rw [← hsame]; exact hout), ?_, hall.kept, ?_⟩
  · rw [Dev.notify_zport]; exact hreplay
  · rw [Dev.notify_rest, Dev.notify_zports]; exact Dev.rest_of_butPorts hall.same

/-! ### Directions that sleep and wake, and frames that carry nothing -/

theorem completes_zanyxSleep {s : State} {p : Fin 4} (hup : s.flag .ZXL_STAT_UP p = true) (hallowed : s.flag .ZXL_CTL_NOSLEEP p = false)
    (hawake : s.flag .ZXL_STAT_TXSLEEP p = false) (hpos : s.sendsPos = false) (hidle : (s.zport p).waiting = []) :
    Completes (.zanyxSleep p) s fun t =>
      t.flag .ZXL_STAT_TXSLEEP p = true ∧ KeepsFields s t [(.ZXL_STAT_TXSLEEP, p)] ∧ t.rest = { s.rest with zports := t.zports } := by
  have hp : (p : Nat) < 1024 := by omega
  have hgo : (!s.flag .ZXL_STAT_UP p || s.flag .ZXL_CTL_NOSLEEP p || s.flag .ZXL_STAT_TXSLEEP p || s.sendsPos ||
      !(s.zport p).waiting.isEmpty) = false := by simp [hup, hallowed, hawake, hpos, hidle]
  have heff : s.toDev.zanyxSleep p =
      (s.emit p 0 { src := s.memberNo, dst := 0, bc := false, load := .idle true }).setFlag .ZXL_STAT_TXSLEEP p true := by
    unfold Dev.zanyxSleep
    rw [hgo]
    rfl
  generalize ({ src := s.memberNo, dst := 0, bc := false, load := .idle true } : ZFrame) = f at heff
  have hemit : Dev.Within [(.ZXL_STAT_TXSLEEP, (p : Nat))] Dev.butPorts s.toDev (s.emit p 0 f) := (Dev.Within.refl _ _ _).emit _ _ _ zports_butPorts
  have hall := hemit.setFlag (f := .ZXL_STAT_TXSLEEP) (i := p) true hp (by simp)
  have hflag : ((s.emit p 0 f).setFlag .ZXL_STAT_TXSLEEP p true).flag .ZXL_STAT_TXSLEEP p = true := Dev.flag_wr_toNat _ _ p true (by decide)
  generalize (s.emit p 0 f).setFlag .ZXL_STAT_TXSLEEP p true = t at *
  refine .of_effect (exec_zanyxSleep p s) rfl heff ⟨?_, hall.kept, ?_⟩
  · rw [Dev.notify_flag]; exact hflag
  · rw [Dev.notify_rest, Dev.notify_zports]; exact Dev.rest_of_butPorts hall.same

/-- What waits alone on a port goes out once its direction is awake. -/
theorem Dev.flushPort_one {s : Dev} {p : Nat} {f : ZFrame} (h : (s.zport p).waiting = [f]) :
    s.flushPort p = (s.setZport p { s.zport p with waiting := [] }).zSend p f := by
  unfold flushPort
  dsimp only
  rw [h]
  rfl

theorem completes_zanyxWake {s : State} {p : Fin 4} {f : ZFrame} (hasleep : s.flag .ZXL_STAT_TXSLEEP p = true)
    (hup : s.flag .ZXL_STAT_UP p = true) (hwaiting : (s.zport p).waiting = [f]) (hseq : f.load.sequenced = true)
    (hroom : (s.zport p).held + f.size ≤ 65536) :
    Completes (.zanyxWake p) s fun t =>
      t.flag .ZXL_STAT_TXSLEEP p = false ∧ (t.zport p).waiting = [] ∧
      (t.zport p).replay = (s.zport p).replay ++ [((s.zport p).txSeq, 0, f)] ∧
      KeepsFields s t [(.ZXL_STAT_TXSLEEP, p)] ∧ t.rest = { s.rest with zports := t.zports } := by
  have hp : (p : Nat) < 1024 := by omega
  have heff : s.toDev.zanyxWake p = (s.setFlag .ZXL_STAT_TXSLEEP p false).flushPort p := by
    unfold Dev.zanyxWake
    rw [hasleep, hwaiting]
    rfl
  have hset : Dev.Within [(.ZXL_STAT_TXSLEEP, (p : Nat))] Dev.butPorts s.toDev (s.setFlag .ZXL_STAT_TXSLEEP p false) :=
    (Dev.Within.refl _ _ _).setFlag false hp (by simp)
  have hflag : (s.setFlag .ZXL_STAT_TXSLEEP p false).flag .ZXL_STAT_TXSLEEP p = false := s.toDev.flag_wr_toNat _ p false (by decide)
  have hport : (s.setFlag .ZXL_STAT_TXSLEEP p false).zport p = s.zport p := Dev.wr_zport ..
  generalize s.setFlag .ZXL_STAT_TXSLEEP p false = u at *
  rw [Dev.flushPort_one (by rw [hport]; exact hwaiting), hport] at heff
  have hclear : Dev.Within [] Dev.butPorts u (u.setZport p { s.zport p with waiting := [] }) := (Dev.Within.refl _ _ _).setZport _ _ zports_butPorts
  have hempty := u.zport_setZport_same p { s.zport p with waiting := [] }
  generalize u.setZport p { s.zport p with waiting := [] } = v at *
  rw [Dev.zSend_now ((hclear.flag hp (by simp)).trans ((hset.flag hp (by simp)).trans hup)) ((hclear.flag hp (by simp)).trans hflag)
    (by rw [hempty]) (by rw [hempty]; exact hroom) hseq] at heff
  generalize hq : ({ v.zport p with txSeq := ((v.zport p).txSeq + 1) % 4096, replay := (v.zport p).replay ++ [((v.zport p).txSeq, 0, f)] } : ZPort) = q at heff
  have hsend : Dev.Within [] Dev.butPorts v ((v.setZport p q).emit p (v.zport p).txSeq f) :=
    ((Dev.Within.refl _ _ v).setZport _ _ zports_butPorts).emit _ _ _ zports_butPorts
  have hsent : ((v.setZport p q).emit p (v.zport p).txSeq f).zport p = { q with nak := false } := by
    rw [Dev.emit_zport, Dev.zport_setZport_same]
  generalize (v.setZport p q).emit p (v.zport p).txSeq f = t at *
  have hall := hset.trans ((hclear.trans hsend).mono (by simp))
  refine .of_effect (exec_zanyxWake p s) rfl heff ⟨?_, ?_, ?_, hall.kept, ?_⟩
  · rw [Dev.notify_flag, (hclear.trans hsend).flag hp (by simp)]; exact hflag
  · rw [Dev.notify_zport, hsent, ← hq, hempty]
  · rw [Dev.notify_zport, hsent, ← hq, hempty]
  · rw [Dev.notify_rest, Dev.notify_zports]; exact Dev.rest_of_butPorts hall.same

theorem completes_idleFrame {s : State} {p : Fin 4} {h : ZHdr} (hwf : h.wf = true) (hon : s.portOn p = true)
    (hup : (s.header p h).flag .ZXL_STAT_UP p = true) :
    Completes (.idleFrame p h true) s fun t =>
      t.flag .ZXL_STAT_RXSLEEP p = true ∧ KeepsFields { s with toDev := s.header p h } t [(.ZXL_STAT_RXSLEEP, p)] ∧
      t.rest = (s.header p h).rest := by
  have heff : s.toDev.idleFrame p h true = (s.header p h).setFlag .ZXL_STAT_RXSLEEP p true := by
    unfold Dev.idleFrame
    rw [hon]
    dsimp only
    rw [hup]
    rfl
  generalize s.header p h = u at *
  have hset : Dev.Within [(.ZXL_STAT_RXSLEEP, (p : Nat))] id u (u.setFlag .ZXL_STAT_RXSLEEP p true) := (Dev.Within.refl _ _ _).setFlag true (by omega) (by simp)
  have hflag : (u.setFlag .ZXL_STAT_RXSLEEP p true).flag .ZXL_STAT_RXSLEEP p = true := u.flag_wr_toNat _ p true (by decide)
  generalize u.setFlag .ZXL_STAT_RXSLEEP p true = t at *
  refine .of_effect (exec_idleFrame ..) hwf heff ⟨?_, fun f i hi hf => ?_, (Dev.notify_rest ..).trans hset.same⟩
  · rw [Dev.notify_flag]; exact hflag
  · exact (Dev.notify_rd ..).trans (hset.rd hi hf)

theorem completes_zanyxBadFrame {s : State} {p : Fin 4} {typ : Nat} (hon : s.portOn p = true) (hlo : 10 ≤ typ) (hhi : typ < 16) :
    Completes (.zanyxBadFrame p typ 1 true) s fun t =>
      t.rd .ZXL_BAD_CNT p = satSucc 32 (s.rd .ZXL_BAD_CNT p) ∧ KeepsFields s t [(.ZXL_BAD_CNT, p)] ∧ t.rest = s.rest := by
  have heff : s.toDev.zanyxBadFrame p 1 true = s.count .ZXL_BAD_CNT p := by
    unfold Dev.zanyxBadFrame
    rw [hon]
    rfl
  have hwithin : Dev.Within [(.ZXL_BAD_CNT, (p : Nat))] id s.toDev (s.count .ZXL_BAD_CNT p) := (Dev.Within.refl _ _ _).count (by omega) (by simp)
  have hwf : (Instr.zanyxBadFrame p typ 1 true).wf = true := by simp [Instr.wf, hhi, hlo]
  refine .of_effect (exec_zanyxBadFrame ..) hwf heff ⟨?_, hwithin.kept, (Dev.notify_rest ..).trans hwithin.same⟩
  rw [Dev.notify_rd]; exact Dev.rd_count ..

theorem Dev.Within.sendNak {α : Type} {m : Dev → α} {s t : Dev} {l : List (Field × Nat)} (h : Within l m s t) (p : Nat)
    (hm : ∀ d x, m { d with zports := x } = m d) : Within l m s (t.sendNak p) := (h.setZport _ _ hm).zSend _ _ hm

theorem completes_zanyxBadFrame_crc {s : State} {p : Fin 4} {typ : Nat} (hon : s.portOn p = true) (hhi : typ < 16) :
    Completes (.zanyxBadFrame p typ 1 false) s fun t =>
      t.rd .ZXL_CRC_CNT p = satSucc 32 (s.rd .ZXL_CRC_CNT p) ∧ KeepsFields s t [(.ZXL_CRC_CNT, p)] ∧
      t.rest = { s.rest with zports := t.zports } := by
  have hp : (p : Nat) < 1024 := by omega
  have heff : s.toDev.zanyxBadFrame p 1 false =
      if (s.count .ZXL_CRC_CNT p).flag .ZXL_STAT_UP p then (s.count .ZXL_CRC_CNT p).sendNak p else s.count .ZXL_CRC_CNT p := by
    unfold Dev.zanyxBadFrame
    rw [hon]
    rfl
  have hcount : Dev.Within [(.ZXL_CRC_CNT, (p : Nat))] Dev.butPorts s.toDev (s.count .ZXL_CRC_CNT p) := (Dev.Within.refl _ _ _).count hp (by simp)
  have hread : (s.count .ZXL_CRC_CNT p).rd .ZXL_CRC_CNT p = satSucc 32 (s.rd .ZXL_CRC_CNT p) := Dev.rd_count ..
  generalize s.count .ZXL_CRC_CNT p = u at *
  have hsent : Dev.Within [] Dev.butPorts u (if u.flag .ZXL_STAT_UP p then u.sendNak p else u) := by
    split
    · exact (Dev.Within.refl _ _ u).sendNak _ zports_butPorts
    · exact .refl _ _ u
  generalize (if u.flag .ZXL_STAT_UP p then u.sendNak p else u) = t at *
  have hall := hcount.trans (hsent.mono (by simp))
  have hwf : (Instr.zanyxBadFrame p typ 1 false).wf = true := by simp [Instr.wf, hhi]
  refine .of_effect (exec_zanyxBadFrame ..) hwf heff ⟨?_, hall.kept, ?_⟩
  · rw [Dev.notify_rd, hsent.rd hp (by simp)]; exact hread
  · rw [Dev.notify_rest, Dev.notify_zports]; exact Dev.rest_of_butPorts hall.same

/-! ### Members -/

/-- The HELLO frame of a worker as it stands. -/
def Dev.ownHello (s : Dev) : HelloFrame :=
  { member := s.memberNo, role := 2, tsync := s.flag .HRD_STAT_TSYNC, slots := (rangeFrom 0 8).map fun k => (s.slot k).st }

theorem completes_helloSend {s : State} (hworker : s.worker = true) (hlive : s.live = true) (hup : s.flag .ZXL_STAT_UP s.upstream = true)
    (hawake : s.flag .ZXL_STAT_TXSLEEP s.upstream = false) (hidle : (s.zport s.upstream).waiting = [])
    (hroom : (s.zport s.upstream).held + 32 ≤ 65536) :
    Completes .helloSend s fun t =>
      s.frameOut s.upstream (s.zport s.upstream).txSeq { src := s.memberNo, dst := 0, bc := false, load := .hello s.ownHello } ∈ t.out ∧
      KeepsFields s t [] ∧ t.rest = { s.rest with zports := t.zports } := by
  have heff : s.toDev.helloSend = s.zSend s.upstream { src := s.memberNo, dst := 0, bc := false, load := .hello s.ownHello } := by
    unfold Dev.helloSend
    rw [hworker, hlive]
    rfl
  generalize s.ownHello = f at *
  rw [Dev.zSend_now (f := { src := s.memberNo, dst := 0, bc := false, load := .hello f }) hup hawake hidle hroom rfl] at heff
  generalize ({ src := s.memberNo, dst := 0, bc := false, load := .hello f } : ZFrame) = g at *
  generalize s.upstream = p at *
  generalize hq : ({ s.zport p with txSeq := ((s.zport p).txSeq + 1) % 4096, replay := (s.zport p).replay ++ [((s.zport p).txSeq, 0, g)] } : ZPort) = q at heff
  have hset : Dev.Within [] Dev.butPorts s.toDev (s.setZport p q) := (Dev.Within.refl _ _ _).setZport _ _ zports_butPorts
  have hsame : (s.setZport p q).frameOut p (s.zport p).txSeq g = s.frameOut p (s.zport p).txSeq g := by
    refine Dev.frameOut_congr _ _ ?_ ?_ rfl <;> rw [Dev.zport_setZport_same, ← hq]
  generalize s.setZport p q = u at *
  have hall := hset.emit p (s.zport p).txSeq g zports_butPorts
  refine .of_effect (exec_helloSend s) rfl heff ⟨Dev.mem_out_notify ?_, hall.kept, ?_⟩
  · rw [← hsame]; exact u.emit_out ..
  · rw [Dev.notify_rest, Dev.notify_zports]; exact Dev.rest_of_butPorts hall.same

/-- A member is out of service, its loss shown, counted and recorded. -/
def Dev.memberOut (s : Dev) (m pos : Nat) : Dev :=
  (((s.wr .HRD_INSERV 0 (clearBits (s.rd .HRD_INSERV) (oneBit m))).setFlag .HRD_STAT_MLOST 0 true).count .HRD_LOST_CNT).tally 0x0081 m 0xFFFFFFFF pos

/-- The fields that the loss of a member changes. -/
def lostFields : List (Field × Nat) := [(.HRD_INSERV, 0), (.HRD_STAT_MLOST, 0), (.HRD_LOST_CNT, 0)] ++ logFields

theorem Dev.workerLost_eq {s : Dev} {m : Nat} (hmanager : s.manager = true) (hin : s.inService m = true) :
    ∃ pos marks parts, s.workerLost m = { s.memberOut m pos with marks := marks, parts := parts } := by
  have hgo : (!s.manager || !s.inService m) = false := by simp [hmanager, hin]
  unfold workerLost
  rw [hgo]
  exact ⟨_, _, _, rfl⟩

theorem Dev.memberOut_reads (s : Dev) {m : Nat} (hm : m < 64) (pos : Nat) :
    Within lostFields body s (s.memberOut m pos) ∧ (s.memberOut m pos).inService m = false ∧ (s.memberOut m pos).flag .HRD_STAT_MLOST = true ∧
      (s.memberOut m pos).rd .HRD_LOST_CNT = satSucc 32 (s.rd .HRD_LOST_CNT) := by
  have hwr : Within lostFields body s (s.wr .HRD_INSERV 0 (clearBits (s.rd .HRD_INSERV) (oneBit m))) := (Within.refl _ _ s).wr _ (by decide) (by simp [lostFields])
  have hcleared : (s.wr .HRD_INSERV 0 (clearBits (s.rd .HRD_INSERV) (oneBit m))).inService m = false := by
    rw [inService, Dev.bit_rd_wr _ _ _ _ _ hm]
    simp
  have hlost : (s.wr .HRD_INSERV 0 (clearBits (s.rd .HRD_INSERV) (oneBit m))).rd .HRD_LOST_CNT = s.rd .HRD_LOST_CNT :=
    Dev.rd_wr_field _ _ _ _ _ _ (by decide) (by decide) (by decide)
  unfold memberOut
  generalize s.wr .HRD_INSERV 0 (clearBits (s.rd .HRD_INSERV) (oneBit m)) = a at *
  have hset : Within [(.HRD_STAT_MLOST, 0)] body a (a.setFlag .HRD_STAT_MLOST 0 true) := (Within.refl _ _ a).setFlag true (by decide) (by simp)
  have hflag : (a.setFlag .HRD_STAT_MLOST 0 true).flag .HRD_STAT_MLOST = true := a.flag_wr_toNat _ 0 true (by decide)
  generalize a.setFlag .HRD_STAT_MLOST 0 true = b at *
  have hcount : Within [(.HRD_LOST_CNT, 0)] body b (b.count .HRD_LOST_CNT) := (Within.refl _ _ b).count (by decide) (by simp)
  have hcounted : (b.count .HRD_LOST_CNT).rd .HRD_LOST_CNT = satSucc 32 (b.rd .HRD_LOST_CNT) := Dev.rd_count ..
  generalize b.count .HRD_LOST_CNT = c at *
  have hlog : Within logFields body c (c.tally 0x0081 m 0xFFFFFFFF pos) := (Within.refl _ _ c).tally _ _ _ _ _ (fun _ h => h) quiet_body
  generalize c.tally 0x0081 m 0xFFFFFFFF pos = d at *
  refine ⟨(hwr.trans (hset.mono (by simp [lostFields]))).trans ((hcount.mono (by simp [lostFields])).trans
    (hlog.mono fun _ h => List.mem_append_right _ h)), ?_, ?_, ?_⟩
  · rw [inService, hlog.rd (by decide) (by decide), hcount.rd (by decide) (by simp), hset.rd (by decide) (by simp)]
    exact hcleared
  · rw [hlog.flag (by decide) (by decide), hcount.flag (by decide) (by simp)]; exact hflag
  · rw [hlog.rd (by decide) (by decide), hcounted, hset.rd (by decide) (by simp), hlost]

theorem completes_workerLost {s : State} {m : Fin 64} (hmanager : s.manager = true) (hin : s.inService m = true) :
    Completes (.workerLost m) s fun t =>
      t.inService m = false ∧ t.flag .HRD_STAT_MLOST = true ∧ t.rd .HRD_LOST_CNT = satSucc 32 (s.rd .HRD_LOST_CNT) ∧
      KeepsFields s t ([(.HRD_INSERV, 0), (.HRD_STAT_MLOST, 0), (.HRD_LOST_CNT, 0)] ++ logFields) ∧
      t.body = { s.body with marks := t.marks, parts := t.parts } := by
  obtain ⟨pos, marks, parts, heff⟩ := Dev.workerLost_eq hmanager hin
  obtain ⟨hwithin, hout, hflag, hcount⟩ := s.toDev.memberOut_reads m.isLt pos
  generalize s.toDev.memberOut m pos = u at *
  have hall : Dev.Within lostFields (fun _ => ()) s.toDev { u with marks := marks, parts := parts } := ⟨hwithin.fields.trans (.of_regs rfl rfl rfl), rfl⟩
  refine .of_effect (exec_workerLost m s) rfl heff ⟨?_, ?_, ?_, hall.kept, ?_⟩
  · rw [Dev.inService, Dev.notify_rd]; exact hout
  · rw [Dev.notify_flag]; exact hflag
  · rw [Dev.notify_rd]; exact hcount
  · rw [Dev.notify_body, Dev.notify_marks, Dev.notify_parts]
    exact (congrArg (fun d : Dev => { d with marks := marks, parts := parts }) hwithin.body_eq :)

/-- The relay that has been waited for is gone, and the answer to its request has been handed over and kept. -/
theorem Dev.dictRelayTimeout_only {s : Dev} {trx reqid : Nat} {r : DictReq} (h : s.herd.relays = [(trx, r, .m)]) (hid : r.reqid = reqid)
    (ha : s.answers .m = true) (hidle : s.svc.waiting = []) :
    ∃ svc, s.dictRelayTimeout reqid = { s.useFree.send (.response .m (s.response r trx { status := stUnreach })) with
      herd := { s.herd with relays := [] }, svc := svc } := by
  have hfind : s.relayOf reqid = some (trx, r, .m) := by
    unfold relayOf
    rw [h]
    simp [hid]
  have hgone : (s.herd.relays.filter fun x => !(x == (trx, r, Port.m))) = [] := by rw [h]; simp
  have ha' : Dev.answers { s with herd := { s.herd with relays := [] } } .m = true := ha
  unfold dictRelayTimeout
  rw [hfind]
  dsimp only
  unfold endRelay
  dsimp only
  rw [hgone, if_pos ha']
  unfold answer
  dsimp only
  unfold remember
  have hstill : Dev.answers ((Dev.useFree { s with herd := { s.herd with relays := [] } }).hand .m r
      (Dev.response { s with herd := { s.herd with relays := [] } } r trx { status := stUnreach })) .m = true := ha
  rw [hstill]
  unfold takeAll
  dsimp only
  have hnone : ((Dev.useFree { s with herd := { s.herd with relays := [] } }).hand .m r
      (Dev.response { s with herd := { s.herd with relays := [] } } r trx { status := stUnreach })).svc.waiting = [] := hidle
  simp only [Bool.not_true, Bool.false_eq_true, if_false, hnone, List.append_nil, List.foldl_nil]
  exact ⟨_, rfl⟩

theorem completes_dictRelayTimeout {s : State} {trx reqid : Nat} {r : DictReq} (hreq : reqid < 2 ^ 32) (h : s.herd.relays = [(trx, r, .m)])
    (hid : r.reqid = reqid) (ha : s.answers .m = true) (hidle : s.svc.waiting = []) :
    Completes (.dictRelayTimeout reqid) s fun t =>
      t.herd.relays = [] ∧ Out.response .m (s.response r trx { status := stUnreach }) ∈ t.out ∧ KeepsFields s t [] ∧
      t.rest = { s.rest with herd := t.herd, svc := t.svc, free := t.free } := by
  obtain ⟨svc, heff⟩ := Dev.dictRelayTimeout_only h hid ha hidle
  generalize s.toDev.response r trx { status := stUnreach } = x at *
  generalize hherd : ({ s.herd with relays := [] } : Herd) = herd at heff
  have hwithin : Dev.Within [] (fun _ => ()) s.toDev { s.useFree.send (.response .m x) with herd := herd, svc := svc } := ⟨.of_regs rfl rfl rfl, rfl⟩
  refine .of_effect (exec_dictRelayTimeout ..) (decide_eq_true hreq) heff ⟨?_, Dev.mem_out_notify ?_, hwithin.kept, ?_⟩
  · rw [Dev.notify_herd, ← hherd]
  · exact s.useFree.mem_out_send _
  · rw [Dev.notify_rest, Dev.notify_herd, Dev.notify_svc, Dev.notify_free]
    rfl

/-- Settles O52: a port's state is its flags and its buffers; a frame that is sent again is the oldest of the replay buffer, one that has
failed four times takes the port down, and a member's loss and a relay's end change what the clause names. -/
theorem herdPortsAndMembers : Obligations.HerdPortsAndMembers := by
  intro s p h n k typ ack reqid trx f l m r
  refine ⟨completes_zanyxLinkUp, completes_zanyxPortDown, fun hup hreplay hk => ⟨completes_replayTimeout hup hreplay hk, fun hack hne hnil => ?_⟩,
    completes_replayTimeout_failed, completes_zanyxSleep, completes_zanyxWake, completes_idleFrame, completes_zanyxBadFrame,
    completes_zanyxBadFrame_crc, completes_helloSend, completes_workerLost, completes_dictRelayTimeout⟩
  subst hnil
  exact completes_zanyxNak hup hreplay hk hack hne

end Sys2Proof.Machine
end

section
/-! The dictionary service (R357, R361, R363 to R366). -/

namespace Sys2Proof.Machine

open Sys2Proof

/-- A command completes once: what two statements say of the state it leaves holds of one. -/
theorem Completes.and {c : Instr} {s : State} {P Q : State → Prop} (hP : Completes c s P) (hQ : Completes c s Q) :
    Completes c s fun t => P t ∧ Q t := by
  obtain ⟨t, ht, hPt⟩ := hP
  obtain ⟨t', ht', hQt⟩ := hQ
  obtain rfl : t = t' := by rw [ht] at ht'; exact Host.Outcome.next.inj ht'
  exact ⟨t, ht, hPt, hQt⟩

/-! ### The response of a request -/

/-- What the module holds beside the stored responses, the free values used and the windows of BAR0. -/
def Dev.butCache (s : Dev) : Dev := { s with svc := { s.svc with cache := [] }, free := 0, bar := [] }

/-- What the module holds beside the state of the service, the free values used and the windows of BAR0. -/
def Dev.butService (s : Dev) : Dev := { s with svc := {}, free := 0, bar := [] }

/-- The flags of the mailbox that a response changes. -/
def mailboxFields : List (Field × Nat) := [(.MLK_MBX_STAT_BUSY, 0), (.MLK_MBX_STAT_DONE, 0)]

theorem Dev.rest_of_butService {s t : Dev} (h : t.rest.butService = s.rest.butService) :
    t.rest = { s.rest with svc := t.svc, free := t.free, bar := t.bar } :=
  (congrArg (fun d : Dev => { d with svc := t.svc, free := t.free, bar := t.bar }) h :)

theorem Dev.Within.butService {l : List (Field × Nat)} {s t : Dev} (h : Within l butCache s t) : Within l butService s t :=
  ⟨h.fields, (congrArg (fun d : Dev => { d with svc := {} }) h.same :)⟩

theorem Dev.Within.putBars {α : Type} {l : List (Field × Nat)} {m : Dev → α} {s t : Dev} (h : Within l m s t) (a : Nat) (bs : List Byte)
    (hm : ∀ d x, m { d with bar := x } = m d) : Within l m s (t.putBars a bs) := by
  induction bs generalizing t a with
  | nil => exact h
  | cons b bs ih => exact ih (h.step (u := t.putBar a b) rfl rfl rfl (hm t.rest _)) (a + 1)

theorem Dev.putBars_out (s : Dev) (a : Nat) (bs : List Byte) : (s.putBars a bs).out = s.out := by
  induction bs generalizing s a with
  | nil => rfl
  | cons b bs ih => exact ih (s.putBar a b) (a + 1)

/-- A response that is handed over at a port of this module is sent there. -/
theorem Dev.hand_reads (s : Dev) {p : Port} (hp : p ≠ .z) (r : DictReq) (x : DictResp) :
    Within mailboxFields butCache s (s.hand p r x) ∧ Out.response p x ∈ (s.hand p r x).out := by
  have hsend : Within mailboxFields butCache s (s.send (.response p x)) := (Within.refl _ _ s).send _
  have hmem : Out.response p x ∈ (s.send (.response p x)).out := s.mem_out_send _
  cases p with
  | z => exact absurd rfl hp
  | c => exact ⟨hsend, hmem⟩
  | m => exact ⟨hsend, hmem⟩
  | h =>
    unfold hand
    dsimp only
    split
    · refine ⟨((hsend.putBars _ _ fun _ _ => rfl).setFlag _ (by decide) (by simp [mailboxFields])).setFlag _ (by decide)
        (by simp [mailboxFields]), ?_⟩
      simp only [Dev.setFlag, Dev.wr_out, Dev.putBars_out]
      exact hmem
    · exact ⟨hsend, hmem⟩

theorem Dev.remember_reads (s : Dev) (p : Port) (r : DictReq) (x : DictResp) :
    Within [] butCache s (s.remember p r x) ∧ (s.remember p r x).out = s.out := by
  unfold remember
  split
  · exact ⟨.refl _ _ s, rfl⟩
  · exact ⟨(Within.refl _ _ s).step rfl rfl rfl rfl, rfl⟩

/-- What the end of a request with an answer leaves: its response, sent by its port, and otherwise the service's own state. -/
theorem Dev.answer_reads (s : Dev) {p : Port} (hp : p ≠ .z) (r : DictReq) (trx : Nat) (a : Reply) :
    Within mailboxFields butCache s (s.answer p r trx a) ∧ Out.response p (s.response r trx a) ∈ (s.answer p r trx a).out := by
  have hfree : Within mailboxFields butCache s s.useFree := (Within.refl _ _ s).useFree fun _ _ => rfl
  obtain ⟨hhand, hmem⟩ := s.useFree.hand_reads hp r (s.response r trx a)
  obtain ⟨hrem, hout⟩ := (s.useFree.hand p r (s.response r trx a)).remember_reads p r (s.response r trx a)
  exact ⟨(hfree.trans hhand).trans (hrem.mono (by simp)), hout ▸ hmem⟩

theorem Dev.answer_seqs (s : Dev) {p : Port} (hp : p ≠ .z) (r : DictReq) (trx : Nat) (a : Reply) :
    (s.answer p r trx a).svc.seqs = s.svc.seqs := (congrArg (fun d : Dev => d.svc.seqs) (s.answer_reads hp r trx a).1.same :)

/-! ### A request that no other awaits -/

/-- The module as the service takes a request: the mailbox is busy with one of its own, and a free value has gone into the stamp of receipt. -/
def Dev.received (s : Dev) (p : Port) : Dev := (if p = .h then s.setFlag .MLK_MBX_STAT_BUSY 0 true else s).useFree

theorem Dev.received_within (s : Dev) (p : Port) : Within mailboxFields butCache s (s.received p) := by
  unfold received
  split
  · exact ((Within.refl _ _ s).setFlag true (by decide) (by simp [mailboxFields])).useFree fun _ _ => rfl
  · exact (Within.refl _ _ s).useFree fun _ _ => rfl

theorem Dev.received_svc (s : Dev) (p : Port) : (s.received p).svc = s.svc := by
  unfold received; split <;> simp [useFree, setFlag]

theorem Dev.received_herd (s : Dev) (p : Port) : (s.received p).herd = s.herd := (congrArg Dev.herd (s.received_within p).same :)

theorem Dev.received_power (s : Dev) (p : Port) : (s.received p).power = s.power := (congrArg Dev.power (s.received_within p).same :)

theorem Dev.received_rd (s : Dev) (p : Port) {f : Field} {i : Nat} (hi : i < 1024) (hf : (f, i) ∉ mailboxFields) :
    (s.received p).rd f i = s.rd f i := (s.received_within p).rd hi hf

theorem Dev.received_answers (s : Dev) (p q : Port) : (s.received p).answers q = s.answers q := by
  have hod (index sub d : Nat) : (s.received p).odNum index sub d = s.odNum index sub d := by
    have hod : (s.received p).od = s.od := (congrArg Dev.od (s.received_within p).same :)
    unfold odNum; rw [hod]
  have hon (e : Nat) (he : e < 1024) : (s.received p).ipOn e = s.ipOn e := by
    unfold ipOn
    rw [hod, (s.received_within p).flag he (by simp [mailboxFields])]
  have hpath : (s.received p).pathOn q = s.pathOn q := by
    cases q <;> simp only [pathOn, hon 0 (by decide), hon 1 (by decide), hon 2 (by decide)]
  simp only [answers, hpath, received_power, s.received_rd p (f := .RCP_STATE_STAGE) (i := 0) (by decide) (by decide)]

theorem Dev.received_repeated (s : Dev) (p q : Port) (r : DictReq) : (s.received p).repeated q r = s.repeated q r := by
  simp only [repeated, received_svc]

theorem Dev.received_isLocal (s : Dev) (p : Port) (r : DictReq) : (s.received p).isLocal r = s.isLocal r := by
  simp only [isLocal, memberNo, worker, s.received_rd p (f := .HRD_CTL_ROLE) (i := 0) (by decide) (by decide),
    s.received_rd p (f := .HRD_CTL_MEMBER) (i := 0) (by decide) (by decide)]
  rfl

/-- A single request is served where none waits and none is relayed. -/
theorem Dev.takeAll_one {s : Dev} (hrel : s.herd.relays = []) (hwait : s.svc.waiting = []) (e : Nat × Port × DictReq × Bool) :
    s.takeAll [e] = s.serve e.1 e.2.1 e.2.2.1 e.2.2.2 := by
  have hself : { s with svc := { s.svc with waiting := [] } } = s := by rw [← hwait]
  have htake : s.take e = s.serve e.1 e.2.1 e.2.2.1 e.2.2.2 := if_pos (by simp [hrel])
  rw [← htake]
  calc s.takeAll [e] = (s.svc.waiting ++ [e]).foldl (fun (d : Dev) e => d.take e) { s with svc := { s.svc with waiting := [] } } := rfl
    _ = s.take e := by rw [hself, hwait]; rfl

/-- Where no request waits and none is relayed, one that arrives is served. -/
theorem Dev.arrival_served {s : Dev} {p : Port} (r : DictReq) (bad : Bool) (ha : s.answers p = true) (hrel : s.herd.relays = [])
    (hwait : s.svc.waiting = []) :
    s.arrival p r bad = (s.received p).serve (wrap 64 (s.fullNs + s.freeValue 32 % 5001)) p r bad := by
  have htaken : s.mailboxTaken = false := by simp [mailboxTaken, hrel, hwait]
  have hqueue : s.queueFull32 p r = false := by
    unfold queueFull32
    split
    · simp [queuedBy, hwait]
    · rfl
  have hrecv : (if p == .h then s.setFlag .MLK_MBX_STAT_BUSY 0 true else s).useFree = s.received p := by simp [received]
  simp only [arrival, ha, htaken, hqueue, hrecv]
  rw [if_neg (by decide), Bool.and_false, if_neg (by decide), if_neg (by decide)]
  exact Dev.takeAll_one (s := s.received p) (by rw [received_herd, hrel]) (by rw [received_svc, hwait]) _

/-- A request of this module's that is not a repeat and has the form of R362 is answered with what its operation says. -/
theorem Dev.arrival_answered {s : Dev} {p : Port} {r : DictReq} (bad : Bool) (ha : s.answers p = true) (hrel : s.herd.relays = [])
    (hwait : s.svc.waiting = []) (hnew : s.repeated p r = none) (hok : headerOk r = true) (hloc : s.isLocal r = true)
    {u : Dev} {a : Reply} (h : (s.received p).serveHere p r bad = (u, a)) :
    s.arrival p r bad = u.answer p r (wrap 64 (s.fullNs + s.freeValue 32 % 5001)) a := by
  rw [arrival_served r bad ha hrel hwait]
  simp [serve, received_answers, ha, received_repeated, hnew, hok, received_isLocal, hloc, h]

theorem Dev.serveHere_noEntry {s : Dev} {p : Port} {r : DictReq} (bad : Bool) (he : odEntry? r.index r.sub = none) :
    s.serveHere p r bad = (s, { status := stNoEntry }) := by simp [serveHere, he]

section
variable {s : Dev} {p : Port} {r : DictReq} {e : OdEntry} (bad : Bool) (hpow : s.power ≠ .recovery) (he : odEntry? r.index r.sub = some e)
include hpow he

theorem Dev.serveHere_read (hop : r.op = 1) (htyp : e.typ ≠ 9) (hr : mayRead e.rights p = true) :
    s.serveHere p r bad = (s.readsEntry r.index r.sub 0 0, { status := stOk, data := odEncode e (s.odValue r.index r.sub e) }) := by
  simp [serveHere, he, hpow, hop, hr, opRead, htyp]

theorem Dev.serveHere_info (hop : r.op = 3) (hr : mayRead e.rights p = true) :
    s.serveHere p r bad = (s, { status := stOk, data := s.infoBytes r.index r.sub e }) := by
  simp [serveHere, he, hpow, hop, hr]

theorem Dev.serveHere_readseg (hop : r.op = 4) (hr : mayRead e.rights p = true) (hofs : r.offset ≤ s.odLength r.index r.sub e) :
    s.serveHere p r bad = (s.readsEntry r.index r.sub r.offset r.length,
      { status := stOk, flags := (decide (s.odLength r.index r.sub e ≤ r.offset + r.length)).toNat,
        data := s.odPart r.index r.sub e r.offset r.length }) := by
  simp [serveHere, he, hpow, hop, hr, opReadseg, Nat.not_lt.2 hofs]

theorem Dev.serveHere_denied (hop : r.op = 2) (hw : mayWrite e.rights p = false) :
    s.serveHere p r bad = (s, { status := stDenied }) := by
  simp [serveHere, he, hpow, hop, hw]

theorem Dev.serveHere_write (hop : r.op = 2) (hw : mayWrite e.rights p = true) (htyp : e.typ ≠ 9) {v : OdVal} (hv : odDecode e r.data = some v) :
    s.serveHere p r bad =
      (s.odWrite p r.index r.sub e v bad, { status := (s.odWrite p r.index r.sub e v bad).svc.lastStatus }) := by
  simp [serveHere, he, hpow, hop, hw, opWrite, htyp, hv]

/-- The first of several segments opens a sequence. -/
theorem Dev.serveHere_writeseg (hop : r.op = 5) (hw : mayWrite e.rights p = true) (htyp : e.typ = 9) (hseq : s.svc.seqs = [])
    (hofs : r.offset = 0) (hdata : r.data ≠ []) (hmore : bit r.flags 0 = false) (hidx : r.index ≠ 0xA200) :
    s.serveHere p r bad =
      ({ s with svc := { s.svc with seqs := [{ key := odKey r.index r.sub, port := p, src := r.src, data := r.data }] } },
        { status := stOk }) := by
  simp [serveHere, he, hpow, hop, hw, opWriteseg, htyp, hseq, hofs, hmore, hidx, segmentFits, hdata]

end

theorem Dev.readsEntry_within (s : Dev) (index sub ofs n : Nat) :
    Within ((.TLY_STAT_DAMAGED, 0) :: mailboxFields) butCache s (s.readsEntry index sub ofs n) := by
  unfold readsEntry
  split
  · exact (Within.refl _ _ s).useFree fun _ _ => rfl
  · split
    · exact (Within.refl _ _ s).setFlag true (by decide) (by simp)
    · exact .refl _ _ s

/-! ### The commands -/

section
variable (p : Port) (r : DictReq) (bad : Bool) (s : State)

theorem exec_dictRead : exec (.dictRead p r) s = s.run (.dictRead p r) fun d => d.arrival p r false := rfl

theorem exec_dictWrite : exec (.dictWrite p r bad) s = s.run (.dictWrite p r bad) fun d => d.arrival p r bad := rfl

theorem exec_dictInfo : exec (.dictInfo p r) s = s.run (.dictInfo p r) fun d => d.arrival p r false := rfl

theorem exec_dictReadseg : exec (.dictReadseg p r) s = s.run (.dictReadseg p r) fun d => d.arrival p r false := rfl

theorem exec_dictWriteseg : exec (.dictWriteseg p r bad) s = s.run (.dictWriteseg p r bad) fun d => d.arrival p r bad := rfl

theorem exec_malformedDatagram (w : Malformed) :
    exec (.malformedDatagram w) s = s.run (.malformedDatagram w) fun d => d.malformed w := rfl

theorem exec_segmentSequenceTimeout (i k : Nat) :
    exec (.segmentSequenceTimeout i k) s = s.run (.segmentSequenceTimeout i k) fun d => d.dropSequence i k := rfl

theorem exec_responseCacheExpiry (i k : Nat) :
    exec (.responseCacheExpiry i k) s = s.run (.responseCacheExpiry i k) fun d => d.forget i k := rfl

end

section
variable {s : State} {p : Port} {r : DictReq} {c : Instr} {bad : Bool} {l : List (Field × Nat)} {u : Dev} {a : Reply}

/-- A request that is answered with `a`, its operation having left `u`: the response leaves by the port, and only the service's own state
changes beside what the operation changed. -/
theorem completes_answered (hexec : exec c s = s.run c fun d => d.arrival p r bad) (hwf : c.wf = true) (hp : p ≠ .z)
    (heff : s.toDev.arrival p r bad = u.answer p r (wrap 64 (s.fullNs + s.freeValue 32 % 5001)) a)
    (hop : Dev.Within l Dev.butService (s.toDev.received p) u) (hl : ∀ e ∈ mailboxFields, e ∈ l) :
    Completes c s fun t =>
      Out.response p (u.response r (wrap 64 (s.fullNs + s.freeValue 32 % 5001)) a) ∈ t.out ∧ KeepsFields s t l ∧
      t.rest = { s.rest with svc := t.svc, free := t.free, bar := t.bar } := by
  obtain ⟨hwithin, hmem⟩ := u.answer_reads hp r (wrap 64 (s.fullNs + s.freeValue 32 % 5001)) a
  have hall := (((s.toDev.received_within p).butService.mono hl).trans hop).trans (hwithin.butService.mono hl)
  refine .of_effect hexec hwf heff ⟨Dev.mem_out_notify hmem, hall.kept, ?_⟩
  rw [Dev.notify_rest, Dev.notify_svc, Dev.notify_free, Dev.notify_bar]
  exact Dev.rest_of_butService hall.same

/-- A repeat gets the stored response. -/
theorem completes_repeated (hwf : r.wf = true) (hwhole : r.whole = true) (hp : p ≠ .z) (ha : s.answers p = true) (hrel : s.herd.relays = [])
    (hwait : s.svc.waiting = []) {x : CacheEntry} (hx : s.repeated p r = some x) (hop : r.op = 1) :
    Completes (.dictRead p r) s fun t =>
      Out.response p x.resp ∈ t.out ∧ KeepsFields s t mailboxFields ∧ t.rest = { s.rest with svc := t.svc, free := t.free, bar := t.bar } := by
  have heff : s.toDev.arrival p r false = (s.toDev.received p).hand p r x.resp := by
    rw [Dev.arrival_served r false ha hrel hwait]
    simp [Dev.serve, Dev.received_answers, ha, Dev.received_repeated, hx, hp]
  obtain ⟨hwithin, hmem⟩ := (s.toDev.received p).hand_reads hp r x.resp
  have hall := ((s.toDev.received_within p).trans hwithin).butService
  refine .of_effect (exec_dictRead p r s) (by simp [Instr.wf, hwf, hwhole, hop]) heff ⟨Dev.mem_out_notify hmem, hall.kept, ?_⟩
  rw [Dev.notify_rest, Dev.notify_svc, Dev.notify_free, Dev.notify_bar]
  exact Dev.rest_of_butService hall.same

theorem completes_badHeader (hwf : r.wf = true) (hp : p ≠ .z) (ha : s.answers p = true) (hrel : s.herd.relays = [])
    (hwait : s.svc.waiting = []) (hnew : s.repeated p r = none) (hok : headerOk r = false) :
    Completes (.malformedDatagram (.badHeader p r)) s fun t =>
      Out.response p ((s.toDev.received p).response r (wrap 64 (s.fullNs + s.freeValue 32 % 5001)) { status := stBadReq }) ∈ t.out ∧
      KeepsFields s t mailboxFields ∧ t.rest = { s.rest with svc := t.svc, free := t.free, bar := t.bar } := by
  have heff : s.toDev.arrival p r false =
      (s.toDev.received p).answer p r (wrap 64 (s.fullNs + s.freeValue 32 % 5001)) { status := stBadReq } := by
    rw [Dev.arrival_served r false ha hrel hwait]
    simp [Dev.serve, Dev.received_answers, ha, Dev.received_repeated, hnew, hok]
  refine completes_answered (bad := false) ?_ hwf hp heff (.refl _ _ _) fun _ h => h
  have hbad : (fun d : Dev => d.malformed (.badHeader p r)) = fun d : Dev => d.arrival p r false := by
    funext d; simp [Dev.malformed, hok]
  rw [exec_malformedDatagram, hbad]

theorem completes_shortDatagram (ha : s.answers .m = true) :
    Completes (.malformedDatagram .short) s fun t =>
      t.odNum 0x1001 2 0 = wrap 32 (s.odNum 0x1001 2 0 + 1) ∧ KeepsFields s t [] ∧ t.rest = { s.rest with od := t.od } := by
  have heff : s.toDev.malformed .short = s.toDev.countOd 0x1001 2 32 := if_pos ha
  have hwithin : Dev.Within [] (fun _ => ()) s.toDev (s.toDev.countOd 0x1001 2 32) := ⟨.of_regs rfl rfl rfl, rfl⟩
  refine .of_effect (exec_malformedDatagram s .short) rfl heff ⟨?_, hwithin.kept, ?_⟩
  · rw [Dev.notify_odNum]; exact Dev.odNum_setOd_same ..
  · rw [Dev.notify_rest, Dev.notify_od]; rfl

theorem completes_segmentSequenceTimeout {i k : Nat} (hi : i < 65536) (hk : k < 256) :
    Completes (.segmentSequenceTimeout i k) s fun t =>
      t.svc.seqs = s.svc.seqs.filter (fun q => q.key != odKey i k) ∧ KeepsFields s t [] ∧ t.rest = { s.rest with svc := t.svc } := by
  have hwithin : Dev.Within [] (fun _ => ()) s.toDev (s.toDev.dropSequence i k) := ⟨.of_regs rfl rfl rfl, rfl⟩
  refine .of_effect (exec_segmentSequenceTimeout s i k) (by simp [Instr.wf, fitsU, hi, hk]) rfl ⟨?_, hwithin.kept, ?_⟩
  · rw [Dev.notify_svc]; rfl
  · rw [Dev.notify_rest, Dev.notify_svc]; rfl

theorem completes_responseCacheExpiry (i k : Nat) :
    Completes (.responseCacheExpiry i k) s fun t =>
      t.svc.cache = s.svc.cache.filter (fun q => !(q.src == i && q.reqid == k)) ∧ KeepsFields s t [] ∧ t.rest = { s.rest with svc := t.svc } := by
  have hwithin : Dev.Within [] (fun _ => ()) s.toDev (s.toDev.forget i k) := ⟨.of_regs rfl rfl rfl, rfl⟩
  refine .of_effect (exec_responseCacheExpiry s i k) rfl rfl ⟨?_, hwithin.kept, ?_⟩
  · rw [Dev.notify_svc]; rfl
  · rw [Dev.notify_rest, Dev.notify_svc]; rfl

end

/-- Settles O54: a request that finds nothing waiting is served at once, each operation answers as it says, and the answer changes the
service's own state and the mailbox alone. -/
theorem dictionaryServed : Obligations.DictionaryServed := by
  intro s p r e x bad i k v hp ha hpow hrel hwait hwf hwhole
  have hpow' : (s.toDev.received p).power ≠ .recovery := by rw [Dev.received_power]; exact hpow
  have hdamaged : ∀ e ∈ mailboxFields, e ∈ (.TLY_STAT_DAMAGED, 0) :: mailboxFields := fun _ h => List.mem_cons_of_mem _ h
  refine ⟨fun hnew hok hloc => ⟨fun he => ⟨fun hop htyp hr => ?_, fun hop hr => ?_, fun hop hr hofs => ?_, fun hop hw => ?_,
      fun hop hw htyp hv => ?_, fun hop hw htyp hseq hofs hdata hmore hidx => ?_⟩, fun he hop => ?_⟩,
    completes_repeated hwf hwhole hp ha hrel hwait, completes_badHeader hwf hp ha hrel hwait, completes_shortDatagram,
    completes_segmentSequenceTimeout, completes_responseCacheExpiry i k⟩
  · exact completes_answered (exec_dictRead p r s) (by simp [Instr.wf, hwf, hwhole, hop]) hp
      (Dev.arrival_answered false ha hrel hwait hnew hok hloc (Dev.serveHere_read false hpow' he hop htyp hr))
      (Dev.readsEntry_within ..).butService hdamaged
  · exact completes_answered (exec_dictInfo p r s) (by simp [Instr.wf, hwf, hwhole, hop]) hp
      (Dev.arrival_answered false ha hrel hwait hnew hok hloc (Dev.serveHere_info false hpow' he hop hr)) (.refl _ _ _) fun _ h => h
  · exact completes_answered (exec_dictReadseg p r s) (by simp [Instr.wf, hwf, hwhole, hop]) hp
      (Dev.arrival_answered false ha hrel hwait hnew hok hloc (Dev.serveHere_readseg false hpow' he hop hr hofs))
      (Dev.readsEntry_within ..).butService hdamaged
  · exact completes_answered (exec_dictWrite p r bad s) (by simp [Instr.wf, hwf, hwhole, hop]) hp
      (Dev.arrival_answered bad ha hrel hwait hnew hok hloc (Dev.serveHere_denied bad hpow' he hop hw)) (.refl _ _ _) fun _ h => h
  · have heff := Dev.arrival_answered bad ha hrel hwait hnew hok hloc (Dev.serveHere_write bad hpow' he hop hw htyp hv)
    obtain ⟨hwithin, hmem⟩ := ((s.toDev.received p).odWrite p r.index r.sub e v bad).answer_reads hp r
      (wrap 64 (s.fullNs + s.freeValue 32 % 5001)) { status := ((s.toDev.received p).odWrite p r.index r.sub e v bad).svc.lastStatus }
    refine .of_effect (exec_dictWrite p r bad s) (by simp [Instr.wf, hwf, hwhole, hop]) heff ⟨Dev.mem_out_notify hmem, ?_, ?_⟩
    · rw [Dev.notify_od]; exact (congrArg Dev.od hwithin.same :)
    · rw [Dev.notify_nvm]; exact (congrArg Dev.nvm hwithin.same :)
  · have heff := Dev.arrival_answered bad ha hrel hwait hnew hok hloc (Dev.serveHere_writeseg bad hpow' he hop hw htyp
      (by rw [Dev.received_svc]; exact hseq) hofs hdata hmore hidx)
    have hwf' : (Instr.dictWriteseg p r bad).wf = true := by simp [Instr.wf, hwf, hwhole, hop]
    have hwithin : Dev.Within mailboxFields Dev.butService (s.toDev.received p) { s.toDev.received p with svc := {
      (s.toDev.received p).svc with seqs := [{ key := odKey r.index r.sub, port := p, src := r.src, data := r.data }] } } :=
      ⟨.of_regs rfl rfl rfl, rfl⟩
    have hseqs : Completes (.dictWriteseg p r bad) s fun t =>
        t.svc.seqs = [{ key := odKey r.index r.sub, port := p, src := r.src, data := r.data }] := by
      refine .of_effect (exec_dictWriteseg p r bad s) hwf' heff ?_
      rw [Dev.notify_svc]; exact Dev.answer_seqs _ hp r _ _
    have hanswer := completes_answered (exec_dictWriteseg p r bad s) hwf' hp heff hwithin fun _ h => h
    exact hseqs.and hanswer
  · exact completes_answered (exec_dictRead p r s) (by simp [Instr.wf, hwf, hwhole, hop]) hp
      (Dev.arrival_answered false ha hrel hwait hnew hok hloc (Dev.serveHere_noEntry false he)) (.refl _ _ _) fun _ h => h

end Sys2Proof.Machine

end

section
/-! Milkhouse: sensors, fans, the Tally, the option bytes, firmware banks, maintenance, self-tests and trace (R404 to R413, R417 to R422). -/

namespace Sys2Proof.Machine

open Sys2Proof

/-! ### A row of register fields -/

/-- Instances 0 to `n - 1` of a field are written. -/
def Dev.wrRow (s : Dev) (f : Field) (n : Nat) (v : Nat → Nat) : Dev := (upTo n).foldl (fun d k => d.wr f k (v k)) s

/-- The instances that a row writes. -/
def rowOf (f : Field) (n : Nat) : List (Field × Nat) := (upTo n).map fun k => (f, k)

theorem mem_rowOf {f g : Field} {i n : Nat} : (g, i) ∈ rowOf f n ↔ g = f ∧ i < n := by
  simp only [rowOf, List.mem_map, mem_upTo, Prod.mk.injEq]
  constructor
  · rintro ⟨k, hk, rfl, rfl⟩; exact ⟨rfl, hk⟩
  · rintro ⟨rfl, hi⟩; exact ⟨i, hi, rfl, rfl⟩

theorem Dev.Within.wrRow {α : Type} {l : List (Field × Nat)} {m : Dev → α} {s t : Dev} (h : Within l m s t) {f : Field} {n : Nat} (v : Nat → Nat)
    (hn : n ≤ 1024) (hl : ∀ e ∈ rowOf f n, e ∈ l) : Within l m s (t.wrRow f n v) :=
  .foldl _ h fun d k hk => (Within.refl l m d).wr _ (by have := lt_of_mem_upTo hk; omega) (hl _ (mem_rowOf.2 ⟨rfl, lt_of_mem_upTo hk⟩))

theorem Dev.wrRow_rd (s : Dev) {f : Field} {n k : Nat} (v : Nat → Nat) (hn : n ≤ 1024) (hk : k < n) :
    (s.wrRow f n v).rd f k = wrap f.desc.width (v k) := by
  have hfold (l : List Nat) (hl : ∀ j ∈ l, j < 1024) (d : Dev) :
      (l.foldl (fun d j => d.wr f j (v j)) d).rd f k = if k ∈ l then wrap f.desc.width (v k) else d.rd f k := by
    induction l generalizing d with
    | nil => rfl
    | cons j l ih =>
      rw [List.foldl_cons, ih (fun i hi => hl i (List.mem_cons_of_mem _ hi))]
      by_cases hjk : k = j
      · subst hjk; simp
      · rw [Dev.rd_wr_ne _ _ _ _ _ _ (hl j List.mem_cons_self) (by omega) fun e => hjk e.2.symm]
        simp [hjk]
  exact (hfold (upTo n) (fun j hj => by have := lt_of_mem_upTo hj; omega) s).trans (if_pos (mem_upTo.2 hk))

/-! ### Sensors -/

/-- What a change of CCLK leaves alone: the power state, memory and the part table. -/
def Dev.unheated (s : Dev) : Power × List Host.Cell × List Part := (s.power, s.mem, s.parts)

/-- The fields that the throttle may change. -/
def throttleFields : List (Field × Nat) := (.GLB_DET_STAT_THROT, 0) :: (.GLB_DET_STAT_FIXDIST, 0) :: logFields

theorem Dev.quiet_unheated : Quiet unheated := fun _ _ h => (congrArg unheated h :)

section
variable {l : List (Field × Nat)} {s t : Dev}

theorem Dev.Within.settle (h : Within l unheated s t) (n : Nat) : Within l unheated s (t.settle n) := by
  unfold Dev.settle
  split
  · exact h
  · exact h.step rfl rfl rfl rfl

theorem Dev.Within.sampleJob (h : Within l unheated s t) (q : Nat) : Within l unheated s (t.sampleJob q) := h.step rfl rfl rfl rfl

theorem Dev.Within.disturb {α : Type} {m : Dev → α} (h : Within l m s t) (hl : (.GLB_DET_STAT_FIXDIST, 0) ∈ l)
    (hm : ∀ d a b, m { d with od := a, runHit := b } = m d) : Within l m s t.disturb := by
  have hset := h.setFlag true (f := .GLB_DET_STAT_FIXDIST) (i := 0) (by decide) hl
  unfold Dev.disturb
  split
  · exact h
  · dsimp only
    split
    · exact hset
    · exact hset.step rfl rfl rfl (hm (t.setFlag .GLB_DET_STAT_FIXDIST 0 true).rest _ _)

end

theorem Dev.setCclk_within (s : Dev) (khz : Nat) : Within throttleFields unheated s (s.setCclk khz) := by
  have hlog : ∀ e ∈ logFields, e ∈ throttleFields := fun _ h => List.mem_cons_of_mem _ (List.mem_cons_of_mem _ h)
  have hsettle : Within throttleFields unheated s ((upTo 16).foldl (fun (d : Dev) n => d.settle n) s) :=
    .foldl _ (.refl _ _ s) fun d n _ => (Within.refl _ _ d).settle n
  unfold setCclk
  dsimp only
  generalize (upTo 16).foldl (fun (d : Dev) n => d.settle n) s = u at hsettle ⊢
  have hsample : Within throttleFields unheated s ((u.jobs.map fun (j : Job) => j.seq).foldl (fun (d : Dev) q => d.sampleJob q) u) :=
    hsettle.trans (.foldl _ (.refl _ _ u) fun d q _ => (Within.refl _ _ d).sampleJob q)
  generalize (u.jobs.map fun (j : Job) => j.seq).foldl (fun (d : Dev) q => d.sampleJob q) u = v at hsample ⊢
  have hclock : Within throttleFields unheated s { v with mlk := { v.mlk with cclk := khz, cool := 0 } } := hsample.step rfl rfl rfl rfl
  exact ((hclock.setFlag true (by decide) (by simp [throttleFields])).tally _ _ _ _ _ hlog quiet_unheated).disturb (by simp [throttleFields])
    fun _ _ _ => rfl

theorem Dev.throttle_within (s : Dev) : Within throttleFields unheated s s.throttle := by
  have hcool (n : Nat) : Within throttleFields unheated s (s.setCool n) := (Within.refl _ _ s).step rfl rfl rfl rfl
  unfold throttle
  dsimp only
  repeat' split
  · exact s.setCclk_within _
  · exact hcool _
  · exact s.setCclk_within _
  · exact hcool _
  · exact hcool _

/-- The fields that the sensors fill. -/
def sensorFields : List (Field × Nat) :=
  rowOf .MLK_TEMP 32 ++ rowOf .MLK_VMON 16 ++ rowOf .MLK_IMON 4 ++ [(.MLK_TACH_TACH0, 0), (.MLK_TACH_TACH1, 0)]

/-- The registers of temperatures, voltages, currents and fan speeds take what the sensors give. -/
def Dev.sensed (s : Dev) (x : Sensors) : Dev :=
  ((((s.wrRow .MLK_TEMP 32 fun n => unsgn 16 (x.temps.getD n 0)).wrRow .MLK_VMON 16 fun n => x.volts.getD n 0).wrRow .MLK_IMON 4 fun n =>
    x.amps.getD n 0).wr .MLK_TACH_TACH0 0 x.tach0).wr .MLK_TACH_TACH1 0 x.tach1

/-- Fans are no longer held to have failed. -/
def Dev.fansTurn (s : Dev) (ok : Nat) : Dev := { s with mlk := { s.mlk with fanFail := clearBits s.mlk.fanFail ok } }

theorem Dev.readSensors_eq {s : Dev} (x : Sensors) (h : s.mntSt .C ≠ 2) :
    s.readSensors x = (s.sensed x).fansTurn (maskOf ((upTo 2).filter fun k => decide (300 ≤ if k = 0 then x.tach0 else x.tach1))) :=
  if_neg h

theorem Dev.sensed_reads (s : Dev) (x : Sensors) :
    Within sensorFields unheated s (s.sensed x) ∧ (∀ m < 32, (s.sensed x).rd .MLK_TEMP m = unsgn 16 (x.temps.getD m 0)) ∧
      ∀ m < 4, (s.sensed x).rd .MLK_IMON m = wrap 16 (x.amps.getD m 0) := by
  have htemp : Within (rowOf .MLK_TEMP 32) unheated s (s.wrRow .MLK_TEMP 32 fun n => unsgn 16 (x.temps.getD n 0)) :=
    (Within.refl _ _ s).wrRow _ (by decide) fun _ h => h
  have htempRd (m : Nat) (hm : m < 32) := s.wrRow_rd (f := .MLK_TEMP) (n := 32) (fun n => unsgn 16 (x.temps.getD n 0)) (by decide) hm
  unfold sensed
  generalize (s.wrRow .MLK_TEMP 32 fun n => unsgn 16 (x.temps.getD n 0)) = u at htemp htempRd ⊢
  have hvolt : Within (rowOf .MLK_VMON 16) unheated u (u.wrRow .MLK_VMON 16 fun n => x.volts.getD n 0) :=
    (Within.refl _ _ u).wrRow _ (by decide) fun _ h => h
  generalize (u.wrRow .MLK_VMON 16 fun n => x.volts.getD n 0) = v at hvolt ⊢
  have hamp : Within (rowOf .MLK_IMON 4) unheated v (v.wrRow .MLK_IMON 4 fun n => x.amps.getD n 0) :=
    (Within.refl _ _ v).wrRow _ (by decide) fun _ h => h
  have hampRd (m : Nat) (hm : m < 4) := v.wrRow_rd (f := .MLK_IMON) (n := 4) (fun n => x.amps.getD n 0) (by decide) hm
  generalize (v.wrRow .MLK_IMON 4 fun n => x.amps.getD n 0) = w at hamp hampRd ⊢
  have htach : Within [(.MLK_TACH_TACH0, 0), (.MLK_TACH_TACH1, 0)] unheated w ((w.wr .MLK_TACH_TACH0 0 x.tach0).wr .MLK_TACH_TACH1 0 x.tach1) :=
    ((Within.refl _ _ w).wr _ (by decide) (by simp)).wr _ (by decide) (by simp)
  refine ⟨(((htemp.mono ?_).trans (hvolt.mono ?_)).trans (hamp.mono ?_)).trans (htach.mono ?_), fun m hm => ?_, fun m hm => ?_⟩
  · intro e he; simp [sensorFields, he]
  · intro e he; simp [sensorFields, he]
  · intro e he; simp [sensorFields, he]
  · intro e he; exact List.mem_append_right _ he
  · rw [htach.rd (by omega) (by simp), hamp.rd (by omega) (by simp [mem_rowOf]), hvolt.rd (by omega) (by simp [mem_rowOf]), htempRd m hm]
    exact wrap_of_lt (unsgn_lt 16 _)
  · rw [htach.rd (by omega) (by simp)]; exact hampRd m hm

theorem Dev.hottest_lt (s : Dev) : s.hottest < 30 := by
  have hfold (l : List Nat) (hl : ∀ n ∈ l, n < 30) (m : Nat) (hm : m < 30) :
      l.foldl (fun m n => if s.temp m < s.temp n then n else m) m < 30 :=
    List.foldlRecOn (motive := fun m => m < 30) l _ hm fun m hm n hn => by
      split
      · exact hl n hn
      · exact hm
  exact hfold _ (fun n hn => by have := mem_rangeFrom.1 hn; omega) 0 (by decide)

/-- Sensors 0 to 29 below 115 °C: the registers take the values, and neither the throttle nor the fans change them, the power state, memory
or the part table. -/
theorem Dev.sensorRead_reads {s : Dev} (x : Sensors) (hfw : s.firmware = true) (hmnt : s.mntSt .C ≠ 2)
    (hcold : ∀ m < 30, sgn 16 (unsgn 16 (x.temps.getD m 0)) < 1840) :
    (∀ m < 32, (s.sensorRead x).rd .MLK_TEMP m = unsgn 16 (x.temps.getD m 0)) ∧
      (∀ m < 4, (s.sensorRead x).rd .MLK_IMON m = wrap 16 (x.amps.getD m 0)) ∧ (s.sensorRead x).unheated = s.unheated := by
  obtain ⟨hwithin, htemp, hamp⟩ := s.sensed_reads x
  have hread := s.readSensors_eq x hmnt
  have hfan : Within [] unheated (s.sensed x)
      ((s.sensed x).fansTurn (maskOf ((upTo 2).filter fun k => decide (300 ≤ if k = 0 then x.tach0 else x.tach1)))) :=
    (Within.refl _ _ _).step rfl rfl rfl rfl
  have hset : Within sensorFields unheated s (s.readSensors x) := by
    rw [hread]; exact hwithin.trans (hfan.mono (by simp))
  have htemp' (m : Nat) (hm : m < 32) : (s.readSensors x).rd .MLK_TEMP m = unsgn 16 (x.temps.getD m 0) := by
    rw [hread]; exact (hfan.rd (by omega) (by simp)).trans (htemp m hm)
  have hamp' (m : Nat) (hm : m < 4) : (s.readSensors x).rd .MLK_IMON m = wrap 16 (x.amps.getD m 0) := by
    rw [hread]; exact (hfan.rd (by omega) (by simp)).trans (hamp m hm)
  clear hfan hread hwithin htemp hamp
  unfold sensorRead
  rw [if_neg (by simp [hfw])]
  dsimp only
  generalize s.readSensors x = u at hset htemp' hamp' ⊢
  have hlt : u.temp u.hottest < 1840 := by
    unfold temp
    rw [htemp' _ (by have := u.hottest_lt; omega)]
    exact hcold _ u.hottest_lt
  rw [if_neg (by omega)]
  have hthrottle := u.throttle_within
  generalize u.throttle = v at hthrottle ⊢
  have hfan : Within [(.MLK_FAN, 0)] unheated v (v.wr .MLK_FAN 0 (v.fanDuty (v.temp 31))).useFree :=
    ((Within.refl _ _ v).wr _ (by decide) (by simp)).useFree fun _ _ => rfl
  generalize (v.wr .MLK_FAN 0 (v.fanDuty (v.temp 31))).useFree = w at hfan ⊢
  have hkeeps {f : Field} {i : Nat} (hi : i < 1024) (hf : (f, i) ∉ throttleFields) (hf' : (f, i) ∉ [(Field.MLK_FAN, 0)]) : w.rd f i = u.rd f i :=
    (hfan.rd hi hf').trans (hthrottle.rd hi hf)
  refine ⟨fun m hm => ?_, fun m hm => ?_, hfan.same.trans (hthrottle.same.trans hset.same)⟩
  · rw [hkeeps (by omega) (by simp [throttleFields, logFields]) (by simp), htemp' m hm]
  · rw [hkeeps (by omega) (by simp [throttleFields, logFields]) (by simp), hamp' m hm]

/-! ### The maintenance sequencer -/

/-- The fields that the end of an activity may change. -/
def endFields (a : Activity) : List (Field × Nat) := (.MLK_MNT_ST_RUNS, activityNo a) :: mntFields

theorem Dev.endMnt_within (s : Dev) (a : Activity) (failed : Bool) : Within (endFields a) id s (s.endMnt a failed) := by
  have hno : activityNo a < 1024 := by have := activityNo_lt a; omega
  have hset := (((Within.refl (endFields a) id s).countMod hno List.mem_cons_self).setMnt a (if failed then 3 else 0)
    (List.mem_cons_of_mem _ (mem_mntFields a)))
  exact hset.trans ((Dev.startQueued_within _).mono fun _ h => List.mem_cons_of_mem _ h)

theorem Dev.endMnt_rest (s : Dev) (a : Activity) (failed : Bool) : (s.endMnt a failed).rest = s.rest := (s.endMnt_within a failed).same

theorem Dev.mlk_of_rest {s t : Dev} (h : t.rest = s.rest) : t.mlk = s.mlk := (congrArg Dev.mlk h :)

theorem Dev.endMnt_mlk (s : Dev) (a : Activity) (failed : Bool) : (s.endMnt a failed).mlk = s.mlk := mlk_of_rest (s.endMnt_rest a failed)

theorem Dev.requestMnt_idle {s : Dev} {a : Activity} (h : s.mntSt a = 0) : s.requestMnt a = s.setMnt a (if s.mayStart a then 2 else 1) :=
  if_neg (by omega)

theorem Dev.requestMnt_rest (s : Dev) (a : Activity) : (s.requestMnt a).rest = s.rest := by
  unfold requestMnt
  split
  · rfl
  · exact s.wr_rest ..

theorem Dev.requestMnt_mlk (s : Dev) (a : Activity) : (s.requestMnt a).mlk = s.mlk := mlk_of_rest (s.requestMnt_rest a)

theorem Dev.requestMnt_started {s : Dev} {a : Activity} (h : s.mntSt a = 0) :
    (s.requestMnt a).mntSt a = (if s.mayStart a then 2 else 1) ∧ Within [(.MLK_MNT_ST, activityNo a)] id s (s.requestMnt a) := by
  rw [Dev.requestMnt_idle h]
  exact ⟨s.mntSt_setMnt_same a (by split <;> decide), (Within.refl _ _ s).setMnt a _ (by simp)⟩

theorem exec_maintenanceRequest (port : Port) (a : Activity) (s : State) : exec (.maintenanceRequest port a) s =
    s.run (.maintenanceRequest port a) fun d => d.served port 0xA300 1 fun d => d.maintenanceRequest port a := rfl

theorem exec_maintenanceDue (a : Activity) (s : State) : exec (.maintenanceDue a) s = s.run (.maintenanceDue a) fun d => d.maintenanceDue a := rfl

theorem exec_maintenanceEnd (a : Activity) (s : State) : exec (.maintenanceEnd a) s = s.run (.maintenanceEnd a) fun d => d.maintenanceEnd a := rfl

/-- A live module answers the host and the management port is not asked for. -/
theorem Dev.answers_host {s : Dev} (h : s.live = true) : s.answers .h = true ∧ s.power ≠ .recovery := by
  revert h
  unfold live answers pathOn
  cases s.power <;> simp

theorem Dev.firmware_of_live {s : Dev} (h : s.live = true) : s.firmware = true := by
  revert h
  unfold live firmware
  cases s.power <;> simp

section
variable {s : State} {a : Activity}

theorem completes_maintenanceRequest (hlive : s.live = true) (h : s.mntSt a = 0) :
    Completes (.maintenanceRequest .h a) s fun t =>
      t.mntSt a = (if s.mayStart a then 2 else 1) ∧ t.svc.lastStatus = stOk ∧ KeepsFields s t [(.MLK_MNT_ST, activityNo a)] ∧
      t.rest = { s.rest with svc := t.svc } := by
  obtain ⟨ha, hpow⟩ := Dev.answers_host hlive
  obtain ⟨hst, hwithin⟩ := Dev.requestMnt_started h
  have heff : s.toDev.served .h 0xA300 1 (fun d => d.maintenanceRequest .h a) = (s.requestMnt a).status stOk := by
    rw [Dev.served_of_answers _ _ _ ha hpow]; rfl
  have hrest := s.requestMnt_rest a
  generalize s.requestMnt a = u at hst hwithin heff hrest
  have hall : Dev.Within [(.MLK_MNT_ST, activityNo a)] (fun _ => ()) s.toDev (u.status stOk) := ⟨hwithin.fields.trans (.of_regs rfl rfl rfl), rfl⟩
  refine .of_effect (exec_maintenanceRequest ..) rfl heff ⟨?_, ?_, hall.kept, ?_⟩
  · exact (Dev.notify_rd ..).trans hst
  · rw [Dev.notify_svc]; rfl
  · rw [Dev.notify_rest, Dev.notify_svc, Dev.status_rest, hrest]; rfl

theorem completes_maintenanceDue (hlive : s.live = true) (h : s.mntSt a = 0) (hper : periodic a = true) :
    Completes (.maintenanceDue a) s fun t =>
      t.mntSt a = (if s.mayStart a then 2 else 1) ∧ KeepsFields s t [(.MLK_MNT_ST, activityNo a)] ∧ t.rest = s.rest := by
  obtain ⟨hst, hwithin⟩ := Dev.requestMnt_started h
  have heff : s.toDev.maintenanceDue a = s.requestMnt a := if_pos (by simp [Dev.firmware_of_live hlive, hper])
  exact .of_effect (exec_maintenanceDue ..) rfl heff
    ⟨(Dev.notify_rd ..).trans hst, hwithin.kept, (Dev.notify_rest ..).trans hwithin.same⟩

end

/-! ### Fans and self-tests -/

/-- What the module holds beside Milkhouse's own state, and what a Tally event changes. -/
def Dev.butMilkhouse (s : Dev) : Dev := { s.body with mlk := {} }

theorem Dev.quiet_butMilkhouse : Quiet butMilkhouse := fun d e h => by simp only [butMilkhouse, rest_body, h]

theorem Dev.body_of_butMilkhouse {s t : Dev} (h : t.rest.butMilkhouse = s.rest.butMilkhouse) : t.body = { s.body with mlk := t.body.mlk } :=
  (congrArg (fun d : Dev => { d with mlk := t.body.mlk }) h :)

theorem Dev.Within.raiseVec {α : Type} {l : List (Field × Nat)} {m : Dev → α} {s t : Dev} (h : Within l m s t) (v : Nat) :
    Within l m s (t.raiseVec v) := by
  unfold Dev.raiseVec
  split
  · exact h.send _
  · exact h

theorem exec_fanFailed (k : Fin 2) (s : State) : exec (.fanFailed k) s = s.run (.fanFailed k) fun d => d.fanFailed k := rfl

theorem exec_selfTestDone (n : Fin 16) (pass : Bool) (step : Nat) (s : State) :
    exec (.selfTestDone n pass step) s = s.run (.selfTestDone n pass step) fun d => d.selfTestDone n pass step := rfl

/-- A fan is held to have failed. -/
def Dev.fanOut (s : Dev) (k : Nat) : Dev := { s with mlk := { s.mlk with fanFail := s.mlk.fanFail ||| oneBit k } }

theorem completes_fanFailed {s : State} {k : Fin 2} (hlive : s.live = true) (hfit : (k : Nat) < s.fansFitted) (hduty : 20 ≤ s.rd .MLK_FAN)
    (hok : bit s.mlk.fanFail k = false) :
    Completes (.fanFailed k) s fun t =>
      bit t.mlk.fanFail k = true ∧ KeepsFields s t logFields ∧ t.body = { s.body with mlk := t.body.mlk } := by
  have heff : s.toDev.fanFailed k = ((s.toDev.fanOut k).tally 0x00A2 k 0xFFFFFFFF (s.rd .MLK_FAN)).raiseVec 11 :=
    if_neg (by simp [Dev.firmware_of_live hlive, Nat.not_le.2 hfit, Nat.not_lt.2 hduty, hok])
  have hset : Dev.Within logFields Dev.butMilkhouse s.toDev (s.toDev.fanOut k) := (Dev.Within.refl _ _ _).step rfl rfl rfl rfl
  have hbit : bit (s.toDev.fanOut k).mlk.fanFail k = true := by simp [Dev.fanOut]
  have hfan := (Dev.Within.refl logFields (fun d : Dev => d.mlk.fanFail) (s.toDev.fanOut k)).tally 0x00A2 k 0xFFFFFFFF (s.rd .MLK_FAN) 0
    (fun _ h => h) fun d e h => (congrArg (fun d : Dev => d.mlk.fanFail) h :)
  have hall := (hset.tally 0x00A2 k 0xFFFFFFFF (s.rd .MLK_FAN) 0 (fun _ h => h) Dev.quiet_butMilkhouse).raiseVec 11
  have hfan' := hfan.raiseVec 11
  generalize ((s.toDev.fanOut k).tally 0x00A2 k 0xFFFFFFFF (s.rd .MLK_FAN)).raiseVec 11 = u at heff hall hfan'
  refine .of_effect (exec_fanFailed k s) rfl heff ⟨?_, hall.kept, ?_⟩
  · rw [Dev.notify_mlk]; exact (congrArg (fun m => bit m k) hfan'.same).trans hbit
  · rw [Dev.notify_body]; exact Dev.body_of_butMilkhouse hall.same

theorem completes_selfTestPassed {s : State} {n : Fin 16} {step : Nat} (hfree : s.resident n = none) (hstep : step < 256)
    (hok : bit s.mlk.tests n = false) :
    Completes (.selfTestDone n true step) s fun t =>
      t.flag .CHN_STAT_ISO n = false ∧ KeepsFields s t [(.CHN_STAT_ISO, n)] ∧ t.rest = s.rest := by
  have heff : s.toDev.selfTestDone n true step = s.setFlag .CHN_STAT_ISO n false := by simp [Dev.selfTestDone, hfree, hok]
  have hwithin : Dev.Within [(.CHN_STAT_ISO, (n : Nat))] id s.toDev (s.setFlag .CHN_STAT_ISO n false) :=
    (Dev.Within.refl _ _ _).setFlag false (by omega) (by simp)
  refine .of_effect (exec_selfTestDone n true step s) (by simp [Instr.wf, fitsU, hstep]) heff
    ⟨?_, hwithin.kept, (Dev.notify_rest ..).trans hwithin.same⟩
  rw [Dev.notify_flag]; exact s.flag_wr_toNat _ _ false (by decide)

/-- A Churn is held isolated until the next warm reset. -/
def Dev.holdChurn (s : Dev) (n : Nat) : Dev := { s.setFlag .CHN_STAT_ISO n true with mlk := { s.mlk with tests := s.mlk.tests ||| oneBit n } }

theorem completes_selfTestFailed {s : State} {n : Fin 16} {step : Nat} (hfree : s.resident n = none) (hstep : step < 256) :
    Completes (.selfTestDone n false step) s fun t =>
      t.flag .CHN_STAT_ISO n = true ∧ bit t.mlk.tests n = true ∧ KeepsFields s t ((.CHN_STAT_ISO, (n : Nat)) :: logFields) ∧
      t.body = { s.body with mlk := t.body.mlk } := by
  have heff : s.toDev.selfTestDone n false step = ((s.toDev.holdChurn n).tally 0x0053 n 0xFFFFFFFF step).raiseVec 13 := by
    simp only [Dev.selfTestDone, hfree, Option.isSome_none, Bool.false_eq_true, if_false, Dev.holdChurn, Dev.setFlag]
  have hset : Dev.Within ((.CHN_STAT_ISO, (n : Nat)) :: logFields) Dev.butMilkhouse s.toDev (s.toDev.holdChurn n) :=
    ((Dev.Within.refl _ _ s.toDev).setFlag true (f := .CHN_STAT_ISO) (i := n) (by omega) (by simp)).step rfl rfl rfl rfl
  have hiso : (s.toDev.holdChurn n).flag .CHN_STAT_ISO n = true := s.flag_wr_toNat .CHN_STAT_ISO n true (by decide)
  have hbit : bit (s.toDev.holdChurn n).mlk.tests n = true := by simp [Dev.holdChurn]
  generalize s.toDev.holdChurn n = u at heff hset hiso hbit
  have hlog := (((Dev.Within.refl logFields (fun d : Dev => d.mlk.tests) u).tally 0x0053 n 0xFFFFFFFF step 0
    (fun _ h => h) fun d e h => (congrArg (fun d : Dev => d.mlk.tests) h :)).raiseVec 13)
  have hall := (hset.tally 0x0053 n 0xFFFFFFFF step 0 (fun _ h => List.mem_cons_of_mem _ h) Dev.quiet_butMilkhouse).raiseVec 13
  generalize (u.tally 0x0053 n 0xFFFFFFFF step).raiseVec 13 = v at heff hlog hall
  refine .of_effect (exec_selfTestDone n false step s) (by simp [Instr.wf, fitsU, hstep]) heff ⟨?_, ?_, hall.kept, ?_⟩
  · rw [Dev.notify_flag, hlog.flag (by omega) (by simp [logFields])]; exact hiso
  · rw [Dev.notify_mlk]; exact (congrArg (fun m => bit m n) hlog.same).trans hbit
  · rw [Dev.notify_body]; exact Dev.body_of_butMilkhouse hall.same

/-! ### The Tally -/

/-- What the module holds beside Milkhouse's own state. -/
def Dev.butMlk (s : Dev) : Dev := { s with mlk := {} }

theorem Dev.rest_of_butMlk {s t : Dev} (h : t.rest.butMlk = s.rest.butMlk) : t.rest = { s.rest with mlk := t.mlk } :=
  (congrArg (fun d : Dev => { d with mlk := t.mlk }) h :)

theorem exec_tallyWrite (s : State) : exec .tallyWrite s = s.run .tallyWrite fun d => d.tallyWrite := rfl

theorem exec_tallyClear (port : Port) (s : State) :
    exec (.tallyClear port) s = s.run (.tallyClear port) fun d => d.served port 0xA100 4 fun d => d.tallyClear port := rfl

theorem exec_operatingHoursStore (s : State) : exec .operatingHoursStore s = s.run .operatingHoursStore fun d => d.storeHours := rfl

/-- The fields that show how full the region is. -/
def usedFields : List (Field × Nat) := [(.TLY_USED, 0), (.TLY_STAT_FULL, 0)]

theorem Dev.noteTally_within (s : Dev) : Within usedFields id s s.noteTally :=
  ((Within.refl _ _ s).wr _ (by decide) (by simp [usedFields])).setFlag _ (by decide) (by simp [usedFields])

theorem Dev.putTally_mlk (s : Dev) (k : Nat) (e : TallyEvent) :
    (s.putTally k e).mlk = { s.mlk with tally := tabPut s.mlk.tally k e.bytes } := mlk_of_rest (Dev.noteTally_within _).same

theorem Dev.putTally_rest (s : Dev) (k : Nat) (e : TallyEvent) :
    (s.putTally k e).rest = { s.rest with mlk := { s.mlk with tally := tabPut s.mlk.tally k e.bytes } } := (Dev.noteTally_within _).same

theorem Dev.putTally_kept (s : Dev) (k : Nat) (e : TallyEvent) : Within usedFields (fun _ => ()) s (s.putTally k e) :=
  ⟨(FieldsKept.of_regs rfl rfl rfl).trans (Dev.noteTally_within _).fields, rfl⟩

section
variable {s : State} {e : TallyEvent} {q : List TallyEvent}

theorem Dev.tallyWrite_eq {s : Dev} (hq : s.mlk.queue = e :: q) (hclear : s.mlk.clearing = none) (hmay : s.mayStart .T = true) :
    s.tallyWrite = (s.writeEvent e).popTally.endMnt .T false := by
  simp [tallyWrite, hq, hclear, hmay]

theorem completes_tallyWrite_erased (hq : s.mlk.queue = e :: q) (hclear : s.mlk.clearing = none) (hmay : s.mayStart .T = true)
    (hroom : s.erasedSlot < 16383) (j : Nat) :
    Completes .tallyWrite s fun t =>
      tabFind? t.mlk.tally s.erasedSlot = some e.bytes ∧ (j ≠ s.erasedSlot → tabFind? t.mlk.tally j = tabFind? s.mlk.tally j) ∧
      t.mlk.queue = q ∧ t.rest = { s.rest with mlk := t.mlk } := by
  have heff : s.toDev.tallyWrite = (s.putTally s.erasedSlot e).popTally.endMnt .T false := by
    rw [Dev.tallyWrite_eq hq hclear hmay, Dev.writeEvent, if_pos hroom]
  have hmlk : (s.putTally s.erasedSlot e).popTally.mlk = { s.mlk with tally := tabPut s.mlk.tally s.erasedSlot e.bytes, queue := q } := by
    simp only [Dev.popTally, Dev.putTally_mlk, hq]; rfl
  have hrest : (s.putTally s.erasedSlot e).popTally.rest.butMlk = s.rest.butMlk := by
    have h := s.putTally_rest s.erasedSlot e
    exact (congrArg Dev.butMlk h :)
  generalize (s.putTally s.erasedSlot e).popTally = u at heff hmlk hrest
  have hend := u.endMnt_mlk .T false
  have hendRest := u.endMnt_rest .T false
  generalize u.endMnt .T false = v at heff hend hendRest
  refine .of_effect (exec_tallyWrite s) rfl heff ⟨?_, fun hj => ?_, ?_, ?_⟩
  · rw [Dev.notify_mlk, hend, hmlk]; exact tabFind?_put_same ..
  · rw [Dev.notify_mlk, hend, hmlk]; exact tabFind?_put_ne _ _ hj
  · rw [Dev.notify_mlk, hend, hmlk]
  · rw [Dev.notify_rest, Dev.notify_mlk]
    exact Dev.rest_of_butMlk (hendRest ▸ hrest)

theorem completes_tallyWrite_full (hq : s.mlk.queue = e :: q) (hclear : s.mlk.clearing = none) (hmay : s.mayStart .T = true)
    (hfull : 16383 ≤ s.erasedSlot) (hflag : s.flag .TLY_STAT_FULL = true) :
    Completes .tallyWrite s fun t =>
      t.rd .TLY_DROP_CNT = satSucc 32 (s.rd .TLY_DROP_CNT) ∧ t.mlk.tally = s.mlk.tally ∧ t.mlk.queue = q := by
  have heff : s.toDev.tallyWrite = (s.count .TLY_DROP_CNT).popTally.endMnt .T false := by
    rw [Dev.tallyWrite_eq hq hclear hmay, Dev.writeEvent, if_neg (by omega), if_neg (by simp [hflag])]
  have hrd : (s.count .TLY_DROP_CNT).popTally.rd .TLY_DROP_CNT = satSucc 32 (s.rd .TLY_DROP_CNT) := s.rd_count .TLY_DROP_CNT 0
  have hmlk : (s.count .TLY_DROP_CNT).popTally.mlk = { s.mlk with queue := q } := by
    simp only [Dev.popTally, Dev.count, Dev.wr_mlk, hq]; rfl
  generalize (s.count .TLY_DROP_CNT).popTally = u at heff hmlk hrd
  have hend := u.endMnt_mlk .T false
  have hendRd : (u.endMnt .T false).rd .TLY_DROP_CNT = u.rd .TLY_DROP_CNT := (u.endMnt_within .T false).rd (by decide) (by decide)
  generalize u.endMnt .T false = v at heff hend hendRd
  refine .of_effect (exec_tallyWrite s) rfl heff ⟨?_, ?_, ?_⟩
  · rw [Dev.notify_rd, hendRd, hrd]
  · rw [Dev.notify_mlk, hend, hmlk]
  · rw [Dev.notify_mlk, hend, hmlk]

/-- A clear is under way once one has begun. -/
theorem Dev.beginClear_mlk (s : Dev) : s.beginClear.mlk.clearing ≠ none ∧ s.beginClear.mlk.tally = s.mlk.tally := by
  unfold beginClear
  split
  · rename_i h; exact ⟨Option.isSome_iff_ne_none.1 h, rfl⟩
  · rw [requestMnt_mlk]; simp

theorem completes_tallyClear (hpow : s.power ≠ .recovery) (ha : s.answers .m = true) :
    Completes (.tallyClear .m) s fun t => t.mlk.clearing ≠ none ∧ t.mlk.tally = s.mlk.tally ∧ t.svc.lastStatus = stOk := by
  have heff : s.toDev.served .m 0xA100 4 (fun d => d.tallyClear .m) = s.beginClear.status stOk := by
    rw [Dev.served_of_answers _ _ _ ha hpow]; rfl
  obtain ⟨hclear, htally⟩ := s.beginClear_mlk
  generalize s.beginClear = u at heff hclear htally
  refine .of_effect (exec_tallyClear .m s) rfl heff ⟨?_, ?_, ?_⟩
  · rw [Dev.notify_mlk]; exact hclear
  · rw [Dev.notify_mlk]; exact htally
  · rw [Dev.notify_svc]; rfl

theorem completes_clearEnd {c step : Nat} (hclear : s.mlk.clearing = some (c, step)) (hruns : s.mntSt .T = 2) :
    Completes (.maintenanceEnd .T) s fun t =>
      t.mlk.tally = [(0, (s.tallyRecord 2 0xFF 0xFFFFFFFF c step 0).bytes)] ∧ t.mlk.clearing = none ∧ t.rd .TLY_DROP_CNT = 0 := by
  have heff : s.toDev.maintenanceEnd .T = s.finishClear.endMnt .T false := if_neg (by simp [hruns])
  have hfinish : s.finishClear = (({ s.toDev with mlk := { s.mlk with tally := [], clearing := none } } : Dev).wr .TLY_DROP_CNT 0 0).putTally 0
      (s.tallyRecord 2 0xFF 0xFFFFFFFF c step 0) := by simp [Dev.finishClear, hclear]
  have hmlk : s.finishClear.mlk = { s.mlk with tally := [(0, (s.tallyRecord 2 0xFF 0xFFFFFFFF c step 0).bytes)], clearing := none } := by
    rw [hfinish, Dev.putTally_mlk, Dev.wr_mlk]; rfl
  have hrd : s.finishClear.rd .TLY_DROP_CNT = 0 := by
    rw [hfinish]
    exact ((Dev.putTally_kept ..).rd (by decide) (by decide)).trans (Dev.rd_wr ..)
  clear hfinish
  generalize s.finishClear = u at heff hmlk hrd
  have hend := u.endMnt_mlk .T false
  have hendRd : (u.endMnt .T false).rd .TLY_DROP_CNT = u.rd .TLY_DROP_CNT := (u.endMnt_within .T false).rd (by decide) (by decide)
  generalize u.endMnt .T false = v at heff hend hendRd
  refine .of_effect (exec_maintenanceEnd .T s) rfl heff ⟨?_, ?_, ?_⟩
  · rw [Dev.notify_mlk, hend, hmlk]
  · rw [Dev.notify_mlk, hend, hmlk]
  · rw [Dev.notify_rd, hendRd, hrd]

theorem completes_operatingHoursStore (hlive : s.live = true) :
    Completes .operatingHoursStore s fun t =>
      t.mlk.opStored = s.mlk.opTime ∧ t.rd .TLY_OPHR = wrap 32 (s.mlk.opTime / 1440000000000) ∧ KeepsFields s t [(.TLY_OPHR, 0)] ∧
      t.rest = { s.rest with mlk := t.mlk } := by
  have heff : s.toDev.storeHours =
      ({ s.toDev with mlk := { s.mlk with opStored := s.mlk.opTime } } : Dev).wr .TLY_OPHR 0 (s.mlk.opTime / periodsPerHour) :=
    if_neg (by simp [Dev.firmware_of_live hlive])
  have hset : Dev.Within [(.TLY_OPHR, 0)] Dev.butMlk s.toDev { s.toDev with mlk := { s.mlk with opStored := s.mlk.opTime } } :=
    (Dev.Within.refl _ _ _).step rfl rfl rfl rfl
  have hmlk : ({ s.toDev with mlk := { s.mlk with opStored := s.mlk.opTime } } : Dev).mlk = { s.mlk with opStored := s.mlk.opTime } := rfl
  generalize ({ s.toDev with mlk := { s.mlk with opStored := s.mlk.opTime } } : Dev) = u at heff hset hmlk
  have hall := hset.wr (f := .TLY_OPHR) (i := 0) (s.mlk.opTime / periodsPerHour) (by decide) (by simp)
  refine .of_effect (exec_operatingHoursStore s) rfl heff ⟨?_, ?_, hall.kept, ?_⟩
  · rw [Dev.notify_mlk, Dev.wr_mlk, hmlk]
  · rw [Dev.notify_rd]; exact Dev.rd_wr ..
  · rw [Dev.notify_rest, Dev.notify_mlk]; exact Dev.rest_of_butMlk hall.same

end

/-! ### Option bytes and firmware banks -/

theorem exec_optionRewrite (s : State) : exec .optionRewrite s = s.run .optionRewrite fun d => d.optionRewrite := rfl

theorem exec_firmwareBankWrite (ok : Bool) (s : State) : exec (.firmwareBankWrite ok) s = s.run (.firmwareBankWrite ok) fun d => d.bankWrite ok := rfl

theorem Dev.updateDone_mlk (s : Dev) : s.updateDone.mlk = { s.mlk with updStatus := 2 } := by
  unfold updateDone
  dsimp only
  split
  · simp [leaveRecovery, storeCount]
  · rfl

/-- The content that a rewrite of the option bytes stores. -/
def Dev.rewritten (s : Dev) (e : OptionEdit) : OptionCopy := (s.rewriteOptions e).mlk.optA

theorem Dev.rewritten_edit (s : Dev) (e : OptionEdit) :
    (e.tryBank ≠ none → some (s.rewritten e).tryBank = e.tryBank) ∧ (e.active ≠ none → some (s.rewritten e).active = e.active) := by
  constructor
  · intro h
    obtain ⟨v, hv⟩ := Option.ne_none_iff_exists'.1 h
    simp [rewritten, rewriteOptions, OptionCopy.edit, hv]
  · intro h
    obtain ⟨v, hv⟩ := Option.ne_none_iff_exists'.1 h
    simp [rewritten, rewriteOptions, OptionCopy.edit, hv]

/-- The only rewrite that waits is made, and the activity ends. -/
theorem Dev.optionRewrite_mlk {s : Dev} {e : OptionEdit} (he : s.mlk.edits = [e]) (hruns : s.mntSt .O = 2) :
    s.optionRewrite.mlk = { s.mlk with
      optA := s.rewritten e, optB := s.rewritten e, edits := [], updStatus := if e.forUpdate then 2 else s.mlk.updStatus } := by
  simp only [optionRewrite, he, hruns, ne_eq, not_true_eq_false, if_false, List.isEmpty_nil, if_true, endMnt_mlk]
  split
  · rw [updateDone_mlk]; rfl
  · rfl

theorem completes_optionRewrite {s : State} {e : OptionEdit} (he : s.mlk.edits = [e]) (hruns : s.mntSt .O = 2) :
    Completes .optionRewrite s fun t =>
      t.mlk.optA = t.mlk.optB ∧ t.mlk.edits = [] ∧ (e.tryBank ≠ none → some t.mlk.optA.tryBank = e.tryBank) ∧
      (e.active ≠ none → some t.mlk.optA.active = e.active) ∧ t.mlk.tally = s.mlk.tally := by
  have hmlk := Dev.optionRewrite_mlk he hruns
  obtain ⟨htry, hactive⟩ := s.rewritten_edit e
  refine .of_effect (exec_optionRewrite s) rfl rfl ⟨?_, ?_, ?_, ?_, ?_⟩ <;> rw [Dev.notify_mlk, hmlk]
  · exact htry
  · exact hactive

theorem Dev.setBank_mlk (s : Dev) (k : Nat) (b : List Byte) :
    (s.setBank k b).bank k = b ∧ (s.setBank k b).mlk.image = s.mlk.image ∧ (s.setBank k b).mlk.edits = s.mlk.edits := by
  unfold setBank bank
  split
  · exact ⟨rfl, rfl, rfl⟩
  · exact ⟨rfl, rfl, rfl⟩

/-- The banks, the image and the edits that wait. -/
def Dev.update (s : Dev) (k : Nat) : List Byte × Option (List Byte) × List OptionEdit := (s.bank k, s.mlk.image, s.mlk.edits)

theorem Dev.update_of_body {s t : Dev} (k : Nat) (h : t.body = s.body) : t.update k = s.update k := (congrArg (fun d : Dev => d.update k) h :)

theorem Dev.update_of_mlk {s t : Dev} (k : Nat) (h : t.mlk = s.mlk) : t.update k = s.update k := by
  simp only [update, bank, h]

theorem Dev.requestEdit_update (s : Dev) (e : OptionEdit) (k : Nat) :
    (s.requestEdit e).update k = (s.bank k, s.mlk.image, s.mlk.edits ++ [e]) :=
  update_of_mlk k (requestMnt_mlk ..)

theorem completes_firmwareBankWrite {s : State} {img : List Byte} (himg : s.mlk.image = some img) (hruns : s.mntSt .F = 2) :
    Completes (.firmwareBankWrite true) s fun t =>
      t.bank (1 - s.optLatest.active) = img ∧ t.mlk.image = none ∧ t.mlk.edits = s.mlk.edits ++
        [{ tryBank := some (1 - s.optLatest.active), forUpdate := true }] := by
  generalize hk : 1 - s.optLatest.active = k
  have heff : s.toDev.bankWrite true = ((((({ s.toDev with mlk := { s.mlk with image := none } } : Dev).setBank k img).tally 0x0013 k 0xFFFFFFFF
      (imageVersion img) (imageSecurity img)).endMnt .F false).requestEdit { tryBank := some k, forUpdate := true }) := by
    simp [Dev.bankWrite, himg, hruns, hk]
  obtain ⟨hbank, himage, hedits⟩ := ({ s.toDev with mlk := { s.mlk with image := none } } : Dev).setBank_mlk k img
  generalize ({ s.toDev with mlk := { s.mlk with image := none } } : Dev).setBank k img = u at heff hbank himage hedits
  have hlog := Dev.update_of_body k (u.tally_body 0x0013 k 0xFFFFFFFF (imageVersion img) (imageSecurity img))
  generalize u.tally 0x0013 k 0xFFFFFFFF (imageVersion img) (imageSecurity img) = v at heff hlog
  have hend := Dev.update_of_mlk k (v.endMnt_mlk .F false)
  generalize v.endMnt .F false = w at heff hend
  have hreq := w.requestEdit_update { tryBank := some k, forUpdate := true } k
  generalize w.requestEdit { tryBank := some k, forUpdate := true } = x at heff hreq
  have hw : w.update k = (img, none, s.mlk.edits) := by
    rw [hend, hlog, Dev.update, hbank, himage, hedits]
  simp only [Dev.update, Prod.mk.injEq] at hw hreq
  obtain ⟨hwb, hwi, hwe⟩ := hw
  obtain ⟨hxb, hxi, hxe⟩ := hreq
  have hbankN : ((x.notify s.toDev).bank k) = x.bank k := by simp [Dev.bank]
  refine .of_effect (exec_firmwareBankWrite true s) rfl heff ⟨?_, ?_, ?_⟩
  · exact hbankN.trans (hxb.trans hwb)
  · rw [Dev.notify_mlk, hxi, hwi]
  · rw [Dev.notify_mlk, hxe, hwe]

/-! ### Trace records -/

theorem exec_traceRecord (r : TraceRec) (s : State) : exec (.traceRecord r) s = s.run (.traceRecord r) fun d => d.traceRecord r := rfl

section
variable {s : State} {r : TraceRec} (hsrc : fitsU 8 r.src = true) (hkind : fitsU 8 r.kind = true) (hdata : fitsU 64 r.data = true)
  (hrun : s.tracing = true) (hsel : s.traced r.src = true)
include hsrc hkind hdata hrun hsel

theorem completes_traceRecord_kept (hroom : s.trace.waiting r.src < 16) :
    Completes (.traceRecord r) s fun t =>
      t.trace.fifos = s.trace.fifos ++ [(s.ns40, r)] ∧ KeepsFields s t [] ∧ t.rest = { s.rest with trace := t.trace } := by
  have heff : s.toDev.traceRecord r = { s.toDev with trace := { s.trace with fifos := s.trace.fifos ++ [(s.ns40, r)] } } := by
    simp [Dev.traceRecord, hrun, hsel, hroom]
  have hall : Dev.Within [] (fun _ => ()) s.toDev { s.toDev with trace := { s.trace with fifos := s.trace.fifos ++ [(s.ns40, r)] } } :=
    ⟨.of_regs rfl rfl rfl, rfl⟩
  refine .of_effect (exec_traceRecord r s) (by simp [Instr.wf, hsrc, hkind, hdata]) heff ⟨?_, hall.kept, ?_⟩
  · rw [Dev.notify_trace]
  · rw [Dev.notify_rest, Dev.notify_trace]; rfl

theorem completes_traceRecord_dropped (hfull : 16 ≤ s.trace.waiting r.src) :
    Completes (.traceRecord r) s fun t =>
      t.trace.fifos = s.trace.fifos ∧ t.rd .OBS_TRC_DROP_COUNT = satSucc 32 (s.rd .OBS_TRC_DROP_COUNT) ∧
      KeepsFields s t [(.OBS_TRC_DROP_COUNT, 0)] ∧ t.rest = { s.rest with trace := t.trace } := by
  generalize howed : ({ s.trace with owed := tabPut s.trace.owed r.src (tabGet (fun _ => 0) s.trace.owed r.src + 1) } : Trace) = x
  have hfifos : x.fifos = s.trace.fifos := by rw [← howed]
  have heff : s.toDev.traceRecord r = ({ s.toDev with trace := x } : Dev).count .OBS_TRC_DROP_COUNT := by
    simp [Dev.traceRecord, hrun, hsel, Nat.not_lt.2 hfull, ← howed]
  have hset : Dev.FieldsKept [(.OBS_TRC_DROP_COUNT, 0)] s.toDev (({ s.toDev with trace := x } : Dev).count .OBS_TRC_DROP_COUNT) :=
    (Dev.FieldsKept.of_regs (t := { s.toDev with trace := x }) rfl rfl rfl).wr _ (by decide) (by simp)
  refine .of_effect (exec_traceRecord r s) (by simp [Instr.wf, hsrc, hkind, hdata]) heff ⟨?_, ?_, keepsFields_of hset, ?_⟩
  · rw [Dev.notify_trace, Dev.count, Dev.wr_trace]; exact hfifos
  · rw [Dev.notify_rd]; exact Dev.rd_count ..
  · rw [Dev.notify_rest, Dev.notify_trace, Dev.count, Dev.wr_rest, Dev.wr_trace]; rfl

end

theorem exec_sensorRead (x : Sensors) (s : State) : exec (.sensorRead x) s = s.run (.sensorRead x) fun d => d.sensorRead x := rfl

theorem completes_sensorRead {s : State} {x : Sensors} (hlive : s.live = true) (hwf : x.wf = true) (hmnt : s.mntSt .C ≠ 2)
    (hcold : ∀ m : Fin 30, sgn 16 (unsgn 16 (x.temps.getD m 0)) < 1840) :
    Completes (.sensorRead x) s fun t =>
      (∀ m : Fin 32, t.rd .MLK_TEMP m = unsgn 16 (x.temps.getD m 0)) ∧ (∀ m : Fin 4, t.rd .MLK_IMON m = wrap 16 (x.amps.getD m 0)) ∧
      t.power = s.power ∧ t.mem = s.mem ∧ t.parts = s.parts := by
  obtain ⟨htemp, hamp, hkeeps⟩ := Dev.sensorRead_reads x (Dev.firmware_of_live hlive) hmnt fun m hm => hcold ⟨m, hm⟩
  simp only [Dev.unheated, Prod.mk.injEq] at hkeeps
  obtain ⟨hpower, hmem, hparts⟩ := hkeeps
  refine .of_effect (exec_sensorRead x s) hwf rfl ⟨fun m => ?_, fun m => ?_, ?_, ?_, ?_⟩
  · rw [Dev.notify_rd]; exact htemp m m.isLt
  · rw [Dev.notify_rd]; exact hamp m m.isLt
  · rw [Dev.notify_power, hpower]
  · rw [Dev.notify_mem, hmem]
  · rw [Dev.notify_parts, hparts]

/-- Settles O58: each command of Milkhouse's is one equation for what it leaves, and the sequencer of maintenance changes statuses alone. -/
theorem milkhouseKeepsTheModule : Obligations.MilkhouseKeepsTheModule := by
  intro s x e q d img n k a r c step j hlive
  exact ⟨completes_sensorRead hlive, completes_fanFailed hlive,
    fun hq hclear hmay => ⟨fun hroom => completes_tallyWrite_erased hq hclear hmay hroom j, completes_tallyWrite_full hq hclear hmay⟩,
    completes_tallyClear (Dev.answers_host hlive).2, completes_clearEnd, completes_operatingHoursStore hlive, completes_optionRewrite,
    completes_firmwareBankWrite, fun hidle => ⟨completes_maintenanceRequest hlive hidle, completes_maintenanceDue hlive hidle⟩,
    fun hfree hstep => ⟨completes_selfTestPassed hfree hstep, completes_selfTestFailed hfree hstep⟩,
    fun hsrc hkind hdata hrun hsel =>
      ⟨completes_traceRecord_kept hsrc hkind hdata hrun hsel, completes_traceRecord_dropped hsrc hkind hdata hrun hsel⟩⟩

end Sys2Proof.Machine

end

section
/-! Discovery and the control channel of the CoaXPress links (R54, R55, R60, R61). -/

namespace Sys2Proof.Machine

open Sys2Proof

/-- A single-link group whose rate is fixed at 8, a value that the four bits of `CXP_LNK_CTL.RATE` hold. -/
def fixedRate8 : State :=
  { toDev := (((({ power := .run } : Dev).wr .CXP_LNK_CTL_EN 1 1).wr .CXP_LNK_CTL_MASTER 1 1).wr .CXP_LNK_CTL_RATE_FIX 1 1).wr
      .CXP_LNK_CTL_RATE 1 8 }

/-- Refutes O19: a fixed rate of 8 that the camera supports does not fit the three bits in which the rate in use is shown. -/
theorem not_linkDiscovery : ¬ Obligations.LinkDiscovery := by
  intro h
  have hrate := (h fixedRate8 1 8 0 (by decide) (by decide) (by decide) (by decide) (by decide) (by decide) (by decide)).1
  obtain ⟨t, -, hact, -⟩ := (hrate (.inr (by decide))).1 rfl
  have hshown : t.rd .CXP_LNK_STAT_RATE_ACT 1 = 8 := hact.trans (by decide)
  have hwidth : t.rd .CXP_LNK_STAT_RATE_ACT 1 < 2 ^ 3 := t.rd_lt ..
  omega

/-! ### The control channel -/

section
variable (n : Fin 24) (s : State)

theorem exec_proxyRead (src : Source) (addr len : Nat) : exec (.proxyRead n src addr len) s =
    s.run (.proxyRead n src addr len) fun d => d.request n { source := src, write := false, addr := addr, len := len, data := [] } := rfl

theorem exec_proxyWrite (src : Source) (addr len : Nat) (data : List Byte) : exec (.proxyWrite n src addr len data) s =
    s.run (.proxyWrite n src addr len data) fun d => d.request n { source := src, write := true, addr := addr, len := len, data := data } := rfl

theorem exec_proxyAck (a : CtrlAck) : exec (.proxyAck n a) s = s.run (.proxyAck n a) fun d => d.proxyAck n a := rfl

theorem exec_proxyTimeout : exec (.proxyTimeout n) s = s.run (.proxyTimeout n) fun d => d.endRequest n 3 := rfl

end

/-! ### The windows of BAR0 -/

theorem Dev.barByte_putBar_same (s : Dev) (a : Nat) (b : Byte) : (s.putBar a b).barByte a = b := by simp [barByte, putBar]

theorem Dev.barByte_putBar_ne (s : Dev) {a k : Nat} (b : Byte) (h : k ≠ a) : (s.putBar a b).barByte k = s.barByte k := by
  simp only [barByte, putBar]; rw [tabGet_set_ne (h := h)]

theorem Dev.barByte_putBars_below (bs : List Byte) (s : Dev) {a k : Nat} (h : k < a) : (s.putBars a bs).barByte k = s.barByte k := by
  induction bs generalizing s a with
  | nil => rfl
  | cons b bs ih => exact (ih (s.putBar a b) (by omega)).trans (s.barByte_putBar_ne b (by omega))

/-- The bytes of a window read as they were written. -/
theorem Dev.barBytes_putBars (s : Dev) (a : Nat) (bs : List Byte) : (s.putBars a bs).barBytes a bs.length = bs := by
  induction bs generalizing s a with
  | nil => rfl
  | cons b bs ih =>
    have hhead : ((s.putBar a b).putBars (a + 1) bs).barByte a = b :=
      (barByte_putBars_below bs _ (Nat.lt_succ_self a)).trans (s.barByte_putBar_same a b)
    have htail := ih (s.putBar a b) (a + 1)
    simp only [barBytes] at htail
    simp only [barBytes, putBars, List.length_cons, rangeFrom, List.map_cons, hhead, htail]

theorem Dev.putBars_rest (s : Dev) (a : Nat) (bs : List Byte) : (s.putBars a bs).rest = { s.rest with bar := (s.putBars a bs).bar } := by
  induction bs generalizing s a with
  | nil => rfl
  | cons b bs ih => exact (ih (s.putBar a b) (a + 1)).trans rfl

/-! ### Requests -/

/-- The link's queue of requests is replaced. -/
def Dev.setRequests (s : Dev) (n : Nat) (l : List ProxyReq) : Dev := s.setLink n { s.link n with requests := l }

/-- What the module holds beside the links and the windows of BAR0. -/
def Dev.butProxy (s : Dev) : Dev := { s with links := [], bar := [] }

theorem Dev.rest_of_butProxy {s t : Dev} (h : t.rest.butProxy = s.rest.butProxy) : t.rest = { s.rest with links := t.links, bar := t.bar } :=
  (congrArg (fun d : Dev => { d with links := t.links, bar := t.bar }) h :)

/-- The registers of a request of the host. -/
def proxyFields (n : Nat) : List (Field × Nat) := [(.CXP_PRX_ADDR, n), (.CXP_PRX_CMD_LEN, n), (.CXP_PRX_STAT_ST, n)]

/-- A request of the host stands in the link's registers with a status. -/
def Dev.requested (s : Dev) (n addr len st : Nat) : Dev := ((s.wr .CXP_PRX_ADDR n addr).wr .CXP_PRX_CMD_LEN n len).wr .CXP_PRX_STAT_ST n st

theorem Dev.requested_reads (s : Dev) {n : Nat} (hn : n < 1024) (addr len : Nat) {st : Nat} (hst : st < 2 ^ 3) :
    Within (proxyFields n) id s (s.requested n addr len st) ∧ (s.requested n addr len st).rd .CXP_PRX_STAT_ST n = st :=
  ⟨(((Within.refl _ _ s).wr _ hn (by simp [proxyFields])).wr _ hn (by simp [proxyFields])).wr _ hn (by simp [proxyFields]),
    (Dev.rd_wr ..).trans (wrap_of_lt hst)⟩

theorem Dev.setRequests_link (s : Dev) (n : Nat) (l : List ProxyReq) : (s.setRequests n l).link n = { s.link n with requests := l } :=
  s.link_setLink ..

theorem Dev.Within.setRequests {l : List (Field × Nat)} {s t : Dev} (h : Within l butProxy s t) (n : Nat) (x : List ProxyReq) :
    Within l butProxy s (t.setRequests n x) := h.step rfl rfl rfl rfl

/-- A request goes out at once where its link serves no other. -/
theorem Dev.queueControl_idle {s : Dev} {n : Nat} (r : ProxyReq) (h : (s.link n).requests = []) :
    s.queueControl n r = (s.setRequests n [r]).send (.control n r) := by
  simp [queueControl, h, sendControl, setRequests]

theorem Dev.queueControl_busy {s : Dev} {n : Nat} (r : ProxyReq) {l : List ProxyReq} (h : (s.link n).requests = l) (hl : l ≠ []) :
    s.queueControl n r = s.setRequests n (l ++ [r]) := by
  simp [queueControl, h, hl, setRequests]

/-- The request being served is the host's: it ends, and the next one is at the head. -/
theorem Dev.endRequest_host {s : Dev} {n : Nat} {r : ProxyReq} {rest : List ProxyReq} (st : Nat) (h : (s.link n).requests = r :: rest)
    (hr : r.source = .host) :
    s.endRequest n st = ((s.wr .CXP_PRX_STAT_ST n st).setRequests n rest).sendControl n := by
  simp [endRequest, h, proxyStatus, hr, setRequests]

theorem Dev.sendControl_reads (s : Dev) (n : Nat) {α : Type} (m : Dev → α) :
    Within [] m s (s.sendControl n) ∧ (s.sendControl n).links = s.links ∧ (s.sendControl n).bar = s.bar ∧
      ∀ q rest, (s.link n).requests = q :: rest → .control n q ∈ (s.sendControl n).out := by
  unfold sendControl
  split
  · rename_i r rest hr
    exact ⟨(Within.refl _ _ s).send _, rfl, rfl, fun q _ hq => by
      obtain ⟨rfl, -⟩ := List.cons.inj (hr.symm.trans hq); exact s.mem_out_send _⟩
  · rename_i hr
    exact ⟨.refl _ _ s, rfl, rfl, fun q rest hq => absurd (hr.symm.trans hq) (by simp)⟩

section
variable {s : State} {n : Fin 24} {addr len : Nat}

theorem completes_proxyRead_idle (haddr : fitsU 32 addr = true) (hlen : proxyLenOk len = true) (hidle : (s.link n).requests = []) :
    Completes (.proxyRead n .host addr len) s fun t =>
      t.link n = { s.link n with requests := [{ source := .host, write := false, addr := addr, len := len, data := [] }] } ∧
      Out.control n { source := .host, write := false, addr := addr, len := len, data := [] } ∈ t.out ∧ t.rd .CXP_PRX_STAT_ST n = 1 ∧
      KeepsFields s t [(.CXP_PRX_ADDR, n), (.CXP_PRX_CMD_LEN, n), (.CXP_PRX_STAT_ST, n)] ∧ t.rest = { s.rest with links := t.links } := by
  generalize hr : ({ source := .host, write := false, addr := addr, len := len, data := [] } : ProxyReq) = r
  obtain ⟨hwithin, hst⟩ := s.requested_reads (n := n) (by omega) addr len (st := 1) (by decide)
  have hlink : (s.requested n addr len 1).link n = s.link n := by simp [Dev.requested]
  have heff : s.toDev.request n r = ((s.requested n addr len 1).setRequests n [r]).send (.control n r) := by
    rw [← Dev.queueControl_idle r (by rw [hlink, hidle])]
    simp [Dev.request, Dev.proxyOperands, ← hr, hlen, Dev.proxyStatus, Dev.requested]
  have hwf : (Instr.proxyRead n .host addr len).wf = true := by
    have hlen' : 4 ≤ len ∧ len ≤ 256 := by simpa using (Bool.and_eq_true_iff.1 hlen).1
    have hfit : fitsU 16 len = true := decide_eq_true (by omega)
    simp [Instr.wf, haddr, hfit]
  generalize s.requested n addr len 1 = u at hwithin hst hlink heff
  have hall : Dev.Within (proxyFields n) (fun _ => ()) s.toDev ((u.setRequests n [r]).send (.control n r)) :=
    ⟨hwithin.fields.trans (.of_regs rfl rfl rfl), rfl⟩
  refine .of_effect (exec_proxyRead n s ..) hwf (by rw [hr]; exact heff) ⟨?_, Dev.mem_out_notify (Dev.mem_out_send _ _), ?_, hall.kept, ?_⟩
  · rw [Dev.notify_link]; exact (u.setRequests_link n [r]).trans (by rw [hlink])
  · rw [Dev.notify_rd]; exact hst
  · rw [Dev.notify_rest, Dev.notify_links]
    exact (congrArg (fun d : Dev => { d with links := (u.setRequests n [r]).links }) hwithin.same :)

theorem completes_proxyRead_badLen (haddr : fitsU 32 addr = true) (hlen : proxyLenOk len = false) (hfit : fitsU 16 len = true) :
    Completes (.proxyRead n .host addr len) s fun t =>
      t.links = s.links ∧ t.rd .CXP_PRX_STAT_ST n = 5 ∧
      KeepsFields s t [(.CXP_PRX_ADDR, n), (.CXP_PRX_CMD_LEN, n), (.CXP_PRX_STAT_ST, n)] ∧ t.rest = s.rest := by
  obtain ⟨hwithin, hst⟩ := s.requested_reads (n := n) (by omega) addr len (st := 5) (by decide)
  have heff : s.toDev.request n { source := .host, write := false, addr := addr, len := len, data := [] } = s.requested n addr len 5 := by
    simp [Dev.request, Dev.proxyOperands, hlen, Dev.proxyStatus, Dev.requested]
  refine .of_effect (exec_proxyRead n s ..) (by simp [Instr.wf, haddr, hfit]) heff ⟨?_, ?_, hwithin.kept, (Dev.notify_rest ..).trans hwithin.same⟩
  · rw [Dev.notify_links]; simp [Dev.requested]
  · rw [Dev.notify_rd]; exact hst

theorem completes_proxyWrite_busy {data : List Byte} {q : ProxyReq} {rest : List ProxyReq} (haddr : fitsU 32 addr = true)
    (hlen : proxyLenOk len = true) (hdata : data.length = len) (hbusy : (s.link n).requests = q :: rest) :
    Completes (.proxyWrite n .host addr len data) s fun t =>
      t.link n = { s.link n with requests := (q :: rest) ++ [{ source := .host, write := true, addr := addr, len := len, data := data }] } ∧
      t.rd .CXP_PRX_STAT_ST n = 1 ∧ t.barBytes (proxyWindow n) len = data ∧
      KeepsFields s t [(.CXP_PRX_ADDR, n), (.CXP_PRX_CMD_LEN, n), (.CXP_PRX_STAT_ST, n)] ∧
      t.rest = { s.rest with links := t.links, bar := t.bar } := by
  generalize hr : ({ source := .host, write := true, addr := addr, len := len, data := data } : ProxyReq) = r
  have hlen' : 4 ≤ len ∧ len ≤ 256 := by simpa using (Bool.and_eq_true_iff.1 hlen).1
  have hregs : Dev.Within (proxyFields n) Dev.butProxy s.toDev ((s.wr .CXP_PRX_ADDR n addr).wr .CXP_PRX_CMD_LEN n len) :=
    ((Dev.Within.refl _ _ s.toDev).wr _ (by omega) (by simp [proxyFields])).wr _ (by omega) (by simp [proxyFields])
  have hlinks : ((s.wr .CXP_PRX_ADDR n addr).wr .CXP_PRX_CMD_LEN n len).links = s.links := by simp
  have hreq : s.toDev.request n r = (((((s.wr .CXP_PRX_ADDR n addr).wr .CXP_PRX_CMD_LEN n len).putBars (proxyWindow n) data).wr
      .CXP_PRX_STAT_ST n 1).queueControl n r) := by
    simp [Dev.request, Dev.proxyOperands, ← hr, hlen, Dev.proxyStatus, List.take_of_length_le (hdata ▸ hlen'.2)]
  have hwf : (Instr.proxyWrite n .host addr len data).wf = true := by
    have hfit : fitsU 16 len = true := decide_eq_true (by omega)
    simp [Instr.wf, haddr, hfit, hdata]
  generalize (s.wr .CXP_PRX_ADDR n addr).wr .CXP_PRX_CMD_LEN n len = u at hregs hlinks hreq
  have hput := hregs.putBars (proxyWindow n) data fun _ _ => rfl
  have hbytes : (u.putBars (proxyWindow n) data).barBytes (proxyWindow n) len = data := hdata ▸ u.barBytes_putBars (proxyWindow n) data
  have hputLinks : (u.putBars (proxyWindow n) data).links = s.links := (congrArg Dev.links (u.putBars_rest (proxyWindow n) data) :).trans hlinks
  generalize u.putBars (proxyWindow n) data = v at hput hbytes hputLinks hreq
  have hset := hput.wr (f := .CXP_PRX_STAT_ST) (i := n) 1 (by omega) (by simp [proxyFields])
  have hst : (v.wr .CXP_PRX_STAT_ST n 1).rd .CXP_PRX_STAT_ST n = 1 := Dev.rd_wr ..
  have hbar : (v.wr .CXP_PRX_STAT_ST n 1).bar = v.bar := by simp
  have hlink : (v.wr .CXP_PRX_STAT_ST n 1).link n = s.link n := by simp [Dev.link, hputLinks]
  generalize v.wr .CXP_PRX_STAT_ST n 1 = w at hset hst hbar hlink hreq
  have heff := hreq.trans (Dev.queueControl_busy r (hlink ▸ hbusy) (List.cons_ne_nil _ _))
  have hall := hset.setRequests n ((q :: rest) ++ [r])
  refine .of_effect (exec_proxyWrite n s ..) hwf (by rw [hr]; exact heff) ⟨?_, ?_, ?_, hall.kept, ?_⟩
  · rw [Dev.notify_link]; exact (w.setRequests_link n _).trans (by rw [hlink])
  · rw [Dev.notify_rd]; exact hst
  · have : ((w.setRequests n ((q :: rest) ++ [r])).notify s.toDev).bar = v.bar := by rw [Dev.notify_bar]; exact hbar
    exact (by simp only [Dev.barBytes, Dev.barByte, this] : _ = v.barBytes (proxyWindow n) len).trans hbytes
  · rw [Dev.notify_rest, Dev.notify_links, Dev.notify_bar]; exact Dev.rest_of_butProxy hall.same

end

/-! ### The end of a request -/

/-- The host's request at the head ends with a status: what a change `u` of the windows and registers before it has left stays. -/
theorem Dev.endRequest_reads {u : Dev} {n : Nat} (hn : n < 1024) {r : ProxyReq} {rest : List ProxyReq} {st : Nat} (hst : st < 2 ^ 3)
    (h : (u.link n).requests = r :: rest) (hr : r.source = .host) :
    Within [(.CXP_PRX_STAT_ST, n)] butProxy u (u.endRequest n st) ∧ (u.endRequest n st).link n = { u.link n with requests := rest } ∧
      (u.endRequest n st).bar = u.bar ∧ (u.endRequest n st).rd .CXP_PRX_STAT_ST n = st ∧
      ∀ q l, rest = q :: l → .control n q ∈ (u.endRequest n st).out := by
  rw [endRequest_host st h hr]
  have hset : Within [(.CXP_PRX_STAT_ST, n)] butProxy u (u.wr .CXP_PRX_STAT_ST n st) := (Within.refl _ _ u).wr _ hn (by simp)
  have hrd : (u.wr .CXP_PRX_STAT_ST n st).rd .CXP_PRX_STAT_ST n = st := (Dev.rd_wr ..).trans (wrap_of_lt hst)
  have hlink : (u.wr .CXP_PRX_STAT_ST n st).link n = u.link n := by simp
  have hbar : (u.wr .CXP_PRX_STAT_ST n st).bar = u.bar := by simp
  generalize u.wr .CXP_PRX_STAT_ST n st = v at hset hrd hlink hbar ⊢
  have hpop := hset.setRequests n rest
  have hpopLink : (v.setRequests n rest).link n = { u.link n with requests := rest } := (v.setRequests_link n rest).trans (by rw [hlink])
  have hpopRd : (v.setRequests n rest).rd .CXP_PRX_STAT_ST n = st := hrd
  have hpopBar : (v.setRequests n rest).bar = u.bar := hbar
  generalize v.setRequests n rest = w at hpop hpopLink hpopRd hpopBar ⊢
  obtain ⟨hwithin, hlinks, hbars, hsent⟩ := w.sendControl_reads n butProxy
  refine ⟨hpop.trans (hwithin.mono (by simp)), ?_, hbars.trans hpopBar, (hwithin.rd hn (by simp)).trans hpopRd, fun q l hq => ?_⟩
  · unfold Dev.link; rw [hlinks]; exact hpopLink
  · exact hsent q l (by rw [hpopLink]; exact hq)

section
variable {s : State} {n : Fin 24} {r : ProxyReq} {rest : List ProxyReq}

theorem completes_proxyAck_done {data : List Byte} {q : ProxyReq} (h : (s.link n).requests = r :: q :: rest) (hr : r.source = .host)
    (hread : r.write = false) (hdata : data.length = r.len) (hlen : r.len ≤ 256) :
    Completes (.proxyAck n (.done data)) s fun t =>
      t.link n = { s.link n with requests := q :: rest } ∧ Out.control n q ∈ t.out ∧ t.rd .CXP_PRX_STAT_ST n = 0 ∧
      t.barBytes (proxyWindow n) r.len = data ∧ KeepsFields s t [(.CXP_PRX_STAT_ST, n)] ∧
      t.rest = { s.rest with links := t.links, bar := t.bar } := by
  have hpad : padTo r.len data = data := by simp [padTo, ← hdata]
  have heff : s.toDev.proxyAck n (.done data) = (s.putBars (proxyWindow n) data).endRequest n 0 := by
    simp [Dev.proxyAck, Dev.readData, h, hr, hread, hpad]
  have hput := (Dev.Within.refl [(.CXP_PRX_STAT_ST, (n : Nat))] Dev.butProxy s.toDev).putBars (proxyWindow n) data fun _ _ => rfl
  have hbytes : (s.putBars (proxyWindow n) data).barBytes (proxyWindow n) r.len = data := hdata ▸ s.barBytes_putBars (proxyWindow n) data
  have hlinks : (s.putBars (proxyWindow n) data).links = s.links := (congrArg Dev.links (s.putBars_rest (proxyWindow n) data) :)
  generalize s.putBars (proxyWindow n) data = u at heff hput hbytes hlinks
  have hlink : u.link n = s.link n := by simp only [Dev.link, hlinks]
  obtain ⟨hend, hendLink, hendBar, hst, hsent⟩ := Dev.endRequest_reads (u := u) (n := n) (st := 0) (by omega) (by decide)
    (hlink ▸ h) hr
  generalize u.endRequest n 0 = v at heff hend hendLink hendBar hst hsent
  have hall := hput.trans hend
  refine .of_effect (exec_proxyAck n s _) (decide_eq_true (hdata ▸ hlen)) heff ⟨?_, Dev.mem_out_notify (hsent q rest rfl), ?_, ?_, hall.kept, ?_⟩
  · rw [Dev.notify_link, hendLink, hlink]
  · rw [Dev.notify_rd]; exact hst
  · have : (v.notify s.toDev).bar = u.bar := by rw [Dev.notify_bar]; exact hendBar
    exact (by simp only [Dev.barBytes, Dev.barByte, this] : _ = u.barBytes (proxyWindow n) r.len).trans hbytes
  · rw [Dev.notify_rest, Dev.notify_links, Dev.notify_bar]; exact Dev.rest_of_butProxy hall.same

/-- A request that ends without data, after `u` has noted why: the windows stay. -/
theorem completes_endRequest {c : Instr} {f : Dev → Dev} {u : Dev} {st : Nat} {l : List (Field × Nat)} (hexec : exec c s = s.run c f) (hwf : c.wf = true)
    (hst : st < 2 ^ 3) (heff : f s.toDev = u.endRequest n st) (hu : Dev.Within l id s.toDev u) (hl : (.CXP_PRX_STAT_ST, (n : Nat)) ∈ l)
    (h : (s.link n).requests = r :: rest) (hr : r.source = .host) {f' : Field} (hf' : f' ≠ .CXP_PRX_STAT_ST) :
    Completes c s fun t =>
      t.link n = { s.link n with requests := rest } ∧ t.rd .CXP_PRX_STAT_ST n = st ∧ t.rd f' n = u.rd f' n ∧ KeepsFields s t l ∧
      t.rest = { s.rest with links := t.links } := by
  have hlinks : u.links = s.links := (congrArg Dev.links hu.same :)
  have hbar : u.bar = s.bar := (congrArg Dev.bar hu.same :)
  have hrest : u.rest = s.rest := hu.same
  have hlink : u.link n = s.link n := by simp only [Dev.link, hlinks]
  obtain ⟨hend, hendLink, hendBar, hst', -⟩ := Dev.endRequest_reads (u := u) (n := n) (st := st) (by omega) hst (hlink ▸ h) hr
  generalize u.endRequest n st = v at heff hend hendLink hendBar hst'
  have hall : Dev.Within l (fun _ => ()) s.toDev v := ⟨hu.fields.trans (hend.fields.mono fun e he => (List.mem_singleton.1 he) ▸ hl), rfl⟩
  refine .of_effect hexec hwf heff ⟨?_, ?_, ?_, hall.kept, ?_⟩
  · rw [Dev.notify_link, hendLink, hlink]
  · rw [Dev.notify_rd]; exact hst'
  · rw [Dev.notify_rd]; exact hend.rd (by omega) (by simp [hf'])
  · rw [Dev.notify_rest, Dev.notify_links, Dev.rest_of_butProxy hend.same, hrest, hendBar, hbar]; rfl

theorem completes_proxyAck_nack {code : Nat} (hcode : fitsU 16 code = true) (h : (s.link n).requests = r :: rest) (hr : r.source = .host) :
    Completes (.proxyAck n (.nack code)) s fun t =>
      t.link n = { s.link n with requests := rest } ∧ t.rd .CXP_PRX_STAT_ST n = 2 ∧ t.rd .CXP_PRX_STAT_CODE n = code ∧
      KeepsFields s t [(.CXP_PRX_STAT_ST, n), (.CXP_PRX_STAT_CODE, n)] ∧ t.rest = { s.rest with links := t.links } := by
  have heff : s.toDev.proxyAck n (.nack code) = (s.wr .CXP_PRX_STAT_CODE n code).endRequest n 2 := by
    simp [Dev.proxyAck, Dev.nackCode, h, hr]
  have hu : Dev.Within [(.CXP_PRX_STAT_ST, (n : Nat)), (.CXP_PRX_STAT_CODE, (n : Nat))] id s.toDev (s.wr .CXP_PRX_STAT_CODE n code) :=
    (Dev.Within.refl _ _ _).wr _ (by omega) (by simp)
  have hrd : (s.wr .CXP_PRX_STAT_CODE n code).rd .CXP_PRX_STAT_CODE n = code := (Dev.rd_wr ..).trans (wrap_of_lt (of_decide_eq_true hcode))
  have hdone := completes_endRequest (exec_proxyAck n s (.nack code)) hcode (by decide) heff hu (by simp) h hr (f' := .CXP_PRX_STAT_CODE) (by decide)
  rw [hrd] at hdone
  exact hdone

theorem completes_proxyTimeout (h : (s.link n).requests = r :: rest) (hr : r.source = .host) :
    Completes (.proxyTimeout n) s fun t =>
      t.link n = { s.link n with requests := rest } ∧ t.rd .CXP_PRX_STAT_ST n = 3 ∧ KeepsFields s t [(.CXP_PRX_STAT_ST, n)] ∧
      t.rest = { s.rest with links := t.links } := by
  obtain ⟨t, hrun, hlink, hst, -, hkept, hrest⟩ := completes_endRequest (exec_proxyTimeout n s) rfl (by decide) rfl
    (.refl [(.CXP_PRX_STAT_ST, (n : Nat))] _ s.toDev) (by simp) h hr (f' := .CXP_PRX_STAT_CODE) (by decide)
  exact ⟨t, hrun, hlink, hst, hkept, hrest⟩

end

/-- Settles O21: a request of the host stands in its link's registers, joins the queue and goes out from its head, and ends with its
status. -/
theorem cameraRequests : Obligations.CameraRequests := by
  intro s n addr len code data r q rest haddr hcode
  exact ⟨completes_proxyRead_idle haddr, completes_proxyWrite_busy haddr, completes_proxyRead_badLen haddr, completes_proxyAck_done,
    fun h hr => ⟨completes_proxyAck_nack hcode h hr, completes_proxyTimeout h hr⟩⟩

end Sys2Proof.Machine

end

section
/-! Exceptions and instruction errors of a Churn (R116, R132), and the matrix array (R104, R107, R108, R110). -/

namespace Sys2Proof.Machine

open Sys2Proof

/-! ### Exceptions and instruction errors -/

/-- What the module holds beside the jobs. -/
def Dev.butJobs (s : Dev) : Dev := { s with jobs := [] }

theorem Dev.rest_of_butJobs {s t : Dev} (h : t.rest.butJobs = s.rest.butJobs) : t.rest = { s.rest with jobs := t.jobs } :=
  (congrArg (fun d : Dev => { d with jobs := t.jobs }) h :)

theorem mem_excAt {e : Field × Nat} (n : Nat) (h : e ∈ excFields) : (e.1, n) ∈ excAt n := List.mem_map.2 ⟨e, h, rfl⟩

section
variable {α : Type} {l : List (Field × Nat)} {m : Dev → α} {s t : Dev}

theorem Dev.Within.setExc (h : Within l m s t) {n : Nat} (hn : n < 1024) (mask : Nat) (hl : ∀ e ∈ excAt n, e ∈ l) :
    Within l m s (t.setExc n mask) := by
  refine .foldl _ h fun d e he => ?_
  split
  · exact (Within.refl _ _ d).setFlag true hn (hl _ (mem_excAt n he))
  · exact .refl _ _ d

theorem Dev.Within.updJob (h : Within l m s t) (q : Nat) (f : Job → Job) (hm : ∀ d x, m { d with jobs := x } = m d) :
    Within l m s (t.updJob q f) := h.step rfl rfl rfl (hm t.rest _)

theorem Dev.Within.raiseExc (h : Within l m s t) {n : Nat} (hn : n < 1024) (mask : Nat) (hl : ∀ e ∈ excAt n, e ∈ l)
    (hm : ∀ d x, m { d with jobs := x } = m d) : Within l m s (t.raiseExc n mask) := by
  have hset := h.setExc hn mask hl
  unfold Dev.raiseExc
  generalize t.setExc n mask = u at hset ⊢
  cases hr : u.resident n with
  | none => simpa only [hr] using hset
  | some r => simpa only [hr] using hset.updJob _ _ hm

end

/-- No flag is raised by an empty mask. -/
theorem Dev.setExc_zero (s : Dev) (n : Nat) : s.setExc n 0 = s := foldl_fixed fun e _ => by simp [bit]

theorem Dev.raiseExc_zero (s : Dev) (n : Nat) {α : Type} (l : List (Field × Nat)) {m : Dev → α} (hm : ∀ d x, m { d with jobs := x } = m d) :
    Within l m s (s.raiseExc n 0) := by
  unfold raiseExc
  rw [setExc_zero]
  cases hr : s.resident n with
  | none => simpa only [hr] using Within.refl _ _ s
  | some r => simpa only [hr] using (Within.refl _ _ s).updJob _ _ hm

/-- The fields that name an instruction error of a Churn. -/
def errAt (n : Nat) : List (Field × Nat) := [(.CHN_ERR_CODE, n), (.CHN_ERR_COUNT, n)]

/-- An instruction error of a Churn that holds no context is shown and counted. -/
theorem Dev.instrError_free {s : Dev} {n : Nat} (hn : n < 1024) {code : Nat} (hcode : code < 2 ^ 8) (hfree : s.resident n = none) :
    Within (errAt n) id s (s.instrError n code) ∧ (s.instrError n code).rd .CHN_ERR_CODE n = code := by
  have hset : Within (errAt n) id s (s.wr .CHN_ERR_CODE n code) := (Within.refl _ _ s).wr _ hn (by simp [errAt])
  have hrd : (s.wr .CHN_ERR_CODE n code).rd .CHN_ERR_CODE n = code := (Dev.rd_wr ..).trans (wrap_of_lt hcode)
  have hres : ((s.wr .CHN_ERR_CODE n code).count .CHN_ERR_COUNT n).resident n = none := by
    simp only [resident, churn, count, Dev.wr_churns]; exact hfree
  have herr : s.instrError n code = (s.wr .CHN_ERR_CODE n code).count .CHN_ERR_COUNT n := by
    unfold instrError; dsimp only; rw [hres]
  rw [herr]
  exact ⟨hset.count hn (by simp [errAt]), (Dev.rd_wr_field _ _ _ _ _ _ hn hn (by decide)).trans hrd⟩

/-- A command that is an instruction error of a Churn without a context. -/
theorem completes_instrError {c : Instr} {s : State} {f : Dev → Dev} {n : Fin 16} {code : Nat} (hexec : exec c s = s.run c f) (hwf : c.wf = true)
    (heff : f s.toDev = s.instrError n code) (hcode : code < 2 ^ 8) (hfree : s.resident n = none) :
    Completes c s fun t =>
      t.rd .CHN_ERR_CODE n = code ∧ KeepsFields s t [(.CHN_ERR_CODE, n), (.CHN_ERR_COUNT, n)] ∧ t.rest = s.rest := by
  obtain ⟨hwithin, hrd⟩ := Dev.instrError_free (n := n) (by omega) hcode hfree
  exact .of_effect hexec hwf heff ⟨(Dev.notify_rd ..).trans hrd, hwithin.kept, (Dev.notify_rest ..).trans hwithin.same⟩

/-! ### Exact sums -/

/-- Entries of a table that is built from a function. -/
theorem tabFind?_build (f : Nat → Nat) {n k : Nat} (hk : k < n) : (tabFind? (tabBuild n f) k).getD 0 = f k := by
  have hlist (l : List Nat) : (tabFind? (l.filterMap fun j => if f j = 0 then none else some (j, f j)) k).getD 0 = if k ∈ l then f k else 0 := by
    induction l with
    | nil => rfl
    | cons j l ih =>
      by_cases hj : f j = 0
      · rw [List.filterMap_cons_none (by simp [hj]), ih]
        by_cases hkj : k = j
        · subst hkj; simp [hj]
        · simp [hkj]
      · rw [List.filterMap_cons_some (by simp [hj]; rfl), tabFind?]
        by_cases hkj : j = k
        · subst hkj; simp
        · rw [if_neg hkj, ih]; simp [Ne.symm hkj]
  exact (hlist (rangeFrom 0 n)).trans (if_pos (mem_rangeFrom.2 (by omega)))

/-- The value of a signed INT8 code. -/
theorem elemVal_int8 (c : Nat) : elemVal .int8 true c = .fin (decide (sgn 8 c < 0)) (sgn 8 c).natAbs 0 := rfl

/-- A signed product of two whole numbers joins a sum as it is. -/
theorem Cell.product_whole (c : Cell) (a b : Int) :
    c.product 0 0 (.fin (decide (a < 0)) a.natAbs 0) (.fin (decide (b < 0)) b.natAbs 0) = { c with acc := c.acc + a * b } := by
  have hnat (x y : Nat) : ((x * 2 ^ ((0 : Int) - 0).toNat * (y * 2 ^ ((0 : Int) - 0).toNat) : Nat) : Int) = x * y := by simp
  simp only [product, hnat]
  by_cases ha : a < 0 <;> by_cases hb : b < 0
  · rw [Int.ofNat_natAbs_of_nonpos ha.le, Int.ofNat_natAbs_of_nonpos hb.le]; simp [ha, hb]
  · rw [Int.ofNat_natAbs_of_nonpos ha.le, Int.natAbs_of_nonneg (not_lt.1 hb)]; simp [ha, hb]
  · rw [Int.natAbs_of_nonneg (not_lt.1 ha), Int.ofNat_natAbs_of_nonpos hb.le]; simp [ha, hb]
  · rw [Int.natAbs_of_nonneg (not_lt.1 ha), Int.natAbs_of_nonneg (not_lt.1 hb)]; simp [ha, hb]

/-- An exact sum of signed products. -/
theorem Cell.exact_whole {β : Type} (l : List β) (f g : β → Int) (c : Cell) :
    c.exact 0 0 (l.map fun x => (.fin (decide (f x < 0)) (f x).natAbs 0, .fin (decide (g x < 0)) (g x).natAbs 0)) =
      { c with acc := c.acc + (l.map fun x => f x * g x).sum } := by
  induction l generalizing c with
  | nil => simp [Cell.exact]
  | cons x l ih =>
    have h := ih { c with acc := c.acc + f x * g x }
    simp only [Cell.exact, List.map_cons, List.foldl_cons, List.sum_cons, product_whole] at h ⊢
    rw [h, Int.add_assoc]

/-- A code of 8 bits stands for a number between -128 and 127. -/
theorem sgn8_bounds (c : Nat) : -128 ≤ sgn 8 c ∧ sgn 8 c ≤ 127 := by
  unfold sgn
  have : c % 2 ^ 8 < 2 ^ 8 := Nat.mod_lt _ (by decide)
  split <;> constructor <;> omega

theorem length_upTo (n : Nat) : (upTo n).length = n := by
  induction n with
  | zero => rfl
  | succ n ih => simp [upTo, ih]

/-- A sum of `n` products of bytes stays within `n` times 2^14. -/
theorem sum_products_bounds {β : Type} (l : List β) (f g : β → Nat) :
    -(16384 * l.length : Int) ≤ (l.map fun x => sgn 8 (f x) * sgn 8 (g x)).sum ∧
      (l.map fun x => sgn 8 (f x) * sgn 8 (g x)).sum ≤ 16384 * l.length := by
  induction l with
  | nil => simp
  | cons x l ih =>
    obtain ⟨hfl, hfu⟩ := sgn8_bounds (f x)
    obtain ⟨hgl, hgu⟩ := sgn8_bounds (g x)
    have hprod : -16384 ≤ sgn 8 (f x) * sgn 8 (g x) ∧ sgn 8 (f x) * sgn 8 (g x) ≤ 16384 := by constructor <;> nlinarith
    simp only [List.map_cons, List.sum_cons, List.length_cons]
    push_cast
    omega

/-! ### A matrix instruction over signed INT8 -/

theorem exec_matrixInstruction (n : Fin 16) (op : MatrixOp) (s : State) :
    exec (.matrixInstruction n op) s = s.run (.matrixInstruction n op) fun d => d.matrixInstruction n op := rfl

/-- A reduction length that R106 does not allow is the least error code. -/
theorem matrixError_klim {op : MatrixOp} {reduced : Nat} (h : op.k = 0 ∨ 131072 < reduced + op.k) : matrixError op reduced = 1 := by
  have hfirst : (op.k == 0 || decide (131072 < reduced + op.k)) = true := by simpa using h
  unfold matrixError
  rw [hfirst]
  generalize ((pairKind op.fa op.fb).isNone || (op.readInt && !(opInt op.fa && opInt op.fb))) = b2
  generalize (!matrixFits op) = b3
  generalize (opMx op.fa && op.k % 32 != 0) = b5
  revert b2 b3 b5
  decide

/-- The sum of products of row `i` of A and column `j` of B. -/
def Dev.int8Sum (s : Dev) (n : Nat) (op : MatrixOp) (i j : Nat) : Int :=
  ((upTo op.k).map fun x => sgn 8 (s.lsElem n (op.aBase + i * op.aPitch) 8 x) * sgn 8 (s.lsElem n (op.bBase + j * op.bPitch) 8 x)).sum

section
variable {op : MatrixOp} (hfa : op.fa = .int8) (hfb : op.fb = .int8) (hsa : op.signedA = true) (hsb : op.signedB = true)
  (hfirst : op.first = true)
include hfa hfb hsa hsb hfirst

/-- A cell that starts an accumulation holds the exact sum, and has raised no flag. -/
theorem Dev.cellAfter_int8 (s : Dev) (n k : Nat) : s.cellAfter n op .exact 0 k = { acc := s.int8Sum n op (k / 64) (k % 64) } := by
  have hbefore : s.cellBefore n op .exact k = {} := by simp [cellBefore, hfirst]
  have hsum := Cell.exact_whole (upTo op.k) (fun x => sgn 8 (s.lsElem n (op.aBase + k / 64 * op.aPitch) 8 x))
    (fun x => sgn 8 (s.lsElem n (op.bBase + k % 64 * op.bPitch) 8 x)) {}
  rw [cellAfter, hbefore]
  simp only [Cell.reduce, hfa, hfb, operands, hsa, hsb, unitExp, opBits, elemVal_int8]
  rw [hsum]
  simp [int8Sum]

/-- The instruction leaves the sums in the cells of its Churn. -/
theorem Dev.matrixInstruction_int8 (s : Dev) (n : Nat) (herr : matrixError op 0 = 0) (hlast : op.last = false) :
    s.matrixInstruction n op = (s.setChurn n { s.churn n with
      acc := tabBuild 8192 fun k => unsgn 96 (s.int8Sum n op (k / 64) (k % 64)), sticky := tabBuild 8192 fun _ => 0,
      anchor := tabBuildInt 8192 fun _ => 0, reduced := op.k }).raiseExc n 0 := by
  have hcell : s.cellAfter n op .exact 0 = fun k => { acc := s.int8Sum n op (k / 64) (k % 64) } :=
    funext fun k => cellAfter_int8 hfa hfb hsa hsb hfirst s n k
  have hpair : pairKind .int8 .int8 = some .exact := rfl
  have hflags : (upTo 8192).foldl (fun (f _ : Nat) => f ||| 0 ||| 0) 0 = 0 := foldl_fixed fun _ _ => by simp
  have hrun : s.matrixInstruction n op = s.runMatrix n op .exact 0 := by
    unfold matrixInstruction
    rw [hfirst, hfa, hfb, hpair]
    have hreduced : (if true = true then 0 else (s.churn n).reduced) = 0 := rfl
    rw [hreduced]
    change (if matrixError op 0 = 1 then _ else if matrixError op 0 ≠ 0 then _ else _) = _
    rw [herr]
    rfl
  rw [hrun]
  unfold runMatrix
  rw [hcell, hlast, Nat.zero_add]
  cases op.part with
  | none => simp only [Bool.false_eq_true, if_false, hflags, Cell.stored]
  | some p => simp only [Bool.false_eq_true, if_false, hflags, Cell.stored]

theorem completes_matrixInt8 {s : State} (n : Fin 16) (i : Fin 128) (j : Fin 64) (herr : matrixError op 0 = 0) (hlast : op.last = false) :
    Completes (.matrixInstruction n op) s fun t =>
      ((t.churn n).cell (64 * i + j) .exact).acc = s.int8Sum n op i j ∧
      (t.churn n).reduced = op.k ∧ (t.churn n).rf = (s.churn n).rf ∧ (t.churn n).latch = (s.churn n).latch ∧
      KeepsFields s t [] ∧ t.rest = { s.rest with churns := t.churns, jobs := t.jobs } := by
  have heff := s.matrixInstruction_int8 hfa hfb hsa hsb hfirst n herr hlast
  generalize hu : ({ s.churn n with
    acc := tabBuild 8192 fun k => unsgn 96 (s.int8Sum n op (k / 64) (k % 64)), sticky := tabBuild 8192 fun _ => 0,
    anchor := tabBuildInt 8192 fun _ => 0, reduced := op.k } : Churn) = u at heff
  have hcell : (u.cell (64 * i + j) .exact).acc = sgn 96 (unsgn 96 (s.int8Sum n op i j)) := by
    have hrow : (64 * (i : Nat) + j) / 64 = i := by omega
    have hcol : (64 * (i : Nat) + j) % 64 = j := by omega
    have hfind := tabFind?_build (fun k => unsgn 96 (s.int8Sum n op (k / 64) (k % 64))) (n := 8192) (k := 64 * i + j) (by omega)
    rw [hrow, hcol] at hfind
    rw [← hu, Churn.cell]
    exact congrArg (sgn 96) hfind
  have hacc : sgn 96 (unsgn 96 (s.int8Sum n op i j)) = s.int8Sum n op i j := by
    have hk : op.k ≤ 131072 := by
      by_contra hk
      have := matrixError_klim (op := op) (reduced := 0) (.inr (by omega))
      omega
    obtain ⟨hlo, hhi⟩ := sum_products_bounds (upTo op.k) (fun x => s.lsElem n (op.aBase + i * op.aPitch) 8 x)
      fun x => s.lsElem n (op.bBase + j * op.bPitch) 8 x
    rw [length_upTo] at hlo hhi
    refine sgn_unsgn (by decide) ?_ ?_
    · refine le_trans ?_ hlo; omega
    · refine lt_of_le_of_lt hhi ?_; omega
  have hset : Dev.Within [] (fun d : Dev => { d with churns := [], jobs := [] }) s.toDev (s.setChurn n u) :=
    (Dev.Within.refl _ _ s.toDev).step rfl rfl rfl rfl
  have hchurns : (s.setChurn n u).churn n = u := s.churn_setChurn ..
  generalize s.setChurn n u = v at heff hset hchurns
  have hraise := v.raiseExc_zero n [] (m := fun d : Dev => { d with jobs := [] }) fun _ _ => rfl
  generalize v.raiseExc n 0 = w at heff hraise
  have hchurn : w.churn n = u := ((congrArg (fun d : Dev => d.churn n) hraise.same :)).trans hchurns
  have hall : w.rest = { s.rest with churns := w.churns, jobs := w.jobs } :=
    ((congrArg (fun d : Dev => { d with churns := w.churns, jobs := w.jobs }) hraise.same :)).trans
      (congrArg (fun d : Dev => { d with churns := w.churns, jobs := w.jobs }) hset.same :)
  have hkept : Dev.Within [] (fun _ => ()) s.toDev w := ⟨hset.fields.trans hraise.fields, rfl⟩
  refine .of_effect (exec_matrixInstruction n op s) rfl heff ⟨?_, ?_, ?_, ?_, hkept.kept, ?_⟩
  · rw [Dev.notify_churn, hchurn, hcell, hacc]
  · rw [Dev.notify_churn, hchurn, ← hu]
  · rw [Dev.notify_churn, hchurn, ← hu]
  · rw [Dev.notify_churn, hchurn, ← hu]
  · rw [Dev.notify_rest, Dev.notify_churns, Dev.notify_jobs]; exact hall

end

theorem completes_matrixEmpty {s : State} (n : Fin 16) {op : MatrixOp} (hk : op.k = 0) (hfree : s.resident n = none) :
    Completes (.matrixInstruction n op) s fun t =>
      t.rd .CHN_ERR_CODE n = 1 ∧ t.flag .CHN_EXC_KLIM n = true ∧
      KeepsFields s t [(.CHN_ERR_CODE, n), (.CHN_ERR_COUNT, n), (.CHN_EXC_KLIM, n)] ∧ t.rest = s.rest := by
  have hset : s.toDev.raiseExc n excKlim = s.setFlag .CHN_EXC_KLIM n true := by
    have hexc : s.setExc n excKlim = s.setFlag .CHN_EXC_KLIM n true := rfl
    have hres : (s.setFlag .CHN_EXC_KLIM n true).resident n = none := by
      simp only [Dev.resident, Dev.churn, Dev.setFlag, Dev.wr_churns]; exact hfree
    rw [Dev.raiseExc, hexc]
    simp only [hres]
  have heff : s.toDev.matrixInstruction n op = (s.setFlag .CHN_EXC_KLIM n true).instrError n 1 := by
    rw [← hset]
    exact if_pos (matrixError_klim (.inl hk))
  have hflagged : Dev.Within [(.CHN_EXC_KLIM, (n : Nat))] id s.toDev (s.setFlag .CHN_EXC_KLIM n true) :=
    (Dev.Within.refl _ _ _).setFlag true (by omega) (by simp)
  have hflag : (s.setFlag .CHN_EXC_KLIM n true).flag .CHN_EXC_KLIM n = true := s.flag_wr_toNat _ _ true (by decide)
  have hres : (s.setFlag .CHN_EXC_KLIM n true).resident n = none := by
    simp only [Dev.resident, Dev.churn, Dev.setFlag, Dev.wr_churns]; exact hfree
  generalize s.setFlag .CHN_EXC_KLIM n true = u at heff hflagged hflag hres
  obtain ⟨hwithin, hcode⟩ := Dev.instrError_free (n := n) (code := 1) (by omega) (by decide) hres
  have hall := (hflagged.mono (k := [(.CHN_ERR_CODE, (n : Nat)), (.CHN_ERR_COUNT, (n : Nat)), (.CHN_EXC_KLIM, (n : Nat))]) (by simp)).trans
    (hwithin.mono (by simp [errAt]))
  refine .of_effect (exec_matrixInstruction n op s) rfl heff ⟨(Dev.notify_rd ..).trans hcode, ?_, hall.kept, (Dev.notify_rest ..).trans hall.same⟩
  rw [Dev.notify_flag, hwithin.flag (by omega) (by simp [errAt])]
  exact hflag

/-- Settles O26: the products are whole numbers that join the sum as they are, and a sum of at most 131,072 of them fits the accumulator. -/
theorem matrixTileSumsExactly : Obligations.MatrixTileSumsExactly := by
  intro s n op i j hfa hfb
  exact ⟨fun herr hfirst hlast hsa hsb => completes_matrixInt8 hfa hfb hsa hsb hfirst n i j herr hlast, fun hk _ => completes_matrixEmpty n hk⟩

end Sys2Proof.Machine

end

section
/-! Local store: little-endian numbers and arrays of elements (R106, R135). -/

namespace Sys2Proof.Machine

open Sys2Proof

/-! ### Little-endian numbers -/

theorem length_leBytes (v len : Nat) : (leBytes v len).length = len := by
  induction len generalizing v with
  | zero => rfl
  | succ len ih => simp [leBytes, ih]

theorem ofLe_cons (b : Byte) (bs : List Byte) : ofLe (b :: bs) = b.toNat + 256 * ofLe bs := rfl

/-- Little-endian bytes spell the number that they were taken from, as far as they reach. -/
theorem ofLe_leBytes (v len : Nat) : ofLe (leBytes v len) = v % 256 ^ len := by
  induction len generalizing v with
  | zero => exact (Nat.mod_one v).symm
  | succ len ih =>
    rw [leBytes, ofLe_cons, ih, BitVec.toNat_ofNat, show 256 ^ (len + 1) = 256 * 256 ^ len from Nat.pow_succ']
    exact (Nat.mod_mul (x := v) (a := 256) (b := 256 ^ len)).symm

theorem wrap_bytes (len v : Nat) : v % 256 ^ len = wrap (8 * len) v := by
  rw [wrap, show (256 : Nat) = 2 ^ 8 from rfl, ← Nat.pow_mul]

/-- A number reads as it was written where its addresses exist. -/
theorem Dev.leRead_leWrite_same (s : Dev) {a len : Nat} (v : Nat) (h : ∀ i < len, dpaOk (a + i) = true) :
    (s.leWrite a len v).leRead a len = wrap (8 * len) v := by
  have hlen := length_leBytes v len
  have hbytes : (s.leWrite a len v).bytesAt a len = leBytes v len := by
    have := s.bytesAt_putBytes a (leBytes v len) (by rw [hlen]; exact h)
    rw [hlen] at this
    exact this
  rw [leRead, hbytes, ofLe_leBytes, wrap_bytes]

theorem Dev.byteAt_leWrite_out (s : Dev) (a len v : Nat) {k : Nat} (h : k < a ∨ a + len ≤ k) : (s.leWrite a len v).byteAt k = s.byteAt k :=
  s.byteAt_putBytes_out a _ (by rw [length_leBytes]; exact h)

/-- A number that is read depends on its own bytes alone. -/
theorem Dev.leRead_congr {s t : Dev} {a len : Nat} (h : ∀ k, a ≤ k → k < a + len → t.byteAt k = s.byteAt k) : t.leRead a len = s.leRead a len := by
  unfold leRead bytesAt
  congr 1
  refine List.map_congr_left fun k hk => ?_
  have := mem_rangeFrom.1 hk
  exact h k this.1 this.2

/-- Every offset of a Churn's local store exists. -/
theorem dpaOk_ls {n ofs : Nat} (hn : n < 16) (h : ofs < lsSize) : dpaOk (lsOf n + ofs) = true := by
  have : inLs (lsOf n + ofs) = true := by
    unfold inLs lsOf lsBase lsSize at *
    simp only [decide_eq_true_eq]
    omega
  simp [dpaOk, this]

/-! ### Elements -/

/-- The widths of an element: half a byte, or a number of bytes. -/
def ElemWidth (w : Nat) : Prop := w = 4 ∨ ∃ m, 1 ≤ m ∧ w = 8 * m

/-- The bytes that hold an element: where they begin, counted from the array's base, and how many they are. -/
def elemAt (w i : Nat) : Nat := if w = 4 then i / 2 else i * (w / 8)
def elemLen (w : Nat) : Nat := if w = 4 then 1 else w / 8

theorem elem_within {w i k : Nat} (hw : ElemWidth w) (hi : i < k) : elemAt w i + elemLen w ≤ elemBytes w k := by
  unfold elemAt elemLen elemBytes
  rcases hw with rfl | ⟨m, hm, rfl⟩
  · rw [if_pos rfl, if_pos rfl]; omega
  · have h4 : 8 * m ≠ 4 := by omega
    have hdiv : 8 * m / 8 = m := by omega
    rw [if_neg h4, if_neg h4, hdiv]
    have : (i + 1) * m ≤ k * m := Nat.mul_le_mul_right m hi
    have hk : (8 * m * k + 7) / 8 = k * m := by
      rw [show 8 * m * k = 8 * (k * m) by ring]; omega
    rw [hk]; nlinarith

theorem bits_setBits_nibble (n v : Nat) {i j : Nat} (hn : n < 256) (hi : i < 2) (hj : j < 2) :
    bits ((BitVec.ofNat 8 (setBits n (4 * j) 4 v)).toNat) (4 * i) 4 = if i = j then wrap 4 v else bits n (4 * i) 4 := by
  rw [BitVec.toNat_ofNat]
  unfold bits setBits wrap
  interval_cases i <;> interval_cases j <;> simp [bits] <;> omega

theorem Dev.byteAt_putElem_out (s : Dev) (n base w i v : Nat) {k : Nat}
    (h : k < lsOf n + base + elemAt w i ∨ lsOf n + base + elemAt w i + elemLen w ≤ k) : (s.putElem n base w i v).byteAt k = s.byteAt k := by
  unfold putElem
  unfold elemAt elemLen at h
  split
  · rename_i hw
    rw [if_pos hw, if_pos hw] at h
    exact s.byteAt_putByte_ne _ (by omega)
  · rename_i hw
    rw [if_neg hw, if_neg hw] at h
    exact s.byteAt_leWrite_out _ _ _ h

theorem Dev.lsElem_congr {s t : Dev} {n base w i : Nat}
    (h : ∀ k, lsOf n + base + elemAt w i ≤ k → k < lsOf n + base + elemAt w i + elemLen w → t.byteAt k = s.byteAt k) :
    t.lsElem n base w i = s.lsElem n base w i := by
  unfold lsElem
  unfold elemAt elemLen at h
  split
  · rename_i hw
    rw [if_pos hw, if_pos hw] at h
    rw [h _ (by omega) (by omega)]
  · rename_i hw
    rw [if_neg hw, if_neg hw] at h
    exact leRead_congr h

theorem Dev.lsElem_putElem_same (s : Dev) {n base w i : Nat} (v : Nat) (hn : n < 16) (hw : ElemWidth w)
    (hfit : base + elemAt w i + elemLen w ≤ lsSize) : (s.putElem n base w i v).lsElem n base w i = wrap w v := by
  rcases hw with rfl | ⟨m, hm, rfl⟩
  · have hok : dpaOk (lsOf n + base + i / 2) = true := by
      have : base + i / 2 < lsSize := by simp only [elemAt, elemLen] at hfit; simpa using hfit
      rw [Nat.add_assoc]; exact dpaOk_ls hn this
    have hbyte : (s.byteAt (lsOf n + base + i / 2)).toNat < 256 := BitVec.isLt _
    simp only [putElem, lsElem, if_true, s.byteAt_putByte_same _ _ hok]
    rw [bits_setBits_nibble _ _ hbyte (by omega) (by omega), if_pos rfl]
  · have h4 : 8 * m ≠ 4 := by omega
    have hdiv : 8 * m / 8 = m := by omega
    simp only [elemAt, elemLen, if_neg h4, hdiv] at hfit
    simp only [putElem, lsElem, if_neg h4, hdiv]
    refine s.leRead_leWrite_same v fun k hk => ?_
    rw [Nat.add_assoc, Nat.add_assoc]
    exact dpaOk_ls hn (by omega)

theorem Dev.lsElem_putElem_ne (s : Dev) {n base w i j : Nat} (v : Nat) (hw : ElemWidth w) (hij : i ≠ j) :
    (s.putElem n base w j v).lsElem n base w i = s.lsElem n base w i := by
  rcases hw with rfl | ⟨m, hm, rfl⟩
  · by_cases hhalf : i / 2 = j / 2
    · simp only [putElem, lsElem, if_true, hhalf]
      by_cases hok : dpaOk (lsOf n + base + j / 2) = true
      · rw [s.byteAt_putByte_same _ _ hok, bits_setBits_nibble _ _ (BitVec.isLt _) (by omega) (by omega), if_neg (by omega)]
      · have : ∀ b, s.putByte (lsOf n + base + j / 2) b = s := fun b => if_neg hok
        rw [this]
    · refine lsElem_congr fun k hlo hhi => s.byteAt_putElem_out _ _ _ _ _ ?_
      simp only [elemAt, elemLen, if_true] at hlo hhi ⊢
      omega
  · refine lsElem_congr fun k hlo hhi => s.byteAt_putElem_out _ _ _ _ _ ?_
    have h4 : 8 * m ≠ 4 := by omega
    have hdiv : 8 * m / 8 = m := by omega
    simp only [elemAt, elemLen, if_neg h4, hdiv] at hlo hhi ⊢
    rcases Nat.lt_or_gt_of_ne hij with h | h
    · have : (i + 1) * m ≤ j * m := Nat.mul_le_mul_right m h
      rw [Nat.succ_mul] at this; omega
    · have : (j + 1) * m ≤ i * m := Nat.mul_le_mul_right m h
      rw [Nat.succ_mul] at this; omega

/-- Elements written in turn, from a number on. -/
def Dev.putFrom (s : Dev) (n base w i : Nat) (l : List Nat) : Dev := (l.zipIdx i).foldl (fun (d : Dev) e => d.putElem n base w e.2 e.1) s

theorem Dev.putElems_eq (s : Dev) (n base w : Nat) (l : List Nat) : s.putElems n base w l = s.putFrom n base w 0 l := rfl

theorem Dev.putFrom_cons (s : Dev) (n base w i v : Nat) (l : List Nat) :
    s.putFrom n base w i (v :: l) = (s.putElem n base w i v).putFrom n base w (i + 1) l := rfl

/-- An element before those that are written stays. -/
theorem Dev.lsElem_putFrom_below (l : List Nat) (s : Dev) {n base w i j : Nat} (hw : ElemWidth w) (hi : i < j) :
    (s.putFrom n base w j l).lsElem n base w i = s.lsElem n base w i := by
  induction l generalizing s j with
  | nil => rfl
  | cons v l ih => rw [putFrom_cons, ih _ (by omega), lsElem_putElem_ne _ _ hw (by omega)]

/-- Every element reads as it was written. -/
theorem Dev.lsElem_putFrom (l : List Nat) (s : Dev) {n base w j i : Nat} (hn : n < 16) (hw : ElemWidth w) (hi : i < l.length)
    (hfit : base + elemBytes w (j + l.length) ≤ lsSize) : (s.putFrom n base w j l).lsElem n base w (j + i) = wrap w l[i] := by
  induction l generalizing s j i with
  | nil => simp at hi
  | cons v l ih =>
    rw [putFrom_cons]
    rw [List.length_cons] at hi hfit
    cases i with
    | zero =>
      have := elem_within hw (show j < j + (l.length + 1) by omega)
      exact (lsElem_putFrom_below _ _ hw (Nat.lt_succ_self j)).trans (lsElem_putElem_same _ _ hn hw (by omega))
    | succ i =>
      have h := ih (s.putElem n base w j v) (j := j + 1) (i := i) (by omega) (by rw [show j + 1 + l.length = j + (l.length + 1) by omega]; exact hfit)
      rw [show j + (i + 1) = j + 1 + i by omega, h]
      rfl

/-- Bytes beside the array stay. -/
theorem Dev.byteAt_putFrom_out (l : List Nat) (s : Dev) {n base w j k : Nat} (hw : ElemWidth w)
    (h : k < lsOf n + base ∨ lsOf n + base + elemBytes w (j + l.length) ≤ k) : (s.putFrom n base w j l).byteAt k = s.byteAt k := by
  induction l generalizing s j with
  | nil => rfl
  | cons v l ih =>
    rw [List.length_cons] at h
    have := elem_within hw (show j < j + (l.length + 1) by omega)
    rw [putFrom_cons, ih _ (by rw [show j + 1 + l.length = j + (l.length + 1) by omega]; exact h)]
    exact s.byteAt_putElem_out _ _ _ _ _ (by omega)

theorem Dev.lsElem_putElems (s : Dev) {n base w i : Nat} {l : List Nat} (hn : n < 16) (hw : ElemWidth w) (hi : i < l.length)
    (hfit : base + elemBytes w l.length ≤ lsSize) : (s.putElems n base w l).lsElem n base w i = wrap w l[i] := by
  have h := lsElem_putFrom l s (base := base) (j := 0) hn hw hi (by rwa [Nat.zero_add l.length])
  rwa [Nat.zero_add i] at h

theorem Dev.byteAt_putElems_out (s : Dev) {n base w k : Nat} {l : List Nat} (hw : ElemWidth w)
    (h : k < lsOf n + base ∨ lsOf n + base + elemBytes w l.length ≤ k) : (s.putElems n base w l).byteAt k = s.byteAt k :=
  byteAt_putFrom_out l s (j := 0) hw (by rwa [Nat.zero_add])

section
variable {α : Type} {l : List (Field × Nat)} {m : Dev → α} {s t : Dev}

theorem Dev.Within.putElem (h : Within l m s t) (n base w i v : Nat) (hm : ∀ d x, m { d with mem := x } = m d) :
    Within l m s (t.putElem n base w i v) := by
  unfold Dev.putElem
  split
  · exact h.putByte _ _ hm
  · exact h.leWrite _ _ _ hm

theorem Dev.Within.putElems (h : Within l m s t) (n base w : Nat) (x : List Nat) (hm : ∀ d x, m { d with mem := x } = m d) :
    Within l m s (t.putElems n base w x) :=
  .foldl _ h fun d _ _ => (Within.refl _ _ d).putElem _ _ _ _ _ hm

end

end Sys2Proof.Machine

end

section
/-! Conversions, MX quantisation and butterflies (R117 to R119, R124). -/

namespace Sys2Proof.Machine

open Sys2Proof

theorem exec_convertInstruction (n : Fin 16) (op : ConvertOp) (s : State) :
    exec (.convertInstruction n op) s = s.run (.convertInstruction n op) fun d => d.convertInstruction n op := rfl

theorem exec_mxQuantise (n : Fin 16) (op : MxOp) (s : State) : exec (.mxQuantise n op) s = s.run (.mxQuantise n op) fun d => d.mxQuantise n op := rfl

theorem exec_bfly2 (n : Fin 16) (op : BflyOp) (s : State) : exec (.bfly2 n op) s = s.run (.bfly2 n op) fun d => d.bfly2 n op := rfl

theorem exec_bfly4 (n : Fin 16) (op : BflyOp) (s : State) : exec (.bfly4 n op) s = s.run (.bfly4 n op) fun d => d.bfly4 n op := rfl

/-! ### Results in local store -/

theorem Completes.imp {c : Instr} {s : State} {P Q : State → Prop} (h : Completes c s P) (hpq : ∀ t, P t → Q t) : Completes c s Q := by
  obtain ⟨t, ht, hp⟩ := h
  exact ⟨t, ht, hpq t hp⟩

/-- What the module holds beside memory. -/
def Dev.butMem (s : Dev) : Dev := { s with mem := [] }

theorem Dev.byteAt_of_mem {s t : Dev} (h : t.mem = s.mem) (k : Nat) : t.byteAt k = s.byteAt k := by simp only [byteAt, h]

theorem Dev.lsElem_of_mem {s t : Dev} (h : t.mem = s.mem) (n base w i : Nat) : t.lsElem n base w i = s.lsElem n base w i :=
  lsElem_congr fun k _ _ => byteAt_of_mem h k

theorem Dev.leRead_of_mem {s t : Dev} (h : t.mem = s.mem) (a len : Nat) : t.leRead a len = s.leRead a len :=
  leRead_congr fun k _ _ => byteAt_of_mem h k

/-- An instruction that stores its results, which leaves `u`, and then raises the flags of its Churn. -/
theorem completes_stored {c : Instr} {s : State} {f : Dev → Dev} {n : Fin 16} {u : Dev} {mask : Nat} (hexec : exec c s = s.run c f) (hwf : c.wf = true)
    (heff : f s.toDev = u.raiseExc n mask) (hu : Dev.Within [] Dev.butMem s.toDev u) :
    Completes c s fun t => t.mem = u.mem ∧ KeepsFields s t (excAt n) ∧ t.rest = { s.rest with mem := t.mem, jobs := t.jobs } := by
  have hraise := (Dev.Within.refl (excAt n) Dev.butJobs u).raiseExc (n := n) (by omega) mask (fun _ h => h) fun _ _ => rfl
  generalize u.raiseExc n mask = v at heff hraise
  have hall : Dev.Within (excAt n) (fun _ => ()) s.toDev v := ⟨(hu.fields.mono (by simp)).trans hraise.fields, rfl⟩
  refine .of_effect hexec hwf heff ⟨?_, hall.kept, ?_⟩
  · rw [Dev.notify_mem]; exact (congrArg Dev.mem hraise.same :)
  · rw [Dev.notify_rest, Dev.notify_mem, Dev.notify_jobs, Dev.rest_of_butJobs hraise.same]
    have hmem : v.mem = u.mem := (congrArg Dev.mem hraise.same :)
    rw [hmem]
    exact (congrArg (fun d : Dev => { d with mem := u.mem, jobs := v.jobs }) hu.same :)

/-! ### Conversions and quantisation -/

theorem elemWidth_nibble : ElemWidth 4 := .inl rfl

theorem elemWidth_bytes {m : Nat} (h : 1 ≤ m) : ElemWidth (8 * m) := .inr ⟨m, h, rfl⟩

theorem cvtBits_width : (f : CvtFmt) → ElemWidth (cvtBits f)
  | .e4m3 | .e5m2 | .int8 | .uint8 => elemWidth_bytes (m := 1) (by decide)
  | .e2m1 | .int4 | .uint4 => elemWidth_nibble
  | .fp16 | .bf16 => elemWidth_bytes (m := 2) (by decide)
  | .fp32 | .int32 => elemWidth_bytes (m := 4) (by decide)

theorem completes_convert {s : State} (n : Fin 16) {c : ConvertOp} {i : Nat} (hsrc : c.src + elemBytes (if c.wide then 64 else 32) c.n ≤ lsSize)
    (hdst : c.dst + elemBytes (cvtBits c.target) c.n ≤ lsSize) (hi : i < c.n) :
    Completes (.convertInstruction n c) s fun t =>
      t.lsElem n c.dst (cvtBits c.target) i = wrap (cvtBits c.target) ((s.converted n c).getD i (0, 0)).1 ∧
      KeepsBytes s t (lsOf n + c.dst) (elemBytes (cvtBits c.target) c.n) ∧ KeepsFields s t (excAt n) ∧
      t.rest = { s.rest with mem := t.mem, jobs := t.jobs } := by
  have hlen : ((s.converted n c).map fun e => e.1).length = c.n := by simp [Dev.converted, length_upTo]
  have heff : s.toDev.convertInstruction n c = (s.putElems n c.dst (cvtBits c.target) ((s.converted n c).map fun e => e.1)).raiseExc n
      ((s.converted n c).foldl (fun f e => f ||| e.2) 0) := if_neg (by omega)
  have hwithin := (Dev.Within.refl [] Dev.butMem s.toDev).putElems n c.dst (cvtBits c.target) ((s.converted n c).map fun e => e.1) fun _ _ => rfl
  refine (completes_stored (exec_convertInstruction n c s) rfl heff hwithin).imp fun t ⟨hmem, hkept, hrest⟩ => ⟨?_, fun k hk => ?_, hkept, hrest⟩
  · rw [Dev.lsElem_of_mem hmem, Dev.lsElem_putElems _ n.isLt (cvtBits_width _) (by rw [hlen]; exact hi) (by rw [hlen]; exact hdst)]
    have hi' : i < (s.converted n c).length := by simpa [Dev.converted, length_upTo] using hi
    simp [List.getElem?_eq_getElem hi']
  · rw [Dev.byteAt_of_mem hmem]
    exact s.byteAt_putElems_out (cvtBits_width _) (by rw [hlen]; exact hk)

theorem opBits_width : (f : OpFmt) → ElemWidth (opBits f)
  | .int4 | .mxFp4 => elemWidth_nibble
  | .int8 | .e4m3 | .e5m2 | .mxE4m3 | .mxE5m2 | .mxInt8 => elemWidth_bytes (m := 1) (by decide)
  | .bf16 | .fp16 | .u16 => elemWidth_bytes (m := 2) (by decide)
  | .fp32 => elemWidth_bytes (m := 4) (by decide)
  | .fp64 => elemWidth_bytes (m := 8) (by decide)

/-- The elements of a block with its scale. -/
def Dev.quantised (s : Dev) (n : Nat) (m : MxOp) (x : Nat) : List (Nat × Nat) :=
  ((upTo 32).map fun i => fFp32.decode (s.lsElem n m.src 32 i)).zipIdx.map fun e =>
    mxElem m.fmt m.mode (rsOf (s.seedOf n) m.thread m.addr e.2) (scaled e.1 (127 - (x : Int)))

theorem completes_quantise {s : State} (n : Fin 16) {m : MxOp} (i : Nat) (hmx : opMx m.fmt = true) (hsrc : m.src + 128 ≤ lsSize)
    (hdst : m.dst + elemBytes (opBits m.fmt) 32 ≤ m.scale) (hscale : m.scale < lsSize) :
    Completes (.mxQuantise n m) s fun t =>
      let x := mxScale m.fmt ((upTo 32).map fun k => fFp32.decode (s.lsElem n m.src 32 k))
      t.byteAt (lsOf n + m.scale) = BitVec.ofNat 8 x ∧
      (i < 32 → t.lsElem n m.dst (opBits m.fmt) i = wrap (opBits m.fmt)
        (mxElem m.fmt m.mode (rsOf (s.seedOf n) m.thread m.addr i) (scaled (fFp32.decode (s.lsElem n m.src 32 i)) (127 - (x : Int)))).1) ∧
      KeepsBytes s t (lsOf n + m.dst) (m.scale - m.dst + 1) ∧ KeepsFields s t (excAt n) ∧
      t.rest = { s.rest with mem := t.mem, jobs := t.jobs } := by
  generalize hx : mxScale m.fmt ((upTo 32).map fun k => fFp32.decode (s.lsElem n m.src 32 k)) = x
  have hlen : ((s.quantised n m x).map fun e => e.1).length = 32 := by simp [Dev.quantised, length_upTo]
  have hcode : leastCode [(!opMx m.fmt, 2), (decide (lsSize < m.src + 128) || decide (lsSize < m.dst + elemBytes (opBits m.fmt) 32) ||
      decide (lsSize ≤ m.scale), 3)] = 0 := by
    have hfits : (decide (lsSize < m.src + 128) || decide (lsSize < m.dst + elemBytes (opBits m.fmt) 32) || decide (lsSize ≤ m.scale)) = false := by
      simp only [Bool.or_eq_false_iff, decide_eq_false_iff_not]; omega
    rw [hfits, hmx]; rfl
  have heff : s.toDev.mxQuantise n m = ((s.putElems n m.dst (opBits m.fmt) ((s.quantised n m x).map fun e => e.1)).putByte (lsOf n + m.scale)
      (BitVec.ofNat 8 x)).raiseExc n ((s.quantised n m x).foldl (fun f e => f ||| e.2) 0) := by
    unfold Dev.mxQuantise
    rw [hcode]
    simp only [ne_eq, not_true_eq_false, if_false, hx]
    rfl
  have hput := (Dev.Within.refl [] Dev.butMem s.toDev).putElems n m.dst (opBits m.fmt) ((s.quantised n m x).map fun e => e.1) fun _ _ => rfl
  have helem (hi : i < 32) := s.lsElem_putElems (base := m.dst) (l := (s.quantised n m x).map fun e => e.1) n.isLt (opBits_width m.fmt)
    (by rw [hlen]; exact hi) (by rw [hlen]; omega)
  have hout (k : Nat) (hk : k < lsOf n + m.dst ∨ lsOf n + m.dst + elemBytes (opBits m.fmt) 32 ≤ k) :=
    s.byteAt_putElems_out (l := (s.quantised n m x).map fun e => e.1) (opBits_width m.fmt) (by rw [hlen]; exact hk)
  have hvalue (hi : i < 32) : ((s.quantised n m x).map fun e => e.1)[i]'(by rw [hlen]; exact hi) =
      (mxElem m.fmt m.mode (rsOf (s.seedOf n) m.thread m.addr i) (scaled (fFp32.decode (s.lsElem n m.src 32 i)) (127 - (x : Int)))).1 := by
    simp [Dev.quantised, upTo_eq_range]
  generalize s.putElems n m.dst (opBits m.fmt) ((s.quantised n m x).map fun e => e.1) = u at heff hput helem hout
  have hscaleOk : dpaOk (lsOf n + m.scale) = true := dpaOk_ls n.isLt hscale
  refine (completes_stored (exec_mxQuantise n m s) rfl heff (hput.putByte _ _ fun _ _ => rfl)).imp
    fun t ⟨hmem, hkept, hrest⟩ => ⟨?_, fun hi => ?_, fun k hk => ?_, hkept, hrest⟩
  · rw [Dev.byteAt_of_mem hmem]; exact u.byteAt_putByte_same _ _ hscaleOk
  · rw [Dev.lsElem_of_mem hmem, ← hvalue hi, ← helem hi]
    have := elem_within (opBits_width m.fmt) hi
    exact Dev.lsElem_congr fun k hlo hhi => u.byteAt_putByte_ne _ (by omega)
  · rw [Dev.byteAt_of_mem hmem, u.byteAt_putByte_ne _ (by omega)]
    exact hout k (by omega)

/-- Settles O28: the elements that are stored in turn read as they were written, and no other byte changes. -/
theorem conversionsStoreTheirElements : Obligations.ConversionsStoreTheirElements := by
  intro s n c m i
  exact ⟨completes_convert n, completes_quantise n i⟩

/-! ### Butterflies -/

/-- The bytes of one code of a butterfly. -/
def codeBytes (wide : Bool) : Nat := (bflyFmt wide).w / 8

theorem codeBytes_bits (wide : Bool) : 8 * codeBytes wide = (bflyFmt wide).w := by cases wide <;> rfl

theorem bflyBytes_eq (op : BflyOp) : bflyBytes op = 2 * codeBytes op.wide := by
  unfold bflyBytes codeBytes
  cases op.wide <;> rfl

theorem Dev.byteAt_putCplx_out (s : Dev) {n a : Nat} {wide : Bool} (z : Cplx) {k : Nat}
    (h : k < lsOf n + a ∨ lsOf n + a + 2 * codeBytes wide ≤ k) : (s.putCplx n a wide z).byteAt k = s.byteAt k := by
  unfold putCplx
  rw [← codeBytes]
  rw [byteAt_leWrite_out _ _ _ _ (by omega), byteAt_leWrite_out _ _ _ _ (by omega)]

theorem Dev.leRead_putCplx (s : Dev) {n a : Nat} {wide : Bool} (z : Cplx) (hn : n < 16) (hfit : a + 2 * codeBytes wide ≤ lsSize) :
    (s.putCplx n a wide z).leRead (lsOf n + a) (codeBytes wide) = wrap (bflyFmt wide).w z.re ∧
      (s.putCplx n a wide z).leRead (lsOf n + a + codeBytes wide) (codeBytes wide) = wrap (bflyFmt wide).w z.im := by
  have hok (i : Nat) (hi : i < 2 * codeBytes wide) : dpaOk (lsOf n + a + i) = true := by
    rw [Nat.add_assoc]; exact dpaOk_ls hn (by omega)
  unfold putCplx
  rw [← codeBytes, ← codeBytes_bits]
  constructor
  · rw [leRead_congr fun k hlo hhi => byteAt_leWrite_out _ _ _ _ (.inl hhi)]
    exact s.leRead_leWrite_same _ fun i hi => hok i (by omega)
  · exact leRead_leWrite_same _ _ fun i hi => by rw [Nat.add_assoc _ (codeBytes wide) i]; exact hok _ (by omega)

/-- Results written in turn, from a number on. -/
def Dev.putCplxFrom (s : Dev) (n : Nat) (op : BflyOp) (j : Nat) (l : List Cplx) : Dev :=
  (l.zipIdx j).foldl (fun (d : Dev) e => d.putCplx n (bflyTo op e.2) op.wide e.1) s

theorem Dev.putCplxFrom_cons (s : Dev) (n : Nat) (op : BflyOp) (j : Nat) (z : Cplx) (l : List Cplx) :
    s.putCplxFrom n op j (z :: l) = (s.putCplx n (bflyTo op j) op.wide z).putCplxFrom n op (j + 1) l := rfl

theorem Dev.Within.putCplxFrom {l : List (Field × Nat)} {s t : Dev} (h : Within l butMem s t) (n : Nat) (op : BflyOp) (j : Nat) (x : List Cplx) :
    Within l butMem s (t.putCplxFrom n op j x) :=
  .foldl _ h fun d _ _ => ((Within.refl _ _ d).leWrite _ _ _ fun _ _ => rfl).leWrite _ _ _ fun _ _ => rfl

theorem Dev.byteAt_putCplxFrom_out (l : List Cplx) (s : Dev) {n : Nat} {op : BflyOp} {j k : Nat}
    (h : ∀ q, j ≤ q → q < j + l.length → k < lsOf n + bflyTo op q ∨ lsOf n + bflyTo op q + 2 * codeBytes op.wide ≤ k) :
    (s.putCplxFrom n op j l).byteAt k = s.byteAt k := by
  induction l generalizing s j with
  | nil => rfl
  | cons z l ih =>
    rw [List.length_cons] at h
    rw [putCplxFrom_cons, ih _ fun q hlo hhi => h q (by omega) (by omega)]
    exact s.byteAt_putCplx_out z (h j (by omega) (by omega))

/-- A result's place lies before that of every later one. -/
theorem bflyTo_lt {op : BflyOp} (hstride : 1 ≤ op.stride) {p q : Nat} (h : p < q) : bflyTo op p + 2 * codeBytes op.wide ≤ bflyTo op q := by
  have hplace : bflyPlace op p + 1 ≤ bflyPlace op q := by
    have : (p + 1) * op.stride ≤ q * op.stride := Nat.mul_le_mul_right _ h
    rw [Nat.succ_mul] at this
    unfold bflyPlace; omega
  have := Nat.mul_le_mul_right (2 * codeBytes op.wide) hplace
  unfold bflyTo
  rw [bflyBytes_eq]
  rw [Nat.succ_mul] at this; omega

/-- Every result reads as it was written. -/
theorem Dev.leRead_putCplxFrom (l : List Cplx) (s : Dev) {n : Nat} {op : BflyOp} {j i : Nat} (hn : n < 16) (hstride : 1 ≤ op.stride) (hi : i < l.length)
    (hfit : ∀ q, q < j + l.length → bflyTo op q + 2 * codeBytes op.wide ≤ lsSize) :
    (s.putCplxFrom n op j l).leRead (lsOf n + bflyTo op (j + i)) (codeBytes op.wide) = wrap (bflyFmt op.wide).w l[i].re ∧
      (s.putCplxFrom n op j l).leRead (lsOf n + bflyTo op (j + i) + codeBytes op.wide) (codeBytes op.wide) =
        wrap (bflyFmt op.wide).w l[i].im := by
  induction l generalizing s j i with
  | nil => simp at hi
  | cons z l ih =>
    rw [List.length_cons] at hi hfit
    rw [putCplxFrom_cons]
    cases i with
    | zero =>
      have hlater (k : Nat) (hk : k < lsOf n + bflyTo op j + 2 * codeBytes op.wide) :
          ((s.putCplx n (bflyTo op j) op.wide z).putCplxFrom n op (j + 1) l).byteAt k = (s.putCplx n (bflyTo op j) op.wide z).byteAt k :=
        byteAt_putCplxFrom_out l _ fun q hlo _ => .inl (by have := bflyTo_lt hstride (show j < q by omega); omega)
      obtain ⟨hre, him⟩ := s.leRead_putCplx (a := bflyTo op j) (wide := op.wide) z hn (hfit j (by omega))
      exact ⟨(leRead_congr (a := lsOf n + bflyTo op j) fun k _ hk => hlater k (by omega)).trans hre,
        (leRead_congr (a := lsOf n + bflyTo op j + codeBytes op.wide) fun k _ hk => hlater k (by omega)).trans him⟩
    | succ i =>
      have h := ih (s.putCplx n (bflyTo op j) op.wide z) (j := j + 1) (i := i) (by omega) fun q hq => hfit q (by omega)
      rw [show j + 1 + i = j + (i + 1) by omega] at h
      exact h

theorem bflyError_fits {op : BflyOp} {k t : Nat} (h : bflyError op k t = 0) : ∀ q < k, bflyTo op q + 2 * codeBytes op.wide ≤ lsSize := by
  intro q hq
  by_contra hout
  rw [← bflyBytes_eq] at hout
  have hany : ((upTo k).any fun q => decide (lsSize < bflyFrom op q + bflyBytes op) || decide (lsSize < bflyTo op q + bflyBytes op)) = true :=
    List.any_eq_true.2 ⟨q, mem_upTo.2 hq, by simp; omega⟩
  unfold bflyError at h
  rw [hany] at h
  revert h
  generalize (!bflySize op.size) = b
  cases b <;> simp [leastCode]

section
variable {s : State} {op : BflyOp} {c : Instr} {f : Dev → Dev} {n : Fin 16} {l : List Cplx}

/-- A butterfly that stores its results: each reads at its place, and the bytes beside them stay. -/
theorem completes_butterfly (hexec : exec c s = s.run c f) (hwf : c.wf = true) (heff : f s.toDev = s.putCplxs n op l) (hstride : 1 ≤ op.stride)
    (hfit : ∀ q < l.length, bflyTo op q + 2 * codeBytes op.wide ≤ lsSize) :
    Completes c s fun t =>
      (∀ q (hq : q < l.length), t.leRead (lsOf n + bflyTo op q) (codeBytes op.wide) = wrap (bflyFmt op.wide).w l[q].re ∧
        t.leRead (lsOf n + bflyTo op q + codeBytes op.wide) (codeBytes op.wide) = wrap (bflyFmt op.wide).w l[q].im) ∧
      KeepsBytes s t (lsOf n + bflyTo op 0) (((l.length - 1) * op.stride + 1) * (2 * codeBytes op.wide)) ∧ KeepsFields s t (excAt n) ∧
      t.rest = { s.rest with mem := t.mem, jobs := t.jobs } := by
  have hput := (Dev.Within.refl [] Dev.butMem s.toDev).putCplxFrom n op 0 l
  have hrun : f s.toDev = (s.putCplxFrom n op 0 l).raiseExc n (l.foldl (fun f z => f ||| z.fl) 0) := heff
  refine (completes_stored hexec hwf hrun hput).imp fun t ⟨hmem, hkept, hrest⟩ => ⟨fun q hq => ?_, fun k hk => ?_, hkept, hrest⟩
  · rw [Dev.leRead_of_mem hmem, Dev.leRead_of_mem hmem]
    have h := Dev.leRead_putCplxFrom l s.toDev (j := 0) (i := q) n.isLt hstride hq (by rw [Nat.zero_add]; exact hfit)
    rw [Nat.zero_add] at h
    exact h
  · rw [Dev.byteAt_of_mem hmem]
    refine Dev.byteAt_putCplxFrom_out l s.toDev fun q _ hq => ?_
    have hplace : bflyTo op q = bflyTo op 0 + q * op.stride * (2 * codeBytes op.wide) := by
      unfold bflyTo bflyPlace; rw [bflyBytes_eq]; ring
    have hle : q * op.stride * (2 * codeBytes op.wide) ≤ (l.length - 1) * op.stride * (2 * codeBytes op.wide) :=
      Nat.mul_le_mul_right _ (Nat.mul_le_mul_right _ (by omega))
    rw [Nat.succ_mul] at hk
    omega

end

/-- The four results of a radix-4 butterfly. -/
theorem Dev.bfly4_results (s : Dev) (n : Nat) {op : BflyOp} (herr : bflyError op 4 3 = 0) :
    let f := bflyFmt op.wide
    let t1 := (s.bflyIn n op 1).mul f (s.twiddle n op 0)
    let t2 := (s.bflyIn n op 2).mul f (s.twiddle n op 1)
    let t3 := (s.bflyIn n op 3).mul f (s.twiddle n op 2)
    let p := Cplx.add f (s.bflyIn n op 0) t2
    let q := Cplx.add f (s.bflyIn n op 0) (t2.opp f)
    let r := Cplx.add f t1 t3
    let d := (Cplx.add f t1 (t3.opp f)).turn f
    ∃ l, l = [Cplx.add f p r, Cplx.add f q d, Cplx.add f p (r.opp f), Cplx.add f q (d.opp f)] ∧ s.bfly4 n op = s.putCplxs n op l :=
  ⟨_, rfl, if_neg (by simp [herr])⟩

/-- Settles O29: the results' places rise with their numbers, so that each reads as it was written. -/
theorem butterfliesStoreTheirResults : Obligations.ButterfliesStoreTheirResults := by
  intro s n op
  refine ⟨fun hrev q => ?_, fun hstride herr => ?_, fun hstride herr => ?_, fun hfree => ⟨fun herr => ?_, fun herr => ?_⟩⟩
  · have hplace : bflyReadPlace op q = bflyPlace op q := by simp [bflyReadPlace, hrev]
    rw [bflyFrom, hplace, bflyBytes_eq]
    rfl
  · have heff : s.toDev.bfly2 n op = s.putCplxs n op
        [Cplx.add (bflyFmt op.wide) (s.bflyIn n op 0) ((s.bflyIn n op 1).mul (bflyFmt op.wide) (s.twiddle n op 0)),
          Cplx.add (bflyFmt op.wide) (s.bflyIn n op 0) (((s.bflyIn n op 1).mul (bflyFmt op.wide) (s.twiddle n op 0)).opp (bflyFmt op.wide))] :=
      if_neg (by simp [herr])
    refine (completes_butterfly (exec_bfly2 n op s) rfl heff hstride (bflyError_fits herr)).imp fun t ⟨hread, hbytes, hkept, hrest⟩ => ?_
    obtain ⟨hre0, him0⟩ := hread 0 (by simp)
    obtain ⟨hre1, him1⟩ := hread 1 (by simp)
    have hspan : KeepsBytes s t (lsOf n + bflyTo op 0) ((op.stride + 1) * (2 * codeBytes op.wide)) := by simpa using hbytes
    exact ⟨hre0, him0, hre1, him1, hspan, hkept, hrest⟩
  · obtain ⟨l, hl, heff⟩ := s.bfly4_results n herr
    have hlen : l.length = 4 := by rw [hl]; rfl
    refine (completes_butterfly (exec_bfly4 n op s) rfl heff hstride (hlen ▸ bflyError_fits herr)).imp fun t ⟨hread, hbytes, hkept, hrest⟩ => ?_
    rw [hlen] at hbytes
    subst hl
    exact ⟨(hread 0 (by simp)).1, (hread 1 (by simp)).1, (hread 2 (by simp)).2, (hread 3 (by simp)).1, hbytes, hkept, hrest⟩
  · exact completes_instrError (exec_bfly2 n op s) rfl ((if_pos (by simp [herr])).trans (by rw [herr])) (by decide) hfree
  · exact completes_instrError (exec_bfly4 n op s) rfl ((if_pos (by simp [herr])).trans (by rw [herr])) (by decide) hfree

end Sys2Proof.Machine

end

section
/-! Vector instructions and the barriers of a group (R120 to R123, R303). -/

namespace Sys2Proof.Machine

open Sys2Proof

theorem exec_vectorInstruction (n : Fin 16) (op : VectorOp) (s : State) :
    exec (.vectorInstruction n op) s = s.run (.vectorInstruction n op) fun d => d.vectorInstruction n op := rfl

theorem exec_groupBarrier (n : Fin 16) (g : GangAt) (s : State) :
    exec (.groupBarrier n g) s = s.run (.groupBarrier n g) fun d => d.groupBarrier n g.gang g.thread := rfl

/-! ### Commands without an effect -/

/-- A command without an effect leaves the module as it is, whether it can arrive or not. -/
theorem completes_idle {c : Instr} {s : State} {f : Dev → Dev} (hexec : exec c s = s.run c f) (heff : f s.toDev = s.toDev) :
    Completes c s fun t => KeepsFields s t [] ∧ t.rest = s.rest := by
  by_cases hwf : c.wf = true
  · exact .of_effect hexec hwf heff ⟨(Dev.Within.refl [] id s.toDev).kept, Dev.notify_rest ..⟩
  · exact ⟨s, hexec.trans (State.run_of_not_wf f (Bool.not_eq_true _ ▸ hwf)), fun _ _ _ _ => rfl, rfl⟩

/-! ### Registers of threads -/

theorem Churn.reg_setReg_same (u : Churn) (k v : Nat) : (u.setReg k v).reg k = wrap 32 v := by
  have h := tabGet_set_same (fun _ => 0) u.rf k (wrap 32 v)
  exact h

theorem Churn.reg_setReg_ne (u : Churn) {j k : Nat} (v : Nat) (h : j ≠ k) : (u.setReg k v).reg j = u.reg j := by
  have := tabGet_set_ne (fun _ => 0) (fun _ => 0) u.rf (wrap 32 v) h
  exact this

/-- Registers written one for each element of a list. -/
def Churn.setRegs {β : Type} (u : Churn) (key val : β → Nat) (l : List β) : Churn := l.foldl (fun u x => u.setReg (key x) (val x)) u

section
variable {β : Type} (key val : β → Nat)

theorem Churn.reg_setRegs_out (l : List β) (u : Churn) {j : Nat} (h : ∀ x ∈ l, j ≠ key x) : (u.setRegs key val l).reg j = u.reg j := by
  induction l generalizing u with
  | nil => rfl
  | cons x l ih =>
    exact (ih _ fun y hy => h y (List.mem_cons_of_mem _ hy)).trans (u.reg_setReg_ne _ (h x List.mem_cons_self))

theorem Churn.reg_setRegs_mem (hinj : ∀ x y, key x = key y → x = y) (l : List β) (u : Churn) {x : β} (h : x ∈ l) :
    (u.setRegs key val l).reg (key x) = wrap 32 (val x) := by
  induction l generalizing u with
  | nil => simp at h
  | cons y l ih =>
    by_cases hx : x ∈ l
    · exact ih _ hx
    · obtain rfl := (List.mem_cons.1 h).resolve_right hx
      have hout : ∀ z ∈ l, key x ≠ key z := fun z hz e => hx (hinj _ _ e ▸ hz)
      exact (reg_setRegs_out key val l _ hout).trans (u.reg_setReg_same _ _)

/-- Everything of a Churn but its registers stays. -/
theorem Churn.setRegs_rest (l : List β) (u : Churn) : (u.setRegs key val l) = { u with rf := (u.setRegs key val l).rf } := by
  induction l generalizing u with
  | nil => rfl
  | cons x l ih => exact ih (u.setReg (key x) (val x))

end

/-! ### Vector instructions -/

theorem Dev.vectorInstruction_runs {s : Dev} {n : Nat} {op : VectorOp} (hready : s.gangReady n op = true) (herr : s.vectorError n op = 0)
    (hop : ∀ a, op.op ≠ .augment a) : s.vectorInstruction n op = s.runLanes n op := by
  unfold vectorInstruction
  rw [if_neg (by simp [hready])]
  dsimp only
  rw [if_neg (by simp [herr])]
  split
  · rename_i a ha; exact absurd ha (hop a)
  · rfl

theorem Dev.laneOut_iadd (s : Dev) (n : Nat) {op : VectorOp} (hop : op.op = .iadd) (l : Nat) :
    s.laneOut n op l = { regs := [(regKey l op.gang (s.regsOn n op) op.d, wrap 32 ((s.churn n).reg (regKey l op.gang (s.regsOn n op) op.a) +
      (s.churn n).reg (regKey l op.gang (s.regsOn n op) op.b)))] } := by
  unfold laneOut
  rw [hop]
  rfl

theorem Dev.laneOut_store (s : Dev) (n : Nat) {op : VectorOp} (hop : op.op = .store) (l : Nat) :
    s.laneOut n op l = { store := some (laneAddr (s.churn n) op (s.regsOn n op) l, (s.churn n).reg (regKey l op.gang (s.regsOn n op) op.b)) } := by
  unfold laneOut
  rw [hop]

/-- The sums of a gang's lanes, in the registers of its Churn. -/
def Dev.laneSums (s : Dev) (n : Nat) (op : VectorOp) : Churn :=
  (s.churn n).setRegs (fun l => regKey l op.gang (s.regsOn n op) op.d)
    (fun l => wrap 32 ((s.churn n).reg (regKey l op.gang (s.regsOn n op) op.a) + (s.churn n).reg (regKey l op.gang (s.regsOn n op) op.b)))
    (s.activeLanes n op)

theorem Dev.runLanes_iadd (s : Dev) (n : Nat) {op : VectorOp} (hop : op.op = .iadd) :
    s.runLanes n op = (s.setChurn n (s.laneSums n op)).raiseExc n 0 := by
  have hlane : s.laneOut n op = fun l => { regs := [(regKey l op.gang (s.regsOn n op) op.d,
      wrap 32 ((s.churn n).reg (regKey l op.gang (s.regsOn n op) op.a) + (s.churn n).reg (regKey l op.gang (s.regsOn n op) op.b)))] } :=
    funext (s.laneOut_iadd n hop)
  have hregs : (s.activeLanes n op).foldl (fun (u : Churn) l => (s.laneOut n op l).regs.foldl (fun (u : Churn) e => u.setReg e.1 e.2) u)
      (s.churn n) = s.laneSums n op := by rw [hlane]; rfl
  have hstore (d : Dev) : (s.activeLanes n op).foldl (fun (d : Dev) l => match (s.laneOut n op l).store with
      | some (a, v) => d.leWrite (lsOf n + a) 4 v
      | none => d) d = d := foldl_fixed fun l _ => by rw [hlane]
  have hflags : (s.activeLanes n op).foldl (fun f l => f ||| (s.laneOut n op l).flags) 0 = 0 := foldl_fixed fun l _ => by rw [hlane]; exact Nat.or_zero _
  unfold runLanes
  simp only [List.foldl_map]
  rw [hregs, hflags]
  exact congrArg (fun d : Dev => d.raiseExc n 0) (hstore _)

/-- A single lane that stores and raises no flag. -/
theorem Dev.runLanes_one (s : Dev) (n : Nat) {op : VectorOp} {l a v : Nat} (hl : s.activeLanes n op = [l])
    (ho : s.laneOut n op l = { store := some (a, v) }) :
    s.runLanes n op = ((s.setChurn n (s.churn n)).leWrite (lsOf n + a) 4 v).raiseExc n 0 := by
  have houts : (s.activeLanes n op).map (fun l => s.laneOut n op l) = [{ store := some (a, v) }] := by rw [hl, List.map_cons, ho, List.map_nil]
  have hflags : [({ store := some (a, v) } : LaneOut)].foldl (fun f o => f ||| o.flags) 0 = 0 := Nat.or_zero 0
  have hrun : s.runLanes n op = Dev.raiseExc (((s.activeLanes n op).map fun l => s.laneOut n op l).foldl (fun (d : Dev) o => match o.store with
      | some (a, v) => d.leWrite (lsOf n + a) 4 v
      | none => d) (s.setChurn n (((s.activeLanes n op).map fun l => s.laneOut n op l).foldl
        (fun (u : Churn) o => o.regs.foldl (fun (u : Churn) e => u.setReg e.1 e.2) u) (s.churn n)))) n
      (((s.activeLanes n op).map fun l => s.laneOut n op l).foldl (fun f o => f ||| o.flags) 0) := rfl
  have hregs (u : Churn) : [({ store := some (a, v) } : LaneOut)].foldl
      (fun (u : Churn) o => o.regs.foldl (fun (u : Churn) e => u.setReg e.1 e.2) u) u = u := rfl
  have hstores (d : Dev) (b : Nat) : [({ store := some (a, v) } : LaneOut)].foldl (fun (d : Dev) o => match o.store with
      | some (a, v) => d.leWrite (b + a) 4 v
      | none => d) d = d.leWrite (b + a) 4 v := rfl
  rw [hrun, houts, hflags, hregs, hstores]

theorem Dev.runLanes_store (s : Dev) (n : Nat) {op : VectorOp} (hop : op.op = .store) {l : Nat} (hl : s.activeLanes n op = [l]) :
    s.runLanes n op = ((s.setChurn n (s.churn n)).leWrite (lsOf n + laneAddr (s.churn n) op (s.regsOn n op) l) 4
      ((s.churn n).reg (regKey l op.gang (s.regsOn n op) op.b))).raiseExc n 0 :=
  s.runLanes_one n hl (s.laneOut_store n hop l)

/-- A store that is no error lies in local store. -/
theorem Dev.vectorError_fits {s : Dev} {n : Nat} {op : VectorOp} (hop : op.op = .store) (herr : s.vectorError n op = 0) {l : Nat}
    (hl : l ∈ s.activeLanes n op) : laneAddr (s.churn n) op (s.regsOn n op) l + 4 ≤ lsSize := by
  by_contra hout
  have hmem : ((s.activeLanes n op).any fun l => decide (lsSize < laneAddr (s.churn n) op (s.regsOn n op) l + 4)) = true :=
    List.any_eq_true.2 ⟨l, hl, by simp; omega⟩
  unfold vectorError at herr
  rw [hop] at herr
  dsimp only at herr
  rw [hmem] at herr
  revert herr
  generalize (!inRange 8 256 (s.regsOn n op) || s.regsOn n op % 8 != 0 || decide (residentGangs (s.regsOn n op) ≤ op.gang) ||
    !vectorRegsOk op (s.regsOn n op)) = b
  cases b <;> decide

/-- A change of a Churn, memory and jobs by an instruction that raises no flag. -/
theorem completes_unflagged {c : Instr} {s : State} {f : Dev → Dev} {n : Fin 16} {u : Dev} {α : Type} {m : Dev → α}
    (hexec : exec c s = s.run c f) (hwf : c.wf = true) (heff : f s.toDev = u.raiseExc n 0) (hu : Dev.Within [] m s.toDev u) :
    Completes c s fun t => t.churns = u.churns ∧ t.mem = u.mem ∧ KeepsFields s t [] ∧ t.rest = { u.rest with jobs := t.jobs } := by
  have hraise := u.raiseExc_zero n [] (m := Dev.butJobs) fun _ _ => rfl
  generalize u.raiseExc n 0 = v at heff hraise
  have hall : Dev.Within [] (fun _ => ()) s.toDev v := ⟨hu.fields.trans hraise.fields, rfl⟩
  refine .of_effect hexec hwf heff ⟨?_, ?_, hall.kept, ?_⟩
  · rw [Dev.notify_churns]; exact (congrArg Dev.churns hraise.same :)
  · rw [Dev.notify_mem]; exact (congrArg Dev.mem hraise.same :)
  · rw [Dev.notify_rest, Dev.notify_jobs]; exact Dev.rest_of_butJobs hraise.same

theorem Dev.churn_of_churns {s t : Dev} (h : t.churns = s.churns) (n : Nat) : t.churn n = s.churn n := by simp only [churn, h]

/-- What the module holds beside memory and the Churns. -/
def Dev.butStore (s : Dev) : Dev := { s with mem := [], churns := [] }

theorem Dev.rest_of_butStore {s t : Dev} (h : t.rest.butStore = s.rest.butStore) : t.rest = { s.rest with mem := t.mem, churns := t.churns } :=
  (congrArg (fun d : Dev => { d with mem := t.mem, churns := t.churns }) h :)

theorem Dev.rest_of_unflagged {s t u : Dev} (hrest : t.rest = { u.rest with jobs := t.jobs }) (h : u.rest.butStore = s.rest.butStore)
    (hchurns : t.churns = u.churns) (hmem : t.mem = u.mem) : t.rest = { s.rest with mem := t.mem, churns := t.churns, jobs := t.jobs } := by
  rw [hrest, hchurns, hmem]
  exact (congrArg (fun d : Dev => { d with mem := u.mem, churns := u.churns, jobs := t.jobs }) h :)

/-- A word stored in local store by an instruction that raises no flag. -/
theorem completes_storedWord {c : Instr} {s : State} {f : Dev → Dev} {n : Fin 16} {a v : Nat} (hexec : exec c s = s.run c f) (hwf : c.wf = true)
    (heff : f s.toDev = ((s.setChurn n (s.churn n)).leWrite (lsOf n + a) 4 v).raiseExc n 0) (hfit : a + 4 ≤ lsSize) :
    Completes c s fun t =>
      t.leRead (lsOf n + a) 4 = wrap 32 v ∧ KeepsBytes s t (lsOf n + a) 4 ∧ t.churn n = s.churn n ∧
      KeepsFields s t [] ∧ t.rest = { s.rest with mem := t.mem, churns := t.churns, jobs := t.jobs } := by
  have hread : ((s.setChurn n (s.churn n)).leWrite (lsOf n + a) 4 v).leRead (lsOf n + a) 4 = wrap 32 v :=
    Dev.leRead_leWrite_same (len := 4) _ v fun i hi => by rw [Nat.add_assoc]; exact dpaOk_ls n.isLt (by omega)
  have hout (k : Nat) (hk : k < lsOf n + a ∨ lsOf n + a + 4 ≤ k) :
      ((s.setChurn n (s.churn n)).leWrite (lsOf n + a) 4 v).byteAt k = s.byteAt k :=
    (Dev.byteAt_leWrite_out _ _ _ _ hk).trans (Dev.byteAt_of_mem rfl k)
  have hset : Dev.Within [] Dev.butStore s.toDev ((s.setChurn n (s.churn n)).leWrite (lsOf n + a) 4 v) :=
    ((Dev.Within.refl _ _ s.toDev).step (u := s.setChurn n (s.churn n)) rfl rfl rfl rfl).leWrite _ _ _ fun _ _ => rfl
  have hchurn : ((s.setChurn n (s.churn n)).leWrite (lsOf n + a) 4 v).churn n = s.churn n :=
    (Dev.churn_of_churns (by simp only [Dev.leWrite, Dev.putBytes_churns]) n).trans (s.churn_setChurn n (s.churn n))
  generalize (s.setChurn n (s.churn n)).leWrite (lsOf n + a) 4 v = u at heff hread hout hset hchurn
  refine (completes_unflagged hexec hwf heff hset).imp fun t ⟨hchurns, hmem, hkept, hrest⟩ => ?_
  refine ⟨?_, fun k hk => ?_, (Dev.churn_of_churns hchurns n).trans hchurn, hkept, ?_⟩
  · rw [Dev.leRead_of_mem hmem]; exact hread
  · rw [Dev.byteAt_of_mem hmem]; exact hout k hk
  · exact Dev.rest_of_unflagged hrest hset.same hchurns hmem

section
variable {s : State} {n : Fin 16} {op : VectorOp} (hwf : (Instr.vectorInstruction n op).wf = true) (hready : s.gangReady n op = true)
  (herr : s.vectorError n op = 0)
include hwf hready herr

theorem completes_iadd (l key : Nat) (hop : op.op = .iadd) :
    Completes (.vectorInstruction n op) s fun t =>
      (l ∈ s.activeLanes n op → (t.churn n).reg (regKey l op.gang (s.regsOn n op) op.d) =
        wrap 32 ((s.churn n).reg (regKey l op.gang (s.regsOn n op) op.a) + (s.churn n).reg (regKey l op.gang (s.regsOn n op) op.b))) ∧
      ((∀ k ∈ s.activeLanes n op, key ≠ regKey k op.gang (s.regsOn n op) op.d) → (t.churn n).reg key = (s.churn n).reg key) ∧
      KeepsFields s t [] ∧ t.rest = { s.rest with churns := t.churns, jobs := t.jobs } := by
  have heff : s.toDev.vectorInstruction n op = (s.setChurn n (s.laneSums n op)).raiseExc n 0 :=
    (Dev.vectorInstruction_runs hready herr fun a => by rw [hop]; nofun).trans (s.runLanes_iadd n hop)
  have hset : Dev.Within [] (fun _ => ()) s.toDev (s.setChurn n (s.laneSums n op)) := ⟨.of_regs rfl rfl rfl, rfl⟩
  refine (completes_unflagged (exec_vectorInstruction n op s) hwf heff hset).imp fun t ⟨hchurns, _, hkept, hrest⟩ => ?_
  have hchurn : t.churn n = s.laneSums n op := (Dev.churn_of_churns hchurns n).trans (s.churn_setChurn ..)
  refine ⟨fun hl => ?_, fun hkey => ?_, hkept, ?_⟩
  · rw [hchurn]
    refine (Churn.reg_setRegs_mem _ _ (fun x y h => ?_) _ _ hl).trans ?_
    · simp only [regKey] at h; omega
    · exact wrap_of_lt (Nat.mod_lt _ (by decide))
  · rw [hchurn]; exact Churn.reg_setRegs_out _ _ _ _ hkey
  · rw [hrest, hchurns]; rfl

theorem completes_store (l : Nat) (hop : op.op = .store) (hl : s.activeLanes n op = [l]) :
    Completes (.vectorInstruction n op) s fun t =>
      t.leRead (lsOf n + laneAddr (s.churn n) op (s.regsOn n op) l) 4 = wrap 32 ((s.churn n).reg (regKey l op.gang (s.regsOn n op) op.b)) ∧
      KeepsBytes s t (lsOf n + laneAddr (s.churn n) op (s.regsOn n op) l) 4 ∧ t.churn n = s.churn n ∧
      KeepsFields s t [] ∧ t.rest = { s.rest with mem := t.mem, churns := t.churns, jobs := t.jobs } :=
  completes_storedWord (exec_vectorInstruction n op s) hwf
    ((Dev.vectorInstruction_runs hready herr fun a => by rw [hop]; nofun).trans (s.runLanes_store n hop hl))
    (Dev.vectorError_fits hop herr (by rw [hl]; exact List.mem_singleton.2 rfl))

theorem completes_badAugment {a : AugOp} (hop : op.op = .augment a) (hcode : s.augError n a = 7) (hfree : s.resident n = none) :
    Completes (.vectorInstruction n op) s fun t =>
      t.rd .CHN_ERR_CODE n = 7 ∧ KeepsFields s t [(.CHN_ERR_CODE, n), (.CHN_ERR_COUNT, n)] ∧ t.rest = s.rest := by
  have heff : s.toDev.vectorInstruction n op = s.instrError n 7 := by
    have haug : s.augment n a = s.instrError n 7 := (if_pos (by simp [hcode])).trans (by rw [hcode])
    rw [← haug, Dev.vectorInstruction, if_neg (by simp [hready])]
    dsimp only
    rw [if_neg (by simp [herr]), hop]
  exact completes_instrError (exec_vectorInstruction n op s) hwf heff (by decide) hfree

end

/-! ### Barriers -/

theorem completes_waiting {s : State} (n : Fin 16) {op : VectorOp} (h : (s.churn n).barrier.contains op.gang = true) :
    Completes (.vectorInstruction n op) s fun t => KeepsFields s t [] ∧ t.rest = s.rest := by
  have hready : s.gangReady n op = false := by simp only [Dev.gangReady, h]; rfl
  exact completes_idle (exec_vectorInstruction n op s) (if_pos (by simp [hready]))

/-- The gangs that wait once one has arrived. -/
def arrived (l : List Nat) (gang : Nat) : List Nat := if l.contains gang then l else gang :: l

theorem mem_arrived {l : List Nat} {gang k : Nat} : k ∈ arrived l gang ↔ k = gang ∨ k ∈ l := by
  unfold arrived
  split
  · rename_i h
    exact ⟨.inr, fun hk => hk.elim (fun e => e ▸ List.contains_iff_mem.1 h) id⟩
  · exact List.mem_cons

/-- The gangs that wait once a whole group has left. -/
def released (l group : List Nat) : List Nat := if group.all fun k => l.contains k then l.filter fun k => !group.contains k else l

theorem Dev.groupBarrier_eq (s : Dev) (n gang thread : Nat) :
    s.groupBarrier n gang thread =
      s.setChurn n { s.churn n with barrier := released (arrived (s.churn n).barrier gang) (s.groupOn n gang thread) } := rfl

theorem completes_groupBarrier {s : State} (n : Fin 16) {g : GangAt} (hg : g.gang < 256) :
    Completes (.groupBarrier n g) s fun t =>
      (if (s.groupOn n g.gang g.thread).all (fun k => k == g.gang || (s.churn n).barrier.contains k) then
          (t.churn n).barrier.all (fun k => !(s.groupOn n g.gang g.thread).contains k) = true
        else (t.churn n).barrier.contains g.gang = true) ∧
      (∀ k ∈ (s.churn n).barrier, k ∉ s.groupOn n g.gang g.thread → k ∈ (t.churn n).barrier) ∧
      KeepsFields s t [] ∧ t.rest = { s.rest with churns := t.churns } := by
  have heff := s.groupBarrier_eq n g.gang g.thread
  generalize s.groupOn n g.gang g.thread = group at heff
  have hall : (group.all fun k => (arrived (s.churn n).barrier g.gang).contains k) =
      group.all fun k => k == g.gang || (s.churn n).barrier.contains k := by
    congr 1; funext k
    rw [Bool.eq_iff_iff]; simp [mem_arrived]
  have hset : Dev.Within [] (fun _ => ()) s.toDev
      (s.setChurn n { s.churn n with barrier := released (arrived (s.churn n).barrier g.gang) group }) := ⟨.of_regs rfl rfl rfl, rfl⟩
  have hbarrier : ((s.setChurn n { s.churn n with barrier := released (arrived (s.churn n).barrier g.gang) group }).notify s.toDev).churn n =
      { s.churn n with barrier := released (arrived (s.churn n).barrier g.gang) group } := (Dev.notify_churn ..).trans (s.churn_setChurn ..)
  refine .of_effect (exec_groupBarrier n g s) (decide_eq_true hg) heff ⟨?_, fun k hk hout => ?_, hset.kept, ?_⟩
  · rw [hbarrier]
    dsimp only
    rw [released, hall]
    split
    · simp
    · exact List.contains_iff_mem.2 (mem_arrived.2 (.inl rfl))
  · rw [hbarrier]
    dsimp only
    have hk' : k ∈ arrived (s.churn n).barrier g.gang := mem_arrived.2 (.inr hk)
    unfold released
    split
    · exact List.mem_filter.2 ⟨hk', by simpa using hout⟩
    · exact hk'
  · rw [Dev.notify_rest, Dev.notify_churns]; rfl

/-- Settles O27: a gang's lanes have registers of their own, so each keeps its own sum; and a group leaves its barrier together. -/
theorem vectorLanesAndBarriers : Obligations.VectorLanesAndBarriers := by
  intro s n op l key g a
  exact ⟨fun hwf hready herr => ⟨completes_iadd hwf hready herr l key, completes_store hwf hready herr l, completes_badAugment hwf hready herr⟩,
    completes_waiting n, completes_groupBarrier n⟩

end Sys2Proof.Machine

end

section
/-! Convolution and pooling of one output (R141, R148, R117 to R119). -/

namespace Sys2Proof.Machine

open Sys2Proof

theorem exec_convolution (n : Fin 16) (op : WindowOp) (s : State) :
    exec (.convolution n op) s = s.run (.convolution n op) fun d => d.convolution n op := rfl

theorem exec_pooling (n : Fin 16) (op : WindowOp) (s : State) : exec (.pooling n op) s = s.run (.pooling n op) fun d => d.pooling n op := rfl

/-! ### Error codes -/

/-- Where every code is one, no error means that no condition holds. -/
theorem leastCode_none {l : List (Bool × Nat)} (hl : ∀ e ∈ l, e.1 = true → e.2 ≠ 0) (h : leastCode l = 0) : ∀ e ∈ l, e.1 = false := by
  have hpos (l : List Nat) (hl : ∀ c ∈ l, c ≠ 0) (m : Nat) (hm : m ≠ 0) : l.foldl (fun m c => if m = 0 ∨ c < m then c else m) m ≠ 0 :=
    List.foldlRecOn (motive := fun m => m ≠ 0) l _ hm fun m hm c hc => by
      split
      · exact hl c hc
      · exact hm
  have hcodes : ∀ c ∈ (l.filter fun e => e.1).map fun e => e.2, c ≠ 0 := by
    intro c hc
    obtain ⟨e, he, rfl⟩ := List.mem_map.1 hc
    obtain ⟨hmem, he⟩ := List.mem_filter.1 he
    exact hl e hmem he
  unfold leastCode at h
  have hnil : (l.filter fun e => e.1) = [] := by
    cases hf : l.filter fun e => e.1 with
    | nil => rfl
    | cons e t =>
      rw [hf, List.map_cons, List.foldl_cons, if_pos (.inl rfl)] at h
      rw [hf, List.map_cons] at hcodes
      exact absurd h (hpos _ (fun c hc => hcodes c (List.mem_cons_of_mem _ hc)) _ (hcodes _ List.mem_cons_self))
  intro e he
  have := List.filter_eq_nil_iff.1 hnil e he
  simpa using this

/-- A window without error goes to a map without error. -/
theorem opCode_dst {op : WindowOp} (h : opCode op = 0) : mapError op.dst = 0 := by
  unfold opCode windowCode at h
  have := leastCode_none (by intro e he; obtain ⟨c, -, rfl⟩ := List.mem_map.1 he; simp) h (mapError op.dst != 0, mapError op.dst) (by simp)
  simpa using this

/-- An MX map without error has whole groups of channels. -/
theorem mapError_groups {m : MapDesc} (h : mapError m = 0) (hmx : fmtMx m.fmt = true) : m.c % 32 = 0 := by
  unfold mapError at h
  have := leastCode_none (by simp) h (fmtMx m.fmt && m.c % 32 != 0, 7) (by simp)
  simpa [hmx] using this

/-! ### The place of an output -/

theorem fmtBits_width (fmt : Nat) : ElemWidth (fmtBits fmt) := by
  by_cases h : fmt < 14
  · have hall : ∀ f < 14, fmtBits f = 4 ∨ fmtBits f = 8 * 1 ∨ fmtBits f = 8 * 2 ∨ fmtBits f = 8 * 4 ∨ fmtBits f = 8 * 8 := by decide
    rcases hall fmt h with h | h | h | h | h
    · exact .inl h
    · exact .inr ⟨1, by decide, h⟩
    · exact .inr ⟨2, by decide, h⟩
    · exact .inr ⟨4, by decide, h⟩
    · exact .inr ⟨8, by decide, h⟩
  · have hbits : fmtBits fmt = 8 * 1 := by
      unfold fmtBits
      rw [List.getD_eq_default _ _ (by simp; omega)]
    exact .inr ⟨1, by decide, hbits⟩

theorem elemAt_eq {w : Nat} (hw : ElemWidth w) (x : Nat) : elemAt w x = x * w / 8 := by
  unfold elemAt
  rcases hw with rfl | ⟨m, hm, rfl⟩
  · rw [if_pos rfl]; omega
  · rw [if_neg (by omega), show 8 * m / 8 = m by omega, show x * (8 * m) = 8 * (x * m) by ring]; omega

theorem elemLen_eq {w : Nat} (hw : ElemWidth w) : elemLen w = max 1 (w / 8) := by
  unfold elemLen
  rcases hw with rfl | ⟨m, hm, rfl⟩
  · rfl
  · rw [if_neg (by omega)]; omega

/-- The rows that a map stores. -/
def mapRows (m : MapDesc) : Nat := if m.ring then m.ringRows else m.h

theorem storedRow_le {m : MapDesc} {y : Nat} (hy : y < m.h) : storedRow m y ≤ mapRows m - 1 := by
  unfold storedRow mapRows
  split
  · have := Nat.mod_lt y (show 0 < max 1 m.ringRows by omega); omega
  · omega

theorem mapFits_bounds {m : MapDesc} (h : mapFits m = true) :
    m.base + (m.c - 1) * m.planePitch + (mapRows m - 1) * m.rowPitch + elemBytes (fmtBits m.fmt) m.w ≤ lsSize ∧
      (fmtMx m.fmt = true → m.expBase + (m.c / 32 - 1) * m.sPlanePitch + mapRows m * ((m.w + 127) / 128 * 128) ≤ lsSize) := by
  unfold mapFits at h
  obtain ⟨helem, hscale⟩ := Bool.and_eq_true_iff.1 h
  refine ⟨of_decide_eq_true helem, fun hmx => ?_⟩
  rw [hmx] at hscale
  exact of_decide_eq_true hscale

/-- An element of a map that fits lies in local store. -/
theorem mapFits_elem {m : MapDesc} (h : mapFits m = true) {c y x : Nat} (hc : c < m.c) (hy : y < m.h) (hx : x < m.w) :
    rowBase m c y + elemAt (fmtBits m.fmt) x + elemLen (fmtBits m.fmt) ≤ lsSize := by
  have hplane : c * m.planePitch ≤ (m.c - 1) * m.planePitch := Nat.mul_le_mul_right _ (by omega)
  have hrow : storedRow m y * m.rowPitch ≤ (mapRows m - 1) * m.rowPitch := Nat.mul_le_mul_right _ (storedRow_le hy)
  have := (mapFits_bounds h).1
  have := elem_within (fmtBits_width m.fmt) hx
  unfold rowBase
  omega

/-- The offset of the scale of an element's group. -/
def mxScalePlace (m : MapDesc) (c y x : Nat) : Nat := m.expBase + c / 32 * m.sPlanePitch + storedRow m y * ((m.w + 127) / 128 * 128) + x

theorem mapFits_scale {m : MapDesc} (h : mapFits m = true) (hmx : fmtMx m.fmt = true) (herr : mapError m = 0) {c y x : Nat} (hc : c < m.c)
    (hy : y < m.h) (hx : x < m.w) : mxScalePlace m c y x < lsSize := by
  have hgroups := mapError_groups herr hmx
  have hplane : c / 32 * m.sPlanePitch ≤ (m.c / 32 - 1) * m.sPlanePitch := Nat.mul_le_mul_right _ (by omega)
  have hrows : 1 ≤ mapRows m := by
    unfold mapError at herr
    have := leastCode_none (by simp) herr _ (by simp; exact .inr (.inr rfl))
    simp only [Bool.or_eq_false_iff, Bool.and_eq_false_iff] at this
    unfold mapRows
    cases hr : m.ring <;> simp_all <;> omega
  have hrow : (storedRow m y + 1) * ((m.w + 127) / 128 * 128) ≤ mapRows m * ((m.w + 127) / 128 * 128) :=
    Nat.mul_le_mul_right _ (by have := storedRow_le hy; omega)
  have := (mapFits_bounds h).2 hmx
  rw [Nat.succ_mul] at hrow
  unfold mxScalePlace
  omega

/-- The place in memory of an element of a map of a Churn, and of the scale of its group. -/
def mapPlace (n : Nat) (m : MapDesc) (c y x : Nat) : Nat := lsOf n + rowBase m c y + x * fmtBits m.fmt / 8
def scaleByte (n : Nat) (m : MapDesc) (c y x : Nat) : Nat :=
  lsOf n + m.expBase + c / 32 * m.sPlanePitch + storedRow m y * ((m.w + 127) / 128 * 128) + x

/-- The format of the elements of an MX map. -/
def mxFormat (m : MapDesc) : OpFmt := (mapFmt m.fmt).getD .mxInt8

/-- The code of the one element of a block. -/
def mxCode (op : WindowOp) (rs : Nat) (v : FVal) : Nat × Nat :=
  mxElem (mxFormat op.dst) op.mode rs (scaled v (127 - (mxScale (mxFormat op.dst) [v] : Int)))

/-- The value of one output as its map stores it, an MX map's scale with it. -/
def Dev.storeOutput (u : Dev) (n : Nat) (op : WindowOp) (rs : Nat) (v : FVal) : Dev :=
  if fmtMx op.dst.fmt then
    (u.putByte (scaleByte n op.dst op.c0 op.y0 op.x0) (BitVec.ofNat 8 (mxScale (mxFormat op.dst) [v]))).putElem n (rowBase op.dst op.c0 op.y0)
      (fmtBits op.dst.fmt) op.x0 (mxCode op rs v).1
  else u.putElem n (rowBase op.dst op.c0 op.y0) (fmtBits op.dst.fmt) op.x0 (toMapFmt op.dst.fmt op.signedD op.mode rs v).1

/-- What one stored output leaves in memory (the statement's own three clauses). -/
def Dev.Stores (s t : Dev) (n : Nat) (op : WindowOp) (rs : Nat) (v : FVal) : Prop :=
  let place := mapPlace n op.dst op.c0 op.y0 op.x0
  let scale := scaleByte n op.dst op.c0 op.y0 op.x0
  let w := fmtBits op.dst.fmt
  (fmtMx op.dst.fmt = false → t.mapElem n op.dst op.c0 op.y0 op.x0 = wrap w (toMapFmt op.dst.fmt op.signedD op.mode rs v).1) ∧
    (fmtMx op.dst.fmt = true →
      t.mapElem n op.dst op.c0 op.y0 op.x0 = wrap w (mxCode op rs v).1 ∧
      (scale < place ∨ place + max 1 (w / 8) ≤ scale → t.byteAt scale = BitVec.ofNat 8 (mxScale (mxFormat op.dst) [v]))) ∧
    ∀ k, k < place ∨ place + max 1 (w / 8) ≤ k → (fmtMx op.dst.fmt = false ∨ k ≠ scale) → t.byteAt k = s.byteAt k

/-- The range of an instruction is one output, which its map has. -/
structure OneOutput (op : WindowOp) : Prop where
  chan : op.c1 = op.c0 + 1
  row : op.y1 = op.y0 + 1
  col : op.x1 = op.x0 + 1
  chanLt : op.c0 < op.dst.c
  rowLt : op.y0 < op.dst.h
  colLt : op.x0 < op.dst.w

theorem Dev.byteAt_putElem_beside (u : Dev) (n : Nat) (m : MapDesc) (c y x v : Nat) {k : Nat}
    (h : k < mapPlace n m c y x ∨ mapPlace n m c y x + max 1 (fmtBits m.fmt / 8) ≤ k) :
    (u.putElem n (rowBase m c y) (fmtBits m.fmt) x v).byteAt k = u.byteAt k := by
  rw [mapPlace, ← elemAt_eq (fmtBits_width m.fmt), ← elemLen_eq (fmtBits_width m.fmt)] at h
  exact u.byteAt_putElem_out n _ _ x v h

/-- One output reads as it was stored, and the bytes beside it stay. -/
theorem Dev.stores_storeOutput (u : Dev) (n : Fin 16) {op : WindowOp} (rs : Nat) (v : FVal) (hone : OneOutput op) (hfits : mapFits op.dst = true)
    (herr : mapError op.dst = 0) : u.Stores (u.storeOutput n op rs v) n op rs v := by
  have hfit := mapFits_elem hfits hone.chanLt hone.rowLt hone.colLt
  have hread (d : Dev) (c : Nat) := d.lsElem_putElem_same c n.isLt (fmtBits_width op.dst.fmt) hfit
  have hbeside (d : Dev) (c : Nat) {k : Nat} := d.byteAt_putElem_beside n op.dst op.c0 op.y0 op.x0 c (k := k)
  unfold storeOutput
  cases hmx : fmtMx op.dst.fmt
  case false =>
    rw [if_neg (by simp)]
    exact ⟨fun _ => hread u _, fun h => absurd (hmx.symm.trans h) (by simp), fun k hk _ => hbeside u _ hk⟩
  case true =>
    rw [if_pos rfl]
    have hscale : dpaOk (scaleByte n op.dst op.c0 op.y0 op.x0) = true := by
      have := dpaOk_ls n.isLt (mapFits_scale hfits hmx herr hone.chanLt hone.rowLt hone.colLt)
      rwa [mxScalePlace, ← Nat.add_assoc, ← Nat.add_assoc, ← Nat.add_assoc] at this
    refine ⟨fun h => absurd (hmx.symm.trans h) (by simp), fun _ => ⟨hread _ _, fun h => ?_⟩, fun k hk hne => ?_⟩
    · exact (hbeside _ _ h).trans (u.byteAt_putByte_same _ _ hscale)
    · exact (hbeside _ _ hk).trans (u.byteAt_putByte_ne _ (hne.resolve_left (by rw [hmx]; simp)))

theorem Dev.storeOutput_within (u : Dev) (n : Nat) (op : WindowOp) (rs : Nat) (v : FVal) : Within [] butMem u (u.storeOutput n op rs v) := by
  have hmem : ∀ (d : Dev) x, butMem { d with mem := x } = butMem d := fun _ _ => rfl
  unfold storeOutput
  split
  · exact ((Within.refl [] butMem u).putByte _ _ hmem).putElem _ _ _ _ _ hmem
  · exact (Within.refl [] butMem u).putElem _ _ _ _ _ hmem

theorem outputsOf_one {r : OutRange} (hc : r.c1 = r.c0 + 1) (hy : r.y1 = r.y0 + 1) (hx : r.x1 = r.x0 + 1) : outputsOf r = [(r.c0, r.y0, r.x0)] := by
  unfold outputsOf
  rw [hc, hy, hx]
  simp [rangeFrom]

/-- A range of one output stores that output, and then raises flags. -/
theorem Dev.putOutputs_one (u s : Dev) (n : Nat) {op : WindowOp} (val : Nat → Nat → Nat → FVal) (fl : Nat) (hone : OneOutput op) :
    ∃ mask, u.putOutputs n (s.sinkOf n op) (windowRange op) val fl =
      (u.storeOutput n op ((s.sinkOf n op).rs op.c0 op.y0 op.x0) (val op.c0 op.y0 op.x0)).raiseExc n mask := by
  have hall := outputsOf_one (r := windowRange op) hone.chan hone.row hone.col
  have hplanes := outputsOf_one (r := { windowRange op with c0 := 0, c1 := 1 }) rfl hone.row hone.col
  have hblocks : (op.c1 + 31) / 32 - op.c0 / 32 = 1 := by rw [hone.chan]; omega
  have hfirst : max op.c0 (32 * (op.c0 / 32)) = op.c0 := by omega
  have hlast : min op.c1 (32 * (op.c0 / 32) + 32) - op.c0 = 1 := by rw [hone.chan]; omega
  unfold putOutputs storeOutput
  cases hmx : fmtMx op.dst.fmt
  case false =>
    rw [if_neg (by simpa [sinkOf] using hmx), if_neg (by simp), hall]
    exact ⟨fl ||| ownFlags (0 ||| (toMapFmt op.dst.fmt op.signedD op.mode ((s.sinkOf n op).rs op.c0 op.y0 op.x0) (val op.c0 op.y0 op.x0)).2), rfl⟩
  case true =>
    rw [if_pos (by simpa [sinkOf] using hmx), if_pos rfl, hplanes]
    simp only [windowRange, hblocks, rangeFrom, List.foldl_cons, List.foldl_nil, hfirst]
    simp only [putMxBlock, hlast, rangeFrom, List.map_cons, List.map_nil, List.foldl_cons, List.foldl_nil]
    exact ⟨_, rfl⟩

theorem Dev.Stores.of_mem {s t s' t' : Dev} {n : Nat} {op : WindowOp} {rs : Nat} {v : FVal} (h : s.Stores t n op rs v) (hs : s.mem = s'.mem)
    (ht : t'.mem = t.mem) : s'.Stores t' n op rs v := by
  obtain ⟨hplain, hmx, hout⟩ := h
  have helem : t'.mapElem n op.dst op.c0 op.y0 op.x0 = t.mapElem n op.dst op.c0 op.y0 op.x0 := lsElem_of_mem ht ..
  refine ⟨fun h => helem.trans (hplain h), fun h => ?_, fun k hk hne => ?_⟩
  · obtain ⟨hcode, hscale⟩ := hmx h
    exact ⟨helem.trans hcode, fun hk => (byteAt_of_mem ht _).trans (hscale hk)⟩
  · exact (byteAt_of_mem ht k).trans ((hout k hk hne).trans (byteAt_of_mem hs k))

/-- An instruction that leaves `u`, and then raises the flags of its Churn. -/
theorem completes_flagged {c : Instr} {s : State} {f : Dev → Dev} {n : Fin 16} {u : Dev} {mask : Nat} {α : Type} {m : Dev → α}
    (hexec : exec c s = s.run c f) (hwf : c.wf = true) (heff : f s.toDev = u.raiseExc n mask) (hu : Dev.Within [] m s.toDev u) :
    Completes c s fun t => t.churns = u.churns ∧ t.mem = u.mem ∧ KeepsFields s t (excAt n) ∧ t.rest = { u.rest with jobs := t.jobs } := by
  have hraise := (Dev.Within.refl (excAt n) Dev.butJobs u).raiseExc (n := n) (by omega) mask (fun _ h => h) fun _ _ => rfl
  generalize u.raiseExc n mask = v at heff hraise
  have hall : Dev.Within (excAt n) (fun _ => ()) s.toDev v := ⟨(hu.fields.mono (by simp)).trans hraise.fields, rfl⟩
  refine .of_effect hexec hwf heff ⟨?_, ?_, hall.kept, ?_⟩
  · rw [Dev.notify_churns]; exact (congrArg Dev.churns hraise.same :)
  · rw [Dev.notify_mem]; exact (congrArg Dev.mem hraise.same :)
  · rw [Dev.notify_rest, Dev.notify_jobs]; exact Dev.rest_of_butJobs hraise.same

section
variable {s : State} (n : Fin 16) {op : WindowOp}

/-! ### Convolution -/

theorem convError_fits (h : convError op = 0) : mapFits op.dst = true ∧ mapError op.dst = 0 := by
  unfold convError at h
  have hall := leastCode_none (by simp) h
  have hfits := hall (!mapFits op.src || !mapFits op.dst || !mapFits op.wmap, 3) (by simp)
  have hcode := hall (_, 4) (List.mem_cons_of_mem _ (List.mem_cons_of_mem _ (List.mem_cons_of_mem _ List.mem_cons_self)))
  simp only [Bool.or_eq_false_iff, Bool.not_eq_false', bne_eq_false_iff_eq] at hfits hcode
  obtain ⟨⟨-, hdst⟩, -⟩ := hfits
  obtain ⟨⟨⟨⟨⟨hop, -⟩, -⟩, -⟩, -⟩, -⟩ := hcode
  exact ⟨hdst, opCode_dst hop⟩

theorem poolError_fits (h : poolError op = 0) : mapFits op.dst = true ∧ mapError op.dst = 0 := by
  unfold poolError at h
  have hall := leastCode_none (by simp) h
  have hfits := hall (!mapFits op.src || !mapFits op.dst, 3) (by simp)
  have hcode := hall (_, 4) (List.mem_cons_of_mem _ List.mem_cons_self)
  simp only [Bool.or_eq_false_iff, Bool.not_eq_false', bne_eq_false_iff_eq] at hfits hcode
  obtain ⟨-, hdst⟩ := hfits
  obtain ⟨⟨⟨hop, -⟩, -⟩, -⟩ := hcode
  exact ⟨hdst, opCode_dst hop⟩

/-- The array after a convolution of one output. -/
def Dev.oneTile (d : Dev) (n : Nat) (op : WindowOp) (f : OpFmt × OpFmt × PairKind) : Churn :=
  (d.churn n).takeTiles op f [((op.c0, op.y0, op.x0), d.convCell n op f op.c0 op.y0 op.x0)]

theorem Churn.takeTiles_one (u : Churn) (f : OpFmt × OpFmt × PairKind) (cell : Cell) :
    (u.takeTiles op f [((op.c0, op.y0, op.x0), cell)]).reduced = windowK op ∧
      (tabFind? (u.takeTiles op f [((op.c0, op.y0, op.x0), cell)]).latch 0).getD 0 = wrap 32 (windowReadout op f cell).1 := by
  have hcell : (windowRange op).cell op.c0 op.y0 op.x0 = 0 := by
    unfold OutRange.cell windowRange
    simp
  refine ⟨rfl, ?_⟩
  simp only [takeTiles, List.foldl_cons, List.foldl_nil, hcell]
  exact tabGet_set_same (fun _ => 0) u.latch 0 _

theorem Dev.convolution_one (d : Dev) {f : OpFmt × OpFmt × PairKind} (hone : OneOutput op) (herr : convError op = 0)
    (hpair : windowPair op = some f) :
    ∃ mask, d.convolution n op =
      ((d.setChurn n (d.oneTile n op f)).storeOutput n op ((d.sinkOf n op).rs op.c0 op.y0 op.x0) (d.convVal n op f op.c0 op.y0 op.x0)).raiseExc n
        mask := by
  have hall := outputsOf_one (r := windowRange op) hone.chan hone.row hone.col
  have hput := fun fl => (d.setChurn n (d.oneTile n op f)).putOutputs_one d n (d.convVal n op f) fl hone
  unfold convolution
  simp only [herr, hpair, hall, Nat.zero_ne_one, if_false, ne_eq, not_true_eq_false]
  exact hput _

theorem completes_convolution {f : OpFmt × OpFmt × PairKind} (hwf : (Instr.convolution n op).wf = true) (hone : OneOutput op)
    (herr : convError op = 0) (hpair : windowPair op = some f) :
    Completes (.convolution n op) s fun t =>
      s.Stores t.toDev n op ((s.sinkOf n op).rs op.c0 op.y0 op.x0) (s.convVal n op f op.c0 op.y0 op.x0) ∧ (t.churn n).reduced = windowK op ∧
      (tabFind? (t.churn n).latch 0).getD 0 = wrap 32 (windowReadout op f (s.convCell n op f op.c0 op.y0 op.x0)).1 ∧
      KeepsFields s t (excAt n) ∧ t.rest = { s.rest with mem := t.mem, jobs := t.jobs, churns := t.churns } := by
  obtain ⟨mask, heff⟩ := s.toDev.convolution_one n hone herr hpair
  obtain ⟨hfits, hmap⟩ := convError_fits herr
  have htile := (s.churn n).takeTiles_one (op := op) f (s.convCell n op f op.c0 op.y0 op.x0)
  have hset : Dev.Within [] Dev.butStore s.toDev (s.setChurn n (s.oneTile n op f)) := (Dev.Within.refl _ _ s.toDev).step rfl rfl rfl rfl
  have hchurn := s.churn_setChurn n (s.oneTile n op f)
  have hmem : (s.setChurn n (s.oneTile n op f)).mem = s.mem := rfl
  generalize s.setChurn n (s.oneTile n op f) = u at heff hset hchurn hmem
  generalize s.convVal n op f op.c0 op.y0 op.x0 = v at heff
  generalize (s.sinkOf n op).rs op.c0 op.y0 op.x0 = rs at heff
  have hstores := u.stores_storeOutput n rs v hone hfits hmap
  have hput := u.storeOutput_within n op rs v
  generalize u.storeOutput n op rs v = w at heff hstores hput
  have hchurns : w.churns = u.churns := (congrArg Dev.churns hput.same :)
  refine (completes_flagged (exec_convolution n op s) hwf heff (m := Dev.butStore) (hset.trans ?_)).imp fun t ⟨htchurns, htmem, hkept, hrest⟩ => ?_
  · exact ⟨hput.fields, (congrArg Dev.butStore hput.same :)⟩
  have htchurn : t.churn n = s.oneTile n op f := (Dev.churn_of_churns (htchurns.trans hchurns) n).trans hchurn
  refine ⟨hstores.of_mem hmem htmem, ?_, ?_, hkept, ?_⟩
  · rw [htchurn]; exact htile.1
  · rw [htchurn]; exact htile.2
  · exact Dev.rest_of_unflagged hrest ((congrArg Dev.butStore hput.same :).trans hset.same) htchurns htmem

/-! ### Pooling -/

theorem Dev.pooling_one (d : Dev) (hone : OneOutput op) (herr : poolError op = 0) :
    ∃ mask, d.pooling n op =
      (d.storeOutput n op ((d.sinkOf n op).rs op.c0 op.y0 op.x0) (d.poolOut n op op.c0 op.y0 op.x0).1).raiseExc n mask := by
  have hput := fun fl => d.putOutputs_one d n (fun o y x => (d.poolOut n op o y x).1) fl hone
  unfold pooling
  simp only [herr, ne_eq, not_true_eq_false, if_false]
  exact hput _

theorem completes_pooling (hwf : (Instr.pooling n op).wf = true) (hone : OneOutput op) (herr : poolError op = 0) :
    Completes (.pooling n op) s fun t =>
      s.Stores t.toDev n op ((s.sinkOf n op).rs op.c0 op.y0 op.x0) (s.poolOut n op op.c0 op.y0 op.x0).1 ∧
      KeepsFields s t (excAt n) ∧ t.rest = { s.rest with mem := t.mem, jobs := t.jobs } := by
  obtain ⟨mask, heff⟩ := s.toDev.pooling_one n hone herr
  obtain ⟨hfits, hmap⟩ := poolError_fits herr
  refine (completes_stored (exec_pooling n op s) hwf heff (s.toDev.storeOutput_within ..)).imp fun t ⟨hmem, hkept, hrest⟩ => ?_
  exact ⟨(s.toDev.stores_storeOutput n _ _ hone hfits hmap).of_mem rfl hmem, hkept, hrest⟩

end

/-- Settles O30: the output's element is stored after its block's scale, and both lie in local store since the map fits it. -/
theorem windowInstructionsWriteOutputs : Obligations.WindowInstructionsWriteOutputs := by
  intro s n op f hsrc hdst hwmap hc hy hx hcl hyl hxl
  have hone : OneOutput op := ⟨hc, hy, hx, hcl, hyl, hxl⟩
  have hconv : (Instr.convolution n op).wf = true := by simp [Instr.wf, hsrc, hdst, hwmap]
  have hpool : (Instr.pooling n op).wf = true := by simp [Instr.wf, hsrc, hdst]
  refine ⟨completes_convolution n hconv hone, completes_pooling n hpool hone, fun hfree => ⟨fun herr => ?_, fun herr => ?_⟩⟩
  · have heff : s.toDev.convolution n op = s.instrError n 4 := by
      unfold Dev.convolution
      rw [herr]
      rfl
    exact completes_instrError (exec_convolution n op s) hconv heff (by decide) hfree
  · have heff : s.toDev.pooling n op = s.instrError n 4 := by
      unfold Dev.pooling
      rw [herr]
      rfl
    exact completes_instrError (exec_pooling n op s) hpool heff (by decide) hfree

end Sys2Proof.Machine

end

section
/-! Ready, Doze, Standby and Off (R46, R72, R232, R393 to R399). -/

namespace Sys2Proof.Machine

open Sys2Proof

theorem exec_readyEntry (s : State) : exec .readyEntry s = s.run .readyEntry fun d => d.readyEntry := rfl

theorem exec_dozeEntry (s : State) : exec .dozeEntry s = s.run .dozeEntry fun d => d.dozeEntry := rfl

theorem exec_demand (s : State) : exec .demand s = s.run .demand fun d => d.demand := rfl

theorem exec_enterStandby (port : Port) (s : State) :
    exec (.enterStandby port) s = s.run (.enterStandby port) fun d => d.served port 0x9000 1 fun d => d.enterStandby port := rfl

theorem exec_enterOff (port : Port) (s : State) :
    exec (.enterOff port) s = s.run (.enterOff port) fun d => d.served port 0x9000 1 fun d => d.enterOff port := rfl

theorem exec_leaveStandby (port : Port) (s : State) :
    exec (.leaveStandby port) s = s.run (.leaveStandby port) fun d => d.served port 0x9000 1 fun d => d.leaveStandby port := rfl

theorem exec_blockReset (source : Source) (b : Nat) (s : State) :
    exec (.blockReset source b) s = s.run (.blockReset source b) fun d => d.blockReset source b := rfl

/-! ### The power state -/

theorem Dev.setPower_rest (s : Dev) (p : Power) : (s.setPower p).rest = { s.rest with power := p } := Dev.wr_rest ..

theorem Dev.rd_setPower (s : Dev) (p : Power) : (s.setPower p).rd .RCP_STATE = powerCode p := by
  refine (Dev.rd_wr ..).trans (wrap_of_lt ?_)
  cases p <;> decide

section
variable {α : Type} {l : List (Field × Nat)} {m : Dev → α} {s t : Dev}

theorem Dev.Within.setPower (h : Within l m s t) (p : Power) (hl : (.RCP_STATE, 0) ∈ l) (hm : ∀ d x, m { d with power := x } = m d) :
    Within l m s (t.setPower p) := (h.step (u := { t with power := p }) rfl rfl rfl (hm t.rest p)).wr _ (by decide) hl

end

/-- A change of the power state is all that a command does, beside what `rest` says. -/
theorem Dev.setPower_kept (s : Dev) (p : Power) : Within [(.RCP_STATE, 0)] (fun _ => ()) s (s.setPower p) :=
  (Within.refl _ _ s).setPower p (by simp) fun _ _ => rfl

/-! ### Ready (R46, R397) -/

/-- A receive direction goes to sleep if it is locked. -/
def Dev.restLink (d : Dev) (n : Nat) : Dev := if d.flag .CXP_LNK_STAT_LOCK n then d.setLink n { d.link n with asleep := true } else d

theorem Dev.quiet_eq (s : Dev) :
    s.quiet = (upTo 24).foldl Dev.restLink { s with pipesOn := s.pipesOn &&& maskOf ((upTo 5).filter fun p => s.pipeHolds p) } := rfl

theorem Dev.restLink_link (d : Dev) (j n : Nat) :
    (d.restLink j).link n = { d.link n with asleep := (d.link n).asleep || (d.flag .CXP_LNK_STAT_LOCK n && decide (j = n)) } := by
  unfold restLink
  by_cases hjn : j = n
  · subst hjn
    cases hlock : d.flag .CXP_LNK_STAT_LOCK j <;> simp
  · split
    · rw [d.link_setLink_ne j n _ (Ne.symm hjn)]; simp [hjn]
    · simp [hjn]

theorem Dev.restLink_flag (d : Dev) (j : Nat) (f : Field) (n : Nat) : (d.restLink j).flag f n = d.flag f n := by
  unfold restLink
  split <;> rfl

theorem Dev.restLinks_link (l : List Nat) (d : Dev) (n : Nat) :
    (l.foldl Dev.restLink d).link n = { d.link n with asleep := (d.link n).asleep || (d.flag .CXP_LNK_STAT_LOCK n && decide (n ∈ l)) } := by
  induction l generalizing d with
  | nil => simp
  | cons j l ih =>
    rw [List.foldl_cons, ih, restLink_link, restLink_flag]
    by_cases hjn : j = n
    · subst hjn
      cases d.flag .CXP_LNK_STAT_LOCK j <;> simp
    · simp [hjn, Ne.symm hjn]

/-- What the module holds beside its power state, its links, the pipes that are on and the run of XCLK. -/
def Dev.butReady (s : Dev) : Dev := { s with power := .off, xclkOn := false, links := [], pipesOn := 0 }

theorem Dev.rest_of_butReady {s t : Dev} (h : t.rest.butReady = s.rest.butReady) :
    t.rest = { s.rest with power := t.power, xclkOn := t.xclkOn, links := t.links, pipesOn := t.pipesOn } :=
  (congrArg (fun d : Dev => { d with power := t.power, xclkOn := t.xclkOn, links := t.links, pipesOn := t.pipesOn }) h :)

theorem Dev.Within.quiet {s : Dev} : Within [] butReady s s.quiet := by
  rw [quiet_eq]
  refine .foldl _ ((Within.refl _ _ s).step rfl rfl rfl rfl) fun d n _ => ?_
  unfold restLink
  split
  · exact (Within.refl _ _ d).step rfl rfl rfl rfl
  · exact .refl _ _ d

theorem Dev.quiet_link (s : Dev) (n : Fin 24) :
    s.quiet.link n = { s.link n with asleep := (s.link n).asleep || s.flag .CXP_LNK_STAT_LOCK n } := by
  rw [quiet_eq, restLinks_link]
  have hn : decide ((n : Nat) ∈ upTo 24) = true := decide_eq_true (mem_upTo.2 n.isLt)
  rw [hn, Bool.and_true]
  rfl

theorem Dev.quiet_pipesOn (s : Dev) : s.quiet.pipesOn = s.pipesOn &&& maskOf ((upTo 5).filter fun p => s.pipeHolds p) := by
  rw [quiet_eq]
  refine foldl_keeps Dev.pipesOn (fun d n _ => ?_) _
  unfold restLink
  split <;> rfl

theorem Dev.quiet_pipesOn_bit (s : Dev) (p : Fin 5) : s.quiet.pipesOn.testBit p = (s.pipesOn.testBit p && s.pipeHolds p) := by
  rw [quiet_pipesOn]
  change bit _ p = (bit _ p && _)
  rw [bit_and, bit_maskOf]
  congr 1
  simp [mem_upTo, p.isLt]

/-- Ready without the sleep of what is idle. -/
def Dev.inReady (s : Dev) (on : Bool) : Dev := { s.setPower .ready with xclkOn := on }

theorem Dev.toReady_eq (s : Dev) : s.toReady = s.quiet.inReady s.holdsXclk := rfl

theorem Dev.inReady_within (s : Dev) (on : Bool) : Within [(.RCP_STATE, 0)] butReady s (s.inReady on) :=
  ((Within.refl _ _ s).setPower .ready (by simp) fun _ _ => rfl).step rfl rfl rfl rfl

theorem Dev.inReady_reads (s : Dev) (on : Bool) :
    (s.inReady on).power = .ready ∧ (s.inReady on).rd .RCP_STATE = powerCode .ready ∧ (s.inReady on).xclkOn = on ∧ (s.inReady on).links = s.links ∧
      (s.inReady on).pipesOn = s.pipesOn :=
  ⟨s.setPower_power .ready, s.rd_setPower .ready, rfl, Dev.wr_links .., Dev.wr_pipesOn ..⟩

theorem Dev.toReady_within (s : Dev) : Within [(.RCP_STATE, 0)] butReady s s.toReady := by
  rw [toReady_eq]
  have hquiet : Within [(.RCP_STATE, 0)] butReady s s.quiet := Within.quiet.mono (by simp)
  generalize s.quiet = u at hquiet ⊢
  exact hquiet.trans (u.inReady_within s.holdsXclk)

theorem completes_readyEntry {s : State} (n : Fin 24) (p : Fin 5) (hpow : s.power = .run) (hidle : s.idle = true) :
    Completes .readyEntry s fun t =>
      t.power = .ready ∧ t.rd .RCP_STATE = powerCode .ready ∧ t.xclkOn = s.bissMaster ∧
      t.link n = { s.link n with asleep := (s.link n).asleep || s.flag .CXP_LNK_STAT_LOCK n } ∧
      t.pipesOn.testBit p = (s.pipesOn.testBit p && s.pipeHolds p) ∧ KeepsFields s t [(.RCP_STATE, 0)] ∧
      t.rest = { s.rest with power := .ready, xclkOn := t.xclkOn, links := t.links, pipesOn := t.pipesOn } := by
  have heff : s.readyEntry = s.toReady := if_pos (by simp [hpow, hidle])
  have hxclk : s.holdsXclk = s.bissMaster := by
    have howes : ((upTo 64).any fun c => s.owes c) = false := by
      simp only [Dev.idle, Bool.and_eq_true, List.all_eq_true] at hidle
      obtain ⟨⟨-, howes⟩, -⟩ := hidle
      rw [List.any_eq_false]
      exact fun c hc => by simpa using howes c hc
    rw [Dev.holdsXclk, howes, Bool.or_false]
  have hwithin := s.toDev.toReady_within
  have hquiet := s.toDev.quiet_link n
  have hquietPipes := s.toDev.quiet_pipesOn_bit p
  rw [Dev.toReady_eq, hxclk] at heff hwithin
  obtain ⟨hpower, hstate, hon, hlink, hpipes⟩ := s.quiet.inReady_reads s.bissMaster
  generalize s.quiet.inReady s.bissMaster = u at heff hwithin hpower hstate hon hlink hpipes
  refine .of_effect (exec_readyEntry s) rfl heff ⟨?_, (Dev.notify_rd ..).trans hstate, ?_, ?_, ?_, hwithin.kept, ?_⟩
  · rw [Dev.notify_power]; exact hpower
  · rw [Dev.notify_xclkOn]; exact hon
  · refine Eq.trans ?_ hquiet
    simp only [Dev.link, Dev.notify_links, hlink]
  · rw [Dev.notify_pipesOn, hpipes]; exact hquietPipes
  · rw [Dev.notify_rest, Dev.notify_xclkOn, Dev.notify_links, Dev.notify_pipesOn, Dev.rest_of_butReady hwithin.same, hpower]

/-! ### Doze and demand (R396, R397) -/

theorem completes_dozeHeld {s : State} (hxclk : s.holdsXclk = true) : Completes .dozeEntry s fun t => KeepsFields s t [] ∧ t.rest = s.rest :=
  completes_idle (exec_dozeEntry s) (if_neg (by simp [hxclk]))

theorem completes_doze {s : State} (hpow : s.power = .ready) (hen : s.flag .RCP_CTL_DOZEEN = true) (hxclk : s.holdsXclk = false)
    (hmgr : s.manager = false) :
    Completes .dozeEntry s fun t =>
      t.power = .doze ∧ t.xclkOn = false ∧ KeepsFields s t [(.RCP_STATE, 0)] ∧ t.rest = { s.rest with power := .doze, xclkOn := false } := by
  have heff : s.dozeEntry = { s.setPower .doze with xclkOn := false } := by
    simp [Dev.dozeEntry, hpow, hen, hxclk, hmgr]
  have hkept : Dev.Within [(.RCP_STATE, 0)] (fun _ => ()) s.toDev { s.setPower .doze with xclkOn := false } :=
    (s.setPower_kept .doze).step rfl rfl rfl rfl
  refine .of_effect (exec_dozeEntry s) rfl heff ⟨?_, Dev.notify_xclkOn .., hkept.kept, ?_⟩
  · rw [Dev.notify_power]; exact s.setPower_power .doze
  · rw [Dev.notify_rest]
    exact (congrArg (fun d : Dev => { d with xclkOn := false }) (s.setPower_rest .doze) :)

theorem completes_demand {s : State} (hpow : s.power = .ready ∨ s.power = .doze) :
    Completes .demand s fun t => t.power = .run ∧ KeepsFields s t [(.RCP_STATE, 0)] ∧ t.rest = { s.rest with power := .run } := by
  have heff : s.demand = s.setPower .run := if_pos (by rcases hpow with h | h <;> simp [h])
  refine .of_effect (exec_demand s) rfl heff ⟨?_, (s.setPower_kept .run).kept, (Dev.notify_rest ..).trans (s.setPower_rest .run)⟩
  rw [Dev.notify_power]; exact s.setPower_power .run

/-! ### Block resets (R393, R394) -/

theorem completes_blockResets {s : State} (hlive : s.live = true) :
    (Completes (.blockReset .host 16) s fun t =>
      t.rd .RCP_BRST_CNT = satSucc 32 (s.rd .RCP_BRST_CNT) ∧ KeepsFields s t [(.RCP_BRST_CNT, 0), (.RCP_BRST_BLOCK, 0)] ∧ t.rest = s.rest) ∧
    (Completes (.blockReset .host 40) s fun t =>
      t.flag .RCP_STAT_BRSTERR = true ∧ KeepsFields s t [(.RCP_STAT_BRSTERR, 0), (.RCP_BRST_BLOCK, 0)] ∧ t.rest = s.rest) := by
  have hpow : (s.power == .off || s.power == .halted || s.power == .resetting) = false := by
    rw [Dev.live] at hlive
    cases hp : s.power <;> simp_all
  have hblock (b : Nat) : Dev.Within [(.RCP_BRST_BLOCK, 0)] id s.toDev (s.wr .RCP_BRST_BLOCK 0 b) :=
    (Dev.Within.refl _ _ s.toDev).wr b (by decide) (by simp)
  constructor
  · have heff : s.toDev.blockReset .host 16 = (s.wr .RCP_BRST_BLOCK 0 16).count .RCP_BRST_CNT := by
      rw [Dev.blockReset, if_neg (by simp [hpow])]
      rfl
    have hall : Dev.Within [(.RCP_BRST_CNT, 0), (.RCP_BRST_BLOCK, 0)] id s.toDev ((s.wr .RCP_BRST_BLOCK 0 16).count .RCP_BRST_CNT) :=
      ((hblock 16).mono (by simp)).count (by decide) (by simp)
    refine .of_effect (exec_blockReset _ _ s) rfl heff ⟨?_, hall.kept, (Dev.notify_rest ..).trans hall.same⟩
    rw [Dev.notify_rd, Dev.rd_count, (hblock 16).rd (by decide) (by simp)]
    rfl
  · have heff : s.toDev.blockReset .host 40 = (s.wr .RCP_BRST_BLOCK 0 40).setFlag .RCP_STAT_BRSTERR 0 true := by
      rw [Dev.blockReset, if_neg (by simp [hpow])]
      rfl
    have hall : Dev.Within [(.RCP_STAT_BRSTERR, 0), (.RCP_BRST_BLOCK, 0)] id s.toDev
        ((s.wr .RCP_BRST_BLOCK 0 40).setFlag .RCP_STAT_BRSTERR 0 true) :=
      ((hblock 40).mono (by simp)).setFlag true (by decide) (by simp)
    refine .of_effect (exec_blockReset _ _ s) rfl heff ⟨?_, hall.kept, (Dev.notify_rest ..).trans hall.same⟩
    rw [Dev.notify_flag]
    exact Dev.flag_wr_toNat _ .RCP_STAT_BRSTERR 0 true (by decide)

/-! ### The frames that go out before the module sleeps (R281) -/

/-- The XCLK count after the next frame slot, and the slot. -/
def slotTick (e : Nat × Nat) : Nat × Nat :=
  let x := if e.1 % 400 = 0 ∧ e.2 < e.1 then e.1 else e.1 + (400 - e.1 % 400)
  (x, x)

/-- Time has gone on from one state to another: XCLK has run, device time at the rate in force with it, and what of the module does
not follow the clock stays. -/
structure Dev.Later (s t : Dev) : Prop where
  power : t.power = s.power
  encs : t.encs = s.encs
  fields : FieldsKept timeFields s t
  xclk : s.xclk ≤ t.xclk
  timeU : t.timeU = s.timeU + (t.xclk - s.xclk) * s.periodUnits

namespace Dev.Later
variable {s t u : Dev}

theorem refl (s : Dev) : Later s s := ⟨rfl, rfl, .refl _ s, le_refl _, by simp⟩

theorem periodUnits (h : Later s t) : t.periodUnits = s.periodUnits := by
  unfold Dev.periodUnits Dev.rate
  rw [h.fields .TIM_RATE 0 (by decide) (by simp [timeFields, hitFields, logFields, breakFields])]

theorem trans (h : Later s t) (h' : Later t u) : Later s u := by
  refine ⟨h'.power.trans h.power, h'.encs.trans h.encs, h.fields.trans h'.fields, h.xclk.trans h'.xclk, ?_⟩
  obtain ⟨a, ha⟩ := Nat.exists_eq_add_of_le h.xclk
  obtain ⟨b, hb⟩ := Nat.exists_eq_add_of_le h'.xclk
  rw [h'.timeU, h.timeU, h.periodUnits, Nat.add_assoc, ← Nat.add_mul]
  congr 2
  omega

end Dev.Later

theorem Dev.later_clocked (s : Dev) (n : Nat) : Later s (s.clocked n) :=
  ⟨rfl, rfl, .of_regs rfl rfl rfl, Nat.le_add_right .., by change _ = s.timeU + (s.xclk + n - s.xclk) * _; rw [Nat.add_sub_cancel_left]; rfl⟩

theorem Dev.later_advance {s : Dev} (n : Nat) (hpow : s.power ≠ .off) : Later s (s.advance n) ∧ (s.advance n).xclk = s.xclk + n := by
  have hpass := advance_within (m := fun d : Dev => (d.power, d.encs, d.xclk, d.timeU))
    (fun d e h => (congrArg (fun d : Dev => (d.power, d.encs, d.xclk, d.timeU)) h :)) n hpow
  have hpower : (s.advance n).power = (s.clocked n).power := (congrArg (fun x => x.1) hpass.same :)
  have hencs : (s.advance n).encs = (s.clocked n).encs := (congrArg (fun x => x.2.1) hpass.same :)
  have hxclk : (s.advance n).xclk = (s.clocked n).xclk := (congrArg (fun x => x.2.2.1) hpass.same :)
  have htime : (s.advance n).timeU = (s.clocked n).timeU := (congrArg (fun x => x.2.2.2) hpass.same :)
  have hlater : Later (s.clocked n) (s.advance n) := ⟨hpower, hencs, hpass.fields, hxclk.ge, by rw [hxclk, htime]; simp⟩
  exact ⟨(s.later_clocked n).trans hlater, hxclk⟩

theorem Dev.later_frameSlot {s : Dev} (hpow : s.power ≠ .off) :
    Later s s.frameSlot ∧ (s.frameSlot.xclk, s.frameSlot.slotAt) = slotTick (s.xclk, s.slotAt) := by
  have hslot (d : Dev) (h : Later s d) : Later s { d with slotAt := d.xclk } := h.trans ⟨rfl, rfl, .of_regs rfl rfl rfl, le_refl _, by simp⟩
  have hframe : s.frameSlot = { s.advanceTo 400 s.slotAt with slotAt := (s.advanceTo 400 s.slotAt).xclk } := rfl
  rw [hframe]
  unfold advanceTo slotTick
  by_cases h : s.xclk % 400 = 0 ∧ s.slotAt < s.xclk
  · rw [if_pos h]
    exact ⟨hslot s (.refl s), by simp [h]⟩
  · rw [if_neg h]
    obtain ⟨hadv, hxclk⟩ := later_advance (400 - s.xclk % 400) hpow
    exact ⟨hslot _ hadv, by simp [h, hxclk]⟩

theorem Dev.later_safeFrame {s : Dev} (hpow : s.power ≠ .off) :
    Later s (s.frameSlot.sendState true) ∧
      ((s.frameSlot.sendState true).xclk, (s.frameSlot.sendState true).slotAt) = slotTick (s.xclk, s.slotAt) := by
  obtain ⟨hlater, htick⟩ := later_frameSlot hpow
  generalize s.frameSlot = u at hlater htick ⊢
  rw [sendState_framed]
  exact ⟨hlater.trans ⟨rfl, rfl, .of_regs rfl rfl rfl, le_refl _, by change u.timeU = u.timeU + (u.xclk - u.xclk) * _; simp⟩, htick⟩

theorem Dev.later_safeFrames (n : Nat) {s : Dev} (hpow : s.power ≠ .off) :
    Later s (iter (fun (d : Dev) => d.frameSlot.sendState true) n s) ∧
      ((iter (fun (d : Dev) => d.frameSlot.sendState true) n s).xclk, (iter (fun (d : Dev) => d.frameSlot.sendState true) n s).slotAt) =
        iter slotTick n (s.xclk, s.slotAt) := by
  induction n generalizing s with
  | zero => exact ⟨.refl s, rfl⟩
  | succ n ih =>
    obtain ⟨hlater, htick⟩ := later_safeFrame hpow
    obtain ⟨hrest, hticks⟩ := ih (s := s.frameSlot.sendState true) (by rw [hlater.power]; exact hpow)
    exact ⟨hlater.trans hrest, by rw [iter, iter, hticks, htick]⟩

/-- The frames of a module that runs take their slots, whatever else it does. -/
theorem Dev.later_sendSafe {s : Dev} (hlive : s.live = true) :
    Later s s.sendSafe ∧ (s.sendSafe.xclk, s.sendSafe.slotAt) = iter slotTick 8 (s.xclk, s.slotAt) := by
  have hon : s.framesOn = true := by simp [framesOn, hlive]
  have hpow : s.power ≠ .off := by rintro h; simp [live, h] at hlive
  rw [sendSafe, if_pos hon, safeBurst]
  exact later_safeFrames 8 hpow

/-! ### Standby and Off (R396, R398, R400) -/

theorem Dev.rd_keepFields (s : Dev) {p : Nat → Bool} {f : Field} {i : Nat} (h : p (f.key i) = true) : (s.keepFields p).rd f i = s.rd f i := by
  unfold keepFields Dev.rd tabGet
  simp only [tabFind?_clear, h]
  rfl

theorem Dev.freshEncs_enc (s : Dev) (k : Fin 4) : ((upTo 4).foldl (fun (d : Dev) ch => d.freshEnc ch) s).enc k = (s.enc k).fresh := by
  have hne (d : Dev) {j : Nat} (h : (k : Nat) ≠ j) : (d.freshEnc j).enc k = d.enc k := d.enc_setEnc_ne j k _ h
  have heq (d : Dev) : (d.freshEnc k).enc k = (d.enc k).fresh := d.enc_setEnc k _
  have hk : k = 0 ∨ k = 1 ∨ k = 2 ∨ k = 3 := by omega
  change ((((s.freshEnc 0).freshEnc 1).freshEnc 2).freshEnc 3).enc k = _
  rcases hk with rfl | rfl | rfl | rfl
  · rw [hne _ (by decide), hne _ (by decide), hne _ (by decide)]; exact heq s
  · rw [hne _ (by decide), hne _ (by decide)]; exact (heq _).trans (by rw [hne _ (by decide)])
  · rw [hne _ (by decide)]; exact (heq _).trans (by rw [hne _ (by decide), hne _ (by decide)])
  · exact (heq _).trans (by rw [hne _ (by decide), hne _ (by decide), hne _ (by decide)])

/-- The four channels start afresh. -/
def Dev.freshEncs (s : Dev) : Dev := (upTo 4).foldl (fun (d : Dev) ch => d.freshEnc ch) s

/-- What is left of the module in Standby, before its state and its slots are set. -/
def Dev.standbyRest (s : Dev) (keep : Bool) : Dev := (s.dropWork.keepFields keyInStandby).keepMem keep true

/-- The state of Standby. -/
def Dev.standbySet (s : Dev) (reload : List Nat) : Dev :=
  let s := (s.setFlag .SEP_CTL_ARM 0 false).setPower .standby
  { s with xclkOn := false, rst := { s.rst with reload := reload }, slotNext := none }

/-- Standby before the slots of the recipes are set. -/
def Dev.standbyCore (s : Dev) (keep : Bool) (reload : List Nat) : Dev := ((s.standbyRest keep).standbySet reload).freshEncs

/-- What Standby is: XCLK stopped, no job, the positions held and the channels fresh. -/
structure Dev.InStandby (s t : Dev) : Prop where
  power : t.power = .standby
  xclkOn : t.xclkOn = false
  jobs : t.jobs = []
  xclk : t.xclk = s.xclk
  timeU : t.timeU = s.timeU
  enc : ∀ k : Fin 4, t.enc k = (s.enc k).fresh
  pos : ∀ k : Fin 4, t.rd .ENC_POS k = s.rd .ENC_POS k

theorem Dev.standbyRest_pos (s : Dev) (keep : Bool) (k : Fin 4) : (s.standbyRest keep).rd .ENC_POS k = s.rd .ENC_POS k := by
  have hkeys : ∀ k : Fin 4, keyInStandby (Field.ENC_POS.key k) = true := by decide
  exact s.dropWork.rd_keepFields (hkeys k)

theorem Dev.standbySet_within (s : Dev) (reload : List Nat) :
    Within [(.SEP_CTL_ARM, 0), (.RCP_STATE, 0)] (fun d => (d.jobs, d.xclk, d.timeU, d.encs)) s (s.standbySet reload) :=
  (((Within.refl _ _ s).setFlag false (by decide) (by simp)).setPower .standby (by simp) fun _ _ => rfl).step rfl rfl rfl rfl

theorem Dev.freshEncs_keeps (s : Dev) {γ : Type} (g : Dev → γ) (hg : ∀ d x, g { d with encs := x } = g d) : g s.freshEncs = g s :=
  foldl_keeps g (fun _ _ _ => hg _ _) s

theorem Dev.inStandby_core (s : Dev) (keep : Bool) (reload : List Nat) : InStandby s (s.standbyCore keep reload) := by
  have hpos := s.standbyRest_pos keep
  have hrest : ((s.standbyRest keep).jobs, (s.standbyRest keep).xclk, (s.standbyRest keep).timeU, (s.standbyRest keep).encs) =
    ([], s.xclk, s.timeU, s.encs) := rfl
  unfold standbyCore
  generalize s.standbyRest keep = u at hpos hrest ⊢
  have hset := u.standbySet_within reload
  have hpower : (u.standbySet reload).power = .standby := (u.setFlag .SEP_CTL_ARM 0 false).setPower_power .standby
  have hoff : (u.standbySet reload).xclkOn = false := rfl
  have hsame := hset.same.trans hrest
  have hrd (k : Fin 4) := (hset.rd (f := .ENC_POS) (i := k) (by omega) (by simp)).trans (hpos k)
  generalize u.standbySet reload = v at hsame hpower hoff hrd ⊢
  have henc := congrArg (fun x => x.2.2.2) hsame
  exact {
    power := (v.freshEncs_keeps Dev.power fun _ _ => rfl).trans hpower
    xclkOn := (v.freshEncs_keeps Dev.xclkOn fun _ _ => rfl).trans hoff
    jobs := (v.freshEncs_keeps Dev.jobs fun _ _ => rfl).trans (congrArg (fun x => x.1) hsame)
    xclk := (v.freshEncs_keeps Dev.xclk fun _ _ => rfl).trans (congrArg (fun x => x.2.1) hsame)
    timeU := (v.freshEncs_keeps Dev.timeU fun _ _ => rfl).trans (congrArg (fun x => x.2.2.1) hsame)
    enc := fun k => (v.freshEncs_enc k).trans (congrArg Encoder.fresh (congrArg (fun x => tabGet (fun _ => ({} : Encoder)) x (k : Nat)) henc))
    pos := fun k => (v.freshEncs_keeps (fun d => d.rd .ENC_POS k) fun _ _ => rfl).trans (hrd k) }

theorem Dev.inStandby_goStandby (s : Dev) : InStandby s s.goStandby := by
  have hslots {t : Dev} (h : InStandby s t) (x : Tab RecipeSlot) (now : Option Nat) (past : List (Nat × Nat)) :
      InStandby s { t with slots := x, slotNow := now, slotPast := past } :=
    ⟨h.power, h.xclkOn, h.jobs, h.xclk, h.timeU, h.enc, h.pos⟩
  have heq : s.goStandby = if s.flag .RCP_CTL_RETAIN then
      { s.standbyCore (s.flag .RCP_CTL_RETAIN) (if s.flag .RCP_CTL_RETAIN then [] else s.slotsToReload) with
        slots := (s.standbyCore (s.flag .RCP_CTL_RETAIN) (if s.flag .RCP_CTL_RETAIN then [] else s.slotsToReload)).slots.map fun e =>
          (e.1, { e.2 with posted := false }) }
    else
      { s.standbyCore (s.flag .RCP_CTL_RETAIN) (if s.flag .RCP_CTL_RETAIN then [] else s.slotsToReload) with
        slotNow := none, slotPast := []
        slots := (s.standbyCore (s.flag .RCP_CTL_RETAIN) (if s.flag .RCP_CTL_RETAIN then [] else s.slotsToReload)).slots.map fun e =>
          (e.1, e.2.unloaded) } := rfl
  have hcore := s.inStandby_core (s.flag .RCP_CTL_RETAIN) (if s.flag .RCP_CTL_RETAIN then [] else s.slotsToReload)
  rw [heq]
  generalize s.standbyCore (s.flag .RCP_CTL_RETAIN) (if s.flag .RCP_CTL_RETAIN then [] else s.slotsToReload) = u at hcore
  split
  · exact hslots hcore _ _ _
  · exact hslots hcore _ _ _

/-- What the stop of the standing jobs leaves. -/
theorem Dev.stopActive_within (s : Dev) :
    Within [(.JOB_Q_TAIL, 8)] (fun d => (d.power, d.xclk, d.slotAt, d.timeU, d.encs)) s s.useFree.stopActive := by
  have hfree : Within [(.JOB_Q_TAIL, 8)] (fun d => (d.power, d.xclk, d.slotAt, d.timeU, d.encs)) s s.useFree :=
    (Within.refl _ _ s).step rfl rfl rfl rfl
  refine hfree.trans ?_
  generalize s.useFree = u
  unfold stopActive
  split
  · exact .refl _ _ u
  · unfold stopStanding
    exact (((Within.refl _ _ u).step (u := u.setSlot _ _) rfl rfl rfl rfl).wr _ (by decide) (by simp)).step rfl rfl rfl rfl

theorem Dev.abandon_reads (s : Dev) : s.abandon.power = .ready ∧ s.abandon.flag .RCP_STAT_STBYABT = true := by
  unfold abandon
  rw [toReady_eq]
  have hready := (s.repost.quiet.inReady_reads s.repost.holdsXclk).1
  generalize s.repost.quiet.inReady s.repost.holdsXclk = u at hready
  exact ⟨(Dev.wr_power ..).trans hready, u.flag_wr_toNat .RCP_STAT_STBYABT 0 true (by decide)⟩

theorem Dev.goOff_power (s : Dev) : s.goOff.power = .off := by
  unfold goOff
  split
  · rename_i h
    simpa using h
  · rfl

theorem Dev.maySleep_live {s : Dev} (h : s.maySleep = true) : s.live = true := by
  simp only [maySleep, Bool.and_eq_true] at h
  obtain ⟨⟨⟨⟨hpow, -⟩, -⟩, -⟩, -⟩ := h
  unfold live
  cases hp : s.power <;> simp_all

/-- What Standby keeps of the module that sends its frames and sleeps. -/
structure Dev.Slept (s t : Dev) : Prop where
  xclkOn : t.xclkOn = false
  jobs : t.jobs = []
  enc : ∀ k : Fin 4, t.enc k = (s.enc k).fresh
  pos : ∀ k : Fin 4, t.rd .ENC_POS k = s.rd .ENC_POS k
  later : s.xclk ≤ t.xclk
  timeU : t.timeU = s.timeU + (t.xclk - s.xclk) * s.periodUnits
  xclk : t.xclk = s.sendSafe.xclk

/-- The frames go out, and the module sleeps. -/
theorem Dev.slept_goStandby {s : Dev} (hlive : s.live = true) : Slept s s.useFree.stopActive.sendSafe.goStandby := by
  have hstop := s.stopActive_within
  have hsame := hstop.same
  simp only [Prod.mk.injEq] at hsame
  obtain ⟨hpow, hxclk, hslot, htime, hencs⟩ := hsame
  have hperiod : s.useFree.stopActive.periodUnits = s.periodUnits := by
    unfold periodUnits rate
    rw [hstop.rd (by decide) (by decide)]
  have hpos (k : Fin 4) := hstop.rd (f := .ENC_POS) (i := k) (by omega) (by simp)
  generalize s.useFree.stopActive = v at hpow hxclk hslot htime hencs hperiod hpos
  change v.power = s.power at hpow
  change v.xclk = s.xclk at hxclk
  change v.slotAt = s.slotAt at hslot
  change v.timeU = s.timeU at htime
  change v.encs = s.encs at hencs
  have hvlive : v.live = true := by unfold live at hlive ⊢; rwa [hpow]
  obtain ⟨hlater, htick⟩ := later_sendSafe hvlive
  have hsafe := (later_sendSafe hlive).2
  rw [hxclk, hslot, ← hsafe] at htick
  have hcount : v.sendSafe.xclk = s.sendSafe.xclk := congrArg (fun e => e.1) htick
  generalize v.sendSafe = u at hlater hcount
  have hin := u.inStandby_goStandby
  generalize u.goStandby = t at hin
  exact {
    xclkOn := hin.xclkOn
    jobs := hin.jobs
    enc := fun k => by rw [hin.enc]; simp only [Dev.enc, hlater.encs, hencs]
    pos := fun k => (hin.pos k).trans ((hlater.fields .ENC_POS k (by omega) (by simp [timeFields, hitFields, logFields, breakFields])).trans (hpos k))
    later := by rw [hin.xclk, ← hxclk]; exact hlater.xclk
    timeU := by rw [hin.timeU, hlater.timeU, htime, hin.xclk, hxclk, hperiod]
    xclk := hin.xclk.trans hcount }

section
variable {s : State} {port : Port} (ha : s.answers port = true) (hrec : s.power ≠ .recovery)
include ha hrec

theorem completes_sleepRefused (hw : mayWrite rwRwRwR port = true) (hmay : s.maySleep = false) :
    (Completes (.enterStandby port) s fun t => t.svc.lastStatus = stBusy ∧ KeepsFields s t [] ∧ t.rest = { s.rest with svc := t.svc }) ∧
      (Completes (.enterOff port) s fun t => t.svc.lastStatus = stBusy ∧ KeepsFields s t [] ∧ t.rest = { s.rest with svc := t.svc }) :=
  ⟨completes_status (exec_enterStandby port s) rfl stBusy
      (by rw [Dev.served_of_answers _ _ _ ha hrec, Dev.enterStandby, if_neg (by simp [hw]), if_pos (by simp [hmay])]),
    completes_status (exec_enterOff port s) rfl stBusy
      (by rw [Dev.served_of_answers _ _ _ ha hrec, Dev.enterOff, if_neg (by simp [hw]), if_pos (by simp [hmay])])⟩

theorem completes_enterStandby (hw : mayWrite rwRwRwR port = true) (hmay : s.maySleep = true) :
    Completes (.enterStandby port) s fun t =>
      t.svc.lastStatus = stOk ∧ (t.power = .standby ∨ t.power = .ready ∧ t.flag .RCP_STAT_STBYABT = true) ∧
      (t.power = .standby → Dev.Slept s.toDev t.toDev) := by
  have heff : s.served port 0x9000 1 (fun d => d.enterStandby port) = (s.sleep Dev.goStandby).status stOk := by
    rw [Dev.served_of_answers _ _ _ ha hrec, Dev.enterStandby, if_neg (by simp [hw]), if_neg (by simp [hmay])]
  have hslept := Dev.slept_goStandby (Dev.maySleep_live hmay)
  have hpower := s.useFree.stopActive.sendSafe.inStandby_goStandby.power
  have habandon := s.useFree.stopActive.abandon_reads
  have hsleep : s.sleep Dev.goStandby = if s.freeValue 1 = 1 then s.useFree.stopActive.abandon else s.useFree.stopActive.sendSafe.goStandby := rfl
  rw [hsleep] at heff
  by_cases hgone : s.freeValue 1 = 1
  · rw [if_pos hgone] at heff
    generalize s.useFree.stopActive.abandon = u at heff habandon
    obtain ⟨hready, habt⟩ := habandon
    have hpow : ((u.status stOk).notify s.toDev).power = .ready := (Dev.notify_power ..).trans hready
    refine .of_effect (exec_enterStandby port s) rfl heff ⟨?_, .inr ⟨hpow, (Dev.notify_flag ..).trans habt⟩, fun h => ?_⟩
    · rw [Dev.notify_svc]; rfl
    · exact absurd (hpow.symm.trans h) (by decide)
  · rw [if_neg hgone] at heff
    generalize s.useFree.stopActive.sendSafe.goStandby = u at heff hslept hpower
    refine .of_effect (exec_enterStandby port s) rfl heff ⟨?_, .inl ((Dev.notify_power ..).trans hpower), fun _ => ?_⟩
    · rw [Dev.notify_svc]; rfl
    · exact {
        xclkOn := (Dev.notify_xclkOn ..).trans hslept.xclkOn
        jobs := (Dev.notify_jobs ..).trans hslept.jobs
        enc := fun k => (Dev.notify_enc ..).trans (hslept.enc k)
        pos := fun k => (Dev.notify_rd ..).trans (hslept.pos k)
        later := by rw [Dev.notify_xclk]; exact hslept.later
        timeU := by rw [Dev.notify_xclk, Dev.notify_timeU]; exact hslept.timeU
        xclk := (Dev.notify_xclk ..).trans hslept.xclk }

theorem completes_enterOff (hw : mayWrite rwRwRwR port = true) (hmay : s.maySleep = true) :
    Completes (.enterOff port) s fun t =>
      t.svc.lastStatus = stOk ∧ (t.power = .off ∨ t.power = .ready ∧ t.flag .RCP_STAT_STBYABT = true) := by
  have heff : s.served port 0x9000 1 (fun d => d.enterOff port) = (s.sleep Dev.goOff).status stOk := by
    rw [Dev.served_of_answers _ _ _ ha hrec, Dev.enterOff, if_neg (by simp [hw]), if_neg (by simp [hmay])]
  have hoff := s.useFree.stopActive.sendSafe.goOff_power
  have habandon := s.useFree.stopActive.abandon_reads
  have hsleep : s.sleep Dev.goOff = if s.freeValue 1 = 1 then s.useFree.stopActive.abandon else s.useFree.stopActive.sendSafe.goOff := rfl
  rw [hsleep] at heff
  by_cases hgone : s.freeValue 1 = 1
  · rw [if_pos hgone] at heff
    generalize s.useFree.stopActive.abandon = u at heff habandon
    obtain ⟨hready, habt⟩ := habandon
    refine .of_effect (exec_enterOff port s) rfl heff ⟨?_, .inr ⟨(Dev.notify_power ..).trans hready, (Dev.notify_flag ..).trans habt⟩⟩
    rw [Dev.notify_svc]; rfl
  · rw [if_neg hgone] at heff
    generalize s.useFree.stopActive.sendSafe.goOff = u at heff hoff
    refine .of_effect (exec_enterOff port s) rfl heff ⟨?_, .inl ((Dev.notify_power ..).trans hoff)⟩
    rw [Dev.notify_svc]; rfl

end

/-! ### The way out of Standby (R399) -/

theorem Dev.wakeUp_reads (s : Dev) : s.wakeUp.power = .ready ∧ s.wakeUp.rd .RCP_STATE = powerCode .ready := by
  have hwake (u : Dev) : (u.toReady.startQueued.raiseVec 12).power = .ready ∧ (u.toReady.startQueued.raiseVec 12).rd .RCP_STATE = powerCode .ready := by
    obtain ⟨hpow, hrd, -⟩ := u.quiet.inReady_reads u.holdsXclk
    rw [toReady_eq]
    generalize u.quiet.inReady u.holdsXclk = v at hpow hrd
    have hall := (Dev.startQueued_within v).raiseVec 12
    exact ⟨(congrArg Dev.power hall.same :).trans hpow, (hall.rd (by decide) (by decide)).trans hrd⟩
  exact hwake _

theorem completes_leaveStandby {s : State} (hpow : s.power = .standby) :
    Completes (.leaveStandby .h) s fun t => t.power = .ready ∧ t.rd .RCP_STATE = powerCode .ready ∧ t.svc.lastStatus = stOk := by
  have ha : s.answers .h = true := by simp [Dev.answers, Dev.pathOn, hpow]
  have heff : s.served .h 0x9000 1 (fun d => d.leaveStandby .h) = s.wakeUp.status stOk := by
    rw [Dev.served_of_answers _ _ _ ha (by rw [hpow]; decide), Dev.leaveStandby, if_neg (by decide), if_neg (by simp [hpow])]
  have hreads := s.toDev.wakeUp_reads
  generalize s.wakeUp = u at heff hreads
  obtain ⟨hready, hstate⟩ := hreads
  refine .of_effect (exec_leaveStandby .h s) rfl heff ⟨(Dev.notify_power ..).trans hready, (Dev.notify_rd ..).trans hstate, ?_⟩
  rw [Dev.notify_svc]; rfl

/-- Settles O57: each change of the power state under its condition; on the way into Standby the frames that go out let time pass, and
the positions and what the channels hold beside their samples stay. -/
theorem powerStatesChange : Obligations.PowerStatesChange := by
  intro s port k n p
  refine ⟨completes_readyEntry n p, fun _ _ hheld => completes_dozeHeld hheld, completes_doze, completes_demand,
    fun ha hrec hw => ⟨completes_sleepRefused ha hrec hw, fun hmay => ⟨?_, completes_enterOff ha hrec hw hmay⟩⟩, completes_leaveStandby,
    completes_blockResets⟩
  refine (completes_enterStandby ha hrec hw hmay).imp fun t ⟨hst, hpow, hslept⟩ => ⟨hst, hpow, fun h => ?_⟩
  obtain ⟨hon, hjobs, henc, hpos, hlater, htime, hxclk⟩ := hslept h
  exact ⟨hon, hjobs, henc k, hpos k, hlater, htime, hxclk⟩

end Sys2Proof.Machine

end

section
/-! The Separator's work at a tick (R257 to R266), what it leaves alone, and the estimate tick (R17 to R23). -/

namespace Sys2Proof.Machine

open Sys2Proof

/-! ### The fields of the line master -/

/-- A write leaves the earlier fields alone, whatever the instance that is written. -/
theorem Dev.rd_wr_earlier (s : Dev) {f g : Field} {j : Nat} (i v : Nat) (hj : j < 1024) (h : g.ctorIdx < f.ctorIdx) :
    (s.wr f i v).rd g j = s.rd g j := by
  have hk : g.key j ≠ f.key i := by unfold Field.key; omega
  unfold Dev.rd Dev.wr
  by_cases hf : f.voted = true <;> by_cases hg : g.voted = true <;> simp [hf, hg, tabGet_set_ne _ _ _ _ hk]

/-- A change leaves the fields of the line master, of its estimates and of its log alone, which are the first of the table, and a part `m` of
the module. -/
structure Dev.Offline {α : Type} (m : Dev → α) (s t : Dev) : Prop where
  line : ∀ (f : Field) (i : Nat), f.ctorIdx < 10 → i < 1024 → t.rd f i = s.rd f i
  same : m t.rest = m s.rest

namespace Dev.Offline

variable {α : Type} {m : Dev → α} {s t u : Dev}

theorem refl (m : Dev → α) (s : Dev) : Offline m s s := ⟨fun _ _ _ _ => rfl, rfl⟩

theorem trans (h : Offline m s t) (h' : Offline m t u) : Offline m s u :=
  ⟨fun f i hf hi => (h'.line f i hf hi).trans (h.line f i hf hi), h'.same.trans h.same⟩

/-- A change of other fields, as `Within` bounds it. -/
theorem within {l : List (Field × Nat)} (h : Offline m s t) (h' : Within l m t u) (hl : ∀ e ∈ l, 10 ≤ e.1.ctorIdx) : Offline m s u :=
  h.trans ⟨fun _ _ hf hi => h'.rd hi fun hin => absurd (hl _ hin) (by simpa using hf), h'.same⟩

/-- A change that touches no register field. -/
theorem step (h : Offline m s t) (hr : u.regs = t.regs) (hb : u.voteB = t.voteB) (hc : u.voteC = t.voteC) (hm : m u.rest = m t.rest) :
    Offline m s u := h.within ((Within.refl [] m t).step hr hb hc hm) (by simp)

theorem wr (h : Offline m s t) {f : Field} (i v : Nat) (hf : 10 ≤ f.ctorIdx) : Offline m s (t.wr f i v) :=
  h.trans ⟨fun _ _ hg hj => t.rd_wr_earlier i v hj (by omega), congrArg m (t.wr_rest f i v)⟩

theorem setFlag (h : Offline m s t) (f : Field) (i : Nat) (b : Bool) (hf : 10 ≤ f.ctorIdx) : Offline m s (t.setFlag f i b) := h.wr i _ hf

theorem count (h : Offline m s t) (f : Field) (i : Nat) (hf : 10 ≤ f.ctorIdx) : Offline m s (t.count f i) := h.wr i _ hf

theorem foldl {β : Type} {f : Dev → β → Dev} (xs : List β) (h : Offline m s t) (hf : ∀ d x, Offline m d (f d x)) :
    Offline m s (xs.foldl f t) := by
  induction xs generalizing t with
  | nil => exact h
  | cons x xs ih => exact ih (h.trans (hf t x))

end Dev.Offline

/-! ### The fire queue (R257 to R263) -/

/-- What the module holds beside the fire queue and the barrier. -/
def Dev.butFires (s : Dev) : Dev := { s.body with fires := [], nextRun := 0, barrier := {} }

/-- A part of the module that neither the fire queue nor the state of a part reaches. -/
structure Dev.Unfired {α : Type} (m : Dev → α) : Prop where
  queue : ∀ d e : Dev, d.butFires = e.butFires → m d = m e
  part : ∀ (d : Dev) (id : Nat) (g : Part → Part), m (d.updPart id g) = m d

namespace Dev.Unfired

variable {α : Type} {m : Dev → α}

theorem quiet (hm : Unfired m) : Quiet m := fun d e h => hm.queue _ _ (by simp only [butFires, rest_body, h])

theorem fires (hm : Unfired m) (d : Dev) (a : List Fire) (b : Nat) : m { d with fires := a, nextRun := b } = m d := hm.queue _ _ rfl

theorem barrier (hm : Unfired m) (d : Dev) (b : Barrier) : m { d with barrier := b } = m d := hm.queue _ _ rfl

end Dev.Unfired

theorem logFields_offline : ∀ e ∈ logFields, 10 ≤ e.1.ctorIdx := by decide

namespace Dev.Offline

variable {α : Type} {m : Dev → α} {s t : Dev}

theorem updPart (hm : Unfired m) (id : Nat) (g : Part → Part) (h : Offline m s t) : Offline m s (t.updPart id g) :=
  h.step rfl rfl rfl (hm.part t.rest id g)

theorem queue (hm : Unfired m) (x : List Fire) (n : Nat) (h : Offline m s t) : Offline m s { t with fires := x, nextRun := n } :=
  h.step rfl rfl rfl (hm.fires t.rest x n)

theorem fires (hm : Unfired m) (x : List Fire) (h : Offline m s t) : Offline m s { t with fires := x } := h.queue hm x t.nextRun

theorem barrier (hm : Unfired m) (b : Barrier) (h : Offline m s t) : Offline m s { t with barrier := b } :=
  h.step rfl rfl rfl (hm.barrier t.rest b)

theorem tally (hm : Quiet m) (code unit partid v0 v1 : Nat) (h : Offline m s t) : Offline m s (t.tally code unit partid v0 v1) :=
  h.within ((Within.refl _ _ t).tally code unit partid v0 v1 (fun _ h => h) hm) logFields_offline

theorem observe (hm : Quiet m) (k n : Nat) (h : Offline m s t) : Offline m s (t.observe k n) :=
  h.within ((Within.refl [] _ t).observe k n hm) (by simp)

theorem traceNote (hm : Quiet m) (src kind data : Nat) (h : Offline m s t) : Offline m s (t.traceNote src kind data) :=
  h.within ((Within.refl [(.OBS_TRC_DROP_COUNT, 0)] _ t).traceNote src kind data (by simp) hm) (by decide)

theorem dropFire (hm : Unfired m) (f : Fire) (h : Offline m s t) : Offline m s (t.dropFire f) :=
  h.within ((Within.refl [] _ t).dropFire f hm.fires) (by simp)

theorem missOn (hm : Unfired m) (f : Fire) (h : Offline m s t) : Offline m s (t.missOn f) :=
  (((h.wr 0 _ (by decide)).observe hm.quiet 145 1).tally hm.quiet _ _ _ _ _).updPart hm _ _

theorem addFire (hm : Unfired m) (f : Fire) (h : Offline m s t) : Offline m s (t.addFire f) := by
  unfold Dev.addFire
  dsimp only
  split
  · exact h.queue hm _ _
  · rename_i g rest _
    have hjoin : Offline m s (rest.foldl (fun (d : Dev) (h : Fire) => d.joinRuns g.run h.run) t) :=
      h.foldl _ fun d _ => (refl m d).fires hm _
    exact hjoin.fires hm _

theorem commitTick (hm : Unfired m) (edge : Nat) (level : Bool) (o : Nat) (h : Offline m s t) : Offline m s (t.commitTick edge level o) := by
  have hnote := h.traceNote hm.quiet 17 1 (wrap 40 edge + 2 ^ 40 * o + 2 ^ 45 * level.toNat)
  unfold Dev.commitTick
  generalize t.traceNote 17 1 _ = u at hnote ⊢
  dsimp only
  split
  · exact hnote.barrier hm _
  · exact (hnote.barrier hm _).barrier hm _

theorem commitOff (hm : Unfired m) (r o edge : Nat) (h : Offline m s t) : Offline m s (t.commitOff r o edge) :=
  (h.fires hm _).commitTick hm edge false o

theorem lateOff (hm : Unfired m) (o : Nat) (h : Offline m s t) : Offline m s (t.lateOff o) :=
  (h.observe hm.quiet 148 1).setFlag .SEP_OUT_ST_LATEOFF o true (by decide)

theorem noteBehind (hm : Unfired m) (r n : Nat) (h : Offline m s t) : Offline m s (t.noteBehind r n) := by
  unfold Dev.noteBehind
  split
  · exact h.fires hm _
  · exact h

theorem withhold (hm : Unfired m) (r n : Nat) (h : Offline m s t) : Offline m s (t.withhold r n) := by
  have hjoin : Offline m s ((t.noteBehind r n).joinRuns r n) := (h.noteBehind hm r n).fires hm _
  unfold Dev.withhold
  generalize (t.noteBehind r n).joinRuns r n = u at hjoin ⊢
  dsimp only
  generalize List.foldl (fun (m : Option Nat) (f : Fire) => if f.offEdge.isSome then f.offEdge else m) none (t.runOf n) = off
  cases off with
  | none => exact hjoin
  | some e => exact hjoin.fires hm _

/-- An OFF is withheld for a later run, or committed. -/
theorem closeAt (hm : Unfired m) (next : Option Nat) (r o edge : Nat) (h : Offline m s t) :
    Offline m s (match next with
      | some n => t.withhold r n
      | none => t.commitOff r o edge) := by
  cases next with
  | none => exact h.commitOff hm _ _ _
  | some n => exact h.withhold hm _ _

theorem closeTimedRun (hm : Unfired m) (f : Fire) (h : Offline m s t) : Offline m s (t.closeTimedRun f) := by
  unfold Dev.closeTimedRun
  dsimp only
  split
  · exact h
  · exact h.closeAt hm _ _ _ _

theorem evalOn (hm : Unfired m) (f : Fire) (h : Offline m s t) : Offline m s (t.evalOn f) := by
  unfold Dev.evalOn
  split
  · exact h
  · split
    · exact h
    · split
      · exact (h.missOn hm f).dropFire hm f
      · have hcommit (x : List Fire) (edge : Nat) := (h.fires hm x).commitTick hm edge true f.out
        dsimp only
        split
        · exact (hcommit _ _).closeTimedRun hm f
        · exact hcommit _ _

theorem lateIf (hm : Unfired m) (late : Bool) (o : Nat) (h : Offline m s t) : Offline m s (if late then t.lateOff o else t) := by
  cases late with
  | false => exact h
  | true => exact h.lateOff hm o

theorem evalOff (hm : Unfired m) (f : Fire) (h : Offline m s t) : Offline m s (t.evalOff f) := by
  unfold Dev.evalOff
  dsimp only
  split
  · exact h
  · generalize t.leadOf f.offPos f.out = lead
    cases lead with
    | none => exact h
    | some l =>
      dsimp only
      split
      · exact h
      · exact (h.lateIf hm _ _).closeAt hm _ _ _ _

theorem evalEvent (hm : Unfired m) (ev : Fire × Bool) (h : Offline m s t) : Offline m s (t.evalEvent ev) := by
  unfold Dev.evalEvent
  split
  · exact h
  · split
    · split
      · exact h.evalOn hm _
      · exact h
    · exact h.evalOff hm _

theorem forceOff (hm : Unfired m) (r : Nat × Nat × Nat) (h : Offline m s t) : Offline m s (t.forceOff r) := by
  unfold Dev.forceOff
  dsimp only
  refine foldl _ (((h.commitOff hm _ _ _).wr _ _ (by decide)).tally hm.quiet _ _ _ _ _) fun d f => ?_
  have hpart (g : Part → Part) := (refl m d).updPart hm f.part g
  split
  · exact (hpart _).fires hm _
  · exact hpart _

theorem releaseOff (hm : Unfired m) (r : Nat × Nat) (h : Offline m s t) : Offline m s (t.releaseOff r) := by
  unfold Dev.releaseOff
  dsimp only
  split
  · exact (h.lateOff hm _).commitOff hm _ _ _
  · exact h.commitOff hm _ _ _

theorem evaluate (hm : Unfired m) (h : Offline m s t) : Offline m s t.evaluate := by
  have hforced : Offline m s (t.forcedRuns.foldl (fun d r => d.forceOff r) t) := h.foldl _ fun d r => (refl m d).forceOff hm r
  unfold Dev.evaluate
  generalize t.forcedRuns.foldl (fun d r => d.forceOff r) t = u at hforced ⊢
  have hreleased : Offline m s (u.releasedRuns.foldl (fun d r => d.releaseOff r) u) := hforced.foldl _ fun d r => (refl m d).releaseOff hm r
  dsimp only
  split
  · exact hreleased
  · exact hreleased.foldl _ fun d e => (refl m d).evalEvent hm e

theorem disarmEntries (hm : Unfired m) (h : Offline m s t) : Offline m s t.disarmEntries :=
  h.foldl _ fun d f => ((refl m d).updPart hm f.part _).dropFire hm f

theorem queueFull (hm : Unfired m) (p : Part) (want : Nat) (h : Offline m s t) : Offline m s (t.queueFull p want) := by
  have hfull : Offline m s ((t.setFlag .SEP_STAT_QFULL 0 true).driveStop) := (h.setFlag _ 0 true (by decide)).setFlag .SEP_STAT_LSTOP 0 true (by decide)
  unfold Dev.queueFull
  generalize (t.setFlag .SEP_STAT_QFULL 0 true).driveStop = u at hfull ⊢
  have hnoted : Offline m s (if bit p.flags 0 then u
      else ((u.observe 147).tally 0x0044 p.lane p.id u.fires.length).updPart p.id fun q => { q with flags := q.flags ||| 1 }) := by
    split
    · exact hfull
    · exact ((hfull.observe hm.quiet 147 1).tally hm.quiet _ _ _ _ _).updPart hm _ _
  dsimp only
  generalize (if bit p.flags 0 then u
      else ((u.observe 147).tally 0x0044 p.lane p.id u.fires.length).updPart p.id fun q => { q with flags := q.flags ||| 1 }) = v at hnoted ⊢
  split
  · exact hnoted
  · refine hnoted.foldl _ fun d o => ?_
    split
    · split
      · exact (refl m d).missOn hm _
      · exact refl m d
    · exact refl m d

theorem alignPart (hm : Unfired m) (id : Nat) (h : Offline m s t) : Offline m s (t.alignPart id) := by
  unfold Dev.alignPart
  split
  · exact h
  · rename_i p _
    dsimp only
    split
    · exact h
    · have hdrop (l : List Fire) : Offline m s (l.foldl (fun (d : Dev) (f : Fire) => d.dropFire f) t) :=
        h.foldl _ fun d f => (refl m d).dropFire hm f
      have hu := hdrop ((t.entriesOf id).filter fun (f : Fire) => f.onEdge.isNone && !bit (t.selected p) f.out)
      generalize List.foldl (fun (d : Dev) (f : Fire) => d.dropFire f) t _ = u at hu ⊢
      split
      · exact hu
      · split
        · exact hu.queueFull hm _ _
        · exact (hu.foldl _ fun d o => (refl m d).addFire hm _).updPart hm _ _

theorem fireTick (hm : Unfired m) (h : Offline m s t) : Offline m s t.fireTick := by
  have harmed := h.wr (f := .SEP_STAT_ARMED) 0 (t.flag .SEP_CTL_ARM).toNat (by decide)
  unfold Dev.fireTick
  dsimp only
  rw [← Dev.setFlag_eq] at harmed
  generalize t.setFlag .SEP_STAT_ARMED 0 (t.flag .SEP_CTL_ARM) = u at harmed ⊢
  split
  · have halign : Offline m s ((u.parts.map fun (p : Part) => p.id).foldl (fun (d : Dev) id => d.alignPart id) u) :=
      harmed.foldl _ fun d id => (refl m d).alignPart hm id
    exact Offline.evaluate hm (halign.wr 0 _ (by decide))
  · exact (harmed.disarmEntries hm).evaluate hm

end Dev.Offline

/-! ### What an estimate tick leaves to the clock and the estimator -/

/-- The clock's count, the latest tick, and the estimator. -/
def Dev.ticked (s : Dev) : Nat × Nat × Estimator := (s.xclk, s.tickAt, s.est)

theorem Dev.unfired_ticked : Unfired Dev.ticked := ⟨fun _ _ h => (congrArg Dev.ticked h :), fun _ _ _ => rfl⟩

theorem Dev.unfired_mem : Unfired Dev.mem := ⟨fun _ _ h => (congrArg Dev.mem h :), fun _ _ _ => rfl⟩

theorem Dev.unfired_partCount : Unfired fun d => d.parts.length :=
  ⟨fun _ _ h => (congrArg (fun d : Dev => d.parts.length) h :), fun _ _ _ => List.length_map ..⟩

theorem Dev.Offline.mem_eq {s t : Dev} (h : Offline Dev.mem s t) : t.mem = s.mem := h.same

theorem Dev.unmoved_ticked : Unmoved Dev.ticked := fun _ _ h => (congrArg Dev.ticked h :)

theorem Dev.unmoved_mem : Unmoved Dev.mem := fun _ _ h => (congrArg Dev.mem h :)

theorem presenceFields_offline : ∀ e ∈ presenceFields, 10 ≤ e.1.ctorIdx := by decide

namespace Dev.Offline

variable {α : Type} {m : Dev → α} {s t : Dev}

theorem switchIfReached (hm : Unmoved m) (h : Offline m s t) : Offline m s t.switchIfReached :=
  h.within ((Within.refl _ _ t).switchIfReached hm) presenceFields_offline

theorem retireSlots (hm : Unmoved m) (h : Offline m s t) : Offline m s t.retireSlots :=
  h.within ((Within.refl _ _ t).retireSlots hm) presenceFields_offline

theorem parts (hm : ∀ d x, m { d with parts := x } = m d) (x : List Part) (h : Offline m s t) : Offline m s { t with parts := x } :=
  h.step rfl rfl rfl (hm t.rest x)

theorem retire (k : Nat) (h : Offline Dev.ticked s t) : Offline Dev.ticked s (t.retire k) :=
  h.within ((Within.refl [(.JOB_Q_TAIL, 8)] Dev.ticked t).retire k (by simp) fun _ _ _ _ => rfl) (by decide)

theorem markReversed (hm : ∀ d x, m { d with parts := x } = m d) (pos : Nat) (h : Offline m s t) : Offline m s (t.markReversed pos) := by
  unfold Dev.markReversed
  split
  · exact h.parts hm _
  · exact h

theorem logVerdict (p : Part) (h : Offline Dev.ticked s t) : Offline Dev.ticked s (t.logVerdict p) := by
  have hput (a : Nat) (bs : List Byte) : Offline Dev.ticked s (t.putBytes a bs) :=
    h.within ((Within.refl [] _ t).putBytes a bs fun _ _ => rfl) (by simp)
  unfold Dev.logVerdict
  dsimp only
  split
  · exact ((hput _ _).wr 0 _ (by decide)).wr 0 _ (by decide)
  · exact (hput _ _).wr 0 _ (by decide)

theorem leavePart (p : Part) (h : Offline Dev.ticked s t) : Offline Dev.ticked s (t.leavePart p) :=
  ((h.logVerdict p).parts (fun _ _ => rfl) _).retire _

theorem storeSample (r c : Nat) (p : Part) (cs : List RingCopy) (h : Offline Dev.ticked s t) : Offline Dev.ticked s (t.storeSample r c p cs) := by
  have hput {u : Dev} (hu : Offline Dev.ticked s u) (a : Nat) (bs : List Byte) : Offline Dev.ticked s (u.putBytes a bs) :=
    hu.within ((Within.refl [] _ u).putBytes a bs fun _ _ => rfl) (by simp)
  have hrule (x : Rule) : Offline Dev.ticked s (t.setRule r x) := h.step rfl rfl rfl rfl
  have hcap {u : Dev} (hu : Offline Dev.ticked s u) (n : Nat) : Offline Dev.ticked s (u.useCap n) := hu.step rfl rfl rfl rfl
  have hstored {u : Dev} (hu : Offline Dev.ticked s u) (n used free : Nat) :
      Offline Dev.ticked s { (u.wr .TCH_LIB_CNT 0 n).count .TCH_CAP_CNT with libUsed := used, free := free } :=
    ((hu.wr 0 n (by decide)).count .TCH_CAP_CNT 0 (by decide)).step rfl rfl rfl rfl
  unfold Dev.storeSample
  dsimp only
  split
  · exact (h.setFlag .TCH_STAT_LIBFULL 0 true (by decide)).tally unfired_ticked.quiet _ _ _ _ _
  · exact hstored (hcap (hput (hput (hrule _) _ _) _ _) _) _ _ _

theorem takeSample (r : Nat) (p : Part) (h : Offline Dev.ticked s t) : Offline Dev.ticked s (t.takeSample r p) := by
  unfold Dev.takeSample
  dsimp only
  split
  · exact (h.count .TCH_CAPMISS_CNT 0 (by decide)).setFlag .TCH_STAT_CAPMISS 0 true (by decide)
  · exact h.storeSample _ _ _ _

theorem capturePart (p : Part) (h : Offline Dev.ticked s t) : Offline Dev.ticked s (t.capturePart p) := by
  refine h.foldl _ fun d r => ?_
  have hrule (x : Rule) : Offline Dev.ticked d (d.setRule r x) := (refl _ d).step rfl rfl rfl rfl
  dsimp only
  split
  · exact refl _ d
  · split
    · exact hrule _
    · exact (hrule _).takeSample _ _

theorem leaveParts (h : Offline Dev.ticked s t) : Offline Dev.ticked s t.leaveParts :=
  h.foldl _ fun d p => ((refl _ d).leavePart p).capturePart p

theorem separatorTick (pos : Nat) (h : Offline Dev.ticked s t) : Offline Dev.ticked s (t.separatorTick pos) := by
  have hswitch := h.switchIfReached unmoved_ticked
  unfold Dev.separatorTick
  split
  · exact hswitch.retireSlots unmoved_ticked
  · have hexpire := (hswitch.markReversed (fun _ _ => rfl) pos).parts (fun _ _ => rfl)
      ((t.switchIfReached.markReversed pos).parts.map fun p =>
        if !p.dead && (t.switchIfReached.markReversed pos).pastDeadline p then p.expire else p)
    exact ((hexpire.fireTick unfired_ticked).leaveParts).retireSlots unmoved_ticked

/-! ### Saves whose cheap point does not come (R194) -/

theorem holdSlot (k job piece chn : Nat) (cheap : Bool) (h : Offline m s t) : Offline m s (t.holdSlot k job piece chn cheap) := by
  have hnamed : Offline m s ((t.wr .JOB_SLOT_JOB k job).wr .JOB_SLOT_ST_PIECE k piece) := (h.wr k _ (by decide)).wr k _ (by decide)
  unfold Dev.holdSlot
  dsimp only
  generalize (t.wr .JOB_SLOT_JOB k job).wr .JOB_SLOT_ST_PIECE k piece = u at hnamed ⊢
  have hkind : Offline m s ((u.wr .JOB_SLOT_ST_CHN k chn).setFlag .JOB_SLOT_ST_CHEAP k cheap) :=
    (hnamed.wr k _ (by decide)).setFlag _ k _ (by decide)
  generalize (u.wr .JOB_SLOT_ST_CHN k chn).setFlag .JOB_SLOT_ST_CHEAP k cheap = v at hkind ⊢
  have hflags (b : Bool) : Offline m s ((v.setFlag .JOB_SLOT_ST_FLT k false).setFlag .JOB_SLOT_ST_RECOV k b) :=
    (hkind.setFlag _ k _ (by decide)).setFlag _ k _ (by decide)
  have hnote {w : Dev} (hw : Offline m s w) : Offline m s w.noteRecovery := hw.setFlag .JOB_STAT_RECOV 0 _ (by decide)
  exact hnote ((hflags _).wr (f := .JOB_SLOT_ST_STATE) k 1 (by decide))

theorem beginSave (n k : Nat) (cheap : Option (List (Nat × Nat))) (h : Offline Dev.ticked s t) : Offline Dev.ticked s (t.beginSave n k cheap) := by
  unfold Dev.beginSave
  cases hr : t.resident n with
  | none => simpa only [hr] using h
  | some r =>
    have hheld (job piece : Nat) := h.holdSlot k job piece n cheap.isSome
    have hzero {u : Dev} (hu : Offline Dev.ticked s u) (a len : Nat) : Offline Dev.ticked s (u.zeroBytes a len) := hu.step rfl rfl rfl rfl
    have hset {u : Dev} (hu : Offline Dev.ticked s u) (x : Option Resident) : Offline Dev.ticked s (u.setResident n x) := hu.step rfl rfl rfl rfl
    exact hset ((hzero (hheld _ _) _ _).traceNote unfired_ticked.quiet _ _ _) _

theorem expireCheap (h : Offline Dev.ticked s t) : Offline Dev.ticked s t.expireCheap := by
  refine h.foldl _ fun d n => ?_
  have hset (x : Option Resident) : Offline Dev.ticked d (d.setResident n x) := (refl _ d).step rfl rfl rfl rfl
  generalize d.resident n = x
  cases x with
  | none => exact refl _ d
  | some r =>
    dsimp only
    split
    · split
      · generalize d.freeSlot = free
        cases free with
        | none => exact hset _
        | some k => exact (refl _ d).beginSave _ _ _
      · exact refl _ d
    · exact refl _ d

end Dev.Offline

/-- No context waits for its cheap point. -/
def Dev.noneWaits (s : Dev) : Prop := ((upTo 16).all fun n => (s.resident n).all fun r => r.cheapWait.isNone) = true

theorem Dev.expireCheap_none {s : Dev} (h : s.noneWaits) : s.expireCheap = s := by
  refine foldl_fixed fun n hn => ?_
  have hn := List.all_eq_true.1 h n hn
  cases hr : s.resident n with
  | none => rfl
  | some r =>
    rw [hr] at hn
    have hwait : r.cheapWait = none := by simpa using hn
    simp only [hwait]

/-! ### A tick without parts -/

theorem Dev.activate_parts (s : Dev) (k : Nat) : (s.activate k).parts = s.parts := by
  simp only [activate, setSlot_parts, apply_ite Dev.parts, wr_parts, ite_self]

theorem Dev.switchIfReached_parts (s : Dev) : s.switchIfReached.parts = s.parts := by
  have htake : s.takeSwitch.parts = s.parts := by
    unfold takeSwitch
    split
    · rfl
    · exact (foldl_keeps Dev.parts (fun d k _ => d.retire_parts k) _).trans (activate_parts ..)
  unfold switchIfReached
  cases s.slotNext with
  | none => rfl
  | some e =>
    dsimp only
    split
    · exact htake
    · rfl

theorem Dev.retireSlots_mem (s : Dev) : s.retireSlots.mem = s.mem :=
  ((Offline.refl Dev.mem s).retireSlots unmoved_mem).mem_eq

/-- Where there is no part, a tick of the Separator writes nothing to memory. -/
theorem Dev.separatorTick_mem {s : Dev} (h : s.parts = []) (pos : Nat) : (s.separatorTick pos).mem = s.mem := by
  have hswitch : s.switchIfReached.mem = s.mem := ((Offline.refl Dev.mem s).switchIfReached unmoved_mem).mem_eq
  have hparts : s.switchIfReached.parts = [] := s.switchIfReached_parts.trans h
  unfold separatorTick
  split
  · exact (retireSlots_mem _).trans hswitch
  · refine (retireSlots_mem _).trans (Eq.trans ?_ hswitch)
    generalize s.switchIfReached = u at hparts
    have hmark : (u.markReversed pos).expireParts.mem = u.mem ∧ (u.markReversed pos).expireParts.parts = [] := by
      unfold markReversed
      split
      · exact ⟨rfl, by simp [expireParts, applyMark, hparts]⟩
      · exact ⟨rfl, by simp [expireParts, hparts]⟩
    obtain ⟨hmem, hnone⟩ := hmark
    generalize (u.markReversed pos).expireParts = v at hmem hnone
    have hfire : v.fireTick.mem = v.mem := ((Offline.refl Dev.mem v).fireTick unfired_mem).mem_eq
    have hcount : v.fireTick.parts.length = v.parts.length := ((Offline.refl (fun d => d.parts.length) v).fireTick unfired_partCount).same
    have hgone : v.fireTick.leaveParts = v.fireTick := by
      have hnil : v.fireTick.parts = [] := List.eq_nil_of_length_eq_zero (hcount.trans (by rw [hnone]; rfl))
      have hleavers : v.fireTick.leavers = [] := by rw [leavers, hnil]; rfl
      rw [leaveParts, hleavers]; rfl
    rw [hgone, hfire, hmem]

/-! ### The log (R22, R23) -/

/-- Bytes that are written as a part of a longer span read as they are. -/
theorem Dev.leRead_putBytes_mid (s : Dev) (a : Nat) (xs zs : List Byte) (v len : Nat)
    (hok : ∀ i < xs.length + len + zs.length, dpaOk (a + i) = true) :
    (s.putBytes a (xs ++ (leBytes v len ++ zs))).leRead (a + xs.length) len = v % 256 ^ len := by
  have hlen := length_leBytes v len
  have hbytes : (s.putBytes a (xs ++ (leBytes v len ++ zs))).bytesAt (a + xs.length) (leBytes v len).length = leBytes v len :=
    bytesAt_of_byteAt fun i hi => by
      have hat := s.byteAt_putBytes_in a (xs ++ (leBytes v len ++ zs)) (xs.length + i) (by simp; omega) (hok _ (by omega))
      rw [Nat.add_assoc, hat, List.getElem_append_right (by omega), List.getElem_append_left (by omega)]
      congr 1
      omega
  rw [hlen] at hbytes
  rw [leRead, hbytes, ofLe_leBytes]

section
variable (u : Dev) (pos : Nat)

/-- The index and the sequence number of the next entry, and its place. -/
def Dev.logIndex : Nat := if u.flag .ENC_MSTAT_LOGV then wrap 16 (u.rd .ENC_LOG_WR_IDX + 1) else 0
def Dev.logSeq : Nat := if u.flag .ENC_MSTAT_LOGV then wrap 16 (u.rd .ENC_LOG_WR_SEQ + 1 + u.ticksMissed) else 0
def Dev.logPlace : Nat := logBase + 16 * u.logIndex

/-- The flags byte of the next entry. -/
def Dev.logFlags : Nat :=
  u.rd .ENC_MSTAT_DIR + 2 * u.rd .ENC_MSTAT_STOP + 4 * u.rd .ENC_MSTAT_SPDV + 8 * (decide (0 < u.ticksMissed)).toNat

theorem Dev.logIndex_lt : u.logIndex < 2 ^ 16 := by
  unfold logIndex
  split
  · exact Nat.mod_lt _ (by decide)
  · decide

theorem Dev.logSeq_lt : u.logSeq < 2 ^ 16 := by
  unfold logSeq
  split
  · exact Nat.mod_lt _ (by decide)
  · decide

theorem Dev.logPlace_ok : ∀ i < 16, dpaOk (u.logPlace + i) = true := fun i hi => dpaOk_vat (by
  have := u.logIndex_lt
  unfold logPlace logBase vatSize
  omega)

/-- The gap bit stands above the three flags of the line master. -/
theorem Dev.logFlags_gap : u.logFlags < 256 ∧ u.logFlags.testBit 3 = decide (0 < u.ticksMissed) := by
  have hdir := u.rd_lt .ENC_MSTAT_DIR 0
  have hstop := u.rd_lt .ENC_MSTAT_STOP 0
  have hspd := u.rd_lt .ENC_MSTAT_SPDV 0
  change _ < 2 ^ 1 at hdir hstop hspd
  unfold logFlags
  generalize u.rd .ENC_MSTAT_DIR = a at *
  generalize u.rd .ENC_MSTAT_STOP = b at *
  generalize u.rd .ENC_MSTAT_SPDV = c at *
  cases decide (0 < u.ticksMissed)
  all_goals
    refine ⟨by simp; omega, ?_⟩
    rw [Nat.testBit_eq_decide_div_mod_eq]
    simp
    omega

/-- The state in which the next entry stands in memory. -/
def Dev.logged : Dev := u.putBytes u.logPlace (u.logEntry pos (decide (0 < u.ticksMissed)) u.logSeq)

theorem Dev.logged_reads :
    (u.logged pos).leRead u.logPlace 8 = wrap 64 pos ∧ (u.logged pos).leRead (u.logPlace + 8) 5 = u.ns40 ∧
      (u.logged pos).leRead (u.logPlace + 14) 2 = u.logSeq ∧
      ((u.logged pos).leRead (u.logPlace + 13) 1).testBit 3 = decide (0 < u.ticksMissed) ∧
      ∀ k, k < u.logPlace ∨ u.logPlace + 16 ≤ k → (u.logged pos).byteAt k = u.byteAt k := by
  have hok := u.logPlace_ok
  obtain ⟨hflags, hgap⟩ := u.logFlags_gap
  have hentry : u.logEntry pos (decide (0 < u.ticksMissed)) u.logSeq =
      leBytes pos 8 ++ (leBytes u.ns40 5 ++ (leBytes u.logFlags 1 ++ leBytes u.logSeq 2)) := by
    simp only [logEntry, logFlags, List.append_assoc]
  have hlen : (u.logEntry pos (decide (0 < u.ticksMissed)) u.logSeq).length = 16 := by rw [hentry]; simp [length_leBytes]
  refine ⟨?_, ?_, ?_, ?_, fun k hk => u.byteAt_putBytes_out _ _ (by rw [hlen]; exact hk)⟩
  · have h := u.leRead_putBytes_mid u.logPlace [] (leBytes u.ns40 5 ++ (leBytes u.logFlags 1 ++ leBytes u.logSeq 2)) pos 8
      (by simpa [length_leBytes] using hok)
    rw [logged, hentry]; exact h
  · have h := u.leRead_putBytes_mid u.logPlace (leBytes pos 8) (leBytes u.logFlags 1 ++ leBytes u.logSeq 2) u.ns40 5
      (by simpa [length_leBytes] using hok)
    rw [length_leBytes] at h
    rw [logged, hentry, h]
    exact Nat.mod_eq_of_lt (Nat.mod_lt _ (by decide))
  · have h := u.leRead_putBytes_mid u.logPlace (leBytes pos 8 ++ (leBytes u.ns40 5 ++ leBytes u.logFlags 1)) [] u.logSeq 2
      (by simpa [length_leBytes] using hok)
    rw [List.length_append, List.length_append, length_leBytes, length_leBytes, length_leBytes] at h
    rw [logged, hentry]
    simp only [List.append_assoc, List.append_nil] at h
    rw [h]
    exact Nat.mod_eq_of_lt u.logSeq_lt
  · have h := u.leRead_putBytes_mid u.logPlace (leBytes pos 8 ++ leBytes u.ns40 5) (leBytes u.logSeq 2) u.logFlags 1
      (by simpa [length_leBytes] using hok)
    rw [List.length_append, length_leBytes, length_leBytes] at h
    rw [logged, hentry]
    simp only [List.append_assoc] at h
    rw [h, Nat.pow_one, Nat.mod_eq_of_lt hflags]
    exact hgap

/-- The fields that name the entry. -/
def Dev.logNamed (d : Dev) (idx seq : Nat) : Dev := (((d.wr .ENC_LOG_WR_IDX 0 idx).wr .ENC_LOG_WR_SEQ 0 seq).setFlag .ENC_MSTAT_LOGV 0 true)

theorem Dev.writeLog_eq : u.writeLog pos = (u.logged pos).logNamed u.logIndex u.logSeq := rfl

end

/-- The fields that a log entry changes. -/
def logEntryFields : List (Field × Nat) := [(.ENC_LOG_WR_IDX, 0), (.ENC_LOG_WR_SEQ, 0), (.ENC_MSTAT_LOGV, 0)]

theorem Dev.logNamed_reads (d : Dev) {idx seq : Nat} (hidx : idx < 2 ^ 16) (hseq : seq < 2 ^ 16) :
    Within logEntryFields id d (d.logNamed idx seq) ∧ (d.logNamed idx seq).rd .ENC_LOG_WR_IDX = idx ∧ (d.logNamed idx seq).rd .ENC_LOG_WR_SEQ = seq ∧
      (d.logNamed idx seq).flag .ENC_MSTAT_LOGV = true := by
  refine ⟨?_, ?_, ?_, flag_wr_toNat _ .ENC_MSTAT_LOGV 0 true (by decide)⟩
  · exact (((Within.refl _ _ d).wr idx (by decide) (by simp [logEntryFields])).wr seq (by decide) (by simp [logEntryFields])).setFlag true
      (by decide) (by simp [logEntryFields])
  · exact (Dev.rd_wr_field _ _ _ _ _ _ (by decide) (by decide) (by decide)).trans
      ((Dev.rd_wr_field _ _ _ _ _ _ (by decide) (by decide) (by decide)).trans ((Dev.rd_wr ..).trans (wrap_of_lt hidx)))
  · exact (Dev.rd_wr_field _ _ _ _ _ _ (by decide) (by decide) (by decide)).trans ((Dev.rd_wr ..).trans (wrap_of_lt hseq))

/-! ### The estimator (R19, R20, R237) -/

/-- What the module holds beside the estimator and the free values. -/
def Dev.butEst (s : Dev) : Dev := { s with est := {}, free := 0 }

/-- The fields that an estimate changes. -/
def estimateFields : List (Field × Nat) := [(.ENC_SPEED, 0), (.ENC_ACCEL, 0), (.ENC_MSTAT_SPDV, 0), (.ENC_MSTAT_STOP, 0)]

section
variable {l : List (Field × Nat)} {s t : Dev}

theorem Dev.Within.est (h : Within l butEst s t) (e : Estimator) : Within l butEst s { t with est := e } := h.step rfl rfl rfl rfl

theorem Dev.Within.noteStop {α : Type} {m : Dev → α} (h : Within l m s t) (hl : (.ENC_MSTAT_STOP, 0) ∈ l) : Within l m s t.noteStop :=
  h.setFlag _ (by decide) hl

theorem Dev.Within.putSigned (h : Within l butEst s t) {f : Field} (w : Nat) (z : Int) (hl : (f, 0) ∈ l) :
    Within l butEst s (t.putSigned f 0 w z) := by
  unfold Dev.putSigned
  split
  · exact h.wr _ (by decide) hl
  · exact (h.wr _ (by decide) hl).step rfl rfl rfl rfl

end

@[simp] theorem Dev.noteStop_est (s : Dev) : s.noteStop.est = s.est := Dev.wr_est ..

/-- The estimator after a tick at a position: its history and the position of the tick. -/
theorem Dev.estimate_est (s : Dev) (pos : Nat) : (s.estimate pos).est = (s.est.tick (s.rd .ENC_EST_CFG) pos).1 := by
  have hput (d : Dev) (f : Field) (w : Nat) (z : Int) : (d.putSigned f 0 w z).est = d.est := by
    unfold putSigned
    split
    · exact Dev.wr_est ..
    · exact Dev.wr_est ..
  unfold estimate
  dsimp only
  split
  · rw [noteStop_est, setFlag, Dev.wr_est, hput, hput]
  · rw [noteStop_est]

theorem Dev.estimate_within (s : Dev) (pos : Nat) : Within estimateFields butEst s (s.estimate pos) := by
  have hest := (Within.refl estimateFields butEst s).est (s.est.tick (s.rd .ENC_EST_CFG) pos).1
  unfold estimate
  dsimp only
  split
  · exact (((hest.putSigned 48 _ (by simp [estimateFields])).putSigned 48 _ (by simp [estimateFields])).setFlag true (by decide)
      (by simp [estimateFields])).noteStop (by simp [estimateFields])
  · exact hest.noteStop (by simp [estimateFields])

/-- The speed over the window that ends with a tick at a position. -/
def Dev.windowSpeed (s : Dev) (pos : Nat) : Int :=
  perSecond (sdiff pos (s.est.ps.getD (min (2 ^ s.rd .ENC_EST_CFG) (s.est.k + 1) - 1) pos)) (min (2 ^ s.rd .ENC_EST_CFG) (s.est.k + 1))

theorem Dev.estimate_speed {s : Dev} {pos : Nat} (hk : 1 ≤ s.est.k) (hfits : fitsS 48 (s.windowSpeed pos) = true) :
    (s.estimate pos).flag .ENC_MSTAT_SPDV = true ∧ (s.estimate pos).rd .ENC_SPEED = unsgn 64 (s.windowSpeed pos) := by
  have hput (d : Dev) : (d.putSigned .ENC_SPEED 0 48 (s.windowSpeed pos)).rd .ENC_SPEED = unsgn 64 (s.windowSpeed pos) := by
    rw [putSigned, if_pos hfits]
    exact (Dev.rd_wr ..).trans (wrap_of_lt (unsgn_lt ..))
  unfold estimate
  dsimp only
  have hticks : 2 ≤ (s.est.tick (s.rd .ENC_EST_CFG) pos).1.k := Nat.succ_le_succ hk
  rw [if_pos hticks]
  have haccel (d : Dev) (a : Int) : Within [(.ENC_ACCEL, 0)] butEst d (d.putSigned .ENC_ACCEL 0 48 a) := (Within.refl _ _ d).putSigned 48 a (by simp)
  have hset (d : Dev) : (d.setFlag .ENC_MSTAT_SPDV 0 true).flag .ENC_MSTAT_SPDV = true := d.flag_wr_toNat .ENC_MSTAT_SPDV 0 true (by decide)
  have hspdv (d : Dev) : Within [(.ENC_MSTAT_SPDV, 0), (.ENC_MSTAT_STOP, 0)] butEst d ((d.setFlag .ENC_MSTAT_SPDV 0 true).noteStop) :=
    ((Within.refl _ _ d).setFlag true (by decide) (by simp)).noteStop (by simp)
  have hstop (d : Dev) : Within [(.ENC_MSTAT_STOP, 0)] butEst d d.noteStop := (Within.refl _ _ d).noteStop (by simp)
  refine ⟨((hstop _).flag (by decide) (by simp)).trans (hset _), ?_⟩
  exact ((hspdv _).rd (by decide) (by simp)).trans (((haccel _ _).rd (by decide) (by simp)).trans (hput _))

/-- The first tick estimates no speed yet. -/
theorem Dev.estimate_first {s : Dev} (pos : Nat) (hk : s.est.k = 0) : Within [(.ENC_MSTAT_STOP, 0)] butEst s (s.estimate pos) := by
  unfold estimate
  dsimp only
  have hticks : ¬ 2 ≤ (s.est.tick (s.rd .ENC_EST_CFG) pos).1.k := by change ¬ 2 ≤ s.est.k + 1; omega
  rw [if_neg hticks]
  exact ((Within.refl _ _ s).est _).noteStop (by simp)

theorem Dev.followTick_within (s : Dev) (pos : Nat) : Within [(.ENC_MSTAT_STOP, 0)] butEst s (s.followTick pos) :=
  ((Within.refl _ _ s).est _).noteStop (by simp)

/-! ### The tick (R17) -/

theorem exec_estimateTick (s : State) : exec .estimateTick s = s.run .estimateTick fun d => d.estimateTick := rfl

/-- The state in which the tick estimates: its entry is written. -/
def Dev.tickLogged (u : Dev) (pos : Nat) : Dev := { u.writeLog pos with tickAt := u.xclk }

/-- The state after the estimates. -/
def Dev.tickEstimated (u : Dev) (pos : Nat) : Dev :=
  if (u.tickLogged pos).worker then (u.tickLogged pos).followTick pos else (u.tickLogged pos).estimate pos

theorem Dev.estimateTick_live {s : Dev} (h : (s.advanceTo 4000 s.tickAt).live = true) :
    s.estimateTick = ((((s.advanceTo 4000 s.tickAt).tickEstimated (s.advanceTo 4000 s.tickAt).lmPos).refreshKeys.expireCheap).separatorTick
      (s.advanceTo 4000 s.tickAt).lmPos) := if_neg (by simp [h])

/-- What the module holds beside its memory and the count of the latest tick. -/
def Dev.butTick (s : Dev) : Dev := { s with mem := [], tickAt := 0 }

section
variable (u : Dev) (pos : Nat)

theorem Dev.tickLogged_reads :
    Within logEntryFields butTick u (u.tickLogged pos) ∧ (u.tickLogged pos).rd .ENC_LOG_WR_IDX = u.logIndex ∧
      (u.tickLogged pos).rd .ENC_LOG_WR_SEQ = u.logSeq ∧ (u.tickLogged pos).flag .ENC_MSTAT_LOGV = true ∧
      (u.tickLogged pos).mem = (u.logged pos).mem ∧ (u.tickLogged pos).tickAt = u.xclk := by
  obtain ⟨hnamed, hidx, hseq, hvalid⟩ := (u.logged pos).logNamed_reads u.logIndex_lt u.logSeq_lt
  have hput : Within logEntryFields butTick u (u.logged pos) := (Within.refl _ _ u).putBytes _ _ fun _ _ => rfl
  have heq : u.tickLogged pos = { (u.logged pos).logNamed u.logIndex u.logSeq with tickAt := u.xclk } := rfl
  rw [heq]
  generalize u.logged pos = v at hnamed hidx hseq hvalid hput ⊢
  have hmem : (v.logNamed u.logIndex u.logSeq).mem = v.mem := (hnamed.any Dev.mem).same
  generalize v.logNamed u.logIndex u.logSeq = w at hnamed hidx hseq hvalid hmem ⊢
  exact ⟨(hput.trans (hnamed.any butTick)).step rfl rfl rfl rfl, hidx, hseq, hvalid, hmem, rfl⟩

end

theorem Dev.worker_of_rd {s t : Dev} (h : t.rd .HRD_CTL_ROLE = s.rd .HRD_CTL_ROLE) : t.worker = s.worker := by simp only [worker, h]

theorem Dev.tickLogged_worker (u : Dev) (pos : Nat) : (u.tickLogged pos).worker = u.worker :=
  worker_of_rd ((u.tickLogged_reads pos).1.rd (by decide) (by decide))

theorem Dev.tickEstimated_worker {u : Dev} (pos : Nat) (h : u.worker = true) : u.tickEstimated pos = (u.tickLogged pos).followTick pos :=
  if_pos ((u.tickLogged_worker pos).trans h)

theorem Dev.tickEstimated_manager {u : Dev} (pos : Nat) (h : u.worker = false) : u.tickEstimated pos = (u.tickLogged pos).estimate pos :=
  if_neg (by rw [u.tickLogged_worker pos, h]; decide)

theorem Dev.tickEstimated_within (u : Dev) (pos : Nat) : Within estimateFields butEst (u.tickLogged pos) (u.tickEstimated pos) := by
  cases hw : u.worker with
  | true =>
    rw [tickEstimated_worker pos hw]
    exact ((u.tickLogged pos).followTick_within pos).mono (by simp [estimateFields])
  | false =>
    rw [tickEstimated_manager pos hw]
    exact (u.tickLogged pos).estimate_within pos

/-- What the scheduler and the Separator do at a tick leaves the fields of the line master, the clock and the estimator. -/
theorem Dev.tickRest_offline (d : Dev) (pos : Nat) : Offline ticked d ((d.refreshKeys.expireCheap).separatorTick pos) :=
  (((Offline.refl ticked d).step (u := d.refreshKeys) rfl rfl rfl rfl).expireCheap).separatorTick pos

/-- An estimate tick, once time has come to it: what holds after the estimates of the fields of the line master, the clock and the
estimator, holds after the tick. -/
theorem completes_estimateTick {s : State} (hlive : (s.advanceTo 4000 s.tickAt).live = true) :
    Completes .estimateTick s fun t =>
      Dev.Offline Dev.ticked ((s.advanceTo 4000 s.tickAt).tickEstimated (s.advanceTo 4000 s.tickAt).lmPos) t.toDev := by
  have heff := Dev.estimateTick_live hlive
  have hrest := ((s.advanceTo 4000 s.tickAt).tickEstimated (s.advanceTo 4000 s.tickAt).lmPos).tickRest_offline (s.advanceTo 4000 s.tickAt).lmPos
  generalize (s.advanceTo 4000 s.tickAt).tickEstimated (s.advanceTo 4000 s.tickAt).lmPos = x at heff hrest
  refine .of_effect (exec_estimateTick s) rfl heff (hrest.trans ⟨fun f i _ _ => Dev.notify_rd .., ?_⟩)
  exact congrArg Dev.ticked (Dev.notify_rest ..)

section
variable {u t : Dev} {pos : Nat} (h : Dev.Offline Dev.ticked (u.tickEstimated pos) t)
include h

theorem Dev.Offline.est_eq : t.est = (u.tickEstimated pos).est := (congrArg (fun x => x.2.2) h.same :)

theorem Dev.Offline.clock_eq : t.xclk = u.xclk ∧ t.tickAt = u.xclk := by
  obtain ⟨hlog, -, -, -, -, htick⟩ := u.tickLogged_reads pos
  have hest := (u.tickEstimated_within pos).same
  have hxclk : (u.tickEstimated pos).xclk = (u.tickLogged pos).xclk := (congrArg Dev.xclk hest :)
  have htickAt : (u.tickEstimated pos).tickAt = (u.tickLogged pos).tickAt := (congrArg Dev.tickAt hest :)
  have hclock : (u.tickLogged pos).xclk = u.xclk := (congrArg Dev.xclk hlog.same :)
  have hsame : t.xclk = (u.tickEstimated pos).xclk := (congrArg (fun x => x.1) h.same :)
  have hsameAt : t.tickAt = (u.tickEstimated pos).tickAt := (congrArg (fun x => x.2.1) h.same :)
  exact ⟨hsame.trans (hxclk.trans hclock), hsameAt.trans (htickAt.trans htick)⟩

/-- The log's fields name the entry. -/
theorem Dev.Offline.log_eq : t.rd .ENC_LOG_WR_IDX = u.logIndex ∧ t.rd .ENC_LOG_WR_SEQ = u.logSeq ∧ t.flag .ENC_MSTAT_LOGV = true := by
  obtain ⟨-, hidx, hseq, hvalid, -, -⟩ := u.tickLogged_reads pos
  have hest := u.tickEstimated_within pos
  refine ⟨(h.line _ 0 (by decide) (by decide)).trans ((hest.rd (by decide) (by simp [estimateFields])).trans hidx),
    (h.line _ 0 (by decide) (by decide)).trans ((hest.rd (by decide) (by simp [estimateFields])).trans hseq), ?_⟩
  have hflag := (hest.flag (f := .ENC_MSTAT_LOGV) (i := 0) (by decide) (by simp [estimateFields])).trans hvalid
  simp only [Dev.flag, h.line .ENC_MSTAT_LOGV 0 (by decide) (by decide)] at hflag ⊢
  exact hflag

/-- A tick that estimates no speed leaves the fields of the line master but its log's and the stop. -/
theorem Dev.Offline.unestimated (hstop : Dev.Within [(.ENC_MSTAT_STOP, 0)] Dev.butEst (u.tickLogged pos) (u.tickEstimated pos)) {f : Field}
    (hf : f.ctorIdx < 10) (hne : (f, 0) ∉ [(Field.ENC_MSTAT_STOP, 0)]) (hlog : (f, 0) ∉ logEntryFields) : t.rd f = u.rd f :=
  (h.line f 0 hf (by decide)).trans ((hstop.rd (by decide) hne).trans ((u.tickLogged_reads pos).1.rd (by decide) hlog))

end

/-- A tick without parts and waiting contexts writes its entry to memory and nothing else. -/
theorem Dev.tickRest_mem {u : Dev} {pos : Nat} (hparts : u.parts = []) (hwait : u.noneWaits) :
    (((u.tickEstimated pos).refreshKeys.expireCheap).separatorTick pos).mem = (u.logged pos).mem := by
  obtain ⟨hlog, -, -, -, hmem, -⟩ := u.tickLogged_reads pos
  have hest := (u.tickEstimated_within pos).same
  have hestMem : (u.tickEstimated pos).mem = (u.tickLogged pos).mem := (congrArg Dev.mem hest :)
  have hestParts : (u.tickEstimated pos).parts = [] :=
    ((congrArg Dev.parts hest :) : (u.tickEstimated pos).parts = (u.tickLogged pos).parts).trans ((congrArg Dev.parts hlog.same :).trans hparts)
  have hchurns : (u.tickEstimated pos).churns = u.churns :=
    ((congrArg Dev.churns hest :) : (u.tickEstimated pos).churns = (u.tickLogged pos).churns).trans (congrArg Dev.churns hlog.same :)
  generalize u.tickEstimated pos = x at hestMem hestParts hchurns ⊢
  have hnone : x.refreshKeys.noneWaits := by
    have hres (n : Nat) : x.refreshKeys.resident n = u.resident n := congrArg Churn.ctx (churn_of_churns (t := x.refreshKeys) hchurns n)
    unfold noneWaits at hwait ⊢
    simpa only [hres] using hwait
  rw [expireCheap_none hnone]
  exact (separatorTick_mem (s := x.refreshKeys) hestParts pos).trans (hestMem.trans hmem)

theorem completes_tickLog {s : State} (hlive : (s.advanceTo 4000 s.tickAt).live = true) (hparts : (s.advanceTo 4000 s.tickAt).parts = [])
    (hwait : (s.advanceTo 4000 s.tickAt).noneWaits) :
    Completes .estimateTick s fun t => t.mem = ((s.advanceTo 4000 s.tickAt).logged (s.advanceTo 4000 s.tickAt).lmPos).mem := by
  have heff := Dev.estimateTick_live hlive
  have hmem := Dev.tickRest_mem (pos := (s.advanceTo 4000 s.tickAt).lmPos) hparts hwait
  generalize (((s.advanceTo 4000 s.tickAt).tickEstimated (s.advanceTo 4000 s.tickAt).lmPos).refreshKeys.expireCheap).separatorTick
    (s.advanceTo 4000 s.tickAt).lmPos = x at heff hmem
  exact .of_effect (exec_estimateTick s) rfl heff ((Dev.notify_mem ..).trans hmem)

/-- Where the XCLK count stands at the tick. -/
theorem Dev.tick_xclk {s : Dev} (hpow : s.power ≠ .off) :
    (s.advanceTo 4000 s.tickAt).xclk = if s.xclk % 4000 = 0 ∧ s.tickAt < s.xclk then s.xclk else s.xclk + (4000 - s.xclk % 4000) := by
  unfold advanceTo
  split
  · rfl
  · exact (later_advance _ hpow).2

theorem completes_tickClock {s : State} (hpow : s.power ≠ .off) :
    Completes .estimateTick s fun t =>
      t.xclk = (if s.xclk % 4000 = 0 ∧ s.tickAt < s.xclk then s.xclk else s.xclk + (4000 - s.xclk % 4000)) ∧
      ((s.advanceTo 4000 s.tickAt).live = true → t.tickAt = t.xclk) := by
  rw [← Dev.tick_xclk hpow]
  cases hlive : (s.advanceTo 4000 s.tickAt).live with
  | true =>
    refine (completes_estimateTick hlive).imp fun t ht => ?_
    obtain ⟨hx, hat⟩ := ht.clock_eq
    exact ⟨hx, fun _ => hat.trans hx.symm⟩
  | false =>
    have heff : s.estimateTick = s.advanceTo 4000 s.tickAt := if_pos (by simp [hlive])
    exact .of_effect (exec_estimateTick s) rfl heff ⟨Dev.notify_xclk .., fun h => absurd h (by simp)⟩

theorem Dev.tickPos_of_est {s : Dev} {pos : Nat} (h : s.est.tickPos = some pos) : s.tickPos = pos := by simp [tickPos, h]

/-- Settles O59: the entry is written where the log's fields then name it, the estimator takes the tick, and nothing that follows at the tick
reaches either. -/
theorem estimateTickLogsAndEstimates : Obligations.EstimateTickLogsAndEstimates := by
  intro s
  dsimp only
  generalize hu : s.advanceTo 4000 s.tickAt = u
  have hlogged := u.logged_reads u.lmPos
  have hest : (u.tickLogged u.lmPos).est = u.est := (congrArg Dev.est (u.tickLogged_reads u.lmPos).1.same :)
  have hcfg : (u.tickLogged u.lmPos).rd .ENC_EST_CFG = u.rd .ENC_EST_CFG := (u.tickLogged_reads u.lmPos).1.rd (by decide) (by decide)
  refine ⟨fun hpow => hu ▸ completes_tickClock hpow, fun hlive hparts hwait => ?_, fun hlive hw hk hfits => ?_, fun hlive hw hk => ?_,
    fun hlive hw => ?_⟩
  · have hlog := completes_tickLog (s := s) (by rw [hu]; exact hlive) (by rw [hu]; exact hparts) (by rw [hu]; exact hwait)
    have htick := completes_estimateTick (s := s) (by rw [hu]; exact hlive)
    rw [hu] at hlog htick
    refine (hlog.and htick).imp fun t ⟨hmem, ht⟩ => ?_
    obtain ⟨hpos, htime, hseq, hgap, hout⟩ := hlogged
    obtain ⟨hidxF, hseqF, hvalid⟩ := ht.log_eq
    have hread := Dev.leRead_of_mem hmem
    exact ⟨(hread ..).trans hpos, (hread ..).trans htime, (hread ..).trans hseq, (congrArg (fun n => n.testBit 3) (hread ..)).trans hgap,
      fun k hk => (Dev.byteAt_of_mem hmem k).trans (hout k hk), hidxF, hseqF, hvalid⟩
  · have htick := completes_estimateTick (s := s) (by rw [hu]; exact hlive)
    rw [hu] at htick
    have hspeed : (u.tickLogged u.lmPos).windowSpeed u.lmPos = u.windowSpeed u.lmPos := by simp only [Dev.windowSpeed, hest, hcfg]
    have hreads := Dev.estimate_speed (s := u.tickLogged u.lmPos) (pos := u.lmPos) (by rw [hest]; exact hk) (by rw [hspeed]; exact hfits)
    have hticked := (u.tickLogged u.lmPos).estimate_est u.lmPos
    rw [hest] at hticked
    rw [← Dev.tickEstimated_manager _ hw] at hreads hticked
    obtain ⟨hspdv, hrd⟩ := hreads
    refine htick.imp fun t ht => ⟨?_, ?_, ?_, Dev.tickPos_of_est ?_⟩
    · rw [← hspdv, Dev.flag, Dev.flag, ht.line _ 0 (by decide) (by decide)]
    · rw [ht.line _ 0 (by decide) (by decide), hrd, hspeed]; rfl
    · rw [ht.est_eq, hticked]; rfl
    · rw [ht.est_eq, hticked]; rfl
  · have htick := completes_estimateTick (s := s) (by rw [hu]; exact hlive)
    rw [hu] at htick
    have hfirst := Dev.estimate_first (s := u.tickLogged u.lmPos) u.lmPos (by rw [hest]; exact hk)
    have hticked := (u.tickLogged u.lmPos).estimate_est u.lmPos
    rw [hest] at hticked
    rw [← Dev.tickEstimated_manager _ hw] at hfirst hticked
    refine htick.imp fun t ht => ⟨?_, ht.unestimated hfirst (by decide) (by simp) (by decide), ?_, Dev.tickPos_of_est ?_⟩
    · rw [Dev.flag, Dev.flag, ht.unestimated hfirst (by decide) (by simp) (by decide)]
    · rw [ht.est_eq, hticked]
      exact congrArg (· + 1) hk
    · rw [ht.est_eq, hticked]; rfl
  · have htick := completes_estimateTick (s := s) (by rw [hu]; exact hlive)
    rw [hu] at htick
    have hfollow := (u.tickLogged u.lmPos).followTick_within u.lmPos
    have hticked : ((u.tickLogged u.lmPos).followTick u.lmPos).est.tickPos = some u.lmPos := congrArg Estimator.tickPos (Dev.noteStop_est _)
    rw [← Dev.tickEstimated_worker _ hw] at hfollow hticked
    refine htick.imp fun t ht => ⟨ht.unestimated hfollow (by decide) (by simp) (by decide),
      ht.unestimated hfollow (by decide) (by simp) (by decide), Dev.tickPos_of_est ?_⟩
    rw [ht.est_eq, hticked]

end Sys2Proof.Machine

end

section
/-! Commands to jobs (R190, R205), and the end of a job (R183, R187). -/

namespace Sys2Proof.Machine

open Sys2Proof

theorem exec_jobResume (s : State) : exec .jobResume s = s.run .jobResume fun d => d.jobResume := rfl

theorem exec_jobAbort (s : State) : exec .jobAbort s = s.run .jobAbort fun d => d.jobAbort := rfl

theorem exec_jobStop (s : State) : exec .jobStop s = s.run .jobStop fun d => d.jobStop := rfl

/-! ### The end of a job -/

/-- What the module holds beside what the end of a job reaches: the work of the scheduler, the marks of a fault with the parts that they
meet, and memory, where the record goes. -/
def Dev.butEnded (s : Dev) : Dev :=
  { s.body with jobs := [], churns := [], saves := [], mem := [], marks := [], parts := [], herd := {}, zports := [], sync := [], tlb := [] }

theorem Dev.body_of_butEnded {s t : Dev} (h : t.rest.butEnded = s.rest.butEnded) :
    t.body = { s.body with jobs := t.jobs, churns := t.churns, saves := t.saves, mem := t.mem, marks := t.marks, parts := t.parts,
                           herd := t.herd, zports := t.zports, sync := t.sync, tlb := t.tlb } :=
  (congrArg (fun d : Dev => { d with
    jobs := t.jobs, churns := t.churns, saves := t.saves, mem := t.mem, marks := t.marks, parts := t.parts, herd := t.herd, zports := t.zports
    sync := t.sync, tlb := t.tlb }) h :)

theorem Dev.quiet_butEnded : Quiet butEnded := fun d e h => by simp only [butEnded, rest_body, h]

/-- A part of the module that neither an event nor the scheduler's work on jobs and Churns changes. -/
structure Dev.Unworked {α : Type} (m : Dev → α) : Prop where
  quiet : Quiet m
  work : ∀ d j c, m { d with jobs := j, churns := c } = m d

theorem Dev.unworked_butEnded : Unworked butEnded := ⟨quiet_butEnded, fun _ _ _ => rfl⟩

namespace Dev.Offline

section
variable {α : Type} {m : Dev → α} {s t : Dev}

theorem updJob (h : Offline m s t) (hm : Unworked m) (q : Nat) (f : Job → Job) : Offline m s (t.updJob q f) :=
  h.step rfl rfl rfl (hm.work t.rest _ t.churns)

theorem setResident (h : Offline m s t) (hm : Unworked m) (n : Nat) (r : Option Resident) : Offline m s (t.setResident n r) :=
  h.step rfl rfl rfl (hm.work t.rest t.jobs _)

theorem settle (h : Offline m s t) (hm : Unworked m) (n : Nat) : Offline m s (t.settle n) := by
  unfold Dev.settle
  generalize t.resident n = x
  cases x with
  | none => exact h
  | some r => exact ((h.updJob hm _ _).observe hm.quiet _ _).setResident hm _ _

theorem vacate (h : Offline m s t) (hm : Unworked m) (n : Nat) : Offline m s (t.vacate n) := by
  have htrace : Offline m s (if (t.resident n).isSome then t.traceContext n 3 else t) := by
    split
    · exact h.traceNote hm.quiet _ _ _
    · exact h
  unfold Dev.vacate
  dsimp only
  generalize (if (t.resident n).isSome then t.traceContext n 3 else t) = u at htrace ⊢
  have hgone := (htrace.settle hm n).setResident hm n none
  exact (((((hgone.setFlag .CHN_STAT_BUSY n _ (by decide)).setFlag .CHN_STAT_MODE n _ (by decide)).wr n _ (by decide)).setFlag
    .JOB_CHN_ST_VALID n _ (by decide)).wr n _ (by decide)).wr n _ (by decide)

end

variable {s t : Dev}

theorem ended (h : Offline butEnded s t) {u : Dev} (hr : u.regs = t.regs) (hb : u.voteB = t.voteB) (hc : u.voteC = t.voteC)
    (hm : butEnded u.rest = butEnded t.rest) : Offline butEnded s u := h.step hr hb hc hm

theorem releaseSlot (h : Offline butEnded s t) (k : Nat) : Offline butEnded s (t.releaseSlot k) := by
  have hnamed : Offline butEnded s ((t.wr .JOB_SLOT_JOB k 0).wr .JOB_SLOT_ST_PIECE k 0) := (h.wr k _ (by decide)).wr k _ (by decide)
  have hnote {w : Dev} (hw : Offline butEnded s w) : Offline butEnded s w.noteRecovery := hw.setFlag .JOB_STAT_RECOV 0 _ (by decide)
  have hdrop {w : Dev} (hw : Offline butEnded s w) : Offline butEnded s { w with saves := tabDrop t.saves k } := hw.ended rfl rfl rfl rfl
  unfold Dev.releaseSlot Dev.emptySlot
  dsimp only
  generalize (t.wr .JOB_SLOT_JOB k 0).wr .JOB_SLOT_ST_PIECE k 0 = u at hnamed ⊢
  have hflags := ((((hnamed.wr (f := .JOB_SLOT_ST_CHN) k 0 (by decide)).setFlag .JOB_SLOT_ST_CHEAP k false (by decide)).setFlag
    .JOB_SLOT_ST_FLT k false (by decide)).setFlag .JOB_SLOT_ST_RECOV k false (by decide)).wr (f := .JOB_SLOT_ST_STATE) k 0 (by decide)
  generalize ((((u.wr .JOB_SLOT_ST_CHN k 0).setFlag .JOB_SLOT_ST_CHEAP k false).setFlag .JOB_SLOT_ST_FLT k false).setFlag .JOB_SLOT_ST_RECOV k
    false).wr .JOB_SLOT_ST_STATE k 0 = w at hflags ⊢
  exact (hnote hflags).ended rfl rfl rfl rfl

theorem releaseOf (h : Offline butEnded s t) (k : Option Nat) :
    Offline butEnded s (match k with
      | some k => t.releaseSlot k
      | none => t) := by
  cases k with
  | none => exact h
  | some k => exact h.releaseSlot k

theorem discard (h : Offline butEnded s t) (j : Job) : Offline butEnded s (t.discard j) := by
  refine h.foldl _ fun d p => ?_
  cases p.st with
  | running n =>
    dsimp only
    cases hr : d.resident n with
    | none => exact (refl _ d).vacate unworked_butEnded n
    | some r => exact (((refl _ d).releaseOf r.saving).releaseOf r.restoring).vacate unworked_butEnded n
  | saved k => exact (refl _ d).releaseSlot k
  | _ => exact refl _ d

theorem signalEnd (h : Offline butEnded s t) (j : Job) : Offline butEnded s (t.signalEnd j) := by
  unfold Dev.signalEnd
  cases j.csc with
  | none => exact h
  | some k => exact h.within ((Within.refl [] _ t).scAdd k 1 fun _ _ => rfl) (by simp)

theorem dropRecord (h : Offline butEnded s t) : Offline butEnded s t.dropRecord :=
  (h.count .JOB_CQ_LOST 0 (by decide)).setFlag .JOB_CQ_STAT_OVF 0 true (by decide)

theorem writeRecord (h : Offline butEnded s t) (queue : Nat) (b : List Byte) : Offline butEnded s (t.writeRecord queue b) := by
  unfold Dev.writeRecord
  dsimp only
  split
  · exact h.dropRecord
  · split
    · rename_i u hu
      have hwrite : Offline butEnded s (u.countMod .JOB_CQ_TAIL) :=
        (h.within ((Within.refl [] _ t).vwrite hu (fun _ _ => rfl) fun _ _ => rfl) (by simp)).wr 0 _ (by decide)
      split
      · exact hwrite.ended rfl rfl rfl rfl
      · exact hwrite
    · exact h.dropRecord

/-- A job that ends leaves everything but what the mask names. -/
theorem endJob (h : Offline butEnded s t) (seq status cmdidx icode chn : Nat) : Offline butEnded s (t.endJob seq status cmdidx icode chn) := by
  have hfilter {u : Dev} (hu : Offline butEnded s u) : Offline butEnded s { u with jobs := u.jobs.filter fun (k : Job) => k.seq != seq } :=
    hu.ended rfl rfl rfl rfl
  unfold Dev.endJob
  split
  · exact h
  · rename_i j _
    have hdiscard := h.discard j
    generalize t.discard j = u at hdiscard ⊢
    have hsignal : Offline butEnded s (if j.inIteration then u.signalEnd j else u) := by
      split
      · exact hdiscard.signalEnd j
      · exact hdiscard
    dsimp only
    generalize (if j.inIteration then u.signalEnd j else u) = v at hsignal ⊢
    refine hfilter ?_
    split
    · exact hsignal.writeRecord _ _
    · exact hsignal

theorem jobFault (h : Offline butEnded s t) (seq : Nat) : Offline butEnded s (t.jobFault seq) := by
  unfold Dev.jobFault
  split
  · exact h
  · rename_i j _
    have hjob := h.updJob unworked_butEnded seq fun j => { j with faulted := true, anyFault := true, heldFault := j.span.isNone && !j.teach }
    dsimp only
    split
    · split
      · exact hjob
      · exact hjob.within ((Within.refl [] _ _).openMark _ fun _ _ _ _ _ => rfl) (by simp)
    · exact hjob

end Dev.Offline

theorem Dev.endJob_jobs {s : Dev} {seq : Nat} (h : (s.job? seq).isSome = true) (status cmdidx icode chn : Nat) :
    seq ∉ (s.endJob seq status cmdidx icode chn).jobs.map fun i => i.seq := by
  unfold endJob
  split
  · rename_i hnone
    rw [hnone] at h
    exact absurd h (by decide)
  · simp

theorem Dev.job?_updJob_isSome (s : Dev) (seq q : Nat) {f : Job → Job} (hf : ∀ j, (f j).seq = j.seq) :
    ((s.updJob q f).job? seq).isSome = (s.job? seq).isSome := by
  have hmap : (fun i : Job => (if i.seq = q then f i else i).seq == seq) = fun i => i.seq == seq := by
    funext i
    split
    · rw [hf]
    · rfl
  simp only [job?, updJob, List.find?_map, Option.isSome_map]
  exact congrArg (fun p => (s.jobs.find? p).isSome) hmap

/-- A job that a command names is in the table. -/
theorem Dev.job?_of_named {s : Dev} {j : Job} (h : s.named = some j) : (s.job? j.seq).isSome = true := by
  have hmem := List.mem_of_find?_eq_some h
  exact List.find?_isSome.2 ⟨j, hmem, by simp⟩

theorem Dev.jobFault_jobs (s : Dev) (seq q : Nat) : ((s.jobFault seq).job? q).isSome = (s.job? q).isSome := by
  have hmark (d : Dev) (k : Mark) : (d.openMark k).jobs = d.jobs := ((Within.refl [] Dev.jobs d).openMark k fun _ _ _ _ _ => rfl).same
  have hupd := s.job?_updJob_isSome q seq (f := fun j => { j with faulted := true, anyFault := true, heldFault := j.span.isNone && !j.teach })
    fun _ => rfl
  unfold jobFault
  generalize s.job? seq = x
  cases x with
  | none => rfl
  | some j =>
    dsimp only
    generalize s.updJob seq _ = u at hupd ⊢
    cases j.span with
    | none => exact hupd
    | some k =>
      cases j.teach with
      | true => exact hupd
      | false => exact (congrArg (fun l : List Job => (l.find? (Job.seq · == q)).isSome) (hmark u _)).trans hupd

/-! ### Commands to jobs -/

theorem Dev.rd_jobResult (s : Dev) {n : Nat} (hn : n < 4) : (s.jobResult n).rd .JOB_CMD_RES = n := (Dev.rd_wr ..).trans (wrap_of_lt hn)

theorem Dev.jobResult_within (s : Dev) (n : Nat) : Within [(.JOB_CMD_RES, 0)] id s (s.jobResult n) :=
  (Within.refl _ _ s).wr n (by decide) (by simp)

/-- A command that a result alone answers. -/
theorem completes_jobResult {c : Instr} {s : State} {f : Dev → Dev} (hexec : exec c s = s.run c f) (hwf : c.wf = true) {n : Nat} (hn : n < 4)
    (heff : f s.toDev = s.jobResult n) :
    Completes c s fun t => t.rd .JOB_CMD_RES = n ∧ KeepsFields s t [(.JOB_CMD_RES, 0)] ∧ t.rest = s.rest :=
  .of_effect hexec hwf heff ⟨(Dev.notify_rd ..).trans (s.rd_jobResult hn), (s.jobResult_within n).kept,
    (Dev.notify_rest ..).trans (s.jobResult_within n).same⟩

/-- A command that changes its job, and reports 0. -/
theorem completes_jobUpdate {c : Instr} {s : State} {f : Dev → Dev} (hexec : exec c s = s.run c f) (hwf : c.wf = true) {q : Nat} {g : Job → Job}
    (heff : f s.toDev = (s.updJob q g).jobResult 0) :
    Completes c s fun t =>
      t.rd .JOB_CMD_RES = 0 ∧ t.jobs = (s.jobs.map fun i => if i.seq = q then g i else i) ∧ KeepsFields s t [(.JOB_CMD_RES, 0)] ∧
      t.rest = { s.rest with jobs := t.jobs } := by
  have hrd := (s.updJob q g).rd_jobResult (n := 0) (by decide)
  have hjobs : ((s.updJob q g).jobResult 0).jobs = s.jobs.map fun i => if i.seq = q then g i else i := Dev.wr_jobs ..
  have hset : Dev.Within [(.JOB_CMD_RES, 0)] Dev.butJobs s.toDev (s.updJob q g) := (Dev.Within.refl _ _ s.toDev).step rfl rfl rfl rfl
  have hall := hset.trans (((s.updJob q g).jobResult_within 0).any Dev.butJobs)
  generalize (s.updJob q g).jobResult 0 = u at heff hrd hjobs hall
  refine .of_effect hexec hwf heff ⟨(Dev.notify_rd ..).trans hrd, (Dev.notify_jobs ..).trans hjobs, hall.kept, ?_⟩
  rw [Dev.notify_rest, Dev.notify_jobs]
  exact Dev.rest_of_butJobs hall.same

/-- A command that ends its job, and reports 0. -/
theorem completes_jobEnd {c : Instr} {s : State} {f : Dev → Dev} (hexec : exec c s = s.run c f) (hwf : c.wf = true) {u : Dev}
    {seq status : Nat} (hu : Dev.Offline Dev.butEnded s.toDev u) (hjob : (u.job? seq).isSome = true)
    (heff : f s.toDev = (u.endJob seq status 0xFFFF 0 0xFF).jobResult 0) :
    Completes c s fun t =>
      t.rd .JOB_CMD_RES = 0 ∧ seq ∉ t.jobs.map (fun i => i.seq) ∧
      t.body = { s.body with jobs := t.jobs, churns := t.churns, saves := t.saves, mem := t.mem, marks := t.marks, parts := t.parts,
                             herd := t.herd, zports := t.zports, sync := t.sync, tlb := t.tlb } := by
  have hgone := Dev.endJob_jobs hjob status 0xFFFF 0 0xFF
  have hend := hu.endJob seq status 0xFFFF 0 0xFF
  generalize u.endJob seq status 0xFFFF 0 0xFF = v at hgone hend heff
  have hrd := v.rd_jobResult (n := 0) (by decide)
  have hjobs : (v.jobResult 0).jobs = v.jobs := Dev.wr_jobs ..
  have hall : Dev.Offline Dev.butEnded s.toDev (v.jobResult 0) := hend.wr 0 0 (by decide)
  generalize v.jobResult 0 = w at heff hrd hjobs hall
  have hall' : Dev.Offline Dev.butEnded s.toDev (w.notify s.toDev) :=
    hall.trans ⟨fun f i _ _ => Dev.notify_rd .., congrArg Dev.butEnded (Dev.notify_rest ..)⟩
  refine .of_effect hexec hwf heff ⟨(Dev.notify_rd ..).trans hrd, ?_, Dev.body_of_butEnded hall'.same⟩
  rw [Dev.notify_jobs, hjobs]
  exact hgone

theorem Dev.flag_setFlag_cleared (s : Dev) {k m : Nat} (hk : k < 41) (hm : m < 41) (h : k = m ∨ s.flag .JOB_SLOT_ST_FLT m = false) :
    (s.setFlag .JOB_SLOT_ST_FLT k false).flag .JOB_SLOT_ST_FLT m = false := by
  by_cases hkm : k = m
  · exact hkm ▸ flag_wr_toNat s .JOB_SLOT_ST_FLT k false (by decide)
  · have hne := s.rd_wr_ne .JOB_SLOT_ST_FLT .JOB_SLOT_ST_FLT k m 0 (by omega) (by omega) fun e => hkm e.2
    exact (congrArg (· != 0) hne).trans (h.resolve_left hkm)

/-- Slots whose fault is cleared one after another have none. -/
theorem Dev.flag_cleared {l : List Nat} (s : Dev) {m : Nat} (hm : m ∈ l) (hl : ∀ k ∈ l, k < 41) :
    (l.foldl (fun (d : Dev) k => d.setFlag .JOB_SLOT_ST_FLT k false) s).flag .JOB_SLOT_ST_FLT m = false := by
  have hkeep (l : List Nat) (hl : ∀ k ∈ l, k < 41) (hm : m < 41) (d : Dev) (hd : d.flag .JOB_SLOT_ST_FLT m = false) :
      (l.foldl (fun (d : Dev) k => d.setFlag .JOB_SLOT_ST_FLT k false) d).flag .JOB_SLOT_ST_FLT m = false := by
    induction l generalizing d with
    | nil => exact hd
    | cons k l ih =>
      exact ih (fun i hi => hl i (List.mem_cons_of_mem _ hi)) _ (d.flag_setFlag_cleared (hl k List.mem_cons_self) hm (.inr hd))
  have hlt := hl m hm
  induction l generalizing s with
  | nil => simp at hm
  | cons k l ih =>
    have hl' : ∀ i ∈ l, i < 41 := fun i hi => hl i (List.mem_cons_of_mem _ hi)
    by_cases hkm : k = m
    · exact hkeep l hl' hlt _ (s.flag_setFlag_cleared (hl k List.mem_cons_self) hlt (.inl hkm))
    · exact ih _ ((List.mem_cons.1 hm).resolve_left (Ne.symm hkm)) hl'

section
variable {s : State} {j : Job} (hnamed : s.named = some j)
include hnamed

theorem completes_resumeIdle (hnone : s.faultedSlots j = []) :
    Completes .jobResume s fun t => t.rd .JOB_CMD_RES = 2 ∧ KeepsFields s t [(.JOB_CMD_RES, 0)] ∧ t.rest = s.rest :=
  completes_jobResult (exec_jobResume s) rfl (by decide) (by simp [Dev.jobResume, hnamed, hnone])

theorem completes_resume (hsome : s.faultedSlots j ≠ []) (hslots : ∀ k ∈ s.faultedSlots j, k < 41) :
    Completes .jobResume s fun t =>
      t.rd .JOB_CMD_RES = 0 ∧ (∀ k ∈ s.faultedSlots j, t.flag .JOB_SLOT_ST_FLT k = false) ∧
      KeepsFields s t ((.JOB_CMD_RES, 0) :: (s.faultedSlots j).map fun k => (.JOB_SLOT_ST_FLT, k)) ∧ t.rest = s.rest := by
  generalize hl : s.faultedSlots j = l at hsome hslots
  have heff : s.jobResume = (l.foldl (fun (d : Dev) k => d.setFlag .JOB_SLOT_ST_FLT k false) s.toDev).jobResult 0 := by
    have hempty : l.isEmpty = false := by simpa using hsome
    simp only [Dev.jobResume, hnamed, hl, hempty]
    rfl
  have hclear := (Dev.Within.refl ((.JOB_CMD_RES, 0) :: l.map fun k => (.JOB_SLOT_ST_FLT, k)) id s.toDev).foldl
    (f := fun (d : Dev) k => d.setFlag .JOB_SLOT_ST_FLT k false) l fun d k hk =>
      (Dev.Within.refl _ id d).setFlag false (by have := hslots k hk; omega) (by simp [hk])
  have hflags : ∀ k ∈ l, (l.foldl (fun (d : Dev) k => d.setFlag .JOB_SLOT_ST_FLT k false) s.toDev).flag .JOB_SLOT_ST_FLT k = false := fun k hk =>
    s.toDev.flag_cleared hk hslots
  generalize l.foldl (fun (d : Dev) k => d.setFlag .JOB_SLOT_ST_FLT k false) s.toDev = u at heff hclear hflags
  have hrd := u.rd_jobResult (n := 0) (by decide)
  have hres := u.jobResult_within 0
  have hall := hclear.trans (hres.mono (by simp))
  have hkept : ∀ k ∈ l, (u.jobResult 0).flag .JOB_SLOT_ST_FLT k = false := fun k hk =>
    (hres.flag (by have := hslots k hk; omega) (by simp)).trans (hflags k hk)
  generalize u.jobResult 0 = v at heff hrd hall hkept
  exact .of_effect (exec_jobResume s) rfl heff ⟨(Dev.notify_rd ..).trans hrd, fun k hk => (Dev.notify_flag ..).trans (hkept k hk), hall.kept,
    (Dev.notify_rest ..).trans hall.same⟩

end

/-- Settles O40: a command to jobs reports a result, changes its job, or ends it. -/
theorem commandsToJobs : Obligations.CommandsToJobs := by
  intro s j
  refine ⟨fun hnone => ⟨?_, ?_, ?_⟩, fun hnamed => ⟨completes_resumeIdle hnamed, completes_resume hnamed, fun hin => ?_, fun hout => ?_,
    fun hbegun => ?_, fun hidle => ?_⟩⟩
  · exact completes_jobResult (exec_jobResume s) rfl (by decide) (by simp [Dev.jobResume, hnone])
  · exact completes_jobResult (exec_jobAbort s) rfl (by decide) (by simp [Dev.jobAbort, hnone])
  · exact completes_jobResult (exec_jobStop s) rfl (by decide) (by simp [Dev.jobStop, hnone])
  · exact completes_jobUpdate (exec_jobAbort s) rfl (by simp only [Dev.jobAbort, hnamed, hin, if_true])
  · refine completes_jobEnd (exec_jobAbort s) rfl (u := s.jobFault j.seq) (status := 3) ((Dev.Offline.refl _ _).jobFault _)
      ((s.jobFault_jobs _ _).trans (Dev.job?_of_named hnamed)) ?_
    simp only [Dev.jobAbort, hnamed, hout, Dev.abortNow, Bool.false_eq_true, if_false]
  · exact completes_jobUpdate (exec_jobStop s) rfl (by simp only [Dev.jobStop, hnamed, hbegun, if_true])
  · refine completes_jobEnd (exec_jobStop s) rfl (u := s.updJob j.seq fun i => { i with stop := true }) (status := 6)
      ((Dev.Offline.refl _ _).updJob Dev.unworked_butEnded _ _) ?_ ?_
    · exact (s.job?_updJob_isSome j.seq j.seq (f := fun i => { i with stop := true }) fun _ => rfl).trans (Dev.job?_of_named hnamed)
    · simp only [Dev.jobStop, hnamed, hidle, Bool.false_eq_true, if_false]

end Sys2Proof.Machine

end

section
/-! Power and block reset of a Churn (R129, R208). -/

namespace Sys2Proof.Machine

open Sys2Proof

theorem exec_churnClockGate (n : Fin 16) (s : State) : exec (.churnClockGate n) s = s.run (.churnClockGate n) fun d => d.churnClockGate n := rfl

theorem exec_churnPowerGate (n : Fin 16) (s : State) : exec (.churnPowerGate n) s = s.run (.churnPowerGate n) fun d => d.churnPowerGate n := rfl

theorem exec_churnPowerUpDone (n : Fin 16) (s : State) :
    exec (.churnPowerUpDone n) s = s.run (.churnPowerUpDone n) fun d => d.churnPowerUpDone n := rfl

theorem exec_sequencerHang (n : Fin 16) (s : State) : exec (.sequencerHang n) s = s.run (.sequencerHang n) fun d => d.sequencerHang n := rfl

theorem exec_churnBlockReset (n : Fin 16) (cause : ChurnFault) (s : State) :
    exec (.churnBlockReset n cause) s = s.run (.churnBlockReset n cause) fun d => d.resetChurn n (causeCode cause) := rfl

/-! ### Clock and power -/

/-- A write of a Churn's power state. -/
theorem completes_churnPower {c : Instr} {s : State} {f : Dev → Dev} {n : Fin 16} {v : Nat} (hexec : exec c s = s.run c f) (hwf : c.wf = true)
    (heff : f s.toDev = s.wr .CHN_STAT_PWR n v) (hv : v < 4) :
    Completes c s fun t => t.rd .CHN_STAT_PWR n = v ∧ KeepsFields s t [(.CHN_STAT_PWR, (n : Nat))] ∧ t.rest = s.rest := by
  have hset := (Dev.Within.refl [(.CHN_STAT_PWR, (n : Nat))] id s.toDev).wr (f := .CHN_STAT_PWR) (i := n) v (by omega) (by simp)
  exact .of_effect hexec hwf heff ⟨(Dev.notify_rd ..).trans ((Dev.rd_wr ..).trans (wrap_of_lt hv)), hset.kept,
    (Dev.notify_rest ..).trans hset.same⟩

/-- What the module holds beside what a Churn loses with its power. -/
def Dev.butLost (s : Dev) : Dev := { s with mem := [], churns := [], tlb := [] }

theorem Dev.rest_of_butLost {s t : Dev} {tlb : List Cached} (htlb : t.tlb = tlb) (h : t.rest.butLost = s.rest.butLost) :
    t.rest = { s.rest with mem := t.mem, churns := t.churns, tlb := tlb } :=
  htlb ▸ (congrArg (fun d : Dev => { d with mem := t.mem, churns := t.churns, tlb := t.tlb }) h :)

section
variable {l : List (Field × Nat)} {s t : Dev}

theorem Dev.Within.loseChurn (h : Within l butLost s t) (n : Nat) : Within l butLost s (t.loseChurn n) := h.step rfl rfl rfl rfl

theorem Dev.loseChurn_churn (s : Dev) (n : Nat) : (s.loseChurn n).churn n = { ctx := s.resident n } := s.churn_setChurn n _

theorem Dev.loseChurn_byteAt (s : Dev) (n k : Nat) :
    (s.loseChurn n).byteAt k = if lsOf n ≤ k ∧ k < lsOf n + lsSize then 0 else s.byteAt k := s.byteAt_zeroBytes (lsOf n) lsSize k

end

theorem completes_churnPowerGate {s : State} {n : Fin 16} (hfree : s.resident n = none) (hiso : s.flag .CHN_STAT_ISO n = false)
    (hfixed : s.flag .GLB_MODE_FIXED = false) (hfixing : s.fixing = false) (hpwr : 2 ≤ s.rd .CHN_STAT_PWR n)
    (hnopg : s.flag .CHN_PWRCTL_NOPG n = false) (k : Nat) :
    Completes (.churnPowerGate n) s fun t =>
      t.rd .CHN_STAT_PWR n = 0 ∧ t.churn n = {} ∧ (k < lsSize → t.byteAt (lsOf n + k) = 0) ∧ KeepsBytes s t (lsOf n) lsSize ∧
      KeepsFields s t [(.CHN_STAT_PWR, (n : Nat))] ∧
      t.rest = { s.rest with mem := t.mem, churns := t.churns, tlb := s.tlb.filter fun e => e.chn != some (n : Nat) } := by
  have heff : s.toDev.churnPowerGate n = (s.wr .CHN_STAT_PWR n 0).loseChurn n :=
    if_pos (by simp [Dev.churnReady, Dev.churnFree, hfree, hiso, hfixed, hfixing, hpwr, hnopg])
  have hset := (Dev.Within.refl [(.CHN_STAT_PWR, (n : Nat))] Dev.butLost s.toDev).wr (f := .CHN_STAT_PWR) (i := n) 0 (by omega) (by simp)
  have hlost : (s.wr .CHN_STAT_PWR n 0).resident n = none := hfree
  have hrd : (s.wr .CHN_STAT_PWR n 0).rd .CHN_STAT_PWR n = 0 := Dev.rd_wr ..
  have htlb : (s.wr .CHN_STAT_PWR n 0).tlb = s.tlb := Dev.wr_tlb ..
  have hbyte (a : Nat) : (s.wr .CHN_STAT_PWR n 0).byteAt a = s.byteAt a := Dev.byteAt_of_mem (Dev.wr_mem ..) a
  generalize s.wr .CHN_STAT_PWR n 0 = u at heff hset hlost hrd htlb hbyte
  have hall := hset.loseChurn n
  have hchurn := u.loseChurn_churn n
  have hloss := u.loseChurn_byteAt n
  have hrd' : (u.loseChurn n).rd .CHN_STAT_PWR n = 0 := hrd
  have htlb' : (u.loseChurn n).tlb = s.tlb.filter fun e => e.chn != some (n : Nat) := htlb ▸ rfl
  rw [hlost] at hchurn
  generalize u.loseChurn n = v at heff hall hchurn hloss hrd' htlb'
  refine .of_effect (exec_churnPowerGate n s) rfl heff ⟨(Dev.notify_rd ..).trans hrd', ?_, fun hk => ?_, fun a ha => ?_, hall.kept, ?_⟩
  · exact (Dev.churn_of_churns (Dev.notify_churns ..) n).trans hchurn
  · rw [Dev.byteAt_of_mem (Dev.notify_mem ..), hloss, if_pos (by omega)]
  · rw [Dev.byteAt_of_mem (Dev.notify_mem ..), hloss, if_neg (by omega), hbyte]
  · rw [Dev.notify_rest, Dev.notify_mem, Dev.notify_churns]
    exact Dev.rest_of_butLost htlb' hall.same

/-! ### Block reset (R208) -/

theorem mem_modifyAt {α : Type} {f : α → α} {k : Nat} {l : List α} {a : α} (h : a ∈ modifyAt f k l) : a ∈ l ∨ ∃ b ∈ l, a = f b := by
  induction l generalizing k with
  | nil => cases k <;> exact .inl h
  | cons b l ih =>
    cases k with
    | zero =>
      rcases List.mem_cons.1 h with rfl | h
      · exact .inr ⟨b, List.mem_cons_self, rfl⟩
      · exact .inl (List.mem_cons_of_mem _ h)
    | succ k =>
      rcases List.mem_cons.1 h with rfl | h
      · exact .inl List.mem_cons_self
      · rcases ih h with h | ⟨c, hc, rfl⟩
        · exact .inl (List.mem_cons_of_mem _ h)
        · exact .inr ⟨c, List.mem_cons_of_mem _ hc, rfl⟩

/-- No piece waits for a Churn. -/
def Dev.unkept (s : Dev) (n : Nat) : Prop := ∀ j ∈ s.jobs, ∀ p ∈ j.pieces, p.target ≠ some n

theorem Dev.unkept_freeKept (s : Dev) (n : Nat) : (s.freeKept n).unkept n := by
  intro j hj p hp
  obtain ⟨i, -, rfl⟩ := List.mem_map.1 hj
  obtain ⟨q, -, rfl⟩ := List.mem_map.1 hp
  split
  · simp
  · assumption

theorem Dev.freeKept_unkept {s : Dev} {n : Nat} (h : s.unkept n) : s.freeKept n = s := by
  have hpieces (j : Job) (hj : j ∈ s.jobs) :
      { j with pieces := j.pieces.map fun p => if p.target = some n then { p with target := none } else p } = j := by
    have hmap : (j.pieces.map fun p => if p.target = some n then { p with target := none } else p) = j.pieces :=
      (List.map_congr_left (g := id) fun p hp => if_neg (h j hj p hp)).trans (List.map_id _)
    rw [hmap]
  have hjobs : (s.jobs.map fun j =>
      { j with pieces := j.pieces.map fun p => if p.target = some n then { p with target := none } else p }) = s.jobs :=
    (List.map_congr_left (g := id) hpieces).trans (List.map_id _)
  exact (congrArg (fun l => { s with jobs := l }) hjobs :)

theorem Dev.unkept_keepChurn {s : Dev} {n m : Nat} (h : s.unkept n) (hm : m ≠ n) (c : Job × Nat × Piece) : (s.keepChurn c m).unkept n := by
  intro j hj p hp
  obtain ⟨i, hi, rfl⟩ := List.mem_map.1 hj
  split at hp
  · rcases mem_modifyAt hp with hp | ⟨q, -, rfl⟩
    · exact h i hi p hp
    · simpa using hm
  · exact h i hi p hp

theorem Dev.unkept_of_jobs {s t : Dev} {n : Nat} (h : s.unkept n) (hjobs : t.jobs = s.jobs) : t.unkept n := fun j hj => h j (hjobs ▸ hj)

/-- A Churn's store is lost, and it is isolated with its fields at their reset values. -/
def Dev.isolated (s : Dev) (n : Nat) : Dev :=
  chnBlockFields.foldl (fun (d : Dev) f => d.wr f n (f.resetAt n)) ((s.loseChurn n).setFlag .CHN_STAT_ISO n true)

/-- A block reset is counted, recorded and reported, and no piece waits for the Churn. -/
def Dev.noteReset (s : Dev) (n cause : Nat) : Dev :=
  ((((s.countOd 0x3030 7 32).tally 0x0052 n 0xFFFFFFFF cause).disturb).raiseVec 13).freeKept n

/-- The context of a Churn that is reset, if it has one, is returned. -/
def Dev.cleared (s : Dev) (n : Nat) : Dev :=
  match s.resident n with
  | some r => (s.jobFault r.job).returnContext n r
  | none => s

theorem Dev.resetChurn_eq (s : Dev) (n cause : Nat) : s.resetChurn n cause = (((s.cleared n).isolated n).noteReset n cause).enterFixed.recoverWork := rfl

theorem Dev.cleared_none {s : Dev} {n : Nat} (h : s.resident n = none) : s.cleared n = s := by simp only [cleared, h]

/-- Fields of one index, written one after another, read what was written. -/
theorem Dev.rd_foldl_wr (l : List Field) (v : Field → Nat) (s : Dev) {n : Nat} (hn : n < 1024) {g : Field} (hg : g ∈ l) :
    (l.foldl (fun (d : Dev) f => d.wr f n (v f)) s).rd g n = wrap g.desc.width (v g) := by
  have hkeep (l : List Field) (d : Dev) (hd : d.rd g n = wrap g.desc.width (v g)) :
      (l.foldl (fun (d : Dev) f => d.wr f n (v f)) d).rd g n = wrap g.desc.width (v g) := by
    induction l generalizing d with
    | nil => exact hd
    | cons f l ih =>
      refine ih _ ?_
      by_cases hf : f = g
      · exact hf ▸ Dev.rd_wr ..
      · exact (d.rd_wr_field f g n n _ hn hn hf).trans hd
  induction l generalizing s with
  | nil => simp at hg
  | cons f l ih =>
    by_cases hf : f = g
    · exact hkeep l _ (hf ▸ Dev.rd_wr ..)
    · exact ih _ ((List.mem_cons.1 hg).resolve_left (Ne.symm hf))

/-- The fields of the Churn that a block reset writes. -/
def isolatedFields (n : Nat) : List (Field × Nat) := (.CHN_STAT_ISO, n) :: chnBlockFields.map fun f => (f, n)

theorem Dev.isolated_within {s : Dev} {n : Nat} (hn : n < 1024) : Within (isolatedFields n) butLost s (s.isolated n) := by
  have hiso := ((Within.refl (isolatedFields n) butLost s).loseChurn n).setFlag (f := .CHN_STAT_ISO) (i := n) true hn (by simp [isolatedFields])
  exact hiso.foldl chnBlockFields (f := fun (d : Dev) f => d.wr f n (f.resetAt n)) fun d f hf =>
    (Within.refl _ _ d).wr (f := f) (i := n) _ hn (by simp [isolatedFields, hf])

theorem Dev.isolated_rd (s : Dev) (n : Fin 16) {f : Field} (hf : f ∈ chnBlockFields) : (s.isolated n).rd f n = f.resetAt n := by
  have hfit : ∀ f ∈ chnBlockFields, wrap f.desc.width f.desc.reset = f.desc.reset := by decide
  have hreset : ∀ f ∈ chnBlockFields, f.resetAt n = f.desc.reset := by simp [chnBlockFields, Field.resetAt]
  exact (rd_foldl_wr chnBlockFields (fun f => f.resetAt n) _ (by omega) hf).trans (by rw [hreset f hf, hfit f hf])

theorem Dev.isolated_iso (s : Dev) (n : Fin 16) : (s.isolated n).flag .CHN_STAT_ISO n = true := by
  have hfold := ((Within.refl (chnBlockFields.map fun f => (f, (n : Nat))) (fun _ => ()) ((s.loseChurn n).setFlag .CHN_STAT_ISO n true)).foldl
    chnBlockFields (f := fun (d : Dev) f => d.wr f n (f.resetAt n)) fun d f hf => (Within.refl _ _ d).wr (f := f) (i := n) _ (by omega) (by simp [hf])).flag
    (f := .CHN_STAT_ISO) (i := n) (by omega) (by simp [chnBlockFields])
  exact hfold.trans (flag_wr_toNat _ .CHN_STAT_ISO n true (by decide))

/-- What a block reset of one Churn does not reach further. -/
def Dev.afterReset (s : Dev) : List Host.Cell × Tab Churn × List Cached × List Job × Bool := (s.mem, s.churns, s.tlb, s.jobs, s.fixing)

theorem Dev.afterReset_of_rest {s t : Dev} (h : t.rest.afterReset = s.rest.afterReset) : t.afterReset = s.afterReset := h

theorem Dev.churns_of_after {s t : Dev} (h : t.afterReset = s.afterReset) : t.churns = s.churns := congrArg (fun x => x.2.1) h

theorem Dev.fixing_of_after {s t : Dev} (h : t.afterReset = s.afterReset) : t.fixing = s.fixing := congrArg (fun x => x.2.2.2.2) h

theorem Dev.mem_of_after {s t : Dev} (h : t.afterReset = s.afterReset) : t.mem = s.mem := congrArg (fun x => x.1) h

theorem Dev.tlb_of_after {s t : Dev} (h : t.afterReset = s.afterReset) : t.tlb = s.tlb := congrArg (fun x => x.2.2.1) h

theorem Dev.jobs_of_after {s t : Dev} (h : t.afterReset = s.afterReset) : t.jobs = s.jobs := congrArg (fun x => x.2.2.2.1) h

theorem Dev.isolated_after (s : Dev) (n : Fin 16) : (s.isolated n).afterReset = (s.loseChurn n).afterReset := by
  have hset := (Within.refl (isolatedFields n) afterReset (s.loseChurn n)).setFlag (f := .CHN_STAT_ISO) (i := n) true (by omega)
    (by simp [isolatedFields])
  have hall := hset.foldl chnBlockFields (f := fun (d : Dev) f => d.wr f n (f.resetAt n)) fun d f hf =>
    (Within.refl _ _ d).wr (f := f) (i := n) _ (by omega) (by simp [isolatedFields, hf])
  exact afterReset_of_rest hall.same

/-! ### What follows a block reset -/

section
variable {α : Type} {l : List (Field × Nat)} {m : Dev → α} {s t : Dev}

theorem Dev.Within.holdSlot (h : Within l m s t) {k : Nat} (hk : k < 1024) (hl : ∀ e ∈ slotFields k, e ∈ l) (job piece chn : Nat) (cheap : Bool) :
    Within l m s (t.holdSlot k job piece chn cheap) := by
  have hnamed := (h.wr (f := .JOB_SLOT_JOB) job hk (hl _ (by simp [slotFields]))).wr (f := .JOB_SLOT_ST_PIECE) piece hk
    (hl _ (by simp [slotFields]))
  have hnote {w : Dev} (hw : Within l m s w) : Within l m s w.noteRecovery := hw.setFlag _ (by decide) (hl _ (by simp [slotFields]))
  unfold Dev.holdSlot
  dsimp only
  generalize (t.wr .JOB_SLOT_JOB k job).wr .JOB_SLOT_ST_PIECE k piece = u at hnamed ⊢
  have hkind := (hnamed.wr (f := .JOB_SLOT_ST_CHN) chn hk (hl _ (by simp [slotFields]))).setFlag (f := .JOB_SLOT_ST_CHEAP) cheap hk
    (hl _ (by simp [slotFields]))
  generalize (u.wr .JOB_SLOT_ST_CHN k chn).setFlag .JOB_SLOT_ST_CHEAP k cheap = v at hkind ⊢
  have hflags (b : Bool) := (hkind.setFlag (f := .JOB_SLOT_ST_FLT) false hk (hl _ (by simp [slotFields]))).setFlag (f := .JOB_SLOT_ST_RECOV) b hk
    (hl _ (by simp [slotFields]))
  exact hnote ((hflags _).wr (f := .JOB_SLOT_ST_STATE) 1 hk (hl _ (by simp [slotFields])))

theorem Dev.Within.traceRecord (h : Within l m s t) (src kind data : Nat) (hl : (.OBS_TRC_DROP_COUNT, 0) ∈ l)
    (hm : ∀ d x, m { d with trace := x } = m d) : Within l m s (t.traceNote src kind data) := by
  rcases t.traceNote_only src kind data with ⟨x, hx⟩ | ⟨x, hx⟩ <;> rw [hx]
  · exact h.step rfl rfl rfl (hm t.rest x)
  · have hcount := h.count (f := .OBS_TRC_DROP_COUNT) (i := 0) (by decide) hl
    generalize t.count .OBS_TRC_DROP_COUNT = u at hcount ⊢
    exact hcount.step rfl rfl rfl (hm u.rest x)

/-- A save that begins changes the fields of its slot, memory, the trace and its Churn. -/
theorem Dev.Within.beginSave (h : Within l m s t) {k : Nat} (hk : k < 1024) (hl : ∀ e ∈ slotFields k, e ∈ l) (n : Nat)
    (cheap : Option (List (Nat × Nat))) (htrace : ∀ d x, m { d with trace := x } = m d)
    (hmem : ∀ d x, m { d with mem := x } = m d) (hset : ∀ (d : Dev) x, m (d.setResident n x).rest = m d.rest) : Within l m s (t.beginSave n k cheap) := by
  unfold Dev.beginSave
  cases hr : t.resident n with
  | none => simpa only [hr] using h
  | some r =>
    have hheld (job piece : Nat) := h.holdSlot hk hl job piece n cheap.isSome
    have hzero {u : Dev} (hu : Within l m s u) (a len : Nat) : Within l m s (u.zeroBytes a len) := hu.step rfl rfl rfl (hmem u.rest _)
    have hdone {u : Dev} (hu : Within l m s u) (x : Option Resident) : Within l m s (u.setResident n x) := hu.step rfl rfl rfl (hset u x)
    exact hdone ((hzero (hheld _ _) _ _).traceRecord _ _ _ (hl _ (by simp [slotFields])) htrace) _

theorem Dev.Within.enterFixed (h : Within l m s t) (hl : ∀ e ∈ [(Field.GLB_MODE_FIXED, 0), (.GLB_DET_STAT_FIXED, 0)], e ∈ l)
    (hm : ∀ d a b, m { d with fixing := a, runHit := b } = m d) : Within l m s t.enterFixed := by
  unfold Dev.enterFixed
  split
  · have hset := (h.setFlag (f := .GLB_MODE_FIXED) (i := 0) true (by decide) (hl _ (by simp))).setFlag (f := .GLB_DET_STAT_FIXED) (i := 0) true
      (by decide) (hl _ (by simp))
    generalize (t.setFlag .GLB_MODE_FIXED 0 true).setFlag .GLB_DET_STAT_FIXED 0 true = u at hset ⊢
    exact hset.step rfl rfl rfl (hm u.rest false false)
  · exact h

end

theorem Dev.recoverySlot_lt (s : Dev) : s.recoverySlot < 1024 := by
  have h := s.rd_lt .MEM_PART0_SLOTS 0
  have hw : Field.MEM_PART0_SLOTS.desc.width = 6 := rfl
  rw [hw] at h
  unfold recoverySlot slotCount
  omega

/-- What the scheduler does for the work of a failed Churn: nothing, or it keeps a Churn, which may have to be saved first (R209). -/
theorem Dev.recoverWork_cases (s : Dev) :
    s.recoverWork = s ∨ (∃ c n, s.churnReady n = true ∧ s.recoverWork = s.keepChurn c n) ∨
      ∃ c n r, (n, r) ∈ s.victims ∧ s.recoverWork = (s.beginSave n s.recoverySlot none).keepChurn c n := by
  unfold recoverWork
  by_cases hfixed : s.flag .GLB_MODE_FIXED = true
  · exact .inl (if_pos hfixed)
  · rw [if_neg hfixed]
    generalize s.failedPiece = x
    cases x with
    | none => exact .inl rfl
    | some c =>
      dsimp only
      generalize hfind : ((upTo 16).find? fun n => s.churnReady n && !s.kept n) = y
      cases y with
      | some n =>
        have hready := List.find?_some hfind
        exact .inr (.inl ⟨c, n, (Bool.and_eq_true _ _ ▸ hready).1, rfl⟩)
      | none =>
        dsimp only
        by_cases hfree : (s.anyFree || s.rd .JOB_SLOT_ST_STATE s.recoverySlot != 0) = true
        · exact .inl (if_pos hfree)
        · rw [if_neg hfree]
          generalize hvictims : s.victims = l
          cases l with
          | nil => exact .inl rfl
          | cons e l => exact .inr (.inr ⟨c, e.1, e.2, by simp, rfl⟩)

theorem Dev.resident_of_victims {s : Dev} {n : Nat} {r : Resident} (h : (n, r) ∈ s.victims) : s.resident n = some r := by
  simp only [victims, mem_sortBy, List.mem_filterMap] at h
  obtain ⟨m, -, hm⟩ := h
  generalize hr : s.resident m = x at hm
  cases x with
  | none => simp at hm
  | some r' =>
    dsimp only at hm
    obtain ⟨-, hm⟩ := Option.ite_none_right_eq_some.1 hm
    obtain ⟨rfl, rfl⟩ := Prod.mk.inj (Option.some.inj hm)
    exact hr

theorem Dev.beginSave_jobs (s : Dev) (n : Nat) {k : Nat} (hk : k < 1024) (cheap : Option (List (Nat × Nat))) :
    (s.beginSave n k cheap).jobs = s.jobs :=
  ((Within.refl (slotFields k) jobs s).beginSave hk (fun _ h => h) n cheap (fun _ _ => rfl) (fun _ _ => rfl)
    fun _ _ => rfl).same

/-- The work of a failed Churn goes to another. -/
theorem Dev.recoverWork_within {s : Dev} {n : Nat} (hfree : s.resident n = none) : Within (slotFields s.recoverySlot) (fun d => d.churn n) s s.recoverWork := by
  rcases s.recoverWork_cases with h | ⟨c, m, -, h⟩ | ⟨c, m, r, hv, h⟩ <;> rw [h]
  · exact .refl ..
  · exact (Within.refl _ _ s).step rfl rfl rfl rfl
  · have hm : n ≠ m := fun e => absurd (resident_of_victims hv) (by simp [← e, hfree])
    have hsave := (Within.refl (slotFields s.recoverySlot) (fun d => d.churn n) s).beginSave s.recoverySlot_lt (fun _ h => h) m none
      (fun _ _ => rfl) (fun _ _ => rfl) fun d x => d.churn_setChurn_ne m n _ hm
    exact hsave.step rfl rfl rfl rfl

theorem Dev.recoverWork_unkept {s : Dev} {n : Nat} (hiso : s.flag .CHN_STAT_ISO n = true) (hfree : s.resident n = none) (h : s.unkept n) :
    s.recoverWork.unkept n := by
  rcases s.recoverWork_cases with he | ⟨c, m, hready, he⟩ | ⟨c, m, r, hv, he⟩ <;> rw [he]
  · exact h
  · have hm : m ≠ n := fun e => by simp [e, churnReady, churnFree, hiso] at hready
    exact unkept_keepChurn h hm c
  · have hm : m ≠ n := fun e => by simp [e ▸ resident_of_victims hv] at hfree
    exact unkept_keepChurn (unkept_of_jobs h (s.beginSave_jobs m s.recoverySlot_lt none)) hm c

theorem Dev.recoverWork_fixed {s : Dev} (h : s.flag .GLB_MODE_FIXED = true) : s.recoverWork = s := if_pos h

theorem Dev.recoverWork_sound {s : Dev} (h : ∀ j ∈ s.jobs, ∀ p ∈ j.pieces, p.failed = false) : s.recoverWork = s := by
  have hnone : s.failedPiece = none := by
    refine List.find?_eq_none.2 fun c hc => ?_
    simp only [readyInspection, readyIn, inspectionOrder, readyOf, List.mem_flatMap, List.mem_map, List.mem_append, mem_sortBy, List.mem_filter] at hc
    obtain ⟨j, hj, e, ⟨x, ⟨hx, -⟩, rfl⟩, rfl⟩ := hc
    have hjob : j ∈ s.jobs := by
      rcases hj with ⟨⟨hj, -⟩, -⟩ | ⟨⟨hj, -⟩, -⟩ <;> exact hj
    simp [h j hjob x.1 (List.fst_mem_of_mem_zipIdx hx)]
  unfold recoverWork
  rw [hnone]
  split <;> rfl

theorem Dev.enterFixed_idle {s : Dev} (h : s.fixing = false) : s.enterFixed = s := if_neg (by simp [h])

theorem Dev.enterFixed_runs {s : Dev} (hfix : s.fixing = true) (hrun : s.allRun = true) :
    s.enterFixed.flag .GLB_MODE_FIXED = true ∧ s.enterFixed.fixing = false := by
  have he : s.enterFixed =
      { (s.setFlag .GLB_MODE_FIXED 0 true).setFlag .GLB_DET_STAT_FIXED 0 true with fixing := false, runHit := false } :=
    if_pos (by simp [hfix, hrun])
  have hmode := flag_wr_toNat s .GLB_MODE_FIXED 0 true (by decide)
  have hdet := ((Within.refl [(.GLB_DET_STAT_FIXED, 0)] id (s.setFlag .GLB_MODE_FIXED 0 true)).setFlag (f := .GLB_DET_STAT_FIXED) (i := 0) true
    (by decide) (by simp)).flag (f := .GLB_MODE_FIXED) (i := 0) (by decide) (by simp)
  rw [he]
  exact ⟨hdet.trans hmode, rfl⟩

/-- The fields that the record of a block reset changes. -/
def resetNoteFields : List (Field × Nat) := (.GLB_DET_STAT_FIXDIST, 0) :: logFields

/-- The count, the record and the message of a block reset. -/
theorem Dev.reported_within {α : Type} {m : Dev → α} (s : Dev) (n cause : Nat) (hm : Quiet m)
    (hod : ∀ d a b, m { d with od := a, runHit := b } = m d) :
    Within resetNoteFields m s ((((s.countOd 0x3030 7 32).tally 0x0052 n 0xFFFFFFFF cause).disturb).raiseVec 13) := by
  have hcount : Within resetNoteFields m s (s.countOd 0x3030 7 32) := (Within.refl _ m s).step rfl rfl rfl (hod s.rest _ s.rest.runHit)
  exact ((hcount.tally 0x0052 n 0xFFFFFFFF cause 0 (fun _ h => List.mem_cons_of_mem _ h) hm).disturb (by simp [resetNoteFields]) hod).raiseVec 13

theorem Dev.noteReset_within {α : Type} {m : Dev → α} (s : Dev) (n cause : Nat) (hm : Quiet m)
    (hod : ∀ d a b, m { d with od := a, runHit := b } = m d) (hjobs : ∀ d x, m { d with jobs := x } = m d) :
    Within resetNoteFields m s (s.noteReset n cause) := by
  have h := s.reported_within n cause hm hod
  unfold noteReset
  generalize (((s.countOd 0x3030 7 32).tally 0x0052 n 0xFFFFFFFF cause).disturb).raiseVec 13 = u at h ⊢
  exact h.step rfl rfl rfl (hjobs u.rest _)

/-- A Churn that a block reset has taken: isolated, at its reset values, with no context. -/
structure Dev.Halted (n : Nat) (s : Dev) : Prop where
  iso : s.flag .CHN_STAT_ISO n = true
  reset : ∀ f ∈ chnBlockFields, s.rd f n = f.resetAt n
  free : s.resident n = none

theorem Dev.Halted.within {l : List (Field × Nat)} {s t : Dev} {n : Nat} (h : s.Halted n) (hn : n < 1024)
    (ht : Within l (fun d => d.churn n) s t) (hl : ∀ f ∈ .CHN_STAT_ISO :: chnBlockFields, (f, n) ∉ l) : t.Halted n where
  iso := (ht.flag hn (hl _ List.mem_cons_self)).trans h.iso
  reset f hf := (ht.rd hn (hl f (List.mem_cons_of_mem _ hf))).trans (h.reset f hf)
  free := (congrArg Churn.ctx ht.same :).trans h.free

theorem Dev.halted_isolated {s : Dev} {n : Fin 16} (h : s.resident n = none) : (s.isolated n).Halted n where
  iso := s.isolated_iso n
  reset _ hf := s.isolated_rd n hf
  free := by
    have hchurns := churns_of_after (s.isolated_after n)
    have hctx := (congrArg Churn.ctx (churn_of_churns hchurns n)).trans (congrArg Churn.ctx (s.loseChurn_churn n))
    exact hctx.trans h

/-- The Churn of a block reset, before the scheduler turns to its work. -/
theorem Dev.halted_noteReset {s : Dev} {n : Fin 16} (h : s.resident n = none) (cause : Nat) :
    ((s.isolated n).noteReset n cause).Halted n :=
  (halted_isolated h).within (by omega)
    ((s.isolated n).noteReset_within n cause (fun _ _ h => (congrArg (fun d : Dev => d.churn n) h :)) (fun _ _ _ => rfl) fun _ _ => rfl)
    (by simp [resetNoteFields, logFields, chnBlockFields])

theorem Dev.halted_enterFixed {s : Dev} {n : Fin 16} (h : s.Halted n) : s.enterFixed.Halted n :=
  h.within (by omega) ((Within.refl _ _ s).enterFixed (fun _ h => h) fun _ _ _ => rfl) (by simp [chnBlockFields])

theorem Dev.halted_recoverWork {s : Dev} {n : Fin 16} (h : s.Halted n) : s.recoverWork.Halted n :=
  h.within (by omega) (recoverWork_within h.free) (by simp [slotFields, chnBlockFields])

/-- After a block reset the Churn is held, at its reset values and without a context. -/
theorem Dev.halted_resetChurn {s : Dev} {n : Fin 16} (h : (s.cleared n).resident n = none) (cause : Nat) : (s.resetChurn n cause).Halted n :=
  halted_recoverWork (halted_enterFixed (halted_noteReset h cause))

/-- After a block reset no piece waits for the Churn. -/
theorem Dev.resetChurn_unkept {s : Dev} {n : Fin 16} (h : s.resident n = none) (cause : Nat) : (s.resetChurn n cause).unkept n := by
  have hhalted := halted_enterFixed (halted_noteReset h cause)
  have hfree : ((s.isolated n).noteReset n cause).unkept n := unkept_freeKept _ n
  have hjobs : ((s.isolated n).noteReset n cause).enterFixed.jobs = ((s.isolated n).noteReset n cause).jobs :=
    ((Within.refl [(.GLB_MODE_FIXED, 0), (.GLB_DET_STAT_FIXED, 0)] jobs _).enterFixed (fun _ h => h) fun _ _ _ => rfl).same
  rw [resetChurn_eq, cleared_none h]
  generalize (s.isolated n).noteReset n cause = u at hhalted hfree hjobs
  exact recoverWork_unkept hhalted.iso hhalted.free (unkept_of_jobs hfree hjobs)

theorem Dev.resident_of_churns {s t : Dev} (h : t.churns = s.churns) (n : Nat) : t.resident n = s.resident n := by simp only [resident, churn, h]

theorem Dev.vacate_resident (s : Dev) (n : Nat) : (s.vacate n).resident n = none := by
  unfold vacate
  dsimp only
  generalize (if (s.resident n).isSome then s.traceContext n 3 else s) = u
  have hgone : ((u.settle n).setResident n none).resident n = none := by simp [resident, setResident]
  generalize (u.settle n).setResident n none = v at hgone ⊢
  exact (resident_of_churns (by simp only [setFlag, wr_churns]) n).trans hgone

theorem Dev.releaseSlot_churns (s : Dev) (k : Nat) : (s.releaseSlot k).churns = s.churns := by
  simp only [releaseSlot, emptySlot, noteRecovery, setFlag, wr_churns]

theorem Dev.returnContext_resident (s : Dev) (n : Nat) (r : Resident) : (s.returnContext n r).resident n = none := by
  have hset (d : Dev) (k : Nat) : (d.wr .JOB_SLOT_ST_STATE k 2).noteRecovery.churns = d.churns := by
    simp only [noteRecovery, setFlag, wr_churns]
  have hupd (d : Dev) (f : Job → Job) : (d.updJob r.job f).resident n = d.resident n := rfl
  have hpiece (d : Dev) (st : PieceSt) : (d.setPiece r.job r.piece st).resident n = d.resident n := rfl
  have hvacant := s.vacate_resident n
  unfold returnContext
  dsimp only
  generalize s.vacate n = v at hvacant ⊢
  have hgone (f : Job → Job) := (hupd v f).trans hvacant
  generalize v.updJob r.job = w at hgone ⊢
  cases r.restoring with
  | some k => exact (hpiece ..).trans ((resident_of_churns (hset _ k) n).trans (hgone _))
  | none =>
    cases r.saving with
    | none => exact (hpiece ..).trans (hgone _)
    | some k => exact (hpiece ..).trans ((resident_of_churns (Dev.releaseSlot_churns _ k) n).trans (hgone _))

theorem Dev.cleared_resident (s : Dev) (n : Nat) : (s.cleared n).resident n = none := by
  cases h : s.resident n with
  | none => rw [cleared_none h]; exact h
  | some r =>
    have he : s.cleared n = (s.jobFault r.job).returnContext n r := by simp only [cleared, h]
    exact he ▸ returnContext_resident ..

theorem Dev.noteReset_fixing (s : Dev) (n cause : Nat) : (s.noteReset n cause).fixing = s.fixing :=
  (s.noteReset_within n cause (m := fixing) (fun _ _ h => (congrArg fixing h :)) (fun _ _ _ => rfl) fun _ _ => rfl).same

/-- A block reset of the last Churn that did not run completes the entry into fixed-schedule mode (R219). -/
theorem Dev.resetChurn_fixes {s : Dev} {n : Fin 16} (h : s.resident n = none) (hfix : s.fixing = true)
    (hruns : ∀ m : Fin 16, m ≠ n → s.flag .CHN_STAT_ISO m = true ∨ s.rd .CHN_STAT_PWR m = 3) (cause : Nat) :
    (s.resetChurn n cause).flag .GLB_MODE_FIXED = true ∧ (s.resetChurn n cause).fixing = false := by
  have hhalted := halted_noteReset h cause
  have hfix' : ((s.isolated n).noteReset n cause).fixing = true :=
    (noteReset_fixing ..).trans ((fixing_of_after (s.isolated_after n)).trans hfix)
  have hfields : FieldsKept (isolatedFields n ++ resetNoteFields) s ((s.isolated n).noteReset n cause) :=
    ((s.isolated_within (n := n) (by omega)).fields.mono fun _ h => List.mem_append_left _ h).trans
      (((s.isolated n).noteReset_within n cause (m := fun _ => ()) (fun _ _ _ => rfl) (fun _ _ _ => rfl) fun _ _ => rfl).fields.mono fun _ h => List.mem_append_right _ h)
  rw [resetChurn_eq, cleared_none h]
  generalize (s.isolated n).noteReset n cause = u at hhalted hfix' hfields
  have hrun : u.allRun = true := by
    refine List.all_eq_true.2 fun m hm => ?_
    by_cases hmn : m = n
    · simp [hmn, hhalted.iso]
    · have hlt := lt_of_mem_upTo hm
      have hiso : u.rd .CHN_STAT_ISO m = s.rd .CHN_STAT_ISO m :=
        hfields _ _ (by omega) (by simp [isolatedFields, resetNoteFields, logFields, chnBlockFields, hmn])
      have hpwr : u.rd .CHN_STAT_PWR m = s.rd .CHN_STAT_PWR m :=
        hfields _ _ (by omega) (by simp [isolatedFields, resetNoteFields, logFields, chnBlockFields, hmn])
      have := hruns ⟨m, hlt⟩ (by simpa [Fin.ext_iff] using hmn)
      simpa [flag_eq, hiso, hpwr] using this
  have henter := enterFixed_runs hfix' hrun
  rw [recoverWork_fixed henter.1]
  exact henter

/-- What the module holds beside what a block reset of an idle Churn changes. -/
def Dev.butReset (s : Dev) : Dev := { s.body with mem := [], churns := [], od := [], runHit := false, tlb := [] }

theorem Dev.quiet_butReset : Quiet butReset := fun d e h => by simp only [butReset, rest_body, h]

theorem Dev.body_of_butReset {s t : Dev} {tlb : List Cached} {hit : Bool} (htlb : t.tlb = tlb) (hhit : t.runHit = hit)
    (h : t.rest.butReset = s.rest.butReset) :
    t.body = { s.body with mem := t.mem, churns := t.churns, od := t.od, runHit := hit, tlb := tlb } := by
  subst htlb hhit
  exact (congrArg (fun d : Dev => { d with mem := t.mem, churns := t.churns, od := t.od, runHit := t.runHit, tlb := t.tlb }) h :)

theorem Dev.butReset_of_butLost {s t : Dev} (h : t.rest.butLost = s.rest.butLost) : t.rest.butReset = s.rest.butReset :=
  (congrArg butReset h :)

theorem Dev.runHit_of_butLost {s t : Dev} (h : t.rest.butLost = s.rest.butLost) : t.runHit = s.runHit :=
  (congrArg runHit h :)

theorem Dev.disturb_runHit (s : Dev) : s.disturb.runHit = (s.runHit || s.flag .GLB_MODE_FIXED) := by
  unfold disturb
  cases hfixed : s.flag .GLB_MODE_FIXED with
  | false => simp
  | true =>
    cases hhit : s.runHit with
    | false => simp [hhit]
    | true => simp [hhit]

theorem Dev.reported_runHit (s : Dev) (n cause : Nat) :
    ((((s.countOd 0x3030 7 32).tally 0x0052 n 0xFFFFFFFF cause).disturb).raiseVec 13).runHit = (s.runHit || s.flag .GLB_MODE_FIXED) := by
  have htally := (Within.refl logFields runHit (s.countOd 0x3030 7 32)).tally 0x0052 n 0xFFFFFFFF cause 0 (fun _ h => h)
    fun _ _ h => (congrArg runHit h :)
  have hflag := htally.flag (f := .GLB_MODE_FIXED) (i := 0) (by decide) (by decide)
  have hhit := htally.same
  generalize (s.countOd 0x3030 7 32).tally 0x0052 n 0xFFFFFFFF cause = u at hflag hhit
  have hraise : (u.disturb.raiseVec 13).runHit = u.disturb.runHit := ((Within.refl [] runHit u.disturb).raiseVec 13).same
  rw [hraise, disturb_runHit, hflag]
  exact congrArg (· || _) hhit

/-- The block reset of an idle Churn for which nothing waits, outside the entry into fixed-schedule mode. -/
theorem Dev.resetChurn_idle {s : Dev} {n : Fin 16} (h : s.resident n = none) (hfix : s.fixing = false)
    (hsound : ∀ j ∈ s.jobs, ∀ p ∈ j.pieces, p.failed = false ∧ p.target ≠ some (n : Nat)) (cause : Nat) :
    s.resetChurn n cause =
      (((((s.isolated n).countOd 0x3030 7 32).tally 0x0052 n 0xFFFFFFFF cause).disturb).raiseVec 13) := by
  have hafter := (s.isolated n).reported_within n cause (m := afterReset) (fun _ _ h => (congrArg afterReset h :)) fun _ _ _ => rfl
  have hkept := (afterReset_of_rest hafter.same).trans (s.isolated_after n)
  have hjobs := jobs_of_after hkept
  have hfixing := (fixing_of_after hkept).trans hfix
  rw [resetChurn_eq, cleared_none h, noteReset]
  generalize (((s.isolated n).countOd 0x3030 7 32).tally 0x0052 n 0xFFFFFFFF cause).disturb.raiseVec 13 = u at hjobs hfixing ⊢
  have hjobs : u.jobs = s.jobs := hjobs
  rw [freeKept_unkept fun j hj p hp => (hsound j (hjobs ▸ hj) p hp).2, enterFixed_idle hfixing,
    recoverWork_sound fun j hj p hp => (hsound j (hjobs ▸ hj) p hp).1]

theorem completes_sequencerHang {s : State} {n : Fin 16} {r : Resident} (h : s.resident n = some r) :
    Completes (.sequencerHang n) s fun t => t.flag .CHN_STAT_ISO n = true ∧ t.resident n = none ∧ t.flag .CHN_STAT_BUSY n = false := by
  have heff : s.toDev.sequencerHang n = s.resetChurn n 2 := if_pos (by simp [h])
  have hhalted := Dev.halted_resetChurn (s.cleared_resident n) 2
  generalize s.resetChurn n 2 = u at heff hhalted
  have hbusy : u.rd .CHN_STAT_BUSY n = 0 := hhalted.reset _ (by simp [chnBlockFields])
  exact .of_effect (exec_sequencerHang n s) rfl heff ⟨(Dev.notify_flag ..).trans hhalted.iso,
    (Dev.resident_of_churns (Dev.notify_churns ..) n).trans hhalted.free, (Dev.notify_flag ..).trans (by rw [Dev.flag_eq, hbusy]; rfl)⟩

/-- What a block reset does to an idle Churn, whatever else happens. -/
theorem completes_blockReset {s : State} {n : Fin 16} (h : s.resident n = none) (cause : ChurnFault) :
    Completes (.churnBlockReset n cause) s fun t =>
      t.flag .CHN_STAT_ISO n = true ∧ (∀ f ∈ chnBlockFields, t.rd f n = f.resetAt n) ∧
      (∀ j ∈ t.jobs, ∀ p ∈ j.pieces, p.target ≠ some (n : Nat)) ∧
      (s.fixing = true → (∀ m : Fin 16, m ≠ n → s.flag .CHN_STAT_ISO m = true ∨ s.rd .CHN_STAT_PWR m = 3) →
        t.flag .GLB_MODE_FIXED = true ∧ t.fixing = false) := by
  have hhalted := Dev.halted_resetChurn (s.cleared_resident n) (causeCode cause)
  have hunkept := Dev.resetChurn_unkept h (causeCode cause)
  have hfixes := fun hfix hruns => Dev.resetChurn_fixes h hfix hruns (causeCode cause)
  obtain ⟨u, heff⟩ : ∃ u, s.toDev.resetChurn n (causeCode cause) = u := ⟨_, rfl⟩
  rw [heff] at hhalted hunkept hfixes
  refine .of_effect (exec_churnBlockReset n cause s) rfl heff ⟨(Dev.notify_flag ..).trans hhalted.iso,
    fun f hf => (Dev.notify_rd ..).trans (hhalted.reset f hf), ?_, fun hfix hruns => ⟨(Dev.notify_flag ..).trans (hfixes hfix hruns).1, ?_⟩⟩
  · rw [Dev.notify_jobs]
    exact hunkept
  · rw [Dev.notify_fixing]
    exact (hfixes hfix hruns).2

/-- What a block reset of an idle Churn changes where nothing waits for it. -/
theorem completes_blockReset_idle {s : State} {n : Fin 16} (h : s.resident n = none) (cause : ChurnFault) (hfix : s.fixing = false)
    (hsound : ∀ j ∈ s.jobs, ∀ p ∈ j.pieces, p.failed = false ∧ p.target ≠ some (n : Nat)) (k : Nat) :
    Completes (.churnBlockReset n cause) s fun t =>
      t.churn n = {} ∧ (k < lsSize → t.byteAt (lsOf n + k) = 0) ∧ KeepsBytes s t (lsOf n) lsSize ∧
      KeepsFields s t ((.CHN_STAT_ISO, (n : Nat)) :: (.GLB_DET_STAT_FIXDIST, 0) :: logFields ++ chnBlockFields.map fun f => (f, (n : Nat))) ∧
      t.body = { s.body with mem := t.mem, churns := t.churns, od := t.od, runHit := s.runHit || s.flag .GLB_MODE_FIXED,
                             tlb := s.tlb.filter fun e => e.chn != some (n : Nat) } := by
  have heff := Dev.resetChurn_idle h hfix hsound (causeCode cause)
  have hiso := s.isolated_within (n := n) (by omega)
  have hafter := (s.isolated n).reported_within n (causeCode cause) (m := Dev.afterReset) (fun _ _ h => (congrArg Dev.afterReset h :)) fun _ _ _ => rfl
  have hrep := (s.isolated n).reported_within n (causeCode cause) Dev.quiet_butReset fun _ _ _ => rfl
  have hhit := (s.isolated n).reported_runHit n (causeCode cause)
  have hkept := (Dev.afterReset_of_rest hafter.same).trans (s.isolated_after n)
  have hlost := Dev.butReset_of_butLost hiso.same
  have hmode : (s.isolated n).flag .GLB_MODE_FIXED = s.flag .GLB_MODE_FIXED :=
    hiso.flag (by decide) (by simp [isolatedFields, chnBlockFields])
  have hall : Dev.Within ((.CHN_STAT_ISO, (n : Nat)) :: (.GLB_DET_STAT_FIXDIST, 0) :: logFields ++ chnBlockFields.map fun f => (f, (n : Nat)))
      Dev.butReset s.toDev (((((s.isolated n).countOd 0x3030 7 32).tally 0x0052 n 0xFFFFFFFF (causeCode cause)).disturb).raiseVec 13) := by
    refine ⟨(hiso.fields.mono ?_).trans (hrep.fields.mono ?_), hrep.same.trans hlost⟩
    · simp +contextual [isolatedFields]
    · simp +contextual [resetNoteFields]
  rw [hmode, Dev.runHit_of_butLost hiso.same] at hhit
  generalize (((s.isolated n).countOd 0x3030 7 32).tally 0x0052 n 0xFFFFFFFF (causeCode cause)).disturb.raiseVec 13 = u at heff hkept hall hhit
  have hbyte (a : Nat) := (Dev.byteAt_of_mem (Dev.mem_of_after hkept) a).trans (s.loseChurn_byteAt n a)
  have hchurn : u.churn n = {} := ((Dev.churn_of_churns (Dev.churns_of_after hkept) n).trans (s.loseChurn_churn n)).trans (by rw [h])
  refine .of_effect (exec_churnBlockReset n cause s) rfl heff
    ⟨(Dev.churn_of_churns (Dev.notify_churns ..) n).trans hchurn, fun hk => ?_, fun a ha => ?_, hall.kept, ?_⟩
  · rw [Dev.byteAt_of_mem (Dev.notify_mem ..), hbyte, if_pos (by omega)]
  · rw [Dev.byteAt_of_mem (Dev.notify_mem ..), hbyte, if_neg (by omega)]
  · have hbody := Dev.body_of_butReset (Dev.tlb_of_after hkept) hhit hall.same
    rw [Dev.notify_mem, Dev.notify_churns, Dev.notify_od]
    exact (Dev.notify_body ..).trans hbody

/-- Settles O34: a Churn that is gated or reset loses its state, and is held or runs as the field of its power says. -/
theorem churnPowerAndReset : Obligations.ChurnPowerAndReset := by
  intro s n cause r k
  refine ⟨fun hfree hiso hfixed hfixing => ⟨fun hpwr hnocg => ?_, fun hpwr hnopg => ?_⟩, fun hpwr hfixing => ?_, fun hfree => ?_, fun hres => ?_,
    fun hfree => ?_⟩
  · exact completes_churnPower (exec_churnClockGate n s) rfl
      (if_pos (by simp [Dev.churnFree, hfree, hiso, hfixed, hfixing, hpwr, hnocg])) (by decide)
  · exact completes_churnPowerGate hfree hiso hfixed hfixing hpwr hnopg k
  · exact completes_churnPower (exec_churnPowerUpDone n s) rfl
      ((if_pos hpwr).trans (Dev.enterFixed_idle ((Dev.wr_fixing ..).trans hfixing))) (by decide)
  · exact completes_idle (exec_sequencerHang n s) (if_neg (by simp [hfree]))
  · exact completes_sequencerHang hres
  · by_cases hidle : s.fixing = false ∧ ∀ j ∈ s.jobs, ∀ p ∈ j.pieces, p.failed = false ∧ p.target ≠ some (n : Nat)
    · exact ((completes_blockReset hfree cause).and (completes_blockReset_idle hfree cause hidle.1 hidle.2 k)).imp
        fun t ⟨⟨hiso, hreset, hunkept, hfixes⟩, hrest⟩ => ⟨hiso, hreset, hunkept, hfixes, fun _ _ => hrest⟩
    · exact (completes_blockReset hfree cause).imp
        fun t ⟨hiso, hreset, hunkept, hfixes⟩ => ⟨hiso, hreset, hunkept, hfixes, fun hfix hsound => absurd ⟨hfix, hsound⟩ hidle⟩

end Sys2Proof.Machine

end

section
/-! Queues and admission (R183 to R189). -/

namespace Sys2Proof.Machine

open Sys2Proof

theorem exec_queueTailWrite (src : Source) (q : Fin 9) (tail : Nat) (s : State) :
    exec (.queueTailWrite src q tail) s = s.run (.queueTailWrite src q tail) fun d => d.queueTailWrite src q tail := rfl

theorem exec_jobAdmit (s : State) : exec .jobAdmit s = s.run .jobAdmit fun d => d.jobAdmit := rfl

/-! ### The tail of a queue -/

theorem completes_queueTail {s : State} {q : Fin 9} {src : Source} {tail : Nat} (ht : tail < 65536) (howner : src = .host ↔ (q : Nat) < 8) :
    Completes (.queueTailWrite src q tail) s fun t =>
      t.rd .JOB_Q_TAIL q = tail ∧ KeepsFields s t [(.JOB_Q_TAIL, (q : Nat))] ∧ t.rest = s.rest := by
  have heff : s.toDev.queueTailWrite src q tail = s.wr .JOB_Q_TAIL q tail := if_pos (by rw [beq_iff_eq, Bool.eq_iff_iff]; simpa using howner)
  have hset := (Dev.Within.refl [(.JOB_Q_TAIL, (q : Nat))] id s.toDev).wr (f := .JOB_Q_TAIL) (i := q) tail (by omega) (by simp)
  exact .of_effect (exec_queueTailWrite src q tail s) (decide_eq_true ht) heff
    ⟨(Dev.notify_rd ..).trans ((Dev.rd_wr ..).trans (wrap_of_lt ht)), hset.kept, (Dev.notify_rest ..).trans hset.same⟩

theorem completes_queueTail_refused {s : State} {q : Fin 9} {src : Source} {tail : Nat} (ht : tail < 65536) (howner : src = .host ↔ 8 ≤ (q : Nat)) :
    Completes (.queueTailWrite src q tail) s fun t =>
      t.flag .GLB_ERR_STAT_OWNERR = true ∧ t.rd .GLB_OWNERR_CNT = satSucc 32 (s.rd .GLB_OWNERR_CNT) ∧
      KeepsFields s t [(.GLB_ERR_STAT_OWNERR, 0), (.GLB_OWNERR_CNT, 0)] ∧ t.rest = s.rest := by
  have heff : s.toDev.queueTailWrite src q tail = s.ownerError := if_neg (by
    rw [beq_iff_eq, Bool.eq_iff_iff, beq_iff_eq, decide_eq_true_iff, howner]
    omega)
  obtain ⟨hset, hflag, hcount⟩ := s.ownerError_reads
  exact .of_effect (exec_queueTailWrite src q tail s) (decide_eq_true ht) heff
    ⟨(Dev.notify_flag ..).trans hflag, (Dev.notify_rd ..).trans hcount, hset.kept, (Dev.notify_rest ..).trans hset.same⟩

/-! ### Admission -/

section
variable {α : Type} {l : List (Field × Nat)} {m : Dev → α} {s t : Dev}

theorem Dev.Within.traceAdmit (h : Within l m s t) (kind id : Nat) (hl : (.OBS_TRC_DROP_COUNT, 0) ∈ l)
    (hm : ∀ d x, m { d with trace := x } = m d) (hfree : ∀ d x, m { d with free := x } = m d) : Within l m s (t.traceAdmit kind id) := by
  unfold Dev.traceAdmit
  split
  · exact (h.useFree hfree).traceRecord _ _ _ hl hm
  · exact h

theorem Dev.Within.touchArgs (h : Within l m s t) (asid : Nat) (c : Command) (hm : ∀ d x, m { d with tlb := x } = m d) :
    Within l m s (t.touchArgs asid c) := by
  unfold Dev.touchArgs
  cases c.args? with
  | none => exact h
  | some a =>
    dsimp only
    generalize t.vread none asid a 128 = x
    cases x with
    | ok b => exact h.touch _ _ _ _ _ hm
    | fault f => exact h
    | error => exact h

end

/-- What a read of the tables of a job changes. -/
def Dev.butRead (s : Dev) : Dev := { s with tlb := [], free := 0 }

/-- What the module holds beside what an admission changes. -/
def Dev.butAdmitted (s : Dev) : Dev := { s with jobs := [], jobSeq := 0, tlb := [], free := 0, trace := {} }

/-- What the module holds beside what a refused admission changes. -/
def Dev.butRefused (s : Dev) : Dev := { s with mem := [], od := [], tlb := [], free := 0, trace := {} }

theorem Dev.rest_of_butAdmitted {s t : Dev} {seq : Nat} (hseq : t.jobSeq = seq) (h : t.rest.butAdmitted = s.rest.butAdmitted) :
    t.rest = { s.rest with jobs := t.jobs, jobSeq := seq, tlb := t.tlb, free := t.free, trace := t.trace } :=
  hseq ▸ (congrArg (fun d : Dev => { d with jobs := t.jobs, jobSeq := t.jobSeq, tlb := t.tlb, free := t.free, trace := t.trace }) h :)

theorem Dev.rest_of_butRefused {s t : Dev} (h : t.rest.butRefused = s.rest.butRefused) :
    t.rest = { s.rest with mem := t.mem, od := t.od, tlb := t.tlb, free := t.free, trace := t.trace } :=
  (congrArg (fun d : Dev => { d with mem := t.mem, od := t.od, tlb := t.tlb, free := t.free, trace := t.trace }) h :)

/-- The scheduler has read a descriptor at `va` and its command list, and whatever argument blocks they name. -/
def Dev.readJob (s : Dev) (asid va : Nat) (d : List Byte) (cmds : List Command) : Dev :=
  cmds.foldl (fun (u : Dev) c => u.touchArgs (bits (leAt d 5 1) 0 4) c)
    ((s.touch none asid 0 va 64).touch none (bits (leAt d 5 1) 0 4) 0 (leAt d 8 8) (32 * leAt d 16 2)).useFree

theorem Dev.readJob_within (s : Dev) (asid va : Nat) (d : List Byte) (cmds : List Command) : Within [] butRead s (s.readJob asid va d cmds) := by
  have htouch := ((Within.refl [] butRead s).touch none asid 0 va 64 fun _ _ => rfl).touch none (bits (leAt d 5 1) 0 4) 0 (leAt d 8 8)
    (32 * leAt d 16 2) fun _ _ => rfl
  exact (htouch.useFree fun _ _ => rfl).foldl cmds fun u c _ => (Within.refl _ _ u).touchArgs _ c fun _ _ => rfl

theorem Dev.jobOf_congr {s t : Dev} (h : t.rest.butRead = s.rest.butRead) (q : Nat) (d : List Byte) (cmds : List Command) :
    t.jobOf q d cmds = s.jobOf q d cmds := by
  have hseq : t.jobSeq = s.jobSeq := (congrArg jobSeq h :)
  have hclk : t.xclk = s.xclk := (congrArg xclk h :)
  simp only [jobOf, hseq, hclk]

/-- A job enters the table last. -/
def Dev.enterJob (s : Dev) (q : Nat) (d : List Byte) (cmds : List Command) : Dev :=
  { s with jobs := s.jobs ++ [s.jobOf q d cmds], jobSeq := s.jobSeq + 1 }

section
variable {s : Dev} {q asid va : Nat} {d : List Byte} (hread : s.vread none asid va 64 = .ok d)
include hread

theorem Dev.takeDescriptor_admits {cmds : List Command} (hcode : s.descriptorCode d = 0)
    (hcmds : s.readCommands (bit (leAt d 4 1) 0) (bits (leAt d 5 1) 0 4) (leAt d 16 2) 0 (leAt d 8 8) = .ok cmds) :
    s.takeDescriptor q asid va = ((s.readJob asid va d cmds).enterJob q d cmds).traceAdmit 1 (leAt d 0 4) := by
  unfold takeDescriptor
  rw [hread]
  dsimp only
  rw [if_neg (by simp [hcode]), hcmds]
  rfl

/-- A descriptor that is refused, for its own sake or for its commands'. -/
theorem Dev.takeDescriptor_refuses {x : Nat × Nat × Nat}
    (h : s.descriptorCode d ≠ 0 ∨ s.readCommands (bit (leAt d 4 1) 0) (bits (leAt d 5 1) 0 4) (leAt d 16 2) 0 (leAt d 8 8) = .error x) :
    ∃ u id cmdidx rcode wcode, Within [] butRead s u ∧ s.takeDescriptor q asid va = u.refuseJob q id cmdidx rcode wcode := by
  unfold takeDescriptor
  rw [hread]
  dsimp only
  by_cases hcode : s.descriptorCode d = 0
  · rw [if_neg (by simp [hcode]), h.resolve_left (by simp [hcode])]
    exact ⟨s.readJob asid va d [], leAt d 0 4, x.1, x.2.1, x.2.2, s.readJob_within asid va d [], rfl⟩
  · rw [if_pos hcode]
    exact ⟨s, _, _, _, _, .refl .., rfl⟩

end

/-- The fields that a completion record and a trace record change. -/
def recordFields : List (Field × Nat) := [(.JOB_CQ_TAIL, 0), (.JOB_CQ_LOST, 0), (.JOB_CQ_STAT_OVF, 0), (.OBS_TRC_DROP_COUNT, 0)]

section
variable {α : Type} {m : Dev → α} {s t : Dev}

theorem Dev.Within.dropRecord (h : Within recordFields m s t) : Within recordFields m s t.dropRecord :=
  (h.count (f := .JOB_CQ_LOST) (i := 0) (by decide) (by simp [recordFields])).setFlag (f := .JOB_CQ_STAT_OVF) (i := 0) true (by decide)
    (by simp [recordFields])

theorem Dev.Within.writeRecord (h : Within recordFields m s t) (queue : Nat) (b : List Byte) (hmem : ∀ d x, m { d with mem := x } = m d)
    (htlb : ∀ d x, m { d with tlb := x } = m d) : Within recordFields m s (t.writeRecord queue b) := by
  unfold Dev.writeRecord
  dsimp only
  split
  · exact h.dropRecord
  · generalize hx : t.vwrite none (t.rd .JOB_CQ_CTL_ASID)
      (t.rd .JOB_CQ_BASE_ADDR * 128 + 32 * (t.rd .JOB_CQ_TAIL % 2 ^ t.rd .JOB_CQ_CTL_LOG2)) b = x
    cases x with
    | ok u =>
      have hwrite := (h.vwrite hx hmem htlb).countMod (f := .JOB_CQ_TAIL) (i := 0) (by decide) (by simp [recordFields])
      dsimp only
      split
      · exact hwrite.send _
      · exact hwrite
    | fault f => exact h.dropRecord
    | error => exact h.dropRecord

end

theorem Dev.refuseJob_within (s : Dev) (q id cmdidx rcode wcode : Nat) : Within recordFields butRefused s (s.refuseJob q id cmdidx rcode wcode) := by
  have hcount : Within recordFields butRefused s (s.countOd 0x3030 8 32) := (Within.refl _ _ s).step rfl rfl rfl rfl
  exact (hcount.traceAdmit 2 id (by simp [recordFields]) (fun _ _ => rfl) fun _ _ => rfl).writeRecord _ _ (fun _ _ => rfl) fun _ _ => rfl

/-- An entry has been taken from a queue, and nothing of the jobs has changed. -/
structure Dev.Taken (s : Dev) (q : Nat) (w : Dev) : Prop where
  fields : FieldsKept [(.JOB_Q_HEAD, q)] s w
  head : w.rd .JOB_Q_HEAD q = wrap 16 (s.rd .JOB_Q_HEAD q + 1)
  jobs : w.jobs = s.jobs
  jobSeq : w.jobSeq = s.jobSeq

section
variable {s : State} {q : Nat} (hq : q < 1024) {asid va : Nat} {w : Dev} {d : List Byte} (heff : s.toDev.jobAdmit = w.takeDescriptor q asid va)
  (hw : s.toDev.Taken q w) (hread : w.vread none asid va 64 = .ok d)
include hq heff hw hread

theorem completes_admitted {cmds : List Command} (hcode : w.descriptorCode d = 0)
    (hcmds : w.readCommands (bit (leAt d 4 1) 0) (bits (leAt d 5 1) 0 4) (leAt d 16 2) 0 (leAt d 8 8) = .ok cmds) :
    Completes .jobAdmit s fun t =>
      t.jobs = s.jobs ++ [w.jobOf q d cmds] ∧ t.rd .JOB_Q_HEAD q = wrap 16 (s.rd .JOB_Q_HEAD q + 1) ∧
      KeepsFields s t [(.JOB_Q_HEAD, q), (.OBS_TRC_DROP_COUNT, 0)] ∧
      t.rest = { w.rest with jobs := t.jobs, jobSeq := s.jobSeq + 1, tlb := t.tlb, free := t.free, trace := t.trace } := by
  rw [Dev.takeDescriptor_admits hread hcode hcmds] at heff
  have hjob := w.readJob_within asid va d cmds
  generalize w.readJob asid va d cmds = u at heff hjob
  have hu : u.jobs = s.jobs := (congrArg Dev.jobs hjob.same :).trans hw.jobs
  have hseq : u.jobSeq = s.jobSeq := (congrArg Dev.jobSeq hjob.same :).trans hw.jobSeq
  have henter : Dev.Within [(.OBS_TRC_DROP_COUNT, 0)] Dev.butAdmitted w (u.enterJob q d cmds) :=
    ⟨hjob.fields.mono (by simp), (congrArg Dev.butAdmitted hjob.same :)⟩
  have hjobs : (u.enterJob q d cmds).jobs = s.jobs ++ [w.jobOf q d cmds] := hu ▸ Dev.jobOf_congr hjob.same q d cmds ▸ rfl
  have hseqs : (u.enterJob q d cmds).jobSeq = s.jobSeq + 1 := congrArg (· + 1) hseq
  generalize u.enterJob q d cmds = v at heff henter hjobs hseqs
  have htrace := henter.traceAdmit 1 (leAt d 0 4) (by simp) (fun _ _ => rfl) fun _ _ => rfl
  have hsame := (Dev.Within.refl [(.OBS_TRC_DROP_COUNT, 0)] (fun d => (d.jobs, d.jobSeq)) v).traceAdmit 1 (leAt d 0 4) (by simp) (fun _ _ => rfl)
    fun _ _ => rfl
  generalize v.traceAdmit 1 (leAt d 0 4) = x at heff htrace hsame
  have hxjobs : x.jobs = s.jobs ++ [w.jobOf q d cmds] := (congrArg Prod.fst hsame.same :).trans hjobs
  have hxseq : x.jobSeq = s.jobSeq + 1 := (congrArg Prod.snd hsame.same :).trans hseqs
  have hall : Dev.Within [(.JOB_Q_HEAD, q), (.OBS_TRC_DROP_COUNT, 0)] (fun _ => ()) s.toDev x :=
    ⟨(hw.fields.mono (by simp)).trans (htrace.fields.mono (by simp)), rfl⟩
  refine .of_effect (exec_jobAdmit s) rfl heff ⟨?_, (Dev.notify_rd ..).trans ((htrace.rd hq (by simp)).trans hw.head), hall.kept, ?_⟩
  · rw [Dev.notify_jobs, hxjobs]
  · rw [Dev.notify_rest, Dev.notify_jobs, Dev.notify_tlb, Dev.notify_free, Dev.notify_trace]
    exact Dev.rest_of_butAdmitted hxseq htrace.same

theorem completes_notAdmitted {x : Nat × Nat × Nat} (h : w.descriptorCode d ≠ 0 ∨
    w.readCommands (bit (leAt d 4 1) 0) (bits (leAt d 5 1) 0 4) (leAt d 16 2) 0 (leAt d 8 8) = .error x) :
    Completes .jobAdmit s fun t =>
      t.jobs = s.jobs ∧ t.rd .JOB_Q_HEAD q = wrap 16 (s.rd .JOB_Q_HEAD q + 1) ∧
      KeepsFields s t [(.JOB_Q_HEAD, q), (.JOB_CQ_TAIL, 0), (.JOB_CQ_LOST, 0), (.JOB_CQ_STAT_OVF, 0), (.OBS_TRC_DROP_COUNT, 0)] ∧
      t.rest = { w.rest with mem := t.mem, od := t.od, tlb := t.tlb, free := t.free, trace := t.trace } := by
  obtain ⟨u, id, cmdidx, rcode, wcode, hu, he⟩ := Dev.takeDescriptor_refuses (q := q) hread h
  rw [he] at heff
  have hrefuse := u.refuseJob_within q id cmdidx rcode wcode
  generalize u.refuseJob q id cmdidx rcode wcode = v at heff hrefuse
  have hall : Dev.Within recordFields Dev.butRefused w v :=
    ⟨(hu.fields.mono (by simp)).trans hrefuse.fields, hrefuse.same.trans (congrArg Dev.butRefused hu.same :)⟩
  have hjobs : v.jobs = s.jobs := (congrArg Dev.jobs hall.same :).trans hw.jobs
  have hfields : Dev.Within ((.JOB_Q_HEAD, q) :: recordFields) (fun _ => ()) s.toDev v :=
    ⟨(hw.fields.mono (by simp)).trans (hall.fields.mono fun _ h => List.mem_cons_of_mem _ h), rfl⟩
  refine .of_effect (exec_jobAdmit s) rfl heff
    ⟨(Dev.notify_jobs ..).trans hjobs, (Dev.notify_rd ..).trans ((hall.rd hq (by simp [recordFields])).trans hw.head), hfields.kept, ?_⟩
  rw [Dev.notify_rest, Dev.notify_mem, Dev.notify_od, Dev.notify_tlb, Dev.notify_free, Dev.notify_trace]
  exact Dev.rest_of_butRefused hall.same

end

/-- The entry at the head of a queue has been passed. -/
def Dev.passHead (s : Dev) (q : Nat) : Dev := { s.countMod .JOB_Q_HEAD q with lastQueue := q }

theorem Dev.passHead_reads (s : Dev) {q : Nat} (hq : q < 1024) : s.Taken q (s.passHead q) where
  fields := ((Within.refl [(.JOB_Q_HEAD, q)] (fun _ => ()) s).countMod (f := .JOB_Q_HEAD) (i := q) hq (by simp)).fields
  head := rd_wr ..
  jobs := wr_jobs ..
  jobSeq := wr_jobSeq ..

theorem Dev.Taken.quiet {s w v : Dev} {q : Nat} (h : s.Taken q w) (hq : q < 1024) (hv : Within [] butRead w v) : s.Taken q v where
  fields := h.fields.trans (hv.fields.mono (by simp))
  head := (hv.rd hq (by simp)).trans h.head
  jobs := (congrArg Dev.jobs hv.same :).trans h.jobs
  jobSeq := (congrArg Dev.jobSeq hv.same :).trans h.jobSeq

section
variable {s : Dev} {q : Nat} (hlive : s.live = true) (hfix : s.fixing = false) (hroom : s.jobs.length < 256) (hnext : s.nextQueue = some q)
include hlive hfix hroom hnext

theorem Dev.jobAdmit_takes : s.jobAdmit = s.takeEntry q := by
  unfold jobAdmit
  rw [if_neg (by simp [hlive, hfix, hroom]), hnext]

theorem Dev.jobAdmit_posted (hq : q = 8) {y : Nat × Nat} {l : List (Nat × Nat)} (hposted : s.posted = y :: l) :
    s.jobAdmit = ({ s.passHead q with posted := l } : Dev).takeDescriptor q (s.rd .JOB_Q_CTL_ASID q) y.1 := by
  have hp : (s.countMod .JOB_Q_HEAD q).posted = y :: l := (wr_posted ..).trans hposted
  rw [jobAdmit_takes hlive hfix hroom hnext, hq] at *
  unfold takeEntry passHead
  dsimp only
  rw [hp]
  rfl

theorem Dev.jobAdmit_queued (hq : q < 1024) (hentry : q ≠ 8 ∨ s.posted = []) {e : List Byte}
    (hread : (s.passHead q).vread none (s.rd .JOB_Q_CTL_ASID q)
      (s.rd .JOB_Q_BASE_ADDR q * 8 + 8 * (s.rd .JOB_Q_HEAD q % 2 ^ s.rd .JOB_Q_CTL_LOG2 q)) 8 = .ok e) :
    s.jobAdmit = ((s.passHead q).touch none (s.rd .JOB_Q_CTL_ASID q) 0
      (s.rd .JOB_Q_BASE_ADDR q * 8 + 8 * (s.rd .JOB_Q_HEAD q % 2 ^ s.rd .JOB_Q_CTL_LOG2 q)) 8).takeDescriptor q (s.rd .JOB_Q_CTL_ASID q) (ofLe e) := by
  have hpass := (Within.refl [(.JOB_Q_HEAD, q)] (fun _ => ()) s).countMod (f := .JOB_Q_HEAD) (i := q) hq (by simp)
  have hbase : (s.passHead q).rd .JOB_Q_BASE_ADDR q = s.rd .JOB_Q_BASE_ADDR q := hpass.rd hq (by simp)
  have hlog : (s.passHead q).rd .JOB_Q_CTL_LOG2 q = s.rd .JOB_Q_CTL_LOG2 q := hpass.rd hq (by simp)
  have hposted : (s.passHead q).posted = s.posted := wr_posted ..
  rw [jobAdmit_takes hlive hfix hroom hnext]
  unfold takeEntry
  change (match q == 8, (s.passHead q).posted with
    | true, (va, _) :: rest => ({ s.passHead q with posted := rest } : Dev).takeDescriptor q (s.rd .JOB_Q_CTL_ASID q) va
    | _, _ =>
      match (s.passHead q).vread none (s.rd .JOB_Q_CTL_ASID q)
        ((s.passHead q).rd .JOB_Q_BASE_ADDR q * 8 + 8 * (s.rd .JOB_Q_HEAD q % 2 ^ (s.passHead q).rd .JOB_Q_CTL_LOG2 q)) 8 with
      | .ok e => ((s.passHead q).touch none (s.rd .JOB_Q_CTL_ASID q) 0
          ((s.passHead q).rd .JOB_Q_BASE_ADDR q * 8 + 8 * (s.rd .JOB_Q_HEAD q % 2 ^ (s.passHead q).rd .JOB_Q_CTL_LOG2 q)) 8).takeDescriptor q
            (s.rd .JOB_Q_CTL_ASID q) (ofLe e)
      | _ => ((s.passHead q).refuseJob q ((s.passHead q).freeValue 32) 0xFFFF 13 0).useFree) = _
  rw [hbase, hlog, hread, hposted]
  rcases hentry with hne | hnil
  · rw [beq_false_of_ne hne]
  · rw [hnil]
    cases q == 8 <;> rfl

end

/-- Settles O35: an admission takes the entry in turn, and its job enters the table last or is refused. -/
theorem jobsAdmittedInTurn : Obligations.JobsAdmittedInTurn := by
  intro s q src tail e d cmds x y l htail
  have hq : (q : Nat) < 1024 := by omega
  refine ⟨completes_queueTail htail, completes_queueTail_refused htail, fun hnone => ?_, fun hlive hfix hroom hnext => ⟨?_, ?_⟩⟩
  · refine completes_idle (exec_jobAdmit s) ?_
    unfold Dev.jobAdmit
    rcases hnone with hfull | hnone
    · exact if_pos (by simp [hfull])
    · rw [hnone]
      split <;> rfl
  · intro hentry hread read htable
    have heff := Dev.jobAdmit_queued hlive hfix hroom hnext hq hentry hread
    have hw := (s.passHead_reads hq).quiet hq ((Dev.Within.refl [] Dev.butRead _).touch none (s.rd .JOB_Q_CTL_ASID q) 0
      (s.rd .JOB_Q_BASE_ADDR q * 8 + 8 * (s.rd .JOB_Q_HEAD q % 2 ^ s.rd .JOB_Q_CTL_LOG2 q)) 8 fun _ _ => rfl)
    exact ⟨completes_admitted hq heff hw htable, completes_notAdmitted hq heff hw htable⟩
  · intro h8 hposted read htable
    have heff := Dev.jobAdmit_posted hlive hfix hroom hnext h8 hposted
    have hw : s.toDev.Taken q { s.passHead q with posted := l } := by
      obtain ⟨hfields, hhead, hjobs, hseq⟩ := s.passHead_reads hq
      exact ⟨hfields, hhead, hjobs, hseq⟩
    exact ⟨completes_admitted hq heff hw htable, completes_notAdmitted hq heff hw htable⟩

end Sys2Proof.Machine

end

section
/-! Pieces and their dispatch (R184, R191, R209, R249). -/

namespace Sys2Proof.Machine

open Sys2Proof

theorem exec_layer (id : Nat) (s : State) : exec (.layer id) s = s.run (.layer id) fun d => d.layerCmd id := rfl

theorem exec_kernel (id : Nat) (s : State) : exec (.kernel id) s = s.run (.kernel id) fun d => d.kernelCmd id := rfl

theorem exec_vcommit (id : Nat) (s : State) : exec (.vcommit id) s = s.run (.vcommit id) fun d => d.vcommit id := rfl

theorem exec_pieceDispatch (s : State) : exec .pieceDispatch s = s.run .pieceDispatch fun d => d.pieceDispatch := rfl

/-! ### Commands of pieces -/

/-- A command that changes one job and nothing else. -/
theorem completes_updJob {c : Instr} {s : State} {f : Dev → Dev} {q : Nat} {g : Job → Job} (hexec : exec c s = s.run c f) (hwf : c.wf = true)
    (heff : f s.toDev = s.updJob q g) :
    Completes c s fun t =>
      t.jobs = (s.jobs.map fun i => if i.seq = q then g i else i) ∧ KeepsFields s t [] ∧ t.rest = { s.rest with jobs := t.jobs } := by
  have hset : Dev.Within [] Dev.butJobs s.toDev (s.updJob q g) := (Dev.Within.refl _ _ s.toDev).step rfl rfl rfl rfl
  refine .of_effect hexec hwf heff ⟨(Dev.notify_jobs ..).trans rfl, hset.kept, ?_⟩
  rw [Dev.notify_rest, Dev.notify_jobs]
  exact Dev.rest_of_butJobs hset.same

section
variable {s : State} {id : Nat} {j : Job} (hid : s.jobById id = some j)
include hid

theorem layerCmd_eq {p code args gap : Nat} (hcmd : j.cmd? = some (.layer p code args gap)) : s.layerCmd id = s.pieceCmd j p := by
  simp only [Dev.layerCmd, hid, hcmd]

theorem kernelCmd_eq {regs group p code args threads gap : Nat} (hcmd : j.cmd? = some (.kernel regs group p code args threads gap)) :
    s.kernelCmd id = s.pieceCmd j p := by
  simp only [Dev.kernelCmd, hid, hcmd]

theorem vcommit_starts {a n : Nat} (hstart : j.started = false) (hcmd : j.cmd? = some (.vcommit a n)) :
    s.vcommit id = s.updJob j.seq fun i => i.start 1 := by
  simp only [Dev.vcommit, hid, hcmd]
  exact if_pos (by simp [hstart])

theorem vcommit_delivers {a n : Nat} {chn : Fin 16} {r : Resident} {b : List Byte} (hstart : j.started = true)
    (hcmd : j.cmd? = some (.vcommit a n)) (hchn : j.churnOf 0 = some (chn : Nat)) (hres : s.resident chn = some r) (hrest : r.restoring = none)
    (habort : j.abort = false) (hread : s.vread (some (chn : Nat)) j.asid a (16 * n) = .ok b) :
    s.vcommit id = ((((s.touch (some (chn : Nat)) j.asid 0 a (16 * n)).deliverAll
      ((upTo n).map fun i => verdictOf ((b.drop (16 * i)).take 16))).useFree).noteWait r).completeCmd j := by
  simp [Dev.vcommit, hid, hcmd, hstart, hchn, hres, hrest, habort, hread]

end

theorem Dev.pieceCmd_starts (s : Dev) {j : Job} (h : j.started = false) (n : Nat) : s.pieceCmd j n = s.updJob j.seq fun i => i.start n :=
  if_neg (by simp [h])

/-- A command whose pieces are all done lets its job go on. -/
theorem Dev.pieceCmd_ends {s : Dev} {j : Job} {p : Nat} (hstart : j.started = true) (hsplit : j.split = false) (hjob : s.job? j.seq = some j)
    (hdone : j.pieces = (upTo p).map fun i => { index := i, st := .done }) (n : Nat) : s.pieceCmd j n = s.updJob j.seq Job.next := by
  have hst : ∀ q ∈ j.pieces, q.st = .done := by
    rw [hdone]
    intro q hq
    obtain ⟨i, -, rfl⟩ := List.mem_map.1 hq
    rfl
  have hfinish : s.finishPieces j = s := foldl_fixed fun e he => by
    rw [hst e.1 (List.fst_mem_of_mem_zipIdx he)]
  have hall : (j.pieces.all fun p => p.st == .done) = true := List.all_eq_true.2 fun q hq => by simp [hst q hq]
  have hnote : s.noteSplit j = s := if_neg (by simp [hsplit])
  rw [pieceCmd, if_pos hstart, completeCmd, hfinish]
  simp only [hjob, hall, hnote, if_true]

/-! ### The records of a VCOMMIT (R249) -/

/-- What the deadline of a part reads beside register fields: the recipes, device time, the offset of the line master and the herd. -/
def Dev.lineRest (s : Dev) : Tab RecipeSlot × Nat × Nat × Herd := (s.slots, s.timeU, s.lmOffset, s.herd)

/-- The parts, the entries of the fire queue, and what the deadline of a part reads, are the same in two states. -/
structure Dev.Alike (s t : Dev) : Prop where
  parts : t.parts = s.parts
  fires : t.fires = s.fires
  deadline : ∀ p, t.pastDeadline p = s.pastDeadline p

theorem Dev.pastDeadline_congr {s t : Dev} (hpos : t.lmPos = s.lmPos) (hslots : t.slots = s.slots) (p : Part) :
    t.pastDeadline p = s.pastDeadline p := by
  have hdeadline : t.deadline p = s.deadline p := by simp only [deadline, slot, hslots]
  delta pastDeadline
  rw [hdeadline, hpos]

theorem Dev.Alike.of_lmPos {s t : Dev} (hparts : t.parts = s.parts) (hfires : t.fires = s.fires) (hpos : t.lmPos = s.lmPos)
    (hslots : t.slots = s.slots) : s.Alike t := ⟨hparts, hfires, pastDeadline_congr hpos hslots⟩

theorem Dev.master_lt (s : Dev) : s.master < 1024 := by
  have h := s.rd_lt .ENC_MSTAT_MASTER 0
  have hw : Field.ENC_MSTAT_MASTER.desc.width = 2 := by rfl
  rw [hw] at h
  exact Nat.lt_of_lt_of_le h (by decide)

theorem Dev.lmPos_of_logged {s t : Dev} (h : Within logFields lineRest s t) : t.lmPos = s.lmPos ∧ t.slots = s.slots := by
  have hherd : t.herd = s.herd := (congrArg (fun x => x.2.2.2) h.same :)
  refine ⟨lmPos_congr (h.rd (by decide) (by decide)) (h.rd (by decide) (by decide)) (h.rd s.master_lt (by simp [logFields])) ?_ ?_ ?_ ?_ ?_, ?_⟩
  · exact (congrArg (fun x => x.2.2.1) h.same :)
  · exact (congrArg (fun x => x.2.1) h.same :)
  · rw [hherd]
  · rw [hherd]
  · rw [hherd]
  · exact (congrArg Prod.fst h.same :)

/-- What a record does to the parts. -/
def mergedParts (parts : List Part) (past : Part → Bool) (r : VerdictRec) : List Part :=
  (parts.find? fun p => p.id == r.partid).elim parts fun p =>
    if r.partid = 0xFFFFFFFF ∨ p.ovf ∨ p.lane ≠ r.lane ∨ r.resv ≠ 0 then parts
    else if past p then parts
    else if r.verdict = 0xFF then parts
    else parts.map fun p => if p.id = r.partid then p.merge r.verdict r.aux else p

/-- A record changes the parts as their deadlines say, and neither the fire queue nor a deadline. -/
theorem Dev.takeRecord_reads (s : Dev) (r : VerdictRec) :
    (s.takeRecord r).parts = mergedParts s.parts s.pastDeadline r ∧ (s.takeRecord r).fires = s.fires ∧
      ∀ p, (s.takeRecord r).pastDeadline p = s.pastDeadline p := by
  cases hx : s.part? r.partid with
  | none =>
    have hmerged : mergedParts s.parts s.pastDeadline r = s.parts := congrArg (fun x => Option.elim x _ _) hx
    rw [takeRecord_bad hx, hmerged]
    exact ⟨rfl, rfl, fun _ => rfl⟩
  | some p =>
    have hmerged : mergedParts s.parts s.pastDeadline r = _ := congrArg (fun x => Option.elim x _ _) hx
    rw [hmerged]
    simp only [takeRecord, hx, Option.elim_some]
    by_cases hbad : r.partid = 0xFFFFFFFF ∨ p.ovf ∨ p.lane ≠ r.lane ∨ r.resv ≠ 0
    · rw [if_pos hbad, if_pos hbad]
      exact ⟨rfl, rfl, fun _ => rfl⟩
    · rw [if_neg hbad, if_neg hbad]
      by_cases hlate : s.pastDeadline p = true
      · rw [if_pos hlate, if_pos hlate]
        exact ⟨rfl, rfl, fun _ => rfl⟩
      · rw [if_neg hlate, if_neg hlate]
        by_cases hnone : r.verdict = 0xFF
        · rw [if_pos hnone, if_pos hnone]
          exact ⟨rfl, rfl, fun _ => rfl⟩
        · rw [if_neg hnone, if_neg hnone]
          have hset (q : Part) : (s.updPart r.partid fun p => p.merge r.verdict r.aux).pastDeadline q = s.pastDeadline q := rfl
          by_cases hcode : 0xE0 ≤ r.verdict
          · rw [if_pos hcode]
            generalize hu : (s.updPart r.partid fun p => p.merge r.verdict r.aux) = u at hset ⊢
            have hline := (Within.refl logFields lineRest u).tally 0x0042 r.member r.partid r.verdict 0 (fun _ h => h)
              fun _ _ h => (congrArg lineRest h :)
            have hparts := ((Within.refl logFields (fun d => (d.parts, d.fires)) u).tally 0x0042 r.member r.partid r.verdict 0 (fun _ h => h)
              fun _ _ h => (congrArg (fun d : Dev => (d.parts, d.fires)) h :)).same
            obtain ⟨hpos, hslots⟩ := lmPos_of_logged hline
            refine ⟨(congrArg Prod.fst hparts :).trans (hu ▸ rfl), (congrArg Prod.snd hparts :).trans (hu ▸ rfl), fun q => ?_⟩
            exact (pastDeadline_congr hpos hslots q).trans (hset q)
          · rw [if_neg hcode]
            exact ⟨rfl, rfl, hset⟩

theorem Dev.Alike.takeRecord {s t : Dev} (h : s.Alike t) (r : VerdictRec) : (s.takeRecord r).Alike (t.takeRecord r) := by
  obtain ⟨hs, hsf, hsd⟩ := s.takeRecord_reads r
  obtain ⟨ht, htf, htd⟩ := t.takeRecord_reads r
  have hpast : t.pastDeadline = s.pastDeadline := funext h.deadline
  refine ⟨?_, htf.trans (h.fires.trans hsf.symm), fun p => (htd p).trans ((h.deadline p).trans (hsd p).symm)⟩
  rw [hs, ht, h.parts, hpast]

/-- The parts and the entries of the fire queue. -/
def Dev.partsFires (s : Dev) : List Part × List Fire := (s.parts, s.fires)

theorem Dev.unworked_partsFires : Unworked partsFires := ⟨fun _ _ h => (congrArg partsFires h :), fun _ _ _ => rfl⟩

theorem Dev.partsFires_of_rest {s t : Dev} (h : t.rest.partsFires = s.rest.partsFires) : t.partsFires = s.partsFires := h

/-- States that are alike deliver records alike. -/
theorem Dev.Alike.deliverAll {s t : Dev} (h : s.Alike t) (hworker : t.worker = s.worker) (l : List VerdictRec) :
    (t.deliverAll l).partsFires = (s.deliverAll l).partsFires := by
  have hsend (d : Dev) (gs : List (List VerdictRec)) : (gs.foldl (fun (d : Dev) g => d.toManager (.verd g)) d).partsFires = d.partsFires :=
    partsFires_of_rest ((Within.refl [] partsFires d).foldl gs fun d g _ => (Within.refl _ _ d).toManager _ fun _ _ => rfl).same
  have htake : ∀ {s t : Dev}, s.Alike t → (l.foldl (fun (d : Dev) r => d.takeRecord r) s).Alike (l.foldl (fun (d : Dev) r => d.takeRecord r) t) := by
    induction l with
    | nil => exact fun h => h
    | cons r l ih => exact fun h => ih (h.takeRecord r)
  have hpf {s t : Dev} (h : s.Alike t) : t.partsFires = s.partsFires := Prod.ext h.parts h.fires
  unfold Dev.deliverAll
  rw [hworker]
  split
  · exact (hsend _ _).trans ((hpf h).trans (hsend _ _).symm)
  · exact hpf (htake h)

theorem Dev.alike_of_tlb {s t : Dev} (h : Within [] butRead s t) : s.Alike t ∧ t.worker = s.worker := by
  have hline : Within logFields lineRest s t := ⟨h.fields.mono (by simp), (congrArg lineRest h.same :)⟩
  obtain ⟨hpos, hslots⟩ := lmPos_of_logged hline
  have hrole : t.rd .HRD_CTL_ROLE = s.rd .HRD_CTL_ROLE := h.rd (by decide) (by simp)
  exact ⟨.of_lmPos (congrArg parts h.same :) (congrArg fires h.same :) hpos hslots, by simp only [worker, hrole]⟩

namespace Dev.Offline

variable {α : Type} {m : Dev → α} {s t : Dev}

theorem setPiece (h : Offline m s t) (hm : Unworked m) (seq i : Nat) (st : PieceSt) : Offline m s (t.setPiece seq i st) :=
  (h.updJob hm seq _).updJob hm seq _

theorem finishPieces (h : Offline m s t) (hm : Unworked m) (j : Job) : Offline m s (t.finishPieces j) := by
  refine h.foldl _ fun d e => ?_
  cases e.1.st with
  | running n =>
    dsimp only
    generalize d.resident n = x
    cases x with
    | none => exact refl _ d
    | some r =>
      dsimp only
      split
      · exact refl _ d
      · exact ((refl _ d).vacate hm n).setPiece hm _ _ _
  | _ => exact refl _ d

theorem noteWait (h : Offline m s t) (hm : Unworked m) (r : Resident) : Offline m s (t.noteWait r) := by
  unfold Dev.noteWait
  cases r.overAt with
  | none => exact h
  | some x => exact h.updJob hm _ _

theorem noteSplit (h : Offline m s t) (hm : Unworked m) (hod : ∀ d x, m { d with od := x } = m d) (j : Job) : Offline m s (t.noteSplit j) := by
  unfold Dev.noteSplit
  split
  · have hset := h.setFlag .GLB_DET_STAT_SPLIT 0 true (by decide)
    generalize t.setFlag .GLB_DET_STAT_SPLIT 0 true = u at hset ⊢
    have hcount : Offline m s (u.countOd 0x3001 2 64) := hset.step rfl rfl rfl (hod u.rest _)
    exact hcount.updJob hm _ _
  · exact h

theorem completeCmd (h : Offline m s t) (hm : Unworked m) (hod : ∀ d x, m { d with od := x } = m d) (j : Job) :
    Offline m s (t.completeCmd j) := by
  have hfinish := h.finishPieces hm j
  unfold Dev.completeCmd
  dsimp only
  generalize t.finishPieces j = u at hfinish ⊢
  cases hj : u.job? j.seq with
  | none => exact hfinish
  | some i =>
    dsimp only
    split
    · exact (hfinish.noteSplit hm hod i).updJob hm _ _
    · exact hfinish

end Dev.Offline

theorem completes_delivered {s : State} {id : Nat} {j : Job} (hid : s.jobById id = some j) {a n : Nat} {chn : Fin 16} {r : Resident} {b : List Byte}
    (hstart : j.started = true) (hcmd : j.cmd? = some (.vcommit a n)) (hchn : j.churnOf 0 = some (chn : Nat)) (hres : s.resident chn = some r)
    (hrest : r.restoring = none) (habort : j.abort = false) (hread : s.vread (some (chn : Nat)) j.asid a (16 * n) = .ok b) :
    Completes (.vcommit id) s fun t =>
      let u := s.deliverAll ((upTo n).map fun i => verdictOf ((b.drop (16 * i)).take 16))
      t.parts = u.parts ∧ t.fires = u.fires := by
  have heff := vcommit_delivers hid hstart hcmd hchn hres hrest habort hread
  have htouch := (Dev.Within.refl [] Dev.butRead s.toDev).touch (some (chn : Nat)) j.asid 0 a (16 * n) fun _ _ => rfl
  obtain ⟨halike, hworker⟩ := Dev.alike_of_tlb htouch
  have hdeliver := halike.deliverAll hworker ((upTo n).map fun i => verdictOf ((b.drop (16 * i)).take 16))
  generalize (s.touch (some (chn : Nat)) j.asid 0 a (16 * n)).deliverAll ((upTo n).map fun i => verdictOf ((b.drop (16 * i)).take 16)) = u
    at heff hdeliver
  have hfree : Dev.Offline Dev.partsFires u u.useFree := (Dev.Offline.refl _ u).step rfl rfl rfl rfl
  have hdone := Dev.partsFires_of_rest ((hfree.noteWait Dev.unworked_partsFires r).completeCmd Dev.unworked_partsFires (fun _ _ => rfl) j).same
  generalize (u.useFree.noteWait r).completeCmd j = v at heff hdone
  have hall := hdone.trans hdeliver
  exact .of_effect (exec_vcommit id s) rfl heff ⟨(Dev.notify_parts ..).trans (congrArg Prod.fst hall), (Dev.notify_fires ..).trans (congrArg Prod.snd hall)⟩

/-! ### A context that starts (R191, R199) -/

/-- Fields of one index take values one after another. -/
def Dev.writeAll (s : Dev) (n : Nat) (l : List (Field × Nat)) : Dev := l.foldl (fun (d : Dev) e => d.wr e.1 n e.2) s

theorem Dev.rd_writeAll {l : List (Field × Nat)} (s : Dev) {n : Nat} (hn : n < 1024) (hl : (l.map Prod.fst).Nodup) {f : Field} {v : Nat}
    (hf : (f, v) ∈ l) : (s.writeAll n l).rd f n = wrap f.desc.width v := by
  induction l generalizing s with
  | nil => simp at hf
  | cons e l ih =>
    obtain ⟨hout, hl⟩ := List.nodup_cons.1 hl
    rcases List.mem_cons.1 hf with rfl | hf
    · have hrest : Within (l.map fun e => (e.1, n)) (fun _ => ()) (s.wr f n v) ((s.wr f n v).writeAll n l) :=
        (Within.refl _ _ _).foldl l fun d e he => (Within.refl _ _ d).wr (f := e.1) (i := n) _ hn (List.mem_map.2 ⟨e, he, rfl⟩)
      refine (hrest.rd hn ?_).trans (Dev.rd_wr ..)
      simpa using hout
    · exact ih _ hl hf

/-- The fields of a Churn that takes a context, with what they take. -/
def contextValues (id kind index : Nat) (repro : Bool) : List (Field × Nat) :=
  [(.CHN_STAT_PWR, 3), (.CHN_STAT_BUSY, true.toNat), (.CHN_STAT_MODE, repro.toNat), (.JOB_CHN_JOB, id), (.JOB_CHN_ST_VALID, true.toNat),
    (.JOB_CHN_ST_KIND, kind), (.JOB_CHN_ST_PIECE, index)]

theorem contextValues_nodup (id kind index : Nat) (repro : Bool) : ((contextValues id kind index repro).map Prod.fst).Nodup := by
  simp [contextValues]

theorem contextValues_fields {id kind index n : Nat} {repro : Bool} {e : Field × Nat} (h : e ∈ contextValues id kind index repro) :
    (e.1, n) ∈ contextFields n := by
  simp only [contextValues, List.mem_cons, List.not_mem_nil, or_false] at h
  rcases h with rfl | rfl | rfl | rfl | rfl | rfl | rfl <;> simp [contextFields]

/-- The kind of the context of a job's command. -/
def Job.kind (j : Job) : Nat :=
  match j.cmd? with
  | some c => c.kind
  | none => 0

theorem Job.kind_eq (j : Job) : j.kind = (j.cmd?.map Command.kind).getD 0 := by
  unfold kind
  cases j.cmd? <;> rfl

/-- A Churn has taken a piece from its beginning, but for its record of the context. -/
def Dev.occupied (s : Dev) (n : Nat) (j : Job) (i : Nat) (p : Piece) : Dev :=
  let repro := j.repro.getD (s.flag .GLB_MODE_REPRO)
  let u := (s.updJob j.seq fun k => { k with repro := some repro, shorten := 0, pieces := modifyAt Piece.placed i k.pieces }).writeAll n
    (contextValues j.id j.kind p.index repro)
  ((u.setChurn n { u.churn n with barrier := [], reduced := 0 }).setPiece j.seq i (.running n)).traceContext n 2

theorem Dev.place_ready (s : Dev) (n : Nat) (j : Job) (i : Nat) {p : Piece} (h : p.st = .ready) :
    s.place n j i p = (s.occupied n j i p).setResident n (some
      { job := j.seq, piece := i, kind := j.kind, sliceAt := (s.occupied n j i p).xclk, sliceLen := (s.occupied n j i p).sliceOf j.shorten,
        since := (s.occupied n j i p).xclk }) := by
  unfold place
  rw [h]
  rfl

/-- What the module holds beside what a context that starts changes. -/
def Dev.butPlaced (s : Dev) : Dev := { s with jobs := [], churns := [], trace := {} }

theorem Dev.occupied_within (s : Dev) {n : Nat} (hn : n < 1024) (j : Job) (i : Nat) (p : Piece) :
    Within (contextFields n) butPlaced s (s.occupied n j i p) := by
  have hjob : Within (contextFields n) butPlaced s
      (s.updJob j.seq fun k => { k with repro := some (j.repro.getD (s.flag .GLB_MODE_REPRO)), shorten := 0, pieces := modifyAt Piece.placed i k.pieces }) :=
    (Within.refl _ _ s).step rfl rfl rfl rfl
  have hwrites := hjob.foldl (contextValues j.id j.kind p.index (j.repro.getD (s.flag .GLB_MODE_REPRO)))
    (f := fun (d : Dev) e => d.wr e.1 n e.2) fun d e he => (Within.refl _ _ d).wr (f := e.1) (i := n) _ hn (contextValues_fields he)
  have hset {u : Dev} (hu : Within (contextFields n) butPlaced s u) (c : Churn) : Within (contextFields n) butPlaced s (u.setChurn n c) :=
    hu.step rfl rfl rfl rfl
  have hpiece {u : Dev} (hu : Within (contextFields n) butPlaced s u) : Within (contextFields n) butPlaced s (u.setPiece j.seq i (.running n)) :=
    hu.step rfl rfl rfl rfl
  exact (hpiece (hset hwrites _)).traceRecord _ _ _ (by simp [contextFields]) fun _ _ => rfl

theorem Dev.occupied_rd (s : Dev) {n : Nat} (hn : n < 1024) (j : Job) (i : Nat) (p : Piece) {f : Field} {v : Nat}
    (hf : (f, v) ∈ contextValues j.id j.kind p.index (j.repro.getD (s.flag .GLB_MODE_REPRO))) :
    (s.occupied n j i p).rd f n = wrap f.desc.width v := by
  have hwrite := rd_writeAll (s.updJob j.seq fun k =>
    { k with repro := some (j.repro.getD (s.flag .GLB_MODE_REPRO)), shorten := 0, pieces := modifyAt Piece.placed i k.pieces }) hn
    (contextValues_nodup ..) hf
  unfold occupied
  dsimp only
  generalize Dev.writeAll _ n _ = u at hwrite ⊢
  have hquiet (d : Dev) : Within [(.OBS_TRC_DROP_COUNT, 0)] (fun _ => ()) d (d.traceContext n 2) :=
    (Within.refl _ _ d).traceRecord _ _ _ (by simp) fun _ _ => rfl
  refine ((hquiet _).rd hn ?_).trans hwrite
  simp only [contextValues, List.mem_cons, List.not_mem_nil, or_false] at hf
  rcases hf with hf | hf | hf | hf | hf | hf | hf <;> simp [(Prod.mk.inj hf).1]

/-- The job of a piece that starts. -/
def Dev.startedJob (s : Dev) (n i : Nat) (j : Job) : Job :=
  let k : Job := Job.sample { j with repro := some (j.repro.getD (s.flag .GLB_MODE_REPRO)), shorten := 0, pieces := modifyAt Piece.placed i j.pieces }
    s.xclk (s.cclkCycles (s.xclk - j.sampledAt))
  { k with pieces := modifyAt (fun (p : Piece) => { p with st := .running n }) i k.pieces }

theorem Dev.job?_updJob (s : Dev) (q : Nat) {f : Job → Job} (hf : ∀ j, (f j).seq = j.seq) : (s.updJob q f).job? q = (s.job? q).map f := by
  have hmap : ∀ l : List Job, (l.map fun i => if i.seq = q then f i else i).find? (fun i => i.seq == q) =
      (l.find? fun i => i.seq == q).map f := by
    intro l
    induction l with
    | nil => rfl
    | cons i l ih =>
      by_cases h : i.seq = q
      · simp [h, hf]
      · simp [h, ih]
  exact hmap s.jobs

theorem Dev.job?_of_jobs {s t : Dev} (h : t.jobs = s.jobs) (q : Nat) : t.job? q = s.job? q := by simp only [job?, h]

theorem Dev.occupied_job? (s : Dev) (n : Nat) {j : Job} (hj : s.job? j.seq = some j) (i : Nat) (p : Piece) :
    (s.occupied n j i p).job? j.seq = some (s.startedJob n i j) := by
  have htrace (d : Dev) : (d.traceContext n 2).job? j.seq = d.job? j.seq :=
    job?_of_jobs ((Within.refl [(.OBS_TRC_DROP_COUNT, 0)] jobs d).traceRecord _ _ _ (by simp) fun _ _ => rfl).same _
  have hpiece (d : Dev) : (d.setPiece j.seq i (.running n)).job? j.seq = ((d.job? j.seq).map fun k => k.sample d.xclk (d.cclkCycles (d.xclk - k.sampledAt))).map
      fun k => { k with pieces := modifyAt (fun (p : Piece) => { p with st := .running n }) i k.pieces } :=
    ((d.sampleJob j.seq).job?_updJob j.seq (f := fun k => { k with pieces := modifyAt (fun (p : Piece) => { p with st := .running n }) i k.pieces })
      fun _ => rfl).trans (congrArg (Option.map _) (d.job?_updJob j.seq fun _ => rfl))
  have hkeep (d : Dev) (l : List (Field × Nat)) : (d.writeAll n l).jobs = d.jobs ∧ (d.writeAll n l).xclk = d.xclk ∧ (d.writeAll n l).mlk = d.mlk :=
    ⟨foldl_keeps jobs (fun _ _ _ => wr_jobs ..) d, foldl_keeps xclk (fun _ _ _ => wr_xclk ..) d, foldl_keeps mlk (fun _ _ _ => wr_mlk ..) d⟩
  unfold occupied
  dsimp only
  rw [htrace, hpiece]
  have hset := s.job?_updJob j.seq (f := fun k =>
    { k with repro := some (j.repro.getD (s.flag .GLB_MODE_REPRO)), shorten := 0, pieces := modifyAt Piece.placed i k.pieces }) fun _ => rfl
  rw [hj] at hset
  obtain ⟨hjobs, hclk, hmlk⟩ := hkeep (s.updJob j.seq fun k =>
    { k with repro := some (j.repro.getD (s.flag .GLB_MODE_REPRO)), shorten := 0, pieces := modifyAt Piece.placed i k.pieces })
    (contextValues j.id j.kind p.index (j.repro.getD (s.flag .GLB_MODE_REPRO)))
  generalize Dev.writeAll _ n _ = u at hjobs hclk hmlk ⊢
  have hu := (job?_of_jobs hjobs j.seq).trans hset
  have hclk' : u.xclk = s.xclk := hclk
  have hcycles (x : Nat) : u.cclkCycles x = s.cclkCycles x := congrArg (fun m : Milkhouse => x * m.cclk / 400000) hmlk
  have hchurn (c : Churn) : (u.setChurn n c).job? j.seq = u.job? j.seq := rfl
  rw [hchurn, hu]
  simp only [Option.map_some, startedJob, ← hclk', ← hcycles]
  rfl

/-- What the module holds beside the translation caches. -/
def Dev.butCached (s : Dev) : Dev := { s with tlb := [] }

/-- A fetch that reaches its instruction changes at most the translation caches. -/
theorem Dev.fetchCode_within {s : Dev} {n : Nat} {r : Resident} {j k : Job} (hr : s.resident n = some r) (hj : s.job? r.job = some k)
    (hcmd : k.cmd? = j.cmd?) (hasid : k.asid = j.asid) (hf : s.fetches n j = true) : Within [] butCached s (s.fetchCode n) := by
  have he : s.fetchCode n = match k.cmd?.bind Command.code? with
      | none => s
      | some a => match s.vspans (some n) k.asid 2 none 1 a 1 with
        | .ok l => if l.all fun e => s.reachable (some n) e then s.touch (some n) k.asid 2 a 1 else s.churnError n
        | .fault x => s.suspend n x
        | .error => s.churnError n := by
    unfold fetchCode
    rw [hr, Option.bind_some, hj] <;> rfl
  unfold fetches at hf
  rw [he, hcmd, hasid]
  generalize j.cmd?.bind Command.code? = x at hf ⊢
  cases x with
  | none => exact .refl ..
  | some a =>
    dsimp only at hf ⊢
    generalize s.vspans (some n) j.asid 2 none 1 a 1 = y at hf ⊢
    cases y with
    | ok l =>
      dsimp only at hf ⊢
      rw [if_pos hf]
      exact (Within.refl _ _ s).touch _ _ _ _ _ fun _ _ => rfl
    | fault x => cases hf
    | error => cases hf

theorem Dev.cmd?_startedJob (s : Dev) (n i : Nat) (j : Job) : (s.startedJob n i j).cmd? = j.cmd? := rfl

/-- The context of a piece that starts. -/
def Dev.freshContext (s : Dev) (i : Nat) (j : Job) : Resident :=
  { job := j.seq, piece := i, kind := j.kind, sliceAt := s.xclk, sliceLen := s.sliceOf j.shorten, since := s.xclk }

/-- What the module holds beside what a context that starts and fetches changes. -/
def Dev.butStarted (s : Dev) : Dev := { s with jobs := [], churns := [], trace := {}, tlb := [] }

theorem Dev.butStarted_of_butPlaced {s t : Dev} (h : t.rest.butPlaced = s.rest.butPlaced) : t.rest.butStarted = s.rest.butStarted :=
  (congrArg (fun d : Dev => { d with tlb := [] }) h :)

theorem Dev.butStarted_of_butCached {s t : Dev} (h : t.rest.butCached = s.rest.butCached) : t.rest.butStarted = s.rest.butStarted :=
  (congrArg butStarted h :)

/-- What a piece that starts on a Churn leaves. -/
structure Dev.StartsOn (s : Dev) (n : Nat) (j : Job) (i : Nat) (p : Piece) (t : Dev) : Prop where
  within : Within (contextFields n) butStarted s t
  resident : t.resident n = some (s.freshContext i j)
  job : t.job? j.seq = some (s.startedJob n i j)
  reads : ∀ e ∈ contextValues j.id j.kind p.index (j.repro.getD (s.flag .GLB_MODE_REPRO)), t.rd e.1 n = wrap e.1.desc.width e.2

theorem Dev.place_starts (s : Dev) {n : Nat} (hn : n < 1024) {j : Job} (hj : s.job? j.seq = some j) (i : Nat) {p : Piece} (hp : p.st = .ready) :
    s.StartsOn n j i p (s.place n j i p) := by
  have hwithin := s.occupied_within hn j i p
  have hread := fun e (he : e ∈ contextValues j.id j.kind p.index (j.repro.getD (s.flag .GLB_MODE_REPRO))) => s.occupied_rd hn j i p he
  have hjob := s.occupied_job? n hj i p
  rw [s.place_ready n j i hp]
  generalize s.occupied n j i p = u at hwithin hread hjob ⊢
  have hclk : u.xclk = s.xclk := (congrArg xclk hwithin.same :)
  have hslice : u.sliceOf j.shorten = s.sliceOf j.shorten := by
    have hrd : u.rd .JOB_CTL_SLICE 0 = s.rd .JOB_CTL_SLICE 0 := hwithin.rd (by decide) (by simp [contextFields])
    simp only [sliceOf, hrd]
  rw [hclk, hslice]
  exact ⟨⟨hwithin.fields, butStarted_of_butPlaced hwithin.same⟩, by simp [resident, setResident, freshContext],
    hjob, hread⟩

/-- A piece that starts and whose first instruction can be fetched. -/
theorem Dev.startOn_starts (s : Dev) {n : Nat} (hn : n < 1024) {j : Job} (hj : s.job? j.seq = some j) (i : Nat) {p : Piece} (hp : p.st = .ready)
    (hf : (s.place n j i p).fetches n j = true) : s.StartsOn n j i p (s.startOn n j i p) := by
  have hplace := s.place_starts hn hj i hp
  have he : s.startOn n j i p = (s.place n j i p).fetchCode n := if_pos (by simp [hp])
  rw [he]
  generalize s.place n j i p = u at hplace hf ⊢
  obtain ⟨hwithin, hres, hjob, hread⟩ := hplace
  have hfetch := fetchCode_within hres hjob (s.cmd?_startedJob n i j) rfl hf
  generalize u.fetchCode n = v at hfetch ⊢
  refine ⟨⟨hwithin.fields.trans (hfetch.fields.mono (by simp)), (butStarted_of_butCached hfetch.same).trans hwithin.same⟩, ?_, ?_, fun e he => ?_⟩
  · exact (resident_of_churns (congrArg churns hfetch.same :) n).trans hres
  · exact (job?_of_jobs (congrArg jobs hfetch.same :) _).trans hjob
  · exact (hfetch.rd hn (by simp)).trans (hread e he)

/-! ### Dispatch (R191, R209) -/

theorem Dev.rest_of_butStarted {s t : Dev} (h : t.rest.butStarted = s.rest.butStarted) :
    t.rest = { s.rest with jobs := t.jobs, churns := t.churns, tlb := t.tlb, trace := t.trace } :=
  (congrArg (fun d : Dev => { d with jobs := t.jobs, churns := t.churns, tlb := t.tlb, trace := t.trace }) h :)

/-- It is some job's turn among the teach jobs. -/
def Dev.withTurn (s : Dev) (x : Nat) : Dev := { s with lastTeach := x }

/-- A translation, by what it reads: the mode, whether translation is on, the caches and the walk. -/
def translateBy (fixed on : Bool) (tlb : List Cached) (free : Nat) (me : Option Nat) (asid va acc : Nat) (walk : Walk) : Walk :=
  if fixed then .page false va none
  else if !on then .fault { va := va, acc := acc, type := 1, level := 0xFF, entry := 0, place := 0 }
  else match tlb.find? fun e => e.serves me asid va with
    | some e => if Config.useCached free va then leafEnd va acc e.level e.entry 0 else walk
    | none => walk

theorem Dev.translate_eq (s : Dev) (me : Option Nat) (asid va acc : Nat) (bad : Option Nat) :
    s.translate me asid va acc bad =
      translateBy (s.flag .GLB_MODE_FIXED) (s.flag .MMU_CTL_EN) s.tlb s.free me asid (wrap 48 va) acc (s.walk asid (wrap 48 va) acc bad) := rfl

section
variable (s : Dev) (x : Nat)

theorem Dev.walkFrom_withTurn (va acc : Nat) (bad : Option Nat) (n l table : Nat) :
    (s.withTurn x).walkFrom va acc bad n l table = s.walkFrom va acc bad n l table := by
  have hread (a k : Nat) : (s.withTurn x).leRead a k = s.leRead a k := rfl
  induction n generalizing l table with
  | zero => rfl
  | succ n ih => simp only [walkFrom, hread, ih]

theorem Dev.translate_withTurn (me : Option Nat) (asid va acc : Nat) (bad : Option Nat) :
    (s.withTurn x).translate me asid va acc bad = s.translate me asid va acc bad := by
  have hwalk (va : Nat) : (s.withTurn x).walk asid va acc bad = s.walk asid va acc bad := by
    unfold walk
    rw [walkFrom_withTurn]
    rfl
  rw [translate_eq, hwalk, translate_eq]
  rfl

theorem Dev.vspans_withTurn (me : Option Nat) (asid acc : Nat) (bad : Option Nat) (f va n : Nat) :
    (s.withTurn x).vspans me asid acc bad f va n = s.vspans me asid acc bad f va n := by
  induction f generalizing va n with
  | zero => rfl
  | succ f ih =>
    have hrest : (s.withTurn x).vspans me asid acc bad f = s.vspans me asid acc bad f := funext fun va => funext fun n => ih va n
    rw [vspans, vspans, translate_withTurn, hrest]

theorem Dev.fetches_withTurn (n : Nat) (j : Job) : (s.withTurn x).fetches n j = s.fetches n j := by
  unfold fetches
  cases j.cmd?.bind Command.code? with
  | none => rfl
  | some a =>
    dsimp only
    rw [vspans_withTurn]
    rfl

theorem Dev.wr_withTurn (f : Field) (i v : Nat) : (s.withTurn x).wr f i v = (s.wr f i v).withTurn x := by
  unfold wr
  split <;> rfl

theorem Dev.writeAll_withTurn (n : Nat) (l : List (Field × Nat)) : (s.withTurn x).writeAll n l = (s.writeAll n l).withTurn x := by
  induction l generalizing s with
  | nil => rfl
  | cons e l ih => exact (congrArg (fun d : Dev => d.writeAll n l) (s.wr_withTurn x e.1 n e.2)).trans (ih _)

theorem Dev.traceNote_withTurn (src kind data : Nat) :
    (s.withTurn x).traceNote src kind data = (s.traceNote src kind data).withTurn x := by
  have hoff : (s.withTurn x).tracing = s.tracing := rfl
  have htraced : (s.withTurn x).traced src = s.traced src := rfl
  have hroom : (s.withTurn x).trace.waiting src = s.trace.waiting src := rfl
  unfold traceNote traceRecord
  dsimp only
  rw [hoff, htraced, hroom]
  by_cases hoff : (!s.tracing || !s.traced src) = true
  · rw [if_pos hoff, if_pos hoff]
  · rw [if_neg hoff, if_neg hoff]
    by_cases hroom : s.trace.waiting src < 16
    · rw [if_pos hroom, if_pos hroom]
      rfl
    · rw [if_neg hroom, if_neg hroom]
      exact Dev.wr_withTurn
        { s with trace := { s.trace with owed := tabPut s.trace.owed src (tabGet (fun _ => 0) s.trace.owed src + 1) } } x ..

theorem Dev.place_withTurn (n : Nat) (j : Job) (i : Nat) (p : Piece) (hp : p.st = .ready) :
    (s.withTurn x).place n j i p = (s.place n j i p).withTurn x := by
  have hocc : (s.withTurn x).occupied n j i p = (s.occupied n j i p).withTurn x := by
    have hrepro : (s.withTurn x).flag .GLB_MODE_REPRO = s.flag .GLB_MODE_REPRO := rfl
    have hupd (f : Job → Job) : (s.withTurn x).updJob j.seq f = (s.updJob j.seq f).withTurn x := rfl
    unfold occupied
    dsimp only
    rw [hrepro, hupd, writeAll_withTurn]
    generalize Dev.writeAll _ n _ = u
    exact ((u.setChurn n { u.churn n with barrier := [], reduced := 0 }).setPiece j.seq i (.running n)).traceNote_withTurn x ..
  rw [place_ready _ _ _ _ hp, place_ready _ _ _ _ hp, hocc]
  rfl

end

theorem Dev.dispatchOn_eq (s : Dev) (n : Nat) (c : Job × Nat × Piece) : ∃ x, s.dispatchOn n c = (s.withTurn x).startOn n c.1 c.2.1 c.2.2 := by
  unfold dispatchOn
  cases c.1.teach with
  | true => exact ⟨c.1.seq, rfl⟩
  | false => exact ⟨s.lastTeach, rfl⟩

/-- A piece that is dispatched starts on its Churn, whosever turn it then is. -/
theorem Dev.dispatchOn_starts (s : Dev) {n : Nat} (hn : n < 1024) {j : Job} (hj : s.job? j.seq = some j) {i : Nat} {p : Piece} (hp : p.st = .ready)
    (hf : (s.place n j i p).fetches n j = true) : ∃ x, (s.withTurn x).StartsOn n j i p (s.dispatchOn n (j, i, p)) := by
  obtain ⟨x, hx⟩ := s.dispatchOn_eq n (j, i, p)
  refine ⟨x, hx ▸ startOn_starts (s.withTurn x) hn hj i hp ?_⟩
  rw [s.place_withTurn x n j i p hp, fetches_withTurn]
  exact hf

section
variable {s : State} (hmode : s.flag .GLB_MODE_FIXED = false) (hready : s.expireCheap.recoverWork = s.toDev)
include hmode hready

theorem completes_dispatch (hlive : s.live = true) (hfix : s.fixing = false) {j : Job} {i : Nat} {piece : Piece} {chn : Fin 16}
    (hnext : s.nextPlacement = some ((j, i, piece), (chn : Nat))) (hst : piece.st = .ready) (hj : s.job? j.seq = some j)
    (hfetch : (s.place chn j i piece).fetches chn j = true) :
    Completes .pieceDispatch s fun t =>
      t.resident chn = some { job := j.seq, piece := i, kind := (j.cmd?.map Command.kind).getD 0,
                              sliceAt := s.xclk, sliceLen := s.sliceOf j.shorten, since := s.xclk } ∧
      t.rd .CHN_STAT_PWR chn = 3 ∧ t.flag .CHN_STAT_BUSY chn = true ∧ t.rd .JOB_CHN_JOB chn = wrap 32 j.id ∧
      t.flag .JOB_CHN_ST_VALID chn = true ∧ t.flag .CHN_STAT_MODE chn = j.repro.getD (s.flag .GLB_MODE_REPRO) ∧
      KeepsFields s t (contextFields chn) ∧
      t.rest = { s.rest with jobs := t.jobs, churns := t.churns, lastTeach := t.lastTeach, tlb := t.tlb, trace := t.trace } := by
  have heff : s.toDev.pieceDispatch = s.dispatchOn chn (j, i, piece) := by
    unfold Dev.pieceDispatch
    rw [if_neg (by simp [hlive, hfix]), if_neg (by simp [hmode]), hready]
    dsimp only
    rw [hnext]
  obtain ⟨x, hx⟩ := s.dispatchOn_starts (n := chn) (by omega) hj hst hfetch
  generalize s.dispatchOn chn (j, i, piece) = u at heff hx
  obtain ⟨hwithin, hres, -, hread⟩ := hx
  have hvalue {f : Field} {v : Nat} (hf : (f, v) ∈ contextValues j.id j.kind piece.index (j.repro.getD (s.flag .GLB_MODE_REPRO))) :
      u.rd f chn = wrap f.desc.width v := hread (f, v) hf
  have hflag {f : Field} {b : Bool} (hf : (f, b.toNat) ∈ contextValues j.id j.kind piece.index (j.repro.getD (s.flag .GLB_MODE_REPRO)))
      (hw : f.desc.width = 1) : u.flag f chn = b := by
    rw [Dev.flag_eq, hvalue hf, hw]
    cases b <;> rfl
  have hturn : u.lastTeach = x := (congrArg Dev.lastTeach hwithin.same :)
  have hall : Dev.Within (contextFields chn) (fun _ => ()) s.toDev u := ⟨hwithin.fields, rfl⟩
  have hkind := j.kind_eq
  refine .of_effect (exec_pieceDispatch s) rfl heff ⟨?_, ?_, ?_, ?_, ?_, ?_, hall.kept, ?_⟩
  · rw [Dev.resident_of_churns (Dev.notify_churns ..), hres, ← hkind]
    rfl
  · exact (Dev.notify_rd ..).trans (hvalue (f := .CHN_STAT_PWR) (v := 3) (by simp [contextValues]))
  · exact (Dev.notify_flag ..).trans (hflag (f := .CHN_STAT_BUSY) (b := true) (by simp [contextValues]) rfl)
  · exact (Dev.notify_rd ..).trans (hvalue (f := .JOB_CHN_JOB) (v := j.id) (by simp [contextValues]))
  · exact (Dev.notify_flag ..).trans (hflag (f := .JOB_CHN_ST_VALID) (b := true) (by simp [contextValues]) rfl)
  · exact (Dev.notify_flag ..).trans (hflag (f := .CHN_STAT_MODE) (by simp [contextValues]) rfl)
  · have hrest := Dev.rest_of_butStarted hwithin.same
    rw [Dev.notify_jobs, Dev.notify_churns, Dev.notify_lastTeach, Dev.notify_tlb, Dev.notify_trace, hturn]
    exact (Dev.notify_rest ..).trans hrest

omit hmode in
theorem completes_noDispatch (hmode : s.flag .GLB_MODE_FIXED = false) (hnone : s.readyAll = []) :
    Completes .pieceDispatch s fun t => KeepsFields s t [] ∧ t.rest = s.rest := by
  refine completes_idle (exec_pieceDispatch s) ?_
  have hnext : s.nextPlacement = none := by simp [Dev.nextPlacement, hnone]
  unfold Dev.pieceDispatch
  by_cases hoff : (!s.live || s.fixing) = true
  · exact if_pos hoff
  · rw [if_neg hoff, if_neg (by simp [hmode]), hready]
    dsimp only
    rw [hnext]
    exact if_pos (by simp [hnone])

end

/-- The first number with a property is the least. -/
theorem find?_upTo_least {n k : Nat} {p : Nat → Bool} (h : (upTo n).find? p = some k) : p k = true ∧ ∀ i < n, p i = true → k ≤ i := by
  refine ⟨List.find?_some h, ?_⟩
  induction n with
  | zero => simp [upTo] at h
  | succ n ih =>
    intro i hi hpi
    rw [upTo, List.find?_append] at h
    cases hx : (upTo n).find? p with
    | some m =>
      obtain rfl : m = k := by simpa [hx] using h
      by_cases hin : i < n
      · exact ih hx i hin hpi
      · exact Nat.le_trans (Nat.le_of_lt (lt_of_mem_upTo (List.mem_of_find?_eq_some hx))) (by omega)
    | none =>
      have hk : k = n := by
        rw [hx, Option.none_or] at h
        simpa using List.mem_of_find?_eq_some h
      have hout : ¬ i < n := fun hin => by simpa [hpi] using List.find?_eq_none.1 hx i (mem_upTo.2 hin)
      omega

/-- A piece goes to the lowest-numbered Churn that may take it, or to the one kept for it. -/
theorem Dev.nextPlacement_lowest {s : Dev} {c : Job × Nat × Piece} {k : Nat} (h : s.nextPlacement = some (c, k)) :
    (∀ n < 16, s.churnReady n = true → s.kept n = false → k ≤ n) ∨ c.2.2.target = some k := by
  obtain ⟨e, -, he⟩ := List.exists_of_findSome?_eq_some h
  obtain ⟨m, hm, hem⟩ := Option.map_eq_some_iff.1 he
  obtain ⟨rfl, rfl⟩ := Prod.mk.inj hem
  obtain ⟨htake, hleast⟩ := find?_upTo_least hm
  cases htarget : e.2.2.target with
  | none => exact .inl fun n hn hchurn hkept => hleast n hn (by simp [takesPiece, htarget, hchurn, hkept])
  | some t => exact .inr (by simp only [takesPiece, htarget, Bool.and_eq_true, beq_iff_eq] at htake; rw [htake.2])

/-- Settles O37: pieces start, are dispatched and end as their commands and the free Churns say. -/
theorem piecesRunAndEnd : Obligations.PiecesRunAndEnd := by
  intro s id n a p gap regs group code args threads i k chn j piece r b
  refine ⟨fun hid hstart => ⟨fun hcmd => ?_, fun hcmd => ?_, fun hcmd => ?_⟩, fun hid hjob hstart hsplit hdone hcmd => ?_,
    fun hid hstart hcmd hchn => completes_delivered hid hstart hcmd hchn, fun hlive hfix hmode hready hnext hst hj hfetch => completes_dispatch hmode hready hlive hfix hnext hst hj hfetch,
    fun _ _ hnext => Dev.nextPlacement_lowest hnext, fun hmode hready hnone => completes_noDispatch hready hmode hnone⟩
  · exact completes_updJob (exec_layer id s) rfl ((layerCmd_eq hid hcmd).trans (s.pieceCmd_starts hstart p))
  · exact completes_updJob (exec_kernel id s) rfl ((kernelCmd_eq hid hcmd).trans (s.pieceCmd_starts hstart p))
  · exact completes_updJob (exec_vcommit id s) rfl (vcommit_starts hid hstart hcmd)
  · exact completes_updJob (exec_layer id s) rfl ((layerCmd_eq hid hcmd).trans (Dev.pieceCmd_ends hstart hsplit hjob hdone p))

end Sys2Proof.Machine

end

section
/-! Takeover, slices and cheap points (R126, R193 to R195, R198). -/

namespace Sys2Proof.Machine

open Sys2Proof

theorem exec_takeover (n v : Fin 16) (k0 k1 : Nat) (pair : OpFmt × OpFmt) (s : State) :
    exec (.takeover n v k0 k1 pair) s = s.run (.takeover n v k0 k1 pair) fun d => d.takeover n v k0 k1 pair := rfl

theorem exec_sliceEnd (v : Fin 16) (s : State) : exec (.sliceEnd v) s = s.run (.sliceEnd v) fun d => d.sliceEnd v := rfl

theorem exec_cheapPointReached (v : Fin 16) (ranges : List (Nat × Nat)) (s : State) :
    exec (.cheapPointReached v ranges) s = s.run (.cheapPointReached v ranges) fun d => d.cheapPointReached v ranges := rfl

/-! ### A save that begins (R194, R199) -/

/-- The fields of a save slot that is taken, with what they take. -/
def slotValues (job piece chn : Nat) (cheap recov : Bool) : List (Field × Nat) :=
  [(.JOB_SLOT_JOB, job), (.JOB_SLOT_ST_PIECE, piece), (.JOB_SLOT_ST_CHN, chn), (.JOB_SLOT_ST_CHEAP, cheap.toNat),
    (.JOB_SLOT_ST_FLT, false.toNat), (.JOB_SLOT_ST_RECOV, recov.toNat), (.JOB_SLOT_ST_STATE, 1)]

theorem Dev.holdSlot_eq (s : Dev) (k job piece chn : Nat) (cheap : Bool) :
    ∃ recov, s.holdSlot k job piece chn cheap = (s.writeAll k (slotValues job piece chn cheap recov)).noteRecovery := ⟨_, rfl⟩

/-- A slot that is taken reads what it holds. -/
theorem Dev.holdSlot_reads (s : Dev) {k : Nat} (hk : k < 1024) (job piece chn : Nat) (cheap : Bool) :
    (s.holdSlot k job piece chn cheap).rd .JOB_SLOT_ST_STATE k = 1 ∧
      (s.holdSlot k job piece chn cheap).rd .JOB_SLOT_ST_CHN k = wrap Field.JOB_SLOT_ST_CHN.desc.width chn ∧
      (s.holdSlot k job piece chn cheap).flag .JOB_SLOT_ST_CHEAP k = cheap := by
  obtain ⟨recov, he⟩ := s.holdSlot_eq k job piece chn cheap
  have hvalue {f : Field} {v : Nat} (hf : (f, v) ∈ slotValues job piece chn cheap recov) :=
    s.rd_writeAll hk (l := slotValues job piece chn cheap recov) (by simp [slotValues]) hf
  rw [he]
  generalize s.writeAll k (slotValues job piece chn cheap recov) = u at hvalue
  have hnote : Within [(.JOB_STAT_RECOV, 0)] id u u.noteRecovery := (Within.refl _ _ u).setFlag _ (by decide) (by simp)
  have hcheap : u.flag .JOB_SLOT_ST_CHEAP k = cheap := by
    rw [flag_eq, hvalue (f := .JOB_SLOT_ST_CHEAP) (v := cheap.toNat) (by simp [slotValues])]
    cases cheap <;> rfl
  exact ⟨(hnote.rd hk (by simp)).trans (hvalue (f := .JOB_SLOT_ST_STATE) (v := 1) (by simp [slotValues])),
    (hnote.rd hk (by simp)).trans (hvalue (f := .JOB_SLOT_ST_CHN) (v := chn) (by simp [slotValues])),
    (hnote.flag hk (by simp)).trans hcheap⟩

/-- What the module holds beside what a save that begins changes. -/
def Dev.butSaved (s : Dev) : Dev := { s with churns := [], mem := [], trace := {} }

theorem Dev.rest_of_butSaved {s t : Dev} (h : t.rest.butSaved = s.rest.butSaved) :
    t.rest = { s.rest with churns := t.churns, mem := t.mem, trace := t.trace } :=
  (congrArg (fun d : Dev => { d with churns := t.churns, mem := t.mem, trace := t.trace }) h :)

/-- What a save of a Churn's context that begins leaves. -/
structure Dev.SaveBegun (s : Dev) (n k : Nat) (r : Resident) (t : Dev) : Prop where
  within : Within (slotFields k) butSaved s t
  resident : t.resident n = some r
  state : t.rd .JOB_SLOT_ST_STATE k = 1
  churn : t.rd .JOB_SLOT_ST_CHN k = wrap Field.JOB_SLOT_ST_CHN.desc.width n
  cheap : t.flag .JOB_SLOT_ST_CHEAP k = r.cheap.isSome
  bytes : ∀ a, a < s.saveBase k + 0x41FFFC ∨ s.saveBase k + 0x41FFFC + 4 ≤ a → t.byteAt a = s.byteAt a

theorem Dev.beginSave_begun (s : Dev) {n k : Nat} (hk : k < 1024) {r : Resident} (hr : s.resident n = some r) (cheap : Option (List (Nat × Nat))) :
    s.SaveBegun n k { r with saving := some k, cheap := cheap, cheapWait := none } (s.beginSave n k cheap) := by
  have hwithin := (Within.refl (slotFields k) butSaved s).beginSave hk (fun _ h => h) n cheap (fun _ _ => rfl) (fun _ _ => rfl) fun _ _ => rfl
  have hheld (job piece : Nat) := s.holdSlot_reads hk job piece n cheap.isSome
  have hslot (job piece : Nat) := (Within.refl (slotFields k) id s).holdSlot hk (fun _ h => h) job piece n cheap.isSome
  have he : ∃ job piece, s.beginSave n k cheap =
      ((((s.holdSlot k job piece n cheap.isSome).zeroBytes ((s.holdSlot k job piece n cheap.isSome).saveBase k + 0x41FFFC) 4).traceContext n 4).setResident
        n (some { r with saving := some k, cheap := cheap, cheapWait := none })) := by
    unfold beginSave
    rw [hr]
    exact ⟨_, _, rfl⟩
  obtain ⟨job, piece, he⟩ := he
  obtain ⟨hstate, hchn, hcheap⟩ := hheld job piece
  have hslot := hslot job piece
  rw [he] at hwithin ⊢
  generalize s.holdSlot k job piece n cheap.isSome = u at *
  have hbase : u.saveBase k = s.saveBase k := by
    have hrd : u.rd .MEM_PART0_INTAKE 0 = s.rd .MEM_PART0_INTAKE 0 := hslot.rd (by decide) (by simp [slotFields])
    simp only [saveBase, intakeSize, hrd]
  have hmem : u.mem = s.mem := (congrArg Dev.mem hslot.same :)
  have hrest (d : Dev) (x : Option Resident) : Within [(.OBS_TRC_DROP_COUNT, 0)] Dev.mem d ((d.traceContext n 4).setResident n x) :=
    ((Within.refl _ _ d).traceRecord _ _ _ (by simp) fun _ _ => rfl).step rfl rfl rfl rfl
  have hlast := hrest (u.zeroBytes (u.saveBase k + 0x41FFFC) 4) (some { r with saving := some k, cheap := cheap, cheapWait := none })
  refine ⟨hwithin, by simp [resident, setResident], ?_, ?_, ?_, fun a ha => ?_⟩
  · exact (hlast.rd hk (by simp)).trans hstate
  · exact (hlast.rd hk (by simp)).trans hchn
  · exact (hlast.flag hk (by simp)).trans hcheap
  · refine (byteAt_of_mem hlast.same a).trans ((u.byteAt_zeroBytes _ 4 a).trans ?_)
    rw [hbase, if_neg (by omega)]
    exact byteAt_of_mem hmem a

/-! ### Cheap points (R194, R198) -/

section
variable {s : State} {v : Fin 16} {r : Resident} (hr : s.resident v = some r)
include hr

theorem completes_noCheapPoint (ranges : List (Nat × Nat)) (hwait : r.cheapWait = none) :
    Completes (.cheapPointReached v ranges) s fun t => KeepsFields s t [] ∧ t.rest = s.rest := by
  refine completes_idle (exec_cheapPointReached v ranges s) ?_
  unfold Dev.cheapPointReached
  rw [hr]
  exact if_pos (by simp [hwait])

theorem completes_cheapPoint {ranges : List (Nat × Nat)} (hwf : (Instr.cheapPointReached v ranges).wf = true) (hwait : r.cheapWait ≠ none) {k : Nat}
    (hslot : s.freeSlot = some k) (hk : k < 40) :
    Completes (.cheapPointReached v ranges) s fun t =>
      t.resident v = some { r with saving := some k, cheap := some ranges, cheapWait := none } ∧
      t.rd .JOB_SLOT_ST_STATE k = 1 ∧ t.flag .JOB_SLOT_ST_CHEAP k = true ∧ KeepsBytes s t (s.saveBase k + 0x41FFFC) 4 ∧
      KeepsFields s t (slotFields k) ∧ t.rest = { s.rest with churns := t.churns, mem := t.mem, trace := t.trace } := by
  have heff : s.toDev.cheapPointReached v ranges = s.beginSave v k (some ranges) := by
    unfold Dev.cheapPointReached
    rw [hr]
    dsimp only
    rw [if_neg (by simpa using hwait), hslot]
  obtain ⟨hwithin, hres, hstate, -, hcheap, hbytes⟩ := s.beginSave_begun (by omega) hr (some ranges) (k := k)
  generalize s.beginSave v k (some ranges) = u at *
  refine .of_effect (exec_cheapPointReached v ranges s) hwf heff ⟨(Dev.resident_of_churns (Dev.notify_churns ..) v).trans hres,
    (Dev.notify_rd ..).trans hstate, (Dev.notify_flag ..).trans hcheap, fun a ha => (Dev.byteAt_of_mem (Dev.notify_mem ..) a).trans (hbytes a ha),
    hwithin.kept, ?_⟩
  rw [Dev.notify_churns, Dev.notify_mem, Dev.notify_trace]
  exact (Dev.notify_rest ..).trans (Dev.rest_of_butSaved hwithin.same)

end

/-! ### The end of a slice (R193, R195) -/

/-- What the module holds beside its jobs and Churns. -/
def Dev.butWork (s : Dev) : Dev := { s with jobs := [], churns := [] }

theorem Dev.rest_of_butWork {s t : Dev} (h : t.rest.butWork = s.rest.butWork) : t.rest = { s.rest with jobs := t.jobs, churns := t.churns } :=
  (congrArg (fun d : Dev => { d with jobs := t.jobs, churns := t.churns }) h :)

theorem Dev.rest_of_butWorkOd {s t : Dev} (h : ({ t.rest.butWork with od := [] } : Dev) = { s.rest.butWork with od := [] }) :
    t.rest = { s.rest with jobs := t.jobs, od := t.od, churns := t.churns } :=
  (congrArg (fun d : Dev => { d with jobs := t.jobs, od := t.od, churns := t.churns }) h :)

theorem Dev.rest_of_savedWork {s t u : Dev} (h : t.rest.butSaved = u.rest.butSaved) (h' : u.rest.butWork = s.rest.butWork) :
    t.rest = { s.rest with jobs := t.jobs, churns := t.churns, mem := t.mem, trace := t.trace } := by
  have hjobs : t.jobs = u.jobs := (congrArg jobs h :)
  have hu := rest_of_butWork h'
  rw [rest_of_butSaved h, hu, hjobs]

theorem Dev.resident_setResident (s : Dev) (n : Nat) (r : Option Resident) : (s.setResident n r).resident n = r := by
  simp [resident, setResident]

/-- The Churn's context begins a new slice. -/
def Dev.newSlice (s : Dev) (v : Nat) (r : Resident) (j : Job) : Dev :=
  (s.updJob j.seq fun j => { j with shorten := 0 }).setResident v (some { r with sliceAt := s.xclk, sliceLen := s.sliceOf j.shorten })

theorem Dev.newSlice_reads (s : Dev) (v : Nat) (r : Resident) (j : Job) :
    Within [] butWork s (s.newSlice v r j) ∧
      (s.newSlice v r j).resident v = some { r with sliceAt := s.xclk, sliceLen := s.sliceOf j.shorten } := by
  have hjob : Within [] butWork s (s.updJob j.seq fun j => { j with shorten := 0 }) := (Within.refl _ _ s).step rfl rfl rfl rfl
  unfold newSlice
  generalize (s.updJob j.seq fun j => { j with shorten := 0 }) = u at hjob ⊢
  exact ⟨hjob.step rfl rfl rfl rfl, u.resident_setResident ..⟩

theorem Dev.freeSlot_of_within {l : List (Field × Nat)} {α : Type} {m : Dev → α} {s t : Dev} (h : Within l m s t) (hl : ∀ i, (.JOB_SLOT_ST_STATE, i) ∉ l)
    (hpart : (.MEM_PART0_SLOTS, 0) ∉ l) : t.freeSlot = s.freeSlot := by
  have hslots : t.recoverySlot = s.recoverySlot := congrArg (· - 1) (h.rd (f := .MEM_PART0_SLOTS) (i := 0) (by decide) hpart)
  unfold freeSlot
  rw [hslots]
  refine List.find?_congr fun k hk => ?_
  have hlt := lt_of_mem_upTo hk
  have hmax := s.recoverySlot_lt
  rw [h.rd (by omega) (hl k)]

/-- A Churn that takes another context for its own is no freer. -/
theorem Dev.anyFree_setResident {s : Dev} {n : Nat} {r r' : Resident} (hr : s.resident n = some r) :
    (s.setResident n (some r')).anyFree = s.anyFree := by
  have hfree (m : Nat) : (s.setResident n (some r')).churnFree m = s.churnFree m := by
    have hflag : (s.setResident n (some r')).flag .CHN_STAT_ISO m = s.flag .CHN_STAT_ISO m := rfl
    by_cases hm : m = n
    · subst hm
      simp only [churnFree, hflag, resident_setResident, hr, Option.isNone_some]
    · have hres : (s.setResident n (some r')).resident m = s.resident m := congrArg Churn.ctx (s.churn_setChurn_ne n m _ hm)
      simp only [churnFree, hflag, hres]
  simp only [anyFree, hfree]

section
variable {s : State} {v : Fin 16} {r : Resident} {j : Job} (hr : s.resident v = some r) (hj : s.job? r.job = some j)
  (hmode : s.flag .GLB_MODE_FIXED = false) (hleave : r.leaving = false) (hrest : r.restoring = none)

include hr hj hmode hleave hrest

theorem sliceEnd_overrun (hkind : r.kind = 3) : s.toDev.sliceEnd v = s.overrun v r := by
  simp [Dev.sliceEnd, hr, hj, hmode, hleave, hrest, hkind]

theorem sliceEnd_slice (hkind : r.kind ≠ 3) :
    s.toDev.sliceEnd v = match (s.newSlice v r j).yieldsTo j with
      | some c => (s.newSlice v r j).saveFor v c
      | none => s.newSlice v r j := by
  simp only [Dev.sliceEnd, hr, hj]
  rw [if_neg (by simp [hmode, hleave, hrest]), if_neg hkind]
  rfl

theorem completes_overrun (hkind : r.kind = 3) :
    Completes (.sliceEnd v) s fun t =>
      t.jobs = (s.jobs.map fun i => if i.seq = r.job then { i with overrun := satSucc 16 i.overrun } else i) ∧
      t.odNum 0x3030 5 0 = wrap 64 (s.odNum 0x3030 5 0 + 1) ∧
      t.resident v = some { r with overAt := some s.xclk, sliceAt := s.xclk, sliceLen := s.sliceOf 0 } ∧
      KeepsFields s t [] ∧ t.rest = { s.rest with jobs := t.jobs, od := t.od, churns := t.churns } := by
  have heff := sliceEnd_overrun hr hj hmode hleave hrest hkind
  have hres : (s.overrun v r).resident v = some { r with overAt := some s.xclk, sliceAt := s.xclk, sliceLen := s.sliceOf 0 } :=
    Dev.resident_setResident ..
  have hod : (s.overrun v r).odNum 0x3030 5 0 = wrap 64 (s.odNum 0x3030 5 0 + 1) := Dev.odNum_setOd_same ..
  have hjobs : (s.overrun v r).jobs = s.jobs.map fun i => if i.seq = r.job then { i with overrun := satSucc 16 i.overrun } else i := rfl
  have hall : Dev.Within [] (fun d => { d.butWork with od := [] }) s.toDev (s.overrun v r) := (Dev.Within.refl _ _ s.toDev).step rfl rfl rfl rfl
  generalize s.overrun v r = u at heff hres hod hjobs hall
  refine .of_effect (exec_sliceEnd v s) rfl heff ⟨(Dev.notify_jobs ..).trans hjobs, ?_, (Dev.resident_of_churns (Dev.notify_churns ..) v).trans hres,
    hall.kept, ?_⟩
  · simpa only [Dev.odNum, Dev.notify_od] using hod
  · rw [Dev.notify_jobs, Dev.notify_od, Dev.notify_churns]
    exact (Dev.notify_rest ..).trans (Dev.rest_of_butWorkOd hall.same)

theorem completes_newSlice (hkind : r.kind ≠ 3) (hfree : s.anyFree = true) :
    Completes (.sliceEnd v) s fun t =>
      t.resident v = some { r with sliceAt := s.xclk, sliceLen := s.sliceOf j.shorten } ∧
      KeepsFields s t [] ∧ t.rest = { s.rest with jobs := t.jobs, churns := t.churns } := by
  have heff := sliceEnd_slice hr hj hmode hleave hrest hkind
  have hyield : (s.newSlice v r j).yieldsTo j = none := if_pos ((Dev.anyFree_setResident (s := s.updJob j.seq _) hr).trans hfree)
  rw [hyield] at heff
  obtain ⟨hall, hres⟩ := s.newSlice_reads v r j
  generalize s.newSlice v r j = u at heff hres hall
  refine .of_effect (exec_sliceEnd v s) rfl heff ⟨(Dev.resident_of_churns (Dev.notify_churns ..) v).trans hres, hall.kept, ?_⟩
  rw [Dev.notify_jobs, Dev.notify_churns]
  exact (Dev.notify_rest ..).trans (Dev.rest_of_butWork hall.same)

theorem completes_yield (hkind : r.kind ≠ 3) {c : Job × Nat × Piece} (hyield : (s.newSlice v r j).yieldsTo j = some c) {k : Nat}
    (hslot : s.freeSlot = some k) (hk : k < 40) :
    Completes (.sliceEnd v) s fun t =>
      t.resident v = some { r with sliceAt := s.xclk, sliceLen := s.sliceOf j.shorten, saving := some k, cheap := none, cheapWait := none } ∧
      t.rd .JOB_SLOT_ST_STATE k = 1 ∧ t.rd .JOB_SLOT_ST_CHN k = v ∧ KeepsBytes s t (s.saveBase k + 0x41FFFC) 4 ∧
      KeepsFields s t (slotFields k) ∧
      t.rest = { s.rest with jobs := t.jobs, churns := t.churns, mem := t.mem, trace := t.trace } := by
  have heff := sliceEnd_slice hr hj hmode hleave hrest hkind
  have hfree := (Dev.freeSlot_of_within (s.newSlice_reads v r j).1 (by simp) (by simp)).trans hslot
  obtain ⟨hset, hres⟩ := s.newSlice_reads v r j
  rw [hyield] at heff
  generalize s.newSlice v r j = u at heff hres hset hfree
  have heff : s.toDev.sliceEnd v = (u.tracePreempt v).beginSave v k none := by
    rw [heff]
    unfold Dev.saveFor
    rw [hfree]
  have htrace : Dev.Within (slotFields k) Dev.butSaved u (u.tracePreempt v) :=
    (Dev.Within.refl _ _ u).traceRecord _ _ _ (by simp [slotFields]) fun _ _ => rfl
  have hres : (u.tracePreempt v).resident v = some { r with sliceAt := s.xclk, sliceLen := s.sliceOf j.shorten } := by
    have hchurns := (Dev.Within.refl (slotFields k) Dev.churns u).traceRecord 16 3 (u.rd .JOB_CHN_JOB v + 2 ^ 32 * v) (by simp [slotFields]) fun _ _ => rfl
    exact (Dev.resident_of_churns hchurns.same v).trans hres
  obtain ⟨hwithin, hres, hstate, hchn, -, hbytes⟩ := (u.tracePreempt v).beginSave_begun (by omega) hres none (k := k)
  have hbase : (u.tracePreempt v).saveBase k = s.saveBase k := by
    have hrd : (u.tracePreempt v).rd .MEM_PART0_INTAKE 0 = s.rd .MEM_PART0_INTAKE 0 :=
      (htrace.rd (by decide) (by simp [slotFields])).trans (hset.rd (by decide) (by simp))
    simp only [Dev.saveBase, Dev.intakeSize, hrd]
  have hmem : (u.tracePreempt v).mem = s.mem := by
    have hkeep := (Dev.Within.refl (slotFields k) Dev.mem u).traceRecord 16 3 (u.rd .JOB_CHN_JOB v + 2 ^ 32 * v) (by simp [slotFields]) fun _ _ => rfl
    exact hkeep.same.trans (congrArg Dev.mem hset.same :)
  generalize u.tracePreempt v = w at *
  generalize w.beginSave v k none = x at *
  have hall : Dev.Within (slotFields k) (fun _ => ()) s.toDev x :=
    ⟨(hset.fields.mono (by simp)).trans (htrace.fields.trans hwithin.fields), rfl⟩
  have hchn : x.rd .JOB_SLOT_ST_CHN k = v := hchn.trans (wrap_of_lt (Nat.lt_of_lt_of_le v.isLt (by decide)))
  refine .of_effect (exec_sliceEnd v s) rfl heff ⟨(Dev.resident_of_churns (Dev.notify_churns ..) v).trans hres,
    (Dev.notify_rd ..).trans hstate, (Dev.notify_rd ..).trans hchn, fun a ha => ?_, hall.kept, ?_⟩
  · rw [Dev.byteAt_of_mem (Dev.notify_mem ..), hbytes a (by rw [hbase]; exact ha), Dev.byteAt_of_mem hmem]
  · rw [Dev.notify_jobs, Dev.notify_churns, Dev.notify_mem, Dev.notify_trace]
    exact (Dev.notify_rest ..).trans (Dev.rest_of_savedWork (hwithin.same.trans htrace.same) hset.same)

end

/-! ### Takeover (R126) -/

theorem getElem?_modifyAt {α : Type} (f : α → α) (k i : Nat) (l : List α) :
    (modifyAt f k l)[i]? = if i = k then l[i]?.map f else l[i]? := by
  induction l generalizing k i with
  | nil => cases k <;> simp [modifyAt]
  | cons a l ih =>
    cases k with
    | zero => cases i <;> simp [modifyAt]
    | succ k => cases i <;> simp [modifyAt, ih]

theorem length_modifyAt {α : Type} (f : α → α) (k : Nat) (l : List α) : (modifyAt f k l).length = l.length := by
  induction l generalizing k with
  | nil => cases k <;> rfl
  | cons a l ih => cases k <;> simp [modifyAt, ih]

theorem Dev.seq_of_job? {s : Dev} {q : Nat} {j : Job} (h : s.job? q = some j) : q = j.seq := by
  have hseq := List.find?_some h
  exact (beq_iff_eq.1 hseq).symm

/-- A job of which a piece keeps a range of its remainder, and which has a new piece last. -/
def Job.divided (j : Job) (i a b : Nat) (p : Piece) : Job :=
  { j with split := true, pieces := modifyAt (fun (p : Piece) => { p with range := some (a, b) }) i j.pieces ++ [p] }

/-- A job of the table with a divided piece. -/
def Dev.divide (s : Dev) (j : Job) (i a b : Nat) (p : Piece) : Dev :=
  Dev.updJob (s.keepPart j.seq i a b) j.seq fun k => { k with pieces := k.pieces ++ [p] }

theorem Dev.job?_divide (s : Dev) {j : Job} (hj : s.job? j.seq = some j) (i a b : Nat) (p : Piece) :
    (s.divide j i a b p).job? j.seq = some (j.divided i a b p) := by
  have hkeep := s.job?_updJob j.seq (f := fun k =>
    { k with split := true, pieces := modifyAt (fun (p : Piece) => { p with range := some (a, b) }) i k.pieces }) fun _ => rfl
  have hadd := (s.keepPart j.seq i a b).job?_updJob j.seq (f := fun k => { k with pieces := k.pieces ++ [p] }) fun _ => rfl
  rw [hj] at hkeep
  exact hadd.trans (congrArg (Option.map _) hkeep)

theorem Dev.divide_within (s : Dev) (j : Job) (i a b : Nat) (p : Piece) : Within [] butStarted s (s.divide j i a b p) := by
  have hkeep : Within [] butStarted s (s.keepPart j.seq i a b) := (Within.refl _ _ s).step rfl rfl rfl rfl
  unfold divide
  generalize s.keepPart j.seq i a b = u at hkeep ⊢
  exact hkeep.step rfl rfl rfl rfl

theorem Dev.freshContext_divide (s : Dev) (j : Job) (i a b : Nat) (p : Piece) :
    (s.divide j i a b p).freshContext j.pieces.length (j.divided i a b p) =
      { job := j.seq, piece := j.pieces.length, kind := j.kind, sliceAt := s.xclk, sliceLen := s.sliceOf j.shorten, since := s.xclk } := rfl

theorem Job.length_divided (j : Job) (i a b : Nat) (p : Piece) : (j.divided i a b p).pieces.length - 1 = j.pieces.length := by
  simp [divided, length_modifyAt]

/-- The pieces of a divided job whose new piece has started. -/
theorem Dev.pieces_startedJob (s : Dev) (n : Nat) (j : Job) {i a b : Nat} {p q : Piece} (hq : j.pieces[i]? = some q) :
    ((s.startedJob n j.pieces.length (j.divided i a b p)).pieces[i]?.map fun x => x.range) = some (some (a, b)) ∧
      ((s.startedJob n j.pieces.length (j.divided i a b p)).pieces[j.pieces.length]?.map fun x => (x.st, x.range)) = some (.running n, p.range) := by
  have hi : i < j.pieces.length := (List.getElem?_eq_some_iff.1 hq).1
  have hpieces : (s.startedJob n j.pieces.length (j.divided i a b p)).pieces =
      modifyAt (fun (p : Piece) => { p with st := .running n }) j.pieces.length
        (modifyAt Piece.placed j.pieces.length (modifyAt (fun (p : Piece) => { p with range := some (a, b) }) i j.pieces ++ [p])) := rfl
  rw [hpieces]
  simp only [getElem?_modifyAt, List.getElem?_append, length_modifyAt, hq, hi, if_true, if_neg (Nat.ne_of_lt hi), lt_irrefl, if_false,
    Nat.sub_self, Option.map_some, List.getElem?_cons_zero]
  exact ⟨trivial, rfl⟩

section
variable {s : State} (n : Fin 16) {v : Fin 16} {k0 k1 : Nat} {pair : OpFmt × OpFmt} {r : Resident} {j : Job} (hr : s.resident v = some r)
  (hj : s.job? r.job = some j)
include hr

theorem takeover_none (hnone : leastPart pair.1 pair.2 = none) : s.toDev.takeover n v k0 k1 pair = s.toDev := by
  unfold Dev.takeover
  rw [hr, hnone]

include hj

theorem takeover_eq {least : Nat} (hleast : leastPart pair.1 pair.2 = some least) {p : Piece} (hp : j.pieces[r.piece]? = some p) :
    let lo := (p.range.map fun e => max e.1 k0).getD k0
    let hi := (p.range.map fun e => min e.2 k1).getD k1
    s.toDev.takeover n v k0 k1 pair =
      if r.kind ≠ 1 ∨ r.saving.isSome ∨ r.restoring.isSome ∨ j.repro ≠ some false ∨ s.flag .GLB_MODE_FIXED ∨ !s.churnReady n ∨
          s.kept n ∨ s.readyAll ≠ [] ∨ !mayDivide lo hi least then s.toDev
      else (s.divide j r.piece lo (splitPoint lo hi) { index := p.index, st := .ready, range := some (splitPoint lo hi, hi) }).startOn n
        (j.divided r.piece lo (splitPoint lo hi) { index := p.index, st := .ready, range := some (splitPoint lo hi, hi) }) j.pieces.length
        { index := p.index, st := .ready, range := some (splitPoint lo hi, hi) } := by
  intro lo hi
  have hseq := Dev.seq_of_job? hj
  have hget : j.pieces.getD r.piece { index := 0, st := .ready } = p := by simp [List.getD, hp]
  have hdivide := s.job?_divide (hseq ▸ hj) r.piece lo (splitPoint lo hi)
    { index := p.index, st := .ready, range := some (splitPoint lo hi, hi) }
  have hlo : (match p.range with
      | some (a, _) => max a k0
      | none => k0) = lo := by cases h : p.range <;> simp [lo, h]
  have hhi : (match p.range with
      | some (_, b) => min b k1
      | none => k1) = hi := by cases h : p.range <;> simp [hi, h]
  have htake : s.toDev.takeover n v k0 k1 pair =
      if r.kind ≠ 1 ∨ r.saving.isSome ∨ r.restoring.isSome ∨ j.repro ≠ some false ∨ s.flag .GLB_MODE_FIXED ∨ !s.churnReady n ∨
          s.kept n ∨ s.readyAll ≠ [] ∨ !mayDivide lo hi least then s.toDev
      else match (s.divide j r.piece lo (splitPoint lo hi) { index := p.index, st := .ready, range := some (splitPoint lo hi, hi) }).job? j.seq with
        | some i => (s.divide j r.piece lo (splitPoint lo hi) { index := p.index, st := .ready, range := some (splitPoint lo hi, hi) }).startOn n i
            (i.pieces.length - 1) { index := p.index, st := .ready, range := some (splitPoint lo hi, hi) }
        | none => s.divide j r.piece lo (splitPoint lo hi) { index := p.index, st := .ready, range := some (splitPoint lo hi, hi) } := by
    unfold Dev.takeover
    rw [hr, hleast]
    dsimp only
    rw [hj]
    dsimp only
    rw [hget, ← hlo, ← hhi]
    rfl
  rw [htake, hdivide]
  dsimp only
  rw [j.length_divided]

/-- A takeover that may be: the new part of the piece starts on its Churn. -/
theorem completes_takeover {least : Nat} (hwf : k0 ≤ k1) (hleast : leastPart pair.1 pair.2 = some least) {p : Piece}
    (hp : j.pieces[r.piece]? = some p) {lo hi : Nat} (hlo : (p.range.map fun e => max e.1 k0).getD k0 = lo)
    (hhi : (p.range.map fun e => min e.2 k1).getD k1 = hi) (hkind : r.kind = 1) (hsaving : r.saving = none) (hrestoring : r.restoring = none)
    (hrepro : j.repro = some false) (hmode : s.flag .GLB_MODE_FIXED = false) (hready : s.churnReady n = true) (hkept : s.kept n = false)
    (hnone : s.readyAll = []) (hdivide : mayDivide lo hi least = true) {upper : Piece}
    (hupper : upper = { index := p.index, st := .ready, range := some (splitPoint lo hi, hi) })
    (hfetch : (((s.divide j r.piece lo (splitPoint lo hi) upper).job? j.seq).all fun i =>
      ((s.divide j r.piece lo (splitPoint lo hi) upper).place n i j.pieces.length upper).fetches n i) = true) :
    Completes (.takeover n v k0 k1 pair) s fun t =>
      t.resident n = some { job := j.seq, piece := j.pieces.length, kind := (j.cmd?.map Command.kind).getD 0,
                            sliceAt := s.xclk, sliceLen := s.sliceOf j.shorten, since := s.xclk } ∧
      (t.job? j.seq).map (fun i => (i.pieces[r.piece]?.map fun q => q.range, i.pieces[j.pieces.length]?.map fun q => (q.st, q.range))) =
        some (some (some (lo, splitPoint lo hi)), some (.running n, some (splitPoint lo hi, hi))) ∧
      t.flag .CHN_STAT_BUSY n = true ∧ KeepsFields s t (contextFields n) ∧
      t.rest = { s.rest with jobs := t.jobs, churns := t.churns, tlb := t.tlb, trace := t.trace } := by
  have heff := takeover_eq n (k0 := k0) (k1 := k1) hr hj hleast hp
  dsimp only at heff
  rw [hlo, hhi, if_neg (by simp [hkind, hsaving, hrestoring, hrepro, hmode, hready, hkept, hnone, hdivide]), ← hupper] at heff
  have hjob := s.job?_divide (Dev.seq_of_job? hj ▸ hj) r.piece lo (splitPoint lo hi) upper
  rw [hjob, Option.all_some] at hfetch
  have hstart := (s.divide j r.piece lo (splitPoint lo hi) upper).startOn_starts (n := n) (by omega)
    (j := j.divided r.piece lo (splitPoint lo hi) upper) hjob j.pieces.length (p := upper) (by rw [hupper]) hfetch
  have hw := s.divide_within j r.piece lo (splitPoint lo hi) upper
  have hfresh := s.freshContext_divide j r.piece lo (splitPoint lo hi) upper
  obtain ⟨hwithin, hres, hstarted, hread⟩ := hstart
  have hpieces := (s.divide j r.piece lo (splitPoint lo hi) upper).pieces_startedJob n j (a := lo) (b := splitPoint lo hi) (p := upper) hp
  rw [hfresh] at hres
  generalize (s.divide j r.piece lo (splitPoint lo hi) upper).startOn n (j.divided r.piece lo (splitPoint lo hi) upper) j.pieces.length upper = u
    at heff hwithin hres hstarted hread
  have hbusy : u.flag .CHN_STAT_BUSY n = true := by
    have hrd : u.rd .CHN_STAT_BUSY n = _ := hread (.CHN_STAT_BUSY, true.toNat) (by simp [contextValues])
    rw [Dev.flag_eq, hrd]
    rfl
  have hall : Dev.Within (contextFields n) Dev.butStarted s.toDev u := ⟨(hw.fields.mono (by simp)).trans hwithin.fields, hwithin.same.trans hw.same⟩
  refine .of_effect (exec_takeover n v k0 k1 pair s) (decide_eq_true hwf) heff ⟨?_, ?_, (Dev.notify_flag ..).trans hbusy, hall.kept, ?_⟩
  · rw [Dev.resident_of_churns (Dev.notify_churns ..), hres, j.kind_eq]
  · have hkeep : (u.notify s.toDev).job? j.seq = _ := (Dev.job?_of_jobs (Dev.notify_jobs ..) j.seq).trans hstarted
    have hrange : upper.range = some (splitPoint lo hi, hi) := by rw [hupper]
    rw [hkeep, Option.map_some, hpieces.1, hpieces.2, hrange]
  · rw [Dev.notify_jobs, Dev.notify_churns, Dev.notify_tlb, Dev.notify_trace]
    exact (Dev.notify_rest ..).trans (Dev.rest_of_butStarted hall.same)

end

/-- Settles O38: a takeover, the end of a slice and a cheap point do what their conditions allow. -/
theorem slicesAndTakeover : Obligations.SlicesAndTakeover := by
  intro s n v k0 k1 least k pair p r j c ranges hr hj
  refine ⟨fun hwf hleast hp => ⟨?_, ?_⟩, fun _ hnone => completes_idle (exec_takeover n v k0 k1 pair s) (takeover_none n hr hnone),
    fun hmode hleave hrest => ⟨completes_overrun hr hj hmode hleave hrest, completes_newSlice hr hj hmode hleave hrest,
      by intro _ hkind hyield hslot hk; exact completes_yield hr hj hmode hleave hrest hkind hyield hslot hk⟩,
    fun hfit hsum => ⟨completes_noCheapPoint hr ranges, fun hwait hslot hk =>
      completes_cheapPoint hr (ranges := ranges) (by simp only [Instr.wf, hfit, hsum, decide_true, Bool.and_self]) hwait hslot hk⟩⟩
  · intro hmay hfetch
    obtain ⟨hkind, hsaving, hrestoring, hrepro, hmode, hready, hkept, hnone, hdivide⟩ := hmay
    exact completes_takeover n hr hj hwf hleast hp rfl rfl hkind hsaving hrestoring hrepro hmode hready hkept hnone hdivide rfl hfetch
  · intro hnot
    have heff := takeover_eq n (k0 := k0) (k1 := k1) hr hj hleast hp
    refine completes_idle (exec_takeover n v k0 k1 pair s) (heff.trans (if_pos (Classical.byContradiction fun hno => hnot ?_)))
    simpa [not_or] using hno

end Sys2Proof.Machine

end

section
/-! DMA transfers (R133 to R137, R160, R163, R164). -/

namespace Sys2Proof.Machine

open Sys2Proof

theorem exec_dmaTransfer (n : Fin 16) (op : DmaOp) (e : MemEvent) (s : State) :
    exec (.dmaTransfer n op e) s = s.run (.dmaTransfer n op e) fun d => d.dmaTransfer n op e := rfl

/-! ### Translated spans -/

/-- The caches have taken translations. -/
def Dev.caching (s : Dev) (x : List Cached) : Dev := { s with tlb := x }

theorem Dev.keepPages_eq (s : Dev) (me : Option Nat) (asid acc f va n : Nat) : ∃ x, s.keepPages me asid acc f va n = s.caching x := by
  have hpage (d : Dev) (va : Nat) : ∃ x, d.keepPage me asid va acc = d.caching x := by
    unfold keepPage
    split
    · exact ⟨_, rfl⟩
    · exact ⟨d.tlb, rfl⟩
  induction f generalizing s va n with
  | zero => exact ⟨s.tlb, rfl⟩
  | succ f ih =>
    rw [keepPages]
    by_cases hn : n = 0
    · exact ⟨s.tlb, if_pos hn⟩
    · obtain ⟨x, hx⟩ := hpage s va
      obtain ⟨y, hy⟩ := ih (s.keepPage me asid va acc) (va + min n (4096 - va % 4096)) (n - min n (4096 - va % 4096))
      exact ⟨y, (if_neg hn).trans (hy.trans (hx ▸ rfl))⟩

theorem Dev.touch_eq (s : Dev) (me : Option Nat) (asid acc va n : Nat) : ∃ x, s.touch me asid acc va n = s.caching x := s.keepPages_eq ..

theorem Dev.touchAll_eq (s : Dev) (n : Nat) (op : DmaOp) : ∃ x, s.touchAll n op = s.caching x := by
  have hfold (l : List (Nat × Nat)) (d : Dev) :
      ∃ x, l.foldl (fun (d : Dev) e => d.touch (some n) (d.asidOn n) (if op.toMem then 1 else 0) e.1 e.2) d = d.caching x := by
    induction l generalizing d with
    | nil => exact ⟨d.tlb, rfl⟩
    | cons e l ih =>
      obtain ⟨x, hx⟩ := d.touch_eq (some n) (d.asidOn n) (if op.toMem then 1 else 0) e.1 e.2
      obtain ⟨y, hy⟩ := ih (d.touch (some n) (d.asidOn n) (if op.toMem then 1 else 0) e.1 e.2)
      exact ⟨y, hy.trans (hx ▸ rfl)⟩
  exact hfold _ s

/-- Spans hold no more bytes than were asked for, and some where some were. -/
theorem Dev.vspans_bounded (s : Dev) (me : Option Nat) (asid acc : Nat) (bad : Option Nat) {f va n : Nat} {l : List (Bool × Nat × Nat)}
    (h : s.vspans me asid acc bad f va n = .ok l) : (l.map fun e => e.2.2).sum ≤ n ∧ (0 < f → 0 < n → l ≠ []) := by
  induction f generalizing va n l with
  | zero =>
    cases h
    exact ⟨Nat.zero_le _, fun hf => absurd hf (lt_irrefl 0)⟩
  | succ f ih =>
    rw [vspans] at h
    by_cases hn : n = 0
    · rw [if_pos hn] at h
      cases h
      exact ⟨Nat.zero_le _, fun _ hpos => absurd hn (by omega)⟩
    · rw [if_neg hn] at h
      dsimp only at h
      generalize s.translate me asid va acc bad = w at h
      cases w with
      | fault x => cases h
      | page host a e =>
        dsimp only at h
        generalize hx : s.vspans me asid acc bad f (va + min n (4096 - va % 4096)) (n - min n (4096 - va % 4096)) = y at h
        cases y with
        | fault x => cases h
        | error => cases h
        | ok m =>
          cases h
          have hm := (ih hx).1
          refine ⟨?_, fun _ _ => by simp⟩
          simp only [List.map_cons, List.sum_cons]
          omega

/-- A row whose addresses translate and can be reached is moved; the caches keep the translations. -/
theorem Dev.dmaTransfer_moves {s : Dev} {n : Nat} {op : DmaOp} {l : List (Bool × Nat × Nat)} (hmap : mapError op.map = 0)
    (hfit : op.ls + dmaRow op ≤ lsSize) (hside : fmtMx op.map.fmt = true → op.lsScale + sideBytes op.map ≤ lsSize)
    (hfound : s.translateAll (some n) (s.asidOn n) (if op.toMem then 1 else 0) op.walkError (dmaSpans op) = .ok l)
    (hreach : ∀ e ∈ l, s.reachable (some n) e = true) : ∃ x, s.dmaTransfer n op .clean = (s.caching x).moveRow n op l := by
  obtain ⟨x, hx⟩ := s.touchAll_eq n op
  refine ⟨x, ?_⟩
  have hall : (l.all fun e => (s.caching x).reachable (some n) e) = true := List.all_eq_true.2 hreach
  unfold dmaTransfer
  rw [if_neg (by simp [hmap]), if_neg (not_or.2 ⟨by omega, fun ⟨h, _, hout⟩ => absurd hout (Nat.not_lt.2 (hside h))⟩), hfound]
  dsimp only
  rw [hx, if_neg (by simp [hall])]
  rfl

/-! ### Rows -/

theorem spanOk_dpaOk {a k i : Nat} (h : spanOk a k = true) (hi : i < k) : dpaOk (a + i) = true := by
  simp only [spanOk, Bool.or_eq_true, Bool.and_eq_true, decide_eq_true_eq] at h
  simp only [dpaOk, inVat, inLs, inLpddr, Bool.or_eq_true, decide_eq_true_eq]
  omega

theorem Dev.spanOk_of_reachable {s : Dev} {me : Option Nat} {a k : Nat} (h : s.reachable me (false, a, k) = true) : spanOk a k = true := by
  cases hok : spanOk a k with
  | true => rfl
  | false => simp [reachable, hok] at h

/-- What the module holds beside memory and the translation caches. -/
def Dev.butMoved (s : Dev) : Dev := { s with mem := [], tlb := [] }

theorem Dev.rest_of_butMoved {s t : Dev} (h : t.rest.butMoved = s.rest.butMoved) : t.rest = { s.rest with mem := t.mem, tlb := t.tlb } :=
  (congrArg (fun d : Dev => { d with mem := t.mem, tlb := t.tlb }) h :)

theorem Dev.caching_within (s : Dev) (x : List Cached) : Within [] butMoved s (s.caching x) := (Within.refl _ _ s).step rfl rfl rfl rfl

/-- A transfer that moves its row. -/
theorem completes_moved {s : State} {n : Fin 16} {op : DmaOp} {u : Dev} (hwf : (Instr.dmaTransfer n op .clean).wf = true)
    (heff : s.toDev.dmaTransfer n op .clean = u) (hu : Dev.Within [] Dev.butMoved s.toDev u) :
    Completes (.dmaTransfer n op .clean) s fun t => t.mem = u.mem ∧ KeepsFields s t [] ∧ t.rest = { s.rest with mem := t.mem, tlb := t.tlb } := by
  refine .of_effect (exec_dmaTransfer n op .clean s) hwf heff ⟨Dev.notify_mem .., hu.kept, ?_⟩
  rw [Dev.notify_mem, Dev.notify_tlb]
  exact (Dev.notify_rest ..).trans (Dev.rest_of_butMoved hu.same)

theorem length_dmaDecode (op : DmaOp) (b : List Byte) : (dmaDecode op b).length = op.map.w := by simp [dmaDecode, length_upTo]

theorem length_bytesAt (s : Dev) (a k : Nat) : (s.bytesAt a k).length = k := by
  simp [Dev.bytesAt, length_rangeFrom]

theorem Dev.bytesAt_of_mem {s t : Dev} (h : t.mem = s.mem) (a k : Nat) : t.bytesAt a k = s.bytesAt a k := by
  unfold bytesAt
  exact List.map_congr_left fun i _ => byteAt_of_mem h i

/-- A map without an error has columns. -/
theorem map_width_pos {m : MapDesc} (h : mapError m = 0) : 0 < m.w := by
  unfold mapError at h
  have hbad := leastCode_none (by simp) h _ (by simp; exact .inr (.inr rfl))
  simp only [Bool.or_eq_false_iff] at hbad
  simp_all
  omega

theorem elementSpan_pos {op : DmaOp} (h : mapError op.map = 0) (hskim : op.map.skim = 0) : 0 < (elementSpan op).2 := by
  have hw := map_width_pos h
  have hspan : (elementSpan op).2 = elemBytes (fmtBits op.map.fmt) op.map.w := by simp [elementSpan, hskim]
  have hbits : 4 ≤ fmtBits op.map.fmt := by rcases fmtBits_width op.map.fmt with h | ⟨k, hk, h⟩ <;> omega
  have hmul := Nat.mul_le_mul hbits hw
  rw [hspan, elemBytes]
  omega

theorem dmaSpans_scales {op : DmaOp} (h : mapError op.map = 0) (hlayout : op.map.layout = 0) (hskim : op.map.skim = 0)
    (hmx : fmtMx op.map.fmt = true) : dmaSpans op = [elementSpan op, sideSpan op] := by
  have hside : sideBytes op.map ≠ 0 := by simpa [sideBytes, hskim, hmx] using (map_width_pos h).ne'
  simp [dmaSpans, hlayout, hside]

/-- The rows of a translated pair of spans lie within what was asked for. -/
theorem Dev.translateAll_pair {s : Dev} {me : Option Nat} {asid acc : Nat} {bad : Option Nat} {e e' : Nat × Nat} {p q : Bool × Nat × Nat}
    (he : 0 < e.2) (he' : 0 < e'.2) (h : s.translateAll me asid acc bad [e, e'] = .ok [p, q]) : p.2.2 ≤ e.2 ∧ q.2.2 ≤ e'.2 := by
  simp only [translateAll] at h
  generalize hx : s.vspans me asid acc bad (e.2 / 4096 + 2) e.1 e.2 = x at h
  generalize hy : s.vspans me asid acc bad (e'.2 / 4096 + 2) e'.1 e'.2 = y at h
  cases x with
  | fault x => cases h
  | error => cases h
  | ok l =>
    cases y with
    | fault x => cases h
    | error => cases h
    | ok k =>
      obtain ⟨hl, hlne⟩ := s.vspans_bounded me asid acc bad hx
      obtain ⟨hk, hkne⟩ := s.vspans_bounded me asid acc bad hy
      have hlist : l ++ k = [p, q] := by simpa using VRes.ok.inj h
      match l, hlne (by omega) he with
      | [a], _ =>
        obtain ⟨rfl, rfl⟩ := List.cons.inj hlist
        simp at hl hk
        exact ⟨hl, hk⟩
      | a :: b :: l, _ =>
        have hnil : k = [] := by
          have := congrArg List.length hlist
          simp only [List.length_append, List.length_cons, List.length_nil] at this
          exact List.length_eq_zero_iff.1 (by omega)
        exact absurd hnil (hkne (by omega) he')

theorem Dev.translateAll_one {s : Dev} {me : Option Nat} {asid acc : Nat} {bad : Option Nat} {e : Nat × Nat} {p : Bool × Nat × Nat}
    (h : s.translateAll me asid acc bad [e] = .ok [p]) : p.2.2 ≤ e.2 := by
  simp only [translateAll] at h
  generalize hx : s.vspans me asid acc bad (e.2 / 4096 + 2) e.1 e.2 = x at h
  cases x with
  | fault x => cases h
  | error => cases h
  | ok l =>
    have hl := (s.vspans_bounded me asid acc bad hx).1
    obtain rfl : l = [p] := by simpa using VRes.ok.inj h
    simpa using hl

section
variable {s : State} {n : Fin 16} {op : DmaOp} (hwf : (Instr.dmaTransfer n op .clean).wf = true) (hmap : mapError op.map = 0)
  (hfit : op.ls + dmaRow op ≤ lsSize) (hside : fmtMx op.map.fmt = true → op.lsScale + sideBytes op.map ≤ lsSize)
include hwf hmap hfit hside

/-- The elements of a row that is read reach local store. -/
theorem completes_rowRead (hdir : op.toMem = false) {a k : Nat}
    (hfound : s.translateAll (some (n : Nat)) (s.asidOn n) 0 op.walkError (dmaSpans op) = .ok [(false, a, k)])
    (hreach : s.reachable (some (n : Nat)) (false, a, k) = true) {x : Nat} (hx : x < op.map.w) (hmx : fmtMx op.map.fmt = false) :
    Completes (.dmaTransfer n op .clean) s fun t =>
      t.lsElem n op.ls (fmtBits op.map.fmt) x = wrap (fmtBits op.map.fmt) ((dmaDecode op (s.bytesAt a k)).getD x 0) ∧
      KeepsBytes s t (lsOf n + op.ls) (dmaRow op) ∧ KeepsFields s t [] ∧ t.rest = { s.rest with mem := t.mem, tlb := t.tlb } := by
  obtain ⟨c, hc⟩ := Dev.dmaTransfer_moves hmap hfit hside (by simpa [hdir] using hfound) (by simpa using hreach)
  have hmove : (s.caching c).moveRow n op [(false, a, k)] = (s.caching c).putElems n op.ls (fmtBits op.map.fmt) (dmaDecode op (s.bytesAt a k)) := by
    have hold : (s.caching c).spanBytes [(false, a, k)] = s.bytesAt a k := (List.append_nil _).trans rfl
    simp [Dev.moveRow, hdir, hmx, anyHost, hold]
  have hlen := length_dmaDecode op (s.bytesAt a k)
  have hwithin := (s.caching_within c).putElems n op.ls (fmtBits op.map.fmt) (dmaDecode op (s.bytesAt a k)) fun _ _ => rfl
  have helem := (s.caching c).lsElem_putElems (base := op.ls) (l := dmaDecode op (s.bytesAt a k)) n.isLt (fmtBits_width op.map.fmt)
    (by rw [hlen]; exact hx) (by rw [hlen]; exact hfit)
  have hout (i : Nat) (hi : i < lsOf n + op.ls ∨ lsOf n + op.ls + dmaRow op ≤ i) := (s.caching c).byteAt_putElems_out (base := op.ls)
    (l := dmaDecode op (s.bytesAt a k)) (fmtBits_width op.map.fmt) (by rw [hlen]; exact hi)
  refine (completes_moved hwf (hc.trans hmove) hwithin).imp fun t ⟨hmem, hkept, hrest⟩ => ⟨?_, fun i hi => ?_, hkept, hrest⟩
  · rw [Dev.lsElem_of_mem hmem, helem]
    have hx' : x < (dmaDecode op (s.bytesAt a k)).length := by rw [hlen]; exact hx
    simp [List.getElem?_eq_getElem hx']
  · exact (Dev.byteAt_of_mem hmem i).trans (hout i hi)

/-- The scales of an MX row that is read reach local store. -/
theorem completes_scalesRead (hlayout : op.map.layout = 0) (hskim : op.map.skim = 0) (hdir : op.toMem = false) {a k b m : Nat}
    (hfound : s.translateAll (some (n : Nat)) (s.asidOn n) 0 op.walkError (dmaSpans op) = .ok [(false, a, k), (false, b, m)])
    (hreach : s.reachable (some (n : Nat)) (false, a, k) = true) (hreach' : s.reachable (some (n : Nat)) (false, b, m) = true)
    (hk : k = dmaRow op) (hmx : fmtMx op.map.fmt = true) (hapart : op.ls + dmaRow op ≤ op.lsScale) :
    Completes (.dmaTransfer n op .clean) s fun t =>
      t.bytesAt (lsOf n + op.lsScale) m = s.bytesAt b m ∧
      KeepsBytes s t (lsOf n + op.ls) (op.lsScale + m - op.ls) ∧ KeepsFields s t [] ∧
      t.rest = { s.rest with mem := t.mem, tlb := t.tlb } := by
  obtain ⟨c, hc⟩ := Dev.dmaTransfer_moves hmap hfit hside (by simpa [hdir] using hfound) (by simpa using ⟨hreach, hreach'⟩)
  have hscales : sideBytes op.map = op.map.w := by simp [sideBytes, hskim, hmx]
  have hsideLen : (sideSpan op).2 = op.map.w := hscales
  have hm : m ≤ op.map.w := by
    rw [dmaSpans_scales hmap hlayout hskim hmx] at hfound
    exact hsideLen ▸ (Dev.translateAll_pair (elementSpan_pos hmap hskim) (by rw [hsideLen]; exact map_width_pos hmap) hfound).2
  have hmove : (s.caching c).moveRow n op [(false, a, k), (false, b, m)] =
      ((s.caching c).putElems n op.ls (fmtBits op.map.fmt) (dmaDecode op (s.bytesAt a k ++ s.bytesAt b m))).putBytes (lsOf n + op.lsScale)
        (s.bytesAt b m) := by
    have hold : (s.caching c).spanBytes [(false, a, k), (false, b, m)] = s.bytesAt a k ++ s.bytesAt b m :=
      congrArg (s.bytesAt a k ++ ·) ((List.append_nil _).trans rfl)
    have hdrop : ((s.bytesAt a k ++ s.bytesAt b m).drop (dmaRow op)).take op.map.w = s.bytesAt b m := by
      rw [← hk, List.drop_left' (length_bytesAt s.toDev a k), List.take_of_length_le (by rw [length_bytesAt]; exact hm)]
    simp [Dev.moveRow, hdir, hmx, anyHost, hold, hlayout, hscales, hdrop, (map_width_pos hmap).ne']
  have hlen := length_dmaDecode op (s.bytesAt a k ++ s.bytesAt b m)
  have hput := (s.caching_within c).putElems n op.ls (fmtBits op.map.fmt) (dmaDecode op (s.bytesAt a k ++ s.bytesAt b m)) fun _ _ => rfl
  have hout (i : Nat) (hi : i < lsOf n + op.ls ∨ lsOf n + op.ls + dmaRow op ≤ i) := (s.caching c).byteAt_putElems_out (base := op.ls)
    (l := dmaDecode op (s.bytesAt a k ++ s.bytesAt b m)) (fmtBits_width op.map.fmt) (by rw [hlen]; exact hi)
  generalize (s.caching c).putElems n op.ls (fmtBits op.map.fmt) (dmaDecode op (s.bytesAt a k ++ s.bytesAt b m)) = u at hmove hput hout
  have hread := u.bytesAt_putBytes (lsOf n + op.lsScale) (s.bytesAt b m) fun i hi => by
    rw [length_bytesAt] at hi
    rw [Nat.add_assoc]
    exact dpaOk_ls n.isLt (by have := hside hmx; omega)
  rw [length_bytesAt] at hread
  refine (completes_moved hwf (hc.trans hmove) (hput.putBytes _ _ fun _ _ => rfl)).imp fun t ⟨hmem, hkept, hrest⟩ =>
    ⟨(Dev.bytesAt_of_mem hmem _ _).trans hread, fun i hi => ?_, hkept, hrest⟩
  rw [Dev.byteAt_of_mem hmem, u.byteAt_putBytes_out _ _ (by rw [length_bytesAt]; omega)]
  exact hout i (by omega)

/-- A row that is written reaches the place to which its address translates. -/
theorem completes_rowWritten (hlayout : op.map.layout = 0) (hskim : op.map.skim = 0) (hdir : op.toMem = true) {a k : Nat}
    (hfound : s.translateAll (some (n : Nat)) (s.asidOn n) 1 op.walkError (dmaSpans op) = .ok [(false, a, k)])
    (hreach : s.reachable (some (n : Nat)) (false, a, k) = true) (hbits : fmtBits op.map.fmt ≠ 4) (hmx : fmtMx op.map.fmt = false) :
    Completes (.dmaTransfer n op .clean) s fun t =>
      t.bytesAt a k = ((s.lsRow n op).flatMap fun c => leBytes c (fmtBits op.map.fmt / 8)).take k ∧
      KeepsBytes s t a k ∧ KeepsFields s t [] ∧ t.rest = { s.rest with mem := t.mem, tlb := t.tlb } := by
  obtain ⟨c, hc⟩ := Dev.dmaTransfer_moves hmap hfit hside (by simpa [hdir] using hfound) (by simpa using hreach)
  have hscales : sideBytes op.map = 0 := by simp [sideBytes, hskim, hmx]
  have hk : k ≤ dmaRow op := by
    have hspans : dmaSpans op = [elementSpan op] := by simp [dmaSpans, hlayout, hscales]
    have hlen : (elementSpan op).2 = dmaRow op := by simp [elementSpan, dmaRow, hskim]
    rw [hspans] at hfound
    exact hlen ▸ Dev.translateAll_one hfound
  generalize hrow : ((s.lsRow n op).flatMap fun c => leBytes c (fmtBits op.map.fmt / 8)) = row
  have hlen : row.length = dmaRow op := by
    obtain hfour | ⟨bytes, -, hbytes⟩ := fmtBits_width op.map.fmt
    · exact absurd hfour hbits
    · rw [← hrow, List.length_flatMap, dmaRow, hbytes, elemBytes]
      simp [length_leBytes, Dev.lsRow, length_upTo, Function.comp_def]
      rw [Nat.mul_assoc, Nat.mul_comm]
      omega
  have hmove : (s.caching c).moveRow n op [(false, a, k)] = (s.caching c).putBytes a (row.take k) := by
    have hrow' : ((s.caching c).lsRow n op).flatMap (fun c => leBytes c (fmtBits op.map.fmt / 8)) = row := hrow
    have hencode (old : List Byte) : dmaEncode op ((s.caching c).lsRow n op) old [] = row := by
      simp [dmaEncode, hlayout, hskim, hbits, hrow']
    have hnote (u : Dev) (l : List Nat) : u.noteSkim n op l = u := if_pos hskim
    have hbytes : (s.caching c).bytesAt (lsOf n + op.lsScale) 0 = [] := rfl
    simp [Dev.moveRow, hdir, hmx, anyHost, hencode, hnote, hbytes, Dev.putSpans]
  have htake : (row.take k).length = k := by rw [List.length_take, hlen]; omega
  have hok := Dev.spanOk_of_reachable hreach
  have hread := (s.caching c).bytesAt_putBytes a (row.take k) fun i hi => spanOk_dpaOk hok (by rwa [htake] at hi)
  rw [htake] at hread
  refine (completes_moved hwf (hc.trans hmove) ((s.caching_within c).putBytes _ _ fun _ _ => rfl)).imp fun t ⟨hmem, hkept, hrest⟩ =>
    ⟨(Dev.bytesAt_of_mem hmem _ _).trans hread, fun i hi => ?_, hkept, hrest⟩
  rw [Dev.byteAt_of_mem hmem, Dev.byteAt_putBytes_out _ _ _ (by rw [htake]; exact hi)]
  rfl

end

/-- Settles O31: a row whose addresses translate and can be reached is moved whole, and one outside local store is refused. -/
theorem dmaMovesARow : Obligations.DmaMovesARow := by
  intro s n op host a k b m x hwf hmap
  refine ⟨fun hfit hside hlayout hskim => ⟨?_, ?_, ?_⟩, fun hout hfree => ?_⟩
  · exact fun hdir hfound hreach hx hmx => completes_rowRead hwf hmap hfit hside hdir hfound hreach hx hmx
  · exact fun hdir hfound hreach hreach' hk hmx hapart => completes_scalesRead hwf hmap hfit hside hlayout hskim hdir hfound hreach hreach' hk hmx hapart
  · intro hdir hfound hreach hhost hbits hmx
    subst hhost
    exact completes_rowWritten hwf hmap hfit hside hlayout hskim hdir hfound hreach hbits hmx
  · refine completes_instrError (exec_dmaTransfer n op .clean s) hwf ?_ (by decide) hfree
    unfold Dev.dmaTransfer
    rw [if_neg (by simp [hmap]), if_pos (.inl hout)]

end Sys2Proof.Machine

end

section
/-! Position and time in a herd (R324 to R327): POS and TIME frames, and the loss of a worker's position. -/

namespace Sys2Proof.Machine

open Sys2Proof

theorem exec_posSend (s : State) : exec .posSend s = s.run .posSend fun d => d.posSend := rfl

theorem exec_pos (p : Fin 4) (h : ZHdr) (f : PosFrame) (s : State) : exec (.pos p h f) s = s.run (.pos p h f) fun d => d.pos p h f := rfl

theorem exec_poslost (s : State) : exec .poslost s = s.run .poslost fun d => d.poslost := rfl

theorem exec_timeSend (s : State) : exec .timeSend s = s.run .timeSend fun d => d.timeSend := rfl

theorem exec_time (p : Fin 4) (h : ZHdr) (peer echo : Nat) (error : Int) (s : State) :
    exec (.time p h peer echo error) s = s.run (.time p h peer echo error) fun d => d.timeFrame p h peer error := rfl

/-! ### Frames that go out by every port -/

theorem Dev.emit_zport_ne (s : Dev) {p q : Nat} (seq : Nat) (f : ZFrame) (h : p ≠ q) : (s.emit q seq f).zport p = s.zport p :=
  s.zport_setZport_ne _ _ _ h

/-- What a port sends leaves the other ports alone. -/
theorem Dev.zSend_zport_ne (s : Dev) {p q : Nat} (f : ZFrame) (h : p ≠ q) : (s.zSend q f).zport p = s.zport p := by
  unfold zSend
  dsimp only
  repeat' split
  · exact zport_setZport_ne _ _ _ _ h
  · exact (emit_zport_ne _ _ _ h).trans (zport_setZport_ne _ _ _ _ h)
  · exact emit_zport_ne _ _ _ h
  · rfl

theorem Dev.mem_out_emit {s : Dev} {o : Out} (p seq : Nat) (f : ZFrame) (h : o ∈ s.out) : o ∈ (s.emit p seq f).out := List.mem_cons_of_mem _ h

/-- What has gone out stays so, whatever a port sends. -/
theorem Dev.mem_out_zSend {s : Dev} {o : Out} (p : Nat) (f : ZFrame) (h : o ∈ s.out) : o ∈ (s.zSend p f).out := by
  unfold zSend
  dsimp only
  repeat' split
  · exact h
  · exact mem_out_emit _ _ _ h
  · exact mem_out_emit _ _ _ h
  · exact h

/-- A frame without a number goes out at once by an up port whose direction is awake. -/
theorem Dev.zSend_unsequenced {s : Dev} {p : Nat} {f : ZFrame} (hup : s.flag .ZXL_STAT_UP p = true) (hawake : s.flag .ZXL_STAT_TXSLEEP p = false)
    (hseq : f.load.sequenced = false) : s.zSend p f = s.emit p 0 f := by
  have hgo : s.mustWait p f = false := by simp [mustWait, hawake, hseq]
  unfold zSend
  dsimp only
  rw [hgo, hseq, hup]
  rfl

/-- A step that sends at most one frame by each port. -/
structure Dev.SendsByPort (g : Dev → Nat → Dev) : Prop where
  within : ∀ d q, Within [] butPorts d (g d q)
  others : ∀ d p q, p ≠ q → (g d q).zport p = d.zport p
  keeps : ∀ d q o, o ∈ d.out → o ∈ (g d q).out

/-- A step that sends by a port or does nothing. -/
theorem Dev.sendsByPort {c : Dev → Nat → Bool} {f : Dev → Nat → ZFrame} {g : Dev → Nat → Dev}
    (h : ∀ d q, g d q = if c d q then d.zSend q (f d q) else d) : SendsByPort g where
  within d q := by
    rw [h]
    split
    · exact (Within.refl _ _ d).zSend _ _ zports_butPorts
    · exact .refl _ _ d
  others d p q hne := by
    rw [h]
    split
    · exact d.zSend_zport_ne _ hne
    · rfl
  keeps d q o ho := by
    rw [h]
    split
    · exact mem_out_zSend _ _ ho
    · exact ho

/-- What goes out by a port when its turn comes has gone out in the end. -/
theorem Dev.SendsByPort.sent {g : Dev → Nat → Dev} (hg : SendsByPort g) {s d : Dev} {p : Nat} {o : Out} {l : List Nat} (hp : p ∈ l)
    (hnow : ∀ d, Within [] butPorts s d → d.zport p = s.zport p → o ∈ (g d p).out) (hd : Within [] butPorts s d) (hz : d.zport p = s.zport p) :
    o ∈ (l.foldl g d).out := by
  have hkeeps (l : List Nat) (d : Dev) (ho : o ∈ d.out) : o ∈ (l.foldl g d).out := by
    induction l generalizing d with
    | nil => exact ho
    | cons q l ih => exact ih _ (hg.keeps d q o ho)
  induction l generalizing d with
  | nil => cases hp
  | cons q l ih =>
    by_cases hq : p = q
    · subst hq
      exact hkeeps l _ (hnow d hd hz)
    · exact ih ((List.mem_cons.1 hp).resolve_left hq) (hd.trans (hg.within d q)) ((hg.others d p q hq).trans hz)

theorem Dev.SendsByPort.foldl {g : Dev → Nat → Dev} (hg : SendsByPort g) (l : List Nat) (s : Dev) : Within [] butPorts s (l.foldl g s) :=
  .foldl _ (.refl _ _ s) fun d q _ => hg.within d q

/-- The frame that a port is due goes out as the port stood at the start. -/
theorem Dev.emitted_of_within {s d : Dev} {p : Nat} {f : ZFrame} (hp : p < 1024) (hd : Within [] butPorts s d) (hz : d.zport p = s.zport p)
    (hup : s.flag .ZXL_STAT_UP p = true) (hawake : s.flag .ZXL_STAT_TXSLEEP p = false) (hseq : f.load.sequenced = false) :
    s.frameOut p 0 f ∈ (d.zSend p f).out := by
  have hflag (g : Field) : d.flag g p = s.flag g p := hd.flag hp (by simp)
  rw [zSend_unsequenced ((hflag _).trans hup) ((hflag _).trans hawake) hseq,
    ← frameOut_congr 0 f (congrArg ZPort.rxSeq hz) (congrArg ZPort.nak hz) (hflag _)]
  exact d.emit_out p 0 f

theorem Dev.memberNo_within {s d : Dev} (h : Within [] butPorts s d) : d.memberNo = s.memberNo := by
  simp only [memberNo, worker, h.rd (f := .HRD_CTL_ROLE) (i := 0) (by decide) (by simp), h.rd (f := .HRD_CTL_MEMBER) (i := 0) (by decide) (by simp)]
  rfl

theorem Dev.sendsByPort_broadcast (f : ZFrame) :
    SendsByPort fun d q => if d.flag .ZXL_CTL_EN q && (none : Option Nat) != some q then d.zSend q f else d :=
  sendsByPort (c := fun d q => d.flag .ZXL_CTL_EN q && (none : Option Nat) != some q) fun _ _ => rfl

/-- A frame for all goes out by every port that is enabled, up and awake. -/
theorem Dev.zBroadcast_sent {s : Dev} {p : Nat} (hp : p < 4) {f : ZFrame} (hen : s.flag .ZXL_CTL_EN p = true) (hup : s.flag .ZXL_STAT_UP p = true)
    (hawake : s.flag .ZXL_STAT_TXSLEEP p = false) (hseq : f.load.sequenced = false) : s.frameOut p 0 f ∈ (s.zBroadcast none f).out := by
  have hmem : p ∈ rangeFrom 0 4 := by simp [rangeFrom]; omega
  refine (sendsByPort_broadcast f).sent hmem (fun d hd hz => ?_) (.refl _ _ s) rfl
  rw [if_pos (by rw [hd.flag (by omega) (by simp), hen]; rfl)]
  exact emitted_of_within (by omega) hd hz hup hawake hseq

theorem Dev.rest_of_butHerdPorts {s : Dev} {t : Dev} {h : Herd} (hw : t.rest.butPorts = ({ s with herd := h } : Dev).rest.butPorts) :
    t.rest = { s.rest with herd := t.herd, zports := t.zports } ∧ t.herd = h :=
  ⟨(congrArg (fun d : Dev => { d with herd := t.herd, zports := t.zports }) hw :), congrArg Dev.herd hw⟩

/-- The manager sends POS by every port that is enabled, up and awake. -/
theorem completes_posSend {s : State} {p : Fin 4} (hsends : s.sendsPos = true) (hen : s.flag .ZXL_CTL_EN p = true)
    (hup : s.flag .ZXL_STAT_UP p = true) (hawake : s.flag .ZXL_STAT_TXSLEEP p = false) :
    Completes .posSend s fun t =>
      t.herd.bseq = wrap 16 (s.herd.bseq + 1) ∧
      s.frameOut p 0 { src := s.memberNo, dst := 0, bc := true, load := .pos (s.posFrame false) } ∈ t.out ∧
      KeepsFields s t [] ∧ t.rest = { s.rest with herd := t.herd, zports := t.zports } := by
  have heff : s.toDev.posSend = ({ s.toDev with herd := { s.herd with bseq := wrap 16 (s.herd.bseq + 1) } } : Dev).zBroadcast none
      { src := s.memberNo, dst := 0, bc := true, load := .pos (s.posFrame false) } := by
    unfold Dev.posSend
    rw [hsends]
    rfl
  have hseq : (ZFrame.load { src := s.memberNo, dst := 0, bc := true, load := .pos (s.posFrame false) }).sequenced = false := rfl
  generalize ({ src := s.memberNo, dst := 0, bc := true, load := .pos (s.posFrame false) } : ZFrame) = f at *
  have hsent := Dev.zBroadcast_sent (s := { s.toDev with herd := { s.herd with bseq := wrap 16 (s.herd.bseq + 1) } }) p.isLt hen hup hawake hseq
  have hall := (Dev.Within.refl [] Dev.butPorts ({ s.toDev with herd := { s.herd with bseq := wrap 16 (s.herd.bseq + 1) } } : Dev)).zBroadcast none f
    zports_butPorts
  generalize ({ s.toDev with herd := { s.herd with bseq := wrap 16 (s.herd.bseq + 1) } } : Dev).zBroadcast none f = t at *
  obtain ⟨hrest, hherd⟩ := Dev.rest_of_butHerdPorts hall.same
  refine .of_effect (exec_posSend s) rfl heff ⟨?_, Dev.mem_out_notify hsent, fun g i hi hg => ?_, ?_⟩
  · rw [Dev.notify_herd, hherd]
  · exact (Dev.notify_rd ..).trans (hall.rd hi hg)
  · rw [Dev.notify_rest, Dev.notify_herd, Dev.notify_zports]; exact hrest

/-- The TIME frame that a port is due. -/
def Dev.ownTime (s : Dev) (p : Nat) : ZFrame := { src := s.memberNo, dst := 0, bc := false, load := .time s.ns40 (s.zport p).echo }

theorem Dev.ownTime_within {s d : Dev} {p : Nat} (hd : Within [] butPorts s d) (hz : d.zport p = s.zport p) : d.ownTime p = s.ownTime p := by
  have htime : d.timeU = s.timeU := (congrArg Dev.timeU hd.same :)
  simp only [ownTime, memberNo_within hd, hz, ns40, fullNs, htime]

theorem Dev.portOn_within {s d : Dev} {p : Nat} (hp : p < 1024) (hd : Within [] butPorts s d) : d.portOn p = s.portOn p := by
  have hpower : d.power = s.power := (congrArg Dev.power hd.same :)
  simp only [portOn, live, hpower, hd.flag hp (f := .ZXL_CTL_EN) (by simp)]

theorem Dev.sendsByPort_time :
    SendsByPort fun d q => if d.portOn q && d.flag .ZXL_STAT_UP q then d.zSend q (d.ownTime q) else d :=
  sendsByPort (c := fun d q => d.portOn q && d.flag .ZXL_STAT_UP q) (f := ownTime) fun _ _ => rfl

theorem completes_timeSend {s : State} {p : Fin 4} (hon : s.portOn p = true) (hup : s.flag .ZXL_STAT_UP p = true)
    (hawake : s.flag .ZXL_STAT_TXSLEEP p = false) :
    Completes .timeSend s fun t =>
      s.frameOut p 0 (s.ownTime p) ∈ t.out ∧ KeepsFields s t [] ∧ t.rest = { s.rest with zports := t.zports } := by
  have hp : (p : Nat) < 1024 := by omega
  have hmem : (p : Nat) ∈ rangeFrom 0 4 := by simp [rangeFrom]; omega
  have hsent : s.frameOut p 0 (s.ownTime p) ∈ s.toDev.timeSend.out := by
    refine Dev.sendsByPort_time.sent hmem (fun d hd hz => ?_) (.refl _ _ s.toDev) rfl
    rw [if_pos (by rw [Dev.portOn_within hp hd, hon, hd.flag hp (by simp), hup]; rfl), Dev.ownTime_within hd hz]
    exact Dev.emitted_of_within hp hd hz hup hawake rfl
  have hall : Dev.Within [] Dev.butPorts s.toDev s.toDev.timeSend := Dev.sendsByPort_time.foldl _ _
  generalize heff : s.toDev.timeSend = t at *
  refine .of_effect (exec_timeSend s) rfl heff ⟨Dev.mem_out_notify hsent, hall.kept, ?_⟩
  rw [Dev.notify_rest, Dev.notify_zports]; exact Dev.rest_of_butPorts hall.same

/-! ### TIME frames (R325) -/

/-- A port that has taken a TIME frame. -/
def Dev.noteTime (s : Dev) (p peer : Nat) : Dev := s.setZport p { s.zport p with echo := peer, times := (s.zport p).times + 1 }

theorem Dev.noteTime_within (s : Dev) (p peer : Nat) : Within [] butPorts s (s.noteTime p peer) := (Within.refl _ _ s).setZport _ _ zports_butPorts

theorem Dev.noteTime_zport (s : Dev) (p peer : Nat) : (s.noteTime p peer).zport p = { s.zport p with echo := peer, times := (s.zport p).times + 1 } :=
  zport_setZport_same ..

/-- What a frame of an up port does: a worker follows its upstream neighbour. -/
def Dev.followTime (s : Dev) (p times : Nat) (error : Int) : Dev :=
  if s.worker && p == s.upstream then
    if 16 ≤ times + 1 then ((s.steer error).showError error).setFlag .HRD_STAT_TSYNC 0 true else (s.steer error).showError error
  else s

theorem Dev.timeFrame_up {s : Dev} {p : Nat} {h : ZHdr} (peer : Nat) (error : Int) (hon : s.portOn p = true)
    (hup : (s.header p h).flag .ZXL_STAT_UP p = true) :
    s.timeFrame p h peer error = ((s.header p h).noteTime p peer).followTime p ((s.header p h).zport p).times error := by
  unfold timeFrame
  rw [hon]
  dsimp only
  rw [hup]
  rfl

theorem Dev.acceptStep_zports (s : Dev) (n : Int) : (s.acceptStep n).zports = s.zports := by
  have hskip := s.acceptStep_within n (m := Dev.zports) fun _ _ => rfl
  have hstep : (s.stepped n).zports = s.zports := by simp [stepped, moveUnits, countMod]
  generalize s.acceptStep n = t at *
  generalize s.stepped n = u at *
  exact (hskip.same :).trans hstep

theorem Dev.showError_zports (s : Dev) (error : Int) : (s.showError error).zports = s.zports := by
  unfold showError
  split <;> simp [useFree]

theorem Dev.steer_zports (s : Dev) (error : Int) : (s.steer error).zports = s.zports := by
  unfold steer
  dsimp only
  split
  · exact acceptStep_zports _ _
  · rfl

theorem Dev.followTime_zports (s : Dev) (p times : Nat) (error : Int) : (s.followTime p times error).zports = s.zports := by
  unfold followTime
  repeat' split
  · rw [setFlag_eq, wr_zports, showError_zports, steer_zports]
  · rw [showError_zports, steer_zports]
  · rfl

/-- A port that takes TIME keeps it for the echo; a worker is in time after 16 frames from upstream. -/
theorem completes_time {s : State} {p : Fin 4} {h : ZHdr} {peer echo : Nat} {error : Int} (hwf : h.wf = true) (hpeer : peer < 2 ^ 40)
    (hecho : echo < 2 ^ 40) (hon : s.portOn p = true) (hup : (s.header p h).flag .ZXL_STAT_UP p = true) :
    Completes (.time p h peer echo error) s fun t =>
      (t.zport p).echo = peer ∧ (t.zport p).times = ((s.header p h).zport p).times + 1 ∧
      ((s.header p h).worker = true → (p : Nat) = (s.header p h).upstream → 15 ≤ ((s.header p h).zport p).times →
        t.flag .HRD_STAT_TSYNC = true) ∧
      ((s.header p h).worker = false →
        KeepsFields { s with toDev := s.header p h } t [] ∧ t.rest = { (s.header p h).rest with zports := t.zports }) := by
  have heff := Dev.timeFrame_up peer error hon hup
  generalize s.header p h = u at *
  have hnote := u.noteTime_within p peer
  have hport := u.noteTime_zport p peer
  have hrole : (u.noteTime p peer).worker = u.worker := rfl
  have hupstream : (u.noteTime p peer).upstream = u.upstream := rfl
  generalize u.noteTime p peer = v at *
  have hzport : ((v.followTime p (u.zport p).times error)).zport p = v.zport p := by rw [Dev.zport, Dev.followTime_zports]; rfl
  have hsync (hw : u.worker = true) (hp : (p : Nat) = u.upstream) (ht : 15 ≤ (u.zport p).times) :
      (v.followTime p (u.zport p).times error).flag .HRD_STAT_TSYNC = true := by
    rw [Dev.followTime, hrole, hw, hupstream, ← hp, if_pos (by simp), if_pos (by omega)]
    exact Dev.flag_wr_toNat _ .HRD_STAT_TSYNC 0 true (by decide)
  have hstay (hw : u.worker = false) : v.followTime p (u.zport p).times error = v := by simp [Dev.followTime, hrole, hw]
  generalize v.followTime p (u.zport p).times error = t at *
  refine .of_effect (exec_time ..) ?_ heff ⟨?_, ?_, fun hw hp ht => ?_, fun hw => ?_⟩
  · simpa [Instr.wf, hwf, fitsU] using And.intro hpeer hecho
  · rw [Dev.notify_zport, hzport, hport]
  · rw [Dev.notify_zport, hzport, hport]
  · rw [Dev.notify_flag]; exact hsync hw hp ht
  · rw [hstay hw]
    exact ⟨fun f i hi hf => (Dev.notify_rd ..).trans (hnote.rd hi hf), by rw [Dev.notify_rest, Dev.notify_zports]; exact Dev.rest_of_butPorts hnote.same⟩

/-! ### Hits that were passed -/

theorem Dev.passedHits_succ (s : Dev) (g at_ n : Nat) : s.passedHits g at_ (n + 1) =
    if s.flag .ENC_CG_STAT_RUN g && !s.flag .ENC_CG_STAT_FSTOP g then
      match s.crossingDue g with
      | some (stamp, next) => ((((s.crossing g next).issueHit g stamp at_).setGen g
          { ((s.crossing g next).issueHit g stamp at_).gen g with free := at_ + 2 })).passedHits g (at_ + 2) n
      | none => s
    else s := rfl

/-! ### What follows a worker's line -/

/-- The parts and what the herd knows. -/
def Dev.course (s : Dev) : List Part × Herd := (s.parts, s.herd)

theorem Dev.quiet_course : Quiet course := fun d e h => show d.body.course = e.body.course by rw [h]

/-- The module's role and the line of its herd are kept, and on a worker the parts. -/
structure Dev.Led (s t : Dev) : Prop where
  role : t.worker = s.worker
  pos : t.herd.pos = s.herd.pos
  seen : t.herd.seen = s.herd.seen
  dozing : t.herd.dozing = s.herd.dozing
  parts : s.worker = true → t.parts = s.parts

namespace Dev.Led

variable {s t u : Dev} {l : List (Field × Nat)} {c : Nat}

theorem refl (s : Dev) : Led s s := ⟨rfl, rfl, rfl, rfl, fun _ => rfl⟩

theorem trans (h : Led s t) (h' : Led t u) : Led s u :=
  ⟨h'.role.trans h.role, h'.pos.trans h.pos, h'.seen.trans h.seen, h'.dozing.trans h.dozing,
    fun hw => (h'.parts (h.role.trans hw)).trans (h.parts hw)⟩

theorem of_within (h : Within l course s t) (hl : (.HRD_CTL_ROLE, 0) ∉ l) : Led s t := by
  have hrole : t.worker = s.worker := by rw [worker, worker, h.rd (by decide) hl]
  obtain ⟨hparts, hherd⟩ := Prod.mk.inj (h.same : (t.parts, t.herd) = (s.parts, s.herd))
  exact ⟨hrole, congrArg Herd.pos hherd, congrArg Herd.seen hherd, congrArg Herd.dozing hherd, fun _ => hparts⟩

theorem foldl {β : Type} {f : Dev → β → Dev} (xs : List β) (s : Dev) (hf : ∀ d, ∀ x ∈ xs, Led d (f d x)) : Led s (xs.foldl f s) := by
  induction xs generalizing s with
  | nil => exact refl s
  | cons x xs ih => exact (hf s x List.mem_cons_self).trans (ih _ fun d y hy => hf d y (List.mem_cons_of_mem _ hy))

/-- A mark that a worker opens goes to the manager, and reaches no part here. -/
theorem openMark (s : Dev) (k : Mark) : Led s (s.openMark k) := by
  unfold Dev.openMark
  dsimp only
  split
  · have hnoted (marks : List Mark) (id : Nat) : Led s { s with marks := marks, herd := { s.herd with markId := id } } :=
      ⟨rfl, rfl, rfl, rfl, fun _ => rfl⟩
    exact (hnoted _ _).trans (of_within ((Within.refl [] course _).toManager _ fun _ _ => rfl) (by simp))
  · rename_i hw
    exact ⟨rfl, rfl, rfl, rfl, fun h => absurd h hw⟩

theorem role_breakFields (c : Nat) : (Field.HRD_CTL_ROLE, 0) ∉ breakFields c := by simp [breakFields, logFields]

theorem apart (h : Within (breakFields c) course s t) : Led s t := of_within h (role_breakFields c)

theorem setCtx (s : Dev) (c : Nat) (x : StreamCtx) : Led s (s.setCtx c x) := apart ((Within.refl (breakFields c) course s).setCtx c x fun _ _ => rfl)

theorem captureBlock (s : Dev) (c : Nat) (b : Block) (record : List Byte) : Led s (s.captureBlock c b record) :=
  apart ((Within.refl (breakFields c) course s).captureBlock c b record (by simp [breakFields]) (by simp [breakFields]) (by simp [breakFields])
    fun _ _ _ _ => rfl)

theorem completeBlock (s : Dev) (c : Nat) (b : Block) : Led s (s.completeBlock c b) := by
  have hrecord : Led s (({ (s.writeStats c b).putBytes (recordAt b.pp b.seq) ((s.writeStats c b).blockRecord c b) with
      free := (s.writeStats c b).free + 2 } : Dev).scAdd (setting b.pp .ITK_PP_SYNC_SC) 1) :=
    apart (((((Within.refl (breakFields c) course s).writeStats c b fun _ _ _ => rfl).putBytes _ _ fun _ _ => rfl).free _ fun _ _ => rfl).scAdd
      _ _ fun _ _ => rfl)
  unfold Dev.completeBlock
  dsimp only
  refine Led.trans ?_ (captureBlock _ c b _)
  split
  · exact hrecord.trans (openMark _ _)
  · exact hrecord

theorem finishHead (s : Dev) (c : Nat) : Led s (s.finishHead c) := by
  unfold Dev.finishHead
  split
  · split
    · exact (setCtx _ _ _).trans (completeBlock _ _ _)
    · exact refl s
  · exact refl s

theorem finishBlocks (s : Dev) (c : Nat) : Led s (s.finishBlocks c) := by
  unfold Dev.finishBlocks
  generalize (s.ctx c).closing.length = n
  induction n generalizing s with
  | zero => exact refl s
  | succ n ih => exact (finishHead s c).trans (ih _)

theorem fusNotify (s : Dev) (c start : Nat) (fin : Option Nat) (gap : Bool) : Led s (s.fusNotify c start fin gap) :=
  apart (c := c) ((Within.refl (breakFields c) course s).fusNotify c start fin gap (fun f hf => by simp [breakFields, mem_upTo, hf]) fun _ _ _ => rfl)

theorem closeBlock (s : Dev) (hc : c < 1024) (fin : Nat) (broken : Bool) : Led s (s.closeBlock c fin broken) := by
  have hlog : ∀ e ∈ logFields, e ∈ breakFields c := fun e he => by simp [breakFields, he]
  have hnoted (s : Dev) : Led s (if broken = true then s.setFlag .ITK_CTX_STAT_BROKEN c true else s) := by
    split
    · exact apart (c := c) ((Within.refl _ _ s).setFlag true hc (by simp [breakFields]))
    · exact refl s
  have hclosed (s : Dev) (n d : Nat) : Led s ((s.wr .ITK_PP_BLKSEQ c n).traceNote 18 1 d) :=
    apart (((Within.refl _ course s).wr n hc (by simp [breakFields])).traceNote _ _ _ (hlog _ (by simp [logFields])) quiet_course)
  have hshown (x : StreamCtx) (n d : Nat) : Led s (if broken = true then (((s.setCtx c x).wr .ITK_PP_BLKSEQ c n).traceNote 18 1 d).setFlag
      .ITK_CTX_STAT_BROKEN c true else ((s.setCtx c x).wr .ITK_PP_BLKSEQ c n).traceNote 18 1 d) :=
    (setCtx s c x).trans ((hclosed _ n d).trans (hnoted _))
  have hlogged (s : Dev) (code unit partid v0 v1 : Nat) : Led s (s.tally code unit partid v0 v1) :=
    apart ((Within.refl _ _ s).tally _ _ _ _ _ hlog quiet_course)
  unfold Dev.closeBlock
  dsimp only
  split
  · exact refl s
  · refine Led.trans (Led.trans ?_ (fusNotify _ _ _ _ _)) (finishBlocks _ _)
    split
    · exact hshown _ _ _
    · exact (hshown _ _ _).trans ((openMark _ _).trans (hlogged _ _ _ _ _ _))

theorem openBlock (s : Dev) (c start : Nat) : Led s (s.openBlock c start) := by
  have hopen (s : Dev) (x : StreamCtx) (n sc : Nat) : Led s ((({ s.setCtx c x with free := n }).fusRefresh c).wakeFor sc) :=
    apart (((((Within.refl (breakFields c) course s).setCtx c x fun _ _ => rfl).free n fun _ _ => rfl).fusRefresh c
      (fun f hf => by simp [breakFields, mem_upTo, hf]) fun _ _ => rfl).wakeFor sc fun n hn => by simp [breakFields, mem_upTo, hn])
  unfold Dev.openBlock
  exact hopen s _ _ _

theorem openGap (s : Dev) (hc : c < 1024) (start : Nat) : Led s (s.openGap c start) := by
  have hmem : ∀ e ∈ [(Field.ITK_CTX_GAP_START, c), (.ITK_CTX_GAP_END, c), (.ITK_CTX_STAT_GAPOPEN, c)], e ∈ breakFields c := by simp [breakFields]
  unfold Dev.openGap
  dsimp only
  refine (apart (c := c) ?_).trans ((openMark _ _).trans (fusNotify _ c _ _ _))
  exact (((Within.refl (breakFields c) course s).wr _ hc (hmem _ (by simp))).wr _ hc (hmem _ (by simp))).setFlag _ hc (hmem _ (by simp))

theorem closeBroken (s : Dev) (hc : c < 1024) (start : Nat) : Led s (s.closeBroken c start) := by
  unfold Dev.closeBroken
  repeat' split
  · exact (openBlock _ _ _).trans (closeBlock _ hc _ _)
  · exact closeBlock _ hc _ _
  · exact closeBlock _ hc _ _

/-- A context that breaks on a worker reaches no part here. -/
theorem breakBlock (s : Dev) (hc : c < 1024) (start : Nat) : Led s (s.breakBlock c start) := by
  unfold Dev.breakBlock
  dsimp only
  exact (closeBroken s hc start).trans (Led.trans (apart (c := c) (((Within.refl (breakFields c) course _).setCtx c _ fun _ _ => rfl).wr 2 hc
    (by simp [breakFields]))) (openGap _ hc start))

theorem resync (s : Dev) (hc : c < 1024) : Led s (s.resync c) := by
  unfold Dev.resync
  repeat' split
  · exact breakBlock _ hc _
  · exact setCtx _ _ _
  · exact refl s

theorem pushStamp (s : Dev) (hc : c < 1024) (pos time : Nat) : Led s (s.pushStamp c pos time) := by
  have hpruned (x : StreamCtx) : Led s ((s.pruneStamps c).setCtx c x) :=
    apart ((((Within.refl (breakFields c) course s).pruneStamps c fun _ _ => rfl)).setCtx c x fun _ _ => rfl)
  unfold Dev.pushStamp
  dsimp only
  split
  · exact hpruned _
  · split
    · exact breakBlock _ hc _
    · exact setCtx _ _ _

/-- A hit that is issued on a worker reaches no part here. -/
theorem issueHit (s : Dev) {g : Nat} (hg : g < 1024) (stamp at_ : Nat) : Led s (s.issueHit g stamp at_) := by
  have hwoken : Led s (((s.countMod .ENC_CG_ISSUED g).startTriggers g at_).wakeLinks g) :=
    of_within (l := [(.ENC_CG_ISSUED, g)]) ((((Within.refl _ course s).countMod hg (by simp)).startTriggers g at_ fun _ _ => rfl).wakeLinks g fun _ _ => rfl)
      (by simp)
  refine hwoken.trans (Led.trans (foldl _ _ fun d c hc => ?_) (of_within ((Within.refl [] course _).askUplinks g stamp at_ fun _ _ => rfl) (by simp)))
  exact pushStamp d (by have := mem_upTo.1 (List.mem_filter.1 hc).1; omega) stamp _

theorem passedHits (s : Dev) {g : Nat} (hg : g < 1024) (at_ n : Nat) : Led s (s.passedHits g at_ n) := by
  induction n generalizing s at_ with
  | zero => exact refl s
  | succ n ih =>
    have hissued (next stamp : Nat) : Led s ((s.crossing g next).issueHit g stamp at_) :=
      (of_within (s.crossing_within (m := course) hg next fun _ _ => rfl) (by simp [crossingFields])).trans (issueHit _ hg _ _)
    have hset (d : Dev) (e : Generator) : Led d (d.setGen g e) := of_within ((Within.refl [] course d).setGen g e fun _ _ => rfl) (by simp)
    rw [passedHits_succ]
    split
    · split
      · exact (hissued _ _).trans ((hset _ _).trans (ih _ _))
      · exact refl s
    · exact refl s

theorem issuePassed (s : Dev) : Led s s.issuePassed := foldl _ _ fun d g hg => passedHits d (by have := mem_upTo.1 hg; omega) _ _

end Dev.Led

/-! ### The loss of a worker's position (R234, R327) -/

/-- The fields that a stop of generators may change. -/
def stopFields : List (Field × Nat) := ((upTo 8).flatMap fun g => [(.ENC_CG_STAT_FSTOP, g), (.ENC_CG_STAT_RUN, g)]) ++ hitFields

theorem breakFields_sub {c : Nat} (hc : c < 64) : ∀ e ∈ breakFields c, e ∈ hitFields := fun _ he => List.mem_flatMap.2 ⟨c, mem_upTo.2 hc, he⟩

theorem Dev.resync_within (s : Dev) {c : Nat} (hc : c < 64) : Within hitFields (fun _ => ()) s (s.resync c) := by
  unfold resync
  repeat' split
  · exact (Within.refl _ _ s).breakBlock (by omega) _ (breakFields_sub hc) (fun _ _ _ _ _ _ _ _ _ _ _ _ => rfl) fun _ _ _ => rfl
  · exact (Within.refl _ _ s).setCtx _ _ fun _ _ => rfl
  · exact .refl _ _ s

theorem Dev.stopGenerators_within (s : Dev) (src : Option Nat) : Within stopFields (fun _ => ()) s (s.stopGenerators src) := by
  refine .foldl _ (.refl _ _ s) fun d g hg => ?_
  have hg : g < 8 := mem_upTo.1 hg
  split
  · refine .foldl _ (((Within.refl _ _ d).setFlag true (by omega) ?_).setFlag false (by omega) ?_) fun d c hc => ?_
    · simp [stopFields, mem_upTo, hg]
    · simp [stopFields, mem_upTo, hg]
    · exact (d.resync_within (mem_upTo.1 (List.mem_filter.1 hc).1)).mono fun e he => List.mem_append_right _ he
  · exact .refl _ _ d

theorem Dev.Led.stopGenerators (s : Dev) (src : Option Nat) : Led s (s.stopGenerators src) := by
  refine foldl _ _ fun d g hg => ?_
  have hg : g < 8 := mem_upTo.1 hg
  split
  · refine (of_within (((Within.refl stopFields course d).setFlag (f := .ENC_CG_STAT_FSTOP) (i := g) true (by omega) ?_).setFlag
      (f := .ENC_CG_STAT_RUN) (i := g) false (by omega) ?_) ?_).trans (foldl _ _ fun d c hc => ?_)
    · simp [stopFields, mem_upTo, hg]
    · simp [stopFields, mem_upTo, hg]
    · simp [stopFields, hitFields, breakFields, logFields]
    · exact resync d (by have := mem_upTo.1 (List.mem_filter.1 hc).1; omega)
  · exact refl d

/-- The loss of position, noted. -/
def Dev.losePosition (s : Dev) : Dev :=
  let s := (s.setFlag .HRD_STAT_POSLOST 0 true).count .HRD_POSLOST_CNT
  { s with herd := { s.herd with goodPos := 0, seen := none } }

theorem Dev.losePosition_reads (s : Dev) : s.losePosition.flag .HRD_STAT_POSLOST = true ∧ s.losePosition.rd .HRD_POSLOST_CNT = satSucc 32 (s.rd .HRD_POSLOST_CNT) ∧
    s.losePosition.worker = s.worker ∧ s.losePosition.parts = s.parts := by
  have hmarked : ((s.setFlag .HRD_STAT_POSLOST 0 true).count .HRD_POSLOST_CNT).flag .HRD_STAT_POSLOST = true := by
    rw [count, flag, rd_wr_field _ _ _ _ _ _ (by decide) (by decide) (by decide)]
    exact s.flag_wr_toNat .HRD_STAT_POSLOST 0 true (by decide)
  have hcounted : ((s.setFlag .HRD_STAT_POSLOST 0 true).count .HRD_POSLOST_CNT).rd .HRD_POSLOST_CNT = satSucc 32 (s.rd .HRD_POSLOST_CNT) := by
    rw [rd_count, setFlag_eq, rd_wr_field _ _ _ _ _ _ (by decide) (by decide) (by decide)]
    rfl
  have hrole : ((s.setFlag .HRD_STAT_POSLOST 0 true).count .HRD_POSLOST_CNT).worker = s.worker := by
    rw [worker, count, setFlag_eq, rd_wr_field _ _ _ _ _ _ (by decide) (by decide) (by decide), rd_wr_field _ _ _ _ _ _ (by decide) (by decide) (by decide)]
    rfl
  exact ⟨hmarked, hcounted, hrole, by simp [losePosition]⟩

theorem Dev.poslost_follows {s : Dev} (hlive : s.live = true) (hworker : s.worker = true) (hdozing : s.herd.dozing = false)
    (hlost : s.flag .HRD_STAT_POSLOST = false) :
    ∃ a, s.poslost = (s.losePosition.stopGenerators none).openMark { source := .position, start := a, fin := none, lanes := allLanes, code := 0xE0 } := by
  unfold poslost
  rw [if_neg (by simp [hlive, hworker, hdozing]), if_neg (by simp [hlost])]
  exact ⟨_, rfl⟩

/-- A worker that hears no POS shows and counts the loss, and opens a mark for the manager. -/
theorem completes_poslost {s : State} (hlive : s.live = true) (hworker : s.worker = true) (hdozing : s.herd.dozing = false)
    (hlost : s.flag .HRD_STAT_POSLOST = false) :
    Completes .poslost s fun t =>
      t.flag .HRD_STAT_POSLOST = true ∧ t.rd .HRD_POSLOST_CNT = satSucc 32 (s.rd .HRD_POSLOST_CNT) ∧
      (t.marks.any fun m => m.source == .position && m.fin.isNone) = true ∧ t.parts = s.parts := by
  obtain ⟨a, heff⟩ := Dev.poslost_follows hlive hworker hdozing hlost
  obtain ⟨hflag, hcount, hrole, hparts⟩ := s.toDev.losePosition_reads
  have hstop := s.toDev.losePosition.stopGenerators_within none
  have hled := Dev.Led.stopGenerators s.toDev.losePosition none
  generalize s.toDev.losePosition = u at *
  generalize u.stopGenerators none = v at *
  generalize hk : ({ source := .position, start := a, fin := none, lanes := allLanes, code := 0xE0 } : Mark) = k at heff
  have hmark := (Dev.Within.refl [] (fun _ => ()) v).openMark k fun _ _ _ _ _ => rfl
  have hled' := Dev.Led.openMark v k
  have hmarks := v.openMark_marks k
  generalize v.openMark k = t at *
  have hall := hstop.trans (hmark.mono (by simp))
  refine .of_effect (exec_poslost s) rfl heff ⟨?_, ?_, ?_, ?_⟩
  · rw [Dev.notify_flag, hall.flag (by decide) (by simp [stopFields, hitFields, breakFields, logFields])]; exact hflag
  · rw [Dev.notify_rd, hall.rd (by decide) (by simp [stopFields, hitFields, breakFields, logFields])]; exact hcount
  · rw [Dev.notify_marks, hmarks, ← hk]; rfl
  · rw [Dev.notify_parts, (hled.trans hled').parts (hrole.trans hworker)]; exact hparts

/-! ### POS frames that a worker follows (R324, R326) -/

/-- A POS frame for this module that is new to a worker is followed. -/
theorem Dev.pos_followed {s : Dev} {p : Nat} {h : ZHdr} {f : PosFrame} (hon : s.portOn p = true) (hnew : s.seenPos f.bseq = false)
    (hworker : (s.header p h).worker = true) (hup : (s.header p h).flag .ZXL_STAT_UP p = true) (hsrc : h.src ≠ (s.header p h).memberNo)
    (hbc : h.bc = false) (hdst : h.dst = (s.header p h).memberNo) :
    s.pos p h f = ({ s.header p h with herd := { (s.header p h).herd with seen := some f.bseq } } : Dev).followPos f := by
  unfold pos
  rw [hnew, Bool.and_false]
  unfold arrive
  rw [hon]
  generalize s.header p h = u at *
  simp [hup, ZPayload.sequenced, hsrc, hbc, hdst, hworker]

/-- What the line's fields and the herd say once a POS frame has been taken. -/
structure Dev.Shows (f : PosFrame) (s : Dev) : Prop where
  speed : s.rd .ENC_SPEED = f.speed
  accel : s.rd .ENC_ACCEL = f.accel
  reverse : s.flag .ENC_MSTAT_DIR = bit f.flags 0
  stopped : s.flag .ENC_MSTAT_STOP = bit f.flags 1
  valid : s.flag .ENC_MSTAT_SPDV = bit f.flags 2

/-- Fields apart from the line's own. -/
def ApartFromLine (l : List (Field × Nat)) : Prop :=
  ∀ f ∈ [Field.ENC_SPEED, .ENC_ACCEL, .ENC_MSTAT_DIR, .ENC_MSTAT_STOP, .ENC_MSTAT_SPDV], (f, 0) ∉ l

theorem Dev.Shows.later {f : PosFrame} {s t : Dev} {l : List (Field × Nat)} {α : Type} {m : Dev → α} (h : Shows f s) (hw : Within l m s t)
    (hl : ApartFromLine l) : Shows f t where
  speed := (hw.rd (by decide) (hl _ (by simp))).trans h.speed
  accel := (hw.rd (by decide) (hl _ (by simp))).trans h.accel
  reverse := (hw.flag (by decide) (hl _ (by simp))).trans h.reverse
  stopped := (hw.flag (by decide) (hl _ (by simp))).trans h.stopped
  valid := (hw.flag (by decide) (hl _ (by simp))).trans h.valid

/-- The line's fields as a POS frame gives them. -/
def Dev.lineWritten (s : Dev) (f : PosFrame) : Dev :=
  ((((s.setFlag .ENC_MSTAT_DIR 0 (bit f.flags 0)).setFlag .ENC_MSTAT_STOP 0 (bit f.flags 1)).setFlag .ENC_MSTAT_SPDV 0 (bit f.flags 2)).wr
    .ENC_SPEED 0 f.speed).wr .ENC_ACCEL 0 f.accel

theorem Dev.lineWritten_within (s : Dev) (f : PosFrame) {α : Type} (m : Dev → α) :
    Within [(.ENC_MSTAT_DIR, 0), (.ENC_MSTAT_STOP, 0), (.ENC_MSTAT_SPDV, 0), (.ENC_SPEED, 0), (.ENC_ACCEL, 0)] m s (s.lineWritten f) :=
  (((((Within.refl _ m s).setFlag _ (by decide) (by simp)).setFlag _ (by decide) (by simp)).setFlag _ (by decide) (by simp)).wr _ (by decide)
    (by simp)).wr _ (by decide) (by simp)

theorem Dev.lineWritten_shows (s : Dev) {f : PosFrame} (hf : f.wf = true) : Shows f (s.lineWritten f) := by
  obtain ⟨hspeed, haccel⟩ : f.speed < 2 ^ 64 ∧ f.accel < 2 ^ 64 := by
    simp only [PosFrame.wf, fitsU, Bool.and_eq_true, decide_eq_true_eq] at hf
    exact ⟨hf.1.1.1.1.2, hf.2⟩
  have hskip (d : Dev) (a b : Field) (v : Nat) (h : b ≠ a) : (d.wr a 0 v).rd b = d.rd b := rd_wr_field _ _ _ _ _ _ (by decide) (by decide) h.symm
  unfold lineWritten
  simp only [setFlag_eq]
  constructor
  · rw [hskip _ _ _ _ (by decide), rd_wr]; exact Nat.mod_eq_of_lt hspeed
  · rw [rd_wr]; exact Nat.mod_eq_of_lt haccel
  · rw [flag, hskip _ _ _ _ (by decide), hskip _ _ _ _ (by decide), hskip _ _ _ _ (by decide), hskip _ _ _ _ (by decide)]
    exact flag_wr_toNat _ .ENC_MSTAT_DIR 0 _ (by decide)
  · rw [flag, hskip _ _ _ _ (by decide), hskip _ _ _ _ (by decide), hskip _ _ _ _ (by decide)]
    exact flag_wr_toNat _ .ENC_MSTAT_STOP 0 _ (by decide)
  · rw [flag, hskip _ _ _ _ (by decide), hskip _ _ _ _ (by decide)]
    exact flag_wr_toNat _ .ENC_MSTAT_SPDV 0 _ (by decide)

/-- A change of direction is flagged and recorded. -/
theorem Dev.takeLine_within (s : Dev) (f : PosFrame) {α : Type} {m : Dev → α} (hm : Quiet m) :
    Within ((.ENC_MSTAT_DIRCHG, 0) :: logFields) m (s.lineWritten f) (s.takeLine f) := by
  have heq : s.takeLine f = if bit f.flags 0 != s.reverse then
      ((s.lineWritten f).setFlag .ENC_MSTAT_DIRCHG 0 true).tally 0x0020 0xFF 0xFFFFFFFF (s.lineWritten f).lmPos
        (bit f.flags 0).toNat else s.lineWritten f := rfl
  rw [heq]
  generalize s.lineWritten f = u
  split
  · exact ((Within.refl _ m u).setFlag true (by decide) (by simp)).tally _ _ _ _ _ (fun _ he => List.mem_cons_of_mem _ he) hm
  · exact .refl _ _ u

/-- The fields that generators which resume change. -/
def resumeFields : List (Field × Nat) :=
  (upTo 8).flatMap fun g => [(.ENC_CG_SKIP, g), (.ENC_CG_NEXT, g), (.ENC_CG_STAT_FSTOP, g), (.ENC_CG_STAT_RUN, g)]

theorem Dev.resumeGenerators_within (s : Dev) (src : Option Nat) {α : Type} (m : Dev → α) : Within resumeFields m s (s.resumeGenerators src) := by
  refine .foldl _ (.refl _ _ s) fun d g hg => ?_
  have hg : g < 8 := mem_upTo.1 hg
  have hmem : ∀ e ∈ [(Field.ENC_CG_SKIP, g), (.ENC_CG_NEXT, g), (.ENC_CG_STAT_FSTOP, g), (.ENC_CG_STAT_RUN, g)], e ∈ resumeFields := fun e he =>
    List.mem_flatMap.2 ⟨g, mem_upTo.2 hg, he⟩
  split
  · exact ((((Within.refl _ m d).wr _ (by omega) (hmem _ (by simp))).wr _ (by omega) (hmem _ (by simp))).setFlag false (by omega)
      (hmem _ (by simp))).setFlag true (by omega) (hmem _ (by simp))
  · exact .refl _ _ d

/-- The herd has counted a good POS frame. -/
def Dev.countGood (s : Dev) : Dev := { s with herd := { s.herd with goodPos := s.herd.goodPos + 1 } }

theorem Dev.posFound_cases (s : Dev) : s.posFound = s ∨ s.posFound = s.countGood ∨
    s.posFound = ((s.countGood.setFlag .HRD_STAT_POSLOST 0 false).closeMark .position s.countGood.lmPos).resumeGenerators none := by
  unfold posFound
  dsimp only
  repeat' split
  · exact .inl rfl
  · exact .inr (.inl rfl)
  · exact .inr (.inr rfl)

theorem Dev.found_within (s : Dev) (fin : Nat) {α : Type} {m : Dev → α} (hm : ∀ d marks zports, m { d with marks := marks, zports := zports } = m d) :
    Within ((.HRD_STAT_POSLOST, 0) :: resumeFields) m s (((s.setFlag .HRD_STAT_POSLOST 0 false).closeMark .position fin).resumeGenerators none) :=
  (((Within.refl _ m s).setFlag false (by decide) (by simp)).closeMark _ _ hm).trans
    ((resumeGenerators_within _ none m).mono fun _ he => List.mem_cons_of_mem _ he)

theorem Dev.posFound_within (s : Dev) : Within ((.HRD_STAT_POSLOST, 0) :: resumeFields) (fun _ => ()) s s.posFound := by
  have hgood : Within ((.HRD_STAT_POSLOST, 0) :: resumeFields) (fun _ => ()) s s.countGood := (Within.refl _ _ s).step rfl rfl rfl rfl
  rcases s.posFound_cases with h | h | h <;> rw [h]
  · exact .refl _ _ s
  · exact hgood
  · exact hgood.trans (found_within _ _ fun _ _ _ => rfl)

theorem Dev.Led.posFound (s : Dev) : Led s s.posFound := by
  have hgood : Led s s.countGood := ⟨rfl, rfl, rfl, rfl, fun _ => rfl⟩
  rcases s.posFound_cases with h | h | h <;> rw [h]
  · exact refl s
  · exact hgood
  · exact hgood.trans (of_within (found_within _ _ (m := course) fun _ _ _ => rfl) (by simp [resumeFields]))

/-- The fields that the hits which generators have passed may change. -/
def passFields : List (Field × Nat) := ((upTo 8).flatMap crossingFields) ++ hitFields

theorem Dev.passedHits_within (s : Dev) {g : Nat} (hg : g < 8) (at_ n : Nat) : Within passFields (fun _ => ()) s (s.passedHits g at_ n) := by
  have hmem : ∀ e ∈ crossingFields g, e ∈ passFields := fun e he => List.mem_append_left _ (List.mem_flatMap.2 ⟨g, mem_upTo.2 hg, he⟩)
  induction n generalizing s at_ with
  | zero => exact .refl _ _ s
  | succ n ih =>
    have hissued (next stamp : Nat) : Within passFields (fun _ => ()) s ((s.crossing g next).issueHit g stamp at_) := by
      refine ((s.crossing_within (by omega) next fun _ _ => rfl).mono hmem).trans (Within.trans (.countMod (.refl _ _ _) (by omega) (hmem _ ?_))
        ((issueHit_within _ g stamp at_ (fun _ _ _ => rfl) (fun _ _ _ _ _ _ _ _ _ _ _ _ => rfl) fun _ _ _ => rfl).mono
          fun _ he => List.mem_append_right _ he))
      simp [crossingFields]
    rw [passedHits_succ]
    split
    · split
      · exact (hissued _ _).trans (((Within.refl _ _ _).setGen _ _ fun _ _ => rfl).trans (ih _ _))
      · exact .refl _ _ s
    · exact .refl _ _ s

theorem Dev.issuePassed_within (s : Dev) : Within passFields (fun _ => ()) s s.issuePassed :=
  .foldl _ (.refl _ _ s) fun d _ hg => d.passedHits_within (mem_upTo.1 hg) _ _

theorem Dev.takePos_herd (s : Dev) (f : PosFrame) :
    (s.takePos f).herd.pos = some f ∧ (s.takePos f).herd.seen = s.herd.seen ∧ (s.takePos f).herd.dozing = bit f.flags 3 := by
  unfold takePos
  cases bit f.flags 3 <;> exact ⟨rfl, rfl, rfl⟩

/-- What a worker shows once it has followed a POS frame. -/
theorem Dev.followPos_reads (s : Dev) {f : PosFrame} (hf : f.wf = true) :
    Shows f (s.followPos f) ∧ (s.followPos f).herd.pos = some f ∧ (s.followPos f).herd.seen = s.herd.seen ∧
      (s.followPos f).herd.dozing = bit f.flags 3 := by
  have heq : s.followPos f = if s.herd.dozing && !bit f.flags 3 then (((s.takePos f).takeLine f).posFound).issuePassed
    else ((s.takePos f).takeLine f).posFound := rfl
  obtain ⟨hpos, hseen, hdozing⟩ := s.takePos_herd f
  rw [heq]
  generalize s.takePos f = u at *
  have hshows : Shows f (u.takeLine f) := (u.lineWritten_shows hf).later (u.takeLine_within f quiet_course) (by simp [ApartFromLine, logFields])
  have hline : Led u (u.takeLine f) :=
    (Led.of_within (u.lineWritten_within f course) (by simp)).trans (.of_within (u.takeLine_within f quiet_course) (by simp [logFields]))
  have hshows := hshows.later (posFound_within _) (by simp [ApartFromLine, resumeFields])
  have hled := hline.trans (.posFound _)
  generalize (u.takeLine f).posFound = v at *
  have hlast : Shows f (if s.herd.dozing && !bit f.flags 3 then v.issuePassed else v) ∧ Led u (if s.herd.dozing && !bit f.flags 3 then v.issuePassed else v) := by
    split
    · exact ⟨hshows.later v.issuePassed_within (by simp [ApartFromLine, passFields, crossingFields, hitFields, breakFields, logFields]), hled.trans (.issuePassed v)⟩
    · exact ⟨hshows, hled⟩
  obtain ⟨hshows, hled⟩ := hlast
  exact ⟨hshows, hled.pos.trans hpos, hled.seen.trans hseen, hled.dozing.trans hdozing⟩

theorem completes_pos {s : State} {p : Fin 4} {h : ZHdr} {f : PosFrame} (hwf : h.wf = true) (hf : f.wf = true) (hon : s.portOn p = true)
    (hnew : s.seenPos f.bseq = false) (hworker : (s.header p h).worker = true) (hup : (s.header p h).flag .ZXL_STAT_UP p = true)
    (hsrc : h.src ≠ (s.header p h).memberNo) (hbc : h.bc = false) (hdst : h.dst = (s.header p h).memberNo) :
    Completes (.pos p h f) s fun t =>
      t.herd.pos = some f ∧ t.herd.seen = some f.bseq ∧ t.rd .ENC_SPEED = f.speed ∧ t.rd .ENC_ACCEL = f.accel ∧
      t.flag .ENC_MSTAT_DIR = bit f.flags 0 ∧ t.flag .ENC_MSTAT_STOP = bit f.flags 1 ∧ t.flag .ENC_MSTAT_SPDV = bit f.flags 2 ∧
      t.herd.dozing = bit f.flags 3 := by
  have heff := Dev.pos_followed hon hnew hworker hup hsrc hbc hdst
  obtain ⟨hshows, hpos, hseen, hdozing⟩ :=
    ({ s.header p h with herd := { (s.header p h).herd with seen := some f.bseq } } : Dev).followPos_reads hf
  generalize ({ s.header p h with herd := { (s.header p h).herd with seen := some f.bseq } } : Dev).followPos f = t at *
  refine .of_effect (exec_pos ..) (by simp [Instr.wf, hwf, hf]) heff ?_
  simp only [Dev.notify_herd, Dev.notify_rd, Dev.notify_flag]
  exact ⟨hpos, hseen, hshows.speed, hshows.accel, hshows.reverse, hshows.stopped, hshows.valid, hdozing⟩

/-- Settles O51: frames leave by the ports as these stood, and what follows a worker's line leaves the line's fields alone. -/
theorem herdPositionAndTime : Obligations.HerdPositionAndTime := by
  intro s p h f peer echo error hwf
  refine ⟨fun hsends hen hup hawake => completes_posSend hsends hen hup hawake, ?_, fun hon hup hawake => completes_timeSend hon hup hawake, ?_, ?_⟩
  · exact fun hf hon _ hworker hnew hup hsrc hbc hdst => completes_pos hwf hf hon hnew hworker hup hsrc hbc hdst
  · exact fun hpeer hecho hon hup => completes_time hwf hpeer hecho hon hup
  · exact fun hlive hworker hdozing hlost => completes_poslost hlive hworker hdozing hlost

end Sys2Proof.Machine

end

section
/-! What leaves memory alone: the operations and commands of each part of the model that touch no byte of it. -/

namespace Sys2Proof.Machine

open Sys2Proof

-- One proof at a time, as in the tests: the compile of the whole text then needs less memory.
set_option Elab.async false

@[simp] theorem Dev.ite_mem (p : Prop) [Decidable p] (a b : Dev) : (if p then a else b).mem = if p then a.mem else b.mem := apply_ite ..

@[simp] theorem Dev.foldl_mem {β : Type} {f : Dev → β → Dev} (hf : ∀ d x, (f d x).mem = d.mem) (xs : List β) (s : Dev) :
    (xs.foldl f s).mem = s.mem := foldl_keeps Dev.mem (fun d x _ => hf d x) s

@[simp] theorem Dev.foldr_mem {β : Type} {f : β → Dev → Dev} (hf : ∀ x d, (f x d).mem = d.mem) (xs : List β) (s : Dev) :
    (xs.foldr f s).mem = s.mem := by
  induction xs with
  | nil => rfl
  | cons x xs ih => exact (hf x _).trans ih

@[simp] theorem Dev.iter_mem {f : Dev → Dev} (hf : ∀ d, (f d).mem = d.mem) (n : Nat) (s : Dev) : (iter f n s).mem = s.mem := by
  induction n generalizing s with
  | zero => rfl
  | succ n ih => exact (ih (f s)).trans (hf s)

/-- The module's memory is `m`. -/
def Dev.MemIs (m : List Host.Cell) (t : Dev) : Prop := t.mem = m

theorem Dev.MemIs.branch {m : List Host.Cell} {p : Prop} [Decidable p] {a b : Dev} (ha : a.MemIs m) (hb : b.MemIs m) :
    Dev.MemIs m (if p then a else b) := by split <;> assumption

theorem Dev.MemIs.foldl {m : List Host.Cell} {β : Type} {f : Dev → β → Dev} (hf : ∀ d x, d.MemIs m → (f d x).MemIs m) (xs : List β) {s : Dev}
    (h : s.MemIs m) : Dev.MemIs m (xs.foldl f s) := by
  induction xs generalizing s with
  | nil => exact h
  | cons x xs ih => exact ih (hf s x h)

/-! ### Ops -/

@[simp] theorem Dev.setFlag_mem (s : Dev) (f : Field) (i : Nat) (b : Bool) : (s.setFlag f i b).mem = s.mem := by simp [Dev.setFlag]

@[simp] theorem Dev.count_mem (s : Dev) (f : Field) (i : Nat) : (s.count f i).mem = s.mem := by simp [Dev.count]

@[simp] theorem Dev.countMod_mem (s : Dev) (f : Field) (i : Nat) : (s.countMod f i).mem = s.mem := by simp [Dev.countMod]

@[simp] theorem Dev.putBars_mem (s : Dev) (a : Nat) (bs : List Byte) : (s.putBars a bs).mem = s.mem := by
  induction bs generalizing s a with
  | nil => rfl
  | cons b bs ih => exact (ih _ _).trans (s.putBar_mem a b)

@[simp] theorem Dev.noteStop_mem (s : Dev) : s.noteStop.mem = s.mem := by simp [Dev.noteStop]

@[simp] theorem Dev.observeCode_mem (s : Dev) (code : Nat) : (s.observeCode code).mem = s.mem := by simp [Dev.observeCode]

@[simp] theorem Dev.haltTrace_mem (s : Dev) : s.haltTrace.mem = s.mem := by simp [Dev.haltTrace]

@[simp] theorem Dev.traceTrigger_mem (s : Dev) (code : Nat) : (s.traceTrigger code).mem = s.mem := by simp [Dev.traceTrigger]

@[simp] theorem Dev.traceRecord_mem (s : Dev) (r : TraceRec) : (s.traceRecord r).mem = s.mem := by simp [Dev.traceRecord]

@[simp] theorem Dev.traceNote_mem (s : Dev) (src kind data : Nat) : (s.traceNote src kind data).mem = s.mem := by simp [Dev.traceNote]

@[simp] theorem Dev.traceAdmit_mem (s : Dev) (kind id : Nat) : (s.traceAdmit kind id).mem = s.mem := by simp [Dev.traceAdmit]

@[simp] theorem Dev.tally_mem (s : Dev) (code unit : Nat) (partid v0 v1 : Nat) : (s.tally code unit partid v0 v1).mem = s.mem := by simp [Dev.tally]

/-! ### Flags -/

@[simp] theorem Dev.raiseVec_mem (s : Dev) (v : Nat) : (s.raiseVec v).mem = s.mem := by simp [Dev.raiseVec]

/-! ### Link -/

@[simp] theorem Dev.emit_mem (s : Dev) (p seq : Nat) (f : ZFrame) : (s.emit p seq f).mem = s.mem := by simp [Dev.emit]

@[simp] theorem Dev.zSend_mem (s : Dev) (p : Nat) (f : ZFrame) : (s.zSend p f).mem = s.mem := by simp [Dev.zSend]

@[simp] theorem Dev.zBroadcast_mem (s : Dev) (except : Option Nat) (f : ZFrame) : (s.zBroadcast except f).mem = s.mem := by simp [Dev.zBroadcast]

@[simp] theorem Dev.toAll_mem (s : Dev) (l : ZPayload) : (s.toAll l).mem = s.mem := by simp [Dev.toAll]

@[simp] theorem Dev.toManager_mem (s : Dev) (l : ZPayload) : (s.toManager l).mem = s.mem := by simp [Dev.toManager]

/-! ### Parts -/

@[simp] theorem Dev.openMark_mem (s : Dev) (m : Mark) : (s.openMark m).mem = s.mem := by simp [Dev.openMark]

@[simp] theorem Dev.closeMark_mem (s : Dev) (src : MarkSource) (fin : Nat) : (s.closeMark src fin).mem = s.mem := by simp [Dev.closeMark]

@[simp] theorem Dev.activate_mem (s : Dev) (k : Nat) : (s.activate k).mem = s.mem := by simp [Dev.activate]

@[simp] theorem Dev.stopStanding_mem (s : Dev) (k : Nat) : (s.stopStanding k).mem = s.mem := by simp [Dev.stopStanding]

@[simp] theorem Dev.retire_mem (s : Dev) (k : Nat) : (s.retire k).mem = s.mem := by simp [Dev.retire]

@[simp] theorem Dev.forgetSlot_mem (s : Dev) (k : Nat) : (s.forgetSlot k).mem = s.mem := by simp [Dev.forgetSlot]

@[simp] theorem Dev.takeSwitch_mem (s : Dev) : s.takeSwitch.mem = s.mem := by
  unfold Dev.takeSwitch
  cases s.slotNext with
  | none => rfl
  | some e => exact (Dev.retireSlots_mem _).trans (by simp)

@[simp] theorem Dev.switchIfReached_mem (s : Dev) : s.switchIfReached.mem = s.mem := by
  unfold Dev.switchIfReached
  split <;> simp

@[simp] theorem Dev.switchFor_mem (s : Dev) (start : Nat) : (s.switchFor start).mem = s.mem := by
  unfold Dev.switchFor
  dsimp only
  repeat' split
  all_goals simp

@[simp] theorem Dev.driveStop_mem (s : Dev) : s.driveStop.mem = s.mem := by simp [Dev.driveStop]

@[simp] theorem Dev.announce_mem (s : Dev) (p : Part) (close : Bool) : (s.announce p close).mem = s.mem := by simp [Dev.announce]

@[simp] theorem Dev.trackPart_mem (s : Dev) (l start k : Nat) : (s.trackPart l start k).mem = s.mem := by simp [Dev.trackPart]

@[simp] theorem Dev.openPart_mem (s : Dev) (l start : Nat) (broken : Bool) : (s.openPart l start broken).mem = s.mem := by
  unfold Dev.openPart
  dsimp only
  repeat' split
  all_goals simp

@[simp] theorem Dev.closePart_mem (s : Dev) (l fin : Nat) (code : Option Nat) : (s.closePart l fin code).mem = s.mem := by
  unfold Dev.closePart
  dsimp only
  repeat' split
  all_goals simp

@[simp] theorem Dev.presence_mem (s : Dev) (l pos : Nat) (on broken : Bool) : (s.presence l pos on broken).mem = s.mem := by simp [Dev.presence]

@[simp] theorem Dev.overlong_mem (s : Dev) (l : Nat) (p : Part) : (s.overlong l p).mem = s.mem := by simp [Dev.overlong]

@[simp] theorem Dev.takeRecord_mem (s : Dev) (r : VerdictRec) : (s.takeRecord r).mem = s.mem := by
  unfold Dev.takeRecord
  split <;> simp

@[simp] theorem Dev.reportFault_mem (s : Dev) (lanes a b : Nat) : (s.reportFault lanes a b).mem = s.mem := by simp [Dev.reportFault]

/-! ### Memory -/

@[simp] theorem Dev.disturb_mem (s : Dev) : s.disturb.mem = s.mem := by simp [Dev.disturb]

@[simp] theorem Dev.corrected_mem (s : Dev) (lpddr : Bool) : (s.corrected lpddr).mem = s.mem := by simp [Dev.corrected]

@[simp] theorem Dev.resent_mem (s : Dev) (n : Nat) : (s.resent n).mem = s.mem := by simp [Dev.resent]

@[simp] theorem Dev.uncorrectable_mem (s : Dev) (a src : Nat) (ecc : Bool) : (s.uncorrectable a src ecc).mem = s.mem := by simp [Dev.uncorrectable]

@[simp] theorem Dev.meet_mem (s : Dev) (e : MemEvent) (a src : Nat) : (s.meet e a src).mem = s.mem := by
  unfold Dev.meet
  split <;> simp

/-! ### Mmu -/

@[simp] theorem Dev.keepPage_mem (s : Dev) (me : Option Nat) (asid va acc : Nat) : (s.keepPage me asid va acc).mem = s.mem := by
  unfold Dev.keepPage
  split <;> simp

@[simp] theorem Dev.keepPages_mem (s : Dev) (me : Option Nat) (asid acc k va n : Nat) : (s.keepPages me asid acc k va n).mem = s.mem := by
  induction k generalizing s va n with
  | zero => rfl
  | succ k ih => exact (Dev.ite_mem ..).trans (by simp [ih])

@[simp] theorem Dev.touch_mem (s : Dev) (me : Option Nat) (asid acc : Nat) (va n : Nat) : (s.touch me asid acc va n).mem = s.mem :=
  by simp [Dev.touch]

@[simp] theorem Dev.walkError_mem (s : Dev) (f : XFault) : (s.walkError f).mem = s.mem := by simp [Dev.walkError]

@[simp] theorem Dev.postFault_mem (s : Dev) (r : List Byte) : (s.postFault r).mem = s.mem := by simp [Dev.postFault]

/-! ### Operands -/

@[simp] theorem Dev.countOwnerError_mem (s : Dev) : s.countOwnerError.mem = s.mem := by simp [Dev.countOwnerError]

@[simp] theorem Dev.ownerError_mem (s : Dev) : s.ownerError.mem = s.mem := by simp [Dev.ownerError]

@[simp] theorem Dev.storeNvm_mem (s : Dev) (key : Nat) (d v : OdVal) : (s.storeNvm key d v).mem = s.mem := by simp [Dev.storeNvm]

@[simp] theorem Dev.storeN_mem (s : Dev) (index sub : Nat) (d n : Nat) : (s.storeN index sub d n).mem = s.mem := by simp [Dev.storeN]

@[simp] theorem Dev.served_mem (s : Dev) (p : Port) (index sub : Nat) {f : Dev → Dev} (hf : ∀ d, (f d).mem = d.mem) :
    (s.served p index sub f).mem = s.mem := by simp [Dev.served, hf]

/-! ### Scheduler -/

@[simp] theorem Dev.updJob_mem (s : Dev) (seq : Nat) (f : Job → Job) : (s.updJob seq f).mem = s.mem := by simp [Dev.updJob]

@[simp] theorem Dev.sampleJob_mem (s : Dev) (seq : Nat) : (s.sampleJob seq).mem = s.mem := by simp [Dev.sampleJob]

@[simp] theorem Dev.setPiece_mem (s : Dev) (seq i : Nat) (st : PieceSt) : (s.setPiece seq i st).mem = s.mem := by simp [Dev.setPiece]

@[simp] theorem Dev.jobFault_mem (s : Dev) (seq : Nat) : (s.jobFault seq).mem = s.mem := by
  unfold Dev.jobFault
  repeat' split
  all_goals simp

@[simp] theorem Dev.noteRecovery_mem (s : Dev) : s.noteRecovery.mem = s.mem := by simp [Dev.noteRecovery]

@[simp] theorem Dev.holdSlot_mem (s : Dev) (k job : Nat) (piece chn : Nat) (cheap : Bool) : (s.holdSlot k job piece chn cheap).mem = s.mem := by simp [Dev.holdSlot]

@[simp] theorem Dev.emptySlot_mem (s : Dev) (k st : Nat) : (s.emptySlot k st).mem = s.mem := by simp [Dev.emptySlot]

@[simp] theorem Dev.releaseSlot_mem (s : Dev) (k : Nat) : (s.releaseSlot k).mem = s.mem := by simp [Dev.releaseSlot]

@[simp] theorem Dev.setResident_mem (s : Dev) (n : Nat) (r : Option Resident) : (s.setResident n r).mem = s.mem := by simp [Dev.setResident]

@[simp] theorem Dev.settle_mem (s : Dev) (n : Nat) : (s.settle n).mem = s.mem := by
  unfold Dev.settle
  split <;> simp

@[simp] theorem Dev.traceContext_mem (s : Dev) (n kind : Nat) : (s.traceContext n kind).mem = s.mem := by simp [Dev.traceContext]

@[simp] theorem Dev.tracePreempt_mem (s : Dev) (n : Nat) : (s.tracePreempt n).mem = s.mem := by simp [Dev.tracePreempt]

@[simp] theorem Dev.vacate_mem (s : Dev) (n : Nat) : (s.vacate n).mem = s.mem := by simp [Dev.vacate]

@[simp] theorem Dev.discard_mem (s : Dev) (j : Job) : (s.discard j).mem = s.mem := by
  refine foldl_mem (fun d p => ?_) _ _
  cases p.st with
  | running n =>
    cases hr : d.resident n with
    | none => simp [hr]
    | some r => cases hs : r.saving <;> cases ht : r.restoring <;> simp [hr, hs, ht]
  | saved k => simp
  | _ => rfl

@[simp] theorem Dev.dropRecord_mem (s : Dev) : s.dropRecord.mem = s.mem := by simp [Dev.dropRecord]

@[simp] theorem Dev.signalEnd_mem (s : Dev) (j : Job) : (s.signalEnd j).mem = s.mem := by
  unfold Dev.signalEnd
  split <;> simp

@[simp] theorem Dev.setExc_mem (s : Dev) (n mask : Nat) : (s.setExc n mask).mem = s.mem := by simp [Dev.setExc]

@[simp] theorem Dev.raiseExc_mem (s : Dev) (n mask : Nat) : (s.raiseExc n mask).mem = s.mem := by
  unfold Dev.raiseExc
  dsimp only
  repeat' split
  all_goals simp

@[simp] theorem Dev.churnError_mem (s : Dev) (n : Nat) : (s.churnError n).mem = s.mem := by
  unfold Dev.churnError
  split <;> simp

@[simp] theorem Dev.attachFault_mem (s : Dev) (k : Nat) (e : List Byte) : (s.attachFault k e).mem = s.mem := by
  unfold Dev.attachFault
  dsimp only
  repeat' split
  all_goals simp

@[simp] theorem Dev.place_mem (s : Dev) (n : Nat) (j : Job) (i : Nat) (p : Piece) : (s.place n j i p).mem = s.mem := by
  unfold Dev.place
  repeat' split
  all_goals simp

@[simp] theorem Dev.refreshKeys_mem (s : Dev) : s.refreshKeys.mem = s.mem := by simp [Dev.refreshKeys]

@[simp] theorem Dev.deferPiece_mem (s : Dev) (c : Job × Nat × Piece) : (s.deferPiece c).mem = s.mem := by simp [Dev.deferPiece]

@[simp] theorem Dev.deferAll_mem (s : Dev) (l : List (Job × Nat × Piece)) : (s.deferAll l).mem = s.mem := by simp [Dev.deferAll]

@[simp] theorem Dev.returnContext_mem (s : Dev) (n : Nat) (r : Resident) : (s.returnContext n r).mem = s.mem := by
  unfold Dev.returnContext
  repeat' split
  all_goals simp

@[simp] theorem Dev.keepChurn_mem (s : Dev) (c : Job × Nat × Piece) (n : Nat) : (s.keepChurn c n).mem = s.mem := by simp [Dev.keepChurn]

@[simp] theorem Dev.enterFixed_mem (s : Dev) : s.enterFixed.mem = s.mem := by simp [Dev.enterFixed]

@[simp] theorem Dev.freeKept_mem (s : Dev) (n : Nat) : (s.freeKept n).mem = s.mem := by simp [Dev.freeKept]

/-! ### Matrix -/

@[simp] theorem Dev.sendPartial_mem (s : Dev) (n tile : Nat) (ints : Bool) (vals : Tab Int) : (s.sendPartial n tile ints vals).mem = s.mem := by
  unfold Dev.sendPartial
  split <;> simp

@[simp] theorem Dev.runMatrix_mem (s : Dev) (n : Nat) (op : MatrixOp) (kind : PairKind) (reduced : Nat) :
    (s.runMatrix n op kind reduced).mem = s.mem := by
  unfold Dev.runMatrix
  dsimp only
  repeat' split
  all_goals simp

/-! ### Vector -/

@[simp] theorem Dev.groupBarrier_mem (s : Dev) (n gang thread : Nat) : (s.groupBarrier n gang thread).mem = s.mem := by simp [Dev.groupBarrier]

/-! ### CoaXPress -/

@[simp] theorem Dev.checkGroup_mem (s : Dev) (n : Nat) : (s.checkGroup n).mem = s.mem := by
  have hlinks (k : Dev → Nat → Link) (l : List Nat) : (l.foldl (fun d n => d.setLink n (k d n)) s).mem = s.mem := foldl_mem (fun d n => d.setLink_mem n _) _ _
  unfold Dev.checkGroup
  dsimp only
  split
  · exact (tally_mem ..).trans (foldl_mem (fun d n => by simp) _ _)
  · exact hlinks _ _

@[simp] theorem Dev.linkDeviceDetect_mem (s : Dev) (n maxRate connId : Nat) : (s.linkDeviceDetect n maxRate connId).mem = s.mem := by
  unfold Dev.linkDeviceDetect
  repeat' split
  all_goals simp

@[simp] theorem Dev.proxyStatus_mem (s : Dev) (n : Nat) (source : Source) (st : Nat) : (s.proxyStatus n source st).mem = s.mem := by
  unfold Dev.proxyStatus
  split <;> simp

@[simp] theorem Dev.sendControl_mem (s : Dev) (n : Nat) : (s.sendControl n).mem = s.mem := by
  unfold Dev.sendControl
  split <;> simp

@[simp] theorem Dev.queueControl_mem (s : Dev) (n : Nat) (r : ProxyReq) : (s.queueControl n r).mem = s.mem := by simp [Dev.queueControl]

@[simp] theorem Dev.proxyOperands_mem (s : Dev) (n : Nat) (r : ProxyReq) : (s.proxyOperands n r).mem = s.mem := by
  unfold Dev.proxyOperands
  split <;> simp

@[simp] theorem Dev.request_mem (s : Dev) (n : Nat) (r : ProxyReq) : (s.request n r).mem = s.mem := by simp [Dev.request]

@[simp] theorem Dev.endRequest_mem (s : Dev) (n st : Nat) : (s.endRequest n st).mem = s.mem := by
  unfold Dev.endRequest
  split <;> simp

@[simp] theorem Dev.readData_mem (s : Dev) (n : Nat) (data : List Byte) : (s.readData n data).mem = s.mem := by
  unfold Dev.readData
  repeat' split
  all_goals simp

@[simp] theorem Dev.nackCode_mem (s : Dev) (n code : Nat) : (s.nackCode n code).mem = s.mem := by
  unfold Dev.nackCode
  split <;> simp

@[simp] theorem Dev.proxyAck_mem (s : Dev) (n : Nat) (a : CtrlAck) : (s.proxyAck n a).mem = s.mem := by
  unfold Dev.proxyAck
  split <;> simp

@[simp] theorem Dev.linkLock_mem (s : Dev) (n : Nat) : (s.linkLock n).mem = s.mem := by simp [Dev.linkLock]

@[simp] theorem Dev.lockLoss_mem (s : Dev) (n : Nat) : (s.lockLoss n).mem = s.mem := by simp [Dev.lockLoss]

@[simp] theorem Dev.eqUpdate_mem (s : Dev) (n dfe : Nat) (ctle vert horz : Nat) : (s.eqUpdate n dfe ctle vert horz).mem = s.mem :=
  by simp [Dev.eqUpdate]

@[simp] theorem Dev.powerSwitch_mem (s : Dev) (n : Nat) (closed : Bool) : (s.powerSwitch n closed).mem = s.mem := by simp [Dev.powerSwitch]

@[simp] theorem Dev.powerFault_mem (s : Dev) (n : Nat) : (s.powerFault n).mem = s.mem := by simp [Dev.powerFault]

@[simp] theorem Dev.pocxpDetect_mem (s : Dev) (n : Nat) (found : Bool) : (s.pocxpDetect n found).mem = s.mem := by simp [Dev.pocxpDetect]

@[simp] theorem Dev.pocxpOvercurrent_mem (s : Dev) (n : Nat) : (s.pocxpOvercurrent n).mem = s.mem := by simp [Dev.pocxpOvercurrent]

@[simp] theorem Dev.vpocLow_mem (s : Dev) : s.vpocLow.mem = s.mem := by simp [Dev.vpocLow]

@[simp] theorem Dev.writePwrEn_mem (s : Dev) (n : Nat) (on : Bool) : (s.writePwrEn n on).mem = s.mem := by simp [Dev.writePwrEn]

/-! ### Dma -/

@[simp] theorem Dev.noteSkim_mem (s : Dev) (n : Nat) (op : DmaOp) (l : List Nat) : (s.noteSkim n op l).mem = s.mem := by
  unfold Dev.noteSkim
  dsimp only
  split
  · rfl
  · exact (raiseExc_mem ..).trans (foldl_mem (fun d _ => d.countOd_mem _ _ _) _ _)

@[simp] theorem Dev.touchAll_mem (s : Dev) (n : Nat) (op : DmaOp) : (s.touchAll n op).mem = s.mem := by simp [Dev.touchAll]

/-! ### Fires -/

@[simp] theorem Dev.joinRuns_mem (s : Dev) (a b : Nat) : (s.joinRuns a b).mem = s.mem := by simp [Dev.joinRuns]

@[simp] theorem Dev.setRunOff_mem (s : Dev) (r edge : Nat) : (s.setRunOff r edge).mem = s.mem := by simp [Dev.setRunOff]

@[simp] theorem Dev.addFire_mem (s : Dev) (f : Fire) : (s.addFire f).mem = s.mem := by
  unfold Dev.addFire
  dsimp only
  generalize s.fires.filter (fun (g : Fire) => g.out == f.out && g.offEdge.isNone && f.touches g) = near
  cases near with
  | nil => rfl
  | cons g rest => exact foldl_mem (fun d (h : Fire) => d.joinRuns_mem g.run h.run) _ _

@[simp] theorem Dev.ownRun_mem (s : Dev) (l : List Fire) : (s.ownRun l).mem = s.mem := by simp [Dev.ownRun]

@[simp] theorem Dev.dropFire_mem (s : Dev) (f : Fire) : (s.dropFire f).mem = s.mem := by
  unfold Dev.dropFire
  dsimp only
  split
  · rfl
  · exact foldl_mem (fun d l => d.ownRun_mem l) _ _

@[simp] theorem Dev.missOn_mem (s : Dev) (f : Fire) : (s.missOn f).mem = s.mem := by simp [Dev.missOn]

@[simp] theorem Dev.fillQueue_mem (s : Dev) : s.fillQueue.mem = s.mem := by simp [Dev.fillQueue]

@[simp] theorem Dev.commitTick_mem (s : Dev) (edge : Nat) (level : Bool) (o : Nat) : (s.commitTick edge level o).mem = s.mem :=
  by simp [Dev.commitTick]

@[simp] theorem Dev.commitOff_mem (s : Dev) (r o edge : Nat) : (s.commitOff r o edge).mem = s.mem := by simp [Dev.commitOff]

@[simp] theorem Dev.lateOff_mem (s : Dev) (o : Nat) : (s.lateOff o).mem = s.mem := by simp [Dev.lateOff]

@[simp] theorem Dev.noteBehind_mem (s : Dev) (r n : Nat) : (s.noteBehind r n).mem = s.mem := by
  unfold Dev.noteBehind
  split <;> simp

@[simp] theorem Dev.withhold_mem (s : Dev) (r n : Nat) : (s.withhold r n).mem = s.mem := by
  unfold Dev.withhold
  dsimp only
  repeat' split
  all_goals simp

@[simp] theorem Dev.closeTimedRun_mem (s : Dev) (f : Fire) : (s.closeTimedRun f).mem = s.mem := by
  unfold Dev.closeTimedRun
  dsimp only
  repeat' split
  all_goals simp

@[simp] theorem Dev.evalOn_mem (s : Dev) (f : Fire) : (s.evalOn f).mem = s.mem := by
  unfold Dev.evalOn
  split <;> simp

@[simp] theorem Dev.evalOff_mem (s : Dev) (f : Fire) : (s.evalOff f).mem = s.mem := by
  unfold Dev.evalOff
  dsimp only
  repeat' split
  all_goals simp

@[simp] theorem Dev.evalEvent_mem (s : Dev) (ev : Fire × Bool) : (s.evalEvent ev).mem = s.mem := by
  unfold Dev.evalEvent
  split <;> simp

@[simp] theorem Dev.forceOff_mem (s : Dev) (r : Nat × Nat × Nat) : (s.forceOff r).mem = s.mem := by simp [Dev.forceOff]

@[simp] theorem Dev.releaseOff_mem (s : Dev) (r : Nat × Nat) : (s.releaseOff r).mem = s.mem := by simp [Dev.releaseOff]

@[simp] theorem Dev.disarmEntries_mem (s : Dev) : s.disarmEntries.mem = s.mem := by simp [Dev.disarmEntries]

@[simp] theorem Dev.queueFull_mem (s : Dev) (p : Part) (want : Nat) : (s.queueFull p want).mem = s.mem := by
  change (s.queueFull p want).MemIs s.mem
  unfold Dev.queueFull
  refine .branch ?full (.foldl (fun d o h => ?miss) _ ?full)
  case full => exact .branch (by simp [Dev.MemIs]) (by simp [Dev.MemIs])
  case miss =>
    split
    · exact .branch ((d.missOn_mem _).trans h) h
    · exact h

@[simp] theorem Dev.alignPart_mem (s : Dev) (id : Nat) : (s.alignPart id).mem = s.mem := by
  unfold Dev.alignPart
  split <;> simp

@[simp] theorem Dev.evaluate_mem (s : Dev) : s.evaluate.mem = s.mem := by simp [Dev.evaluate]

@[simp] theorem Dev.noteLevel_mem (s : Dev) : s.noteLevel.mem = s.mem := by simp [Dev.noteLevel]

@[simp] theorem Dev.fireTick_mem (s : Dev) : s.fireTick.mem = s.mem := by simp [Dev.fireTick]

@[simp] theorem Dev.passOn_mem (s : Dev) (f : Fire) (e : Nat) : (s.passOn f e).mem = s.mem := by simp [Dev.passOn]

@[simp] theorem Dev.passEdges_mem (s : Dev) : s.passEdges.mem = s.mem := by simp [Dev.passEdges]

/-! ### Capture -/

@[simp] theorem Dev.loseCopy_mem (s : Dev) : s.loseCopy.mem = s.mem := by simp [Dev.loseCopy]

@[simp] theorem Dev.useCap_mem (s : Dev) (n : Nat) : (s.useCap n).mem = s.mem := by simp [Dev.useCap]

/-! ### Intake -/

@[simp] theorem Dev.wakeFor_mem (s : Dev) (sc : Nat) : (s.wakeFor sc).mem = s.mem := by
  unfold Dev.wakeFor
  split <;> simp

@[simp] theorem Dev.fusCommit_mem (s : Dev) (f : Nat) : (s.fusCommit f).mem = s.mem := by simp [Dev.fusCommit]

@[simp] theorem Dev.fusStage_mem (s : Dev) (f : Nat) : (s.fusStage f).mem = s.mem := by simp [Dev.fusStage]

@[simp] theorem Dev.fusSettle_mem (s : Dev) (f : Nat) : (s.fusSettle f).mem = s.mem := by simp [Dev.fusSettle]

@[simp] theorem Dev.fusNotify_mem (s : Dev) (c start : Nat) (fin : Option Nat) (gap : Bool) : (s.fusNotify c start fin gap).mem = s.mem :=
  by simp [Dev.fusNotify]

@[simp] theorem Dev.fusCloseGap_mem (s : Dev) (c fin : Nat) : (s.fusCloseGap c fin).mem = s.mem := foldl_mem (fun d f => d.setFusion_mem f _) _ s

@[simp] theorem Dev.takePp_mem (s : Dev) (c : Nat) : (s.takePp c).mem = s.mem := by
  unfold Dev.takePp
  dsimp only
  repeat' split
  all_goals simp

@[simp] theorem Dev.takeCfg_mem (s : Dev) (c : Nat) : (s.takeCfg c).mem = s.mem := by
  unfold Dev.takeCfg
  dsimp only
  repeat' split
  all_goals simp

@[simp] theorem Dev.takeCommits_mem (s : Dev) (c : Nat) : (s.takeCommits c).mem = s.mem := by simp [Dev.takeCommits]

@[simp] theorem Dev.fusRefresh_mem (s : Dev) (c : Nat) : (s.fusRefresh c).mem = s.mem := by simp [Dev.fusRefresh]

@[simp] theorem Dev.openBlock_mem (s : Dev) (c start : Nat) : (s.openBlock c start).mem = s.mem := by simp [Dev.openBlock]

@[simp] theorem Dev.openGap_mem (s : Dev) (c start : Nat) : (s.openGap c start).mem = s.mem := by simp [Dev.openGap]

@[simp] theorem Dev.closeGap_mem (s : Dev) (c fin : Nat) : (s.closeGap c fin).mem = s.mem := by simp [Dev.closeGap]

@[simp] theorem Dev.pruneStamps_mem (s : Dev) (c : Nat) : (s.pruneStamps c).mem = s.mem := by simp [Dev.pruneStamps]

@[simp] theorem Dev.bankFor_mem (s : Dev) (c gen : Nat) : (s.bankFor c gen).mem = s.mem := by simp [Dev.bankFor]

@[simp] theorem Dev.startPipes_mem (s : Dev) (c : Nat) : (s.startPipes c).mem = s.mem := by simp [Dev.startPipes]

@[simp] theorem Dev.reportNeed_mem (s : Dev) (c : Nat) : (s.reportNeed c).mem = s.mem := by simp [Dev.reportNeed]

@[simp] theorem Dev.ctxCommit_mem (s : Dev) (c : Nat) : (s.ctxCommit c).mem = s.mem := by
  unfold Dev.ctxCommit
  dsimp only
  repeat' split
  all_goals simp

@[simp] theorem Dev.ppCommit_mem (s : Dev) (c : Nat) : (s.ppCommit c).mem = s.mem := by
  unfold Dev.ppCommit
  dsimp only
  repeat' split
  all_goals simp

@[simp] theorem Dev.armBank_mem (s : Dev) (c gen : Nat) (bank : Bool) : (s.armBank c gen bank).mem = s.mem := by simp [Dev.armBank]

@[simp] theorem Dev.fusionAbsence_mem (s : Dev) (f k : Nat) : (s.fusionAbsence f k).mem = s.mem := by simp [Dev.fusionAbsence]

/-! ### Encoders -/

@[simp] theorem Dev.masterTurn_mem (s : Dev) (ch : Nat) (rev : Bool) (peak : Nat) : (s.masterTurn ch rev peak).mem = s.mem := by simp [Dev.masterTurn]

@[simp] theorem Dev.turn_mem (s : Dev) (ch : Nat) (rev : Bool) (ext : Nat) : (s.turn ch rev ext).mem = s.mem := by
  unfold Dev.turn
  dsimp only
  repeat' split
  all_goals simp

@[simp] theorem Dev.direction_mem (s : Dev) (ch : Nat) : (s.direction ch).mem = s.mem := by simp [Dev.direction]

@[simp] theorem Dev.moveEnc_mem (s : Dev) (ch : Nat) (n : Int) : (s.moveEnc ch n).mem = s.mem := by simp [Dev.moveEnc]

@[simp] theorem Dev.detect_mem (s : Dev) (ch cause : Nat) (stays : Bool) : (s.detect ch cause stays).mem = s.mem := by simp [Dev.detect]

@[simp] theorem Dev.encoderEdge_mem (s : Dev) (ch : Nat) (kind : EdgeKind) : (s.encoderEdge ch kind).mem = s.mem := by
  unfold Dev.encoderEdge
  split <;> simp

@[simp] theorem Dev.zEdge_mem (s : Dev) (ch : Nat) : (s.zEdge ch).mem = s.mem := by
  unfold Dev.zEdge
  dsimp only
  repeat' split
  all_goals simp

@[simp] theorem Dev.finePhase_mem (s : Dev) (ch phase : Nat) : (s.finePhase ch phase).mem = s.mem := by
  unfold Dev.finePhase
  dsimp only
  repeat' split
  all_goals simp

@[simp] theorem Dev.sincosSample_mem (s : Dev) (ch : Nat) (sine cosine : Int) (phase : Nat) : (s.sincosSample ch sine cosine phase).mem = s.mem :=
  by simp [Dev.sincosSample]

@[simp] theorem Dev.bissCycleStart_mem (s : Dev) (ch : Nat) : (s.bissCycleStart ch).mem = s.mem := by simp [Dev.bissCycleStart]

@[simp] theorem Dev.bissGood_mem (s : Dev) (ch raw : Nat) : (s.bissGood ch raw).mem = s.mem := by
  unfold Dev.bissGood
  dsimp only
  repeat' split
  all_goals simp

@[simp] theorem Dev.bissCycleComplete_mem (s : Dev) (ch raw : Nat) (nE nW : Bool) (crc : Nat) : (s.bissCycleComplete ch raw nE nW crc).mem = s.mem :=
  by simp [Dev.bissCycleComplete]

@[simp] theorem Dev.bissStartBitTimeout_mem (s : Dev) (ch : Nat) : (s.bissStartBitTimeout ch).mem = s.mem := by simp [Dev.bissStartBitTimeout]

@[simp] theorem Dev.encoderSignalLoss_mem (s : Dev) (ch : Nat) (kind : LossKind) : (s.encoderSignalLoss ch kind).mem = s.mem :=
  by simp [Dev.encoderSignalLoss]

@[simp] theorem Dev.cgArm_mem (s : Dev) (g : Nat) : (s.cgArm g).mem = s.mem := by simp [Dev.cgArm]

@[simp] theorem Dev.cgDisarm_mem (s : Dev) (g : Nat) : (s.cgDisarm g).mem = s.mem := by simp [Dev.cgDisarm]

@[simp] theorem Dev.startTriggers_mem (s : Dev) (g at_ : Nat) : (s.startTriggers g at_).mem = s.mem := by simp [Dev.startTriggers]

@[simp] theorem Dev.askUplinks_mem (s : Dev) (g stamp at_ : Nat) : (s.askUplinks g stamp at_).mem = s.mem := by simp [Dev.askUplinks]

@[simp] theorem Dev.wakeLinks_mem (s : Dev) (g : Nat) : (s.wakeLinks g).mem = s.mem := by simp [Dev.wakeLinks]

@[simp] theorem Dev.crossing_mem (s : Dev) (g next : Nat) : (s.crossing g next).mem = s.mem := by simp [Dev.crossing]

@[simp] theorem Dev.triggerDelayExpiry_mem (s : Dev) (t : Nat) : (s.triggerDelayExpiry t).mem = s.mem := by
  unfold Dev.triggerDelayExpiry
  split <;> simp

@[simp] theorem Dev.triggerWidthExpiry_mem (s : Dev) (t : Nat) : (s.triggerWidthExpiry t).mem = s.mem := by simp [Dev.triggerWidthExpiry]

@[simp] theorem Dev.sendTrigger_mem (s : Dev) (m stamp : Nat) (delay due : Nat) : (s.sendTrigger m stamp delay due).mem = s.mem :=
  by simp [Dev.sendTrigger]

@[simp] theorem Dev.uplinkTriggerSend_mem (s : Dev) (m : Nat) : (s.uplinkTriggerSend m).mem = s.mem := by
  unfold Dev.uplinkTriggerSend
  dsimp only
  repeat' split
  all_goals simp

@[simp] theorem Dev.openFault_mem (s : Dev) (ch : Nat) : (s.openFault ch).mem = s.mem := by simp [Dev.openFault]

@[simp] theorem Dev.closeFault_mem (s : Dev) (ch : Nat) : (s.closeFault ch).mem = s.mem := by simp [Dev.closeFault]

@[simp] theorem Dev.resumeGenerators_mem (s : Dev) (src : Option Nat) : (s.resumeGenerators src).mem = s.mem := by simp [Dev.resumeGenerators]

@[simp] theorem Dev.encFaultClear_mem (s : Dev) (ch : Nat) : (s.encFaultClear ch).mem = s.mem := by simp [Dev.encFaultClear]

@[simp] theorem Dev.restartEstimator_mem (s : Dev) : s.restartEstimator.mem = s.mem := by simp [Dev.restartEstimator]

@[simp] theorem Dev.adoptDir_mem (s : Dev) (v : Nat) : (s.adoptDir v).mem = s.mem := by simp [Dev.adoptDir]

/-! ### Trace -/

@[simp] theorem Dev.storeTrace_mem (s : Dev) (e : Nat × TraceRec) : (s.storeTrace e).mem = s.mem := by simp [Dev.storeTrace]

@[simp] theorem Dev.traceCycle_mem (s : Dev) : s.traceCycle.mem = s.mem := by
  unfold Dev.traceCycle
  repeat' split
  all_goals simp

@[simp] theorem Dev.drainTrace_mem (s : Dev) (n : Nat) : (s.drainTrace n).mem = s.mem := iter_mem (fun d => d.traceCycle_mem) _ s

/-! ### FieldIo -/

@[simp] theorem Dev.sendFrame_mem (s : Dev) (kind low : Nat) : (s.sendFrame kind low).mem = s.mem := by simp [Dev.sendFrame]

@[simp] theorem Dev.sendState_mem (s : Dev) (safe : Bool) : (s.sendState safe).mem = s.mem := by simp [Dev.sendState]

@[simp] theorem Dev.sendTick_mem (s : Dev) (e : Tick × Nat) : (s.sendTick e).mem = s.mem := by simp [Dev.sendTick]

@[simp] theorem Dev.sendReg_mem (s : Dev) : s.sendReg.mem = s.mem := by
  unfold Dev.sendReg
  split <;> simp

@[simp] theorem Dev.sendNext_mem (s : Dev) : s.sendNext.mem = s.mem := by
  unfold Dev.sendNext
  repeat' split
  all_goals simp

@[simp] theorem Dev.queueReg_mem (s : Dev) (addr data : Nat) (read : Bool) : (s.queueReg addr data read).mem = s.mem := by simp [Dev.queueReg]

@[simp] theorem Dev.writeFieldConfig_mem (s : Dev) : s.writeFieldConfig.mem = s.mem := by
  have hqueue (v : Dev → Nat → Nat) (a : Nat → Nat) (l : List Nat) (d : Dev) : (l.foldl (fun d n => d.queueReg (a n) (v d n) false) d).mem = d.mem :=
    foldl_mem (fun d n => d.queueReg_mem _ _ _) _ _
  exact (hqueue _ _ _ _).trans ((hqueue _ _ _ _).trans ((queueReg_mem ..).trans (queueReg_mem ..)))

@[simp] theorem Dev.setDie_mem (s : Dev) (e : FieldDie) : (s.setDie e).mem = s.mem := by simp [Dev.setDie]

@[simp] theorem Dev.driveMask_mem (s : Dev) (on off : Nat) : (s.driveMask on off).mem = s.mem := by simp [Dev.driveMask]

@[simp] theorem Dev.driveStopOutput_mem (s : Dev) : s.driveStopOutput.mem = s.mem := by
  unfold Dev.driveStopOutput
  split <;> simp

@[simp] theorem Dev.safeLevels_mem (s : Dev) : s.safeLevels.mem = s.mem := by simp [Dev.safeLevels]

@[simp] theorem Dev.enterSafe_mem (s : Dev) : s.enterSafe.mem = s.mem := by simp [Dev.enterSafe]

@[simp] theorem Dev.leaveSafe_mem (s : Dev) : s.leaveSafe.mem = s.mem := by simp [Dev.leaveSafe]

@[simp] theorem Dev.goodFrame_mem (s : Dev) : s.goodFrame.mem = s.mem := by simp [Dev.goodFrame]

@[simp] theorem Dev.badFrame_mem (s : Dev) : s.badFrame.mem = s.mem := by simp [Dev.badFrame]

@[simp] theorem Dev.takeState_mem (s : Dev) (n : Nat) : (s.takeState n).mem = s.mem := by simp [Dev.takeState]

@[simp] theorem Dev.atDie_mem (s : Dev) (p : Payload) (k : Nat) {f : Dev → Nat → Dev} (hf : ∀ d n, (f d n).mem = d.mem) :
    (s.atDie p k f).mem = s.mem := by
  simp [Dev.atDie, hf]

@[simp] theorem Dev.stateFrame_mem (s : Dev) (p : Payload) : (s.stateFrame p).mem = s.mem := by simp [Dev.stateFrame]

@[simp] theorem Dev.takeTick_mem (s : Dev) (n : Nat) : (s.takeTick n).mem = s.mem := by simp [Dev.takeTick]

@[simp] theorem Dev.tickFrame_mem (s : Dev) (p : Payload) : (s.tickFrame p).mem = s.mem := by simp [Dev.tickFrame]

@[simp] theorem Dev.resettle_mem (s : Dev) : s.resettle.mem = s.mem := by simp [Dev.resettle]

@[simp] theorem Dev.writeInputCfg_mem (s : Dev) (i v : Nat) : (s.writeInputCfg i v).mem = s.mem := by simp [Dev.writeInputCfg]

@[simp] theorem Dev.dieWrite_mem (s : Dev) (a v : Nat) : (s.dieWrite a v).mem = s.mem := by
  unfold Dev.dieWrite
  split <;> simp

@[simp] theorem Dev.takeReg_mem (s : Dev) (n : Nat) : (s.takeReg n).mem = s.mem := by simp [Dev.takeReg]

@[simp] theorem Dev.regFrame_mem (s : Dev) (p : Payload) : (s.regFrame p).mem = s.mem := by simp [Dev.regFrame]

@[simp] theorem Dev.fireEdge_mem (s : Dev) (e : Nat) : (s.fireEdge e).mem = s.mem := by simp [Dev.fireEdge]

@[simp] theorem Dev.safeTimeout_mem (s : Dev) : s.safeTimeout.mem = s.mem := by simp [Dev.safeTimeout]

@[simp] theorem Dev.fieldSupplyLow_mem (s : Dev) : s.fieldSupplyLow.mem = s.mem := by simp [Dev.fieldSupplyLow]

@[simp] theorem Dev.fieldSupplyLoss_mem (s : Dev) : s.fieldSupplyLoss.mem = s.mem := by simp [Dev.fieldSupplyLoss]

@[simp] theorem Dev.resetDieFields_mem (s : Dev) : s.resetDieFields.mem = s.mem := by simp [Dev.resetDieFields]

@[simp] theorem Dev.fieldSupplyReturn_mem (s : Dev) : s.fieldSupplyReturn.mem = s.mem := by simp [Dev.fieldSupplyReturn]

@[simp] theorem Dev.fieldSupplyRestored_mem (s : Dev) : s.fieldSupplyRestored.mem = s.mem := by simp [Dev.fieldSupplyRestored]

@[simp] theorem Dev.inputChange_mem (s : Dev) (i : Nat) (level : Bool) : (s.inputChange i level).mem = s.mem := by simp [Dev.inputChange]

@[simp] theorem Dev.noteBreak_mem (s : Dev) (i : Nat) : (s.noteBreak i).mem = s.mem := by
  unfold Dev.noteBreak
  simp (disch := intros; repeat' split <;> simp)

@[simp] theorem Dev.wireBreak_mem (s : Dev) (i : Nat) : (s.wireBreak i).mem = s.mem := by
  unfold Dev.wireBreak
  dsimp only
  repeat' split
  all_goals simp

@[simp] theorem Dev.wireBreakClear_mem (s : Dev) (i : Nat) (level : Bool) : (s.wireBreakClear i level).mem = s.mem := by simp [Dev.wireBreakClear]

@[simp] theorem Dev.inputMoves_mem (s : Dev) (i : Nat) (level : Bool) : (s.inputMoves i level).mem = s.mem := by simp [Dev.inputMoves]

@[simp] theorem Dev.noteOutput_mem (s : Dev) (o kind : Nat) : (s.noteOutput o kind).mem = s.mem := by simp [Dev.noteOutput]

@[simp] theorem Dev.protect_mem (s : Dev) (o : Nat) : (s.protect o).mem = s.mem := by simp [Dev.protect]

@[simp] theorem Dev.openLoad_mem (s : Dev) (o : Nat) : (s.openLoad o).mem = s.mem := by simp [Dev.openLoad]

@[simp] theorem Dev.groupOvercurrent_mem (s : Dev) (g : Nat) : (s.groupOvercurrent g).mem = s.mem := by simp [Dev.groupOvercurrent]

@[simp] theorem Dev.noteSafe_mem (s : Dev) (safe : Bool) : (s.noteSafe safe).mem = s.mem := by simp [Dev.noteSafe]

@[simp] theorem Dev.noteLate_mem (s : Dev) : s.noteLate.mem = s.mem := by
  unfold Dev.noteLate
  dsimp only
  split
  · simp
  · split
    · exact (foldl_mem (fun d f => d.updPart_mem _ _) _ _).trans (by simp)
    · simp

@[simp] theorem Dev.noteGroup_mem (s : Dev) (g dg : Nat) : (s.noteGroup g dg).mem = s.mem := by simp [Dev.noteGroup]

@[simp] theorem Dev.initialLevel_mem (s : Dev) (l : Nat) (on : Bool) : (s.initialLevel l on).mem = s.mem := by simp [Dev.initialLevel]

@[simp] theorem Dev.noteLevels_mem (s : Dev) (levels : Nat) : (s.noteLevels levels).mem = s.mem := by
  unfold Dev.noteLevels
  dsimp only
  split
  · refine foldl_mem (fun d l => ?_) _ _
    cases d.detectInput l <;> simp
  · simp

@[simp] theorem Dev.noteBreaks_mem (s : Dev) (wb : Nat) : (s.noteBreaks wb).mem = s.mem := by simp [Dev.noteBreaks]

@[simp] theorem Dev.noteFlags_mem (s : Dev) (n : Nat) : (s.noteFlags n).mem = s.mem := by simp [Dev.noteFlags]

@[simp] theorem Dev.dieSends_mem (s : Dev) (read : Bool) : (s.dieSends read).mem = s.mem := by
  unfold Dev.dieSends
  repeat' split
  all_goals simp

@[simp] theorem Dev.countBad_mem (s : Dev) : s.countBad.mem = s.mem := by simp [Dev.countBad]

@[simp] theorem Dev.atLogic_mem (s : Dev) (p : Payload) (k : Nat) {f : Dev → Nat → Dev} (hf : ∀ d n, (f d n).mem = d.mem) :
    (s.atLogic p k f).mem = s.mem := by simp [Dev.atLogic, hf]

@[simp] theorem Dev.takeStatus_mem (s : Dev) (n : Nat) : (s.takeStatus n).mem = s.mem := by simp [Dev.takeStatus]

@[simp] theorem Dev.inboundStatus_mem (s : Dev) (p : Payload) : (s.inboundStatus p).mem = s.mem := by simp [Dev.inboundStatus]

@[simp] theorem Dev.takeRead_mem (s : Dev) (n : Nat) : (s.takeRead n).mem = s.mem := by
  unfold Dev.takeRead
  split <;> simp

@[simp] theorem Dev.inboundRead_mem (s : Dev) (p : Payload) : (s.inboundRead p).mem = s.mem := by simp [Dev.inboundRead]

@[simp] theorem Dev.crcFail_mem (s : Dev) (inbound : Bool) : (s.crcFail inbound).mem = s.mem := by simp [Dev.crcFail]

/-! ### Separator -/

@[simp] theorem Dev.deadlineReached_mem (s : Dev) (id : Nat) : (s.deadlineReached id).mem = s.mem := by
  unfold Dev.deadlineReached
  split <;> simp

@[simp] theorem Dev.partMaxLength_mem (s : Dev) (l stamp : Nat) : (s.partMaxLength l stamp).mem = s.mem := by
  unfold Dev.partMaxLength
  split <;> simp

@[simp] theorem Dev.recipeLoad_mem (s : Dev) (k : Nat) (i : RecipeImage) : (s.recipeLoad k i).mem = s.mem := by simp [Dev.recipeLoad]

@[simp] theorem Dev.commandSwitch_mem (s : Dev) (k pos : Nat) : (s.commandSwitch k pos).mem = s.mem := by simp [Dev.commandSwitch]

@[simp] theorem Dev.recipeSwitch_mem (s : Dev) (port : Port) (k : Nat) : (s.recipeSwitch port k).mem = s.mem := by simp [Dev.recipeSwitch]

@[simp] theorem Dev.sepArmWrite_mem (s : Dev) (port : Port) (v : Bool) : (s.sepArmWrite port v).mem = s.mem := by simp [Dev.sepArmWrite]

@[simp] theorem Dev.releaseStop_mem (s : Dev) : s.releaseStop.mem = s.mem := by simp [Dev.releaseStop]

@[simp] theorem Dev.deliver_mem (s : Dev) (r : VerdictRec) : (s.deliver r).mem = s.mem := by simp [Dev.deliver]

@[simp] theorem Dev.deliverAll_mem (s : Dev) (l : List VerdictRec) : (s.deliverAll l).mem = s.mem := by simp [Dev.deliverAll]

@[simp] theorem Dev.noteStruck_mem (s : Dev) (ofs id : Nat) : (s.noteStruck ofs id).mem = s.mem := by simp [Dev.noteStruck]

@[simp] theorem Dev.losePart_mem (s : Dev) (p : Part) : (s.losePart p).mem = s.mem := by simp [Dev.losePart]

@[simp] theorem Dev.loseFire_mem (s : Dev) (f : Fire) : (s.loseFire f).mem = s.mem := by simp [Dev.loseFire]

@[simp] theorem Dev.strikePart_mem (s : Dev) (ofs : Nat) (p : Part) : (s.strikePart ofs p).mem = s.mem := by simp [Dev.strikePart]

@[simp] theorem Dev.strikeFire_mem (s : Dev) (ofs : Nat) (f : Fire) : (s.strikeFire ofs f).mem = s.mem := by simp [Dev.strikeFire]

@[simp] theorem Dev.strikeFree_mem (s : Dev) (ofs : Nat) : (s.strikeFree ofs).mem = s.mem := by simp [Dev.strikeFree]

/-! ### Time -/

@[simp] theorem Dev.moveUnits_mem (s : Dev) (u : Int) : (s.moveUnits u).mem = s.mem := by simp [Dev.moveUnits]

@[simp] theorem Dev.skipEdges_mem (s : Dev) (t : Nat) : (s.skipEdges t).mem = s.mem := by
  unfold Dev.skipEdges
  split <;> simp

@[simp] theorem Dev.acceptStep_mem (s : Dev) (step : Int) : (s.acceptStep step).mem = s.mem := by simp [Dev.acceptStep]

@[simp] theorem Dev.refuseStep_mem (s : Dev) (step : Int) : (s.refuseStep step).mem = s.mem := by simp [Dev.refuseStep]

@[simp] theorem Dev.clearOverride_mem (s : Dev) : s.clearOverride.mem = s.mem := by simp [Dev.clearOverride]

@[simp] theorem Dev.timeStep_mem (s : Dev) (src : Source) (step : Int) : (s.timeStep src step).mem = s.mem := by simp [Dev.timeStep]

@[simp] theorem Dev.timeRateWrite_mem (s : Dev) (src : Source) (rate : Int) : (s.timeRateWrite src rate).mem = s.mem := by simp [Dev.timeRateWrite]

@[simp] theorem Dev.timNsRead_mem (s : Dev) : s.timNsRead.mem = s.mem := by simp [Dev.timNsRead, Dev.latchWrap]

@[simp] theorem Dev.ethLinkLoss_mem (s : Dev) (p : Nat) : (s.ethLinkLoss p).mem = s.mem := by simp [Dev.ethLinkLoss]

@[simp] theorem Dev.ethLinkUp_mem (s : Dev) (p : Nat) : (s.ethLinkUp p).mem = s.mem := by simp [Dev.ethLinkUp]

@[simp] theorem Dev.pushStampTx_mem (s : Dev) (t : TxStamp) : (s.pushStampTx t).mem = s.mem := by simp [Dev.pushStampTx]

@[simp] theorem Dev.postEvent_mem (s : Dev) (m : PtpMsg) (stamp : Nat) : (s.postEvent m stamp).mem = s.mem := by simp [Dev.postEvent]

@[simp] theorem Dev.reportOffset_mem (s : Dev) (o : Int) : (s.reportOffset o).mem = s.mem := by simp [Dev.reportOffset]

@[simp] theorem Dev.receiveEvent_mem (s : Dev) (m : PtpMsg) (stamp : Nat) : (s.receiveEvent m stamp).mem = s.mem := by
  unfold Dev.receiveEvent
  repeat' split
  all_goals simp

@[simp] theorem Dev.ptpMessage_mem (s : Dev) (m : PtpMsg) : (s.ptpMessage m).mem = s.mem := by simp [Dev.ptpMessage]

@[simp] theorem Dev.ptpGeneralMessage_mem (s : Dev) (m : PtpMsg) (master : Option Nat) : (s.ptpGeneralMessage m master).mem = s.mem := by
  unfold Dev.ptpGeneralMessage
  repeat' split
  all_goals simp

@[simp] theorem Dev.txqPop_mem (s : Dev) (src : Source) : (s.txqPop src).mem = s.mem := by simp [Dev.txqPop]

@[simp] theorem Dev.announceTimeout_mem (s : Dev) : s.announceTimeout.mem = s.mem := by simp [Dev.announceTimeout]

@[simp] theorem Dev.handServo_mem (s : Dev) (v : Bool) : (s.handServo v).mem = s.mem := by simp [Dev.handServo]

@[simp] theorem Dev.servoHandover_mem (s : Dev) (port : Port) (v : Bool) : (s.servoHandover port v).mem = s.mem := by simp [Dev.servoHandover]

@[simp] theorem Dev.startTto_mem (s : Dev) (t : Nat) : (s.startTto t).mem = s.mem := by simp [Dev.startTto]

@[simp] theorem Dev.stopTto_mem (s : Dev) (t : Nat) : (s.stopTto t).mem = s.mem := by simp [Dev.stopTto]

@[simp] theorem Dev.ttoEnable_mem (s : Dev) (port : Port) (t : Nat) : (s.ttoEnable port t).mem = s.mem := by simp [Dev.ttoEnable]

@[simp] theorem Dev.ttoWidthExpiry_mem (s : Dev) (t : Nat) : (s.ttoWidthExpiry t).mem = s.mem := by simp [Dev.ttoWidthExpiry]

/-! ### Herd -/

@[simp] theorem Dev.flushPort_mem (s : Dev) (p : Nat) : (s.flushPort p).mem = s.mem := by simp [Dev.flushPort]

@[simp] theorem Dev.portUp_mem (s : Dev) (p : Nat) : (s.portUp p).mem = s.mem := by simp [Dev.portUp]

@[simp] theorem Dev.clearPort_mem (s : Dev) (p : Nat) : (s.clearPort p).mem = s.mem := by simp [Dev.clearPort]

@[simp] theorem Dev.reroute_mem (s : Dev) (p : Nat) (ring : Bool) : (s.reroute p ring).mem = s.mem := by simp [Dev.reroute]

@[simp] theorem Dev.portDown_mem (s : Dev) (p : Nat) : (s.portDown p).mem = s.mem := by simp [Dev.portDown]

@[simp] theorem Dev.replay_mem (s : Dev) (p n : Nat) : (s.replay p n).mem = s.mem := by simp [Dev.replay]

@[simp] theorem Dev.takeAck_mem (s : Dev) (p ack : Nat) (nak : Bool) : (s.takeAck p ack nak).mem = s.mem := by simp [Dev.takeAck]

@[simp] theorem Dev.takeRxup_mem (s : Dev) (p : Nat) (rxup : Bool) : (s.takeRxup p rxup).mem = s.mem := by simp [Dev.takeRxup]

@[simp] theorem Dev.header_mem (s : Dev) (p : Nat) (h : ZHdr) : (s.header p h).mem = s.mem := by simp [Dev.header]

@[simp] theorem Dev.sendNak_mem (s : Dev) (p : Nat) : (s.sendNak p).mem = s.mem := by simp [Dev.sendNak]

@[simp] theorem Dev.takeSeq_mem (s : Dev) (p seq : Nat) : (s.takeSeq p seq).1.mem = s.mem := by
  unfold Dev.takeSeq
  dsimp only
  repeat' split
  all_goals simp

@[simp] theorem Dev.forward_mem (s : Dev) (p : Nat) (h : ZHdr) (l : ZPayload) : (s.forward p h l).mem = s.mem := by
  unfold Dev.forward
  repeat' split
  all_goals simp

@[simp] theorem Dev.arrive_mem (s : Dev) (p : Nat) (h : ZHdr) (l : ZPayload) {act : Dev → Dev} (hact : ∀ d, (act d).mem = d.mem) :
    (s.arrive p h l act).mem = s.mem := by
  unfold Dev.arrive
  cases l.sequenced <;> simp [hact]

@[simp] theorem Dev.zanyxLinkUp_mem (s : Dev) (p : Nat) : (s.zanyxLinkUp p).mem = s.mem := by
  unfold Dev.zanyxLinkUp
  dsimp only
  repeat' split
  all_goals simp

@[simp] theorem Dev.zanyxNak_mem (s : Dev) (p ack : Nat) : (s.zanyxNak p ack).mem = s.mem := by simp [Dev.zanyxNak]

@[simp] theorem Dev.replayTimeout_mem (s : Dev) (p : Nat) : (s.replayTimeout p).mem = s.mem := by simp [Dev.replayTimeout]

@[simp] theorem Dev.zanyxPortDown_mem (s : Dev) (p : Nat) : (s.zanyxPortDown p).mem = s.mem := by simp [Dev.zanyxPortDown]

@[simp] theorem Dev.zanyxSleep_mem (s : Dev) (p : Nat) : (s.zanyxSleep p).mem = s.mem := by simp [Dev.zanyxSleep]

@[simp] theorem Dev.zanyxWake_mem (s : Dev) (p : Nat) : (s.zanyxWake p).mem = s.mem := by simp [Dev.zanyxWake]

@[simp] theorem Dev.idleFrame_mem (s : Dev) (p : Nat) (h : ZHdr) (slp : Bool) : (s.idleFrame p h slp).mem = s.mem := by simp [Dev.idleFrame]

@[simp] theorem Dev.zanyxBadFrame_mem (s : Dev) (p len : Nat) (crcOk : Bool) : (s.zanyxBadFrame p len crcOk).mem = s.mem := by
  unfold Dev.zanyxBadFrame
  dsimp only
  repeat' split
  all_goals simp

@[simp] theorem Dev.sendPos_mem (s : Dev) (doze : Bool) : (s.sendPos doze).mem = s.mem := by simp [Dev.sendPos]

@[simp] theorem Dev.posSend_mem (s : Dev) : s.posSend.mem = s.mem := by simp [Dev.posSend]

@[simp] theorem Dev.takeLine_mem (s : Dev) (f : PosFrame) : (s.takeLine f).mem = s.mem := by simp [Dev.takeLine]

@[simp] theorem Dev.takePos_mem (s : Dev) (f : PosFrame) : (s.takePos f).mem = s.mem := by simp [Dev.takePos]

@[simp] theorem Dev.posFound_mem (s : Dev) : s.posFound.mem = s.mem := by simp [Dev.posFound]

@[simp] theorem Dev.timeSend_mem (s : Dev) : s.timeSend.mem = s.mem := by simp [Dev.timeSend]

@[simp] theorem Dev.steer_mem (s : Dev) (error : Int) : (s.steer error).mem = s.mem := by simp [Dev.steer]

@[simp] theorem Dev.showError_mem (s : Dev) (error : Int) : (s.showError error).mem = s.mem := by simp [Dev.showError]

@[simp] theorem Dev.timeFrame_mem (s : Dev) (p : Nat) (h : ZHdr) (peer : Nat) (error : Int) : (s.timeFrame p h peer error).mem = s.mem :=
  by simp [Dev.timeFrame]

@[simp] theorem Dev.takeVerd_mem (s : Dev) (l : List VerdictRec) : (s.takeVerd l).mem = s.mem := by simp [Dev.takeVerd]

@[simp] theorem Dev.verd_mem (s : Dev) (p : Nat) (h : ZHdr) (l : List VerdictRec) : (s.verd p h l).mem = s.mem := by simp [Dev.verd]

@[simp] theorem Dev.takeMark_mem (s : Dev) (src : Nat) (f : MarkFrame) : (s.takeMark src f).mem = s.mem := by simp [Dev.takeMark]

@[simp] theorem Dev.markFrame_mem (s : Dev) (p : Nat) (h : ZHdr) (f : MarkFrame) : (s.markFrame p h f).mem = s.mem := by simp [Dev.markFrame]

@[simp] theorem Dev.ownPresence_mem (s : Dev) (pos lane : Nat) (on : Bool) : (s.ownPresence pos lane on).mem = s.mem := by simp [Dev.ownPresence]

@[simp] theorem Dev.remotePresence_mem (s : Dev) (pos lane : Nat) (on : Bool) : (s.remotePresence pos lane on).mem = s.mem :=
  by simp [Dev.remotePresence]

@[simp] theorem Dev.presFrame_mem (s : Dev) (p : Nat) (h : ZHdr) (pos lane : Nat) (on : Bool) : (s.presFrame p h pos lane on).mem = s.mem :=
  by simp [Dev.presFrame]

@[simp] theorem Dev.noteMember_mem (s : Dev) (m p : Nat) (slots : List Nat) : (s.noteMember m p slots).mem = s.mem := by simp [Dev.noteMember]

@[simp] theorem Dev.tellSwitch_mem (s : Dev) (m : Nat) : (s.tellSwitch m).mem = s.mem := by
  unfold Dev.tellSwitch
  dsimp only
  repeat' split
  all_goals simp

@[simp] theorem Dev.enrol_mem (s : Dev) (m : Nat) : (s.enrol m).mem = s.mem := by simp [Dev.enrol]

@[simp] theorem Dev.takeHello_mem (s : Dev) (p : Nat) (f : HelloFrame) : (s.takeHello p f).mem = s.mem := by simp [Dev.takeHello]

@[simp] theorem Dev.hello_mem (s : Dev) (p : Nat) (h : ZHdr) (f : HelloFrame) : (s.hello p h f).mem = s.mem := by simp [Dev.hello]

@[simp] theorem Dev.helloSend_mem (s : Dev) : s.helloSend.mem = s.mem := by simp [Dev.helloSend]

@[simp] theorem Dev.takeSwitchFrame_mem (s : Dev) (k pos : Nat) : (s.takeSwitchFrame k pos).mem = s.mem := by simp [Dev.takeSwitchFrame]

@[simp] theorem Dev.switchFrame_mem (s : Dev) (p : Nat) (h : ZHdr) (k pos : Nat) : (s.switchFrame p h k pos).mem = s.mem := by simp [Dev.switchFrame]

@[simp] theorem Dev.workerLost_mem (s : Dev) (m : Nat) : (s.workerLost m).mem = s.mem := by simp [Dev.workerLost]

/-! ### Maintenance -/

@[simp] theorem Dev.setMnt_mem (s : Dev) (a : Activity) (st : Nat) : (s.setMnt a st).mem = s.mem := by simp [Dev.setMnt]

@[simp] theorem Dev.requestMnt_mem (s : Dev) (a : Activity) : (s.requestMnt a).mem = s.mem := by simp [Dev.requestMnt]

@[simp] theorem Dev.startQueued_mem (s : Dev) : s.startQueued.mem = s.mem := by simp [Dev.startQueued]

@[simp] theorem Dev.endMnt_mem (s : Dev) (a : Activity) (failed : Bool) : (s.endMnt a failed).mem = s.mem := by simp [Dev.endMnt]

/-! ### Jobs -/

@[simp] theorem Dev.queueTailWrite_mem (s : Dev) (source : Source) (q tail : Nat) : (s.queueTailWrite source q tail).mem = s.mem :=
  by simp [Dev.queueTailWrite]

@[simp] theorem Dev.touchArgs_mem (s : Dev) (asid : Nat) (c : Command) : (s.touchArgs asid c).mem = s.mem := by
  unfold Dev.touchArgs
  repeat' split
  all_goals simp

@[simp] theorem Dev.signalCmd_mem (s : Dev) (id : Nat) : (s.signalCmd id).mem = s.mem := by
  unfold Dev.signalCmd
  repeat' split
  all_goals simp

@[simp] theorem Dev.scResetCmd_mem (s : Dev) (id : Nat) : (s.scResetCmd id).mem = s.mem := by
  unfold Dev.scResetCmd
  repeat' split
  all_goals simp

@[simp] theorem Dev.waitCmd_mem (s : Dev) (id : Nat) : (s.waitCmd id).mem = s.mem := by
  unfold Dev.waitCmd
  repeat' split
  all_goals simp

@[simp] theorem Dev.waitSatisfied_mem (s : Dev) (id : Nat) : (s.waitSatisfied id).mem = s.mem := by
  unfold Dev.waitSatisfied
  repeat' split
  all_goals simp

@[simp] theorem Dev.fixSpan_mem (s : Dev) (j : Job) (a b dofs : Nat) : (s.fixSpan j a b dofs).mem = s.mem := by simp [Dev.fixSpan]

@[simp] theorem Dev.finishPieces_mem (s : Dev) (j : Job) : (s.finishPieces j).mem = s.mem := by
  refine foldl_mem (fun d e => ?_) _ _
  cases hst : e.1.st with
  | running n => cases hr : d.resident n <;> simp [hr]
  | _ => rfl

@[simp] theorem Dev.noteSplit_mem (s : Dev) (j : Job) : (s.noteSplit j).mem = s.mem := by simp [Dev.noteSplit]

@[simp] theorem Dev.completeCmd_mem (s : Dev) (j : Job) : (s.completeCmd j).mem = s.mem := by
  unfold Dev.completeCmd
  dsimp only
  repeat' split
  all_goals simp

@[simp] theorem Dev.pieceCmd_mem (s : Dev) (j : Job) (n : Nat) : (s.pieceCmd j n).mem = s.mem := by simp [Dev.pieceCmd]

@[simp] theorem Dev.layerCmd_mem (s : Dev) (id : Nat) : (s.layerCmd id).mem = s.mem := by
  unfold Dev.layerCmd
  repeat' split
  all_goals simp

@[simp] theorem Dev.kernelCmd_mem (s : Dev) (id : Nat) : (s.kernelCmd id).mem = s.mem := by
  unfold Dev.kernelCmd
  repeat' split
  all_goals simp

@[simp] theorem Dev.noteWait_mem (s : Dev) (r : Resident) : (s.noteWait r).mem = s.mem := by
  unfold Dev.noteWait
  split <;> simp

@[simp] theorem Dev.keepPart_mem (s : Dev) (seq i : Nat) (a b : Nat) : (s.keepPart seq i a b).mem = s.mem := by simp [Dev.keepPart]

@[simp] theorem Dev.overrun_mem (s : Dev) (n : Nat) (r : Resident) : (s.overrun n r).mem = s.mem := by simp [Dev.overrun]

@[simp] theorem Dev.jobResult_mem (s : Dev) (n : Nat) : (s.jobResult n).mem = s.mem := by simp [Dev.jobResult]

@[simp] theorem Dev.jobResume_mem (s : Dev) : s.jobResume.mem = s.mem := by
  unfold Dev.jobResume
  split <;> simp

@[simp] theorem Dev.churnClockGate_mem (s : Dev) (n : Nat) : (s.churnClockGate n).mem = s.mem := by simp [Dev.churnClockGate]

@[simp] theorem Dev.churnPowerUpDone_mem (s : Dev) (n : Nat) : (s.churnPowerUpDone n).mem = s.mem := by simp [Dev.churnPowerUpDone]

@[simp] theorem Dev.startChurns_mem (s : Dev) : s.startChurns.mem = s.mem := by simp [Dev.startChurns]

@[simp] theorem Dev.fixedModeWrite_mem (s : Dev) (port : Port) (value : Bool) : (s.fixedModeWrite port value).mem = s.mem :=
  by simp [Dev.fixedModeWrite]

@[simp] theorem Dev.reproModeWrite_mem (s : Dev) (port : Port) (value : Bool) : (s.reproModeWrite port value).mem = s.mem :=
  by simp [Dev.reproModeWrite]

@[simp] theorem Dev.synRdidxLatch_mem (s : Dev) (sc : Nat) : (s.synRdidxLatch sc).mem = s.mem := by simp [Dev.synRdidxLatch]

/-! ### Pipeline -/

@[simp] theorem Dev.updBlock_mem (s : Dev) (c seq : Nat) (f : Block → Block) : (s.updBlock c seq f).mem = s.mem := by simp [Dev.updBlock]

@[simp] theorem Dev.slotDispatch_mem (s : Dev) (p : Nat) : (s.slotDispatch p).mem = s.mem := by
  unfold Dev.slotDispatch
  split <;> simp

@[simp] theorem Dev.slotError_mem (s : Dev) : s.slotError.mem = s.mem := by simp [Dev.slotError]

/-! ### MemoryCmds -/

@[simp] theorem Dev.recordLost_mem (s : Dev) (c a : Nat) : (s.recordLost c a).mem = s.mem := by simp [Dev.recordLost]

theorem Dev.ctxError_mem {s t : Dev} {c a : Nat} (h : s.ctxError c a = some t) : t.mem = s.mem := by
  unfold Dev.ctxError at h
  dsimp only at h
  repeat' split at h
  all_goals simp_all
  all_goals subst h; simp

@[simp] theorem Dev.intakeError_mem (s : Dev) (a : Nat) : (s.intakeError a).mem = s.mem := by
  unfold Dev.intakeError
  split
  · rename_i t ht
    obtain ⟨c, -, hc⟩ := List.exists_of_findSome?_eq_some ht
    exact ctxError_mem hc
  · dsimp only
    split <;> simp

@[simp] theorem Dev.strikeSample_mem (s : Dev) : s.strikeSample.mem = s.mem := by
  unfold Dev.strikeSample
  repeat' split
  all_goals simp

@[simp] theorem Dev.mmuInvalidate_mem (s : Dev) (scope asid : Nat) : (s.mmuInvalidate scope asid).mem = s.mem := by simp [Dev.mmuInvalidate]

@[simp] theorem Dev.invalidateDone_mem (s : Dev) : s.invalidateDone.mem = s.mem := by simp [Dev.invalidateDone]

@[simp] theorem Dev.postAttached_mem (s : Dev) : s.postAttached.mem = s.mem := by
  unfold Dev.postAttached
  repeat' split
  all_goals simp

@[simp] theorem Dev.faultqPop_mem (s : Dev) : s.faultqPop.mem = s.mem := by
  unfold Dev.faultqPop
  split <;> simp

/-! ### Milkhouse -/

@[simp] theorem Dev.scrubAccess_mem (s : Dev) (e : MemEvent) : (s.scrubAccess e).mem = s.mem := by
  unfold Dev.scrubAccess
  repeat' split
  all_goals simp

@[simp] theorem Dev.noteTally_mem (s : Dev) : s.noteTally.mem = s.mem := by simp [Dev.noteTally]

@[simp] theorem Dev.putTally_mem (s : Dev) (k : Nat) (e : TallyEvent) : (s.putTally k e).mem = s.mem := by simp [Dev.putTally]

@[simp] theorem Dev.popTally_mem (s : Dev) : s.popTally.mem = s.mem := by simp [Dev.popTally]

@[simp] theorem Dev.writeEvent_mem (s : Dev) (e : TallyEvent) : (s.writeEvent e).mem = s.mem := by simp [Dev.writeEvent]

@[simp] theorem Dev.tallyWrite_mem (s : Dev) : s.tallyWrite.mem = s.mem := by
  unfold Dev.tallyWrite
  split <;> simp

@[simp] theorem Dev.beginClear_mem (s : Dev) : s.beginClear.mem = s.mem := by simp [Dev.beginClear]

@[simp] theorem Dev.finishClear_mem (s : Dev) : s.finishClear.mem = s.mem := by
  unfold Dev.finishClear
  split <;> simp

@[simp] theorem Dev.tallyClear_mem (s : Dev) (port : Port) : (s.tallyClear port).mem = s.mem := by simp [Dev.tallyClear]

@[simp] theorem Dev.tearClear_mem (s : Dev) : s.tearClear.mem = s.mem := by simp [Dev.tearClear]

@[simp] theorem Dev.voidTorn_mem (s : Dev) : s.voidTorn.mem = s.mem := by simp [Dev.voidTorn]

@[simp] theorem Dev.storeHours_mem (s : Dev) : s.storeHours.mem = s.mem := by simp [Dev.storeHours]

@[simp] theorem Dev.requestEdit_mem (s : Dev) (e : OptionEdit) : (s.requestEdit e).mem = s.mem := by simp [Dev.requestEdit]

@[simp] theorem Dev.storeCount_mem (s : Dev) (n : Nat) : (s.storeCount n).mem = s.mem := by simp [Dev.storeCount]

@[simp] theorem Dev.leaveRecovery_mem (s : Dev) : s.leaveRecovery.mem = s.mem := by simp [Dev.leaveRecovery]

@[simp] theorem Dev.updateDone_mem (s : Dev) : s.updateDone.mem = s.mem := by simp [Dev.updateDone]

@[simp] theorem Dev.rewriteOptions_mem (s : Dev) (e : OptionEdit) : (s.rewriteOptions e).mem = s.mem := by simp [Dev.rewriteOptions]

@[simp] theorem Dev.optionRewrite_mem (s : Dev) : s.optionRewrite.mem = s.mem := by
  unfold Dev.optionRewrite
  split <;> simp

@[simp] theorem Dev.setBank_mem (s : Dev) (k : Nat) (b : List Byte) : (s.setBank k b).mem = s.mem := by simp [Dev.setBank]

@[simp] theorem Dev.takeImage_mem (s : Dev) (b : List Byte) : (s.takeImage b).mem = s.mem := by simp [Dev.takeImage]

@[simp] theorem Dev.bankWrite_mem (s : Dev) (ok : Bool) : (s.bankWrite ok).mem = s.mem := by
  unfold Dev.bankWrite
  split <;> simp

@[simp] theorem Dev.maintenanceRequest_mem (s : Dev) (port : Port) (a : Activity) : (s.maintenanceRequest port a).mem = s.mem :=
  by simp [Dev.maintenanceRequest]

@[simp] theorem Dev.maintenanceDue_mem (s : Dev) (a : Activity) : (s.maintenanceDue a).mem = s.mem := by simp [Dev.maintenanceDue]

@[simp] theorem Dev.maintenanceEnd_mem (s : Dev) (a : Activity) : (s.maintenanceEnd a).mem = s.mem := by
  unfold Dev.maintenanceEnd
  repeat' split
  all_goals simp

@[simp] theorem Dev.selfTestDone_mem (s : Dev) (n : Nat) (pass : Bool) (testStep : Nat) : (s.selfTestDone n pass testStep).mem = s.mem :=
  by simp [Dev.selfTestDone]

@[simp] theorem Dev.fanFailed_mem (s : Dev) (k : Nat) : (s.fanFailed k).mem = s.mem := by simp [Dev.fanFailed]

/-! ### Teach -/

@[simp] theorem Dev.libReserve_mem (s : Dev) (n : Nat) : (s.libReserve n).mem = s.mem := by simp [Dev.libReserve]

@[simp] theorem Dev.decoderFault_mem (s : Dev) (x : XFault) (asid : Nat) : (s.decoderFault x asid).mem = s.mem := by simp [Dev.decoderFault]

@[simp] theorem Dev.runReplay_mem (s : Dev) (k t : Nat) : (s.runReplay k t).mem = s.mem := by simp [Dev.runReplay]

@[simp] theorem Dev.validationStart_mem (s : Dev) (port : Port) (v : Nat) : (s.validationStart port v).mem = s.mem := by simp [Dev.validationStart]

@[simp] theorem Dev.validationComplete_mem (s : Dev) (l : List ValSample) : (s.validationComplete l).mem = s.mem := by
  unfold Dev.validationComplete
  split <;> simp

/-! ### OdApply -/

@[simp] theorem Dev.mirror_mem (s : Dev) (e : OdEntry) (n v : Nat) : (s.mirror e n v).mem = s.mem := by simp [Dev.mirror]

@[simp] theorem Dev.applyRate_mem (s : Dev) (n v : Nat) : (s.applyRate n v).mem = s.mem := by simp [Dev.applyRate]

@[simp] theorem Dev.freshEnc_mem (s : Dev) (ch : Nat) : (s.freshEnc ch).mem = s.mem := by simp [Dev.freshEnc]

@[simp] theorem Dev.applyTrigger_mem (s : Dev) (e : OdEntry) (t sub v : Nat) : (s.applyTrigger e t sub v).mem = s.mem := by simp [Dev.applyTrigger]

@[simp] theorem Dev.applyRule_mem (s : Dev) (e : OdEntry) (r sub v : Nat) : (s.applyRule e r sub v).mem = s.mem := by simp [Dev.applyRule]

@[simp] theorem Dev.applyEthernet_mem (s : Dev) (e : OdEntry) (p sub v : Nat) : (s.applyEthernet e p sub v).mem = s.mem := by simp [Dev.applyEthernet]

@[simp] theorem Dev.applyZanyx_mem (s : Dev) (e : OdEntry) (p sub v : Nat) : (s.applyZanyx e p sub v).mem = s.mem := by simp [Dev.applyZanyx]

@[simp] theorem Dev.applyField_mem (s : Dev) (index sub v : Nat) : (s.applyField index sub v).mem = s.mem := by
  unfold Dev.applyField
  split <;> simp

@[simp] theorem Dev.noteRefused_mem (s : Dev) (c : Nat) (code : Nat × Nat) : (s.noteRefused c code).mem = s.mem := by simp [Dev.noteRefused]

@[simp] theorem Dev.enableCtx_mem (s : Dev) (c : Nat) : (s.enableCtx c).mem = s.mem := by simp [Dev.enableCtx]

@[simp] theorem Dev.tryEnable_mem (s : Dev) (c : Nat) : (s.tryEnable c).mem = s.mem := by simp [Dev.tryEnable]

@[simp] theorem Dev.disableCtx_mem (s : Dev) (c : Nat) : (s.disableCtx c).mem = s.mem := by simp [Dev.disableCtx]

@[simp] theorem Dev.applyPartition_mem (s : Dev) : s.applyPartition.mem = s.mem := by simp [Dev.applyPartition]

@[simp] theorem Dev.applyRole_mem (s : Dev) : s.applyRole.mem = s.mem := by simp [Dev.applyRole]

@[simp] theorem Dev.enableStored_mem (s : Dev) : s.enableStored.mem = s.mem := by simp [Dev.enableStored]

@[simp] theorem Dev.restoreNow_mem (s : Dev) : s.restoreNow.mem = s.mem := by simp [Dev.restoreNow]

@[simp] theorem Dev.loadN_mem (s : Dev) (key : Nat) (x : NvmEntry) : (s.loadN key x).mem = s.mem := by
  unfold Dev.loadN
  split <;> simp

@[simp] theorem Dev.loadNvm_mem (s : Dev) : s.loadNvm.mem = s.mem := by simp [Dev.loadNvm]

/-! ### Power -/

@[simp] theorem Dev.setPower_mem (s : Dev) (p : Power) : (s.setPower p).mem = s.mem := by simp [Dev.setPower]

@[simp] theorem Dev.keepFields_mem (s : Dev) (p : Nat → Bool) : (s.keepFields p).mem = s.mem := by simp [Dev.keepFields]

@[simp] theorem Dev.keepOd_mem (s : Dev) (p : Nat → Bool) : (s.keepOd p).mem = s.mem := by simp [Dev.keepOd]

@[simp] theorem Dev.tearRecord_mem (s : Dev) : s.tearRecord.mem = s.mem := by
  unfold Dev.tearRecord
  split <;> simp

@[simp] theorem Dev.tearOptions_mem (s : Dev) : s.tearOptions.mem = s.mem := by
  unfold Dev.tearOptions
  split <;> simp

@[simp] theorem Dev.tearBank_mem (s : Dev) : s.tearBank.mem = s.mem := by
  unfold Dev.tearBank
  split <;> simp

@[simp] theorem Dev.tear_mem (s : Dev) : s.tear.mem = s.mem := by simp [Dev.tear]

@[simp] theorem Dev.dropWork_mem (s : Dev) : s.dropWork.mem = s.mem := by simp [Dev.dropWork]

@[simp] theorem Dev.coldDie_mem (s : Dev) : s.coldDie.mem = s.mem := by simp [Dev.coldDie]

@[simp] theorem Dev.stopCapture_mem (s : Dev) : s.stopCapture.mem = s.mem := by simp [Dev.stopCapture]

@[simp] theorem Dev.beginStart_mem (s : Dev) (cause stage lowTime : Nat) : (s.beginStart cause stage lowTime).mem = s.mem := by simp [Dev.beginStart]

@[simp] theorem Dev.keepCause_mem (s before : Dev) : (s.keepCause before).mem = s.mem := by simp [Dev.keepCause]

@[simp] theorem Dev.countCycle_mem (s : Dev) : s.countCycle.mem = s.mem := by simp [Dev.countCycle]

@[simp] theorem Dev.vin12Return_mem (s : Dev) : s.vin12Return.mem = s.mem := by simp [Dev.vin12Return]

@[simp] theorem Dev.pcieReset_mem (s : Dev) : s.pcieReset.mem = s.mem := by simp [Dev.pcieReset]

@[simp] theorem Dev.pcieTrain_mem (s : Dev) : s.pcieTrain.mem = s.mem := by simp [Dev.pcieTrain]

@[simp] theorem Dev.quiet_mem (s : Dev) : s.quiet.mem = s.mem := by simp [Dev.quiet]

@[simp] theorem Dev.toReady_mem (s : Dev) : s.toReady.mem = s.mem := by simp [Dev.toReady]

@[simp] theorem Dev.readyEntry_mem (s : Dev) : s.readyEntry.mem = s.mem := by simp [Dev.readyEntry]

@[simp] theorem Dev.dozeEntry_mem (s : Dev) : s.dozeEntry.mem = s.mem := by simp [Dev.dozeEntry]

@[simp] theorem Dev.demand_mem (s : Dev) : s.demand.mem = s.mem := by simp [Dev.demand]

@[simp] theorem Dev.enterRecovery_mem (s : Dev) : s.enterRecovery.mem = s.mem := by simp [Dev.enterRecovery]

@[simp] theorem Dev.toStage_mem (s : Dev) (k : Nat) : (s.toStage k).mem = s.mem := by simp [Dev.toStage]

@[simp] theorem Dev.startStage1_mem (s : Dev) : s.startStage1.mem = s.mem := by
  unfold Dev.startStage1
  split <;> simp

@[simp] theorem Dev.startStage2_mem (s : Dev) (storeFails : Bool) : (s.startStage2 storeFails).mem = s.mem := by simp [Dev.startStage2]

@[simp] theorem Dev.fixOptions_mem (s : Dev) : s.fixOptions.mem = s.mem := by simp [Dev.fixOptions]

@[simp] theorem Dev.noteBank_mem (s : Dev) (k : Nat) : (s.noteBank k).mem = s.mem := by simp [Dev.noteBank]

@[simp] theorem Dev.noteStart_mem (s : Dev) (bank : Nat) : (s.noteStart bank).mem = s.mem := by simp [Dev.noteStart]

@[simp] theorem Dev.runBank_mem (s : Dev) (k : Nat) (trial : Bool) : (s.runBank k trial).mem = s.mem := by simp [Dev.runBank]

@[simp] theorem Dev.selectBank_mem (s : Dev) : s.selectBank.mem = s.mem := by simp [Dev.selectBank]

@[simp] theorem Dev.noteLost_mem (s : Dev) : s.noteLost.mem = s.mem := by
  unfold Dev.noteLost
  split <;> simp

@[simp] theorem Dev.startStage4_mem (s : Dev) : s.startStage4.mem = s.mem := by simp [Dev.startStage4]

@[simp] theorem Dev.reloadSlots_mem (s : Dev) : s.reloadSlots.mem = s.mem := foldl_mem (fun d k => d.setSlot_mem k _) _ _

@[simp] theorem Dev.releaseField_mem (s : Dev) : s.releaseField.mem = s.mem := by simp [Dev.releaseField]

@[simp] theorem Dev.confirm_mem (s : Dev) : s.confirm.mem = s.mem := by simp [Dev.confirm]

@[simp] theorem Dev.startConfirm_mem (s : Dev) (port : Port) : (s.startConfirm port).mem = s.mem := by simp [Dev.startConfirm]

@[simp] theorem Dev.failstartClear_mem (s : Dev) (port : Port) (v : Nat) : (s.failstartClear port v).mem = s.mem := by simp [Dev.failstartClear]

@[simp] theorem Dev.dropQueued_mem (s : Dev) (e : Nat) : (s.dropQueued e).mem = s.mem := iter_mem (fun d => d.countOd_mem _ _ _) _ _

@[simp] theorem Dev.stopActive_mem (s : Dev) : s.stopActive.mem = s.mem := by
  unfold Dev.stopActive
  cases s.slotNow <;> simp

@[simp] theorem Dev.repost_mem (s : Dev) : s.repost.mem = s.mem := by
  unfold Dev.repost
  split <;> simp

@[simp] theorem Dev.abandon_mem (s : Dev) : s.abandon.mem = s.mem := by simp [Dev.abandon]

@[simp] theorem Dev.restoreDefaults_mem (s : Dev) (port : Port) : (s.restoreDefaults port).mem = s.mem := by simp [Dev.restoreDefaults]

@[simp] theorem Dev.readSensors_mem (s : Dev) (x : Sensors) : (s.readSensors x).mem = s.mem := by simp [Dev.readSensors]

@[simp] theorem Dev.setCclk_mem (s : Dev) (khz : Nat) : (s.setCclk khz).mem = s.mem := by
  have hsettled (l : List Nat) (d : Dev) : (l.foldl (fun (d : Dev) n => d.settle n) d).mem = d.mem := foldl_mem (fun d n => d.settle_mem n) _ _
  have hsampled (l : List Nat) (d : Dev) : (l.foldl (fun (d : Dev) q => d.sampleJob q) d).mem = d.mem := foldl_mem (fun d q => d.sampleJob_mem q) _ _
  unfold Dev.setCclk
  dsimp only
  rw [disturb_mem, tally_mem, setFlag_mem, hsampled, hsettled]

@[simp] theorem Dev.setCool_mem (s : Dev) (n : Nat) : (s.setCool n).mem = s.mem := by simp [Dev.setCool]

@[simp] theorem Dev.throttle_mem (s : Dev) : s.throttle.mem = s.mem := by simp [Dev.throttle]

/-! ### OdWrite -/

@[simp] theorem Dev.writeSetting_mem (s : Dev) (c : Nat) {t : Dev} (pp : Bool) (ht : t.mem = s.mem) : (s.writeSetting c t pp).mem = s.mem := by
  simp [Dev.writeSetting, ht]

@[simp] theorem Dev.writeCtx_mem (s : Dev) (index sub : Nat) (e : OdEntry) (v : Nat) : (s.writeCtx index sub e v).mem = s.mem :=
  by simp [Dev.writeCtx]

@[simp] theorem Dev.writeFusion_mem (s : Dev) (f : Nat) {t : Dev} (ht : t.mem = s.mem) : (s.writeFusion f t).mem = s.mem := by
  simp [Dev.writeFusion, ht]

@[simp] theorem Dev.writeFus_mem (s : Dev) (index sub : Nat) (e : OdEntry) (v : Nat) : (s.writeFus index sub e v).mem = s.mem :=
  by simp [Dev.writeFus]

@[simp] theorem Dev.regroup_mem (s : Dev) (n : Nat) (t : Dev) : (s.regroup n t).mem = t.mem := by simp [Dev.regroup]

@[simp] theorem Dev.writeOption_mem (s : Dev) (sub v : Nat) : (s.writeOption sub v).mem = s.mem := by simp [Dev.writeOption]

@[simp] theorem Dev.cameraAccess_mem (s : Dev) (n v : Nat) : (s.cameraAccess n v).mem = s.mem := by simp [Dev.cameraAccess]

@[simp] theorem Dev.writeRelease_mem (s : Dev) (v : Nat) : (s.writeRelease v).mem = s.mem := by simp [Dev.writeRelease]

@[simp] theorem Dev.writeCgArm_mem (s : Dev) (g v : Nat) : (s.writeCgArm g v).mem = s.mem := by simp [Dev.writeCgArm]

@[simp] theorem Dev.writeBank_mem (s : Dev) (c v : Nat) : (s.writeBank c v).mem = s.mem := by simp [Dev.writeBank]

@[simp] theorem Dev.putOd_mem (s : Dev) (index sub : Nat) (v : OdVal) : (s.putOd index sub v).mem = s.mem := by simp [Dev.putOd]

@[simp] theorem Dev.keepValue_mem (s : Dev) (index sub : Nat) (e : OdEntry) (v : OdVal) : (s.keepValue index sub e v).mem = s.mem :=
  by simp [Dev.keepValue]

/-! ### Service -/

@[simp] theorem Dev.hand_mem (s : Dev) (p : Port) (r : DictReq) (x : DictResp) : (s.hand p r x).mem = s.mem := by
  unfold Dev.hand
  split <;> simp

@[simp] theorem Dev.remember_mem (s : Dev) (p : Port) (r : DictReq) (x : DictResp) : (s.remember p r x).mem = s.mem := by simp [Dev.remember]

@[simp] theorem Dev.answer_mem (s : Dev) (p : Port) (r : DictReq) (trx : Nat) (a : Reply) : (s.answer p r trx a).mem = s.mem := by simp [Dev.answer]

@[simp] theorem Dev.readsEntry_mem (s : Dev) (index sub : Nat) (ofs n : Nat) : (s.readsEntry index sub ofs n).mem = s.mem := by simp [Dev.readsEntry]

@[simp] theorem Dev.opRead_mem (s : Dev) (r : DictReq) (e : OdEntry) : (s.opRead r e).1.mem = s.mem := by
  unfold Dev.opRead
  split <;> simp

@[simp] theorem Dev.opReadseg_mem (s : Dev) (r : DictReq) (e : OdEntry) : (s.opReadseg r e).1.mem = s.mem := by
  unfold Dev.opReadseg
  dsimp only
  repeat' split
  all_goals simp

@[simp] theorem Dev.relay_mem (s : Dev) (p : Port) (r : DictReq) (trx q : Nat) : (s.relay p r trx q).mem = s.mem := by simp [Dev.relay]

@[simp] theorem Dev.dropSequence_mem (s : Dev) (index sub : Nat) : (s.dropSequence index sub).mem = s.mem := by simp [Dev.dropSequence]

@[simp] theorem Dev.forget_mem (s : Dev) (src reqid : Nat) : (s.forget src reqid).mem = s.mem := by simp [Dev.forget]

@[simp] theorem Dev.doorbell_mem (s : Dev) : s.doorbell.mem = s.mem := by simp [Dev.doorbell]

/-! ### Registers -/

@[simp] theorem Dev.irqAck_mem (s : Dev) (v : Nat) : (s.irqAck v).mem = s.mem := by simp [Dev.irqAck]

@[simp] theorem Dev.snapCounters_mem (s : Dev) : s.snapCounters.mem = s.mem := by simp [Dev.snapCounters]

@[simp] theorem Dev.snapshot_mem (s : Dev) : s.snapshot.mem = s.mem := by simp [Dev.snapshot]

@[simp] theorem Dev.noteVote_mem (s : Dev) (f : Field) (i : Nat) (lost : Bool) : (s.noteVote f i lost).mem = s.mem := by simp [Dev.noteVote]

@[simp] theorem Dev.vote_mem (s : Dev) (f : Field) (i : Nat) : (s.vote f i).mem = s.mem := by simp [Dev.vote]

@[simp] theorem Dev.voteCheck_mem (s : Dev) : s.voteCheck.mem = s.mem := by simp [Dev.voteCheck]

@[simp] theorem Dev.indNext_mem (s : Dev) : s.indNext.mem = s.mem := by simp [Dev.indNext]

@[simp] theorem Dev.indDieWrite_mem (s : Dev) (a v : Nat) : (s.indDieWrite a v).mem = s.mem := by simp [Dev.indDieWrite]

@[simp] theorem Dev.indDataWrite_mem (s : Dev) (v : Nat) : (s.indDataWrite v).mem = s.mem := by
  unfold Dev.indDataWrite
  split <;> simp

@[simp] theorem Dev.indDieRead_mem (s : Dev) (a : Nat) : (s.indDieRead a).mem = s.mem := by simp [Dev.indDieRead]

@[simp] theorem Dev.indDataRead_mem (s : Dev) : s.indDataRead.mem = s.mem := by
  unfold Dev.indDataRead
  split <;> simp

@[simp] theorem Dev.dropReg_mem (s : Dev) (f : Nat) : (s.dropReg f).mem = s.mem := by simp [Dev.dropReg]

@[simp] theorem Dev.indTimeout_mem (s : Dev) : s.indTimeout.mem = s.mem := by
  unfold Dev.indTimeout
  repeat' split
  all_goals simp

@[simp] theorem Dev.plainWrite_mem (s : Dev) (f : Field) (i x : Nat) : (s.plainWrite f i x).mem = s.mem := by
  unfold Dev.plainWrite
  split <;> simp

@[simp] theorem Dev.ringEnable_mem (s : Dev) (en err : Field) (i x : Nat) (good : Bool) : (s.ringEnable en err i x good).mem = s.mem :=
  by simp [Dev.ringEnable]

@[simp] theorem Dev.proxyCommand_mem (s : Dev) (n op : Nat) : (s.proxyCommand n op).mem = s.mem := by simp [Dev.proxyCommand]

@[simp] theorem Dev.fusEnable_mem (s : Dev) (f x : Nat) : (s.fusEnable f x).mem = s.mem := by simp [Dev.fusEnable]

@[simp] theorem Dev.synCommand_mem (s : Dev) (op sc : Nat) : (s.synCommand op sc).mem = s.mem := by
  unfold Dev.synCommand
  split <;> simp

@[simp] theorem Dev.ttoSwitch_mem (s : Dev) (t x : Nat) : (s.ttoSwitch t x).mem = s.mem := by simp [Dev.ttoSwitch]

@[simp] theorem Dev.stepWord_mem (s : Dev) (src : Source) (sl : Slice) (x : Nat) : (s.stepWord src sl x).mem = s.mem := by simp [Dev.stepWord]

@[simp] theorem Dev.zanyxEnable_mem (s : Dev) (p x : Nat) : (s.zanyxEnable p x).mem = s.mem := by simp [Dev.zanyxEnable]

/-! ### Tick -/

@[simp] theorem Dev.estimate_mem (s : Dev) (pos : Nat) : (s.estimate pos).mem = s.mem := by
  have hwithin := s.estimate_within pos
  generalize s.estimate pos = t at *
  exact (congrArg Dev.mem hwithin.same :)

@[simp] theorem Dev.followTick_mem (s : Dev) (pos : Nat) : (s.followTick pos).mem = s.mem := by simp [Dev.followTick]

@[simp] theorem Dev.markReversed_mem (s : Dev) (pos : Nat) : (s.markReversed pos).mem = s.mem := by simp [Dev.markReversed]

@[simp] theorem Dev.expireParts_mem (s : Dev) : s.expireParts.mem = s.mem := by simp [Dev.expireParts]

end Sys2Proof.Machine

end

section
/-! Memory stays canonical (R157): every operation and every command keeps it so. -/

namespace Sys2Proof.Machine

open Sys2Proof

-- One proof at a time, as in the tests: the compile of the whole text then needs less memory.
set_option Elab.async false

/-- Memory in canonical form that holds bytes at addresses which exist and at no others. -/
def Memory.canonical (m : List Host.Cell) : Prop := Memory.wf m ∧ ∀ e ∈ m, dpaOk e.1 = true

@[simp] theorem Memory.canonical_ite (p : Prop) [Decidable p] (a b : List Host.Cell) :
    canonical (if p then a else b) ↔ if p then canonical a else canonical b := by split <;> rfl

theorem Memory.canonical_branch {p : Prop} [Decidable p] {a b : Dev} (ha : canonical a.mem) (hb : canonical b.mem) :
    canonical (if p then a else b).mem := by
  split <;> assumption

theorem Memory.canonical_filter {m : List Host.Cell} (h : canonical m) (p : Host.Cell → Bool) : canonical (m.filter p) :=
  ⟨⟨tabSorted_filter h.1.1 p, fun e he => h.1.2 e (List.mem_filter.1 he).1⟩, fun e he => h.2 e (List.mem_filter.1 he).1⟩

theorem Memory.canonical_set {m : List Host.Cell} (h : canonical m) {a : Nat} (ha : dpaOk a = true) (b : Byte) :
    canonical (tabSet memUnlisted m a b) := by
  refine ⟨tabWf_set h.1 a b, fun e he => ?_⟩
  unfold tabSet at he
  split at he
  · exact h.2 e (List.mem_filter.1 he).1
  · obtain rfl | he := mem_tabPut he
    · exact ha
    · exact h.2 e he

theorem Dev.foldl_canonical {β : Type} {f : Dev → β → Dev} (hf : ∀ d x, Memory.canonical d.mem → Memory.canonical (f d x).mem) (xs : List β) {s : Dev}
    (h : Memory.canonical s.mem) : Memory.canonical (xs.foldl f s).mem := by
  induction xs generalizing s with
  | nil => exact h
  | cons x xs ih => exact ih (hf s x h)

theorem Dev.iter_canonical {f : Dev → Dev} (hf : ∀ d, Memory.canonical d.mem → Memory.canonical (f d).mem) (n : Nat) {s : Dev}
    (h : Memory.canonical s.mem) : Memory.canonical (iter f n s).mem := by
  induction n generalizing s with
  | zero => exact h
  | succ n ih => exact ih (hf s h)

@[simp] theorem Dev.putByte_canonical {s : Dev} (h : Memory.canonical s.mem) (a : Nat) (b : Byte) : Memory.canonical (s.putByte a b).mem := by
  unfold Dev.putByte
  split
  · exact Memory.canonical_set h ‹_› b
  · exact h

@[simp] theorem Dev.putBytes_canonical {s : Dev} (h : Memory.canonical s.mem) (a : Nat) (bs : List Byte) :
    Memory.canonical (s.putBytes a bs).mem := by
  induction bs generalizing s a with
  | nil => exact h
  | cons b bs ih => exact ih (s.putByte_canonical h a b) _

@[simp] theorem Dev.zeroBytes_canonical {s : Dev} (h : Memory.canonical s.mem) (a n : Nat) : Memory.canonical (s.zeroBytes a n).mem :=
  Memory.canonical_filter h _

@[simp] theorem Dev.keepMem_canonical {s : Dev} (h : Memory.canonical s.mem) (vat lpddr : Bool) : Memory.canonical (s.keepMem vat lpddr).mem :=
  Memory.canonical_filter h _

@[simp] theorem Dev.copyBytes_canonical {s : Dev} (h : Memory.canonical s.mem) (a b n : Nat) : Memory.canonical (s.copyBytes a b n).mem :=
  foldl_canonical (fun _ _ h => putByte_canonical h _ _) _ (zeroBytes_canonical h _ _)

@[simp] theorem Dev.putSpans_canonical {s : Dev} (h : Memory.canonical s.mem) (l : List (Bool × Nat × Nat)) (bs : List Byte) :
    Memory.canonical (s.putSpans l bs).mem := by
  induction l generalizing s bs with
  | nil => exact h
  | cons e l ih =>
    obtain ⟨host, a, n⟩ := e
    refine ih ?_ _
    cases host
    · exact putBytes_canonical h _ _
    · exact h

theorem Dev.vwrite_canonical {s t : Dev} (h : Memory.canonical s.mem) {me : Option Nat} {asid va : Nat} {bs : List Byte} {bad : Option Nat}
    (ht : s.vwrite me asid va bs bad = .ok t) : Memory.canonical t.mem := by
  unfold vwrite at ht
  split at ht
  · split at ht
    · cases ht
      simp [h]
    · cases ht
  · cases ht
  · cases ht

/-- A fold that carries a mask beside the module. -/
theorem Dev.foldl_fst_canonical {β γ : Type} {f : Dev × γ → β → Dev × γ} (hf : ∀ d x, Memory.canonical d.1.mem → Memory.canonical (f d x).1.mem)
    (xs : List β) {s : Dev × γ} (h : Memory.canonical s.1.mem) : Memory.canonical (xs.foldl f s).1.mem := by
  induction xs generalizing s with
  | nil => exact h
  | cons x xs ih => exact ih (hf s x h)

@[simp] theorem Dev.served_canonical {s : Dev} (h : Memory.canonical s.mem) (p : Port) (index sub : Nat) {f : Dev → Dev}
    (hf : Memory.canonical s.mem → Memory.canonical (f s).mem) : Memory.canonical (s.served p index sub f).mem := by
  unfold Dev.served
  repeat' split
  · exact h
  · simp [h]
  · exact hf h

theorem Dev.arrive_canonical {s : Dev} {act : Dev → Dev} (hact : ∀ d, Memory.canonical d.mem → Memory.canonical (act d).mem) (h : Memory.canonical s.mem)
    (p : Nat) (hdr : ZHdr) (l : ZPayload) : Memory.canonical (s.arrive p hdr l act).mem := by
  have hact' {d : Dev} (hd : d.mem = s.mem) : Memory.canonical (act d).mem := hact d (hd ▸ h)
  unfold Dev.arrive
  cases l.sequenced <;> simp [h, hact']

/-! ### Ops -/

@[simp] theorem Dev.leWrite_canonical {s : Dev} (h : Memory.canonical s.mem) (a len v : Nat) : Memory.canonical (s.leWrite a len v).mem :=
  by simp [Dev.leWrite, h]

/-! ### Scheduler -/

@[simp] theorem Dev.writeRecord_canonical {s : Dev} (h : Memory.canonical s.mem) (queue : Nat) (b : List Byte) :
    Memory.canonical (s.writeRecord queue b).mem := by
  unfold Dev.writeRecord
  split
  · simp [h]
  · dsimp only
    split
    · have hd := vwrite_canonical h ‹_›
      split <;> simp [hd]
    · simp [h]

@[simp] theorem Dev.endJob_canonical {s : Dev} (h : Memory.canonical s.mem) (seq status : Nat) (cmdidx icode chn : Nat) :
    Memory.canonical (s.endJob seq status cmdidx icode chn).mem := by
  unfold Dev.endJob
  dsimp only
  repeat' split
  all_goals simp [h]

@[simp] theorem Dev.instrError_canonical {s : Dev} (h : Memory.canonical s.mem) (n code : Nat) : Memory.canonical (s.instrError n code).mem := by
  unfold Dev.instrError
  dsimp only
  repeat' split
  all_goals simp [h]

@[simp] theorem Dev.putTab_canonical {s : Dev} (h : Memory.canonical s.mem) (t : Tab Nat) (base w : Nat) :
    Memory.canonical (s.putTab t base w).mem := by
  unfold Dev.putTab
  exact foldl_canonical (fun d x h => by simp [h]) _ h

@[simp] theorem Dev.putControl_canonical {s : Dev} (h : Memory.canonical s.mem) (base : Nat) : Memory.canonical (s.putControl base).mem := by
  unfold Dev.putControl
  dsimp only
  rw [useFree_mem]
  exact leWrite_canonical h _ _ _

@[simp] theorem Dev.fullSave_canonical {s : Dev} (h : Memory.canonical s.mem) (n base : Nat) : Memory.canonical (s.fullSave n base).mem := by
  have hrf := putTab_canonical (putTab_canonical (copyBytes_canonical (zeroBytes_canonical h base saveSize) (lsOf n) base lsSize) (s.churn n).rf
    (base + 0x200000) 4) (s.churn n).acc (base + 0x400000) 12
  exact leWrite_canonical (putTab_canonical (leWrite_canonical (putControl_canonical hrf _) _ _ _) _ _ _) _ _ _

@[simp] theorem Dev.cheapSave_canonical {s : Dev} (h : Memory.canonical s.mem) (n base : Nat) (ranges : List (Nat × Nat)) :
    Memory.canonical (s.cheapSave n base ranges).mem :=
  putControl_canonical (foldl_canonical (fun _ _ h => putBytes_canonical h _ _) _ h) _

@[simp] theorem Dev.fullRestore_canonical {s : Dev} (h : Memory.canonical s.mem) (n base : Nat) (v : Saved) :
    Memory.canonical (s.fullRestore n base v).mem :=
  by simp [Dev.fullRestore, h]

@[simp] theorem Dev.cheapRestore_canonical {s : Dev} (h : Memory.canonical s.mem) (n base : Nat) (v : Saved) (ranges : List (Nat × Nat)) :
    Memory.canonical (s.cheapRestore n base v ranges).mem := by
  unfold Dev.cheapRestore
  dsimp only
  rw [setChurn_mem]
  exact foldl_canonical (fun _ _ h => putBytes_canonical h _ _) _ (zeroBytes_canonical h _ _)

@[simp] theorem Dev.beginSave_canonical {s : Dev} (h : Memory.canonical s.mem) (n k : Nat) (cheap : Option (List (Nat × Nat))) :
    Memory.canonical (s.beginSave n k cheap).mem := by
  unfold Dev.beginSave
  cases s.resident n with
  | none => exact h
  | some r =>
    dsimp only
    rw [setResident_mem, traceContext_mem]
    exact zeroBytes_canonical (by simp [h]) _ _

/-- What follows once a context stands in its slot: the slot holds it, the Churn is free, and its piece waits there. -/
def Dev.saveDone (s : Dev) (n k : Nat) (r : Resident) (c : Churn) : Dev :=
  let v : Saved := { res := { r with saving := none }, reduced := c.reduced, latch := c.latch, barrier := c.barrier }
  let s := { s with saveSeq := s.saveSeq + 1, saves := tabPut s.saves k v }
  let s := (s.wr .JOB_SLOT_ST_STATE k 2).noteRecovery
  let s := (s.countOd 0x3030 (if r.cheap.isSome then 4 else 3) 64).observe (128 + n)
  let s := s.vacate n
  let s := (s.setPiece r.job r.piece (.saved k)).updJob r.job fun j => { j with preempt := satSucc 16 j.preempt }
  match r.fault with
  | some e => s.attachFault k e
  | none => s

theorem Dev.saveDone_mem (s : Dev) (n k : Nat) (r : Resident) (c : Churn) : (s.saveDone n k r c).mem = s.mem := by
  unfold Dev.saveDone
  dsimp only
  split <;> simp

theorem Dev.finishSave_eq (s : Dev) (n : Nat) : s.finishSave n =
    match s.resident n with
    | none => s
    | some r => match r.saving with
      | none => s
      | some k =>
        let d := match r.cheap with
          | some l => s.cheapSave n (s.saveBase k) l
          | none => s.fullSave n (s.saveBase k)
        (d.leWrite (s.saveBase k + 0x41FFFC) 4 (validWord r.cheap.isSome d.saveSeq)).saveDone n k r (s.churn n) := rfl

@[simp] theorem Dev.finishSave_canonical {s : Dev} (h : Memory.canonical s.mem) (n : Nat) : Memory.canonical (s.finishSave n).mem := by
  rw [finishSave_eq]
  split
  · exact h
  · split
    · exact h
    · rw [saveDone_mem]
      refine leWrite_canonical ?_ _ _ _
      split
      · exact cheapSave_canonical h _ _ _
      · exact fullSave_canonical h _ _

@[simp] theorem Dev.suspendFor_canonical {s : Dev} (h : Memory.canonical s.mem) (n : Nat) (x : XFault) : Memory.canonical (s.suspendFor n x).mem := by
  unfold Dev.suspendFor
  split
  · exact h
  · split
    · exact h
    · dsimp only
      split
      · simp [h]
      · split
        · exact finishSave_canonical (beginSave_canonical (by simp [h]) _ _ _) _
        · exact endJob_canonical (by simp [h]) _ _ _ _ _

@[simp] theorem Dev.suspend_canonical {s : Dev} (h : Memory.canonical s.mem) (n : Nat) (x : XFault) : Memory.canonical (s.suspend n x).mem :=
  by simp [Dev.suspend, h]

@[simp] theorem Dev.fetchCode_canonical {s : Dev} (h : Memory.canonical s.mem) (n : Nat) : Memory.canonical (s.fetchCode n).mem := by
  unfold Dev.fetchCode
  repeat' split
  all_goals simp [h]

@[simp] theorem Dev.startOn_canonical {s : Dev} (h : Memory.canonical s.mem) (n : Nat) (j : Job) (i : Nat) (p : Piece) :
    Memory.canonical (s.startOn n j i p).mem :=
  by simp [Dev.startOn, h]

@[simp] theorem Dev.saveFor_canonical {s : Dev} (h : Memory.canonical s.mem) (n : Nat) (c : Job × Nat × Piece) :
    Memory.canonical (s.saveFor n c).mem := by
  unfold Dev.saveFor
  split <;> simp [h]

@[simp] theorem Dev.preemptFor_canonical {s : Dev} (h : Memory.canonical s.mem) (c : Job × Nat × Piece) : Memory.canonical (s.preemptFor c).mem := by
  unfold Dev.preemptFor
  split <;> simp [h]

@[simp] theorem Dev.expireCheap_canonical {s : Dev} (h : Memory.canonical s.mem) : Memory.canonical s.expireCheap.mem := by
  refine foldl_canonical (fun d n h => ?_) _ h
  repeat' split
  all_goals simp [h]

@[simp] theorem Dev.loseChurn_canonical {s : Dev} (h : Memory.canonical s.mem) (n : Nat) : Memory.canonical (s.loseChurn n).mem :=
  by simp [Dev.loseChurn, h]

@[simp] theorem Dev.recoverWork_canonical {s : Dev} (h : Memory.canonical s.mem) : Memory.canonical s.recoverWork.mem := by
  unfold Dev.recoverWork
  repeat' split
  all_goals simp [h]

@[simp] theorem Dev.resetChurn_canonical {s : Dev} (h : Memory.canonical s.mem) (n cause : Nat) : Memory.canonical (s.resetChurn n cause).mem := by
  unfold Dev.resetChurn
  dsimp only
  repeat' split
  all_goals simp [h]

/-! ### Matrix -/

@[simp] theorem Dev.putElem_canonical {s : Dev} (h : Memory.canonical s.mem) (n base : Nat) (w i v : Nat) :
    Memory.canonical (s.putElem n base w i v).mem :=
  by simp [Dev.putElem, h]

@[simp] theorem Dev.matrixInstruction_canonical {s : Dev} (h : Memory.canonical s.mem) (n : Nat) (op : MatrixOp) :
    Memory.canonical (s.matrixInstruction n op).mem := by
  unfold Dev.matrixInstruction
  repeat' split
  all_goals simp [h]

/-! ### Vector -/

@[simp] theorem Dev.runLanes_canonical {s : Dev} (h : Memory.canonical s.mem) (n : Nat) (op : VectorOp) : Memory.canonical (s.runLanes n op).mem := by
  unfold Dev.runLanes
  dsimp only
  rw [raiseExc_mem]
  refine foldl_canonical (fun d o h => ?_) _ (by simp [h])
  cases o.store with
  | none => exact h
  | some e => exact leWrite_canonical h _ _ _

@[simp] theorem Dev.putElems_canonical {s : Dev} (h : Memory.canonical s.mem) (n base w : Nat) (l : List Nat) :
    Memory.canonical (s.putElems n base w l).mem := by
  unfold Dev.putElems
  exact foldl_canonical (fun d x h => by simp [h]) _ h

@[simp] theorem Dev.convertInstruction_canonical {s : Dev} (h : Memory.canonical s.mem) (n : Nat) (op : ConvertOp) :
    Memory.canonical (s.convertInstruction n op).mem :=
  by simp [Dev.convertInstruction, h]

@[simp] theorem Dev.mxQuantise_canonical {s : Dev} (h : Memory.canonical s.mem) (n : Nat) (op : MxOp) : Memory.canonical (s.mxQuantise n op).mem :=
  by simp [Dev.mxQuantise, h]

@[simp] theorem Dev.putCplx_canonical {s : Dev} (h : Memory.canonical s.mem) (n a : Nat) (wide : Bool) (z : Cplx) :
    Memory.canonical (s.putCplx n a wide z).mem :=
  by simp [Dev.putCplx, h]

@[simp] theorem Dev.putCplxs_canonical {s : Dev} (h : Memory.canonical s.mem) (n : Nat) (op : BflyOp) (l : List Cplx) :
    Memory.canonical (s.putCplxs n op l).mem := by
  unfold Dev.putCplxs
  rw [raiseExc_mem]
  exact foldl_canonical (fun _ _ h => putCplx_canonical h _ _ _ _) _ h

@[simp] theorem Dev.bfly4_canonical {s : Dev} (h : Memory.canonical s.mem) (n : Nat) (op : BflyOp) : Memory.canonical (s.bfly4 n op).mem :=
  by simp [Dev.bfly4, h]

@[simp] theorem Dev.bfly2_canonical {s : Dev} (h : Memory.canonical s.mem) (n : Nat) (op : BflyOp) : Memory.canonical (s.bfly2 n op).mem :=
  by simp [Dev.bfly2, h]

/-! ### Window -/

@[simp] theorem Dev.putOutput_canonical {s : Dev} (h : Memory.canonical s.mem) (n : Nat) (k : Sink) (o y x : Nat) (v : FVal) :
    Memory.canonical (s.putOutput n k o y x v).1.mem :=
  by simp [Dev.putOutput, h]

@[simp] theorem Dev.putMxBlock_canonical {s : Dev} (h : Memory.canonical s.mem) (n : Nat) (k : Sink) (a e y x : Nat) (val : Nat → FVal) :
    Memory.canonical (s.putMxBlock n k a e y x val).1.mem :=
  foldl_fst_canonical (fun _ _ h => putElem_canonical h _ _ _ _ _) _ (s := (s.putByte _ _, 0)) (putByte_canonical h _ _)

@[simp] theorem Dev.putOutputs_canonical {s : Dev} (h : Memory.canonical s.mem) (n : Nat) (k : Sink) (r : OutRange) (val : Nat → Nat → Nat → FVal)
    (fl : Nat) :
    Memory.canonical (s.putOutputs n k r val fl).mem := by
  unfold Dev.putOutputs
  dsimp only
  rw [raiseExc_mem]
  split
  · refine foldl_fst_canonical (fun d j h => ?_) _ h
    refine foldl_fst_canonical (fun d q h => ?_) _ h
    exact putMxBlock_canonical h _ _ _ _ _ _ _
  · refine foldl_fst_canonical (fun d q h => ?_) _ h
    exact putOutput_canonical h _ _ _ _ _ _

@[simp] theorem Dev.convolution_canonical {s : Dev} (h : Memory.canonical s.mem) (n : Nat) (op : WindowOp) :
    Memory.canonical (s.convolution n op).mem := by
  unfold Dev.convolution
  dsimp only
  repeat' split
  · exact instrError_canonical (by simp [h]) _ _
  · exact instrError_canonical h _ _
  · exact instrError_canonical h _ _
  · exact putOutputs_canonical (by simp [h]) _ _ _ _ _

@[simp] theorem Dev.pooling_canonical {s : Dev} (h : Memory.canonical s.mem) (n : Nat) (op : WindowOp) : Memory.canonical (s.pooling n op).mem :=
  by simp [Dev.pooling, h]

/-! ### Augment -/

@[simp] theorem Dev.putSample_canonical {s : Dev} (h : Memory.canonical s.mem) (n : Nat) (a : AugOp) (v : AugImage) :
    Memory.canonical (s.putSample n a v).mem := by
  unfold Dev.putSample
  split
  · exact putOutputs_canonical h _ _ _ _ _
  · exact foldl_canonical (fun _ _ h => putElem_canonical h _ _ _ _ _) _ h

@[simp] theorem Dev.augment_canonical {s : Dev} (h : Memory.canonical s.mem) (n : Nat) (a : AugOp) : Memory.canonical (s.augment n a).mem := by
  unfold Dev.augment
  dsimp only
  split
  · exact instrError_canonical h _ _
  · refine foldl_canonical (fun d i h => ?_) _ h
    split
    · exact h
    · exact putSample_canonical h _ _ _

@[simp] theorem Dev.vectorInstruction_canonical {s : Dev} (h : Memory.canonical s.mem) (n : Nat) (op : VectorOp) :
    Memory.canonical (s.vectorInstruction n op).mem := by
  unfold Dev.vectorInstruction
  repeat' split
  all_goals simp [h]

/-! ### Dma -/

@[simp] theorem Dev.moveRow_canonical {s : Dev} (h : Memory.canonical s.mem) (n : Nat) (op : DmaOp) (l : List (Bool × Nat × Nat)) : Memory.canonical
    (s.moveRow n op l).mem :=
  by simp [Dev.moveRow, h]

@[simp] theorem Dev.dmaTransfer_canonical {s : Dev} (h : Memory.canonical s.mem) (n : Nat) (op : DmaOp) (event : MemEvent) :
    Memory.canonical (s.dmaTransfer n op event).mem := by
  unfold Dev.dmaTransfer
  dsimp only
  repeat' split
  all_goals simp [h]

/-! ### Fires -/

@[simp] theorem Dev.logVerdict_canonical {s : Dev} (h : Memory.canonical s.mem) (p : Part) : Memory.canonical (s.logVerdict p).mem :=
  by simp [Dev.logVerdict, h]

@[simp] theorem Dev.leavePart_canonical {s : Dev} (h : Memory.canonical s.mem) (p : Part) : Memory.canonical (s.leavePart p).mem :=
  by simp [Dev.leavePart, h]

/-! ### Capture -/

@[simp] theorem Dev.captureBlock_canonical {s : Dev} (h : Memory.canonical s.mem) (c : Nat) (b : Block) (record : List Byte) :
    Memory.canonical (s.captureBlock c b record).mem := by
  unfold Dev.captureBlock
  dsimp only
  repeat' split
  all_goals simp [h]

@[simp] theorem Dev.storeSample_canonical {s : Dev} (h : Memory.canonical s.mem) (r c : Nat) (p : Part) (cs : List RingCopy) :
    Memory.canonical (s.storeSample r c p cs).mem := by
  unfold Dev.storeSample
  dsimp only
  split
  · simp [h]
  · rw [count_mem, wr_mem, useCap_mem]
    exact putBytes_canonical (putBytes_canonical (by rwa [setRule_mem]) _ _) _ _

@[simp] theorem Dev.takeSample_canonical {s : Dev} (h : Memory.canonical s.mem) (r : Nat) (p : Part) : Memory.canonical (s.takeSample r p).mem :=
  by simp [Dev.takeSample, h]

@[simp] theorem Dev.capturePart_canonical {s : Dev} (h : Memory.canonical s.mem) (p : Part) : Memory.canonical (s.capturePart p).mem := by
  refine foldl_canonical (fun d r h => ?_) _ h
  dsimp only
  repeat' split
  · exact h
  · simp [h]
  · exact takeSample_canonical (by simp [h]) _ _

/-! ### Blocks -/

@[simp] theorem Dev.writeSlot_canonical {s : Dev} (h : Memory.canonical s.mem) (b : Block) (stripe a e : Nat) :
    Memory.canonical (s.writeSlot b stripe a e).mem := by
  unfold Dev.writeSlot
  split
  · exact h
  · exact foldl_canonical (fun _ _ h => leWrite_canonical h _ _ _) _ h

@[simp] theorem Dev.writeStats_canonical {s : Dev} (h : Memory.canonical s.mem) (c : Nat) (b : Block) : Memory.canonical (s.writeStats c b).mem := by
  unfold Dev.writeStats
  exact foldl_canonical (fun d x h => by simp [h]) _ h

@[simp] theorem Dev.completeBlock_canonical {s : Dev} (h : Memory.canonical s.mem) (c : Nat) (b : Block) :
    Memory.canonical (s.completeBlock c b).mem :=
  by simp (disch := simp [h]) [Dev.completeBlock]

@[simp] theorem Dev.finishHead_canonical {s : Dev} (h : Memory.canonical s.mem) (c : Nat) : Memory.canonical (s.finishHead c).mem := by
  unfold Dev.finishHead
  cases (s.ctx c).closing with
  | nil => exact h
  | cons b l =>
    dsimp only
    split
    · exact completeBlock_canonical (by simp [h]) _ _
    · exact h

@[simp] theorem Dev.finishBlocks_canonical {s : Dev} (h : Memory.canonical s.mem) (c : Nat) : Memory.canonical (s.finishBlocks c).mem :=
  iter_canonical (fun _ h => finishHead_canonical h c) _ h

/-! ### Intake -/

@[simp] theorem Dev.closeBlock_canonical {s : Dev} (h : Memory.canonical s.mem) (c fin : Nat) (broken : Bool) :
    Memory.canonical (s.closeBlock c fin broken).mem := by
  unfold Dev.closeBlock
  dsimp only
  repeat' split
  all_goals simp [h]

@[simp] theorem Dev.closeBroken_canonical {s : Dev} (h : Memory.canonical s.mem) (c start : Nat) : Memory.canonical (s.closeBroken c start).mem := by
  unfold Dev.closeBroken
  split <;> simp [h]

@[simp] theorem Dev.breakBlock_canonical {s : Dev} (h : Memory.canonical s.mem) (c start : Nat) : Memory.canonical (s.breakBlock c start).mem :=
  by simp [Dev.breakBlock, h]

@[simp] theorem Dev.resync_canonical {s : Dev} (h : Memory.canonical s.mem) (c : Nat) : Memory.canonical (s.resync c).mem := by simp [Dev.resync, h]

@[simp] theorem Dev.pushStamp_canonical {s : Dev} (h : Memory.canonical s.mem) (c pos time : Nat) : Memory.canonical (s.pushStamp c pos time).mem :=
  by simp [Dev.pushStamp, h]

@[simp] theorem Dev.writeLine_canonical {s : Dev} (h : Memory.canonical s.mem) (c al : Nat) (odd : Bool) (samples : List Nat) :
    Memory.canonical (s.writeLine c al odd samples).mem := by
  unfold Dev.writeLine
  dsimp only
  split
  · simp [h]
  · split
    · split
      · simp [h]
      · exact closeBlock_canonical (by simp [h]) _ _ _
    · split
      · simp [h]
      · exact closeBlock_canonical (by simp [h]) _ _ _

@[simp] theorem Dev.placeLine_canonical {s : Dev} (h : Memory.canonical s.mem) (c stamp : Nat) (odd : Bool) (samples : List Nat) :
    Memory.canonical (s.placeLine c stamp odd samples).mem :=
  by simp [Dev.placeLine, h]

@[simp] theorem Dev.lineArrives_canonical {s : Dev} (h : Memory.canonical s.mem) (c : Nat) (samples : List Nat) :
    Memory.canonical (s.lineArrives c samples).mem := by
  unfold Dev.lineArrives
  obtain ⟨stale, taken⟩ := s.takeStamp c
  dsimp only
  cases taken with
  | none =>
    dsimp only
    split
    · exact breakBlock_canonical (by simp [h]) _ _
    · simp [h]
  | some p =>
    dsimp only
    split
    · refine placeLine_canonical ?_ _ _ _ _
      rw [closeGap_mem, openGap_mem]
      exact closeBroken_canonical (by simp [h]) _ _
    · exact placeLine_canonical (by simp [h]) _ _ _ _

@[simp] theorem Dev.packetIn_canonical {s : Dev} (h : Memory.canonical s.mem) (c : Nat) (crcOk : Bool) (content : StreamContent) :
    Memory.canonical (s.packetIn c crcOk content).mem := by
  unfold Dev.packetIn
  split <;> simp [h]

@[simp] theorem Dev.streamPacket_canonical {s : Dev} (h : Memory.canonical s.mem) (link stream : Nat) (crcOk : Bool) (content : StreamContent) :
    Memory.canonical (s.streamPacket link stream crcOk content).mem := by
  have hlink : Memory.canonical (if crcOk then s.setLink link { s.link link with asleep := false } else
      (s.setLink link { s.link link with asleep := false }).setFlag .CXP_LNK_STAT_CRCERR link true).mem := by simp [h]
  unfold Dev.streamPacket
  dsimp only
  split
  · exact h
  · split
    · simpa using hlink
    · exact packetIn_canonical hlink _ _ _

@[simp] theorem Dev.stopTimeout_canonical {s : Dev} (h : Memory.canonical s.mem) (c : Nat) : Memory.canonical (s.stopTimeout c).mem :=
  by simp [Dev.stopTimeout, h]

/-! ### Encoders -/

@[simp] theorem Dev.issueHit_canonical {s : Dev} (h : Memory.canonical s.mem) (g stamp at_ : Nat) :
    Memory.canonical (s.issueHit g stamp at_).mem := by
  unfold Dev.issueHit
  dsimp only
  rw [askUplinks_mem]
  exact foldl_canonical (fun d c h => pushStamp_canonical h c _ _) _ (by simp [h])

@[simp] theorem Dev.offerHit_canonical {s : Dev} (h : Memory.canonical s.mem) (g stamp : Nat) : Memory.canonical (s.offerHit g stamp).mem := by
  unfold Dev.offerHit
  dsimp only
  split
  · exact issueHit_canonical (by simp [h]) _ _ _
  · split
    · simp [h]
    · simp [h]

@[simp] theorem Dev.compareHit_canonical {s : Dev} (h : Memory.canonical s.mem) (g : Nat) : Memory.canonical (s.compareHit g).mem := by
  unfold Dev.compareHit
  repeat' split
  all_goals simp [h]

theorem Dev.drainHits_succ (s : Dev) (g n : Nat) : s.drainHits g (n + 1) =
    match (s.gen g).queue with
    | h :: t => if (s.gen g).free ≤ s.xclk then
        ((s.setGen g { s.gen g with queue := t, free := (s.gen g).free + 2 }).issueHit g h (s.gen g).free).drainHits g n
      else s
    | [] => s := rfl

@[simp] theorem Dev.drainHits_canonical {s : Dev} (h : Memory.canonical s.mem) (g n : Nat) : Memory.canonical (s.drainHits g n).mem := by
  induction n generalizing s with
  | zero => exact h
  | succ n ih =>
    rw [drainHits_succ]
    split
    · split
      · exact ih (issueHit_canonical (by simp [h]) _ _ _)
      · exact h
    · exact h

@[simp] theorem Dev.passedHits_canonical {s : Dev} (h : Memory.canonical s.mem) (g at_ n : Nat) : Memory.canonical (s.passedHits g at_ n).mem := by
  induction n generalizing s at_ with
  | zero => exact h
  | succ n ih =>
    rw [passedHits_succ]
    split
    · split
      · exact ih (by simp [h]) _
      · exact h
    · exact h

@[simp] theorem Dev.issuePassed_canonical {s : Dev} (h : Memory.canonical s.mem) : Memory.canonical s.issuePassed.mem := by
  unfold Dev.issuePassed
  exact foldl_canonical (fun d x h => by simp [h]) _ h

@[simp] theorem Dev.xclkStart_canonical {s : Dev} (h : Memory.canonical s.mem) : Memory.canonical s.xclkStart.mem := by simp [Dev.xclkStart, h]

@[simp] theorem Dev.clockMaster_canonical {s : Dev} (h : Memory.canonical s.mem) : Memory.canonical s.clockMaster.mem := by simp [Dev.clockMaster, h]

@[simp] theorem Dev.stopGenerators_canonical {s : Dev} (h : Memory.canonical s.mem) (src : Option Nat) :
    Memory.canonical (s.stopGenerators src).mem := by
  refine foldl_canonical (fun d g h => ?_) _ h
  split
  · exact foldl_canonical (fun d c h => resync_canonical h c) _ (by simp [h])
  · exact h

@[simp] theorem Dev.encoderFault_canonical {s : Dev} (h : Memory.canonical s.mem) (ch : Nat) : Memory.canonical (s.encoderFault ch).mem :=
  by simp [Dev.encoderFault, h]

@[simp] theorem Dev.takeMaster_canonical {s : Dev} (h : Memory.canonical s.mem) (v : Nat) : Memory.canonical (s.takeMaster v).mem :=
  by simp [Dev.takeMaster, h]

@[simp] theorem Dev.lineMasterChange_canonical {s : Dev} (h : Memory.canonical s.mem) (port : Port) (v : Nat) :
    Memory.canonical (s.lineMasterChange port v).mem :=
  by simp [Dev.lineMasterChange, h]

/-! ### Clock -/

@[simp] theorem Dev.drainAll_canonical {s : Dev} (h : Memory.canonical s.mem) : Memory.canonical s.drainAll.mem := by
  unfold Dev.drainAll
  exact foldl_canonical (fun d x h => by simp [h]) _ h

@[simp] theorem Dev.advance_canonical {s : Dev} (h : Memory.canonical s.mem) (n : Nat) : Memory.canonical (s.advance n).mem :=
  by simp [Dev.advance, h]

@[simp] theorem Dev.advanceTo_canonical {s : Dev} (h : Memory.canonical s.mem) (m last : Nat) : Memory.canonical (s.advanceTo m last).mem :=
  by simp [Dev.advanceTo, h]

/-! ### FieldIo -/

@[simp] theorem Dev.frameSlot_canonical {s : Dev} (h : Memory.canonical s.mem) : Memory.canonical s.frameSlot.mem := by simp [Dev.frameSlot, h]

@[simp] theorem Dev.safeBurst_canonical {s : Dev} (h : Memory.canonical s.mem) : Memory.canonical s.safeBurst.mem :=
  iter_canonical (fun d h => by rw [sendState_mem]; exact frameSlot_canonical h) _ h

@[simp] theorem Dev.outboundFrameSlot_canonical {s : Dev} (h : Memory.canonical s.mem) : Memory.canonical s.outboundFrameSlot.mem :=
  by simp [Dev.outboundFrameSlot, h]

@[simp] theorem Dev.timerTo_canonical {s : Dev} (h : Memory.canonical s.mem) (e : Nat) : Memory.canonical (s.timerTo e).mem :=
  by simp [Dev.timerTo, h]

@[simp] theorem Dev.tickEdge_canonical {s : Dev} (h : Memory.canonical s.mem) : Memory.canonical s.tickEdge.mem := by
  unfold Dev.tickEdge
  split <;> simp [h]

/-! ### Separator -/

@[simp] theorem Dev.strikeLog_canonical {s : Dev} (h : Memory.canonical s.mem) (i : Nat) : Memory.canonical (s.strikeLog i).mem :=
  by simp [Dev.strikeLog, h]

@[simp] theorem Dev.strikeAt_canonical {s : Dev} (h : Memory.canonical s.mem) (ofs : Nat) : Memory.canonical (s.strikeAt ofs).mem := by
  unfold Dev.strikeAt
  repeat' split
  all_goals simp [h]

@[simp] theorem Dev.strikeBlock_canonical {s : Dev} (h : Memory.canonical s.mem) (ofs : Nat) : Memory.canonical (s.strikeBlock ofs).mem := by
  unfold Dev.strikeBlock
  exact foldl_canonical (fun d x h => by simp [h]) _ h

@[simp] theorem Dev.separatorMemoryError_canonical {s : Dev} (h : Memory.canonical s.mem) (what : SepStrike) :
    Memory.canonical (s.separatorMemoryError what).mem := by
  unfold Dev.separatorMemoryError
  repeat' split
  all_goals simp [h]

/-! ### Time -/

@[simp] theorem Dev.reachNs_canonical {s : Dev} (h : Memory.canonical s.mem) (e : Nat) : Memory.canonical (s.reachNs e).mem :=
  by simp [Dev.reachNs, h]

@[simp] theorem Dev.ttoEdge_canonical {s : Dev} (h : Memory.canonical s.mem) (t : Nat) : Memory.canonical (s.ttoEdge t).mem := by
  unfold Dev.ttoEdge
  split <;> simp [h]

/-! ### Herd -/

@[simp] theorem Dev.followPos_canonical {s : Dev} (h : Memory.canonical s.mem) (f : PosFrame) : Memory.canonical (s.followPos f).mem :=
  by simp [Dev.followPos, h]

@[simp] theorem Dev.pos_canonical {s : Dev} (h : Memory.canonical s.mem) (p : Nat) (hdr : ZHdr) (f : PosFrame) :
    Memory.canonical (s.pos p hdr f).mem := by
  unfold Dev.pos
  split
  · exact arrive_canonical (fun _ h => h) h _ _ _
  · refine arrive_canonical (fun d h => ?_) h _ _ _
    split
    · exact followPos_canonical (s := { d with herd := { d.herd with seen := some f.bseq } }) h _
    · exact h

@[simp] theorem Dev.poslost_canonical {s : Dev} (h : Memory.canonical s.mem) : Memory.canonical s.poslost.mem := by simp [Dev.poslost, h]

@[simp] theorem Dev.writePart_canonical {s : Dev} (h : Memory.canonical s.mem) (f : PartFrame) : Memory.canonical (s.writePart f).mem :=
  by simp [Dev.writePart, h]

@[simp] theorem Dev.partFrame_canonical {s : Dev} (h : Memory.canonical s.mem) (p : Nat) (hdr : ZHdr) (f : PartFrame) :
    Memory.canonical (s.partFrame p hdr f).mem :=
  arrive_canonical (fun _ h => writePart_canonical h _) h _ _ _

@[simp] theorem Dev.takeBulk_canonical {s : Dev} (h : Memory.canonical s.mem) (p dpa sc : Nat) (sig : Bool) (block : List Byte) :
    Memory.canonical (s.takeBulk p dpa sc sig block).mem :=
  by simp [Dev.takeBulk, h]

@[simp] theorem Dev.bulkFrame_canonical {s : Dev} (h : Memory.canonical s.mem) (p : Nat) (hdr : ZHdr) (dpa sc : Nat) (sig : Bool)
    (block : List Byte) :
    Memory.canonical (s.bulkFrame p hdr dpa sc sig block).mem :=
  arrive_canonical (fun _ h => takeBulk_canonical h _ _ _ _ _) h _ _ _

/-! ### Jobs -/

@[simp] theorem Dev.refuseJob_canonical {s : Dev} (h : Memory.canonical s.mem) (q id : Nat) (cmdidx rcode wcode : Nat) :
    Memory.canonical (s.refuseJob q id cmdidx rcode wcode).mem :=
  by simp [Dev.refuseJob, h]

@[simp] theorem Dev.takeDescriptor_canonical {s : Dev} (h : Memory.canonical s.mem) (q asid va : Nat) :
    Memory.canonical (s.takeDescriptor q asid va).mem := by
  unfold Dev.takeDescriptor
  dsimp only
  repeat' split
  all_goals simp [h]

@[simp] theorem Dev.takeEntry_canonical {s : Dev} (h : Memory.canonical s.mem) (q : Nat) : Memory.canonical (s.takeEntry q).mem := by
  unfold Dev.takeEntry
  dsimp only
  repeat' split
  all_goals simp [h]

@[simp] theorem Dev.jobAdmit_canonical {s : Dev} (h : Memory.canonical s.mem) : Memory.canonical s.jobAdmit.mem := by
  unfold Dev.jobAdmit
  repeat' split
  all_goals simp [h]

@[simp] theorem Dev.spanCmd_canonical {s : Dev} (h : Memory.canonical s.mem) (id : Nat) : Memory.canonical (s.spanCmd id).mem := by
  unfold Dev.spanCmd
  repeat' split
  all_goals simp [h]

@[simp] theorem Dev.abortNow_canonical {s : Dev} (h : Memory.canonical s.mem) (seq : Nat) : Memory.canonical (s.abortNow seq).mem :=
  by simp [Dev.abortNow, h]

@[simp] theorem Dev.vcommit_canonical {s : Dev} (h : Memory.canonical s.mem) (id : Nat) : Memory.canonical (s.vcommit id).mem := by
  unfold Dev.vcommit
  repeat' split
  all_goals simp [h]

@[simp] theorem Dev.iterationEnd_canonical {s : Dev} (h : Memory.canonical s.mem) (id : Nat) : Memory.canonical (s.iterationEnd id).mem := by
  unfold Dev.iterationEnd
  split <;> simp [h]

@[simp] theorem Dev.dispatchFixed_canonical {s : Dev} (h : Memory.canonical s.mem) : Memory.canonical s.dispatchFixed.mem := by
  unfold Dev.dispatchFixed
  dsimp only
  repeat' split
  all_goals simp [h]

@[simp] theorem Dev.dispatchOn_canonical {s : Dev} (h : Memory.canonical s.mem) (n : Nat) (c : Job × Nat × Piece) :
    Memory.canonical (s.dispatchOn n c).mem :=
  by simp [Dev.dispatchOn, h]

@[simp] theorem Dev.pieceDispatch_canonical {s : Dev} (h : Memory.canonical s.mem) : Memory.canonical s.pieceDispatch.mem := by
  unfold Dev.pieceDispatch
  dsimp only
  repeat' split
  all_goals simp (disch := simp [h]) [h]

@[simp] theorem Dev.takeover_canonical {s : Dev} (h : Memory.canonical s.mem) (t v k0 k1 : Nat) (pair : OpFmt × OpFmt) :
    Memory.canonical (s.takeover t v k0 k1 pair).mem := by
  have hstart (d : Dev) (q : Nat) (p : Piece) (hd : Memory.canonical d.mem) : Memory.canonical (match d.job? q with
      | some j => d.startOn t j (j.pieces.length - 1) p
      | none => d).mem := by
    split
    · exact startOn_canonical hd _ _ _ _
    · exact hd
  unfold Dev.takeover
  split
  · split
    · exact h
    · dsimp only
      exact Memory.canonical_branch h (hstart _ _ _ (by simp [h]))
  · exact h

@[simp] theorem Dev.sliceEnd_canonical {s : Dev} (h : Memory.canonical s.mem) (n : Nat) : Memory.canonical (s.sliceEnd n).mem := by
  unfold Dev.sliceEnd
  split
  · exact h
  · split
    · exact h
    · dsimp only
      repeat' split
      · exact h
      · simp [h]
      · exact saveFor_canonical (by simp [h]) _ _
      · simp [h]

@[simp] theorem Dev.cheapPointReached_canonical {s : Dev} (h : Memory.canonical s.mem) (n : Nat) (ranges : List (Nat × Nat)) :
    Memory.canonical (s.cheapPointReached n ranges).mem := by
  unfold Dev.cheapPointReached
  repeat' split
  all_goals simp [h]

@[simp] theorem Dev.badSlot_canonical {s : Dev} (h : Memory.canonical s.mem) (n k : Nat) (r : Resident) : Memory.canonical (s.badSlot n k r).mem :=
  by simp [Dev.badSlot, h]

@[simp] theorem Dev.saveComplete_canonical {s : Dev} (h : Memory.canonical s.mem) (n : Nat) (fails : Bool) :
    Memory.canonical (s.saveComplete n fails).mem := by
  unfold Dev.saveComplete
  repeat' split
  all_goals simp [h]

@[simp] theorem Dev.readBack_canonical {s : Dev} (h : Memory.canonical s.mem) (n k : Nat) (r : Resident) :
    Memory.canonical (s.readBack n k r).mem := by
  unfold Dev.readBack
  repeat' split
  all_goals simp [h]

@[simp] theorem Dev.restoreComplete_canonical {s : Dev} (h : Memory.canonical s.mem) (n : Nat) (fails : Bool) :
    Memory.canonical (s.restoreComplete n fails).mem := by
  unfold Dev.restoreComplete
  repeat' split
  all_goals simp [h]

@[simp] theorem Dev.jobAbort_canonical {s : Dev} (h : Memory.canonical s.mem) : Memory.canonical s.jobAbort.mem := by
  unfold Dev.jobAbort
  split <;> simp [h]

@[simp] theorem Dev.jobStop_canonical {s : Dev} (h : Memory.canonical s.mem) : Memory.canonical s.jobStop.mem := by
  unfold Dev.jobStop
  cases s.named with
  | none => simp [h]
  | some j =>
    dsimp only
    rw [jobResult_mem]
    split
    · simp [h]
    · exact endJob_canonical (by simp [h]) _ _ _ _ _

@[simp] theorem Dev.sequencerHang_canonical {s : Dev} (h : Memory.canonical s.mem) (n : Nat) : Memory.canonical (s.sequencerHang n).mem :=
  by simp [Dev.sequencerHang, h]

@[simp] theorem Dev.churnPowerGate_canonical {s : Dev} (h : Memory.canonical s.mem) (n : Nat) : Memory.canonical (s.churnPowerGate n).mem :=
  by simp [Dev.churnPowerGate, h]

/-! ### Pipeline -/

@[simp] theorem Dev.slotComplete_canonical {s : Dev} (h : Memory.canonical s.mem) (p : Nat) (memErr : Bool) :
    Memory.canonical (s.slotComplete p memErr).mem := by
  unfold Dev.slotComplete
  repeat' split
  all_goals simp [h]

/-! ### MemoryCmds -/

@[simp] theorem Dev.separatorBlock_canonical {s : Dev} (h : Memory.canonical s.mem) (a : Nat) : Memory.canonical (s.separatorBlock a).mem :=
  by simp [Dev.separatorBlock, h]

@[simp] theorem Dev.walkLost_canonical {s : Dev} (h : Memory.canonical s.mem) (a : Nat) : Memory.canonical (s.walkLost a).mem := by
  unfold Dev.walkLost
  dsimp only
  repeat' split
  all_goals simp [h]

@[simp] theorem Dev.blockLost_canonical {s : Dev} (h : Memory.canonical s.mem) (src a : Nat) : Memory.canonical (s.blockLost src a).mem :=
  by simp [Dev.blockLost, h]

@[simp] theorem Dev.blockCrcResend_canonical {s : Dev} (h : Memory.canonical s.mem) (src a attempt : Nat) :
    Memory.canonical (s.blockCrcResend src a attempt).mem :=
  by simp [Dev.blockCrcResend, h]

@[simp] theorem Dev.aperturePut_canonical {s : Dev} (h : Memory.canonical s.mem) (bar2 : Bool) (ofs : Nat) (bs : List Byte) :
    Memory.canonical (s.aperturePut bar2 ofs bs).mem := by
  induction bs generalizing s ofs with
  | nil => exact h
  | cons b bs ih =>
    refine ih ?_ _
    split
    · exact putByte_canonical h _ _
    · exact h

@[simp] theorem Dev.hostAperture_canonical {s : Dev} (h : Memory.canonical s.mem) (bar2 : Bool) (ofs : Nat) (write : Option (List Byte)) (len : Nat)
    (e : MemEvent) : Memory.canonical (s.hostAperture bar2 ofs write len e).mem := by
  unfold Dev.hostAperture
  repeat' split
  all_goals simp [h]

/-! ### Teach -/

@[simp] theorem Dev.batchRecord_canonical {s : Dev} (h : Memory.canonical s.mem) (q : Nat) (r : List Byte)
    (valid corrupt excluded status code : Nat) :
    Memory.canonical (s.batchRecord q r valid corrupt excluded status code).mem := by
  unfold Dev.batchRecord
  dsimp only
  split
  · have hd := vwrite_canonical h ‹_›
    simp [hd]
  · simp [h]
  · exact h

@[simp] theorem Dev.takeRequest_canonical {s : Dev} (h : Memory.canonical s.mem) (q : Nat) (r : List Byte) :
    Memory.canonical (s.takeRequest q r).mem := by
  unfold Dev.takeRequest
  dsimp only
  repeat' split
  all_goals simp [h]

@[simp] theorem Dev.batchRequest_canonical {s : Dev} (h : Memory.canonical s.mem) (q : Nat) : Memory.canonical (s.batchRequest q).mem := by
  unfold Dev.batchRequest
  dsimp only
  repeat' split
  all_goals simp [h]

@[simp] theorem Dev.endSlot_canonical {s : Dev} (h : Memory.canonical s.mem) (b : Batch) (k i status : Nat) (x : Option Sample) :
    Memory.canonical (s.endSlot b k i status x).mem := by
  unfold Dev.endSlot
  dsimp only
  split
  · have hd := vwrite_canonical h ‹_›
    simp [hd]
  · simp [h]
  · simp [h]

@[simp] theorem Dev.decodeSlot_canonical {s : Dev} (h : Memory.canonical s.mem) (b : Batch) (k : Nat) (r : HevcResult) :
    Memory.canonical (s.decodeSlot b k r).mem := by
  unfold Dev.decodeSlot
  dsimp only
  split
  · exact endSlot_canonical h _ _ _ _ _
  · cases s.decodeEntry (leAt b.req 26 1) (leAt b.req 16 4 + epochOrder (leAt b.req 0 8) (leAt b.req 8 4) (reqN b.req) (leAt b.req 12 4 * reqB b.req + k)) r <;>
      simp [h]

@[simp] theorem Dev.sampleDecodeDone_canonical {s : Dev} (h : Memory.canonical s.mem) (k : Nat) (r : HevcResult) :
    Memory.canonical (s.sampleDecodeDone k r).mem := by
  unfold Dev.sampleDecodeDone
  cases s.batch with
  | none => exact h
  | some b => simp [h]

@[simp] theorem Dev.batchComplete_canonical {s : Dev} (h : Memory.canonical s.mem) : Memory.canonical s.batchComplete.mem := by
  unfold Dev.batchComplete
  cases s.batch with
  | none => exact h
  | some b =>
    dsimp only
    split
    · exact h
    · refine batchRecord_canonical ?_ _ _ _ _ _ _ _
      split
      · rw [tally_mem, count_mem]
        split
        · exact vwrite_canonical (s := { s with batch := none }) h ‹_›
        · simp [h]
        · exact h
      · split
        · exact vwrite_canonical (s := { s with batch := none }) h ‹_›
        · simp [h]
        · exact h

/-! ### OdApply -/

@[simp] theorem Dev.applyEncoder_canonical {s : Dev} (h : Memory.canonical s.mem) (e : OdEntry) (ch sub v : Nat) :
    Memory.canonical (s.applyEncoder e ch sub v).mem :=
  by simp [Dev.applyEncoder, h]

@[simp] theorem Dev.applyMaster_canonical {s : Dev} (h : Memory.canonical s.mem) (sub v : Nat) : Memory.canonical (s.applyMaster sub v).mem := by
  unfold Dev.applyMaster
  split <;> simp [h]

@[simp] theorem Dev.applyNum_canonical {s : Dev} (h : Memory.canonical s.mem) (index sub : Nat) (e : OdEntry) (v : Nat) :
    Memory.canonical (s.applyNum index sub e v).mem := by
  unfold Dev.applyNum
  split <;> simp [h]

@[simp] theorem Dev.loadTable_canonical {s : Dev} (h : Memory.canonical s.mem) (c sub : Nat) (b : List Byte) :
    Memory.canonical (s.loadTable c sub b).mem :=
  by simp [Dev.loadTable, h]

@[simp] theorem Dev.applyBytes_canonical {s : Dev} (h : Memory.canonical s.mem) (index sub : Nat) (b : List Byte) :
    Memory.canonical (s.applyBytes index sub b).mem := by
  unfold Dev.applyBytes
  dsimp only
  repeat' split
  all_goals simp [h]

@[simp] theorem Dev.applyStored_canonical {s : Dev} (h : Memory.canonical s.mem) (key : Nat) (v : OdVal) :
    Memory.canonical (s.applyStored key v).mem := by
  unfold Dev.applyStored
  dsimp only
  repeat' split
  all_goals simp [h]

@[simp] theorem Dev.applyDictionary_canonical {s : Dev} (h : Memory.canonical s.mem) : Memory.canonical s.applyDictionary.mem := by
  unfold Dev.applyDictionary
  dsimp only
  rw [enableStored_mem]
  exact foldl_canonical (fun _ _ h => applyStored_canonical h _ _) _ (by simp [h])

/-! ### Power -/

@[simp] theorem Dev.clearWarm_canonical {s : Dev} (h : Memory.canonical s.mem) : Memory.canonical s.clearWarm.mem := by simp [Dev.clearWarm, h]

@[simp] theorem Dev.clearCold_canonical {s : Dev} (h : Memory.canonical s.mem) (off : Bool) : Memory.canonical (s.clearCold off).mem := by
  unfold Dev.clearCold
  dsimp only
  rw [restoreNow_mem, setDie_mem]
  exact keepMem_canonical (by simp [h]) _ _

@[simp] theorem Dev.sendSafe_canonical {s : Dev} (h : Memory.canonical s.mem) : Memory.canonical s.sendSafe.mem := by simp [Dev.sendSafe, h]

@[simp] theorem Dev.enterWarm_canonical {s : Dev} (h : Memory.canonical s.mem) : Memory.canonical s.enterWarm.mem := by simp [Dev.enterWarm, h]

@[simp] theorem Dev.rstNLow_canonical {s : Dev} (h : Memory.canonical s.mem) : Memory.canonical s.rstNLow.mem := by simp [Dev.rstNLow, h]

@[simp] theorem Dev.escalate_canonical {s : Dev} (h : Memory.canonical s.mem) : Memory.canonical s.escalate.mem := by simp [Dev.escalate, h]

@[simp] theorem Dev.rstNRelease_canonical {s : Dev} (h : Memory.canonical s.mem) (lowTime : Nat) : Memory.canonical (s.rstNRelease lowTime).mem :=
  by simp [Dev.rstNRelease, h]

@[simp] theorem Dev.goOff_canonical {s : Dev} (h : Memory.canonical s.mem) : Memory.canonical s.goOff.mem := by simp [Dev.goOff, h]

@[simp] theorem Dev.por_canonical {s : Dev} (h : Memory.canonical s.mem) : Memory.canonical s.por.mem := by simp [Dev.por, h]

@[simp] theorem Dev.vstbyLoss_canonical {s : Dev} (h : Memory.canonical s.mem) : Memory.canonical s.vstbyLoss.mem := by simp [Dev.vstbyLoss, h]

@[simp] theorem Dev.halt_canonical {s : Dev} (h : Memory.canonical s.mem) : Memory.canonical s.halt.mem := by simp [Dev.halt, h]

@[simp] theorem Dev.startStage7_canonical {s : Dev} (h : Memory.canonical s.mem) : Memory.canonical s.startStage7.mem := by
  have hready : Memory.canonical (s.loadNvm.applyPartition.applyRole.applyDictionary.reloadSlots.releaseField.toStage 8).toReady.mem := by
    rw [toReady_mem, toStage_mem, releaseField_mem, reloadSlots_mem]
    exact applyDictionary_canonical (by simp [h])
  unfold Dev.startStage7
  refine Memory.canonical_branch ?_ hready
  rwa [confirm_mem]

@[simp] theorem Dev.stageComplete_canonical {s : Dev} (h : Memory.canonical s.mem) (storeFails : Bool) :
    Memory.canonical (s.stageComplete storeFails).mem := by
  unfold Dev.stageComplete
  repeat' split
  all_goals simp [h]

@[simp] theorem Dev.startTimeout_canonical {s : Dev} (h : Memory.canonical s.mem) : Memory.canonical s.startTimeout.mem :=
  by simp [Dev.startTimeout, h]

@[simp] theorem Dev.resetBlock_canonical {s : Dev} (h : Memory.canonical s.mem) (b : Nat) : Memory.canonical (s.resetBlock b).mem := by
  unfold Dev.resetBlock
  dsimp only
  repeat' split
  all_goals simp [h]

@[simp] theorem Dev.blockReset_canonical {s : Dev} (h : Memory.canonical s.mem) (source : Source) (block : Nat) :
    Memory.canonical (s.blockReset source block).mem :=
  by simp [Dev.blockReset, h]

@[simp] theorem Dev.goStandby_canonical {s : Dev} (h : Memory.canonical s.mem) : Memory.canonical s.goStandby.mem := by
  have hfresh (d : Dev) : ((upTo 4).foldl (fun d ch => d.freshEnc ch) d).mem = d.mem := foldl_mem (fun d ch => d.freshEnc_mem ch) _ _
  unfold Dev.goStandby
  dsimp only
  split
  · rw [hfresh, setPower_mem, setFlag_mem]
    exact keepMem_canonical (by simp [h]) _ _
  · rw [hfresh, setPower_mem, setFlag_mem]
    exact keepMem_canonical (by simp [h]) _ _

@[simp] theorem Dev.sleep_canonical {s : Dev} (h : Memory.canonical s.mem) {enter : Dev → Dev}
    (henter : ∀ d, Memory.canonical d.mem → Memory.canonical (enter d).mem) : Memory.canonical (s.sleep enter).mem := by
  unfold Dev.sleep
  dsimp only
  split
  · simp [h]
  · exact henter _ (sendSafe_canonical (by simp [h]))

@[simp] theorem Dev.enterStandby_canonical {s : Dev} (h : Memory.canonical s.mem) (port : Port) : Memory.canonical (s.enterStandby port).mem := by
  unfold Dev.enterStandby
  repeat' split
  · simp [h]
  · simp [h]
  · rw [status_mem]
    exact sleep_canonical h fun _ h => goStandby_canonical h

@[simp] theorem Dev.enterOff_canonical {s : Dev} (h : Memory.canonical s.mem) (port : Port) : Memory.canonical (s.enterOff port).mem := by
  unfold Dev.enterOff
  repeat' split
  · simp [h]
  · simp [h]
  · rw [status_mem]
    exact sleep_canonical h fun _ h => goOff_canonical h

@[simp] theorem Dev.wakeUp_canonical {s : Dev} (h : Memory.canonical s.mem) : Memory.canonical s.wakeUp.mem := by simp [Dev.wakeUp, h]

@[simp] theorem Dev.leaveStandby_canonical {s : Dev} (h : Memory.canonical s.mem) (port : Port) : Memory.canonical (s.leaveStandby port).mem :=
  by simp [Dev.leaveStandby, h]

@[simp] theorem Dev.shutdown_canonical {s : Dev} (h : Memory.canonical s.mem) : Memory.canonical s.shutdown.mem := by simp [Dev.shutdown, h]

@[simp] theorem Dev.sensorRead_canonical {s : Dev} (h : Memory.canonical s.mem) (x : Sensors) : Memory.canonical (s.sensorRead x).mem :=
  by simp [Dev.sensorRead, h]

/-! ### OdWrite -/

theorem Dev.writeSetting_canonical {s t : Dev} (h : Memory.canonical s.mem) (ht : Memory.canonical t.mem) (c : Nat) (pp : Bool) :
    Memory.canonical (s.writeSetting c t pp).mem := by
  unfold Dev.writeSetting
  dsimp only
  repeat' split
  all_goals simp [h, ht]

theorem Dev.writeFusion_canonical {s t : Dev} (h : Memory.canonical s.mem) (ht : Memory.canonical t.mem) (f : Nat) :
    Memory.canonical (s.writeFusion f t).mem := by
  unfold Dev.writeFusion
  split <;> simp [h, ht]

@[simp] theorem Dev.writePower_canonical {s : Dev} (h : Memory.canonical s.mem) (port : Port) (v : Nat) :
    Memory.canonical (s.writePower port v).mem :=
  by simp [Dev.writePower, h]

theorem Dev.odCommand_canonical {s t : Dev} (h : Memory.canonical s.mem) {port : Port} {base n sub v : Nat}
    (ht : s.odCommand port base n sub v = some t) :
    Memory.canonical t.mem := by
  unfold Dev.odCommand at ht
  split at ht
  all_goals repeat' split at ht
  all_goals cases ht
  all_goals simp [h]

@[simp] theorem Dev.putNum_canonical {s : Dev} (h : Memory.canonical s.mem) (index sub : Nat) (e : OdEntry) (v : Nat) :
    Memory.canonical (s.putNum index sub e v).mem := by
  unfold Dev.putNum
  split <;> simp [h]

@[simp] theorem Dev.writeNum_canonical {s : Dev} (h : Memory.canonical s.mem) (port : Port) (index sub : Nat) (e : OdEntry) (v : Nat) :
    Memory.canonical (s.writeNum port index sub e v).mem := by
  unfold Dev.writeNum
  repeat' split
  · simp [h]
  · simp [h]
  · simp [h]
  · exact odCommand_canonical h ‹_›
  · exact putNum_canonical h _ _ _ _

@[simp] theorem Dev.writeTable_canonical {s : Dev} (h : Memory.canonical s.mem) (c sub : Nat) (b : List Byte) :
    Memory.canonical (s.writeTable c sub b).mem := by
  have ht := loadTable_canonical h c sub b
  unfold Dev.writeTable
  dsimp only
  generalize s.loadTable c sub b = t at ht ⊢
  repeat' split
  all_goals simp [h, ht, writeSetting_canonical h ht]

@[simp] theorem Dev.writeSlotTable_canonical {s : Dev} (h : Memory.canonical s.mem) (index sub : Nat) (b : List Byte) :
    Memory.canonical (s.writeSlotTable index sub b).mem :=
  by simp [Dev.writeSlotTable, h]

@[simp] theorem Dev.writeBytes_canonical {s : Dev} (h : Memory.canonical s.mem) (index sub : Nat) (b : List Byte) :
    Memory.canonical (s.writeBytes index sub b).mem := by
  have ht := applyBytes_canonical h index sub b
  unfold Dev.writeBytes
  generalize s.applyBytes index sub b = t at ht ⊢
  repeat' split
  all_goals simp [h, ht, writeFusion_canonical h ht]

@[simp] theorem Dev.odEffect_canonical {s : Dev} (h : Memory.canonical s.mem) (port : Port) (index sub : Nat) (e : OdEntry)
    (v : OdVal) : Memory.canonical (s.odEffect port index sub e v).mem := by
  unfold Dev.odEffect
  split <;> simp [h]

@[simp] theorem Dev.odWrite_canonical {s : Dev} (h : Memory.canonical s.mem) (port : Port) (index sub : Nat) (e : OdEntry) (v : OdVal)
    (nvmFails : Bool) : Memory.canonical (s.odWrite port index sub e v nvmFails).mem :=
  by simp [Dev.odWrite, h]

/-! ### Service -/

@[simp] theorem Dev.opWrite_canonical {s : Dev} (h : Memory.canonical s.mem) (p : Port) (r : DictReq) (e : OdEntry)
    (nvmFails : Bool) : Memory.canonical (s.opWrite p r e nvmFails).1.mem := by
  unfold Dev.opWrite
  split <;> simp [h]

@[simp] theorem Dev.opWriteseg_canonical {s : Dev} (h : Memory.canonical s.mem) (p : Port) (r : DictReq) (e : OdEntry)
    (nvmFails : Bool) : Memory.canonical (s.opWriteseg p r e nvmFails).1.mem := by
  unfold Dev.opWriteseg
  dsimp only
  repeat' split
  all_goals simp [h]

@[simp] theorem Dev.serveHere_canonical {s : Dev} (h : Memory.canonical s.mem) (p : Port) (r : DictReq) (nvmFails : Bool) :
    Memory.canonical (s.serveHere p r nvmFails).1.mem := by
  unfold Dev.serveHere
  repeat' split
  all_goals simp [h]

@[simp] theorem Dev.serve_canonical {s : Dev} (h : Memory.canonical s.mem) (trx : Nat) (p : Port) (r : DictReq) (nvmFails : Bool) : Memory.canonical
    (s.serve trx p r nvmFails).mem := by
  unfold Dev.serve
  dsimp only
  repeat' split
  all_goals simp [h]

@[simp] theorem Dev.take_canonical {s : Dev} (h : Memory.canonical s.mem) (e : Nat × Port × DictReq × Bool) : Memory.canonical (s.take e).mem :=
  by simp [Dev.take, h]

@[simp] theorem Dev.takeAll_canonical {s : Dev} (h : Memory.canonical s.mem) (l : List (Nat × Port × DictReq × Bool)) :
    Memory.canonical (s.takeAll l).mem := by
  unfold Dev.takeAll
  exact foldl_canonical (fun d x h => by simp [h]) _ h

@[simp] theorem Dev.arrival_canonical {s : Dev} (h : Memory.canonical s.mem) (p : Port) (r : DictReq) (nvmFails : Bool) :
    Memory.canonical (s.arrival p r nvmFails).mem :=
  by simp [Dev.arrival, h]

@[simp] theorem Dev.endRelay_canonical {s : Dev} (h : Memory.canonical s.mem) (e : Nat × DictReq × Port) (a : Reply) :
    Memory.canonical (s.endRelay e a).mem :=
  by simp [Dev.endRelay, h]

@[simp] theorem Dev.relayAnswer_canonical {s : Dev} (h : Memory.canonical s.mem) (x : DictReq) : Memory.canonical (s.relayAnswer x).mem := by
  unfold Dev.relayAnswer
  split <;> simp [h]

@[simp] theorem Dev.dictFrame_canonical {s : Dev} (h : Memory.canonical s.mem) (p : Nat) (hdr : ZHdr) (r : DictReq) (isResponse : Bool) :
    Memory.canonical (s.dictFrame p hdr r isResponse).mem := by
  refine arrive_canonical (fun d h => ?_) h _ _ _
  split
  · simp [h]
  · split
    · exact arrival_canonical (by simp [h]) _ _ _
    · exact h

@[simp] theorem Dev.dictRelayTimeout_canonical {s : Dev} (h : Memory.canonical s.mem) (reqid : Nat) :
    Memory.canonical (s.dictRelayTimeout reqid).mem := by
  unfold Dev.dictRelayTimeout
  split <;> simp [h]

@[simp] theorem Dev.malformed_canonical {s : Dev} (h : Memory.canonical s.mem) (w : Malformed) : Memory.canonical (s.malformed w).mem := by
  unfold Dev.malformed
  split <;> simp [h]

/-! ### Registers -/

@[simp] theorem Dev.jobCommand_canonical {s : Dev} (h : Memory.canonical s.mem) (op : Nat) : Memory.canonical (s.jobCommand op).mem := by
  unfold Dev.jobCommand
  split <;> simp [h]

@[simp] theorem Dev.encSetting_canonical {s : Dev} (h : Memory.canonical s.mem) (f : Field) (ch x : Nat) :
    Memory.canonical (s.encSetting f ch x).mem :=
  by simp [Dev.encSetting, h]

@[simp] theorem Dev.powerCommand_canonical {s : Dev} (h : Memory.canonical s.mem) (op : Nat) : Memory.canonical (s.powerCommand op).mem := by
  unfold Dev.powerCommand
  split <;> simp [h]

theorem Dev.trigger_canonical {s t : Dev} (h : Memory.canonical s.mem) {src : Source} {sl : Slice} {x w : Nat} (ht : s.trigger src sl x w = some t) :
    Memory.canonical t.mem := by
  unfold Dev.trigger at ht
  dsimp only at ht
  split at ht
  all_goals cases ht
  all_goals simp [h]

@[simp] theorem Dev.writeSlice_canonical {s : Dev} (h : Memory.canonical s.mem) (src : Source) (w : Nat) (sl : Slice) :
    Memory.canonical (s.writeSlice src w sl).mem := by
  unfold Dev.writeSlice
  dsimp only
  cases ht : s.trigger src sl (s.fieldValue sl w) w with
  | none => simp [h]
  | some t => exact trigger_canonical h ht

@[simp] theorem Dev.writeWord_canonical {s : Dev} (h : Memory.canonical s.mem) (src : Source) (a w : Nat) :
    Memory.canonical (s.writeWord src a w).mem := by
  unfold Dev.writeWord
  dsimp only
  repeat' split
  · simp [h]
  · simp [h]
  · exact h
  · simp [h]
  · exact foldl_canonical (fun _ _ h => writeSlice_canonical h _ _ _) _ h

@[simp] theorem Dev.registerWrite_canonical {s : Dev} (h : Memory.canonical s.mem) (src : Source) (a n v : Nat) :
    Memory.canonical (s.registerWrite src a n v).mem :=
  by simp [Dev.registerWrite, h]

/-! ### Tick -/

@[simp] theorem Dev.writeLog_canonical {s : Dev} (h : Memory.canonical s.mem) (pos : Nat) : Memory.canonical (s.writeLog pos).mem :=
  by simp [Dev.writeLog, h]

@[simp] theorem Dev.leaveParts_canonical {s : Dev} (h : Memory.canonical s.mem) : Memory.canonical s.leaveParts.mem := by
  unfold Dev.leaveParts
  exact foldl_canonical (fun d x h => by simp [h]) _ h

@[simp] theorem Dev.separatorTick_canonical {s : Dev} (h : Memory.canonical s.mem) (pos : Nat) : Memory.canonical (s.separatorTick pos).mem := by
  unfold Dev.separatorTick
  split
  · rwa [retireSlots_mem, switchIfReached_mem]
  · rw [retireSlots_mem]
    exact leaveParts_canonical (by simp [h])

/-- What a tick still does once the log is written. -/
theorem Dev.tickWork_canonical {s : Dev} (h : Memory.canonical s.mem) (pos : Nat) :
    Memory.canonical (((if s.worker then s.followTick pos else s.estimate pos).refreshKeys.expireCheap).separatorTick pos).mem := by
  refine separatorTick_canonical (expireCheap_canonical ?_) pos
  rw [refreshKeys_mem]
  refine Memory.canonical_branch ?_ ?_
  · rwa [followTick_mem]
  · rwa [estimate_mem]

@[simp] theorem Dev.estimateTick_canonical {s : Dev} (h : Memory.canonical s.mem) : Memory.canonical s.estimateTick.mem := by
  unfold Dev.estimateTick
  have hs := advanceTo_canonical h 4000 s.tickAt
  generalize s.advanceTo 4000 s.tickAt = d at hs
  refine Memory.canonical_branch hs (tickWork_canonical ?_ _)
  simpa only using writeLog_canonical hs _

end Sys2Proof.Machine

end

section
/-! Memory stays canonical over a step (R157): one line a command, by what its effect does to memory. -/

namespace Sys2Proof.Machine

open Sys2Proof

-- One proof at a time, as in the tests: the compile of the whole text then needs less memory.
set_option Elab.async false

theorem State.run_canonical {s t : State} {c : Instr} {f : Dev → Dev} (h : s.run c f = .next t) (hm : Memory.canonical s.mem)
    (hf : Memory.canonical (f s.toDev).mem) : Memory.canonical t.mem := by
  unfold State.run at h
  split at h
  · cases h
    simpa using hf
  · cases h
    exact hm

theorem State.run_same {s t : State} {c : Instr} {f : Dev → Dev} (h : s.run c f = .next t) (hm : Memory.canonical s.mem)
    (hf : (f s.toDev).mem = s.mem) : Memory.canonical t.mem :=
  run_canonical h hm (by rwa [hf])

theorem exec_canonical (c : Instr) {s t : State} (h : exec c s = .next t) (hm : Memory.canonical s.mem) : Memory.canonical t.mem := by
  cases c with
  | encoderEdge ch kind => exact State.run_same (f := fun d => d.encoderEdge ch kind) h hm (Dev.encoderEdge_mem ..)
  | zEdge ch => exact State.run_same (f := fun d => d.zEdge ch) h hm (Dev.zEdge_mem ..)
  | sincosSample ch sine cosine phase => exact State.run_same (f := fun d => d.sincosSample ch sine cosine phase) h hm (Dev.sincosSample_mem ..)
  | bissCycleStart ch => exact State.run_same (f := fun d => d.bissCycleStart ch) h hm (Dev.bissCycleStart_mem ..)
  | bissCycleComplete ch raw nE nW crc =>
    exact State.run_same (f := fun d => d.bissCycleComplete ch raw nE nW crc) h hm (Dev.bissCycleComplete_mem ..)
  | encoderFault ch => exact State.run_canonical (f := fun d => d.encoderFault ch) h hm (Dev.encoderFault_canonical hm ..)
  | encoderSignalLoss ch kind => exact State.run_same (f := fun d => d.encoderSignalLoss ch kind) h hm (Dev.encoderSignalLoss_mem ..)
  | encFaultClear ch => exact State.run_same (f := fun d => d.encFaultClear ch) h hm (Dev.encFaultClear_mem ..)
  | lineMasterChange port value =>
    exact State.run_canonical (f := fun d => d.served port 0x4000 1 fun d => d.lineMasterChange port value) h hm
      (Dev.served_canonical hm _ _ _ fun h => Dev.lineMasterChange_canonical h ..)
  | estimateTick => exact State.run_canonical (f := fun d => d.estimateTick) h hm (Dev.estimateTick_canonical hm ..)
  | deadlineReached part => exact State.run_same (f := fun d => d.deadlineReached part) h hm (Dev.deadlineReached_mem ..)
  | partMaxLength lane stamp => exact State.run_same (f := fun d => d.partMaxLength lane stamp) h hm (Dev.partMaxLength_mem ..)
  | recipeLoad port slot image =>
    exact State.run_same (f := fun d => d.served port 0x3010 1 fun d => d.recipeLoad slot image) h hm
      (Dev.served_mem _ _ _ _ fun d => Dev.recipeLoad_mem ..)
  | recipeSwitch port slot =>
    exact State.run_same (f := fun d => d.served port 0x3000 2 fun d => d.recipeSwitch port slot) h hm
      (Dev.served_mem _ _ _ _ fun d => Dev.recipeSwitch_mem ..)
  | sepArmWrite port value =>
    exact State.run_same (f := fun d => d.served port 0x4600 3 fun d => d.sepArmWrite port value) h hm
      (Dev.served_mem _ _ _ _ fun d => Dev.sepArmWrite_mem ..)
  | lineStopRelease => exact State.run_same (f := fun d => d.releaseStop) h hm (Dev.releaseStop_mem ..)
  | vcommit job => exact State.run_canonical (f := fun d => d.vcommit job) h hm (Dev.vcommit_canonical hm ..)
  | verdictRecord record => exact State.run_same (f := fun d => d.deliver record) h hm (Dev.deliver_mem ..)
  | separatorMemoryError what => exact State.run_canonical (f := fun d => d.separatorMemoryError what) h hm (Dev.separatorMemoryError_canonical hm ..)
  | xclkStart => exact State.run_canonical (f := fun d => d.xclkStart) h hm (Dev.xclkStart_canonical hm ..)
  | compareHit g => exact State.run_canonical (f := fun d => d.compareHit g) h hm (Dev.compareHit_canonical hm ..)
  | cgArm g => exact State.run_same (f := fun d => d.cgArm g) h hm (Dev.cgArm_mem ..)
  | cgDisarm g => exact State.run_same (f := fun d => d.cgDisarm g) h hm (Dev.cgDisarm_mem ..)
  | triggerDelayExpiry t => exact State.run_same (f := fun d => d.triggerDelayExpiry t) h hm (Dev.triggerDelayExpiry_mem ..)
  | triggerWidthExpiry t => exact State.run_same (f := fun d => d.triggerWidthExpiry t) h hm (Dev.triggerWidthExpiry_mem ..)
  | uplinkTriggerSend link => exact State.run_same (f := fun d => d.uplinkTriggerSend link) h hm (Dev.uplinkTriggerSend_mem ..)
  | linkDeviceDetect link maxRate connId =>
    exact State.run_same (f := fun d => d.linkDeviceDetect link maxRate connId) h hm (Dev.linkDeviceDetect_mem ..)
  | lockLoss link => exact State.run_same (f := fun d => d.lockLoss link) h hm (Dev.lockLoss_mem ..)
  | eqUpdate link dfe ctle vert horz => exact State.run_same (f := fun d => d.eqUpdate link dfe ctle vert horz) h hm (Dev.eqUpdate_mem ..)
  | pocxpDetect link found => exact State.run_same (f := fun d => d.pocxpDetect link found) h hm (Dev.pocxpDetect_mem ..)
  | pocxpOvercurrent link => exact State.run_same (f := fun d => d.pocxpOvercurrent link) h hm (Dev.pocxpOvercurrent_mem ..)
  | vpocLow => exact State.run_same (f := fun d => d.vpocLow) h hm (Dev.vpocLow_mem ..)
  | proxyRead link source addr len =>
    exact State.run_same (f := fun d => d.request link { source := source, write := false, addr := addr, len := len, data := [] }) h hm
      (Dev.request_mem ..)
  | proxyWrite link source addr len data =>
    exact State.run_same (f := fun d => d.request link { source := source, write := true, addr := addr, len := len, data := data }) h hm
      (Dev.request_mem ..)
  | proxyAck link ack => exact State.run_same (f := fun d => d.proxyAck link ack) h hm (Dev.proxyAck_mem ..)
  | proxyTimeout link => exact State.run_same (f := fun d => d.endRequest link 3) h hm (Dev.endRequest_mem ..)
  | streamPacket link stream crcOk content =>
    exact State.run_canonical (f := fun d => d.streamPacket link stream crcOk content) h hm (Dev.streamPacket_canonical hm ..)
  | stopTimeout ctx => exact State.run_canonical (f := fun d => d.stopTimeout ctx) h hm (Dev.stopTimeout_canonical hm ..)
  | ctxCommit ctx => exact State.run_same (f := fun d => d.ctxCommit ctx) h hm (Dev.ctxCommit_mem ..)
  | ctxResync ctx => exact State.run_canonical (f := fun d => d.resync ctx) h hm (Dev.resync_canonical hm ..)
  | ppCommit ctx => exact State.run_same (f := fun d => d.ppCommit ctx) h hm (Dev.ppCommit_mem ..)
  | bankSwitchArm ctx gen bank => exact State.run_same (f := fun d => d.armBank ctx gen bank) h hm (Dev.armBank_mem ..)
  | fusionAbsence fus k => exact State.run_same (f := fun d => d.fusionAbsence fus k) h hm (Dev.fusionAbsence_mem ..)
  | slotDispatch pipe => exact State.run_same (f := fun d => d.slotDispatch pipe) h hm (Dev.slotDispatch_mem ..)
  | slotComplete pipe memErr => exact State.run_canonical (f := fun d => d.slotComplete pipe memErr) h hm (Dev.slotComplete_canonical hm ..)
  | matrixInstruction chn op => exact State.run_canonical (f := fun d => d.matrixInstruction chn op) h hm (Dev.matrixInstruction_canonical hm ..)
  | vectorInstruction chn op => exact State.run_canonical (f := fun d => d.vectorInstruction chn op) h hm (Dev.vectorInstruction_canonical hm ..)
  | convertInstruction chn op => exact State.run_canonical (f := fun d => d.convertInstruction chn op) h hm (Dev.convertInstruction_canonical hm ..)
  | mxQuantise chn op => exact State.run_canonical (f := fun d => d.mxQuantise chn op) h hm (Dev.mxQuantise_canonical hm ..)
  | bfly4 chn op => exact State.run_canonical (f := fun d => d.bfly4 chn op) h hm (Dev.bfly4_canonical hm ..)
  | bfly2 chn op => exact State.run_canonical (f := fun d => d.bfly2 chn op) h hm (Dev.bfly2_canonical hm ..)
  | groupBarrier chn gang => exact State.run_same (f := fun d => d.groupBarrier chn gang.gang gang.thread) h hm (Dev.groupBarrier_mem ..)
  | convolution chn op => exact State.run_canonical (f := fun d => d.convolution chn op) h hm (Dev.convolution_canonical hm ..)
  | pooling chn op => exact State.run_canonical (f := fun d => d.pooling chn op) h hm (Dev.pooling_canonical hm ..)
  | dmaTransfer chn op event => exact State.run_canonical (f := fun d => d.dmaTransfer chn op event) h hm (Dev.dmaTransfer_canonical hm ..)
  | blockCrcResend source dpa attempt =>
    exact State.run_canonical (f := fun d => d.blockCrcResend source dpa attempt) h hm (Dev.blockCrcResend_canonical hm ..)
  | scrubAccess event => exact State.run_same (f := fun d => d.scrubAccess event) h hm (Dev.scrubAccess_mem ..)
  | lpddrRefresh channel bank => exact State.run_same (f := fun d => d) h hm (rfl)
  | mmuInvalidate scope asid => exact State.run_same (f := fun d => d.mmuInvalidate scope asid) h hm (Dev.mmuInvalidate_mem ..)
  | invalidateDone => exact State.run_same (f := fun d => d.invalidateDone) h hm (Dev.invalidateDone_mem ..)
  | faultqPop => exact State.run_same (f := fun d => d.faultqPop) h hm (Dev.faultqPop_mem ..)
  | churnClockGate chn => exact State.run_same (f := fun d => d.churnClockGate chn) h hm (Dev.churnClockGate_mem ..)
  | churnPowerGate chn => exact State.run_canonical (f := fun d => d.churnPowerGate chn) h hm (Dev.churnPowerGate_canonical hm ..)
  | churnPowerUpDone chn => exact State.run_same (f := fun d => d.churnPowerUpDone chn) h hm (Dev.churnPowerUpDone_mem ..)
  | queueTailWrite source queue tail => exact State.run_same (f := fun d => d.queueTailWrite source queue tail) h hm (Dev.queueTailWrite_mem ..)
  | jobAdmit => exact State.run_canonical (f := fun d => d.jobAdmit) h hm (Dev.jobAdmit_canonical hm ..)
  | layer job => exact State.run_same (f := fun d => d.layerCmd job) h hm (Dev.layerCmd_mem ..)
  | kernel job => exact State.run_same (f := fun d => d.kernelCmd job) h hm (Dev.kernelCmd_mem ..)
  | wait job => exact State.run_same (f := fun d => d.waitCmd job) h hm (Dev.waitCmd_mem ..)
  | waitSatisfied job => exact State.run_same (f := fun d => d.waitSatisfied job) h hm (Dev.waitSatisfied_mem ..)
  | signal job => exact State.run_same (f := fun d => d.signalCmd job) h hm (Dev.signalCmd_mem ..)
  | scReset job => exact State.run_same (f := fun d => d.scResetCmd job) h hm (Dev.scResetCmd_mem ..)
  | span job => exact State.run_canonical (f := fun d => d.spanCmd job) h hm (Dev.spanCmd_canonical hm ..)
  | iterationEnd job => exact State.run_canonical (f := fun d => d.iterationEnd job) h hm (Dev.iterationEnd_canonical hm ..)
  | pieceDispatch => exact State.run_canonical (f := fun d => d.pieceDispatch) h hm (Dev.pieceDispatch_canonical hm ..)
  | takeover taker victim k0 k1 pair =>
    exact State.run_canonical (f := fun d => d.takeover taker victim k0 k1 pair) h hm (Dev.takeover_canonical hm ..)
  | sliceEnd chn => exact State.run_canonical (f := fun d => d.sliceEnd chn) h hm (Dev.sliceEnd_canonical hm ..)
  | cheapPointReached chn ranges =>
    exact State.run_canonical (f := fun d => d.cheapPointReached chn ranges) h hm (Dev.cheapPointReached_canonical hm ..)
  | saveComplete chn writeFails => exact State.run_canonical (f := fun d => d.saveComplete chn writeFails) h hm (Dev.saveComplete_canonical hm ..)
  | restoreComplete chn readFails =>
    exact State.run_canonical (f := fun d => d.restoreComplete chn readFails) h hm (Dev.restoreComplete_canonical hm ..)
  | jobResume => exact State.run_same (f := fun d => d.jobResume) h hm (Dev.jobResume_mem ..)
  | jobAbort => exact State.run_canonical (f := fun d => d.jobAbort) h hm (Dev.jobAbort_canonical hm ..)
  | jobStop => exact State.run_canonical (f := fun d => d.jobStop) h hm (Dev.jobStop_canonical hm ..)
  | sequencerHang chn => exact State.run_canonical (f := fun d => d.sequencerHang chn) h hm (Dev.sequencerHang_canonical hm ..)
  | churnBlockReset chn cause => exact State.run_canonical (f := fun d => d.resetChurn chn (causeCode cause)) h hm (Dev.resetChurn_canonical hm ..)
  | synSignalAdd sc => exact State.run_same (f := fun d => d.scAdd sc (d.rd .SYN_VAL)) h hm (Dev.scAdd_mem ..)
  | synReset sc => exact State.run_same (f := fun d => d.scZero sc) h hm (Dev.scZero_mem ..)
  | synRdidxLatch sc => exact State.run_same (f := fun d => d.synRdidxLatch sc) h hm (Dev.synRdidxLatch_mem ..)
  | fixedModeWrite port value =>
    exact State.run_same (f := fun d => d.served port 0x3001 4 fun d => d.fixedModeWrite port value) h hm
      (Dev.served_mem _ _ _ _ fun d => Dev.fixedModeWrite_mem ..)
  | reproModeWrite port value =>
    exact State.run_same (f := fun d => d.served port 0x3001 1 fun d => d.reproModeWrite port value) h hm
      (Dev.served_mem _ _ _ _ fun d => Dev.reproModeWrite_mem ..)
  | outboundFrameSlot => exact State.run_canonical (f := fun d => d.outboundFrameSlot) h hm (Dev.outboundFrameSlot_canonical hm ..)
  | tickEnqueue => exact State.run_same (f := fun d => d.fillQueue) h hm (Dev.fillQueue_mem ..)
  | stateFrame payload => exact State.run_same (f := fun d => d.stateFrame payload) h hm (Dev.stateFrame_mem ..)
  | tickFrame payload => exact State.run_same (f := fun d => d.tickFrame payload) h hm (Dev.tickFrame_mem ..)
  | regFrame payload => exact State.run_same (f := fun d => d.regFrame payload) h hm (Dev.regFrame_mem ..)
  | inboundStatusFrame payload => exact State.run_same (f := fun d => d.inboundStatus payload) h hm (Dev.inboundStatus_mem ..)
  | inboundReadFrame payload => exact State.run_same (f := fun d => d.inboundRead payload) h hm (Dev.inboundRead_mem ..)
  | tickEdge => exact State.run_canonical (f := fun d => d.tickEdge) h hm (Dev.tickEdge_canonical hm ..)
  | safeTimeout => exact State.run_same (f := fun d => d.safeTimeout) h hm (Dev.safeTimeout_mem ..)
  | fieldSupplyLow => exact State.run_same (f := fun d => d.fieldSupplyLow) h hm (Dev.fieldSupplyLow_mem ..)
  | fieldSupplyLoss => exact State.run_same (f := fun d => d.fieldSupplyLoss) h hm (Dev.fieldSupplyLoss_mem ..)
  | fieldSupplyReturn => exact State.run_same (f := fun d => d.fieldSupplyReturn) h hm (Dev.fieldSupplyReturn_mem ..)
  | inputChangeAccepted input level => exact State.run_same (f := fun d => d.inputChange input level) h hm (Dev.inputChange_mem ..)
  | wireBreak input => exact State.run_same (f := fun d => d.wireBreak input) h hm (Dev.wireBreak_mem ..)
  | wireBreakClear input level => exact State.run_same (f := fun d => d.wireBreakClear input level) h hm (Dev.wireBreakClear_mem ..)
  | outputShortCircuit out => exact State.run_same (f := fun d => d.protect out) h hm (Dev.protect_mem ..)
  | outputOpenLoad out => exact State.run_same (f := fun d => d.openLoad out) h hm (Dev.openLoad_mem ..)
  | groupOvercurrent group => exact State.run_same (f := fun d => d.groupOvercurrent group) h hm (Dev.groupOvercurrent_mem ..)
  | indDataWrite value => exact State.run_same (f := fun d => d.indDataWrite value) h hm (Dev.indDataWrite_mem ..)
  | indDataRead => exact State.run_same (f := fun d => d.indDataRead) h hm (Dev.indDataRead_mem ..)
  | indTimeout => exact State.run_same (f := fun d => d.indTimeout) h hm (Dev.indTimeout_mem ..)
  | libReserve n => exact State.run_same (f := fun d => d.libReserve n) h hm (Dev.libReserve_mem ..)
  | batchRequest queue => exact State.run_canonical (f := fun d => d.batchRequest queue) h hm (Dev.batchRequest_canonical hm ..)
  | sampleDecodeDone slot hevc => exact State.run_canonical (f := fun d => d.sampleDecodeDone slot hevc) h hm (Dev.sampleDecodeDone_canonical hm ..)
  | batchComplete => exact State.run_canonical (f := fun d => d.batchComplete) h hm (Dev.batchComplete_canonical hm ..)
  | decoderCapWindow => exact State.run_same (f := fun d => { d with capUsed := 0 }) h hm (rfl)
  | validationStart port value =>
    exact State.run_same (f := fun d => d.served port 0x7100 4 fun d => d.validationStart port value) h hm
      (Dev.served_mem _ _ _ _ fun d => Dev.validationStart_mem ..)
  | validationComplete samples => exact State.run_same (f := fun d => d.validationComplete samples) h hm (Dev.validationComplete_mem ..)
  | posSend => exact State.run_same (f := fun d => d.posSend) h hm (Dev.posSend_mem ..)
  | pos port hdr frame => exact State.run_canonical (f := fun d => d.pos port hdr frame) h hm (Dev.pos_canonical hm ..)
  | timeSend => exact State.run_same (f := fun d => d.timeSend) h hm (Dev.timeSend_mem ..)
  | time port hdr peer echo error => exact State.run_same (f := fun d => d.timeFrame port hdr peer error) h hm (Dev.timeFrame_mem ..)
  | part port hdr frame => exact State.run_canonical (f := fun d => d.partFrame port hdr frame) h hm (Dev.partFrame_canonical hm ..)
  | verd port hdr records => exact State.run_same (f := fun d => d.verd port hdr records) h hm (Dev.verd_mem ..)
  | mark port hdr frame => exact State.run_same (f := fun d => d.markFrame port hdr frame) h hm (Dev.markFrame_mem ..)
  | pres port hdr pos lane present => exact State.run_same (f := fun d => d.presFrame port hdr pos lane present) h hm (Dev.presFrame_mem ..)
  | dict port hdr req response => exact State.run_canonical (f := fun d => d.dictFrame port hdr req response) h hm (Dev.dictFrame_canonical hm ..)
  | bulk port hdr dpa sc sig block =>
    exact State.run_canonical (f := fun d => d.bulkFrame port hdr dpa sc sig block) h hm (Dev.bulkFrame_canonical hm ..)
  | hello port hdr frame => exact State.run_same (f := fun d => d.hello port hdr frame) h hm (Dev.hello_mem ..)
  | helloSend => exact State.run_same (f := fun d => d.helloSend) h hm (Dev.helloSend_mem ..)
  | switch port hdr slot pos => exact State.run_same (f := fun d => d.switchFrame port hdr slot pos) h hm (Dev.switchFrame_mem ..)
  | zanyxLinkUp port => exact State.run_same (f := fun d => d.zanyxLinkUp port) h hm (Dev.zanyxLinkUp_mem ..)
  | zanyxNak port ack => exact State.run_same (f := fun d => d.zanyxNak port ack) h hm (Dev.zanyxNak_mem ..)
  | replayTimeout port => exact State.run_same (f := fun d => d.replayTimeout port) h hm (Dev.replayTimeout_mem ..)
  | zanyxPortDown port => exact State.run_same (f := fun d => d.zanyxPortDown port) h hm (Dev.zanyxPortDown_mem ..)
  | zanyxSleep port => exact State.run_same (f := fun d => d.zanyxSleep port) h hm (Dev.zanyxSleep_mem ..)
  | zanyxWake port => exact State.run_same (f := fun d => d.zanyxWake port) h hm (Dev.zanyxWake_mem ..)
  | poslost => exact State.run_canonical (f := fun d => d.poslost) h hm (Dev.poslost_canonical hm ..)
  | workerLost member => exact State.run_same (f := fun d => d.workerLost member) h hm (Dev.workerLost_mem ..)
  | dictRelayTimeout reqid => exact State.run_canonical (f := fun d => d.dictRelayTimeout reqid) h hm (Dev.dictRelayTimeout_canonical hm ..)
  | timeStep source step => exact State.run_same (f := fun d => d.timeStep source step) h hm (Dev.timeStep_mem ..)
  | timeRateWrite source rate => exact State.run_same (f := fun d => d.timeRateWrite source rate) h hm (Dev.timeRateWrite_mem ..)
  | timNsRead => exact State.run_same (f := fun d => d.timNsRead) h hm (Dev.timNsRead_mem ..)
  | ptpMessage msg => exact State.run_same (f := fun d => d.ptpMessage msg) h hm (Dev.ptpMessage_mem ..)
  | txqPop source => exact State.run_same (f := fun d => d.txqPop source) h hm (Dev.txqPop_mem ..)
  | announceTimeout => exact State.run_same (f := fun d => d.announceTimeout) h hm (Dev.announceTimeout_mem ..)
  | servoHandover port value =>
    exact State.run_same (f := fun d => d.served port 0x6000 7 fun d => d.servoHandover port value) h hm
      (Dev.served_mem _ _ _ _ fun d => Dev.servoHandover_mem ..)
  | ttoEnable port t =>
    exact State.run_same (f := fun d => d.served port 0x6200 1 fun d => d.ttoEnable port t) h hm
      (Dev.served_mem _ _ _ _ fun d => Dev.ttoEnable_mem ..)
  | ttoEdge t => exact State.run_canonical (f := fun d => d.ttoEdge t) h hm (Dev.ttoEdge_canonical hm ..)
  | dictRead port req => exact State.run_canonical (f := fun d => d.arrival port req false) h hm (Dev.arrival_canonical hm ..)
  | dictWrite port req nvmFails => exact State.run_canonical (f := fun d => d.arrival port req nvmFails) h hm (Dev.arrival_canonical hm ..)
  | dictInfo port req => exact State.run_canonical (f := fun d => d.arrival port req false) h hm (Dev.arrival_canonical hm ..)
  | dictReadseg port req => exact State.run_canonical (f := fun d => d.arrival port req false) h hm (Dev.arrival_canonical hm ..)
  | dictWriteseg port req nvmFails => exact State.run_canonical (f := fun d => d.arrival port req nvmFails) h hm (Dev.arrival_canonical hm ..)
  | segmentSequenceTimeout index sub => exact State.run_same (f := fun d => d.dropSequence index sub) h hm (Dev.dropSequence_mem ..)
  | responseCacheExpiry src reqid => exact State.run_same (f := fun d => d.forget src reqid) h hm (Dev.forget_mem ..)
  | mbxDoorbell => exact State.run_same (f := fun d => d.doorbell) h hm (Dev.doorbell_mem ..)
  | snapshot => exact State.run_same (f := fun d => d.snapshot) h hm (Dev.snapshot_mem ..)
  | irqAck bits => exact State.run_same (f := fun d => d.irqAck bits) h hm (Dev.irqAck_mem ..)
  | voteCheck => exact State.run_same (f := fun d => d.voteCheck) h hm (Dev.voteCheck_mem ..)
  | registerWrite source addr bytes value =>
    exact State.run_canonical (f := fun d => d.registerWrite source addr bytes value) h hm (Dev.registerWrite_canonical hm ..)
  | rstNLow => exact State.run_canonical (f := fun d => d.rstNLow) h hm (Dev.rstNLow_canonical hm ..)
  | coldResetEscalation => exact State.run_canonical (f := fun d => d.escalate) h hm (Dev.escalate_canonical hm ..)
  | rstNRelease lowTime => exact State.run_canonical (f := fun d => d.rstNRelease lowTime) h hm (Dev.rstNRelease_canonical hm ..)
  | por => exact State.run_canonical (f := fun d => d.por) h hm (Dev.por_canonical hm ..)
  | vstbyLoss => exact State.run_canonical (f := fun d => d.vstbyLoss) h hm (Dev.vstbyLoss_canonical hm ..)
  | vin12Loss => exact State.run_canonical (f := fun d => d.goOff) h hm (Dev.goOff_canonical hm ..)
  | vin12Return => exact State.run_same (f := fun d => d.vin12Return) h hm (Dev.vin12Return_mem ..)
  | pcieReset => exact State.run_same (f := fun d => d.pcieReset) h hm (Dev.pcieReset_mem ..)
  | startStageComplete storeFails => exact State.run_canonical (f := fun d => d.stageComplete storeFails) h hm (Dev.stageComplete_canonical hm ..)
  | startConfirm port =>
    exact State.run_same (f := fun d => d.served port 0x9001 1 fun d => d.startConfirm port) h hm
      (Dev.served_mem _ _ _ _ fun d => Dev.startConfirm_mem ..)
  | startTimeout => exact State.run_canonical (f := fun d => d.startTimeout) h hm (Dev.startTimeout_canonical hm ..)
  | failstartClear port value =>
    exact State.run_same (f := fun d => d.served port 0x9001 2 fun d => d.failstartClear port value) h hm
      (Dev.served_mem _ _ _ _ fun d => Dev.failstartClear_mem ..)
  | blockReset source block => exact State.run_canonical (f := fun d => d.blockReset source block) h hm (Dev.blockReset_canonical hm ..)
  | readyEntry => exact State.run_same (f := fun d => d.readyEntry) h hm (Dev.readyEntry_mem ..)
  | dozeEntry => exact State.run_same (f := fun d => d.dozeEntry) h hm (Dev.dozeEntry_mem ..)
  | demand => exact State.run_same (f := fun d => d.demand) h hm (Dev.demand_mem ..)
  | enterStandby port =>
    exact State.run_canonical (f := fun d => d.served port 0x9000 1 fun d => d.enterStandby port) h hm
      (Dev.served_canonical hm _ _ _ fun h => Dev.enterStandby_canonical h ..)
  | leaveStandby port =>
    exact State.run_canonical (f := fun d => d.served port 0x9000 1 fun d => d.leaveStandby port) h hm
      (Dev.served_canonical hm _ _ _ fun h => Dev.leaveStandby_canonical h ..)
  | enterOff port =>
    exact State.run_canonical (f := fun d => d.served port 0x9000 1 fun d => d.enterOff port) h hm
      (Dev.served_canonical hm _ _ _ fun h => Dev.enterOff_canonical h ..)
  | restoreDefaults port =>
    exact State.run_same (f := fun d => d.served port 0x1010 1 fun d => d.restoreDefaults port) h hm
      (Dev.served_mem _ _ _ _ fun d => Dev.restoreDefaults_mem ..)
  | sensorRead sensors => exact State.run_canonical (f := fun d => d.sensorRead sensors) h hm (Dev.sensorRead_canonical hm ..)
  | fanFailed fan => exact State.run_same (f := fun d => d.fanFailed fan) h hm (Dev.fanFailed_mem ..)
  | tallyWrite => exact State.run_same (f := fun d => d.tallyWrite) h hm (Dev.tallyWrite_mem ..)
  | tallyClear port =>
    exact State.run_same (f := fun d => d.served port 0xA100 4 fun d => d.tallyClear port) h hm
      (Dev.served_mem _ _ _ _ fun d => Dev.tallyClear_mem ..)
  | operatingHoursStore => exact State.run_same (f := fun d => d.storeHours) h hm (Dev.storeHours_mem ..)
  | optionRewrite => exact State.run_same (f := fun d => d.optionRewrite) h hm (Dev.optionRewrite_mem ..)
  | firmwareBankWrite readbackOk => exact State.run_same (f := fun d => d.bankWrite readbackOk) h hm (Dev.bankWrite_mem ..)
  | maintenanceRequest port activity =>
    exact State.run_same (f := fun d => d.served port 0xA300 1 fun d => d.maintenanceRequest port activity) h hm
      (Dev.served_mem _ _ _ _ fun d => Dev.maintenanceRequest_mem ..)
  | maintenanceDue activity => exact State.run_same (f := fun d => d.maintenanceDue activity) h hm (Dev.maintenanceDue_mem ..)
  | maintenanceEnd activity => exact State.run_same (f := fun d => d.maintenanceEnd activity) h hm (Dev.maintenanceEnd_mem ..)
  | selfTestDone chn pass testStep => exact State.run_same (f := fun d => d.selfTestDone chn pass testStep) h hm (Dev.selfTestDone_mem ..)
  | traceRecord record => exact State.run_same (f := fun d => d.traceRecord record) h hm (Dev.traceRecord_mem ..)
  | linkLock link => exact State.run_same (f := fun d => d.linkLock link) h hm (Dev.linkLock_mem ..)
  | ethLinkLoss port => exact State.run_same (f := fun d => d.ethLinkLoss port) h hm (Dev.ethLinkLoss_mem ..)
  | ethLinkUp port => exact State.run_same (f := fun d => d.ethLinkUp port) h hm (Dev.ethLinkUp_mem ..)
  | malformedDatagram what => exact State.run_canonical (f := fun d => d.malformed what) h hm (Dev.malformed_canonical hm ..)
  | barrierFrameCrcFail inbound => exact State.run_same (f := fun d => d.crcFail inbound) h hm (Dev.crcFail_mem ..)
  | hostApertureAccess bar2 ofs write len event =>
    exact State.run_canonical (f := fun d => d.hostAperture bar2 ofs write len event) h hm (Dev.hostAperture_canonical hm ..)
  | ttoWidthExpiry t => exact State.run_same (f := fun d => d.ttoWidthExpiry t) h hm (Dev.ttoWidthExpiry_mem ..)
  | bissStartBitTimeout ch => exact State.run_same (f := fun d => d.bissStartBitTimeout ch) h hm (Dev.bissStartBitTimeout_mem ..)
  | idleFrame port hdr slp => exact State.run_same (f := fun d => d.idleFrame port hdr slp) h hm (Dev.idleFrame_mem ..)
  | zanyxBadFrame port typ len crcOk => exact State.run_same (f := fun d => d.zanyxBadFrame port len crcOk) h hm (Dev.zanyxBadFrame_mem ..)
  | ptpGeneralMessage msg master => exact State.run_same (f := fun d => d.ptpGeneralMessage msg master) h hm (Dev.ptpGeneralMessage_mem ..)
  | fieldSupplyRestored => exact State.run_same (f := fun d => d.fieldSupplyRestored) h hm (Dev.fieldSupplyRestored_mem ..)
  | pcieLinkTraining => exact State.run_same (f := fun d => d.pcieTrain) h hm (Dev.pcieTrain_mem ..)

/-- Settles O5: a command writes memory by bytes at addresses that exist, and otherwise only clears it. -/
theorem memoryStaysCanonical : Obligations.MemoryStaysCanonical := by
  intro s t hwf hok h
  unfold step at h
  cases hp : s.pending with
  | nil =>
    rw [hp] at h
    cases h
    exact ⟨hwf, hok⟩
  | cons c rest =>
    rw [hp] at h
    exact exec_canonical c h ⟨hwf, hok⟩

end Sys2Proof.Machine

end
